-- ==== Sys2Proof/Word.lean ====
section
/-!
DEFINITION. The word types of the FZ-96xx model: what the spec writes as registers and bytes.
-/
namespace Sys2Proof

/-- One register of BAR0 or of a context page (00_scope.md R10): 32 bits. -/
abbrev Word := BitVec 32

/-- One byte of an addressed memory. -/
abbrev Byte := BitVec 8

/-- A GT tick number (01_architecture.md R26).
GT does not wrap in service, so a tick is a natural number and its register view is its low 64 bits. -/
abbrev Tick := Nat

end Sys2Proof
end

