-- ==== Sys2Proof/Machine/Numeric.lean ====
section
/-!
DEFINITION. Exact numbers and the one rounding of the device (02_arithmetic.md R54, R58, R59):
extended dyadic numbers, roundTiesToEven into binary32 and BF16, and the exactly rounded primitives.
-/
namespace Sys2Proof.Machine

/-- A number the device can hold in an element or a vector register: NaN, an infinity, or
(−1)^neg × m × 2^e exactly (02_arithmetic.md R40, R58). `m = 0` is a signed zero. -/
inductive Num where
  | nan
  | inf (neg : Bool)
  | fin (neg : Bool) (m : Nat) (e : Int)
  deriving DecidableEq, Repr

/-- Number of bits below the top bit: ⌊log₂ m⌋ for m > 0. -/
def topBit (m : Nat) : Nat := Nat.log2 m

/-- ⌈log₂ k⌉, which is 0 for k ≤ 1 (02_arithmetic.md R49). -/
def ceilLog2 (k : Nat) : Nat := if k ≤ 1 then 0 else Nat.log2 (k - 1) + 1

/-- roundTiesToEven of m × 2^e, or of a value just above it where `sticky`, to a multiple of the
quantum of a format with `p` significand bits and lowest bit position `emin` (R54): the multiple and
the quantum's exponent. -/
def roundMag (p : Nat) (emin : Int) (m : Nat) (e : Int) (sticky : Bool) : Nat × Int :=
  if m = 0 then (0, emin) else
  let q : Int := max ((topBit m : Int) + e - ((p : Int) - 1)) emin
  if q ≤ e then (m <<< (e - q).toNat, q)
  else
    let k := (q - e).toNat
    let fl := m >>> k
    let rem := m - (fl <<< k)
    let half := 1 <<< (k - 1)
    let up := decide (half < rem) || (decide (rem = half) && (sticky || fl % 2 == 1))
    (if up then fl + 1 else fl, q)

/-- The magnitude code of a rounded value in a format with `p` significand bits: exponent field and
mantissa as one number, a carry of the mantissa running into the exponent field. -/
def magCode (p : Nat) (emin : Int) (n : Nat) (q : Int) : Nat :=
  (q - emin).toNat * 2 ^ (p - 1) + n

/-- The value of a magnitude code (R40): subnormal where the exponent field is 0. -/
def magVal (p : Nat) (emin : Int) (c : Nat) : Nat × Int :=
  let ef := c / 2 ^ (p - 1)
  let mf := c % 2 ^ (p - 1)
  if ef = 0 then (mf, emin) else (mf + 2 ^ (p - 1), emin + (ef : Int) - 1)

/-- The canonical NaN of R58. -/
def f32NaN : Word := 0x7FC00000#32

/-- The infinity of a sign in binary32. -/
def f32Inf (neg : Bool) : Word := if neg then 0xFF800000#32 else 0x7F800000#32

/-- binary32 from sign, magnitude and the inexactness of what was dropped below `m` (R54, R58). -/
def f32Round (neg : Bool) (m : Nat) (e : Int) (sticky : Bool) : Word :=
  let r := roundMag 24 (-149) m e sticky
  let c := magCode 24 (-149) r.1 r.2
  if c ≥ 255 * 2 ^ 23 then f32Inf neg
  else BitVec.ofNat 32 (c + if neg then 2 ^ 31 else 0)

/-- A number as binary32, rounded once (R54). -/
def Num.toF32 : Num → Word
  | .nan => f32NaN
  | .inf neg => f32Inf neg
  | .fin neg m e => f32Round neg m e false

/-- The exact value of a binary32 word (R40, R58). -/
def f32Num (x : Word) : Num :=
  let neg := x.getLsbD 31
  let c := x.toNat % 2 ^ 31
  if c ≥ 255 * 2 ^ 23 then (if c = 255 * 2 ^ 23 then .inf neg else .nan)
  else let v := magVal 24 (-149) c; .fin neg v.1 v.2

/-- A number as BF16, rounded once into the upper half of the binary32 layout (R54). -/
def Num.toBF16 : Num → BitVec 16
  | .nan => 0x7FC0#16
  | .inf neg => if neg then 0xFF80#16 else 0x7F80#16
  | .fin neg m e =>
    let r := roundMag 8 (-133) m e false
    let c := magCode 8 (-133) r.1 r.2
    if c ≥ 255 * 2 ^ 7 then (if neg then 0xFF80#16 else 0x7F80#16)
    else BitVec.ofNat 16 (c + if neg then 2 ^ 15 else 0)

/-- The exact value of a BF16 element: the upper half of a binary32 word (R40). -/
def bf16Num (x : BitVec 16) : Num := f32Num (BitVec.ofNat 32 (x.toNat * 2 ^ 16))

/-- A finite number from a signed integer; zero is +0. -/
def Num.ofInt (a : Int) (e : Int) : Num := .fin (decide (a < 0)) a.natAbs e

/-- Unsigned integer to binary32, rounded once (the `float(n)` of R61). -/
def f32OfNat (n : Nat) : Word := f32Round false n 0 false

/-- Exact sum with the signed-zero rule of IEEE 754-2019 under roundTiesToEven (R58). -/
def numAdd : Num → Num → Num
  | .nan, _ => .nan
  | _, .nan => .nan
  | .inf a, .inf b => if a = b then .inf a else .nan
  | .inf a, .fin .. => .inf a
  | .fin .., .inf b => .inf b
  | .fin n1 m1 e1, .fin n2 m2 e2 =>
    let e := min e1 e2
    let a : Int := (m1 <<< (e1 - e).toNat : Nat) * (if n1 then -1 else 1)
    let b : Int := (m2 <<< (e2 - e).toNat : Nat) * (if n2 then -1 else 1)
    let s := a + b
    if s = 0 then .fin (n1 && n2) 0 0 else .fin (decide (s < 0)) s.natAbs e

/-- Exact product (R58); infinity times zero is NaN. -/
def numMul : Num → Num → Num
  | .nan, _ => .nan
  | _, .nan => .nan
  | .inf a, .inf b => .inf (a != b)
  | .inf a, .fin n m _ => if m = 0 then .nan else .inf (a != n)
  | .fin n m _, .inf b => if m = 0 then .nan else .inf (n != b)
  | .fin n1 m1 e1, .fin n2 m2 e2 => .fin (n1 != n2) (m1 * m2) (e1 + e2)

/-- Sign change, exact (R59). -/
def numNeg : Num → Num
  | .nan => .nan
  | .inf a => .inf (!a)
  | .fin n m e => .fin (!n) m e

/-- Bits of quotient kept before the sticky bit: more than any format's significand. -/
def workBits : Nat := 64

/-- Primitive `add` (R59). -/
def fAdd (x y : Word) : Word := (numAdd (f32Num x) (f32Num y)).toF32
/-- Primitive `sub` (R59). -/
def fSub (x y : Word) : Word := (numAdd (f32Num x) (numNeg (f32Num y))).toF32
/-- Primitive `mul` (R59). -/
def fMul (x y : Word) : Word := (numMul (f32Num x) (f32Num y)).toF32
/-- Primitive `fma`: rounded once (R59). -/
def fFma (x y z : Word) : Word := (numAdd (numMul (f32Num x) (f32Num y)) (f32Num z)).toF32

/-- Primitive `div` (R59): IEEE 754, a finite nonzero over zero an infinity, zero over zero NaN. -/
def fDiv (x y : Word) : Word :=
  match f32Num x, f32Num y with
  | .nan, _ => f32NaN
  | _, .nan => f32NaN
  | .inf _, .inf _ => f32NaN
  | .inf a, .fin n _ _ => f32Inf (a != n)
  | .fin n _ _, .inf b => (Num.fin (n != b) 0 0).toF32
  | .fin n1 m1 e1, .fin n2 m2 e2 =>
    if m2 = 0 then (if m1 = 0 then f32NaN else f32Inf (n1 != n2))
    else
      let num := m1 <<< (2 * workBits)
      f32Round (n1 != n2) (num / m2) (e1 - e2 - 2 * workBits) (decide (num % m2 ≠ 0))

/-- ⌊√n⌋ bit by bit from bit `k` down. -/
def isqrtAux (n : Nat) : Nat → Nat → Nat
  | 0, r => if (r + 1) * (r + 1) ≤ n then r + 1 else r
  | k + 1, r =>
    let r' := r + 2 ^ (k + 1)
    isqrtAux n k (if r' * r' ≤ n then r' else r)

/-- ⌊√n⌋. -/
def isqrt (n : Nat) : Nat := isqrtAux n (topBit n / 2 + 1) 0

/-- Primitive `sqrt` (R59); √−0 is −0 and a negative argument gives NaN (IEEE 754, R58). -/
def fSqrt (x : Word) : Word :=
  match f32Num x with
  | .nan => f32NaN
  | .inf neg => if neg then f32NaN else f32Inf false
  | .fin neg m e =>
    if m = 0 then x
    else if neg then f32NaN
    else
      let odd : Nat := if e % 2 = 0 then 0 else 1
      let n := m <<< (2 * workBits + odd)
      let r := isqrt n
      f32Round false r ((e - odd) / 2 - workBits) (decide (r * r ≠ n))

/-- Primitive `rcp`: as div(1, x) (R59). -/
def fRcp (x : Word) : Word := fDiv 0x3F800000#32 x

/-- Primitive `rsqrt` with the special cases of R59, rounded once. -/
def fRsqrt (x : Word) : Word :=
  match f32Num x with
  | .nan => f32NaN
  | .inf neg => if neg then f32NaN else 0#32
  | .fin neg m e =>
    if m = 0 then f32Inf neg
    else if neg then f32NaN
    else
      let odd : Nat := if e % 2 = 0 then 0 else 1
      let d := m <<< odd
      let n := 1 <<< (4 * workBits)
      let r := isqrt (n / d)
      f32Round false r (-((e - odd) / 2) - 2 * workBits) (decide (r * r * d ≠ n))

/-- Fraction bits of the fixed-point work behind exp2 and log2.
DEDUCED: notes/assumptions/24. -/
def expBits : Nat := 256

/-- 2^f for a fraction with `n` bits left, `f` holding them, as fixed point with `expBits` fraction
bits: the product of the roots 2^(2^−i) of the set bits, `root` being the last root taken. -/
def exp2Frac : Nat → Nat → Nat → Nat → Nat
  | 0, _, _, acc => acc
  | n + 1, f, root, acc =>
    let root' := isqrt (root <<< expBits)
    exp2Frac n f root' (if f.testBit n then (acc * root') >>> expBits else acc)

/-- Primitive `exp2` (R59): exactly rounded. For |x| below 2^−26 the result rounds to 1.
DEDUCED: notes/assumptions/24. -/
def fExp2 (x : Word) : Word :=
  match f32Num x with
  | .nan => f32NaN
  | .inf neg => if neg then 0#32 else f32Inf false
  | .fin neg m e =>
    if m = 0 ∨ (topBit m : Int) + e < -26 then 0x3F800000#32
    else if (topBit m : Int) + e > 8 then (if neg then 0#32 else f32Inf false)
    else
      let sh : Nat := 50
      let v : Int := (if neg then -1 else 1) * ((m <<< ((e + sh).toNat) : Nat) : Int)
      let k : Int := v / ((2 : Int) ^ sh)
      let f : Nat := (v % ((2 : Int) ^ sh)).toNat
      if f = 0 then f32Round false 1 k false
      else f32Round false (exp2Frac sh f (2 <<< expBits) (1 <<< expBits)) (k - expBits) true

/-- The first `n` fraction bits of log₂ of the fixed-point `m` in [1, 2), by repeated squaring. -/
def log2Frac : Nat → Nat → Nat → Nat
  | 0, _, acc => acc
  | n + 1, m, acc =>
    let s := (m * m) >>> expBits
    if s ≥ 2 <<< expBits then log2Frac n (s >>> 1) (acc * 2 + 1) else log2Frac n s (acc * 2)

/-- Primitive `log2` (R59): exactly rounded.
DEDUCED: notes/assumptions/24. -/
def fLog2 (x : Word) : Word :=
  match f32Num x with
  | .nan => f32NaN
  | .inf neg => if neg then f32NaN else f32Inf false
  | .fin neg m e =>
    if m = 0 then f32Inf true
    else if neg then f32NaN
    else
      let k : Int := (topBit m : Int) + e
      if m = 2 ^ topBit m then (Num.ofInt k 0).toF32
      else
        let f := log2Frac 100 (m <<< (expBits - topBit m)) 0
        let v : Int := k * (2 : Int) ^ 100 + f
        if v < 0 then f32Round true (v.natAbs - 1) (-100) true
        else f32Round false v.natAbs (-100) true

/-- Primitive `neg` (R59): exact, then R58's NaN rule. -/
def fNeg (x : Word) : Word := (numNeg (f32Num x)).toF32

/-- Primitive `abs` (R59): exact, then R58's NaN rule. -/
def fAbs (x : Word) : Word :=
  match f32Num x with
  | .nan => f32NaN
  | .inf _ => f32Inf false
  | .fin _ m e => (Num.fin false m e).toF32

/-- A finite or infinite number's order key: −0 below +0 (R58). -/
def numKey : Num → Int × Int
  | .nan => (2, 0)
  | .inf neg => (if neg then -1 else 1, 0)
  | .fin neg m e => (0, (if neg then -1 else 1) * ((m <<< (e + 149).toNat : Nat) : Int))

/-- x < y as real numbers; false if either is NaN (R137 LT). -/
def fLt (x y : Word) : Bool :=
  match f32Num x, f32Num y with
  | .nan, _ => false
  | _, .nan => false
  | a, b => decide ((numKey a).1 < (numKey b).1) ||
      (decide ((numKey a).1 = (numKey b).1) && decide ((numKey a).2 < (numKey b).2))

/-- x = y as real numbers; false if either is NaN. -/
def fEq (x y : Word) : Bool :=
  match f32Num x, f32Num y with
  | .nan, _ => false
  | _, .nan => false
  | a, b => decide (numKey a = numKey b)

/-- x ≤ y as real numbers; false if either is NaN. -/
def fLe (x y : Word) : Bool := fLt x y || fEq x y

/-- MIN (R58): IEEE 754-2019 minimum, −0 below +0, NaN propagates. -/
def fMin (x y : Word) : Word :=
  match f32Num x, f32Num y with
  | .nan, _ => f32NaN
  | _, .nan => f32NaN
  | _, _ => if fLt x y then x else if fLt y x then y else if x.getLsbD 31 then x else y

/-- MAX (R58): IEEE 754-2019 maximum. -/
def fMax (x y : Word) : Word :=
  match f32Num x, f32Num y with
  | .nan, _ => f32NaN
  | _, .nan => f32NaN
  | _, _ => if fLt x y then y else if fLt y x then x else if x.getLsbD 31 then y else x

/-- Primitive `cvt` to BF16 and back to binary32 (R59, R137 CVTBF). -/
def fCvtBf (x : Word) : Word := BitVec.ofNat 32 ((f32Num x).toBF16.toNat * 2 ^ 16)

end Sys2Proof.Machine
end

