-- ==== Sys2Proof/Machine/Formats.lean ====
section
/-!
DEFINITION. Number formats, blocks, scale summaries and conversion into MX formats
(02_arithmetic.md R39 to R44, R48, R56, R57).
-/
namespace Sys2Proof

/-- The format codes in use (02_arithmetic.md R39). -/
inductive Format where
  | e4m3 | e5m2 | e3m2 | e2m3 | mxfp4 | mxint8 | zb4 | bf16 | fp32 | xacc112 | xacc144
  deriving DecidableEq, Repr

/-- The raw XACC tag: none, +∞, −∞, NaN (R46). -/
inductive Tag where
  | none | posInf | negInf | nan
  deriving DecidableEq, Repr

/-- One XACC element: the integer `A` and its tag; WE stands with the row group (R47). -/
structure Xacc where
  a : Int
  tag : Tag
  deriving DecidableEq, Repr

/-- One MX or ZB4 block: 32 element codes, the scale byte, and ZB4's slot word (R41, R43). -/
structure Block where
  codes : List Nat
  scale : Nat
  slots : Word
  deriving DecidableEq, Repr

/-- One row of a tensor in its format's own elements. -/
inductive Row where
  | blocks (bs : List Block)
  | half (xs : List (BitVec 16))
  | single (xs : List Word)
  | raw (we : Int) (xs : List Xacc)
  deriving DecidableEq, Repr

/-- The scale summary of a tensor: the all-zero flag, and `S` of an MX or ZB4 tensor or `E` of a BF16
one (R48). -/
structure Summary where
  allZero : Bool
  top : Nat
  deriving DecidableEq, Repr

/-- A tensor: its format, the elements of a row, its rows, its summary, and the row groups of a tensor that holds those of several
contexts: each one's context and its number of rows, in order (R50, R57); none where the rows are those of one context. -/
structure Tensor where
  fmt : Format
  cols : Nat
  rows : List Row
  summary : Summary
  groups : List (Nat × Nat)
  deriving DecidableEq, Repr

namespace Machine

/-- The 6-bit format code (R39); 0x00 and 0x0C to 0x3F name no format and are refused under R38. -/
def formatOfCode : Nat → Option Format
  | 1 => some .e4m3 | 2 => some .e5m2 | 3 => some .e3m2 | 4 => some .e2m3 | 5 => some .mxfp4
  | 6 => some .mxint8 | 7 => some .zb4 | 8 => some .bf16 | 9 => some .fp32
  | 10 => some .xacc112 | 11 => some .xacc144 | _ => none

/-- The code of a format (R39). -/
def formatCode : Format → Nat
  | .e4m3 => 1 | .e5m2 => 2 | .e3m2 => 3 | .e2m3 => 4 | .mxfp4 => 5 | .mxint8 => 6 | .zb4 => 7
  | .bf16 => 8 | .fp32 => 9 | .xacc112 => 10 | .xacc144 => 11

/-- A floating element encoding: significand bits, lowest bit position, largest finite magnitude code,
magnitude bits (R40). -/
structure ElemFmt where
  p : Nat
  emin : Int
  maxCode : Nat
  width : Nat

/-- The element encoding of an MX format with floating elements (R40). -/
def elemFmt : Format → ElemFmt
  | .e4m3 => ⟨4, -9, 0x7E, 8⟩
  | .e5m2 => ⟨3, -16, 0x7B, 8⟩
  | .e3m2 => ⟨3, -4, 0x1F, 6⟩
  | .e2m3 => ⟨4, -3, 0x1F, 6⟩
  | _ => ⟨2, -1, 0x7, 4⟩

/-- The top bit position `h` of the formats with a scale (R40, R44). -/
def topPos : Format → Int
  | .e4m3 => 8 | .e5m2 => 15 | .e3m2 => 4 | .e2m3 => 2 | .mxfp4 => 2 | .mxint8 => 1 | .zb4 => 8
  | _ => 0

/-- Bytes of one MX or ZB4 block (R39). -/
def blockBytes : Format → Nat
  | .e4m3 | .e5m2 | .mxint8 => 33
  | .e3m2 | .e2m3 => 25
  | .mxfp4 => 17
  | .zb4 => 21
  | _ => 0

/-- Whether a format's rows are MX or ZB4 blocks. -/
def formatIsBlock : Format → Bool
  | .bf16 | .fp32 | .xacc112 | .xacc144 => false
  | _ => true

/-- The value of an element code without its block scale (R40). -/
def elemNum (f : Format) (code : Nat) : Num :=
  match f with
  | .mxint8 =>
    let n : Int := if code % 256 ≥ 128 then (code % 256 : Int) - 256 else code % 256
    Num.ofInt n (-6)
  | _ =>
    let ef := elemFmt f
    let neg := code.testBit (ef.width - 1)
    let c := code % 2 ^ (ef.width - 1)
    if f = .e4m3 ∧ c = 0x7F then .nan
    else if f = .e5m2 ∧ c = 0x7C then .inf neg
    else if f = .e5m2 ∧ c > 0x7C then .nan
    else let v := magVal ef.p ef.emin c; .fin neg v.1 v.2

/-- A number times 2^k. -/
def numScale (k : Int) : Num → Num
  | .fin n m e => .fin n m (e + k)
  | x => x

/-- Element `i` of a block with its scale; a scale of 0xFF makes it NaN (R42, R44). -/
def blockNum (f : Format) (b : Block) (i : Nat) : Num :=
  if b.scale = 0xFF then .nan else
  let k : Int := (b.scale : Int) - 127
  let code := b.codes.getD i 0
  match f with
  | .zb4 =>
    let w := b.slots.toNat
    if w.testBit 27 ∧ w / 2 ^ 13 % 32 = i then numScale k (elemNum .e4m3 (w / 2 ^ 18 % 256))
    else if w.testBit 26 ∧ w % 32 = i then numScale k (elemNum .e4m3 (w / 2 ^ 5 % 256))
    else numScale k (elemNum .mxfp4 code)
  | _ => numScale k (elemNum f code)

/-- An XACC element's exact value with its group's WE; a tag wins over the integer (R47, R54). -/
def xaccNum (we : Int) (x : Xacc) : Num :=
  match x.tag with
  | .none => Num.ofInt x.a we
  | .posInf => .inf false
  | .negInf => .inf true
  | .nan => .nan

/-- The first `cols` elements of a row as exact numbers; padding elements are left out (R41). -/
def rowNums (f : Format) (cols : Nat) : Row → List Num
  | .blocks bs => ((bs.map fun b => (List.range 32).map (blockNum f b)).flatten).take cols
  | .half xs => (xs.map bf16Num).take cols
  | .single xs => (xs.map f32Num).take cols
  | .raw we xs => (xs.map (xaccNum we)).take cols

/-- All rows of a tensor as exact numbers. -/
def tensorNums (t : Tensor) : List (List Num) := t.rows.map (rowNums t.fmt t.cols)

/-- Whether a number is finite and not zero (R48). -/
def numLive : Num → Bool
  | .fin _ m _ => m ≠ 0
  | _ => false

/-- The summary part of one row: the largest scale, or exponent field, over finite nonzero elements
within the tensor's columns, and none where no such element exists (R48). -/
def rowTop (f : Format) (cols : Nat) : Row → Option Nat
  | .blocks bs =>
    (bs.zipIdx).foldl (fun acc bi =>
      let live := (List.range 32).any fun i => decide (bi.2 * 32 + i < cols) && numLive (blockNum f bi.1 i)
      if live && bi.1.scale ≠ 0xFF then some (max (acc.getD 0) bi.1.scale) else acc) none
  | .half xs =>
    (xs.take cols).foldl (fun acc x =>
      if numLive (bf16Num x) then some (max (acc.getD 0) (max 1 (x.toNat / 2 ^ 7 % 256))) else acc) none
  | _ => none

/-- The exact summary of a tensor from its own rows (R48). -/
def summaryOf (f : Format) (cols : Nat) (rows : List Row) : Summary :=
  let t := rows.foldl (fun acc r => match rowTop f cols r with
    | some v => some (max (acc.getD 0) v)
    | none => acc) (none : Option Nat)
  match t with
  | some v => ⟨false, v⟩
  | none => ⟨true, 0⟩

/-- The summary of a host-written tensor: the declared ceiling, or the format's largest scale; its
all-zero flag is always clear (R48). -/
def hostSummary (f : Format) (ceiling : Option Nat) : Summary :=
  ⟨false, ceiling.getD (if f = .bf16 then 254 else 0xFE)⟩

/-- The top `t` of an operand: |element| < 2^(t+1) (R48). -/
def operandTop (f : Format) (s : Summary) : Int :=
  if f = .bf16 then (s.top : Int) - 127 else (s.top : Int) - 127 + topPos f

/-- ⌊log₂|v|⌋ of a finite nonzero number. -/
def numHi : Num → Int
  | .fin _ m e => (topBit m : Int) + e
  | _ => 0

/-- Whether a number is NaN or an infinity. -/
def numSpecial : Num → Bool
  | .fin .. => false
  | _ => true

/-- One element of an MX block being written: v / 2^X rounded once, saturated, zero positive (R56
steps 4 to 6). -/
def mxElem (f : Format) (x : Int) (v : Num) : Nat :=
  match v with
  | .fin neg m e =>
    match f with
    | .mxint8 =>
      let k : Int := e - x + 6
      let r : Nat :=
        if 0 ≤ k then m <<< k.toNat
        else
          let s := (-k).toNat
          let fl := m >>> s
          let rem := m - (fl <<< s)
          let half := 1 <<< (s - 1)
          if half < rem ∨ (rem = half ∧ fl % 2 = 1) then fl + 1 else fl
      if neg then (256 - min r 128) % 256 else min r 127
    | _ =>
      let ef := elemFmt f
      let r := roundMag ef.p ef.emin m (e - x) false
      let c := min (magCode ef.p ef.emin r.1 r.2) ef.maxCode
      if c = 0 then 0 else if neg then c + 2 ^ (ef.width - 1) else c
  | _ => 0

/-- The element format's top position used by conversion: as `topPos` but 0 for MXINT8 (R56 step 3). -/
def convPos (f : Format) : Int := if f = .mxint8 then 0 else topPos f

/-- One MX block from 32 exact values, and whether the conversion was special (R56). -/
def mxBlock (f : Format) (vs : List Num) : Block × Bool :=
  if vs.any numSpecial then (⟨List.replicate 32 0, 0xFF, 0⟩, true)
  else
    let hi := (vs.filter numLive).foldl (fun (acc : Option Int) v => some (max (acc.getD (numHi v)) (numHi v))) none
    match hi with
    | none => (⟨List.replicate 32 0, 0, 0⟩, false)
    | some a =>
      let x := max (-127) (min 127 (a - convPos f))
      (⟨vs.map (mxElem f x), (x + 127).toNat, 0⟩, false)

/-- Consecutive pieces of 32, the last padded with zeros (R41, R56). -/
def chunks32 : Nat → List Num → List (List Num)
  | 0, _ => []
  | n + 1, xs => ((xs.take 32) ++ List.replicate (32 - (xs.take 32).length) (.fin false 0 0)) :: chunks32 n (xs.drop 32)

/-- A row of exact values written in a format, and whether any part of the conversion was special:
MX by R56, BF16 and FP32 by R54. Raw XACC and ZB4 are never written by a conversion (R39). -/
def rowConvert (f : Format) (vs : List Num) : Row × Bool :=
  match f with
  | .bf16 => (.half (vs.map Num.toBF16), vs.any numSpecial)
  | .fp32 | .zb4 | .xacc112 | .xacc144 => (.single (vs.map Num.toF32), vs.any numSpecial)
  | _ =>
    let bs := (chunks32 ((vs.length + 31) / 32) vs).map (mxBlock f)
    (.blocks (bs.map Prod.fst), bs.any Prod.snd)

/-- A tensor from rows of exact values, with its summary (R48, R56). -/
def tensorOf (f : Format) (cols : Nat) (vs : List (List Num)) : Tensor :=
  let rows := vs.map fun r => (rowConvert f r).1
  ⟨f, cols, rows, summaryOf f cols rows, []⟩

/-- The number of little-endian bytes `n` of a natural number. -/
def leBytes : Nat → Nat → List Byte
  | 0, _ => []
  | n + 1, v => BitVec.ofNat 8 v :: leBytes n (v / 256)

/-- The natural number of little-endian bytes. -/
def ofLeBytes : List Byte → Nat
  | [] => 0
  | b :: bs => b.toNat + 256 * ofLeBytes bs

/-- Codes of `w` bits packed little-endian, element 0 lowest (R41). -/
def packCodes (w : Nat) (cs : List Nat) : Nat := cs.foldr (fun c acc => c % 2 ^ w + acc * 2 ^ w) 0

/-- The bytes of a block as it is stored: codes, scale, and ZB4's slot word (R41, R43). -/
def blockToBytes (f : Format) (b : Block) : List Byte :=
  let w := if f = .zb4 then 4 else (if f = .mxint8 then 8 else (elemFmt f).width)
  leBytes (4 * w) (packCodes w b.codes) ++ leBytes 1 b.scale ++
    (if f = .zb4 then leBytes 4 b.slots.toNat else [])

/-- A block from its stored bytes (R41, R43). -/
def blockOfBytes (f : Format) (bs : List Byte) : Block :=
  let w := if f = .zb4 then 4 else (if f = .mxint8 then 8 else (elemFmt f).width)
  let v := ofLeBytes (bs.take (4 * w))
  ⟨(List.range 32).map fun i => v / 2 ^ (w * i) % 2 ^ w,
   ofLeBytes ((bs.drop (4 * w)).take 1),
   if f = .zb4 then BitVec.ofNat 32 (ofLeBytes ((bs.drop (4 * w + 1)).take 4)) else 0⟩

/-- The 2-bit code of a tag (R46). -/
def tagCode : Tag → Nat
  | .none => 0 | .posInf => 1 | .negInf => 2 | .nan => 3

/-- A raw XACC element in its container: A, the tag, reserved zeros (R57). -/
def xaccBytes (f : Format) (x : Xacc) : List Byte :=
  if f = .xacc144 then leBytes 18 ((x.a % (2 : Int) ^ 144).toNat) ++ leBytes 6 (tagCode x.tag)
  else leBytes 14 ((x.a % (2 : Int) ^ 112).toNat) ++ leBytes 2 (tagCode x.tag)

/-- The stored bytes of a row (R41, R57). -/
def rowBytes (f : Format) : Row → List Byte
  | .blocks bs => (bs.map (blockToBytes f)).flatten
  | .half xs => (xs.map fun x => leBytes 2 x.toNat).flatten
  | .single xs => (xs.map fun x => leBytes 4 x.toNat).flatten
  | .raw _ xs => (xs.map (xaccBytes f)).flatten

/-- The 32-byte row-group header of a raw XACC tensor (R57). -/
def rowGroupHeader (f : Format) (we : Int) (ctx rows elems : Nat) : List Byte :=
  leBytes 2 ((we % (2 : Int) ^ 16).toNat) ++ leBytes 1 (formatCode f) ++ leBytes 1 0 ++ leBytes 2 ctx ++
    leBytes 2 0 ++ leBytes 4 rows ++ leBytes 4 elems ++ leBytes 16 0

end Machine
end Sys2Proof
end

