-- ==== Sys2Proof/Machine/Codes.lean ====
section
/-!
DEFINITION. Check values and the digest and signature the spec names by their standards: CRCs, SHA-384,
ECDSA over P-384 (04_formulas_operations.md R102, R107, R108).
-/
namespace Sys2Proof.Machine

/-- One bit of a reflected CRC. -/
def crcBitRefl (poly : Nat) (r : Nat) : Nat := if r % 2 = 1 then (r / 2) ^^^ poly else r / 2

/-- One byte of a reflected CRC. -/
def crcByteRefl (poly : Nat) (r : Nat) (b : Byte) : Nat :=
  (List.range 8).foldl (fun r _ => crcBitRefl poly r) (r ^^^ b.toNat)

/-- A running reflected CRC register over bytes. -/
def crcRefl (poly : Nat) (r : Nat) (bs : List Byte) : Nat := bs.foldl (crcByteRefl poly) r

/-- One byte of a left-shifting CRC of width `w`. -/
def crcByteLeft (w poly : Nat) (r : Nat) (b : Byte) : Nat :=
  (List.range 8).foldl
    (fun r _ => if r.testBit (w - 1) then ((r * 2) % 2 ^ w) ^^^ poly else (r * 2) % 2 ^ w)
    (r ^^^ (b.toNat <<< (w - 8)))

/-- A running left-shifting CRC register over bytes. -/
def crcLeft (w poly : Nat) (r : Nat) (bs : List Byte) : Nat := bs.foldl (crcByteLeft w poly) r

/-- CRC-32C: reflected polynomial 0x82F63B78, Init and final XOR all ones. -/
def crc32c (bs : List Byte) : Nat := (crcRefl 0x82F63B78 0xFFFFFFFF bs) ^^^ 0xFFFFFFFF

/-- The big-endian bytes of a number. -/
def beBytes (n v : Nat) : List Byte := (leBytes n v).reverse

/-- The number of big-endian bytes. -/
def ofBeBytes (bs : List Byte) : Nat := ofLeBytes bs.reverse

/-- ⌊∛n⌋ bit by bit. -/
def icbrtAux (n : Nat) : Nat → Nat → Nat
  | 0, r => if (r + 1) ^ 3 ≤ n then r + 1 else r
  | k + 1, r =>
    let r' := r + 2 ^ (k + 1)
    icbrtAux n k (if r' ^ 3 ≤ n then r' else r)

/-- The primes up to 409, the 80th prime: those of the digest's round constants. -/
def smallPrimes : List Nat :=
  (List.range 410).filter fun n => 2 ≤ n && (List.range n).all fun d => d < 2 || n % d ≠ 0

/-- The 80 round constants of SHA-384: the first 64 fraction bits of the cube roots of the primes. -/
def shaK : List Nat := smallPrimes.map fun p => icbrtAux (p <<< 192) 70 0 % 2 ^ 64

/-- The initial hash value of SHA-384: the first 64 fraction bits of the square roots of the 9th to the
16th prime. -/
def sha384Init : List Nat := ((smallPrimes.drop 8).take 8).map fun p => isqrt (p <<< 128) % 2 ^ 64

/-- Right rotation of a 64-bit word. -/
def ror64 (x r : Nat) : Nat := (x / 2 ^ r) ||| (x * 2 ^ (64 - r) % 2 ^ 64)

/-- The message schedule of one block, newest word first. -/
def shaSchedule : Nat → List Nat → List Nat
  | 0, ws => ws
  | n + 1, ws =>
    let w2 := ws.getD 1 0
    let w15 := ws.getD 14 0
    let s1 := ror64 w2 19 ^^^ ror64 w2 61 ^^^ (w2 / 2 ^ 6)
    let s0 := ror64 w15 1 ^^^ ror64 w15 8 ^^^ (w15 / 2 ^ 7)
    shaSchedule n (((s1 + ws.getD 6 0 + s0 + ws.getD 15 0) % 2 ^ 64) :: ws)

/-- One round on the eight working words. -/
def shaRound (h : List Nat) (kw : Nat × Nat) : List Nat :=
  match h with
  | [a, b, c, d, e, f, g, hh] =>
    let t1 := hh + (ror64 e 14 ^^^ ror64 e 18 ^^^ ror64 e 41) + ((e &&& f) ^^^ ((2 ^ 64 - 1 - e) &&& g)) + kw.1 + kw.2
    let t2 := (ror64 a 28 ^^^ ror64 a 34 ^^^ ror64 a 39) + ((a &&& b) ^^^ (a &&& c) ^^^ (b &&& c))
    [(t1 + t2) % 2 ^ 64, a, b, c, (d + t1) % 2 ^ 64, e, f, g]
  | _ => h

/-- Compression of one 128-byte block. -/
def shaBlock (h : List Nat) (blk : List Byte) : List Nat :=
  let ws := (List.range 16).map fun i => ofBeBytes ((blk.drop (8 * i)).take 8)
  let sched := (shaSchedule 64 ws.reverse).reverse
  List.zipWith (fun a b => (a + b) % 2 ^ 64) h ((List.zip shaK sched).foldl shaRound h)

/-- Compression over `n` blocks. -/
def shaBlocks : Nat → List Nat → List Byte → List Nat
  | 0, h, _ => h
  | n + 1, h, bs => shaBlocks n (shaBlock h (bs.take 128)) (bs.drop 128)

/-- SHA-384 of a byte string, as the standard FIPS 180-4 gives it (R107).
PRESUMED: notes/assumptions/25. -/
def sha384 (msg : List Byte) : List Byte :=
  let pad := (239 - msg.length % 128) % 128
  let m := msg ++ [0x80#8] ++ List.replicate pad 0#8 ++ beBytes 16 (8 * msg.length)
  ((shaBlocks (m.length / 128) sha384Init m).take 6).flatMap (beBytes 8)

/-- The field prime of curve P-384. -/
def p384P : Nat := 2 ^ 384 - 2 ^ 128 - 2 ^ 96 + 2 ^ 32 - 1
/-- The group order of curve P-384. -/
def p384N : Nat := 0xFFFFFFFFFFFFFFFFFFFFFFFFFFFFFFFFFFFFFFFFFFFFFFFFC7634D81F4372DDF581A0DB248B0A77AECEC196ACCC52973
/-- The curve coefficient b of P-384. -/
def p384B : Nat := 0xB3312FA7E23EE7E4988E056BE3F82D19181D9C6EFE8141120314088F5013875AC656398D8A2ED19D2A85C8EDD3EC2AEF
/-- The base point of P-384. -/
def p384G : Nat × Nat :=
  (0xAA87CA22BE8B05378EB1C71EF320AD746E1D3B628BA79B9859F741E082542A385502F25DBF55296C3A545E3872760AB7,
   0x3617DE4A96262C6F5D9E98BF9292DC29F8F41DBD289A147CE9DA3113B5F0B8C00A60B1CE1D7E819D7A431D7C90EA0E5F)

/-- x^e modulo m over the bits of e, `n` bits left. -/
def powModAux (m : Nat) : Nat → Nat → Nat → Nat → Nat
  | 0, _, _, acc => acc
  | n + 1, x, e, acc => powModAux m n (x * x % m) (e / 2) (if e % 2 = 1 then acc * x % m else acc)

/-- The inverse modulo a 384-bit prime. -/
def invMod (m x : Nat) : Nat := powModAux m 384 (x % m) (m - 2) 1

/-- Point addition on P-384; `none` is the point at infinity. -/
def ecAdd : Option (Nat × Nat) → Option (Nat × Nat) → Option (Nat × Nat)
  | none, q => q
  | p, none => p
  | some (x1, y1), some (x2, y2) =>
    if x1 = x2 ∧ (y1 + y2) % p384P = 0 then none
    else
      let l := if x1 = x2 then (3 * x1 * x1 + (p384P - 3)) * invMod p384P (2 * y1) % p384P
        else (y2 + (p384P - y1)) * invMod p384P (x2 + (p384P - x1)) % p384P
      let x3 := (l * l + 2 * p384P - x1 - x2) % p384P
      some (x3, (l * (x1 + (p384P - x3)) + (p384P - y1)) % p384P)

/-- Scalar multiple over the bits of k, `n` bits left. -/
def ecMul : Nat → Nat → Option (Nat × Nat) → Option (Nat × Nat) → Option (Nat × Nat)
  | 0, _, _, acc => acc
  | n + 1, k, p, acc => ecMul n (k / 2) (ecAdd p p) (if k % 2 = 1 then ecAdd acc p else acc)

/-- Whether a public key is a point of P-384. -/
def onCurve (q : Nat × Nat) : Bool :=
  decide (q.1 < p384P) && decide (q.2 < p384P) &&
    decide (q.2 * q.2 % p384P = (q.1 ^ 3 + (p384P - 3) * q.1 + p384B) % p384P)

/-- ECDSA over P-384 with SHA-384: whether (r, s) is the key's signature of the message
(FIPS 186-5, R108). -/
def ecdsaVerify (key : Nat × Nat) (msg : List Byte) (r s : Nat) : Bool :=
  if r = 0 ∨ p384N ≤ r ∨ s = 0 ∨ p384N ≤ s ∨ !onCurve key then false
  else
    let w := invMod p384N s
    let z := ofBeBytes (sha384 msg)
    let pt := ecAdd (ecMul 384 (z * w % p384N) (some p384G) none) (ecMul 384 (r * w % p384N) (some key) none)
    match pt with
    | none => false
    | some (x, _) => decide (x % p384N = r)

end Sys2Proof.Machine
end

