-- ==== Sys2Proof/Machine/Formula.lean ====
section
/-!
DEFINITION. The Formula container: its parts, how a core is read, and the checks of a load
(04_formulas_operations.md R100 to R109, R113 to R115, R118, R135 to R138; 05_placement.md R154 to R156).
-/
namespace Sys2Proof

/-- Tensor roles (R106). -/
inductive Role where
  | weight | adapter | const | input | output | activation | kvK | kvV
  deriving DecidableEq, Repr

/-- One record of the tensor table (R105). -/
structure TensorDecl where
  id : Nat
  role : Role
  fmt : Format
  slot : Nat
  shard : Bool
  rank : Nat
  dims : List Nat
  ceil : Option Nat
  constOff : Option Nat
  deriving DecidableEq, Repr

/-- One entry of the weight manifest (R107). -/
structure ChunkDecl where
  tensor : Nat
  slot : Nat
  offset : Nat
  length : Nat
  digest : List Byte
  deriving DecidableEq, Repr

/-- One step record: its operations and its four branch entries (R113, R114). -/
structure StepRec where
  first : Nat
  count : Nat
  branches : List (Nat × Nat)
  deriving DecidableEq, Repr

/-- One operation record (R115). -/
structure OpRec where
  opcode : Nat
  outFmt : Nat
  kernel : Option Nat
  out : Option Nat
  ins : List (Option Nat)
  attr : List Byte
  deriving DecidableEq, Repr

/-- One microkernel: streams, shape, instruction words and constants (R135). -/
structure Kernel where
  nin : Nat
  rowWise : Bool
  instrs : List Word
  consts : List Word
  deriving DecidableEq, Repr

/-- One placement hint entry with the initial heats its data area gives (R154, R155). -/
structure Hint where
  tensor : Nat
  kind : Nat
  slot : Nat
  first : Nat
  count : Nat
  value : Nat
  heats : List Nat
  deriving DecidableEq, Repr

/-- A loaded Formula (R101 to R109). -/
structure Formula where
  abi : Nat
  sillage : Bool
  maxBatch : Nat
  minStacks : Nat
  formulaId : Nat
  weightBytes : Nat
  kvBytes : Nat
  maxSeq : Nat
  build : Nat
  entryPrefill : Nat
  entryDecode : Nat
  tensors : List TensorDecl
  chunks : List ChunkDecl
  steps : List StepRec
  ops : List OpRec
  kernels : List Kernel
  hints : List Hint
  constData : List Byte
  deriving DecidableEq, Repr

namespace Machine

/-- Completion statuses of the device, by mnemonic (04 R134; 09_host_rings.md's list). -/
def stOk : Nat := 0x00
def stBadDesc : Nat := 0x01
def stCtxState : Nat := 0x02
def stBadVersion : Nat := 0x03
def stRange : Nat := 0x04
def stFmlaFormat : Nat := 0x10
def stFmlaCrc : Nat := 0x11
def stFmlaSignature : Nat := 0x12
def stFmlaSvn : Nat := 0x13
def stFmlaOpset : Nat := 0x14
def stFmlaKernel : Nat := 0x15
def stFmlaShape : Nat := 0x16
def stFmlaCapacity : Nat := 0x17
def stFmlaDigest : Nat := 0x18
def stFmlaBusy : Nat := 0x19
def stFmlaState : Nat := 0x1A
def stFmlaLimit : Nat := 0x1B
def stFmlaStacks : Nat := 0x1C
def stXaccRange : Nat := 0x21
def stBadFormat : Nat := 0x22
def stSeqFull : Nat := 0x23
def stIndex : Nat := 0x24
def stNonfinite : Nat := 0x25
def stScanUnavailable : Nat := 0x26
def stNoSelection : Nat := 0x27
def stPeerLost : Nat := 0x28
def stNoBranch : Nat := 0x29
def stFault : Nat := 0x2A
def stCancelled : Nat := 0x2B
def stAddr : Nat := 0x2C
def stDenied : Nat := 0x2D

/-- The little-endian field of `n` bytes at offset `o` (00_scope.md R8: host memory, descriptors, Formulas and image fields are
little-endian). -/
def field (bs : List Byte) (o n : Nat) : Nat := ofLeBytes ((bs.drop o).take n)

/-- Bytes `o` to `o + n − 1`. -/
def slice (bs : List Byte) (o n : Nat) : List Byte := (bs.drop o).take n

/-- A reference to a tensor, 0xFFFF naming none (R105). -/
def tensorRef (v : Nat) : Option Nat := if v = 0xFFFF then none else some v

/-- One entry of the section table (R102). -/
structure Section where
  type : Nat
  crc : Nat
  offset : Nat
  length : Nat
  deriving DecidableEq, Repr

/-- The section table of a core (R102). -/
def sectionsOf (core : List Byte) : List Section :=
  (List.range (field core 0x10 2)).map fun i =>
    let o := 0x80 + 32 * i
    ⟨field core o 2, field core (o + 4) 4, field core (o + 8) 8, field core (o + 16) 8⟩

/-- The section of a type. -/
def sectionOf (ss : List Section) (t : Nat) : Option Section := ss.find? fun s => s.type == t

/-- The bytes of the section of a type; empty where it is absent. -/
def sectionBytes (core : List Byte) (ss : List Section) (t : Nat) : List Byte :=
  match sectionOf ss t with
  | some s => slice core s.offset s.length
  | none => []

/-- A tensor role from its code (R106). -/
def roleOfCode : Nat → Option Role
  | 1 => some .weight | 2 => some .adapter | 3 => some .const | 4 => some .input
  | 5 => some .output | 6 => some .activation | 7 => some .kvK | 8 => some .kvV | _ => none

/-- Reads a list of optional parts, failing if one fails. -/
def allSome {α : Type} : List (Option α) → Option (List α)
  | [] => some []
  | none :: _ => none
  | some x :: xs => (allSome xs).map (x :: ·)

/-- Elements of one token or of the whole tensor its DIMS describe. -/
def declElems (d : TensorDecl) : Nat := d.dims.foldl (· * ·) 1

/-- Innermost dimension. -/
def declCols (d : TensorDecl) : Nat := d.dims.getD 0 1

/-- The stored bytes of one row of `cols` elements (R39, R41, R57). -/
def rowSize (f : Format) (cols : Nat) : Nat :=
  match f with
  | .bf16 => 2 * cols
  | .fp32 => 4 * cols
  | .xacc112 => 16 * cols
  | .xacc144 => 24 * cols
  | _ => (cols + 31) / 32 * blockBytes f

/-- The packed bytes of a whole tensor (R41). -/
def declBytes (d : TensorDecl) : Nat := rowSize d.fmt (declCols d) * (declElems d / max 1 (declCols d))

/-- A row from its packed bytes (R41). -/
def rowOfBytes (f : Format) (cols : Nat) (bs : List Byte) : Row :=
  match f with
  | .bf16 => .half ((List.range cols).map fun i => BitVec.ofNat 16 (field bs (2 * i) 2))
  | .fp32 => .single ((List.range cols).map fun i => BitVec.ofNat 32 (field bs (4 * i) 4))
  | .xacc112 | .xacc144 => .raw 0 []
  | _ => .blocks ((List.range ((cols + 31) / 32)).map fun i => blockOfBytes f (slice bs (blockBytes f * i) (blockBytes f)))

/-- The rows of a tensor from its packed data (R41). -/
def rowsOfBytes (f : Format) (cols n : Nat) (bs : List Byte) : List Row :=
  (List.range n).map fun i => rowOfBytes f cols (slice bs (rowSize f cols * i) (rowSize f cols))

/-- The formats a role admits (R106, R124). -/
def roleAllows (r : Role) (f : Format) : Bool :=
  match r with
  | .weight | .adapter | .const => f ≠ .xacc112 && f ≠ .xacc144
  | .input => f ≠ .xacc112 && f ≠ .xacc144 && f ≠ .zb4
  | .output | .activation => f ≠ .zb4
  | .kvK | .kvV => f = .e4m3 || f = .e5m2 || f = .mxint8 || f = .bf16

/-- One tensor record, or the status of its fault (R105, R106). A format code that R39 does not define is refused under
01_architecture.md R38 with ST_RANGE, although check 7 of R109 lists three other statuses.
DESIGN CHOICE: notes/assumptions/81. -/
def tensorDeclOf (b : List Byte) : Except Nat TensorDecl :=
  match roleOfCode (field b 2 1) with
  | none => .error stFmlaFormat
  | some role =>
    match formatOfCode (field b 3 1 % 64) with
    | none => .error stRange
    | some fmt =>
      let rank := field b 4 1
      let dims := (List.range 4).map fun i => field b (8 + 4 * i) 4
      if field b 0 2 = 0xFFFF ∨ rank = 0 ∨ 4 < rank then .error stFmlaFormat
      else if (role ≠ .adapter ∧ field b 5 1 ≠ 0) then .error stFmlaFormat
      else if dims.any (fun d => d = 0 ∨ 2 ^ 26 < d) ∨ (dims.drop rank).any (· ≠ 1) then .error stFmlaFormat
      else if !roleAllows role fmt then .error stBadFormat
      else .ok
        { id := field b 0 2, role := role, fmt := fmt, slot := field b 5 1, shard := field b 6 1 % 2 = 1,
          rank := rank, dims := dims,
          ceil := if field b 0x18 1 = 1 then some (field b 0x19 1) else none,
          constOff := if field b 0x20 8 = 2 ^ 64 - 1 then none else some (field b 0x20 8) }

/-- Runs a reader over records until one fails. -/
def readAll {α : Type} (rd : List Byte → Except Nat α) : List (List Byte) → Except Nat (List α)
  | [] => .ok []
  | b :: bs => match rd b with
    | .error e => .error e
    | .ok x => match readAll rd bs with
      | .error e => .error e
      | .ok xs => .ok (x :: xs)

/-- `n` records of `size` bytes from offset `o`. -/
def records (bs : List Byte) (o size n : Nat) : List (List Byte) :=
  (List.range n).map fun i => slice bs (o + size * i) size

/-- One manifest entry (R107). -/
def chunkDeclOf (b : List Byte) : ChunkDecl :=
  ⟨field b 0 2, field b 2 1, field b 8 8, field b 0x10 4, slice b 0x18 48⟩

/-- One step record (R113). -/
def stepRecOf (b : List Byte) : StepRec :=
  ⟨field b 0 4, field b 4 2, (List.range 4).map fun i => (field b (8 + 4 * i) 1, field b (10 + 4 * i) 2)⟩

/-- One operation record (R115). -/
def opRecOf (b : List Byte) : OpRec :=
  ⟨field b 0 1, field b 1 1 % 64, tensorRef (field b 2 2), tensorRef (field b 4 2),
   (List.range 4).map fun i => tensorRef (field b (6 + 2 * i) 2), slice b 0x10 48⟩

/-- The kernels of a MICROKERNELS section, `n` left from offset `o` (R135). -/
def kernelsOf (b : List Byte) : Nat → Nat → Option (List Kernel)
  | 0, _ => some []
  | n + 1, o =>
    let size := field b o 2
    let ninstr := field b (o + 4) 2
    let nconst := field b (o + 6) 2
    if b.length < o + 16 ∨ size ≠ 16 + 4 * ninstr + 4 * nconst ∨ 4096 < size ∨ 256 < nconst ∨ b.length < o + size ∨
        field b (o + 2) 1 = 0 ∨ 4 < field b (o + 2) 1 ∨ 1 < field b (o + 3) 1 then none
    else
      let k : Kernel :=
        ⟨field b (o + 2) 1, field b (o + 3) 1 = 1,
         (List.range ninstr).map fun i => BitVec.ofNat 32 (field b (o + 16 + 4 * i) 4),
         (List.range nconst).map fun i => BitVec.ofNat 32 (field b (o + 16 + 4 * ninstr + 4 * i) 4)⟩
      (kernelsOf b n ((o + size + 15) / 16 * 16)).map (k :: ·)

/-- How many granules or experts a hint entry covers of a tensor of `n` of them; a COUNT of 0 means all from FIRST on (R154). -/
def hintCount (first count n : Nat) : Nat := if count = 0 then n - first else count

/-- One hint entry; `dat` is the section's data area, `ts` the tensor table (R154, R155). -/
def hintOf (ts : List TensorDecl) (dat : List Byte) (b : List Byte) : Hint :=
  let kind := field b 2 1
  let experts := match ts.find? fun t => t.id == field b 0 2 with | some t => t.dims.getD 2 1 | none => 0
  ⟨field b 0 2, kind, field b 3 1, field b 4 4, field b 8 4, field b 12 4,
   if kind = 3 then (List.range (min 4096 (hintCount (field b 4 4) (field b 8 4) experts))).map fun i => field dat (field b 16 4 + 2 * i) 2 else []⟩

/-- Whether the data an EXPERT_PRIOR entry names lies in the data area (R154, R155). -/
def hintDataOk (ts : List TensorDecl) (dataLen : Nat) (b : List Byte) : Bool :=
  field b 2 1 ≠ 3 || decide (field b 16 4 + 2 * (hintOf ts [] b).heats.length ≤ dataLen)

/-- Whether two byte ranges overlap. -/
def overlaps (a b : Nat × Nat) : Bool := decide (a.1 < b.1 + b.2) && decide (b.1 < a.1 + a.2)

/-- Whether no two ranges of a list overlap. -/
def disjoint : List (Nat × Nat) → Bool
  | [] => true
  | r :: rs => rs.all (fun q => !overlaps r q) && disjoint rs

/-- Whether every byte of the core outside the given ranges is zero (R104). -/
def gapsZero (core : List Byte) (rs : List (Nat × Nat)) : Bool :=
  (core.zipIdx).all fun bi => bi.1 = 0#8 || rs.any fun r => decide (r.1 ≤ bi.2) && decide (bi.2 < r.1 + r.2)

/-- Check 2 of R109: header, section table and layout, and the descriptor's length. -/
def checkLayout (descLen : Nat) (core : List Byte) : Except Nat Unit :=
  let ss := sectionsOf core
  let n := field core 0x10 2
  let ranges := ss.map fun s => (s.offset, s.length)
  let types := ss.map (·.type)
  let sig := sectionOf ss 7
  let okHeader := field core 0 4 = 0x4C4D5246 ∧ field core 4 1 = 1 ∧ field core 8 8 = core.length ∧
    core.length = descLen ∧ core.length ≤ 2 ^ 28 ∧ 3 ≤ n ∧ n ≤ 7 ∧
    1 ≤ field core 0x12 2 ∧ field core 0x12 2 ≤ 4096 ∧ 1 ≤ field core 0x14 1 ∧ field core 0x14 1 ≤ 8 ∧
    1 ≤ field core 0x34 4 ∧ field core 0x34 4 ≤ 4194304
  let okTypes := types.all (fun t => 1 ≤ t && t ≤ 7) && types.Nodup && types.contains 1 && types.contains 2 && types.contains 7
  let okPlace := ss.all (fun s => s.offset % 128 = 0 && s.offset + s.length ≤ core.length) &&
    disjoint ((0, 0x80 + 32 * n) :: ranges)
  let okSig := match sig with
    | some s => s.length = 128 && s.offset + 128 = core.length && ss.all (fun q => q.offset ≤ s.offset)
    | none => false
  if ¬ okHeader ∨ !okTypes ∨ !okPlace ∨ !okSig ∨ !gapsZero core ((0, 0x80 + 32 * n) :: ranges) then .error stFmlaFormat
  else if field core 5 1 % 16 ≠ 1 then .error stBadVersion
  else .ok ()

/-- Check 4 of R109: every section CRC but the signature's (R102). -/
def checkCrcs (core : List Byte) : Bool :=
  (sectionsOf core).all fun s => s.type = 7 || crc32c (slice core s.offset s.length) = s.crc

/-- A signer slot as the secure world provisions it (13_tenancy_security.md R429, R445). -/
structure SignerSlot where
  en : Bool
  keyed : Bool
  key : Nat × Nat
  minSvn : Nat
  deriving DecidableEq, Repr

/-- Check 5 of R109: the signature section against its slot (R108). -/
def checkSignature (slots : List SignerSlot) (core : List Byte) : Except Nat Unit :=
  let sg := slice core (core.length - 128) 128
  match slots[field sg 0 1]? with
  | none => .error stFmlaSignature
  | some sl =>
    if !sl.en ∨ !sl.keyed ∨ field sg 1 1 ≠ 1 ∨
        !ecdsaVerify sl.key (core.take (core.length - 128 + 16)) (ofBeBytes (slice sg 0x10 48)) (ofBeBytes (slice sg 0x40 48))
    then .error stFmlaSignature
    else if field sg 2 2 < sl.minSvn then .error stFmlaSvn
    else .ok ()

/-- Reads the structures of a core whose layout has passed (R105, R107, R113, R115, R135, R154); the
kernels are none where their section breaks R135. Bytes a section lacks read as zero, so a MICROKERNELS section shorter than its 8-byte
prefix holds no kernels.
DESIGN CHOICE: notes/assumptions/107. -/
def parseCore (core : List Byte) : Except Nat (Formula × Bool) :=
  let ss := sectionsOf core
  let tt := sectionBytes core ss 2
  let sp := sectionBytes core ss 1
  let wm := sectionBytes core ss 3
  let mk := sectionBytes core ss 4
  let ph := sectionBytes core ss 5
  let short (t : Nat) (b : List Byte) (n : Nat) : Bool := (sectionOf ss t).isSome && decide (b.length < n)
  let nT := field tt 0 4
  let nS := field sp 0 2
  let nO := field sp 6 4
  let nC := field wm 0 4
  let nH := field ph 0 4
  if nT = 0 ∨ 65535 < nT ∨ tt.length < 8 + 64 * nT ∨ nS = 0 ∨ 256 < nS ∨ 65536 < nO ∨
      sp.length < 16 + 32 * nS + 64 * nO ∨ short 3 wm (8 + 80 * nC) ∨ short 5 ph (16 + 32 * nH + field ph 4 4) ∨ 65535 < nH then .error stFmlaFormat
  else
    match readAll tensorDeclOf (records tt 8 64 nT) with
    | .error e => .error e
    | .ok ts =>
      if !((records ph 16 32 nH).all (hintDataOk ts (field ph 4 4))) then .error stFmlaFormat
      else
      let ks := if mk = [] then some [] else if 256 < field mk 0 2 then none else kernelsOf mk (field mk 0 2) 16
      .ok
        ({ abi := field core 5 1 % 16, sillage := field core 6 2 % 2 = 1, maxBatch := field core 0x12 2,
           minStacks := field core 0x14 1, formulaId := field core 0x18 16, weightBytes := field core 0x28 8,
           kvBytes := field core 0x30 4, maxSeq := field core 0x34 4, build := field core 0x38 4,
           entryPrefill := field sp 2 2, entryDecode := field sp 4 2, tensors := ts,
           chunks := (records wm 8 80 nC).map chunkDeclOf,
           steps := (records sp 16 32 nS).map stepRecOf,
           ops := (records sp (16 + 32 * nS) 64 nO).map opRecOf,
           kernels := ks.getD [],
           hints := (records ph 16 32 nH).map (hintOf ts (slice ph (16 + 32 * nH) (field ph 4 4))),
           constData := sectionBytes core ss 6 }, ks.isSome)

/-- Check 6 of R109 on the core's bytes: the opcode of every operation record the section holds is in the operation set (R118). -/
def opsetOk (core : List Byte) : Bool :=
  let sp := sectionBytes core (sectionsOf core) 1
  let o := 16 + 32 * field sp 0 2
  (records sp o 64 (min (field sp 6 4) ((sp.length - o) / 64))).all fun b => decide (1 ≤ field b 0 1) && decide (field b 0 1 ≤ 0x13)

/-- The tensor record of an ID. -/
def formulaDecl (f : Formula) (id : Nat) : Option TensorDecl := f.tensors.find? fun d => d.id == id

end Machine
end Sys2Proof
end

