-- ==== Sys2Proof/Config.lean ====
section
/-!
DEFINITION. What one part fixes for its life (fuses, ROM, straps of the board) and the free values the
spec leaves open. None of these has a body: nothing in Lean can evaluate one.
-/
namespace Sys2Proof.Config

/-- The order code of the part: 0 FZ-9620-B0, 1 FZ-9618-B0, 2 FZ-9614-B0 (00_scope.md R2).
DESIGN CHOICE: notes/assumptions/3. -/
opaque grade : Fin 3
/-- The 64-bit serial number, fused (18 R564).
DESIGN CHOICE: notes/assumptions/3. -/
opaque serial : BitVec 64
/-- The order in which the test of a part would fuse its tiles off, a tile numbered die * 96 + index: which tiles they are
is a part's own (00_scope.md R2, R3; 03_harrel_stacks.md R88, R90).
DESIGN CHOICE: notes/assumptions/3. -/
opaque fuseRank : Nat → Nat
/-- FLC_ID.ROM_VER, fixed in ROM (16_flacon.md R528).
DESIGN CHOICE: notes/assumptions/3. -/
opaque flcRomVer : BitVec 16
/-- FLC_ROM_CRC, fixed in ROM (16 R528).
DESIGN CHOICE: notes/assumptions/3. -/
opaque flcRomCrc : BitVec 32
/-- SEC_STATUS.SVN_FLOOR, fused (13_tenancy_security.md R441).
DESIGN CHOICE: notes/assumptions/3. -/
opaque svnFloor : BitVec 8
/-- SEC_STATUS.ROOT2, fused (13 R441).
DESIGN CHOICE: notes/assumptions/3. -/
opaque root2 : Bool
/-- SEC_STATUS.DEBUG_LOCKED, fused (13 R441).
DESIGN CHOICE: notes/assumptions/3. -/
opaque debugLocked : Bool

/-- A value the spec leaves open, one per draw of the counter `State.free`.
DESIGN CHOICE: notes/assumptions/11. -/
opaque freeWord : Nat → Word
/-- The element an operation reads from a tensor row that no operation has written: the spec states
none.
DESIGN CHOICE: notes/assumptions/11. -/
opaque unwritten (tensor index : Nat) : Word
/-- The tile, by its place in the tiling's list, that a tiling gives a block of an operation's output and part of its reduction
dimension: within the constraints of 05_placement.md R150 a tiling is the Director's free choice (R151). `draw` numbers the
tilings computed.
DESIGN CHOICE: notes/assumptions/12. -/
opaque blockTile (draw block part : Nat) : Nat
/-- In how many parts a tiling splits the reduction dimension.
DESIGN CHOICE: notes/assumptions/12. -/
opaque splitK (draw : Nat) : Nat
/-- The tile, by its place among those that may hold it, that a tiling reserves as a block's reduction destination.
DESIGN CHOICE: notes/assumptions/12. -/
opaque rootTile (draw block : Nat) : Nat
/-- Flits, stall cycles and deepest queue that the tile, ingress, egress and control traffic of an operation leaves at a
router's port: its transfers are the tiling's, and no command of the table carries them (03_harrel_stacks.md R95, R96).
DESIGN CHOICE: notes/assumptions/10. -/
opaque meshTraffic (draw key : Nat) : Nat × Nat × Nat
/-- Source and destination routers of a stack's ready report on class C4, which the spec does not name (03 R71).
DESIGN CHOICE: notes/assumptions/12. -/
opaque reportRoute (stack : Nat) : BitVec 8 × BitVec 8
/-- The ticks in which a tile of a domain waited for operands while an operation ran, at most its length: no command of the table
carries operand transfers (05 R152). `draw` numbers the operations.
DESIGN CHOICE: notes/assumptions/10. -/
opaque stallTicks (draw : Nat) : Nat
/-- Whether a peer holds an instance with a FORMULA_ID and a matching manifest digest (05 R168).
DESIGN CHOICE: notes/assumptions/12. -/
opaque peerHolds (dev formulaId : Nat) : Bool
/-- GiB of its T2 that a peer lends (05 R161, R176): its own PLC_LEND.
DESIGN CHOICE: notes/assumptions/12. -/
opaque peerLend (dev : Nat) : Nat
/-- Which of a reservoir's unit copies holds the word at a local address, by its number among them: the Director
chooses where copies lie (05_placement.md R140).
DESIGN CHOICE: notes/assumptions/12. -/
opaque copyAt (addr : Nat) : Nat
/-- Which of a port die's unit homes holds the codeword at a local address, by its number among them.
DESIGN CHOICE: notes/assumptions/12. -/
opaque homeAt (addr : Nat) : Nat
/-- Which set of which pair, as pair * 2 + set, a granule of a mirror reserve or of lent T2 is fenced for: the
Director chooses where mirror homes lie (12_mirrored_pairs.md R398, R403).
DESIGN CHOICE: notes/assumptions/12. -/
opaque fenceAt (granule : Nat) : Option Nat
/-- The context whose units a granule of T1 or T2 holds: the Director chooses where they lie (05 R140, R142).
DESIGN CHOICE: notes/assumptions/12. -/
opaque granuleOwner (granule : Nat) : Nat
/-- The instance whose weights a granule of its owner holds; none for space of the owner's session.
DESIGN CHOICE: notes/assumptions/12. -/
opaque granuleInst (granule : Nat) : Option Nat
/-- The context whose staged Formula core a codeword of a hub reserve holds.
DESIGN CHOICE: notes/assumptions/12. -/
opaque stagingAt (addr : Nat) : Option Nat
/-- Where in the hub reserve or in a placed home a descriptor's data is copied to (10_dma_check.md R332), by a draw.
DEDUCED: notes/assumptions/119. -/
opaque loadAt (draw : Nat) : BitVec 45
/-- The root verification hash in force, fused: the SHA-384 of the root public key (13 R429, 15_reset_boot.md R494).
DESIGN CHOICE: notes/assumptions/3. -/
opaque rootHash : List (BitVec 8)
/-- The port die that holds copy `i` of the fault log (17_faults.md R543): the spec does not say which two do.
DESIGN CHOICE: notes/assumptions/12. -/
opaque logPort (i : Nat) : BitVec 2
/-- A field that shows an analog quantity or a time the model does not hold, by the offset of its register, what the
register's selection names, and the tick it is read.
DESIGN CHOICE: notes/assumptions/10. -/
opaque fieldView (off sel gt : Nat) : Nat
/-- The random draw of a nonzero sampler seed (02_arithmetic.md R64), before zero is excluded.
DESIGN CHOICE: notes/assumptions/11. -/
opaque seedDraw : Nat → BitVec 64

/-- The weight map that the image's calibration seeds give a bank, whose layout the spec does not give (06 R200).
DESIGN CHOICE: notes/assumptions/100. -/
opaque seedMap : Nat → List (List Nat)

/-- The ticks the Director predicts an operation of an opcode to run, over a number of rows (01 R23; 13 R436): the spec gives no prediction.
DEDUCED: notes/assumptions/8. -/
opaque predictedRun (opcode rows : Nat) : Nat

/-- The seed thermal resistance of a die (07 R241), which the calibration seeds hold in a layout the spec does not give: 1/16 °C per
1/64 W, times 65,536.
DESIGN CHOICE: notes/assumptions/116. -/
opaque theta (die : Nat) : Nat

/-- FLC_ADDR[1:0] as the board ties it (19_package_pins.md R586).
DESIGN CHOICE: notes/assumptions/102. -/
opaque flcAddr : BitVec 2

end Sys2Proof.Config
end

