-- ==== Sys2Proof/Machine/XaccOps.lean ====
section
/-!
DEFINITION. Exact accumulation: operand pairs, windows, admission of product terms, dot products,
combination of partial sums (02_arithmetic.md R45 to R54, R57).
-/
namespace Sys2Proof.Machine

/-- Accumulator width of an operand pair, or none where the pair is refused with ST_BAD_FORMAT (R45). -/
def pairWidth (a b : Format) : Option Nat :=
  match a with
  | .zb4 | .fp32 | .xacc112 | .xacc144 => none
  | _ => match b with
    | .fp32 | .xacc112 | .xacc144 => none
    | _ => some (if a = .bf16 ∨ b = .bf16 then 144 else 112)

/-- The raw XACC format of a width (R39). -/
def rawFormat (w : Nat) : Format := if w = 144 then .xacc144 else .xacc112

/-- WE of a row group (R49); 0 where either operand is all zero. -/
def windowWE (w : Nat) (fa : Format) (sa : Summary) (fb : Format) (sb : Summary) (kmax : Nat) : Int :=
  if sa.allZero || sb.allZero then 0
  else operandTop fa sa + operandTop fb sb + 1 + (ceilLog2 kmax : Int) - ((w : Int) - 2)

/-- The accumulator's tag with one more tag (R46). -/
def tagJoin : Tag → Tag → Tag
  | .none, t => t
  | t, .none => t
  | .posInf, .posInf => .posInf
  | .negInf, .negInf => .negInf
  | _, _ => .nan

/-- The tag of a product term (R46): of its exact product. -/
def termTag : Num → Tag
  | .nan => .nan
  | .inf neg => if neg then .negInf else .posInf
  | .fin .. => .none

/-- What a sum over product terms has come to: the accumulator, whether a term was over range, and
the flush and truncation counts (R51). -/
structure Acc where
  x : Xacc
  overRange : Bool
  flush : Nat
  trunc : Nat
  deriving DecidableEq, Repr

/-- The empty sum. -/
def Acc.zero : Acc := ⟨⟨0, .none⟩, false, 0, 0⟩

/-- Two's-complement wrap to `w` bits (R47). -/
def wrapW (w : Nat) (a : Int) : Int := a.bmod (2 ^ w)

/-- Admission of one product term into a window (R51). -/
def admitTerm (w : Nat) (we : Int) (g : Nat) (acc : Acc) (p : Num) : Acc :=
  match p with
  | .fin neg m e =>
    if m = 0 then acc
    else
      let hi : Int := (topBit m : Int) + e
      if hi > we + (w : Int) - 2 - (g : Int) then { acc with overRange := true }
      else
        let q : Nat := if we ≤ e then m <<< (e - we).toNat else m >>> (we - e).toNat
        let exact : Bool := decide (we ≤ e) || decide (q <<< (we - e).toNat = m)
        { acc with
          x := { acc.x with a := wrapW w (acc.x.a + if neg then -(q : Int) else q) }
          flush := acc.flush + if hi < we then 1 else 0
          trunc := acc.trunc + if we ≤ hi && !exact then 1 else 0 }
  | t => { acc with x := { acc.x with tag := tagJoin acc.x.tag (termTag t) } }

/-- The exact dot product of two lists of elements in one window (R46, R51). -/
def dot (w : Nat) (we : Int) (g : Nat) (as bs : List Num) : Acc :=
  (List.zipWith numMul as bs).foldl (admitTerm w we g) Acc.zero

/-- Two partial sums of one WE added: modulo 2^W, tags combined, counts summed (R53). -/
def accAdd (w : Nat) (a b : Acc) : Acc :=
  ⟨⟨wrapW w (a.x.a + b.x.a), tagJoin a.x.tag b.x.tag⟩, a.overRange || b.overRange, a.flush + b.flush, a.trunc + b.trunc⟩

/-- Two raw XACC values of one WE added (R53, R57). -/
def xaccAdd (w : Nat) (a b : Xacc) : Xacc := ⟨wrapW w (a.a + b.a), tagJoin a.tag b.tag⟩

/-- Conversion out of XACC to binary32 (R54). -/
def xaccToF32 (we : Int) (x : Xacc) : Word := (xaccNum we x).toF32

/-- The result of one row group of a tensor-array product: the WE in force, the rows of sums, whether
any term was over range, and the row group's counts (R50, R51). -/
structure GroupSums where
  we : Int
  rows : List (List Xacc)
  overRange : Bool
  flush : Nat
  trunc : Nat
  deriving DecidableEq, Repr

/-- Every row of A against every row of B (the weights, K innermost), in one window (R49 to R51). -/
def groupProduct (w : Nat) (we : Int) (kmax : Nat) (as bs : List (List Num)) : GroupSums :=
  let accs := as.map fun a => bs.map fun b => dot w we (ceilLog2 kmax) a b
  let all := accs.flatten
  ⟨we, accs.map (·.map Acc.x), all.any Acc.overRange,
   (all.map Acc.flush).sum, (all.map Acc.trunc).sum⟩

/-- The group's product with WE raised by 16 `n` times (R52). -/
def groupProductRaised (w : Nat) (we : Int) (kmax : Nat) (as bs : List (List Num)) (n : Nat) : GroupSums :=
  groupProduct w (we + 16 * (n : Int)) kmax as bs

end Sys2Proof.Machine
end

