-- ==== Sys2Proof/Machine/FormulaCheck.lean ====
section
/-!
DEFINITION. Checks 6 to 8 of a Formula load: the operation set, the tables, shapes and attribute
ranges, and the microkernel sandbox (04_formulas_operations.md R109, R118 to R133, R135 to R138;
05_placement.md R155, R156; 06_sillage.md R192, R194).
-/
namespace Sys2Proof.Machine

/-- `n` attribute bytes of an operation record at ATTR offset `o` (R118). -/
def attr (r : OpRec) (o n : Nat) : Nat := field r.attr o n

/-- Input `i` of an operation record. -/
def opIn (r : OpRec) (i : Nat) : Option Nat := (r.ins.getD i none)

/-- The tensor record input `i` names. -/
def inDecl (f : Formula) (r : OpRec) (i : Nat) : Option TensorDecl := (opIn r i).bind (formulaDecl f)

/-- The tensor record OUT names. -/
def outDecl (f : Formula) (r : OpRec) : Option TensorDecl := r.out.bind (formulaDecl f)

/-- Dimension `i` of a tensor record. -/
def dim (d : TensorDecl) (i : Nat) : Nat := d.dims.getD i 1

/-- Whether a tensor, where there is one, is FP32. -/
def isF32 (d : Option TensorDecl) : Bool := d.all (·.fmt = .fp32)

/-- Whether a tensor, where there is one, has a number of elements. -/
def hasElems (d : Option TensorDecl) (n : Nat) : Bool := d.all (declElems · = n)

/-- Whether a tensor holds a row for each token, and not one set of data for every context (R106). -/
def perToken (d : TensorDecl) : Bool := d.role = .input || d.role = .output || d.role = .activation

/-- Whether an operation's kernel index is admitted by its opcode (R118). -/
def kernelAllowed (r : OpRec) : Bool :=
  match r.kernel with
  | none => r.opcode ≠ 0x0F
  | some _ => r.opcode = 1 || r.opcode = 2 || r.opcode = 5 || r.opcode = 6 || r.opcode = 0x0F

/-- Whether a raw XACC output is admitted (R118, R119). -/
def rawAllowed (r : OpRec) : Bool :=
  (r.opcode = 1 && (opIn r 2).isNone && r.kernel.isNone) || (0x10 ≤ r.opcode && r.opcode ≤ 0x13)

/-- Whether a format is raw XACC. -/
def isRaw (f : Format) : Bool := f = .xacc112 || f = .xacc144

/-- Shape and attribute checks of the attention operations (R124, R125, R192, R194). -/
def checkAttn (f : Formula) (r : OpRec) (sil : Bool) : Except Nat Unit :=
  match inDecl f r 0, inDecl f r 1, inDecl f r 2, outDecl f r with
  | some q, some k, some v, some o =>
    let d := attr r 4 2
    let g := attr r 6 1
    let pf := attr r 7 1
    if (formatOfCode pf).isNone then .error stRange
    else if k.role ≠ .kvK ∨ v.role ≠ .kvV ∨ d = 0 ∨ d % 32 ≠ 0 ∨ 256 < d ∨ g = 0 ∨ 16 < g ∨ (pf ≠ 8 ∧ pf ≠ 1) then .error stFmlaFormat
    else if !roleAllows .kvK q.fmt then .error stBadFormat
    else if declCols k ≠ d ∨ declCols v ≠ d ∨ declElems k ≠ declElems v ∨ declElems q ≠ g * declElems k ∨
        declElems o ≠ declElems q then .error stFmlaShape
    else if sil ∧ (attr r 16 2 < 64 ∨ 8192 < attr r 16 2 ∨ attr r 16 2 % 64 ≠ 0 ∨
        (attr r 18 1 ≠ 1 ∧ attr r 18 1 ≠ 2 ∧ attr r 18 1 ≠ 4 ∧ attr r 18 1 ≠ 8) ∨ 40 < attr r 19 1 ∨
        65536 < attr r 20 4 ∨ 1 < attr r 24 1) then .error stFmlaFormat
    else .ok ()
  | _, _, _, _ => .error stFmlaFormat

/-- Checks of one tray collective (R118, R132); `dev` is the device's own ID. Tokens are the outermost dimension of a tensor that has rows
for each, so a collective of one leaves a token's shape as it is. -/
def checkCollective (f : Formula) (r : OpRec) (dev : Nat) : Except Nat Unit :=
  match inDecl f r 0, outDecl f r with
  | some a, some o =>
    if !(attr r 0 1).testBit dev then .error stFmlaFormat
    else if r.opcode = 0x13 ∧ (8 ≤ attr r 1 1 ∨ !(attr r 0 1).testBit (attr r 1 1)) then .error stFmlaFormat
    else if o.fmt ≠ a.fmt ∨ (r.opcode = 0x10 ∧ !isRaw a.fmt) then .error stBadFormat
    else if declCols o ≠ declCols a ∨ (perToken a ∧ declElems o ≠ declElems a) then .error stFmlaShape
    else .ok ()
  | _, _ => .error stFmlaFormat

/-- Whether an operation may name a KV_K or KV_V tensor as input `j`: attention reads them, KV_APPEND appends to them (R106, R118). -/
def kvInput (r : OpRec) (j : Nat) : Bool :=
  ((r.opcode = 5 || r.opcode = 6) && (j = 1 || j = 2)) || (r.opcode = 7 && (j = 2 || j = 3))

/-- Whether the device writes a tensor of this role as an operation's output (R106). -/
def deviceWrites (d : TensorDecl) : Bool := d.role = .output || d.role = .activation

/-- Whether every input of an operation record satisfies a test of its place and record. -/
def allIns (f : Formula) (r : OpRec) (p : Nat → TensorDecl → Bool) : Bool :=
  (List.range 4).all fun j => match inDecl f r j with | some d => p j d | none => true

/-- Whether a tensor matches another in its innermost `j` dimensions, and its rows beyond repeat along the outer ones (R128, R133). -/
def repeatsAt (x d : TensorDecl) (j : Nat) : Bool :=
  decide (d.dims.take j = x.dims.take j) && decide (dim x j % max 1 (dim d j) = 0) && (d.dims.drop (j + 1)).all (· = 1)

/-- Whether operand `d` repeats along the outer dimensions of `x`: it has its innermost dimension at least (R128, R133). -/
def repeatsOn (x d : TensorDecl) : Bool := (List.range 4).any fun j => repeatsAt x d (j + 1)

/-- Whether the shape of stream `d` suits a kernel of SHAPE 0, or 1 where `rowWise` (R133). -/
def streamFits (rowWise : Bool) (x d : TensorDecl) : Bool :=
  repeatsOn x d || (rowWise && decide (declCols d = declCols x) && decide (declElems x % max 1 (declElems d) = 0))

/-- Whether an operation's tensors have roles it may use: outputs are written to OUTPUT and ACTIVATION tensors, KV tensors are
inputs of attention and KV_APPEND alone (R106).
DEDUCED: notes/assumptions/82. -/
def rolesOk (f : Formula) (r : OpRec) : Bool :=
  allIns f r (fun j d => (d.role ≠ .kvK && d.role ≠ .kvV) || kvInput r j) && (outDecl f r).all deviceWrites

/-- Whether ZB4 tensors are read only as operand B of the tensor arrays (02_arithmetic.md R44).
DEDUCED: notes/assumptions/83. -/
def zb4Ok (f : Formula) (r : OpRec) : Bool :=
  allIns f r fun j d => d.fmt ≠ .zb4 || (j = 1 && (r.opcode = 1 || r.opcode = 2))

/-- The per-opcode references, formats, shapes and attribute ranges of check 7 (R119 to R133); `kernels` is the number of kernels the
MICROKERNELS section declares. -/
def checkOp (f : Formula) (kernels dev : Nat) (r : OpRec) : Except Nat Unit :=
  let i0 := inDecl f r 0
  let i1 := inDecl f r 1
  let i2 := inDecl f r 2
  let o := outDecl f r
  if r.ins.any (fun t => t.any fun id => (formulaDecl f id).isNone) ∨
      (r.out.isSome ∧ o.isNone) ∨ !kernelAllowed r ∨ r.kernel.any (kernels ≤ ·) ∨ !rolesOk f r ∨
      (r.opcode = 0x07 ∧ r.out.isSome) then .error stFmlaFormat
  else if !zb4Ok f r then .error stBadFormat
  else if o.any (fun d => formatCode d.fmt ≠ r.outFmt) ∨
      o.any (fun d => isRaw d.fmt && !rawAllowed r) then .error stBadFormat
  else
  match r.opcode with
  | 0x01 => match i0, i1, o with
    | some a, some b, some o =>
      match pairWidth a.fmt b.fmt with
      | none => .error stBadFormat
      | some w =>
        if (isRaw o.fmt ∧ o.fmt ≠ rawFormat w) ∨ !isF32 i2 then .error stBadFormat
        else if 1 < attr r 0 1 then .error stFmlaFormat
        else if dim a 0 ≠ dim b 0 ∨ 2 ^ 24 < dim a 0 ∨ 2 ^ 20 < dim b 1 ∨ 2 < b.rank ∨
            declElems o ≠ declElems a / max 1 (dim a 0) * dim b 1 ∨ !hasElems i2 (dim b 1) then .error stFmlaShape
        else .ok ()
    | _, _, _ => .error stFmlaFormat
  | 0x02 => match i0, i1, i2, o with
    | some a, some b, some ix, some o =>
      let k := attr r 0 1
      let gates := if attr r 1 1 = 1 then inDecl f r 3 else none
      if (pairWidth a.fmt b.fmt).isNone ∨ ix.fmt ≠ .fp32 ∨ !isF32 gates then .error stBadFormat
      else if k = 0 ∨ 16 < k ∨ 1 < attr r 1 1 ∨ 1 < attr r 2 1 ∨ (attr r 1 1 = 1 ∧ gates.isNone) then .error stFmlaFormat
      else if b.rank ≠ 3 ∨ dim a 0 ≠ dim b 0 ∨ 2 ^ 24 < dim a 0 ∨ 2 ^ 20 < dim b 1 ∨ 4096 < dim b 2 ∨
          declElems ix ≠ k ∨ !hasElems gates k ∨
          declElems o ≠ (if attr r 1 1 = 1 then dim b 1 else k * dim b 1) then .error stFmlaShape
      else .ok ()
    | _, _, _, _ => .error stFmlaFormat
  | 0x03 => match i0, formulaDecl f (attr r 0 2), o with
    | some a, some g, some o =>
      let k := attr r 2 1
      if a.fmt ≠ .fp32 ∨ g.fmt ≠ .fp32 ∨ o.fmt ≠ .fp32 ∨ !isF32 i1 then .error stBadFormat
      else if k = 0 ∨ 16 < k ∨ 2 < attr r 3 1 ∨ 1 < attr r 4 1 ∨ !deviceWrites g then .error stFmlaFormat
      else if 4096 < declElems a ∨ declElems a < k ∨ declElems g ≠ k ∨ declElems o ≠ k ∨ !hasElems i1 (declElems a)
      then .error stFmlaShape
      else .ok ()
    | _, _, _ => .error stFmlaFormat
  | 0x04 => match i0, i1, o with
    | some a, some ix, some o =>
      if ix.fmt ≠ .fp32 ∨ isRaw a.fmt then .error stBadFormat
      else if 2 ^ 20 < dim a 0 ∨ 2 ^ 24 < dim a 1 ∨ 2 < a.rank ∨ declElems o ≠ declElems ix * dim a 0 ∨ declCols o ≠ dim a 0 then .error stFmlaShape
      else .ok ()
    | _, _, _ => .error stFmlaFormat
  | 0x05 => checkAttn f r false
  | 0x06 => checkAttn f r true
  | 0x07 => match i0, i1, i2, inDecl f r 3 with
    | some nk, some nv, some k, some v =>
      if k.role ≠ .kvK ∨ v.role ≠ .kvV ∨ 1 < attr r 0 1 then .error stFmlaFormat
      else if declElems nk ≠ declElems k ∨ declElems nv ≠ declElems v then .error stFmlaShape
      else .ok ()
    | _, _, _, _ => .error stFmlaFormat
  | 0x08 => match i0, i1, o with
    | some x, some g, some o =>
      let b := if attr r 0 1 = 1 then i2 else none
      if 1 < attr r 0 1 ∨ (attr r 0 1 = 1 ∧ i2.isNone) then .error stFmlaFormat
      else if g.fmt ≠ .fp32 ∨ !isF32 b then .error stBadFormat
      else if 2 ^ 24 < declCols x ∨ declElems g ≠ declCols x ∨ declElems o ≠ declElems x ∨ !hasElems b (declCols x)
      then .error stFmlaShape
      else .ok ()
    | _, _, _ => .error stFmlaFormat
  | 0x09 => match i0, o with
    | some x, some o => if declElems o ≠ declElems x ∨ 2 ^ 24 < declCols x then .error stFmlaShape else .ok ()
    | _, _ => .error stFmlaFormat
  | 0x0A => match i0, o with
    | some x, some o =>
      if 3 < attr r 0 1 then .error stFmlaFormat
      else if declElems o ≠ declElems x ∨ i1.any (fun d => declElems d ≠ declElems x) ∨
          i2.any (fun d => declElems d ≠ declElems x) then .error stFmlaShape
      else .ok ()
    | _, _ => .error stFmlaFormat
  | 0x0B => match i0, o with
    | some x, some o =>
      if 3 < attr r 0 1 ∨ (attr r 0 1 ≠ 3 ∧ i1.isNone) then .error stFmlaFormat
      else if declElems o ≠ declElems x ∨
          (attr r 0 1 ≠ 3 ∧ i1.any (fun d => !repeatsOn x d)) then .error stFmlaShape
      else .ok ()
    | _, _ => .error stFmlaFormat
  | 0x0C => match i0, i1, i2, o with
    | some x, some c, some s, some o =>
      let dr := attr r 0 2
      if dr % 2 ≠ 0 ∨ dr = 0 ∨ 1 < attr r 2 1 ∨ c.role ≠ .const ∨ s.role ≠ .const then .error stFmlaFormat
      else if c.fmt ≠ .fp32 ∨ s.fmt ≠ .fp32 then .error stBadFormat
      else if declCols x < dr ∨ dim c 0 ≠ dr / 2 ∨ s.dims ≠ c.dims ∨ o.dims ≠ x.dims then .error stFmlaShape
      else .ok ()
    | _, _, _, _ => .error stFmlaFormat
  | 0x0D => match i0 with
    | some x =>
      if x.fmt ≠ .fp32 then .error stBadFormat
      else if 4096 < attr r 4 2 ∨ o.any (fun d => d.fmt ≠ .fp32 ∨ (d.role ≠ .activation ∧ d.role ≠ .output) ∨ declElems d ≠ 1) ∨
          i1.any (fun d => d.role ≠ .const) then .error stFmlaFormat
      else if !isF32 i1 then .error stBadFormat
      else if 2 ^ 20 < declElems x ∨ i1.any (fun d => 16 < declElems d) then .error stFmlaShape
      else .ok ()
    | none => .error stFmlaFormat
  | 0x0E => match i0, o with
    | some x, some o => if declElems o ≠ declElems x then .error stFmlaShape else .ok ()
    | _, _ => .error stFmlaFormat
  | 0x0F => match i0, o with
    | some x, some o =>
      let rowWise : Bool := match r.kernel.bind (fun k => f.kernels[k]?) with | some k => k.rowWise | none => false
      if declElems o ≠ declElems x ∨ (rowWise ∧ declCols o ≠ declCols x) ∨ !allIns f r (fun _ d => streamFits rowWise x d) then .error stFmlaShape
      else .ok ()
    | _, _ => .error stFmlaFormat
  | _ => checkCollective f r dev

/-- Runs a check over a list, giving the first failure. -/
def checkEach {α : Type} (c : α → Except Nat Unit) : List α → Except Nat Unit
  | [] => .ok ()
  | x :: xs => match c x with
    | .error e => .error e
    | .ok () => checkEach c xs

/-- The chunks of a tensor and slot cover its packed data once, each at a multiple of 128 and of 128 bytes to 1 GiB, a multiple of
128 but for the one that ends the data (R107). -/
def covered (cs : List ChunkDecl) (d : TensorDecl) (slot : Nat) : Bool :=
  let mine := (cs.filter fun c => c.tensor = d.id && c.slot = slot).map fun c => (c.offset, c.length)
  disjoint mine && decide ((mine.map Prod.snd).sum = declBytes d) &&
    mine.all fun r => decide (r.1 + r.2 ≤ declBytes d) && decide (r.1 % 128 = 0) && decide (128 ≤ r.2) && decide (r.2 ≤ 2 ^ 30) &&
      (decide (r.2 % 128 = 0) || decide (r.1 + r.2 = declBytes d))

/-- Whether the manifest holds no chunk of a tensor outside the given slots. -/
def onlySlots (cs : List ChunkDecl) (d : TensorDecl) (p : Nat → Bool) : Bool := cs.all fun c => decide (c.tensor ≠ d.id) || p c.slot

/-- Whether the manifest serves a tensor record (R103, R105, R107): slot 0 alone of a WEIGHT, or of a CONST that CONST_DATA does not
hold, any slots of an ADAPTER, and nothing else. -/
def manifestOk (cs : List ChunkDecl) (d : TensorDecl) : Bool :=
  match d.role with
  | .weight => covered cs d 0 && onlySlots cs d (· = 0)
  | .const => if d.constOff.isSome then onlySlots cs d fun _ => false else covered cs d 0 && onlySlots cs d (· = 0)
  | .adapter => (List.range 256).all fun s => onlySlots cs d (· ≠ s) || covered cs d s
  | _ => onlySlots cs d fun _ => false

/-- Whether an operation appends to a KV_K tensor with SKETCH = 1 (R118, R126). -/
def sketches (r : OpRec) (id : Nat) : Bool := r.opcode = 0x07 && opIn r 2 = some id && attr r 0 1 = 1

/-- Bytes of KV state and key sketches that one token adds to a session (R101): the entries of every KV tensor and 32 bytes for each
KV head of one whose keys are sketched (06_sillage.md R188). -/
def tokenBytes (f : Formula) : Nat :=
  (f.tensors.map fun d => match d.role with
    | .kvK => declBytes d + if f.ops.any (sketches · d.id) then declElems d / max 1 (declCols d) * 32 else 0
    | .kvV => declBytes d
    | _ => 0).sum

/-- Whether the header's sums and flags are those of the tables (R101): WEIGHT_BYTES, KV_BYTES_PER_TOKEN and SILLAGE_USED.
DEDUCED: notes/assumptions/84. -/
def headerSums (f : Formula) : Bool :=
  decide (f.weightBytes = (f.chunks.map ChunkDecl.length).sum) && decide (f.kvBytes = tokenBytes f) &&
    (f.sillage == f.ops.any fun r => r.opcode = 0x06 || (r.opcode = 0x07 && attr r 0 1 = 1))

/-- The ceiling a hint entry of KIND 4 gives for a tensor (R155). -/
def hintCeiling (f : Formula) (id : Nat) : Option Nat :=
  (f.hints.find? fun h => h.kind = 4 && h.tensor = id).map fun h => h.value % 256

/-- The declared ceiling of an INPUT tensor: CEIL, else the CEILING hint (R156). -/
def ceilingOf (f : Formula) (d : TensorDecl) : Option Nat :=
  match d.ceil with
  | some c => some c
  | none => hintCeiling f d.id

/-- Check 7 of R109: tables, step program and operation records; `hasManifest` says the section is
there, `kernels` how many kernels are declared, `dev` is the device's own ID. A CONST_OFFSET may be any offset whose data CONST_DATA holds: the spec starts a tensor on a
128-byte boundary (02_arithmetic.md R41) and gives no refusal of one that does not (DESIGN CHOICE: notes/assumptions/85).
PRESUMED: notes/assumptions/68. -/
def checkTables (f : Formula) (hasManifest : Bool) (kernels dev : Nat) : Except Nat Unit :=
  let needsManifest := f.tensors.any fun d => d.role = .weight || d.role = .adapter || (d.role = .const && d.constOff.isNone)
  let ranges := f.steps.map fun s => (s.first, s.count)
  if !(f.tensors.map (·.id)).Nodup ∨ (needsManifest ∧ !hasManifest) then .error stFmlaFormat
  else if f.tensors.any (fun d => match d.constOff with
      | some o => d.role ≠ .const || f.constData.length < o + declBytes d
      | none => false) then .error stFmlaFormat
  else if f.chunks.any (fun c => (formulaDecl f c.tensor).isNone) ∨
      !(f.tensors.all (manifestOk f.chunks)) then .error stFmlaFormat
  else if f.steps.any (fun s => s.count = 0 || 4096 < s.count || f.ops.length < s.first + s.count ||
      s.branches.any fun b => 4 < b.1 || ((b.1 = 1 || b.1 = 2 || b.1 = 4) && f.steps.length ≤ b.2)) ∨
      !disjoint ranges ∨ f.steps.length ≤ f.entryPrefill ∨ f.steps.length ≤ f.entryDecode then .error stFmlaFormat
  else if f.hints.any (fun h => h.kind = 0 || 6 < h.kind || (h.kind = 5 && h.tensor ≠ 0xFFFF)) then .error stFmlaFormat
  else if f.tensors.any (fun d => match d.ceil, hintCeiling f d.id with
      | some a, some b => d.role = .input && a ≠ b
      | _, _ => false) then .error stFmlaFormat
  else checkEach (checkOp f kernels dev) f.ops

/-- Fields of a microkernel instruction (R136). -/
def kOp (w : Word) : Nat := w.toNat / 2 ^ 26
def kD (w : Word) : Nat := w.toNat / 2 ^ 20 % 64
def kA (w : Word) : Nat := w.toNat / 2 ^ 14 % 64
def kB (w : Word) : Nat := w.toNat / 2 ^ 8 % 64
def kC (w : Word) : Nat := w.toNat / 2 ^ 2 % 64
def kConst (w : Word) : Nat := w.toNat / 2 ^ 12 % 256

/-- The source registers an instruction reads (R136, R137). -/
def kReads (w : Word) : List Nat :=
  match kOp w with
  | 0x04 | 0x13 => [kA w, kB w, kC w]
  | 0x01 | 0x02 | 0x03 | 0x05 | 0x0D | 0x0E | 0x10 | 0x11 | 0x12 => [kA w, kB w]
  | 0x06 | 0x07 | 0x08 | 0x09 | 0x0A | 0x0B | 0x0C | 0x14 | 0x1C | 0x20 | 0x21 | 0x22 => [kA w]
  | _ => []

/-- Whether an OP is in R137. -/
def kKnown (w : Word) : Bool :=
  let o := kOp w
  (1 ≤ o && o ≤ 0x0E) || (0x10 ≤ o && o ≤ 0x14) || (0x18 ≤ o && o ≤ 0x1A) || o = 0x1C || (0x20 ≤ o && o ≤ 0x22)

/-- Whether an instruction is a row reduction. -/
def kIsRed (w : Word) : Bool := 0x20 ≤ kOp w && kOp w ≤ 0x22

/-- Whether no register is read before it is written (R138). -/
def kDefined : List Nat → List Word → Bool
  | _, [] => true
  | seen, w :: ws => (kReads w).all (fun r => seen.contains r) && kDefined (if kOp w = 0x1C then seen else kD w :: seen) ws

/-- The sandbox rules of R138 on one kernel alone. -/
def kernelOk (k : Kernel) : Bool :=
  k.instrs.all (fun w => kKnown w && w.toNat % 4 = 0 && (kOp w ≠ 0x19 || w.toNat / 4 % 1024 = 0) &&
    (kOp w ≠ 0x18 || kA w < k.nin) && (kOp w ≠ 0x19 || kConst w < k.consts.length)) &&
  kDefined [] k.instrs && (k.instrs.filter fun w => kOp w = 0x1C).length = 1 &&
  (if k.rowWise then (k.instrs.filter kIsRed).length ≤ 4 else (k.instrs.filter kIsRed).length = 0)

/-- The rules of R138 on an operation's use of a kernel. -/
def kernelUseOk (f : Formula) (r : OpRec) : Bool :=
  match r.kernel with
  | none => true
  | some i =>
    match f.kernels[i]? with
    | none => false
    | some k =>
      if r.opcode = 0x0F then (List.range k.nin).all fun j => (opIn r j).isSome
      else k.nin ≤ 3 &&
        (k.nin < 2 || (opIn r 2).isSome || r.opcode = 5 || r.opcode = 6) &&
        (k.nin < 3 || (r.opcode = 2 && (opIn r 3).isSome))

/-- Check 8 of R109: every microkernel and every use of one (R138). -/
def checkKernels (f : Formula) (parsed : Bool) : Bool :=
  parsed && f.kernels.all kernelOk && f.ops.all (kernelUseOk f)

/-- Whether the header's sums of R101 hold as far as the core's tables can be read: a core whose tables cannot be read is refused at check 7
for them.
DEDUCED: notes/assumptions/84. -/
def sumsHold (core : List Byte) : Bool :=
  match parseCore core with
  | .ok (f, _) => headerSums f
  | .error _ => true

/-- Checks 2 to 8 of R109 in order: the Formula, or the status of the first failing check.
PRESUMED: notes/assumptions/68. -/
def checkCore (descLen ctxVer dev : Nat) (slots : List SignerSlot) (core : List Byte) : Except Nat Formula :=
  match checkLayout descLen core with
  | .error e => .error e
  | .ok () =>
  if !sumsHold core then .error stFmlaFormat
  else if field core 5 1 % 16 ≠ ctxVer then .error stBadVersion
  else if !checkCrcs core then .error stFmlaCrc
  else match checkSignature slots core with
  | .error e => .error e
  | .ok () =>
  if !opsetOk core then .error stFmlaOpset
  else match parseCore core with
  | .error e => .error e
  | .ok (f, kOk) =>
  match checkTables f (sectionOf (sectionsOf core) 3).isSome (field (sectionBytes core (sectionsOf core) 4) 0 2) dev with
  | .error e => .error e
  | .ok () => if checkKernels f kOk then .ok f else .error stFmlaKernel

end Sys2Proof.Machine
end

