-- ==== Sys2Proof/Machine/Tab.lean ====
section
/-!
DEFINITION. Sparse tables keyed by numbers, in one canonical form: keys strictly rising. Memories,
registers, contexts, instances, channels and every other indexed state use it.
-/
namespace Sys2Proof.Machine

/-- The entry of a key. -/
def tabFind {α : Type} : List (Nat × α) → Nat → Option α
  | [], _ => none
  | (k', v) :: t, k => if k = k' then some v else tabFind t k

/-- The entry of a key, or what an unlisted key reads as. -/
def tabGet {α : Type} (t : List (Nat × α)) (d : α) (k : Nat) : α := (tabFind t k).getD d

/-- Sets the entry of a key, keeping keys rising. -/
def tabPut {α : Type} : List (Nat × α) → Nat → α → List (Nat × α)
  | [], k, v => [(k, v)]
  | (k', v') :: t, k, v =>
    if k < k' then (k, v) :: (k', v') :: t
    else if k = k' then (k, v) :: t
    else (k', v') :: tabPut t k v

/-- Removes the entry of a key. -/
def tabDel {α : Type} : List (Nat × α) → Nat → List (Nat × α)
  | [], _ => []
  | (k', v') :: t, k => if k = k' then tabDel t k else (k', v') :: tabDel t k

/-- Sets a key whose unlisted value is `d`: no entry is left equal to it. -/
def tabSet {α : Type} [DecidableEq α] (t : List (Nat × α)) (d : α) (k : Nat) (v : α) : List (Nat × α) :=
  if v = d then tabDel t k else tabPut t k v

/-- Applies a function to the entry of a key whose unlisted value is `d`. -/
def tabMod {α : Type} [DecidableEq α] (t : List (Nat × α)) (d : α) (k : Nat) (f : α → α) : List (Nat × α) :=
  tabSet t d k (f (tabGet t d k))

/-- Applies a function to an entry that is there. -/
def tabUpd {α : Type} (t : List (Nat × α)) (k : Nat) (f : α → α) : List (Nat × α) :=
  match tabFind t k with
  | some v => tabPut t k (f v)
  | none => t

/-- Keys strictly rising from above a bound. -/
def tabRising {α : Type} : Option Nat → List (Nat × α) → Bool
  | _, [] => true
  | b, (k, _) :: t => (match b with | some m => decide (m < k) | none => true) && tabRising (some k) t

/-- The canonical form: keys strictly rising, no entry equal to the unlisted value. -/
def tabWf {α : Type} [DecidableEq α] (t : List (Nat × α)) (d : α) : Bool :=
  tabRising none t && t.all fun e => decide (e.2 ≠ d)

/-- Replaces element `i` of a list, where it is there. -/
def listSet {α : Type} : List α → Nat → α → List α
  | [], _, _ => []
  | _ :: xs, 0, v => v :: xs
  | x :: xs, i + 1, v => x :: listSet xs i v

/-- Applies a function to element `i` of a list, where it is there. -/
def listMod {α : Type} : List α → Nat → (α → α) → List α
  | [], _, _ => []
  | x :: xs, 0, f => f x :: xs
  | x :: xs, i + 1, f => x :: listMod xs i f

/-- A list cut into `n` pieces of `k`. -/
def pieces {α : Type} (k : Nat) : Nat → List α → List (List α)
  | 0, _ => []
  | n + 1, xs => xs.take k :: pieces k n (xs.drop k)

/-- A count that saturates at all ones of its width. -/
def satAdd (w : Nat) (a b : Nat) : Nat := min (a + b) (2 ^ w - 1)

/-- Bits hi..lo of a word as a number. -/
def bits (x : Word) (hi lo : Nat) : Nat := x.toNat / 2 ^ lo % 2 ^ (hi - lo + 1)

/-- A word with bits hi..lo replaced. -/
def setBits (x : Word) (hi lo v : Nat) : Word :=
  let m := 2 ^ (hi - lo + 1)
  BitVec.ofNat 32 (x.toNat - bits x hi lo * 2 ^ lo + (v % m) * 2 ^ lo)

/-- One bit as a number. -/
def b2n (b : Bool) : Nat := if b then 1 else 0

/-- A map of bits from a predicate on 0 … n − 1. -/
def bitmap (n : Nat) (p : Nat → Bool) : Nat := ((List.range n).map fun i => if p i then 2 ^ i else 0).sum

end Sys2Proof.Machine
end

