-- ==== Sys2Proof/Machine/Vector.lean ====
section
/-!
DEFINITION. Vector-unit composites, reduction trees, exact attention and the sampling generator
(02_arithmetic.md R60 to R65).
-/
namespace Sys2Proof.Machine

/-- The largest power of two strictly less than n, for n ≥ 2. -/
def treeSplit (n : Nat) : Nat := 2 ^ Nat.log2 (n - 1)

/-- The index tree of R60 over a list, with fuel for its depth. -/
def treeAux (op : Word → Word → Word) (z : Word) : Nat → List Word → Word
  | 0, xs => xs.headD z
  | fuel + 1, xs =>
    match xs with
    | [] => z
    | [x] => x
    | _ =>
      let m := treeSplit xs.length
      op (treeAux op z fuel (xs.take m)) (treeAux op z fuel (xs.drop m))

/-- Reduction over a list by the index tree of R60; its depth is at most ⌈log₂ n⌉ + 1. -/
def tree (op : Word → Word → Word) (z : Word) (xs : List Word) : Word :=
  treeAux op z (ceilLog2 xs.length + 1) xs

/-- Sum by the tree: identity +0 (R60). -/
def treeSum (xs : List Word) : Word := tree fAdd 0#32 xs
/-- Maximum by the tree: identity −∞ (R60). -/
def treeMax (xs : List Word) : Word := tree fMax (f32Inf true) xs
/-- Minimum by the tree: identity +∞ (R60). -/
def treeMin (xs : List Word) : Word := tree fMin (f32Inf false) xs

/-- Constant LOG2E of R61. -/
def cLog2E : Word := 0x3FB8AA3B#32
/-- Constant C0 of R61. -/
def cC0 : Word := 0x3F4C422A#32
/-- Constant C1 of R61. -/
def cC1 : Word := 0x3D372713#32
/-- ONE of R61. -/
def cOne : Word := 0x3F800000#32
/-- TWO of R61. -/
def cTwo : Word := 0x40000000#32
/-- HALF of R61. -/
def cHalf : Word := 0x3F000000#32

/-- e[i] = exp2(mul(sub(x[i], m), LOG2E)) (R61, R62). -/
def expShift (m x : Word) : Word := fExp2 (fMul (fSub x m) cLog2E)

/-- softmax(x) of R61. -/
def softmax (xs : List Word) : List Word :=
  let m := treeMax xs
  let e := xs.map (expShift m)
  let r := fRcp (treeSum e)
  e.map fun v => fMul v r

/-- rmsnorm(x, g, eps) of R61. -/
def rmsnorm (xs g : List Word) (eps : Word) : List Word :=
  let ss := treeSum (xs.map fun x => fMul x x)
  let r := fRsqrt (fAdd (fDiv ss (f32OfNat xs.length)) eps)
  List.zipWith (fun x gi => fMul (fMul x r) gi) xs g

/-- layernorm(x, g, b, eps) of R61. -/
def layernorm (xs g b : List Word) (eps : Word) : List Word :=
  let n := f32OfNat xs.length
  let mu := fDiv (treeSum xs) n
  let d := xs.map fun x => fSub x mu
  let v := fDiv (treeSum (d.map fun x => fMul x x)) n
  let r := fRsqrt (fAdd v eps)
  List.zipWith (fun x gb => fFma (fMul x r) gb.1 gb.2) d (List.zip g b)

/-- silu(x) of R61. -/
def silu (x : Word) : Word := fMul x (fRcp (fAdd cOne (fExp2 (fMul (fNeg x) cLog2E))))

/-- gelu_tanh(x) of R61. -/
def geluTanh (x : Word) : Word :=
  let u := fMul (fMul x x) x
  let u := fMul (fFma cC1 u x) cC0
  let t := fExp2 (fMul (fMul u cTwo) cLog2E)
  let th := fSub cOne (fMul cTwo (fRcp (fAdd t cOne)))
  fMul (fMul cHalf x) (fAdd cOne th)

/-- rotary(x0, x1, c, s) of R61. -/
def rotaryPair (x0 x1 c s : Word) : Word × Word :=
  (fFma x0 c (fNeg (fMul x1 s)), fFma x0 s (fMul x1 c))

/-- What exact attention gives for one query row: the output row, whether a term was over range, and
its counts. -/
structure AttnRow where
  out : List Word
  overRange : Bool
  flush : Nat
  trunc : Nat
  deriving DecidableEq, Repr

/-- The formats, summaries and raises one attention row is computed with (R49, R62). -/
structure AttnWin where
  qFmt : Format
  qSum : Summary
  kFmt : Format
  kSum : Summary
  vFmt : Format
  vSum : Summary
  pFmt : Format
  scale : Word
  kmaxList : Nat
  raise : Int

/-- Exact attention of one query over a key list in ascending key index (R62). -/
def attnRow (c : AttnWin) (q : List Num) (ks vs : List (List Num)) : AttnRow :=
  let w1 := (pairWidth c.qFmt c.kFmt).getD 112
  let we1 := windowWE w1 c.qFmt c.qSum c.kFmt c.kSum q.length + c.raise
  let zs := ks.map fun k => dot w1 we1 (ceilLog2 q.length) q k
  let z := zs.map fun a => fMul (xaccToF32 we1 a.x) c.scale
  let m := treeMax z
  let e := z.map (expShift m)
  let s := treeSum e
  let pRow := (rowConvert c.pFmt (e.map f32Num)).1
  let p := rowNums c.pFmt e.length pRow
  let pSum := summaryOf c.pFmt e.length [pRow]
  let w2 := (pairWidth c.pFmt c.vFmt).getD 112
  let we2 := windowWE w2 c.pFmt pSum c.vFmt c.vSum c.kmaxList + c.raise
  let d := (vs.headD []).length
  let os := (List.range d).map fun j => dot w2 we2 (ceilLog2 c.kmaxList) p (vs.map fun v => v.getD j (.fin false 0 0))
  let r := fRcp s
  ⟨os.map fun a => fMul (xaccToF32 we2 a.x) r,
   zs.any Acc.overRange || os.any Acc.overRange,
   (zs.map Acc.flush).sum + (os.map Acc.flush).sum,
   (zs.map Acc.trunc).sum + (os.map Acc.trunc).sum⟩

/-- One round of Philox on counter words and keys (R63). -/
def philoxRound (x : Word × Word × Word × Word) (k0 k1 : Word) : Word × Word × Word × Word :=
  let p0 := 0xD2511F53 * x.1.toNat
  let p1 := 0xCD9E8D57 * x.2.2.1.toNat
  let hi (p : Nat) : Word := BitVec.ofNat 32 (p / 2 ^ 32)
  let lo (p : Nat) : Word := BitVec.ofNat 32 p
  (hi p1 ^^^ x.2.1 ^^^ k0, lo p1, hi p0 ^^^ x.2.2.2 ^^^ k1, lo p0)

/-- `n` further rounds, the keys raised before each (R63). -/
def philoxRounds : Nat → Word × Word × Word × Word → Word → Word → Word × Word × Word × Word
  | 0, x, _, _ => x
  | n + 1, x, k0, k1 =>
    let k0 := k0 + 0x9E3779B9#32
    let k1 := k1 + 0xBB67AE85#32
    philoxRounds n (philoxRound x k0 k1) k0 k1

/-- Philox 4×32-10 (R63).
PRESUMED: notes/assumptions/25. -/
def philox (x0 x1 x2 x3 k0 k1 : Word) : Word × Word × Word × Word :=
  philoxRounds 9 (philoxRound (x0, x1, x2, x3) k0 k1) k0 k1

/-- Word `i` of four. -/
def quadWord (q : Word × Word × Word × Word) : Nat → Word
  | 0 => q.1 | 1 => q.2.1 | 2 => q.2.2.1 | _ => q.2.2.2

/-- Draw `j` of a sampling operation: word j mod 4 of block ⌊j/4⌋ (R64, R65). -/
def draw (seed counter stream j : Nat) : Word :=
  quadWord (philox (BitVec.ofNat 32 counter) (BitVec.ofNat 32 (counter / 2 ^ 32)) (BitVec.ofNat 32 (j / 4))
    (BitVec.ofNat 32 stream) (BitVec.ofNat 32 seed) (BitVec.ofNat 32 (seed / 2 ^ 32))) (j % 4)

/-- A uniform draw: (w >> 8) × 2^−24 (R65). -/
def uniform (w : Word) : Word := f32Round false (w.toNat / 256) (-24) false

end Sys2Proof.Machine
end

