-- ==== Sys2Proof/Machine/KernelOps.lean ====
section
/-!
DEFINITION. The microkernel machine: 64 registers of one FP32 value for each element of a row, run over
the whole row at once (04_formulas_operations.md R136, R137).
-/
namespace Sys2Proof

/-- The state of one microkernel execution over a row of `lanes` elements: registers V0–V63, input
streams, constants, and the output (R136). -/
structure Kern where
  lanes : Nat
  regs : List (List Word)
  streams : List (List Word)
  consts : List Word
  out : List Word
  deriving DecidableEq, Repr

namespace Machine

/-- A kernel execution before its first instruction. -/
def kernStart (lanes : Nat) (streams : List (List Word)) (consts : List Word) : Kern :=
  ⟨lanes, List.replicate 64 (List.replicate lanes 0#32), streams, consts, List.replicate lanes 0#32⟩

/-- The row of a register. -/
def kernReg (k : Kern) (r : Nat) : List Word := k.regs.getD r (List.replicate k.lanes 0#32)

/-- Writes a register's row. -/
def kernPut (k : Kern) (r : Nat) (v : List Word) : Kern := { k with regs := listSet k.regs r v }

/-- An instruction of one source (R137). -/
def kern1 (f : Word → Word) (k : Kern) (d a : Nat) : Kern := kernPut k d ((kernReg k a).map f)

/-- An instruction of two sources (R137). -/
def kern2 (f : Word → Word → Word) (k : Kern) (d a b : Nat) : Kern :=
  kernPut k d (List.zipWith f (kernReg k a) (kernReg k b))

/-- An instruction of three sources (R137). -/
def kern3 (f : Word → Word → Word → Word) (k : Kern) (d a b c : Nat) : Kern :=
  kernPut k d (List.zipWith (fun x yz => f x yz.1 yz.2) (kernReg k a) (List.zip (kernReg k b) (kernReg k c)))

/-- A row reduction: every element of the destination row takes the tree's result (R137). -/
def kernRed (f : List Word → Word) (k : Kern) (d a : Nat) : Kern :=
  kernPut k d (List.replicate k.lanes (f (kernReg k a)))

/-- A comparison's result: 1.0 or +0 (R137). -/
def kernBool (b : Bool) : Word := if b then cOne else 0#32

/-- SEL (R137): A if C is nonzero and not NaN, otherwise B. -/
def kernSel (a b c : Word) : Word :=
  match f32Num c with
  | .nan => b
  | .inf _ => a
  | .fin _ m _ => if m = 0 then b else a

/-- LD (R137): the row of an input stream. -/
def kernLd (k : Kern) (d a : Nat) : Kern := kernPut k d (k.streams.getD a (List.replicate k.lanes 0#32))

/-- LDC (R137): a constant. -/
def kernLdc (k : Kern) (d i : Nat) : Kern := kernPut k d (List.replicate k.lanes (k.consts.getD i 0#32))

/-- IDX (R137): the element's index within its row. -/
def kernIdx (k : Kern) (d : Nat) : Kern := kernPut k d ((List.range k.lanes).map f32OfNat)

/-- ST (R137): the output row. -/
def kernSt (k : Kern) (a : Nat) : Kern := { k with out := kernReg k a }

/-- One instruction word (R136, R137); a word outside R137 does not load (R138). -/
def kernInstr (k : Kern) (w : Word) : Kern :=
  let d := kD w
  let a := kA w
  let b := kB w
  let c := kC w
  match kOp w with
  | 0x01 => kern2 fAdd k d a b
  | 0x02 => kern2 fSub k d a b
  | 0x03 => kern2 fMul k d a b
  | 0x04 => kern3 fFma k d a b c
  | 0x05 => kern2 fDiv k d a b
  | 0x06 => kern1 fSqrt k d a
  | 0x07 => kern1 fRcp k d a
  | 0x08 => kern1 fRsqrt k d a
  | 0x09 => kern1 fExp2 k d a
  | 0x0A => kern1 fLog2 k d a
  | 0x0B => kern1 fNeg k d a
  | 0x0C => kern1 fAbs k d a
  | 0x0D => kern2 fMin k d a b
  | 0x0E => kern2 fMax k d a b
  | 0x10 => kern2 (fun x y => kernBool (fLt x y)) k d a b
  | 0x11 => kern2 (fun x y => kernBool (fLe x y)) k d a b
  | 0x12 => kern2 (fun x y => kernBool (fEq x y)) k d a b
  | 0x13 => kern3 kernSel k d a b c
  | 0x14 => kern1 fCvtBf k d a
  | 0x18 => kernLd k d a
  | 0x19 => kernLdc k d (kConst w)
  | 0x1A => kernIdx k d
  | 0x1C => kernSt k a
  | 0x20 => kernRed treeSum k d a
  | 0x21 => kernRed treeMax k d a
  | 0x22 => kernRed treeMin k d a
  | _ => k

/-- A kernel run over one row (R136). -/
def kernelRow (kn : Kernel) (lanes : Nat) (streams : List (List Word)) : List Word :=
  (kn.instrs.foldl kernInstr (kernStart lanes streams kn.consts)).out

end Machine
end Sys2Proof
end

