-- ==== Sys2Proof/Machine/Session.lean ====
section
/-!
DEFINITION. Instances, sessions and the rows of a running batch, and how an operation reads and writes
tensors of theirs (04_formulas_operations.md R105, R106, R110, R111, R116, R117).
-/
namespace Sys2Proof

/-- A recorded selection (06_sillage.md R196), with the number of the session step that made it (R197). -/
structure SelRecord where
  pos0 : Nat
  op : Nat
  head : Nat
  flags : Nat
  scanned : Nat
  positions : List Nat
  stepNo : Nat
  deriving DecidableEq, Repr

/-- One session: what a bound context has (04 R111, R126, R130; 06 R187, R197). `kv` holds, for each KV
tensor, the rows of every position's entry; `sketch` the 32 bytes of every position and KV head as one field (06 R188);
`exps` the sketch exponent of every KV head, −128 where unset; `sampled` the rows SAMPLE keeps. -/
structure Session where
  pos : Nat
  counter : Nat
  seed : Nat
  slot : Option Nat
  kv : List (Nat × List (List Row))
  sketch : List (Nat × List (List (BitVec 256)))
  exps : List (Nat × List Int)
  records : List SelRecord
  sampled : List (Nat × Word)
  last : Option Nat
  stopHit : Bool
  stepNo : Nat
  deriving DecidableEq, Repr

/-- The states of an instance (04 R111). -/
inductive InstState where
  | loading | ready | failed | unloading
  deriving DecidableEq, Repr

/-- A Formula instance (04 R110 to R112): its owner, its committed chunks by number, the exchanged
summaries of its SHARD tensors by tensor * 256 + adapter slot, one for each expert or one alone (R131), and whether that exchange is
still awaited. -/
structure Inst where
  st : InstState
  f : Formula
  fn : Nat
  dom : Nat
  ctx : Nat
  chunks : List (Nat × List Byte)
  shards : List (Nat × List Summary)
  exchange : Bool
  deriving DecidableEq, Repr

/-- One context in a running batch: the working copy of its session, its rows and what the running
operation has done for it, the tokens the step committed with their STOP, GREEDY and STREAM, and whether
a count of R55 rose in the step (04 R106, R116, R117; 02_arithmetic.md R51, R52). `whole` names the tensors that are one tensor for the
batch, every context's rows reading all of it (04 R132); `sat` is what SIL_SKETCH_SAT rises by once the running operation ends (06 R186),
`fell` marks a row that it runs as ATTN_EXACT under FALLBACK (06 R199), and `sums` are the sums its reduction destinations hold complete, by
place in the row's groups, with their window (03 R69, R83). -/
structure BatchRow where
  ctx : Nat
  work : Session
  base : Nat
  status : Nat
  tokens : Nat
  lastInput : Bool
  inputLeft : Bool
  decode : Bool
  acts : List (Nat × Tensor)
  raise : Nat
  overRange : Bool
  flush : Nat
  trunc : Nat
  special : Nat
  committed : Bool
  temp : Option Word
  topk : Option Nat
  topp : Option Word
  replay : Bool
  toks : List (Nat × Bool × Bool × Nat) := []
  arith : Bool := false
  whole : List Nat := []
  sat : Nat := 0
  fell : Bool := false
  sums : List (Nat × Int × Xacc) := []
  deriving DecidableEq, Repr

namespace Machine

/-- A session as it begins at BIND (04 R111, 06 R187). -/
def sessionStart (seed : Nat) (slot : Option Nat) : Session :=
  ⟨0, 0, seed, slot, [], [], [], [], [], none, false, 0⟩

/-- Inserts into a list ordered by a key, after equal keys. -/
def insertBy {α : Type} (lt : α → α → Bool) (x : α) : List α → List α
  | [] => [x]
  | y :: ys => if lt x y then x :: y :: ys else y :: insertBy lt x ys

/-- A list ordered by a key, equal keys in their first order. -/
def sortBy {α : Type} (lt : α → α → Bool) (xs : List α) : List α := xs.foldl (fun acc x => insertBy lt x acc) []

/-- A list in ascending order. -/
def ascending (xs : List Nat) : List Nat := sortBy (fun a b => decide (a < b)) xs

/-- The packed data of a WEIGHT, ADAPTER or CONST tensor, as committed; none where a chunk is missing. -/
def weightBytes (i : Inst) (d : TensorDecl) (slot : Nat) : Option (List Byte) :=
  match d.constOff with
  | some o => some (slice i.f.constData o (declBytes d))
  | none =>
    let mine := (i.f.chunks.zipIdx).filter fun c => c.1.tensor = d.id && c.1.slot = slot
    if mine = [] then none
    else (allSome ((sortBy (fun a b => a.1.offset < b.1.offset) mine).map fun c => tabFind i.chunks c.2)).map List.flatten

/-- The rows of expert `e` of a tensor stored [E][N][K] (R121). -/
def expertRows (d : TensorDecl) (rows : List Row) (e : Nat) : List Row := (rows.drop (e * d.dims.getD 1 1)).take (d.dims.getD 1 1)

/-- The summaries a weight tensor's own data has: one for each expert of a rank-3 tensor, else one (R48, R121, R131). -/
def ownSummaries (d : TensorDecl) (rows : List Row) : List Summary :=
  if d.rank = 3 then (List.range (d.dims.getD 2 1)).map fun e => summaryOf d.fmt (declCols d) (expertRows d rows e)
  else [summaryOf d.fmt (declCols d) rows]

/-- The larger of two summaries (R131). -/
def joinSummary (a b : Summary) : Summary :=
  if a.allZero then b else if b.allZero then a else ⟨false, max a.top b.top⟩

/-- The rows of a weight tensor's slot as committed. -/
def weightRows (i : Inst) (d : TensorDecl) (slot : Nat) : Option (List Row) :=
  (weightBytes i d slot).map fun bs => rowsOfBytes d.fmt (declCols d) (declElems d / max 1 (declCols d)) bs

/-- The summaries of a weight tensor in force: the exchanged ones of a SHARD tensor, else its own (R48, R110, R131). -/
def weightSums (i : Inst) (d : TensorDecl) (slot : Nat) (rows : List Row) : List Summary :=
  (tabFind i.shards (d.id * 256 + slot)).getD (ownSummaries d rows)

/-- A weight tensor with its summary. -/
def weightTensor (i : Inst) (id slot : Nat) : Option Tensor :=
  match formulaDecl i.f id with
  | none => none
  | some d =>
    (weightRows i d slot).map fun rows => ⟨d.fmt, declCols d, rows, (weightSums i d slot rows).foldl joinSummary ⟨true, 0⟩, []⟩

/-- Whether a tensor is one that SAMPLE writes (R130). -/
def sampleWrites (f : Formula) (id : Nat) : Bool := f.ops.any fun r => r.opcode = 0x0D && r.out = some id

/-- The tensor a batch row holds for an INPUT, OUTPUT or ACTIVATION tensor. A row SAMPLE keeps reads as
zero before the first commit (R130); a row no operation has written holds values the spec leaves open. An OUTPUT tensor that SAMPLE
writes keeps its row as an ACTIVATION does, where the spec names the ACTIVATION alone.
DESIGN CHOICE: notes/assumptions/86. -/
def actTensor (i : Inst) (r : BatchRow) (d : TensorDecl) : Tensor :=
  match tabFind r.acts d.id with
  | some t => t
  | none =>
    if sampleWrites i.f d.id then tensorOf d.fmt (declCols d) [[f32Num (tabGet r.work.sampled 0#32 d.id)]]
    else
      let n := r.tokens * declElems d
      let vs := (List.range n).map fun j => f32Num (Config.unwritten d.id j)
      tensorOf d.fmt (declCols d) (pieces (declCols d) (n / max 1 (declCols d)) vs)

/-- The tensor an operation reads for a context (R105, R106, R120). -/
def inTensor (i : Inst) (r : BatchRow) (id : Nat) : Option Tensor :=
  match formulaDecl i.f id with
  | none => none
  | some d =>
    match d.role with
    | .weight | .const => weightTensor i id 0
    | .adapter => r.work.slot.bind (weightTensor i id)
    | .input | .output | .activation => some (actTensor i r d)
    | .kvK | .kvV => none

/-- The tensor input `n` of an operation record gives a context. -/
def opTensor (i : Inst) (r : BatchRow) (o : OpRec) (n : Nat) : Option Tensor := (opIn o n).bind (inTensor i r)

/-- All elements of a tensor, row after row. -/
def flatNums (t : Tensor) : List Num := (tensorNums t).flatten

/-- All elements of a tensor as FP32 (R59 `cvt`). -/
def flatF32 (t : Tensor) : List Word := (flatNums t).map Num.toF32

/-- A list cut into pieces of `k` elements. -/
def chop {α : Type} (k : Nat) (xs : List α) : List (List α) := pieces k (xs.length / max 1 k) xs

/-- The elements input `n` of an operation gives each token of a context: those of the token's rows, or all of a tensor that holds no
rows of tokens (R106). -/
def tokenNums (i : Inst) (r : BatchRow) (o : OpRec) (n : Nat) : Option (List (List Num)) :=
  match (opIn o n).bind (formulaDecl i.f), opTensor i r o n with
  | some d, some t => some (if perToken d then chop (declElems d) (flatNums t) else List.replicate (max 1 r.tokens) (flatNums t))
  | _, _ => none

/-- As `tokenNums`, in FP32 (R59 `cvt`). -/
def tokenF32 (i : Inst) (r : BatchRow) (o : OpRec) (n : Nat) : Option (List (List Word)) :=
  (tokenNums i r o n).map fun ts => ts.map fun xs => xs.map Num.toF32

/-- A list repeated to a length: what has fewer rows repeats along the outer dimensions (R128, R133). -/
def repeatTo {α : Type} (zero : α) (n : Nat) (xs : List α) : List α :=
  (List.range n).map fun j => xs.getD (j % max 1 xs.length) zero

/-- An operand beside another, token by token: its rows repeat along the outer dimensions of the other's, of which tokens are the
outermost (R106, R128). -/
def alongside (xs ys : List (List Word)) : List (List Word) :=
  xs.zipIdx.map fun x => repeatTo 0#32 x.1.length (ys.getD (x.2 % max 1 ys.length) [])

/-- Counts a conversion of a row group into MX blocks: it is special where a value is NaN or infinite (02_arithmetic.md R55, R56); one out of
an XACC counts by its tags (`rowCounts`), and any other, which carries none, does not.
DEDUCED: notes/assumptions/87. -/
def countSpecial (f : Format) (r : BatchRow) (vs : List Num) : BatchRow :=
  { r with special := r.special + b2n (formatIsBlock f && vs.any numSpecial) }

/-- Writes an output tensor from exact values in element order, converted into its format (R54, R56),
and counts a special conversion (R55). -/
def putOut (i : Inst) (r : BatchRow) (out : Option Nat) (vs : List Num) : BatchRow :=
  match out.bind (formulaDecl i.f) with
  | none => r
  | some d => countSpecial d.fmt { r with acts := tabPut r.acts d.id (tensorOf d.fmt (declCols d) (chop (declCols d) vs)) } vs

/-- Writes an output tensor of FP32 values. -/
def putF32 (i : Inst) (r : BatchRow) (out : Option Nat) (vs : List Word) : BatchRow := putOut i r out (vs.map f32Num)

/-- The operation fails for the context (R117): its first failure stands. -/
def rowFail (r : BatchRow) (st : Nat) : BatchRow := if r.status = 0 then { r with status := st } else r

/-- An FP32 index as a natural number below a bound; none where it is no such integer (R106). -/
def indexOf (bound : Nat) (n : Num) : Option Nat :=
  match n with
  | .fin neg m e =>
    if m = 0 then (if 0 < bound then some 0 else none)
    else if neg then none
    else
      let v := if 0 ≤ e then m <<< e.toNat else m >>> (-e).toNat
      let exact := decide (0 ≤ e) || decide (v <<< (-e).toNat = m)
      if exact && decide (v < bound) then some v else none
  | _ => none

/-- Runs an epilogue over an operation's FP32 results, in rows of `cols`; `s1` and `s2` are streams 1
and 2 in the same order (R137). -/
def epilogue (i : Inst) (o : OpRec) (cols : Nat) (ys s1 s2 : List Word) : List Word :=
  match o.kernel.bind (fun k => i.f.kernels[k]?) with
  | none => ys
  | some kn =>
    ((List.zip (chop cols ys) (List.zip (chop cols s1) (chop cols s2))).map fun t =>
      kernelRow kn cols [t.1, t.2.1, t.2.2]).flatten

end Machine
end Sys2Proof
end

