-- ==== Sys2Proof/Machine/Compute.lean ====
section
/-!
DEFINITION. What each operation of the operation set does for one context of a batch
(04_formulas_operations.md R119 to R133).
-/
namespace Sys2Proof.Machine

/-- The tray-wide summaries an operation with TRAY_SCOPE = 1 was given (R131): of A, of B or of each
expert, and the largest K. -/
structure TrayWin where
  a : Summary
  bs : List Summary
  kmax : Nat
  deriving DecidableEq, Repr

/-- Zeros for an absent epilogue stream. -/
def zerosLike (ys : List Word) : List Word := ys.map fun _ => 0#32

/-- WE of a row group, raised by 16 for each range-fault reissue (R49, R52). After a range fault every window of the context in the
operation is raised: both products of attention (04 R124), and those of every expert (04 R121), also those whose own terms were in range.
DESIGN CHOICE: notes/assumptions/88. -/
def raisedWE (r : BatchRow) (w : Nat) (a : Format) (sa : Summary) (b : Format) (sb : Summary) (k : Nat) : Int :=
  windowWE w a sa b sb k + 16 * (r.raise : Int)

/-- Marks what a completed attempt has counted for a context (R51, R55): `tagged` says that an element converted out of its XACC carried
a tag, which makes the conversion written special. -/
def rowCounts (r : BatchRow) (flush trunc : Nat) (tagged : Bool) : BatchRow :=
  { r with overRange := false, flush := flush, trunc := trunc, special := max r.special (b2n tagged) }

/-- The sum of an accumulator at a place of the context's row groups: what its reduction destination holds complete in the same window, else
what the tile's own terms give, which is equal by 03 R80 (03 R69, R83). -/
def givenSum (r : BatchRow) (place : Nat) (we : Int) (x : Xacc) : Xacc :=
  match r.sums.find? fun e => e.1 = place && e.2.1 = we with | some e => e.2.2 | none => x

/-- The sums of consecutive places from `first` on. -/
def givenSums (r : BatchRow) (first : Nat) (we : Int) (xs : List Xacc) : List Xacc := xs.zipIdx.map fun t => givenSum r (first + t.2) we t.1

/-- The accumulators of consecutive places from `first` on, with the sums in force. -/
def givenAccs (r : BatchRow) (first : Nat) (we : Int) (cs : List Acc) : List Acc :=
  cs.zipIdx.map fun t => { t.1 with x := givenSum r (first + t.2) we t.1.x }

/-- MATMUL for a context without an adapter in its slot (R120): exact zeros in OUT_FMT, a raw XACC one with the WE of an operand
that is all zero. -/
def zeroRows (i : Inst) (r : BatchRow) (od : TensorDecl) (n : Nat) : BatchRow :=
  if isRaw od.fmt then
    { r with acts := tabPut r.acts od.id ⟨od.fmt, declCols od, List.replicate (n / max 1 (declCols od)) (.raw 0 (List.replicate (declCols od) ⟨0, .none⟩)), ⟨true, 0⟩, []⟩ }
  else putOut i r (some od.id) (List.replicate n (.fin false 0 0))

/-- MATMUL for one context (R119, R120, R131). -/
def opMatmul (i : Inst) (o : OpRec) (tray : Option TrayWin) (r : BatchRow) : BatchRow :=
  match opTensor i r o 0, inDecl i.f o 1, outDecl i.f o with
  | some a, some bd, some od =>
    match opTensor i r o 1 with
    | none => zeroRows i r od ((flatNums a).length / max 1 (dim bd 0) * dim bd 1)
    | some b =>
      match pairWidth a.fmt b.fmt with
      | none => rowFail r stBadFormat
      | some w =>
        let kk := dim bd 0
        let sa := match tray with | some t => t.a | none => a.summary
        let sb := match tray with | some t => t.bs.getD 0 b.summary | none => b.summary
        let kmax := match tray with | some t => t.kmax | none => kk
        if 2 ^ 24 < kmax then rowFail r stRange
        else
          let we := raisedWE r w a.fmt sa b.fmt sb kmax
          if 511 < we then rowFail r stXaccRange
          else
          let g := groupProduct w we kmax (chop kk (flatNums a)) (tensorNums b)
          if g.overRange then { r with overRange := true }
          else
            let sums := givenSums r 0 we g.rows.flatten
            let special := sums.any fun x => x.tag ≠ .none
            if isRaw od.fmt then
              let rows := (chop (declCols od) sums).map (Row.raw we)
              { r with acts := tabPut r.acts od.id ⟨od.fmt, declCols od, rows, ⟨false, 0⟩, []⟩, flush := g.flush, trunc := g.trunc }
            else
              let ys := sums.map (xaccToF32 we)
              let bias := match opTensor i r o 2 with
                | some t => (List.replicate g.rows.length (flatF32 t)).flatten
                | none => []
              let ys1 := if bias = [] then ys else List.zipWith fAdd ys bias
              let s1 := if bias = [] then zerosLike ys else bias
              let ys2 := epilogue i o (declCols od) ys1 s1 (zerosLike ys)
              rowCounts (putF32 i r o.out ys2) g.flush g.trunc special
  | _, _, _ => rowFail r stFmlaFormat

/-- A row group as the tensor arrays reduce it: its rows, columns and reduction dimension, the accumulator width and the window (02
R49 to R53), and whether the window is not known when the operation starts. -/
structure RowGroup where
  rows : Nat
  cols : Nat
  k : Nat
  wide : Bool
  we : Int
  opens : Bool := false
  deriving DecidableEq, Repr

/-- The row group of MATMUL for one context (R119). -/
def matGroups (i : Inst) (o : OpRec) (r : BatchRow) : List RowGroup :=
  match opTensor i r o 0, opTensor i r o 1, inDecl i.f o 1 with
  | some a, some b, some bd =>
    match pairWidth a.fmt b.fmt with
    | some w => [⟨(flatNums a).length / max 1 (dim bd 0), dim bd 1, dim bd 0, decide (w = 144), raisedWE r w a.fmt a.summary b.fmt b.summary (dim bd 0), false⟩]
    | none => []
  | _, _, _ => []

/-- The result of one expert for one token row: its sums in the window of the context and the expert
(R121). -/
def expertRow (r : BatchRow) (tray : Option TrayWin) (a b : Tensor) (bs : List Summary) (bd : TensorDecl) (w : Nat)
    (e : Nat) (x : List Num) : Option (Int × List Acc) :=
  let rows := expertRows bd b.rows e
  let own := bs.getD e ⟨true, 0⟩
  let sa := match tray with | some t => t.a | none => a.summary
  let sb := match tray with | some t => t.bs.getD e own | none => own
  let kmax := match tray with | some t => t.kmax | none => dim bd 0
  let we := raisedWE r w a.fmt sa b.fmt sb kmax
  if 511 < we then none
  else some (we, rows.map fun br => dot w we (ceilLog2 kmax) x (rowNums b.fmt b.cols br))

/-- EXPERT_MATMUL for one context (R121). Where IN0 holds k rows for each token, slot j takes row j; where it holds one, every slot takes
it; of any other number every slot takes the token's first row.
DESIGN CHOICE: notes/assumptions/89. -/
def opExpert (i : Inst) (o : OpRec) (tray : Option TrayWin) (r : BatchRow) : BatchRow :=
  match opTensor i r o 0, opTensor i r o 1, opTensor i r o 2, inDecl i.f o 1 with
  | some a, some b, some ix, some bd =>
    let k := attr o 0 1
    match pairWidth a.fmt b.fmt with
    | none => rowFail r stBadFormat
    | some w =>
      let xs := chop (dim bd 0) (flatNums a)
      let perTok := xs.length / max 1 ((flatNums ix).length / max 1 k)
      match allSome ((flatNums ix).map (indexOf (dim bd 2))) with
      | none => rowFail r stIndex
      | some es =>
        let slots := (List.range es.length).map fun n => (es.getD n 0, xs.getD (if perTok = k then n else n / max 1 k * max 1 perTok) [])
        let bs := weightSums i bd 0 b.rows
        match allSome (slots.map fun ex => expertRow r tray a b bs bd w ex.1 ex.2) with
        | none => rowFail r stXaccRange
        | some own =>
          let res := own.zipIdx.map fun t => (t.1.1, givenAccs r (t.2 * dim bd 1) t.1.1 t.1.2)
          let accs := (res.map Prod.snd).flatten
          if accs.any Acc.overRange then { r with overRange := true }
          else
            let n := dim bd 1
            let ys := (res.map fun p => p.2.map fun c => xaccToF32 p.1 c.x).flatten
            let gates := match opTensor i r o 3 with | some t => flatF32 t | none => es.map fun _ => 0#32
            let s1 := ((es.map f32OfNat).map (List.replicate n)).flatten
            let s2 := (gates.map (List.replicate n)).flatten
            let ys1 := epilogue i o (match outDecl i.f o with | some od => declCols od | none => n) ys s1 s2
            let out :=
              if attr o 1 1 = 1 then
                ((chop (k * n) ys1).zipIdx.map fun t =>
                  (List.range n).map fun c =>
                    treeSum ((List.range k).map fun j =>
                      fMul (gates.getD (t.2 * k + j) 0#32) (t.1.getD (j * n + c) 0#32))).flatten
              else ys1
            rowCounts (putF32 i r o.out out) ((accs.map Acc.flush).sum) ((accs.map Acc.trunc).sum)
              (accs.any fun c => c.x.tag ≠ .none)
  | _, _, _, _ => rowFail r stFmlaFormat

/-- The row groups of EXPERT_MATMUL for one context: one of a row for each slot, in the window of the context and the expert (R121). -/
def expertGroups (i : Inst) (o : OpRec) (r : BatchRow) : List RowGroup :=
  match opTensor i r o 0, opTensor i r o 1, opTensor i r o 2, inDecl i.f o 1 with
  | some a, some b, some ix, some bd =>
    match pairWidth a.fmt b.fmt with
    | none => []
    | some w =>
      let bs := weightSums i bd 0 b.rows
      ((flatNums ix).filterMap (indexOf (dim bd 2))).map fun e =>
        ⟨1, dim bd 1, dim bd 0, decide (w = 144),
         raisedWE r w a.fmt a.summary b.fmt (bs.getD e ⟨true, 0⟩) (dim bd 0), false⟩
  | _, _, _, _ => []

/-- The row groups of both products of attention for one context, the second after the first (R124): a row for each query, and a column for
each key position or element. -/
def attnGroups (i : Inst) (o : OpRec) (r : BatchRow) : List RowGroup :=
  match opTensor i r o 0, inDecl i.f o 1, inDecl i.f o 2 with
  | some qt, some kd, some vd =>
    let d := attr o 4 2
    let n := (flatNums qt).length / max 1 d
    let w := r.base + r.tokens
    let pFmt := if attr o 7 1 = 8 then Format.bf16 else Format.e4m3
    [⟨n, w, d, decide (pairWidth qt.fmt kd.fmt = some 144), 0, true⟩, ⟨n, d, w, decide (pairWidth pFmt vd.fmt = some 144), 0, true⟩]
  | _, _, _ => []

/-- The row groups of a tensor-array operation. The windows of TRAY_SCOPE = 1 follow from the tray's summaries (R131) and those of attention
from its first product (R124): they are open at the start.
DEDUCED: notes/assumptions/79. -/
def rowGroupsOf (i : Inst) (o : OpRec) (r : BatchRow) : List RowGroup :=
  match o.opcode with
  | 1 => (matGroups i o r).map fun g => { g with opens := decide (attr o 0 1 = 1) }
  | 2 => (expertGroups i o r).map fun g => { g with opens := decide (attr o 2 1 = 1) }
  | 5 => attnGroups i o r
  | 6 => attnGroups i o r
  | _ => []

/-- Whether an FP32 value is NaN. -/
def isNaN (x : Word) : Bool := decide (f32Num x = .nan)

/-- Whether an FP32 value is NaN or infinite. -/
def isSpecial (x : Word) : Bool := numSpecial (f32Num x)

/-- Indices ordered by descending value, equal values by ascending index (R122, R130). -/
def orderDesc (xs : List Word) : List Nat :=
  (sortBy (fun a b => fLt b.1 a.1) xs.zipIdx).map Prod.snd

/-- ROUTER_TOPK of one token row: its chosen experts and gates, or none where a score cannot be ordered
(R122). -/
def routeRow (mode k : Nat) (renorm : Bool) (bias : Option (List Word)) (xs : List Word) : Option (List Nat × List Word) :=
  if xs.any isSpecial then none
  else
    let scores := match mode with
      | 0 => softmax xs
      | 1 => xs
      | _ => xs.map fun x => fRcp (fAdd cOne (fExp2 (fMul (fNeg x) cLog2E)))
    let sel := match bias with | some b => List.zipWith fAdd scores b | none => scores
    if sel.any isNaN then none
    else
      let ids := (orderDesc sel).take k
      let g0 := ids.map fun e => scores.getD e 0#32
      let g1 := if mode = 1 then softmax g0 else g0
      let g2 := if renorm then (let s := fRcp (treeSum g1); g1.map fun g => fMul g s) else g1
      some (ids, g2)

/-- ROUTER_TOPK for one context (R122). A selection bias with rows for each token gives that of the context's first token to every token.
DESIGN CHOICE: notes/assumptions/105. -/
def opRouter (i : Inst) (o : OpRec) (r : BatchRow) : BatchRow :=
  match opTensor i r o 0, inDecl i.f o 0 with
  | some a, some ad =>
    let bias := (opTensor i r o 1).map flatF32
    match allSome ((chop (declElems ad) (flatF32 a)).map (routeRow (attr o 3 1) (attr o 2 1) (attr o 4 1 = 1) bias)) with
    | none => rowFail r stNonfinite
    | some res =>
      let r1 := putF32 i r o.out ((res.map fun p => p.1.map f32OfNat).flatten)
      putF32 i r1 (some (attr o 0 2)) ((res.map Prod.snd).flatten)
  | _, _ => rowFail r stFmlaFormat

/-- GATHER for one context (R123): an exact copy where the formats agree. The rows of a table with rows for each token form one table.
DESIGN CHOICE: notes/assumptions/105. -/
def opGather (i : Inst) (o : OpRec) (r : BatchRow) : BatchRow :=
  match opTensor i r o 0, opTensor i r o 1, outDecl i.f o with
  | some t, some ix, some od =>
    match allSome ((flatNums ix).map (indexOf t.rows.length)) with
    | none => rowFail r stIndex
    | some es =>
      if od.fmt = t.fmt ∧ declCols od = t.cols then
        let rows := es.map fun e => t.rows.getD e (.single [])
        { r with acts := tabPut r.acts od.id ⟨od.fmt, t.cols, rows, summaryOf t.fmt t.cols rows, []⟩ }
      else putOut i r o.out ((es.map fun e => (tensorNums t).getD e []).flatten)
  | _, _, _ => rowFail r stFmlaFormat

/-- One query of a row group: its elements and the session positions of its key list, ascending. -/
structure AttnQuery where
  q : List Num
  kvHead : Nat
  keys : List Nat
  deriving DecidableEq, Repr

/-- The KV entry of a position and head as exact numbers. -/
def kvNums (fmt : Format) (d : Nat) (ents : List (List Row)) (pos head : Nat) : List Num :=
  rowNums fmt d ((ents.getD pos []).getD head (.half []))

/-- The summary of a KV tensor as the session holds it (R48). -/
def kvSummary (fmt : Format) (d : Nat) (ents : List (List Row)) : Summary := summaryOf fmt d ents.flatten

/-- What the exact attention of a row group gives: every query's output row, whether a term was over range or WE past 511, the
counts of R51, how many conversions on the way were special, and whether a sum written out carried a tag (R55). -/
structure AttnResult where
  outs : List (List Word)
  overRange : Bool
  tooHigh : Bool
  flush : Nat
  trunc : Nat
  special : Nat
  tagged : Bool
  deriving DecidableEq, Repr

/-- Exact attention of one row group (R62, R49, R124). A range fault in either product raises the windows of both.
DESIGN CHOICE: notes/assumptions/88. -/
def attnGroup (r : BatchRow) (o : OpRec) (qt : Tensor) (kd vd : TensorDecl) (qs : List AttnQuery) : AttnResult :=
  let d := attr o 4 2
  let kE := tabGet r.work.kv [] kd.id
  let vE := tabGet r.work.kv [] vd.id
  let kS := kvSummary kd.fmt d kE
  let vS := kvSummary vd.fmt d vE
  let w1 := (pairWidth qt.fmt kd.fmt).getD 112
  let we1 := raisedWE r w1 qt.fmt qt.summary kd.fmt kS d
  let scale := BitVec.ofNat 32 (attr o 0 4)
  let pFmt := if attr o 7 1 = 8 then Format.bf16 else Format.e4m3
  let w := r.base + r.tokens
  let zs := qs.zipIdx.map fun q => givenAccs r (q.2 * w) we1 (q.1.keys.map fun p => dot w1 we1 (ceilLog2 d) q.1.q (kvNums kd.fmt d kE p q.1.kvHead))
  let es := zs.map fun z =>
    let y := z.map fun a => fMul (xaccToF32 we1 a.x) scale
    let m := treeMax y
    y.map (expShift m)
  let pRows := es.map fun e => (rowConvert pFmt (e.map f32Num)).1
  let pS : Summary :=
    let ts := (List.zip es pRows).filterMap fun t => rowTop pFmt t.1.length t.2
    if ts = [] then ⟨true, 0⟩ else ⟨false, ts.foldl max 0⟩
  let kmax := (qs.map fun q => q.keys.length).foldl max 1
  let w2 := (pairWidth pFmt vd.fmt).getD 112
  let we2 := raisedWE r w2 pFmt pS vd.fmt vS kmax
  let os := (List.zip qs (List.zip es pRows)).zipIdx.map fun u =>
    let t := u.1
    let p := rowNums pFmt t.2.1.length t.2.2
    let vs := t.1.keys.map fun pos => kvNums vd.fmt d vE pos t.1.kvHead
    givenAccs r (qs.length * w + u.2 * d) we2 ((List.range d).map fun j => dot w2 we2 (ceilLog2 kmax) p (vs.map fun v => v.getD j (.fin false 0 0)))
  let outs := (List.zip os es).map fun t =>
    if t.2 = [] then List.replicate d 0#32
    else let rs := fRcp (treeSum t.2); t.1.map fun a => fMul (xaccToF32 we2 a.x) rs
  let all := zs.flatten ++ os.flatten
  let tag (cs : List (List Acc)) : Bool := cs.flatten.any fun c => c.x.tag ≠ .none
  { outs := outs, overRange := all.any Acc.overRange, tooHigh := decide (511 < we1) || decide (511 < we2)
    flush := (all.map Acc.flush).sum, trunc := (all.map Acc.trunc).sum
    special := b2n (tag zs) + b2n (formatIsBlock pFmt && es.flatten.any fun x => numSpecial (f32Num x)), tagged := tag os }

/-- The queries of a context: token by token, head by head, with the key list each takes (R124). -/
def attnQueries (r : BatchRow) (o : OpRec) (qt : Tensor) (kd : TensorDecl) (lists : Nat → Nat → List Nat) : List AttnQuery :=
  let d := attr o 4 2
  let g := max 1 (attr o 6 1)
  let hq := g * (declElems kd / max 1 d)
  let xs := chop d (flatNums qt)
  (List.range xs.length).map fun n =>
    let t := n / max 1 hq
    let h := n % max 1 hq / g
    ⟨xs.getD n [], h, lists (r.base + t) h⟩

/-- The causal key list of a query token: positions up to its own, the last WINDOW of them, that are appended (R124). -/
def causalList (have_ : Nat → Bool) (window i : Nat) : List Nat :=
  let lo := if window = 0 then 0 else i + 1 - window
  (List.range (i + 1)).filter fun p => decide (lo ≤ p) && have_ p

/-- Whether a KV tensor holds the entry of a position (R124, R126). -/
def hasEntry (r : BatchRow) (id p : Nat) : Bool := !((tabGet r.work.kv [] id).getD p []).isEmpty

/-- Attention over given key lists, with its epilogue (R124, R137). -/
def attnWith (i : Inst) (o : OpRec) (lists : Nat → Nat → List Nat) (r : BatchRow) : BatchRow :=
  match opTensor i r o 0, inDecl i.f o 1, inDecl i.f o 2 with
  | some qt, some kd, some vd =>
    let d := attr o 4 2
    let g := max 1 (attr o 6 1)
    let hq := g * (declElems kd / max 1 d)
    let qs := attnQueries r o qt kd lists
    if qs.any fun q => decide (4194304 < q.keys.length) then rowFail r stRange
    else
      let res := attnGroup r o qt kd vd qs
      if res.tooHigh then rowFail r stXaccRange
      else if res.overRange then { r with overRange := true }
      else
        let vE := tabGet r.work.kv [] vd.id
        let s1 := ((List.range qs.length).map fun n =>
          let own := r.base + n / max 1 hq
          if hasEntry r vd.id own then (kvNums vd.fmt d vE own (n % max 1 hq / g)).map Num.toF32 else List.replicate d 0#32).flatten
        let ys := res.outs.flatten
        let cols := match outDecl i.f o with | some od => declCols od | none => d
        let ys1 := epilogue i o cols ys s1 (zerosLike ys)
        let r1 := rowCounts (putF32 i { r with special := 0 } o.out ys1) res.flush res.trunc res.tagged
        { r1 with special := r1.special + res.special }
  | _, _, _ => rowFail r stFmlaFormat

/-- Whether a position's key and value have been appended when the operation starts (R124). -/
def appended (r : BatchRow) (o : OpRec) (p : Nat) : Bool := hasEntry r ((opIn o 1).getD 0) p && hasEntry r ((opIn o 2).getD 0) p

/-- ATTN_EXACT for one context (R124). -/
def opAttnExact (i : Inst) (o : OpRec) (r : BatchRow) : BatchRow :=
  attnWith i o (fun p _ => causalList (appended r o) (attr o 8 4) p) r

/-- The first position of the query block of a token (06_sillage.md R189). -/
def blockFirst (r : BatchRow) (p : Nat) : Nat := r.base + (p - r.base) / 64 * 64

/-- The record of a block and KV head of this operation, as session state holds it (R125, 06 R197). -/
def findRecord (r : BatchRow) (op p0 head : Nat) : Option SelRecord :=
  r.work.records.find? fun s => s.pos0 == p0 && s.op == op && s.head == head

/-- The key list of a query token under a selection (06 R189): its recent part and the selection,
ascending, cut to WINDOW. -/
def sillageList (have_ : Nat → Bool) (recent window p0 p : Nat) (sel : List Nat) : List Nat :=
  (causalList have_ window p).filter fun n => decide (p0 + 1 - recent ≤ n) || sel.contains n

/-- Whether every block and head a context needs has a record (R125). -/
def recordsReady (i : Inst) (o : OpRec) (op : Nat) (r : BatchRow) : Bool :=
  match inDecl i.f o 1 with
  | none => true
  | some kd =>
    let heads := declElems kd / max 1 (attr o 4 2)
    (List.range r.tokens).all fun t => (List.range heads).all fun h =>
      (findRecord r op (blockFirst r (r.base + t)) h).isSome

/-- ATTN_SILLAGE for one context whose records are in session state (R125, 06 R189). -/
def opAttnSillage (i : Inst) (o : OpRec) (op : Nat) (r : BatchRow) : BatchRow :=
  if !recordsReady i o op r then rowFail r stNoSelection
  else attnWith i o (fun p h =>
    let p0 := blockFirst r p
    sillageList (appended r o) (attr o 20 4) (attr o 8 4) p0 p
      (match findRecord r op p0 h with | some s => s.positions | none => [])) r

/-- The folding sign ρ(i) (06 R186): −1 where i AND 0xC3 has an odd number of set bits. -/
def foldNeg (n : Nat) : Bool :=
  let x := n &&& 0xC3
  (List.range 8).foldl (fun acc b => acc != x.testBit b) false

/-- The 64 folded elements of a vector (06 R186). -/
def foldVec (k : List Num) : List Word :=
  let xs := (k.map Num.toF32).zipIdx.map fun t => if foldNeg t.2 then fNeg t.1 else t.1
  (List.range 64).map fun j =>
    treeSum ((List.range ((xs.length + 63 - j) / 64)).map fun n => xs.getD (64 * n + j) 0#32)

/-- A value times 2^−X rounded to an integer with ties to even (06 R186). -/
def roundInt (x : Int) (v : Num) : Int :=
  match v with
  | .fin neg m e =>
    let k := e - x
    let q : Nat :=
      if 0 ≤ k then m <<< k.toNat
      else
        let s := (-k).toNat
        let fl := m >>> s
        let rem := m - (fl <<< s)
        if 1 <<< (s - 1) < rem ∨ (rem = 1 <<< (s - 1) ∧ fl % 2 = 1) then fl + 1 else fl
    if neg then -(q : Int) else q
  | _ => 0

/-- The 256-bit field of a sketch: element j in bits 4j + 3 to 4j, two's complement (06 R188). -/
def packSketch (es : List Int) : BitVec 256 := BitVec.ofNat 256 (packCodes 4 (es.map fun e => (e % 16).toNat))

/-- Element j of a sketch (06 R188). -/
def sketchElem (w : BitVec 256) (j : Nat) : Int := (w.extractLsb' (4 * j) 4).toInt

/-- The bytes of page `p` of a tensor's sketches: the sketch of token t of the page for KV head h at (h * 256 + t) * 32 (06 R188). -/
def sketchPage (heads : Nat) (ents : List (List (BitVec 256))) (p : Nat) : List Byte :=
  (List.range heads).flatMap fun h => (List.range 256).flatMap fun t => leBytes 32 (((ents.getD (p * 256 + t) []).getD h 0#256).toNat)

/-- One sketch from folded elements, and how many elements were clamped or not finite (06 R186). An
exponent of −128 is unset and gives zeros (R187). -/
def sketchOf (x : Int) (fs : List Word) : BitVec 256 × Nat :=
  let ns := fs.map f32Num
  let es := ns.map fun v =>
    if numSpecial v then ((0 : Int), true)
    else if x = -128 then (0, false)
    else let s := roundInt x v; (max (-8) (min 7 s), decide (s < -8) || decide (7 < s))
  (packSketch (es.map Prod.fst), (es.filter Prod.snd).length)

/-- The sketch exponent after an operation's new keys of a head (06 R187). -/
def nextExp (x : Int) (fs : List (List Word)) : Int :=
  if x ≠ -128 then x
  else
    let his := (fs.flatten.map f32Num).filter numLive |>.map numHi
    match his with
    | [] => -128
    | h :: t => max (-127) (min 127 (t.foldl max h - 1))

/-- A tensor's entries by position with new ones from a position on: a position no step has appended to this tensor has none (R126,
R291). -/
def appendAt {α : Type} (old : List (List α)) (base : Nat) (new : List (List α)) : List (List α) :=
  old.take base ++ List.replicate (base - old.length) [] ++ new

/-- KV_APPEND for one context (R126, 06 R186, R187). -/
def opKvAppend (i : Inst) (o : OpRec) (maxTok : Nat) (r : BatchRow) : BatchRow :=
  match opTensor i r o 0, opTensor i r o 1, inDecl i.f o 2, inDecl i.f o 3 with
  | some nk, some nv, some kd, some vd =>
    let ents (d : TensorDecl) (t : Tensor) : List (List Row) :=
      (chop (declElems d) (flatNums t)).map fun e => (chop (declCols d) e).map fun x => (rowConvert d.fmt x).1
    let ks := ents kd nk
    let vs := ents vd nv
    if min (min i.f.maxSeq 4194304) maxTok < r.base + ks.length then rowFail r stSeqFull
    else
      let put (kv : List (Nat × List (List Row))) (d : TensorDecl) (es : List (List Row)) :=
        tabPut kv d.id (appendAt (tabGet kv [] d.id) r.base es)
      let kv := put (put r.work.kv kd ks) vd vs
      let w0 := { r.work with kv := kv, pos := r.base + ks.length }
      let r0 := countSpecial vd.fmt (countSpecial kd.fmt r (flatNums nk)) (flatNums nv)
      if attr o 0 1 = 0 then { r0 with work := w0 }
      else
        let heads := declElems kd / max 1 (declCols kd)
        let folded := ks.map fun e => e.map fun row => foldVec (rowNums kd.fmt (declCols kd) row)
        let old := tabGet r.work.exps (List.replicate heads (-128)) kd.id
        let exps := (List.range heads).map fun h => nextExp (old.getD h (-128)) (folded.map fun e => e.getD h [])
        let sk := folded.map fun e => (List.range heads).map fun h => sketchOf (exps.getD h (-128)) (e.getD h [])
        let sat := ((sk.flatten.map Prod.snd)).sum
        { r0 with sat := sat, work := { w0 with
            exps := tabPut r.work.exps kd.id exps
            sketch := tabPut r.work.sketch kd.id (appendAt (tabGet r.work.sketch [] kd.id) r.base (sk.map fun e => e.map Prod.fst)) } }
  | _, _, _, _ => rowFail r stFmlaFormat

/-- NORM for one context (R127, R61). A `g` or `b` with rows for each token gives those of the context's first token to every row.
DESIGN CHOICE: notes/assumptions/105. -/
def opNorm (i : Inst) (o : OpRec) (r : BatchRow) : BatchRow :=
  match opTensor i r o 0, opTensor i r o 1 with
  | some x, some g =>
    let eps := BitVec.ofNat 32 (attr o 4 4)
    let gs := flatF32 g
    let rows := (tensorNums x).map fun v => v.map Num.toF32
    let ys := match opTensor i r o 2 with
      | some b => if attr o 0 1 = 1 then rows.map fun v => layernorm v gs (flatF32 b) eps else rows.map fun v => rmsnorm v gs eps
      | none => rows.map fun v => rmsnorm v gs eps
    putF32 i r o.out ys.flatten
  | _, _ => rowFail r stFmlaFormat

/-- SOFTMAX for one context (R127, R61). -/
def opSoftmax (i : Inst) (o : OpRec) (r : BatchRow) : BatchRow :=
  match opTensor i r o 0 with
  | some x => putF32 i r o.out (((tensorNums x).map fun v => softmax (v.map Num.toF32)).flatten)
  | none => rowFail r stFmlaFormat

/-- The function FUNC of ACTIVATION selects (R128). -/
def actFunc (n : Nat) (x : Word) : Word :=
  match n with
  | 0 => silu x
  | 1 => geluTanh x
  | 2 => x
  | _ => fMax x 0#32

/-- ACTIVATION for one context (R128). -/
def opActivation (i : Inst) (o : OpRec) (r : BatchRow) : BatchRow :=
  match tokenF32 i r o 0 with
  | some x =>
    let f (op : Word → Word → Word) (n : Nat) (ys : List Word) : List Word :=
      match tokenF32 i r o n with | some g => List.zipWith op ys (alongside x g).flatten | none => ys
    putF32 i r o.out (f fAdd 2 (f fMul 1 (x.flatten.map (actFunc (attr o 0 1)))))
  | none => rowFail r stFmlaFormat

/-- ELEMENTWISE for one context (R128). A `b` that holds nothing for a context, an ADAPTER tensor without a slot, is taken as `a`.
DESIGN CHOICE: notes/assumptions/104. -/
def opElementwise (i : Inst) (o : OpRec) (r : BatchRow) : BatchRow :=
  match tokenF32 i r o 0 with
  | some xs =>
    let c := BitVec.ofNat 32 (attr o 4 4)
    let ys := match tokenF32 i r o 1 with | some b => alongside xs b | none => xs
    let f := match attr o 0 1 with | 0 => fAdd | 1 => fMul | 2 => fSub | _ => fun x _ => fMul x c
    putF32 i r o.out (List.zipWith f xs.flatten ys.flatten)
  | none => rowFail r stFmlaFormat

/-- One head of ROTARY with its cosine and sine row (R129, R61). -/
def rotaryHead (dr pairing : Nat) (cs ss x : List Word) : List Word :=
  let pos (n : Nat) : Nat × Nat := if pairing = 0 then (2 * n, 2 * n + 1) else (n, n + dr / 2)
  (List.range (dr / 2)).foldl (fun acc n =>
    let p := pos n
    let y := rotaryPair (x.getD p.1 0#32) (x.getD p.2 0#32) (cs.getD n 0#32) (ss.getD n 0#32)
    listSet (listSet acc p.1 y.1) p.2 y.2) x

/-- A converted row with its elements from `dr` on as they were stored: single elements of BF16 and FP32, and of an MX format the blocks
that lie wholly beyond (R129). A block that holds a rotated element is written again whole.
DEDUCED: notes/assumptions/90. -/
def rowPass (dr : Nat) (new old : Row) : Row :=
  match new, old with
  | .half a, .half b => .half (a.take dr ++ b.drop dr)
  | .single a, .single b => .single (a.take dr ++ b.drop dr)
  | .blocks a, .blocks b => .blocks (a.take ((dr + 31) / 32) ++ b.drop ((dr + 31) / 32))
  | r, _ => r

/-- ROTARY for one context (R129): elements beyond d_rot pass through unchanged, converted only where OUT_FMT differs. -/
def opRotary (i : Inst) (o : OpRec) (r : BatchRow) : BatchRow :=
  match opTensor i r o 0, opTensor i r o 1, opTensor i r o 2, inDecl i.f o 0 with
  | some x, some c, some s, some xd =>
    let dr := attr o 0 2
    let heads := chop (declCols xd) (flatNums x)
    let perTok := max 1 (declElems xd / max 1 (declCols xd))
    let cRows := chop (dr / 2) (flatF32 c)
    let sRows := chop (dr / 2) (flatF32 s)
    if cRows.length < r.base + (heads.length + perTok - 1) / perTok then rowFail r stIndex
    else
      let ys := (List.range heads.length).map fun n =>
        let p := r.base + n / perTok
        let h := heads.getD n []
        ((rotaryHead dr (attr o 2 1) (cRows.getD p []) (sRows.getD p []) (h.map Num.toF32)).take dr).map f32Num ++ h.drop dr
      match outDecl i.f o with
      | some od =>
        if od.fmt = x.fmt then
          let rows := (List.zip ys x.rows).map fun z => rowPass dr (rowConvert od.fmt z.1).1 z.2
          countSpecial od.fmt { r with acts := tabPut r.acts od.id ⟨od.fmt, x.cols, rows, summaryOf od.fmt x.cols rows, []⟩ } (ys.map (List.take dr)).flatten
        else putOut i r o.out ys.flatten
      | none => r
  | _, _, _, _ => rowFail r stFmlaFormat

/-- The last loop of sample(): the first index whose running sum exceeds the target (R130). -/
def pickTarget (target : Word) : Word → List (Nat × Word) → Option Nat
  | _, [] => none
  | acc, (c, p) :: t => let a := fAdd acc p; if fLt target a then some c else pickTarget target a t

/-- How many leading probabilities reach `topp` (R130). -/
def topCount (topp : Word) : Word → Nat → List Word → Nat
  | _, n, [] => n
  | acc, n, p :: t => let a := fAdd acc p; if fLe topp a then n + 1 else topCount topp a (n + 1) t

/-- sample() of R130: the token, or none where a NaN arises. -/
def sampleToken (x : List Word) (temp : Word) (topk : Nat) (topp u : Word) : Option Nat :=
  if x.any isSpecial then none
  else if temp = 0#32 ∨ temp = 0x80000000#32 then (orderDesc x).head?
  else
    let rt := fRcp temp
    let z := x.map fun v => fMul v rt
    if z.any isNaN then none
    else
      let c := if topk = 0 then orderDesc z else (orderDesc z).take topk
      let p := softmax (c.map fun n => z.getD n 0#32)
      if p.any isNaN then none
      else
        let n := if fLt topp cOne then topCount topp 0#32 0 p else c.length
        let target := fMul u (treeSum (p.take n))
        match pickTarget target 0#32 (List.zip (c.take n) p) with
        | some t => some t
        | none => (c)[n - 1]?

/-- SAMPLE for one context (R130). -/
def opSample (i : Inst) (o : OpRec) (r : BatchRow) : BatchRow :=
  match opTensor i r o 0, inDecl i.f o 0 with
  | some xt, some xd =>
    if !r.decode && !r.lastInput then { r with work := { r.work with last := none, stopHit := false } }
    else
      let rows := chop (declElems xd) (flatF32 xt)
      let x := rows.getD (rows.length - 1) []
      let temp := r.temp.getD (BitVec.ofNat 32 (attr o 0 4))
      let topk := r.topk.getD (attr o 4 2)
      let topp := r.topp.getD (BitVec.ofNat 32 (attr o 6 4))
      let u := uniform (draw r.work.seed r.work.counter (attr o 10 1) 0)
      match sampleToken x temp topk topp u with
      | none => rowFail r stNonfinite
      | some t =>
        let stops := match opTensor i r o 1 with | some s => (flatNums s).filterMap (indexOf (2 ^ 24)) | none => []
        let w := { r.work with
          counter := r.work.counter + 1
          last := some t
          stopHit := stops.contains t
          sampled := match o.out with | some id => tabPut r.work.sampled id (f32OfNat t) | none => r.work.sampled }
        let greedy := temp = 0#32 || temp = 0x80000000#32
        putF32 i { r with work := w, committed := true, toks := r.toks ++ [(t, stops.contains t, greedy, attr o 10 1)] } o.out [f32OfNat t]
  | _, _ => rowFail r stFmlaFormat

/-- CONVERT for one context (R133): exact decoding, conversion under R54 or R56. An input that holds no rows of tokens gives the rows of one
token, whatever the step's tokens, here as in NORM and SOFTMAX; the element-wise operations write its rows once for each token.
DESIGN CHOICE: notes/assumptions/106. -/
def opConvert (i : Inst) (o : OpRec) (r : BatchRow) : BatchRow :=
  match opTensor i r o 0 with
  | some x =>
    putOut i r o.out (flatNums x)
  | none => rowFail r stFmlaFormat

/-- VECTOR_KERNEL for one context (R133, R136, R137): row by row of the output's innermost dimension, streams repeated along outer
dimensions token by token. -/
def opVectorKernel (i : Inst) (o : OpRec) (r : BatchRow) : BatchRow :=
  match tokenF32 i r o 0, outDecl i.f o, o.kernel.bind (fun k => i.f.kernels[k]?) with
  | some xs, some od, some kn =>
    let cols := declCols od
    let streams := (List.range 4).map fun j => match tokenF32 i r o j with
      | some t => chop cols (alongside xs t).flatten
      | none => []
    let ys := (List.range (xs.flatten.length / max 1 cols)).map fun row =>
      kernelRow kn cols (streams.map fun s => s.getD row [])
    putF32 i r o.out ys.flatten
  | _, _, _ => rowFail r stFmlaFormat

/-- Element-wise sum of raw XACC rows of one WE; none where they differ (R57, R132). -/
def addRaw (w : Nat) : List Row → List Row → Option (List Row)
  | [], [] => some []
  | .raw we xs :: as, .raw we' ys :: bs =>
    if we ≠ we' ∨ xs.length ≠ ys.length then none
    else (addRaw w as bs).map (Row.raw we (List.zipWith (xaccAdd w) xs ys) :: ·)
  | _, _ => none

/-- Two raw tensors summed; none where they disagree (R57). -/
def addTensor (a b : Tensor) : Option Tensor :=
  if a.fmt ≠ b.fmt ∨ a.cols ≠ b.cols then none
  else (addRaw (if a.fmt = .xacc144 then 144 else 112) a.rows b.rows).map fun rows => { a with rows := rows }

/-- TRAY_ALLREDUCE over the inputs of the named devices (R132). -/
def reduceAll : List Tensor → Option Tensor
  | [] => none
  | t :: ts => ts.foldl (fun acc b => acc.bind fun a => addTensor a b) (some t)

/-- A tensor's rows with the row group each belongs to: its place among the groups and its context (R57). -/
def groupRows (t : Tensor) : List ((Nat × Nat) × Row) :=
  List.zip ((t.groups.zipIdx).flatMap fun g => List.replicate g.1.2 (g.2, g.1.1)) t.rows

/-- The runs of equal keys of a list: each key and the length of its run. -/
def runLengths {α : Type} [DecidableEq α] : List α → List (α × Nat)
  | [] => []
  | x :: xs => match runLengths xs with
    | (y, n) :: t => if x = y then (y, n + 1) :: t else (x, 1) :: (y, n) :: t
    | [] => [(x, 1)]

/-- Part `j` of `n` of a list (R132 TRAY_ALLTOALL). -/
def partOf {α : Type} (n j : Nat) (xs : List α) : List α :=
  let q := xs.length / max 1 n
  let m := xs.length % max 1 n
  let start := if j < m then j * (q + 1) else m * (q + 1) + (j - m) * q
  (xs.drop start).take (if j < m then q + 1 else q)

/-- The tensor of a device's own format that rows gathered from the named devices make, in ascending device ID: each row with the row
group it had there (R57, R132). -/
def gathered (t : Tensor) (parts : List (List ((Nat × Nat) × Row))) : Tensor :=
  let rows := (parts.map fun p => p.map Prod.snd).flatten
  { t with
    rows := rows, summary := summaryOf t.fmt t.cols rows
    groups := (parts.map fun p => (runLengths (p.map Prod.fst)).map fun g => (g.1.2, g.2)).flatten }

/-- The result of a collective on the device of rank `me` among the named ones, from the inputs in
ascending device ID; `root` is ROOT's rank, and `entry` the rows of one entry of the outermost dimension (R132). -/
def collective (opcode me root entry : Nat) (inputs : List Tensor) : Option Tensor :=
  match opcode with
  | 0x10 => reduceAll inputs
  | 0x11 => inputs.head?.map fun t => gathered t (inputs.map groupRows)
  | 0x12 => inputs.head?.map fun t => gathered t (inputs.map fun x => (partOf inputs.length me (chop entry (groupRows x))).flatten)
  | _ => inputs[root]?

end Sys2Proof.Machine
end

