-- ==== Sys2Proof/Machine/PlaceState.lean ====
section
/-!
DEFINITION. The state of the Placement Director: units with their homes and copies, reservations, pins,
capacity states and lookups (05_placement.md R139 to R182).
-/
namespace Sys2Proof.Machine

/-- Kinds of placed units (R139). -/
inductive UnitKind where
  | granule | expert | kv | sketch
  deriving DecidableEq, Repr

/-- The name of a unit: its kind, its owner (instance handle, or context for KV blocks and sketch pages),
tensor, adapter slot and index. -/
structure UnitKey where
  kind : UnitKind
  owner : Nat
  tensor : Nat
  slot : Nat
  index : Nat
  deriving DecidableEq, Repr

/-- Where a home lies (R140, R142, R161, R168). -/
inductive Home where
  | port (n : Nat)
  | peer (dev : Nat)
  | lost
  deriving DecidableEq, Repr

/-- A unit: size, domain, home, T1 and T0 copies, heat, reads in the running step, pins, COLD hint,
staging copy, whether a copy or home move is in progress, whether that
copy is complete and waits for an operation boundary, the reservoir a T1 copy in progress is bound for, and whether the unit that held its
pinned copy has left service (R158 UNIT_OUT). -/
structure PUnit where
  key : UnitKey
  bytes : Nat
  dom : Nat
  home : Home
  t1 : Option Nat
  t0 : Option Nat
  heat : Nat
  reads : Nat
  pin1 : Bool
  pin0 : Bool
  cold : Bool
  staging : Bool
  moving : Bool
  copied : Bool
  dest : Option Nat := none
  gone : Bool := false
  deriving DecidableEq, Repr

/-- A RESERVE pool of an instance (R155, R161): places of a number of tokens, and who holds them. -/
structure Pool where
  inst : Nat
  places : Nat
  tokens : Nat
  bytes : Nat
  taken : List Nat
  deriving DecidableEq, Repr

/-- A recorded pin (R157): the context told of a decline, what it names, its tier, and the KV blocks it has been applied to. -/
structure Pin where
  ctx : Nat
  inst : Nat
  tensor : Nat
  slot : Nat
  first : Nat
  count : Nat
  tier : Nat
  kv : Bool
  done : List Nat := []
  deriving DecidableEq, Repr

/-- Capacity states of a unit (R169). -/
inductive CapState where
  | inService | draining | out | returning | lost
  deriving DecidableEq, Repr

/-- The Director (R157, R169 to R182): units, pools, pins, capacity states by kind * 8 + number, the state and reason of the last
capacity request, the request under way (whether it is a drain, and its unit), whether new copies may still be placed on the unit that
drains, the lookup in progress (selection, context, index) with the result, and the T2 bytes read for migration and for the drain in
their milliseconds. -/
structure Plc where
  units : List PUnit := []
  pools : List Pool := []
  pins : List Pin := []
  newPins : List Pin := []
  caps : List (Nat × CapState) := []
  capSt : Nat := 0
  capReason : Nat := 0
  capRun : Option (Bool × Nat) := none
  placing : Bool := false
  lookup : Option (Nat × Nat × Nat) := none
  res0 : Word := 0#32
  res1 : Word := 0#32
  migUsed : Nat := 0
  migSince : Nat := 0
  drainUsed : Nat := 0
  drainSince : Nat := 0
  deriving DecidableEq, Repr

end Sys2Proof.Machine
end

