-- ==== Sys2Proof/Machine/ArrayState.lean ====
section
/-!
DEFINITION. The state of the array: dies, stacks with their routers and reduction destinations, and
isolation domains with the operation each runs (01_architecture.md R18 to R23; 03_harrel_stacks.md;
04_formulas_operations.md R116; 13_tenancy_security.md R423, R433; 17_faults.md R535, R536).
-/
namespace Sys2Proof.Machine

/-- States of a die: powered off, its domain ramping, under test, in service, lost, in die-local reset
(03 R89; 14_power_clocks_thermal.md R448; 15_reset_boot.md R485). -/
inductive DieState where
  | off | ramping | testing | inService | lost | reset
  deriving DecidableEq, Repr

/-- One die, by the index of 17 R542: its state, the tick of its last heartbeat, whether it waits for a
step boundary to return, and whether an injection asked for its restore. -/
structure Die where
  st : DieState := .off
  beat : Nat := 0
  returning : Bool := false
  deriving DecidableEq, Repr

/-- What the built-in test of a vertical link, or of a bypass lane, at a place of a die found: connections that failed in each
direction (03 R77). -/
structure LinkTest where
  tile : BitVec 7
  bypass : Bool
  down : BitVec 10
  up : BitVec 10
  deriving DecidableEq, Repr

/-- The key of a C3 packet: the fields that make two packets of one reduction (03 R80). -/
structure C3Key where
  ctx : Nat
  opseq : Nat
  attempt : Nat
  strip : Bool
  dst : Nat
  offset : Nat
  len : Nat
  we : Int
  wide : Bool
  expect : Nat
  deriving DecidableEq, Repr

/-- What a die's built-in tests found: the tiles that failed, and its vertical links and bypass lanes (03 R77, R87). -/
structure DieTest where
  tiles : List (BitVec 8)
  links : List LinkTest
  deriving DecidableEq, Repr

/-- A C3 packet (03 R79), whether a flit of it is poisoned, how many of its words the link it comes by has corrected (R76),
and the port by which it enters the router (R93). -/
structure C3Packet where
  key : C3Key
  src : Nat
  count : Nat
  flush : Nat
  trunc : Nat
  data : List Xacc
  poison : Bool := false
  fixed : Nat := 0
  via : Nat := 5
  deriving DecidableEq, Repr

/-- Where a C3 packet on its way arrives next: a router, a stack's base endpoint on the way out or in, or its
destination's adder. -/
inductive C3Place where
  | router (tile : Nat)
  | egress (stack : Nat)
  | ingress (stack : Nat)
  | adder (tile : Nat)
  deriving DecidableEq, Repr

/-- An open merge accumulator of an output port, with the tick at which its window ends (03 R81). -/
structure MergeAcc where
  place : C3Place
  port : Nat
  packet : C3Packet
  closes : Nat := 0
  deriving DecidableEq, Repr

/-- Where a packet of any class is bound: a tile's local port, a slice of a die buffer, a strip port named by its lower edge
tile (03 R71). -/
inductive MeshDst where
  | tile (t : Nat)
  | slice (stack : Nat) (upper : Bool) (s : Nat)
  | strip (t : Nat)
  deriving DecidableEq, Repr

/-- A packet of any class on a mesh: class, sender, destination, payload flits, the reduction packet it is where it is of class
C3, and whether a flit is poisoned (03 R71, R76, R79). -/
structure MeshPkt where
  cls : Nat
  src : Nat
  dst : MeshDst
  len : Nat
  body : Option C3Packet := none
  poison : Bool := false
  deriving DecidableEq, Repr

/-- A packet at an input buffer of a router or strip port: the router, the input and output ports, its flits that whoever feeds the buffer
still holds, those in the buffer, each by the mesh cycle from which it may leave, and how many have left (03 R73, R74). -/
structure MeshWait where
  at_ : Nat
  inPort : Nat
  outPort : Nat
  fed : Nat
  flits : List Nat
  sent : Nat
  pkt : MeshPkt
  deriving DecidableEq, Repr

/-- An output port of a router: the input and class of the packet it was granted to, while that packet is under way, the input of a C4
packet under way, the class and the inputs served last, and the cycle from which a C4 flit may pass again (03 R73). -/
structure OutPort where
  cur : Option (Nat × Nat) := none
  c4In : Option Nat := none
  lastCls : Nat := 3
  lastIn : List (Nat × Nat) := []
  c4At : Nat := 0
  deriving DecidableEq, Repr

/-- A reduction destination that a tiling has reserved: the key it expects, whether the first packet is to fix its window, the place of its
first element in the context's row groups and how many elements it has, the sum so far and whether it is complete (03 R69, R75, R83). -/
structure RedDest where
  key : C3Key
  opens : Bool
  first : Nat
  elems : Nat
  sum : Option C3Packet
  done : Bool
  deriving DecidableEq, Repr

/-- Telemetry of a stack, by router, port and class (key tile * 64 + port * 8 + class): flits sent, stall cycles, highest
occupancies; merges; and the operations whose tilings' traffic adds to the counts of
the lower or upper die's routers (03 R95 to R97). -/
structure Telemetry where
  flits : List (Nat × Nat) := []
  stalls : List (Nat × Nat) := []
  hwm : List (Nat × Nat) := []
  merges : Nat := 0
  draws : List (Nat × Bool) := []
  deriving DecidableEq, Repr

/-- A snapshot of a stack's telemetry, with the occupancies, the tick of its cycle and whether an operation ran (03 R92). -/
structure TelSnap where
  tel : Telemetry
  cur : List (Nat × Nat)
  at_ : Nat
  busy : Bool
  deriving DecidableEq, Repr

/-- A tiling class: opcode, shapes and formats (05_placement.md R150). -/
structure TileClass where
  opcode : Nat
  shapes : List (List Nat)
  fmts : List Nat
  deriving DecidableEq, Repr

/-- A tiling of one class of an instance: which of the Director's choices it is, the tiles it shares the work among, and whether
the results leave their die (05 R150). -/
structure Tiling where
  inst : Nat
  cls : TileClass
  draw : Nat
  tiles : List Nat
  leaves : Bool
  deriving DecidableEq, Repr

/-- The tilings of a domain for one case: the working ones, or those for the loss of one unit, a stack by its number or an upper
die by its index (05 R163). -/
structure TilingSet where
  loss : Option Nat
  tilings : List Tiling
  deriving DecidableEq, Repr

/-- What streams into the halves of a domain's tiles (05 R148, R153): the operation it is for, whether that is a guess of the
next step, the units fetched, those of its operands that a tile holds already, and the passes still to run. -/
structure Prefetch where
  inst : Nat
  step : Nat
  op : Nat
  guess : Bool
  units : List UnitKey
  held : List UnitKey
  passes : Nat
  deriving DecidableEq, Repr

/-- One stack (03 R87 to R99): its domain, lost tiles (die * 128 + index), routers in pass-through
service, bypass lanes that are not repaired (column * 8 + edge row), the mesh settings in force, whether its endpoint merges and for
how long (07_skeltil_base.md R250), its reduction state, the mesh cycle with the packets in its routers' input buffers and its output ports
(tile * 8 + port), telemetry with its snapshot, the tick of the last reduction fault of each router, and whether it waits for
tilings that include it. -/
structure Stack where
  domain : Option Nat := none
  lost : List Nat := []
  passing : List Nat := []
  deadBypass : List Nat := []
  redEn : Bool := true
  epRed : Bool := true
  epWindow : Nat := 16
  window : Nat := 8
  dests : List RedDest := []
  cycle : Nat := 0
  waits : List MeshWait := []
  ports : List (Nat × OutPort) := []
  tel : Telemetry := {}
  frozen : Option TelSnap := none
  redFaults : List (Nat × Nat) := []
  fresh : Bool := false
  deriving DecidableEq, Repr

/-- Phases of a domain (01 R20 to R22, 17 R536): no batch; stacks reporting ready; the operation's
execution; its attempt aborted and draining. -/
inductive Phase where
  | idle | readying | running | aborted
  deriving DecidableEq, Repr

/-- The batch a domain runs: its instance, step, operation within the step, the rows of its contexts,
the attempt's number, the rows its results make once they are formed, whether this attempt aborts on a
range fault, whether its step runs in exact mode (06 R198), which of how many part-operations it is at (13 R436), and the
number of its operation, which it keeps while it is parked. -/
structure Batch where
  inst : Nat
  step : Nat
  op : Nat
  rows : List BatchRow
  attempt : Nat
  result : Option (List BatchRow)
  rangeFault : Bool
  exact : Bool
  part : Nat := 0
  parts : Nat := 1
  seq : Nat := 0
  deriving DecidableEq, Repr

/-- An isolation domain (01 R18, 13 R423): its shares, phase and batch, batches cut at a slice end, the end of its last
execution; the stacks reported ready, the accord timeout, the last report's tick; start tick, slice end and whether it has
cut; lost units whose tilings are pending, the tilings in force, the loss those for further losses are chosen for, the tiles'
buddies (05 R150, R163, R164); what is prefetched (05 R153); whether it is halted, whether new tilings are being installed,
fault records waiting for it to resume; operation sequence number, the tick of its last fault, exact mode in force (06 R198),
array time in this accounting interval, the ticks its tiles waited for operands (05 R152), whether the end of its operation
waits for faults detected in the same tick (01 R30), the last tick in which a guarantee of rank 1 slowed it (01 R32), and PLC_CFG as of its last step boundary (05 R173). -/
structure Dom where
  t1Gib : Nat := 0
  t2Gib : Nat := 0
  bwPct : Nat := 0
  silPct : Nat := 0
  planes : Nat := 0
  slots : Nat := 0
  phase : Phase := .idle
  batch : Option Batch := none
  parked : List Batch := []
  prevEnd : Nat := 0
  ready : List Nat := []
  readyBy : Option Nat := none
  lastReady : Nat := 0
  start : Nat := 0
  sliceEnd : Option Nat := none
  cut : Bool := false
  losses : List Nat := []
  tilings : List TilingSet := []
  lossTiling : Option Nat := none
  buddies : List (Nat × Nat) := []
  prefetch : List Prefetch := []
  halted : Bool := false
  installing : Bool := false
  resumes : List Nat := []
  opseq : Nat := 0
  lastFaultGt : Nat := 0
  exactMode : Bool := false
  acct : Nat := 0
  pfStall : Nat := 0
  owed : Bool := false
  limitedAt : Nat := 0
  plcCfg : Word := 0x18020A#32
  deriving DecidableEq, Repr

/-- The array: dies, stacks, domains, C3 packets on their way with where they arrive next, open merge
accumulators, the microkernel execution, whether admission of new steps is stopped (17 R539), and whether no
new operation starts (14 R451, R459). -/
structure Arr where
  dies : List (Nat × Die) := []
  memStacks : List (Nat × Stack) := []
  doms : List (Nat × Dom) := []
  flights : List (C3Place × C3Packet) := []
  accs : List MergeAcc := []
  kern : Kern := kernStart 1 [] []
  noSteps : Bool := false
  noOps : Bool := false
  deriving DecidableEq, Repr

end Sys2Proof.Machine
end

