-- ==== Sys2Proof/Machine/Payload.lean ====
section
/-!
DEFINITION. The operands commands carry: who writes a register, how a page is reached, submission
descriptors and what host reads return (09_host_rings.md R294 to R313, 18_register_map.md R554 to R558).
-/
namespace Sys2Proof

/-- What a read of a T2 codeword found (08_memory_tiers.md R269, R272): by how much each of its symbols differs from the code, and
whether the DRAM's on-die ECC reported it uncorrectable. -/
structure CodeRead where
  err : List (BitVec 8)
  onDie : Bool
  deriving DecidableEq, Repr

/-- Who makes an access to the register map (18 R557, R558 SOURCE): the host through BAR0, the management
controller through PLDM, the hub's control cores non-secure and secure. -/
inductive Requester where
  | host | mgmt | cores | secure
  deriving DecidableEq, Repr

/-- A unit of capacity as PLC_CAP_CTL names it: KIND and UNIT (05_placement.md R181). -/
structure CapUnit where
  kind : BitVec 2
  unit : BitVec 3
  deriving DecidableEq, Repr

/-- A write of a stack's STK_TEL_CTL: the stack and the FREEZE bit (03_harrel_stacks.md R92). -/
structure TelWrite where
  stack : BitVec 3
  freeze : Bool
  deriving DecidableEq, Repr

/-- A bank of the Sillage: group and bank (06_sillage.md R184). -/
structure BankId where
  group : BitVec 3
  bank : BitVec 4
  deriving DecidableEq, Repr

/-- A silent tile, and whether its router still forwards (03 R87; 17_faults.md R535). -/
structure SilentTile where
  tile : BitVec 11
  forwards : Bool
  deriving DecidableEq, Repr

/-- A write to BAR0 as R554 sorts it: one dword; two dwords in one 8-byte unit; one dword with byte
enables clear; longer than 8 bytes or crossing an 8-byte boundary. -/
inductive WriteForm where
  | dword (v : Word)
  | pair (lo hi : Word)
  | partialDword (v : Word)
  | long (v : Word)
  deriving DecidableEq, Repr

/-- How a context page is reached (09 R293, R295): page `c` of the PF, or page `slot` of VF `vf`. -/
inductive PageRef where
  | pf (c : BitVec 12)
  | vf (v : BitVec 6) (slot : BitVec 6)
  deriving DecidableEq, Repr

/-- The target of a register write: BAR0, a register of a context page (09 R296), or a function's MSI-X table (09 R293). -/
inductive RegTarget where
  | bar0 (off : BitVec 26)
  | page (p : PageRef) (off : BitVec 12)
  | bar4 (fn : BitVec 6) (off : BitVec 16)
  deriving DecidableEq, Repr

/-- The header fields of a submission descriptor (09 R307). -/
structure DescHead where
  ver : BitVec 4
  tag : BitVec 16
  noIrq : Bool
  fence : Bool
  deriving DecidableEq, Repr

/-- The body of a REQUEST descriptor (09 R309). -/
structure ReqBody where
  inputList : BitVec 64
  nTokens : BitVec 32
  chunk : BitVec 32
  maxNew : BitVec 32
  inputCount : BitVec 8
  rflags : BitVec 8
  temp : Word
  topp : Word
  topk : BitVec 16
  deadlineUs : BitVec 32
  recAddr : BitVec 64
  recLen : BitVec 32
  deriving DecidableEq, Repr

/-- The body of a PIN descriptor (09 R311). -/
structure PinBody where
  handle : BitVec 8
  tier : BitVec 8
  tensor : BitVec 16
  slot : BitVec 8
  first : BitVec 32
  count : BitVec 32
  deriving DecidableEq, Repr

/-- The bodies of the nine submission descriptors, and an opcode R308 does not define. -/
inductive DescBody where
  | request (b : ReqBody)
  | cancel (target : BitVec 16)
  | nop
  | load (addr len : BitVec 64)
  | chunk (addr : BitVec 64) (n : BitVec 32) (handle : BitVec 8)
  | unload (handle : BitVec 8)
  | bind (handle : BitVec 8) (slotValid : Bool) (slot : BitVec 8)
  | unbind
  | pin (b : PinBody)
  | undefinedOp (opcode : BitVec 8)
  deriving DecidableEq, Repr

/-- A submission descriptor. -/
structure Desc where
  head : DescHead
  body : DescBody
  deriving DecidableEq, Repr

/-- What a hub read of host memory was for (09 R312, R319, R328). -/
inductive HostRead where
  | descriptor
  | buffer
  | data (addr : BitVec 64)
  deriving DecidableEq, Repr

/-- One result buffer entry (09 R319). -/
structure BufEntry where
  ver : BitVec 4
  len : BitVec 32
  addr : BitVec 64
  deriving DecidableEq, Repr

/-- What a device of a pair reports of a set to a standby authority (12 R402): the device, the set, its last claim and its mirror-valid
flag. -/
structure LeaseReport where
  dev : BitVec 3
  set : BitVec 1
  claim : Word
  valid : Bool
  deriving DecidableEq, Repr

end Sys2Proof
end

