-- ==== Sys2Proof/Machine/DmaState.lean ====
section
/-!
DEFINITION. The state of DMA channels and check-value engines, and the accesses of the hub that can fail
(10_dma_check.md R331 to R360).
-/
namespace Sys2Proof

/-- Who starts a DMA channel (10 R331): a register write, or the loader of its pool with the registers it
loads. -/
inductive DmaBy where
  | write (r : Requester)
  | loader (src dst : BitVec 64) (count : Word)
  deriving DecidableEq, Repr

/-- An access the hub makes that can fail (09 R328, 10 R338; of the message rings, 11 R392). -/
inductive HubAccess where
  | dmaRead (n : BitVec 6)
  | dmaWrite (n : BitVec 6) (line : Word)
  | engineRead (e : BitVec 4)
  | submission (c : BitVec 12)
  | bufferEntry (c : BitVec 12)
  | data (c : BitVec 12)
  | resultBuffer (c : BitVec 12)
  | completion (c : BitVec 12)
  | message (c : BitVec 12)
  | fabMessage
  deriving DecidableEq, Repr

namespace Machine

/-- States of a channel (10 R350). -/
inductive DmaSt where
  | idle | running | done | halted
  deriving DecidableEq, Repr

/-- A DMA channel (10 R331 to R350): state, halt cause, lines of the committed prefix, lines committed beyond it,
address of the failing access, the offset of the first byte held in the buffer, the bytes held from there on,
when a host read's wait ends, re-issues spent on the access that failed last, the fields it was started with (R349), whether an ABORT of
this tick stops it (R342, R343), the tick of its last halt, and the context whose open descriptor it was loaded for (R332). -/
structure DmaChan where
  st : DmaSt := .idle
  cause : Nat := 0
  done : Nat := 0
  ahead : List Nat := []
  fail : Nat := 0
  start : Nat := 0
  data : List Byte := []
  readBy : Option Nat := none
  retries : Nat := 0
  ctl : Word := 0#32
  stopping : Bool := false
  haltAt : Nat := 0
  serves : Option Nat := none
  deriving DecidableEq, Repr

/-- A failed access: re-issues spent on it, the end of its retry gap where one runs, and its address. -/
structure Retry where
  access : HubAccess
  tries : Nat
  due : Option Nat
  addr : Nat
  deriving DecidableEq, Repr

/-- States of an engine (10 R360). -/
inductive ChkSt where
  | idle | running | done | stopped | error
  deriving DecidableEq, Repr

/-- A check-value engine (10 R352 to R360): state, cause, bytes consumed since GO, and its final value; its other
fields are registers. -/
structure ChkEngine where
  st : ChkSt := .idle
  cause : Nat := 0
  done : Nat := 0
  result : Nat := 0
  deriving DecidableEq, Repr

/-- A read of host memory under way: what it is for, its address, and the tick its wait ends (10 R338). -/
structure HostWait where
  access : HubAccess
  addr : Nat
  due : Nat
  deriving DecidableEq, Repr

/-- DMA channels, engines, accesses that failed and are being retried, the most segments in use at once, and the reads of host memory under
way but for those of channels (01 R28; 10 R338). -/
structure Dma where
  chans : List (Nat × DmaChan) := []
  engines : List (Nat × ChkEngine) := []
  retries : List Retry := []
  hwm : Nat := 0
  waits : List HostWait := []
  deriving DecidableEq, Repr

end Machine
end Sys2Proof
end

