-- ==== Sys2Proof/Machine/FabState.lean ====
section
/-!
DEFINITION. The state of the tray fabric: links, peers, requests, the duplicate filter, tray time and message
rings (11_tray_fabric.md R361 to R392).
-/
namespace Sys2Proof

/-- Who waits for the completion of a fabric request: a DMA channel, firmware or a die under its own number, the
mirror copy of a context's step, or a lease message for a pair and set (10 R331, 11 R374, 12 R395, R399). -/
inductive FabWho where
  | dma (n : BitVec 6)
  | unit (id : BitVec 16)
  | commit (c : BitVec 12)
  | lease (pair : BitVec 2) (set : BitVec 1)
  deriving DecidableEq, Repr

/-- A request that a die, a channel or firmware gives the hub switch (11 R370, R371): its requester and isolation
domain, none for the device's own traffic, and the fields of the packet. -/
structure FabArgs where
  who : FabWho
  dom : Option (BitVec 3)
  op : BitVec 6
  tag : BitVec 16
  ctx : BitVec 16
  claim : BitVec 32
  addr : BitVec 48
  mask : Option (BitVec 128)
  data : List Byte
  operand : BitVec 64
  compare : BitVec 64
  deriving DecidableEq, Repr

/-- The identity a link's far end reports (11 R364): tray, device, bundle, link. -/
structure FarEnd where
  tray : BitVec 16
  dev : BitVec 4
  bundle : BitVec 4
  link : BitVec 3
  deriving DecidableEq, Repr

namespace Machine

/-- States of a link (11 R389). -/
inductive LinkState where
  | dark | training | up | narrowed | down | miswired
  deriving DecidableEq, Repr

/-- What a packet carries beside its tag (11 R370, R371, R373): a request (OP, claim, mask, line, operand and compare), or a completion
(status, RESULT, line). -/
inductive TxBody where
  | request (op addr claim : Nat) (mask : Option (BitVec 128)) (data : List Byte) (operand compare : BitVec 64)
  | completion (status result : Nat) (line : List Byte)
  deriving DecidableEq, Repr

/-- A packet in a transmitter's replay buffer: its codeword, the device at the other end, the tag and line of its request, and what it
carries (11 R366, R367). -/
structure TxPacket where
  seq : Nat
  peer : Nat
  tag : Nat
  addr : Nat
  body : TxBody
  deriving DecidableEq, Repr

/-- A link (11 R361 to R368, R389, R391): state, lanes in use, lane the spare replaces, completed trainings, far
end, corrected and replayed codewords, the end of its training time, the tick of its next try, path asymmetry in
ticks, unacknowledged packets with the sequence number of the next codeword, slots of credit, the sequence number
expected, the slots of a packet that goes on in the next codeword, and the lanes that failed (8 the spare). -/
structure Link where
  st : LinkState := .dark
  lanes : Nat := 0
  spare : Option Nat := none
  trainings : Nat := 0
  far : Option FarEnd := none
  ce : Nat := 0
  replay : Nat := 0
  trainBy : Nat := 0
  retry : Option Nat := none
  asym : Int := 0
  tx : List TxPacket := []
  seq : Nat := 0
  credits : Nat := 0
  expect : Nat := 0
  part : List Byte := []
  bad : List Nat := []
  deriving DecidableEq, Repr

/-- How a peer is reached (11 R376, R390): not yet trained, by its own bundle, by a detour, or not at all. -/
inductive PeerState where
  | absent | direct | detour | lost
  deriving DecidableEq, Repr

/-- One peer: state and detour device, those in force before the tick of the last change with that tick, and the
tick and HEARD map of its last keepalive on its own bundle (11 R376, R379). -/
structure Peer where
  st : PeerState := .absent
  via : Nat := 0
  oldSt : PeerState := .absent
  oldVia : Nat := 0
  since : Option Nat := none
  seen : Option Nat := none
  heard : Nat := 0
  deriving DecidableEq, Repr

/-- A request in flight (11 R369, R374, R375, R377): what was asked, its link or detour device, the end of its
timer, reads that joined it, whether a write or atomic to its line was issued since, and the members of the batch
it carries with their operands. -/
structure FabReq where
  dev : Nat
  args : FabArgs
  bundle : Nat
  link : Nat
  via : Option Nat
  due : Nat
  joiners : List FabWho := []
  dirty : Bool := false
  members : List (FabWho × BitVec 64) := []
  deriving DecidableEq, Repr

/-- Adds held for one word (11 R375): the first member's request, the others' in order, whether a write or another atomic to the line has
closed it, the tick its last adds came in, and how many came in that tick (R379). -/
structure AddBatch where
  first : FabArgs
  rest : List FabArgs
  closed : Bool
  tick : Nat
  fresh : Nat
  deriving DecidableEq, Repr

/-- The answer a target gave (11 R367): status, RESULT, line. -/
structure FabAnswer where
  status : Nat
  result : Nat
  line : List Byte
  deriving DecidableEq, Repr

/-- A filtered request: source, tag, the tick it was executed, its answer. -/
structure Filtered where
  src : Nat
  tag : Nat
  at_ : Nat
  answer : FabAnswer
  deriving DecidableEq, Repr

/-- Tray time (11 R384, R385): the send tick of the exchange under way, the tick the next one falls due, twice the
offset θ of the last exchange, twice what slewing has left of it, ALIGNED, whether the initial alignment is done,
ticks GT is still held, and the tick from which GT may be slewed again. -/
structure TrayTime where
  asked : Option Nat := none
  nextAt : Nat := 0
  theta2 : Int := 0
  left2 : Int := 0
  aligned : Bool := false
  first : Bool := false
  hold : Nat := 0
  slewAt : Nat := 0
  deriving DecidableEq, Repr

/-- A message sent and not yet confirmed (11 R383): its bundle, tag and length, and the status of a descriptor that failed and waits for
the entries of those before it. -/
structure MsgSent where
  bundle : Nat
  tag : Nat
  len : Nat
  st : Option Nat := none
  deriving DecidableEq, Repr

/-- The message rings (11 R380 to R383, R392): whether they are enabled, the indices, the completion phase, the
status fields, and messages in transit in order. -/
structure MsgRings where
  enabled : Bool := false
  sqHead : Nat := 0
  sqTail : Nat := 0
  cqHead : Nat := 0
  cqTail : Nat := 0
  phase : Bool := true
  rqHead : Nat := 0
  rqTail : Nat := 0
  errCode : Nat := 0
  error : Bool := false
  skipped : Bool := false
  transit : List MsgSent := []
  deriving DecidableEq, Repr

/-- A read that was completed: the tick, its request, the status and the line (11 R379). -/
structure ReadDone where
  at_ : Nat
  req : FabReq
  status : Nat
  line : List Byte
  deriving DecidableEq, Repr

/-- The FAB block: links by bundle * 8 + link, peers by device, requests in flight, held adds, tags in use after
completion with the tick they were given back, those whose completion was poisoned, the duplicate filter, relayed
requests as target, tag and requester, tray time, the message rings, reads completed in this tick, peers declared LOST in it, and
whether every mirror write since the last answered one was poisoned (12 R405). -/
structure Fab where
  links : List (Nat × Link) := []
  peers : List (Nat × Peer) := []
  reqs : List FabReq := []
  batches : List AddBatch := []
  done : List (Nat × Nat × Nat) := []
  poisoned : List (Nat × Nat) := []
  filter : List Filtered := []
  relays : List (Nat × Nat × Nat) := []
  time : TrayTime := {}
  msg : MsgRings := {}
  fresh : List ReadDone := []
  lostNow : List Nat := []
  mirrorDead : Bool := false
  deriving DecidableEq, Repr

end Machine
end Sys2Proof
end

