-- ==== Sys2Proof/Machine/FlcState.lean ====
section
/-!
DEFINITION. The state of Flacon, the sealed metering die, and of the hub's side of its link (16_flacon.md R506 to R531).
-/
namespace Sys2Proof

/-- What the hub counted in an interval (16 R513, R514): the accounts it was done for, each with whether the counts belong to the epoch
before one that began in the interval and its token rows, and COUNT0 to COUNT7. -/
structure Activity where
  parts : List (BitVec 13 × Bool × BitVec 32)
  counts : List (BitVec 64)
  deriving DecidableEq, Repr

namespace Machine

/-- An entry of a RECORD (16 R513). -/
structure FlcEntry where
  acc : Nat
  epoch : Nat
  start : Bool
  counts : List Nat
  deriving DecidableEq, Repr

/-- A journal record (16 R519); SEQ, TYPE, CLOCK_UNKNOWN, ACC, TIME, VALUE, AUX. -/
structure JrnRec where
  seq : Nat
  type : Nat
  unknown : Bool
  acc : Nat
  time : Nat
  value : Nat
  aux : Nat
  deriving DecidableEq, Repr

/-- A snapshot of the table (16 R518): E_PKG, DEVICE, CLOSED, SNAP_SEQ and the accounts with their epochs. -/
structure FlcTable where
  ePkg : Nat := 0
  device : Nat := 0
  closed : Nat := 0
  seq : Nat := 0
  accounts : List (Nat × (Nat × Nat)) := []
  deriving DecidableEq, Repr

/-- An interval that awaits attribution (16 R515): its number, energy in µJ and the weights in force in it. -/
structure FlcInterval where
  n : Nat
  e : Nat
  weights : List Nat
  deriving DecidableEq, Repr

/-- Flacon: whether VSTBY feeds it; the energy accumulator in nJ, E_PKG, the number of the interval that runs, whether a
sample of the running and of the last interval was clipped; intervals awaiting attribution and the records received for
them; accounts with their epochs, DEVICE, CLOSED, counts of unattributed intervals, the last interval attributed; the
self-test, the link's state and messages discarded; the clock, whether it is valid, the brown-out latch; the seal pin and
count; parameters, and those that wait for the next interval; the journal's ring, last SEQ, snapshot number and the tables
of its two copies, none where a copy's check value fails. Then the hub's side: records not yet accepted with the times each
was sent, contexts enabled since the last TICK, and the tick from which Flacon has not taken records. Then what events of one tick or
millisecond leave for each other (16 R526): the tick of the last interval close; the interval in which the clock was first set, with the
clock and its validity before; the interval in which the I3C path last set it; and the tick of the last attribution with the accounts and
DEVICE before it. -/
structure Flc where
  powered : Bool := true
  nano : Nat := 0
  ePkg : Nat := 0
  n : Nat := 1
  overNow : Bool := false
  overRange : Bool := false
  waiting : List FlcInterval := []
  recs : List (Nat × List FlcEntry) := []
  accounts : List (Nat × (Nat × Nat)) := []
  device : Nat := 0
  closed : Nat := 0
  unattr : Nat := 0
  last : Nat := 0
  measOk : Bool := false
  hubLink : Bool := false
  discarded : Nat := 0
  time : Nat := 0
  clockValid : Bool := false
  brownOut : Bool := false
  sealOpen : Bool := false
  sealCnt : Nat := 0
  params : List Nat := [0x80000000, 0, 0x80000000, 0, 0, 0, 0, 0, 226, 60, 16, 670, 12000, 117, 320, 640]
  newParams : List (Nat × Nat) := []
  ring : List JrnRec := []
  jrnSeq : Nat := 0
  snapSeq : Nat := 0
  tableA : Option FlcTable := some {}
  tableB : Option FlcTable := some {}
  hubBuf : List (Nat × Nat × List FlcEntry) := []
  starts : List Nat := []
  stall : Option Nat := none
  closedAt : Option Nat := none
  before : Option (Nat × Nat × Bool) := none
  i3cSet : Option Nat := none
  shown : Option (Nat × List (Nat × (Nat × Nat)) × Nat) := none
  deriving DecidableEq, Repr

end Machine
end Sys2Proof
end

