-- ==== Sys2Proof/Machine/CtxState.lean ====
section
/-!
DEFINITION. The state of one context: its set-up record, rings, admitted descriptors, output staging,
events, counters, provisioning and session (09_host_rings.md; 13_tenancy_security.md R418 to R420;
02_arithmetic.md R55).
-/
namespace Sys2Proof.Machine

/-- A completion entry before it has a slot (09 R314): its type 0 DESC, 1 STEP or 2 EVENT, status, the
16 bits that hold TAG or EVT_CODE and EVT_ARG, ARITH, payload, whether it counts toward coalescing and
whether its message is sent at once (R326). -/
structure Entry where
  type : Nat
  status : Nat
  tag : Nat
  arith : Bool
  payload : Nat
  counts : Bool
  atOnce : Bool
  deriving DecidableEq, Repr

/-- One input tensor of a request (09 R310): its bytes and its ceiling for the request. -/
structure ReqInput where
  tensor : Nat
  ceil : Option Nat
  data : List Byte
  deriving DecidableEq, Repr

/-- A request as admitted (09 R309, R313) and how far it has run: the input tokens processed, the
tokens committed, the step it enters next, whether a step of it has run, and the status it ends with at
its next step boundary if it was cancelled or its deadline expired. -/
structure Request where
  body : ReqBody
  inputs : List ReqInput
  records : List SelRecord
  used : Nat
  tokens : Nat
  next : Nat
  started : Bool
  endWith : Option Nat
  deriving DecidableEq, Repr

/-- What a descriptor still has to do once admitted. A management descriptor waits for its turn in the device's queue (04 R112): `queued`
with its body, a load or chunk from its read on with what has arrived, the core or the chunk's bytes. -/
inductive Work where
  | request (r : Request)
  | queued (b : DescBody)
  | loading (addr len : Nat)
  | coreRead (addr : Nat) (core : List Byte) (len : Nat)
  | chunk (addr n handle : Nat)
  | chunkRead (data : List Byte) (n handle : Nat)
  | cancelling (tag : Nat)
  | other
  deriving DecidableEq, Repr

/-- An admitted descriptor: its header, what it does, the tick its deadline timer expires, and its
completion status, payload and ARITH once it has them (09 R312 to R316). -/
structure Adm where
  tag : Nat
  noIrq : Bool
  mgmt : Bool
  work : Work
  deadline : Option Nat
  done : Option (Nat × Nat × Bool)
  deriving DecidableEq, Repr

/-- A result frame being written (09 R320 to R322): its kind, tag, tensor, position and payload, how many
segments and bytes are written. -/
structure Frame where
  kind : Nat
  tag : Nat
  tensor : Nat
  pos : Nat
  payload : List Byte
  seg : Nat
  off : Nat
  deriving DecidableEq, Repr

/-- What a context reports when its step's frames are written: a STEP entry or the end of the request
(09 R315, R316). -/
inductive StepEnd where
  | step (arith : Bool)
  | request (status payload : Nat) (arith : Bool)
  deriving DecidableEq, Repr

/-- A step's results, from the step boundary until they are released and written (05_placement.md R141,
09 R322): the frames, what is reported after them, whether they are released, what holds them, and the session as
it was before the step (15_reset_boot.md R481). -/
structure Output where
  frames : List Frame
  fin : Option StepEnd
  released : Bool
  homes : Bool
  mirror : Bool
  before : Option Session
  deriving DecidableEq, Repr

/-- Provisioning of a context (13 R419, R420, R434). -/
structure Prov where
  dom : Nat
  cls : Nat
  weight : Nat
  maxOut : Nat
  maxTokens : Nat
  maxInst : Nat
  period : Nat
  stepUs : Nat
  boundUs : Nat
  deriving DecidableEq, Repr

/-- The waits that show in HELD (09 R300): for T2 space since a tick, with the tick of the next event
(05 R161). -/
structure Wait where
  since : Nat
  next : Nat
  deriving DecidableEq, Repr

/-- What a context's arithmetic counts rose by in a tick (02_arithmetic.md R55): flushes, truncations, reissues, special conversions. -/
structure ArithRise where
  at_ : Nat := 0
  flush : Nat := 0
  trunc : Nat := 0
  reissue : Nat := 0
  special : Nat := 0
  deriving DecidableEq, Repr

/-- One context: its set-up registers (`irqNow` is CTX_IRQ as of the last entry written, 09 R302), rings, arithmetic counts with their `rise` of the last tick that raised them, queue and waits, provisioning, session, counts, scheduling, mirror and suspension; last, the
tick its held step's latency bound ends, and the tick from which its guarantee yields to its mirror (01 R32). -/
structure Ctx where
  enable : Bool := false
  enabled : Bool := false
  pasidEn : Bool := false
  ver : Nat := 0
  pasid : Nat := 0
  errCode : Nat := 0
  error : Bool := false
  noWrites : Bool := false
  stopped : Option Nat := none
  sqBase : Nat := 0
  sqLog : Nat := 0
  cqBase : Nat := 0
  cqLog : Nat := 0
  rqBase : Nat := 0
  rqLog : Nat := 0
  irq : Word := 0
  irqNow : Word := 0
  holdUs : Nat := 0x3E8
  seed : Nat := 0
  trunc : Nat := 0
  dbErr : Nat := 0
  evtLost : Nat := 0
  lostMark : Bool := false
  sqHead : Nat := 0
  sqTail : Nat := 0
  cqHead : Nat := 0
  cqTail : Nat := 0
  cqPhase : Bool := true
  rqHead : Nat := 0
  rqTail : Nat := 0
  frameSeq : Nat := 0
  events : List Entry := []
  queue : List Adm := []
  waiting : Option Desc := none
  buffers : List BufEntry := []
  output : Option Output := none
  holdTimer : Option Nat := none
  frameHeld : Bool := false
  space : Option Wait := none
  unsignalled : Nat := 0
  coalesce : Option Nat := none
  prov : Option Prov := none
  newClass : Option Prov := none
  inst : Option Nat := none
  session : Option Session := none
  place : Option Nat := none
  reservedBytes : Nat := 0
  stagingBytes : Nat := 0
  flush : Nat := 0
  truncTerms : Nat := 0
  reissue : Nat := 0
  special : Nat := 0
  rise : ArithRise := {}
  readyAt : Option Nat := none
  waitedSince : Nat := 0
  deficit : Nat := 0
  stepTicks : Nat := 0
  demoted : Bool := false
  mirror : Bool := false
  shadow : Bool := false
  peerCtx : Nat := 0
  standby : Bool := false
  suspended : Option Nat := none
  paused : Bool := false
  suspCheck : Nat × Bool × Nat := (0, false, 0)
  boundAt : Option Nat := none
  mirrorSince : Option Nat := none
  deriving DecidableEq, Repr

/-- A context as it is after a cold reset. -/
def Ctx.off : Ctx := {}

end Sys2Proof.Machine
end

