-- ==== Sys2Proof/Machine/PairState.lean ====
section
/-!
DEFINITION. The state of mirrored pairs: leases, authority, fenced stages, commit records and mirrors
(12_mirrored_pairs.md R393 to R411).
-/
namespace Sys2Proof

/-- A commit record (12 R396). -/
structure Commit where
  stepSeq : Nat
  crc : Nat
  bytes : Nat
  sampler : Nat
  position : Nat
  frameSeq : Nat
  sqHead : Nat
  cqTail : Nat
  rqHead : Nat
  tag : Nat
  tokensOut : Nat
  claim : Nat
  formulaId : Nat
  cqPhase : Bool
  deriving DecidableEq, Repr

namespace Machine

/-- What the partner holds of a mirrored session: the last commit record that passed R397, the session its mirror
homes hold with it, the request that ran, and the number of frames of the committed step. -/
structure MirrorCopy where
  rec_ : Commit
  session : Session
  request : Option Adm
  frames : Nat
  deriving DecidableEq, Repr

/-- One session set of this device's pair: whether this device holds it, whether the guard has stopped it,
the mirror-valid flag, the last claim known, the expiry the holder computes, the send tick of the
message that waits for an answer, whether a REQUEST waits at the authority, whether it runs SOLO (or waits
for MARK_STALE's ACK), whether it is being handed back, and whether its fences are raised. -/
structure PairSet where
  held : Bool := false
  stopped : Bool := false
  valid : Bool := true
  claim : Nat := 0
  expiry : Nat := 0
  asked : Option Nat := none
  requesting : Bool := false
  solo : Bool := false
  staling : Bool := false
  resync : Bool := false
  handBack : Bool := false
  deriving DecidableEq, Repr

/-- What an authority keeps for one set of a pair (12 R400): holder, last holder, claim, expiry,
mirror-valid flag, and the device and send tick of a waiting REQUEST. -/
structure AuthSet where
  holder : Option Nat := none
  last : Option Nat := none
  claim : Nat := 0
  expiry : Nat := 0
  valid : Bool := true
  waiting : Option (Nat × Nat) := none
  deriving DecidableEq, Repr

/-- The PAIR block's state: whether the device runs paired, its two sets, authority state by pair * 2 + set,
pairs this device has taken up as a standby authority, the tick it found the authority
of each pair LOST, fenced stages' CLAIM_MAX by pair * 2 + set, mirrors held by the context on this device, commit records sent and
not acknowledged with the tick ACK_MS expires, and sessions still to be resynced. -/
structure PairBlock where
  paired : Bool := false
  sets : List PairSet := [{}, {}]
  auth : List (Nat × AuthSet) := []
  serving : List Nat := []
  lostAt : List (Nat × Nat) := []
  claimMax : List (Nat × Nat) := []
  copies : List (Nat × MirrorCopy) := []
  unacked : List (Nat × Nat) := []
  toSync : List Nat := []
  deriving DecidableEq, Repr

end Machine
end Sys2Proof
end

