-- ==== Sys2Proof/Machine/SillageState.lean ====
section
/-!
DEFINITION. The state of the Sillage optical key-scan: banks with their coefficients and calibration, and
the scans under way (06_sillage.md R184 to R216).
-/
namespace Sys2Proof

/-- States of a bank (06 R212). -/
inductive BankState where
  | off | inService | calibrating | failed
  deriving DecidableEq, Repr

/-- Coefficients of a bank as its registers show them (06 R214), and its ring weight map: for each of the 64 rings the transmission of
every weight code in ascending order (R200, R203). -/
structure Coef where
  gain : Nat := 0x8000
  offset : Int := 0
  temp : Int := 0
  map : List (List Nat) := []
  deriving DecidableEq, Repr

/-- The name of a scan: one query block and KV head of an operation of a context (06 R189). -/
structure ScanKey where
  ctx : Nat
  op : Nat
  head : Nat
  pos0 : Nat
  deriving DecidableEq, Repr

/-- A segment running on a bank: its scan, its pages, which of them are spilled, and whether its scan has been dropped meanwhile (06 R204,
R205). -/
structure Segment where
  scan : ScanKey
  pages : List Nat
  spilled : List Nat
  dropped : Bool := false
  deriving DecidableEq, Repr

/-- One bank: state, STALE with the tick it was set, passed coefficients that wait, installed ones, failures, successful
calibrations and the tick of the last, whether a calibration is due and the tick one last fell due, the tick of a retry, the running
segment, the operations (domain * 2^32 + number) that received a segment since the last
installation, and whether it calibrates before it enters service. -/
structure Bank where
  st : BankState := .off
  stale : Bool := false
  staleAt : Nat := 0
  pending : Option Coef := none
  coef : Coef := {}
  consec : Nat := 0
  calcnt : Nat := 0
  calgt : Nat := 0
  due : Bool := false
  dueAt : Nat := 0
  retryAt : Option Nat := none
  seg : Option Segment := none
  users : List Nat := []
  entering : Bool := false
  deriving DecidableEq, Repr

/-- A scan under way: its domain, query weights, range of positions, TOPK, INTEG and GUARD, pages not yet
dispatched, measured codes by position, whether a page was spilled. -/
structure Scan where
  key : ScanKey
  dom : Nat
  weights : List Int
  lo : Nat
  hi : Nat
  topk : Nat
  integ : Nat
  guard : Nat
  pages : List Nat
  codes : List (Nat × Int)
  spill : Bool
  deriving DecidableEq, Repr

namespace Machine

/-- The Sillage block: banks by group * 16 + bank, and scans; the spill streams of a millisecond: its number, their share of T2's bandwidth in
percent and the bytes streamed (06 R204); and the tick SIL_EXACT was last written in, with its value before (R198); the 200 µs slice of
bank time: its number, and the ticks of banks each domain has been granted in it (13 R425, R437). -/
structure Sil where
  banks : List (Nat × Bank) := []
  scans : List Scan := []
  spill : Nat × Nat × Nat := (0, 0x19, 0)
  exactWrite : Option (Nat × Word) := none
  slice : Nat × List (Nat × Nat) := (0, [])
  deriving DecidableEq, Repr

end Machine
end Sys2Proof
end

