-- ==== Sys2Proof/Syntax.lean ====
section
/-!
DEFINITION. The commands of the device, one constructor per row of the opcode table. A command carries
what its row needs from outside: the object it names, what arrived with it, and what a sensor or a test
found.
-/
namespace Sys2Proof
open Sys2Proof.Machine

/-- One command of the FZ-96xx. -/
inductive Instr where
  /-- MATMUL (R119). Domain `d` runs its operation; the summaries that other devices gave, by device ID, where TRAY_SCOPE is 1. -/
  | matmul (d : BitVec 3) (tray : List (Nat × TrayWin))
  /-- EXPERT_MATMUL (R121). Domain `d` runs its operation; the summaries that other devices gave, by device ID, where TRAY_SCOPE is 1. -/
  | expertMatmul (d : BitVec 3) (tray : List (Nat × TrayWin))
  /-- ROUTER_TOPK (R122). Domain `d` runs its operation. -/
  | routerTopk (d : BitVec 3)
  /-- GATHER (R123). Domain `d` runs its operation. -/
  | gather (d : BitVec 3)
  /-- ATTN_EXACT (R124). Domain `d` runs its operation. -/
  | attnExact (d : BitVec 3)
  /-- ATTN_SILLAGE (R125). Domain `d` runs its operation. -/
  | attnSillage (d : BitVec 3)
  /-- KV_APPEND (R126). Domain `d` runs its operation. -/
  | kvAppend (d : BitVec 3)
  /-- NORM (R127). Domain `d` runs its operation. -/
  | norm (d : BitVec 3)
  /-- SOFTMAX (R127). Domain `d` runs its operation. -/
  | softmax (d : BitVec 3)
  /-- ACTIVATION (R128). Domain `d` runs its operation. -/
  | activation (d : BitVec 3)
  /-- ELEMENTWISE (R128). Domain `d` runs its operation. -/
  | elementwise (d : BitVec 3)
  /-- ROTARY (R129). Domain `d` runs its operation. -/
  | rotary (d : BitVec 3)
  /-- SAMPLE (R130). Domain `d` runs its operation. -/
  | sample (d : BitVec 3)
  /-- CONVERT (R133). Domain `d` runs its operation. -/
  | convert (d : BitVec 3)
  /-- VECTOR_KERNEL (R133). Domain `d` runs its operation. -/
  | vectorKernel (d : BitVec 3)
  /-- TRAY_ALLREDUCE (R132). Domain `d` runs its operation; what each other named device delivered. -/
  | trayAllreduce (d : BitVec 3) (peers : List (Nat × Option (List Tensor)))
  /-- TRAY_ALLGATHER (R132). Domain `d` runs its operation; what each other named device delivered. -/
  | trayAllgather (d : BitVec 3) (peers : List (Nat × Option (List Tensor)))
  /-- TRAY_ALLTOALL (R132). Domain `d` runs its operation; what each other named device delivered. -/
  | trayAlltoall (d : BitVec 3) (peers : List (Nat × Option (List Tensor)))
  /-- TRAY_BROADCAST (R132). Domain `d` runs its operation; what each other named device delivered. -/
  | trayBroadcast (d : BitVec 3) (peers : List (Nat × Option (List Tensor)))
  /-- COLLECTIVE_TIMEOUT (R132). Domain `d`'s 2 ms at a collective. -/
  | collectiveTimeout (d : BitVec 3)
  /-- REISSUE_ATTEMPT (R84). Domain `d`'s aborted attempt. -/
  | reissueAttempt (d : BitVec 3)
  /-- ADD (R137). V`d` := V`a` + V`b`. -/
  | add (d a b : BitVec 6)
  /-- SUB (R137). V`d` := V`a` − V`b`. -/
  | sub (d a b : BitVec 6)
  /-- MUL (R137). V`d` := V`a` × V`b`. -/
  | mul (d a b : BitVec 6)
  /-- FMA (R137). V`d` := V`a` × V`b` + V`c`. -/
  | fma (d a b c : BitVec 6)
  /-- DIV (R137). V`d` := V`a` / V`b`. -/
  | div (d a b : BitVec 6)
  /-- SQRT (R137). V`d` from V`a`. -/
  | sqrt (d a : BitVec 6)
  /-- RCP (R137). V`d` from V`a`. -/
  | rcp (d a : BitVec 6)
  /-- RSQRT (R137). V`d` from V`a`. -/
  | rsqrt (d a : BitVec 6)
  /-- EXP2 (R137). V`d` from V`a`. -/
  | exp2 (d a : BitVec 6)
  /-- LOG2 (R137). V`d` from V`a`. -/
  | log2 (d a : BitVec 6)
  /-- NEG (R137). V`d` from V`a`. -/
  | neg (d a : BitVec 6)
  /-- ABS (R137). V`d` from V`a`. -/
  | abs (d a : BitVec 6)
  /-- MIN (R137). V`d` from V`a` and V`b`. -/
  | min (d a b : BitVec 6)
  /-- MAX (R137). V`d` from V`a` and V`b`. -/
  | max (d a b : BitVec 6)
  /-- LT (R137). V`d` from V`a` and V`b`. -/
  | lt (d a b : BitVec 6)
  /-- LE (R137). V`d` from V`a` and V`b`. -/
  | le (d a b : BitVec 6)
  /-- EQ (R137). V`d` from V`a` and V`b`. -/
  | eq (d a b : BitVec 6)
  /-- SEL (R137). V`d` := V`a` or V`b` by V`c`. -/
  | sel (d a b c : BitVec 6)
  /-- CVTBF (R137). V`d` from V`a`. -/
  | cvtbf (d a : BitVec 6)
  /-- LD (R137). V`d` := stream `a`. -/
  | ld (d a : BitVec 6)
  /-- LDC (R137). V`d` := constant `n`. -/
  | ldc (d : BitVec 6) (n : BitVec 8)
  /-- IDX (R137). V`d` := the element's index. -/
  | idx (d : BitVec 6)
  /-- ST (R137). The output := V`a`. -/
  | st (a : BitVec 6)
  /-- RSUM (R137). V`d` from the row of V`a`. -/
  | rsum (d a : BitVec 6)
  /-- RMAX (R137). V`d` from the row of V`a`. -/
  | rmax (d a : BitVec 6)
  /-- RMIN (R137). V`d` from the row of V`a`. -/
  | rmin (d a : BitVec 6)
  /-- STACK_READY (R152). Stack `n` reports ready. -/
  | stackReady (n : BitVec 3)
  /-- ACCORD_READY_TIMEOUT (R21). Domain `d`'s 8 µs ready limit. -/
  | accordReadyTimeout (d : BitVec 3)
  /-- OPERATION_BOUNDARY (R22). Domain `d` reaches an operation boundary. -/
  | operationBoundary (d : BitVec 3)
  /-- COPY_COMPLETE (R146). The copy of a unit is complete. -/
  | copyComplete (key : UnitKey)
  /-- SLICE_END (R433). Domain `d`'s slice ends. -/
  | sliceEnd (d : BitVec 3)
  /-- STEP_OVERRUN (R436). Reserved context `c`'s step reaches STEP_US. -/
  | stepOverrun (c : BitVec 12)
  /-- RESULT_RELEASE (R141). The home writes of context `c`'s step are complete. -/
  | resultRelease (c : BitVec 12)
  /-- HOLD_TIMER_EXPIRY (R323). Context `c`'s hold timer. -/
  | holdTimerExpiry (c : BitVec 12)
  /-- DEADLINE_EXPIRY (R313). The deadline timers of context `c`. -/
  | deadlineExpiry (c : BitVec 12)
  /-- CTX_SQ_TAIL (R298). A write of page `p`'s submission doorbell; `full`: of 32 bits. -/
  | ctxSqTail (p : PageRef) (full : Bool) (v : Word)
  /-- CTX_CQ_HEAD (R298). A write of page `p`'s completion release doorbell. -/
  | ctxCqHead (p : PageRef) (full : Bool) (v : Word)
  /-- CTX_RQ_TAIL (R298). A write of page `p`'s result buffer doorbell. -/
  | ctxRqTail (p : PageRef) (full : Bool) (v : Word)
  /-- CTX_OUT_ACK (R324). A write of page `p`'s CTX_OUT_ACK. -/
  | ctxOutAck (p : PageRef) (full : Bool) (v : Word)
  /-- CONTEXT_ENABLE (R305). A CTX_CTRL write that sets ENABLE. -/
  | contextEnable (p : PageRef) (v : Word)
  /-- CONTEXT_DISABLE (R306). A CTX_CTRL write that clears ENABLE. -/
  | contextDisable (p : PageRef) (v : Word)
  /-- CTX_VFMAP (R294). A write of slot `i` of VF `v`. -/
  | ctxVfmap (r : Requester) (v : BitVec 6) (i : BitVec 6) (w : Word)
  /-- REQUEST (R313). The descriptor at context `c`'s submission head. -/
  | request (c : BitVec 12) (h : DescHead) (b : ReqBody)
  /-- CANCEL (R313). The descriptor at context `c`'s submission head. -/
  | cancel (c : BitVec 12) (h : DescHead) (target : BitVec 16)
  /-- NOP (R308). The descriptor at context `c`'s submission head. -/
  | nop (c : BitVec 12) (h : DescHead)
  /-- FORMULA_LOAD (R109). The descriptor at context `c`'s submission head. -/
  | formulaLoad (c : BitVec 12) (h : DescHead) (a : BitVec 64) (n : BitVec 64)
  /-- CORE_READ_DONE (R109). The bytes of the core context `c` loads have arrived. -/
  | coreReadDone (c : BitVec 12) (core : List Byte)
  /-- WEIGHT_CHUNK (R110). The descriptor at context `c`'s submission head. -/
  | weightChunk (c : BitVec 12) (h : DescHead) (a : BitVec 64) (n : BitVec 32) (hd : BitVec 8)
  /-- CHUNK_VERIFIED (R110). The bytes of the chunk context `c` delivers have been read and hashed. -/
  | chunkVerified (c : BitVec 12) (data : List Byte)
  /-- SUMMARY_EXCHANGE_DONE (R110). The tray-wide summaries of the instance's SHARD tensors, by tensor. -/
  | summaryExchangeDone (hd : BitVec 6) (sums : List (Nat × List Summary))
  /-- UNLOAD (R112). The descriptor at context `c`'s submission head. -/
  | unload (c : BitVec 12) (h : DescHead) (hd : BitVec 8)
  /-- UNLOAD_RELEASE_DONE (R112). The space of unloading instance `hd` is released. -/
  | unloadReleaseDone (hd : BitVec 6)
  /-- BIND (R311). The descriptor at context `c`'s submission head. -/
  | bind (c : BitVec 12) (h : DescHead) (hd : BitVec 8) (sv : Bool) (slot : BitVec 8)
  /-- UNBIND (R308). The descriptor at context `c`'s submission head. -/
  | unbind (c : BitVec 12) (h : DescHead)
  /-- PIN (R157). The descriptor at context `c`'s submission head. -/
  | pin (c : BitVec 12) (h : DescHead) (b : PinBody)
  /-- COALESCE_TIMER_EXPIRY (R326). Context `c`'s coalescing timer. -/
  | coalesceTimerExpiry (c : BitVec 12)
  /-- CAPACITY_WAIT_TIMER (R161). Context `c`'s wait for T2 space. -/
  | capacityWaitTimer (c : BitVec 12)
  /-- TILINGS_INSTALLED (R163). Firmware installs domain `d`'s tilings. -/
  | tilingsInstalled (d : BitVec 3)
  /-- CAPACITY_REMOVE (R170). A GO of PLC_CAP_CTL with ACTION remove. -/
  | capacityRemove (r : Requester) (u : CapUnit)
  /-- CAPACITY_RETURN (R169). A GO of PLC_CAP_CTL with ACTION return. -/
  | capacityReturn (r : Requester) (u : CapUnit)
  /-- DRAIN_COMPLETE (R169). The last move of a drain commits. -/
  | drainComplete (kind : BitVec 2) (unit : BitVec 3)
  /-- PLACEMENT_QUERY (R178). A write of PLC_QRY_IDX. -/
  | placementQuery (r : Requester) (idx : Word)
  /-- PLACEMENT_QUERY_DONE (R179). The placement lookup completes. -/
  | placementQueryDone
  /-- SEGMENT_DISPATCH (R205). Bank `b` of group `g` takes a segment of a scan. -/
  | segmentDispatch (g : BitVec 3) (b : BitVec 4) (k : ScanKey)
  /-- SEGMENT_COMPLETE (R205). The measured codes of the bank's segment. -/
  | segmentComplete (g : BitVec 3) (b : BitVec 4) (ys : List (BitVec 12))
  /-- SELECTION_FORM (R193). Every segment of a scan is complete. -/
  | selectionForm (k : ScanKey)
  /-- CALIBRATION_DUE (R200). A calibration of the bank falls due, by its times or by the thermal estimate given. -/
  | calibrationDue (b : BankId) (temp : Option (BitVec 16))
  /-- CALIBRATION_FIT_DONE (R203). The bank's coefficient fit: the coefficients, the weight map measured and its nominal span, the residual's mean and deviation in 1/16 codes, whether the heaters report a step change. -/
  | calibrationFitDone (g : BitVec 3) (b : BitVec 4) (gain offset temp : BitVec 16) (map : List (List Nat)) (nominal : Nat) (mean16 sd16 : BitVec 16) (jump : Bool)
  /-- CALIBRATION_INSTALL (R201). Pending coefficients may install. -/
  | calibrationInstall (g : BitVec 3) (b : BitVec 4)
  /-- CALIBRATION_RETRY (R203). A failed calibration is tried again. -/
  | calibrationRetry (g : BitVec 3) (b : BitVec 4)
  /-- FRAME_RECEIVE (R230). A frame arrives on channel `ch` (the index of 17 R542). -/
  | frameReceive (ch : BitVec 23) (red : Bool) (f : BitVec 544)
  /-- FRAME_ACK (R229). An acknowledgement for channel `ch`. -/
  | frameAck (ch : BitVec 23) (rseq : BitVec 8)
  /-- FRAME_NAK (R228). A negative acknowledgement for channel `ch`. -/
  | frameNak (ch : BitVec 23) (rseq : BitVec 8)
  /-- FRAME_CREDIT (R229). Endpoint `dst` returns credits to endpoint `src`. -/
  | frameCredit (src dst : BitVec 5) (red : Bool) (n : BitVec 12)
  /-- PATH_REMAP (R219). The path of logical endpoint `e` fails. -/
  | pathRemap (e : BitVec 5)
  /-- STEER_PENDING_WRITE (R232). A new assignment of a steered slot. -/
  | steerPendingWrite (ep : BitVec 5) (plane : BitVec 3) (slot : BitVec 5) (line : BitVec 6) (dest : BitVec 5) (d : BitVec 3)
  /-- STEER_SLOT_RETUNE (R232). A draining slot's frames are all acknowledged. -/
  | steerSlotRetune (ep : BitVec 5) (plane : BitVec 3) (slot : BitVec 5)
  /-- STEER_SLOT_READY (R232). Lock-in and the test frame of a retuned slot. -/
  | steerSlotReady (ep : BitVec 5) (plane : BitVec 3) (slot : BitVec 5) (pass : Bool)
  /-- C3_PACKET_ARRIVAL (R81). Packet `p` reaches the router of tile `t`. -/
  | c3PacketArrival (t : BitVec 11) (p : C3Packet)
  /-- MERGE_WINDOW_EXPIRY (R81). The merge window of a reduction at tile `t`'s router. -/
  | mergeWindowExpiry (t : BitVec 11) (k : C3Key)
  /-- EP_C3_PACKET_ARRIVAL (R233). Packet `p` reaches stack `n`'s endpoint. -/
  | epC3PacketArrival (n : BitVec 3) (inward : Bool) (p : C3Packet)
  /-- EP_MERGE_WINDOW_EXPIRY (R233). The merge window of a reduction at stack `n`'s endpoint. -/
  | epMergeWindowExpiry (n : BitVec 3) (inward : Bool) (k : C3Key)
  /-- REDUCTION_ADD (R83). Packet `p` reaches the reduction adder of `t`. -/
  | reductionAdd (t : BitVec 11) (p : C3Packet)
  /-- LASER_GATE (R235). A site's bus has been idle for 100 µs. -/
  | laserGate (f : BitVec 4) (site : BitVec 3)
  /-- LASER_UNGATE (R235). A frame is queued for a gated bus. -/
  | laserUngate (f : BitVec 4) (site : BitVec 3)
  /-- LASER_FAILURE (R236). A site's photocurrent stays below 50 %. -/
  | laserFailure (f : BitVec 4) (site : BitVec 3)
  /-- LASER_FAILOVER_DONE (R236). Bus `b`'s spare is stable and locked. -/
  | laserFailoverDone (f : BitVec 4) (b : BitVec 3)
  /-- DIAGNOSTIC_PULSE (R237). A diagnostic check of a site. -/
  | diagnosticPulse (f : BitVec 4) (site : BitVec 3) (ua : BitVec 12) (pass : Bool)
  /-- RING_UNLOCK (R239). Ring `r` (the layout of BASE_RING_SEL) is unlocked for 10 µs. -/
  | ringUnlock (r : BitVec 18) (light : Bool)
  /-- RING_SWEEP_DONE (R239). A sweep of ring `r` ends. -/
  | ringSweepDone (r : BitVec 18) (lock : Bool)
  /-- BASE_TEMP_PUBLISH (R241). The mean temperatures of the locked rings beneath the dies, from die index 0 on, and of the fields' rings, in
  1/16 °C. -/
  | baseTempPublish (dies fields : List (BitVec 16))
  /-- LANE_REPLACE (R245). A lane of a die's bundle has `errs` errors in 1 ms. -/
  | laneReplace (i : BitVec 5) (b : BitVec 8) (lane : BitVec 6) (errs : BitVec 16)
  /-- BUNDLE_CRC_REPLAY (R244). A beat of a bundle fails its CRC. -/
  | bundleCrcReplay (i : BitVec 5) (b : BitVec 8)
  /-- RESERVOIR_REFRESH (R260). A row refresh of a reservoir's bank falls due. -/
  | reservoirRefresh (j : BitVec 3) (bank : BitVec 7)
  /-- REFRESH_INTERVAL_RELAX (R260). 5 ms at or below 82 °C. -/
  | refreshIntervalRelax (j : BitVec 3)
  /-- RESERVOIR_SCRUB (R263). The scrub reads a word with `errs` erroneous bits. -/
  | reservoirScrub (j : BitVec 3) (off : BitVec 33) (errs : BitVec 2)
  /-- DRAM_SCRUB (R274). The scrub reads a codeword whose symbols are off by `err`. -/
  | dramScrub (p : BitVec 2) (off : BitVec 40) (err : CodeRead) (last : Bool)
  /-- CHANNEL_RETRAIN (R271). A retrain of a channel begins where it is due, or ends (`finish`), with the refresh-rate code read. -/
  | channelRetrain (p : BitVec 2) (c : BitVec 3) (finish : Bool) (rate : BitVec 4)
  /-- DRAM_TRAINING_DONE (R271). A port die's training ends: per channel success, ranks, log of GiB. -/
  | dramTrainingDone (p : BitVec 2) (found : List (Bool × BitVec 2 × BitVec 3))
  /-- REGION_ENTRY_CHANGE (R287). The secure world writes region entry `n`. -/
  | regionEntryChange (n : BitVec 8) (base limit : BitVec 24) (attr : Word)
  /-- GRANULE_ZEROED (R287). Granule `g` has been zeroed. -/
  | granuleZeroed (g : BitVec 24)
  /-- DMA_GO (R334). A write of DMA_CH_CTL with GO, or a load by the pool's loader. -/
  | dmaGo (n : BitVec 6) (b : DmaBy) (v : Word)
  /-- DMA_RESUME (R341). The same with RESUME. -/
  | dmaResume (n : BitVec 6) (b : DmaBy) (v : Word)
  /-- DMA_ABORT (R342). A write of DMA_CH_CTL with ABORT alone. -/
  | dmaAbort (n : BitVec 6) (r : Requester)
  /-- DMA_READ_COMPLETE (R335). A source read of channel `n` completes. -/
  | dmaReadComplete (n : BitVec 6) (bs : List Byte)
  /-- DMA_LINE_COMMIT (R337). Line `k` of channel `n` commits. -/
  | dmaLineCommit (n : BitVec 6) (k : Word)
  /-- ACCESS_FAILURE (R338). A hub access fails. -/
  | accessFailure (a : HubAccess) (uncorrectable : Bool)
  /-- RETRY_GAP_EXPIRY (R338). The retry gap of an access ends. -/
  | retryGapExpiry (a : HubAccess)
  /-- HOST_COMPLETION_TIMEOUT (R338). A host read receives no completion in time. -/
  | hostCompletionTimeout (a : HubAccess)
  /-- CHK_GO (R353). A write of CHK_CTL with GO. -/
  | chkGo (e : BitVec 4) (r : Requester) (v : Word)
  /-- CHK_STOP (R355). A write of CHK_CTL with STOP, after `n` more bytes. -/
  | chkStop (e : BitVec 4) (r : Requester) (n : Word) (bs : List Byte)
  /-- CHK_COMPLETE (R354). Engine `e` consumes its last bytes. -/
  | chkComplete (e : BitVec 4) (bs : List Byte)
  /-- LINK_LIGHT_DETECTED (R364). Light appears on link L`b`.`j`. -/
  | linkLightDetected (b : BitVec 4) (j : BitVec 3)
  /-- LINK_UP (R364). Link L`b`.`j` ends its training: failed lanes (bit 8 the spare), far end, path asymmetry in ticks. -/
  | linkUp (b : BitVec 4) (j : BitVec 3) (bad : BitVec 9) (far : FarEnd) (asym : BitVec 16)
  /-- LINK_TRAIN_TIMEOUT (R364). 5 ms of training of link L`b`.`j`. -/
  | linkTrainTimeout (b : BitVec 4) (j : BitVec 3)
  /-- CODEWORD_RECEIVE (R366). On link L`b`.`j`: FEC result (0 clean, 1 corrected, else uncorrectable), TYPE and CSEQ, 40 slots. -/
  | codewordReceive (b : BitVec 4) (j : BitVec 3) (fec : BitVec 2) (word : BitVec 20) (slots : List Byte)
  /-- LINK_DOWN (R367). Link L`b`.`j` loses FEC lock for 1 µs. -/
  | linkDown (b : BitVec 4) (j : BitVec 3)
  /-- FAB_LANE_REPLACE (R368). A lane of link L`b`.`j` has `errs` errors in 1 ms, or its ring fails. -/
  | fabLaneReplace (b : BitVec 4) (j : BitVec 3) (lane : BitVec 4) (errs : BitVec 24) (ring : Bool)
  /-- FABRIC_REQUEST_SEND (R369). A requester gives the hub switch a request. -/
  | fabricRequestSend (a : FabArgs)
  /-- READ_LINE (R372). A request of device `src` arrives. -/
  | readLine (src : BitVec 3) (detour : Bool) (tag ctx : BitVec 16) (addr : BitVec 48)
  /-- WRITE_LINE (R372). A request of device `src` arrives. -/
  | writeLine (src : BitVec 3) (detour : Bool) (tag ctx : BitVec 16) (claim : Word) (addr : BitVec 48) (mask : Option (BitVec 128)) (data : List Byte)
  /-- ATOMIC_ADD (R372). A request of device `src` arrives. -/
  | atomicAdd (src : BitVec 3) (detour : Bool) (tag ctx : BitVec 16) (claim : Word) (addr : BitVec 48) (operand : BitVec 64)
  /-- ATOMIC_CAS (R372). A request of device `src` arrives. -/
  | atomicCas (src : BitVec 3) (detour : Bool) (tag ctx : BitVec 16) (claim : Word) (addr : BitVec 48) (operand compare : BitVec 64)
  /-- ATOMIC_MIN (R372). A request of device `src` arrives. -/
  | atomicMin (src : BitVec 3) (detour : Bool) (tag ctx : BitVec 16) (claim : Word) (addr : BitVec 48) (operand : BitVec 64)
  /-- ATOMIC_MAX (R372). A request of device `src` arrives. -/
  | atomicMax (src : BitVec 3) (detour : Bool) (tag ctx : BitVec 16) (claim : Word) (addr : BitVec 48) (operand : BitVec 64)
  /-- ATOMIC_SWAP (R372). A request of device `src` arrives. -/
  | atomicSwap (src : BitVec 3) (detour : Bool) (tag ctx : BitVec 16) (claim : Word) (addr : BitVec 48) (operand : BitVec 64)
  /-- COMPLETION (R373). From device `src`. -/
  | completion (src : BitVec 3) (tag : BitVec 16) (status : BitVec 8) (result : BitVec 64)
  /-- COMPLETION_DATA (R373). From device `src`. -/
  | completionData (src : BitVec 3) (tag : BitVec 16) (status : BitVec 8) (line : List Byte)
  /-- KEEPALIVE (R376). From device `d` on its own bundle, with its HEARD map. -/
  | keepalive (d : BitVec 3) (heard : BitVec 8)
  /-- KEEPALIVE_SEND (R376). Every microsecond the switch sends a keepalive with its HEARD map. -/
  | keepaliveSend
  /-- PEER_KEEPALIVE_TIMEOUT (R376). 4 µs without a keepalive of device `d`. -/
  | peerKeepaliveTimeout (d : BitVec 3)
  /-- REQUEST_POISON_TIMEOUT (R377). The timer of request `tag` to device `d`. -/
  | requestPoisonTimeout (d : BitVec 3) (tag : BitVec 16)
  /-- TIME_REQ (R384). From device `src`. -/
  | timeReq (src : BitVec 3)
  /-- TIME_EXCHANGE_TIMER (R384). Every 20 µs a device sends a TIME_REQ to the reference. -/
  | timeExchangeTimer
  /-- TIME_RESPONSE (R385). The reference's receive and send ticks. -/
  | timeResponse (src : BitVec 3) (t2 t3 : BitVec 64)
  /-- GT_SLEW (R385). While offset exceeds 2 ns GT is advanced or held one tick per 1,000. -/
  | gtSlew
  /-- FAB_MSG_SQ_TAIL (R380). A write of the doorbell; `full`: of 32 bits. -/
  | fabMsgSqTail (full : Bool) (v : Word)
  /-- FAB_MSG_CQ_HEAD (R380). A write of the doorbell; `full`: of 32 bits. -/
  | fabMsgCqHead (full : Bool) (v : Word)
  /-- FAB_MSG_RQ_TAIL (R381). A write of the doorbell; `full`: of 32 bits. -/
  | fabMsgRqTail (full : Bool) (v : Word)
  /-- MESSAGE_SEND (R381). The descriptor at the send head, with the message as read from host memory. -/
  | messageSend (ver : BitVec 4) (bundle : BitVec 8) (tag : BitVec 16) (len : Word) (addr : BitVec 64) (body : List Byte)
  /-- MESSAGE_RECEIVE (R383). A message arrives; the posted buffers from the receive head on. -/
  | messageReceive (bundle : BitVec 4) (tag : BitVec 16) (body : List Byte) (bufs : List BufEntry)
  /-- MSG_RINGS_ENABLE (R392). A write of FAB_MSG_CTRL with ENABLE 1. -/
  | msgRingsEnable (vector : BitVec 11)
  /-- MSG_RINGS_DISABLE (R392). A write of FAB_MSG_CTRL with ENABLE 0. -/
  | msgRingsDisable (vector : BitVec 11)
  /-- COMMIT_RECORD (R397). A commit record for this device's context `c` arrives, with the step's other mirror lines and what they say of the session, the running request and its frames. -/
  | commitRecord (c : BitVec 12) (tag : BitVec 16) (lines : List Byte) (rec_ : Commit) (image : Session) (req : Option Adm) (frames : BitVec 8)
  /-- MIRROR_ACK_TIMEOUT (R408). ACK_MS of context `c`'s commit record. -/
  | mirrorAckTimeout (c : BitVec 12)
  /-- LEASE_REQUEST (R400). From device `dev` of pair `pair` (half its lower device). -/
  | leaseRequest (pair : BitVec 2) (set : BitVec 1) (dev : BitVec 3) (tSend : BitVec 64)
  /-- RENEW (R400). From device `dev`. -/
  | renew (pair : BitVec 2) (set : BitVec 1) (dev : BitVec 3)
  /-- RELEASE (R400). From device `dev`. -/
  | release (pair : BitVec 2) (set : BitVec 1) (dev : BitVec 3)
  /-- MARK_STALE (R408). From device `dev`. -/
  | markStale (pair : BitVec 2) (set : BitVec 1) (dev : BitVec 3)
  /-- MARK_VALID (R409). From device `dev`. -/
  | markValid (pair : BitVec 2) (set : BitVec 1) (dev : BitVec 3)
  /-- GRANT (R406). For set `set` of this device's pair. -/
  | grant (set : BitVec 1) (claim : Word) (valid : Bool)
  /-- REFUSE (R400). For set `set` of this device's pair. -/
  | refuse (set : BitVec 1) (valid : Bool)
  /-- LEASE_ACK (R400). For set `set` of this device's pair. -/
  | leaseAck (set : BitVec 1)
  /-- LEASE_RENEW_TIMER (R401). Set `set`. -/
  | leaseRenewTimer (set : BitVec 1)
  /-- LEASE_GUARD_STOP (R401). Set `set`. -/
  | leaseGuardStop (set : BitVec 1)
  /-- LEASE_EXPIRY (R400). At the authority. -/
  | leaseExpiry (pair : BitVec 2) (set : BitVec 1)
  /-- AUTHORITY_TAKEOVER (R402). At the standby, with the claims and flags reported for each set. -/
  | authorityTakeover (pair : BitVec 2) (reports : List LeaseReport)
  /-- PAIR_TAKE (R405). A write of PAIR_TAKE with GO. -/
  | pairTake (r : Requester) (set : BitVec 1)
  /-- RESYNC_COMPLETE (R409). Set `set`. -/
  | resyncComplete (set : BitVec 1)
  /-- FAILBACK (R410). Set `set`; `taken`: PAIR_TAKE was written on the returned device. -/
  | failback (set : BitVec 1) (taken : Bool)
  /-- PROVISION_CTX (R422). From the management path (`mgmt`) or the mailbox. -/
  | provisionCtx (mgmt : Bool) (ctx : BitVec 16) (dom cls : BitVec 8) (weight maxOut : BitVec 16) (maxTokens : Word) (maxInst : BitVec 8) (period stepUs boundUs : BitVec 16)
  /-- UNPROVISION_CTX (R422). From the management path or the mailbox. -/
  | unprovisionCtx (mgmt : Bool) (ctx : BitVec 16)
  /-- SET_DOMAIN (R422). From the management path or the mailbox. -/
  | setDomain (mgmt : Bool) (dom t1 : BitVec 8) (t2 : BitVec 16) (bw sil planes slots : BitVec 8)
  /-- MOVE_STACK (R426). From the management path or the mailbox. -/
  | moveStack (mgmt : Bool) (stack dest : BitVec 8)
  /-- SLOT_SET (R422). From the management path or the mailbox. -/
  | slotSet (mgmt : Bool) (slot : BitVec 8) (enable : Bool) (minSvn : BitVec 16) (x y : BitVec 384)
  /-- SET_POLICY (R422). From the management path or the mailbox. -/
  | setPolicy (mgmt : Bool) (strict : Bool)
  /-- GET_VERSION (R430). Over PCIe DOE (0) or MCTP (1). -/
  | getVersion (path : BitVec 1)
  /-- GET_CAPABILITIES (R430). Over PCIe DOE (0) or MCTP (1). -/
  | getCapabilities (path : BitVec 1)
  /-- NEGOTIATE_ALGORITHMS (R430). Over PCIe DOE (0) or MCTP (1). -/
  | negotiateAlgorithms (path : BitVec 1)
  /-- GET_DIGESTS (R430). Over PCIe DOE (0) or MCTP (1). -/
  | getDigests (path : BitVec 1)
  /-- GET_CERTIFICATE (R430). Over PCIe DOE (0) or MCTP (1). -/
  | getCertificate (path : BitVec 1)
  /-- CHALLENGE (R430). Over PCIe DOE (0) or MCTP (1). -/
  | challenge (path : BitVec 1)
  /-- GET_MEASUREMENTS (R430). Over PCIe DOE (0) or MCTP (1). -/
  | getMeasurements (path : BitVec 1)
  /-- KEY_EXCHANGE (R430). Over PCIe DOE (0) or MCTP (1). -/
  | keyExchange (path : BitVec 1)
  /-- FINISH (R430). `ok`: the requester's verify data holds. -/
  | finish (path : BitVec 1) (ok : Bool)
  /-- IDE_KM (R430). Keys of the link stream (0) or of a VF's stream. -/
  | ideKm (path : BitVec 1) (stream : BitVec 6) (install : Bool)
  /-- LOCK_INTERFACE_REQUEST (R431). For VF `vf`. -/
  | lockInterfaceRequest (vf : BitVec 6)
  /-- TDI_UNLOCK (R432). For VF `vf`, to CONFIG_UNLOCKED or ERROR. -/
  | tdiUnlock (vf : BitVec 6) (error : Bool)
  /-- POWER_SAMPLE (R459). Package power in 1/16 W, VIN_MAIN in mV, its current in 10 mA, and voltage (5 mV) and power (1/64 W) of each power domain. -/
  | powerSample (power vin iin : BitVec 16) (est : List (BitVec 8 × BitVec 16))
  /-- HALF_HOLD_TIMEOUT (R459). 20 µs of half hold have passed. -/
  | halfHoldTimeout
  /-- OVERCURRENT (R459). VIN_MAIN current has been above 360 A for 2 µs. -/
  | overcurrent
  /-- DRYDOWN_EVALUATION (R458). The power controller evaluates Drydown. -/
  | drydownEvaluation
  /-- CAP_WRITE (R456). Requester `r` writes `v` to PWR_CAP. -/
  | capWrite (r : Requester) (v : Word)
  /-- VIN_EXCURSION (R446). VIN_MAIN has been outside 4.35 V to 5.4 V for 10 µs. -/
  | vinExcursion
  /-- PLL_LOCKED (R452). The idle PLLs of domain `d` are locked. -/
  | pllLocked (d : BitVec 3)
  /-- VCORE_RAMP_DONE (R452). The rising VCORE ramp of domain `d` ends. -/
  | vcoreRampDone (d : BitVec 3)
  /-- REPLICA_SAMPLE (R454). Slack of compute die `i`'s 32 replicas, in 0.5 % of the cycle. -/
  | replicaSample (i : BitVec 4) (slacks : List (BitVec 8))
  /-- MARGIN_RECOVERY (R454). 100 ms without a warning in domain `d`. -/
  | marginRecovery (d : BitVec 3)
  /-- THERMAL_SAMPLE (R463). Sensors of thermal die `i`, in 1/16 °C. -/
  | thermalSample (i : BitVec 5) (readings : List (BitVec 16))
  /-- THROTTLE_STEP (R464). 5 ms of THROTTLE of compute die `i` above 100 °C. -/
  | throttleStep (i : BitVec 5)
  /-- THERMAL_CEILING_RISE (R464). 5 ms without a THROTTLE latch in domain `d`. -/
  | thermalCeilingRise (d : BitVec 3)
  /-- POWER_DOMAIN_RAMP_DONE (R448). The inrush-limited ramp of power domain `p` ends. -/
  | powerDomainRampDone (p : BitVec 6)
  /-- REFCLK_LOST (R451). No REFCLK edge for 200 ns. -/
  | refclkLost
  /-- HOLDOVER_EXPIRY (R451). REFCLK has been absent for 10 ms. -/
  | holdoverExpiry
  /-- REFCLK_RETURN (R451). REFCLK returns. -/
  | refclkReturn
  /-- DIE_PLL_UNLOCK (R486). A PLL of die `i`, or of base field `i` − 32, has been unlocked for 1 µs; `srOk`: a port die entered self refresh. -/
  | diePllUnlock (i : BitVec 6) (srOk : Bool)
  /-- COLD_RST (R477). COLD_RST# is held low for 10 µs and rises: TRAYPOS, CLKMODE and BOOTSRC as sampled, and whether the main rails enter range within 100 ms. -/
  | coldRst (straps : BitVec 7) (rails : Bool)
  /-- STANDBY_POWER_ON (R477). VSTBY has stayed above 3.0 V for 1 ms: the straps as sampled, and whether COLD_RST# is held low. -/
  | standbyPowerOn (straps : BitVec 7) (held : Bool)
  /-- MAIN_POWER_LOSS (R477). VIN_MAIN is lost. -/
  | mainPowerLoss
  /-- TRIP_COOL_EXPIRY (R498). The cooling wait ends. -/
  | tripCoolExpiry
  /-- BOOT_WATCHDOG_EXPIRY (R497). 90 s of boot have passed. -/
  | bootWatchdogExpiry
  /-- PERST (R479). PERST# is asserted. -/
  | perst
  /-- WARM (R477). RST_CTL.WARM is written with 1, or the PF takes a function-level reset. -/
  | warm
  /-- VF_FUNCTION_LEVEL_RESET (R477). VF `v` takes a function-level reset. -/
  | vfFunctionLevelReset (v : BitVec 6)
  /-- RESET_RELEASE (R290). A reset of warm scope is released. -/
  | resetRelease
  /-- KICK (R484). Requester `r` writes RST_WDT with KICK set, the other bits as in `v`. -/
  | kick (r : Requester) (v : Word)
  /-- WATCHDOG_EXPIRY (R484). The firmware watchdog's period ends. -/
  | watchdogExpiry
  /-- FATAL_ERROR (R483). An uncorrectable error in critical state: 0 island, 1 security block, 2 hub, 3 memory die, 4 compute stack, 5 refresh and training control; die `i`; its address. -/
  | fatalError (kind : BitVec 3) (i : BitVec 5) (addr : Word)
  /-- DIE_LOCAL_RESET (R485). Die `i` (the index of 17 R542) is reset; `srOk`: a port die's channels reached self refresh. -/
  | dieLocalReset (i : BitVec 5) (srOk : Bool)
  /-- DIE_LOCAL_RESET_DONE (R485). Die `i`'s zeroing and tests end, with the tiles that failed, what the tests of vertical links and bypass lanes found, and the number of failed lanes of bundles. -/
  | dieLocalResetDone (i : BitVec 5) (pass : Bool) (found : DieTest) (bundles : List (BitVec 8 × BitVec 7))
  /-- SUSPEND_EXPIRY (R481). The keep time of context `c`'s suspended session ends. -/
  | suspendExpiry (c : BitVec 12)
  /-- IMAGE_READ_DONE (R494). The flash reads of an attempt end: whether they succeeded, the directory copies, the image, and whether the factory region's seeds are valid. -/
  | imageReadDone (readOk : Bool) (dirs : List (List Byte)) (img : List Byte) (factoryOk : Bool)
  /-- RECOVERY_GO (R496). RST_RECOV_CTL.GO is written. -/
  | recoveryGo
  /-- RECOVERY_IMAGE_LOADED (R496). The recovery image's read ends. -/
  | recoveryImageLoaded (readOk : Bool) (img : List Byte) (factoryOk : Bool)
  /-- WARMUP_DONE (R500). Every field has held 55 °C for 10 ms. -/
  | warmupDone
  /-- WARMUP_TIMEOUT (R500). 60 s of warm-up have passed. -/
  | warmupTimeout
  /-- FLACON_SAMPLE (R509). Flacon samples VIN_MAIN in 10 µV and its current in mA; `ok`: its sense paths pass their self-test. -/
  | flaconSample (v : BitVec 24) (i : BitVec 20) (ok : Bool)
  /-- INTERVAL_CLOSE (R511). A millisecond of Flacon's clock ends. -/
  | intervalClose
  /-- TICK (R507). The hub receives the mark of interval `n`; what it counted for each account. -/
  | tick (n : Word) (acts : List Activity)
  /-- RECORD (R515). Flacon receives a record's bytes. -/
  | record (bs : List Byte)
  /-- READ (R507). The hub reads offset `off` of the FLC window for a requester. -/
  | read (r : Requester) (off : BitVec 12)
  /-- SET_TIME (R521). The secure world sends Flacon the time in ms since 1970. -/
  | setTime (t : BitVec 64)
  /-- TIME_SET (R521). Flacon's I3C target receives the time in ms since 1970. -/
  | timeSet (t : BitVec 64)
  /-- JOURNAL_SNAPSHOT (R519). 10 s of Flacon's clock have passed. -/
  | journalSnapshot
  /-- POWER_FAIL (R520). VSTBY falls through 3.0 V; how far a snapshot under way had come (0: none was). -/
  | powerFail (mid : BitVec 2)
  /-- POWER_UP (R520). VSTBY has risen: milliseconds the clock ran without it, and the level of SEAL_OPEN. -/
  | powerUp (elapsed : BitVec 48) (sealHigh : Bool)
  /-- SEAL_OPEN (R523). The seal pin is driven high for 10 ms. -/
  | sealOpen
  /-- PARAM (R523). Flacon's I3C target receives a parameter. -/
  | param (i : BitVec 8) (v : Word)
  /-- SEAL_CLOSE (R523). The seal pin is released. -/
  | sealClose
  /-- HEARTBEAT (R535). Die `i` gives its heartbeat. -/
  | heartbeat (i : BitVec 5)
  /-- HEARTBEAT_TIMEOUT (R535). Die `i` has missed its heartbeats. -/
  | heartbeatTimeout (i : BitVec 5)
  /-- TILE_SILENT (R535). Tile `t` has been silent for 8 µs. -/
  | tileSilent (t : SilentTile)
  /-- ADMISSION_STALL_TIMEOUT (R31). Flacon has taken no counters for 1 s. -/
  | admissionStallTimeout
  /-- HUB_FLT_ACK (R545). Requester `r` writes `v` to HUB_FLT_ACK. -/
  | hubFltAck (r : Requester) (v : Word)
  /-- INJECT_LANE_ERRORS (R550). Injection of lane errors above threshold. -/
  | injectLaneErrors (r : Requester)
  /-- INJECT_CHANNEL_LOSS (R550). Injection of a 2 µs loss of signal on a channel. -/
  | injectChannelLoss (r : Requester)
  /-- INJECT_RING_UNLOCK (R550). Injection of a ring unlock. -/
  | injectRingUnlock (r : Requester)
  /-- INJECT_LASER_OFF (R550). Injection of a laser site's output off. -/
  | injectLaserOff (r : Requester)
  /-- INJECT_SRAM_DOUBLE_BIT (R550). Injection of a double-bit error in tile SRAM. -/
  | injectSramDoubleBit (r : Requester)
  /-- INJECT_TILE_LOST (R550). Injection of a tile loss. -/
  | injectTileLost (r : Requester)
  /-- INJECT_DIE_LOST (R550). Injection of a die loss by heartbeat stop. -/
  | injectDieLost (r : Requester) (restore : Bool)
  /-- INJECT_RESERVOIR_DOUBLE_BIT (R550). Injection of a double-bit error in a reservoir word. -/
  | injectReservoirDoubleBit (r : Requester)
  /-- INJECT_T2_UNCORRECTABLE (R550). Injection of an uncorrectable T2 codeword. -/
  | injectT2Uncorrectable (r : Requester)
  /-- INJECT_LINK_DOWN (R550). Injection of a tray link down. -/
  | injectLinkDown (r : Requester)
  /-- INJECT_REDUCTION_FAULT (R550). Injection of a reduction fault at a router. -/
  | injectReductionFault (r : Requester)
  /-- INJECTION_RESTORE (R550). The injected die's self-test passes or fails. -/
  | injectionRestore (pass : Bool)
  /-- ARITH_CLR (R55). Requester `r` writes CTX_ARITH_SEL with CLR for context `c`. -/
  | arithClr (r : Requester) (c : BitVec 16)
  /-- FREEZE (R92). A write of a stack's STK_TEL_CTL without CLR. -/
  | freeze (r : Requester) (w : TelWrite)
  /-- TEL_CLR (R92). A write of a stack's STK_TEL_CTL with CLR. -/
  | telClr (r : Requester) (w : TelWrite)
  /-- LO_REGISTER_READ (R27). Requester `r` reads the LO register at `off`. -/
  | loRegisterRead (r : Requester) (off : BitVec 26)
  /-- LOCK_WRITE (R569). Requester `r` writes `v` to the LOCK register at `off`. -/
  | lockWrite (r : Requester) (off : BitVec 26) (v : Word)
  /-- REGISTER_WRITE (R556). Requester `r` writes `t` in the form `f`. -/
  | registerWrite (r : Requester) (t : RegTarget) (f : WriteForm)
  /-- EXTEST (R594). The boundary register is scanned with the pins driven: what the cells capture, and what is shifted in. -/
  | extest (pins inn : BitVec 2306)
  /-- IDCODE (R594). The identification register is scanned. -/
  | idcode
  /-- SAMPLE_PRELOAD (R594). The boundary register is scanned, not driving. -/
  | samplePreload (pins inn : BitVec 2306)
  /-- HIGHZ (R594). The outputs of the chain are turned off. -/
  | highz
  /-- CLAMP (R594). The outputs are held from the boundary register. -/
  | clamp
  /-- EXTEST_PULSE (R594). The pulse test of the PCIe pairs. -/
  | extestPulse (pins inn : BitVec 2306)
  /-- EXTEST_TRAIN (R594). The train test of the PCIe pairs. -/
  | extestTrain (pins inn : BitVec 2306)
  /-- BYPASS (R594). The bypass register is scanned. -/
  | bypass
  /-- TAP_RESET (R592). The port enters Test-Logic-Reset. -/
  | tapReset
  /-- CHANNEL_LOSS_OF_SIGNAL (R534). Channel `ch` loses its signal for 1 µs. -/
  | channelLossOfSignal (ch : BitVec 23)
  /-- REGULATOR_FAULT (R535). The regulator of power domain `p` faults. -/
  | regulatorFault (p : BitVec 6)
  /-- SILLAGE_BANK_FAULT (R206). The bank fails. -/
  | sillageBankFault (g : BitVec 3) (b : BitVec 4)
  /-- MESSAGE_SENT_CONFIRM (R383). The receiver's answer to the oldest message of the bundle. -/
  | messageSentConfirm (bundle : BitVec 4) (written : Bool)
  /-- VBAT_BROWN_OUT (R521). VBAT_M falls below 1.8 V. -/
  | vbatBrownOut
  /-- FAULT_LOG_COALESCE_EXPIRY (R545). The newest record's coalescing window ends. -/
  | faultLogCoalesceExpiry
  /-- HOST_READ_COMPLETION (R312). A read of host memory for context `c` returns `bs`. -/
  | hostReadCompletion (c : BitVec 12) (w : HostRead) (bs : List Byte)
  /-- TDI_START (R431). For VF `vf`. -/
  | tdiStart (vf : BitVec 6)
  deriving DecidableEq, Repr

end Sys2Proof
end

