-- ==== Sys2Proof/Decode.lean ====
section
/-!
DEFINITION. The command a word spells by the bits of the opcode table. The table gives its rows no bits: a command comes from
outside with its operands, and no word spells one.
-/
namespace Sys2Proof

/-- The command of a word of `nbits` bits: none, since no row of the table gives bits.
DESIGN CHOICE: notes/assumptions/73. -/
def decodeTableWord (_nbits _w : Nat) : Option Instr := none

end Sys2Proof
end

