-- ==== Sys2Proof/Machine/Operands.lean ====
section
/-!
DEFINITION. How the bytes the device reads from host memory become descriptors, buffer entries and
selection records (09_host_rings.md R307 to R311, R319; 06_sillage.md R196), and how entries, frames and
records become bytes (09 R314, R320; 06 R196).
-/
namespace Sys2Proof.Machine

/-- The body of a REQUEST descriptor from its 64 bytes (09 R309). -/
def reqBodyOf (b : List Byte) : ReqBody where
  inputList := BitVec.ofNat 64 (field b 0x08 8)
  nTokens := BitVec.ofNat 32 (field b 0x10 4)
  chunk := BitVec.ofNat 32 (field b 0x14 4)
  maxNew := BitVec.ofNat 32 (field b 0x18 4)
  inputCount := BitVec.ofNat 8 (field b 0x1C 1)
  rflags := BitVec.ofNat 8 (field b 0x1D 1)
  temp := BitVec.ofNat 32 (field b 0x20 4)
  topp := BitVec.ofNat 32 (field b 0x24 4)
  topk := BitVec.ofNat 16 (field b 0x28 2)
  deadlineUs := BitVec.ofNat 32 (field b 0x2C 4)
  recAddr := BitVec.ofNat 64 (field b 0x30 8)
  recLen := BitVec.ofNat 32 (field b 0x38 4)

/-- The body of a descriptor from its opcode and bytes (09 R308, R311). -/
def descBodyOf (b : List Byte) : DescBody :=
  match field b 1 1 with
  | 0x01 => .request (reqBodyOf b)
  | 0x02 => .cancel (BitVec.ofNat 16 (field b 0x08 2))
  | 0x03 => .nop
  | 0x10 => .load (BitVec.ofNat 64 (field b 0x08 8)) (BitVec.ofNat 64 (field b 0x10 8))
  | 0x11 => .chunk (BitVec.ofNat 64 (field b 0x08 8)) (BitVec.ofNat 32 (field b 0x10 4)) (BitVec.ofNat 8 (field b 0x14 1))
  | 0x12 => .unload (BitVec.ofNat 8 (field b 0x08 1))
  | 0x13 => .bind (BitVec.ofNat 8 (field b 0x08 1)) (decide (field b 0x09 1 = 1)) (BitVec.ofNat 8 (field b 0x0A 1))
  | 0x14 => .unbind
  | 0x15 => .pin
      { handle := BitVec.ofNat 8 (field b 0x08 1), tier := BitVec.ofNat 8 (field b 0x09 1),
        tensor := BitVec.ofNat 16 (field b 0x0A 2), slot := BitVec.ofNat 8 (field b 0x0C 1),
        first := BitVec.ofNat 32 (field b 0x10 4), count := BitVec.ofNat 32 (field b 0x14 4) }
  | n => .undefinedOp (BitVec.ofNat 8 n)

/-- A submission descriptor from its 64 bytes (09 R307). -/
def descOf (b : List Byte) : Desc :=
  { head := { ver := BitVec.ofNat 4 (field b 0 1 % 16), tag := BitVec.ofNat 16 (field b 2 2),
              noIrq := decide (field b 4 1 % 2 = 1), fence := decide (field b 4 1 / 2 % 2 = 1) },
    body := descBodyOf b }

/-- A result buffer entry from its 16 bytes (09 R319). -/
def bufOf (b : List Byte) : BufEntry :=
  ⟨BitVec.ofNat 4 (field b 0 1 % 16), BitVec.ofNat 32 (field b 4 4), BitVec.ofNat 64 (field b 8 8)⟩

/-- One entry of an input list as it stands in host memory (09 R310). -/
structure InputEntry where
  tensor : Nat
  ceilValid : Bool
  ceil : Nat
  addr : Nat
  bytes : Nat
  deriving DecidableEq, Repr

/-- An input list entry from its 32 bytes (09 R310). -/
def inputEntryOf (b : List Byte) : InputEntry :=
  ⟨field b 0 2, decide (field b 2 1 = 1), field b 3 1, field b 8 8, field b 16 8⟩

/-- The selection records of `bs`, none where a record runs past the end (06 R196, 09 R313). -/
def recordsOf : Nat → List Byte → Option (List SelRecord)
  | 0, _ => none
  | fuel + 1, bs =>
    if bs = [] then some []
    else
      let n := field bs 8 4
      let size := (16 + 4 * n + 15) / 16 * 16
      if bs.length < size then none
      else
        (recordsOf fuel (bs.drop size)).map
          (⟨field bs 0 4, field bs 4 2, field bs 6 1, field bs 7 1, field bs 12 4,
            (List.range n).map (fun i => field bs (16 + 4 * i) 4), 0⟩ :: ·)

/-- The bytes of a selection record, padded to a multiple of 16 (06 R196). -/
def recordBytes (r : SelRecord) : List Byte :=
  let b := leBytes 4 r.pos0 ++ leBytes 2 r.op ++ leBytes 1 r.head ++ leBytes 1 r.flags ++ leBytes 4 r.positions.length ++
    leBytes 4 r.scanned ++ (r.positions.map (leBytes 4)).flatten
  b ++ List.replicate ((16 - b.length % 16) % 16) 0#8

/-- The 32-byte segment header of a frame (09 R320). -/
def segmentHeader (f : Frame) (seq bytes : Nat) (last : Bool) : List Byte :=
  leBytes 4 (seq % 2 ^ 32) ++ leBytes 2 f.seg ++ leBytes 1 f.kind ++ leBytes 1 (b2n last) ++ leBytes 2 f.tag ++ leBytes 2 f.tensor ++
    leBytes 4 bytes ++ leBytes 8 f.payload.length ++ leBytes 4 f.pos ++ leBytes 4 0

/-- The bytes of a completion entry as written (09 R314). -/
def entryBytes (e : Entry) (phase : Bool) (ver sqHead gt : Nat) (lost : Bool) : List Byte :=
  leBytes 16 e.payload ++ leBytes 8 gt ++ leBytes 2 (b2n e.arith + 2 * b2n lost) ++ leBytes 2 sqHead ++ leBytes 2 e.tag ++
    leBytes 1 e.status ++ leBytes 1 (ver + 16 * e.type + 128 * b2n phase)

/-- The tag field of an EVENT entry: EVT_CODE over EVT_ARG (09 R314). -/
def evtTag (code arg : Nat) : Nat := code * 256 + arg % 256

/-- An EVENT entry (09 R317). -/
def evtEntry (code arg status payload : Nat) : Entry :=
  ⟨2, status, evtTag code arg, false, payload, true, code = 0x01 || code = 0x06 || code = 0x10 || code = 0x14 || code = 0x1A || code = 0x20⟩

end Sys2Proof.Machine
end

