-- ==== Sys2Proof/Machine/BaseState.lean ====
section
/-!
DEFINITION. The state of the Skeltil base: endpoint paths, channels and their link layer, steered slots, comb
lasers, rings, bundles and temperatures (07_skeltil_base.md R217 to R258).
-/
namespace Sys2Proof.Machine

/-- States of an endpoint path (07 R251). -/
inductive PathState where
  | dark | inService | lost | spare
  deriving DecidableEq, Repr

/-- States of a steered slot (07 R232, R252); one that is ready shows as retuning. -/
inductive SlotState where
  | unassigned | active | draining | retuning | ready
  deriving DecidableEq, Repr

/-- An assignment of a steered slot: line, logical destination, owning domain, and the receive slot it occupies at the destination (07
R223). -/
structure Steer where
  line : Nat
  dest : Nat
  dom : Nat
  recv : Nat
  deriving DecidableEq, Repr

/-- A steered slot, at both ends: state, assignment in force, pending one, whether the sequence restarts at the next boundary, and the
domains whose boundary it still waits for (07 R232). -/
structure SteerSlot where
  st : SlotState := .unassigned
  cur : Option Steer := none
  pend : Option Steer := none
  again : Bool := false
  owed : List Nat := []
  deriving DecidableEq, Repr

/-- States of a comb laser site (07 R235). -/
inductive LaserState where
  | off | operating | gated | standby | failed
  deriving DecidableEq, Repr

/-- A comb laser site: state, bus it drives, tick of its last passed check or of monitored light, photocurrent,
and tick of the last frame on its bus. -/
structure Laser where
  st : LaserState := .off
  bus : Option Nat := none
  checked : Option Nat := none
  mon : Nat := 0
  frameAt : Nat := 0
  deriving DecidableEq, Repr

/-- States of a transport ring that is not locked (07 R239, R254). -/
inductive RingState where
  | locked | acquiring | failed
  deriving DecidableEq, Repr

/-- A transport ring: state, sweeps that failed, tick of the unlock, and whether it was injected (17 R550). -/
structure Ring where
  st : RingState := .locked
  sweeps : Nat := 0
  at_ : Nat := 0
  injected : Bool := false
  deriving DecidableEq, Repr

/-- A bundle of lanes (07 R242 to R245, R256): the mode in force since its last test and the one it takes
at the next, state of that test, spares in use and
those its test used, errors in the window and the window's start, and the last lane replaced. -/
structure Bundle where
  mode : Nat := 3
  newMode : Nat := 3
  thresh : Nat := 0x10
  disabled : Bool := false
  crc : Bool := false
  tested : Nat := 0
  spares : Nat := 0
  errs : Nat := 0
  window : Nat := 0
  lastLane : Nat := 0
  deriving DecidableEq, Repr

/-- A frame of the link layer (07 R226): its sequence numbers, class (true: reduction), type and payload, and, where it passes between
shared endpoints, the domain that owns its channels (R231). -/
structure LinkFrame where
  rseq : Nat
  pseq : Nat
  red : Bool
  type : Nat
  data : BitVec 512
  owner : Option Nat
  deriving DecidableEq, Repr

/-- A channel: whether it has lost its signal, frames sent and not acknowledged, oldest first (at most 64), the
RSEQ its receiver expects, frames received since the last acknowledgement (07 R228), the tick from which its sender is free (R230), and the
descrambler's generator, all ones at training (R227). -/
structure Channel where
  out : Bool := false
  buffer : List LinkFrame := []
  expect : Nat := 0
  since : Nat := 0
  freeAt : Nat := 0
  scr : BitVec 31 := 0x7FFFFFFF#31
  deriving DecidableEq, Repr

/-- Frames of one source endpoint, destination endpoint and class: the PSEQ delivered next, PSEQs that wait for
it, credits the sender holds, frames handed over by a lost channel that another must carry, the flits of frames that wait, and the
flits delivered of a packet that is not whole yet (07 R228, R230). -/
structure Flow where
  next : Nat := 0
  held : List Nat := []
  credits : Nat := 128
  handed : List LinkFrame := []
  wait : List (Nat × BitVec 512) := []
  part : List (BitVec 512) := []
  deriving DecidableEq, Repr

/-- An inferred die temperature (07 R241, R255), in 1/16 °C. -/
structure TempEst where
  valid : Bool := false
  rings : Nat := 0
  temp : Int := 0
  deriving DecidableEq, Repr

/-- The base: physical ports that failed, the map of remapped endpoints, remaps that wait for a boundary,
channels by 17 R542's index, flows by (source * 64 + destination) * 2 + class, steered slots by
(endpoint * 8 + plane) * 32 + slot, the tick of the last steering change of an endpoint and plane, lasers by
field * 8 + site, buses out of service by field * 8 + bus, rings and bundles that differ from their defaults,
temperatures by die, mean ring temperatures of fields, fields whose rings have acquired their lines since they were powered, and whether the
boot has set READY. -/
structure Base where
  failed : List Nat := []
  remap : List (Nat × Nat) := []
  remapping : List (Nat × Nat) := []
  lostEps : List Nat := []
  chans : List (Nat × Channel) := []
  flows : List (Nat × Flow) := []
  slots : List (Nat × SteerSlot) := []
  steered : List (Nat × Nat) := []
  lasers : List (Nat × Laser) := []
  dark : List Nat := []
  rings : List (Nat × Ring) := []
  bundles : List (Nat × Bundle) := []
  temps : List (Nat × TempEst) := []
  fieldTemps : List Int := []
  acquired : List Nat := []
  ready : Bool := false
  deriving DecidableEq, Repr

end Sys2Proof.Machine
end

