-- ==== Sys2Proof/Machine/RegTable.lean ====
section
/-!
DEFINITION. Every register of BAR0 (18_register_map.md R562) with its writable fields, their access
codes (00_scope.md R10) and ranges (01_architecture.md R38), its reset value and its tag (18 R560).
A register whose value the device forms reads through Machine/RegRead.lean; its row here has no writable
field.
-/
namespace Sys2Proof.Machine

/-- Access codes of fields (00 R10). `wo` takes the action its own meaning gives; `ro` stands for the named read-only fields of registers
that only the secure world or the hub writes, whose change a write of others is refused for (18 R560). -/
inductive Access where
  | rw | rwl | w1c | w1s | wo | ro
  deriving DecidableEq, Repr

/-- One field: its bits, access, and the values it admits. -/
structure FieldSpec where
  hi : Nat
  lo : Nat
  acc : Access
  min : Nat
  max : Nat
  deriving DecidableEq, Repr

/-- Who may write a register (18 R560): every requester, the secure world only, or the hub's control
cores only. -/
inductive RegTag where
  | n | sec | hub
  deriving DecidableEq, Repr

/-- A register, or `count` of them at a stride. -/
structure RegSpec where
  off : Nat
  count : Nat
  stride : Nat
  reset : Nat
  tag : RegTag
  fields : List FieldSpec
  deriving DecidableEq, Repr

/-- A field that admits every value. -/
def fld (hi lo : Nat) (a : Access) : FieldSpec := ⟨hi, lo, a, 0, 2 ^ (hi - lo + 1) - 1⟩

/-- A field with a range (R38). -/
def fldR (hi lo : Nat) (a : Access) (mn mx : Nat) : FieldSpec := ⟨hi, lo, a, mn, mx⟩

/-- A register with fields. -/
def rg (off reset : Nat) (fs : List FieldSpec) : RegSpec := ⟨off, 1, 4, reset, .n, fs⟩

/-- A register the requester reads only. -/
def rgRo (off : Nat) : RegSpec := ⟨off, 1, 4, 0, .n, []⟩

/-- `count` read-only registers at consecutive offsets. -/
def rgRos (off count : Nat) : RegSpec := ⟨off, count, 4, 0, .n, []⟩

/-- Read-only registers of the secure world (tag S) with fields at the same bits. -/
def rgSecRos (off count : Nat) (fs : List (Nat × Nat)) : RegSpec := ⟨off, count, 4, 0, .sec, fs.map fun f => fld f.1 f.2 .ro⟩

/-- A LOCK register (00 R10 W1S; 08_memory_tiers.md R268). -/
def rgLock (off : Nat) : RegSpec := rg off 0 [fld 0 0 .w1s]

/-- HUB block (17_faults.md R547 to R551; 18 R559, R563 to R565, R570). -/
def hubRegs : List RegSpec :=
  [ rgRos 0x0 3, rgRo 0x0C, rgRo 0x10, rgRos 0x14 3, rgRos 0x20 2, rgRo 0x28,
    rgRo 0x40, rg 0x44 0 [fld 31 0 .rw], rgRos 0x48 3, rgRos 0x58 2,
    rg 0x800 0x00640000 [fld 31 31 .rw, fld 25 16 .rw, fld 10 0 .rw], rgRos 0x804 2,
    rg 0x80C 0 [fld 31 0 .rw], rg 0x810 0 [fld 31 0 .rw], rgRo 0x814, rgRos 0x820 16,
    rg 0x870 0 [fld 5 0 .rw], rgRo 0x874,
    rg 0x900 0 [fld 31 31 .wo, fld 30 30 .rwl, fldR 7 0 .rwl 0 0x0B], rg 0x904 0 [fld 31 0 .rwl],
    rg 0x908 0 [fld 31 0 .rwl], rg 0x90C 0 [fld 31 0 .rwl], rgRo 0x910,
    rgLock 0xFF0, rgRo 0xFF4 ]

/-- CLK, PWR and RST blocks (14_power_clocks_thermal.md R467 to R476; 15_reset_boot.md R503 to R505). -/
def islandRegs : List RegSpec :=
  [ rg 0x100000 0 [fld 5 5 .w1c], rg 0x100004 1 [fldR 2 0 .rwl 0 1],
    rg 0x100010 0 [fld 2 0 .rw], rgRo 0x100014, rg 0x100020 0 [fld 3 0 .rw], rgRo 0x100024, rgRos 0x100030 2,
    rgLock 0x100FF0,
    rg 0x200000 0 [fld 8 8 .w1c], rg 0x200004 0x0570044C [fldR 26 24 .rwl 1 7, fldR 23 16 .rwl 105 125, fldR 10 0 .rw 650 1250],
    rgRos 0x200008 2, rg 0x200010 0 [fld 5 0 .rw], rgRo 0x200014, rgRos 0x200020 4,
    rg 0x200080 5 [fld 3 0 .rwl], rgRos 0x200084 2, rg 0x200090 0 [fld 4 0 .rw], rgRos 0x200094 3,
    rgLock 0x200FF0,
    rg 0x300000 0 [fld 9 0 .w1c], rg 0x300004 0 [fld 0 0 .wo],
    rg 0x300008 0x80000064 [fld 31 31 .rwl, fld 30 30 .wo, fldR 15 0 .rwl 10 10000],
    rgRos 0x300010 2, rg 0x300018 0x001E013C [fldR 23 16 .rwl 5 255, fld 8 8 .rwl, fldR 7 0 .rwl 1 255],
    rg 0x300020 0 [fld 31 0 .rw], rg 0x300024 0 [fld 31 0 .rw], rg 0x300028 0 [fldR 31 0 .rw 0 0x02000000],
    rg 0x30002C 0 [fld 31 31 .wo], rgLock 0x300FF0 ]

/-- SEC block (13_tenancy_security.md R441 to R445). -/
def secRegs : List RegSpec :=
  [ rgSecRos 0x400000 1 [(31, 24), (23, 16), (2, 2), (1, 1), (0, 0)], rgSecRos 0x400004 1 [(1, 1), (0, 0)],
    rg 0x400010 0 [fld 31 31 .wo], rgSecRos 0x400014 1 [(31, 31), (15, 8), (7, 0)],
    rg 0x400020 0 [fldR 15 0 .rw 0 4095], rgSecRos 0x400024 3 [(31, 0)], rg 0x400030 0 [fld 2 0 .rw],
    rgSecRos 0x400034 1 [(15, 0)], rgSecRos 0x400038 1 [(31, 16), (7, 0)], rgSecRos 0x40003C 1 [(31, 8)],
    rg 0x400040 0 [fld 2 0 .rw], rgSecRos 0x400044 1 [(31, 30), (15, 0)], rg 0x400050 0 [fld 5 0 .rw], rgSecRos 0x400054 1 [(31, 31), (2, 0)],
    ⟨0x400100, 64, 4, 0, .n, [fld 31 0 .rw]⟩, rgLock 0x400FF0 ]

/-- CTX block (02_arithmetic.md R55; 09_host_rings.md R294; 18 R567). -/
def ctxRegs : List RegSpec :=
  [ rg 0x800200 0 [fld 31 31 .wo, fldR 15 0 .rw 0 4095], rgRos 0x800208 5, rgRos 0x801000 128,
    ⟨0x804000, 4032, 4, 0, .n, [fld 31 31 .rw, fldR 15 0 .rw 0 4095]⟩ ]

/-- PLC, DMA and CHK blocks (05_placement.md R174 to R183; 10_dma_check.md R345 to R360). -/
def engineRegs : List RegSpec :=
  [ rgRo 0x1000000, rg 0x1000004 0x0018020A [fldR 21 16 .rwl 0 32, fldR 10 8 .rwl 0 3, fldR 5 0 .rw 0 50],
    rg 0x1000008 0 [fldR 10 0 .rwl 0 1024], rg 0x1000010 0x800 [fld 11 11 .rw, fld 10 8 .rw, fld 5 4 .rw, fld 3 0 .rw],
    rgRo 0x1000014, rg 0x1000040 0 [fld 31 16 .rw, fld 13 6 .rw, fld 5 0 .rw], rg 0x1000044 0 [fld 31 0 .rw],
    rg 0x1000048 0 [fldR 15 0 .rw 0 4095], rgRos 0x100004C 2, rgRos 0x1000080 5, rgRos 0x10000A0 2,
    rg 0x10000C0 0 [fld 31 31 .wo, fld 9 8 .rwl, fld 5 4 .rwl, fld 2 0 .rwl], rgRos 0x10000C4 2, rgLock 0x1000FF0,
    rg 0x1400000 0x100A0103 [fldR 29 24 .rwl 1 63, fldR 23 16 .rwl 1 255, fld 15 8 .rwl, fld 2 0 .rwl],
    rgRos 0x1400010 5, rgRos 0x1400030 4, rgLock 0x1400FF0,
    ⟨0x1401000, 64, 0x40, 0, .hub, [fld 31 0 .rw]⟩, ⟨0x1401004, 64, 0x40, 0, .hub, [fld 31 0 .rw]⟩,
    ⟨0x1401008, 64, 0x40, 0, .hub, [fld 31 0 .rw]⟩, ⟨0x140100C, 64, 0x40, 0, .hub, [fld 31 0 .rw]⟩,
    ⟨0x1401010, 64, 0x40, 0, .hub, [fld 31 0 .rw]⟩,
    ⟨0x1401014, 64, 0x40, 0, .hub, [fld 31 29 .wo, fld 28 27 .rw, fld 23 20 .rw, fld 15 0 .rw]⟩,
    ⟨0x1401018, 64, 0x40, 0, .hub, [fld 31 30 .ro, fld 19 16 .ro, fld 10 8 .ro, fld 7 0 .ro]⟩, ⟨0x140101C, 64, 0x40, 0, .hub, [fld 31 0 .ro]⟩,
    ⟨0x1401020, 64, 0x40, 0, .hub, [fld 31 0 .ro]⟩, ⟨0x1401024, 64, 0x40, 0, .hub, [fld 31 0 .ro]⟩,
    rgRo 0x1500000,
    ⟨0x1501000, 16, 0x40, 0, .hub, [fld 31 0 .rw]⟩, ⟨0x1501004, 16, 0x40, 0, .hub, [fld 31 0 .rw]⟩,
    ⟨0x1501008, 16, 0x40, 0, .hub, [fld 31 0 .rw]⟩,
    ⟨0x150100C, 16, 0x40, 0, .hub, [fld 31 29 .wo, fld 28 23 .rw, fld 21 16 .rw, fldR 15 0 .rw 0 4095]⟩,
    ⟨0x1501010, 16, 0x40, 0, .hub, [fld 31 0 .rw]⟩, ⟨0x1501014, 16, 0x40, 0, .hub, [fld 31 0 .rw]⟩,
    ⟨0x1501018, 16, 0x40, 0, .hub, [fld 31 0 .ro]⟩, ⟨0x150101C, 16, 0x40, 0, .hub, [fld 31 0 .ro]⟩,
    ⟨0x1501020, 16, 0x40, 0, .hub, [fld 31 29 .ro, fld 3 0 .ro]⟩, ⟨0x1501024, 16, 0x40, 0, .hub, [fld 31 0 .ro]⟩ ]

/-- BASE and SIL blocks (07_skeltil_base.md R249 to R258; 06_sillage.md R209 to R216). -/
def baseRegs : List RegSpec :=
  [ rgRo 0x1800000, rg 0x1800004 0x00100102 [fld 23 16 .rwl, fld 8 8 .rwl, fld 1 1 .rw],
    rg 0x1800010 0 [fldR 5 0 .rw 0 31], rgRo 0x1800014,
    rg 0x1800020 0 [fld 14 10 .rw, fld 9 7 .rw, fldR 5 0 .rw 0 31], rgRo 0x1800024,
    rg 0x1800030 0 [fld 6 0 .rw], rgRo 0x1800034, rg 0x1800040 0 [fld 17 6 .rw, fldR 5 0 .rw 0 31], rgRo 0x1800044,
    rg 0x1800050 0 [fld 4 0 .rw], rgRo 0x1800054, rg 0x1800060 0 [fld 12 0 .rw],
    rg 0x1800064 0x00001003 [fldR 15 8 .rw 1 255, fldR 1 0 .rwl 1 3], rgRo 0x1800068,
    rgRos 0x1800080 10, rgLock 0x1800FF0,
    rgRo 0x1C00000, rg 0x1C00004 0x00320419 [fldR 23 16 .rwl 10 200, fldR 13 8 .rwl 1 63, fldR 6 0 .rw 0 50],
    rg 0x1C00008 0 [fld 7 0 .rw], rg 0x1C00010 0 [fld 6 0 .rw], rgRos 0x1C00014 2, rgRos 0x1C00020 2,
    rgRos 0x1C00028 3, rgRos 0x1C00080 9, rgLock 0x1C00FF0 ]

/-- The registers of stack n (03_harrel_stacks.md R88 to R98). -/
def stkRegs (n : Nat) : List RegSpec :=
  let b := 0x2000000 + n * 0x100000
  [ rgRos b 2, rgRos (b + 0x10) 3, rgRos (b + 0x20) 3, rgRos (b + 0x30) 3, rgRos (b + 0x40) 3,
    rg (b + 0x80) 0x108 [fld 8 8 .rwl, fld 5 0 .rwl], rg (b + 0x100) 0 [fld 1 1 .rw, fld 0 0 .wo],
    rg (b + 0x104) 0 [fld 18 13 .rw, fld 7 0 .rw], rgRo (b + 0x108), rgRos (b + 0x110) 5, rgRos (b + 0x130) 3,
    rgRos (b + 0x140) 2, rgLock (b + 0xFF0) ]

/-- RSV and DPT blocks (08_memory_tiers.md R264 to R280, R288). -/
def memRegs : List RegSpec :=
  [ rg 0x2800000 1 [fldR 7 0 .rwl 1 255], rgLock 0x2800FF0,
    ⟨0x2801000, 8, 0x1000, 0, .n, []⟩, ⟨0x2801004, 8, 0x1000, 0, .n, []⟩,
    ⟨0x2801008, 8, 0x1000, 0, .n, []⟩, ⟨0x280100C, 8, 0x1000, 0, .n, []⟩,
    rg 0x2C00000 0x00181000 [fldR 23 16 .rwl 1 255, fldR 15 8 .rwl 1 255], rgRo 0x2C00004,
    rg 0x2C00010 0 [fld 7 0 .rw],
    ⟨0x2C00014, 1, 4, 0, .sec, [fld 23 0 .rw]⟩, ⟨0x2C00018, 1, 4, 0, .sec, [fld 23 0 .rw]⟩,
    ⟨0x2C0001C, 1, 4, 0, .sec, [fld 31 28 .rw, fld 15 8 .rw]⟩, rgLock 0x2C00FF0,
    ⟨0x2C01000, 4, 0x1000, 0, .n, []⟩, ⟨0x2C01004, 4, 0x1000, 0, .n, [fld 2 0 .rw]⟩,
    ⟨0x2C01008, 4, 0x1000, 0, .n, []⟩, ⟨0x2C0100C, 4, 0x1000, 0, .n, []⟩,
    ⟨0x2C01010, 4, 0x1000, 0, .n, []⟩, ⟨0x2C01014, 4, 0x1000, 0, .n, []⟩ ]

/-- FAB and PAIR blocks (11_tray_fabric.md R387 to R392; 12_mirrored_pairs.md R413 to R417). -/
def fabRegs : List RegSpec :=
  [ rg 0x3000000 0xFFFF0000 [fld 31 16 .rwl], rg 0x3000004 0x00050007 [fldR 23 16 .rwl 1 255, fld 10 8 .rwl, fld 2 0 .rwl],
    rgRo 0x3000008, rg 0x3000010 0 [fld 7 4 .rw, fld 2 0 .rw], rgRos 0x3000014 4,
    rg 0x3000030 0 [fld 2 0 .rw], rgRo 0x3000034, rgRos 0x3000040 3, rgRos 0x3000050 5,
    rg 0x3000100 0 [fld 31 31 .rw, fld 10 0 .rw], rg 0x3000104 0 [fld 2 2 .w1c],
    rg 0x3000110 0 [fld 31 12 .rw], rg 0x3000114 0 [fld 31 0 .rw], rg 0x3000118 0 [fld 4 0 .rw],
    rg 0x3000120 0 [fld 31 12 .rw], rg 0x3000124 0 [fld 31 0 .rw], rg 0x3000128 0 [fld 4 0 .rw],
    rg 0x3000130 0 [fld 31 12 .rw], rg 0x3000134 0 [fld 31 0 .rw], rg 0x3000138 0 [fld 4 0 .rw],
    rg 0x3000140 0 [fld 15 0 .wo], rg 0x3000144 0 [fld 15 0 .wo], rg 0x3000148 0 [fld 15 0 .wo],
    rgRos 0x3000150 3, rgLock 0x3000FF0,
    rg 0x3400000 0x1140ACC0 [fld 31 31 .rwl, fld 30 28 .rwl, fldR 27 21 .rwl 2 100, fldR 20 13 .rwl 1 255,
      fldR 12 7 .rw 1 50, fld 6 6 .rw],
    rg 0x3400004 0x42 [fldR 31 20 .rwl 0 2048, fld 6 4 .rwl, fld 2 0 .rwl], rgRo 0x3400008,
    ⟨0x340000C, 1, 4, 0, .sec, [fld 1 0 .wo]⟩, rg 0x3400010 0 [fldR 15 0 .rw 0 4095],
    rg 0x3400014 0 [fld 31 30 .rw, fldR 15 0 .rw 0 4095], rg 0x3400020 0 [fld 0 0 .rw], rgRos 0x3400024 3,
    rgRos 0x3400040 4, rgLock 0x3400FF0 ]

/-- FLC window (16_flacon.md R528 to R531): selections are the hub's, everything else Flacon's. -/
def flcRegs : List RegSpec :=
  [ rgSecRos 0x3800000 1 [(15, 0)], rgSecRos 0x3800004 1 [(31, 0)], rgSecRos 0x3800008 1 [(26, 16), (5, 0)], rgSecRos 0x3800010 7 [(31, 0)],
    rg 0x3800030 0 [fld 12 0 .rw], rgSecRos 0x3800034 1 [(31, 31), (15, 0)], rgSecRos 0x3800038 2 [(31, 0)],
    rg 0x3800040 0 [fld 4 0 .rw], rgSecRos 0x3800044 1 [(31, 0)], rg 0x3800050 0 [fld 31 0 .rw], rgSecRos 0x3800054 1 [(31, 0)],
    rgSecRos 0x3800060 8 [(31, 0)] ]

/-- Every register of BAR0 (18 R562). -/
def regSpecs : List RegSpec :=
  hubRegs ++ islandRegs ++ secRegs ++ ctxRegs ++ engineRegs ++ baseRegs ++
    ((List.range 8).map stkRegs).flatten ++ memRegs ++ fabRegs ++ flcRegs

/-- Whether an offset is one of a row's registers. -/
def specHas (r : RegSpec) (off : Nat) : Bool :=
  decide (r.off ≤ off) && decide ((off - r.off) % r.stride = 0) && decide ((off - r.off) / r.stride < r.count)

/-- The row of a register; none where the offset is reserved (18 R555). -/
def specOf (off : Nat) : Option RegSpec := regSpecs.find? fun r => specHas r off

/-- The stored reset value of a register. -/
def regReset (off : Nat) : Word :=
  match specOf off with
  | some r => BitVec.ofNat 32 r.reset
  | none => 0

/-- The registers whose name ends in _SEL: each requester has its own copy (18 R557). -/
def selOffsets : List Nat :=
  [0x44, 0x810, 0x870, 0x100010, 0x100020, 0x200010, 0x200090, 0x400020, 0x400030, 0x400040, 0x400050,
   0x800200, 0x1000010, 0x1000040, 0x1800010, 0x1800020, 0x1800030, 0x1800040, 0x1800050, 0x1800060,
   0x1C00010, 0x2C00010, 0x3000010, 0x3000030, 0x3400010, 0x3400020, 0x3800030, 0x3800040, 0x3800050]

/-- Whether a register is banked by requester: the _SEL registers, the telemetry selections of the
stacks and the channel selections of the port dies among them (18 R557).
DEDUCED: notes/assumptions/17. -/
def isSel (off : Nat) : Bool :=
  selOffsets.contains off || (decide (0x2000000 ≤ off) && decide (off < 0x2800000) && off % 0x100000 = 0x104) ||
    (decide (0x2C01000 ≤ off) && decide (off < 0x2C05000) && off % 0x1000 = 4)

/-- The LOCK register of the block an offset lies in, none for a block without one (18 R561). -/
def lockOf (off : Nat) : Option Nat :=
  if off < 0x100000 then some 0xFF0
  else if off < 0x400000 then some (off / 0x100000 * 0x100000 + 0xFF0)
  else if off < 0x800000 then some 0x400FF0
  else if off < 0x1000000 then none
  else if off < 0x1400000 then some 0x1000FF0
  else if off < 0x1500000 then some 0x1400FF0
  else if off < 0x1800000 then none
  else if off < 0x1C00000 then some 0x1800FF0
  else if off < 0x2000000 then some 0x1C00FF0
  else if off < 0x2800000 then some (off / 0x100000 * 0x100000 + 0xFF0)
  else if off < 0x2C00000 then some 0x2800FF0
  else if off < 0x3000000 then some 0x2C00FF0
  else if off < 0x3400000 then some 0x3000FF0
  else if off < 0x3800000 then some 0x3400FF0
  else none

/-- The LOCK registers by lock group, group 1 first (18 R568). -/
def lockGroups : List (List Nat) :=
  [[0x100FF0, 0x200FF0, 0x300FF0], [0x2800FF0, 0x2C00FF0, 0x1800FF0],
   ((List.range 8).map fun n => 0x2000FF0 + n * 0x100000) ++ [0x1C00FF0],
   [0x3000FF0, 0x3400FF0], [0x1400FF0, 0x1000FF0], [0xFF0], [0x400FF0]]

end Sys2Proof.Machine
end

