-- ==== Sys2Proof/Machine/CoreState.lean ====
section
/-!
DEFINITION. The register file with its write log, the fault log and injection, host memory as the device
knows it, and the messages the device sends (18_register_map.md, 17_faults.md, 09_host_rings.md R326).
-/
namespace Sys2Proof.Machine

/-- One refused write (18 R558, R559). -/
structure WriteLogEntry where
  source : Nat
  offset : Nat
  data : Word
  status : Nat
  gt : Nat
  deriving DecidableEq, Repr

/-- An entry of the MSI-X table (09_host_rings.md R293, R325): the address and data of its message, and its mask bit.
PRESUMED: notes/assumptions/71. -/
structure MsixEntry where
  addr : Nat := 0
  data : Word := 0
  masked : Bool := true
  deriving DecidableEq, Repr

/-- The registers of BAR0: stored values by offset (one equal to its reset value is not listed), the
selection registers and HI latches of each requester by bank * 2^26 + offset (18 R557), the number of
refused writes and the last of them, newest first: the 64 that can be read and those they replace in a tick (18 R559); and for each register the tick in which events last set W1C bits of it, with those
bits (00_scope.md R11); the tick of the last PLDM writes with their registers (18 R556); and the base's counts before the last tick that
updated them (07_skeltil_base.md R257); last, the MSI-X table by the PF's entry numbers and the entries whose pending bit is set (09
R293, R325). -/
structure RegFile where
  vals : List (Nat × Word)
  sels : List (Nat × Word)
  latches : List (Nat × Word)
  wlogCount : Nat
  wlog : List WriteLogEntry
  setAt : List (Nat × (Nat × Word)) := []
  pldm : Option (Nat × List Nat) := none
  before : List (Nat × (Nat × Word)) := []
  msix : List (Nat × MsixEntry) := []
  pba : List Nat := []
  deriving DecidableEq, Repr

/-- A fault record (17 R541). -/
structure FaultRec where
  seq : Nat
  boot : Nat
  cls : Nat
  alert : Bool
  injected : Bool
  permanent : Bool
  retained : Bool
  missed : Bool
  gtFault : Nat
  gtResume : Nat
  unit : Nat
  domains : Nat
  outcome : Nat
  cause : Nat
  addr : Nat
  detail : Nat
  ctxFailed : Nat
  deriving DecidableEq, Repr

/-- The fault log (17 R543 to R549): records oldest first, the last SEQ given, ALERT records overwritten
unacknowledged, records per class, the retention buffer, whether the log is in service, the port dies
that hold its two copies, the coalescing deadline, and whether what is recorded now belongs to the newest record (17 R538:
a field's loss is one fault). -/
structure FaultLog where
  recs : List FaultRec
  seq : Nat
  lost : Nat
  counts : List (Nat × Nat)
  retained : List FaultRec
  ok : Bool
  coalesce : Option Nat
  joined : Bool
  deriving DecidableEq, Repr

/-- Injection (17 R550, R551): the last status, whether one is being applied, and restores that are due,
each with its tick, its kind and its unit. -/
structure Inject where
  status : Nat
  busy : Bool
  restores : List (Nat × Nat × Nat)
  deriving DecidableEq, Repr

/-- What the device sends out; each carries the tick it was sent. In order: an MSI-X message of a function (its vector, address and data); a
PCIe event; a control frame of the base; a C3 packet at a router; a fabric request (bundle, link, peer, OP, tag,
address, claim, and the data with its mask or operands); a fabric completion (bundle, link, peer, tag, status,
RESULT, line); a completion delivered to its requester (status, RESULT, combined, poisoned, line); a negative
acknowledgement of a link; a keepalive; a time request; its answer; a message on a bundle; its answer (written or
refused); a lease message (device, message, pair, set, claim, expiry, valid); a mirror commit record for a
partner's context; an SPDM message; a message to Flacon (its number and body);
the cells the test port shifts out; and any other named action.
DESIGN CHOICE: notes/assumptions/74. -/
inductive Sent where
  | msix (fn vector addr : Nat) (data : Word)
  | pcie (what : String) (arg : Nat)
  | baseControl (kind : Nat) (channel value : Nat)
  | baseFrame (channel frame : Nat)
  | basePacket (endpoint header : Nat)
  | meshPacket (router dst reduction element attempt count expect : Nat)
  | fabReq (bundle link peer op tag addr claim : Nat) (mask : Option (BitVec 128)) (data : List Byte) (operand compare : BitVec 64)
  | fabDone (bundle link peer tag status result : Nat) (line : List Byte)
  | delivered (who : FabWho) (status result : Nat) (combined poison : Bool) (line : List Byte)
  | linkNak (bundle link expect : Nat)
  | keepalive (heard : Nat)
  | timeReq (peer : Nat)
  | timeAnswer (peer rx tx : Nat)
  | message (bundle tag : Nat) (body : List Byte)
  | messageAnswer (bundle tag : Nat) (written : Bool)
  | lease (dev op pair set claim expiry : Nat) (valid : Bool)
  | commit (ctx : Nat) (rec_ : Commit)
  | spdm (code : Nat) (body : List Byte)
  | flacon (n : Nat) (body : List Byte)
  | scan (cells : BitVec 2306)
  | plain (what : String) (arg : Nat)
  deriving DecidableEq, Repr

end Sys2Proof.Machine
end

