-- ==== Sys2Proof/Machine/MemState.lean ====
section
/-!
DEFINITION. The state of the memory dies: refresh, channels, the region table, zero-pending marks and contents
(08_memory_tiers.md R259 to R291).
-/
namespace Sys2Proof.Machine

/-- Refresh of a reservoir (08 R260, R266, R290): whether its temperature or self-timed refresh has put the 100 µs interval in force, the tick from which its
temperature has stayed at or below 82 °C, whether refresh runs self-timed, and the next row of each bank. -/
structure RsvState where
  hot : Bool := false
  calm : Option Nat := none
  self_ : Bool := false
  rows : List (Nat × Nat) := []
  deriving DecidableEq, Repr

/-- States of a channel (08 R279). -/
inductive ChState where
  | untrained | inService | failed | retraining
  deriving DecidableEq, Repr

/-- A board DRAM channel (08 R271, R279, R280): state, refresh-rate code last reported and that of the last retrain, retrains, the last
one's tick, whether a return from self refresh owes one; corrected and uncorrectable codewords, and ticks of uncorrectable ones within
the last second. -/
structure DramChan where
  st : ChState := .untrained
  refRate : Nat := 0
  rateAt : Nat := 0
  retrains : Nat := 0
  retrainAt : Nat := 0
  owed : Bool := false
  ce : Nat := 0
  ue : Nat := 0
  recent : List Nat := []
  deriving DecidableEq, Repr

/-- A port die's memory side (08 R278): its channels by number, self refresh, and whether the last entry into it
completed on all of them. -/
structure PortMem where
  chans : List (Nat × DramChan) := []
  sr : Bool := false
  srOk : Bool := false
  scrubs : Nat := 0
  deriving DecidableEq, Repr

/-- A region entry (08 R285, R288). -/
structure Region where
  base : Nat := 0
  limit : Nat := 0
  valid : Bool := false
  secure : Bool := false
  fabric : Bool := false
  lent : Bool := false
  domains : Nat := 0
  deriving DecidableEq, Repr

/-- Memory: reservoirs, port dies, the region table by entry, granules of T1 and T2 that are not zero-pending
(every other granule reads zero), contents by local address where they are not zero, and the population found at
training (log of the GiB per channel, ranks; 0 before). -/
structure Mem where
  rsv : List (Nat × RsvState) := []
  ports : List (Nat × PortMem) := []
  regions : List (Nat × Region) := [(0, ⟨0, 0xFFFFFF, true, true, false, false, 0⟩)]
  clean : List Nat := []
  cells : List (Nat × Byte) := []
  chLog : Nat := 0
  ranks : Nat := 0
  deriving DecidableEq, Repr

end Sys2Proof.Machine
end

