-- ==== Sys2Proof/Machine/PowerState.lean ====
section
/-!
DEFINITION. The state of the power controller: power domains, clocks, Drydown, holds and thermal latches
(14_power_clocks_thermal.md R446 to R476).
-/
namespace Sys2Proof.Machine

/-- States of a power domain (14 R473). -/
inductive PdState where
  | off | ramping | on | fault
  deriving DecidableEq, Repr

/-- Clock of an isolation domain (14 R452 to R454, R457, R468): the step in force; thermal and margin ceilings;
the Drydown stage in force for it; the step the idle PLLs are set to and whether they are locked; the step a
rising VCORE ramp leads to; the ticks at which the margin ceiling last fell for a warning and last rose, the
tick from which no THROTTLE latch is set, and the tick at which the VCORE ramp began. -/
structure ClkDom where
  step : Nat := 7
  thCeil : Nat := 0
  marginCeil : Nat := 0
  stage : Nat := 0
  pend : Option Nat := none
  locked : Bool := false
  ramp : Option Nat := none
  warnedAt : Nat := 0
  roseAt : Nat := 0
  coolAt : Nat := 0
  rampAt : Nat := 0
  deriving DecidableEq, Repr

/-- Replica paths of a compute die (14 R454, R469), by compute-die index: samples in a row under 8 % of each
replica, least slack, ticks of warnings in the last 10 s, and the ceiling it is pinned at. -/
structure Replica where
  low : List Nat := List.replicate 32 0
  minSlack : Nat := 0xFF
  warns : List Nat := []
  pinned : Option Nat := none
  deriving DecidableEq, Repr

/-- One threshold latch of a die (14 R463). -/
structure ThLatch where
  set : Bool := false
  c : Nat := 0
  r : Nat := 0
  deriving DecidableEq, Repr

/-- Thermal state of a die (14 R461 to R464, R476), by thermal die index: the latches of WARN, THROTTLE and
TRIP, SUSPECT with the ticks its excess began and ended at, failed sensors, the last governing temperature, own
highest, own mean and valid sensor count, the tick G last fell under 100 °C or THROTTLE last acted. -/
structure Therm where
  warn : ThLatch := {}
  throt : ThLatch := {}
  trip : ThLatch := {}
  suspect : Bool := false
  excess : Option Nat := none
  calm : Option Nat := none
  failed : List Nat := []
  gov : Int := 0
  ownMax : Int := 0
  ownMean : Int := 0
  sensors : Nat := 0
  hotSince : Option Nat := none
  deriving DecidableEq, Repr

/-- The power controller: power domains, those waiting to ramp (the first ramps until `rampBy`), domains'
clocks, replicas, dies' thermal state, reference state with the tick it was lost, power samples newest first
(1/16 W), VIN in mV and current in 10 mA, regulators' estimates by domain (voltage, power), stage in force and
requested, the tick it took effect everywhere, what each stage left at (power, tick), the tick of the last
evaluation that was not low, hold (0 none, 1 half, 2 full) since a tick, the domains it has ended in, and the tick of the
last boundary that raised the stage. -/
structure Pwr where
  pds : List (Nat × PdState) := []
  ramps : List Nat := []
  rampBy : Nat := 0
  clk : List (Nat × ClkDom) := []
  reps : List (Nat × Replica) := []
  therm : List (Nat × Therm) := []
  hotFields : List Nat := []
  refOk : Bool := true
  holdover : Option Nat := none
  halted : Bool := false
  samples : List Nat := []
  vinMv : Nat := 0
  iin : Nat := 0
  est : List (Nat × Nat) := []
  stage : Nat := 0
  wanted : Nat := 0
  stageAt : Nat := 0
  left : List (Nat × Nat × Nat) := []
  highAt : Nat := 0
  hold : Nat := 0
  holdSince : Nat := 0
  released : List Nat := []
  raisedAt : Option Nat := none
  deriving DecidableEq, Repr

end Sys2Proof.Machine
end

