-- ==== Sys2Proof/Machine/SecState.lean ====
section
/-!
DEFINITION. The state of the security block (13_tenancy_security.md R419 to R445) and of resets and boot
(15_reset_boot.md).
-/
namespace Sys2Proof.Machine

/-- TDISP states of a VF (13 R431, R445). -/
inductive TdiState where
  | unlocked | lockedCfg | run | error
  deriving DecidableEq, Repr

/-- How far an SPDM exchange has gone on a path (13 R430): version, capabilities, algorithms, key
exchange, session. -/
structure Spdm where
  version : Bool := false
  caps : Bool := false
  algs : Bool := false
  exchanged : Bool := false
  session : Bool := false
  deriving DecidableEq, Repr

/-- Shares of a domain as SET_DOMAIN names them (13 R422, R423). -/
structure DomShares where
  t1 : Nat
  t2 : Nat
  bw : Nat
  sil : Nat
  planes : Nat
  slots : Nat
  deriving DecidableEq, Repr

/-- A provisioning command (13 R422). -/
inductive SecCmd where
  | provision (ctx : Nat) (p : Prov)
  | unprovision (ctx : Nat)
  | setDomain (dom : Nat) (y : DomShares)
  | moveStack (stack dest : Nat)
  | slotSet (slot : Nat) (enable : Bool) (minSvn : Nat) (key : Nat × Nat)
  | setPolicy (strict : Bool)
  | unlisted (opcode : Nat)
  deriving DecidableEq, Repr

/-- The security block: signer slots, policy bits, TDI states and installed IDE keys by VF, the SPDM
responder's state on the two paths (0 PCIe DOE, 1 MCTP), boot
measurements, whether the image verified, its SVN, the fused floor as raised since manufacture, a stack move that
waits for its drain and reset, and the provisioning commands registered in this tick, each with whether it came on the management path. -/
structure Sec where
  slots : List SignerSlot := List.replicate 8 ⟨false, false, (0, 0), 0⟩
  strictTime : Bool := false
  mgmtOnly : Bool := false
  tdi : List (Nat × TdiState) := []
  ide : List (Nat × Nat) := []
  spdm : List (Nat × Spdm) := []
  measurements : List (List Byte) := []
  bootOk : Bool := false
  imageSvn : Nat := 0
  floor : Nat := 0
  floorWanted : Nat := 0
  moving : Option (Nat × Option Nat) := none
  cmds : List (Bool × SecCmd) := []
  deriving DecidableEq, Repr

/-- Resets and boot: sampled straps, images still to try, the image being tried, the image a boot
watchdog ended, the boot watchdog, the firmware watchdog, the cooling wait, the warm-up limit and the tick
from which every field has been warm, a recovery read in progress, whether a reset of warm scope runs,
and whether memory of each port die survived in self refresh. -/
structure Rst where
  bootSrc : Nat := 0
  clkMode : Nat := 0
  trayPos : Nat := 0
  images : List Nat := []
  image : Nat := 0
  ended : Option Nat := none
  bootBy : Option Nat := none
  wdtBy : Option Nat := none
  coolBy : Option Nat := none
  warmBy : Option Nat := none
  warmSince : Option Nat := none
  recovering : Bool := false
  warmReset : Bool := false
  tripped : Bool := false
  srOk : List Nat := []
  deriving DecidableEq, Repr

end Sys2Proof.Machine
end

