-- ==== Sys2Proof/Machine/TapState.lean ====
section
/-!
DEFINITION. The state of the test access port (19_package_pins.md R592 to R595).
-/
namespace Sys2Proof.Machine

/-- The dynamic addresses of the hub's and Flacon's I3C targets; none until one is assigned (19_package_pins.md R586). -/
structure I3c where
  hub : Option Nat := none
  flc : Option Nat := none
  deriving DecidableEq, Repr

/-- What the instruction register holds (19 R594). -/
inductive TapInstr where
  | extest | idcode | samplePreload | highz | clamp | extestPulse | extestTrain | bypass
  deriving DecidableEq, Repr

/-- The port: its instruction, the update latch of the boundary-scan register, the level of COLD_RST# (true: low), and
whether a boot waits for the port (19 R595). -/
structure Tap where
  ir : TapInstr := .idcode
  cells : BitVec 2306 := 0#2306
  coldLow : Bool := true
  bootWaits : Bool := false
  deriving DecidableEq, Repr

end Sys2Proof.Machine
end

