-- ==== Sys2Proof/Machine/State.lean ====
section
/-!
DEFINITION. The whole state of the device, its stops, and the state after reset.
-/
namespace Sys2Proof.Machine

/-- Why the model would stop with a fault. -/
inductive Fault where
  /-- Raised by no meaning: every command of the device has an effect or leaves the state as it is. Safe. -/
  | stuck
  deriving DecidableEq, Repr

/-- Why a command has no meaning. -/
inductive Refusal where
  /-- Raised by an arm of `exec` whose command has no meaning yet. Safe. -/
  | notModelled (mnemonic : String)
  deriving DecidableEq, Repr

/-- The state of the device: the commands that wait, and everything the spec gives the machine. -/
structure State where
  /-- Commands that wait, the next one first. -/
  pending : List Instr
  /-- GT, in ticks (01 R26). -/
  gt : Nat
  /-- The number of free values drawn (the model's own field). -/
  free : Nat
  /-- Cold resets since manufacture (17 R541 BOOT). -/
  boots : Nat
  /-- The registers of BAR0 (18 R554 to R571). -/
  rf : RegFile
  /-- The fault log (17 R541 to R549). -/
  flt : FaultLog
  /-- Fault injection (17 R550, R551). -/
  inj : Inject
  /-- Host memory as the device has read and written it, by address space * 2^64 + address. -/
  hostMem : List (Nat × Byte)
  /-- What the device has sent out, with its tick, newest first (the model's own record). -/
  sent : List (Nat × Sent)
  /-- The contexts that differ from an unused one (09, 13). -/
  ctxs : List (Nat × Ctx)
  /-- Formula instances by handle (04 R111). -/
  insts : List (Nat × Inst)
  /-- The device's queue of management descriptors, oldest first: the tick each was admitted in and its context (04 R112). -/
  mgmt : List (Nat × Nat)
  /-- Dies, stacks, meshes and domains (01, 03, 17). -/
  arr : Arr
  /-- The Placement Director (05). -/
  plc : Plc
  /-- The security block (13). -/
  sec : Sec
  /-- Resets and boot (15). -/
  rst : Rst
  /-- Mirrored pairs (12). -/
  pair : PairBlock
  /-- The Sillage key-scan (06). -/
  sil : Sil
  /-- The tray fabric (11). -/
  fab : Fab
  /-- The power controller (14). -/
  pwr : Pwr
  /-- The Skeltil base (07). -/
  base : Base
  /-- The memory tiers (08). -/
  mem : Mem
  /-- DMA channels and check-value engines (10). -/
  dma : Dma
  /-- Flacon, and the hub's side of its link (16). -/
  flc : Flc
  /-- The test access port (19). -/
  tap : Tap
  /-- The I3C targets' dynamic addresses (19 R586). -/
  i3c : I3c
  deriving DecidableEq, Repr

/-- The outcome of a command. -/
abbrev Out := Host.Outcome State Fault Refusal

/-- The device right after a standby power-on: before its first cold reset's boot begins.
DESIGN CHOICE: notes/assumptions/2, 4. -/
def State.reset : State where
  pending := []
  gt := 0
  free := 0
  boots := 1
  rf := ⟨[(0x300000, 1#32)], [], [], 0, [], [], none, [], [], []⟩
  flt := ⟨[], 0, 0, [], [], false, none, false⟩
  inj := ⟨0, false, []⟩
  hostMem := []
  sent := []
  ctxs := []
  insts := []
  mgmt := []
  arr := {}
  plc := {}
  sec := {}
  rst := {}
  pair := {}
  sil := {}
  fab := {}
  pwr := {}
  base := {}
  mem := {}
  dma := {}
  flc := { ring := [⟨1, 0x04, true, 0, 0, 0, 1⟩], jrnSeq := 1 }
  tap := {}
  i3c := {}

end Sys2Proof.Machine
end

