-- ==== Sys2Proof/Machine/Ops.lean ====
section
/-!
DEFINITION. Named operations over the state that every family shares: registers, messages, host memory,
contexts and their completion rings, events, fault records.
-/
namespace Sys2Proof.Machine

/-- The stored value of a register. -/
def regVal (s : State) (off : Nat) : Word := tabGet s.rf.vals (regReset off) off

/-- Stores a register, listing it only where it differs from its reset value. -/
def regPut (s : State) (off : Nat) (v : Word) : State :=
  { s with rf := { s.rf with vals := tabSet s.rf.vals (regReset off) off v } }

/-- Bits hi..lo of a stored register. -/
def regBits (s : State) (off hi lo : Nat) : Nat := bits (regVal s off) hi lo

/-- Sets bits hi..lo of a stored register. -/
def regSetBits (s : State) (off hi lo v : Nat) : State := regPut s off (setBits (regVal s off) hi lo v)

/-- The W1C bits of a register that events set in this tick (00_scope.md R11). -/
def setNow (s : State) (off : Nat) : Word :=
  match tabFind s.rf.setAt off with
  | some (t, m) => if t = s.gt then m else 0#32
  | none => 0#32

/-- Notes that an event sets W1C bits of a register in this tick: a write of the tick does not clear them (00_scope.md R11). -/
def noteSet (s : State) (off : Nat) (m : Word) : State :=
  { s with rf := { s.rf with setAt := tabPut s.rf.setAt off (s.gt, setNow s off ||| m) } }

/-- An event sets a W1C bit of a register. -/
def raiseBit (s : State) (off b : Nat) : State := noteSet (regSetBits s off b b 1) off (BitVec.ofNat 32 (2 ^ b))

/-- The counts of the base (07 R257). -/
def baseCount (off : Nat) : Bool := decide (0x1800080 ≤ off) && decide (off ≤ 0x18000A4)

/-- The value of a count before this tick's updates, which a read of the tick returns (07 R257).
DEDUCED: notes/assumptions/117. -/
def countBefore (s : State) (off : Nat) : Word :=
  match tabFind s.rf.before off with | some (t, v) => if t = s.gt then v else regVal s off | none => regVal s off

/-- Notes a count of the base before the first update of a tick (07 R257). -/
def noteCount (s : State) (off : Nat) : State :=
  { s with rf := { s.rf with before := if baseCount off then tabPut s.rf.before off (s.gt, countBefore s off) else s.rf.before } }

/-- Adds to a 32-bit count that saturates at all ones. -/
def bump (s : State) (off n : Nat) : State := regPut (noteCount s off) off (BitVec.ofNat 32 (satAdd 32 (regVal s off).toNat n))

/-- The 64-bit count of a LO and HI pair. -/
def count64 (s : State) (lo : Nat) : Nat := (regVal s lo).toNat + 2 ^ 32 * (regVal s (lo + 4)).toNat

/-- Adds to a 64-bit count that saturates at all ones. -/
def bump64 (s : State) (lo n : Nat) : State :=
  let v := satAdd 64 (count64 s lo) n
  regPut (regPut (noteCount (noteCount s lo) (lo + 4)) lo (BitVec.ofNat 32 (v % 2 ^ 32))) (lo + 4) (BitVec.ofNat 32 (v / 2 ^ 32))

/-- The bank of a requester for selections and latches (18 R557).
DEDUCED: notes/assumptions/17. -/
def bankOf : Requester → Nat
  | .host => 0 | .mgmt => 1 | .cores => 2 | .secure => 2

/-- A requester's copy of a selection register (18 R557). -/
def selVal (s : State) (r : Requester) (off : Nat) : Word :=
  tabGet s.rf.sels (regReset off) (bankOf r * 2 ^ 26 + off)

/-- Sets a requester's copy of a selection register. -/
def selPut (s : State) (r : Requester) (off : Nat) (v : Word) : State :=
  { s with rf := { s.rf with sels := tabSet s.rf.sels (regReset off) (bankOf r * 2 ^ 26 + off) v } }

/-- Logs a refused write (18 R558, R559). -/
def logRefused (s : State) (r : Requester) (off : Nat) (data : Word) (status : Nat) : State :=
  let src := match r with | .host => 0 | .mgmt => 1 | .cores => 2 | .secure => 3
  { s with rf := { s.rf with
      wlogCount := s.rf.wlogCount + 1
      wlog := (⟨src, off, data, status, s.gt⟩ :: s.rf.wlog).take 128 } }

/-- Records something the device sends.
DESIGN CHOICE: notes/assumptions/74. -/
def send (s : State) (m : Sent) : State := { s with sent := (s.gt, m) :: s.sent }

/-- Draws a free value.
DESIGN CHOICE: notes/assumptions/11. -/
def drawFree (s : State) : Word × State := (Config.freeWord s.free, { s with free := s.free + 1 })

/-- The commands that are the end of one of the device's own timers. -/
def isTimer : Instr → Bool
  | .collectiveTimeout _ | .accordReadyTimeout _ | .sliceEnd _ | .stepOverrun _ | .holdTimerExpiry _ | .deadlineExpiry _
  | .coalesceTimerExpiry _ | .capacityWaitTimer _ | .calibrationDue _ none | .calibrationRetry _ _ | .mergeWindowExpiry _ _
  | .epMergeWindowExpiry _ _ _ | .laserGate _ _ | .refreshIntervalRelax _ | .retryGapExpiry _ | .hostCompletionTimeout _
  | .linkTrainTimeout _ _ | .requestPoisonTimeout _ _ | .peerKeepaliveTimeout _ | .timeExchangeTimer | .gtSlew | .mirrorAckTimeout _
  | .leaseRenewTimer _ | .leaseGuardStop _ | .leaseExpiry _ _ | .halfHoldTimeout | .drydownEvaluation | .marginRecovery _ | .throttleStep _
  | .thermalCeilingRise _ | .keepaliveSend | .powerDomainRampDone _ | .holdoverExpiry | .tripCoolExpiry | .bootWatchdogExpiry | .watchdogExpiry
  | .suspendExpiry _ | .warmupTimeout | .heartbeatTimeout _ | .admissionStallTimeout | .faultLogCoalesceExpiry => true
  | _ => false

/-- Whether no event but ends of timers waits in this tick. -/
def quiet (s : State) : Bool := s.pending.all isTimer

/-- Whether a timer that expires in tick `t` has run out (01 R28, R29): its tick has passed, or is this one and no arrival of the tick is
left to act before it. -/
def ranOut (s : State) (t : Nat) : Bool := decide (t < s.gt) || (decide (t = s.gt) && quiet s)

/-- Whether a block's LOCK bit is set (00_scope.md R10). -/
def locked (s : State) (off : Nat) : Bool :=
  match lockOf off with
  | some l => (regVal s l).getLsbD 0
  | none => false

/-- RST_BOOT.READY (15_reset_boot.md R504). -/
def bootReady (s : State) : Bool := (regVal s 0x300014).getLsbD 31

/-- A context. -/
def ctxOf (s : State) (c : Nat) : Ctx := tabGet s.ctxs Ctx.off c

/-- Replaces a context. -/
def setCtx (s : State) (c : Nat) (k : Ctx) : State := { s with ctxs := tabSet s.ctxs Ctx.off c k }

/-- Changes a context. -/
def modCtx (s : State) (c : Nat) (f : Ctx → Ctx) : State := setCtx s c (f (ctxOf s c))

/-- The CTX_VFMAP register of slot `i` of VF `v` (09 R294). -/
def vfmapOff (v i : Nat) : Nat := 0x804000 + ((v - 1) * 64 + i) * 4

/-- The context slot `i` of VF `v` maps (09 R294). -/
def slotCtx (s : State) (v i : Nat) : Option Nat :=
  let w := regVal s (vfmapOff v i)
  if v = 0 then none else if w.getLsbD 31 then some (bits w 15 0) else none

/-- The VF whose slot maps a context, 0 for the PF (09 R294, R295). -/
def fnOf (s : State) (c : Nat) : Nat :=
  match s.rf.vals.find? fun e => decide (0x804000 ≤ e.1) && decide (e.1 < 0x807F00) && e.2.getLsbD 31 && bits e.2 15 0 == c with
  | some e => (e.1 - 0x804000) / 256 + 1
  | none => 0

/-- Contexts of a function. -/
def ctxsOfFn (s : State) (v : Nat) : List Nat := (s.ctxs.map Prod.fst).filter fun c => fnOf s c = v

/-- The BARs are not served: until READY after a reset of warm scope (15_reset_boot.md R480).
DEDUCED: notes/assumptions/18. -/
def barsOff (s : State) : Bool := s.rst.warmReset && !bootReady s

/-- The context a page serves (09 R293, R295): none where the page reads zero and ignores writes. -/
def pageCtx (s : State) : PageRef → Option Nat
  | .pf c => if fnOf s c.toNat = 0 && !barsOff s then some c.toNat else none
  | .vf v i => if v = 0#6 || barsOff s then none else slotCtx s v.toNat i.toNat

/-- The address space of a context's host memory: its function's requester ID and its PASID (09 R295,
R299). -/
def spaceOf (s : State) (c : Nat) : Nat :=
  let k := ctxOf s c
  fnOf s c * 2 ^ 21 + (if k.pasidEn then 2 ^ 20 + k.pasid else 0)

/-- One byte of host memory; a byte the device has neither read nor written reads 0.
DESIGN CHOICE: notes/assumptions/5. -/
def hostByte (s : State) (space addr : Nat) : Byte := tabGet s.hostMem 0#8 (space * 2 ^ 64 + addr)

/-- `n` bytes of host memory. -/
def hostBytes (s : State) (space addr n : Nat) : List Byte := (List.range n).map fun i => hostByte s space (addr + i)

/-- Stores bytes in a table of bytes. -/
def putBytes (m : List (Nat × Byte)) (a : Nat) : List Byte → List (Nat × Byte)
  | [] => m
  | b :: bs => putBytes (tabSet m 0#8 a b) (a + 1) bs

/-- Writes bytes of host memory. -/
def hostWrite (s : State) (space addr : Nat) (bs : List Byte) : State :=
  { s with hostMem := putBytes s.hostMem (space * 2 ^ 64 + addr) bs }

/-- Whether a VF is in use: a slot of it maps a context.
DEDUCED: notes/assumptions/6. -/
def vfEnabled (s : State) (v : Nat) : Bool :=
  s.rf.vals.any fun e => decide (vfmapOff v 0 ≤ e.1) && decide (e.1 ≤ vfmapOff v 63) && e.2.getLsbD 31

/-- Signals a vector of a function (09 R325): its message is sent, or while it is masked its pending bit is set; the PF sends none through an
entry of an enabled VF.
PRESUMED: notes/assumptions/71. -/
def signalVector (s : State) (f v : Nat) : State :=
  let e := tabGet s.rf.msix {} (32 * f + v)
  if f = 0 && 32 ≤ v && vfEnabled s (v / 32) then s
  else if e.masked then { s with rf := { s.rf with pba := ascending ((32 * f + v) :: s.rf.pba.filter (· ≠ 32 * f + v)) } }
  else send s (.msix f v e.addr e.data)

/-- A context's arithmetic counts rise, saturating (02_arithmetic.md R55). -/
def raiseArith (gt : Nat) (k : Ctx) (x : ArithRise) : Ctx :=
  let old := if k.rise.at_ = gt then k.rise else {}
  { k with
    flush := satAdd 64 k.flush x.flush, truncTerms := satAdd 64 k.truncTerms x.trunc
    reissue := satAdd 16 k.reissue x.reissue, special := satAdd 16 k.special x.special
    rise := ⟨gt, satAdd 64 old.flush x.flush, satAdd 64 old.trunc x.trunc, satAdd 16 old.reissue x.reissue, satAdd 16 old.special x.special⟩ }

/-- Sends a context's MSI-X message through its function's vector (09 R302, R325, R326). -/
def sendMsix (s : State) (c : Nat) : State := signalVector s (fnOf s c) (bits (ctxOf s c).irqNow 10 0)

/-- Entries of a ring of a size given by its logarithm. -/
def ringSize (log : Nat) : Nat := 2 ^ log

/-- Completion slots that are neither written and unreleased nor reserved (09 R315). -/
def freeSlots (k : Ctx) : Nat :=
  let n := ringSize k.cqLog
  let used := (k.cqTail + n - k.cqHead) % n
  n - 1 - used - k.queue.length

/-- The device writes completion entries of the context: it is enabled and no completion write failed
(09 R306, R328). -/
def writes (k : Ctx) : Bool := k.enabled && !k.noWrites

/-- What an entry does to the coalescing of a context (09 R302, R326): the new count and timer, and whether a message is sent; CTX_IRQ acts as
it is written from this entry on. -/
def coalesce (k : Ctx) (e : Entry) (gt : Nat) : Nat × Option Nat × Bool :=
  if !k.irq.getLsbD 31 then (0, none, false)
  else if e.atOnce then (0, none, true)
  else if !e.counts then (k.unsignalled, k.coalesce, false)
  else
    let n := k.unsignalled + 1
    let us := bits k.irq 30 21
    let lim := bits k.irq 20 13
    if lim ≤ 1 || us = 0 || lim ≤ n then (0, none, true)
    else (n, (match k.coalesce with | some t => some t | none => some (gt + us * 1000)), false)

/-- Writes a completion entry into the ring and signals it (09 R314, R315, R326). -/
def writeEntry (s : State) (c : Nat) (e : Entry) : State :=
  let k := ctxOf s c
  if !writes k then s
  else
    let n := ringSize k.cqLog
    let s1 := hostWrite s (spaceOf s c) (k.cqBase + 32 * k.cqTail)
      (entryBytes e k.cqPhase k.ver k.sqHead s.gt k.lostMark)
    let co := coalesce k e s.gt
    let t := k.cqTail + 1
    let s2 := setCtx s1 c { k with
      cqTail := if t = n then 0 else t
      cqPhase := if t = n then !k.cqPhase else k.cqPhase
      lostMark := false
      unsignalled := co.1
      coalesce := co.2.1
      irqNow := k.irq }
    if co.2.2 then sendMsix s2 c else s2

/-- Writes the events that wait while a slot is free for them (09 R318). -/
def flushEvents : Nat → State → Nat → State
  | 0, s, _ => s
  | fuel + 1, s, c =>
    let k := ctxOf s c
    match k.events with
    | [] => s
    | e :: es => if freeSlots k = 0 || k.paused then s else flushEvents fuel (writeEntry (setCtx s c { k with events := es }) c e) c

/-- Sends an event to a context (09 R317, R318): at most 64 wait for a slot, a further one is counted and
marked. A context that is not enabled receives none. -/
def event (s : State) (c : Nat) (e : Entry) : State :=
  let k := ctxOf s c
  if !writes k then s
  else if k.events.length ≥ 64 then setCtx s c { k with evtLost := satAdd 32 k.evtLost 1, lostMark := true }
  else flushEvents 65 (setCtx s c { k with events := k.events ++ [e] }) c

/-- Sends an event to each context of a list. -/
def eventAll (s : State) (cs : List Nat) (e : Entry) : State := cs.foldl (fun t c => event t c e) s

/-- GUARANTEE_YIELDED (01 R32, 09 R317): the rank broken, the rank kept, begin and end. -/
def yielded (s : State) (c broken kept start stop : Nat) : State :=
  event s c (evtEntry 0x01 (broken * 16 + kept) stOk (start + 2 ^ 64 * stop))

/-- Statuses of later chapters. -/
def stQuota : Nat := 0x05
def stHostAddr : Nat := 0x06
def stTruncated : Nat := 0x07
def stDeadline : Nat := 0x08
def stPoison : Nat := 0x30
def stMsgRefused : Nat := 0x31
def stStaleClaim : Nat := 0x32
def stMirrorCrc : Nat := 0x33
def stSecRefused : Nat := 0x34
def stSchedInfeasible : Nat := 0x35

/-- The domain of a context, as provisioned (13 R419). -/
def domOfCtx (s : State) (c : Nat) : Option Nat := (ctxOf s c).prov.map Prov.dom

/-- A domain. -/
def domOf (s : State) (d : Nat) : Dom := tabGet s.arr.doms {} d

/-- Replaces a domain. -/
def setDom (s : State) (d : Nat) (x : Dom) : State := { s with arr := { s.arr with doms := tabSet s.arr.doms {} d x } }

/-- Changes a domain. -/
def modDom (s : State) (d : Nat) (f : Dom → Dom) : State := setDom s d (f (domOf s d))

/-- A stack. -/
def stackOf (s : State) (n : Nat) : Stack := tabGet s.arr.memStacks {} n

/-- Replaces a stack. -/
def setStack (s : State) (n : Nat) (x : Stack) : State := { s with arr := { s.arr with memStacks := tabSet s.arr.memStacks {} n x } }

/-- Changes a stack. -/
def modStack (s : State) (n : Nat) (f : Stack → Stack) : State := setStack s n (f (stackOf s n))

/-- A die, by the index of 17 R542. -/
def dieOf (s : State) (i : Nat) : Die := tabGet s.arr.dies {} i

/-- Replaces a die. -/
def setDie (s : State) (i : Nat) (x : Die) : State := { s with arr := { s.arr with dies := tabSet s.arr.dies {} i x } }

/-- Changes a die. -/
def modDie (s : State) (i : Nat) (f : Die → Die) : State := setDie s i (f (dieOf s i))

/-- Whether a die is in service. -/
def dieUp (s : State) (i : Nat) : Bool := (dieOf s i).st = .inService

/-- Stacks of a domain (01 R18). -/
def stacksOf (s : State) (d : Nat) : List Nat := (List.range 8).filter fun n => (stackOf s n).domain = some d

/-- The capacity state of a stack (kind 0), reservoir (1) or port die (2). -/
def capOf (s : State) (kind n : Nat) : CapState := tabGet s.plc.caps .inService (kind * 8 + n)

/-- Stacks of a domain whose lower die is in service, that do not drain and that its tilings include: those an
operation runs on (05_placement.md R163, R171). -/
def liveStacks (s : State) (d : Nat) : List Nat :=
  (stacksOf s d).filter fun n => dieUp s n && !(stackOf s n).fresh && capOf s 0 n = .inService

/-- Contexts provisioned in a domain. -/
def ctxsOfDom (s : State) (d : Nat) : List Nat :=
  (s.ctxs.filter fun e => match e.2.prov with | some p => p.dom = d | none => false).map Prod.fst

/-- The first multiple of 10 at or after a tick (01 R20). -/
def accordTick (t : Nat) : Nat := (t + 9) / 10 * 10

/-- The classes whose records always carry ALERT (17 R541). -/
def alwaysAlert (cls : Nat) : Bool := [0x14, 0x15, 0x16, 0x17, 0x18].contains cls

/-- Interruption bounds in ticks (17 R534); none where the class is not bounded.
DESIGN CHOICE: notes/assumptions/72. -/
def faultBound (cls : Nat) : Option Nat :=
  match cls with
  | 0x06 => some 30000 | 0x07 => some 15000 | 0x0E => some 15000 | 0x10 => some 30000
  | 0x08 | 0x09 | 0x0A | 0x0B | 0x0C | 0x12 | 0x13 | 0x15 => some 40000
  | _ => none

/-- Whether a record asserts ALERT# (17 R541): its class takes a unit out of service or interrupts a
domain, or is one of the five that always do. -/
def alertOf (cls outcome : Nat) (interrupts : Bool) : Bool :=
  alwaysAlert cls || ((decide (outcome = 3) || decide (outcome ≥ 4) || interrupts) &&
    !([0x01, 0x03, 0x0E].contains cls && decide (outcome ≤ 2)))

/-- What a fault record is formed from (17 R541). -/
structure FaultArgs where
  cls : Nat
  unit : Nat
  outcome : Nat
  domains : List Nat := []
  interrupts : Bool := false
  cause : Nat := 0
  addr : Nat := 0
  detail : Nat := 0
  ctxFailed : Nat := 0
  permanent : Bool := false
  injected : Bool := false
  since : Option Nat := none

/-- A UNIT value (17 R542). -/
def unitId (kind index : Nat) : Nat := kind * 2 ^ 26 + index

/-- Sends the PF's fault-log message, or arms its coalescing (17 R545, R547). -/
def faultIrq (s : State) (alert : Bool) : State :=
  let cfg := regVal s 0x800
  if !cfg.getLsbD 31 then s
  else if alert then signalVector s 0 (bits cfg 10 0)
  else match s.flt.coalesce with
    | some _ => s
    | none => { s with flt := { s.flt with coalesce := some (s.gt + 1000 * bits cfg 25 16) } }

/-- Puts a record into the ring of 65,536 (17 R543): the oldest is overwritten, and counted if it was an
ALERT record above HUB_FLT_ACK. -/
def appendRecord (s : State) (r : FaultRec) : State :=
  let f := s.flt
  let full := decide (f.recs.length ≥ 65536)
  let lostOne := match f.recs with
    | [] => false
    | o :: _ => full && o.alert && decide ((regVal s 0x80C).toNat < o.seq)
  { s with flt := { f with
      recs := (if full then f.recs.drop 1 else f.recs) ++ [r]
      lost := satAdd 32 f.lost (b2n lostOne)
      counts := tabMod f.counts 0 r.cls fun n => satAdd 32 n 1 } }

/-- Keeps a record in the retention buffer of 32 (17 R544). -/
def retainRecord (s : State) (r : FaultRec) : State :=
  { s with flt := { s.flt with retained :=
      (if s.flt.retained.length ≥ 32 then s.flt.retained.drop 1 else s.flt.retained) ++ [r] } }

/-- The record of a fault under the next SEQ (17 R541). -/
def recordOf (s : State) (a : FaultArgs) : FaultRec :=
  { seq := s.flt.seq + 1, boot := s.boots % 65536, cls := a.cls, alert := alertOf a.cls a.outcome a.interrupts,
    injected := a.injected || s.inj.busy, permanent := a.permanent, retained := false, missed := false, gtFault := a.since.getD s.gt, gtResume := 0,
    unit := a.unit, domains := bitmap 8 a.domains.contains, outcome := a.outcome, cause := a.cause, addr := a.addr,
    detail := a.detail, ctxFailed := a.ctxFailed }

/-- Domains that a fault interrupts fill GT_RESUME of its record when they resume. -/
def awaitResume (s : State) (a : FaultArgs) (seq : Nat) : State :=
  if a.interrupts then a.domains.foldl (fun t d => modDom t d fun x => { x with resumes := x.resumes ++ [seq], lastFaultGt := s.gt }) s else s

/-- A part of a fault already recorded (17 R532, R538): its record takes the domains and requests the part affects. -/
def joinFault (s : State) (a : FaultArgs) : State :=
  let upd (r : FaultRec) : FaultRec :=
    if r.seq = s.flt.seq then { r with domains := r.domains ||| bitmap 8 a.domains.contains, detail := r.detail + a.detail, ctxFailed := r.ctxFailed + a.ctxFailed } else r
  awaitResume { s with flt := { s.flt with recs := s.flt.recs.map upd, retained := s.flt.retained.map upd } } a s.flt.seq

/-- Writes a fault record and tells the host (17 R541 to R545). Until the log is in service the record
waits in the retention buffer. Domains that the fault interrupts fill GT_RESUME when they resume. -/
def fault (s : State) (a : FaultArgs) : State :=
  if s.flt.joined then joinFault s a
  else
    let r := recordOf s a
    let s1 := awaitResume { s with flt := { s.flt with seq := s.flt.seq + 1 } } a r.seq
    if s.flt.ok then faultIrq (appendRecord s1 r) r.alert else retainRecord s1 r

/-- A record the management island forms itself (17 R544): it stays in the retention buffer until boot
stage 0x6. -/
def islandFault (s : State) (a : FaultArgs) : State :=
  retainRecord { s with flt := { s.flt with seq := s.flt.seq + 1 } } { recordOf s a with retained := true }

/-- FAULT_NOTICE of the newest record to contexts (17 R545). -/
def faultNotice (s : State) (cs : List Nat) (cls : Nat) : State :=
  eventAll s cs (evtEntry 0x20 cls stOk (s.flt.seq + 2 ^ 32 * (s.boots % 65536) + 2 ^ 64 * s.gt))

/-- A domain resumes: the records that waited for it take GT_RESUME, and BOUND_MISSED where the bound
passed (17 R532, R541).
DESIGN CHOICE: notes/assumptions/72. -/
def resumeDomain (s : State) (d : Nat) (t : Nat) : State :=
  let x := domOf s d
  let upd (r : FaultRec) : FaultRec :=
    if x.resumes.contains r.seq then
      { r with gtResume := max r.gtResume t,
               missed := r.missed || (match faultBound r.cls with | some b => decide (b < t - r.gtFault) | none => false) }
    else r
  setDom { s with flt := { s.flt with recs := s.flt.recs.map upd } } d { x with resumes := [] }

/-- Whether an ALERT record lies above HUB_FLT_ACK: ALERT# is asserted (17 R545). -/
def alertPending (s : State) : Bool := s.flt.recs.any fun r => r.alert && decide ((regVal s 0x80C).toNat < r.seq)

/-- The TDI state of a VF (13_tenancy_security.md R431). -/
def tdiOf (s : State) (v : Nat) : TdiState := tabGet s.sec.tdi .unlocked v

/-- Whether a VF is assigned to a confidential guest: its TDI is locked or runs (09 R294, 13 R431). -/
def tdiLocked (s : State) (v : Nat) : Bool := tdiOf s v = .lockedCfg || tdiOf s v = .run

/-! ### Zero-pending granules (08_memory_tiers.md R287, R289) -/

/-- Changes the memory. -/
def modMem (s : State) (f : Mem → Mem) : State := { s with mem := f s.mem }

/-- Whether an address lies in T1 or T2: space that carries zero-pending marks (08 R287). -/
def marked (a : Nat) : Bool := decide (a < 0x140000000000)

/-- Granules that satisfy a test become zero-pending: they read zeros (08 R287). -/
def markPending (m : Mem) (p : Nat → Bool) : Mem :=
  { m with clean := m.clean.filter fun g => !p g, cells := m.cells.filter fun c => !(marked c.1 && p (c.1 / 2 ^ 21)) }

/-- The granules of a memory die, by its index: reservoirs 8 to 15, port dies 16 to 19 (08 R281). -/
def granuleOn (i g : Nat) : Bool := if i < 16 then decide (g / 2 ^ 12 = 2 ^ 11 + (i - 8)) else decide (g / 2 ^ 19 = i - 16)

/-- The contents of a memory die are lost: they are never read, its granules being zero-pending (08 R287, R289). -/
def loseContents (s : State) (i : Nat) : State := if 8 ≤ i ∧ i < 20 then modMem s fun m => markPending m (granuleOn i) else s

end Sys2Proof.Machine
end

