-- ==== Sys2Proof/Machine/Grade.lean ====
section
/-!
DEFINITION. The grade of a part and its tiles: order codes, fused-off tiles, tile IDs (00_scope.md R2 to R4;
03_harrel_stacks.md R66, R67).
-/
namespace Sys2Proof.Machine

/-- HUB_GRADE.ORDER (00 R2, 18_register_map.md R563). -/
def gradeOrder : Nat := match Config.grade with | 0 => 0x9620 | 1 => 0x9618 | 2 => 0x9614

/-- Enabled tiles of a grade (00 R2). -/
def gradeTiles (g : Fin 3) : Nat := match g with | 0 => 1536 | 1 => 1440 | 2 => 1344

/-- Enabled tiles that every compute die of a grade has at least (00 R2). -/
def gradeMinimum (g : Fin 3) : Nat := match g with | 0 => 96 | 1 => 88 | 2 => 80

/-- Whether a part's test would fuse tile `a` off before tile `b`, each numbered die * 96 + index. -/
def fusedBefore (a b : Nat) : Bool := decide (Config.fuseRank a < Config.fuseRank b) || (decide (Config.fuseRank a = Config.fuseRank b) && decide (a < b))

/-- Whether a tile is among those of its die that the grade's minimum leaves room to fuse off (00 R2). -/
def fuseCandidate (g : Fin 3) (t : Nat) : Bool :=
  decide (((List.range 96).countP fun i => fusedBefore (t / 96 * 96 + i) t) < 96 - gradeMinimum g)

/-- Whether a tile is fused off: the part has the tiles of its grade, no die fewer than its minimum, and which are off is the
part's own (00 R2, R3). -/
def fusedOff (g : Fin 3) (t : Nat) : Bool :=
  fuseCandidate g t && decide (((List.range 1536).countP fun u => fuseCandidate g u && fusedBefore u t) < 1536 - gradeTiles g)

/-- Whether tile index `t` of a die of stack `n` is enabled; `upper` selects the die (03 R88, R90). -/
def tileEnabled (n : Nat) (upper : Bool) (t : Nat) : Bool :=
  decide (t < 96) && !fusedOff Config.grade ((2 * n + if upper then 1 else 0) * 96 + t)

/-- Column of a tile ID (03 R66). -/
def tileX (t : Nat) : Nat := t / 8 % 16
/-- Row of a tile ID (03 R66). -/
def tileY (t : Nat) : Nat := t % 8
/-- Whether a tile ID names an upper die (03 R66). -/
def tileUp (t : Nat) : Bool := t / 128 % 2 = 1
/-- A tile ID from its stack, die, column and row (03 R66). -/
def tileId (n : Nat) (up : Bool) (x y : Nat) : Nat := n * 256 + (if up then 128 else 0) + x * 8 + y
/-- A lower-die tile ID from its stack, column and row (03 R66). -/
def tileAt (n x y : Nat) : Nat := n * 256 + x * 8 + y
/-- Whether a value is a tile ID: X from 12 to 15 is invalid (03 R66). -/
def tileValid (t : Nat) : Bool := decide (t < 2048) && decide (tileX t < 12)
/-- Whether a tile ID names an enabled tile. -/
def tileOn (t : Nat) : Bool := tileValid t && tileEnabled (t / 256) (tileUp t) (t % 128)
/-- The nearer edge row (03 R72). -/
def edgeRow (y : Nat) : Nat := if y < 4 then 0 else 7

end Sys2Proof.Machine
end

