-- ==== Sys2Proof/Machine/Routing.lean ====
section
/-!
DEFINITION. Routes of the on-die mesh, strip ports and bypass lanes, die-buffer slices, and the packets' headers
(03_harrel_stacks.md R66, R70 to R72, R79, R80).
-/
namespace Sys2Proof.Machine

/-- The slice of a die-buffer address (03 R70). -/
def sliceOf (a : Nat) : Nat := a / 4096 % 16
/-- The offset of a die-buffer address in its slice (03 R70). -/
def sliceOffset (a : Nat) : Nat := a / 65536 * 4096 + a % 4096
/-- The column of a slice's edge router. -/
def sliceX (s : Nat) : Nat := 2 + s % 8
/-- The edge row of a slice. -/
def sliceY (s : Nat) : Nat := if s < 8 then 0 else 7

/-- The router at which a packet leaves the mesh. -/
def dstRouter : MeshDst → Nat
  | .tile t => t
  | .slice n up s => tileId n up (sliceX s) (sliceY s)
  | .strip t => t
/-- The port by which it leaves: local port, slice or strip port (03 R93). -/
def dstPort : MeshDst → Nat
  | .tile _ => 5 | .slice .. => 7 | .strip _ => 6

/-- The strip port, or the strip end of the bypass lane, of an edge router (03 R74): its own place beside the die's tiles. -/
def stripOf (t : Nat) : Nat := t / 128 * 128 + 96 + tileX t * 2 + b2n (decide (tileY t ≠ 0))
/-- Whether a place is a strip port or the strip end of a bypass lane. -/
def isStrip (t : Nat) : Bool := decide (96 ≤ t % 128)
/-- The edge router of a strip port. -/
def edgeOf (p : Nat) : Nat := p / 128 * 128 + (p % 128 - 96) / 2 * 8 + (p % 2) * 7

/-- The number of a half-column's bypass lane in its stack. -/
def laneOf (t : Nat) : Nat := tileX t * 8 + edgeRow (tileY t)

/-- Where a packet is once it has left a router: at a neighbour, which it enters by a port; at its tile or slice; or at the
stack's base endpoint. -/
inductive MeshNext where
  | router (t inPort : Nat)
  | sink
  | base
  deriving DecidableEq, Repr

/-- One hop along X, none where the column agrees. -/
def hopX (t x : Nat) : Option (Nat × MeshNext) :=
  if tileX t < x then some (1, .router (t + 8) 0) else if x < tileX t then some (0, .router (t - 8) 1) else none
/-- One hop along Y, none where the row agrees. -/
def hopY (t y : Nat) : Option (Nat × MeshNext) :=
  if tileY t < y then some (3, .router (t + 1) 2) else if y < tileY t then some (2, .router (t - 1) 3) else none
/-- The vertical hop, none where the die agrees. -/
def hopZ (t : Nat) (up : Bool) : Option (Nat × MeshNext) :=
  if tileUp t = up then none else some (4, .router (if up then t + 128 else t - 128) 4)

/-- What lies behind port 6 of an edge router (03 R74): the base on the lower die, the strip end of the bypass lane on the upper. -/
def stripNext (t : Nat) : MeshNext := if tileUp t then .router (stripOf t) 6 else .base

/-- The output of a strip port (03 R72, R74): into its lower edge router, or by port 1 into the bypass lane, whose other end is the upper edge
router's port 6. The strip end of a lane hands to the base. -/
def stripRoute (dead : List Nat) (p : Nat) (d : MeshDst) : Nat × MeshNext :=
  if tileUp p then (6, .base)
  else if tileUp (dstRouter d) && !dead.contains (laneOf (dstRouter d)) then (1, .router (edgeOf p + 128) 6)
  else (0, .router (edgeOf p) 6)

/-- The output port of a router for a packet of a class, and where the packet is after it (03 R71, R72): each class keeps its
dimension order. A half-column whose bypass lane is not repaired sends its base traffic by the vertical link (R77). -/
def meshRoute (dead : List Nat) (t cls : Nat) (d : MeshDst) : Nat × MeshNext :=
  let r := dstRouter d
  let out : Nat × MeshNext := match d with | .strip _ => (6, stripNext t) | _ => (dstPort d, .sink)
  let x := hopX t (tileX r)
  let y := hopY t (tileY r)
  let z := hopZ t (tileUp r)
  if isStrip t then stripRoute dead t d
  else match cls with
    | 1 => (z.orElse fun _ => y).getD out
    | 2 => (hopY t (edgeRow (tileY t))).getD (if tileUp t && dead.contains (laneOf t) then (4, .router (t - 128) 4) else (6, stripNext t))
    | 3 => ((hopZ t false).orElse fun _ => x.orElse fun _ => y).getD out
    | _ => (x.orElse fun _ => y.orElse fun _ => z).getD out

/-- Where the base delivers a packet for a tile or slice (03 R72): the strip port of its column and nearer edge row. -/
def ingressAt (d : MeshDst) : Nat :=
  let r := dstRouter d
  stripOf (tileId (r / 256) false (tileX r) (edgeRow (tileY r)))

/-- The strip port by which a tile's base traffic leaves (03 R72), as its lower edge tile. -/
def egressAt (t : Nat) : Nat := tileAt (t / 256) (tileX t) (edgeRow (tileY t))

/-- Mesh cycles of a flit to the next input buffer (03 R74): a router's hop, the vertical link, the bypass lane. -/
def hopLatency (t port : Nat) : Nat := if isStrip t then (if port = 1 then 1 else 2) else if port = 4 || (port = 6 && tileUp t) then 1 else 2

/-- Where a C3 packet leaves the mesh of the stack it is in (03 R71): by the strip port of its destination's column for another
stack, or its destination's tile.
DEDUCED: notes/assumptions/22. -/
def c3Dst (n : Nat) (k : C3Key) : MeshDst :=
  if k.strip || decide (k.dst / 256 ≠ n) then .strip (tileAt n (tileX k.dst) (edgeRow (tileY k.dst))) else .tile k.dst

/-- The output port of a router for a C3 packet, and where the packet arrives after it (03 R71). -/
def c3Route (t : Nat) (k : C3Key) : Nat × C3Place :=
  let r := meshRoute [] t 3 (c3Dst (t / 256) k)
  (r.1, match r.2 with | .router u _ => .router u | .sink => .adder k.dst | .base => .egress (t / 256))

/-! ### Packets (R79, R80) -/

/-- The elements of a payload flit: four of XACC112, two of XACC144 (03 R79). -/
def perFlit (wide : Bool) : Nat := if wide then 2 else 4

/-- Whether a packet's fields are in their ranges and its payload fills its flits (03 R66, R79). -/
def packetOk (p : C3Packet) : Bool :=
  tileValid p.key.dst && tileValid p.src && (!p.key.strip || (!tileUp p.key.dst && (tileY p.key.dst = 0 || tileY p.key.dst = 7))) &&
    decide (1 ≤ p.count) && decide (p.count ≤ 1536) && decide (p.key.expect ≤ 1536) && decide (1 ≤ p.key.len) && decide (p.key.len ≤ 32) &&
    decide (p.data.length ≤ p.key.len * perFlit p.key.wide) && decide ((p.key.len - 1) * perFlit p.key.wide < p.data.length) &&
    decide (p.key.ctx < 65536) && decide (p.key.opseq < 65536) && decide (p.key.attempt < 16) && decide (p.key.offset < 2 ^ 24) &&
    decide (-512 ≤ p.key.we) && decide (p.key.we ≤ 511) && decide (p.flush < 2 ^ 32) && decide (p.trunc < 2 ^ 32)

/-- The 256-bit header of a C3 packet (03 R79). -/
def packetHeader (p : C3Packet) : Nat :=
  p.trunc * 2 ^ 224 + p.flush * 2 ^ 192 + p.count * 2 ^ 180 + p.key.expect * 2 ^ 168 + (p.key.we % 1024).toNat * 2 ^ 158 +
    b2n p.key.wide * 2 ^ 157 + p.key.ctx * 2 ^ 128 + p.key.offset * 2 ^ 104 + p.key.attempt * 2 ^ 100 + p.key.opseq * 2 ^ 84 +
    p.src * 2 ^ 45 + b2n p.key.strip * 2 ^ 44 + p.key.dst * 2 ^ 33 + p.key.len * 2 ^ 27 + 3 * 2 ^ 24

/-- The class of a routing word (03 R79). -/
def wordClass (h : Nat) : Nat := h / 2 ^ 24 % 8
/-- The payload flits of a routing word. -/
def wordLen (h : Nat) : Nat := h / 2 ^ 27 % 64
/-- The destination of a routing word: a strip port or a tile. -/
def wordDst (h : Nat) : MeshDst := if h / 2 ^ 44 % 2 = 1 then .strip (h / 2 ^ 33 % 2048) else .tile (h / 2 ^ 33 % 2048)
/-- The sender of a routing word. -/
def wordSrc (h : Nat) : Nat := h / 2 ^ 45 % 2048

/-- A C3 packet from its header and elements (03 R79); reserved bits are not read. -/
def packetOfHeader (h : Nat) (data : List Xacc) : C3Packet :=
  { key := { ctx := h / 2 ^ 128 % 65536, opseq := h / 2 ^ 84 % 65536, attempt := h / 2 ^ 100 % 16, strip := decide (h / 2 ^ 44 % 2 = 1),
             dst := h / 2 ^ 33 % 2048, offset := h / 2 ^ 104 % 2 ^ 24, len := wordLen h,
             we := if h / 2 ^ 167 % 2 = 1 then (h / 2 ^ 158 % 1024 : Nat) - 1024 else (h / 2 ^ 158 % 1024 : Nat),
             wide := decide (h / 2 ^ 157 % 2 = 1), expect := h / 2 ^ 168 % 4096 },
    src := wordSrc h, count := h / 2 ^ 180 % 4096, flush := h / 2 ^ 192 % 2 ^ 32, trunc := h / 2 ^ 224 % 2 ^ 32, data := data }

/-- The tag of a 2-bit code (02_arithmetic.md R46). -/
def tagOf (n : Nat) : Tag := match n % 4 with | 0 => .none | 1 => .posInf | 2 => .negInf | _ => .nan

/-- A raw XACC element from its container (02 R57). -/
def xaccOfBytes (wide : Bool) (bs : List Byte) : Xacc :=
  let w := if wide then 144 else 112
  ⟨(ofLeBytes (bs.take (w / 8)) : Int).bmod (2 ^ w), tagOf (ofLeBytes ((bs.drop (w / 8)).take 1))⟩

/-- One element of a payload: the 16-byte container, or a 32-byte slot whose last 8 bytes are zero (03 R79). -/
def slotBytes (wide : Bool) (x : Xacc) : List Byte :=
  if wide then xaccBytes .xacc144 x ++ List.replicate 8 0#8 else xaccBytes .xacc112 x

/-- The bytes of a packet: its header flit, of which bytes 32 to 63 are reserved, and its payload flits (03 R79). -/
def packetBytes (p : C3Packet) : List Byte :=
  leBytes 32 (packetHeader p) ++ List.replicate 32 0#8 ++ (p.data.map (slotBytes p.key.wide)).flatten

/-- A C3 packet from its flits; every slot of the payload is an element. -/
def packetOfBytes (bs : List Byte) : C3Packet :=
  let h := ofLeBytes (bs.take 32)
  let p := packetOfHeader h []
  let slot := if p.key.wide then 32 else 16
  { p with data := (pieces slot (p.key.len * perFlit p.key.wide) (bs.drop 64)).map (xaccOfBytes p.key.wide) }

/-- Two packets of one reduction merged at a router or endpoint (03 R80); a poisoned flit poisons the sum (R76). -/
def mergePackets (src : Nat) (a b : C3Packet) : C3Packet :=
  { a with src := src, count := a.count + b.count, flush := a.flush + b.flush, trunc := a.trunc + b.trunc,
           data := List.zipWith (xaccAdd (if a.key.wide then 144 else 112)) a.data b.data, poison := a.poison || b.poison, fixed := 0 }

end Sys2Proof.Machine
end

