-- ==== Sys2Proof/Machine/Tiling.lean ====
section
/-!
DEFINITION. Tilings: the classes of an instance's operations, the tilings of a domain and those for each single loss, tiles'
shares, stream halves and reduction destinations (05_placement.md R149, R150, R163, R164; 03_harrel_stacks.md R69, R75, R83).
-/
namespace Sys2Proof.Machine

/-- The index of a stack's upper die (17_faults.md R542). -/
def upperDie (n : Nat) : Nat := 21 + n

/-- The die a power domain feeds, none for fields and bank groups (14 R447). -/
def dieOfPd (p : Nat) : Option Nat :=
  if p < 16 then some (if p % 2 = 0 then p / 2 else upperDie (p / 2))
  else if p < 24 then some (p - 8) else if p < 28 then some (p - 8) else if p = 28 then some 20 else none

/-- The die of a tile. -/
def dieOfTile (t : Nat) : Nat := if tileUp t then upperDie (t / 256) else t / 256

/-- Whether a command detects a fault of die `n` (17_faults.md R535). -/
def detects (n : Nat) : Instr → Bool
  | .heartbeatTimeout i => i.toNat = n
  | .fatalError k i _ => (k = 3#3 || k = 4#3 || k = 5#3) && i.toNat = n
  | .diePllUnlock i _ => i.toNat = n
  | .regulatorFault p => dieOfPd p.toNat = some n
  | .tileSilent t => dieOfTile t.tile.toNat = n
  | .dieLocalReset i _ => i.toNat = n || (i.toNat < 8 && upperDie i.toNat = n)
  | _ => false

/-- The die that a command injects a fault into, by HUB_INJ_TARGET and HUB_INJ_ADDR (17 R550). -/
def injectedDie (s : State) (q : Instr) : Option Nat :=
  let u := (regVal s 0x904).toNat
  let a := (regVal s 0x908).toNat + 2 ^ 32 * (regVal s 0x90C).toNat
  match q with
  | .injectDieLost _ _ => if u / 2 ^ 26 = 1 then some (u % 2 ^ 26) else none
  | .injectTileLost _ | .injectReductionFault _ => if u / 2 ^ 26 = 2 then some (dieOfTile (u % 2 ^ 26)) else none
  | .injectSramDoubleBit _ =>
    let b := (a - 0x140000000000) / 0x40000000
    if 0x140000000000 ≤ a ∧ b < 16 then some (if b % 2 = 0 then b / 2 else upperDie (b / 2)) else none
  | .injectReservoirDoubleBit _ =>
    let j := (a - 0x100000000000) / 0x000200000000
    if 0x100000000000 ≤ a ∧ j < 8 then some (8 + j) else none
  | .injectT2Uncorrectable _ => if a / 0x010000000000 < 4 then some (16 + a / 0x010000000000) else none
  | _ => none

/-- Whether a fault of a die is detected in this tick and still to act (01 R30). -/
def faultPending (s : State) (n : Nat) : Bool := s.pending.any fun q => detects n q || injectedDie s q = some n

/-- The tiling class of an operation (05 R150). -/
def classOfOp (i : Inst) (o : OpRec) : TileClass :=
  let ds := (o.ins.filterMap id ++ o.out.toList).filterMap (formulaDecl i.f)
  ⟨o.opcode, ds.map TensorDecl.dims, ds.map fun d => formatCode d.fmt⟩

/-- The tiling classes of an instance. -/
def instClasses (i : Inst) : List TileClass := (i.f.ops.map (classOfOp i)).eraseDups

/-- Tiles of a stack in service: enabled, not lost, on a die in service (03 R87). -/
def stackTiles (s : State) (n : Nat) : List Nat :=
  let die (up : Bool) : List Nat :=
    if dieUp s (if up then upperDie n else n) then
      ((List.range 96).filter fun t => tileEnabled n up t && !(stackOf s n).lost.contains ((if up then 128 else 0) + t)).map
        fun t => n * 256 + (if up then 128 else 0) + t
    else []
  if dieUp s n then die false ++ die true else []

/-- Whether a tile is in a unit of loss: a stack by its number, an upper die by its index (05 R163). -/
def inLoss (l : Option Nat) (t : Nat) : Bool :=
  match l with
  | none => false
  | some u => if u < 8 then decide (t / 256 = u) else tileUp t && decide (21 + t / 256 = u)

/-- The tiles that a domain's tilings share work among, without a unit of loss (05 R163). -/
def workTiles (s : State) (d : Nat) (l : Option Nat) : List Nat :=
  ((stacksOf s d).flatMap fun n => if capOf s 0 n = .inService then stackTiles s n else []).filter fun t => !inLoss l t

/-- The losses a domain has tilings for: each single stack where it holds two or more, each single upper die (05 R163). -/
def lossCases (s : State) (d : Nat) : List Nat :=
  let ns := stacksOf s d
  (if 2 ≤ ns.length then ns else []) ++ ns.map upperDie

/-- Whether an operation's results leave their die: to the host or the tray, or to the domain's other stacks.
DEDUCED: notes/assumptions/77. -/
def leavesDie (s : State) (d : Nat) (c : TileClass) : Bool := decide (1 < (stacksOf s d).length) || decide (0x10 ≤ c.opcode)

/-- The tilings of an instance over some tiles, each a new choice of the Director's (05 R150, R151). -/
def newTilings (s : State) (d h : Nat) (tiles : List Nat) : List TileClass → Nat → List Tiling
  | [], _ => []
  | c :: cs, draw => ⟨h, c, draw, tiles, leavesDie s d c⟩ :: newTilings s d h tiles cs (draw + 1)

/-- The tilings of an instance for one case, added to a domain's (05 R163). -/
def addTilings (s : State) (d h : Nat) (i : Inst) (l : Option Nat) : State :=
  let cs := instClasses i
  let ts := newTilings s d h (workTiles s d l) cs s.free
  let put (qs : List TilingSet) : List TilingSet :=
    match qs.find? fun q => q.loss = l with
    | some q => ⟨l, (q.tilings.filter fun t => t.inst ≠ h) ++ ts⟩ :: qs.filter fun q => q.loss ≠ l
    | none => ⟨l, ts⟩ :: qs
  modDom { s with free := s.free + cs.length } d fun x => { x with tilings := put x.tilings }

/-- The tilings of an instance are computed, before it becomes READY: the working ones and one for each single loss (05 R150,
R163). -/
def tileInst (s : State) (h : Nat) : State :=
  match tabFind s.insts h with
  | some i => (none :: (lossCases s i.dom).map some).foldl (fun t l => addTilings t i.dom h i l) s
  | none => s

/-- The tilings of an instance are gone with it. -/
def dropTilings (s : State) (d h : Nat) : State :=
  modDom s d fun x => { x with tilings := x.tilings.map fun q => { q with tilings := q.tilings.filter fun t => t.inst ≠ h } }

/-- Firmware computes a domain's tilings anew (05 R163 to R165): every instance's, for the tiles that remain. -/
def retile (s : State) (d : Nat) : State :=
  ((s.insts.filter fun e => e.2.dom = d && e.2.st = .ready).map Prod.fst).foldl tileInst
    (modDom s d fun x => { x with tilings := [], lossTiling := none, buddies := [] })

/-- The tiling in force for a class: of the case the domain is in (05 R150, R163). -/
def tilingOf (x : Dom) (h : Nat) (c : TileClass) : Option Tiling :=
  (x.tilings.find? fun q => q.loss = x.lossTiling).bind fun q => q.tilings.find? fun t => t.inst = h && t.cls = c

/-- The buddy that takes a lost tile's share (05 R164): the tile at its place on the other die, else the next enabled tile in
service on its own die. -/
def buddyOf (s : State) (t : Nat) : Option Nat :=
  let n := t / 256
  let live := stackTiles s n
  let other := if tileUp t then t - 128 else t + 128
  if live.contains other then some other
  else ((List.range 95).map fun k => t / 128 * 128 + (t % 128 + 1 + k) % 96).find? live.contains

/-- The tile that runs a tile's share: itself, or the last of its buddies. -/
def shareTile (x : Dom) : Nat → Nat → Nat
  | 0, t => t
  | fuel + 1, t => match tabFind x.buddies t with | some b => shareTile x fuel b | none => t

/-- Columns of a block: 64 where the operation may be split along the innermost dimension of its output (N, D or elements), the whole row where
it may be split by rows, tokens, heads or contexts alone (04_formulas_operations.md R118). -/
def blockWidth (opcode cols : Nat) : Nat :=
  if [0x01, 0x02, 0x04, 0x0A, 0x0B, 0x0E, 0x10, 0x11, 0x12, 0x13].contains opcode then 64 else max 1 cols

/-- The blocks a tiling cuts an operation's output into: 48 rows by the columns of a block (03 R68, 04_formulas_operations.md R118). -/
def blocksOf (opcode rows cols : Nat) : Nat :=
  ((rows + 47) / 48) * ((cols + blockWidth opcode cols - 1) / blockWidth opcode cols)

/-- Parts of the reduction dimension: only the tensor array's operations split one (03 R81, 04 R118), and never finer than its
32-element blocks. -/
def partsOf (t : Tiling) (k : Nat) : Nat :=
  if [1, 2, 5, 6].contains t.cls.opcode then max 1 (min (Config.splitK t.draw) ((k + 31) / 32)) else 1

/-- The tile whose share holds a part of a block. -/
def blockTile (x : Dom) (t : Tiling) (b part : Nat) : Nat :=
  shareTile x 192 (t.tiles.getD (Config.blockTile t.draw b part % max 1 t.tiles.length) 0)

/-- The tile reserved as a block's reduction destination: of a lower die, and at its edge where the result leaves the die, and one that
runs its own share while there is one (03 R71; 05 R150, R164). -/
def rootTile (x : Dom) (t : Tiling) (b : Nat) : Nat :=
  let lower := t.tiles.filter fun q => !tileUp q && (!t.leaves || decide (tileY q = 0) || decide (tileY q = 7))
  let at_ := if lower = [] then t.tiles.filter fun q => !tileUp q else lower
  let whole := at_.filter fun q => (tabFind x.buddies q).isNone
  let own := if whole = [] then at_ else whole
  shareTile x 192 (own.getD (Config.rootTile t.draw b % max 1 own.length) 0)

/-- Elements of a block's row in one packet: 64 columns, fewer in the last block (03 R79). -/
def blockCols (cols c : Nat) : Nat := min 64 (cols - 64 * c)

/-- The reduction destinations of a row group: for each row and block of columns whose reduction dimension is split, the tile, the range
from `offset` on, and the key it awaits; and the offset after them (03 R75, R79, R83). `first` is the place of the group's first element in
the context's row groups.
DEDUCED: notes/assumptions/79. -/
def groupDests (x : Dom) (t : Tiling) (ctx attempt first : Nat) (g : RowGroup) (offset : Nat) : List RedDest × Nat :=
  let parts := partsOf t g.k
  let nb := (g.cols + 63) / 64
  if parts ≤ 1 then ([], offset)
  else
    let cell (r c : Nat) : RedDest :=
      let b := r / 48 * nb + c
      ⟨{ ctx := ctx, opseq := x.opseq % 65536, attempt := attempt % 16, strip := false, dst := rootTile x t b, offset := offset + (r * nb + c) * 64,
         len := (blockCols g.cols c + perFlit g.wide - 1) / perFlit g.wide, we := g.we, wide := g.wide,
         expect := (((List.range parts).map fun p => blockTile x t b p).eraseDups).length }, g.opens, first + r * g.cols + c * 64, blockCols g.cols c, none, false⟩
    ((List.range g.rows).flatMap fun r => (List.range nb).map (cell r), offset + g.rows * nb * 64)

/-- Row groups of a context, each with the place of its first element. -/
def placeGroups : Nat → List RowGroup → List (Nat × RowGroup)
  | _, [] => []
  | n, g :: gs => (n, g) :: placeGroups (n + g.rows * g.cols) gs

/-- The reduction destinations of a batch's operation, row group by row group. -/
def batchDests (x : Dom) (t : Tiling) (attempt : Nat) : List (Nat × Nat × RowGroup) → Nat → List RedDest
  | [], _ => []
  | (c, n, g) :: gs, offset => let z := groupDests x t c attempt n g offset; z.1 ++ batchDests x t attempt gs z.2

/-- Bytes of a tile's stream half under a domain's PLC_CFG (05 R149, R173). -/
def streamHalf (x : Dom) : Nat := (10 * 2 ^ 20 - min 5 (x.plcCfg.toNat / 2 ^ 8 % 8) * 2 ^ 21) / 2

/-- Parts of blocks in a tile's share. -/
def shareParts (x : Dom) (t : Tiling) (blocks k tile : Nat) : Nat :=
  ((List.range blocks).map fun b => (List.range (partsOf t k)).countP fun p => decide (blockTile x t b p = tile)).sum

/-- Passes of an operation: the largest share over a stream half (05 R150, R153). `bytes` are the operands' bytes. -/
def passesOf (x : Dom) (t : Tiling) (blocks k bytes : Nat) : Nat :=
  let all := max 1 (blocks * partsOf t k)
  let most := (t.tiles.map fun q => (shareParts x t blocks k q * bytes + all - 1) / all).foldl max 0
  (most + streamHalf x - 1) / max 1 (streamHalf x)

end Sys2Proof.Machine
end

