-- ==== Sys2Proof/Machine/MeshQueue.lean ====
section
/-!
DEFINITION. Input buffers, credits and output-port arbitration of the mesh routers, and what telemetry counts of them
(03_harrel_stacks.md R73 to R75, R95, R96).
-/
namespace Sys2Proof.Machine

/-- The name of a router, port and class in a stack's telemetry. -/
def meshKey (t port cls : Nat) : Nat := t % 256 * 64 + port * 8 + cls

/-- Flits an input buffer of a class holds (03 R74): 32 at a strip port, 16 at both ends of a bypass lane and on the edge rows, 8 elsewhere.
Port 8 is an accumulator's own place, which holds a whole packet. -/
def bufferDepth (t port : Nat) : Nat :=
  if isStrip t then (if tileUp t then 16 else 32) else if port = 8 then 33 else if tileY t = 0 || tileY t = 7 then 16 else 8

/-- Flits of a packet: its header and its payload. -/
def pktFlits (p : MeshPkt) : Nat := p.len + 1

/-- Two packets share an input buffer: one router, port and class (03 R71). -/
def sameBuffer (v w : MeshWait) : Bool := v.at_ = w.at_ && v.inPort = w.inPort && v.pkt.cls = w.pkt.cls

/-- The occupancy of an input buffer (03 R96): flits that hold one of its credits. -/
def occupancy (ws : List MeshWait) (t port cls : Nat) : Nat :=
  ((ws.filter fun w => w.at_ = t && w.inPort = port && w.pkt.cls = cls).map fun w => w.flits.length).sum

/-- The occupancies of a stack's input buffers, by telemetry key. -/
def occupancies (ws : List MeshWait) : List (Nat × Nat) :=
  (((ws.filter fun w => !isStrip w.at_ && decide (w.inPort < 8)).map fun w => (w.at_, w.inPort, w.pkt.cls)).eraseDups).foldl
    (fun m z => tabPut m (meshKey z.1 z.2.1 z.2.2) (occupancy ws z.1 z.2.1 z.2.2)) []

/-- The high-water marks follow what the buffers hold (03 R96). -/
def markHwm (k : Stack) : Stack :=
  { k with tel := { k.tel with hwm := (occupancies k.waits).foldl (fun m e => tabMod m 0 e.1 fun h => max h e.2) k.tel.hwm } }

/-- A packet comes to a router's input from outside the mesh's own links, with all its flits still to enter the buffer (03 R74). -/
def enqueue (s : State) (t inPort : Nat) (p : MeshPkt) : State :=
  modStack s (t / 256) fun k => { k with waits := k.waits ++ [⟨t, inPort, (meshRoute k.deadBypass t p.cls p.dst).1, pktFlits p, [], 0, p⟩] }

/-- Flits that enter a buffer in a cycle: the strip port takes two, any other one (03 R74). -/
def feedRate (t : Nat) : Nat := if isStrip t && !tileUp t then 2 else 1

/-- Packets from outside enter their input buffers, as far as there are credits, one after the other (03 R74). -/
def feed (cycle : Nat) : List MeshWait → List MeshWait → List MeshWait
  | done, [] => done
  | done, w :: ws =>
    let n := if done.any fun v => sameBuffer v w && decide (0 < v.fed) then 0
      else min w.fed (min (feedRate w.at_) (bufferDepth w.at_ w.inPort - occupancy (done ++ w :: ws) w.at_ w.inPort w.pkt.cls))
    feed cycle (done ++ [{ w with fed := w.fed - n, flits := w.flits ++ List.replicate n cycle }]) ws

/-- The packets at the head of their input buffers: one of each router, port and class. -/
def heads : List MeshWait → List MeshWait → List MeshWait
  | seen, [] => seen
  | seen, w :: ws => heads (if seen.any (sameBuffer w) then seen else seen ++ [w]) ws

/-- Whether the buffer a flit would enter next has a credit left (03 R74); a sink and the base accept every flit (R75). -/
def hasCredit (k : Stack) (w : MeshWait) : Bool :=
  match (meshRoute k.deadBypass w.at_ w.pkt.cls w.pkt.dst).2 with
  | .router u p => decide (occupancy k.waits u p w.pkt.cls < bufferDepth u p)
  | _ => true

/-- The numbers below `n` in round-robin order after `last`. -/
def roundRobin (n last : Nat) : List Nat := (List.range n).map fun i => (last + 1 + i) % n

/-- The packet of which an output port passes a flit in a cycle, of those that have a flit to pass and a credit for it (03 R73): one of
class C4 where the port's 32 cycles since the last C4 flit have passed; else of the packet under way; else, where none is, of the next
class of C0 to C3 in round-robin order, and of it of the next input. -/
def passing (x : OutPort) (cycle : Nat) (cands : List MeshWait) : Option MeshWait :=
  let ofInput (c p : Nat) : Option MeshWait := cands.find? fun w => w.pkt.cls = c && w.inPort = p
  let ofClass (c : Nat) : Option MeshWait := (roundRobin 9 (tabGet x.lastIn 8 c)).findSome? (ofInput c)
  let c4 := if cycle < x.c4At then none else match x.c4In with | some p => ofInput 4 p | none => ofClass 4
  c4.or (match x.cur with | some (p, c) => ofInput c p | none => (roundRobin 4 x.lastCls).findSome? ofClass)

/-- An output port after a flit: at most one C4 flit in any 32 cycles passes beside the packet under way; any other packet holds the port
until its last flit (03 R73). -/
def afterFlit (x : OutPort) (cycle : Nat) (w : MeshWait) : OutPort :=
  let more := decide (w.sent + 1 < pktFlits w.pkt)
  let y := { x with lastIn := tabPut x.lastIn w.pkt.cls w.inPort }
  if w.pkt.cls = 4 then { y with c4At := cycle + 32, c4In := if more then some w.inPort else none }
  else { y with lastCls := w.pkt.cls, cur := if more then some (w.inPort, w.pkt.cls) else none }

/-- A packet of which a flit leaves: after its last flit it is gone from the buffer. -/
def popFlit (w : MeshWait) : List MeshWait → List MeshWait
  | [] => []
  | v :: vs => if v = w then (if w.sent + 1 < pktFlits w.pkt then { w with flits := w.flits.drop 1, sent := w.sent + 1 } :: vs else vs) else v :: popFlit w vs

/-- A flit enters the next router's input buffer: a header as a packet of its own, another behind its packet's, the last that came (03 R74). -/
def pushFlit (v : MeshWait) (header : Bool) : List MeshWait → List MeshWait
  | [] => if header then [v] else []
  | w :: ws => if !header && sameBuffer w v && !ws.any (sameBuffer v) then { w with flits := w.flits ++ v.flits } :: ws else w :: pushFlit v header ws

/-- Whether a router reports telemetry: one of a tile that is not fused off (03 R86). The router of a tile lost in service forwards on and
counts.
DESIGN CHOICE: notes/assumptions/98. -/
def reportsTel (t : Nat) : Bool := !isStrip t && tileEnabled (t / 256) (tileUp t) (t % 128)

/-- Counts a flit that leaves a router by a port (03 R95). -/
def countFlit (s : State) (t port cls : Nat) : State :=
  if !reportsTel t then s
  else modStack s (t / 256) fun k => { k with tel := { k.tel with flits := tabMod k.tel.flits 0 (meshKey t port cls) fun c => satAdd 64 c 1 } }

/-- The classes that stall at an output port in a cycle (03 R95): a flit of one waits at the head of an input buffer for it, and none of it
leaves. -/
def stalled (hs : List MeshWait) (g : Option MeshWait) : List Nat :=
  (List.range 5).filter fun c => hs.any (fun w => w.pkt.cls = c) && (match g with | some w => decide (w.pkt.cls ≠ c) | none => true)

/-- Counts stall cycles. -/
def countStalls (s : State) (t port : Nat) (cs : List Nat) : State :=
  if !reportsTel t then s
  else modStack s (t / 256) fun k => { k with tel := { k.tel with stalls := cs.foldl (fun m c => tabMod m 0 (meshKey t port c) fun n => satAdd 64 n 1) k.tel.stalls } }

/-- Mesh cycles of a stack within a tick of GT at CK_CORE (03, 14_power_clocks_thermal.md R449): `f` is the step's frequency in units of
100 MHz. -/
def meshCycles (f gt : Nat) : Nat := (gt + 1) * f / 10 - gt * f / 10

/-- Whether a stack's mesh has packets waiting, or a port still bound by its last C4 flit. -/
def meshActive (k : Stack) : Bool := !k.waits.isEmpty || k.ports.any fun p => decide (k.cycle < p.2.c4At)

/-- The router a stack's ready report comes from or goes to, which the spec does not name.
DESIGN CHOICE: notes/assumptions/12. -/
def reportTile (n : Nat) (b : BitVec 8) : Nat := tileId n (b.getLsbD 7) (b.toNat / 8 % 16 % 12) (b.toNat % 8)

/-- A stack's Accord ready report: one flit of class C4 (03 R71). -/
def sendReport (s : State) (n : Nat) : State :=
  let r := Config.reportRoute n
  enqueue s (reportTile n r.1) 5 { cls := 4, src := reportTile n r.1, dst := .tile (reportTile n r.2), len := 0 }

end Sys2Proof.Machine
end

