-- ==== Sys2Proof/Machine/Placement.lean ====
section
/-!
DEFINITION. What the Placement Director keeps and decides: sizes, homes, copies, heat, pins
(05_placement.md R139 to R168).
-/
namespace Sys2Proof.Machine

/-- One GiB. -/
def gib : Nat := 2 ^ 30

/-- Whether a tensor is a rank-3 tensor that EXPERT_MATMUL reads (05 R139). -/
def isExpert (f : Formula) (d : TensorDecl) : Bool :=
  d.rank = 3 && f.ops.any fun o => o.opcode = 0x02 && opIn o 1 = some d.id

/-- The slots a tensor has units for: those its manifest gives an ADAPTER tensor (04 R107), else 0. -/
def unitSlots (f : Formula) (d : TensorDecl) : List Nat :=
  if d.role = .adapter then ((f.chunks.filter fun c => c.tensor = d.id).map ChunkDecl.slot).eraseDups else [0]

/-- The sizes of a weight tensor's units in index order (05 R139). -/
def unitSizes (f : Formula) (d : TensorDecl) : List Nat :=
  if isExpert f d then List.replicate (dim d 2) (rowSize d.fmt (declCols d) * dim d 1)
  else
    let n := declBytes d
    let g := 2 ^ 21
    (List.range ((n + g - 1) / g)).map fun i => min g (n - i * g)

/-- Whether a hint covers a unit (05 R154). -/
def hintCovers (h : Hint) (k : UnitKey) : Bool :=
  decide (h.tensor = k.tensor) && decide (h.slot = k.slot) && decide (h.first ≤ k.index) &&
    (decide (h.count = 0) || decide (k.index < h.first + h.count))

/-- The initial heat the hints give a unit (05 R145, R155). -/
def hintHeat (f : Formula) (k : UnitKey) : Nat :=
  f.hints.foldl (fun acc h =>
    if !hintCovers h k then acc
    else if h.kind = 2 then h.value % 65536
    else if h.kind = 3 && k.kind = .expert then h.heats.getD (k.index - h.first) acc
    else acc) 0

/-- Whether a COLD hint covers a unit (05 R155). -/
def hintCold (f : Formula) (k : UnitKey) : Bool := f.hints.any fun h => h.kind = 6 && hintCovers h k

/-- Whether the reservoir (kind 1) or port die (2) is in service and does not drain: what moves off a unit that drains goes
there (R171). -/
def stays (s : State) (kind n : Nat) : Bool := dieUp s (if kind = 1 then 8 + n else 16 + n) && capOf s kind n = .inService

/-- Whether something new may be placed on a unit: until the first step boundary after a removal request, on the unit that drains
too (R171). -/
def takesNew (s : State) (kind n : Nat) : Bool :=
  stays s kind n || (s.plc.placing && dieUp s (if kind = 1 then 8 + n else 16 + n) && capOf s kind n = .draining)

/-- Reservoirs that new copies may go to. -/
def liveRsv (s : State) : List Nat := (List.range 8).filter (takesNew s 1)

/-- Port dies that new homes may go to. -/
def livePorts (s : State) : List Nat := (List.range 4).filter (takesNew s 2)

/-- Bytes a domain's units have homes for on a port die. -/
def portUsed (us : List PUnit) (d p : Nat) : Nat :=
  ((us.filter fun u => u.dom = d && u.home = .port p).map PUnit.bytes).sum

/-- Whether a KV unit is covered by its session's place or reservation (05 R161, R162). -/
def inReserve (s : State) (u : PUnit) : Bool :=
  match u.key.kind with
  | .kv | .sketch =>
    let k := ctxOf s u.key.owner
    decide (0 < k.reservedBytes) ||
      (match k.place with
       | some p => match s.plc.pools[p]? with
         | some pl => decide (u.key.index * 256 < pl.tokens)
         | none => false
       | none => false)
  | _ => false

/-- The reservation of a reserved-class context's whole session (05 R162). -/
def sessionReserve (f : Formula) (p : Prov) : Nat :=
  if p.cls = 2 then (p.maxTokens + 255) / 256 * 256 * f.kvBytes else 0

/-- Bytes a context's session reserves: by its class in force, or by one that waits for its step boundary (05 R162). -/
def heldBytes (s : State) (k : Ctx) : Nat :=
  max k.reservedBytes (match k.newClass, k.inst.bind (tabFind s.insts) with | some p, some i => sessionReserve i.f p | _, _ => 0)

/-- Bytes of T2 a domain's reservations and output staging hold (05 R155, R162; 09 R311). -/
def t2Reserved (s : State) (d : Nat) : Nat :=
  ((s.plc.pools.filter fun p => match tabFind s.insts p.inst with | some i => i.dom = d | none => false).map Pool.bytes).sum +
    ((s.ctxs.filter fun e => match e.2.prov with | some p => p.dom = d | none => false).map fun e => heldBytes s e.2 + e.2.stagingBytes).sum

/-- Whether a unit takes room in T2: its home lies on a port die, or is being recovered into one (05 R144, R168). -/
def takesHome (u : PUnit) : Bool := match u.home with | .port _ => true | .lost => u.moving | .peer _ => false

/-- Bytes free in a domain's T2 share (05 R144, R161). -/
def t2Free (s : State) (d : Nat) : Nat :=
  let own := (s.plc.units.filter fun u => u.dom = d && takesHome u && !inReserve s u)
  (domOf s d).t2Gib * gib - (own.map PUnit.bytes).sum - t2Reserved s d

/-- Whether a unit has a T1 copy, or one in progress: its bytes count against the domain's share (05 R144). -/
def inT1 (u : PUnit) : Bool := u.t1.isSome || u.dest.isSome

/-- Bytes free in a domain's T1 share (05 R144). -/
def t1Free (s : State) (d : Nat) : Nat :=
  (domOf s d).t1Gib * gib - ((s.plc.units.filter fun u => u.dom = d && inT1 u).map PUnit.bytes).sum

/-- The port die with the most free space of a domain's share, ties to the lowest (05 R142). -/
def bestPortOf (s : State) (ports : List Nat) (us : List PUnit) (d : Nat) : Nat :=
  let share := (domOf s d).t2Gib * gib / 4
  ports.foldl (fun best p => if share - portUsed us d p > share - portUsed us d best then p else best) (ports.headD 0)

/-- The port die of a new weight home. -/
def bestPort (s : State) (us : List PUnit) (d : Nat) : Nat := bestPortOf s (livePorts s) us d

/-- The reservoir with the most free space of a domain's share, ties to the lowest (05 R143). -/
def bestRsvOf (rsvs : List Nat) (us : List PUnit) (d : Nat) : Option Nat :=
  let used (r : Nat) := ((us.filter fun u => u.dom = d && (u.t1 = some r || u.dest = some r)).map PUnit.bytes).sum
  match rsvs with
  | [] => none
  | r :: rs => some (rs.foldl (fun best x => if used x < used best then x else best) r)

/-- The reservoir of a new weight or older KV copy. -/
def bestRsv (s : State) (us : List PUnit) (d : Nat) : Option Nat := bestRsvOf (liveRsv s) us d

/-- The reservoir of a sketch page or staging copy among some (05 R143). -/
def hashRsvOf (live : List Nat) (b c : Nat) : Option Nat :=
  let j := (b + c) % 8
  if live.contains j then some j else live[(b / 8 + c) % max 1 live.length]?

/-- The reservoir of a new sketch page or staging copy. -/
def hashRsv (s : State) (b c : Nat) : Option Nat := hashRsvOf (liveRsv s) b c

/-- The home of a KV block or sketch page among some port dies (05 R142), moved to the lowest of them where its own is not one.
DESIGN CHOICE: notes/assumptions/110. -/
def kvPortOf (ports : List Nat) (k : UnitKind) (b c : Nat) : Nat :=
  let p := if k = .sketch then (b + c + 2) % 4 else (b + c) % 4
  if ports.contains p then p else ports.headD p

/-- The port die of a new home of a session's unit. -/
def kvPort (s : State) (k : UnitKind) (b c : Nat) : Nat := kvPortOf (livePorts s) k b c

/-- A new unit. -/
def newUnit (key : UnitKey) (bytes dom : Nat) (home : Home) (heat : Nat) (cold : Bool) : PUnit where
  key := key
  bytes := bytes
  dom := dom
  home := home
  t1 := none
  t0 := none
  heat := heat
  reads := 0
  pin1 := false
  pin0 := false
  cold := cold
  staging := false
  moving := false
  copied := false

/-- The units of a Formula's weights, with homes assigned in ascending tensor ID and index (05 R139,
R142). -/
def placeWeights (s : State) (h d : Nat) (f : Formula) : List PUnit :=
  let ts := sortBy (fun a b => decide (a.id < b.id)) (f.tensors.filter fun t => t.role = .weight || t.role = .adapter || t.role = .const)
  ts.foldl (fun us t =>
    (unitSlots f t).foldl (fun us sl =>
      (unitSizes f t).zipIdx.foldl (fun us z =>
        let key : UnitKey := ⟨if isExpert f t then .expert else .granule, h, t.id, sl, z.2⟩
        us ++ [newUnit key z.1 d (.port (bestPort s us d)) (hintHeat f key) (hintCold f key)]) us) us) s.plc.units

/-- Changes the units of a state. -/
def modUnits (s : State) (f : List PUnit → List PUnit) : State := { s with plc := { s.plc with units := f s.plc.units } }

/-- Changes the units that satisfy a test. -/
def updUnits (s : State) (p : PUnit → Bool) (f : PUnit → PUnit) : State :=
  modUnits s fun us => us.map fun u => if p u then f u else u

/-- T2 bytes the RESERVE hints of a Formula ask for (05 R155). -/
def reserveBytes (f : Formula) : Nat :=
  ((f.hints.filter fun h => h.kind = 5).map fun h => h.value * h.first * f.kvBytes).sum

/-- Bytes of one sketch entry of a token for all KV heads (05 R139). -/
def sketchEntry (d : TensorDecl) : Nat := declElems d / max 1 (declCols d) * 32

/-- Whether a KV tensor is appended with sketches (04 R126). -/
def sketched (f : Formula) (id : Nat) : Bool :=
  f.ops.any (sketches · id)

/-- Heat after a step boundary (05 R145). -/
def heatStep (h a : Nat) : Nat := min 65535 (h - h / 16 + a * 256)

/-- Whether a tensor's index input has been written for a row: until then the units it chooses are not known (05 R148). -/
def written (r : BatchRow) (n : Option Nat) : Bool := match n with | some t => (tabFind r.acts t).isSome | none => false

/-- The integers an index tensor holds for a row, below a bound. -/
def indicesOf (i : Inst) (o : OpRec) (r : BatchRow) (n bound : Nat) : List Nat :=
  match opTensor i r o n with
  | some ix => if written r (opIn o n) then (flatNums ix).filterMap (indexOf bound) else []
  | none => []

/-- Whether a granule holds bytes of a row of a table (05 R139). -/
def granuleHolds (d : TensorDecl) (g row : Nat) : Bool :=
  let n := rowSize d.fmt (declCols d)
  decide (row * n < (g + 1) * 2 ^ 21) && decide (g * 2 ^ 21 < (row + 1) * n)

/-- Whether an operation's attention reads a key of a block of a row's session: in the last WINDOW positions, and under a selection in
its recent part or among the positions selected (04 R124, R125; 06 R189). In exact mode, and for a row that has fallen back, ATTN_SILLAGE
reads as ATTN_EXACT does (04 R125; 06 R198). -/
def readsBlock (i : Inst) (o : OpRec) (exact : Bool) (r : BatchRow) (b : Nat) : Bool :=
  let first := r.base
  let last := r.base + r.tokens - 1
  let window := attr o 8 4
  let lo := if window = 0 then 0 else first + 1 - window
  let meets (from_ : Nat) : Bool := decide (b * 256 ≤ last) && decide (from_ < (b + 1) * 256)
  if o.opcode = 0x05 || exact || r.fell then meets lo
  else meets (max lo (first + 1 - attr o 20 4)) ||
    r.work.records.any fun q => decide (i.f.ops[q.op]? = some o) && decide (first ≤ q.pos0) && decide (q.pos0 ≤ last) && q.positions.any fun p => decide (p / 256 = b)

/-- The units an operation of an instance reads for the contexts of a batch: the granules of its weight inputs, of a gathered table
those of the rows named, of an adapter those of its contexts' slots; the expert units of the tokens' choices; and the KV blocks that
its attention reads, which `exact` mode widens (05 R145, R148). -/
def opReads (i : Inst) (o : OpRec) (h : Nat) (exact : Bool) (rows : List BatchRow) (u : PUnit) : Bool :=
  let live := rows.filter fun r => r.status = 0
  match u.key.kind with
  | .granule => u.key.owner = h && o.ins.contains (some u.key.tensor) &&
      (match formulaDecl i.f u.key.tensor with
       | some d => live.any fun r =>
          (if d.role = .adapter then decide (r.work.slot = some u.key.slot) else true) &&
            (if o.opcode = 0x04 && opIn o 0 = some u.key.tensor then (indicesOf i o r 1 (declElems d / max 1 (declCols d))).any (granuleHolds d u.key.index)
             else true)
       | none => false)
  | .expert => u.key.owner = h && o.opcode = 0x02 && opIn o 1 = some u.key.tensor && live.any fun r => (indicesOf i o r 2 4096).contains u.key.index
  | .kv => (o.opcode = 0x05 || o.opcode = 0x06) && (opIn o 1 = some u.key.tensor || opIn o 2 = some u.key.tensor) &&
      live.any fun r => r.ctx = u.key.owner && readsBlock i o exact r u.key.index
  | .sketch => false

/-- Counts the reads of an operation (05 R145). -/
def countReads (s : State) (i : Inst) (o : OpRec) (b : Batch) (rows : List BatchRow) : State :=
  updUnits s (opReads i o b.inst b.exact rows) fun u => { u with reads := u.reads + 1 }

/-- The heat update of a step boundary for the units of an instance and the sessions of a batch (05
R145). -/
def heatUpdate (s : State) (h : Nat) (cs : List Nat) : State :=
  updUnits s (fun u => match u.key.kind with
      | .granule | .expert => u.key.owner = h
      | _ => cs.contains u.key.owner)
    fun u => { u with heat := heatStep u.heat u.reads, reads := 0 }

/-- The order of promotion candidates: descending heat, then instance, tensor, index, or context and
block (05 R146). -/
def hotter (a b : PUnit) : Bool :=
  if a.heat ≠ b.heat then a.heat > b.heat
  else if a.key.owner ≠ b.key.owner then a.key.owner < b.key.owner
  else if a.key.kind = .kv && b.key.kind = .kv && a.key.index ≠ b.key.index then a.key.index < b.key.index
  else if a.key.tensor ≠ b.key.tensor then a.key.tensor < b.key.tensor
  else a.key.index < b.key.index

/-- Bytes of T2 that one percent of its bandwidth, 1.02 TB/s, reads in a millisecond (05 R147; 00_scope.md R7). -/
def pctBytes : Nat := 10200000

/-- A field of PLC_CFG as of a domain's last step boundary (05 R173). -/
def cfgBits (s : State) (d hi lo : Nat) : Nat := ((domOf s d).plcCfg.toNat / 2 ^ lo) % 2 ^ (hi + 1 - lo)

/-- Bytes drawn on a budget that the milliseconds since have not paid for: each pays `cap` (05 R147). -/
def owedBytes (cap used elapsed : Nat) : Nat := used - cap * (elapsed / 1000000)

/-- Whether `n` bytes fit a budget of which `used` are owed: a unit larger than a whole millisecond's budget is read over several, while
nothing else draws on it.
DEDUCED: notes/assumptions/70. -/
def fitsBudget (cap used n : Nat) : Bool := decide (used + n ≤ cap) || (decide (used = 0) && decide (0 < cap))

/-- Where the millisecond of a budget begins that `gt` lies in. -/
def budgetStart (since gt : Nat) : Nat := since + (gt - since) / 1000000 * 1000000

/-- T2 bytes a millisecond allows a domain's migration (05 R147). -/
def migCap (s : State) (d : Nat) : Nat := cfgBits s d 5 0 * pctBytes

/-- T2 bytes owed for migration (05 R147). -/
def migUsedNow (s : State) (d : Nat) : Nat := owedBytes (migCap s d) s.plc.migUsed (s.gt - s.plc.migSince)

/-- Whether a domain's migration may read `n` bytes of T2 (05 R147). -/
def migFits (s : State) (d n : Nat) : Bool := fitsBudget (migCap s d) (migUsedNow s d) n

/-- Spends migration budget. -/
def spendBudget (s : State) (d n : Nat) : State :=
  { s with plc := { s.plc with migUsed := migUsedNow s d + n, migSince := budgetStart s.plc.migSince s.gt } }

/-- Bytes a drain may move in a millisecond: off a port die 25 % or MIG_BUDGET of T2's bandwidth (R147), off a reservoir 25 % of its 3.1
TB/s (R171); `d` is the domain of the unit moved.
DEDUCED: notes/assumptions/70. -/
def drainCap (s : State) (d kind : Nat) : Nat := if kind = 1 then 775000000 else max 25 (cfgBits s d 5 0) * pctBytes

/-- Bytes owed for a drain's moves. -/
def drainUsedNow (s : State) (d kind : Nat) : Nat := owedBytes (drainCap s d kind) s.plc.drainUsed (s.gt - s.plc.drainSince)

/-- Spends drain budget. -/
def spendDrain (s : State) (d kind n : Nat) : State :=
  { s with plc := { s.plc with drainUsed := drainUsedNow s d kind + n, drainSince := budgetStart s.plc.drainSince s.gt } }

/-- Evicts T1 copies in ascending heat until a domain has `need` bytes free, touching only copies R146
allows; none where that cannot be done. Counts PLC_SPILL_T1. -/
def evictFor (s : State) (d h need : Nat) (busy : PUnit → Bool) : Nat → Option State
  | 0 => none
  | fuel + 1 =>
    if need ≤ t1Free s d then some s
    else
      let can := s.plc.units.filter fun u => u.dom = d && u.t1.isSome && !u.moving && !u.pin1 && !u.staging && !busy u &&
        u.key.kind ≠ .sketch && decide (u.heat + u.heat / 4 < h)
      match sortBy (fun a b => decide (a.heat < b.heat)) can with
      | [] => none
      | v :: _ => evictFor (bump (updUnits s (fun u => u.key = v.key) fun u => { u with t1 := none, t0 := if u.pin0 then u.t0 else none }) 0x1000084 1)
          d h need busy fuel

/-- Starts a T1 copy of a unit: it is taken from the home within R147's budget, and counts against the share from here on. -/
def startCopy (s : State) (u : PUnit) : State :=
  spendBudget (updUnits s (fun v => v.key = u.key) fun v => { v with moving := true, copied := false, dest := bestRsv s s.plc.units u.dom }) u.dom u.bytes

/-- The promotion pass of a step boundary (05 R146): candidates by heat, each copied where it fits. A copy
starts here and comes into use at its COPY_COMPLETE. -/
def promote (s : State) (d : Nat) (busy : PUnit → Bool) : List PUnit → State
  | [] => s
  | u :: us =>
    if u.heat < 256 || !migFits s d u.bytes then s
    else
      match evictFor s d u.heat u.bytes busy (s.plc.units.length + 1) with
      | none => promote s d busy us
      | some s1 => promote (bump (startCopy s1 u) 0x1000080 1) d busy us

/-- The promotion pass over a domain's units without T1 copies (05 R146, R155 COLD).
DEDUCED: notes/assumptions/70. -/
def promotionPass (s : State) (d : Nat) (busy : PUnit → Bool) : State :=
  if liveRsv s = [] then s
  else promote s d busy (sortBy hotter (s.plc.units.filter fun u => u.dom = d && u.t1.isNone && !u.cold && !u.moving && u.key.kind ≠ .sketch &&
    decide (u.home ≠ .lost)))

/-- Sets a capacity state. -/
def setCap (s : State) (kind n : Nat) (c : CapState) : State :=
  { s with plc := { s.plc with caps := tabSet s.plc.caps .inService (kind * 8 + n) c } }

/-- HINT_DECLINED to a context (05 R158, 09 R317), counted in PLC_HINT_DECLINED. -/
def declineHint (s : State) (p : Pin) (first count reason : Nat) : State :=
  event (bump s 0x1000090 1) p.ctx
    (evtEntry 0x02 reason stOk (p.inst + 64 * p.tier + 256 * p.tensor + 2 ^ 24 * p.slot + 2 ^ 32 * first + 2 ^ 64 * count))

end Sys2Proof.Machine
end

