-- ==== Sys2Proof/Machine/Rings.lean ====
section
/-!
DEFINITION. The rings of a context: how output is written, requests complete, and descriptors are
admitted (09_host_rings.md R305 to R328).
-/
namespace Sys2Proof.Machine

/-- Whether a running or cut batch holds a context. -/
def inBatch (s : State) (c : Nat) : Bool :=
  s.arr.doms.any fun e => (e.2.batch.toList ++ e.2.parked).any fun b => b.rows.any fun r => r.ctx = c

/-- Whether an admitted descriptor is a request that has not completed. -/
def openRequest (a : Adm) : Bool := match a.work with | .request _ => a.done.isNone | _ => false

/-- The request a context runs: its first open one (09 R313). -/
def curRequest (k : Ctx) : Option Request :=
  match k.queue.find? openRequest with
  | some a => match a.work with | .request r => some r | _ => none
  | none => none

/-- Changes the first admitted descriptor that satisfies a test. -/
def modFirst (p : Adm → Bool) (f : Adm → Adm) : List Adm → List Adm
  | [] => []
  | a :: as => if p a then f a :: as else a :: modFirst p f as

/-- Changes the request a context runs. -/
def modRequest (k : Ctx) (f : Request → Request) : Ctx :=
  { k with queue := modFirst openRequest (fun a => match a.work with
      | .request r => { a with work := .request (f r) }
      | _ => a) k.queue }

/-- A CANCEL that names the tag of a request that has ended completes: FOUND where it ended it (09 R313,
R329). -/
def resolveCancels (tag : Nat) (found : Bool) (as : List Adm) : List Adm :=
  as.map fun a => if a.done.isNone && decide (a.work = .cancelling tag) then { a with done := some (stOk, b2n found, false) } else a

/-- Ends the request a context runs with a status and payload (09 R313, R316): none is held any more (05 R161; 09 R300). -/
def endRequest (k : Ctx) (status payload : Nat) (arith : Bool) : Ctx :=
  match k.queue.find? openRequest with
  | none => k
  | some a =>
    { k with
      queue := resolveCancels a.tag (decide (status = stCancelled))
        (modFirst openRequest (fun a => { a with done := some (status, payload, arith), deadline := none }) k.queue)
      readyAt := none, demoted := false, space := none, frameHeld := false }

/-- PAYLOAD of a REQUEST's DESC entry (09 R316). -/
def requestPayload (tokens pos end_ : Nat) : Nat := tokens % 2 ^ 32 + 2 ^ 32 * pos + 2 ^ 64 * end_

/-- The payload a request that ends now reports (09 R316). -/
def endPayload (k : Ctx) (end_ : Nat) : Nat :=
  requestPayload ((curRequest k).map Request.tokens |>.getD 0) ((k.session.map Session.pos).getD 0) end_

/-- The DESC entry of a descriptor (09 R314, R316, R326). -/
def descEntry (a : Adm) (st payload : Nat) (arith : Bool) : Entry := ⟨0, st, a.tag, arith, payload, !a.noIrq, false⟩

/-- A request that was cancelled or timed out, and runs no step, ends once no earlier descriptor is open
(09 R313). -/
def endMarked (busy : Bool) (k : Ctx) : Ctx :=
  match k.queue with
  | a :: _ => match a.work, a.done with
    | .request r, none => match r.endWith with
      | some st => if busy then k else endRequest k st (endPayload k 0) false
      | none => k
    | _, _ => k
  | [] => k

/-- Whether a step of a context runs, or its results are being written. -/
def stepRuns (s : State) (c : Nat) : Bool := inBatch s c || (ctxOf s c).output.isSome

/-- Writes the DESC entries of completed descriptors from the front of the queue, in admission order (09
R25, R315). -/
def flushQueue : Nat → State → Nat → State
  | 0, s, _ => s
  | fuel + 1, s, c =>
    let k := endMarked (stepRuns s c) (ctxOf s c)
    if k.paused then setCtx s c k
    else match k.queue with
    | [] => setCtx s c k
    | a :: as => match a.done with
      | none => setCtx s c k
      | some (st, pl, ar) => flushQueue fuel (writeEntry (setCtx s c { k with queue := as }) c (descEntry a st pl ar)) c

/-- Whether a result buffer entry is valid (09 R319). -/
def bufValid (k : Ctx) (b : BufEntry) : Bool :=
  decide (b.ver.toNat = k.ver) && decide (256 ≤ b.len.toNat) && decide (b.len.toNat ≤ 2 ^ 24) && decide (b.len.toNat % 64 = 0) &&
    decide (b.addr.toNat % 64 = 0)

/-- Writes segments into read buffers while both are there (09 R320 to R323). -/
def pump : Nat → State → Nat → State
  | 0, s, _ => s
  | fuel + 1, s, c =>
    let k := ctxOf s c
    match k.output, k.buffers with
    | some o, b :: bs =>
      if !o.released || k.stopped.isSome || !writes k || k.error || k.paused then s
      else match o.frames with
        | [] => s
        | f :: fs =>
          let n := ringSize k.rqLog
          let head := if k.rqHead + 1 = n then 0 else k.rqHead + 1
          let k1 := { k with buffers := bs, rqHead := head, holdTimer := none }
          if !bufValid k b then pump fuel (event (setCtx s c k1) c (evtEntry 0x07 5 stOk k.rqHead)) c
          else
            let left := f.payload.length - f.off
            let m := min left (b.len.toNat - 32)
            let last := decide (m = left)
            let s1 := hostWrite s (spaceOf s c) b.addr.toNat (segmentHeader f k.frameSeq m last ++ (f.payload.drop f.off).take m)
            let k2 := if last then { k1 with frameSeq := (k.frameSeq + 1) % 2 ^ 32, output := some { o with frames := fs } }
              else { k1 with output := some { o with frames := { f with seg := f.seg + 1, off := f.off + m } :: fs } }
            pump fuel (setCtx s1 c k2) c
    | _, _ => s

/-- Whether every posted buffer has been read and used (09 R323). -/
def ringEmpty (k : Ctx) : Bool := k.buffers = [] && k.rqHead = k.rqTail

/-- Arms the hold timer of a frame that has begun and finds no buffer posted (09 R323). -/
def armHold (s : State) (c : Nat) : State :=
  let k := ctxOf s c
  match k.output with
  | some o => match o.frames with
    | f :: _ =>
      if o.released && ringEmpty k && 0 < f.seg && k.holdTimer.isNone && k.stopped.isNone && k.enabled then
        setCtx s c { k with holdTimer := some (s.gt + k.holdUs * 1000) }
      else s
    | [] => s
  | none => s

/-- The STEP entry of a step whose request goes on, if a free slot is there (09 R315, R316). -/
def stepEntry (s : State) (c : Nat) (arith : Bool) : State :=
  let k := ctxOf s c
  match k.queue.find? openRequest with
  | none => s
  | some a =>
    if freeSlots k ≤ 8 then s
    else
      let toks := (curRequest k).map Request.tokens |>.getD 0
      writeEntry s c ⟨1, stOk, a.tag, arith,
        k.frameSeq + 2 ^ 32 * k.rqHead + 2 ^ 64 * ((k.session.map Session.pos).getD 0) + 2 ^ 96 * toks, true, false⟩

/-- Once a step's frames are written, reports the step or ends the request (09 R316, R322, R327). -/
def finishOutput (s : State) (c : Nat) : State :=
  let k := ctxOf s c
  match k.output with
  | none => s
  | some o =>
    if !o.released || o.frames ≠ [] || k.paused then s
    else
      let k1 := { k with output := none, holdTimer := none }
      match o.fin with
      | none => setCtx s c k1
      | some (.step ar) => stepEntry (setCtx s c k1) c ar
      | some (.request st pl ar) => setCtx s c (endRequest k1 st pl ar)

/-- Ends a step's output short (09 R323, R328): the rest is discarded, CTX_TRUNC and STOPPED say so, and
the running request completes. -/
def truncateOutput (s : State) (c : Nat) (status : Nat) : State :=
  let k := ctxOf s c
  match k.output with
  | none => s
  | some o => match o.frames with
    | [] => s
    | f :: fs =>
      let lost := (f.payload.length - f.off) + (fs.map fun g => g.payload.length).sum
      let ar := match o.fin with | some (.step a) => a | some (.request _ _ a) => a | none => false
      let k1 := { k with output := none, holdTimer := none, trunc := satAdd 32 k.trunc 1, stopped := some k.frameSeq,
                         frameSeq := (k.frameSeq + 1) % 2 ^ 32 }
      let s1 := event (setCtx s c k1) c (evtEntry 0x06 0 status (k.frameSeq + 2 ^ 32 * f.seg + 2 ^ 64 * lost))
      modCtx s1 c fun q => endRequest q status (endPayload q 0) ar

/-- First failing check of a list, each a status and whether it fails. -/
def firstFail : List (Nat × Bool) → Option Nat
  | [] => none
  | (st, bad) :: rest => if bad then some st else firstFail rest

/-- Whether an FP32 word is a positive finite value or a zero of either sign (09 R309 TEMP). -/
def tempOk (w : Word) : Bool := decide (w = 0x80000000#32) || decide (w.toNat < 0x7F800000)

/-- Whether an FP32 word is above 0 and at most 1.0 (09 R309 TOPP). -/
def toppOk (w : Word) : Bool := decide (0 < w.toNat) && decide (w.toNat ≤ 0x3F800000)

/-- The input list of a request as host memory holds it (09 R310). -/
def inputEntries (s : State) (c : Nat) (b : ReqBody) : List InputEntry :=
  (List.range b.inputCount.toNat).map fun i => inputEntryOf (hostBytes s (spaceOf s c) (b.inputList.toNat + 32 * i) 32)

/-- Check 5 of R312 for a REQUEST: alignment, list and length structure. -/
def requestMalformed (s : State) (c : Nat) (f : Formula) (b : ReqBody) : Bool :=
  let n := b.nTokens.toNat
  let es := if b.inputCount.toNat ≤ 16 then inputEntries s c b else []
  let inputs := f.tensors.filter fun t => t.role = .input
  decide (16 < b.inputCount.toNat) || (decide (0 < b.inputCount.toNat) && decide (b.inputList.toNat % 64 ≠ 0)) ||
    es.any (fun e => decide (e.addr % 64 ≠ 0) ||
      (match inputs.find? fun t => t.id = e.tensor with
       | some t => decide (e.bytes ≠ n * declBytes t)
       | none => true)) ||
    !(es.map InputEntry.tensor).Nodup ||
    (decide (0 < n) && inputs.any fun t => !(es.map InputEntry.tensor).contains t.id) ||
    (b.rflags.getLsbD 4 && (decide (b.recAddr.toNat % 16 ≠ 0) || decide (b.recLen.toNat % 16 ≠ 0) ||
      (recordsOf (b.recLen.toNat + 1) (hostBytes s (spaceOf s c) b.recAddr.toNat b.recLen.toNat)).isNone))

/-- Check 6 of R312 for a REQUEST: numeric ranges and the sampling overrides (04 R130). -/
def requestRange (f : Formula) (b : ReqBody) : Bool :=
  decide (f.maxSeq < b.nTokens.toNat) || decide (65536 < b.chunk.toNat) || (b.rflags.getLsbD 0 && !tempOk b.temp) ||
    (b.rflags.getLsbD 1 && decide (4096 < b.topk.toNat)) || (b.rflags.getLsbD 2 && !toppOk b.topp)

/-- The instance a context is bound to. -/
def instOf (s : State) (c : Nat) : Option Inst := (ctxOf s c).inst.bind (tabFind s.insts)

/-- An instance of a handle, where it belongs to the context's function and domain (04 R110 to R112). -/
def ownInst (s : State) (c h : Nat) : Option Inst :=
  (tabFind s.insts h).bind fun i => if i.fn = fnOf s c && some i.dom = domOfCtx s c then some i else none

/-- Contexts bound to an instance. -/
def boundTo (s : State) (h : Nat) : List Nat := (s.ctxs.filter fun e => e.2.inst = some h).map Prod.fst

/-- Instances that a context has loaded and not unloaded, with loads under way (13 R420 MAX_INST). -/
def loadedBy (s : State) (c : Nat) : Nat :=
  (s.insts.filter fun e => e.2.ctx = c).length +
    ((ctxOf s c).queue.filter fun a => match a.work, a.done with | .loading _ _, none | .coreRead _ _ _, none => true | _, _ => false).length

/-- Bytes of output staging a bind of a Formula reserves (09 R311).
DEDUCED: notes/assumptions/14. -/
def stagingOf (f : Formula) : Nat := 8 + ((f.tensors.filter fun t => t.role = .output).map declBytes).sum

/-- Whether some ADAPTER tensor of a Formula has no chunk in a slot (04 R120). -/
def adapterMissing (f : Formula) (slot : Nat) : Bool :=
  f.tensors.any fun t => t.role = .adapter && !(f.chunks.any fun c => c.tensor = t.id && c.slot = slot)

/-- The status of the first of checks 1 to 6 of R312 that refuses a descriptor; none where it is admitted. A management descriptor's own
checks come at its turn (04 R112). -/
def refusal (s : State) (c : Nat) (d : Desc) : Option Nat :=
  let k := ctxOf s c
  let bound := k.inst.isSome
  let overRange := match k.prov with | some p => decide (p.maxOut < k.queue.length + 1) | none => true
  let ver := decide (d.head.ver.toNat ≠ k.ver)
  match d.body with
  | .undefinedOp _ => some stBadVersion
  | .request b =>
    let pos := (k.session.map Session.pos).getD 0
    let quota := overRange || (match k.prov with | some p => decide (p.maxTokens < pos + b.nTokens.toNat) | none => true)
    let bad := match instOf s c with | some i => requestMalformed s c i.f b | none => true
    let rng := match instOf s c with | some i => requestRange i.f b | none => false
    firstFail [(stBadVersion, ver), (stCtxState, !bound), (stQuota, quota), (stBadDesc, bad), (stRange, rng)]
  | .cancel _ | .nop | .unload _ => firstFail [(stBadVersion, ver), (stQuota, overRange)]
  | .load a n =>
    let inst := match k.prov with | some p => decide (p.maxInst < loadedBy s c + 1) | none => true
    firstFail [(stBadVersion, ver), (stQuota, overRange || inst), (stBadDesc, decide (a.toNat % 128 ≠ 0)),
      (stRange, decide (n.toNat = 0) || decide (2 ^ 28 < n.toNat))]
  | .chunk a _ _ => firstFail [(stBadVersion, ver), (stQuota, overRange), (stBadDesc, decide (a.toNat % 128 ≠ 0))]
  | .bind _ _ _ => firstFail [(stBadVersion, ver), (stCtxState, bound), (stQuota, overRange)]
  | .unbind => firstFail [(stBadVersion, ver), (stCtxState, !bound), (stQuota, overRange)]
  | .pin p => firstFail [(stBadVersion, ver), (stCtxState, !bound), (stQuota, overRange), (stRange, !([0, 1, 3].contains p.tier.toNat))]

/-- The opcode's own checks of a management descriptor (check 7 of R312; R109 check 1, R110, R112, R120, R157, R162), at its turn. -/
def turnRefusal (s : State) (c : Nat) (b : DescBody) : Option Nat :=
  let k := ctxOf s c
  match b with
  | .load _ _ => firstFail [(stFmlaLimit, decide (64 ≤ s.insts.length))]
  | .chunk _ n h =>
    let i := ownInst s c h.toNat
    let rng := match i with | some x => decide (x.f.chunks.length ≤ n.toNat) | none => false
    let st := match i with | some x => decide (x.st ≠ .loading) | none => false
    firstFail [(stFmlaState, i.isNone), (stRange, rng), (stFmlaState, st)]
  | .unload h =>
    let i := ownInst s c h.toNat
    let st := match i with | some x => decide (x.st = .unloading) | none => true
    firstFail [(stFmlaState, st), (stFmlaBusy, decide (boundTo s h.toNat ≠ []))]
  | .bind h sv slot =>
    let i := ownInst s c h.toNat
    let st := match i with | some x => decide (x.st ≠ .ready) | none => true
    let rng := match i with | some x => sv && adapterMissing x.f slot.toNat | none => false
    let cap := match i, k.prov with
      | some x, some p => decide (t2Free s p.dom < stagingOf x.f + sessionReserve x.f p)
      | _, _ => true
    firstFail [(stFmlaState, st), (stRange, rng), (stFmlaCapacity, cap)]
  | .pin p =>
    let i := ownInst s c p.handle.toNat
    let rng := match i with
      | some x => match formulaDecl x.f p.tensor.toNat with
        | some t => t.role = .adapter && !(x.f.chunks.any fun c => c.tensor = t.id && c.slot = p.slot.toNat)
        | none => true
      | none => false
    firstFail [(stFmlaState, i.isNone), (stRange, rng)]
  | _ => none

/-- Tokens committed by an admitted request (09 R316 TOKENS_OUT). -/
def tokensOf (a : Adm) : Nat := match a.work with | .request r => r.tokens | _ => 0

/-- PAYLOAD of a descriptor that ends before it is admitted: a REQUEST reports the session's position (09 R316). -/
def refusedPayload (k : Ctx) (d : Desc) : Nat :=
  match d.body with | .request _ => requestPayload 0 ((k.session.map Session.pos).getD 0) 0 | _ => 0

/-- Releases everything a session holds: its units, place, reservation, staging and pins (04 R111, 05
R157, R161, R162; 09 R306), its granules becoming zero-pending (08 R287). Open requests end with ST_CANCELLED. -/
def releaseSession (s : State) (c : Nat) : State :=
  let s0 := modMem s fun m => markPending m fun g => decide (Config.granuleOwner g = c) && (Config.granuleInst g).isNone
  let s1 := { s0 with plc := { s.plc with
      units := s.plc.units.filter fun u => !((u.key.kind = .kv || u.key.kind = .sketch) && u.key.owner = c)
      pools := s.plc.pools.map fun p => { p with taken := p.taken.filter (· ≠ c) }
      pins := s.plc.pins.filter fun p => !(p.kv && p.ctx = c)
      newPins := s.plc.newPins.filter fun p => !(p.kv && p.ctx = c) } }
  modCtx s1 c fun k => { k with
    inst := none, session := none, place := none, reservedBytes := 0, stagingBytes := 0, space := none, readyAt := none
    queue := (k.queue.map fun a => if openRequest a then
        { a with done := some (stCancelled, requestPayload (tokensOf a) ((k.session.map Session.pos).getD 0) 0, false), deadline := none } else a).map
      fun a => match a.work, a.done with
        | .cancelling _, none => { a with done := some (stOk, 1, false) }
        | _, _ => a }

/-- Binds a context to an instance and starts an empty session (04 R111; 05 R161, R162; 09 R311). -/
def bindSession (s : State) (c h : Nat) (slot : Option Nat) : State :=
  match tabFind s.insts h, (ctxOf s c).prov with
  | some i, some p =>
    let pool := (s.plc.pools.zipIdx).find? fun z => z.1.inst = h && decide (z.1.taken.length < z.1.places)
    let s1 := match pool with
      | some z => { s with plc := { s.plc with pools := listMod s.plc.pools z.2 fun q => { q with taken := q.taken ++ [c] } } }
      | none => s
    modCtx s1 c fun k => { k with
      inst := some h, session := some (sessionStart k.seed slot), place := pool.map Prod.snd
      reservedBytes := sessionReserve i.f p, stagingBytes := stagingOf i.f }
  | _, _ => s

/-- The inputs a REQUEST names, with their data as the device reads them (09 R310). -/
def requestInputs (s : State) (c : Nat) (b : ReqBody) : List ReqInput :=
  (inputEntries s c b).map fun e =>
    ⟨e.tensor, if e.ceilValid then some e.ceil else none, hostBytes s (spaceOf s c) e.addr e.bytes⟩

/-- Where the range of a pin ends: a COUNT of 0 names all from FIRST on (05 R157). -/
def pinEnd (p : Pin) : Nat := p.first + (if p.count = 0 then 2 ^ 32 else p.count)

/-- Whether two pins name units in common (05 R158 SUPERSEDED). -/
def pinsMeet (a b : Pin) : Bool :=
  a.inst = b.inst && a.tensor = b.tensor && a.slot = b.slot && a.kv = b.kv && (!a.kv || a.ctx = b.ctx) &&
    decide (b.first < pinEnd a) && decide (a.first < pinEnd b)

/-- What a later pin or unpin leaves of a pin: its parts before and after the later one's range (05 R158). -/
def pinRest (p q : Pin) : List Pin :=
  if !pinsMeet p q then [q]
  else (if q.first < p.first then [{ q with count := p.first - q.first }] else []) ++
    (if pinEnd p < pinEnd q then [{ q with first := pinEnd p, count := if q.count = 0 then 0 else pinEnd q - pinEnd p }] else [])

/-- The part of a pin that a later one replaces ends with SUPERSEDED (05 R158). -/
def supersede (p : Pin) (s : State) (q : Pin) : State :=
  let lo := max p.first q.first
  declineHint s q lo (if p.count = 0 && q.count = 0 then 0 else min (pinEnd p) (pinEnd q) - lo) 0x06

/-- Records a pin request or PIN hint, or declines it (05 R157, R158): a range the tier cannot hold is declined with 0x05 and replaces nothing;
what the others share with earlier pins supersedes those. -/
def recordPin (s : State) (p : Pin) (hint : Bool) : State :=
  match tabFind s.insts p.inst with
  | none => s
  | some i => match formulaDecl i.f p.tensor with
    | none => s
    | some t =>
      let io := t.role = .input || t.role = .output || t.role = .activation
      let kv := t.role = .kvK || t.role = .kvV
      if io || (kv && (hint || p.tier = 0)) || (p.tier = 0 && isExpert i.f t) || p.tier = 2 then
        declineHint s p p.first p.count 0x05
      else
        let hit := (s.plc.pins ++ s.plc.newPins).filter (pinsMeet p)
        let s1 := { s with plc := { s.plc with
          pins := s.plc.pins.flatMap (pinRest p)
          newPins := s.plc.newPins.flatMap (pinRest p) } }
        let s2 := hit.foldl (supersede p) s1
        let unpinned := updUnits s2 (fun u => u.key.tensor = p.tensor && u.key.slot = p.slot &&
            (if p.kv then u.key.owner = p.ctx && u.key.kind = .kv else u.key.owner = p.inst && u.key.kind ≠ .kv && u.key.kind ≠ .sketch) &&
            decide (p.first ≤ u.key.index) && (decide (p.count = 0) || decide (u.key.index < p.first + p.count)))
          fun u => { u with pin0 := false, pin1 := false }
        if p.tier = 3 then unpinned
        else { unpinned with plc := { unpinned.plc with newPins := unpinned.plc.newPins ++ [p] } }

/-- Marks a request to end with a status; the first mark stands (09 R313).
DEDUCED: notes/assumptions/64. -/
def endLater (st : Nat) (a : Adm) : Adm :=
  match a.work with
  | .request r => { a with work := .request { r with endWith := some (r.endWith.getD st) } }
  | _ => a

/-- The work of the management descriptor a context has open: it has one at most (09 R312). -/
def mgmtWork (k : Ctx) : Option Work := (k.queue.find? fun a => a.mgmt && a.done.isNone).map Adm.work

/-- Whether one work binds to an instance that the other unloads (04 R112). -/
def bindMeetsUnload : Option Work → Option Work → Bool
  | some (.queued (.bind h _ _)), some (.queued (.unload g)) => h = g
  | some (.queued (.unload g)), some (.queued (.bind h _ _)) => h = g
  | _, _ => false

/-- Puts a context's descriptor into the device's queue (04 R112): last, but before a later context's bind or unload of the same instance
admitted in the same tick. -/
def queueMgmt (s : State) (c : Nat) : State :=
  let before (e : Nat × Nat) : Bool :=
    e.1 = s.gt && decide (c < e.2) && bindMeetsUnload (mgmtWork (ctxOf s c)) (mgmtWork (ctxOf s e.2))
  { s with mgmt := s.mgmt.takeWhile (!before ·) ++ [(s.gt, c)] ++ s.mgmt.dropWhile (!before ·) }

/-- Takes a descriptor off the ring and does what its admission does (09 R312, R313): a refused one
completes with its status; the others enter the queue with their work, management descriptors that of the device too (04 R112). -/
def admitDesc (s : State) (c : Nat) (d : Desc) : State :=
  let k := ctxOf s c
  let n := ringSize k.sqLog
  let head := if k.sqHead + 1 = n then 0 else k.sqHead + 1
  let adm (mgmt : Bool) (w : Work) (dl : Option Nat) (done : Option (Nat × Nat × Bool)) : Adm :=
    ⟨d.head.tag.toNat, d.head.noIrq, mgmt, w, dl, done⟩
  let push (t : State) (a : Adm) : State :=
    modCtx t c fun q => { q with queue := q.queue ++ [a], sqHead := head, waiting := none }
  match refusal s c d with
  | some st => push s (adm false .other none (some (st, refusedPayload k d, false)))
  | none => match d.body with
    | .request b =>
      let recs := if b.rflags.getLsbD 4 then
          (recordsOf (b.recLen.toNat + 1) (hostBytes s (spaceOf s c) b.recAddr.toNat b.recLen.toNat)).getD [] else []
      let dl := if b.deadlineUs.toNat = 0 then none else some (s.gt + b.deadlineUs.toNat * 1000)
      let entry := match instOf s c with
        | some i => if 0 < b.nTokens.toNat then i.f.entryPrefill else i.f.entryDecode
        | none => 0
      let s1 := push s (adm false (.request ⟨b, requestInputs s c b, recs, 0, 0, entry, false, none⟩) dl none)
      modCtx s1 c fun q => { q with readyAt := (match q.readyAt with | some t => some t | none => some s.gt),
                                    waitedSince := if q.readyAt.isSome then q.waitedSince else s.gt }
    | .cancel tag =>
      let hit (a : Adm) : Bool := openRequest a && a.tag = tag.toNat
      match k.queue.find? hit with
      | none => push s (adm false .other none (some (stOk, 0, false)))
      | some a =>
        let mark := modCtx s c fun q => { q with queue := modFirst hit (endLater stCancelled) q.queue }
        push mark (adm false (.cancelling a.tag) none none)
    | .nop => push s (adm false .other none (some (stOk, 0, false)))
    | .load a len => queueMgmt (push s (adm true (.loading a.toNat len.toNat) none none)) c
    | .chunk a j h => queueMgmt (push s (adm true (.chunk a.toNat j.toNat h.toNat) none none)) c
    | .unload _ | .bind _ _ _ | .unbind | .pin _ => queueMgmt (push s (adm true (.queued d.body) none none)) c
    | .undefinedOp _ => s

/-- Whether the descriptor that waits may be admitted now (09 R307 FENCE, R312, R315). -/
def mayAdmit (k : Ctx) (d : Desc) : Bool :=
  k.enable && k.enabled && !k.error && !k.paused && decide (8 < freeSlots k) && !(k.queue.any fun a => a.mgmt && a.done.isNone) &&
    (!d.head.fence || k.queue = [])

/-- Admits the descriptor that waits, where it may. -/
def tryAdmit (s : State) (c : Nat) : State :=
  match (ctxOf s c).waiting with
  | none => s
  | some d => if mayAdmit (ctxOf s c) d then admitDesc s c d else s

end Sys2Proof.Machine
end

