-- ==== Sys2Proof/Machine/Manage.lean ====
section
/-!
DEFINITION. The management descriptors at their turn in the device's queue: loads, chunks, binds, unbinds, unloads and pins
(04_formulas_operations.md R109 to R112; 05_placement.md R155, R157), and how a context's rings move on (09_host_rings.md R306, R327).
-/
namespace Sys2Proof.Machine

/-- Whether a Formula's SHARD tensors await an exchange with other devices (04 R110, R131). -/
def needsExchange (f : Formula) (dev : Nat) : Bool :=
  (f.tensors.any fun t => t.shard) &&
    f.ops.any fun o => decide (0x10 ≤ o.opcode) && decide (o.opcode ≤ 0x13) && decide (attr o 0 1 ≠ 2 ^ dev)

/-- Whether the DESC entry of the load that gave a handle is still to be written (04 R110). -/
def loadOwed (s : State) (i : Inst) (h : Nat) : Bool :=
  (ctxOf s i.ctx).queue.any fun a => match a.work, a.done with
    | .coreRead _ _ _, some (st, pl, _) => st = stOk && pl = h
    | _, _ => false

/-- An instance that holds every chunk, and every exchanged summary it awaits, becomes READY, once its tilings are computed (04 R110; 05
R150, R163): one without chunks only once its load's DESC entry is written. -/
def checkReady (s : State) (h : Nat) : State :=
  match tabFind s.insts h with
  | some i =>
    if i.st = .loading && decide (i.chunks.length = i.f.chunks.length) && !i.exchange && !(i.f.chunks = [] && loadOwed s i h) then
      let s1 := tileInst s h
      event { s1 with insts := tabPut s1.insts h { i with st := .ready } } i.ctx (evtEntry 0x04 h stOk 0)
    else s
  | none => s

/-- The lowest free instance handle (04 R111). -/
def freeHandle (s : State) : Option Nat := (List.range 64).find? fun h => (tabFind s.insts h).isNone

/-- Creates a LOADING instance: its units' homes, its RESERVE pools and its PIN hints (04 R109, 05 R142,
R155). A PIN hint whose VALUE names no tier is declined as one the range cannot be held in (R158 TIER_INVALID).
DESIGN CHOICE: notes/assumptions/80. -/
def createInst (s : State) (c h dom : Nat) (f : Formula) : State :=
  let i : Inst := ⟨.loading, f, fnOf s c, dom, c, [], [], needsExchange f s.rst.trayPos⟩
  let pools := (f.hints.filter fun q => q.kind = 5).map fun q => (⟨h, q.first, q.value, q.value * q.first * f.kvBytes, []⟩ : Pool)
  let s1 := { s with
    insts := tabPut s.insts h i
    plc := { s.plc with units := placeWeights s h dom f, pools := s.plc.pools ++ pools } }
  (f.hints.filter fun q => q.kind = 1).foldl (fun t q =>
    let kv := match formulaDecl f q.tensor with | some d => d.role = .kvK || d.role = .kvV | none => false
    recordPin t ⟨c, h, q.tensor, q.slot, q.first, q.count, min 2 (q.value % 4), kv, []⟩ true) s1

/-- What a management descriptor gives at its turn: the state, its status and payload, and the instance that may then become READY or has
FAILED. -/
structure Turn where
  state : State
  status : Nat
  payload : Nat
  ready : Option Nat
  failed : Option Nat

/-- A turn that ends with a status alone. -/
def turnEnd (s : State) (status : Nat) : Option Turn := some ⟨s, status, 0, none, none⟩

/-- The turn of a load whose core is read (04 R109): checks 1 to 10 in order; on success an instance is LOADING under a new handle. Homes lie
in T2, so check 10 judges T2; a load reserves no T1.
DEDUCED: notes/assumptions/95. -/
def loadTurn (s : State) (c n : Nat) (core : List Byte) : Option Turn :=
  match freeHandle s, domOfCtx s c with
  | some h, some d => match checkCore n (ctxOf s c).ver s.rst.trayPos s.sec.slots core with
    | .error st => turnEnd s st
    | .ok f =>
      if (liveStacks s d).length < f.minStacks then turnEnd s stFmlaStacks
      else if t2Free s d < f.weightBytes + f.constData.length + reserveBytes f then turnEnd s stFmlaCapacity
      else some ⟨createInst s c h d f, stOk, h, some h, none⟩
  | _, _ => turnEnd s stFmlaLimit

/-- The turn of a chunk (04 R110): a committed one ends at once; a length or digest mismatch fails the instance; otherwise the chunk commits.
It waits for its bytes. -/
def chunkTurn (s : State) (c h j : Nat) (data : Option (List Byte)) : Option Turn :=
  match turnRefusal s c (.chunk 0#64 (BitVec.ofNat 32 j) (BitVec.ofNat 8 h)) with
  | some st => turnEnd s st
  | none => match tabFind s.insts h with
    | none => turnEnd s stFmlaState
    | some i =>
      if (tabFind i.chunks j).isSome then turnEnd s stOk
      else match data, i.f.chunks[j]? with
        | none, _ => none
        | some _, none => turnEnd s stRange
        | some bs, some d =>
          if bs.length ≠ d.length ∨ sha384 bs ≠ d.digest then
            some ⟨{ s with insts := tabPut s.insts h { i with st := .failed } }, stFmlaDigest, 0, none, some h⟩
          else some ⟨{ s with insts := tabPut s.insts h { i with chunks := tabPut i.chunks j bs } }, stOk, 0, some h, none⟩

/-- The turn of a bind, unbind, unload or pin that its checks admit (04 R111, R112; 05 R157). -/
def queuedTurn (s : State) (c : Nat) (b : DescBody) : State :=
  match b with
  | .unload h =>
    { s with
      insts := tabUpd s.insts h.toNat fun i => { i with st := .unloading }
      plc := { s.plc with pins := s.plc.pins.filter fun p => p.inst ≠ h.toNat, newPins := s.plc.newPins.filter fun p => p.inst ≠ h.toNat } }
  | .bind h sv slot => bindSession s c h.toNat (if sv then some slot.toNat else none)
  | .unbind => releaseSession s c
  | .pin p =>
    let kv := match ownInst s c p.handle.toNat with
      | some i => match formulaDecl i.f p.tensor.toNat with
        | some t => t.role = .kvK || t.role = .kvV
        | none => false
      | none => false
    recordPin s ⟨c, p.handle.toNat, p.tensor.toNat, p.slot.toNat, p.first.toNat, p.count.toNat, p.tier.toNat, kv, []⟩ false
  | _ => s

/-- The descriptor that a waiting command brings a context, where it is a bind or an unload that the context may admit. -/
def bringsDesc (s : State) : Instr → Option (Nat × DescBody)
  | .unload c _ h => some (c.toNat, .unload h)
  | .bind c _ h sv slot => some (c.toNat, .bind h sv slot)
  | .hostReadCompletion c .descriptor bs =>
    let d := descOf bs
    if mayAdmit (ctxOf s c.toNat) d && (refusal s c.toNat d).isNone then some (c.toNat, d.body) else none
  | _ => none

/-- Whether a command that waits in this tick brings an unload of the instance a context's descriptor binds to, or a bind to the one it
unloads, for a lower context: that one goes first (04 R112). -/
def yieldsTurn (s : State) (c : Nat) (b : DescBody) : Bool :=
  s.pending.any fun q => match b, bringsDesc s q with
    | .bind h _ _, some (c', .unload h') => h = h' && decide (c' < c)
    | .unload h, some (c', .bind h' _ _) => h = h' && decide (c' < c)
    | _, _ => false

/-- The turn of a management descriptor; none where it waits: a load or chunk for what it reads, a bind or unload for a lower context's of the
same tick. -/
def turnOf (s : State) (c : Nat) (w : Work) : Option Turn :=
  match w with
  | .loading _ _ => (turnRefusal s c (.load 0#64 0#64)).bind (turnEnd s)
  | .coreRead _ core n => loadTurn s c n core
  | .chunk _ j h => chunkTurn s c h j none
  | .chunkRead data j h => chunkTurn s c h j (some data)
  | .queued b =>
    if yieldsTurn s c b then none
    else match turnRefusal s c b with
      | some st => turnEnd s st
      | none => some ⟨queuedTurn s c b, stOk, 0, none, none⟩
  | _ => turnEnd s stOk

/-- The open management descriptor of a context has its status. -/
def endMgmt (s : State) (c status payload : Nat) : State :=
  modCtx s c fun k => { k with queue := modFirst (fun a => a.mgmt && a.done.isNone) (fun a => { a with done := some (status, payload, false) }) k.queue }

/-- The open management descriptor of a context goes on to a work. -/
def setWork (s : State) (c : Nat) (w : Work) : State :=
  modCtx s c fun k => { k with queue := modFirst (fun a => a.mgmt && a.done.isNone) (fun a => { a with work := w }) k.queue }

/-- Completes a disable once no step runs the context (09 R306): open descriptors are cancelled, frames
discarded, the session freed, ENABLED cleared. -/
def finishDisable (s : State) (c : Nat) : State :=
  let k := ctxOf s c
  if k.enable || !k.enabled || inBatch s c then s
  else
    let s1 := releaseSession (setCtx s c { k with
      output := none, holdTimer := none, waiting := none, frameHeld := false
      queue := k.queue.map fun a => match a.work, a.done with | .cancelling _, none => { a with done := some (stCancelled, 0, false) } | _, _ => a }) c
    let s2 := modCtx s1 c fun q => { q with queue := q.queue.map fun a =>
      match a.done with | none => { a with done := some (stCancelled, 0, false) } | some _ => a }
    let s3 := flushQueue (k.queue.length + 1) s2 c
    let s4 := { s3 with mgmt := s3.mgmt.filter fun e => e.2 ≠ c }
    modCtx s4 c fun q => { q with enabled := false, queue := [], events := [], buffers := [], stopped := none, error := false, errCode := 0,
                                  noWrites := false, coalesce := none, unsignalled := 0 }

/-- The instances without chunks that a context has loaded become READY once their loads' DESC entries are written (04 R110). -/
def readyLoads (s : State) (c : Nat) : State :=
  (s.insts.filter fun e => e.2.ctx = c && e.2.f.chunks = []).foldl (fun t e => checkReady t e.1) s

/-- Lets a context's rings move: frames, completions, admission and events, in the order R327 gives
them.
DEDUCED: notes/assumptions/15. -/
def moveRings (s : State) (c : Nat) : State :=
  let s1 := armHold (pump ((ctxOf s c).buffers.length + 1) s c) c
  let s2 := finishOutput s1 c
  let s3 := flushQueue ((ctxOf s2 c).queue.length + 2) s2 c
  let s4 := flushEvents 65 s3 c
  let s5 := tryAdmit s4 c
  readyLoads (finishDisable (flushQueue ((ctxOf s5 c).queue.length + 2) s5 c) c) c

/-- Once a turn's DESC entry is written, an instance that holds all its chunks becomes READY, one that failed its digest says so (04 R110). -/
def afterTurn (s : State) (t : Turn) : State :=
  let s1 := match t.ready with | some h => checkReady s h | none => s
  match t.failed.bind (tabFind s1.insts), t.failed with
  | some i, some h => event s1 i.ctx (evtEntry 0x05 h stOk 0)
  | _, _ => s1

/-- Runs the device's queue of management descriptors from its front, until one waits (04 R112). A context whose descriptor is gone has left
the queue.
DEDUCED: notes/assumptions/96. -/
def runMgmt : Nat → State → State
  | 0, s => s
  | fuel + 1, s =>
    match s.mgmt with
    | [] => s
    | (_, c) :: rest =>
      match mgmtWork (ctxOf s c) with
      | none => runMgmt fuel { s with mgmt := rest }
      | some w => match turnOf s c w with
        | none => s
        | some t => runMgmt fuel (afterTurn (moveRings (endMgmt { t.state with mgmt := rest } c t.status t.payload) c) t)

/-- Lets a context's rings move, and the device's queue of management descriptors with them. -/
def settle (s : State) (c : Nat) : State := runMgmt 8192 (moveRings s c)

/-- The open load or chunk of a context whose read fails ends at once with a status and leaves the queue (10 R338; 09 R328). -/
def failRead (s : State) (c status : Nat) : State :=
  settle { endMgmt s c status 0 with mgmt := s.mgmt.filter fun e => e.2 ≠ c } c

end Sys2Proof.Machine
end

