-- ==== Sys2Proof/Machine/Stream.lean ====
section
/-!
DEFINITION. What streams into the tiles: the tile whose share holds a weight granule, the operands fetched for the next operation,
for the experts that tokens have chosen and for the guess of the next step, and passes (05_placement.md R148, R149, R153).
-/
namespace Sys2Proof.Machine

/-- The bytes of a range that lie in another. -/
def overlap (lo hi a b : Nat) : Nat := min hi b - max lo a

/-- The operation whose tiling places a granule: the first that reads its tensor.
DEDUCED: notes/assumptions/13. -/
def readerOf (i : Inst) (t : Nat) : Option OpRec := i.f.ops.find? fun o => o.ins.contains (some t)

/-- Bytes of a granule in the shares of each tile: its rows are columns of the output, 64 to a block, and each part of a block's
reduction dimension reads an equal part of them.
DEDUCED: notes/assumptions/13. -/
def granuleShares (x : Dom) (t : Tiling) (d : TensorDecl) (g : Nat) : List (Nat × Nat) :=
  let n := max 1 (rowSize d.fmt (declCols d))
  let lo := g * 2 ^ 21
  let hi := min (lo + 2 ^ 21) (declBytes d)
  let parts := partsOf t (declCols d)
  let c0 := lo / (64 * n)
  let cols := (List.range ((hi - 1) / (64 * n) + 1 - c0)).map (c0 + ·)
  cols.foldl (fun m c => (List.range parts).foldl (fun m p =>
    let q := blockTile x t c p
    tabPut m q (tabGet m 0 q + overlap lo hi (c * 64 * n) ((c + 1) * 64 * n) / parts)) m) []

/-- The tile a resident granule lies in: the one whose share covers most of its bytes, ties to the lowest tile ID (05 R149). -/
def granuleTile (s : State) (d : Nat) (u : PUnit) : Option Nat :=
  match tabFind s.insts u.key.owner with
  | none => none
  | some i => match readerOf i u.key.tensor, formulaDecl i.f u.key.tensor with
    | some o, some td => match tilingOf (domOf s d) u.key.owner (classOfOp i o) with
      | none => none
      | some t =>
        let live := (granuleShares (domOf s d) t td u.key.index).filter fun e => (stackTiles s (e.1 / 256)).contains e.1
        (sortBy (fun a b => if a.2 ≠ b.2 then decide (b.2 < a.2) else decide (a.1 < b.1)) live).head?.map Prod.fst
    | _, _ => none

/-- The operation `n` of a step of an instance. -/
def opAt (i : Inst) (step n : Nat) : Option OpRec :=
  match i.f.steps[step]? with
  | some r => if n < r.count then i.f.ops[r.first + n]? else none
  | none => none

/-- Rows and columns of an operation's output over a batch, and its reduction dimension (04_formulas_operations.md R118). -/
def opShape (i : Inst) (o : OpRec) (rows : List BatchRow) : Nat × Nat × Nat :=
  match outDecl i.f o with
  | some od => (((rows.map BatchRow.tokens).sum) * (declElems od / max 1 (declCols od)), declCols od, match inDecl i.f o 1 with | some b => dim b 0 | none => 1)
  | none => (0, 0, 1)

/-- What streams for an operation (05 R148, R153): the units it reads that are not resident, an expert's in ascending index, those that
are, and the passes it runs in. -/
def streamOf (s : State) (d h step n : Nat) (guess : Bool) (rows : List BatchRow) : Option Prefetch :=
  match tabFind s.insts h with
  | none => none
  | some i => match opAt i step n with
    | none => none
    | some o =>
      let exact := (domOf s d).batch.any Batch.exact
      let all := sortBy (fun a b => decide (a.key.index < b.key.index)) (s.plc.units.filter fun u => u.dom = d && opReads i o h exact rows u)
      let us := all.filter fun u => u.t0.isNone
      let z := opShape i o rows
      let passes := match tilingOf (domOf s d) h (classOfOp i o) with
        | some t => passesOf (domOf s d) t (blocksOf o.opcode z.1 z.2.1) z.2.2 ((us.map PUnit.bytes).sum)
        | none => 0
      some ⟨h, step, n, guess, us.map PUnit.key, (all.filter fun u => u.t0.isSome).map PUnit.key, passes⟩

/-- Whether an operation that runs in a domain, or the next one as far as it is known, reads a unit (05 R146). -/
def busyUnit (s : State) (d : Nat) (u : PUnit) : Bool := (domOf s d).prefetch.any fun p => p.units.contains u.key || p.held.contains u.key

/-- The value most of a list holds, the lowest where several do. -/
def mostCommon (xs : List Nat) : Option Nat :=
  (sortBy (fun a b => if xs.count a ≠ xs.count b then decide (xs.count b < xs.count a) else decide (a < b)) xs).head?

/-- The step the Director prefetches for before the next one is known: the one most of the batch's contexts took at their last
boundary, or entered their requests by (05 R153). -/
def guessStep (s : State) (b : Batch) : Option Nat :=
  mostCommon (b.rows.filterMap fun r => (curRequest (ctxOf s r.ctx)).map Request.next)

/-- Adds what is fetched for an operation to what already streams for it. -/
def addStream (ps : List Prefetch) (p : Prefetch) : List Prefetch :=
  let same (q : Prefetch) : Bool := q.inst = p.inst && q.step = p.step && q.op = p.op && q.guess = p.guess
  (ps.filter fun q => !same q) ++ [{ p with units := (((ps.filter same).flatMap Prefetch.units) ++ p.units).eraseDups }]

/-- From the start of an operation the next one's operands are fetched: of its step, or of the guess of the next step (05 R153). -/
def prefetchNext (s : State) (d : Nat) : State :=
  match (domOf s d).batch with
  | none => s
  | some b =>
    match (streamOf s d b.inst b.step (b.op + 1) false b.rows).or ((guessStep s b).bind fun g => streamOf s d b.inst g 0 true b.rows) with
    | some p => modDom s d fun x => { x with prefetch := addStream x.prefetch p }
    | none => s

/-- When ROUTER_TOPK commits, the expert units it chose are fetched for the next EXPERT_MATMUL that reads them (05 R148): those without
a T1 copy, in ascending index. -/
def fetchExperts (s : State) (d : Nat) (i : Inst) (o : OpRec) (b : Batch) (rows : List BatchRow) : State :=
  if o.opcode ≠ 0x03 then s
  else
    let later (n : Nat) : Bool := match opAt i b.step n with | some e => decide (b.op < n) && decide (e.opcode = 0x02) && opIn e 2 = o.out | none => false
    match ((List.range (((i.f.steps[b.step]?).map StepRec.count).getD 0)).find? later).bind fun n => streamOf s d b.inst b.step n false rows with
    | none => s
    | some p =>
      let held (k : UnitKey) : Bool := s.plc.units.any fun u => u.key = k && u.t1.isSome
      modDom s d fun x => { x with prefetch := addStream x.prefetch { p with units := p.units.filter fun k => k.kind = .expert && !held k } }

/-- The operands of the operation a domain's batch is at are fetched where they do not stream already: at a step boundary after a wrong
guess or none, and when a batch that was cut goes on (05 R153). -/
def fetchOwn (s : State) (d : Nat) : State :=
  match (domOf s d).batch with
  | none => s
  | some b =>
    if (domOf s d).prefetch.any fun p => p.inst = b.inst && p.step = b.step && p.op = b.op && !p.guess then s
    else match streamOf s d b.inst b.step b.op false b.rows with
      | some p => modDom s d fun x => { x with prefetch := addStream x.prefetch p }
      | none => s

/-- An operation has ended: the stream halves that held its operands are free (05 R153). -/
def dropStreams (x : Dom) (b : Batch) : Dom := { x with prefetch := x.prefetch.filter fun p => p.guess || decide (p.step ≠ b.step) || decide (b.op < p.op) }

/-- A batch begins a step: a right guess is what streams for its first operation, and a wrong one is discarded (05 R153). -/
def settleGuess (x : Dom) (b : Batch) : Dom :=
  { x with prefetch := (x.prefetch.filter fun p => p.guess && p.inst = b.inst && p.step = b.step).map fun p => { p with guess := false } }

end Sys2Proof.Machine
end

