-- ==== Sys2Proof/Machine/Space.lean ====
section
/-!
DEFINITION. Room for sessions and the Director's work at a step boundary: KV blocks and sketch pages,
staging copies, spilling, pins and the T0 resident set (05_placement.md R139 to R162).
-/
namespace Sys2Proof.Machine

/-- The KV blocks and sketch pages of a session of `n` tokens, with their sizes (05 R139). -/
def kvUnits (f : Formula) (c n : Nat) : List (UnitKey × Nat) :=
  (f.tensors.filter fun t => t.role = .kvK || t.role = .kvV).flatMap fun t =>
    (List.range ((n + 255) / 256)).flatMap fun b =>
      (⟨.kv, c, t.id, 0, b⟩, 256 * declBytes t) ::
        (if t.role = .kvK && sketched f t.id then [(⟨.sketch, c, t.id, 0, b⟩, 256 * sketchEntry t)] else [])

/-- The units a session needs and does not hold yet. -/
def missingKv (s : State) (f : Formula) (c n : Nat) : List (UnitKey × Nat) :=
  (kvUnits f c n).filter fun z => !(s.plc.units.any fun u => u.key = z.1)

/-- A new unit of a session in its home (05 R142). -/
def kvUnit (s : State) (d : Nat) (z : UnitKey × Nat) : PUnit :=
  newUnit z.1 z.2 d (.port (kvPort s z.1.kind z.1.index z.1.owner)) 0 false

/-- The device's pair partner (12_mirrored_pairs.md R413 PARTNER). -/
def partnerOf (s : State) : Nat := regBits s 0x3400000 30 28

/-- Whether a tray peer is reachable (11 R376). -/
def peerReachable (s : State) (p : Nat) : Bool := s.fab.peers.any fun e => e.1 = p && (e.2.st = .direct || e.2.st = .detour)

/-- Lent T2 of a peer that this device's blocks do not fill (05 R161): none of one that cannot be reached. -/
def lentFree (s : State) (p : Nat) : Nat :=
  if peerReachable s p then Config.peerLend p * gib - ((s.plc.units.filter fun u => u.home = .peer p).map PUnit.bytes).sum else 0

/-- The peer a block is moved to: the one with the most free lent space, ties to the lowest device, never the pair partner (05 R161). -/
def spillPeer (s : State) (bytes : Nat) : Option Nat :=
  (sortBy (fun a b => decide (lentFree s b < lentFree s a)) ((List.range 8).filter fun p =>
    decide (p ≠ partnerOf s) && decide (p ≠ s.rst.trayPos) && decide (bytes ≤ lentFree s p) && decide (0 < bytes))).head?

/-- Moves the coldest movable KV block of a domain's mirrored sessions into the lent T2 of a peer (05 R161).
DEDUCED: notes/assumptions/70. -/
def spillOne (s : State) (d : Nat) : Option State :=
  let can := s.plc.units.filter fun u => u.dom = d && u.key.kind = .kv && (ctxOf s u.key.owner).mirror && !u.moving &&
    (match u.home with | .port _ => true | _ => false)
  match sortBy (fun a b => decide (a.heat < b.heat)) can with
  | [] => none
  | u :: _ => (spillPeer s u.bytes).map fun p => bump (updUnits s (fun v => v.key = u.key) fun v => { v with home := .peer p }) 0x100008C 1

/-- Makes `need` bytes of T2 free in a domain, spilling where it must; false where it cannot (05 R161). -/
def roomT2 (d need : Nat) : Nat → State → State × Bool
  | 0, s => (s, decide (need ≤ t2Free s d))
  | fuel + 1, s =>
    if need ≤ t2Free s d then (s, true)
    else match spillOne s d with
      | some s1 => roomT2 d need fuel s1
      | none => (s, false)

/-- The KV_K tensor that a scan reads. -/
def scanTensor (s : State) (k : ScanKey) : Nat :=
  match instOf s k.ctx with
  | some i => match i.f.ops[k.op]? with
    | some o => (opIn o 1).getD 0
    | none => 0
  | none => 0

/-- Whether a segment that reads a sketch page's T1 copy is dispatched in this tick (06 R207). -/
def dispatchReads (s : State) (u : PUnit) : Bool :=
  s.pending.any fun q => match q with
    | .segmentDispatch g _ k => decide (u.t1 = some g.toNat) && decide (k.ctx = u.key.owner) && decide (scanTensor s k = u.key.tensor) &&
        s.sil.scans.any fun x => x.key = k && x.pages.contains u.key.index
    | _ => false

/-- Whether a segment that runs, or is dispatched in this tick, reads a sketch page's T1 copy: its eviction waits for the segment to end (06
R207). -/
def beingScanned (s : State) (u : PUnit) : Bool :=
  dispatchReads s u || s.sil.banks.any fun e => match e.2.seg with
    | some g => decide (g.scan.ctx = u.key.owner) && decide (scanTensor s g.scan = u.key.tensor) && g.pages.contains u.key.index &&
        !g.spilled.contains u.key.index
    | none => false

/-- T1 pages of a session's sketches. -/
def sketchPages (s : State) (c : Nat) : Nat :=
  (s.plc.units.filter fun u => u.key.kind = .sketch && u.key.owner = c && u.t1.isSome).length

/-- The order in which sketch pages are given up (05 R160): of the session with the most pages in T1, ties to the lowest context,
lowest page first. -/
def pageBefore (s : State) (a b : PUnit) : Bool :=
  let x := sketchPages s a.key.owner
  let y := sketchPages s b.key.owner
  if x ≠ y then decide (y < x) else if a.key.owner ≠ b.key.owner then decide (a.key.owner < b.key.owner)
  else decide (a.key.index < b.key.index)

/-- The weight or KV copy that R160 gives up next, by R146: an unpinned one that no batch stages and no operation reads, coldest first. -/
def coldestCopy (s : State) (d : Nat) : Option PUnit :=
  (sortBy (fun a b => decide (a.heat < b.heat)) (s.plc.units.filter fun u =>
    u.dom = d && u.t1.isSome && !u.staging && !u.moving && !u.pin1 && u.key.kind ≠ .sketch && !busyUnit s d u)).head?

/-- The pinned copy that yields while a reservoir that is lost leaves staging copies no room: the coldest (05 R158 YIELDED). -/
def yieldingCopy (s : State) (d : Nat) : Option PUnit :=
  if (List.range 8).any fun r => capOf s 1 r = .lost then
    (sortBy (fun a b => decide (a.heat < b.heat)) (s.plc.units.filter fun u => u.dom = d && u.t1.isSome && !u.staging && u.pin1)).head?
  else none

/-- The copy that staging copies take the room of (05 R158, R160): a weight or KV copy, then a sketch page, then a pinned one that
yields. -/
def giveUp (s : State) (d : Nat) : Option PUnit :=
  ((coldestCopy s d).or ((sortBy (pageBefore s) (s.plc.units.filter fun u => u.dom = d && u.key.kind = .sketch && u.t1.isSome && !beingScanned s u)).head?)).or
    (yieldingCopy s d)

/-- Drops the T1 copy of a unit, counting what it was (05 R180). -/
def dropT1 (s : State) (u : PUnit) : State :=
  bump (updUnits s (fun v => v.key = u.key) fun v => { v with t1 := none, t0 := if v.pin0 then v.t0 else none })
    (if u.key.kind = .sketch then 0x1000088 else 0x1000084) 1

/-- Whether a recorded pin names a unit (05 R157). -/
def pinCovers (p : Pin) (u : PUnit) : Bool :=
  u.key.tensor = p.tensor && u.key.slot = p.slot && decide (p.first ≤ u.key.index) &&
    (decide (p.count = 0) || decide (u.key.index < p.first + p.count)) &&
    (if p.kv then u.key.kind = .kv && u.key.owner = p.ctx
     else u.key.owner = p.inst && (u.key.kind = .granule || u.key.kind = .expert))

/-- A recorded pin of a tier that names a unit (05 R157). -/
def pinOf (s : State) (tier : Nat) (u : PUnit) : Option Pin := s.plc.pins.find? fun p => p.tier = tier && pinCovers p u

/-- A unit's pin in a tier ends with HINT_DECLINED (05 R157, R158). -/
def endPin (s : State) (tier reason : Nat) (u : PUnit) : State :=
  let s1 := updUnits s (fun v => v.key = u.key) fun v => if tier = 0 then { v with pin0 := false, gone := false } else { v with pin1 := false, gone := false }
  match pinOf s tier u with
  | some p => declineHint s1 p u.key.index 1 reason
  | none => s1

/-- Gives up a copy; the pin of one that yields ends (05 R158, R160). -/
def yieldCopy (s : State) (u : PUnit) : State := dropT1 (if u.pin1 then endPin s 1 0x03 u else s) u

/-- Makes `need` bytes of T1 free for staging copies (05 R160). -/
def roomT1 (d need : Nat) : Nat → State → State × Bool
  | 0, s => (s, decide (need ≤ t1Free s d))
  | fuel + 1, s =>
    if need ≤ t1Free s d then (s, true)
    else match giveUp s d with
      | some u => roomT1 d need fuel (yieldCopy s u)
      | none => (s, false)

/-- Bytes of a reservoir's sketch region (05 R143). -/
def sketchRegion (s : State) (r : Nat) : Nat := ((s.plc.units.filter fun u => u.key.kind = .sketch && (u.t1 = some r || u.dest = some r)).map PUnit.bytes).sum

/-- The largest sketch region of a reservoir under a domain's PLC_CFG (05 R143, R173, R175). -/
def sketchMost (s : State) (d : Nat) : Nat := cfgBits s d 21 16 * gib / 8

/-- Gives up weight and KV copies until a sketch page has room: none where it finds none (05 R143, R160). -/
def roomSketch (d need : Nat) : Nat → State → Option State
  | 0, s => if need ≤ t1Free s d then some s else none
  | fuel + 1, s =>
    if need ≤ t1Free s d then some s
    else (coldestCopy s d).bind fun u => roomSketch d need fuel (dropT1 s u)

/-- Gives a sketch page its T1 copy where its region and the domain's share hold it: weight and KV copies make room (05 R143,
R160). -/
def placeSketch (s : State) (d : Nat) (u : PUnit) : State :=
  match hashRsv s u.key.index u.key.owner with
  | none => s
  | some r =>
    if sketchMost s d < sketchRegion s r + u.bytes then s
    else match roomSketch d u.bytes (s.plc.units.length + 1) s with
      | some t => updUnits t (fun v => v.key = u.key) fun v => { v with t1 := some r }
      | none => s

/-- Gives the sketch pages of a session their T1 copies where they fit (05 R143). -/
def placeSketches (s : State) (d c : Nat) : State :=
  (s.plc.units.filter fun u => u.key.kind = .sketch && u.key.owner = c && !inT1 u).foldl (fun t u => placeSketch t d u) s

/-- Gives up the sketch pages of a reservoir beyond SKETCH_MAX (05 R160). -/
def trimRegion (d r : Nat) : Nat → State → State
  | 0, s => s
  | fuel + 1, s =>
    if sketchRegion s r ≤ sketchMost s d then s
    else match (sortBy (pageBefore s) (s.plc.units.filter fun u => u.key.kind = .sketch && u.t1 = some r && !beingScanned s u)).head? with
      | some u => trimRegion d r fuel (dropT1 s u)
      | none => s

/-- Gives up the sketch pages beyond SKETCH_MAX (05 R160, R175). -/
def trimSketches (s : State) (d : Nat) : State := (List.range 8).foldl (fun t r => trimRegion d r (t.plc.units.length + 1) t) s

/-- A KV block becomes its tensor's newest one of a context in a running batch: its copy lies in the reservoir of R143, wherever an older copy of it
lay or was bound for. -/
def toStaging (s : State) (u : PUnit) : PUnit :=
  if u.staging && u.t1.isSome then u
  else { u with staging := true, t1 := hashRsv s u.key.index u.key.owner, dest := none, moving := u.moving && u.dest.isNone, copied := u.copied && u.dest.isNone }

/-- The staging copies of a context in a running batch: the newest block of each KV tensor (05 R143). -/
def stage (s : State) (c n : Nat) : State :=
  let newest := (n + 255) / 256 - 1
  updUnits s (fun u => u.key.kind = .kv && u.key.owner = c) fun u =>
    if u.key.index = newest then toStaging s u else { u with staging := false }

/-- The copies of a domain's contexts that some test names stage no longer: their contexts are in no running batch (05 R143). -/
def unstage (s : State) (d : Nat) (p : Nat → Bool) : State :=
  updUnits s (fun u => u.dom = d && u.staging && p u.key.owner) fun u => { u with staging := false }

/-- Room for one step of a context that grows its session to `n` tokens: homes in T2, staging copies in
T1; none where either cannot be had (05 R160 to R162). -/
def makeRoom (s : State) (c d : Nat) (f : Formula) (n : Nat) : Option State :=
  let fresh := (missingKv s f c n).map (kvUnit s d)
  let need := ((fresh.filter fun u => !inReserve s u).map PUnit.bytes).sum
  let a := roomT2 d need (s.plc.units.length + 1) s
  if !a.2 then none
  else
    let s1 := modUnits a.1 fun us => us ++ fresh
    let newest := (n + 255) / 256 - 1
    let stageBytes := ((s1.plc.units.filter fun u => u.key.kind = .kv && u.key.owner = c && u.key.index = newest && !inT1 u).map
      PUnit.bytes).sum
    let b := roomT1 d stageBytes (s1.plc.units.length + 1) s1
    if !b.2 then none else some (placeSketches (stage b.1 c n) d c)

/-- A context is held out of its batch for space (05 R161): the wait begins with an event. -/
def holdForSpace (s : State) (c : Nat) : State :=
  match (ctxOf s c).space with
  | some _ => s
  | none => event (modCtx s c fun k => { k with space := some ⟨s.gt, s.gt + 100000000⟩ }) c (evtEntry 0x03 0 stOk s.gt)

/-- CAPACITY_WAIT_TIMER (05 R161): an event after every further 100 ms of waiting. -/
def execCapacityWaitTimer (c : BitVec 12) (s : State) : Out :=
  let c := c.toNat
  match (ctxOf s c).space with
  | some w =>
    if w.next ≤ s.gt then
      .next (event (modCtx s c fun k => { k with space := some { w with next := w.next + 100000000 } }) c
        (evtEntry 0x03 0 stOk (w.since + 2 ^ 64 * ((s.gt - w.since) / 1000000))))
    else .next s
  | none => .next s

/-- Bytes pinned in a tier of a domain. -/
def pinnedBytes (s : State) (d tier : Nat) : Nat :=
  ((s.plc.units.filter fun u => u.dom = d && (if tier = 0 then u.pin0 else u.pin1)).map PUnit.bytes).sum

/-- The resident area of one tile under a domain's PLC_CFG (05 R149, R173). -/
def tileArea (s : State) (d : Nat) : Nat := min 3 (cfgBits s d 10 8) * 2 ^ 21

/-- The resident areas of a domain together (05 R149, R157). -/
def residentArea (s : State) (d : Nat) : Nat := (workTiles s d none).length * tileArea s d

/-- Pins one unit, within the limits of R157; the copy a T1 pin calls for is made by `pinCopies`. -/
def pinUnit (s : State) (d : Nat) (p : Pin) (u : PUnit) : State :=
  let most := if p.tier = 0 then residentArea s d else (domOf s d).t1Gib * gib / 2
  if most < pinnedBytes s d p.tier + u.bytes then declineHint s p u.key.index 1 0x02
  else updUnits s (fun v => v.key = u.key) fun v => if p.tier = 0 then { v with pin0 := true } else { v with pin1 := true }

/-- Applies a pin to the units it names that it has not been applied to (05 R157). -/
def applyPin (s : State) (d : Nat) (p : Pin) : State :=
  let new := s.plc.units.filter fun u => u.dom = d && pinCovers p u && !p.done.contains u.key.index
  let s1 := new.foldl (fun t u => pinUnit t d p u) s
  { s1 with plc := { s1.plc with pins := s1.plc.pins.map fun q => if q = p then { q with done := q.done ++ new.map fun u => u.key.index } else q } }

/-- Pins take effect at a step boundary (05 R157, R159); a KV pin also takes each block that has come to
exist since. -/
def applyPins (s : State) (d : Nat) : State :=
  let mine (p : Pin) : Bool := match tabFind s.insts p.inst with | some i => i.dom = d | none => false
  let todo := s.plc.newPins.filter mine
  let again := s.plc.pins.filter fun p => p.kv && mine p
  let s1 := { s with plc := { s.plc with pins := s.plc.pins ++ todo, newPins := s.plc.newPins.filter fun p => !mine p } }
  (again ++ todo).foldl (fun t p => applyPin t d p) s1

/-- Why a pinned copy has no room: its unit left service and no other has room, or the share cannot hold it (05 R158, R159). -/
def noRoom (u : PUnit) : Nat := if u.gone then 0x04 else 0x01

/-- The copies that T1 pins call for are made within R147's budget; one the share cannot hold even after evictions is declined (05
R157, R158). A COLD hint does not keep a pin from its copy.
DESIGN CHOICE: notes/assumptions/108. -/
def pinCopies (s : State) (d : Nat) (busy : PUnit → Bool) : State :=
  (s.plc.units.filter fun u => u.dom = d && u.pin1 && !inT1 u && decide (u.home ≠ .lost)).foldl (fun t u =>
    if !migFits t d u.bytes then t
    else match evictFor t d (2 ^ 17) u.bytes busy (t.plc.units.length + 1) with
      | none => endPin t 1 (noRoom u) u
      | some t1 => startCopy t1 u) s

/-! ### The T0 resident set (R149) -/

/-- Bytes of the T0 copies in a tile. -/
def tileHeld (s : State) (t : Nat) : Nat := ((s.plc.units.filter fun u => u.t0 = some t).map PUnit.bytes).sum

/-- Evicts copies from a tile's resident area until a unit fits (05 R146, R149): as T1 copies are. -/
def roomTile (d t h need : Nat) (busy : PUnit → Bool) : Nat → State → Option State
  | 0, s => if tileHeld s t + need ≤ tileArea s d then some s else none
  | fuel + 1, s =>
    if tileHeld s t + need ≤ tileArea s d then some s
    else
      let can := s.plc.units.filter fun u => u.t0 = some t && !u.pin0 && !busy u && decide (u.heat + u.heat / 4 < h)
      match sortBy (fun a b => decide (a.heat < b.heat)) can with
      | [] => none
      | v :: _ => roomTile d t h need busy fuel (updUnits s (fun u => u.key = v.key) fun u => { u with t0 := none })

/-- Places one granule in the tile its reading operation's tiling gives it (05 R149): from its T1 copy, or from its home within R147's
budget. -/
def placeResident (s : State) (d : Nat) (busy : PUnit → Bool) (u : PUnit) : State :=
  match granuleTile s d u with
  | none => s
  | some t =>
    if u.t1.isNone && !migFits s d u.bytes then s
    else match roomTile d t (if u.pin0 then 2 ^ 17 else u.heat) u.bytes busy (s.plc.units.length + 1) s with
      | some s1 =>
        let s2 := updUnits s1 (fun v => v.key = u.key) fun v => { v with t0 := some t, gone := false }
        if u.t1.isNone then spendBudget s2 d u.bytes else s2
      | none => if u.pin0 then endPin s 0 (noRoom u) u else s

/-- Whether a granule may be resident: it is pinned to T0, or has a T1 copy (05 R149). -/
def mayReside (u : PUnit) : Bool := u.key.kind = .granule && decide (u.home ≠ .lost) && (u.pin0 || (u.t1.isSome && decide (256 ≤ u.heat)))

/-- Drops the T0 copies that may no longer stay: their T1 copy is gone, another tile holds their share now, or the area has shrunk (05
R149, R166). -/
def trimResident (s : State) (d : Nat) : State :=
  let order := sortBy (fun a b => if a.pin0 ≠ b.pin0 then a.pin0 else hotter a b) (s.plc.units.filter fun u => u.dom = d && u.t0.isSome)
  let keep := (order.foldl (fun (acc : List (Nat × Nat) × List UnitKey) u =>
    match u.t0 with
    | none => acc
    | some t =>
      let n := tabGet acc.1 0 t + u.bytes
      if mayReside u && decide (granuleTile s d u = some t) && decide (n ≤ tileArea s d) then (tabPut acc.1 t n, acc.2 ++ [u.key]) else acc) ([], [])).2
  updUnits s (fun u => u.dom = d && u.t0.isSome && !keep.contains u.key) fun u => { u with t0 := none }

/-- The T0 resident set of a domain (05 R146, R149, R166): pinned granules, then those with a T1 copy by heat, each within its
tile's area.
DEDUCED: notes/assumptions/13. -/
def residentPass (s : State) (d : Nat) (busy : PUnit → Bool) : State :=
  let s1 := trimResident s d
  (sortBy (fun a b => if a.pin0 ≠ b.pin0 then a.pin0 else hotter a b)
    (s1.plc.units.filter fun u => u.dom = d && u.t0.isNone && mayReside u && (u.pin0 || !u.cold))).foldl (fun t u => placeResident t d busy u) s1

/-! ### Copies and drains (R146, R168, R171) -/

/-- The unit that drains: its kind and number. -/
def draining (s : State) : Option (Nat × Nat) := match s.plc.capRun with | some (true, u) => some (u / 8, u % 8) | _ => none

/-- Reservoirs that stay in service. -/
def stayingRsv (s : State) : List Nat := (List.range 8).filter (stays s 1)

/-- Port dies that stay in service. -/
def stayingPorts (s : State) : List Nat := (List.range 4).filter (stays s 2)

/-- The new home of a unit that leaves a port die, or has lost its home (05 R142, R168, R171). -/
def rehome (s : State) (u : PUnit) : Nat :=
  match u.key.kind with
  | .granule | .expert => bestPortOf s (stayingPorts s) (s.plc.units.filter fun w => w.key ≠ u.key) u.dom
  | k => kvPortOf (stayingPorts s) k u.key.index u.key.owner

/-- The reservoir a copy goes to when it comes into use (05 R143). -/
def copyDest (s : State) (u : PUnit) (r : Nat) : Option Nat :=
  if (stayingRsv s).contains r then some r
  else if u.staging || u.key.kind = .sketch then hashRsvOf (stayingRsv s) u.key.index u.key.owner
  else bestRsvOf (stayingRsv s) s.plc.units u.dom

/-- Whether the port dies that stay have room in a domain's share for a unit, beside the homes they hold and those being recovered into
them (05 R168). -/
def homeFits (s : State) (u : PUnit) : Bool :=
  let ports := stayingPorts s
  let others := s.plc.units.filter fun w => w.key ≠ u.key
  let fetched := ((others.filter fun w => w.dom = u.dom && w.home = .lost && w.moving).map PUnit.bytes).sum
  decide ((ports.map fun p => portUsed others u.dom p).sum + fetched + u.bytes ≤ (domOf s u.dom).t2Gib * gib / 4 * ports.length)

/-- The home of a unit that is recovered (05 R168): on a port die where the share has room, else a mirrored session's KV block in lent T2 of a
peer; none while neither has room. -/
def recoveredHome (s : State) (u : PUnit) : Option Home :=
  if homeFits s u then some (.port (rehome s u))
  else if u.key.kind = .kv && (ctxOf s u.key.owner).mirror then (spillPeer s u.bytes).map .peer
  else none

/-- The home of a unit once its move or recovery is complete; none where a recovered one finds no room (05 R168, R171). -/
def settledHome (s : State) (u : PUnit) : Option Home :=
  match u.home with
  | .lost => recoveredHome s u
  | .port p => some (if capOf s 2 p = .draining then .port (rehome s u) else .port p)
  | h => some h

/-- A copy or move that is complete comes into use (05 R146, R168, R171). -/
def installUnit (s : State) (u : PUnit) : State :=
  match settledHome s u with
  | none => s
  | some h =>
    updUnits s (fun v => v.key = u.key) fun v => { v with
      moving := false, copied := false, dest := none, gone := v.gone && v.dest.isNone
      home := h
      t1 := match v.dest with | some r => copyDest s v r | none => v.t1 }

/-- Copies that are complete come into use (05 R146, 01 R22). -/
def installCopies (s : State) (d : Nat) : State :=
  (s.plc.units.filter fun u => u.dom = d && u.copied).foldl installUnit s

/-- Whether a drain must move a unit: the staging and sketch copies of a reservoir, the homes of a port die (05 R171). -/
def mustMove (kind n : Nat) (u : PUnit) : Bool :=
  if kind = 1 then u.t1 = some n && (u.staging || u.key.kind = .sketch) else kind = 2 && u.home = .port n

/-- Bytes a drain has still to move (05 R171, R182). -/
def drainBytes (s : State) (kind n : Nat) : Nat := ((s.plc.units.filter (mustMove kind n)).map PUnit.bytes).sum

/-- Starts the moves of the drain under way (05 R171). -/
def startMoves (s : State) : State :=
  match draining s with
  | none => s
  | some (k, n) => updUnits s (fun u => mustMove k n u && !(k = 2 && u.moving)) fun u =>
      if k = 1 then { u with moving := true, dest := u.dest.or (hashRsvOf (stayingRsv s) u.key.index u.key.owner) } else { u with moving := true }

/-- A step boundary under a drain: from here on nothing new is placed on the unit (05 R171). -/
def drainStep (s : State) : State := if (draining s).isSome then startMoves { s with plc := { s.plc with placing := false } } else s

/-- PLC_CFG takes effect in a domain at its step boundary (05 R173). -/
def latchCfg (s : State) (d : Nat) : State := modDom s d fun x => { x with plcCfg := regVal s 0x1000004 }

/-- The Director's work at a step boundary of a domain (05 R145, R146, R149, R157, R160, R171). A unit that the guess of the next step
reads is not evicted (R146, R153).
DEDUCED: notes/assumptions/70. -/
def directorBoundary (s : State) (d h : Nat) (cs : List Nat) : State :=
  let s1 := applyPins (heatUpdate (drainStep (latchCfg s d)) h cs) d
  let busy := busyUnit s1 d
  residentPass (promotionPass (trimSketches (pinCopies s1 d busy) d) d busy) d busy

/-- Whether a copy or move that completes is of the drain under way, and what its budget allows (05 R147, R171). -/
def drainMove (s : State) (u : PUnit) : Option Nat := match draining s with | some (k, n) => if mustMove k n u then some k else none | none => none

/-- The memory dies a copy or move of a unit depends on. -/
def copyDies (u : PUnit) : List Nat :=
  (match u.home with | .port p => [16 + p] | _ => []) ++ (u.t1.toList ++ u.dest.toList).map (8 + ·)

/-- COPY_COMPLETE (05 R146): the copy of a unit is complete; it comes into use at once between operations,
else at the next operation boundary. A drain's moves, and copies read from T2, complete no faster than their budgets (R147, R171); where a
fault of a die it depends on is detected in the tick, the fault acts first (01 R30).
DEDUCED: notes/assumptions/70. -/
def execCopyComplete (key : UnitKey) (s : State) : Out :=
  match s.plc.units.find? fun u => u.key = key && u.moving && !u.copied with
  | none => .next s
  | some u =>
    let slow := match drainMove s u with
      | some k => !fitsBudget (drainCap s u.dom k) (drainUsedNow s u.dom k) u.bytes
      | none => u.dest.isSome && decide (migCap s u.dom < migUsedNow s u.dom)
    if slow || (copyDies u).any (faultPending s) then .next s
    else
      let s0 := match drainMove s u with | some k => spendDrain s u.dom k u.bytes | none => s
      let s1 := updUnits s0 (fun v => v.key = key) fun v => { v with copied := true }
      -- a home that operations wait for comes into use at once (05 R168)
      .next (if (domOf s u.dom).phase = .running && u.home ≠ .lost then s1 else installCopies s1 u.dom)

end Sys2Proof.Machine
end

