-- ==== Sys2Proof/Machine/Sillage.lean ====
section
/-!
DEFINITION. The Sillage key-scan: query weights, selection, segments and calibration (06_sillage.md).
-/
namespace Sys2Proof.Machine

/-- A bank. -/
def bankAt (s : State) (g b : Nat) : Bank := tabGet s.sil.banks {} (g * 16 + b)

/-- Changes a bank. -/
def modBank (s : State) (g b : Nat) (f : Bank → Bank) : State :=
  { s with sil := { s.sil with banks := tabMod s.sil.banks {} (g * 16 + b) f } }

/-- Whether a group has a bank in service. -/
def groupOn (s : State) (g : Nat) : Bool := (List.range 16).any fun b => (bankAt s g b).st = .inService

/-- Whether the reservoir of a group is in service and feeds it (06 R209). -/
def groupFed (s : State) (g : Nat) : Bool := dieUp s (8 + g)

/-- Whether any bank of any group is in service (06 R199). -/
def canScan (s : State) : Bool := (List.range 8).any (groupOn s)

/-- The guaranteed standard deviation of an INTEG (06 R192). -/
def sigmaRef : Nat → Nat
  | 1 => 52 | 2 => 37 | 4 => 26 | _ => 19

/-- The guard width (06 R194). -/
def guardWidth (guard integ : Nat) : Nat := guard * sigmaRef integ / 2

/-- The query weights of a block and KV head, or the flag of a scan that is skipped (06 R190): ZERO_QUERY
4, NONFINITE 8. Where m is so small that div(127.0, m) overflows, a product that is infinite or NaN gives code 0.
DESIGN CHOICE: notes/assumptions/113. -/
def queryWeights (qs : List (List Num)) : Except Nat (List Int) :=
  let fs := qs.map foldVec
  let us := (List.range 64).map fun j => treeSum (fs.map fun f => f.getD j 0#32)
  let m := treeMax (us.map fAbs)
  if us.any isSpecial || isSpecial m then .error 8
  else if f32Num m = .fin false 0 0 || (match f32Num m with | .fin _ k _ => decide (k = 0) | _ => false) then .error 4
  else
    let r := fDiv (f32OfNat 127) m
    .ok (us.map fun u => roundInt 0 (f32Num (fMul u r)))

/-- The exact score of a sketch (06 R191). -/
def exactScore (cs : List Int) (sk : BitVec 256) : Int := (cs.zipIdx.map fun c => c.1 * sketchElem sk c.2).sum

/-- The scanned range of a block, as first position and count (06 R189). -/
def scanRange (p0 p1 recent window : Nat) : Nat × Nat :=
  let n := if p0 < recent then 0 else p0 - recent + 1
  let lo := if window = 0 then 0 else p1 + 1 - window
  (lo, n - lo)

/-- The selection from measured codes (06 R193): its positions, and whether it overflowed. -/
def selectKeys (k gamma : Nat) (codes : List (Nat × Int)) : List Nat × Bool :=
  let order := sortBy (fun a b => if a.2 ≠ b.2 then decide (b.2 < a.2) else decide (b.1 < a.1)) codes
  let cut := match order[k - 1]? with | some e => e.2 - (gamma : Int) | none => -65536
  let ok := order.filter fun e => decide (cut ≤ e.2)
  (ascending ((ok.take (2 * k)).map Prod.fst), decide (2 * k < ok.length))

/-- Pages that wait or run for a group: those of the segments on its banks, and those of scans whose own group it is (06 R204). -/
def groupWork (s : State) (g : Nat) : Nat :=
  ((List.range 16).map fun b => match (bankAt s g b).seg with | some q => q.pages.length | none => 0).sum +
    (s.sil.scans.map fun x => (x.pages.filter fun p => (p + x.key.ctx) % 8 = g).length).sum

/-- The group in service with the least queued work, the lowest of equals (06 R204). -/
def leastGroup (s : State) : Option Nat :=
  ((List.range 8).filter (groupOn s)).foldl (fun (best : Option Nat) g => match best with
    | none => some g
    | some h => if groupWork s g < groupWork s h then some g else some h) none

/-- The group a page of a context is scanned by, and whether it is spilled (06 R185, R204): the one its T1
copy lies above, else its own if that serves, else the one with the least queued work. -/
def pageGroup (s : State) (c tensor p : Nat) : Option Nat × Bool :=
  let copy := match s.plc.units.find? fun u => u.key = ⟨.sketch, c, tensor, 0, p⟩ with
    | some u => u.t1
    | none => none
  let spillTo := if groupOn s ((p + c) % 8) then some ((p + c) % 8) else leastGroup s
  match copy with
  | some r => if groupOn s r && groupFed s r then (some r, false) else (spillTo, true)
  | none => (spillTo, true)

/-- The spill budget of the running millisecond: its number, the share in percent that holds for it, and the bytes streamed (06 R204,
R210). -/
def spillNow (s : State) : Nat × Nat × Nat :=
  let x := s.sil.spill
  if x.1 = s.gt / 1000000 then x else (s.gt / 1000000, regBits s 0x1C00004 6 0, 0)

/-- SIL_CFG.SPILL_BW takes effect at the next 1 ms averaging interval (06 R210): the running one keeps its share. -/
def holdSpill (s : State) : State := { s with sil := { s.sil with spill := spillNow s } }

/-- Pages from the first of a list on that wait, up to `n`, spilled ones while the budget of the millisecond lasts (06 R204, R205). A page of one
head is 8 KiB (R188). -/
def segmentRun (waits spilled : Nat → Bool) : Nat → Nat → List Nat → List Nat
  | 0, _, _ => []
  | _, _, [] => []
  | n + 1, room, p :: ps =>
    if !waits p then []
    else if !spilled p then p :: segmentRun waits spilled n room ps
    else if 8192 ≤ room then p :: segmentRun waits spilled n (room - 8192) ps
    else []

/-- The pages of a segment among a group's: the first run of up to 16 consecutive ones that may be scanned (06 R205). -/
def segmentPages (waits spilled : Nat → Bool) (room : Nat) : List Nat → List Nat
  | [] => []
  | p :: ps => match segmentRun waits spilled 16 room (p :: ps) with
    | [] => segmentPages waits spilled room ps
    | run => run

/-- The pages of a scan's range that a group scans, ascending (06 R204). -/
def groupPages (s : State) (sc : Scan) (g : Nat) : List Nat :=
  ((List.range ((sc.hi + 255) / 256 - sc.lo / 256)).map (sc.lo / 256 + ·)).filter fun p => (pageGroup s sc.key.ctx (scanTensor s sc.key) p).1 = some g

/-- The number of the operation a context's batch is at in a domain, running or parked (06 R201). -/
def seqOf (s : State) (d c : Nat) : Nat :=
  match ((domOf s d).batch.toList ++ (domOf s d).parked).find? fun b => b.rows.any fun r => r.ctx = c with
  | some b => b.seq
  | none => (domOf s d).opseq

/-- Changes a scan. -/
def modScan (s : State) (k : ScanKey) (f : Scan → Scan) : State :=
  { s with sil := { s.sil with scans := s.sil.scans.map fun x => if x.key = k then f x else x } }

/-- Functions whose locked TDI has a context in a domain (13 R431). -/
def lockedFns (s : State) (d : Nat) : List Nat := ((ctxsOfDom s d).map (fnOf s)).filter fun v => v ≠ 0 && tdiLocked s v

/-- Ticks a segment of `n` pages keeps a bank: its weight load, and its keys at 16 GHz (06 R192, R205). -/
def segTicks (integ n : Nat) : Nat := 32 + (n * 256 * integ + 15) / 16

/-- Bank ticks a domain has been granted in the running 200 µs slice (13 R437). -/
def sliceUsed (s : State) (d : Nat) : Nat := if s.sil.slice.1 = s.gt / 200000 then tabGet s.sil.slice.2 0 d else 0

/-- Charges a domain for bank time (13 R437). -/
def chargeSlice (s : State) (d t : Nat) : State :=
  let old := if s.sil.slice.1 = s.gt / 200000 then s.sil.slice.2 else []
  { s with sil := { s.sil with slice := (s.gt / 200000, tabSet old 0 d (tabGet old 0 d + t)) } }

/-- Whether a domain has bank time of its share left in the slice: SIL_PCT of the banks in service (13 R425). -/
def inShare (s : State) (d : Nat) : Bool :=
  let banks := ((List.range 128).filter fun b => (bankAt s (b / 16) (b % 16)).st = .inService).length
  decide (sliceUsed s d < banks * 2000 * (domOf s d).silPct)

/-- Whether a domain's unused slots stay idle: strict mode, or a locked TDI's context in the domain (13 R425). -/
def strictTime (s : State) (d : Nat) : Bool := s.sec.strictTime || lockedFns s d ≠ []

/-- Whether a scan belongs to a reserved-class context (13 R437). -/
def reservedScan (s : State) (x : Scan) : Bool := match (ctxOf s x.key.ctx).prov with | some p => p.cls = 2 | none => false

/-- Whether a scan has pages for a group. -/
def waitsFor (s : State) (g : Nat) (x : Scan) : Bool := x.pages.any fun p => (pageGroup s x.key.ctx (scanTensor s x.key) p).1 = some g

/-- Whether a scan may take a bank of a group now (13 R425, R437): a reserved one within its domain's share goes before the others; a domain
past its share takes what the rest leave idle, and nothing in strict mode. -/
def mayScan (s : State) (g : Nat) (x : Scan) : Bool :=
  let others := s.sil.scans.filter fun y => decide (y ≠ x) && waitsFor s g y && inShare s y.dom
  if inShare s x.dom then reservedScan s x || !others.any (reservedScan s)
  else !strictTime s x.dom && !others.any fun y => y.dom ≠ x.dom

/-- Whether a group runs as many segments as its reservoir's THROTTLE lets it (14 R464): 8. -/
def groupThrottled (s : State) (g : Nat) : Bool :=
  ((tabGet s.pwr.therm {} (16 + g)).throt.set || s.pwr.hotFields.contains g) && decide (8 ≤ ((List.range 16).filter fun b => (bankAt s g b).seg.isSome).length)

/-- Starts the next due calibration of a group where none runs and its bank is free: a segment dispatched to it in this tick runs first
(06 R200, R202, R207). -/
def nextCalibration (s : State) (g : Nat) : State :=
  let taken (b : Nat) : Bool := s.pending.any fun q => match q with | .segmentDispatch g' b' _ => g'.toNat = g && b'.toNat = b | _ => false
  if (List.range 16).any fun b => (bankAt s g b).st = .calibrating then s
  else match (List.range 16).find? fun b => (bankAt s g b).due && (bankAt s g b).seg.isNone && (bankAt s g b).st ≠ .failed && !taken b with
    | some b => modBank s g b fun q =>
        { q with st := .calibrating, stale := true, staleAt := s.gt, due := false, retryAt := none, entering := decide (q.st = .off) }
    | none => s

/-- SEGMENT_DISPATCH (06 R204, R205, R207): up to 16 consecutive pages of the scan that the group serves go to a bank in
service that runs no segment and was not due for calibration before this tick, as shares and classes let it; spilled pages go while the spill
budget lasts. -/
def execSegmentDispatch (g : BitVec 3) (b : BitVec 4) (k : ScanKey) (s : State) : Out :=
  let bank := bankAt s g.toNat b.toNat
  if bank.st ≠ .inService || bank.seg.isSome || (bank.due && decide (bank.dueAt ≠ s.gt)) || groupThrottled s g.toNat then .next (nextCalibration s g.toNat)
  else match s.sil.scans.find? fun x => x.key = k with
    | none => .next (nextCalibration s g.toNat)
    | some sc =>
      let t := scanTensor s k
      let budget := spillNow s
      let spilled (p : Nat) : Bool := (pageGroup s k.ctx t p).2
      let mine := segmentPages sc.pages.contains spilled (budget.2.1 * pctBytes - budget.2.2) (groupPages s sc g.toNat)
      if mine = [] || !mayScan s g.toNat sc then .next (nextCalibration s g.toNat)
      else
        let sp := mine.filter spilled
        let s1 := modScan s k fun x => { x with pages := x.pages.filter (!mine.contains ·), spill := x.spill || sp ≠ [] }
        let time := segTicks sc.integ mine.length
        let s1' := chargeSlice (if reservedScan s sc then modCtx s1 k.ctx fun q => { q with stepTicks := q.stepTicks + time } else s1) sc.dom time
        let s2 := { s1' with sil := { s1'.sil with spill := (budget.1, budget.2.1, budget.2.2 + 8192 * sp.length) } }
        .next (modBank s2 g.toNat b.toNat fun q =>
          { q with seg := some { scan := k, pages := mine, spilled := sp }, users := (sc.dom * 2 ^ 32 + seqOf s sc.dom k.ctx) :: q.users })

/-- The positions of a segment inside its scan's range. -/
def segmentKeys (sc : Scan) (pages : List Nat) : List Nat :=
  ((pages.map fun p => (List.range 256).map fun j => p * 256 + j).flatten).filter fun n => decide (sc.lo ≤ n) && decide (n < sc.hi)

/-- SEGMENT_COMPLETE (06 R191, R205, R207): the measured codes of the segment's keys, in ascending
position; none where the bank fails in the same tick, or the scan has been dropped.
DEDUCED: notes/assumptions/75. -/
def execSegmentComplete (g : BitVec 3) (b : BitVec 4) (ys : List (BitVec 12)) (s : State) : Out :=
  let bank := bankAt s g.toNat b.toNat
  let fails := s.pending.any fun q => match q with | .sillageBankFault g' b' => g' = g && b' = b | _ => false
  if fails then .next s
  else match bank.seg with
  | none => .next s
  | some seg =>
    let s1 := modBank s g.toNat b.toNat fun q => { q with seg := none }
    let s2 := match s.sil.scans.find? fun x => x.key = seg.scan && !seg.dropped with
      | none => s1
      | some sc =>
        let keys := segmentKeys sc seg.pages
        let s3 := modScan s1 seg.scan fun x => { x with codes := x.codes ++ List.zip keys (ys.map BitVec.toInt) }
        bump (bump64 s3 0x1C00080 keys.length) 0x1C00098 seg.spilled.length
    .next (nextCalibration s2 g.toNat)

/-- Adds a record to the working session of a context in a running batch (06 R197). -/
def addRecord (s : State) (d c : Nat) (r : SelRecord) : State :=
  modDom s d fun x => { x with batch := x.batch.map fun b => { b with
    rows := b.rows.map fun row => if row.ctx = c then
        { row with work := { row.work with records := row.work.records ++ [{ r with stepNo := row.work.stepNo + 1 }] } }
      else row } }

/-- SELECTION_FORM (06 R193, R197): once every page of a scan is measured, its record is written. -/
def execSelectionForm (k : ScanKey) (s : State) : Out :=
  match s.sil.scans.find? fun x => x.key = k with
  | none => .next s
  | some sc =>
    let running := s.sil.banks.any fun e => match e.2.seg with | some g => g.scan = k && !g.dropped | none => false
    if sc.pages ≠ [] || running || sc.codes.length ≠ sc.hi - sc.lo then .next s
    else
      let sel := selectKeys sc.topk (guardWidth sc.guard sc.integ) sc.codes
      let s1 := { s with sil := { s.sil with scans := s.sil.scans.filter fun x => x.key ≠ k } }
      let s2 := bump (bump64 s1 0x1C00088 1) 0x1C00090 (b2n sel.2)
      .next (addRecord s2 sc.dom k.ctx ⟨k.pos0, k.op, k.head, b2n sel.2 + 16 * b2n sc.spill, sc.hi - sc.lo, sel.1, 0⟩)

/-- The query blocks of a row: first and last position (06 R189). -/
def queryBlocks (r : BatchRow) : List (Nat × Nat) :=
  (List.range ((r.tokens + 63) / 64)).map fun n => (r.base + 64 * n, min (r.base + 64 * n + 63) (r.base + r.tokens - 1))

/-- The query vectors of a block and KV head, token by token and head by head (06 R190). -/
def blockQueries (i : Inst) (o : OpRec) (r : BatchRow) (head p0 p1 : Nat) : List (List Num) :=
  match opTensor i r o 0, inDecl i.f o 1 with
  | some qt, some kd =>
    let d := attr o 4 2
    let g := max 1 (attr o 6 1)
    let hq := g * (declElems kd / max 1 d)
    let xs := chop d (flatNums qt)
    (List.range (p1 + 1 - p0)).flatMap fun t =>
      (List.range g).map fun j => xs.getD ((p0 - r.base + t) * hq + head * g + j) []
  | _, _ => []

/-- What one block and head of a row needs: nothing where a record stands, else a record that needs no scan,
or a scan (06 R189, R190, R193, R197). -/
inductive ScanNeed where
  | none
  | rec_ (r : SelRecord)
  | scan (sc : Scan)
  deriving DecidableEq, Repr

/-- The need of one block and head (06 R189, R190, R193). -/
def scanNeed (i : Inst) (o : OpRec) (op dom : Nat) (r : BatchRow) (head p0 p1 : Nat) : ScanNeed :=
  if (findRecord r op p0 head).isSome then .none
  else
    let rg := scanRange p0 p1 (attr o 20 4) (attr o 8 4)
    let k := attr o 16 2
    if rg.2 ≤ k then .rec_ ⟨p0, op, head, 2, rg.2, (List.range rg.2).map (rg.1 + ·), 0⟩
    else match queryWeights (blockQueries i o r head p0 p1) with
      | .error f => .rec_ ⟨p0, op, head, f, rg.2, [], 0⟩
      | .ok ws =>
        let first := rg.1 / 256
        let last := (rg.1 + rg.2 - 1) / 256
        .scan ⟨⟨r.ctx, op, head, p0⟩, dom, ws, rg.1, rg.1 + rg.2, k, attr o 18 1, attr o 19 1,
          (List.range (last + 1 - first)).map (first + ·), [], false⟩

/-- Every need of a row. -/
def rowNeeds (i : Inst) (o : OpRec) (op dom : Nat) (r : BatchRow) : List ScanNeed :=
  match inDecl i.f o 1 with
  | none => []
  | some kd =>
    (queryBlocks r).flatMap fun z => (List.range (declElems kd / max 1 (attr o 4 2))).map fun h => scanNeed i o op dom r h z.1 z.2

/-- Whether a need is a scan. -/
def needsScan : ScanNeed → Bool
  | .scan _ => true
  | _ => false

/-- How many calibration times of bank `b` lie up to a tick: one each CAL_PERIOD ms of GT, staggered by b * CAL_PERIOD / 16 (06 R200).
DEDUCED: notes/assumptions/99. -/
def calTimes (s : State) (b t : Nat) : Nat :=
  let period := max 1 (regBits s 0x1C00004 23 16) * 1000000
  (t + period - b * period / 16) / period

/-- Whether a calibration of a bank falls due: a calibration time has come since the last, or its thermal estimate, in 1/16 °C, has moved by
more than 1.0 °C since its last installation (06 R200). -/
def calDue (s : State) (b : Nat) (q : Bank) (temp : Option Int) : Bool :=
  decide (calTimes s b q.dueAt < calTimes s b s.gt) ||
    match temp with
    | some t => decide (0 < q.calcnt) && (decide (16 < t - q.coef.temp) || decide (16 < q.coef.temp - t))
    | none => false

/-- CALIBRATION_DUE (06 R200, R207): the bank takes no new segment; the calibration starts when its segment
and any other calibration of the group have ended. `temp` is the bank's thermal estimate, where it is what brings the calibration. -/
def execCalibrationDue (k : BankId) (temp : Option (BitVec 16)) (s : State) : Out :=
  let g := k.group.toNat
  let b := k.bank.toNat
  let bank := bankAt s g b
  if bank.st = .inService && (temp.isSome || quiet s) && calDue s b bank (temp.map BitVec.toInt) then
    .next (nextCalibration (modBank s g b fun q => { q with due := true, dueAt := s.gt }) g)
  else .next s

/-- Whether a list of naturals ascends. -/
def rising : List Nat → Bool
  | a :: b :: t => decide (a ≤ b) && rising (b :: t)
  | _ => true

/-- Whether a weight map is monotonic in weight code on all 64 rings, with a span of at least 90 % of the nominal one (06 R203). -/
def mapPlausible (m : List (List Nat)) (nominal : Nat) : Bool :=
  decide (m.length = 64) && m.all fun r => rising r && decide (100 * r.headD 0 + 90 * nominal ≤ 100 * r.getLastD 0)

/-- Whether new coefficients are plausible (06 R203): `mean16` is
the residual's mean in 1/16 codes, `sd16` its deviation, `jump` says the heaters report a step change. The
limits against the installed value apply once an installation has provided one. -/
def plausible (q : Bank) (c : Coef) (nominalSpan : Nat) (mean16 : Int) (sd16 : Nat) (jump : Bool) : Bool :=
  let nominal := decide (22938 ≤ c.gain) && decide (c.gain ≤ 45875)
  let near := decide (94 * q.coef.gain ≤ 100 * c.gain) && decide (100 * c.gain ≤ 106 * q.coef.gain)
  let warm := jump || (decide (-80 ≤ c.temp - q.coef.temp) && decide (c.temp - q.coef.temp ≤ 80))
  nominal && decide (-128 ≤ c.offset) && decide (c.offset ≤ 128) && mapPlausible c.map nominalSpan &&
    decide (-48 ≤ mean16) && decide (mean16 ≤ 48) && decide (sd16 ≤ 832) && (decide (q.calcnt = 0) || (near && warm))

/-- CALIBRATION_FIT_DONE (06 R203): plausible coefficients wait for installation; others are dropped, the bank
serves with its old ones and retries after 1 ms, and a third failure in a row takes it out of service. -/
def fitCalibration (s : State) (g b : Nat) (gain offset temp : BitVec 16) (map : List (List Nat)) (nominal : Nat) (mean16 : BitVec 16) (sd16 : BitVec 16) (jump : Bool) : State :=
  let bank := bankAt s g b
  if bank.st ≠ .calibrating || bank.pending.isSome then s
  else
    let c : Coef := ⟨gain.toNat, offset.toInt, temp.toInt, map⟩
    if plausible bank c nominal mean16.toInt sd16.toNat jump then
      (modBank s g b fun q => { q with pending := some c })
    else
      let n := bank.consec + 1
      let s1 := bump s 0x1C000A0 1
      if n < 3 then
        (nextCalibration (modBank s1 g b fun q =>
          { q with st := .inService, stale := false, consec := n, retryAt := some (s.gt + 1000000), entering := false
                   dueAt := if q.entering then s.gt else q.dueAt }) g)
      else
        let s2 := modBank s1 g b fun q => { q with st := .failed, stale := false, consec := n, retryAt := none }
        (nextCalibration (fault s2 { cls := 0x0D, unit := unitId 9 (g * 16 + b), outcome := 3, permanent := true }) g)

/-- Whether an operation (domain * 2^32 + number) has not ended: a batch is at it, running or parked. -/
def opRuns (s : State) (n : Nat) : Bool :=
  let x := domOf s (n / 2 ^ 32)
  (x.batch.toList ++ x.parked).any fun b => b.seq = n % 2 ^ 32

/-- CALIBRATION_INSTALL (06 R200, R201): pending coefficients install once no operation that used the bank
runs. The times of calibrations before a bank has entered service count no more. -/
def installCalibration (s : State) (g b : Nat) : State :=
  let bank := bankAt s g b
  match bank.pending with
  | none => s
  | some c =>
    if bank.users.any (opRuns s) then s
    else
      (nextCalibration (modBank s g b fun q =>
        { q with st := .inService, stale := false, pending := none, coef := c, consec := 0, calcnt := satAdd 32 q.calcnt 1,
                 calgt := s.gt, users := [], retryAt := none, entering := false, dueAt := if q.entering then s.gt else q.dueAt }) g)

/-- CALIBRATION_RETRY (06 R203). -/
def execCalibrationRetry (g : BitVec 3) (b : BitVec 4) (s : State) : Out :=
  match (bankAt s g.toNat b.toNat).retryAt with
  | some t =>
    if t ≤ s.gt then .next (nextCalibration (modBank s g.toNat b.toNat fun q => { q with due := true, dueAt := s.gt, retryAt := none }) g.toNat)
    else .next s
  | none => .next s

/-- The segment of a bank is scanned again: its pages wait once more (06 R206). -/
def requeue (s : State) (q : Bank) : State :=
  match q.seg with
  | none => s
  | some seg => if seg.dropped then s else modScan s seg.scan fun x => { x with pages := ascending (x.pages ++ seg.pages) }

/-- Takes a bank out of service for a fault (06 R206, 17 R534). -/
def failBank (s : State) (g b : Nat) : State :=
  let q := bankAt s g b
  modBank (requeue s q) g b fun q =>
    { q with st := .failed, stale := false, pending := none, seg := none, due := false, retryAt := none }

/-- SILLAGE_BANK_FAULT (06 R206, R207; 17 R534): the running segment's codes are discarded and its pages are
scanned elsewhere; the bank leaves service. -/
def execSillageBankFault (g : BitVec 3) (b : BitVec 4) (s : State) : Out :=
  let bank := bankAt s g.toNat b.toNat
  if bank.st = .off || bank.st = .failed then .next s
  else .next (nextCalibration (fault (failBank s g.toNat b.toNat)
    { cls := 0x0D, unit := unitId 9 (g.toNat * 16 + b.toNat), outcome := 3, permanent := true }) g.toNat)

/-- Drops the scans of a context: its operation was discarded. Their running segments end by themselves, and their codes are used no more
(06 R205). -/
def dropScans (s : State) (c : Nat) : State :=
  let gone (k : ScanKey) : Bool := decide (k.ctx = c)
  { s with sil := { s.sil with
    scans := s.sil.scans.filter fun x => !gone x.key
    banks := s.sil.banks.map fun e => match e.2.seg with
      | some g => if gone g.scan then (e.1, { e.2 with seg := some { g with dropped := true } }) else e
      | none => e } }

/-- Whether a plausibility check of a bank fails in this tick: a read of the tick returns the old values with STALE = 0 (06 R207). -/
def fitFails (s : State) (g b : Nat) : Bool :=
  let q := bankAt s g b
  s.pending.any fun c => match c with
    | .calibrationFitDone g' b' gain offset temp map nominal mean16 sd16 jump =>
      g'.toNat = g && b'.toNat = b && q.st = .calibrating && q.pending.isNone &&
        !plausible q ⟨gain.toNat, offset.toInt, temp.toInt, map⟩ nominal mean16.toInt sd16.toNat jump
    | _ => false

end Sys2Proof.Machine
end

