-- ==== Sys2Proof/Machine/Sched.lean ====
section
/-!
DEFINITION. The step scheduler: which batch a domain runs, how its rows begin and end, and the Accord start
of its operations (01_architecture.md R19 to R23; 04_formulas_operations.md R113 to R117; 13 R433 to R436).
-/
namespace Sys2Proof.Machine

/-- A session set of this device's pair. -/
def pairSet (s : State) (i : Nat) : PairSet := s.pair.sets.getD i {}

/-- The session set a mirrored or shadow context belongs to (12 R394). -/
def setOf (s : State) (k : Ctx) : Nat := if k.shadow then 1 - s.rst.trayPos % 2 else s.rst.trayPos % 2

/-- The lease in ticks (12 R400). -/
def leaseTicks (s : State) : Nat := regBits s 0x3400000 27 21 * 1000000

/-- The guard in ticks (12 R400). -/
def guardTicks (s : State) : Nat := min 2000000 (leaseTicks s / 4)

/-- Whether this device acts for a set now (12 R401). -/
def actsFor (s : State) (i : Nat) : Bool :=
  let p := pairSet s i
  p.held && !p.stopped && decide (s.gt + guardTicks s < p.expiry)

/-- Whether the pair lets a context run steps: it is not mirrored, or the device runs unpaired, or it acts
for the context's set (12 R393, R394, R401). -/
def pairLets (s : State) (k : Ctx) : Bool :=
  if k.shadow then s.pair.paired && actsFor s (setOf s k)
  else !k.mirror || !s.pair.paired || (actsFor s (setOf s k) && !(pairSet s (setOf s k)).staling)

/-- Whether a context's steps are mirrored (12 R395, R408, R409): not while its holder runs SOLO, unless a resync
runs. -/
def mirrored (s : State) (k : Ctx) : Bool :=
  let p := pairSet s (setOf s k)
  (k.mirror || k.shadow) && s.pair.paired && p.held && (!p.solo || p.resync)

/-- The step record and operation record a batch is at. -/
def stepOf (i : Inst) (b : Batch) : Option StepRec := i.f.steps[b.step]?

/-- The index of a batch's operation among the operation records (06 R196 OP_INDEX). -/
def opIndex (i : Inst) (b : Batch) : Nat := ((stepOf i b).map StepRec.first).getD 0 + b.op

/-- The operation record a batch is at. -/
def opOf (i : Inst) (b : Batch) : Option OpRec := i.f.ops[opIndex i b]?

/-- The class of a context for scheduling: 0 best effort, 1 shared, 2 reserved; a step that overran is
treated as shared (13 R433, R436). -/
def classOf (k : Ctx) : Nat :=
  match k.prov with
  | some p => if p.cls = 2 && k.demoted then 1 else p.cls
  | none => 0

/-- Whether a context has a request whose next step can run, but for its earlier output: it is enabled,
bound to a READY instance of its domain, acts, and has a request that is not to end (09 R313; 13 R433). -/
def wantsStep (s : State) (d c : Nat) : Bool :=
  let k := ctxOf s c
  k.enabled && k.enable && !k.error && !k.paused && !k.standby && k.session.isSome && domOfCtx s c = some d && pairLets s k &&
    (match instOf s c with | some i => decide (i.st = .ready) && decide (i.dom = d) | none => false) &&
    (match curRequest k with | some r => r.endWith.isNone | none => false) && !inBatch s c

/-- Whether a context can join a batch: its earlier step's frames are written (09 R322), and its output is not stopped (R324). -/
def isReady (s : State) (d c : Nat) : Bool := wantsStep s d c && (ctxOf s c).output.isNone && (ctxOf s c).stopped.isNone

/-- Whether a step boundary passes a context by since frames of an earlier step are not all written (09 R300, R322): those of the step that
ends in this tick hold none yet, nor does a request that its step has ended. -/
def heldByFrames (s : State) (d c : Nat) : Bool :=
  wantsStep s d c && (ctxOf s c).readyAt.any (· < s.gt) && (match (ctxOf s c).output with
    | some o => (match o.fin with | some (.request _ _ _) => false | _ => true)
    | none => false)

/-- The step a context enters next. -/
def nextStep (s : State) (c : Nat) : Nat := ((curRequest (ctxOf s c)).map Request.next).getD 0

/-- Whether `a` is chosen before `b` (13 R433). -/
def chosenBefore (s : State) (a b : Nat) : Bool :=
  let x := ctxOf s a
  let y := ctxOf s b
  let p (k : Ctx) : Prov := k.prov.getD ⟨0, 0, 1, 0, 0, 0, 0, 0, 0⟩
  if classOf x ≠ classOf y then decide (classOf y < classOf x)
  else match classOf x with
    | 2 => decide (x.readyAt.getD 0 + (p x).boundUs * 1000 < y.readyAt.getD 0 + (p y).boundUs * 1000)
    | 1 => decide (x.deficit * max 1 (p y).weight < y.deficit * max 1 (p x).weight)
    | _ => decide (x.waitedSince < y.waitedSince)

/-- The batch row of a context that begins a step (04 R116, R117; 09 R309). An INPUT tensor has the rows of
the chunk, or one row of zeros where the step consumes no input. -/
def rowOf (i : Inst) (c : Nat) (r : Request) (x : Session) : BatchRow :=
  let left := r.body.nTokens.toNat - r.used
  let m := min left (if r.body.chunk.toNat = 0 then 4096 else r.body.chunk.toNat)
  let replay := r.body.rflags.getLsbD 4
  let input (d : TensorDecl) : Nat × Tensor :=
    let given := r.inputs.find? fun e => e.tensor = d.id
    let ceil := match given with | some e => (match e.ceil with | some v => some v | none => ceilingOf i.f d) | none => ceilingOf i.f d
    let n := max 1 m * (declElems d / max 1 (declCols d))
    let data := match given with | some e => slice e.data (r.used * declBytes d) (m * declBytes d) | none => []
    let rows := if m = 0 || given.isNone then rowsOfBytes d.fmt (declCols d) n (List.replicate (max 1 m * declBytes d) 0#8)
      else rowsOfBytes d.fmt (declCols d) n data
    (d.id, ⟨d.fmt, declCols d, rows, hostSummary d.fmt ceil, []⟩)
  { ctx := c, work := (if replay then { x with records := r.records } else x), base := x.pos, status := 0, tokens := max 1 m,
    lastInput := decide (0 < m) && decide (r.used + m = r.body.nTokens.toNat), inputLeft := decide (r.used + m < r.body.nTokens.toNat),
    decode := decide (m = 0), acts := (i.f.tensors.filter fun t => t.role = .input).map input, raise := 0, overRange := false,
    flush := 0, trunc := 0, special := 0, committed := false,
    temp := if r.body.rflags.getLsbD 0 then some r.body.temp else none,
    topk := if r.body.rflags.getLsbD 1 then some r.body.topk.toNat else none,
    topp := if r.body.rflags.getLsbD 2 then some r.body.topp else none,
    replay := replay }

/-- Whether the partner's mirror reserve has room for what a step adds to a mirrored session (12 R398).
DEDUCED: notes/assumptions/40. -/
def mirrorRoom (s : State) (c : Nat) (f : Formula) (n : Nat) : Bool :=
  let held := s.plc.units.filter fun u => (u.key.kind = .kv || u.key.kind = .sketch) && (ctxOf s u.key.owner).mirror
  decide ((held.map PUnit.bytes).sum + ((missingKv s f c n).map Prod.snd).sum ≤ regBits s 0x3400004 31 20 * gib)

/-- The tokens a context's next step covers (04 R106, R114). -/
def stepTokens (s : State) (c : Nat) : Nat :=
  match curRequest (ctxOf s c) with
  | some r => max 1 (min (r.body.nTokens.toNat - r.used) (if r.body.chunk.toNat = 0 then 4096 else r.body.chunk.toNat))
  | none => 1

/-- The first contexts of a list whose token rows together are at most `room` (04 R119 M); one that does not fit waits. -/
def fitRows (s : State) : Nat → List Nat → List Nat
  | _, [] => []
  | room, c :: cs => if stepTokens s c ≤ room then c :: fitRows s (room - stepTokens s c) cs else fitRows s room cs

/-- A context joins the batch that forms: room for its step, its row, and its readiness marks; none where it
is held for space (05 R161, 12 R398). The last SAMPLE that conditions 0x03 and 0x04 look at is one of the running request: a request's
first step forgets an earlier one's.
DESIGN CHOICE: notes/assumptions/94. -/
def joinBatch (s : State) (d c : Nat) (i : Inst) : Option (BatchRow × State) :=
  let k := ctxOf s c
  match curRequest k, k.session with
  | some r, some x =>
    let first := !r.started
    let x1 := if first then { x with last := none, stopHit := false } else x
    let row := rowOf i c r x1
    if mirrored s k && !mirrorRoom s c i.f (row.base + row.tokens) then none
    else match makeRoom s c d i.f (row.base + row.tokens) with
      | none => none
      | some s1 =>
        some (row, modCtx s1 c fun q => { modRequest q (fun r => { r with started := true }) with
          frameHeld := false, space := none, stepTicks := 0, demoted := false })
  | _, _ => none

/-- The rank of the guarantee a context's class has (01 R31): a latency bound or a share; best effort has none. -/
def classRank (k : Ctx) : Option Nat :=
  match classOf k with
  | 2 => some 4
  | 1 => some 5
  | _ => none

/-- A context's guarantee begins to yield to its mirror in tick `t`: the first record (01 R31, R32). -/
def yieldToMirror (s : State) (c t : Nat) : State :=
  match classRank (ctxOf s c), (ctxOf s c).mirrorSince with
  | some r, none => yielded (modCtx s c fun k => { k with mirrorSince := some t }) c r 3 t 0
  | _, _ => s

/-- A context's guarantee yields to its mirror no longer: the second record (01 R32). -/
def mirrorKept (s : State) (c : Nat) : State :=
  match (ctxOf s c).mirrorSince, classRank (ctxOf s c) with
  | some t, some r => yielded (modCtx s c fun k => { k with mirrorSince := none }) c r 3 t s.gt
  | some _, none => modCtx s c fun k => { k with mirrorSince := none }
  | none, _ => s

/-- The results a mirror held go on: a latency bound that ended meanwhile was broken for the mirror (01 R31, R32). -/
def mirrorFreed (s : State) (c : Nat) : State :=
  let s1 := match (ctxOf s c).boundAt, (ctxOf s c).mirrorSince with
    | some t, none => if t < s.gt then yieldToMirror s c t else s
    | _, _ => s
  mirrorKept (modCtx s1 c fun k => { k with boundAt := none }) c

/-- Contexts join in the order given; one that cannot is held (05 R161); a reserved one that is held breaks
its bound for the mirror (R162). -/
def joinAll (d : Nat) (i : Inst) : List Nat → List BatchRow → State → List BatchRow × State
  | [], rows, s => (rows, s)
  | c :: cs, rows, s =>
    match joinBatch s d c i with
    | some (r, s1) => joinAll d i cs (rows ++ [r]) (mirrorKept s1 c)
    | none => joinAll d i cs rows (if mirrored s (ctxOf s c) then yieldToMirror (holdForSpace s c) c s.gt else holdForSpace s c)

/-- The batch that forms around a chosen context: its partners bound to the same instance at the same next
step, at most MAX_BATCH and 2^20 token rows, rows in ascending context ID (04 R116, R119). -/
def formAround (s : State) (d c : Nat) : State :=
  match instOf s c, (ctxOf s c).inst with
  | some i, some h =>
    let step := nextStep s c
    let mates := (s.ctxs.map Prod.fst).filter fun m => m ≠ c && isReady s d m && (ctxOf s m).inst = some h && nextStep s m = step
    let team := (fitRows s (2 ^ 20) (c :: sortBy (chosenBefore s) mates)).take i.f.maxBatch
    let j := joinAll d i (ascending team) [] s
    if j.1 = [] then j.2
    else
      let b : Batch :=
        { inst := h, step := step, op := 0, rows := j.1, attempt := 0, result := none, rangeFault := false, exact := (domOf s d).exactMode,
          seq := ((domOf j.2 d).opseq + 1) % 2 ^ 32 }
      fetchOwn (modDom j.2 d fun x => { settleGuess x b with
        batch := some b
        phase := .readying, ready := [], readyBy := none, sliceEnd := none, cut := false, opseq := (x.opseq + 1) % 2 ^ 32 }) d
  | _, _ => s

/-- Contexts that can run in a domain: ready ones, and those of batches cut at a slice end. -/
def contenders (s : State) (d : Nat) : List Nat :=
  ((s.ctxs.map Prod.fst).filter (isReady s d)) ++ ((domOf s d).parked.flatMap fun b => b.rows.map BatchRow.ctx)

/-- Chooses the next batch (13 R433): the first context in order; a parked batch that holds it resumes. A
context whose step has no room is passed over. -/
def choose (d : Nat) : Nat → List Nat → State → State
  | 0, _, s => s
  | fuel + 1, no, s =>
    match sortBy (chosenBefore s) ((contenders s d).filter (!no.contains ·)) with
    | [] => s
    | c :: _ =>
      match (domOf s d).parked.find? fun b => b.rows.any fun r => r.ctx = c with
      | some b =>
        fetchOwn (modDom s d fun x => { x with
          prefetch := [], batch := some b, parked := x.parked.filter (· ≠ b), phase := .readying, ready := [], readyBy := none, sliceEnd := none, cut := false,
          opseq := (x.opseq + 1) % 2 ^ 32 }) d
      | none =>
        let s1 := formAround s d c
        if (domOf s1 d).batch.isSome then s1 else choose d fuel (c :: no) s1

/-- Whether every lower die of a domain's stacks is lost (05 R163). -/
def allLost (s : State) (d : Nat) : Bool :=
  decide (stacksOf s d ≠ []) && (stacksOf s d).all fun n => (dieOf s n).st = .lost

/-- Contexts bound to a FAILED instance, and those of a domain that has lost its last stack, complete each
request with ST_FAULT (04 R111, 05 R163). -/
def failBound (s : State) (d : Nat) : State :=
  (ctxsOfDom s d).foldl (fun t c =>
    match instOf t c, curRequest (ctxOf t c) with
    | some i, some _ =>
      if (i.st = .failed || allLost t d) && !stepRuns t c then settle (modCtx t c fun k => endRequest k stFault (endPayload k 0) false) c else t
    | _, _ => t) s

/-- Whether a domain may start steps: it is not halted or receiving tilings, has a live stack, and admission
and boot allow it (05 R165; 17 R539; 15 R504). -/
def mayForm (s : State) (d : Nat) : Bool :=
  let x := domOf s d
  x.batch.isNone && !x.halted && !s.arr.noSteps && !s.arr.noOps && bootReady s && decide (liveStacks s d ≠ []) &&
    !((tabGet s.pwr.clk {} d).stage = 10 && s.gt / 1000000 % 2 = 0)

/-- SIL_EXACT as a step boundary of this tick finds it: a write of the tick itself takes effect at the boundary after it (06 R198). -/
def exactReg (s : State) : Word :=
  match s.sil.exactWrite with
  | some (t, old) => if t = s.gt then old else regVal s 0x1C00008
  | none => regVal s 0x1C00008

/-- Chooses the next batch of a domain at a step boundary or slice end, marking HELD for the contexts that
their frames keep out (09 R300, R322). -/
def nextBatch (s : State) (d : Nat) : State :=
  let s0 := failBound s d
  if !mayForm s0 d then s0
  else
    let late := (s0.ctxs.map Prod.fst).filter (heldByFrames s0 d)
    let s1 := late.foldl (fun t c => modCtx t c fun k => { k with frameHeld := true }) s0
    let s2 := if (domOf s1 d).parked = [] then modDom (latchCfg s1 d) d fun x => { x with exactMode := (exactReg s).getLsbD d } else s1
    choose d (s2.ctxs.length + 1) [] s2

/-- Forms the next batch of a domain (05 R143): contexts that want no step stage nothing from here on, and then those that no batch has
taken. -/
def formBatch (s : State) (d : Nat) : State :=
  let out (t : State) (c : Nat) : Bool := !inBatch t c
  let s1 := nextBatch (unstage s d fun c => out s c && !wantsStep s d c) d
  unstage s1 d (out s1)

/-- The reservations an operation's tiling makes for its reductions, before any packet is sent (03 R75; 05 R150, R152). -/
def reserveDests (s : State) (d : Nat) : State :=
  let x := domOf s d
  let ds := match x.batch with
    | none => []
    | some b => match tabFind s.insts b.inst with
      | none => []
      | some i => match opOf i b with
        | none => []
        | some o => match tilingOf x b.inst (classOfOp i o) with
          | none => []
          | some t => batchDests x t b.attempt ((b.rows.filter fun (r : BatchRow) => r.status = 0).flatMap fun r => (placeGroups 0 (rowGroupsOf i o r)).map fun g => (r.ctx, g)) 0
  (stacksOf s d).foldl (fun t n => modStack t n fun k => { k with dests := ds.filter fun r => decide (r.key.dst / 256 = n) }) s

/-- Whether a domain holds a reserved-class context: its operations run as part-operations (13 R436). -/
def holdsReserved (s : State) (d : Nat) : Bool :=
  (ctxsOfDom s d).any fun c => match (ctxOf s c).prov with | some p => decide (p.cls = 2) | none => false

/-- The part-operations a batch's operation runs as: in a domain that holds a reserved-class context each is predicted to run at most 50 µs
(13 R436).
DEDUCED: notes/assumptions/8. -/
def partCount (s : State) (d : Nat) (b : Batch) : Nat :=
  match (tabFind s.insts b.inst).bind fun i => opOf i b with
  | some o => if holdsReserved s d then max 1 ((Config.predictedRun o.opcode b.rows.length + 49999) / 50000) else 1
  | none => 1

/-- All live stacks have reported ready: the operation, or its next part, starts on the Accord grid, and the domain resumes
(01 R20; 13 R436). -/
def startIfReady (s : State) (d : Nat) : State :=
  let x := domOf s d
  let live := liveStacks s d
  if x.phase = .readying && !x.halted && !s.arr.noOps && decide (live ≠ []) && live.all x.ready.contains then
    let t := accordTick (max x.lastReady (max x.prevEnd s.gt))
    resumeDomain (modDom (prefetchNext (reserveDests s d) d) d fun y => { y with
      phase := .running, start := t, readyBy := none
      batch := y.batch.map fun b => if b.part = 0 then { b with parts := partCount s d b } else b
      sliceEnd := match y.sliceEnd with | some e => some e | none => some (t + 200000) }) d t
  else s

/-- The ticks an attempt's tiles waited for operands are counted (05 R152): none in part-operations, which start with all their operands present
(13 R436). -/
def addStall (s : State) (d : Nat) : State :=
  let waits := if holdsReserved s d then 0 else min (s.gt - (domOf s d).start) (Config.stallTicks s.free)
  modDom { s with free := s.free + 1 } d fun y => { y with pfStall := satAdd 64 y.pfStall waits }

/-- Whether a domain executes its operation now, the last of its parts, and no result of it is formed yet. -/
def executes (s : State) (d : Nat) : Bool :=
  let x := domOf s d
  decide (x.phase = .running) && decide (x.start ≤ s.gt) && (match x.batch with | some b => b.result.isNone && decide (b.parts ≤ b.part + 1) | none => false)

/-- An operation whose input is one tensor for the batch writes one (04 R132). -/
def keepWhole (o : OpRec) (r : BatchRow) : BatchRow :=
  match o.out with
  | some id => if o.opcode < 0x10 && (opIn o 0).any r.whole.contains && !r.whole.contains id then { r with whole := id :: r.whole } else r
  | none => r

/-- The sums that the reduction destinations of a domain's operation hold complete for a context (03 R69, R83). -/
def destSums (s : State) (d : Nat) (b : Batch) (c : Nat) : List (Nat × Int × Xacc) :=
  (stacksOf s d).flatMap fun n =>
    ((stackOf s n).dests.filter fun r => r.done && r.key.ctx = c && r.key.opseq = (domOf s d).opseq % 65536 && r.key.attempt = b.attempt % 16).flatMap fun r =>
      match r.sum with
      | some p => (p.data.take r.elems).zipIdx.map fun e => (r.first + e.2, p.key.we, e.1)
      | none => []

/-- Runs the batch's operation over its rows where it is of the given opcode (04 R117): a row that has
failed takes no part; the operation waits for a unit whose home is being recovered (05 R168); a term over range in any row aborts the attempt, which discards every row's results
and counts (02_arithmetic.md R52).
A batch of an instance that a fault has made FAILED runs no more: its rows end with ST_FAULT (04 R111). An operation whose input is one
tensor for the batch gives such a tensor (04 R132).
DEDUCED: notes/assumptions/76. -/
def runOp (s : State) (d opcode : Nat) (f : Inst → OpRec → Nat → List BatchRow → BatchRow → BatchRow) : State :=
  if !executes s d then s
  else match (domOf s d).batch with
    | none => s
    | some b =>
      match tabFind s.insts b.inst with
      | none => s
      | some i => match opOf i b with
        | none => s
        | some o =>
          if i.st = .failed then modDom s d fun x => { x with batch := some { b with result := some (b.rows.map (rowFail · stFault)) } }
          else if o.opcode ≠ opcode || s.plc.units.any (fun u => u.home = .lost && opReads i o b.inst b.exact b.rows u) then s
          else
            let step (r : BatchRow) : BatchRow :=
              if r.status ≠ 0 then r
              else keepWhole o (f i o (opIndex i b) b.rows { r with overRange := false, flush := 0, trunc := 0, special := 0, sat := 0, fell := false, sums := destSums s d b r.ctx })
            let rows := b.rows.map step
            if rows.any fun r => r.status = 0 && r.overRange then
              let back := List.zipWith (fun old new => { old with overRange := new.overRange, status := new.status }) b.rows rows
              modDom (addStall s d) d fun x => { x with phase := .aborted, batch := some { b with rows := back, rangeFault := true } }
            else modDom s d fun x => { x with batch := some { b with result := some rows } }

/-- A plain operation: its meaning for one context alone. -/
def rowOp (s : State) (d : BitVec 3) (opcode : Nat) (f : Inst → OpRec → BatchRow → BatchRow) : Out :=
  .next (runOp s d.toNat opcode fun i o _ _ r => f i o r)

/-- The C3 packets of which the base has delivered a part (07_skeltil_base.md R230): their headers stand first in what is delivered, or among
the flits that wait for an earlier frame. -/
def basePackets (s : State) : List C3Packet :=
  s.base.flows.flatMap fun e => (((e.2.part.take 1) ++ e.2.wait.map Prod.snd).filter fun h => wordClass h.toNat = 3).map fun h => packetOfHeader (h.toNat % 2 ^ 256) []

/-- The C3 packets in the device: on their way, waiting in a router, held in an open accumulator, or partly delivered by the base (03 R81,
R84). -/
def meshPackets (s : State) : List C3Packet :=
  s.arr.flights.map Prod.snd ++ s.arr.accs.map MergeAcc.packet ++ (s.arr.memStacks.flatMap fun e => e.2.waits.filterMap fun w => w.pkt.body) ++ basePackets s

/-- REISSUE_ATTEMPT (02 R52; 03_harrel_stacks.md R84; 17 R536): once no C3 packet of the aborted attempt is on
its way, the attempt starts again; after a range fault the faulted row groups take a WE raised by 16. An issue hold is
released for it. -/
def execReissueAttempt (d : BitVec 3) (s : State) : Out :=
  let d := d.toNat
  let x := domOf s d
  match x.batch with
  | none => .next s
  | some b =>
    let live := (meshPackets s).any fun p => p.key.attempt = b.attempt % 16 && b.rows.any fun r => r.ctx = p.key.ctx
    if x.phase ≠ .aborted || live || x.halted then .next s
    else
      let raised := b.rows.filter fun r => r.overRange && r.status = 0
      let s1 := raised.foldl (fun t r => modCtx t r.ctx fun k => raiseArith s.gt k ⟨0, 0, 0, 1, 0⟩) s
      let rows := b.rows.map fun r => if r.overRange && r.status = 0 then { r with raise := r.raise + 1, overRange := false, arith := true } else { r with overRange := false }
      let s2 := { s1 with pwr := { s1.pwr with released := if s1.pwr.hold = 0 || s1.pwr.released.contains d then s1.pwr.released else s1.pwr.released ++ [d] } }
      .next (modDom s2 d fun y => { y with
        batch := some { b with rows := rows, attempt := b.attempt + 1, result := none, rangeFault := false }
        phase := .readying, ready := [], readyBy := none })

/-- What a finished step's branch entries decide (04 R114). -/
inductive Branch where
  | goto (step : Nat)
  | done (status end_ : Nat)
  deriving DecidableEq, Repr

/-- The END code of the limits condition 0x03 watches, 0 where none is reached (04 R114, 09 R316). -/
def endCode (f : Formula) (p : Option Prov) (maxNew tokens : Nat) (w : Session) : Nat :=
  if w.stopHit then 1
  else if maxNew ≠ 0 ∧ maxNew ≤ tokens then 2
  else if f.maxSeq ≤ w.pos then 3
  else match p with
    | some q => if q.maxTokens ≤ w.pos then 4 else 0
    | none => 0

/-- The first branch entry that holds (04 R114). -/
def branchOf (inputLeft : Bool) (code : Nat) (last : Bool) : List (Nat × Nat) → Branch
  | [] => .done stNoBranch 0
  | (cond, next) :: es =>
    match cond with
    | 1 => .goto next
    | 2 => if inputLeft then .goto next else branchOf inputLeft code last es
    | 3 => if code ≠ 0 then .done stOk code else branchOf inputLeft code last es
    | 4 => if last && code = 0 then .goto next else branchOf inputLeft code last es
    | _ => branchOf inputLeft code last es

/-- The selection records of a step, in the order R321 exports them. -/
def stepRecords (r : BatchRow) : List SelRecord :=
  sortBy (fun a b => if a.op ≠ b.op then decide (a.op < b.op) else if a.pos0 ≠ b.pos0 then decide (a.pos0 < b.pos0)
      else decide (a.head < b.head))
    (r.work.records.filter fun q => decide (r.base ≤ q.pos0) && decide (q.pos0 < r.base + r.tokens))

/-- Row groups of a raw XACC tensor as they are stored: each header on a 128-byte boundary, its rows from 128 bytes after it on
(02 R57). -/
def storedGroups (f : Format) (cols : Nat) : List (Nat × Nat) → List Row → List Byte
  | [], _ => []
  | (c, n) :: gs, rows =>
    let we := match rows with | .raw w _ :: _ => w | _ => 0
    let data := ((rows.take n).map (rowBytes f)).flatten
    let fill := if gs = [] then [] else List.replicate ((128 - data.length % 128) % 128) 0#8
    rowGroupHeader f we c n cols ++ List.replicate 96 0#8 ++ data ++ fill ++ storedGroups f cols gs (rows.drop n)

/-- The payload of an OUTPUT frame (09 R321, 02 R57). -/
def outputPayload (c : Nat) (t : Tensor) : List Byte :=
  if isRaw t.fmt then storedGroups t.fmt t.cols (if t.groups = [] then [(c, t.rows.length)] else t.groups) t.rows
  else (t.rows.map (rowBytes t.fmt)).flatten

/-- The frames of a step (09 R321). -/
def stepFrames (i : Inst) (tag : Nat) (export_ : Bool) (r : BatchRow) : List Frame :=
  let toks := if r.toks = [] then [] else
    [(⟨1, tag, 0xFFFF, r.base, (r.toks.map fun t =>
      leBytes 4 t.1 ++ leBytes 1 (b2n t.2.1 + 2 * b2n t.2.2.1) ++ leBytes 1 t.2.2.2 ++ leBytes 2 0).flatten, 0, 0⟩ : Frame)]
  let outs := (sortBy (fun a b => decide (a.id < b.id)) (i.f.tensors.filter fun t => t.role = .output)).map fun d =>
    (⟨2, tag, d.id, r.base, outputPayload r.ctx (actTensor i r d), 0, 0⟩ : Frame)
  let recs := if export_ then [(⟨3, tag, 0xFFFF, r.base, ((stepRecords r).map recordBytes).flatten, 0, 0⟩ : Frame)] else []
  toks ++ outs ++ recs

/-- The session a committed step leaves (04 R117; 06 R197): its records are those of the last REC_STEPS
steps. -/
def commitSession (s : State) (old : Session) (r : BatchRow) : Session :=
  let n := old.stepNo + 1
  let keep := regBits s 0x1C00004 13 8
  let recs := if r.replay then old.records ++ (stepRecords r).map (fun q => { q with stepNo := n }) else r.work.records
  { r.work with stepNo := n, records := recs.filter fun q => decide (n < q.stepNo + keep) }

/-- CK_CORE of a step code in units of 100 MHz (14 R449). -/
def freqOf (n : Nat) : Nat := [16, 15, 14, 12, 10, 8, 6, 4].getD n 4

/-- The frequency of TOP_STEP. -/
def topFreq (s : State) : Nat := freqOf (regBits s 0x100004 2 0)

/-- The frequency of a domain's step in force. -/
def stepFreq (s : State) (d : Nat) : Nat := freqOf (tabGet s.pwr.clk {} d).step

/-- Whether a guarantee of rank 1 slows a domain now: a Drydown, thermal or margin ceiling, a stage-10 pause, or an issue hold that it
has not left (01 R31; 14 R457 to R460). -/
def limited (s : State) (d : Nat) : Bool :=
  let x := tabGet s.pwr.clk {} d
  decide (regBits s 0x100004 2 0 < x.step) || decide (x.stage = 10) || (decide (s.pwr.hold ≠ 0) && !s.pwr.released.contains d)

/-- The domains that a guarantee of rank 1 slows are noted, tick by tick (01 R32). -/
def noteLimits (s : State) : State :=
  ((List.range 8).filter fun d => limited s d && decide (stacksOf s d ≠ [])).foldl (fun t d => modDom t d fun x => { x with limitedAt := s.gt }) s

/-- A reserved context whose step ends after its bound is told, where a ceiling, a stage-10 pause, an issue hold or a recovery slowed the
step: the break began as the bound ended (01 R32, R33; 14 R460).
DESIGN CHOICE: notes/assumptions/72. -/
def yieldBound (s : State) (c : Nat) : State :=
  let k := ctxOf s c
  match k.prov, k.readyAt with
  | some p, some t =>
    let x := domOf s p.dom
    let rank1 := limited s p.dom || decide (t < x.limitedAt) || decide (t < x.lastFaultGt)
    if p.cls = 2 && !k.demoted && decide (p.boundUs * 1000 < s.gt - t) && rank1 then yielded s c 4 1 (t + p.boundUs * 1000) s.gt else s
  | _, _ => s

/-- A row leaves the batch at its step boundary (04 R114, R117; 09 R306, R313), and scans left of it are dropped (06 R199): a disabled context's results
are discarded; a failed one's request completes with its status; otherwise the step commits, its frames wait
for release and the request goes on or ends. A deadline stands before the step's own end or failure, a CANCEL after.
DEDUCED: notes/assumptions/64. -/
def endRow (s : State) (i : Inst) (b : Batch) (r : BatchRow) : State :=
  let c := r.ctx
  let s := dropScans s c
  let k := ctxOf s c
  match k.session, curRequest k with
  | some old, some q =>
    if !k.enable then finishDisable s c
    else if r.status ≠ 0 then
      settle (setCtx s c (endRequest k (if q.endWith = some stDeadline then stDeadline else r.status) (endPayload k 0) r.arith)) c
    else
      let new := commitSession s old r
      let toks := q.tokens + r.toks.length
      let q1 := { q with used := if r.decode then q.used else q.used + r.tokens, tokens := toks }
      let code := endCode i.f k.prov q.body.maxNew.toNat toks new
      let br := branchOf r.inputLeft code new.last.isSome (((stepOf i b).map StepRec.branches).getD [])
      let br1 : Branch := match q.endWith, br with
        | some st, .goto _ => Branch.done st 0
        | some st, .done st' e => if st = stCancelled then Branch.done st' e else Branch.done st 0
        | none, x => x
      let q2 := match br1 with | .goto n => { q1 with next := n } | .done _ _ => q1
      let tag := match k.queue.find? openRequest with | some a => a.tag | none => 0
      let fin := match br1 with
        | .goto _ => StepEnd.step r.arith
        | .done st e => StepEnd.request st (requestPayload toks new.pos e) r.arith
      let out : Output := ⟨stepFrames i tag (q.body.rflags.getLsbD 3) r, some fin, false, false, !mirrored s k, some old⟩
      let s1 := yieldBound s c
      settle (setCtx s1 c { modRequest (ctxOf s1 c) (fun _ => q2) with
        session := some new, output := some out, readyAt := some s.gt, waitedSince := s.gt,
        boundAt := match k.prov, k.readyAt with | some p, some t => if p.cls = 2 then some (t + p.boundUs * 1000) else none | _, _ => none }) c
  | _, _ => if !k.enable then finishDisable s c else s

/-- The traffic of an operation's tiling on its stacks' meshes, which the telemetry counts (03 R95).
DESIGN CHOICE: notes/assumptions/10. -/
def countTraffic (s : State) (d : Nat) : State :=
  (stacksOf s d).foldl (fun t n => modStack t n fun k => { k with tel := { k.tel with draws := k.tel.draws ++ [(s.free, false), (s.free, true)] } })
    { s with free := s.free + 1 }

/-- The ticks an execution of some rows took are charged (01 R23; 13 R435, R436), and those its tiles waited for operands are counted (05
R152). -/
def chargeTicks (s : State) (d : Nat) (rows : List BatchRow) : State :=
  let x := domOf s d
  let t := s.gt - x.start
  let s1 := rows.foldl (fun u r => modCtx u r.ctx fun k => { k with stepTicks := k.stepTicks + t, deficit := k.deficit + t }) s
  let spent := x.acct + t
  let s2 := modDom (addStall s1 d) d fun y => { y with prevEnd := s.gt, acct := if 100000000 ≤ spent then 0 else spent }
  if 100000000 ≤ spent then (ctxsOfDom s2 d).foldl (fun u c => modCtx u c fun k => { k with deficit := 0 }) s2 else s2

/-- A running operation ends (02 R55; 05 R145): its counts rise, its reads heat units, its array time is
charged; clamped sketch elements and an operation that fell back are counted (06 R186, R199); operands that no longer stream free their stream
halves (05 R153). -/
def creditOp (s : State) (d : Nat) (i : Inst) (o : OpRec) (b : Batch) (rows : List BatchRow) : State :=
  let s1 := rows.foldl (fun u r =>
    if r.status ≠ 0 then u else modCtx u r.ctx fun k => raiseArith s.gt k ⟨0, r.flush, r.trunc, 0, r.special⟩) s
  let live := rows.filter fun r => r.status = 0
  let s1' := bump (bump s1 0x1C00094 (live.map BatchRow.sat).sum) 0x1C0009C (b2n (live.any BatchRow.fell))
  let s2 := fetchExperts (countTraffic (countReads s1' i o b rows) d) d i o b rows
  chargeTicks (modDom s2 d fun y => dropStreams y b) d rows

/-- The rows of a batch after an operation: its marks are cleared for the next one, and a count that rose
shows in the step's ARITH flag (02 R55). -/
def settleRows (rows : List BatchRow) : List BatchRow :=
  rows.map fun r => { r with
    arith := r.arith || (decide (r.status = 0) && (decide (0 < r.flush) || decide (0 < r.trunc) || decide (0 < r.special)))
    raise := 0, overRange := false, flush := 0, trunc := 0, special := 0, sat := 0, fell := false }

/-- A change of tenancy class takes effect (01 R23, 05 R162, 13 R439). -/
def applyClasses (s : State) (d : Nat) : State :=
  (ctxsOfDom s d).foldl (fun t c =>
    match (ctxOf t c).newClass with
    | none => t
    | some p =>
      let k := ctxOf t c
      let f := match k.inst.bind (tabFind t.insts) with | some i => sessionReserve i.f p | none => 0
      let t1 := setCtx t c { k with prov := some p, newClass := none, reservedBytes := if k.inst.isSome then f else 0 }
      event t1 c (evtEntry 0x19 p.cls stOk s.gt)) s

/-- The end of a step (01 R23): rows leave, the Director's work is done, class changes take effect. -/
def endStep (s : State) (d : Nat) (i : Inst) (b : Batch) : State :=
  let s0 := modDom s d fun x => { x with batch := none, phase := .idle, sliceEnd := none, cut := false, ready := [], readyBy := none }
  let s1 := b.rows.foldl (fun t r => endRow t i b r) s0
  applyClasses (directorBoundary s1 d b.inst (b.rows.map BatchRow.ctx)) d

/-- The ticks a batch's operation, or its next part, is predicted to run (13 R436).
DEDUCED: notes/assumptions/8. -/
def predicted (s : State) (d : Nat) (o : OpRec) (b : Batch) : Nat :=
  let n := Config.predictedRun o.opcode b.rows.length
  if holdsReserved s d then min 50000 n else n

/-- Whether a batch is cut at this boundary: its slice has ended, or would end before its next operation does, so that no slice runs longer than
200 µs (01 R23, R33). -/
def cutsHere (s : State) (d : Nat) (i : Inst) (b : Batch) : Bool :=
  (domOf s d).cut || match (domOf s d).sliceEnd, opOf i b with
    | some e, some o => decide (e < s.gt + predicted s d o b)
    | _, _ => false

/-- A batch goes on to its next operation or part-operation, or is cut at its slice end; the answer says which (01 R22, R23). -/
def goOn (s : State) (d : Nat) (i : Inst) (b : Batch) (opseq : Nat) : State × Bool :=
  if cutsHere s d i b then
    (modDom s d fun y => { y with
      prefetch := [], batch := none, parked := y.parked ++ [b], phase := .idle, cut := false, sliceEnd := none, ready := [], readyBy := none }, true)
  else (modDom s d fun y => { y with batch := some b, phase := .readying, ready := [], readyBy := none, opseq := opseq }, false)

/-- The end of the running operation's execution phase (01 R22): its next part or the next operation waits for its stacks, or
the batch is cut at its slice end, or the step ends; the answer says whether a step boundary was
reached. -/
def endOp (s : State) (d : Nat) : State × Bool :=
  let x := domOf s d
  match x.batch with
  | none => (s, decide (x.phase = .idle))
  | some b =>
    match tabFind s.insts b.inst with
    | none => (modDom s d fun y => { y with batch := none, phase := .idle }, true)
    | some i => match opOf i b with
      | none => (endStep s d i b, true)
      | some o =>
        if x.phase ≠ .running || s.gt < x.start then (s, false)
        else match b.result with
        | none =>
          if b.part + 1 < b.parts then goOn (installCopies (chargeTicks s d b.rows) d) d i { b with part := b.part + 1, attempt := 0 } x.opseq
          else (s, false)
        | some rows =>
          let s1 := installCopies (creditOp s d i o b rows) d
          let b1 := { b with op := b.op + 1, rows := settleRows rows, result := none, attempt := 0, part := 0, parts := 1, seq := (x.opseq + 1) % 2 ^ 32 }
          if ((stepOf i b).map StepRec.count).getD 0 ≤ b1.op then (endStep s1 d i b1, true)
          else goOn s1 d i b1 ((x.opseq + 1) % 2 ^ 32)

/-- SLICE_END (01 R23, 13 R433): at the slice's end a batch between operations is parked and the next batch chosen; one whose
operation runs, past its prediction, is cut at the boundary that follows.
DEDUCED: notes/assumptions/8. -/
def execSliceEnd (d : BitVec 3) (s : State) : Out :=
  let d := d.toNat
  let x := domOf s d
  match x.batch with
  | none => .next s
  | some b =>
    if !((x.sliceEnd.map (ranOut s)).getD false) then .next s
    else match x.phase with
      | .running | .aborted => .next (modDom s d fun y => { y with cut := true })
      | .readying =>
        .next (formBatch (modDom s d fun y => { y with
          batch := none, parked := y.parked ++ [b], phase := .idle, sliceEnd := none, cut := false, ready := [], readyBy := none }) d)
      | _ => .next s

/-- STEP_OVERRUN (13 R436; 14 R460): a reserved context whose step has used STEP_US of exclusive time is treated as
shared for the rest of that step. -/
def execStepOverrun (c : BitVec 12) (s : State) : Out :=
  let c := c.toNat
  let k := ctxOf s c
  match k.prov with
  | some p =>
    let x := domOf s p.dom
    let now := if x.phase = .running && (match x.batch with | some b => b.rows.any (fun r => r.ctx = c) | none => false) then s.gt - x.start else 0
    if p.cls = 2 && !k.demoted && inBatch s c && quiet s && decide (p.stepUs * 1000 * topFreq s ≤ (k.stepTicks + now) * stepFreq s p.dom) then
      .next (event (setCtx s c { k with demoted := true }) c
        (evtEntry 0x18 0 stOk (p.stepUs + 2 ^ 32 * ((k.stepTicks + now) / 1000) + 2 ^ 64 * s.gt)))
    else .next s
  | none => .next s

/-- Answers every row of a running collective with a status (04 R132). -/
def failAll (s : State) (d : Nat) (st : Nat) : State :=
  modDom s d fun x => { x with batch := x.batch.map fun b => { b with result := some (b.rows.map fun r => rowFail r st) } }

/-- COLLECTIVE_TIMEOUT (04 R132, 01 R29): 2 ms after the device arrived at the collective. -/
def execCollectiveTimeout (d : BitVec 3) (s : State) : Out :=
  let d := d.toNat
  let x := domOf s d
  if !executes s d || !ranOut s (x.start + 2000000) then .next s
  else match x.batch with
    | none => .next s
    | some b => match (tabFind s.insts b.inst).bind fun i => opOf i b with
      | some o => if 0x10 ≤ o.opcode && o.opcode ≤ 0x13 then .next (failAll s d stPeerLost) else .next s
      | none => .next s

end Sys2Proof.Machine
end

