-- ==== Sys2Proof/Machine/Operations.lean ====
section
/-!
DEFINITION. The operations of the operation set as a domain runs them, and the microkernel instructions
(04_formulas_operations.md R118 to R137).
-/
namespace Sys2Proof.Machine

/-- The device's own summaries for an operation with TRAY_SCOPE = 1 (04 R131): A over all row groups; B, or each expert of B, over all
live rows, whose adapters may differ; K. -/
def ownTray (i : Inst) (o : OpRec) (rows : List BatchRow) : TrayWin :=
  let live := rows.filter fun r => r.status = 0
  let a := (live.filterMap fun r => (opTensor i r o 0).map Tensor.summary).foldl joinSummary ⟨true, 0⟩
  match inDecl i.f o 1 with
  | some bd =>
    let own (r : BatchRow) : List Summary :=
      let slot := if bd.role = .adapter then r.work.slot.getD 0 else 0
      match opTensor i r o 1 with | some b => weightSums i bd slot b.rows | none => []
    let sums := live.map own
    let n := if bd.rank = 3 then dim bd 2 else 1
    ⟨a, (List.range n).map fun e => (sums.map fun xs =>
        if bd.rank = 3 then xs.getD e ⟨true, 0⟩ else xs.foldl joinSummary ⟨true, 0⟩).foldl joinSummary ⟨true, 0⟩, dim bd 0⟩
  | none => ⟨a, [], 0⟩

/-- The tray-wide summaries of two devices (04 R131). -/
def joinTray (x y : TrayWin) : TrayWin :=
  ⟨joinSummary x.a y.a, (List.range (max x.bs.length y.bs.length)).map fun e =>
    joinSummary (x.bs.getD e ⟨true, 0⟩) (y.bs.getD e ⟨true, 0⟩), max x.kmax y.kmax⟩

/-- The devices other than `me` whose summaries an operation with TRAY_SCOPE = 1 exchanges: those that the collective which consumes its
output names (04 R131).
DEDUCED: notes/assumptions/91. -/
def trayPeers (f : Formula) (o : OpRec) (op me : Nat) : List Nat :=
  match (f.ops.drop (op + 1)).find? fun q => 0x10 ≤ q.opcode && q.opcode ≤ 0x13 && (opIn q 0) = o.out with
  | some q => (List.range 8).filter fun n => n ≠ me && (attr q 0 1).testBit n
  | none => []

/-- A matrix operation that exchanges its summaries over the tray where `scope` says so: it waits until every named device has given
its own (04 R131). -/
def trayOp (s : State) (d opcode : Nat) (scope : OpRec → Bool) (tray : List (Nat × TrayWin))
    (f : Inst → OpRec → Option TrayWin → BatchRow → BatchRow) : State :=
  let me := s.rst.trayPos
  let named (i : Inst) (o : OpRec) (op : Nat) : List Nat := if scope o then trayPeers i.f o op me else []
  let waits := match (domOf s d).batch with
    | some b => match tabFind s.insts b.inst with
      | some i => match opOf i b with
        | some o => (named i o (opIndex i b)).any fun n => !(tray.any fun t => t.1 = n)
        | none => false
      | none => false
    | none => false
  if waits then s
  else runOp s d opcode fun i o op rows r =>
    f i o (if scope o then some ((tray.filter fun t => (named i o op).contains t.1).foldl (fun w t => joinTray w t.2) (ownTray i o rows)) else none) r

/-- MATMUL (04 R119, R131): `tray` holds the summaries other devices gave, where TRAY_SCOPE is 1. -/
def execMatmul (d : BitVec 3) (tray : List (Nat × TrayWin)) (s : State) : Out :=
  .next (trayOp s d.toNat 0x01 (fun o => attr o 0 1 = 1) tray opMatmul)

/-- EXPERT_MATMUL (04 R121, R131). -/
def execExpertMatmul (d : BitVec 3) (tray : List (Nat × TrayWin)) (s : State) : Out :=
  .next (trayOp s d.toNat 0x02 (fun o => attr o 2 1 = 1) tray opExpert)

/-- ROUTER_TOPK (04 R122). -/
def execRouterTopk (d : BitVec 3) (s : State) : Out := rowOp s d 0x03 opRouter

/-- GATHER (04 R123). -/
def execGather (d : BitVec 3) (s : State) : Out := rowOp s d 0x04 opGather

/-- ATTN_EXACT (04 R124). -/
def execAttnExact (d : BitVec 3) (s : State) : Out := rowOp s d 0x05 opAttnExact

/-- Whether any live row of a batch lacks a record for some block and head (04 R125). -/
def lacksRecords (i : Inst) (o : OpRec) (op : Nat) (rows : List BatchRow) : Bool :=
  rows.any fun r => r.status = 0 && !recordsReady i o op r

/-- Forms the records that need no scan and starts the scans the others need (06 R189, R190, R193). -/
def startScans (s : State) (d : Nat) (i : Inst) (o : OpRec) (op : Nat) (rows : List BatchRow) : State :=
  (rows.filter fun r => r.status = 0 && !r.replay).foldl (fun t r =>
    (rowNeeds i o op d r).foldl (fun t n =>
      match n with
      | .none => t
      | .rec_ q => bump64 (addRecord t d r.ctx q) 0x1C00088 1
      | .scan sc =>
        if t.sil.scans.any fun x => x.key = sc.key then t
        else { t with sil := { t.sil with scans := t.sil.scans ++ [sc] } }) t) s

/-- Whether a row needs a scan that no bank can make (04 R125, 06 R199). -/
def scanBlocked (s : State) (d : Nat) (i : Inst) (o : OpRec) (op : Nat) (r : BatchRow) : Bool :=
  !canScan s && !r.replay && (rowNeeds i o op d r).any needsScan

/-- ATTN_SILLAGE (04 R125; 06 R197 to R199): exact mode and FALLBACK run it as ATTN_EXACT; a request with
REPLAY uses its records alone; otherwise it runs once every block and head has a record, and starts the
scans for those that have none. In exact mode a request with REPLAY runs exactly too, without its records, where 04 R125 and 06 R198
meet (DESIGN CHOICE: notes/assumptions/92).
DEDUCED: notes/assumptions/65. -/
def execAttnSillage (d : BitVec 3) (s : State) : Out :=
  let d := d.toNat
  if !executes s d then .next s
  else match (domOf s d).batch with
    | none => .next s
    | some b => match tabFind s.insts b.inst with
      | none => .next s
      | some i => match opOf i b with
        | none => .next s
        | some o =>
          let op := opIndex i b
          if o.opcode ≠ 0x06 then .next s
          else if b.exact then .next (runOp s d 0x06 fun i o _ _ r => opAttnExact i o r)
          else
            let blocked (r : BatchRow) : Bool := decide (r.status = 0) && scanBlocked s d i o op r
            let s0 := startScans s d i o op (b.rows.filter fun r => !blocked r)
            let rows := ((domOf s0 d).batch.map Batch.rows).getD []
            let wait := rows.any fun r => r.status = 0 && !r.replay && !blocked r && !recordsReady i o op r
            if wait then .next s0
            else
              let s1 := (b.rows.filter blocked).foldl (fun t r => dropScans t r.ctx) s0
              .next (runOp s1 d 0x06 fun i o op _ r =>
                if blocked r then (if attr o 24 1 = 1 then opAttnExact i o { r with fell := true } else rowFail r stScanUnavailable)
                else opAttnSillage i o op r)

/-- KV_APPEND (04 R126; 06 R186). -/
def execKvAppend (d : BitVec 3) (s : State) : Out := rowOp s d 0x07 fun i o r => opKvAppend i o 4194304 r

/-- NORM (04 R127). -/
def execNorm (d : BitVec 3) (s : State) : Out := rowOp s d 0x08 opNorm

/-- SOFTMAX (04 R127). -/
def execSoftmax (d : BitVec 3) (s : State) : Out := rowOp s d 0x09 opSoftmax

/-- ACTIVATION (04 R128). -/
def execActivation (d : BitVec 3) (s : State) : Out := rowOp s d 0x0A opActivation

/-- ELEMENTWISE (04 R128). -/
def execElementwise (d : BitVec 3) (s : State) : Out := rowOp s d 0x0B opElementwise

/-- ROTARY (04 R129). -/
def execRotary (d : BitVec 3) (s : State) : Out := rowOp s d 0x0C opRotary

/-- SAMPLE (04 R130). -/
def execSample (d : BitVec 3) (s : State) : Out := rowOp s d 0x0D opSample

/-- CONVERT (04 R133). -/
def execConvert (d : BitVec 3) (s : State) : Out := rowOp s d 0x0E opConvert

/-- VECTOR_KERNEL (04 R133, R136). -/
def execVectorKernel (d : BitVec 3) (s : State) : Out := rowOp s d 0x0F opVectorKernel

/-- The batch tensor of a device: its row groups in order (04 R132). -/
def batchTensor (ts : List Tensor) : Tensor :=
  match ts with
  | [] => ⟨.fp32, 0, [], ⟨true, 0⟩, []⟩
  | t :: _ => ⟨t.fmt, t.cols, (ts.map Tensor.rows).flatten, (ts.map Tensor.summary).foldl joinSummary ⟨true, 0⟩, (ts.map Tensor.groups).flatten⟩

/-- A tensor as the row group of a context. -/
def asGroup (c : Nat) (t : Tensor) : Tensor := if t.groups = [] then { t with groups := [(c, t.rows.length)] } else t

/-- The row groups this device gives a collective: each live row's, or the one tensor of the batch that an earlier collective made
(04 R132). -/
def ownGroups (i : Inst) (o : OpRec) (rows : List BatchRow) : List Tensor :=
  let live := rows.filter fun r => r.status = 0
  let all := live.filterMap fun r => (opTensor i r o 0).map (asGroup r.ctx)
  if live.any fun r => (opIn o 0).any r.whole.contains then all.take 1 else all

/-- Whether the row groups of two devices agree under R57. -/
def groupsAgree (a b : List Tensor) : Bool :=
  decide (a.length = b.length) && (List.zip a b).all fun z => (addTensor z.1 z.2).isSome &&
    decide (z.1.groups.map Prod.snd = z.2.groups.map Prod.snd)

/-- The local rows of a batch-wide result at each context's own row positions (04 R132). -/
def cutRows (t : Tensor) : List Tensor → List Tensor
  | [] => []
  | own :: rest =>
    let n := own.rows.length
    { t with rows := t.rows.take n, summary := summaryOf t.fmt t.cols (t.rows.take n), groups := [] } :: cutRows { t with rows := t.rows.drop n } rest

/-- The rows of an entry of a tensor's outermost dimension: tokens are the outermost of a tensor that has rows for each (R106, R132). -/
def entryRows (d : TensorDecl) : Nat :=
  let rows := declElems d / max 1 (declCols d)
  if perToken d then rows else rows / max 1 (if d.rank ≤ 1 then 1 else dim d (d.rank - 1))

/-- What each live row takes of a collective's result, and whether it is one tensor for the batch: each context's rows at its own
positions where the result has as many rows as the batch, else the whole result (04 R132).
DEDUCED: notes/assumptions/93. -/
def shareOut (t : Tensor) (own : List Tensor) (n : Nat) : List Tensor × Bool :=
  if own.length = n && decide (t.rows.length = (own.map fun x => x.rows.length).sum) then (cutRows t own, false)
  else (List.replicate n t, true)

/-- A live row with its share of a collective's result at the operation's output. -/
def givenRow (o : OpRec) (shares : List (BatchRow × Tensor)) (whole : Bool) (r : BatchRow) : BatchRow :=
  match shares.find? fun z => z.1.ctx = r.ctx, o.out with
  | some z, some id => { r with acts := tabPut r.acts id z.2, whole := if whole then id :: r.whole else r.whole.filter (· ≠ id) }
  | _, _ => r

/-- The devices a collective names in DEVICE_MASK, in order (04 R132). -/
def namedDevices (o : OpRec) : List Nat := (List.range 8).filter fun n => (attr o 0 1).testBit n

/-- What a device delivered: nothing yet, a poisoned line, or its row groups. -/
def delivered (peers : List (Nat × Option (List Tensor))) (n : Nat) : Option (Option (List Tensor)) :=
  (peers.find? fun p => p.1 = n).map Prod.snd

/-- The row groups of every named device, in order of position. -/
def allGroups (me : Nat) (i : Inst) (o : OpRec) (rows : List BatchRow) (peers : List (Nat × Option (List Tensor))) : List (List Tensor) :=
  (namedDevices o).map fun n => if n = me then ownGroups i o rows else match delivered peers n with | some (some ts) => ts | _ => []

/-- A tray collective (04 R132). `peers` gives what each other device named by DEVICE_MASK delivered: its row
groups, or none where its line arrived poisoned. It waits until every named device has delivered; raw XACC inputs must agree (R57). -/
def runCollective (s : State) (d opcode : Nat) (peers : List (Nat × Option (List Tensor))) : State :=
  if !executes s d then s
  else if (domOf s d).start + 2000000 < s.gt then failAll s d stPeerLost
  else match (domOf s d).batch with
    | none => s
    | some b => match tabFind s.insts b.inst with
      | none => s
      | some i => match opOf i b with
        | none => s
        | some o =>
          if o.opcode ≠ opcode then s
          else
            let me := s.rst.trayPos
            let got := ((namedDevices o).filter (· ≠ me)).map (delivered peers)
            if got.any Option.isNone then s
            else if got.any fun g => g = some none then failAll s d stPeerLost
            else
              let live := b.rows.filter fun r => r.status = 0
              let own := ownGroups i o b.rows
              let ins := allGroups me i o b.rows peers
              let rank (n : Nat) : Nat := ((namedDevices o).filter (· < n)).length
              let entry := match inDecl i.f o 0 with | some a => entryRows a | none => 1
              if (outDecl i.f o).any (fun a => isRaw a.fmt) && !(ins.all (groupsAgree own)) then failAll s d stBadFormat
              else match collective opcode (rank me) (rank (attr o 1 1)) entry (ins.map batchTensor) with
                | none => failAll s d stBadFormat
                | some t =>
                  let z := shareOut t own live.length
                  runOp s d opcode fun _ _ _ _ r => givenRow o (List.zip live z.1) z.2 r

/-- TRAY_ALLREDUCE (04 R132). -/
def execTrayAllreduce (d : BitVec 3) (peers : List (Nat × Option (List Tensor))) (s : State) : Out :=
  .next (runCollective s d.toNat 0x10 peers)

/-- TRAY_ALLGATHER (04 R132). -/
def execTrayAllgather (d : BitVec 3) (peers : List (Nat × Option (List Tensor))) (s : State) : Out :=
  .next (runCollective s d.toNat 0x11 peers)

/-- TRAY_ALLTOALL (04 R132). -/
def execTrayAlltoall (d : BitVec 3) (peers : List (Nat × Option (List Tensor))) (s : State) : Out :=
  .next (runCollective s d.toNat 0x12 peers)

/-- TRAY_BROADCAST (04 R132). -/
def execTrayBroadcast (d : BitVec 3) (peers : List (Nat × Option (List Tensor))) (s : State) : Out :=
  .next (runCollective s d.toNat 0x13 peers)

/-- One step of the microkernel execution (04 R136).
DEDUCED: notes/assumptions/76. -/
def kernStep (s : State) (f : Kern → Kern) : Out := .next { s with arr := { s.arr with kern := f s.arr.kern } }

/-- ADD (04 R137). -/
def execAdd (d a b : BitVec 6) (s : State) : Out := kernStep s fun k => kern2 fAdd k d.toNat a.toNat b.toNat
/-- SUB (04 R137). -/
def execSub (d a b : BitVec 6) (s : State) : Out := kernStep s fun k => kern2 fSub k d.toNat a.toNat b.toNat
/-- MUL (04 R137). -/
def execMul (d a b : BitVec 6) (s : State) : Out := kernStep s fun k => kern2 fMul k d.toNat a.toNat b.toNat
/-- FMA (04 R137). -/
def execFma (d a b c : BitVec 6) (s : State) : Out := kernStep s fun k => kern3 fFma k d.toNat a.toNat b.toNat c.toNat
/-- DIV (04 R137). -/
def execDiv (d a b : BitVec 6) (s : State) : Out := kernStep s fun k => kern2 fDiv k d.toNat a.toNat b.toNat
/-- SQRT (04 R137). -/
def execSqrt (d a : BitVec 6) (s : State) : Out := kernStep s fun k => kern1 fSqrt k d.toNat a.toNat
/-- RCP (04 R137). -/
def execRcp (d a : BitVec 6) (s : State) : Out := kernStep s fun k => kern1 fRcp k d.toNat a.toNat
/-- RSQRT (04 R137). -/
def execRsqrt (d a : BitVec 6) (s : State) : Out := kernStep s fun k => kern1 fRsqrt k d.toNat a.toNat
/-- EXP2 (04 R137). -/
def execExp2 (d a : BitVec 6) (s : State) : Out := kernStep s fun k => kern1 fExp2 k d.toNat a.toNat
/-- LOG2 (04 R137). -/
def execLog2 (d a : BitVec 6) (s : State) : Out := kernStep s fun k => kern1 fLog2 k d.toNat a.toNat
/-- NEG (04 R137). -/
def execNeg (d a : BitVec 6) (s : State) : Out := kernStep s fun k => kern1 fNeg k d.toNat a.toNat
/-- ABS (04 R137). -/
def execAbs (d a : BitVec 6) (s : State) : Out := kernStep s fun k => kern1 fAbs k d.toNat a.toNat
/-- MIN (04 R137). -/
def execMin (d a b : BitVec 6) (s : State) : Out := kernStep s fun k => kern2 fMin k d.toNat a.toNat b.toNat
/-- MAX (04 R137). -/
def execMax (d a b : BitVec 6) (s : State) : Out := kernStep s fun k => kern2 fMax k d.toNat a.toNat b.toNat
/-- LT (04 R137). -/
def execLt (d a b : BitVec 6) (s : State) : Out := kernStep s fun k => kern2 (fun x y => kernBool (fLt x y)) k d.toNat a.toNat b.toNat
/-- LE (04 R137). -/
def execLe (d a b : BitVec 6) (s : State) : Out := kernStep s fun k => kern2 (fun x y => kernBool (fLe x y)) k d.toNat a.toNat b.toNat
/-- EQ (04 R137). -/
def execEq (d a b : BitVec 6) (s : State) : Out := kernStep s fun k => kern2 (fun x y => kernBool (fEq x y)) k d.toNat a.toNat b.toNat
/-- SEL (04 R137). -/
def execSel (d a b c : BitVec 6) (s : State) : Out := kernStep s fun k => kern3 kernSel k d.toNat a.toNat b.toNat c.toNat
/-- CVTBF (04 R137). -/
def execCvtbf (d a : BitVec 6) (s : State) : Out := kernStep s fun k => kern1 fCvtBf k d.toNat a.toNat
/-- LD (04 R137). -/
def execLd (d a : BitVec 6) (s : State) : Out := kernStep s fun k => kernLd k d.toNat a.toNat
/-- LDC (04 R137). -/
def execLdc (d : BitVec 6) (n : BitVec 8) (s : State) : Out := kernStep s fun k => kernLdc k d.toNat n.toNat
/-- IDX (04 R137). -/
def execIdx (d : BitVec 6) (s : State) : Out := kernStep s fun k => kernIdx k d.toNat
/-- ST (04 R137). -/
def execSt (a : BitVec 6) (s : State) : Out := kernStep s fun k => kernSt k a.toNat
/-- RSUM (04 R137). -/
def execRsum (d a : BitVec 6) (s : State) : Out := kernStep s fun k => kernRed treeSum k d.toNat a.toNat
/-- RMAX (04 R137). -/
def execRmax (d a : BitVec 6) (s : State) : Out := kernStep s fun k => kernRed treeMax k d.toNat a.toNat
/-- RMIN (04 R137). -/
def execRmin (d a : BitVec 6) (s : State) : Out := kernStep s fun k => kernRed treeMin k d.toNat a.toNat

end Sys2Proof.Machine
end

