-- ==== Sys2Proof/Machine/Recovery.lean ====
section
/-!
DEFINITION. What a loss does: attempts discarded and reissued, tilings changed, copies dropped, homes
recovered, contexts told (17_faults.md R534 to R539; 05_placement.md R163 to R168; 03_harrel_stacks.md R78,
R83, R87).
-/
namespace Sys2Proof.Machine

/-- Whether a fault of a domain's stacks, a missing ready report among them, is detected in this tick and still to act (01 R30). -/
def domFault (s : State) (d : Nat) : Bool :=
  ((stacksOf s d).any fun n => faultPending s n || faultPending s (upperDie n)) ||
    s.pending.any fun q => match q with | .accordReadyTimeout e => e.toNat = d | _ => false

/-- Domains that hold a stack. -/
def activeDoms (s : State) : List Nat := (List.range 8).filter fun d => stacksOf s d ≠ []

/-- Domains whose operation runs now. -/
def runningDoms (s : State) : List Nat := (List.range 8).filter fun d => (domOf s d).phase = .running

/-- The running attempt of a domain is discarded; it drains and is reissued (17 R536). -/
def abortAttempt (s : State) (d : Nat) : State :=
  if (domOf s d).phase = .running then
    modDom (addStall s d) d fun x => { x with phase := .aborted, batch := x.batch.map fun b => { b with result := none, rangeFault := false } }
  else s

/-- Contexts of a domain that a broken bound or share affects: reserved ones break rank 4, the others rank 5
(01 R31, R32; 05 R165). -/
def yieldDomain (s : State) (d stop : Nat) : State :=
  (ctxsOfDom s d).foldl (fun t c => yielded t c (if classOf (ctxOf t c) = 2 then 4 else 5) 1 (domOf t d).lastFaultGt stop) s

/-- A domain loses a part of its array and switches to the loss tiling of a stack (`u` below 8) or an upper die (its index), or gives
a tile's share (64 + its ID) to its buddy; a second die or stack before new tilings are installed halts it (05 R163 to R165, 17
R539). -/
def changeTiling (s : State) (d u : Nat) : State :=
  let second := decide ((domOf s d).losses ≠ []) && decide (u < 64)
  let buddy := if u < 64 then none else buddyOf s (u - 64)
  let s1 := modDom (abortAttempt s d) d fun x => { x with
    losses := x.losses ++ [u], lossTiling := if u < 64 then some u else x.lossTiling,
    buddies := match buddy with | some b => tabPut x.buddies (u - 64) b | none => x.buddies
    halted := x.halted || second, lastFaultGt := s.gt
    ready := [], readyBy := none, prefetch := [] }
  if second then yieldDomain s1 d 0 else s1

/-- Drops the T0 copies in the tiles of a unit of loss: a stack by its number, an upper die by its index (05 R166). A pin to T0 that
loses its place is placed again when the resident set is recomputed. -/
def dropResident (s : State) (u : Nat) : State :=
  updUnits s (fun v => match v.t0 with | some t => inLoss (some u) t | none => false) fun v => { v with t0 := none, gone := v.gone || v.pin0 }

/-- Contexts whose request fails with a step that runs: their rows carry the status to the step boundary (04
R117). -/
def markRows (s : State) (c st : Nat) : State :=
  { s with arr := { s.arr with doms := s.arr.doms.map fun e =>
    let mark (b : Batch) : Batch :=
      { b with rows := b.rows.map fun r => if r.ctx = c then rowFail r st else r
               result := b.result.map fun rs => rs.map fun r => if r.ctx = c then rowFail r st else r }
    (e.1, { e.2 with batch := e.2.batch.map mark, parked := e.2.parked.map mark }) } }

/-- A context's running request completes with ST_FAULT: at its step boundary where a step runs it, else now
(04 R117). -/
def failRequest (s : State) (c : Nat) : State :=
  if inBatch s c then markRows s c stFault
  else settle (modCtx s c fun k => if (curRequest k).isSome then endRequest k stFault (endPayload k 0) false else k) c

/-- The TDI of a context's VF is locked or runs (13 R431). -/
def ctxLocked (s : State) (c : Nat) : Bool := fnOf s c ≠ 0 && tdiLocked s (fnOf s c)

/-- A unit is lost from a domain: its contexts are told, those of a locked TDI by TDI_STATE as well (13 R431;
17 R545). -/
def noticeDomain (s : State) (d cls : Nat) : State :=
  let cs := ctxsOfDom s d
  cs.foldl (fun t c => if ctxLocked t c then event t c (evtEntry 0x1A 0 stOk t.gt) else t) (faultNotice s cs cls)

/-- A domain with no live stack left: its operations complete with ST_FAULT (05 R163). -/
def failDomain (s : State) (d : Nat) : State :=
  let x := domOf s d
  let rows := (x.batch.toList ++ x.parked).flatMap fun b => b.rows.map BatchRow.ctx
  let s1 := modDom s d fun y => { y with batch := none, parked := [], phase := .idle, ready := [], readyBy := none, sliceEnd := none }
  (rows ++ (ctxsOfDom s1 d)).eraseDups.foldl (fun t c =>
    finishDisable (settle (modCtx t c fun k => if (curRequest k).isSome && k.output.isNone then endRequest k stFault (endPayload k 0) false else k) c) c) s1

/-- Contexts of a domain with a request under way. -/
def openRequests (s : State) (d : Nat) : Nat := ((ctxsOfDom s d).filter fun c => (curRequest (ctxOf s c)).isSome).length

/-- Packets on their way in a stack are gone with it (17 R536). -/
def dropFlights (s : State) (n : Nat) : State :=
  let inStack : C3Place → Bool := fun p => match p with | .router t => t / 256 = n | .adder t => t / 256 = n | .egress k => k = n | .ingress k => k = n
  modStack { s with arr := { s.arr with flights := s.arr.flights.filter fun f => !inStack f.1, accs := s.arr.accs.filter fun a => !inStack a.place } } n
    fun k => { k with waits := [], ports := k.ports.map fun e => (e.1, { e.2 with cur := none, c4In := none }) }

/-- The state of a power domain (14 R473). -/
def pdOf (s : State) (p : Nat) : PdState := tabGet s.pwr.pds .off p

/-- Sets the state of a power domain. -/
def setPd (s : State) (p : Nat) (x : PdState) : State := { s with pwr := { s.pwr with pds := tabSet s.pwr.pds .off p x } }

/-- A power domain is to switch on: domains ramp one at a time, each for 100 µs (14 R448). -/
def powerOn (s : State) (p : Nat) : State :=
  if pdOf s p = .on || s.pwr.ramps.contains p then s
  else
    let s1 := { s with pwr := { s.pwr with ramps := s.pwr.ramps ++ [p], rampBy := if s.pwr.ramps = [] then s.gt + 100000 else s.pwr.rampBy } }
    if s.pwr.ramps = [] then setPd s1 p .ramping else s1

/-- A power domain switches off (14 R448). -/
def powerOff (s : State) (p : Nat) : State := setPd { s with pwr := { s.pwr with ramps := s.pwr.ramps.filter (· ≠ p) } } p .off

/-- The power domains of a capacity unit (14 R447). -/
def capPds (kind n : Nat) : List Nat := if kind = 0 then [2 * n, 2 * n + 1] else if kind = 1 then [16 + n] else [24 + n]

/-- A capacity request of a unit that is lost is aborted: moves already committed stand (05 R172); the unit is LOST and its domains
switch off (05 R169; 14 R447).
DEDUCED: notes/assumptions/29. -/
def capLost (s : State) (kind n : Nat) : State :=
  let s1 := (capPds kind n).foldl powerOff (setCap s kind n .lost)
  if s.plc.capRun.any fun r => r.2 = kind * 8 + n then
    { s1 with
      plc := { s1.plc with capSt := 5, capReason := 0, capRun := none, placing := false
                           units := s1.plc.units.map fun u => if mustMove kind n u && u.dest.isNone && decide (u.home ≠ .lost) then { u with moving := false, copied := false } else u }
      sec := { s1.sec with moving := none } }
  else s1

/-- The loss of a lower die takes its stack out of service (03 R78, 05 R163). -/
def loseLower (s : State) (n cls cause : Nat) (injected : Bool) : State :=
  let s0 := capLost (dropFlights (dropResident (modDie (modDie s n fun x => { x with st := .lost, returning := false }) (upperDie n)
    fun x => { x with st := .lost, returning := false }) n) n) 0 n
  let a : FaultArgs := { cls := cls, unit := unitId 1 n, outcome := 3, cause := cause, permanent := true, injected := injected }
  match (stackOf s n).domain with
  | none => fault s0 a
  | some d =>
    let s1 := changeTiling s0 d n
    if liveStacks s1 d = [] then
      let s2 := fault s1 { a with outcome := 6, domains := [d], ctxFailed := openRequests s1 d }
      failDomain (noticeDomain s2 d cls) d
    else noticeDomain (fault s1 { a with domains := [d], interrupts := true }) d cls

/-- The loss of an upper die leaves its lower die in service (03 R78); of a stack that drains it is a fault in the unit, which is LOST
(05 R169). -/
def loseUpper (s : State) (n cls cause : Nat) (injected : Bool) : State :=
  let s1 := powerOff (dropResident (modDie s (upperDie n) fun x => { x with st := .lost, returning := false }) (upperDie n)) (2 * n + 1)
  let s0 := if draining s = some (0, n) then capLost (dropFlights (dropResident (modDie s1 n fun x => { x with st := .lost, returning := false }) n) n) 0 n else s1
  let a : FaultArgs := { cls := cls, unit := unitId 1 (upperDie n), outcome := 3, cause := cause, permanent := true, injected := injected }
  match (stackOf s n).domain with
  | none => fault s0 a
  | some d => noticeDomain (fault (changeTiling s0 d (if draining s = some (0, n) then n else upperDie n)) { a with domains := [d], interrupts := true }) d cls

/-- Pages of segments that a group's banks run are not yet fed: they are scanned again (06 R206). -/
def requeueGroup (s : State) (g : Nat) : State :=
  (List.range 16).foldl (fun t b => modBank (requeue t (bankAt t g b)) g b fun q => { q with seg := none }) s

/-- A pinned copy that left with its reservoir is placed again where another has room, by the next step boundary; else its pin ends with
UNIT_OUT (05 R158, R159). -/
def repin (s : State) (u : PUnit) : State :=
  if (stayingRsv s).isEmpty || (evictFor s u.dom (2 ^ 17) u.bytes (busyUnit s u.dom) (s.plc.units.length + 1)).isNone then endPin s 1 0x04 u else s

/-- The T1 copies of a reservoir are gone with it (05 R167, R180): sketch pages that lost theirs are counted, pinned copies are placed again. -/
def loseCopies (s : State) (r : Nat) : State :=
  let gone := s.plc.units.filter fun u => u.t1 = some r
  let s1 := updUnits s (fun u => u.t1 = some r) fun u => { u with t1 := none, t0 := if u.pin0 then u.t0 else none, moving := u.moving && u.home = .lost, copied := false, dest := none, gone := u.gone || u.pin1 }
  let s2 := bump s1 0x1000088 (gone.filter fun u => u.key.kind = .sketch).length
  (gone.filter fun u => u.pin1).foldl repin s2

/-- The loss of a reservoir destroys copies only: each is dropped, and running attempts are reissued (05 R158, R167; 17 R534). -/
def loseReservoir (s : State) (r cls cause : Nat) (injected : Bool) : State :=
  let doms := (List.range 8).filter fun d => decide (0 < (domOf s d).t1Gib)
  let run := runningDoms s
  let gone := s.plc.units.filter fun u => u.t1 = some r
  let s2 := loseCopies (capLost (requeueGroup (modDie (loseContents s (8 + r)) (8 + r) fun x => { x with st := .lost, returning := false }) r) 1 r) r
  let s3 := run.foldl abortAttempt s2
  let s4 := fault s3 { cls := cls, unit := unitId 1 (8 + r), outcome := 3, domains := run, interrupts := run ≠ [], cause := cause, detail := gone.length,
                       permanent := true, injected := injected }
  doms.foldl (fun t d => noticeDomain t d cls) s4

/-- The contexts whose sessions have a home among some units. -/
def sessionsIn (us : List PUnit) : List Nat := ((us.filter fun u => u.key.kind = .kv || u.key.kind = .sketch).map fun u => u.key.owner).eraseDups

/-- A session whose home is destroyed (05 R168): a paired one moves to the partner; an unpaired one loses its
units, and its request completes with ST_FAULT. -/
def loseSession (s : State) (cls c : Nat) : State :=
  let k := ctxOf s c
  if mirrored s k then
    { s with pair := { s.pair with sets := listMod s.pair.sets (setOf s k) fun p => { p with handBack := true } } }
  else
    let s1 := modUnits s fun us => us.filter fun u => !((u.key.kind = .kv || u.key.kind = .sketch) && u.key.owner = c)
    let s2 := modCtx s1 c fun q => { q with session := q.session.map fun x => sessionStart x.seed x.slot }
    failRequest (faultNotice s2 [c] cls) c

/-- Whether a tray peer that can be reached holds an instance of a unit's Formula (05 R168). -/
def peerServes (s : State) (u : PUnit) : Bool :=
  match tabFind s.insts u.key.owner with
  | some i => (List.range 8).any fun p => decide (p ≠ s.rst.trayPos) && peerReachable s p && Config.peerHolds p i.f.formulaId
  | none => false

/-- An instance becomes FAILED (04 R111): its steps do not run, and the requests that run one complete with ST_FAULT at their
boundary; their contexts are told first (17 R545), unless the loss of a port die has told the domain's. -/
def failInst (s : State) (cls h : Nat) : State :=
  match tabFind s.insts h with
  | some i =>
    if i.st = .failed then s
    else
      let cs := (boundTo s h).filter (inBatch s)
      let s0 := { s with insts := tabPut s.insts h { i with st := .failed } }
      let s1 := cs.foldl (fun t c => markRows t c stFault) (if cls = 0x0F || cls = 0x11 then faultNotice s0 cs cls else s0)
      event s1 i.ctx (evtEntry 0x05 h stOk 0)
  | none => s

/-- A weight unit whose home is destroyed (05 R168): written again from its T1 copy, else fetched from a peer that holds it into the
remaining T2, else its instance is FAILED (04 R111). -/
def loseWeight (cls : Nat) (s : State) (u : PUnit) : State :=
  let put (h : Home) (moves : Bool) : State := updUnits s (fun v => v.key = u.key) fun v => { v with home := h, moving := moves, copied := false }
  if !homeFits s u then failInst (put .lost false) cls u.key.owner
  else if u.t1.isSome then put (.port (rehome s u)) false
  else if peerServes s u then put .lost true
  else failInst (put .lost false) cls u.key.owner

/-- Recovers the homes that some units lost (05 R168). -/
def loseHomes (s : State) (cls : Nat) (us : List PUnit) : State :=
  let s1 := (us.filter fun u => u.key.kind = .granule || u.key.kind = .expert).foldl (loseWeight cls) s
  (sessionsIn us).foldl (fun t c => loseSession t cls c) s1

/-- A fault's record counts the contexts whose requests fail with the instances it failed (17 R541). -/
def countFailed (s t : State) : State :=
  let hs := (t.insts.filter fun e => e.2.st = .failed && ((tabFind s.insts e.1).map Inst.st) ≠ some .failed).map Prod.fst
  let n := ((hs.flatMap (boundTo t)).filter (inBatch s)).length
  let upd (r : FaultRec) : FaultRec := if r.seq = s.flt.seq then { r with ctxFailed := r.ctxFailed + n } else r
  { t with flt := { t.flt with recs := t.flt.recs.map upd, retained := t.flt.retained.map upd } }

/-- The blocks that a dead peer held are rebuilt from the partner's mirror (05 R168); a session whose mirror is gone too is lost. Fetches that
the peer served fail where no other does. -/
def losePeerHomes (s : State) (p : Nat) : State :=
  let us := s.plc.units.filter fun u => u.home = .peer p
  let kept (u : PUnit) : Bool := mirrored s (ctxOf s u.key.owner) && peerReachable s (partnerOf s)
  let s1 := updUnits s (fun u => decide (u.home = .peer p) && kept u) fun u => { u with home := .lost, moving := true, copied := false }
  let s2 := loseHomes s1 0x11 (us.filter fun u => !kept u)
  (s2.plc.units.filter fun u => decide (u.home = .lost) && u.moving && (u.key.kind = .granule || u.key.kind = .expert)).foldl (fun t u =>
    if peerServes t u then t else failInst (updUnits t (fun v => v.key = u.key) fun v => { v with moving := false }) 0x11 u.key.owner) s2

/-- The loss of a port die destroys the homes on it (05 R168; 17 R534). -/
def losePort (s : State) (p cls cause : Nat) (injected : Bool) : State :=
  let doms := (List.range 8).filter fun d => decide (0 < (domOf s d).t2Gib)
  let run := runningDoms s
  let us := s.plc.units.filter fun u => u.home = .port p
  let failing := ((sessionsIn us).filter fun c => !mirrored s (ctxOf s c) && (curRequest (ctxOf s c)).isSome).length
  let s0 := capLost (modDie (loseContents s (16 + p)) (16 + p) fun x => { x with st := .lost, returning := false }) 2 p
  let s1 := run.foldl abortAttempt s0
  let s2 := fault s1 { cls := cls, unit := unitId 1 (16 + p), outcome := 3, domains := run, interrupts := run ≠ [], cause := cause, detail := us.length,
                       ctxFailed := failing, permanent := true, injected := injected }
  let s3 := doms.foldl (fun t d => noticeDomain t d cls) s2
  countFailed s3 (loseHomes s3 cls us)

/-- The class of a die's loss (17 R534). -/
def dieClass (i : Nat) : Nat :=
  if i < 8 then 0x09 else if i < 16 then 0x0A else if i < 20 then 0x0B else if i = 20 then 0x16 else if i < 29 then 0x09 else 0x17

/-- Whether a die can be lost: it is in service, under test, or ramping. -/
def canLose (s : State) (i : Nat) : Bool := (dieOf s i).st ≠ .lost && (dieOf s i).st ≠ .off

/-- The loss of a die (17 R534, R535); a die that is off or already lost is not lost again. The record takes the
die's class unless another class found it. -/
def loseDie (s : State) (i cls cause : Nat) (injected : Bool) : State :=
  if !canLose s i then s
  else if i < 8 then loseLower s i cls cause injected
  else if i < 16 then loseReservoir s (i - 8) cls cause injected
  else if i < 20 then losePort s (i - 16) cls cause injected
  else if 21 ≤ i ∧ i < 29 then loseUpper s (i - 21) cls cause injected
  else s

/-- Whether a tile can be lost: it is enabled, in service, and not lost already. -/
def canLoseTile (s : State) (tile : Nat) : Bool :=
  !(stackOf s (tile / 256)).lost.contains (tile % 256) && dieUp s (if tileUp tile then upperDie (tile / 256) else tile / 256) && tileOn tile

/-- The loss of a tile whose router still forwards (03 R83, R87; 05 R164): its buddy takes its share. `tile` is a
tile ID. -/
def loseTile (s : State) (tile : Nat) (injected : Bool) : State :=
  let n := tile / 256
  let t := tile % 256
  if !canLoseTile s tile then s
  else
    let s1 := updUnits (modStack s n fun k => { k with lost := ascending (t :: k.lost), passing := ascending (t :: k.passing) })
      (fun u => u.t0 = some tile) fun u => { u with t0 := none }
    let a : FaultArgs := { cls := 0x08, unit := unitId 2 tile, outcome := 3, permanent := true, injected := injected }
    match (stackOf s n).domain with
    | none => fault s1 a
    | some d => fault (changeTiling s1 d (64 + tile)) { a with domains := [d], interrupts := true }

/-- A transient tile fault discards and reissues the attempt (03 R76, 17 R534). -/
def transientFault (s : State) (d unit cause addr : Nat) (injected : Bool) : State :=
  fault (abortAttempt s d) { cls := 0x07, unit := unit, outcome := 1, domains := [d], interrupts := decide ((domOf s d).phase = .running),
                             cause := cause, addr := addr, injected := injected }

/-- A reduction fault at a router (03 R83): counted, the attempt reissued; a second one at the router within 1 s
marks its tile lost and its router pass-through, where it can. Each has its record (R97). -/
def reductionFault (s : State) (tile : Nat) (injected : Bool) : State :=
  let n := tile / 256
  let t := tile % 256
  let again := match tabFind (stackOf s n).redFaults t with | some at_ => decide (s.gt ≤ at_ + 1000000000) | none => false
  let s1 := bump (modStack s n fun k => { k with redFaults := tabPut k.redFaults t s.gt }) (0x2000138 + n * 0x100000) 1
  if again && canLoseTile s tile then loseTile s1 tile injected
  else match (stackOf s n).domain with
    | some d => transientFault s1 d (unitId 2 tile) 0 0 injected
    | none => fault s1 { cls := 0x07, unit := unitId 2 tile, outcome := 1, injected := injected }

/-- New tilings come into force (05 R163 to R165; 13 R426): pending losses are covered, a halt ends with the
second GUARANTEE_YIELDED record, and stacks that wait for tilings join. -/
def installTilings (s : State) (d : Nat) : State :=
  let x := domOf s d
  let s1 := if x.halted then yieldDomain s d s.gt else s
  let s2 := (stacksOf s1 d).foldl (fun t n => modStack t n fun k => { k with fresh := false }) s1
  startIfReady (retile (modDom s2 d fun y => { y with losses := [], halted := false, installing := false }) d) d

/-- Whether new tilings may come into force at a boundary: those for lost tiles alone wait for a step boundary (05 R164), others for
an operation boundary (01_architecture.md R22). -/
def tilingsDue (x : Dom) : Bool := x.losses = [] || x.halted || x.losses.any (· < 64) || x.batch.isNone

/-- TILINGS_INSTALLED (05 R163 to R165): they come into force at once where they may and no operation runs, else at the next
boundary that lets them. -/
def execTilingsInstalled (d : BitVec 3) (s : State) : Out :=
  let d := d.toNat
  if (domOf s d).phase = .running || !tilingsDue (domOf s d) then .next (modDom s d fun y => { y with installing := true })
  else .next (installTilings s d)

/-- The stacks of a domain that have not reported within 8 µs of the first report, in tick `t`, have lost their lower dies. The fault is
attributed to the first report, from which its bound counts (01 R21; 17_faults.md R532, R541). -/
def loseSilent (s : State) (d t : Nat) : State :=
  let s1 := ((liveStacks s d).filter fun n => !(domOf s d).ready.contains n).foldl (fun u n => loseDie u n 0x09 0 false) s
  let date (r : FaultRec) : FaultRec := if s.flt.seq < r.seq then { r with gtFault := t - 8000 } else r
  modDom { s1 with flt := { s1.flt with recs := s1.flt.recs.map date, retained := s1.flt.retained.map date } } d fun x => { x with lastFaultGt := t - 8000 }

/-- ACCORD_READY_TIMEOUT (01 R21, R29): a stack that has not reported ready within 8 µs of the first report has
lost its lower die. -/
def execAccordReadyTimeout (d : BitVec 3) (s : State) : Out :=
  let d := d.toNat
  let x := domOf s d
  match x.phase, x.readyBy with
  | .readying, some t =>
    if ranOut s t then .next (loseSilent s d t) else .next s
  | _, _ => .next s

/-- A report that comes after the limit of its domain finds the stacks that had not reported lost (01 R21, R28). -/
def reportsLate (s : State) (d : Nat) : State :=
  match (domOf s d).phase, (domOf s d).readyBy with
  | .readying, some t => if t < s.gt then loseSilent s d t else s
  | _, _ => s

/-- STACK_READY (01 R20, R21): the first report arms the 8 µs limit. A stack reports only at the new step of its
clock (14_power_clocks_thermal.md R452). -/
def execStackReady (n : BitVec 3) (s : State) : Out :=
  match (stackOf s n.toNat).domain with
  | none => .next s
  | some d =>
    let s := reportsLate s d
    let x := domOf s d
    let ramps := (tabGet s.pwr.clk {} d).ramp.isSome
    if x.phase ≠ .readying || !dieUp s n.toNat || x.ready.contains n.toNat || ramps then .next s
    else .next (startIfReady (modDom (sendReport s n.toNat) d fun y => { y with
      ready := y.ready ++ [n.toNat], lastReady := s.gt
      readyBy := match y.readyBy with | some t => some t | none => some (s.gt + 8000) }) d)

end Sys2Proof.Machine
end

