-- ==== Sys2Proof/Machine/Dies.lean ====
section
/-!
DEFINITION. Power domains, and how a die is switched off, reset beside running dies, tested and returned to
service (14_power_clocks_thermal.md R447, R448; 15_reset_boot.md R485; 03_harrel_stacks.md R77, R87).
-/
namespace Sys2Proof.Machine

/-- The power domain of a die, by the index of 17 R542 (14 R447). -/
def pdOfDie (i : Nat) : Nat :=
  if i < 8 then 2 * i else if i < 16 then i + 8 else if i < 20 then i + 8 else if i = 20 then 28 else 2 * (i - 21) + 1

/-- A die switches off with its power domain, and what a memory die held is lost; a port die's channels are then untrained, and their counts stay (08 R279, R280). -/
def dieOff (s : State) (i : Nat) : State :=
  let s1 := powerOff (modDie (loseContents s i) i fun x => { x with st := .off, returning := false }) (pdOfDie i)
  if 16 ≤ i ∧ i < 20 then { s1 with mem := { s1.mem with ports := tabMod s1.mem.ports {} (i - 16) fun q =>
      { q with chans := q.chans.map fun c => (c.1, { c.2 with st := .untrained, recent := [] }) } } } else s1

/-- RST_CAUSE.DIE (15 R503). -/
def markDieReset (s : State) : State := raiseBit s 0x300000 7

/-- The dies of a stack or the one die that a die-local reset covers (15 R485). -/
def resetScope (i : Nat) : List Nat := if i < 8 then [i, upperDie i] else [i]

/-- A port die's channels are in self refresh, its entry complete or not, as its reset begins (08 R278, R289). -/
def enterSelfRefresh (s : State) (p : Nat) (ok : Bool) : State :=
  { s with mem := { s.mem with ports := tabMod s.mem.ports {} p fun q => { q with sr := ok, srOk := ok } } }

/-- A port die's channels enter self refresh: its homes are kept, and running attempts are discarded (15 R485, 08
R289). -/
def suspendPort (s : State) (p : Nat) : State :=
  (runningDoms s).foldl abortAttempt (modDie s (16 + p) fun x => { x with st := .reset, returning := false })

/-- A die-local reset of a compute die clears what telemetry counts of its routers, and STK_RED_MERGES (03 R99). -/
def clearDieTel (s : State) (i : Nat) : State :=
  let go (n : Nat) (up : Bool) : State := modStack s n fun k => { k with tel :=
    let other (e : Nat × Nat) : Bool := decide (128 * 64 ≤ e.1) != up
    { flits := k.tel.flits.filter other, stalls := k.tel.stalls.filter other, hwm := k.tel.hwm.filter other, merges := 0,
      draws := k.tel.draws.filter fun e => e.2 != up } }
  if i < 8 then go i false else if 21 ≤ i ∧ i < 29 then go (i - 21) true else s

/-- Starts a die-local reset (15 R485, R486). A die in service is lost to its domains first, as a fault of the class
given; a port die that completed self-refresh entry keeps its homes. -/
def beginDieReset (s : State) (i cls cause : Nat) (srOk injected : Bool) : State :=
  let s1 :=
    if !dieUp s i then s
    else if 16 ≤ i ∧ i < 20 ∧ srOk then
      fault (suspendPort s (i - 16)) { cls := cls, unit := unitId 1 i, outcome := 4, domains := runningDoms s, interrupts := runningDoms s ≠ [],
                                       cause := cause, injected := injected }
    else loseDie s i cls cause injected
  let s2 := if 16 ≤ i ∧ i < 20 then enterSelfRefresh s1 (i - 16) (srOk && dieUp s i) else s1
  let s3 := if 16 ≤ i ∧ i < 20 ∧ srOk ∧ dieUp s i then s2 else loseContents s2 i
  markDieReset ((resetScope i).foldl (fun t j => powerOn (clearDieTel (modDie t j fun x => { x with st := .reset, returning := false }) j) (pdOfDie j)) s3)

/-- The kind and number of a die as a capacity unit (05 R182); none for a die that is none. -/
def capUnitOf (i : Nat) : Option (Nat × Nat) :=
  if i < 8 then some (0, i) else if i < 16 then some (1, i - 8) else if i < 20 then some (2, i - 16) else none

/-- The capacity unit a die belongs to: an upper die to its stack (05 R169). -/
def capUnitWith (i : Nat) : Option (Nat × Nat) := if 21 ≤ i ∧ i < 29 then some (0, i - 21) else capUnitOf i

/-- A capacity request has ended: what PLC_CAP_STATUS shows (05 R182). -/
def endCap (s : State) (st reason : Nat) : State := { s with plc := { s.plc with capSt := st, capReason := reason, capRun := none, placing := false } }

/-- Ends the move of a stack: it takes its new domain, or stays powered off in none (13 R426). -/
def endMove (s : State) (n : Nat) (dest : Option Nat) : State :=
  let s1 := modStack { s with sec := { s.sec with moving := none } } n fun k => { k with domain := dest, lost := k.lost, fresh := dest.isSome }
  let s2 := endCap s1 6 0
  match dest with
  | some _ => setCap s2 0 n .inService
  | none => setCap (dieOff (dieOff s2 n) (upperDie n)) 0 n .out

/-- A stack in service that belongs to no domain is held in its power-off state (01_architecture.md R18). -/
def restStack (s : State) (n : Nat) : State := if bootReady s && (stackOf s n).domain.isNone then dieOff (dieOff s n) (upperDie n) else s

/-- A die that passed its tests enters service (05 R169). -/
def admitDie (s : State) (i : Nat) : State :=
  let s1 := modDie s i fun x => { x with st := .inService, returning := false, beat := s.gt }
  match capUnitOf i with
  | none => s1
  | some (k, n) =>
    let back := decide (s.plc.capRun = some (false, k * 8 + n))
    let s2 := if k = 0 then modStack s1 n fun q => { q with fresh := q.domain.isSome && bootReady s } else s1
    let s3 := match s2.sec.moving with
      | some (m, dest) => if k = 0 && m = n then endMove s2 n dest else setCap s2 k n .inService
      | none => setCap s2 k n .inService
    let s4 := if back then endCap s3 6 0 else s3
    if k = 0 then restStack s4 n else s4

/-- Whether the dies of a stack that returns or moves have ended their tests (05 R169; 13 R426). -/
def stackPassed (s : State) (i : Nat) : Bool :=
  match capUnitWith i with
  | some (0, n) => (decide (capOf s 0 n ≠ .returning) && decide (s.sec.moving.map Prod.fst ≠ some n)) ||
      [n, upperDie n].all fun j => dieUp s j || (dieOf s j).returning || decide ((dieOf s j).st = .lost)
  | _ => true

/-- Whether a die that passed waits for no step boundary: before READY, or a stack of no domain. -/
def entersNow (s : State) (i : Nat) : Bool :=
  !bootReady s || stackPassed s i && ((i < 8 && (stackOf s i).domain.isNone) || (21 ≤ i && i < 29 && (stackOf s (i - 21)).domain.isNone) || activeDoms s = [])

/-- Whether a die that passed its tests returns at a step boundary of domain `d`: its stack is of the domain, or
the die is shared (05 R169). -/
def returnsAt (s : State) (d i : Nat) : Bool :=
  (dieOf s i).returning && stackPassed s i &&
    (if i < 8 then (stackOf s i).domain = some d else if 21 ≤ i then (stackOf s (i - 21)).domain = some d else true)

/-- The dies that enter service with one that passed: those of its stack that have passed too. -/
def enterWith (s : State) (i : Nat) : List Nat :=
  match capUnitWith i with
  | some (0, n) => [n, upperDie n].filter fun j => (dieOf s j).returning
  | _ => [i]

/-- Dies that return at a step boundary of a domain. -/
def returnDies (s : State) (d : Nat) : State :=
  ((List.range 29).filter (returnsAt s d)).foldl admitDie s

/-- A die that fails its tests: a unit that was returning is OUT again with reason 0x6, any other is LOST (05
R169; 15 R485).
DEDUCED: notes/assumptions/29. -/
def failDie (s : State) (i : Nat) : State :=
  let out : Bool := match capUnitWith i with | some (k, n) => decide (capOf s k n = .returning) | none => false
  if out then
    match capUnitWith i with
    | some (k, n) =>
      let s2 := endCap (setCap s k n .out) 4 6
      if k = 0 then dieOff (dieOff s2 n) (upperDie n) else dieOff s2 i
    | none => s
  else
    let gone := resetScope i
    let s1 := gone.foldl (fun t j => powerOff (modDie t j fun x => { x with st := .lost, returning := false }) (pdOfDie j)) s
    let s2 := match capUnitOf i with | some (k, n) => setCap s1 k n .lost | none => s1
    let s3 := if i < 8 && s2.sec.moving.map Prod.fst = some i then endCap { s2 with sec := { s2.sec with moving := none } } 5 0 else s2
    fault s3 { cls := dieClass i, unit := unitId 1 i, outcome := 3, permanent := true }

/-- Whether a tested link is not repaired: in some direction more connections failed than its 8 spares (03 R77). -/
def unrepaired (l : LinkTest) : Bool := decide (8 < l.down.toNat) || decide (8 < l.up.toNat)

/-- Lost tiles of a stack after a test of one of its dies (03 R77, R87, R90): those found lost replace the die's, an unrepaired
vertical link loses the upper tile at its place, and only an enabled tile can be lost. -/
def testedLost (n : Nat) (up : Bool) (old tiles : List Nat) (links : List LinkTest) : List Nat :=
  let cut := (links.filter fun l => !l.bypass && unrepaired l).map fun l => 128 + l.tile.toNat
  ascending ((old.filter fun t => decide (128 ≤ t) != up) ++ ((tiles.filter fun t => decide (128 ≤ t) == up) ++ cut).filter fun t => tileOn (n * 256 + t)).eraseDups

/-- Tiles of a die found lost by its test replace its lost tiles; the stack's vertical links and bypass lanes are tested with it (03
R77, R87). -/
def testTiles (s : State) (i : Nat) (tiles : List Nat) (links : List LinkTest) : State :=
  let go (n : Nat) (up : Bool) : State := modStack s n fun k => { k with
    lost := testedLost n up k.lost tiles links, passing := k.passing.filter fun t => decide (128 ≤ t) != up
    deadBypass := (((links.filter fun l => l.bypass && unrepaired l).map fun l => laneOf l.tile.toNat)).eraseDups }
  if i < 8 then go i false else if 21 ≤ i then go (i - 21) true else s

end Sys2Proof.Machine
end

