-- ==== Sys2Proof/Machine/Mesh.lean ====
section
/-!
DEFINITION. In-network reduction over the meshes and the base's stack endpoints, and stack telemetry
(03_harrel_stacks.md R66, R69, R71 to R76, R79 to R99; 07_skeltil_base.md R233).
-/
namespace Sys2Proof.Machine

/-- Removes the first element of a list that satisfies a test. -/
def dropFirst {α : Type} (f : α → Bool) : List α → List α
  | [] => []
  | x :: xs => if f x then xs else x :: dropFirst f xs

/-- Puts a packet on its way. -/
def fly (s : State) (dest : C3Place) (p : C3Packet) : State := { s with arr := { s.arr with flights := s.arr.flights ++ [(dest, p)] } }

/-- Takes a packet off its way, where it was on it; what its link corrected or poisoned shows at its end (03 R76). -/
def land (s : State) (at_ : C3Place) (p : C3Packet) : State :=
  { s with arr := { s.arr with flights := dropFirst (fun f => decide ((f.1, { f.2 with fixed := p.fixed, poison := p.poison || f.2.poison }) = (at_, p))) s.arr.flights } }

/-- The procedure of R81 for a packet at a place and output port: merged into an open accumulator, forwarded, or
given a free accumulator for a window of ticks. The answer says whether it merged.
DESIGN CHOICE: notes/assumptions/21. -/
def meet (s : State) (place : C3Place) (port slots src window : Nat) (merging : Bool) (p : C3Packet) (go : State → C3Packet → State) : State × Bool :=
  let mine (a : MergeAcc) : Bool := decide (a.place = place) && decide (a.port = port)
  let put (u : State) (as : List MergeAcc) : State := { u with arr := { u.arr with accs := as } }
  if !merging then (go s p, false)
  else match s.arr.accs.find? fun a => mine a && a.packet.key = p.key with
    | some a =>
      let q := mergePackets src a.packet p
      let rest := dropFirst (fun b => decide (b = a)) s.arr.accs
      if q.count = p.key.expect then (go (put s rest) q, true) else (put s (rest ++ [{ a with packet := q }]), true)
    | none =>
      if p.count = p.key.expect then (go s p, false)
      else if (s.arr.accs.filter mine).length < slots then (put s (s.arr.accs ++ [⟨place, port, p, s.gt + window⟩]), false)
      else (go s p, false)

/-- Whether a router merges (03 R81, R86, R87): RED_EN is in force, and it is no pass-through router, which a lost tile's is. -/
def routerMerges (s : State) (t : Nat) : Bool :=
  let k := stackOf s (t / 256)
  k.redEn && !k.passing.contains (t % 256) && !k.lost.contains (t % 256) && tileEnabled (t / 256) (tileUp t) (t % 128)

/-- A C3 packet as the mesh carries it. -/
def c3Pkt (n : Nat) (p : C3Packet) : MeshPkt := { cls := 3, src := p.src, dst := c3Dst n p.key, len := p.key.len, body := some p, poison := p.poison }

/-- A C3 packet waits in a router for its output port (03 R73). -/
def routerGo (t inPort : Nat) (s : State) (p : C3Packet) : State := enqueue s t inPort (c3Pkt (t / 256) p)

/-- A stack's merge window in ticks, at its CK_CORE (03 R91; 14_power_clocks_thermal.md R449). -/
def windowTicks (s : State) (n : Nat) : Nat :=
  let f := match (stackOf s n).domain with | some d => stepFreq s d | none => 10
  ((stackOf s n).window * 10 + f - 1) / max 1 f

/-- Counts the words of a packet that its link has corrected (03 R76). -/
def countFixed (s : State) (n : Nat) (p : C3Packet) : State := if p.fixed = 0 then s else bump s (0x2000140 + n * 0x100000) p.fixed

/-- C3_PACKET_ARRIVAL (03 R81, R82): a packet that a tile sends, or one on its way, reaches the router of tile
`t`. Nothing merges at the destination's own port. A packet whose fields are out of range is refused (R66, R79).
DEDUCED: notes/assumptions/76. -/
def execC3PacketArrival (t : BitVec 11) (p : C3Packet) (s : State) : Out :=
  let t := t.toNat
  let s1 := countFixed (land s (.router t) p) (t / 256) p
  if !tileValid t || !packetOk p then .next s1
  else
    let r := c3Route t p.key
    let slots := if tileY t = 0 || tileY t = 7 then 4 else 2
    let m := meet s1 (.router t) r.1 slots t (windowTicks s (t / 256)) (routerMerges s t && decide (r.1 ≠ 5)) { p with fixed := 0 } (routerGo t p.via)
    .next (if m.2 then modStack m.1 (t / 256) fun k => { k with tel := { k.tel with merges := satAdd 64 k.tel.merges 1 } } else m.1)

/-- MERGE_WINDOW_EXPIRY (03 R81, R82): the window of a reduction's accumulator has ended: it closes and its packet goes on.
DESIGN CHOICE: notes/assumptions/21. -/
def execMergeWindowExpiry (t : BitVec 11) (k : C3Key) (s : State) : Out :=
  let t := t.toNat
  match s.arr.accs.find? fun a => decide (a.place = .router t) && decide (a.packet.key = k) with
  | some a =>
    if !ranOut s a.closes then .next s
    else .next (routerGo t 8 { s with arr := { s.arr with accs := dropFirst (fun b => decide (b = a)) s.arr.accs } } a.packet)
  | none => .next s

/-- A packet leaves a stack endpoint: out to the destination stack's endpoint or adder, or in by the strip port
nearest its destination (03 R72, R83; 07 R233).
DEDUCED: notes/assumptions/22. -/
def endpointGo (n : Nat) (inward : Bool) (s : State) (p : C3Packet) : State :=
  if inward then
    if p.key.strip then fly s (.adder p.key.dst) p
    else enqueue s (ingressAt (c3Dst n p.key)) 6 (c3Pkt n p)
  else if p.key.dst / 256 = n then fly s (.adder p.key.dst) p
  else fly s (.ingress (p.key.dst / 256)) p

/-- A packet at an endpoint: merged among those for the same destination endpoint on egress, for the same strip
port on ingress (07 R233). -/
def atEndpoint (s : State) (n : Nat) (inward : Bool) (p : C3Packet) : State :=
  let place : C3Place := if inward then .ingress n else .egress n
  let s1 := countFixed (land s place p) n p
  let port := if inward then tileX p.key.dst * 8 + edgeRow (tileY p.key.dst) else p.key.dst / 256
  let full := decide (64 ≤ (s1.arr.accs.filter fun a => decide (a.place = place)).length)
  if !tileValid p.key.dst || !tileValid p.src then s1
  else
  let m := meet s1 place port (if full then 0 else 64) p.src (stackOf s n).epWindow ((stackOf s n).epRed) { p with fixed := 0 } (endpointGo n inward)
  if m.2 then bump64 m.1 0x18000A0 1 else m.1

/-- EP_C3_PACKET_ARRIVAL (07 R233). -/
def execEpC3PacketArrival (n : BitVec 3) (inward : Bool) (p : C3Packet) (s : State) : Out := .next (atEndpoint s n.toNat inward p)

/-- EP_MERGE_WINDOW_EXPIRY (07 R233): the window, in CK_FAB cycles of one tick, has ended.
DESIGN CHOICE: notes/assumptions/21. -/
def execEpMergeWindowExpiry (n : BitVec 3) (inward : Bool) (k : C3Key) (s : State) : Out :=
  let place : C3Place := if inward then .ingress n.toNat else .egress n.toNat
  match s.arr.accs.find? fun a => decide (a.place = place) && decide (a.packet.key = k) with
  | some a =>
    if !ranOut s a.closes then .next s
    else .next (endpointGo n.toNat inward { s with arr := { s.arr with accs := dropFirst (fun b => decide (b = a)) s.arr.accs } } a.packet)
  | none => .next s

/-- The elements of a destination's range (03 R79). -/
def keyElems (k : C3Key) : Nat := k.len * perFlit k.wide

/-- Two keys name overlapping elements of one destination's region in one operation (03 R83). -/
def sameRange (a b : C3Key) : Bool :=
  decide (a.opseq = b.opseq) && decide (a.offset < b.offset + keyElems b) && decide (b.offset < a.offset + keyElems a)

/-- A transient fault of a tile (03 R76, R83): the attempt its domain runs is discarded; a tile of no domain has its record alone. -/
def tileRecord (s : State) (t : Nat) : State :=
  match (stackOf s (t / 256)).domain with
  | some d => transientFault s d (unitId 2 t) 0 0 false
  | none => fault s { cls := 0x07, unit := unitId 2 t, outcome := 1 }

/-- A packet with a poisoned flit, or of no reservation: the destination discards the attempt (03 R75, R76). -/
def tileFault (s : State) (t : Nat) (poison : Bool) : State :=
  tileRecord (if poison then bump s (0x2000144 + t / 256 * 0x100000) 1 else s) t

/-- A destination with a sum added; it is complete at EXPECT (03 R83). -/
def RedDest.add (r : RedDest) (q : C3Packet) : RedDest := { r with key := q.key, sum := some q, done := decide (q.count = q.key.expect) }

/-- The key a destination holds its packets to: the first packet fixes a window that was open when the operation started.
DEDUCED: notes/assumptions/79. -/
def RedDest.awaits (r : RedDest) (p : C3Packet) : C3Key := if r.opens && r.sum.isNone then { r.key with we := p.key.we } else r.key

/-- REDUCTION_ADD (03 R83, R84): the destination that the tiling reserved adds a packet of its current attempt, and hands the complete
sum to conversion; one of an aborted attempt is discarded; a wrong attempt, a sum past EXPECT or other key fields are reduction faults;
no reservation, or a poisoned flit, is a tile fault (R75, R76). A tile ID out of range is refused (R66).
DEDUCED: notes/assumptions/79. -/
def execReductionAdd (t : BitVec 11) (p : C3Packet) (s : State) : Out :=
  let t := t.toNat
  let n := t / 256
  let s1 := land s (.adder t) p
  if !tileValid t then .next s1
  else if p.poison then .next (tileFault s1 t true)
  else match (stackOf s n).domain.bind fun d => ((domOf s d).batch).map fun b => (domOf s d, b) with
    | none => .next (tileFault s1 t false)
    | some (x, b) =>
      let cur (k : C3Key) : Bool := decide (k.opseq = x.opseq % 65536) && decide (k.attempt = b.attempt % 16)
      if x.phase = .aborted then .next s1
      else if x.phase ≠ .running then .next (tileFault s1 t false)
      else if !cur p.key then .next (reductionFault s1 t false)
      else
        let dests := (stackOf s1 n).dests.filter fun r => cur r.key
        match dests.find? fun r => decide (r.key.dst = t) && sameRange r.key p.key with
        | none => .next (tileFault s1 t false)
        | some r =>
          if r.awaits p ≠ p.key then .next (reductionFault s1 t false)
          else
            let q := match r.sum with | some a => mergePackets t a p | none => p
            if q.key.expect < q.count then .next (reductionFault s1 t false)
            else .next (modStack s1 n fun k => { k with dests := dropFirst (fun e => decide (e = r)) dests ++ [r.add q] })

/-! ### Mesh cycles (R73, R74) -/

/-- Whether a sink of a stack was reserved before a packet came (03 R75): a tile in service that a tiling in force of the stack's domain
shares work to, as itself or as a buddy; a slice of a die in service of such a domain. C4 reports need none.
DEDUCED: notes/assumptions/79. -/
def sinkReserved (s : State) (n : Nat) (d : MeshDst) : Bool :=
  match (stackOf s n).domain with
  | none => false
  | some m =>
    let x := domOf s m
    let ts := (x.tilings.filter fun q => q.loss = x.lossTiling).flatMap TilingSet.tilings
    match d with
    | .tile t => tileOn t && ts.any fun q => q.tiles.any fun u => shareTile x 192 u = t
    | .slice k up _ => decide (ts ≠ []) && dieUp s (if up then upperDie k else k)
    | .strip _ => true

/-- A packet whose last flit leaves its router, where no further buffer of the mesh takes it flit by flit: to its tile or slice, or by the
strip port. A reduction packet's next place is its own command's (R81, R83); a packet with a poisoned flit, or that finds no
reservation, is a tile fault (R75, R76). -/
def sinkPacket (s : State) (n : Nat) (next : MeshNext) (w : MeshPkt) : State :=
  match next, w.body with
  | .router u ip, some p => fly s (.router u) { p with via := ip }
  | .sink, some p => fly s (.adder p.key.dst) p
  | .base, some p => fly s (.egress n) p
  | .sink, none => if w.poison || (w.cls ≠ 4 && !sinkReserved s n w.dst) then tileFault s (dstRouter w.dst) w.poison else s
  | _, none => s

/-- A flit of a packet leaves its router, counted (03 R74, R95): into the next one's buffer; a reduction packet and one for a sink or the base
go on whole with the last.
DESIGN CHOICE: notes/assumptions/78. -/
def leave (s : State) (n : Nat) (w : MeshWait) : State :=
  let r := meshRoute (stackOf s n).deadBypass w.at_ w.pkt.cls w.pkt.dst
  let s1 := countFlit s w.at_ r.1 w.pkt.cls
  match r.2, w.pkt.body with
  | .router u ip, none => modStack s1 n fun k =>
    let v : MeshWait := ⟨u, ip, (meshRoute k.deadBypass u w.pkt.cls w.pkt.dst).1, 0, [k.cycle + hopLatency w.at_ r.1], 0, w.pkt⟩
    { k with waits := pushFlit v (w.sent = 0) k.waits }
  | next, _ => if w.sent + 1 < pktFlits w.pkt then s1 else sinkPacket s1 n next w.pkt

/-- A cycle of one output port (03 R73, R95). -/
def portCycle (s : State) (n t port : Nat) : State :=
  let k := stackOf s n
  let x : OutPort := tabGet k.ports {} (t % 256 * 8 + port)
  let hs := (heads [] k.waits).filter fun w => decide (w.at_ = t) && decide (w.outPort = port) && (match w.flits with | c :: _ => decide (c ≤ k.cycle) | [] => false)
  let g := passing x k.cycle (hs.filter (hasCredit k))
  let s1 := countStalls s t port (stalled hs g)
  match g with
  | none => s1
  | some w =>
    leave (modStack s1 n fun q => { q with waits := popFlit w q.waits, ports := tabPut q.ports (t % 256 * 8 + port) (afterFlit x k.cycle w) }) n w

/-- One cycle of a stack's mesh: packets from outside enter their buffers, and each output port that a packet waits for passes a flit; the
high-water marks follow. -/
def meshCycle (s : State) (n : Nat) : State :=
  let s1 := modStack s n fun k => markHwm { k with waits := feed k.cycle [] k.waits }
  let outs := ((stackOf s1 n).waits.map fun w => (w.at_, w.outPort)).eraseDups
  modStack (outs.foldl (fun t o => portCycle t n o.1 o.2) s1) n fun k => { markHwm k with cycle := k.cycle + 1 }

/-- The cycles of every stack's mesh within a tick of GT.
DESIGN CHOICE: notes/assumptions/78. -/
def meshTick (s : State) : State :=
  (List.range 8).foldl (fun t n =>
    match (stackOf t n).domain with
    | some d => if meshActive (stackOf t n) then (List.range (meshCycles (stepFreq t d) t.gt)).foldl (fun u _ => meshCycle u n) t else t
    | none => t) s

/-- TILE_SILENT (17 R535; 03 R87): a tile has been silent for 8 µs in an operation. Where its router forwards, the tile is lost;
a router that does not, a lost tile's among them, marks its whole die lost. -/
def execTileSilent (x : SilentTile) (s : State) : Out :=
  let t := x.tile.toNat
  match (stackOf s (t / 256)).domain with
  | some d =>
    if (domOf s d).phase ≠ .running || !tileValid t then .next s
    else if x.forwards then .next (loseTile s t false)
    else .next (loseDie s (if tileUp t then upperDie (t / 256) else t / 256) 0x09 0 false)
  | none => .next s

/-- Telemetry after a clear (03 R92, R99): a high-water mark starts from what its buffer holds now. -/
def clearTel (k : Stack) : Telemetry := { hwm := occupancies k.waits }

/-- A write of STK_TEL_CTL (03 R92, R99): CLR applies before a snapshot. Only a host's write is dropped while the BARs are off (15
R480). -/
def telControl (r : Requester) (s : State) (n : Nat) (freeze clr : Bool) : State :=
  if r = .host && barsOff s then s
  else
  let busy : Bool := match (stackOf s n).domain with | some d => decide ((domOf s d).phase = .running) | none => false
  let s1 := modStack s n fun k =>
    let t := if clr then clearTel k else k.tel
    { k with tel := t, frozen := if freeze then some ⟨t, occupancies k.waits, s.gt, busy⟩ else none }
  regSetBits s1 (0x2000100 + n * 0x100000) 1 1 (b2n freeze)

/-- FREEZE (03 R92). -/
def execFreeze (r : Requester) (w : TelWrite) (s : State) : Out := .next (telControl r s w.stack.toNat w.freeze false)

/-- TEL_CLR (03 R92). -/
def execTelClr (r : Requester) (w : TelWrite) (s : State) : Out := .next (telControl r s w.stack.toNat w.freeze true)

/-- The mesh settings take effect at the stack's operation boundary (03 R91), and so does endpoint merging (07 R250).
DEDUCED: notes/assumptions/23. -/
def meshBoundary (s : State) (d : Nat) : State :=
  (stacksOf s d).foldl (fun t n =>
    let w := regVal t (0x2000080 + n * 0x100000)
    modStack t n fun k => { k with redEn := w.getLsbD 8, epRed := (regVal t 0x1800004).getLsbD 8, epWindow := regBits t 0x1800004 23 16, window := bits w 5 0 }) s

end Sys2Proof.Machine
end

