-- ==== Sys2Proof/Machine/Base.lean ====
section
/-!
DEFINITION. The commands of the Skeltil photonic base (07_skeltil_base.md R217 to R258; 17_faults.md R534).
-/
namespace Sys2Proof.Machine

/-- The home field of a port (07 R217). -/
def fieldOf (p : Nat) : Nat :=
  if p < 8 then p else if p < 16 then p - 8 else if p = 16 ∨ p = 30 then 8 else if p = 17 ∨ p = 31 then 9
  else if p = 18 ∨ p = 20 then 10 else if p = 19 ∨ p = 21 then 11 else p - 22

/-- The die behind a logical endpoint, by the index of 17 R542; none for a bank group or a spare path. -/
def dieOfEp (e : Nat) : Option Nat := if e < 20 then some e else if e < 22 then some 20 else none

/-- The physical port of a logical endpoint (07 R219). -/
def physOf (s : State) (e : Nat) : Nat := tabGet s.base.remap e e

/-- The endpoints homed in a base field (07 R217, R219). -/
def endpointsIn (s : State) (f : Nat) : List Nat := (List.range 30).filter fun e => fieldOf (physOf s e) = f

/-- The logical endpoint a physical port serves. -/
def epAt (s : State) (p : Nat) : Nat :=
  match s.base.remap.find? fun x => x.2 = p with
  | some x => x.1
  | none => p

/-- Changes the base. -/
def modBase (s : State) (f : Base → Base) : State := { s with base := f s.base }

/-- A channel named as 17 R542 names it: source port, plane, line, destination port. -/
def chSrc (ch : Nat) : Nat := ch % 64
def chPlane (ch : Nat) : Nat := ch / 2 ^ 6 % 32
def chLine (ch : Nat) : Nat := ch / 2 ^ 11 % 64
def chDst (ch : Nat) : Nat := ch / 2 ^ 17 % 64
def chKey (src plane line dst : Nat) : Nat := src + plane * 2 ^ 6 + line * 2 ^ 11 + dst * 2 ^ 17

/-- Whether a channel can exist: line `i` of port `s` emerges at port `s + i` modulo 32, and a uniform plane uses
its own half of the lines (07 R221 to R223). -/
def chanExists (ch : Nat) : Bool :=
  decide (chSrc ch < 32) && decide (chDst ch = (chSrc ch + chLine ch) % 32) && (decide (24 ≤ chPlane ch) || decide (chLine ch / 32 = chPlane ch % 2))

/-- The laser bus that lights a plane (07 R234). -/
def busOf (plane : Nat) : Nat := if plane < 24 then plane / 6 else if plane < 28 then 4 else 5

/-- Changes a laser site. -/
def modLaser (s : State) (k : Nat) (f : Laser → Laser) : State := modBase s fun b => { b with lasers := tabMod b.lasers {} k f }

/-- A laser site. -/
def laserOf (s : State) (k : Nat) : Laser := tabGet s.base.lasers {} k

/-- The site that drives a bus of a field. -/
def siteOn (s : State) (f b : Nat) : Option Nat := (List.range 8).find? fun i => (laserOf s (f * 8 + i)).bus = some b

/-- A channel. -/
def chanOf (s : State) (ch : Nat) : Channel := tabGet s.base.chans {} ch

/-- Changes a channel. -/
def modChan (s : State) (ch : Nat) (f : Channel → Channel) : State := modBase s fun b => { b with chans := tabMod b.chans {} ch f }

/-- The key of a flow. -/
def flowKey (s : State) (ch : Nat) (red : Bool) : Nat := (epAt s (chSrc ch) * 64 + epAt s (chDst ch)) * 2 + b2n red

/-- A flow. -/
def flowOf (s : State) (k : Nat) : Flow := tabGet s.base.flows {} k

/-- Changes a flow. -/
def modFlow (s : State) (k : Nat) (f : Flow → Flow) : State := modBase s fun b => { b with flows := tabMod b.flows {} k f }

/-- A steered slot. -/
def slotOf (s : State) (k : Nat) : SteerSlot := tabGet s.base.slots {} k

/-- Changes a steered slot. -/
def modSlot (s : State) (k : Nat) (f : SteerSlot → SteerSlot) : State := modBase s fun b => { b with slots := tabMod b.slots {} k f }

/-- The key of a slot. -/
def slotKey (ep plane slot : Nat) : Nat := (ep * 8 + plane) * 32 + slot

/-- The channel of a slot's assignment in force. -/
def slotChan (s : State) (k : Nat) : Option Nat :=
  (slotOf s k).cur.map fun a => chKey (physOf s (k / 256)) (24 + k / 32 % 8) a.line (physOf s a.dest)

/-- The slot that a steered channel occupies, active or draining (07 R223, R232). -/
def slotFor (s : State) (ch : Nat) : Option Nat :=
  (s.base.slots.find? fun e => slotChan s e.1 = some ch && (e.2.st = .active || e.2.st = .draining)).map Prod.fst

/-- Whether a physical port serves an endpoint (07 R217, R219): a failed one never, a spare one only in another's place. -/
def portServes (s : State) (p : Nat) : Bool :=
  !s.base.failed.contains p && (decide (p < 30) || s.base.remap.any fun x => x.2 = p)

/-- The modulator and the filter ring of a channel, as R254 selects them. -/
def chanRings (ch : Nat) : List Nat :=
  [chSrc ch + chPlane ch * 2 ^ 6 + chLine ch * 2 ^ 11, chDst ch + chPlane ch * 2 ^ 6 + chLine ch * 2 ^ 11 + 2 ^ 17]

/-- Whether a ring is on its line (07 R239): acquired with its field, and neither unlocked nor failed since. -/
def ringOn (s : State) (r : Nat) : Bool := s.base.acquired.contains (fieldOf (r % 64)) && decide ((tabGet s.base.rings {} r).st = .locked)

/-- Whether a channel is in service: its rings, signal and bus are there, its ends' ports serve, and a steered one has its slot. -/
def chanUp (s : State) (ch : Nat) : Bool :=
  chanExists ch && !(chanOf s ch).out && !s.base.dark.contains (fieldOf (chSrc ch) * 8 + busOf (chPlane ch)) && portServes s (chSrc ch) &&
    portServes s (chDst ch) && (chanRings ch).all (ringOn s) && (decide (chPlane ch < 24) || (slotFor s ch).isSome)

/-- What lights a channel (07 R234, R235): the state of the site on its bus. -/
def lightOn (s : State) (ch : Nat) : LaserState :=
  match siteOn s (fieldOf (chSrc ch)) (busOf (chPlane ch)) with
  | some i => (laserOf s (fieldOf (chSrc ch) * 8 + i)).st
  | none => .off

/-- The domain that owns a uniform plane between shared endpoints (07 R231; 13_tenancy_security.md R424): domains take the planes in
ascending order. -/
def planeOwner (s : State) (plane : Nat) : Option Nat :=
  (List.range 8).find? fun d => decide (((List.range d).map fun e => (domOf s e).planes).sum ≤ plane) &&
    decide (plane < ((List.range (d + 1)).map fun e => (domOf s e).planes).sum)

/-- The domain whose traffic a channel between two shared endpoints carries (07 R231). -/
def chanOwner (s : State) (ch : Nat) : Option Nat :=
  if chPlane ch < 24 then planeOwner s (chPlane ch) else (slotFor s ch).bind fun k => (slotOf s k).cur.map Steer.dom

/-- Whether a channel's ends may exchange data (07 R222, R231; 13 R424): not on a loopback channel; a stack's channels serve the stack's
domain, so none joins stacks of two; between shared endpoints the plane is some domain's. -/
def mayCarry (s : State) (ch : Nat) : Bool :=
  let a := epAt s (chSrc ch)
  let b := epAt s (chDst ch)
  decide (chSrc ch ≠ chDst ch) &&
    (if a < 8 && b < 8 then (stackOf s a).domain.isSome && decide ((stackOf s a).domain = (stackOf s b).domain)
     else decide (a < 8) || decide (b < 8) || (chanOwner s ch).isSome)

/-- The owner of a frame on a channel: none where a stack is at an end. -/
def frameOwner (s : State) (ch : Nat) : Option Nat := if epAt s (chSrc ch) < 8 || epAt s (chDst ch) < 8 then none else chanOwner s ch

/-! ### Frames (R226 to R230) -/

/-- The column value of covered bit `k`: the (k + 1)-th integer from 3 that is no power of two (07 R227). -/
def columns : List Nat := ((List.range 1024).filter fun n => 3 ≤ n && !(List.range 11).any fun j => decide (2 ^ j = n)).take 533

/-- CHECK of the covered bits (07 R227). -/
def checkOf (covered : Nat) : Nat :=
  let ones := (columns.zipIdx).filter fun c => covered.testBit c.2
  let low := ones.foldl (fun x c => x ^^^ c.1) 0
  let par := (ones.length + ((List.range 10).filter fun j => low.testBit j).length) % 2
  low + par * 2 ^ 10

/-- What the receiver makes of a frame (07 R227): the covered bits and whether one bit was corrected; none where
the error is uncorrectable. -/
def secded (f : Nat) : Option (Nat × Bool) :=
  let covered := f % 2 ^ 533
  let check := f / 2 ^ 533 % 2 ^ 11
  let syn := (checkOf covered ^^^ check) % 2 ^ 10
  let bitCount (x n : Nat) : Nat := ((List.range n).filter fun j => x.testBit j).length
  let odd := (bitCount covered 533 + bitCount check 11) % 2 = 1
  if syn = 0 ∧ !odd then some (covered, false)
  else if !odd then none
  else if syn = 0 then some (covered, true)
  else match (columns.zipIdx).find? fun c => c.1 = syn with
    | some c => some (covered ^^^ 2 ^ c.2, true)
    | none => if (List.range 10).any fun j => decide (2 ^ j = syn) then some (covered, true) else none

/-- Bits of a channel's generator, x^31 + x^28 + 1, from one state on, least significant first, and the state after them (07 R227).
DESIGN CHOICE: notes/assumptions/114. -/
def scrambleRun : Nat → Nat → Nat → Nat → Nat × Nat
  | 0, _, g, out => (out, g)
  | n + 1, i, g, out => scrambleRun n (i + 1) ((g * 2 + (g / 2 ^ 30 + g / 2 ^ 27) % 2) % 2 ^ 31) (out + g / 2 ^ 30 % 2 * 2 ^ i)

/-- A frame as it leaves the descrambler, and the generator after its 544 bits (07 R227). -/
def descramble (g : BitVec 31) (f : BitVec 544) : BitVec 544 × BitVec 31 :=
  let z := scrambleRun 544 0 g.toNat 0
  (f ^^^ BitVec.ofNat 544 z.1, BitVec.ofNat 31 z.2)

/-- The covered bits of a frame (07 R226). -/
def frameBits (f : LinkFrame) : Nat := f.data.toNat + f.type * 2 ^ 512 + f.rseq * 2 ^ 514 + f.pseq * 2 ^ 522

/-- Asks the sender for a replay from a frame on (07 R228). -/
def askReplay (s : State) (ch : Nat) : State := send s (.baseControl 3 ch (chanOf s ch).expect)

/-- Frames of a flow delivered in PSEQ order: those that wait follow the one that came (07 R230). -/
def deliverRun : Nat → Nat → List Nat → Nat × List Nat × Nat
  | 0, next, held => (next, held, 0)
  | fuel + 1, next, held =>
    if held.contains next then
      let r := deliverRun fuel ((next + 1) % 2048) (held.filter (· ≠ next))
      (r.1, r.2.1, r.2.2 + 1)
    else (next, held, 0)

/-- A whole packet reaches an endpoint (07 R230). At a stack's, one of class C3 goes to the endpoint's reduction logic (R233), any other to the strip
port nearest its destination (03_harrel_stacks.md R72); a tile ID out of range is refused (03 R66); the base delivers the classes C1 and C3
alone, and a packet of another finds no reservation (03 R75). At any other endpoint it goes to the die or bank group behind.
DEDUCED: notes/assumptions/58. -/
def passPacket (s : State) (n : Nat) (bs : List Byte) : State :=
  let h := ofLeBytes (bs.take 32)
  if 8 ≤ n then send s (.basePacket n h)
  else if !tileValid (dstRouter (wordDst h)) || !tileValid (wordSrc h) then s
  else if wordClass h = 3 then fly s (.ingress n) (packetOfBytes bs)
  else if wordClass h = 1 then enqueue s (ingressAt (wordDst h)) 6 { cls := 1, src := wordSrc h, dst := wordDst h, len := wordLen h }
  else tileRecord s (dstRouter (wordDst h))

/-- Delivered flits form packets, a header's flit and as many more as it says (03 R79): each whole one goes on; what is left waits. -/
def handFlits (n : Nat) : Nat → State → List (BitVec 512) → State × List (BitVec 512)
  | 0, s, fs => (s, fs)
  | _, s, [] => (s, [])
  | fuel + 1, s, h :: t =>
    let len := wordLen h.toNat
    if t.length < len then (s, h :: t)
    else handFlits n fuel (passPacket s n ((h :: t.take len).flatMap fun f => leBytes 64 f.toNat)) (t.drop len)

/-- Delivers a data frame: in order at once, early ones wait, one delivered before is discarded (07 R228, R230). What an endpoint is
delivered goes on as packets, and its buffer returns to the sender as credits (R229). -/
def deliver (s : State) (k pseq : Nat) (flit : BitVec 512) : State :=
  let f := flowOf s k
  if 1024 ≤ (pseq + 2048 - f.next) % 2048 || f.held.contains pseq then s
  else
    let r := deliverRun 129 f.next (f.held ++ [pseq])
    let came := (List.range r.2.2).map fun i => (f.next + i) % 2048
    let wait := f.wait ++ [(pseq, flit)]
    let flits := f.part ++ came.filterMap fun q => (wait.find? fun e => e.1 = q).map Prod.snd
    let h := handFlits (k / 2 % 64) (flits.length) s flits
    let s1 := bump64 (modFlow h.1 k fun x => { x with
      next := r.1, held := r.2.1, handed := x.handed.filter (·.pseq ≠ pseq), wait := wait.filter fun e => r.2.1.contains e.1, part := h.2 }) 0x1800080 r.2.2
    if r.2.2 = 0 then s1 else send s1 (.baseControl 2 k r.2.2)

/-- Releases the frames of a channel up to the last received in order (07 R228, R229). -/
def ackFrames (s : State) (ch rseq : Nat) : State :=
  modChan s ch fun c => match c.buffer.findIdx? fun f => f.rseq = rseq with
    | some i => { c with buffer := c.buffer.drop (i + 1) }
    | none => c

/-- Replays a channel's frames from the first not received (07 R228), counted in BASE_REPLAY. -/
def replayFrames (s : State) (ch rseq : Nat) : State :=
  match (chanOf s ch).buffer.findIdx? fun f => f.rseq = rseq with
  | some i =>
    let fs := (chanOf s ch).buffer.drop i
    bump (fs.foldl (fun t f => send t (.baseFrame ch (frameBits f))) s) 0x180008C fs.length
  | none => s

/-- Credits return to a sender (07 R229, R230). -/
def creditFlow (s : State) (k n : Nat) : State := modFlow s k fun f => { f with credits := min 128 (f.credits + n) }

/-- FRAME_ACK (07 R229). -/
def execFrameAck (ch : BitVec 23) (rseq : BitVec 8) (s : State) : Out := .next (ackFrames s ch.toNat rseq.toNat)

/-- FRAME_NAK (07 R228). -/
def execFrameNak (ch : BitVec 23) (rseq : BitVec 8) (s : State) : Out := .next (replayFrames s ch.toNat rseq.toNat)

/-- FRAME_CREDIT (07 R229): the endpoint `dst` returns buffer to `src`. -/
def execFrameCredit (src dst : BitVec 5) (red : Bool) (n : BitVec 12) (s : State) : Out :=
  .next (creditFlow s ((src.toNat * 64 + dst.toNat) * 2 + b2n red) n.toNat)

/-- A control frame's entries (07 R229): acknowledgements concern the channels of the reverse pair; credits go to the endpoint the entry names,
for frames to the endpoint that sends the control frame. -/
def controlEntry (s : State) (ch : Nat) (e : Nat) : State :=
  let back := chKey (chDst ch) (e / 2 ^ 57 % 32) (e / 2 ^ 51 % 64) (chSrc ch)
  let rseq := e / 2 ^ 43 % 256
  match e / 2 ^ 62 with
  | 1 => ackFrames s back rseq
  | 2 => creditFlow s ((e / 2 ^ 56 % 64 * 64 + epAt s (chSrc ch)) * 2 + e / 2 ^ 55 % 2) (e / 2 ^ 43 % 2 ^ 12)
  | 3 => replayFrames s back rseq
  | _ => s

/-- A data or diagnostic frame passes on a channel's bus: its site is not idle (07 R235). -/
def lightSeen (s : State) (ch : Nat) : State :=
  let f := fieldOf (chSrc ch)
  match siteOn s f (busOf (chPlane ch)) with
  | some i => modLaser s (f * 8 + i) fun l => { l with frameAt := s.gt }
  | none => s

/-- Whether the slot of a steered channel drains: its sender assigns it no new frame (07 R232). -/
def slotDrains (s : State) (ch : Nat) : Bool := match slotFor s ch with | some k => (slotOf s k).st = .draining | none => false

/-- A data or diagnostic frame that came through its checks: the sender has it in its replay buffer until it is
acknowledged; in RSEQ order it is taken, else replayed from the first missing (07 R228); data is delivered. No sender sends a new frame
without a credit (R230) or on a draining slot (R232).
DEDUCED: notes/assumptions/58. -/
def takeFrame (s : State) (ch : Nat) (red : Bool) (covered : Nat) : State :=
  let type := covered / 2 ^ 512 % 4
  let rseq := covered / 2 ^ 514 % 256
  let pseq := covered / 2 ^ 522 % 2048
  let k := flowKey s ch red
  let c := chanOf s ch
  let known := c.buffer.any fun f => f.rseq = rseq
  let again := known || (flowOf s k).handed.any fun f => f.pseq = pseq
  if !known && (slotDrains s ch || (type = 1 && !again && decide ((flowOf s k).credits = 0))) then s
  else
  let s1 := if known then s else modChan s ch fun c => { c with
    buffer := (c.buffer ++ [(⟨rseq, pseq, red, type, BitVec.ofNat 512 covered, frameOwner s ch⟩ : LinkFrame)]).drop ((c.buffer.length + 1) - 64)
    freeAt := s.gt }
  let s2 := if type = 1 && !again then modFlow s1 k fun f => { f with credits := f.credits - 1 } else s1
  if rseq ≠ c.expect then (if (rseq + 256 - c.expect) % 256 < 128 then askReplay s2 ch else s2)
  else
    let n := c.since + 1
    let s3 := modChan s2 ch fun c => { c with expect := (rseq + 1) % 256, since := if n = 32 then 0 else n }
    let s4 := if n = 32 then send s3 (.baseControl 1 ch rseq) else s3
    if type = 1 then deliver s4 k pseq (BitVec.ofNat 512 covered) else s4

/-- Whether a frame of a type may be on a channel: a gated bus has light for diagnostic pulses alone (07 R235, R237), a loopback
channel carries only diagnostic frames (R222), and domains' data keep to their own channels (R231). -/
def mayPass (s : State) (ch type : Nat) : Bool :=
  match lightOn s ch with
  | .operating => type = 3 || (type = 2 && decide (chSrc ch ≠ chDst ch)) || (type = 1 && mayCarry s ch)
  | .gated => type = 3
  | _ => false

/-- FRAME_RECEIVE (07 R227 to R230): the next frame of a channel's stream as its line carries it, of the class its flit has.
DEDUCED: notes/assumptions/58. -/
def execFrameReceive (ch : BitVec 23) (red : Bool) (f : BitVec 544) (s : State) : Out :=
  let ch := ch.toNat
  if !chanUp s ch || (lightOn s ch ≠ .operating && lightOn s ch ≠ .gated) then .next s
  else
    let z := descramble (chanOf s ch).scr f
    let s0 := modChan s ch fun c => { c with scr := z.2 }
    match secded z.1.toNat with
    | none => .next (askReplay s0 ch)
    | some (covered, fixed) =>
      let s1 := if fixed then bump s0 0x1800088 1 else s0
      let type := covered / 2 ^ 512 % 4
      if !mayPass s ch type then .next s1
      else if type = 2 then .next ((List.range 8).foldl (fun t i => controlEntry t ch (covered / 2 ^ (64 * i) % 2 ^ 64)) s1)
      else .next (takeFrame (lightSeen s1 ch) ch red covered)

/-- The channels of an ordered pair of ports: on each plane, line i or i + 32 (07 R221, R223). -/
def pairChans (src dst : Nat) : List Nat :=
  let j := (dst + 32 - src) % 32
  (List.range 32).flatMap fun p => [chKey src p j dst, chKey src p (j + 32) dst]

/-- The channel of a pair that is free earliest, of those that take a frame of an owner (07 R230, R231). -/
def freeChannel (s : State) (src dst : Nat) (owner : Option Nat) : Option Nat :=
  let cs := (pairChans src dst).filter fun ch => chanUp s ch && lightOn s ch = .operating && !slotDrains s ch && mayCarry s ch && frameOwner s ch = owner
  (sortBy (fun a b => decide ((chanOf s a).freeAt < (chanOf s b).freeAt)) cs).head?

/-- The RSEQ a channel's sender gives next. -/
def nextRseq (c : Channel) : Nat := match c.buffer.getLast? with | some f => (f.rseq + 1) % 256 | none => c.expect

/-- A frame that a lost channel hands over goes out on the pair's channel that is free earliest, its PSEQ unchanged (07 R228, R230), 17 ns a
frame (R226); where none is, it waits for one. -/
def resend (s : State) (k : Nat) (f : LinkFrame) : State :=
  match freeChannel s (physOf s (k / 128)) (physOf s (k / 2 % 64)) f.owner with
  | none => modFlow s k fun x => { x with handed := x.handed ++ [f] }
  | some ch =>
    let g : LinkFrame := { f with rseq := nextRseq (chanOf s ch) }
    send (modChan s ch fun c => { c with buffer := (c.buffer ++ [g]).drop ((c.buffer.length + 1) - 64), freeAt := max s.gt c.freeAt + 17 }) (.baseFrame ch (frameBits g))

/-- Handed frames that wait go out where a channel of their pair has come to serve. -/
def resendHanded (s : State) : State :=
  (s.base.flows.filter fun e => e.2.handed ≠ []).foldl (fun t e =>
    e.2.handed.foldl (fun u f => resend u e.1 f) (modFlow t e.1 fun x => { x with handed := [] })) s

/-- A channel leaves service: its unacknowledged frames go to the other channels of its pair, and count as
replays (07 R228; 17 R534). -/
def dropChannel (s : State) (ch : Nat) : State :=
  let c := chanOf s ch
  let s1 := bump (modChan s ch fun q => { q with buffer := [] }) 0x180008C c.buffer.length
  c.buffer.foldl (fun t f => resend t (flowKey t ch f.red) f) s1

/-- A channel that is trained anew and in service: both ends start their sequence and generator anew (07 R227), and frames that wait for its pair
go out. -/
def returnChannel (s : State) (ch : Nat) : State :=
  if chanUp s ch then resendHanded (modChan s ch fun c => { c with expect := 0, since := 0, freeAt := s.gt, scr := 0x7FFFFFFF#31 }) else s

/-- The loss of a channel (17 R534 CHANNEL).
DEDUCED: notes/assumptions/57. -/
def loseChannel (s : State) (ch : Nat) (injected : Bool) : State :=
  if !chanUp s ch then s
  else fault (dropChannel (modChan s ch fun q => { q with out := true }) ch) { cls := 0x03, unit := unitId 4 ch, outcome := 3, detail := (chanOf s ch).buffer.length, injected := injected }

/-- CHANNEL_LOSS_OF_SIGNAL (17 R534).
DEDUCED: notes/assumptions/57. -/
def execChannelLossOfSignal (ch : BitVec 23) (s : State) : Out := .next (loseChannel s ch.toNat false)

/-! ### Endpoint paths (R217 to R219) -/

/-- The bank group behind an endpoint is lost (07 R219; 06 R212). -/
def loseGroup (s : State) (g : Nat) : State := (List.range 16).foldl (fun t b => failBank t g b) s

/-- The loss of an endpoint with no path left: the die behind it is lost; the hub runs on while it has one
endpoint (07 R219; 17 R538). -/
def loseEndpoint (s : State) (e : Nat) : State :=
  let s1 := modBase s fun b => { b with lostEps := b.lostEps ++ [e] }
  match dieOfEp e with
  | some 20 =>
    if s1.base.lostEps.contains 20 && s1.base.lostEps.contains 21 then
      fault { s1 with arr := { s1.arr with noOps := true, noSteps := true } }
        { cls := 0x16, unit := unitId 1 20, outcome := 7, domains := activeDoms s1, permanent := true }
    else s1
  | some i => loseDie s1 i (dieClass i) 0 false
  | none => if 22 ≤ e && e < 30 then loseGroup s1 (e - 22) else s1

/-- The spare port a failed path takes: 30, then 31 (07 R219). -/
def freeSpare (s : State) : Option Nat :=
  [30, 31].find? fun p => !s.base.failed.contains p && !(s.base.remap.any fun x => x.2 = p) && !(s.base.remapping.any fun x => x.2 = p)

/-- A failed path: its port is dark until a cold reset, and its channels hand their frames over (R228); a free spare takes its place from an operation boundary
on, or the endpoint is lost (07 R219).
DEDUCED: notes/assumptions/57. -/
def failPath (s : State) (e : Nat) : State :=
  let p := physOf s e
  if s.base.failed.contains p || s.base.lostEps.contains e then s
  else
    let s0 := modBase s fun b => { b with failed := ascending (p :: b.failed) }
    let s1 := (s0.base.chans.filter fun c => chSrc c.1 = p || chDst c.1 = p).foldl (fun t c => dropChannel t c.1) s0
    match freeSpare s1 with
    | some q =>
      fault (modBase s1 fun b => { b with remapping := b.remapping ++ [(e, q)] }) { cls := 0x06, unit := unitId 7 p, outcome := 2, detail := q, permanent := true }
    | none => loseEndpoint (fault s1 { cls := 0x06, unit := unitId 7 p, outcome := 3, permanent := true }) e

/-- A steering assignment under the map in force: its line keeps its half and reaches the destination's port (07 R219, R221, R223). -/
def realign (s : State) (ep : Nat) (a : Steer) : Steer :=
  { a with line := (physOf s a.dest + 32 - physOf s ep) % 32 + a.line / 32 * 32 }

/-- Remaps that wait take effect (07 R219): the endpoints' channel tables follow, and frames that waited go out. -/
def installRemaps (s : State) : State :=
  if s.base.remapping = [] then s
  else
    let s1 := modBase s fun b => { b with remap := b.remapping.foldl (fun m x => tabPut m x.1 x.2) b.remap, remapping := [] }
    resendHanded (modBase s1 fun b => { b with slots := b.slots.map fun e =>
      (e.1, { e.2 with cur := e.2.cur.map (realign s1 (e.1 / 256)), pend := e.2.pend.map (realign s1 (e.1 / 256)) }) })

/-- PATH_REMAP (07 R219): the path of a logical endpoint has failed; between operations the new map is in force at
once. -/
def execPathRemap (e : BitVec 5) (s : State) : Out :=
  if 30 ≤ e.toNat then .next s
  else
    let s1 := failPath s e.toNat
    .next (if runningDoms s1 = [] then installRemaps s1 else s1)

/-! ### Steering (R223, R231, R232) -/

/-- Whether an assignment can be: between two endpoints, no spare path (07 R217), the line reaches the destination, which is not the sender, and
no other slot of the sender's plane has that ring (07 R223). -/
def steerable (s : State) (ep plane slot : Nat) (a : Steer) : Bool :=
  decide (a.line % 32 = (physOf s a.dest + 32 - physOf s ep) % 32) && decide (a.dest ≠ ep) && decide (ep < 30) && decide (a.dest < 30) &&
    (List.range 32).all fun k => k = slot || !(match (slotOf s (slotKey ep plane k)).pend, (slotOf s (slotKey ep plane k)).cur with
      | some q, _ => q.line = a.line
      | none, some q => q.line = a.line
      | none, none => false)

/-- Whether a domain may use a slot of a pair (07 R231; 13 R424): a stack's channels serve the stack's domain, at both ends; at shared endpoints
domains take the slots in ascending order, as many as their STEER_SLOTS. -/
def slotAllowed (s : State) (ep dest slot d : Nat) : Bool :=
  let below := ((List.range d).map fun e => (domOf s e).slots).sum
  if ep < 8 || dest < 8 then (8 ≤ ep || (stackOf s ep).domain = some d) && (8 ≤ dest || (stackOf s dest).domain = some d)
  else decide (below ≤ slot) && decide (slot < below + (domOf s d).slots)

/-- The lowest receive slot of an endpoint that no other slot's assignment occupies on a plane (07 R223). -/
def freeReceive (s : State) (plane dest k : Nat) : Option Nat :=
  let used := (s.base.slots.filter fun e => e.1 ≠ k && e.1 / 32 % 8 = plane).filterMap fun e =>
    match e.2.pend.or e.2.cur with | some a => if a.dest = dest then some a.recv else none | none => none
  (List.range 32).find? fun r => !used.contains r

/-- The endpoints whose slots a steering change concerns: the sender and the destinations, old and new. -/
def steerEnds (x : SteerSlot) (ep dest : Nat) : List Nat := ([ep, dest] ++ (x.cur.map Steer.dest).toList).eraseDups

/-- The domains whose traffic uses a slot, before the change and after it (07 R232). -/
def slotDoms (x : SteerSlot) : List Nat := ((x.cur.map Steer.dom).toList ++ (x.pend.map Steer.dom).toList).eraseDups

/-- STEER_PENDING_WRITE (07 R223, R231, R232): a new assignment waits; one written before the slot is active replaces it and
restarts the sequence. Each endpoint concerned takes one change per plane in a millisecond. -/
def execSteerPendingWrite (ep : BitVec 5) (plane : BitVec 3) (slot : BitVec 5) (line : BitVec 6) (dest : BitVec 5) (d : BitVec 3) (s : State) : Out :=
  let e := ep.toNat
  let p := plane.toNat
  let k := slotKey e p slot.toNat
  let ends := steerEnds (slotOf s k) e dest.toNat
  let late := ends.any fun q => match tabFind s.base.steered (q * 8 + p) with | some t => decide (s.gt < t + 1000000) | none => false
  match freeReceive s p dest.toNat k with
  | none => .next s
  | some r =>
    let a : Steer := ⟨line.toNat, dest.toNat, d.toNat, r⟩
    if late || !steerable s e p slot.toNat a || !slotAllowed s e dest.toNat slot.toNat d.toNat then .next s
    else
      let s1 := modBase s fun b => { b with steered := ends.foldl (fun m q => tabPut m (q * 8 + p) s.gt) b.steered }
      .next (modSlot s1 k fun x =>
        let y : SteerSlot := { x with pend := some a, again := decide (x.st ≠ SlotState.unassigned) && decide (x.st ≠ SlotState.active) }
        { y with owed := slotDoms y })

/-- STEER_SLOT_RETUNE (07 R232, R238): once every frame of a draining slot is acknowledged, both ends move to the
new ring; a retune waits while the bus is being replaced. -/
def execSteerSlotRetune (ep : BitVec 5) (plane : BitVec 3) (slot : BitVec 5) (s : State) : Out :=
  let k := slotKey ep.toNat plane.toNat slot.toNat
  let x := slotOf s k
  let busy := match slotChan s k with | some ch => (chanOf s ch).buffer ≠ [] | none => false
  let dark := s.base.dark.contains (fieldOf (physOf s ep.toNat) * 8 + busOf (24 + plane.toNat))
  if x.st = .draining && !busy && !dark && !x.again then .next (modSlot s k fun y => { y with st := .retuning, cur := none }) else .next s

/-- STEER_SLOT_READY (07 R232): lock and the test frame. -/
def execSteerSlotReady (ep : BitVec 5) (plane : BitVec 3) (slot : BitVec 5) (pass : Bool) (s : State) : Out :=
  let k := slotKey ep.toNat plane.toNat slot.toNat
  if (slotOf s k).st = .retuning && pass then .next (modSlot s k fun y => { y with st := .ready, owed := if y.again then y.owed else slotDoms y }) else .next s

/-- A slot at a boundary after which it waits for no other domain's (07 R232): it begins to drain, or becomes active on its new assignment. -/
def stepSlot (x : SteerSlot) : SteerSlot :=
  if x.again then { x with st := .draining, again := false, owed := [] }
  else match x.st with
    | .unassigned | .active => { x with st := .draining, owed := [] }
    | .ready => { x with st := .active, cur := x.pend, pend := none, owed := [] }
    | _ => x

/-- Steering at an operation boundary of a domain (07 R232): a slot acts once every domain whose traffic uses it and that runs an operation
has had its boundary; a channel that becomes active is trained. -/
def steerBoundary (s : State) (d : Nat) : State :=
  s.base.slots.foldl (fun t e =>
    let x := e.2
    if x.pend.isNone || !x.owed.contains d then t
    else
      let left := (x.owed.erase d).filter fun m => decide ((domOf t m).phase ≠ .idle)
      if left ≠ [] then modSlot t e.1 fun y => { y with owed := left }
      else
        let u := modSlot t e.1 stepSlot
        if (slotOf u e.1).st = .active then (match slotChan u e.1 with | some ch => returnChannel u ch | none => u) else u) s

/-- Whether a slot has an end at an endpoint. -/
def slotAt (ep : Nat) (e : Nat × SteerSlot) : Bool := decide (e.1 / 256 = ep) || e.2.cur.any fun c => decide (c.dest = ep)

/-- Steered slots at an endpoint begin to drain: no new frame is assigned to them (07 R232; 13 R426). -/
def drainSlots (s : State) (ep : Nat) : State :=
  modBase s fun b => { b with slots := b.slots.map fun e => (e.1, if slotAt ep e && e.2.st = .active then { e.2 with st := .draining } else e.2) }

/-- Whether every frame of an endpoint's steered slots is acknowledged (07 R232; 13 R426). -/
def slotsDrained (s : State) (ep : Nat) : Bool :=
  s.base.slots.all fun e => !slotAt ep e || (match slotChan s e.1 with | some ch => (chanOf s ch).buffer = [] | none => true)

/-- Steered slots of a stack's endpoint are released (13 R426). -/
def releaseSlots (s : State) (ep : Nat) : State :=
  modBase s fun b => { b with slots := b.slots.filter fun e => e.1 / 256 ≠ ep && (match e.2.cur with | some c => decide (c.dest ≠ ep) | none => true) }

/-! ### Comb lasers (R233 to R238) -/

/-- Channels lit by a bus of a field: those of the ports homed in the field on its planes. -/
def litBy (s : State) (f b : Nat) : List Nat :=
  (s.base.chans.map Prod.fst).filter fun ch => fieldOf (chSrc ch) = f && busOf (chPlane ch) = b

/-- Whether a bus feeds the links of a field's bundle, one of which trains or serves (11 R363). -/
def feedsLinks (s : State) (f b : Nat) : Bool :=
  (b = 4 || b = 5) && (List.range 8).any fun j =>
    match (tabGet s.fab.links {} (f * 8 + j)).st with | .training | .up | .narrowed => true | _ => false

/-- LASER_GATE (07 R235): a site whose bus has been idle for 100 µs; a bank group's bus is never gated, nor one that feeds links (11
R363). -/
def execLaserGate (f : BitVec 4) (site : BitVec 3) (s : State) : Out :=
  let k := f.toNat * 8 + site.toNat
  let l := laserOf s k
  let scan := l.bus = some 0 && f.toNat < 8 && pdOf s (41 + f.toNat) = .on
  if (regVal s 0x1800004).getLsbD 1 && l.st = .operating && decide (l.frameAt + 100000 ≤ s.gt) && !scan && !(l.bus.any (feedsLinks s f.toNat)) then
    .next (modLaser s k fun x => { x with st := .gated, checked := some s.gt })
  else .next s

/-- LASER_UNGATE (07 R235): a frame is queued for the gated bus. Its first 3 µs of full drive count as a check (R238). -/
def execLaserUngate (f : BitVec 4) (site : BitVec 3) (s : State) : Out :=
  let k := f.toNat * 8 + site.toNat
  if (laserOf s k).st = .gated then .next (resendHanded (modLaser s k fun x => { x with st := .operating, frameAt := s.gt, checked := some (s.gt + 3000) })) else .next s

/-- Whether a site's diagnostic pulse of this tick, still to come, fails (07 R238). -/
def failsPulse (s : State) (f i : Nat) : Bool :=
  s.pending.any fun c => match c with | .diagnosticPulse g j _ pass => decide (g.toNat = f) && decide (j.toNat = i) && !pass | _ => false

/-- The spare a failed bus takes (07 R236): the lower-numbered in STANDBY that passed a check within 2 ms, and fails none in this tick
(R238). -/
def spareFor (s : State) (f : Nat) : Option Nat :=
  (List.range 8).find? fun i =>
    let l := laserOf s (f * 8 + i)
    l.st = .standby && !failsPulse s f i && (match l.checked with | some t => decide (s.gt ≤ t + 2000000) | none => false)

/-- Takes a bus out of service (07 R236). -/
def darkenBus (s : State) (f b : Nat) : State :=
  let s1 := modBase s fun x => { x with dark := if x.dark.contains (f * 8 + b) then x.dark else ascending ((f * 8 + b) :: x.dark) }
  ((litBy s1 f b).filter fun ch => (chanOf s1 ch).buffer ≠ []).foldl dropChannel s1

/-- A site fails: its bus goes dark and an eligible spare is connected (07 R236). -/
def failLaser (s : State) (f i : Nat) (injected : Bool) : State :=
  let k := f * 8 + i
  let l := laserOf s k
  let s1 := modLaser s k fun x => { x with st := .failed, bus := none, mon := 0 }
  match l.bus with
  | none => fault s1 { cls := 0x05, unit := unitId 6 k, outcome := 3, permanent := true, injected := injected }
  | some b =>
    let s2 := darkenBus s1 f b
    match spareFor s2 f with
    | some j => fault (modLaser s2 (f * 8 + j) fun x => { x with st := .operating, bus := some b, frameAt := s.gt })
        { cls := 0x05, unit := unitId 6 k, outcome := 2, detail := j, permanent := true, injected := injected }
    | none => fault s2 { cls := 0x05, unit := unitId 6 k, outcome := 3, permanent := true, injected := injected }

/-- LASER_FAILURE (07 R236). -/
def execLaserFailure (f : BitVec 4) (site : BitVec 3) (s : State) : Out :=
  if (laserOf s (f.toNat * 8 + site.toNat)).st = .operating then .next (failLaser s f.toNat site.toNat false) else .next s

/-- LASER_FAILOVER_DONE (07 R236): the bus's channels are back, counted in BASE_LASER_FAILOVER. -/
def execLaserFailoverDone (f : BitVec 4) (b : BitVec 3) (s : State) : Out :=
  let k := f.toNat * 8 + b.toNat
  match siteOn s f.toNat b.toNat with
  | some i =>
    if s.base.dark.contains k && (laserOf s (f.toNat * 8 + i)).st = .operating then
      let s1 := bump (modBase s fun x => { x with dark := x.dark.filter (· ≠ k) }) 0x1800098 1
      .next (resendHanded ((litBy s1 f.toNat b.toNat).foldl returnChannel s1))
    else .next s
  | none => .next s

/-- DIAGNOSTIC_PULSE (07 R237): the photocurrent in µA and whether the checks pass, of a gated or standby site. -/
def execDiagnosticPulse (f : BitVec 4) (site : BitVec 3) (ua : BitVec 12) (pass : Bool) (s : State) : Out :=
  let k := f.toNat * 8 + site.toNat
  let l := laserOf s k
  if l.st ≠ .gated && l.st ≠ .standby then .next s
  else if pass then .next (modLaser s k fun x => { x with checked := some s.gt, mon := ua.toNat })
  else .next (failLaser (modLaser s k fun x => { x with mon := ua.toNat }) f.toNat site.toNat false)

/-- A field's domain powers on: sites 0 to 5 drive its buses, 6 and 7 stand by (07 R235). -/
def lightField (s : State) (f : Nat) : State :=
  (List.range 8).foldl (fun t i => modLaser t (f * 8 + i) fun l =>
    if l.st = .failed then l
    else if i < 6 then { l with st := .operating, bus := some i, frameAt := s.gt } else { l with st := .standby, bus := none }) s

/-- A field's domain powers off (07 R235, R238). -/
def darkField (s : State) (f : Nat) : State :=
  (List.range 8).foldl (fun t i => modLaser t (f * 8 + i) fun l => if l.st = .failed then l else { l with st := .off, bus := none, mon := 0 }) s

/-! ### Rings (R239) -/

/-- Whether a ring exists: a uniform plane has only its half of the lines (07 R222, R254). -/
def ringExists (r : Nat) : Bool := decide (r % 64 < 32) && (decide (24 ≤ r / 2 ^ 6 % 32) || decide (r / 2 ^ 11 % 64 / 32 = r / 2 ^ 6 % 32 % 2))

/-- The channel a ring carries: a modulator's leaves its port, a filter's ends there. -/
def ringChan (r : Nat) : Nat :=
  let port := r % 64
  let plane := r / 2 ^ 6 % 32
  let line := r / 2 ^ 11 % 64
  if r / 2 ^ 17 % 2 = 0 then chKey port plane line ((port + line) % 32) else chKey ((port + 64 - line) % 32) plane line port

/-- Changes a ring. -/
def modRing (s : State) (r : Nat) (f : Ring → Ring) : State := modBase s fun b => { b with rings := tabMod b.rings {} r f }

/-- A ring unlocks: its channel leaves service and a sweep starts (07 R239; 17 R534). -/
def unlockRing (s : State) (r : Nat) (injected : Bool) : State :=
  if !ringExists r || !ringOn s r then s
  else
    let s1 := modRing s r fun x => { x with st := .acquiring, sweeps := 0, at_ := s.gt, injected := injected }
    if chanUp s (ringChan r) then dropChannel s1 (ringChan r) else s1

/-- A slot on a failed ring leaves service (07 R239); one with a new assignment pending goes on to it. -/
def dropSlot (x : SteerSlot) : SteerSlot := { x with st := if x.pend.isSome then .draining else .unassigned, cur := none }

/-- The slots of a channel leave service. -/
def dropSlots (s : State) (ch : Nat) : State :=
  (s.base.slots.filter fun e => decide (slotChan s e.1 = some ch)).foldl (fun t e => modSlot t e.1 dropSlot) s

/-- RING_UNLOCK (07 R239): unlocked for 10 µs; without light the controller holds its code. -/
def execRingUnlock (r : BitVec 18) (light : Bool) (s : State) : Out := .next (if light then unlockRing s r.toNat false else s)

/-! ### Bundles (R242 to R245) -/

/-- Bundles of a die (07 R242), by the index of R248. -/
def bundleCount (i : Nat) : Nat := if i < 8 then 144 else if i < 16 then 224 else if i < 20 then 96 else if i = 20 then 192 else 0

/-- Changes a bundle. -/
def modBundle (s : State) (i b : Nat) (f : Bundle → Bundle) : State := modBase s fun x => { x with bundles := tabMod x.bundles {} (i * 256 + b) f }

/-- A bundle. -/
def bundleOf (s : State) (i b : Nat) : Bundle := tabGet s.base.bundles {} (i * 256 + b)

/-- Spares a bundle may use in service (07 R244). -/
def spareLimit (x : Bundle) : Nat := if x.crc then (if x.mode = 3 then 2 else 0) else 4

/-- A lane's errors pass the threshold: in REPLACE and BOTH modes a free spare replaces it (07 R244, R245). -/
def replaceLane (s : State) (i b lane errs : Nat) (injected : Bool) : State :=
  let x := bundleOf s i b
  let fresh := decide (x.window ≠ s.gt / 1000000)
  let s1 := modBundle s i b fun y => { y with errs := min 255 ((if fresh then 0 else y.errs) + errs), window := s.gt / 1000000 }
  if bundleCount i ≤ b || x.disabled || errs ≤ x.thresh || (x.crc && decide (x.mode = 1)) then s1
  else
    let a : FaultArgs := { cls := 0x01, unit := unitId 3 (i * 2 ^ 16 + b * 2 ^ 8 + lane), outcome := 2, cause := lane, injected := injected }
    if x.spares < spareLimit x then
      fault (bump (modBundle s1 i b fun y => { y with spares := y.spares + 1, lastLane := lane }) 0x1800094 1) a
    else fault s1 { a with outcome := 0 }

/-- LANE_REPLACE (07 R245): a lane's errors within the millisecond. -/
def execLaneReplace (i : BitVec 5) (b : BitVec 8) (lane : BitVec 6) (errs : BitVec 16) (s : State) : Out :=
  .next (if bundleCount i.toNat ≤ b.toNat then s else replaceLane s i.toNat b.toNat lane.toNat errs.toNat false)

/-- BUNDLE_CRC_REPLAY (07 R244): a beat fails its CRC. -/
def execBundleCrcReplay (i : BitVec 5) (b : BitVec 8) (s : State) : Out :=
  .next (if (bundleOf s i.toNat b.toNat).crc then bump s 0x1800090 1 else s)

/-- The reset test of a die's bundle (07 R243, R244): its failed lanes take spares in ascending order; more than
four disable it. -/
def testBundle (s : State) (i b bad : Nat) : State :=
  let x := bundleOf s i b
  let s1 := modBundle s i b fun y => { y with
    disabled := decide (4 < bad), tested := min 4 bad, spares := min 4 bad, errs := 0, mode := y.newMode, crc := decide (y.newMode ≠ 2) && decide (bad ≤ 2) }
  if 4 < bad && !x.disabled then fault s1 { cls := 0x02, unit := unitId 3 (i * 2 ^ 16 + b * 2 ^ 8), outcome := 3, detail := bad, permanent := true }
  else if x.spares < bad && bad ≤ 4 then fault s1 { cls := 0x01, unit := unitId 3 (i * 2 ^ 16 + b * 2 ^ 8), outcome := 2, detail := bad }
  else s1

/-- Tests every bundle of a die: those listed have failed lanes, the others none. -/
def testBundles (s : State) (i : Nat) (bad : List (BitVec 8 × BitVec 7)) : State :=
  (List.range (bundleCount i)).foldl (fun t b =>
    testBundle t i b ((bad.find? fun z => z.1.toNat = b).map (fun z => z.2.toNat) |>.getD 0)) s

/-- Whether some strip port of a lower die has every bundle of one direction disabled (07 R243): bundles 3k to
3k + 2 are those of strip port k, outward below 72, inward from 72 on.
PRESUMED: notes/assumptions/59. -/
def stripDead (s : State) (i : Nat) : Bool :=
  decide (i < 8) && (List.range 48).any fun k => (List.range 3).all fun j => (bundleOf s i (3 * k + j)).disabled

end Sys2Proof.Machine
end

