-- ==== Sys2Proof/Machine/Memory.lean ====
section
/-!
DEFINITION. Local memory and the commands of the memory tiers (08_memory_tiers.md R259 to R291).
-/
namespace Sys2Proof.Machine

/-! ### Addresses and region tags (R281 to R288) -/

/-- Where a local address lies (08 R281). -/
inductive Place where
  | t2 (port off : Nat)
  | t1 (rsv off : Nat)
  | t0 (die off : Nat)
  | buf (die slice off : Nat)
  deriving DecidableEq, Repr

/-- The size of the T2 range of a port die: eight times the capacity per channel. -/
def t2Size (s : State) : Nat := if s.mem.chLog = 0 then 0 else 8 * 2 ^ (s.mem.chLog + 30)

/-- The place of a local address; none where it is unpopulated or reserved, or its tile is fused off (08 R281,
R284). -/
def placeOf (s : State) (a : Nat) : Option Place :=
  if a < 0x040000000000 then
    let p := a / 0x010000000000
    let o := a % 0x010000000000
    if o < t2Size s then some (.t2 p o) else none
  else if 0x100000000000 ≤ a ∧ a < 0x100000000000 + 8 * 0x000200000000 then
    let b := a - 0x100000000000
    let o := b % 0x000200000000
    if o < 0x120000000 then some (.t1 (b / 0x000200000000) o) else none
  else if 0x140000000000 ≤ a ∧ a < 0x140000000000 + 16 * 0x40000000 then
    let b := a - 0x140000000000
    let o := b % 0x40000000
    let die := b / 0x40000000
    if 0x3C000000 ≤ o then some (.buf die (sliceOf (o - 0x3C000000)) (sliceOffset (o - 0x3C000000)))
    else if tileEnabled (die / 2) (die % 2 = 1) (o / 0x00A00000) then some (.t0 die o) else none
  else none

/-- Whether the die that holds a place is in service. -/
def placeUp (s : State) : Place → Bool
  | .t2 p _ => dieUp s (16 + p)
  | .t1 r _ => dieUp s (8 + r)
  | .t0 d _ => dieUp s (if d % 2 = 0 then d / 2 else upperDie (d / 2))
  | .buf d _ _ => dieUp s (if d % 2 = 0 then d / 2 else upperDie (d / 2))

/-- The region entry that applies to an address: the lowest-numbered valid one that covers it; an address that
none covers is secure (08 R285). -/
def regionOf (m : Mem) (a : Nat) : Region :=
  let g := a / 2 ^ 21
  match m.regions.find? fun e => e.2.valid && decide (e.2.base ≤ g) && decide (g ≤ e.2.limit) with
  | some e => e.2
  | none => { secure := true }

/-- Who makes an access to local memory (08 R285): the secure world, a local requester for a domain, a tray
peer. -/
inductive MemReq where
  | secure
  | domain (d : Nat)
  | peer (dev : Nat)
  deriving DecidableEq, Repr

/-- The hub reserve of a port die (08 R281): always secure (R286). -/
def inReserveArea : Place → Bool
  | .t2 _ o => decide (o < 2 ^ 28)
  | _ => false

/-- Whether a requester may reach an address (08 R285). -/
def mayReach (s : State) (who : MemReq) (a : Nat) (p : Place) : Bool :=
  let e := regionOf s.mem a
  match who with
  | .secure => true
  | .domain d => !e.secure && !inReserveArea p && e.domains.testBit d
  | .peer _ => !e.secure && !inReserveArea p && e.fabric

/-- The status of an access to `a` (08 R284, R285): ST_ADDR where nothing is there, its die is not in service (12
R399), or it is T0 over the fabric; ST_DENIED where it is forbidden. -/
def accessStatus (s : State) (who : MemReq) (a : Nat) : Nat :=
  match placeOf s a with
  | none => stAddr
  | some p =>
    if !placeUp s p then stAddr
    else match who, p with
      | .peer _, .t0 _ _ => stAddr
      | .peer _, .buf _ _ _ => stAddr
      | _, _ => if mayReach s who a p then stOk else stDenied

/-- The addresses of a range at which its granules begin within it: the tags are checked in each (08 R285). -/
def granuleStarts (a n : Nat) : List Nat :=
  a :: (List.range ((a + n - 1) / 2 ^ 21 - a / 2 ^ 21)).map fun i => (a / 2 ^ 21 + 1 + i) * 2 ^ 21

/-- The status of an access to a range, and the first address that gives it (08 R284, R285): it is refused whole where any granule is. -/
def rangeStatus (s : State) (who : MemReq) (a n : Nat) : Nat × Nat :=
  match (granuleStarts a n).find? fun x => accessStatus s who x ≠ stOk with
  | some x => (accessStatus s who x, x)
  | none => (stOk, a)

/-- The source field of ADDR in a fault record: the requester's device ID, a local requester's being the device's own (17 R541). -/
def requesterBits (s : State) : MemReq → Nat
  | .peer d => d * 2 ^ 48
  | _ => s.rst.trayPos * 2 ^ 48

/-- A refused access is recorded (08 R284, R285).
DEDUCED: notes/assumptions/27. -/
def refuseAccess (s : State) (who : MemReq) (a st : Nat) : State :=
  if st = stOk then s else fault s { cls := 0x0F, unit := unitId 0x0C 0, outcome := 6, cause := st, addr := requesterBits s who + a }

/-- One byte of local memory; a granule that is zero-pending reads zeros (08 R287). -/
def memByte (s : State) (a : Nat) : Byte := tabGet s.mem.cells 0#8 a

/-- `n` bytes of local memory.
DEDUCED: notes/assumptions/61. -/
def memRead (s : State) (a n : Nat) : List Byte := (List.range n).map fun i => memByte s (a + i)

/-- Marks a granule as zeroed (08 R287). -/
def cleanGranule (m : Mem) (g : Nat) : Mem := { m with clean := if m.clean.contains g then m.clean else ascending (g :: m.clean) }

/-- Writes bytes of local memory; a granule that is zero-pending is zeroed first (08 R287).
DEDUCED: notes/assumptions/60, 61. -/
def memWrite (s : State) (a : Nat) (bs : List Byte) : State :=
  modMem s fun m =>
    let m1 := if marked a then cleanGranule m (a / 2 ^ 21) else m
    { m1 with cells := putBytes m1.cells a bs }

/-- Whether a place carries zero-pending marks: T1 and T2 do (08 R287). -/
def zeroable : Option Place → Bool
  | some (.t2 _ _) => true
  | some (.t1 _ _) => true
  | _ => false

/-- GRANULE_ZEROED (08 R287): the zeroing engine finishes a granule. -/
def execGranuleZeroed (g : BitVec 24) (s : State) : Out :=
  .next (if zeroable (placeOf s (g.toNat * 2 ^ 21)) then modMem s fun m => cleanGranule m g.toNat else s)

/-- The tag of a granule under a region table (08 R285, R288): secure, fabric, lent, domains. -/
def granuleTag (m : Mem) (g : Nat) : Bool × Bool × Bool × Nat :=
  let e := regionOf m (g * 2 ^ 21)
  (e.secure, e.fabric, e.lent, e.domains)

/-- Sets a region entry: granules whose tag changes become zero-pending (08 R285, R287). -/
def setRegion (s : State) (n : Nat) (r : Region) : State :=
  let m := s.mem
  let m1 := { m with regions := tabSet m.regions {} n r }
  { s with mem := markPending m1 fun g => decide (granuleTag m g ≠ granuleTag m1 g) }

/-- REGION_ENTRY_CHANGE (08 R285, R287, R288): the secure world writes an entry: first and last granule, and the
attribute word in the layout of DPT_RGN_ATTR. -/
def execRegionEntryChange (n : BitVec 8) (base limit : BitVec 24) (attr : Word) (s : State) : Out :=
  .next (setRegion s n.toNat ⟨base.toNat, limit.toNat, attr.getLsbD 31, attr.getLsbD 30, attr.getLsbD 29, attr.getLsbD 28, bits attr 15 8⟩)

/-! ### Reservoirs (R259 to R263) -/

/-- Changes a reservoir. -/
def modRsv (s : State) (j : Nat) (f : RsvState → RsvState) : State := modMem s fun m => { m with rsv := tabMod m.rsv {} j f }

/-- A reservoir. -/
def rsvOf (s : State) (j : Nat) : RsvState := tabGet s.mem.rsv {} j

/-- The governing temperature of a reservoir for refresh (08 R260): the higher of its own sensors and its valid
inferred temperature, in 1/16 °C; none where neither is valid. -/
def rsvTemp (s : State) (j : Nat) : Option Int :=
  let t := tabGet s.pwr.therm {} (16 + j)
  let own : Option Int := if 0 < t.sensors then some t.ownMax else none
  let b := tabGet s.base.temps {} (8 + j)
  match own, (if b.valid then some b.temp else none) with
  | some x, some y => some (max x y)
  | some x, none => some x
  | none, y => y

/-- The refresh interval follows the temperature: over 85 °C, or with no valid reading, 100 µs; the stay at or
below 82 °C is timed (08 R260). -/
def refreshTemp (s : State) (j : Nat) : State :=
  match rsvTemp s j with
  | none => modRsv s j fun r => { r with hot := true, calm := none }
  | some t => modRsv s j fun r => { r with
      hot := r.hot || decide (85 * 16 < t)
      calm := if t ≤ 82 * 16 then (match r.calm with | some c => some c | none => some s.gt) else none }

/-- RESERVOIR_REFRESH (08 R260): the next row of a bank is refreshed. -/
def execReservoirRefresh (j : BitVec 3) (bank : BitVec 7) (s : State) : Out :=
  if 72 ≤ bank.toNat || !dieUp s (8 + j.toNat) then .next s
  else .next (modRsv (refreshTemp s j.toNat) j.toNat fun r => { r with rows := tabMod r.rows 0 bank.toNat fun n => (n + 1) % 4096 })

/-- REFRESH_INTERVAL_RELAX (08 R260, R291): after 5 ms at or below 82 °C; self-timed refresh keeps its own interval. -/
def execRefreshIntervalRelax (j : BitVec 3) (s : State) : Out :=
  match (rsvOf s j.toNat).calm with
  | some t => if t + 5000000 ≤ s.gt && !(rsvOf s j.toNat).self_ then .next (modRsv s j.toNat fun r => { r with hot := false }) else .next s
  | none => .next s

/-- The bank and bank offset of a reservoir address (08 R259). -/
def bankOfAddr (a : Nat) : Nat × Nat := (a / 256 % 72, a / 18432 * 256 + a % 256)

/-- Whether the operation its domain runs reads a unit (05 R145). -/
def readsNow (s : State) (u : PUnit) : Bool :=
  let x := domOf s u.dom
  decide (x.phase = .running) && (match x.batch with
    | some b => (match tabFind s.insts b.inst with
      | some i => (match opAt i b.step b.op with | some o => opReads i o b.inst b.exact b.rows u | none => false)
      | none => false)
    | none => false)

/-- The unit copy that holds a reservoir's word (Config.copyAt).
DESIGN CHOICE: notes/assumptions/12. -/
def copyAt (s : State) (j addr : Nat) : Option PUnit := (s.plc.units.filter fun u => u.t1 = some j)[Config.copyAt addr]?

/-- A double-bit error in a reservoir word (08 R263): the copy that holds it is dropped; an operation that read
it is reissued (17 R534 MEM_T1).
DEDUCED: notes/assumptions/62. -/
def t1DoubleBit (s : State) (j off : Nat) (byOp injected : Bool) : State :=
  let base := 0x2801000 + j * 0x1000
  let addr := 0x100000000000 + j * 0x000200000000 + off
  let u := copyAt s j addr
  let s1 := bump s (base + 8) 1
  let s2 := match u with
    | some v => bump (bump (updUnits s1 (fun w => w.key = v.key) fun w => { w with t1 := none, t0 := if w.pin0 then w.t0 else none }) (base + 0xC) 1)
        0x1000088 (b2n (v.key.kind = .sketch))
    | none => s1
  let d := match u with | some v => if byOp && readsNow s v then some v.dom else none | none => none
  let a : FaultArgs := { cls := 0x0E, unit := unitId 0x0C 0, outcome := 0, addr := addr, detail := b2n u.isSome, injected := injected }
  match d with
  | some d => fault (abortAttempt s2 d) { a with outcome := 1, domains := [d], interrupts := true }
  | none => fault s2 a

/-- RESERVOIR_SCRUB (08 R263): a word is read with a number of erroneous bits, by the patrol scrub or another read.
DEDUCED: notes/assumptions/62. -/
def execReservoirScrub (j : BitVec 3) (off : BitVec 33) (errs : BitVec 2) (s : State) : Out :=
  let j := j.toNat
  if !dieUp s (8 + j) || 0x120000000 ≤ off.toNat then .next s
  else match errs.toNat with
    | 0 => .next s
    | 1 => .next (bump s (0x2801004 + j * 0x1000) 1)
    | _ => .next (t1DoubleBit s j off.toNat false false)

/-! ### Board DRAM (R269 to R274) -/

/-- Changes a port die's memory side. -/
def modPort (s : State) (p : Nat) (f : PortMem → PortMem) : State := modMem s fun m => { m with ports := tabMod m.ports {} p f }

/-- A port die's memory side. -/
def portMem (s : State) (p : Nat) : PortMem := tabGet s.mem.ports {} p

/-- Changes a channel of a port die. -/
def modDram (s : State) (p c : Nat) (f : DramChan → DramChan) : State := modPort s p fun q => { q with chans := tabMod q.chans {} c f }

/-- A channel of a port die. -/
def dramOf (s : State) (p c : Nat) : DramChan := tabGet (portMem s p).chans {} c

/-- The channel and channel address of an offset of a port die (08 R282). -/
def channelOf (o : Nat) : Nat × Nat := (o / 2 ^ 8 % 8, o / 2 ^ 11 * 256 + o % 256)

/-- Multiplication in GF(2⁸) by α, with the field polynomial of R272. -/
def gfDouble (x : Nat) : Nat := if x < 128 then 2 * x else ((2 * x) ^^^ 0x11D) % 256

/-- α to the power `n`. -/
def gfPow : Nat → Nat
  | 0 => 1
  | n + 1 => gfDouble (gfPow n)

/-- Multiplication in GF(2⁸), `n` bits of the second factor left. -/
def gfMul : Nat → Nat → Nat → Nat
  | 0, _, _ => 0
  | n + 1, x, y => (if y % 2 = 1 then x else 0) ^^^ gfMul n (gfDouble x) (y / 2)

/-- The four syndromes of an error over a codeword of 36 symbols, the first being the coefficient of the highest
power (08 R272). -/
def syndromes (e : List Byte) : List Nat :=
  (List.range 4).map fun i => e.foldl (fun acc b => gfMul 8 acc (gfPow i) ^^^ b.toNat) 0

/-- What the decoder finds in a codeword with an error (08 R272): no error, one symbol, or uncorrectable. -/
inductive CodeResult where
  | clean | corrected | uncorrectable
  deriving DecidableEq, Repr

/-- Decodes by the syndromes: one symbol where they are those of an error in one place. -/
def decodeError (e : List Byte) : CodeResult :=
  let w := e.take 36 ++ List.replicate (36 - e.length) 0#8
  match syndromes w with
  | [s0, s1, s2, s3] =>
    if s0 = 0 && s1 = 0 && s2 = 0 && s3 = 0 then .clean
    else if (List.range 36).any fun j => decide (s0 ≠ 0) &&
        gfMul 8 s0 (gfPow j) = s1 && gfMul 8 s1 (gfPow j) = s2 && gfMul 8 s2 (gfPow j) = s3 then .corrected
    else .uncorrectable
  | _ => .uncorrectable

/-- The unit whose home holds a port die's codeword (Config.homeAt).
DESIGN CHOICE: notes/assumptions/12. -/
def homeAt (s : State) (p addr : Nat) : Option PUnit := (s.plc.units.filter fun u => u.home = .port p)[Config.homeAt addr]?

/-- A Formula core that a context has in staging is fetched from the host again (08 R273). -/
def refetchCore (s : State) (c : Nat) : State :=
  modCtx s c fun k => { k with queue := k.queue.map fun a => match a.work, a.done with
    | .coreRead addr _ n, none => { a with work := .loading addr n }
    | _, _ => a }

/-- An uncorrectable codeword of T2 (08 R273): a home is recovered, and an operation that reads it is discarded; the hub reserve has its
second copy, and a core in staging there is fetched again; more than 16 on a channel within 1 s take the port die out (17 R534 MEM_T2,
DIE_PORT).
DEDUCED: notes/assumptions/62. -/
def t2Uncorrectable (s : State) (p off : Nat) (injected : Bool) : State :=
  let addr := p * 0x010000000000 + off
  let c := (channelOf off).1
  let old := (dramOf s p c).recent.filter fun t => decide (s.gt < t + 1000000000)
  let s1 := modDram s p c fun q => { q with ue := satAdd 32 q.ue 1, recent := old ++ [s.gt] }
  let u := if off < 2 ^ 28 then none else homeAt s p addr
  let reading := u.any (readsNow s)
  let s2 := match u with
    | some v => if reading then abortAttempt s1 v.dom else s1
    | none => (match (if off < 2 ^ 28 then Config.stagingAt addr else none) with | some c => refetchCore s1 c | none => s1)
  let a : FaultArgs := { cls := 0x0F, unit := unitId 0x0C 0, outcome := 0, addr := addr, injected := injected,
                         domains := (match u with | some v => [v.dom] | none => []), interrupts := reading
                         ctxFailed := ((sessionsIn u.toList).filter fun c => !mirrored s (ctxOf s c) && (curRequest (ctxOf s c)).isSome).length }
  let s3 := fault s2 { a with outcome := if reading then 1 else 0 }
  let s4 := match u with | some v => countFailed s3 (loseHomes s3 0x0F [v]) | none => s3
  if 16 < old.length + 1 then losePort s4 p 0x0B 0 injected else s4

/-- What the device makes of a codeword it reads (08 R272): an uncorrectable report of the DRAM's own ECC counts as its own. -/
def codeResult (x : CodeRead) : CodeResult := if x.onDie then .uncorrectable else decodeError x.err

/-- DRAM_SCRUB (08 R272 to R274): a codeword is read whose 36 symbols differ from the code by those of `err`; `last` ends a pass.
DEDUCED: notes/assumptions/62. -/
def execDramScrub (p : BitVec 2) (off : BitVec 40) (err : CodeRead) (last : Bool) (s : State) : Out :=
  let p := p.toNat
  if !dieUp s (16 + p) || t2Size s ≤ off.toNat then .next s
  else
    let s0 := if last then modPort s p fun q => { q with scrubs := satAdd 32 q.scrubs 1 } else s
    match codeResult err with
    | .clean => .next s0
    | .corrected => .next (modDram s0 p (channelOf off.toNat).1 fun q => { q with ce := satAdd 32 q.ce 1 })
    | .uncorrectable => .next (t2Uncorrectable s0 p off.toNat false)

/-- Whether a channel retrains now that its DRAM reports a refresh rate (08 R271): its period is over, the report has moved by two steps
since its last retrain, or it left self refresh. -/
def retrainDue (s : State) (x : DramChan) (rate : Nat) : Bool :=
  x.owed || decide (x.retrainAt + 16000000 * regBits s 0x2C00000 15 8 ≤ s.gt) || decide (rate + 2 ≤ x.rateAt) || decide (x.rateAt + 2 ≤ rate)

/-- CHANNEL_RETRAIN (08 R271): a channel whose retrain is due leaves service for it, one at a time, and returns, counted in
RETRAINS; the DRAM's refresh-rate code is read. -/
def execChannelRetrain (p : BitVec 2) (c : BitVec 3) (finish : Bool) (rate : BitVec 4) (s : State) : Out :=
  let p := p.toNat
  let c := c.toNat
  let r := rate.toNat
  let other := (portMem s p).chans.any fun e => e.1 ≠ c && e.2.st = .retraining
  match (dramOf s p c).st, finish with
  | .inService, false => .next (modDram s p c fun q =>
      if other || !retrainDue s q r then { q with refRate := r } else { q with st := .retraining, refRate := r, retrainAt := s.gt, owed := false })
  | .retraining, true => .next (modDram s p c fun q => { q with st := .inService, retrains := satAdd 16 q.retrains 1, refRate := r, rateAt := r })
  | _, _ => .next s

/-- A port die's channels leave self refresh: each is in service and owes a retrain (08 R271). -/
def leaveSelfRefresh (q : PortMem) : PortMem :=
  { q with sr := false, chans := if q.sr then q.chans.map fun c => (c.1, { c.2 with owed := true, st := if c.2.st = .retraining then .inService else c.2.st }) else q.chans }

/-- Whether a port die's channels are trained and in service. -/
def trained (s : State) (p : Nat) : Bool := (List.range 8).all fun c => (dramOf s p c).st = .inService || (dramOf s p c).st = .retraining

/-- What cold-boot training of a port die's channels found (DRAM_TRAINING_DONE, 08 R270, R271, R277): whether each
trained, its ranks and the logarithm of its GiB. Channels must all train and be alike, and like those of the
other port dies; else the port die goes out of service as LOST. -/
def trainDram (s : State) (p : Nat) (found : List (Bool × BitVec 2 × BitVec 3)) : State :=
  if (dieOf s (16 + p)).st ≠ .testing || trained s p then s
  else
    let f := found.headD (false, 0#2, 0#3)
    let ok := decide (found.length = 8) && found.all fun x => x.1 && decide (x.2 = f.2)
    let range := decide (4 ≤ f.2.2.toNat) && (f.2.1 = 1#2 || f.2.1 = 2#2)
    let same := s.mem.chLog = 0 || (s.mem.chLog = f.2.2.toNat && s.mem.ranks = f.2.1.toNat)
    if !(ok && range && same) then
      let s1 := (List.range 8).foldl (fun t c => modDram t p c fun q => { q with st := if (found.getD c (false, 0#2, 0#3)).1 then .inService else .failed }) s
      (failDie s1 (16 + p))
    else
      let s1 := (List.range 8).foldl (fun t c => modDram t p c fun q => { q with st := .inService, retrainAt := s.gt }) s
      let s2 := modMem s1 fun m => { m with chLog := f.2.2.toNat, ranks := f.2.1.toNat }
      (if (dieOf s2 (16 + p)).returning then admitDie s2 (16 + p) else s2)

end Sys2Proof.Machine
end

