-- ==== Sys2Proof/Machine/Clock.lean ====
section
/-!
DEFINITION. Core steps, the ceilings that set them, and how a step change and a Drydown stage take effect
(14_power_clocks_thermal.md R449, R452, R453, R457).
-/
namespace Sys2Proof.Machine

/-- Changes the power controller. -/
def modPwr (s : State) (f : Pwr → Pwr) : State := { s with pwr := f s.pwr }

/-- The clock of a domain. -/
def clkOf (s : State) (d : Nat) : ClkDom := tabGet s.pwr.clk {} d

/-- Changes the clock of a domain. -/
def modClk (s : State) (d : Nat) (f : ClkDom → ClkDom) : State := modPwr s fun p => { p with clk := tabMod p.clk {} d f }

/-- CLK_CFG.TOP_STEP (14 R467). -/
def topStep (s : State) : Nat := regBits s 0x100004 2 0

/-- The CK_CORE ceiling of a Drydown stage (14 R457). -/
def stageCeil (s : State) (n : Nat) : Nat := max (topStep s) ([0, 1, 2, 3, 4, 4, 5, 5, 6, 7, 7].getD n 7)

/-- Sillage groups powered at a Drydown stage (14 R457). -/
def stageGroups (n : Nat) : Nat := if n < 5 then 8 else if n < 7 then 4 else 0

/-- What a stage changes under the settings in force. -/
def stageSign (s : State) (n : Nat) : Nat × Nat × Bool := (stageCeil s n, stageGroups n, n = 10)

/-- The next higher stage that changes something. -/
def higherStage (s : State) (n : Nat) : Option Nat :=
  ((List.range 11).filter (n < ·)).find? fun m => stageSign s m ≠ stageSign s n

/-- The next lower stage that changes something: the lowest of those alike. -/
def lowerStage (s : State) (n : Nat) : Option Nat :=
  match ((List.range n).reverse).find? fun m => stageSign s m ≠ stageSign s n with
  | none => none
  | some m => (List.range (m + 1)).find? fun k => stageSign s k = stageSign s m

/-- The thermal die of a compute die (14 R470): its power domain. -/
def thermOf (s : State) (i : Nat) : Therm := tabGet s.pwr.therm {} i

/-- The base fields a thermal die's endpoints lie in (07 R217). -/
def homeFields (i : Nat) : List Nat :=
  if i < 16 then [i / 2] else if i < 24 then [i - 16] else if i < 28 then [i - 16] else [10, 11]

/-- A die throttles (14 R464): its latch is set, or a field it is homed in is hot. -/
def throttling (s : State) (i : Nat) : Bool := (thermOf s i).throt.set || (homeFields i).any s.pwr.hotFields.contains

/-- The inferred temperature of a thermal die (07 R241, 14 R461): none for an upper compute die. -/
def baseTemp (s : State) (i : Nat) : TempEst :=
  if i < 16 then (if i % 2 = 0 then tabGet s.base.temps {} (i / 2) else {})
  else tabGet s.base.temps {} (if i = 28 then 20 else i - 8)

/-- The thermal ceiling of a domain (14 R462, R464): while a lower die of it is SUSPECT with no valid inferred
temperature, 1.0 GHz at most. -/
def thermalCeil (s : State) (d : Nat) : Nat :=
  let blind := (stacksOf s d).any fun n => (thermOf s (2 * n)).suspect && !(baseTemp s (2 * n)).valid
  max (clkOf s d).thCeil (if blind then 4 else 0)

/-- The compute dies of a domain, by compute-die index. -/
def computeDies (s : State) (d : Nat) : List Nat := (stacksOf s d).flatMap fun n => [2 * n, 2 * n + 1]

/-- The replica state of a compute die. -/
def replicaOf (s : State) (i : Nat) : Replica := tabGet s.pwr.reps {} i

/-- The least margin ceiling that pinned dies of a domain allow (14 R454). -/
def pinnedCeil (s : State) (d : Nat) : Nat := (computeDies s d).foldl (fun m i => max m ((replicaOf s i).pinned.getD 0)) 0

/-- The step a domain is to run at: the slowest of its ceilings (14 R453), with the Drydown stage requested. -/
def targetStep (s : State) (d : Nat) : Nat :=
  max (max (stageCeil s s.pwr.wanted) (thermalCeil s d)) (max (clkOf s d).marginCeil (pinnedCeil s d))

/-- Sets the idle PLLs of a domain to its next step (14 R452): a fall may cover several steps, a rise covers one. A
change that is no longer wanted is withdrawn. -/
def retarget (s : State) (d : Nat) : State :=
  let x := clkOf s d
  let t := targetStep s d
  let next := if t < x.step then x.step - 1 else t
  if x.ramp.isSome || x.pend = some next then s
  else if next = x.step then modClk s d fun y => { y with pend := none, locked := false }
  else modClk s d fun y => { y with pend := some next, locked := false }

/-- Domains that hold a stack. -/
def heldDoms (s : State) : List Nat := (List.range 8).filter fun d => stacksOf s d ≠ []

/-- The Sillage groups follow the stage in force (14 R457): a group switches off once no segment runs on it, and where all its banks have
failed (R447), and one switched on calibrates each bank before it serves (06 R200). -/
def followGroups (s : State) : State :=
  (List.range 8).foldl (fun t g =>
    let p := 41 + g
    let whole := (List.range 16).all fun b => (bankAt t g b).st = .failed
    if g < stageGroups t.pwr.stage && !whole then
      if pdOf t p = .off && t.base.ready then powerOn t p else t
    else if pdOf t p = .on && ((List.range 16).all fun b => (bankAt t g b).seg.isNone) then
      powerOff ((List.range 16).foldl (fun u b => modBank u g b fun q =>
        if q.st = .failed then q else { q with st := .off, stale := false, pending := none, due := false, retryAt := none, users := [] }) t) p
    else t) s

/-- The requested stage is in force once it has taken effect in every domain (14 R457, R458).
DEDUCED: notes/assumptions/50. -/
def settleStage (s : State) : State :=
  if s.pwr.stage ≠ s.pwr.wanted && (heldDoms s).all fun d => (clkOf s d).stage = s.pwr.wanted then
    modPwr s fun p => { p with stage := p.wanted, stageAt := s.gt }
  else s

/-- The requested stage takes effect in a domain once its step allows (14 R457): a higher one with the fall, a lower
one with the rise. A hold ends where a raised stage takes effect (14 R459).
DEDUCED: notes/assumptions/50. -/
def stageEffect (s : State) (d : Nat) : State :=
  let x := clkOf s d
  let w := s.pwr.wanted
  let ok := if x.stage ≤ w then decide (stageCeil s w ≤ x.step) else decide (x.step = targetStep s d)
  if x.stage = w || !ok then s
  else
    let s1 := modClk s d fun y => { y with stage := w }
    let s2 := if x.stage < w && s.pwr.hold ≠ 0 then
        let rel := if s.pwr.released.contains d then s.pwr.released else d :: s.pwr.released
        modPwr s1 fun p => if (heldDoms s).all rel.contains then { p with hold := 0, released := [], raisedAt := some s.gt }
          else { p with released := ascending rel, raisedAt := some s.gt }
      else s1
    settleStage s2

/-- The step of a domain changes (14 R452), counted in CLK_STEP_CHANGES. -/
def setStep (s : State) (d n : Nat) : State :=
  stageEffect (retarget (bump (modClk s d fun x => { x with step := n, pend := none, locked := false, ramp := none }) 0x100030 1) d) d

/-- A boundary of a domain (14 R452): a fall to locked PLLs takes effect, a rise starts its VCORE ramp. -/
def clockBoundary (s : State) (d : Nat) : State :=
  let x := clkOf s d
  match x.pend with
  | some n =>
    if !x.locked || !s.pwr.refOk || x.ramp.isSome then stageEffect s d
    else if x.step < n then setStep s d n
    else modClk s d fun y => { y with ramp := some n, rampAt := s.gt, pend := none, locked := false }
  | none => stageEffect s d

/-- Ceilings changed: every domain's next step follows, and a stage that asks no change of an idle domain takes effect
there (14 R452).
DEDUCED: notes/assumptions/50. -/
def retargetAll (s : State) : State :=
  (List.range 8).foldl (fun t d =>
    let t1 := retarget t d
    if (domOf t1 d).phase = .idle && (clkOf t1 d).pend.isNone && (clkOf t1 d).ramp.isNone then stageEffect t1 d else t1) s

/-- Whether REFCLK is declared lost in this tick, by a command still to come (14 R465). -/
def refclkGoes (s : State) : Bool := s.pending.any fun q => match q with | .refclkLost => true | _ => false

/-- PLL_LOCKED (14 R452, R465): the idle PLLs of a domain's dies are locked; without REFCLK the lock is discarded. A
domain between steps needs no boundary. -/
def execPllLocked (d : BitVec 3) (s : State) : Out :=
  let d := d.toNat
  if (clkOf s d).pend.isNone || !s.pwr.refOk || refclkGoes s then .next s
  else
    let s1 := modClk s d fun x => { x with locked := true }
    .next (if (domOf s1 d).phase = .idle then clockBoundary s1 d else s1)

/-- VCORE_RAMP_DONE (14 R452): the multiplexer switches to the new PLL. -/
def execVcoreRampDone (d : BitVec 3) (s : State) : Out :=
  match (clkOf s d.toNat).ramp with
  | some n => .next (setStep s d.toNat n)
  | none => .next s

end Sys2Proof.Machine
end

