-- ==== Sys2Proof/Machine/Image.lean ====
section
/-!
DEFINITION. The flash's directory and the Edrin image: what the boot code checks, measures and loads
(15_reset_boot.md R492 to R495).
-/
namespace Sys2Proof.Machine

/-- A section table entry (15 R493). -/
structure ImgSection where
  type : Nat
  unsigned : Bool
  off : Nat
  len : Nat
  digest : List Byte
  deriving DecidableEq, Repr

/-- A little-endian field of an image. -/
def imgNat (bs : List Byte) (o n : Nat) : Nat := ofLeBytes (slice bs o n)

/-- SECTION_COUNT of an image. -/
def imgCount (img : List Byte) : Nat := imgNat img 6 2

/-- The section table of an image, of at most 16 entries (15 R493). -/
def imgSections (img : List Byte) : List ImgSection :=
  (List.range (min 16 (imgCount img))).map fun i =>
    let o := 64 + 80 * i
    ⟨imgNat img o 2, (imgNat img (o + 2) 2) % 2 = 1, imgNat img (o + 8) 8, imgNat img (o + 16) 8, slice img (o + 32) 48⟩

/-- The length a section of a type may have (15 R493). -/
def sectionLenOk (x : ImgSection) : Bool :=
  match x.type with
  | 1 => decide (x.len ≤ 0x400000)
  | 2 => decide (x.len ≤ 0x1000000)
  | 3 => decide (x.len = 0x10000)
  | 4 => decide (x.len = 0x1000)
  | 5 => decide (x.len = 0x400000) || decide (x.len = 0)
  | _ => true

/-- A section entry by itself (15 R493): its type is not 0, its UNSIGNED flag is the type's, its length fits and it
lies within the image. -/
def imgSectionOk (imageLen : Nat) (x : ImgSection) : Bool :=
  decide (x.type ≠ 0) && decide (x.unsigned = (decide (3 ≤ x.type) && decide (x.type ≤ 5))) && sectionLenOk x &&
    decide (x.off + x.len ≤ imageLen)

/-- No two sections overlap (15 R493). -/
def noOverlap : List ImgSection → Bool
  | [] => true
  | x :: xs => (xs.all fun y => decide (x.len = 0) || decide (y.len = 0) || decide (x.off + x.len ≤ y.off) || decide (y.off + y.len ≤ x.off)) && noOverlap xs

/-- The header and the section table meet 15 R493, for an image of at most `slotLen` bytes.
DEDUCED: notes/assumptions/43. -/
def imgHeaderOk (slotLen : Nat) (img : List Byte) : Bool :=
  let n := imgCount img
  let len := imgNat img 8 8
  let ss := imgSections img
  decide (imgNat img 0 4 = 0x4E524445) && decide (imgNat img 4 1 = 1) && decide (imgNat img 5 1 % 16 = 1) &&
    decide (5 ≤ n) && decide (n ≤ 16) && decide (len ≤ slotLen) && decide (len ≤ img.length) &&
    ss.all (imgSectionOk len) && ([1, 2, 3, 4, 5].all fun t => decide ((ss.filter fun x => x.type = t).length = 1)) && noOverlap ss

/-- The bytes of the boot record: header, section table and signature. -/
def bootRecord (img : List Byte) : List Byte := img.take (64 + 80 * imgCount img + 192)

/-- ROOT_PUB is the fused root key's (Config.rootHash), and the signature over the header and the table verifies (15
R494). -/
def rootSigned (img : List Byte) : Bool :=
  let o := 64 + 80 * imgCount img
  let pub := slice img o 96
  decide (sha384 pub = Config.rootHash) &&
    ecdsaVerify (ofBeBytes (pub.take 48), ofBeBytes (pub.drop 48)) (img.take o) (ofBeBytes (slice img (o + 96) 48)) (ofBeBytes (slice img (o + 144) 48))

/-- The content of an unsigned section, where its check value holds (15 R493). -/
def imgContent (img : List Byte) (x : ImgSection) : Option (List Byte) :=
  let n := imgNat img x.off 4
  let c := slice img (x.off + 8) n
  if 8 ≤ x.len ∧ n + 8 ≤ x.len ∧ crc32c c = imgNat img (x.off + 4) 4 then some c else none

/-- The section of a type. -/
def imgSection (img : List Byte) (t : Nat) : Option ImgSection := (imgSections img).find? fun x => x.type = t

/-- Every signed section matches its digest, and SETTINGS and PAIR their check values; seeds that fail theirs are
replaced (15 R494, R495).
DEDUCED: notes/assumptions/43. -/
def contentOk (img : List Byte) : Bool :=
  (imgSections img).all fun x =>
    if x.unsigned then x.type = 5 || (imgContent img x).isSome
    else decide (sha384 (slice img x.off x.len) = x.digest)

/-- Whether the factory region's seeds are needed (15 R495). -/
def needsFactory (img : List Byte) : Bool :=
  match imgSection img 5 with
  | some x => decide (x.len = 0) || (imgContent img x).isNone
  | none => true

/-- The reason an image fails 15 R494, as RST_BOOT.FALLBACK gives it; 0 where it is accepted.
DEDUCED: notes/assumptions/43. -/
def imageFault (floor slotLen : Nat) (img : List Byte) : Nat :=
  if !imgHeaderOk slotLen img then 1
  else if !rootSigned img then 3
  else if imgNat img 0x10 1 < floor then 4
  else if !contentOk img then 2
  else 0

/-- The measurements of an image (15 R494): the boot record, BOOT_CODE, DIRECTOR, the contents of the unsigned
sections, and sections of later types. -/
def measure (img : List Byte) : List (List Byte) :=
  sha384 (bootRecord img) :: ((sortBy (fun (a b : ImgSection) => decide (a.type < b.type)) (imgSections img)).map fun x =>
    if x.unsigned then sha384 ((imgContent img x).getD []) else x.digest)

/-- A directory copy that counts (15 R492): its magic and check value hold. -/
def directoryOk (d : List Byte) : Bool :=
  decide (d.length = 0x1000) && decide (imgNat d 0 4 = 0x52494445) &&
    decide (crc32c (d.take 0xFFC) = imgNat d 0xFFC 4) && decide (imgNat d 0x20 4 ≤ 0x4000000)

/-- SLOT_LEN of the directory in use: of the valid copies, the one whose SEQ is higher (15 R492). -/
def slotLenOf (dirs : List (List Byte)) : Option Nat :=
  ((dirs.take 2).filter directoryOk).foldl (fun (best : Option (Nat × Nat)) d =>
    match best with
    | some b => if b.1 < imgNat d 4 4 then some (imgNat d 4 4, imgNat d 0x20 4) else some b
    | none => some (imgNat d 4 4, imgNat d 0x20 4)) none |>.map Prod.snd

/-- The records of SETTINGS or PAIR (15 R495): KEY and value, `n` records at most. -/
def settingRecords : Nat → List Byte → List (Nat × List Byte)
  | 0, _ => []
  | n + 1, bs =>
    if bs.length < 4 then []
    else
      let len := imgNat bs 2 2
      (imgNat bs 0 2, slice bs 4 len) :: settingRecords n (bs.drop (4 + (len + 3) / 4 * 4))

/-- A settings value outside its field's range is recorded, naming the key (15 R495). -/
def badSetting (s : State) (key : Nat) : State := fault s { cls := 0x18, unit := unitId 0x0E 0, outcome := 0, cause := key }

/-- Loads a field of a register from a setting, or its default with a record. -/
def loadField (s : State) (key off hi lo : Nat) (v : List Byte) (n mn mx dflt : Nat) : State :=
  let x := ofLeBytes v
  if v.length = n ∧ mn ≤ x ∧ x ≤ mx then regSetBits s off hi lo x else badSetting (regSetBits s off hi lo dflt) key

/-- Loads one record of SETTINGS or PAIR (15 R495); an unknown key is skipped. -/
def loadSetting (s : State) (pairSection : Bool) (r : Nat × List Byte) : State :=
  let k := r.1
  let v := r.2
  let x := ofLeBytes v
  if pairSection then
    if k ≠ 0x101 then s
    else
      let en := imgNat v 0 1
      let partner := imgNat v 1 1
      let lease := imgNat v 2 1
      let auth := imgNat v 3 1
      let auth2 := imgNat v 4 1
      let gib := imgNat v 6 2
      let put (t : State) (ok : Bool) (off hi lo val : Nat) : State := if ok then regSetBits t off hi lo val else badSetting t k
      if v.length ≠ 8 then badSetting s k
      else
        put (put (put (put (put (put s (decide (en ≤ 1)) 0x3400000 31 31 en) (decide (partner < 8)) 0x3400000 30 28 partner)
          (decide (2 ≤ lease) && decide (lease ≤ 100)) 0x3400000 27 21 lease) (decide (auth < 8)) 0x3400004 2 0 auth)
          (decide (auth2 < 8)) 0x3400004 6 4 auth2) (decide (gib ≤ 2048)) 0x3400004 31 20 gib
  else match k with
    | 1 => loadField s k 0x2C00000 1 0 v 1 0 2 0
    | 2 => loadField s k 0x200004 10 0 v 2 650 1250 1100
    | 3 => loadField s k 0x100004 2 0 v 1 0 1 1
    | 4 => loadField s k 0x3000000 31 16 v 2 0 0xFFFF 0xFFFF
    | 5 =>
      if v.length = 1 ∧ x < 4 then { s with sec := { s.sec with mgmtOnly := x % 2 = 1, strictTime := 2 ≤ x } }
      else badSetting { s with sec := { s.sec with mgmtOnly := false, strictTime := false } } k
    | 6 =>
      let pub := v.drop 4
      let key := (ofBeBytes (pub.take 48), ofBeBytes (pub.drop 48))
      if v.length = 100 ∧ imgNat v 0 1 < 8 ∧ imgNat v 1 1 ≤ 1 then
        { s with sec := { s.sec with slots := listSet s.sec.slots (imgNat v 0 1) ⟨imgNat v 1 1 = 1, key ≠ (0, 0), key, imgNat v 2 2⟩ } }
      else badSetting s k
    | 7 => loadField s k 0x300008 15 0 v 2 10 10000 100
    | _ => s

/-- Loads the settings and the pair record of an image (15 R495, R499). -/
def loadSettings (s : State) (img : List Byte) : State :=
  let recs (t : Nat) : List (Nat × List Byte) := match (imgSection img t).bind (imgContent img) with
    | some c => settingRecords (c.length / 4) c
    | none => []
  (recs 4).foldl (fun t r => loadSetting t true r) ((recs 3).foldl (fun t r => loadSetting t false r) s)

end Sys2Proof.Machine
end

