-- ==== Sys2Proof/Machine/Director.lean ====
section
/-!
DEFINITION. Capacity requests and placement lookups (05_placement.md R169 to R172, R178 to R182).
-/
namespace Sys2Proof.Machine

/-- Whether a capacity unit exists (05 R181). -/
def capExists (kind n : Nat) : Bool := (kind = 0 && n < 8) || (kind = 1 && n < 8) || (kind = 2 && n < 4)

/-- The dies of a capacity unit. -/
def capDies (kind n : Nat) : List Nat := if kind = 0 then [n, upperDie n] else if kind = 1 then [8 + n] else [16 + n]

/-- LAST_UNIT of R170: the device would have no reservoir, or a domain no stack or too few for an instance with
bound contexts. -/
def lastUnit (s : State) (kind n : Nat) : Bool :=
  if kind = 1 then ((List.range 8).filter fun r => r ≠ n && dieUp s (8 + r)) = []
  else if kind = 0 then
    match (stackOf s n).domain with
    | none => false
    | some d =>
      let left := ((liveStacks s d).filter (· ≠ n)).length
      left = 0 || s.insts.any fun e => e.2.dom = d && decide (left < e.2.f.minStacks) && boundTo s e.1 ≠ []
  else false

/-- CAPACITY of R170: the homes of a port die do not fit the others within each domain's share, or the staging
copies do not fit the remaining reservoirs. -/
def capacityShort (s : State) (kind n : Nat) : Bool :=
  if kind = 2 then
    let others := (stayingPorts s).filter (· ≠ n)
    (List.range 8).any fun d =>
      let used := (others.map fun p => portUsed s.plc.units d p).sum
      decide ((domOf s d).t2Gib * gib / 4 * others.length < used + portUsed s.plc.units d n)
  else if kind = 1 then
    let staged := ((s.plc.units.filter fun u => u.staging && u.t1.isSome).map PUnit.bytes).sum
    decide (((stayingRsv s).filter (· ≠ n)).length * (9 * gib / 2) < staged)
  else false

/-- The reason a removal is refused for (05 R170, R172): a unit that is LOST is refused with FAULT. -/
def removeRefusal (s : State) (kind n : Nat) : Option Nat :=
  let st := capOf s kind n
  let out := match kind with | 0 => (stackOf s n).domain.isNone | _ => false
  let bad := !capExists kind n || out || (decide (st ≠ .inService) && decide (st ≠ .lost)) ||
    (decide (st = .inService) && !dieUp s ((capDies kind n).headD 0))
  firstFail [(1, s.plc.capRun.isSome), (2, bad), (5, decide (st = .lost) || (capDies kind n).any (faultPending s)), (3, lastUnit s kind n), (4, capacityShort s kind n)]

/-- Refuses a capacity request: PLC_CAP_STATUS shows it until the next request, or the request under way, which goes on, ends (05 R170).
DESIGN CHOICE: notes/assumptions/112. -/
def refuseCap (s : State) (reason : Nat) : State := { s with plc := { s.plc with capSt := 4, capReason := reason } }

/-- At an operation boundary of its domain a stack that drains leaves the domain's tilings for the loss tiling, and its resident copies
are dropped (05 R171). -/
def drainBoundary (s : State) (d : Nat) : State :=
  match draining s with
  | some (0, n) =>
    if (stackOf s n).domain = some d && (domOf s d).lossTiling ≠ some n then
      startIfReady (dropResident (modDom s d fun x => { x with lossTiling := some n, prefetch := [] }) n) d
    else s
  | _ => s

/-- Starts a drain (05 R171): its moves begin, and a stack's domain takes its loss tiling at its next operation boundary. -/
def startDrain (s : State) (kind n : Nat) : State :=
  let s1 := startMoves (setCap { s with plc := { s.plc with capSt := 1, capReason := 0, capRun := some (true, kind * 8 + n), placing := true } } kind n .draining)
  match kind, (stackOf s n).domain with
  | 0, some d => if (domOf s d).phase = .running then s1 else drainBoundary s1 d
  | _, _ => s1

/-- Asks for a removal (05 R169, R170). -/
def capRemove (s : State) (kind n : Nat) : State :=
  match removeRefusal s kind n with
  | some r => refuseCap s r
  | none => startDrain s kind n

/-- A unit's dies power on, and pass through their tests (05 R169; 15_reset_boot.md R485). -/
def wakeUnit (s : State) (kind n : Nat) : State :=
  markDieReset ((capDies kind n).foldl (fun t i => powerOn (modDie t i fun x => { x with st := .ramping, returning := false }) (pdOfDie i)) s)

/-- Asks for a return (05 R169): the unit's dies power on and are tested. -/
def capReturn (s : State) (kind n : Nat) : State :=
  match firstFail [(1, s.plc.capRun.isSome), (2, !capExists kind n || (decide (capOf s kind n ≠ .out) && decide (capOf s kind n ≠ .lost))),
      (5, decide (capOf s kind n = .lost))] with
  | some r => refuseCap s r
  | none => wakeUnit (setCap { s with plc := { s.plc with capSt := 3, capReason := 0, capRun := some (false, kind * 8 + n) } } kind n .returning) kind n

/-- A write of PLC_CAP_CTL (05 R181): its fields hold the request, which GO submits; all are ignored while the
block is locked. -/
def writeCapCtl (s : State) (action kind unit : Nat) (go : Bool) : State :=
  if locked s 0x10000C0 then s
  else
    let s1 := regPut s 0x10000C0 (BitVec.ofNat 32 (action % 4 * 256 + kind % 4 * 16 + unit % 8))
    if !go then s1 else if action = 1 then capRemove s1 kind unit else if action = 2 then capReturn s1 kind unit
    else refuseCap s1 (if s.plc.capRun.isSome then 1 else 2)

/-- A GO with an action from a requester (05 R170; 15 R480): only the host's writes are dropped while the BARs are off. -/
def askCap (r : Requester) (action kind unit : Nat) (s : State) : State :=
  if r = .host && barsOff s then s else writeCapCtl s action kind unit true

/-- CAPACITY_REMOVE (05 R170): a GO with ACTION remove. -/
def execCapacityRemove (r : Requester) (u : CapUnit) (s : State) : Out := .next (askCap r 1 u.kind.toNat u.unit.toNat s)

/-- CAPACITY_RETURN (05 R169): a GO with ACTION return. -/
def execCapacityReturn (r : Requester) (u : CapUnit) (s : State) : Out := .next (askCap r 2 u.kind.toNat u.unit.toNat s)

/-- What the end of a reservoir's drain drops: weight and older KV copies, whose pins are placed again or end (05 R159, R171). -/
def commitDrain (s : State) (kind n : Nat) : State := if kind = 1 then loseCopies s n else s

/-- The drained stack's dies power off, or pass through a die-local reset where the stack moves (05 R169, 13
R426). -/
def leaveStack (s : State) (n : Nat) : State :=
  let moves : Bool := match s.sec.moving with | some (m, _) => m = n | none => false
  let s1 := modStack (dropFlights s n) n fun k => { k with dests := [], passing := k.passing }
  if moves then markDieReset ([n, upperDie n].foldl (fun t i => if (dieOf t i).st = .lost then t else modDie t i fun x => { x with st := .reset, returning := false }) s1)
  else dieOff (dieOff s1 n) (upperDie n)

/-- Whether an operation runs on the unit that drains (05 R171): of its domain for a stack, of any for the others. -/
def drainBusy (s : State) (k n : Nat) : Bool :=
  match k, (stackOf s n).domain with
  | 0, some d => (domOf s d).phase = .running
  | 0, none => false
  | _, _ => (runningDoms s) ≠ []

/-- The unit that has drained leaves (05 R169, R171); the steered slots of a stack that moves have drained with it (13 R426). -/
def drainLeave (s : State) (k n : Nat) : State :=
  let s1 := commitDrain s k n
  if k = 0 then leaveStack (if s.sec.moving.isSome then releaseSlots s1 n else s1) n else if k = 1 then dieOff (requeueGroup s1 n) (8 + n) else dieOff s1 (16 + n)

/-- DRAIN_COMPLETE (05 R169, R171): the unit of the drain under way is OUT once its last move has committed and its domain runs no
operation on it; a stack that moves to another domain goes on with its die-local reset, once its steered slots have drained (01 R22; 13
R426). -/
def execDrainComplete (kind : BitVec 2) (unit : BitVec 3) (s : State) : Out :=
  let k := kind.toNat
  let n := unit.toNat
  if s.plc.capRun ≠ some (true, k * 8 + n) || drainBusy s k n || decide (0 < drainBytes s k n) || (capDies k n).any (faultPending s) then .next s
  else
    let moves : Bool := k = 0 && (match s.sec.moving with | some (m, _) => decide (m = n) | none => false)
    if moves && !slotsDrained s n then .next (drainSlots s n)
    else
      let t := drainLeave s k n
      .next (if moves then t else endCap (setCap t k n .out) 2 0)

/-- The unit a lookup names (05 R178): KV blocks and sketch pages by context, others by instance. Of a KV_K block and its sketch page, which
share tensor, index and context, it is the first in the Director's list (DESIGN CHOICE: notes/assumptions/97). Units of a tensor that is no
ADAPTER lie in slot 0, and another SLOT names none.
DESIGN CHOICE: notes/assumptions/109. -/
def lookupUnit (s : State) (sel ctx idx : Nat) : Option PUnit :=
  let tensor := sel / 2 ^ 16
  let slot := sel / 2 ^ 6 % 256
  let inst := sel % 64
  s.plc.units.find? fun u => u.key.tensor = tensor && u.key.index = idx &&
    (match u.key.kind with
     | .granule | .expert => u.key.owner = inst && u.key.slot = slot
     | .kv | .sketch => u.key.owner = ctx && (ctxOf s ctx).inst = some inst)

/-- Whether a lookup names an instance of a function assigned to a confidential guest (05 R179). -/
def lookupDenied (s : State) (h : Nat) : Bool :=
  match tabFind s.insts h with
  | some i => i.fn ≠ 0 && tdiLocked s i.fn
  | none => false

/-- PLC_QRY_RES0 of a unit that is placed (05 R179): VALID, PIN, MOVING, the tier and the die. -/
def placedWord (pin moving : Bool) (tier die : Nat) : Word :=
  BitVec.ofNat 32 (2 ^ 31 + b2n pin * 2 ^ 28 + b2n moving * 2 ^ 27 + tier * 2 ^ 24 + die)

/-- The result of a lookup (05 R179). A unit whose home is destroyed and that has no copy shows T2, port die 0.
DESIGN CHOICE: notes/assumptions/111. -/
def lookupResult (s : State) (sel ctx idx : Nat) : Word × Word :=
  if lookupDenied s (sel % 64) then (0xC0000000#32, 0#32)
  else match lookupUnit s sel ctx idx with
    | none => (0xA0000000#32, 0#32)
    | some u =>
      let at_ : Nat × Nat × Bool :=
        match u.t0, u.t1, u.home with
        | some t, _, _ => (0, t, u.pin0)
        | none, some r, _ => (1, r, u.pin1)
        | none, none, .port p => (2, p, false)
        | none, none, .peer p => (3, p, false)
        | none, none, .lost => (2, 0, false)
      (placedWord at_.2.2 u.moving at_.1 at_.2.1, BitVec.ofNat 32 u.heat)

/-- PLACEMENT_QUERY (05 R178): a write of PLC_QRY_IDX starts a lookup of the unit that the three registers name at its tick, the
requester's PLC_QRY_SEL among them. -/
def execPlacementQuery (r : Requester) (idx : Word) (s : State) : Out :=
  if r = .host && barsOff s then .next s
  else
  let s1 := regPut s 0x1000044 idx
  .next { s1 with plc := { s1.plc with lookup := some ((selVal s r 0x1000040).toNat, regBits s 0x1000048 15 0, idx.toNat), res0 := 0#32, res1 := 0#32 } }

/-- PLACEMENT_QUERY_DONE (05 R179): the lookup under way reports the placement of this tick. -/
def execPlacementQueryDone (s : State) : Out :=
  match s.plc.lookup with
  | none => .next s
  | some (sel, ctx, idx) =>
    let r := lookupResult s sel ctx idx
    .next { s with plc := { s.plc with lookup := none, res0 := r.1, res1 := r.2 } }

end Sys2Proof.Machine
end

