-- ==== Sys2Proof/Machine/Dma.lean ====
section
/-!
DEFINITION. The commands of DMA channels and check-value engines, and of hub accesses that fail
(10_dma_check.md R331 to R360; 09_host_rings.md R328).
-/
namespace Sys2Proof.Machine

/-- The offset of a channel's register (10 R344). -/
def dmaOff (n r : Nat) : Nat := 0x1401000 + n * 0x40 + r

/-- A channel. -/
def dmaOf (s : State) (n : Nat) : DmaChan := tabGet s.dma.chans {} n

/-- Changes a channel. -/
def modDma (s : State) (n : Nat) (f : DmaChan → DmaChan) : State := { s with dma := { s.dma with chans := tabMod s.dma.chans {} n f } }

/-- SRC, DST and COUNT of a channel (10 R348). -/
def dmaSrc (s : State) (n : Nat) : Nat := count64 s (dmaOff n 0)
def dmaDst (s : State) (n : Nat) : Nat := count64 s (dmaOff n 8)
def dmaCount (s : State) (n : Nat) : Nat := (regVal s (dmaOff n 0x10)).toNat

/-- The fields of DMA_CH_CTL a channel acts by: those of the GO write that started it (10 R349).
DESIGN CHOICE: notes/assumptions/101. -/
def dmaCtl (s : State) (n : Nat) : Word := if (dmaOf s n).st = .idle then regVal s (dmaOff n 0x14) else (dmaOf s n).ctl

/-- The requester a channel or engine acts as toward local memory (10 R333). -/
def actsAs (s : State) (sec : Bool) (c : Nat) : MemReq :=
  if sec then .secure else match domOfCtx s c with | some d => .domain d | none => .domain 8

/-- Whether an address has bits above its space's width (10 R334). -/
def wide (space a : Nat) : Bool := (space = 1 && decide (2 ^ 45 ≤ a)) || (space = 2 && decide (2 ^ 48 ≤ a))

/-- The local address that a tray address names, where it is this device's (08 R283). -/
def localOf (s : State) (space a : Nat) : Option Nat :=
  if space = 1 then some a else if space = 2 && a / 2 ^ 45 = s.rst.trayPos then some (a % 2 ^ 45) else none

/-- Whether a channel's source and destination ranges overlap, against R334's must: in one space, or both in this device's memory.
DESIGN CHOICE: notes/assumptions/101. -/
def dmaOverlap (s : State) (n : Nat) (v : Word) : Bool :=
  let place (space a : Nat) : Nat × Nat := match localOf s space a with | some l => (1, l) | none => (space, a)
  let a := place (bits v 23 22) (dmaSrc s n)
  let b := place (bits v 21 20) (dmaDst s n)
  decide (a.1 = b.1) && decide (a.2 < b.2 + dmaCount s n) && decide (b.2 < a.2 + dmaCount s n)

/-- CONFIG of R334, and the report of a range that overlaps (00_scope.md R15). -/
def dmaConfigBad (s : State) (n : Nat) (v : Word) : Bool :=
  dmaCount s n = 0 || bits v 23 22 = 3 || bits v 21 20 = 3 || wide (bits v 23 22) (dmaSrc s n) || wide (bits v 21 20) (dmaDst s n) ||
    (v.getLsbD 28 && decide (n < 56)) || decide (4095 < bits v 15 0) || dmaOverlap s n v

/-- Segments a channel holds (10 R335, R353): its reserved one while it runs, and those its data fills, once it is done for its taps. -/
def segsOf (c : DmaChan) : Nat :=
  let n := (c.data.length + 65535) / 65536
  if c.st = .running then max 1 n else if c.st = .done then n else 0

/-- The shared segments in use (10 R335): those beyond each running channel's reserved one. -/
def sharedSegs (s : State) : Nat := (s.dma.chans.map fun e => segsOf e.2 - 1).sum

/-- Segments in use (10 R346). -/
def segsInUse (s : State) : Nat := (s.dma.chans.map fun e => segsOf e.2).sum

/-- Notes the most segments in use. -/
def noteSegs (s : State) : State := { s with dma := { s.dma with hwm := max s.dma.hwm (segsInUse s) } }

/-- The status a descriptor takes from a halted channel (10 R339). -/
def haltStatus (cause space : Nat) : Nat :=
  match cause with
  | 1 | 2 => if space = 0 then stHostAddr else stFault
  | 3 => stAddr | 4 => stDenied | 5 | 6 => stFault | 7 => stCancelled | _ => stBadDesc

/-- Whether a descriptor that waits reads data from host memory before its admission: a REQUEST's inputs and records (09 R310, R313). -/
def readsData (d : Desc) : Bool := match d.body with | .request _ => true | _ => false

/-- Whether a management descriptor's work reads data from host memory. -/
def readsHost (w : Work) : Bool := match w with | .loading _ _ => true | .chunk _ _ _ => true | _ => false

/-- A channel halts (10 R338, R339): counted; the descriptor that a channel of the descriptor pool serves
completes. -/
def haltDma (s : State) (n cause addr : Nat) : State :=
  let v := dmaCtl s n
  let s1 := bump (modDma s n fun c => { c with st := .halted, cause := cause, fail := addr, readBy := none, stopping := false, haltAt := s.gt, serves := none }) 0x1400034 1
  let s2 := { s1 with dma := { s1.dma with
    retries := s1.dma.retries.filter fun r => match r.access with
      | .dmaRead m => m.toNat ≠ n
      | .dmaWrite m _ => m.toNat ≠ n
      | _ => true } }
  if n < 48 && (mgmtWork (ctxOf s2 (bits v 15 0))).any readsHost then
    failRead s2 (bits v 15 0) (haltStatus cause (if cause = 1 then bits v 23 22 else bits v 21 20))
  else s2

/-- The tick at which a host read's wait ends (10 R338). -/
def hostBy (s : State) (space : Nat) : Option Nat := if space = 0 then some (s.gt + regBits s 0x1400000 23 16 * 1000000) else none

/-- Who may write a channel's or engine's registers directly: the control cores, and of channels only the maintenance
pool (10 R331, R332).
DEDUCED: notes/assumptions/63. -/
def coresMay (r : Requester) : Bool := r = .cores || r = .secure

/-- Starts a channel, or restarts a halted one from its committed prefix (10 R334, R341). -/
def startDma (s : State) (n : Nat) (v : Word) (resume : Bool) : State :=
  let s1 := modDma (regPut s (dmaOff n 0x14) (v &&& 0x18F0FFFF#32)) n fun q => { q with ctl := v &&& 0x18F0FFFF#32 }
  let c := dmaOf s n
  if dmaConfigBad s1 n v || (resume && decide (c.st ≠ .halted)) then
    haltDma (modDma s1 n fun q => { q with done := if resume then q.done else 0 }) n 8 0
  else
    let b := if resume then c.done * 128 - dmaDst s1 n % 128 else 0
    noteSegs (modDma s1 n fun q => { q with
      st := .running, cause := 0, done := if resume then q.done else 0, ahead := [], fail := 0, start := b, data := [], retries := 0, serves := none
      readBy := hostBy s1 (bits v 23 22) })

/-- An ABORT of this tick halts its channel: its issued writes have settled (10 R342, R343). -/
def settleAbort (s : State) (n : Nat) : State := if (dmaOf s n).stopping then haltDma s n 7 0 else s

/-- ABORT of a running channel (10 R342): it takes no more reads, and halts once the writes of this tick have committed. -/
def abortDma (s : State) (n : Nat) : State := if (dmaOf s n).st = .running then modDma s n fun q => { q with stopping := true } else s

/-- A GO write (10 R331 to R335): refused and logged for a requester that may not write it, for a pool the loader
owns, for SEC outside the secure state, and for a channel that runs. A loader gives the pair pool PRIO 1 and the descriptor pool 0.
DEDUCED: notes/assumptions/63. -/
def dmaGo (s : State) (n : Nat) (by_ : DmaBy) (v : Word) (resume : Bool) : State :=
  match by_ with
  | .write r =>
    if !coresMay r || n < 56 || (v.getLsbD 28 && r ≠ .secure) then logRefused s r (dmaOff n 0x14) v stDenied
    else
      let t := settleAbort s n
      if (dmaOf t n).st = .running then logRefused t r (dmaOff n 0x14) v stCtxState else startDma t n v resume
  | .loader src dst cnt =>
    if 56 ≤ n || (dmaOf s n).st = .running then s
    else
      let put (t : State) (o : Nat) (x : BitVec 64) : State :=
        regPut (regPut t (dmaOff n o) (BitVec.ofNat 32 (x.toNat % 2 ^ 32))) (dmaOff n (o + 4)) (BitVec.ofNat 32 (x.toNat / 2 ^ 32))
      startDma (regPut (put (put s 0 src) 8 dst) (dmaOff n 0x10) cnt) n (setBits v 27 27 (b2n (decide (48 ≤ n)))) resume

/-- DMA_GO (10 R334). -/
def execDmaGo (n : BitVec 6) (b : DmaBy) (v : Word) (s : State) : Out := .next (dmaGo s n.toNat b v false)

/-- DMA_RESUME (10 R341). -/
def execDmaResume (n : BitVec 6) (b : DmaBy) (v : Word) (s : State) : Out := .next (dmaGo s n.toNat b v true)

/-- DMA_ABORT (10 R342): a channel that runs halts at the end of the tick. -/
def execDmaAbort (n : BitVec 6) (r : Requester) (s : State) : Out :=
  let n := n.toNat
  if !coresMay r || n < 56 then .next (logRefused s r (dmaOff n 0x14) 0x40000000#32 stDenied) else .next (abortDma s n)

/-- A read of local memory as the hub makes it: the bytes, or the status that refuses it and the address it is refused at (08 R284,
R285). -/
def localRead (s : State) (who : MemReq) (a n : Nat) : Except (Nat × Nat) (List Byte) :=
  let st := rangeStatus s who a n
  if st.1 = stOk then .ok (memRead s a n) else .error st

/-- The cause a refused local access halts a channel with (10 R338). -/
def causeOf (st : Nat) : Nat := if st = stAddr then 3 else 4

/-- Drops the retry record of an access that succeeded. -/
def clearRetry (s : State) (a : HubAccess) : State := { s with dma := { s.dma with retries := s.dma.retries.filter fun r => r.access ≠ a } }

/-- Whether an access waits in its retry gap. -/
def inGap (s : State) (a : HubAccess) : Bool := s.dma.retries.any fun r => r.access = a && r.due.isSome

/-- Whether a channel may take a read: it runs, the bytes fit the range, the access limit, its segments and the 64 shared ones, and a
host access belongs to an enabled context (10 R333, R335). The order of grants is that of the commands.
DEDUCED: notes/assumptions/118. -/
def mayTake (s : State) (n len : Nat) : Bool :=
  let c := dmaOf s n
  let v := dmaCtl s n
  let after := { c with data := c.data ++ List.replicate len 0#8 }
  decide (c.st = .running) && !c.stopping && decide (0 < len) && decide (len ≤ 4096) && decide (c.start + c.data.length + len ≤ dmaCount s n) &&
    decide (segsOf after ≤ regBits s 0x1400000 29 24) && decide (sharedSegs s + (segsOf after - 1) ≤ 64 + (segsOf c - 1)) &&
    !inGap s (.dmaRead (BitVec.ofNat 6 n)) && (bits v 23 22 ≠ 0 || (ctxOf s (bits v 15 0)).enabled)

/-- The first byte of a line and the byte after its last, as offsets of the copy (10 R336). -/
def lineSpan (dst count k : Nat) : Nat × Nat := (128 * k - dst % 128, min count (128 * (k + 1) - dst % 128))

/-- The lines of a copy. -/
def lineCount (dst count : Nat) : Nat := (dst % 128 + count + 127) / 128

/-- The committed prefix after lines beyond it have committed. -/
def prefixRun : Nat → Nat → List Nat → Nat × List Nat
  | 0, d, l => (d, l)
  | fuel + 1, d, l => if l.contains d then prefixRun fuel (d + 1) (l.filter (· ≠ d)) else (d, l)

/-- Where running taps of a channel stand in its source range (10 R353). -/
def tapsOf (s : State) (n : Nat) : List Nat :=
  (s.dma.engines.filter fun e =>
    let v := regVal s (0x150100C + e.1 * 0x40)
    e.2.st = .running && v.getLsbD 23 && decide (bits v 21 16 = n)).map fun e => count64 s (0x1501000 + e.1 * 0x40) + e.2.done

/-- Bytes below the committed prefix leave a channel's buffer, once its taps have consumed them (10 R335, R353). -/
def trimBuffer (s : State) (n : Nat) : State :=
  let c := dmaOf s n
  let first := (tapsOf s n).foldl (fun m a => if c.start ≤ a then min m a else m) (lineSpan (dmaDst s n) (dmaCount s n) c.done).1
  modDma s n fun q => { q with data := q.data.drop (first - q.start), start := max q.start first }

/-- What a committed line changes in its channel: the prefix advances, bytes below it leave the buffer, and the
last line ends the copy (10 R337). -/
def lineDone (s : State) (n k : Nat) : State :=
  let c := dmaOf s n
  let dst := dmaDst s n
  let cnt := dmaCount s n
  let p := prefixRun 257 c.done (c.ahead ++ [k])
  let span := lineSpan dst cnt k
  let s1 := modDma s n fun q => { q with
    done := p.1, ahead := p.2
    st := if p.1 = lineCount dst cnt && q.st = .running then .done else q.st
    stopping := q.stopping && decide (p.1 ≠ lineCount dst cnt), cause := if q.st = .running then 0 else q.cause }
  bump64 (clearRetry (trimBuffer s1 n) (.dmaWrite (BitVec.ofNat 6 n) (BitVec.ofNat 32 k))) 0x1400038 (span.2 - span.1)

/-! ### Accesses that fail (R338, 09 R328) -/

/-- The ring index of the buffer entry a context reads next (09 R319). -/
def bufferIndex (k : Ctx) : Nat := (k.rqHead + k.buffers.length) % ringSize k.rqLog

/-- The address of an access. -/
def accessAddr (s : State) : HubAccess → Nat
  | .dmaRead n => dmaSrc s n.toNat + (dmaOf s n.toNat).start + (dmaOf s n.toNat).data.length
  | .dmaWrite n k => dmaDst s n.toNat + (lineSpan (dmaDst s n.toNat) (dmaCount s n.toNat) k.toNat).1
  | .engineRead e => count64 s (0x1501000 + e.toNat * 0x40) + (tabGet s.dma.engines {} e.toNat).done
  | .submission c | .data c => (ctxOf s c.toNat).sqBase + 64 * (ctxOf s c.toNat).sqHead
  | .bufferEntry c => (ctxOf s c.toNat).rqBase + 16 * bufferIndex (ctxOf s c.toNat)
  | _ => 0

/-- An engine ends with a cause (10 R353). -/
def endEngine (s : State) (e cause : Nat) : State :=
  { s with dma := { s.dma with engines := tabMod s.dma.engines {} e fun x => { x with st := .error, cause := cause } } }

/-- A context that can read its rings no more: an entry of a ring failed (09 R317, R328). -/
def ringError (s : State) (c arg index : Nat) : State :=
  event (modCtx s c fun k => { k with error := true, errCode := stHostAddr }) c (evtEntry 0x07 arg stHostAddr index)

/-- What follows when the re-issues of an access have run out (10 R338, 09 R328). -/
def accessLost (s : State) (a : HubAccess) : State :=
  match a with
  | .dmaRead n => if (dmaOf s n.toNat).st = .running then haltDma s n.toNat 1 (accessAddr s a) else s
  | .dmaWrite n _ => if (dmaOf s n.toNat).st = .running then haltDma s n.toNat 2 (accessAddr s a) else s
  | .engineRead e => endEngine s e.toNat 1
  | .submission c => if (ctxOf s c.toNat).enabled then ringError s c.toNat 6 (ctxOf s c.toNat).sqHead else s
  | .bufferEntry c => if (ctxOf s c.toNat).enabled then ringError s c.toNat 5 (bufferIndex (ctxOf s c.toNat)) else s
  | .data c =>
    let k := ctxOf s c.toNat
    if (mgmtWork k).any readsHost then failRead s c.toNat stHostAddr
    else match k.waiting.filter readsData with
      | some d => settle (setCtx s c.toNat { k with
          waiting := none, sqHead := (if k.sqHead + 1 = ringSize k.sqLog then 0 else k.sqHead + 1)
          queue := k.queue ++ [⟨d.head.tag.toNat, d.head.noIrq, false, .other, none, some (stHostAddr, refusedPayload k d, false)⟩] }) c.toNat
      | none => settle (setCtx s c.toNat { k with queue := modFirst openRequest (endLater stHostAddr) k.queue }) c.toNat
  | .resultBuffer c => settle (truncateOutput s c.toNat stHostAddr) c.toNat
  | .completion c => modCtx s c.toNat fun k => { k with error := true, errCode := stHostAddr, noWrites := true }
  | .message _ => s
  | .fabMessage => { s with fab := { s.fab with msg := { s.fab.msg with error := true, errCode := stHostAddr } } }

/-- An access fails (10 R338): it is re-issued after the gap while re-issues are left. -/
def failAccess (s : State) (a : HubAccess) : State :=
  let old := s.dma.retries.find? fun r => r.access = a
  let tries := (old.map Retry.tries).getD 0
  let s1 := clearRetry s a
  if tries < regBits s 0x1400000 2 0 then
    { s1 with dma := { s1.dma with retries := s1.dma.retries ++ [⟨a, tries, some (s.gt + regBits s 0x1400000 15 8 * 1000), accessAddr s a⟩] } }
  else accessLost s1 a

/-- A read of local memory meets an uncorrectable word: a reservoir's copy is dropped, a home of T2 is recovered (08 R263, R273). -/
def badWord (s : State) (l : Option Nat) : State :=
  match l.bind (placeOf s) with
  | some (.t1 j o) => if dieUp s (8 + j) then t1DoubleBit s j o false false else s
  | some (.t2 p o) => if dieUp s (16 + p) then t2Uncorrectable s p o false else s
  | _ => s

/-- The bytes of a read enter a channel's buffer (10 R335). -/
def takeBytes (s : State) (n : Nat) (data : List Byte) : State :=
  noteSegs (clearRetry (modDma s n fun q => { q with data := q.data ++ data, readBy := hostBy s (bits (dmaCtl s n) 23 22) }) (.dmaRead (BitVec.ofNat 6 n)))

/-- What a completion of the tray fabric does to the channel that asked (10 R333, R336, R338): the line it wrote commits, the bytes of the
line it read enter its buffer; a refusal halts it, and a poison completion is a failed access. -/
def dmaAnswer (s : State) (n op addr st : Nat) (line : List Byte) : State :=
  let c := dmaOf s n
  let dst := dmaDst s n
  let at_ := dmaSrc s n + c.start + c.data.length
  let k := (addr - (dst - dst % 128)) / 128
  if op = 2 then
    if st = stOk then
      (if (c.st = .running || c.st = .halted) && decide (c.done ≤ k) && decide (k < c.done + 256) && !c.ahead.contains k then lineDone s n k else s)
    else if c.st ≠ .running then s
    else if st = stAddr || st = stDenied then haltDma s n (causeOf st) (dst + (lineSpan dst (dmaCount s n) k).1)
    else failAccess s (.dmaWrite (BitVec.ofNat 6 n) (BitVec.ofNat 32 k))
  else if c.st ≠ .running || at_ / 128 ≠ addr / 128 then s
  else if st = stOk then takeBytes s n ((line.drop (at_ % 128)).take (dmaCount s n - (c.start + c.data.length)))
  else if st = stAddr || st = stDenied then haltDma s n (causeOf st) at_
  else failAccess s (.dmaRead (BitVec.ofNat 6 n))

/-- ACCESS_FAILURE (10 R338, 09 R328): an access meets a bus error or a poison completion; an uncorrectable
local source is not retried.
PRESUMED: notes/assumptions/71. -/
def execAccessFailure (a : HubAccess) (uncorrectable : Bool) (s : State) : Out :=
  if inGap s a then .next s
  else if uncorrectable then
    let at_ := accessAddr s a
    match a with
    | .dmaRead n =>
      if (dmaOf s n.toNat).st = .running then .next (haltDma (badWord s (localOf s (bits (dmaCtl s n.toNat) 23 22) at_)) n.toNat 5 at_) else .next s
    | .engineRead e => .next (endEngine (badWord s (localOf s (regBits s (0x150100C + e.toNat * 0x40) 25 24) at_)) e.toNat 5)
    | _ => .next s
  else .next (failAccess s a)

/-- The reads of host memory that contexts and engines make now: the next descriptor, the data of one that waits, the next buffer entry,
and the next bytes of a scan of host memory (09 R310 to R319; 10 R333, R338). -/
def hostReads (s : State) : List HubAccess :=
  (s.ctxs.flatMap fun e =>
    let k := e.2
    let c := BitVec.ofNat 12 e.1
    if !(k.enable && k.enabled) || k.error then []
    else (if k.waiting.isNone && decide (k.sqHead ≠ k.sqTail) then [HubAccess.submission c] else []) ++
      (if k.waiting.any readsData then [HubAccess.data c] else []) ++ (if bufferIndex k ≠ k.rqTail then [HubAccess.bufferEntry c] else [])) ++
  ((s.dma.engines.filter fun e =>
    let v := regVal s (0x150100C + e.1 * 0x40)
    e.2.st = .running && !v.getLsbD 23 && decide (bits v 25 24 = 0)).map fun e => HubAccess.engineRead (BitVec.ofNat 4 e.1))

/-- A read that begins arms its timer of HOST_TMO_MS; one that ended has none (01 R28; 10 R338).
DEDUCED: notes/assumptions/121. -/
def armReads (s : State) : State :=
  let wait (a : HubAccess) : HostWait :=
    (s.dma.waits.find? fun w => w.access = a && w.addr = accessAddr s a).getD ⟨a, accessAddr s a, s.gt + regBits s 0x1400000 23 16 * 1000000⟩
  { s with dma := { s.dma with waits := ((hostReads s).filter fun a => !inGap s a).map wait } }

/-- The timer of a read of host memory, where it runs. -/
def waitOf (s : State) (a : HubAccess) : Option Nat :=
  (s.dma.waits.find? fun w => w.access = a && w.addr = accessAddr s a).map HostWait.due

/-- Whether a channel's host read has waited its time out (10 R338). -/
def dmaReadDue (s : State) : HubAccess → Bool
  | .dmaRead n => (match (dmaOf s n.toNat).readBy with | some t => ranOut s t && (dmaOf s n.toNat).st = .running | none => false)
  | _ => false

/-- A host read is waited for no longer. -/
def endReadWait (s : State) : HubAccess → State
  | .dmaRead n => modDma s n.toNat fun c => { c with readBy := none }
  | a => { s with dma := { s.dma with waits := s.dma.waits.filter fun w => w.access ≠ a } }

/-- HOST_COMPLETION_TIMEOUT (01 R28, R29; 10 R338): a host read's wait ends without a completion. -/
def execHostCompletionTimeout (a : HubAccess) (s : State) : Out :=
  .next (if inGap s a then s
    else if dmaReadDue s a || (waitOf s a).any (ranOut s) then failAccess (endReadWait s a) a
    else s)

/-- A completion that comes after the tick its read's timer ran out in finds the read failed (01 R28, R29; 10 R338). -/
def readLate (s : State) (a : HubAccess) : Bool := (waitOf s a).any fun t => decide (t < s.gt)

/-! ### Check-value engines (R352 to R360) -/

/-- The offset of an engine's register (10 R357). -/
def chkOff (e r : Nat) : Nat := 0x1501000 + e * 0x40 + r

/-- An engine. -/
def chkOf (s : State) (e : Nat) : ChkEngine := tabGet s.dma.engines {} e

/-- Changes an engine. -/
def modChk (s : State) (e : Nat) (f : ChkEngine → ChkEngine) : State := { s with dma := { s.dma with engines := tabMod s.dma.engines {} e f } }

/-- The width of a function (10 R352). -/
def polyWidth (p : Nat) : Nat := match p with | 2 => 64 | 3 => 16 | _ => 32

/-- The Init value of a function, in the order its register is held in (10 R352, R354). -/
def polyInit (p : Nat) : Nat := match p with | 2 => 0 | 3 => 0xFFFF | _ => 0xFFFFFFFF

/-- The register of a function after more bytes (10 R352, R354). -/
def polyRun (p v : Nat) (bs : List Byte) : Nat :=
  match p with
  | 0 => crcRefl 0x82F63B78 v bs
  | 1 => crcRefl 0xEDB88320 v bs
  | 2 => crcLeft 64 0x42F0E1EBA9EA3693 v bs
  | _ => crcLeft 16 0x1021 v bs

/-- RESULT from the register (10 R352, R354). -/
def polyOut (p v : Nat) : Nat := if p < 2 then v ^^^ 0xFFFFFFFF else v

/-- CHK_VALUE of an engine within its function's width (10 R354). -/
def chkValue (s : State) (e : Nat) : Nat := count64 s (chkOff e 0x10) % 2 ^ polyWidth (regBits s (chkOff e 0xC) 27 26)

/-- Stores CHK_VALUE. -/
def putValue (s : State) (e v : Nat) : State :=
  regPut (regPut s (chkOff e 0x10) (BitVec.ofNat 32 (v % 2 ^ 32))) (chkOff e 0x14) (BitVec.ofNat 32 (v / 2 ^ 32))

/-- CHK_GO (10 R353, R354, R358): the value written, with GO. -/
def execChkGo (e : BitVec 4) (r : Requester) (v : Word) (s : State) : Out :=
  let e := e.toNat
  if !coresMay r || (v.getLsbD 28 && r ≠ .secure) then .next (logRefused s r (chkOff e 0xC) v stDenied)
  else if (chkOf s e).st = .running then .next (logRefused s r (chkOff e 0xC) v stCtxState)
  else if 4095 < bits v 15 0 then .next (logRefused s r (chkOff e 0xC) v stRange)
  else
    let s1 := regPut s (chkOff e 0xC) (v &&& 0x1FBFFFFF#32)
    let p := bits v 27 26
    let s2 := if v.getLsbD 29 then putValue s1 e (polyInit p) else putValue s1 e (chkValue s1 e)
    let idleTap := v.getLsbD 23 && decide ((dmaOf s (bits v 21 16)).st = .idle)
    if regVal s (chkOff e 8) = 0#32 || (!v.getLsbD 23 && decide (bits v 25 24 = 3)) || idleTap then
      .next (modChk s2 e fun x => { x with st := .error, cause := 8, done := 0 })
    else .next (modChk s2 e fun x => { x with st := .running, cause := 0, done := 0, result := 0 })

/-- The bytes of a channel's source range, from an offset on, that have passed through the buffer (10 R353): those still there from it,
others from local memory by the channel's authority, or as given. -/
def tapBytes (s : State) (ch a n : Nat) (bs : List Byte) : Except (MemReq × Nat × Nat) (List Byte) :=
  let c := dmaOf s ch
  let v := dmaCtl s ch
  let who := actsAs s (v.getLsbD 28) (bits v 15 0)
  let m := min n ((if c.st = .done then dmaCount s ch else c.start + c.data.length) - a)
  if c.start ≤ a then .ok ((c.data.drop (a - c.start)).take m)
  else match localOf s (bits v 23 22) (dmaSrc s ch + a) with
    | some l => (localRead s who l m).mapError fun r => (who, r)
    | none => .ok (bs.take m)

/-- A scan that local memory refuses is recorded and ends its engine (08 R284, R285; 10 R353). -/
def refuseScan (s : State) (e : Nat) (r : MemReq × Nat × Nat) : State := endEngine (refuseAccess s r.1 r.2.2 r.2.1) e (causeOf r.2.1)

/-- The next bytes an engine consumes: a local scan's from memory, a tap's from its channel, others as given; none of host memory for a
disabled context (R333); none where the access is refused (10 R353). -/
def chkBytes (s : State) (e n : Nat) (bs : List Byte) : Except (MemReq × Nat × Nat) (List Byte) :=
  let v := regVal s (chkOff e 0xC)
  let a := count64 s (chkOff e 0) + (chkOf s e).done
  let who := actsAs s (v.getLsbD 28) (bits v 15 0)
  if v.getLsbD 23 then tapBytes s (bits v 21 16) a n bs
  else
    match localOf s (bits v 25 24) a with
    | some l => (localRead s who l n).mapError fun r => (who, r)
    | none => if bits v 25 24 = 0 && !(ctxOf s (bits v 15 0)).enabled then .ok [] else .ok (bs.take n)

/-- An engine consumes bytes. -/
def consume (s : State) (e : Nat) (bs : List Byte) : State :=
  let p := regBits s (chkOff e 0xC) 27 26
  modChk (putValue s e (polyRun p (chkValue s e) bs)) e fun x => { x with done := x.done + bs.length }

/-- CHK_STOP (10 R355): the engine stops after `n` bytes; one at its last byte is done. -/
def execChkStop (e : BitVec 4) (r : Requester) (n : Word) (bs : List Byte) (s : State) : Out :=
  let e := e.toNat
  if !coresMay r then .next (logRefused s r (chkOff e 0xC) 0x40000000#32 stDenied)
  else if (chkOf s e).st ≠ .running then .next s
  else
    let left := (regVal s (chkOff e 8)).toNat - (chkOf s e).done
    match chkBytes s e (min n.toNat left) bs with
    | .error c => .next (refuseScan s e c)
    | .ok data =>
      let s1 := consume s e data
      if data.length = left then .next (modChk s1 e fun x => { x with st := .done, result := polyOut (regBits s1 (chkOff e 0xC) 27 26) (chkValue s1 e) })
      else .next (modChk s1 e fun x => { x with st := .stopped })

/-- Whether an engine taps a channel that halted before this tick (10 R353, R356). -/
def tapDead (s : State) (e : Nat) : Bool :=
  let v := regVal s (chkOff e 0xC)
  let c := dmaOf s (bits v 21 16)
  v.getLsbD 23 && decide (c.st = .halted) && decide (c.haltAt ≠ s.gt)

/-- CHK_COMPLETE (10 R354): the engine consumes the bytes that are left, and RESULT is valid; a tap of a channel that
halted before ends with cause 9. -/
def execChkComplete (e : BitVec 4) (bs : List Byte) (s : State) : Out :=
  let e := e.toNat
  let v := regVal s (chkOff e 0xC)
  if (chkOf s e).st ≠ .running then .next s
  else if tapDead s e then .next (endEngine s e 9)
  else if readLate s (.engineRead (BitVec.ofNat 4 e)) then
    .next (failAccess (endReadWait s (.engineRead (BitVec.ofNat 4 e))) (.engineRead (BitVec.ofNat 4 e)))
  else
    let left := (regVal s (chkOff e 8)).toNat - (chkOf s e).done
    match chkBytes s e left bs with
    | .error c => .next (refuseScan s e c)
    | .ok data =>
      if data.length < left then .next (consume s e data)
      else
        let s1 := consume s e data
        .next (modChk s1 e fun x => { x with st := .done, result := polyOut (bits v 27 26) (chkValue s1 e) })

/-- The end of a tick at channels and engines: aborted channels halt (10 R342), taps of channels that halted before end, and bytes that
taps have consumed leave the buffers (R353). -/
def endDmaTick (s : State) : State :=
  let s0 := (s.dma.chans.filter fun e => e.2.stopping).foldl (fun t e => settleAbort t e.1) s
  let s1 := (s0.dma.chans.filter fun e => !e.2.data.isEmpty).foldl (fun t e => trimBuffer t e.1) s0
  (s1.dma.engines.filter fun e => e.2.st = .running && tapDead s1 e.1).foldl (fun t e => endEngine t e.1 9) s1

/-- The channels that a reset of a party halts (10 R340). -/
def resetDma (s : State) (p : Nat → Bool) : State :=
  (s.dma.chans.filter fun e => e.2.st = .running && p e.1).foldl (fun t e => haltDma t e.1 6 0) s

/-- Whether a channel's source or destination lies on a die (10 R340). -/
def touchesDie (s : State) (i n : Nat) : Bool :=
  let v := dmaCtl s n
  let on (space a : Nat) : Bool := match (localOf s space a).bind (placeOf s) with
    | some (.t2 p _) => decide (16 + p = i)
    | some (.t1 r _) => decide (8 + r = i)
    | some (.buf d _ _) => decide ((if d % 2 = 0 then d / 2 else upperDie (d / 2)) = i)
    | some (.t0 d _) => decide ((if d % 2 = 0 then d / 2 else upperDie (d / 2)) = i)
    | none => false
  on (bits v 23 22) (dmaSrc s n) || on (bits v 21 20) (dmaDst s n)

end Sys2Proof.Machine
end

