-- ==== Sys2Proof/Machine/HostRings.lean ====
section
/-!
DEFINITION. The commands of host rings, doorbells and result streams (09_host_rings.md) and of Formula
loading and binding (04_formulas_operations.md R109 to R112).
-/
namespace Sys2Proof.Machine

/-- A refused doorbell write is counted and reported (09 R298, R324). -/
def refuseDoorbell (s : State) (c arg v : Nat) : State :=
  event (modCtx s c fun k => { k with dbErr := satAdd 32 k.dbErr 1 }) c (evtEntry 0x07 arg stOk v)

/-- A doorbell write to a page (09 R297, R298): of 32 bits, to an enabled context, with an index inside
the ring; it then acts and the rings move. -/
def doorbell (s : State) (p : PageRef) (full : Bool) (v : Word) (arg : Nat) (log : Ctx → Nat) (act : Ctx → Nat → Ctx) : State :=
  match pageCtx s p with
  | none => s
  | some c =>
    let k := ctxOf s c
    if !full || !k.enabled || !k.enable then s
    else
      let n := bits v 15 0
      if ringSize (log k) ≤ n then settle (refuseDoorbell s c arg n) c
      else settle (setCtx s c (act k n)) c

/-- CTX_SQ_TAIL (09 R297, R298). -/
def execCtxSqTail (p : PageRef) (full : Bool) (v : Word) (s : State) : Out :=
  .next (doorbell s p full v 1 Ctx.sqLog fun k n => { k with sqTail := n })

/-- CTX_CQ_HEAD (09 R297, R298, R318). -/
def execCtxCqHead (p : PageRef) (full : Bool) (v : Word) (s : State) : Out :=
  .next (doorbell s p full v 2 Ctx.cqLog fun k n => { k with cqHead := n })

/-- A buffer posted after the tick its frame's hold timer ran out in finds the frame truncated (01 R28; 09 R323). -/
def holdPassed (s : State) (p : PageRef) : State :=
  match pageCtx s p with
  | some c => (match (ctxOf s c).holdTimer with
    | some t => if t < s.gt then settle (truncateOutput s c stTruncated) c else s
    | none => s)
  | none => s

/-- CTX_RQ_TAIL (09 R297, R298, R323): a write that posts a buffer lets a starved frame go on. -/
def execCtxRqTail (p : PageRef) (full : Bool) (v : Word) (s : State) : Out :=
  .next (doorbell (holdPassed s p) p full v 3 Ctx.rqLog fun k n =>
    { k with rqTail := n, holdTimer := if k.buffers = [] && k.rqHead = n then k.holdTimer else none })

/-- CTX_OUT_ACK (09 R324). -/
def execCtxOutAck (p : PageRef) (full : Bool) (v : Word) (s : State) : Out :=
  match pageCtx s p with
  | none => .next s
  | some c =>
    let k := ctxOf s c
    if !full || !k.enabled || !k.enable then .next s
    else if k.stopped = some v.toNat then .next (settle (setCtx s c { k with stopped := none }) c)
    else .next (settle (refuseDoorbell s c 4 v.toNat) c)

/-- The checks of an enable (09 R305; 12_mirrored_pairs.md R414, R416): the status of the first that
fails. -/
def enableRefusal (s : State) (k : Ctx) (v : Word) : Option Nat :=
  let bad (n : Nat) : Bool := decide (n < 4) || decide (16 < n)
  let pairOn := (regVal s 0x3400000).getLsbD 31
  let noRoom := pairOn && decide (regBits s 0x3400004 31 20 = 0) && (k.mirror || k.shadow)
  firstFail [(stRange, bad k.sqLog || bad k.cqLog || bad k.rqLog), (stBadVersion, decide (bits v 23 20 ≠ 1)),
    (stCtxState, k.prov.isNone || (k.mirror && k.shadow) || noRoom || !bootReady s)]

/-- A seed drawn at enable where the host wrote zero (02_arithmetic.md R64). -/
def drawnSeed (s : State) (seed : Nat) : Nat × State :=
  if seed = 0 then
    let d := (Config.seedDraw s.free).toNat
    (if d = 0 then 1 else d, { s with free := s.free + 1 })
  else (seed, s)

/-- Whether a suspended session may resume on this enable (15_reset_boot.md R481): in time, with the same
VER, PASID_EN and PASID, and, if mirrored, while this device holds its set. -/
def mayResume (s : State) (k : Ctx) (ver pasid : Nat) (pe : Bool) : Bool :=
  (match k.suspended with | some t => decide (s.gt < t) | none => false) && decide (k.suspCheck = (ver, pe, pasid)) &&
    (!k.mirror || !s.pair.paired || (s.pair.sets.getD (s.rst.trayPos % 2) {}).held)

/-- Enables a context (09 R305): heads, tails, phase and counters return to their start, a zero seed is
drawn, a suspended session resumes or is freed. -/
def enableCtx (s : State) (c : Nat) (v : Word) : State :=
  let k := ctxOf s c
  if k.enable || k.enabled then s
  else
    match enableRefusal s k v with
    | some st => setCtx s c { k with errCode := st, ver := bits v 23 20, pasid := bits v 19 0, pasidEn := v.getLsbD 30 }
    | none =>
      let ver := bits v 23 20
      let pasid := bits v 19 0
      let pe := v.getLsbD 30
      if k.shadow then setCtx s c { k with enable := true, standby := true, ver := ver, pasid := pasid, pasidEn := pe, errCode := 0 }
      else
        let resume := mayResume s k ver pasid pe
        let s0 := if resume then s else releaseSession s c
        let k0 := ctxOf s0 c
        let sd := drawnSeed s0 k0.seed
        setCtx { sd.2 with flc := { sd.2.flc with starts := sd.2.flc.starts ++ [c] } } c { k0 with
          enable := true, enabled := true, ver := ver, pasid := pasid, pasidEn := pe, errCode := 0, error := false, noWrites := false
          seed := sd.1, sqHead := 0, sqTail := 0, cqHead := 0, cqTail := 0, cqPhase := true, rqHead := 0, rqTail := 0, frameSeq := 0
          trunc := 0, dbErr := 0, evtLost := 0, lostMark := false, flush := 0, truncTerms := 0, reissue := 0, special := 0
          events := [], queue := [], waiting := none, buffers := [], output := none, holdTimer := none, stopped := none
          frameHeld := false, unsignalled := 0, coalesce := none, suspended := none
          session := k0.session.map fun x => { x with seed := sd.1 } }

/-- CONTEXT_ENABLE (09 R299, R305; 16 R516): ignored while the context is enabled or a disable runs. -/
def execContextEnable (p : PageRef) (v : Word) (s : State) : Out :=
  match pageCtx s p with
  | none => .next s
  | some c => .next (enableCtx s c v)

/-- Disables a context (09 R306, 10_dma_check.md R342, 12_mirrored_pairs.md R394): reading stops, its descriptor channels abort, requests that have not run end, and what a running
step still does is discarded at its boundary. -/
def disableCtx (s : State) (c : Nat) : State :=
  let k := ctxOf s c
  if !k.enable then s
  else if k.standby then setCtx s c { k with enable := false, standby := false }
  else
    let s1 := (s.dma.chans.filter fun e => decide (e.1 < 48) && decide (bits e.2.ctl 15 0 = c)).foldl (fun t e => abortDma t e.1) s
    finishDisable (setCtx s1 c { k with enable := false, waiting := none, holdTimer := none }) c

/-- CONTEXT_DISABLE (09 R299, R306): a write of ENABLE = 0 to a context whose ENABLE reads 0 sets VER, PASID and PASID_EN. -/
def execContextDisable (p : PageRef) (v : Word) (s : State) : Out :=
  match pageCtx s p with
  | none => .next s
  | some c =>
    let k := ctxOf s c
    if k.enable then .next (disableCtx s c)
    else .next (setCtx s c { k with ver := bits v 23 20, pasid := bits v 19 0, pasidEn := v.getLsbD 30 })

/-- A write of a CTX_VFMAP entry (09 R294): no effect, and logged, in the listed states. -/
def writeVfmap (s : State) (r : Requester) (v i : Nat) (w : Word) : State :=
  let off := vfmapOff v i
  let named := bits w 15 0
  let old := slotCtx s v i
  let live (c : Nat) : Bool := (ctxOf s c).enable || (ctxOf s c).enabled
  let elsewhere := s.rf.vals.any fun e => decide (0x804000 ≤ e.1) && decide (e.1 < 0x807F00) && decide (e.1 ≠ off) &&
    e.2.getLsbD 31 && decide (bits e.2 15 0 = named)
  match firstFail [(stRange, decide (4095 < named)),
      (stCtxState, live named || (match old with | some c => live c | none => false)),
      (stCtxState, elsewhere), (stDenied, tdiLocked s v)] with
  | some st => logRefused s r off w st
  | none => regPut s off (w &&& 0x8000FFFF#32)

/-- CTX_VFMAP (09 R294): VF 0 has no entry, so a write that names it is a write to no register. -/
def execCtxVfmap (r : Requester) (v : BitVec 6) (i : BitVec 6) (w : Word) (s : State) : Out :=
  .next (if v = 0#6 || (r = .host && barsOff s) then s else writeVfmap s r v.toNat i.toNat w)

/-- A descriptor read from a context's submission head goes on to its checks (09 R312): it waits where no
slot is free, a fence holds it, or a management descriptor runs. -/
def arrive (s : State) (c : Nat) (d : Desc) : State :=
  let k := ctxOf s c
  if !k.enable || !k.enabled || k.error || k.waiting.isSome || k.sqHead = k.sqTail then s
  else settle (setCtx s c { k with waiting := some d }) c

/-- REQUEST (09 R312, R313). -/
def execRequest (c : BitVec 12) (h : DescHead) (b : ReqBody) (s : State) : Out := .next (arrive s c.toNat ⟨h, .request b⟩)
/-- CANCEL (09 R313). -/
def execCancel (c : BitVec 12) (h : DescHead) (target : BitVec 16) (s : State) : Out := .next (arrive s c.toNat ⟨h, .cancel target⟩)
/-- NOP (09 R308). -/
def execNop (c : BitVec 12) (h : DescHead) (s : State) : Out := .next (arrive s c.toNat ⟨h, .nop⟩)
/-- FORMULA_LOAD (04 R109, 09 R311). -/
def execFormulaLoad (c : BitVec 12) (h : DescHead) (a : BitVec 64) (n : BitVec 64) (s : State) : Out :=
  .next (arrive s c.toNat ⟨h, .load a n⟩)
/-- WEIGHT_CHUNK (04 R110, 09 R311). -/
def execWeightChunk (c : BitVec 12) (h : DescHead) (a : BitVec 64) (n : BitVec 32) (hd : BitVec 8) (s : State) : Out :=
  .next (arrive s c.toNat ⟨h, .chunk a n hd⟩)
/-- UNLOAD (04 R112). -/
def execUnload (c : BitVec 12) (h : DescHead) (hd : BitVec 8) (s : State) : Out := .next (arrive s c.toNat ⟨h, .unload hd⟩)
/-- BIND (04 R111, 09 R311). -/
def execBind (c : BitVec 12) (h : DescHead) (hd : BitVec 8) (sv : Bool) (slot : BitVec 8) (s : State) : Out :=
  .next (arrive s c.toNat ⟨h, .bind hd sv slot⟩)
/-- UNBIND (04 R111, 09 R308). -/
def execUnbind (c : BitVec 12) (h : DescHead) (s : State) : Out := .next (arrive s c.toNat ⟨h, .unbind⟩)
/-- PIN (05_placement.md R157). -/
def execPin (c : BitVec 12) (h : DescHead) (b : PinBody) (s : State) : Out := .next (arrive s c.toNat ⟨h, .pin b⟩)

/-- The host bytes that a context's open management descriptor names (04 R109, R110): where they lie and how many. -/
def namedData (s : State) (c : Nat) : Option (Nat × Nat) :=
  match mgmtWork (ctxOf s c) with
  | some (.loading a n) => some (a, n)
  | some (.chunk a j h) => ((tabFind s.insts h).bind fun i => i.f.chunks[j]?).map fun d => (a, d.length)
  | _ => none

/-- The channel of the descriptor pool that reads a context's descriptor (10 R332). -/
def serving (s : State) (c : Nat) : Option Nat := ((s.dma.chans.find? fun e => decide (e.1 < 48) && e.2.serves = some c).map Prod.fst)

/-- A context's open descriptor takes a free channel of the pool for the data it names, and waits while there is none (10 R331, R332).
DEDUCED: notes/assumptions/119. -/
def loadChannel (s : State) (c : Nat) : State :=
  match namedData s c, serving s c, (List.range 48).find? fun n => (dmaOf s n).st ≠ .running && (dmaOf s n).serves.isNone with
  | some (a, len), none, some n =>
    let t := dmaGo { s with free := s.free + 1 } n (.loader (BitVec.ofNat 64 a) (BitVec.ofNat 64 (Config.loadAt s.free).toNat) (BitVec.ofNat 32 len))
      (BitVec.ofNat 32 (2 ^ 20 + c)) false
    if (dmaOf t n).st = .running then modDma t n fun q => { q with serves := some c } else t
  | _, _, _ => s

/-- Descriptors that wait for a channel take one, in ascending context ID (10 R332); a channel whose descriptor has ended is free.
DEDUCED: notes/assumptions/119. -/
def loadChannels (s : State) : State :=
  let t := (s.dma.chans.filter fun e => e.2.serves.any fun c => (namedData s c).isNone).foldl (fun t e => modDma t e.1 fun q => { q with serves := none }) s
  (t.ctxs.map Prod.fst).foldl loadChannel t

/-- A channel has copied all that its descriptor names, and is free (10 R332, R337, R350). -/
def endLoad (s : State) (n : Nat) : State :=
  let c := dmaOf s n
  let dst := dmaDst s n
  let cnt := dmaCount s n
  bump64 (modDma s n fun q => { q with
    st := .done, cause := 0, done := lineCount dst cnt, ahead := [], start := cnt, data := [], readBy := none, stopping := false, serves := none })
    0x1400038 (if c.st = .done then 0 else cnt - (lineSpan dst cnt c.done).1)

/-- CORE_READ_DONE (04 R109; 10 R332): the channel has brought the core, whose checks are made at the descriptor's turn. -/
def execCoreReadDone (c : BitVec 12) (core : List Byte) (s : State) : Out :=
  let c := c.toNat
  match mgmtWork (ctxOf s c), serving s c with
  | some (.loading a n), some m => .next (settle (setWork (endLoad s m) c (.coreRead a core n)) c)
  | _, _ => .next s

/-- CHUNK_VERIFIED (04 R110; 10 R332): the channel has brought the chunk's bytes, and it commits or fails at the descriptor's turn. -/
def execChunkVerified (c : BitVec 12) (data : List Byte) (s : State) : Out :=
  let c := c.toNat
  match mgmtWork (ctxOf s c), serving s c with
  | some (.chunk _ j h), some m => .next (settle (setWork (endLoad s m) c (.chunkRead data j h)) c)
  | _, _ => .next s

/-- The tray-wide summaries of an instance's SHARD tensors: the maximum of its own and those the named devices gave, by tensor * 256 +
adapter slot (04 R131). -/
def shardSums (i : Inst) (sums : List (Nat × List Summary)) : List (Nat × List Summary) :=
  (i.f.tensors.filter TensorDecl.shard).flatMap fun d =>
    ((List.range (if d.role = .adapter then 256 else 1)).filterMap fun slot => (weightRows i d slot).map fun rows =>
      let own := ownSummaries d rows
      let got := tabGet sums [] (d.id * 256 + slot)
      (d.id * 256 + slot, (List.range own.length).map fun e => joinSummary (own.getD e ⟨true, 0⟩) (got.getD e ⟨true, 0⟩)))

/-- SUMMARY_EXCHANGE_DONE (04 R110, R131): the SHARD tensors take the tray-wide summaries. -/
def execSummaryExchangeDone (hd : BitVec 6) (sums : List (Nat × List Summary)) (s : State) : Out :=
  match tabFind s.insts hd.toNat with
  | some i =>
    if i.st = .loading && i.exchange && decide (i.chunks.length = i.f.chunks.length) then
      .next (checkReady { s with insts := tabPut s.insts hd.toNat { i with exchange := false, shards := shardSums i sums } } hd.toNat)
    else .next s
  | none => .next s

/-- UNLOAD_RELEASE_DONE (04 R112): the space of an UNLOADING instance is free and its handle with it; its granules are zero-pending (08
R287). -/
def execUnloadReleaseDone (hd : BitVec 6) (s : State) : Out :=
  let h := hd.toNat
  match tabFind s.insts h with
  | some i =>
    if i.st = .unloading then
      let t := modMem (dropTilings s i.dom h) fun m => markPending m fun g => decide (Config.granuleInst g = some h)
      .next { t with
        insts := tabDel t.insts h
        plc := { t.plc with
          units := t.plc.units.filter fun u => !((u.key.kind = .granule || u.key.kind = .expert) && u.key.owner = h)
          pools := t.plc.pools.map fun p => if p.inst = h then ⟨64, 0, 0, 0, []⟩ else p } }
    else .next s
  | none => .next s

/-- A step's results are released for writing (05 R141; 09 R322) once its home writes and any mirror
acknowledgement are complete. -/
def tryRelease (s : State) (c : Nat) : State :=
  settle (modCtx s c fun k => { k with output := k.output.map fun o => { o with released := o.released || (o.homes && o.mirror) } }) c

/-- RESULT_RELEASE (05 R141): the home writes of the step are complete. -/
def execResultRelease (c : BitVec 12) (s : State) : Out :=
  .next (tryRelease (modCtx s c.toNat fun k => { k with output := k.output.map fun o => { o with homes := true } }) c.toNat)

/-- HOLD_TIMER_EXPIRY (09 R323). -/
def execHoldTimerExpiry (c : BitVec 12) (s : State) : Out :=
  let k := ctxOf s c.toNat
  match k.holdTimer with
  | some t => if ranOut s t then .next (settle (truncateOutput s c.toNat stTruncated) c.toNat) else .next s
  | none => .next s

/-- A request whose deadline has run out is to end with ST_DEADLINE (09 R313). -/
def markDue (s : State) (a : Adm) : Adm :=
  if openRequest a && (match a.deadline with | some t => ranOut s t | none => false) then { endLater stDeadline a with deadline := none } else a

/-- The requests of a queue whose deadlines have run out; the running one of a context held for space does not time out (05 R161). -/
def markDues (s : State) (held : Bool) : List Adm → List Adm
  | [] => []
  | a :: as => if openRequest a then (if held then a else markDue s a) :: as.map (markDue s) else a :: markDues s held as

/-- DEADLINE_EXPIRY (09 R313): a request that runs a step ends at its boundary; one that has not ends at
once, in its order. -/
def execDeadlineExpiry (c : BitVec 12) (s : State) : Out :=
  .next (settle (modCtx s c.toNat fun k => { k with queue := markDues s k.space.isSome k.queue }) c.toNat)

/-- COALESCE_TIMER_EXPIRY (09 R302, R326): by CTX_IRQ as of the last entry written. -/
def execCoalesceTimerExpiry (c : BitVec 12) (s : State) : Out :=
  let k := ctxOf s c.toNat
  match k.coalesce with
  | some t =>
    if !ranOut s t then .next s
    else
      let s1 := setCtx s c.toNat { k with coalesce := none, unsignalled := 0 }
      .next (if k.irqNow.getLsbD 31 then sendMsix s1 c.toNat else s1)
  | none => .next s

/-- HOST_READ_COMPLETION (09 R312, R319): the bytes read enter what the device knows of host memory, a
descriptor goes on to its checks, a buffer entry joins the buffers read; one that comes too late finds its read failed (10 R338).
DEDUCED: notes/assumptions/121. -/
def execHostReadCompletion (c : BitVec 12) (w : HostRead) (bs : List Byte) (s : State) : Out :=
  let a : HubAccess := match w with | .descriptor => .submission c | .buffer => .bufferEntry c | .data _ => .data c
  let c := c.toNat
  let k := ctxOf s c
  let piece : Bool := match w with | .data _ => true | _ => false
  if !piece && readLate s a then .next (failAccess (endReadWait s a) a)
  else match w with
  | .descriptor => .next (arrive (hostWrite s (spaceOf s c) (k.sqBase + 64 * k.sqHead) (bs.take 64)) c (descOf bs))
  | .buffer =>
    let idx := bufferIndex k
    if !k.enabled || k.error || idx = k.rqTail then .next s
    else .next (settle (setCtx (hostWrite s (spaceOf s c) (k.rqBase + 16 * idx) (bs.take 16)) c
      { k with buffers := k.buffers ++ [bufOf bs] }) c)
  | .data a => .next (hostWrite s (spaceOf s c) a.toNat bs)

end Sys2Proof.Machine
end

