-- ==== Sys2Proof/Machine/Fabric.lean ====
section
/-!
DEFINITION. Links, requests, targets and combining of the tray fabric (11_tray_fabric.md R361 to R379).
-/
namespace Sys2Proof.Machine

/-- Changes the FAB block. -/
def modFab (s : State) (f : Fab → Fab) : State := { s with fab := f s.fab }

/-- A link. -/
def linkOf (s : State) (b j : Nat) : Link := tabGet s.fab.links {} (b * 8 + j)

/-- Changes a link. -/
def modLink (s : State) (b j : Nat) (f : Link → Link) : State := modFab s fun x => { x with links := tabMod x.links {} (b * 8 + j) f }

/-- A peer. -/
def peerOf (s : State) (d : Nat) : Peer := tabGet s.fab.peers {} d

/-- This device's position (11 R362). -/
def myPos (s : State) : Nat := s.rst.trayPos

/-- Whether a link carries packets (11 R364, R368). -/
def linkUp (s : State) (b j : Nat) : Bool := (linkOf s b j).st = .up || (linkOf s b j).st = .narrowed

/-- The links of a bundle in service. -/
def upLinks (s : State) (b : Nat) : List (Nat × Nat) := ((List.range 8).filter (linkUp s b)).map fun j => (b, j)

/-- The bundle that reaches a device of the tray (11 R362, R369). -/
def bundleTo (s : State) (d : Nat) : Nat := (myPos s ^^^ d) - 1

/-- The links that carry a packet to a device: mirror traffic, which carries a claim, takes L7 and L8 to the
partner, or L0 while both are down (11 R362; 12_mirrored_pairs.md R395).
DEDUCED: notes/assumptions/32. -/
def linksTo (s : State) (d claim : Nat) : List (Nat × Nat) :=
  let own := upLinks s (bundleTo s d)
  if claim ≠ 0 ∧ d = partnerOf s then
    let m := upLinks s 7 ++ upLinks s 8
    if m = [] then own else m
  else own

/-- The link of a line among links in service (11 R369).
DEDUCED: notes/assumptions/32. -/
def pickLink (ls : List (Nat × Nat)) (addr : Nat) : Option (Nat × Nat) := ls[addr / 128 % 65536 % ls.length]?

/-- The route to a peer in force: a change takes effect from the next tick (11 R376, R379).
DEDUCED: notes/assumptions/33. -/
def routeNow (s : State) (d : Nat) : PeerState × Nat :=
  let p := peerOf s d
  if p.since = some s.gt then (p.oldSt, p.oldVia) else (p.st, p.via)

/-- The link and detour device of a request to a peer; none where it has no route. A line with requests in flight
stays on their link while it is in service (11 R369). -/
def pathFor (s : State) (d addr claim : Nat) : Option (Nat × Nat × Option Nat) :=
  let fresh : Option (Nat × Nat × Option Nat) := match routeNow s d with
    | (.direct, _) => (pickLink (linksTo s d claim) addr).map fun l => (l.1, l.2, none)
    | (.detour, e) => (pickLink (upLinks s (bundleTo s e)) addr).map fun l => (l.1, l.2, some e)
    | _ => none
  match fresh, s.fab.reqs.find? fun r => r.dev = d && r.args.addr.toNat / 128 = addr / 128 with
  | some p, some r => if linkUp s r.bundle r.link then some (r.bundle, r.link, r.via) else some p
  | p, _ => p

/-- A packet goes out on a link (11 R370, R373). -/
def emit (b j : Nat) (s : State) (p : TxPacket) : State :=
  send s (match p.body with
    | .request op addr claim m data x y => .fabReq b j p.peer op p.tag addr claim m data x y
    | .completion st result line => .fabDone b j p.peer p.tag st result line)

/-- A packet enters a link's next codeword and its replay buffer of 256 (11 R366).
DESIGN CHOICE: notes/assumptions/31. -/
def transmit (s : State) (b j peer tag addr : Nat) (body : TxBody) : State :=
  let p : TxPacket := ⟨(linkOf s b j).seq, peer, tag, addr, body⟩
  emit b j (modLink s b j fun l => { l with seq := (l.seq + 1) % 65536, tx := (l.tx ++ [p]).drop (l.tx.length + 1 - 256) }) p

/-- A request as its packet carries it (11 R370). -/
def requestBody (a : FabArgs) : TxBody := .request a.op.toNat a.addr.toNat a.claim.toNat a.mask a.data a.operand a.compare

/-! ### Poison (R377, R378) -/

/-- The line and the word a poison completion delivers. -/
def poisonLine : List Byte := List.replicate 128 0xDB#8
def poisonWord : Nat := 0xDBDBDBDBDBDBDBDB

/-- A completion is delivered to its requester; a DMA channel acts on it (10 R333, R338). -/
def handOver (s : State) (a : FabArgs) (who : FabWho) (st result : Nat) (combined poison : Bool) (line : List Byte) : State :=
  let t := send s (.delivered who st result combined poison line)
  match who with
  | .dma n => dmaAnswer t n.toNat a.op.toNat a.addr.toNat st line
  | _ => t

/-- One poison completion: counted, recorded with requester, target and address, delivered.
DEDUCED: notes/assumptions/27. -/
def deliverPoison (s : State) (a : FabArgs) (who : FabWho) (combined : Bool) : State :=
  let s1 := bump s 0x3000058 1
  let s2 := fault s1 { cls := 0x11, unit := unitId 0x0B (a.addr.toNat / 2 ^ 45), outcome := 6, cause := stPoison,
                       addr := myPos s * 2 ^ 48 + a.addr.toNat, detail := a.ctx.toNat }
  handOver s2 a who stPoison (if 0x10 ≤ a.op.toNat then poisonWord else 0) combined true (if a.op.toNat = 1 then poisonLine else [])

/-! ### Requests (R369, R374, R375) -/

/-- The result of each member of a batch whose execution found `v` (11 R375). -/
def batchResults : Nat → List (FabWho × BitVec 64) → List (FabWho × Nat)
  | _, [] => []
  | v, m :: ms => (m.1, v % 2 ^ 64) :: batchResults ((v + m.2.toNat) % 2 ^ 64) ms

/-- Puts a request in flight over a path. -/
def issue (s : State) (a : FabArgs) (members : List (FabWho × BitVec 64)) (p : Nat × Nat × Option Nat) : State :=
  let d := a.addr.toNat / 2 ^ 45
  let s1 := transmit s p.1 p.2.1 (p.2.2.getD d) a.tag.toNat a.addr.toNat (requestBody a)
  modFab s1 fun x => { x with reqs := x.reqs ++ [{ dev := d, args := a, bundle := p.1, link := p.2.1, via := p.2.2, due := s.gt + 12000, members := members }] }

/-- Sends a request, or completes it poisoned where its target has no route (11 R377). -/
def issueOrPoison (s : State) (a : FabArgs) (members : List (FabWho × BitVec 64)) : State :=
  match pathFor s (a.addr.toNat / 2 ^ 45) a.addr.toNat a.claim.toNat with
  | some p => issue s a members p
  | none =>
    if members = [] then deliverPoison s a a.who false
    else members.foldl (fun t m => deliverPoison t a m.1 (1 < members.length)) s

/-- Whether two adds may combine: the same word and domain (11 R375). -/
def sameWord (a b : FabArgs) : Bool := a.addr = b.addr && a.dom = b.dom && a.dom.isSome

/-- Whether an add to the word is in flight. -/
def addInFlight (s : State) (a : FabArgs) : Bool := s.fab.reqs.any fun r => r.args.op = 0x10#6 && sameWord r.args a

/-- Takes the first batch of a word away, or leaves of it what is given. -/
def dropBatch (a : FabArgs) (left : List AddBatch) : List AddBatch → List AddBatch
  | [] => []
  | b :: bs => if sameWord b.first a then left ++ bs else b :: dropBatch a left bs

/-- The adds of a batch, in order. -/
def AddBatch.adds (b : AddBatch) : List FabArgs := b.first :: b.rest

/-- The adds of a batch that may be sent now: one that reached the switch in this tick goes with the next batch (11 R379). -/
def AddBatch.ready (b : AddBatch) (gt : Nat) : List FabArgs := b.adds.take (b.adds.length - (if b.tick = gt then b.fresh else 0))

/-- What stays of a batch when its first `n` adds are sent. -/
def AddBatch.left (b : AddBatch) (n : Nat) : List AddBatch :=
  match b.adds.drop n with
  | [] => []
  | a :: as => [{ b with first := a, rest := as }]

/-- Sends the next held batch for a word once no add to it is in flight (11 R375, R379); one that completes poisoned at
once lets the next follow.
DEDUCED: notes/assumptions/34. -/
def launch : Nat → State → FabArgs → State
  | 0, s, _ => s
  | fuel + 1, s, a =>
    if addInFlight s a then s
    else match s.fab.batches.find? fun b => sameWord b.first a with
      | none => s
      | some b =>
        let go := b.ready s.gt
        if go = [] then s
        else
          let sum := go.foldl (fun t m => t + m.operand) 0#64
          let s1 := modFab s fun x => { x with batches := dropBatch a (b.left go.length) x.batches }
          launch fuel (issueOrPoison s1 { b.first with operand := sum } (go.map fun m => (m.who, m.operand))) a

/-- Batches whose word has no add in flight are sent: those that waited for the next tick (11 R375, R379). -/
def launchAll (s : State) : State := s.fab.batches.foldl (fun t b => launch (t.fab.batches.length + 1) t b.first) s

/-- A write or atomic to a line is issued: reads in flight take no more joiners, held batches of other requests to
the line are closed (11 R374, R375). -/
def noteWrite (s : State) (a : FabArgs) : State :=
  if a.op.toNat = 1 then s
  else
    let line (x : FabArgs) : Bool := x.addr.toNat / 128 = a.addr.toNat / 128
    modFab s fun x => { x with
      reqs := x.reqs.map fun r => if line r.args then { r with dirty := true } else r
      fresh := x.fresh.map fun q => if line q.req.args then { q with req := { q.req with dirty := true } } else q
      batches := x.batches.map fun b => if line b.first && !(a.op = 0x10#6 && sameWord b.first a) then { b with closed := true } else b }

/-- Holds an add in the open batch of its word, or opens one (11 R375).
DEDUCED: notes/assumptions/34. -/
def holdAdd (s : State) (a : FabArgs) : State :=
  let open_ (b : AddBatch) : Bool := sameWord b.first a && !b.closed && decide (b.adds.length < 64)
  if s.fab.batches.any open_ then
    bump (modFab s fun x => { x with batches := x.batches.map fun b => if open_ b then
      { b with rest := b.rest ++ [a], tick := s.gt, fresh := (if b.tick = s.gt then b.fresh else 0) + 1 } else b }) 0x3000054 1
  else modFab s fun x => { x with batches := x.batches ++ [⟨a, [], false, s.gt, 1⟩] }

/-- Whether a tag is not to be used for a target yet (11 R367). -/
def tagBusy (s : State) (d tag : Nat) : Bool :=
  (s.fab.reqs.any fun r => r.dev = d && r.args.tag.toNat = tag) ||
    (s.fab.batches.any fun b => b.first.addr.toNat / 2 ^ 45 = d && b.first.tag.toNat = tag) ||
    s.fab.done.any fun t => t.1 = d && t.2.1 = tag && decide (s.gt < t.2.2 + 8000)

/-- Whether a read may join one that is, or in this tick was, outstanding (11 R374, R379). -/
def mayJoin (r : FabReq) (a : FabArgs) : Bool :=
  r.args.op = 0x01#6 && r.args.addr.toNat / 128 = a.addr.toNat / 128 && r.args.dom = a.dom && a.dom.isSome && !r.dirty && decide (r.joiners.length < 32)

/-- FABRIC_REQUEST_SEND (11 R369, R374, R375, R377): a read that meets the completion of the tick of one it would join receives it (R379).
DEDUCED: notes/assumptions/34. -/
def execFabricRequestSend (a : FabArgs) (s : State) : Out :=
  let d := a.addr.toNat / 2 ^ 45
  if d = myPos s || tagBusy s d a.tag.toNat then .next s
  else
    let cfg := regVal s 0x3000004
    let combine := a.op = 0x01#6 && cfg.getLsbD 0
    if combine && s.fab.reqs.any (mayJoin · a) then
      .next (bump (modFab s fun x => { x with reqs := modFirstReq (mayJoin · a) (fun r => { r with joiners := r.joiners ++ [a.who] }) x.reqs }) 0x3000050 1)
    else match (if combine then s.fab.fresh.find? fun q => decide (q.at_ = s.gt) && mayJoin q.req a else none) with
    | some q =>
      let s1 := modFab s fun x => { x with fresh := x.fresh.map fun p => if p = q then { p with req := { p.req with joiners := p.req.joiners ++ [a.who] } } else p }
      .next (bump (handOver s1 a a.who q.status 0 true false q.line) 0x3000050 1)
    | none =>
      let held := a.op = 0x10#6 && cfg.getLsbD 1 && a.dom.isSome &&
        (addInFlight s a || s.fab.batches.any fun b => sameWord b.first a)
      let s1 := noteWrite s a
      if held then .next (holdAdd s1 a) else .next (issueOrPoison s1 a [])
where
  /-- Changes the first request that satisfies a test. -/
  modFirstReq (p : FabReq → Bool) (f : FabReq → FabReq) : List FabReq → List FabReq
    | [] => []
    | r :: rs => if p r then f r :: rs else r :: modFirstReq p f rs

/-- Whether a request is a write of the mirror to the pair partner (12_mirrored_pairs.md R395, R405). -/
def mirrorWrite (s : State) (r : FabReq) : Bool := decide (r.args.claim ≠ 0) && decide (r.dev = partnerOf s)

/-- A request leaves the table: its tag rests, and the next batch of its word may go (11 R367, R375). -/
def retireReq (s : State) (r : FabReq) : State :=
  let s1 := modFab s fun x => { x with
    reqs := x.reqs.filter fun q => !(q.dev = r.dev && q.args.tag = r.args.tag)
    done := (x.done.filter fun t => decide (s.gt < t.2.2 + 8000)) ++ [(r.dev, r.args.tag.toNat, s.gt)] }
  launch (s1.fab.batches.length + 1) s1 r.args

/-- Delivers a completion to its request, its joiners or the members of its batch (11 R373 to R375). -/
def deliverAll (s : State) (r : FabReq) (st result : Nat) (line : List Byte) : State :=
  let s := if mirrorWrite s r then modFab s fun x => { x with mirrorDead := false } else s
  if r.members = [] then
    let s1 := modFab s fun x => { x with fresh := (x.fresh.filter fun q => decide (q.at_ = s.gt)) ++ (if r.args.op = 0x01#6 then [⟨s.gt, r, st, line⟩] else []) }
    (r.joiners).foldl (fun t w => handOver t r.args w st result true false line) (handOver s1 r.args r.args.who st result false false line)
  else
    (batchResults result r.members).foldl (fun t m => handOver t r.args m.1 st (if st = stOk then m.2 else 0) (1 < r.members.length) false line) s

/-- A request completes poisoned (11 R377, R378). -/
def poisonReq (s : State) (r : FabReq) : State :=
  let s := if mirrorWrite s r then modFab s fun x => { x with mirrorDead := true } else s
  let s1 :=
    if r.members = [] then (r.joiners).foldl (fun t w => deliverPoison t r.args w true) (deliverPoison s r.args r.args.who false)
    else r.members.foldl (fun t m => deliverPoison t r.args m.1 (1 < r.members.length)) s
  retireReq (modFab s1 fun x => { x with poisoned := (x.poisoned.filter fun p => p ≠ (r.dev, r.args.tag.toNat)) ++ [(r.dev, r.args.tag.toNat)] }) r

/-- Requests in flight that satisfy a test complete poisoned. -/
def poisonWhere (s : State) (p : FabReq → Bool) : State := (s.fab.reqs.filter p).foldl poisonReq s

/-- REQUEST_POISON_TIMEOUT (11 R377): a request's timer of 12,000 ticks expires. -/
def execRequestPoisonTimeout (d : BitVec 3) (tag : BitVec 16) (s : State) : Out :=
  .next (poisonWhere s fun r => r.dev = d.toNat && r.args.tag = tag && ranOut s r.due)

/-! ### The target (R367, R371, R372, R403) -/

/-- The pair and set an address is fenced for, as pair * 2 + set (12 R403): in the mirror reserve of a paired
device, or in lent T2. -/
def fenceOf (s : State) (a : Nat) : Option Nat :=
  if (s.pair.paired && decide (0 < regBits s 0x3400004 31 20)) || (regionOf s.mem a).lent then Config.fenceAt (a / 2 ^ 21) else none

/-- Whether a fenced stage refuses a claim (12 R403). -/
def fenceRefuses (s : State) (a claim : Nat) : Bool :=
  match fenceOf s a with
  | some k => decide (claim = 0) || decide (claim < tabGet s.pair.claimMax 0 k)
  | none => false

/-- A write that a stage accepts raises its CLAIM_MAX (12 R403). -/
def raiseClaim (s : State) (a claim : Nat) : State :=
  match fenceOf s a with
  | some k => { s with pair := { s.pair with claimMax := tabPut s.pair.claimMax k (max claim (tabGet s.pair.claimMax 0 k)) } }
  | none => s

/-- A little-endian 64-bit word of local memory. -/
def memWord (s : State) (a : Nat) : Nat := ofLeBytes (memRead s a 8)

/-- The new value of an atomic (11 R372). -/
def atomicNew (op : Nat) (old operand compare : BitVec 64) : BitVec 64 :=
  match op with
  | 0x10 => old + operand
  | 0x11 => if old = compare then operand else old
  | 0x12 => if operand.slt old then operand else old
  | 0x13 => if old.slt operand then operand else old
  | _ => operand

/-- A line with masked bytes replaced (11 R370, R372). -/
def maskedLine (mask : Option (BitVec 128)) (old new : List Byte) : List Byte :=
  match mask with
  | none => new.take 128
  | some m => (List.range 128).map fun i => if m.getLsbD i then new.getD i 0#8 else old.getD i 0#8

/-- Executes a request at local address `a` (11 R372; 12 R403). -/
def executeAt (s : State) (q : FabArgs) (a : Nat) : State × FabAnswer :=
  let op := q.op.toNat
  let claim := q.claim.toNat
  if op = 1 then (s, ⟨stOk, 0, memRead s a 128⟩)
  else if fenceRefuses s a claim then (bump s 0x340004C 1, ⟨stStaleClaim, 0, []⟩)
  else if op = 2 then (memWrite (raiseClaim s a claim) a (maskedLine q.mask (memRead s a 128) q.data), ⟨stOk, 0, []⟩)
  else
    let old := BitVec.ofNat 64 (memWord s a)
    (memWrite (raiseClaim s a claim) a (leBytes 8 (atomicNew op old q.operand q.compare).toNat), ⟨stOk, old.toNat, []⟩)

/-- Whether an OP is a line operation, and whether it is an atomic (11 R371). -/
def lineOp (op : Nat) : Bool := op = 1 || op = 2
def atomicOp (op : Nat) : Bool := 0x10 ≤ op && op ≤ 0x14

/-- Executes a request of source `src` once (11 R371, R372; 08_memory_tiers.md R284, R285): an invalid OP, a
misaligned address or one of another device completes with ST_ADDR; a refused access returns zeros.
DEDUCED: notes/assumptions/33. -/
def executeReq (s : State) (src : Nat) (q : FabArgs) : State × FabAnswer :=
  let op := q.op.toNat
  let a := q.addr.toNat % 2 ^ 45
  let zeros := if op = 1 then List.replicate 128 0#8 else []
  if q.addr.toNat / 2 ^ 45 ≠ myPos s || !(lineOp op || atomicOp op) || (lineOp op && decide (a % 128 ≠ 0)) || (atomicOp op && decide (a % 8 ≠ 0)) then
    (s, ⟨stAddr, 0, zeros⟩)
  else
    let st := accessStatus s (.peer src) a
    if st = stOk then executeAt s q a else (refuseAccess s (.peer src) a st, ⟨st, 0, zeros⟩)

/-- Sends a completion to a device on the link of its request's line (11 R369, R373).
DEDUCED: notes/assumptions/32. -/
def answerTo (s : State) (dev tag addr : Nat) (x : FabAnswer) : State :=
  match pickLink (upLinks s (bundleTo s dev)) addr with
  | some l => transmit s l.1 l.2 dev tag addr (.completion x.status x.result x.line)
  | none => s

/-- A request arrives from `from_` (11 R367, R376): a detour request for another device is forwarded; a repeated
one is answered from the duplicate filter; any other is executed.
DEDUCED: notes/assumptions/33. -/
def receiveReq (s : State) (src : Nat) (detour : Bool) (q : FabArgs) : State :=
  let d := q.addr.toNat / 2 ^ 45
  let tag := q.tag.toNat
  if detour && d ≠ myPos s then
    if !(regVal s 0x3000004).getLsbD 2 || (routeNow s d).1 ≠ .direct then s
    else match pickLink (upLinks s (bundleTo s d)) q.addr.toNat with
      | none => s
      | some l =>
        let s1 := modFab s fun x => { x with relays := (x.relays.filter fun r => r ≠ (d, tag, src)) ++ [(d, tag, src)] }
        transmit s1 l.1 l.2 d tag q.addr.toNat (requestBody q)
  else match s.fab.filter.find? fun f => f.src = src && f.tag = tag && decide (s.gt < f.at_ + 8000) with
    | some f => answerTo (bump s 0x3000060 1) src tag q.addr.toNat f.answer
    | none =>
      let e := executeReq s src q
      let s1 := modFab e.1 fun x => { x with filter := (x.filter.filter fun f => decide (s.gt < f.at_ + 8000)) ++ [⟨src, tag, s.gt, e.2⟩] }
      answerTo s1 src tag q.addr.toNat e.2

/-- The fields of a request packet a target reads. -/
def packet (op tag ctx claim addr : Nat) : FabArgs :=
  ⟨.unit 0, none, BitVec.ofNat 6 op, BitVec.ofNat 16 tag, BitVec.ofNat 16 ctx, BitVec.ofNat 32 claim, BitVec.ofNat 48 addr, none, [], 0, 0⟩

/-- READ_LINE (11 R372) from device `src`. -/
def execReadLine (src : BitVec 3) (detour : Bool) (tag ctx : BitVec 16) (addr : BitVec 48) (s : State) : Out :=
  .next (receiveReq s src.toNat detour (packet 1 tag.toNat ctx.toNat 0 addr.toNat))

/-- WRITE_LINE (11 R372; 12 R403). -/
def execWriteLine (src : BitVec 3) (detour : Bool) (tag ctx : BitVec 16) (claim : Word) (addr : BitVec 48) (mask : Option (BitVec 128)) (data : List Byte)
    (s : State) : Out :=
  .next (receiveReq s src.toNat detour { packet 2 tag.toNat ctx.toNat claim.toNat addr.toNat with
    mask := mask, data := data.take 128 ++ List.replicate (128 - data.length) 0#8 })

/-- An atomic from device `src` (11 R372). -/
def atomicReq (op : Nat) (src : BitVec 3) (detour : Bool) (tag ctx : BitVec 16) (claim : Word) (addr : BitVec 48) (operand compare : BitVec 64)
    (s : State) : State :=
  receiveReq s src.toNat detour { packet op tag.toNat ctx.toNat claim.toNat addr.toNat with operand := operand, compare := compare }

/-- ATOMIC_ADD (11 R372). -/
def execAtomicAdd (src : BitVec 3) (detour : Bool) (tag ctx : BitVec 16) (claim : Word) (addr : BitVec 48) (operand : BitVec 64) (s : State) : Out :=
  .next (atomicReq 0x10 src detour tag ctx claim addr operand 0 s)
/-- ATOMIC_CAS (11 R372). -/
def execAtomicCas (src : BitVec 3) (detour : Bool) (tag ctx : BitVec 16) (claim : Word) (addr : BitVec 48) (operand compare : BitVec 64) (s : State) : Out :=
  .next (atomicReq 0x11 src detour tag ctx claim addr operand compare s)
/-- ATOMIC_MIN (11 R372). -/
def execAtomicMin (src : BitVec 3) (detour : Bool) (tag ctx : BitVec 16) (claim : Word) (addr : BitVec 48) (operand : BitVec 64) (s : State) : Out :=
  .next (atomicReq 0x12 src detour tag ctx claim addr operand 0 s)
/-- ATOMIC_MAX (11 R372). -/
def execAtomicMax (src : BitVec 3) (detour : Bool) (tag ctx : BitVec 16) (claim : Word) (addr : BitVec 48) (operand : BitVec 64) (s : State) : Out :=
  .next (atomicReq 0x13 src detour tag ctx claim addr operand 0 s)
/-- ATOMIC_SWAP (11 R372). -/
def execAtomicSwap (src : BitVec 3) (detour : Bool) (tag ctx : BitVec 16) (claim : Word) (addr : BitVec 48) (operand : BitVec 64) (s : State) : Out :=
  .next (atomicReq 0x14 src detour tag ctx claim addr operand 0 s)

/-! ### Completions at the requester (R373, R377, R379) -/

/-- A completion that comes after the tick its request's timer ran out in finds it poisoned (01 R28, R29; 11 R377). -/
def poisonLate (s : State) (src tag : Nat) : State := poisonWhere s fun r => r.dev = src && r.args.tag.toNat = tag && decide (r.due < s.gt)

/-- A completion from device `src`: the request that waits for it, or the requester of a relayed one; one that
follows a poison completion is counted (11 R377). The answer names the request that completed.
DEDUCED: notes/assumptions/33. -/
def completeFab (s : State) (src tag st result : Nat) (line : List Byte) : State × Option FabReq :=
  let s := poisonLate s src tag
  match s.fab.reqs.find? fun r => r.dev = src && r.args.tag.toNat = tag with
  | some r => (retireReq (deliverAll s r st result line) r, some r)
  | none =>
    match s.fab.relays.find? fun r => r.1 = src && r.2.1 = tag with
    | some r => (answerTo (modFab s fun x => { x with relays := x.relays.filter (· ≠ r) }) r.2.2 tag 0 ⟨st, result, line⟩, none)
    | none =>
      if s.fab.poisoned.contains (src, tag) then
        (bump (modFab s fun x => { x with poisoned := x.poisoned.filter (· ≠ (src, tag)) }) 0x300005C 1, none)
      else (s, none)

/-! ### Links (R362, R364 to R368) -/

/-- Whether a bundle and link exist (11 R361). -/
def linkExists (b : Nat) : Bool := b < 12

/-- A fault of a link (17_faults.md R534 LINK). -/
def linkFault (s : State) (b j outcome cause : Nat) (injected : Bool) : State :=
  fault s { cls := 0x10, unit := unitId 0x0A (b * 16 + j), outcome := outcome, cause := cause, injected := injected }

/-- Whether a bundle has lost every link (11 R377, R383). -/
def bundleGone (s : State) (b : Nat) : Bool := upLinks s b = []

/-- The links that take over from a link of a bundle (11 R367; 12_mirrored_pairs.md R395). -/
def heirs (s : State) (b : Nat) : List (Nat × Nat) := if b = 7 ∨ b = 8 then linksTo s (partnerOf s) 1 else upLinks s b

/-- A packet of a lost link's replay buffer goes to the link its line is now assigned (11 R367). -/
def handPacket (ls : List (Nat × Nat)) (s : State) (p : TxPacket) : State :=
  match pickLink ls p.addr with
  | none => s
  | some l => modLink (transmit s l.1 l.2 p.peer p.tag p.addr p.body) l.1 l.2 fun x => { x with replay := satAdd 32 x.replay 1 }

/-- A link goes down (11 R367, R377): its packets and requests move, in order, to the links that take over its lines;
with none left, its requests have lost their route. -/
def takeDown (s : State) (b j : Nat) : State :=
  let l := linkOf s b j
  let s1 := modLink s b j fun x => { x with st := .down, lanes := 0, spare := none, retry := none, tx := [], part := [], far := none }
  let ls := heirs s1 b
  if ls = [] then poisonWhere s1 fun r => r.bundle = b && r.link = j
  else modFab (l.tx.foldl (handPacket ls) s1) fun x => { x with reqs := x.reqs.map fun r =>
    if r.bundle = b && r.link = j then (match pickLink ls r.args.addr.toNat with | some n => { r with bundle := n.1, link := n.2 } | none => r) else r }

/-- LINK_LIGHT_DETECTED (11 R364): light starts training in a link that is dark, or down and not waiting for its
next try, or miswired. -/
def execLinkLightDetected (b : BitVec 4) (j : BitVec 3) (s : State) : Out :=
  let l := linkOf s b.toNat j.toNat
  let may : Bool := match l.st with
    | .dark | .miswired => true
    | .down => (match l.retry with | some t => decide (t ≤ s.gt) | none => true)
    | _ => false
  if !linkExists b.toNat || !may || pdOf s (29 + b.toNat) ≠ .on then .next s
  else .next (modLink s b.toNat j.toNat fun x => { x with
    st := .training, lanes := 0, spare := none, trainBy := s.gt + 5000000, retry := none, far := none, tx := [], seq := 0, expect := 0, part := [], bad := [] })

/-- Whether the far end is one R362 names for a link (11 R362, R364). -/
def farOk (s : State) (b j : Nat) (e : FarEnd) : Bool :=
  let same := e.bundle.toNat = b && e.link.toNat = j
  if b < 7 then same && e.dev.toNat = myPos s ^^^ (b + 1)
  else if b < 9 then same && e.dev.toNat = partnerOf s
  else same && e.tray.toNat ≠ regBits s 0x3000000 31 16 &&
    (upLinks s b).all fun l => (match (linkOf s l.1 l.2).far with | some f => decide (f.tray = e.tray ∧ f.dev = e.dev) | none => true)

/-- Training ends (11 R362, R364) with the lanes that failed (bit 8 is the spare), the far end and the measured
asymmetry. -/
def trainLink (s : State) (bn jn : Nat) (bad : BitVec 9) (far : FarEnd) (asym : BitVec 16) : State :=
  let l := linkOf s bn jn
  if !linkExists bn || l.st ≠ .training || l.trainBy < s.gt then s
  else if !farOk s bn jn far then
    (fault (modLink s bn jn fun x => { x with st := .miswired, far := some far }) { cls := 0x18, unit := unitId 0x0A (bn * 16 + jn), outcome := 3 })
  else
    let lost := (List.range 8).filter bad.getLsbD
    let spare := if bad.getLsbD 8 then none else lost.head?
    let lanes := 8 - (lost.length - b2n spare.isSome)
    if lanes < 4 then (modLink s bn jn fun x => { x with st := .down, retry := some (s.gt + 100000000) })
    else (modLink s bn jn fun x => { x with
      st := if lanes = 8 then .up else .narrowed, lanes := lanes, spare := spare, trainings := satAdd 16 x.trainings 1, far := some far, asym := asym.toInt
      bad := (List.range 9).filter bad.getLsbD })

/-- LINK_TRAIN_TIMEOUT (11 R364): a link not up within 5 ms goes down and tries again after 100 ms. -/
def execLinkTrainTimeout (b : BitVec 4) (j : BitVec 3) (s : State) : Out :=
  let l := linkOf s b.toNat j.toNat
  if l.st = .training && ranOut s l.trainBy then
    .next (modLink s b.toNat j.toNat fun x => { x with st := .down, retry := some (s.gt + 100000000) })
  else .next s

/-- FAB_LANE_REPLACE (11 R368) after `errs` symbol errors in 1 ms or a failed ring: the spare, then a narrower
link; the answer says whether the link goes down. A lane that failed before changes nothing; a spare that fails unused can replace none. -/
def replaceFabLane (s : State) (b j lane errs : Nat) (ring : Bool) : State × Bool :=
  let l := linkOf s b j
  if !linkUp s b j || 8 < lane || l.bad.contains lane || (!ring && errs ≤ regBits s 0x3000004 23 16 * 1000) then (s, false)
  else
    let s1 := modLink s b j fun x => { x with bad := x.bad ++ [lane] }
    if lane = 8 && l.spare.isNone then (s1, false)
    else if l.spare.isNone && !l.bad.contains 8 then
      (linkFault (modLink s1 b j fun x => { x with spare := some lane }) b j 2 lane false, false)
    else if l.lanes ≤ 4 then (s1, true)
    else (linkFault (modLink s1 b j fun x => { x with st := .narrowed, lanes := x.lanes - 1, spare := if lane = 8 then none else x.spare }) b j 3 lane false, false)

/-! ### Codewords (R365, R366) -/

/-- The number of slots of a packet by its header (11 R371): a request of an invalid OP has its header alone. -/
def packetSlots (h : Nat) : Nat :=
  let op := h / 2 ^ 122
  if op = 1 then 1 else if op = 2 then (if h.testBit 121 then 10 else 9)
  else if atomicOp op then 2 else if op = 0x21 then 9 else 1

/-- The packets of a byte stream and what is left of an unfinished one; an empty slot carries none.
DESIGN CHOICE: notes/assumptions/31. -/
def parsePackets : Nat → List Byte → List (List Byte) × List Byte
  | 0, bs => ([], bs)
  | fuel + 1, bs =>
    if bs.length < 16 then ([], bs)
    else
      let h := ofLeBytes (bs.take 16)
      if h = 0 then parsePackets fuel (bs.drop 16)
      else
        let n := packetSlots h * 16
        if bs.length < n then ([], bs)
        else
          let r := parsePackets fuel (bs.drop n)
          (bs.take n :: r.1, r.2)

/-- The bits hi..lo of a packet header. -/
def hdr (h hi lo : Nat) : Nat := h / 2 ^ lo % 2 ^ (hi - lo + 1)

/-- The request a packet carries (11 R370, R371). -/
def requestOf (p : List Byte) : FabArgs :=
  let h := ofLeBytes (p.take 16)
  let masked := h.testBit 121
  let body := if masked then p.drop 32 else p.drop 16
  { packet (hdr h 127 122) (hdr h 115 100) (hdr h 99 84) (hdr h 79 48) (hdr h 47 0) with
    mask := if masked then some (BitVec.ofNat 128 (ofLeBytes ((p.drop 16).take 16))) else none
    data := body.take 128
    operand := BitVec.ofNat 64 (field p 16 8)
    compare := BitVec.ofNat 64 (field p 24 8) }

/-- An acknowledgement removes the packets of codewords up to it (11 R365). -/
def ackLink (s : State) (b j ack : Nat) : State :=
  modLink s b j fun l => { l with tx := l.tx.filter fun p => decide (32768 ≤ (ack + 65536 - p.seq) % 65536) }

/-- A NAK replays what is not acknowledged, from the first codeword on (11 R366). -/
def nakLink (s : State) (b j : Nat) : State :=
  (linkOf s b j).tx.foldl (emit b j) (modLink s b j fun l => { l with replay := satAdd 32 l.replay l.tx.length })

/-- Takes a codeword's trailer, and says whether its CRC holds (11 R365): ACK, NAK_VALID, CREDITS and the CRC over
slots 0 to 38 and 12 bytes of slot 39. -/
def codewordOk (slots : List Byte) : Bool := crc32c (slots.take 636) = field slots 636 4

/-- The trailer of slot 39 (11 R365). -/
def takeTrailer (s : State) (b j : Nat) (slots : List Byte) : State :=
  let s1 := ackLink s b j (field slots 624 2)
  let w := field slots 626 4
  let s2 := if w % 2 = 1 then nakLink s1 b j else s1
  modLink s2 b j fun l => { l with credits := l.credits + w / 2 }

end Sys2Proof.Machine
end

