-- ==== Sys2Proof/Machine/Messages.lean ====
section
/-!
DEFINITION. Messages between trays and the message rings (11_tray_fabric.md R380 to R383, R392).
-/
namespace Sys2Proof.Machine

/-- Changes the message rings. -/
def modMsg (s : State) (f : MsgRings → MsgRings) : State := modFab s fun x => { x with msg := f x.msg }

/-- log₂ of the size of the send (0), completion (1) and receive (2) ring (11 R387). -/
def msgLog (s : State) (i : Nat) : Nat := regBits s (0x3000118 + 16 * i) 4 0

/-- The host address of a message ring (11 R387; 09_host_rings.md R301). -/
def msgBase (s : State) (i : Nat) : Nat := count64 s (0x3000110 + 16 * i) / 4096 * 4096

/-- The next index of a ring. -/
def ringNext (log i : Nat) : Nat := if i + 1 = ringSize log then 0 else i + 1

/-- Completion slots that are free of entries and of reservations for messages in transit (09 R315; 11 R380). -/
def msgFree (s : State) : Nat :=
  let n := ringSize (msgLog s 1)
  n - 1 - (s.fab.msg.cqTail + n - s.fab.msg.cqHead) % n - s.fab.msg.transit.length

/-- The bytes of a message completion entry (11 R382). -/
def msgEntry (phase : Bool) (type st tag len tray dev bundle rq gt : Nat) : List Byte :=
  leBytes 4 (b2n phase * 2 ^ 31 + type * 2 ^ 28 + 1 * 2 ^ 24 + st * 2 ^ 16 + tag) ++ leBytes 4 len ++ leBytes 2 tray ++ leBytes 1 dev ++
    leBytes 1 bundle ++ leBytes 2 rq ++ leBytes 2 0 ++ leBytes 8 gt ++ leBytes 8 0

/-- The far end of a bundle: tray and device, as its links report them (11 R364). -/
def farOf (s : State) (b : Nat) : Nat × Nat :=
  match (upLinks s b).findSome? fun l => (linkOf s l.1 l.2).far with
  | some f => (f.tray.toNat, f.dev.toNat)
  | none => (0, 0)

/-- Writes a message completion entry and its MSI-X message (11 R380, R382). -/
def writeMsgEntry (s : State) (type st tag len b rq : Nat) (far : Nat × Nat) : State :=
  let m := s.fab.msg
  let n := msgLog s 1
  let s1 := hostWrite s 0 (msgBase s 1 + 32 * m.cqTail) (msgEntry m.phase type st tag len far.1 far.2 b rq s.gt)
  let t := ringNext n m.cqTail
  signalVector (modMsg s1 fun q => { q with cqTail := t, phase := if t = 0 then !q.phase else q.phase }) 0 (regBits s 0x3000100 10 0)

/-- Whether the rings serve: enabled, and no host access has failed (11 R392).
DEDUCED: notes/assumptions/35. -/
def msgServe (s : State) : Bool := s.fab.msg.enabled && !s.fab.msg.error

/-- Writes the SENT entry of a message that leaves transit. -/
def endMessage (s : State) (x : MsgSent) (st : Nat) : State :=
  let s1 := modMsg s fun q => { q with transit := dropOne x q.transit }
  if s.fab.msg.error then s1 else writeMsgEntry s1 0 (x.st.getD st) x.tag x.len x.bundle 0 (farOf s x.bundle)
where
  /-- Removes the first message equal to one. -/
  dropOne (x : MsgSent) : List MsgSent → List MsgSent
    | [] => []
    | y :: ys => if y = x then ys else y :: dropOne x ys

/-- Descriptors of a bundle that failed complete once no message before them is in transit (11 R383). -/
def endFailed (b : Nat) : Nat → State → State
  | 0, s => s
  | fuel + 1, s =>
    match s.fab.msg.transit.find? fun x => x.bundle = b with
    | some x => if x.st.isSome then endFailed b fuel (endMessage s x 0) else s
    | none => s

/-- A doorbell of the message rings (11 R380; 09 R297, R298): of 32 bits, while enabled, with an index inside its
ring. -/
def msgDoorbell (s : State) (i : Nat) (full : Bool) (v : Word) (act : MsgRings → Nat → MsgRings) : State :=
  let n := bits v 15 0
  if !full || !s.fab.msg.enabled || ringSize (msgLog s i) ≤ n then s else modMsg s fun q => act q n

/-- FAB_MSG_SQ_TAIL (11 R380). -/
def execFabMsgSqTail (full : Bool) (v : Word) (s : State) : Out := .next (msgDoorbell s 0 full v fun q n => { q with sqTail := n })
/-- FAB_MSG_CQ_HEAD (11 R380). -/
def execFabMsgCqHead (full : Bool) (v : Word) (s : State) : Out := .next (msgDoorbell s 1 full v fun q n => { q with cqHead := n })
/-- FAB_MSG_RQ_TAIL (11 R380). -/
def execFabMsgRqTail (full : Bool) (v : Word) (s : State) : Out := .next (msgDoorbell s 2 full v fun q n => { q with rqTail := n })

/-- MESSAGE_SEND (11 R381, R383): the descriptor at the send head, with the message's bytes. It waits for a free
completion slot; a malformed one completes with ST_BAD_DESC or ST_BAD_VERSION; a bundle without a link completes it
poisoned; each in its bundle's order.
DEDUCED: notes/assumptions/35. -/
def execMessageSend (ver : BitVec 4) (bundle : BitVec 8) (tag : BitVec 16) (len : Word) (addr : BitVec 64) (body : List Byte) (s : State) : Out :=
  let m := s.fab.msg
  let b := bundle.toNat
  if !msgServe s || m.sqHead = m.sqTail || msgFree s = 0 then .next s
  else
    let s1 := modMsg s fun q => { q with sqHead := ringNext (msgLog s 0) q.sqHead }
    let bad := decide (b < 9) || decide (11 < b) || decide (len.toNat = 0) || decide (65536 < len.toNat) || decide (addr.toNat % 64 ≠ 0)
    let st := if ver ≠ 1#4 then stBadVersion else if bad then stBadDesc else if bundleGone s b then stPoison else stOk
    if st ≠ stOk then
      if m.transit.any fun x => x.bundle = b then .next (modMsg s1 fun q => { q with transit := q.transit ++ [⟨b, tag.toNat, len.toNat, some st⟩] })
      else .next (writeMsgEntry s1 0 st tag.toNat len.toNat b 0 (farOf s b))
    else .next (send (modMsg s1 fun q => { q with transit := q.transit ++ [⟨b, tag.toNat, len.toNat, none⟩] })
      (.message b tag.toNat (body.take len.toNat ++ List.replicate (len.toNat - body.length) 0#8)))

/-- MESSAGE_SENT_CONFIRM (11 R383): the receiver of the oldest message of a bundle has written it, or refused it. -/
def execMessageSentConfirm (bundle : BitVec 4) (written : Bool) (s : State) : Out :=
  match s.fab.msg.transit.find? fun x => x.bundle = bundle.toNat with
  | none => .next s
  | some x => .next (endFailed x.bundle s.fab.msg.transit.length (endMessage s x (if written then stOk else stMsgRefused)))

/-- Whether a receive buffer entry can be used: VER 1, LEN from 65,536 bytes to 16 MiB and aligned, ADDR aligned (11
R381; 09 R319). -/
def msgBufOk (b : BufEntry) : Bool :=
  b.ver = 1#4 && decide (65536 ≤ b.len.toNat) && decide (b.len.toNat ≤ 2 ^ 24) && decide (b.len.toNat % 64 = 0) && decide (b.addr.toNat % 64 = 0)

/-- Skips unusable posted buffers (11 R381); the first usable one, among those the device has read. -/
def nextMsgBuf : State → List BufEntry → State × Option BufEntry
  | s, [] => (s, none)
  | s, b :: bs =>
    if s.fab.msg.rqHead = s.fab.msg.rqTail then (s, none)
    else if msgBufOk b then (s, some b)
    else nextMsgBuf (modMsg (noteSet s 0x3000104 4#32) fun q => { q with rqHead := ringNext (msgLog s 2) q.rqHead, skipped := true, errCode := stBadDesc }) bs

/-- MESSAGE_RECEIVE (11 R383): a message arrives whole on a bundle; `bufs` are the posted buffers from the receive
head on. It is written from the start of the next usable one, or refused.
DEDUCED: notes/assumptions/35. -/
def execMessageReceive (bundle : BitVec 4) (tag : BitVec 16) (body : List Byte) (bufs : List BufEntry) (s : State) : Out :=
  let b := bundle.toNat
  if b < 9 || 11 < b || bundleGone s b then .next s
  else if !msgServe s || msgFree s = 0 then .next (send s (.messageAnswer b tag.toNat false))
  else
    match nextMsgBuf s bufs with
    | (s1, none) => .next (send s1 (.messageAnswer b tag.toNat false))
    | (s1, some e) =>
      let rq := s1.fab.msg.rqHead
      let data := body.take 65536
      let s2 := hostWrite (modMsg s1 fun q => { q with rqHead := ringNext (msgLog s1 2) q.rqHead }) 0 e.addr.toNat data
      .next (send (writeMsgEntry s2 1 stOk tag.toNat data.length b rq (farOf s b)) (.messageAnswer b tag.toNat true))

/-- MSG_RINGS_ENABLE (11 R392; 09 R305): a write of FAB_MSG_CTRL that sets ENABLE. -/
def execMsgRingsEnable (vector : BitVec 11) (s : State) : Out :=
  if (regVal s 0x3000100).getLsbD 31 || barsOff s then .next s
  else
    let bad := [0, 1, 2].any fun i => decide (msgLog s i < 4) || decide (16 < msgLog s i)
    let s1 := regSetBits s 0x3000100 10 0 vector.toNat
    let st := if bad then stRange else if !bootReady s then stCtxState else stOk
    if st ≠ stOk then .next (modMsg s1 fun q => { q with errCode := st })
    else .next (modMsg (regSetBits s1 0x3000100 31 31 1) fun q =>
      { enabled := true, skipped := q.skipped })

/-- MSG_RINGS_DISABLE (11 R392; 09 R306): unsent descriptors are discarded, messages in transit complete with
ST_CANCELLED; a write without ENABLE to disabled rings sets VECTOR. -/
def execMsgRingsDisable (vector : BitVec 11) (s : State) : Out :=
  if barsOff s then .next s
  else if !(regVal s 0x3000100).getLsbD 31 then .next (regSetBits s 0x3000100 10 0 vector.toNat)
  else
    let s1 := s.fab.msg.transit.foldl (fun t x => endMessage t x stCancelled) s
    .next (modMsg (regSetBits s1 0x3000100 31 31 0) fun q => { q with enabled := false, error := false, sqHead := q.sqTail })

/-- The loss of a link, with what it means for the messages of its bundle (11 R367, R383; 17_faults.md R534). -/
def dropLink (s : State) (b j outcome : Nat) (injected : Bool) : State :=
  let s1 := linkFault (takeDown s b j) b j outcome 0 injected
  if bundleGone s1 b then (s1.fab.msg.transit.filter fun x => x.bundle = b).foldl (fun t x => endMessage t x stPoison) s1 else s1

/-- LINK_DOWN (11 R367): FEC lock is lost for 1 µs. -/
def execLinkDown (b : BitVec 4) (j : BitVec 3) (s : State) : Out :=
  if linkUp s b.toNat j.toNat then .next (dropLink s b.toNat j.toNat 3 false) else .next s

/-- FAB_LANE_REPLACE (11 R368). -/
def execFabLaneReplace (b : BitVec 4) (j : BitVec 3) (lane : BitVec 4) (errs : BitVec 24) (ring : Bool) (s : State) : Out :=
  let r := replaceFabLane s b.toNat j.toNat lane.toNat errs.toNat ring
  if r.2 then .next (dropLink r.1 b.toNat j.toNat 3 false) else .next r.1

end Sys2Proof.Machine
end

