-- ==== Sys2Proof/Machine/Pairs.lean ====
section
/-!
DEFINITION. Mirrored pairs: the mirror, the lease, the authority, takeover, SOLO, resync and failback
(12_mirrored_pairs.md R393 to R411).
-/
namespace Sys2Proof.Machine

/-- Changes the PAIR block. -/
def modPair (s : State) (f : PairBlock → PairBlock) : State := { s with pair := f s.pair }

/-- Changes a set of this device's pair. -/
def modSet (s : State) (i : Nat) (f : PairSet → PairSet) : State := modPair s fun x => { x with sets := listMod x.sets i f }

/-- This device's pair, by half its lower device (12 R399). -/
def ownPair (s : State) : Nat := myPos s / 2

/-- The device lease messages go to: the authority, or the standby while the authority is LOST (12 R402). -/
def authorityOf (s : State) : Nat :=
  let a := regBits s 0x3400004 2 0
  if (peerOf s a).st = .lost then regBits s 0x3400004 6 4 else a

/-- Whether a port die holds a copy of the lease mailbox in service: with none, no lease message is received (12 R399). -/
def mailboxUp (s : State) : Bool := (List.range 4).any fun p => dieUp s (16 + p)

/-- Sends a lease message for a set of this device's pair (12 R399). -/
def sendLease (s : State) (op set : Nat) : State :=
  let p := pairSet s set
  send s (.lease (authorityOf s) op (ownPair s) set p.claim 0 p.valid)

/-- Asks the authority for a set (12 R400, R405). -/
def requestSet (s : State) (set : Nat) : State :=
  let p := pairSet s set
  if !s.pair.paired || p.held || p.requesting then s
  else sendLease (modSet s set fun x => { x with requesting := true, asked := some s.gt }) 1 set

/-- Contexts of a session set: mirrored ones and shadows (12 R394). -/
def ctxsOfSet (s : State) (set : Nat) : List Nat :=
  (s.ctxs.filter fun e => (e.2.mirror || e.2.shadow) && setOf s e.2 = set).map Prod.fst

/-- MARK_STALE for a set this device holds: results stay held until its ACK (12 R408). -/
def markStale (s : State) (set : Nat) : State :=
  let p := pairSet s set
  if !p.held || p.solo || p.staling then s
  else sendLease (modSet s set fun x => { x with staling := true, resync := false }) 4 set

/-- The pair forms once L7 or L8 reaches the configured partner (12 R393; 11 R364): each device asks for its own set.
DEDUCED: notes/assumptions/37. -/
def formPair (s : State) : State :=
  if !(regVal s 0x3400000).getLsbD 31 || s.pair.paired then s
  else requestSet (modPair s fun x => { x with paired := true }) (myPos s % 2)

/-- LINK_UP (11 R362, R364; 12 R393). -/
def execLinkUp (b : BitVec 4) (j : BitVec 3) (bad : BitVec 9) (far : FarEnd) (asym : BitVec 16) (s : State) : Out :=
  let s1 := trainLink s b.toNat j.toNat bad far asym
  if (b = 7#4 || b = 8#4) && linkUp s1 b.toNat j.toNat && !linkUp s b.toNat j.toNat then .next (formPair s1) else .next s1

/-! ### The authority (R399, R400, R402) -/

/-- What an authority keeps for a set. -/
def authSet (s : State) (pair set : Nat) : AuthSet := tabGet s.pair.auth {} (pair * 2 + set)

/-- Replaces it. -/
def setAuth (s : State) (pair set : Nat) (a : AuthSet) : State := modPair s fun x => { x with auth := tabSet x.auth {} (pair * 2 + set) a }

/-- Whether this device answers lease messages of a pair: it is of the tray but neither of the pair nor a standby
that has not taken up authority (12 R399, R402).
DEDUCED: notes/assumptions/37. -/
def serves (s : State) (pair : Nat) : Bool :=
  mailboxUp s && myPos s / 2 ≠ pair && (myPos s ≠ (2 * pair + 4) % 8 || s.pair.serving.contains pair)

/-- An answer of the authority. -/
def answerLease (s : State) (dev op pair set : Nat) (a : AuthSet) : State := send s (.lease dev op pair set a.claim a.expiry a.valid)

/-- Decides a REQUEST for a set that is unheld or expired (12 R400). -/
def decideRequest (s : State) (dev pair set : Nat) (a : AuthSet) : State :=
  if a.valid || a.last = some dev then
    let b := { a with holder := some dev, last := some dev, claim := a.claim + 1, expiry := s.gt + leaseTicks s, waiting := none }
    answerLease (setAuth s pair set b) dev 0x81 pair set b
  else
    let b := { a with holder := none, waiting := none }
    answerLease (setAuth s pair set b) dev 0x82 pair set b

/-- LEASE_REQUEST (12 R400). -/
def execLeaseRequest (pair : BitVec 2) (set : BitVec 1) (dev : BitVec 3) (tSend : BitVec 64) (s : State) : Out :=
  let a := authSet s pair.toNat set.toNat
  if !serves s pair.toNat || dev.toNat / 2 ≠ pair.toNat then .next s
  else if a.holder.isNone || a.expiry ≤ s.gt then .next (decideRequest s dev.toNat pair.toNat set.toNat a)
  else .next (setAuth s pair.toNat set.toNat { a with waiting := some (dev.toNat, tSend.toNat) })

/-- RENEW (12 R400). -/
def execRenew (pair : BitVec 2) (set : BitVec 1) (dev : BitVec 3) (s : State) : Out :=
  let a := authSet s pair.toNat set.toNat
  if !serves s pair.toNat || a.holder ≠ some dev.toNat then .next s
  else if s.gt + guardTicks s < a.expiry then
    let b := { a with expiry := s.gt + leaseTicks s }
    .next (answerLease (setAuth s pair.toNat set.toNat b) dev.toNat 0x81 pair.toNat set.toNat b)
  else .next (answerLease s dev.toNat 0x82 pair.toNat set.toNat a)

/-- RELEASE (12 R400, R405, R411): from the holder it ends the lease and a waiting REQUEST is granted in the same tick;
from a waiting device it withdraws its REQUEST. -/
def execRelease (pair : BitVec 2) (set : BitVec 1) (dev : BitVec 3) (s : State) : Out :=
  let a := authSet s pair.toNat set.toNat
  if !serves s pair.toNat then .next s
  else if a.holder = some dev.toNat then
    let b := { a with holder := none, expiry := s.gt }
    let s1 := answerLease (setAuth s pair.toNat set.toNat b) dev.toNat 0x83 pair.toNat set.toNat b
    match b.waiting with
    | some w => .next (decideRequest s1 w.1 pair.toNat set.toNat b)
    | none => .next s1
  else if a.waiting.map Prod.fst = some dev.toNat then .next (setAuth s pair.toNat set.toNat { a with waiting := none })
  else .next s

/-- A mark from the holder sets the mirror-valid flag (12 R400). -/
def markSet (s : State) (pair set dev : Nat) (valid : Bool) : State :=
  let a := authSet s pair set
  if !serves s pair || a.holder ≠ some dev then s
  else answerLease (setAuth s pair set { a with valid := valid }) dev 0x83 pair set { a with valid := valid }

/-- MARK_STALE (12 R400, R408). -/
def execMarkStale (pair : BitVec 2) (set : BitVec 1) (dev : BitVec 3) (s : State) : Out := .next (markSet s pair.toNat set.toNat dev.toNat false)

/-- MARK_VALID (12 R400, R409). -/
def execMarkValid (pair : BitVec 2) (set : BitVec 1) (dev : BitVec 3) (s : State) : Out := .next (markSet s pair.toNat set.toNat dev.toNat true)

/-- LEASE_EXPIRY (12 R400): the authority reaches a set's expiry; a waiting REQUEST is decided. -/
def execLeaseExpiry (pair : BitVec 2) (set : BitVec 1) (s : State) : Out :=
  let a := authSet s pair.toNat set.toNat
  if !serves s pair.toNat || a.holder.isNone || !ranOut s a.expiry then .next s
  else match a.waiting with
    | some w => .next (decideRequest s w.1 pair.toNat set.toNat a)
    | none => .next (setAuth s pair.toNat set.toNat { a with holder := none })

/-- AUTHORITY_TAKEOVER (12 R402): L + 1 ms after it found the authority LOST, the standby takes up authority with the
claims and flags the pair's devices report; the one that reports a set's highest claim held it last.
DEDUCED: notes/assumptions/39. -/
def execAuthorityTakeover (pair : BitVec 2) (reports : List LeaseReport) (s : State) : Out :=
  match tabFind s.pair.lostAt pair.toNat with
  | none => .next s
  | some t =>
    if s.pair.serving.contains pair.toNat || s.gt < t + leaseTicks s + 1000000 then .next s
    else
      let best (set : Nat) : Nat × Bool × Option Nat := (reports.filter fun r => r.set.toNat = set).foldl
        (fun b r => if b.1 ≤ r.claim.toNat then (r.claim.toNat, r.valid, some r.dev.toNat) else b) (0, true, none)
      let auth (t : State) (set : Nat) : State :=
        setAuth t pair.toNat set { authSet t pair.toNat set with
          holder := none, last := (best set).2.2, claim := (best set).1, valid := (best set).2.1, expiry := t.gt, waiting := none }
      .next (auth (auth (modPair s fun x => { x with serving := x.serving ++ [pair.toNat] }) 0) 1)

/-! ### Takeover (R404, R406, R407) -/

/-- Raises a set's fences to its claim: this device's mirror reserve at once, and each peer whose lent T2 holds homes of
the set by a fenced write (12 R404).
DEDUCED: notes/assumptions/39. -/
def raiseFences (s : State) (set claim : Nat) : State :=
  let k := ownPair s * 2 + set
  let s1 := modPair s fun x => { x with claimMax := tabPut x.claimMax k (max claim (tabGet x.claimMax 0 k)) }
  let cs := ctxsOfSet s set
  let lenders := (s.plc.units.filterMap fun u => match u.home with | .peer d => if cs.contains u.key.owner then some d else none | _ => none).eraseDups
  lenders.foldl (fun t d => send t (.plain "fence raise" (d * 2 ^ 32 + claim))) s1

/-- The instance a committed session binds to: READY, of the context's domain, of the same FORMULA_ID (12 R406). -/
def twinInst (s : State) (k : Ctx) (f : Nat) : Option Nat :=
  (s.insts.find? fun e => e.2.st = .ready && e.2.f.formulaId = f && some e.2.dom = k.prov.map Prov.dom).map Prod.fst

/-- The cause a takeover of a context ends its session for (12 R406, R412); none where it goes on.
DEDUCED: notes/assumptions/39. -/
def takeRefusal (s : State) (k : Ctx) (copy : Option MirrorCopy) (valid : Bool) : Option Nat :=
  match copy with
  | none => none
  | some m =>
    if (twinInst s k m.rec_.formulaId).isNone then some 1
    else if k.prov.isNone || (k.prov.any fun p => liveStacks s p.dom = []) then some 2
    else if !valid then some 3
    else none

/-- A context with its rings as a taken-over session continues them: from the last commit record, or empty (12 R406). -/
def restoredRings (k : Ctx) (copy : Option MirrorCopy) : Ctx :=
  let base := { k with enabled := true, standby := false, errCode := 0, error := false, noWrites := false, paused := false, events := [], queue := [], waiting := none,
                       buffers := [], output := none, lostMark := false, unsignalled := 0, coalesce := none, stopped := none, holdTimer := none }
  match copy with
  | some m => { base with sqHead := m.rec_.sqHead, sqTail := m.rec_.sqHead, cqTail := m.rec_.cqTail, cqHead := m.rec_.cqTail, cqPhase := m.rec_.cqPhase,
                          rqHead := m.rec_.rqHead, rqTail := m.rec_.rqHead, frameSeq := (m.rec_.frameSeq + m.frames) % 2 ^ 32 }
  | none => { base with sqHead := 0, sqTail := 0, cqHead := 0, cqTail := 0, cqPhase := true, rqHead := 0, rqTail := 0, frameSeq := 0 }

/-- A context of a set leaves standby (12 R406, R407): rings, session and running request continue after the last
committed step; TAKEOVER is its first entry. -/
def takeContext (s : State) (former claim : Nat) (valid : Bool) (c : Nat) : State :=
  let k := ctxOf s c
  if !k.standby || !k.enable then s
  else
    let copy := tabFind s.pair.copies c
    let ringed := restoredRings k copy
    let s1 := event (setCtx s c ringed) c (evtEntry 0x10 former stOk (claim % 2 ^ 32 + 2 ^ 32 * ringed.frameSeq + 2 ^ 64 * s.gt))
    match takeRefusal s k copy valid, copy with
    | some arg, m =>
      let s2 := event s1 c (evtEntry 0x14 arg stOk 0)
      match m.bind MirrorCopy.request with
      | some a => settle (modCtx s2 c fun q => { q with queue := [{ a with done := some (stFault, 0, false), deadline := none }] }) c
      | none => s2
    | none, some m =>
      match twinInst s k m.rec_.formulaId with
      | some h =>
        let s2 := bindSession (releaseSession s1 c) c h m.session.slot
        settle (modCtx s2 c fun q => { q with
          session := some { m.session with seed := q.seed, counter := m.rec_.sampler, pos := m.rec_.position, stepNo := m.rec_.stepSeq }
          queue := m.request.toList, readyAt := some s.gt, waitedSince := s.gt }) c
      | none => s1
    | none, none => s1

/-- GRANT (12 R401, R406, R407): a renewal lets the holder act on; a new holder raises fences and takes the set's
sessions over, and marks the mirror stale while its partner is LOST (R408).
DEDUCED: notes/assumptions/39. -/
def execGrant (set : BitVec 1) (claim : Word) (valid : Bool) (s : State) : Out :=
  let i := set.toNat
  let p := pairSet s i
  match (if mailboxUp s then p.asked else none) with
  | none => .next s
  | some t =>
    let upd (x : PairSet) : PairSet :=
      { x with held := true, stopped := false, claim := claim.toNat, valid := valid, expiry := t + leaseTicks s, asked := none, requesting := false }
    if p.held then
      .next ((ctxsOfSet s i).foldl (fun u c => if (ctxOf u c).paused then settle (modCtx u c fun k => { k with paused := false }) c else u) (modSet s i upd))
    else
      let s1 := raiseFences (modSet s i upd) i claim.toNat
      let standby := (ctxsOfSet s i).filter fun c => (ctxOf s c).standby
      let s2 := standby.foldl (fun u c => takeContext u (partnerOf s) claim.toNat valid c) s1
      let s3 := if standby = [] then s2 else bump s2 0x3400048 1
      if (peerOf s3 (partnerOf s3)).st = .lost then .next (markStale s3 i) else .next s3

/-- REFUSE (12 R400): a RENEW that came too late lets the lease run out; a REQUEST ends with the flag in force. -/
def execRefuse (set : BitVec 1) (valid : Bool) (s : State) : Out :=
  .next (if mailboxUp s then modSet s set.toNat fun x => { x with asked := none, requesting := false, valid := valid } else s)

/-- Releases results that waited for the mirror alone (12 R408). -/
def releaseSolo (s : State) (c : Nat) : State :=
  tryRelease (modCtx (mirrorFreed s c) c fun k => { k with output := k.output.map fun o => { o with mirror := true } }) c

/-- LEASE_ACK (12 R408): after MARK_STALE the holder runs SOLO. -/
def execLeaseAck (set : BitVec 1) (s : State) : Out :=
  let i := set.toNat
  if !(pairSet s i).staling || !mailboxUp s then .next s
  else
    let cs := ctxsOfSet s i
    let s1 := modPair (modSet s i fun x => { x with solo := true, staling := false, valid := false, resync := false }) fun x =>
      { x with unacked := x.unacked.filter fun u => !cs.contains u.1, toSync := x.toSync.filter fun c => !cs.contains c }
    .next (cs.foldl (fun t c => event (releaseSolo t c) c (evtEntry 0x11 0 stOk s.gt)) s1)

/-- LEASE_RENEW_TIMER (12 R401): the holder's lease has less than L / 2 left. -/
def execLeaseRenewTimer (set : BitVec 1) (s : State) : Out :=
  let p := pairSet s set.toNat
  if !p.held || p.stopped || decide (s.gt + leaseTicks s / 2 ≤ p.expiry) then .next s
  else .next (sendLease (modSet s set.toNat fun x => { x with asked := some s.gt }) 2 set.toNat)

/-- LEASE_GUARD_STOP (12 R401): the holder reaches the guard and is STOPPED. -/
def execLeaseGuardStop (set : BitVec 1) (s : State) : Out :=
  let p := pairSet s set.toNat
  if !p.held || p.stopped || !ranOut s (p.expiry - guardTicks s) then .next s
  else .next ((ctxsOfSet s set.toNat).foldl (fun t c => modCtx t c fun k => { k with paused := k.enabled }) (modSet s set.toNat fun x => { x with stopped := true }))

/-- PAIR_TAKE (12 R405, R410, R415): the secure world requests a set; any other writer is refused and logged. -/
def execPairTake (r : Requester) (set : BitVec 1) (s : State) : Out :=
  if r = .secure then .next (requestSet s set.toNat) else .next (logRefused s r 0x340000C (BitVec.ofNat 32 (set.toNat * 2 + 1)) stDenied)

/-! ### The mirror (R395 to R398, R408 to R410) -/

/-- The bytes a context's step mirrors besides its commit record (12 R395): its new KV entries and its selection records. -/
def stepMirrorBytes (f : Formula) (k : Ctx) (x : Session) : Nat :=
  let tokens := match k.output.bind Output.before with | some b => x.pos - b.pos | none => 0
  f.kvBytes * tokens + ((x.records.filter fun z => z.stepNo = x.stepNo).map fun r => 16 + 4 * r.positions.length).sum

/-- Sends a mirrored context's commit record (12 R395, R396); the check value of its lines, whose layout the spec leaves
open, is a free value.
DEDUCED: notes/assumptions/38. -/
def sendCommit (s : State) (c : Nat) : State :=
  let k := ctxOf s c
  match k.session, instOf s c with
  | some x, some i =>
    let lo := drawFree s
    let hi := drawFree lo.2
    let q := curRequest k
    let tag := match k.queue.find? openRequest with | some a => a.tag | none => 0
    let r : Commit :=
      { stepSeq := x.stepNo, crc := lo.1.toNat + 2 ^ 32 * hi.1.toNat, bytes := stepMirrorBytes i.f k x, sampler := x.counter,
        position := x.pos, frameSeq := k.frameSeq, sqHead := k.sqHead, cqTail := k.cqTail, rqHead := k.rqHead, tag := tag
        tokensOut := (q.map Request.tokens).getD 0, claim := (pairSet s (setOf s k)).claim, formulaId := i.f.formulaId, cqPhase := k.cqPhase }
    send (modPair hi.2 fun p => { p with unacked := p.unacked ++ [(c, s.gt + regBits s 0x3400000 20 13 * 1000000)] }) (.commit k.peerCtx r)
  | _, _ => s

/-- At a step boundary the holder sends the commit records of the steps that ended (12 R395). -/
def sendCommits (s : State) (d : Nat) : State :=
  ((ctxsOfDom s d).filter fun c => (match (ctxOf s c).output with | some o => !o.mirror | none => false) && !(s.pair.unacked.any fun u => u.1 = c)).foldl sendCommit s

/-- COMMIT_RECORD (12 R397, R403): the partner checks the step's lines against BATCH_CRC; `req` and `frames` are what the
mirror homes hold of the running request and its step's frames.
DEDUCED: notes/assumptions/38. -/
def execCommitRecord (c : BitVec 12) (tag : BitVec 16) (lines : List Byte) (rec_ : Commit) (image : Session) (req : Option Adm) (frames : BitVec 8) (s : State) : Out :=
  let k := ctxOf s c.toNat
  let set := setOf s k
  let key := ownPair s * 2 + set
  if !s.pair.paired || !(k.mirror || k.shadow) then .next s
  else
    let answer (t : State) (st : Nat) : State :=
      match pickLink (linksTo t (partnerOf t) 1) 0 with
      | some l => transmit t l.1 l.2 (partnerOf t) tag.toNat 0 (.completion st 0 [])
      | none => t
    if rec_.claim = 0 || rec_.claim < tabGet s.pair.claimMax 0 key then .next (answer (bump s 0x340004C 1) stStaleClaim)
    else
      let s1 := modPair s fun x => { x with claimMax := tabPut x.claimMax key rec_.claim }
      if lines.length ≠ rec_.bytes || polyOut 2 (polyRun 2 (polyInit 2) lines) ≠ rec_.crc then .next (answer s1 stMirrorCrc)
      else .next (answer (modPair s1 fun x => { x with copies := tabPut x.copies c.toNat ⟨rec_, image, req, frames.toNat⟩ }) stOk)

/-- The partner does not acknowledge: results of the set stay held, and their contexts' guarantees yield to the mirror (12 R408; 01 R31,
R32). -/
def ackLate (s : State) (c : Nat) : State :=
  let i := setOf s (ctxOf s c)
  ((ctxsOfSet s i).filter fun m => match (ctxOf s m).output with | some o => !o.mirror | none => false).foldl (fun t m => yieldToMirror t m s.gt) (markStale s i)

/-- The completion of a commit record's write at the holder (12 R395, R397): the mirror acknowledgement releases the
step; after ST_MIRROR_CRC its lines are sent again. -/
def commitAnswered (s : State) (c st : Nat) : State :=
  let s := if s.pair.unacked.any fun u => u.1 = c && decide (u.2 < s.gt) then ackLate s c else s
  if !(s.pair.unacked.any fun u => u.1 = c) then s
  else if st = stOk then
    let k := ctxOf s c
    let bytes := match k.session, instOf s c with
      | some x, some i => stepMirrorBytes i.f k x + 128
      | _, _ => 128
    let s1 := modPair s fun x => { x with unacked := x.unacked.filter fun u => u.1 ≠ c, toSync := x.toSync.filter (· ≠ c) }
    tryRelease (modCtx (mirrorFreed (bump64 s1 0x3400040 bytes) c) c fun q => { q with output := q.output.map fun o => { o with mirror := true } }) c
  else if st = stMirrorCrc then send s (.plain "mirror lines again" c)
  else s

/-- MIRROR_ACK_TIMEOUT (12 R408): a commit record is not acknowledged within ACK_MS. -/
def execMirrorAckTimeout (c : BitVec 12) (s : State) : Out :=
  if s.pair.unacked.any fun u => u.1 = c.toNat && ranOut s u.2 then .next (ackLate s c.toNat) else .next s

/-- The partner has returned: a SOLO holder copies its sessions to it again (12 R409). -/
def startResync (s : State) (set : Nat) : State :=
  let p := pairSet s set
  if !p.held || !p.solo || p.resync then s
  else
    let cs := (ctxsOfSet s set).filter fun c => (ctxOf s c).enabled && (ctxOf s c).session.isSome
    cs.foldl sendCommit (modPair (modSet s set fun x => { x with resync := true }) fun x => { x with toSync := (x.toSync ++ cs).eraseDups })

/-- RESYNC_COMPLETE (12 R409, R410): every session's copy is acknowledged. -/
def execResyncComplete (set : BitVec 1) (s : State) : Out :=
  let i := set.toNat
  let cs := ctxsOfSet s i
  if !(pairSet s i).resync || s.pair.toSync.any cs.contains then .next s
  else
    let s1 := sendLease (modSet s i fun x => { x with solo := false, resync := false, valid := true }) 5 i
    let s2 := cs.foldl (fun t c => event t c (evtEntry 0x12 0 stOk s.gt)) s1
    .next (modSet s2 i fun x => { x with handBack := x.handBack || (decide (i ≠ myPos s % 2) && (regVal s 0x3400000).getLsbD 6) })

/-- Whether a set can be handed back now: held with a valid mirror, none of its contexts inside a step or with results
under way (12 R410).
DEDUCED: notes/assumptions/39. -/
def mayHandBack (s : State) (set : Nat) : Bool :=
  let p := pairSet s set
  p.held && !p.solo && !p.staling && (peerOf s (partnerOf s)).st ≠ .lost && (ctxsOfSet s set).all fun c => !stepRuns s c

/-- Hands a set back (12 R410): contexts go to standby with a HANDBACK event, then RELEASE. -/
def handBack (s : State) (set : Nat) : State :=
  let cs := (ctxsOfSet s set).filter fun c => (ctxOf s c).enabled
  let s1 := cs.foldl (fun t c =>
    let k := ctxOf t c
    let u := event t c (evtEntry 0x13 (partnerOf t) stOk (2 ^ 32 * ((k.frameSeq + 2 ^ 32 - 1) % 2 ^ 32)))
    modCtx u c fun q => { q with enabled := false, standby := true, queue := [], events := [], waiting := none, buffers := [] }) s
  modSet (sendLease s1 3 set) set fun x => { x with held := false, stopped := false, handBack := false, expiry := 0, asked := none }

/-- Sets whose hand-back has been asked for are handed back at a step boundary (05 R168; 12 R410). -/
def handBacks (s : State) : State :=
  [0, 1].foldl (fun t i => if (pairSet t i).handBack && mayHandBack t i then handBack t i else t) s

/-- FAILBACK (12 R410): AUTO_BACK is 1, or PAIR_TAKE was written on the returned device; the set is handed back at the
next step boundary. -/
def execFailback (set : BitVec 1) (taken : Bool) (s : State) : Out :=
  let i := set.toNat
  let p := pairSet s i
  if !p.held || p.solo || p.staling || decide (i = myPos s % 2) || !(taken || (regVal s 0x3400000).getLsbD 6) then .next s
  else .next (handBacks (modSet s i fun x => { x with handBack := true }))

end Sys2Proof.Machine
end

