-- ==== Sys2Proof/Machine/Tenancy.lean ====
section
/-!
DEFINITION. Provisioning, domains, SPDM and TDISP (13_tenancy_security.md R418 to R445).
-/
namespace Sys2Proof.Machine

/-! ### Provisioning commands (R421, R422) -/

/-- A provisioning command completes: in SEC_MBOX_STATUS, or in the PLDM response (13 R422, R442). -/
def endCommand (s : State) (mgmt : Bool) (opcode st : Nat) : State :=
  if mgmt then send s (.plain "PLDM response" (opcode * 256 + st)) else regPut s 0x400014 (BitVec.ofNat 32 (opcode * 256 + st))

/-- Runs a provisioning command: refused from the mailbox under MGMT_ONLY, with the first status that applies, or with
its effect (13 R421, R422). -/
def command (s : State) (mgmt : Bool) (opcode : Nat) (refusal : Option Nat) (act : State → State) : State :=
  if !mgmt && s.sec.mgmtOnly then endCommand s mgmt opcode stDenied
  else match refusal with
    | some st => endCommand s mgmt opcode st
    | none => endCommand (act s) mgmt opcode stOk

/-- Reserved contexts of a domain other than one (13 R435). -/
def reservedIn (s : State) (d c : Nat) : List Prov :=
  s.ctxs.filterMap fun e => match e.2.newClass.or e.2.prov with
    | some p => if e.1 ≠ c && p.dom = d && p.cls = 2 then some p else none
    | none => none

/-- The tests of R435 on the reserved contexts of a domain.
DEDUCED: notes/assumptions/41. -/
def feasible (ps : List Prov) : Bool :=
  let idx := ps.zipIdx
  let bound (i : Prov × Nat) : Bool :=
    let others := idx.filter fun j => j.2 ≠ i.2
    decide (200 + i.1.stepUs + (others.map fun j => j.1.stepUs * ((i.1.boundUs + j.1.period * 100 - 1) / (j.1.period * 100) + 1)).sum ≤ i.1.boundUs)
  let load := ps.foldl (fun (q : Nat × Nat) p => (q.1 * (p.period * 100) + p.stepUs * q.2, q.2 * (p.period * 100))) (0, 1)
  ps.all (fun p => decide (0 < p.period)) && idx.all bound && decide (2 * load.1 ≤ load.2)

/-- The status PROVISION_CTX is refused with (13 R422, R431, R435; 05_placement.md R162).
DEDUCED: notes/assumptions/41. -/
def provRefusal (s : State) (c : Nat) (p : Prov) : Option Nat :=
  let k := ctxOf s c
  let range := decide (4096 ≤ c) || decide (8 ≤ p.dom) || decide (2 < p.cls) || decide (p.weight = 0) || decide (p.maxOut = 0) || decide (p.maxTokens = 0) ||
    decide (4194304 < p.maxTokens) || decide (64 < p.maxInst)
  let moved := (k.enable || k.enabled) && k.prov.map Prov.dom ≠ some p.dom
  let f := fnOf s c
  let denied := (f ≠ 0 && tdiLocked s f) || (lockedFns s p.dom).any fun v => v ≠ f
  let short := match k.inst.bind (tabFind s.insts) with
    | some i => p.cls = 2 && decide (t2Free s p.dom + heldBytes s k < sessionReserve i.f p)
    | none => false
  firstFail [(stRange, range), (stCtxState, moved), (stSchedInfeasible, p.cls = 2 && !feasible (p :: reservedIn s p.dom c)), (stDenied, denied),
    (stSecRefused, short)]

/-- Provisions a context (13 R419, R420, R422): the class of an enabled context changes at its next step boundary. -/
def provision (s : State) (c : Nat) (p : Prov) : State :=
  modCtx s c fun k => match k.prov with
    | some old => if (k.enable || k.enabled) && old.cls ≠ p.cls then
        { k with prov := some { p with cls := old.cls, period := old.period, stepUs := old.stepUs, boundUs := old.boundUs }, newClass := some p }
      else { k with prov := some p, newClass := none }
    | none => { k with prov := some p, newClass := none }

/-- Bytes of T2 in use by peers: what the region table marks as lent (08_memory_tiers.md R285).
DEDUCED: notes/assumptions/67. -/
def lentBytes (s : State) : Nat := ((s.mem.regions.map fun e => if e.2.valid && e.2.lent then e.2.limit + 1 - e.2.base else 0).sum) * 2 ^ 21

/-- GiB of T2 lent to peers (05 R176): LEND_GIB, or what peers still hold where it has been lowered below that. -/
def lentGib (s : State) : Nat := max (regBits s 0x1000008 10 0) ((lentBytes s + gib - 1) / gib)

/-- T2 that domains may share, in GiB: the populated T2 less hub reserves, mirror reserve and lent space (13 R423,
R424). -/
def t2Limit (s : State) : Nat := 4 * t2Size s / gib - 1 - regBits s 0x3400004 31 20 - lentGib s

/-- The sum of a share over the domains, with one of them replaced (13 R424). -/
def shareSum (s : State) (d v : Nat) (f : Dom → Nat) : Nat := v + (((List.range 8).filter (· ≠ d)).map fun e => f (domOf s e)).sum

/-- Steered slots a domain uses at the endpoint and plane where it uses most. -/
def slotsUsed (s : State) (d : Nat) : Nat :=
  let mine := s.base.slots.filter fun e => match e.2.cur with | some c => c.dom = d | none => false
  mine.foldl (fun m e => max m (mine.filter fun x => x.1 / 32 = e.1 / 32).length) 0

/-- The status SET_DOMAIN is refused with (13 R422 to R424). -/
def domainRefusal (s : State) (d : Nat) (y : DomShares) : Option Nat :=
  let x := domOf s d
  let range := decide (8 ≤ d) || decide (36 < shareSum s d y.t1 Dom.t1Gib) || decide (t2Limit s < shareSum s d y.t2 Dom.t2Gib) || decide (4096 < y.t2) ||
    decide (100 < shareSum s d y.bw Dom.bwPct) || decide (100 < shareSum s d y.sil Dom.silPct) || decide (24 < shareSum s d y.planes Dom.planes) ||
    decide (32 < shareSum s d y.slots Dom.slots)
  let least := decide (stacksOf s d ≠ []) && (y.bw = 0 || y.sil = 0 || y.planes = 0)
  let used1 := x.t1Gib * gib - t1Free s d
  let used2 := x.t2Gib * gib - t2Free s d
  let use := decide (y.t1 * gib < used1) || decide (y.t2 * gib < used2) || decide (y.slots < slotsUsed s d)
  firstFail [(stRange, range), (stSecRefused, least || use)]

/-- Gives a domain its shares (13 R423). -/
def setShares (s : State) (d : Nat) (y : DomShares) : State := modDom s d fun x => { x with
  t1Gib := y.t1, t2Gib := y.t2, bwPct := y.bw, silPct := y.sil, planes := y.planes, slots := y.slots }

/-- The status MOVE_STACK is refused with (13 R427).
DEDUCED: notes/assumptions/41. -/
def moveRefusal (s : State) (n dest : Nat) : Option Nat :=
  let old := (stackOf s n).domain
  let why := if old.isNone then firstFail [(1, s.plc.capRun.isSome), (5, decide (capOf s 0 n = .lost) || (capDies 0 n).any (faultPending s))] else removeRefusal s 0 n
  let y := domOf s dest
  firstFail [(stRange, decide (8 ≤ n) || decide (8 < dest)), (stSecRefused, why.isSome),
    (stDenied, match old with | some d => lockedFns s d ≠ [] | none => false),
    (stSecRefused, dest < 8 && (y.bwPct = 0 || y.silPct = 0 || y.planes = 0)),
    (stSecRefused, match old with | some d => (stacksOf s d).filter (· ≠ n) = [] && ctxsOfDom s d ≠ [] | none => false)]

/-- Starts a stack's move (13 R426): it drains from its domain, or, powered off in none, powers on and passes through its reset; one of
no domain that is to have none stays as it is.
DEDUCED: notes/assumptions/41. -/
def startMove (s : State) (n dest : Nat) : State :=
  let goal := if dest < 8 then some dest else none
  let s1 := { s with sec := { s.sec with moving := some (n, goal) } }
  match (stackOf s n).domain, goal with
  | some _, _ => startDrain s1 0 n
  | none, some _ => wakeUnit (setCap { s1 with plc := { s1.plc with capSt := 3, capReason := 0, capRun := some (false, n) } } 0 n .returning) 0 n
  | none, none => s

/-- The status SLOT_SET is refused with (13 R422).
DEDUCED: notes/assumptions/41. -/
def slotRefusal (s : State) (n : Nat) (minSvn : Nat) (key : Nat × Nat) : Option Nat :=
  let old := s.sec.slots.getD n ⟨false, false, (0, 0), 0⟩
  firstFail [(stRange, decide (8 ≤ n)), (stSecRefused, decide (minSvn < old.minSvn) || (old.en && decide (old.key ≠ key)))]

/-- Sets a signer slot (13 R422, R429). -/
def setSlot (s : State) (n : Nat) (enable : Bool) (minSvn : Nat) (key : Nat × Nat) : State :=
  { s with sec := { s.sec with slots := listSet s.sec.slots n ⟨enable, decide (key ≠ (0, 0)), key, minSvn⟩ } }

/-- Runs a registered command (13 R422); an opcode R422 does not list completes with ST_BAD_DESC.
DEDUCED: notes/assumptions/41. -/
def runCmd (s : State) (mgmt : Bool) (c : SecCmd) : State :=
  match c with
  | .provision x p => command s mgmt 1 (provRefusal s x p) fun t => provision t x p
  | .unprovision x => command s mgmt 2 (firstFail [(stRange, decide (4096 ≤ x)), (stCtxState, (ctxOf s x).enable || (ctxOf s x).enabled)])
      fun t => modCtx t x fun q => { q with prov := none, newClass := none }
  | .setDomain d y => command s mgmt 3 (domainRefusal s d y) fun t => setShares t d y
  | .moveStack n d => command s mgmt 4 (moveRefusal s n d) fun t => startMove t n d
  | .slotSet n e m k => command s mgmt 5 (slotRefusal s n m k) fun t => setSlot t n e m k
  | .setPolicy b => command s mgmt 6 (if mgmt then none else some stDenied) fun t => { t with sec := { t.sec with strictTime := b } }
  | .unlisted n => command s mgmt n (some stBadDesc) id

/-- The commands of a tick run when its other commands have been taken: those of the management path first, then the mailbox's
(13 R421, R427, R438).
DEDUCED: notes/assumptions/103. -/
def runCmds (s : State) : State :=
  let cs := s.sec.cmds.filter (·.1) ++ s.sec.cmds.filter (!·.1)
  cs.foldl (fun t e => runCmd t e.1 e.2) { s with sec := { s.sec with cmds := [] } }

/-- The mailbox holds a command (13 R442). -/
def mboxBusy (s : State) : Bool := s.sec.cmds.any (!·.1)

/-- Registers a command (13 R421): the mailbox, while BUSY, takes no other (13 R442).
DEDUCED: notes/assumptions/103. -/
def submit (s : State) (mgmt : Bool) (c : SecCmd) : State :=
  if !mgmt && mboxBusy s then s
  else
    let s1 := { s with sec := { s.sec with cmds := s.sec.cmds ++ [(mgmt, c)] } }
    if mgmt then s1 else regSetBits s1 0x400014 31 31 1

/-- PROVISION_CTX (13 R422): the reserved parameters are those of class 2 alone. -/
def execProvisionCtx (mgmt : Bool) (ctx : BitVec 16) (dom cls : BitVec 8) (weight maxOut : BitVec 16) (maxTokens : Word) (maxInst : BitVec 8)
    (period stepUs boundUs : BitVec 16) (s : State) : Out :=
  let z (x : BitVec 16) : Nat := if cls = 2#8 then x.toNat else 0
  .next (submit s mgmt (.provision ctx.toNat ⟨dom.toNat, cls.toNat, weight.toNat, maxOut.toNat, maxTokens.toNat, maxInst.toNat, z period, z stepUs, z boundUs⟩))

/-- UNPROVISION_CTX (13 R422). -/
def execUnprovisionCtx (mgmt : Bool) (ctx : BitVec 16) (s : State) : Out := .next (submit s mgmt (.unprovision ctx.toNat))

/-- SET_DOMAIN (13 R422 to R424). -/
def execSetDomain (mgmt : Bool) (dom t1 : BitVec 8) (t2 : BitVec 16) (bw sil planes slots : BitVec 8) (s : State) : Out :=
  .next (submit s mgmt (.setDomain dom.toNat ⟨t1.toNat, t2.toNat, bw.toNat, sil.toNat, planes.toNat, slots.toNat⟩))

/-- MOVE_STACK (13 R422, R426, R427). -/
def execMoveStack (mgmt : Bool) (stack dest : BitVec 8) (s : State) : Out := .next (submit s mgmt (.moveStack stack.toNat dest.toNat))

/-- SLOT_SET (13 R422, R429). -/
def execSlotSet (mgmt : Bool) (slot : BitVec 8) (enable : Bool) (minSvn : BitVec 16) (x y : BitVec 384) (s : State) : Out :=
  .next (submit s mgmt (.slotSet slot.toNat enable minSvn.toNat (x.toNat, y.toNat)))

/-- SET_POLICY (13 R422): on the management path only. -/
def execSetPolicy (mgmt : Bool) (strict : Bool) (s : State) : Out := .next (submit s mgmt (.setPolicy strict))

/-- A command block of 256 bytes is registered (13 R422). -/
def runBlock (s : State) (mgmt : Bool) (b : List Byte) : State :=
  let f (o n : Nat) : Nat := field b o n
  let out : Out := match f 0 1 with
    | 1 => execProvisionCtx mgmt (BitVec.ofNat 16 (f 4 2)) (BitVec.ofNat 8 (f 6 1)) (BitVec.ofNat 8 (f 7 1)) (BitVec.ofNat 16 (f 8 2)) (BitVec.ofNat 16 (f 0xA 2))
        (BitVec.ofNat 32 (f 0xC 4)) (BitVec.ofNat 8 (f 0x10 1)) (BitVec.ofNat 16 (f 0x14 2)) (BitVec.ofNat 16 (f 0x16 2)) (BitVec.ofNat 16 (f 0x18 2)) s
    | 2 => execUnprovisionCtx mgmt (BitVec.ofNat 16 (f 4 2)) s
    | 3 => execSetDomain mgmt (BitVec.ofNat 8 (f 4 1)) (BitVec.ofNat 8 (f 8 1)) (BitVec.ofNat 16 (f 0xA 2)) (BitVec.ofNat 8 (f 0xC 1)) (BitVec.ofNat 8 (f 0xD 1))
        (BitVec.ofNat 8 (f 0xE 1)) (BitVec.ofNat 8 (f 0xF 1)) s
    | 4 => execMoveStack mgmt (BitVec.ofNat 8 (f 4 1)) (BitVec.ofNat 8 (f 5 1)) s
    | 5 => execSlotSet mgmt (BitVec.ofNat 8 (f 4 1)) (f 5 1 ≠ 0) (BitVec.ofNat 16 (f 6 2)) (BitVec.ofNat 384 (ofBeBytes (slice b 8 48)))
        (BitVec.ofNat 384 (ofBeBytes (slice b 0x38 48))) s
    | 6 => execSetPolicy mgmt (f 4 1 ≠ 0) s
    | n => .next (submit s mgmt (.unlisted n))
  match out with | .next t => t | _ => s

/-! ### SPDM (R430) -/

/-- The responder's state on a path. -/
def spdmOf (s : State) (path : Nat) : Spdm := tabGet s.sec.spdm {} path

/-- The responder answers a request in its order, or with an ERROR response, which changes nothing (13 R430; response
codes as DSP0274 gives them).
PRESUMED: notes/assumptions/30. -/
def spdmStep (s : State) (path code : Nat) (ok : Bool) (f : Spdm → Spdm) (body : List Byte) : State :=
  if ok then send { s with sec := { s.sec with spdm := tabSet s.sec.spdm {} path (f (spdmOf s path)) } } (.spdm code body)
  else send s (.spdm 0x7F [0x04#8])

/-- GET_VERSION (13 R430): starts the exchange again. -/
def execGetVersion (path : BitVec 1) (s : State) : Out := .next (spdmStep s path.toNat 0x04 true (fun _ => { version := true }) [0x12#8])
/-- GET_CAPABILITIES (13 R430). -/
def execGetCapabilities (path : BitVec 1) (s : State) : Out :=
  .next (spdmStep s path.toNat 0x61 (spdmOf s path.toNat).version (fun x => { x with caps := true }) [])
/-- NEGOTIATE_ALGORITHMS (13 R430). -/
def execNegotiateAlgorithms (path : BitVec 1) (s : State) : Out :=
  .next (spdmStep s path.toNat 0x63 (spdmOf s path.toNat).caps (fun x => { x with algs := true }) [])
/-- GET_DIGESTS (13 R430). -/
def execGetDigests (path : BitVec 1) (s : State) : Out := .next (spdmStep s path.toNat 0x01 (spdmOf s path.toNat).algs id [])
/-- GET_CERTIFICATE (13 R430). -/
def execGetCertificate (path : BitVec 1) (s : State) : Out := .next (spdmStep s path.toNat 0x02 (spdmOf s path.toNat).algs id [])
/-- CHALLENGE (13 R430). -/
def execChallenge (path : BitVec 1) (s : State) : Out := .next (spdmStep s path.toNat 0x03 (spdmOf s path.toNat).algs id [])
/-- GET_MEASUREMENTS (13 R429, R430): reports the boot measurements. -/
def execGetMeasurements (path : BitVec 1) (s : State) : Out :=
  .next (spdmStep s path.toNat 0x60 (spdmOf s path.toNat).algs id s.sec.measurements.flatten)
/-- KEY_EXCHANGE (13 R430). -/
def execKeyExchange (path : BitVec 1) (s : State) : Out :=
  .next (spdmStep s path.toNat 0x64 (spdmOf s path.toNat).algs (fun x => { x with exchanged := true, session := false }) [])
/-- FINISH (13 R430): `ok`, the requester's verify data holds. -/
def execFinish (path : BitVec 1) (ok : Bool) (s : State) : Out :=
  .next (spdmStep s path.toNat 0x65 ((spdmOf s path.toNat).exchanged && ok) (fun x => { x with exchanged := false, session := true }) [])

/-- IDE_KM (13 R429, R430): installs or removes the keys of the link stream (0) or of a VF's selective stream, inside a
session only. -/
def execIdeKm (path : BitVec 1) (stream : BitVec 6) (install : Bool) (s : State) : Out :=
  if (spdmOf s path.toNat).session then
    .next (send { s with sec := { s.sec with ide := if install then tabPut s.sec.ide stream.toNat 1 else tabDel s.sec.ide stream.toNat } } (.spdm 0x7E []))
  else .next (send s (.spdm 0x7F [0x04#8]))

/-! ### TDISP (R431, R432) -/

/-- Sets the TDI state of a VF. -/
def setTdi (s : State) (v : Nat) (x : TdiState) : State := { s with sec := { s.sec with tdi := tabSet s.sec.tdi .unlocked v x } }

/-- Whether a VF's contexts are isolated (13 R431). -/
def isolated (s : State) (v : Nat) : Bool :=
  let mapped := (List.range 64).filterMap (slotCtx s v)
  let doms := mapped.filterMap (domOfCtx s)
  mapped.all (fun c => (ctxOf s c).prov.isSome) && doms.all fun d => (ctxsOfDom s d).all fun c => fnOf s c = v

/-- LOCK_INTERFACE_REQUEST (13 R431): refused with the TDISP error for an invalid interface state. -/
def execLockInterfaceRequest (vf : BitVec 6) (s : State) : Out :=
  let v := vf.toNat
  if v ≠ 0 && tdiOf s v = .unlocked && isolated s v then .next (send (setTdi s v .lockedCfg) (.plain "TDISP locked" v))
  else .next (send s (.plain "TDISP invalid interface state" v))

/-- TDI_START (13 R431). -/
def execTdiStart (vf : BitVec 6) (s : State) : Out :=
  if tdiOf s vf.toNat = .lockedCfg then .next (send (setTdi s vf.toNat .run) (.plain "TDISP started" vf.toNat))
  else .next (send s (.plain "TDISP invalid interface state" vf.toNat))

/-- A TDI moves to CONFIG_UNLOCKED or ERROR (13 R432, R439): its contexts are told and disabled, and their granules are
zero-pending.
DEDUCED: notes/assumptions/42. -/
def leaveTdi (s : State) (v : Nat) (error : Bool) : State :=
  let cs := (List.range 64).filterMap (slotCtx s v)
  let s1 := cs.foldl (fun t c => disableCtx (event t c (evtEntry 0x1A (if error then 2 else 1) stOk t.gt)) c) s
  let s2 := modMem s1 fun m => markPending m fun g => cs.contains (Config.granuleOwner g)
  setTdi s2 v (if error then .error else .unlocked)

/-- TDI_UNLOCK (13 R432): to CONFIG_UNLOCKED, or to ERROR. -/
def execTdiUnlock (vf : BitVec 6) (error : Bool) (s : State) : Out :=
  let x := tdiOf s vf.toNat
  if vf = 0#6 || (if error then x = .error else x = .unlocked) then .next s else .next (leaveTdi s vf.toNat error)

end Sys2Proof.Machine
end

