-- ==== Sys2Proof/Machine/Boot.lean ====
section
/-!
DEFINITION. The boot from the Edrin image, stage by stage (15_reset_boot.md R487, R488, R495 to R500).
-/
namespace Sys2Proof.Machine

/-- Changes the reset block. -/
def modRst (s : State) (f : Rst → Rst) : State := { s with rst := f s.rst }

/-- RST_BOOT.STAGE (15 R504). -/
def stageOf (s : State) : Nat := regBits s 0x300014 3 0

/-- Sets RST_BOOT.STAGE. -/
def setStage (s : State) (n : Nat) : State := regSetBits s 0x300014 3 0 n

/-- Whether the boot in progress, or the last one, is a cold one (15 R480). -/
def coldBoot (s : State) : Bool := !s.rst.warmReset

/-- The images BOOTSRC names, in order (15 R496): 1 slot A, 2 slot B, 3 recovery. -/
def imageOrder (src : Nat) : List Nat := match src with | 0 => [1, 2, 3] | 1 => [2, 3] | 2 => [3] | _ => []

/-- The boot stops at stage 0xF with a record of the class (15 R499; 17 R544).
DEDUCED: notes/assumptions/27. -/
def haltBoot (s : State) (cls cause : Nat) : State :=
  islandFault (modRst (setStage s 0xF) fun r => { r with warmBy := none, recovering := false }) { cls := cls, unit := unitId 0x0E 0, outcome := 7, cause := cause }

/-- Tries the next of some images (15 R496): recovery waits in stage 0xE. -/
def tryImages (s : State) : List Nat → State
  | [] => haltBoot s 0x18 (regBits s 0x300014 19 16)
  | i :: is => setStage (regSetBits (modRst s fun r => { r with images := is, image := i }) 0x300014 9 8 i) (if i = 3 then 0xE else 1)

/-- Starts from the first image, or from the one after that which a boot watchdog ended (15 R496, R497).
DEDUCED: notes/assumptions/44. -/
def firstImages (s : State) : State :=
  let is := imageOrder s.rst.bootSrc
  match s.rst.ended with
  | none => tryImages s is
  | some e => tryImages (regSetBits s 0x300014 19 16 6) (match (is.dropWhile (· ≠ e)).drop 1 with | [] => [3] | js => js)

/-- The hub runs (15 R499 stage 0x0): a reserved CLKMODE and the factory test stop the boot (14 R450; 15 R488).
DEDUCED: notes/assumptions/44. -/
def startImages (s : State) : State :=
  if s.rst.clkMode = 3 then haltBoot s 0x18 0
  else if s.rst.bootSrc = 3 then haltBoot (regSetBits s 0x300014 19 16 7) 0x18 7
  else firstImages s

/-- Powers a die on at boot (15 R499 stage 0x3). -/
def rampDie (s : State) (p : Nat) : State :=
  match dieOfPd p with
  | some i => if (dieOf s i).st = .off then powerOn (modDie s i fun x => { x with st := .ramping }) p else powerOn s p
  | none => powerOn s p

/-- Whether some die's ramp or tests hold the boot (15 R499): port dies do in the later stages only, since their DRAM
trains on. -/
def diesWait (s : State) (ports : Bool) : Bool :=
  (List.range 29).any fun i =>
    let st := (dieOf s i).st
    (st = .ramping || st = .testing || st = .reset) && (ports || i < 16 || 20 ≤ i || st ≠ .testing)

/-- Whether a bank of a group that is on, or to be on, has not calibrated (06 R200). -/
def banksWait (s : State) : Bool :=
  (List.range 8).any fun g => decide (g < stageGroups s.pwr.stage) && (List.range 16).any fun b =>
    let st := (bankAt s g b).st
    st = .off || st = .calibrating

/-- The region table the boot sequence installs (08 R286; 12 R399): the lease mailboxes for the tray, all else for domain
0.
DEDUCED: notes/assumptions/45. -/
def bootRegions : List (Nat × Region) :=
  (List.range 4).map (fun p => (p, ⟨p * 2 ^ 19 + 128, p * 2 ^ 19 + 128, true, false, true, false, 0⟩)) ++
    [(255, ⟨0, 0xFFFFFF, true, false, false, false, 1⟩)]

/-- Domain 0 holds all stacks and every share at its maximum, and the others hold nothing (01 R18; 13 R423).
DEDUCED: notes/assumptions/45. -/
def formDomains (s : State) : State :=
  let s1 := { s with mem := { s.mem with regions := bootRegions } }
  let s2 := (List.range 8).foldl (fun t n => modStack t n fun k => { k with domain := some 0 }) s1
  let s3 := (List.range 8).foldl (fun t d => modDom t d fun x => { x with t1Gib := 0, t2Gib := 0, bwPct := 0, silPct := 0, planes := 0, slots := 0 }) s2
  modDom s3 0 fun x => { x with t1Gib := 36, t2Gib := t2Limit s2, bwPct := 100, silPct := 100, planes := 24, slots := 32 }

/-- The retention buffer joins the log, which comes into service (17 R544, R547). -/
def openLog (s : State) : State :=
  let rs := s.flt.retained.map fun r => { r with retained := true }
  rs.foldl appendRecord { s with flt := { s.flt with retained := [], ok := true } }

/-- Steps are raised to TOP_STEP, or to what the ceilings allow (14 R452; 15 R499 stage 0x6).
DEDUCED: notes/assumptions/45. -/
def startClocks (s : State) : State :=
  let s1 := modPwr s fun p => { p with stageAt := s.gt, highAt := s.gt }
  (heldDoms s1).foldl (fun t d => modClk t d fun x => { x with step := targetStep t d, pend := none, locked := false, ramp := none, stage := t.pwr.wanted }) s1

/-- The units whose home is on a port die whose memory did not survive a thermal trip (15 R498).
DEDUCED: notes/assumptions/48. -/
def homesNotKept (s : State) : List PUnit :=
  s.plc.units.filter fun u => match u.home with | .port p => !s.rst.srOk.contains p | _ => false

/-- Domain 0 forms after a thermal trip as after any cold reset (01 R18, R26; 15 R498): the instances that are kept are tiled for the
domains as they are now, and what was lost with T2 is recovered.
DEDUCED: notes/assumptions/48. -/
def reformDomains (s : State) : State := loseHomes ((List.range 8).foldl retile (formDomains s)) 0x0B (homesNotKept s)

/-- Stage 0x7 (15 R499): READY, a raised SVN floor, the watchdogs, and suspended sessions' time (R481, R484, R494, R497). -/
def enterReady (s : State) : State :=
  let s1 := regSetBits (setStage s 7) 0x300014 31 31 1
  let keep := 1000000000 * regBits s1 0x300018 7 0
  let s2 := { s1 with
    sec := { s1.sec with floor := max s1.sec.floor s1.sec.floorWanted }
    ctxs := s1.ctxs.map fun e => (e.1, { e.2 with suspended := e.2.suspended.map fun _ => s.gt + keep }) }
  modRst s2 fun r => { r with bootBy := none, ended := none, warmReset := false, tripped := false,
                              wdtBy := some (s.gt + 1000000 * regBits s2 0x300008 15 0) }

/-- Stages 0x6 and 0x7 (15 R499): the region table and domain 0 after a cold boot, the Director's firmware (05 R174), the log, the clocks,
and READY.
DEDUCED: notes/assumptions/45, 48. -/
def finishBoot (s : State) : State :=
  enterReady (startClocks (openLog (regSetBits (if !coldBoot s then s else if s.rst.tripped then reformDomains s else formDomains s) 0x1000000 0 0 1)))

/-- The end of a sweep (07 R239): the ring locks and its channel returns, where nothing else keeps it out, or after three failed sweeps the ring has
failed, counted in BASE_RING_UNLOCK. -/
def sweepDone (s : State) (r : Nat) (lock : Bool) : State :=
  let x := tabGet s.base.rings {} r
  if x.st ≠ .acquiring then s
  else if lock then
    (fault (returnChannel (modRing s r fun _ => {}) (ringChan r)) { cls := 0x04, unit := unitId 5 r, outcome := 0, since := some x.at_, injected := x.injected })
  else if x.sweeps + 1 < 3 then (modRing s r fun y => { y with sweeps := y.sweeps + 1 })
  else
    let s1 := bump (dropSlots (modRing s r fun y => { y with st := .failed, sweeps := 3 }) (ringChan r)) 0x180009C 1
    (fault s1 { cls := 0x04, unit := unitId 5 r, outcome := 3, permanent := true, since := some x.at_, injected := x.injected })

/-- Whether every ring of every powered field is locked or failed (07 R249). -/
def ringsSettled (s : State) : Bool :=
  !s.base.rings.any fun e => decide (e.2.st = .acquiring) && decide (pdOf s (29 + fieldOf (e.1 % 64)) = .on)

/-- BASE_STATUS.READY is set in stage 0x5 once the rings have settled, and the Sillage groups power on (07 R249; 15 R499). -/
def setOptics (s : State) : State :=
  if stageOf s = 5 && !s.base.ready && ringsSettled s then followGroups (modBase s fun b => { b with ready := true }) else s

/-- What a boot waits for is done: stage 0x3 leads to warm-up, stage 0x5 to READY (15 R499). -/
def bootAdvance (s : State) : State :=
  match stageOf s with
  | 3 => if s.pwr.ramps = [] && !diesWait s false then modRst (setStage s 4) fun r => { r with warmBy := some (s.gt + 60000000000) } else s
  | 5 => if s.base.ready && s.pwr.ramps = [] && !diesWait s true && !banksWait s then finishBoot (setStage s 6) else s
  | _ => s

/-- Stage 0x3 (15 R499): power domains ramp one at a time, in the order port dies, fields, reservoirs, compute dies; after a
reset of warm scope the dies are tested again. -/
def powerUp (s : State) : State :=
  let order := (List.range 4).map (24 + ·) ++ (List.range 12).map (29 + ·) ++ (List.range 8).map (16 + ·) ++ List.range 16
  let s1 := setStage s 3
  if coldBoot s then order.foldl rampDie s1
  else bootAdvance ((List.range 29).foldl (fun t i => if (dieOf t i).st = .reset then modDie t i fun x => { x with st := .testing } else t) s1)

/-- An image that passed (15 R494, R495): measured, BOOT_OK, its SVN; a cold boot loads its settings.
DEDUCED: notes/assumptions/45. -/
def acceptImage (s : State) (img : List Byte) : State :=
  let raise := imgNat img 0x11 1
  let s1 := { s with sec := { s.sec with bootOk := true, measurements := measure img, imageSvn := imgNat img 0x10 1, floorWanted := raise } }
  powerUp (setStage (if coldBoot s then loadSettings s1 img else s1) 2)

/-- The fused image SVN floor (13 R429, R441). -/
def svnFloorOf (s : State) : Nat := max Config.svnFloor.toNat s.sec.floor

/-- The image being tried is passed over with its reason (15 R496): the next one, or recovery's wait again. -/
def passOver (s : State) (why : Nat) : State :=
  let s1 := regSetBits s 0x300014 19 16 why
  if s.rst.image = 3 then setStage s1 0xE else tryImages s1 s.rst.images

/-- An image is judged (15 R494, R495): accepted, passed over, or the boot stops for want of calibration seeds. -/
def judgeImage (s : State) (slotLen : Nat) (img : List Byte) (factoryOk : Bool) : State :=
  match imageFault (svnFloorOf s) slotLen img with
  | 0 => if needsFactory img && !factoryOk then haltBoot s 0x18 2 else acceptImage s img
  | n => passOver s n

/-- IMAGE_READ_DONE (15 R492, R494): the two directory copies, the image of the slot being tried, whether its reads
succeeded, and whether the factory region's seeds are valid. -/
def execImageReadDone (readOk : Bool) (dirs : List (List Byte)) (img : List Byte) (factoryOk : Bool) (s : State) : Out :=
  if stageOf s ≠ 1 then .next s
  else if !readOk then .next (passOver s 5)
  else match slotLenOf dirs with
    | none => .next (passOver s 1)
    | some n => .next (judgeImage s n img factoryOk)

/-- RECOVERY_GO (15 R496, R505): GO in stage 0xE starts the read; a host address or length that cannot be is reported in
STATUS.
DEDUCED: notes/assumptions/18. -/
def execRecoveryGo (s : State) : Out :=
  if stageOf s ≠ 0xE || s.rst.recovering then .next s
  else if (regVal s 0x300020).toNat % 4096 ≠ 0 || regVal s 0x300028 = 0#32 then .next (regSetBits s 0x30002C 7 0 stBadDesc)
  else .next (modRst s fun r => { r with recovering := true })

/-- RECOVERY_IMAGE_LOADED (15 R496): the host image is read, or its read failed; it is checked, and one that fails
returns to stage 0xE. -/
def execRecoveryImageLoaded (readOk : Bool) (img : List Byte) (factoryOk : Bool) (s : State) : Out :=
  if stageOf s ≠ 0xE || !s.rst.recovering then .next s
  else
    let s1 := modRst s fun r => { r with recovering := false }
    let n := (regVal s 0x300028).toNat
    if !readOk then .next (regSetBits s1 0x30002C 7 0 stHostAddr)
    else .next (judgeImage (regSetBits s1 0x30002C 7 0 stOk) n (img.take n) factoryOk)

/-- Whether an endpoint homed in a field is in service or on its way to it (14 R447): its die is powered or to be, or the bank group behind it
is. -/
def endpointLives (s : State) (e : Nat) : Bool :=
  match dieOfEp e with
  | some i => decide ((dieOf s i).st ≠ .off) && decide ((dieOf s i).st ≠ .lost) && !s.base.lostEps.contains e
  | none => decide (pdOf s (e + 19) ≠ .off) || s.pwr.ramps.contains (e + 19)

/-- Whether a field's photonic domain is needed (14 R447): an endpoint homed in it lives, or a link of its bundle trains or serves. -/
def fieldNeeded (s : State) (f : Nat) : Bool :=
  (endpointsIn s f).any (endpointLives s) ||
    (List.range 8).any fun j => match (linkOf s f j).st with | .training | .up | .narrowed => true | _ => false

/-- Photonic domains switch off where nothing needs them, and on again where something does; the rings of one that goes off lose their
lines (14 R447, R448).
DEDUCED: notes/assumptions/115. -/
def followFields (s : State) : State :=
  if !bootReady s || !s.base.ready then s
  else (List.range 12).foldl (fun t f =>
    if pdOf t (29 + f) = .off then (if fieldNeeded t f then powerOn t (29 + f) else t)
    else if pdOf t (29 + f) = .on && !fieldNeeded t f then
      powerOff (modBase (darkField t f) fun b => { b with acquired := b.acquired.filter (· ≠ f) }) (29 + f)
    else t) s

/-- POWER_DOMAIN_RAMP_DONE (14 R448): the domain that ramps is on after its 100 µs, the next one ramps, and what it feeds
starts: the hub's boot, a die's tests, a field's lasers, a group's calibrations, its banks from the image's seeds (06 R200).
DESIGN CHOICE: notes/assumptions/100. -/
def execPowerDomainRampDone (p : BitVec 6) (s : State) : Out :=
  let p := p.toNat
  match s.pwr.ramps with
  | [] => .next s
  | h :: t =>
    if h ≠ p || s.gt < s.pwr.rampBy then .next s
    else
      let s1 := setPd (modPwr s fun q => { q with ramps := t, rampBy := s.gt + 100000 }) p .on
      let s2 := match t with | n :: _ => setPd s1 n .ramping | [] => s1
      if p = 28 then
        let s3 := modDie s2 20 fun x => { x with st := .inService, beat := s.gt }
        .next (if stageOf s3 = 0 then startImages s3 else s3)
      else if 29 ≤ p ∧ p < 41 then
        let s3 := lightField s2 (p - 29)
        .next (bootAdvance (if bootReady s3 then modBase s3 fun b => { b with acquired := ascending ((p - 29) :: b.acquired.filter (· ≠ p - 29)) } else s3))
      else if 41 ≤ p then
        let g := p - 41
        .next (bootAdvance (nextCalibration ((List.range 16).foldl (fun u b => modBank u g b fun q => if q.st = .failed then q else { q with due := true, coef := { q.coef with map := Config.seedMap (g * 16 + b) } }) s2) g))
      else match dieOfPd p with
        | some i => .next (bootAdvance (if (dieOf s2 i).st = .ramping then modDie s2 i fun x => { x with st := .testing } else s2))
        | none => .next s2

/-- A die that returns loses its pin and its failed sensors (14 R454, R461, R469). -/
def freshDie (s : State) (i : Nat) : State :=
  let p := pdOfDie i
  modPwr s fun w => { w with reps := (if p < 16 then tabSet w.reps {} p {} else w.reps), therm := tabMod w.therm {} p fun x => { x with failed := [] } }

/-- DIE_LOCAL_RESET_DONE (15 R485; 05 R169; 07 R243): zeroing and tests of a die end: the tiles that failed, what the
tests of its stack's vertical links and bypass lanes found, and the failed lanes of its bundles, which for the hub, tested while the device
boots, are all. A die whose strip port has no bundle left fails; a port die waits for its training. An
upper die passes only beside a lower die that does.
DEDUCED: notes/assumptions/75. -/
def execDieLocalResetDone (i : BitVec 5) (pass : Bool) (found : DieTest) (bundles : List (BitVec 8 × BitVec 7))
    (s : State) : Out :=
  let i := i.toNat
  let st := (dieOf s i).st
  if i = 20 then .next (if bootReady s then s else testBundles s 20 bundles)
  else if !(st = .reset || st = .testing) || (dieOf s i).returning || pdOf s (pdOfDie i) ≠ .on || (s.rst.warmReset && stageOf s < 3) then .next s
  else
    let s0 := testBundles (freshDie s i) i bundles
    if !pass || stripDead s0 i then .next (bootAdvance (failDie s0 i))
    else
      let s1 := testTiles (if 16 ≤ i && i < 20 then modPort s0 (i - 16) leaveSelfRefresh else s0) i (found.tiles.map BitVec.toNat) found.links
      let untrained := 16 ≤ i && i < 20 && !trained s1 (i - 16)
      let s2 := modDie s1 i fun x => { x with returning := true }
      .next (bootAdvance (if untrained || !entersNow s2 i then s2 else (enterWith s2 i).foldl admitDie s2))

/-- DRAM_TRAINING_DONE (08 R270, R271, R277).
DEDUCED: notes/assumptions/75. -/
def execDramTrainingDone (p : BitVec 2) (found : List (Bool × BitVec 2 × BitVec 3)) (s : State) : Out :=
  .next (bootAdvance (trainDram s p.toNat found))

/-- CALIBRATION_FIT_DONE (06 R203). -/
def execCalibrationFitDone (g : BitVec 3) (b : BitVec 4) (gain offset temp : BitVec 16) (map : List (List Nat)) (nominal : Nat)
    (mean16 : BitVec 16) (sd16 : BitVec 16) (jump : Bool) (s : State) : Out :=
  .next (bootAdvance (fitCalibration s g.toNat b.toNat gain offset temp map nominal mean16 sd16 jump))

/-- CALIBRATION_INSTALL (06 R200, R201). -/
def execCalibrationInstall (g : BitVec 3) (b : BitVec 4) (s : State) : Out :=
  .next (bootAdvance (installCalibration s g.toNat b.toNat))

/-- RING_SWEEP_DONE (07 R239, R249): a sweep ends; it may be the last one the boot waits for. -/
def execRingSweepDone (r : BitVec 18) (lock : Bool) (s : State) : Out := .next (bootAdvance (setOptics (sweepDone s r.toNat lock)))

/-- WARMUP_DONE (15 R499, R500): every field has held 55 °C for 10 ms: the rings of powered fields acquire their lines, and with them READY of
the base.
DEDUCED: notes/assumptions/115. -/
def execWarmupDone (s : State) : Out :=
  match s.rst.warmSince with
  | some t =>
    if stageOf s = 4 && decide (t + 10000000 ≤ s.gt) then
      let s1 := modBase (modRst (setStage s 5) fun r => { r with warmBy := none }) fun b => { b with
        ready := false, acquired := (List.range 12).filter fun f => decide (pdOf s (29 + f) = .on) }
      .next (bootAdvance (setOptics s1))
    else .next s
  | none => .next s

/-- WARMUP_TIMEOUT (15 R500): 60 s of warm-up. -/
def execWarmupTimeout (s : State) : Out :=
  match s.rst.warmBy with
  | some t => if stageOf s = 4 && ranOut s t then .next (haltBoot s 0x14 0) else .next s
  | none => .next s

end Sys2Proof.Machine
end

