-- ==== Sys2Proof/Machine/Boundary.lean ====
section
/-!
DEFINITION. Operation and step boundaries of a domain (01_architecture.md R22, R23): what waits for one takes effect.
-/
namespace Sys2Proof.Machine

/-- Banks whose passed coefficients wait (06_sillage.md R200, R201). -/
def pendingBanks (s : State) : List Nat := (s.sil.banks.filter fun e => e.2.pending.isSome).map Prod.fst

/-- What takes effect at an operation boundary of a domain (01 R22): tilings, those of a stack that drains, mesh settings, the clock step,
remapped paths, steered slots and calibrations. -/
def atOpBoundary (s : State) (d : Nat) : State :=
  let s0 := drainBoundary s d
  let s1 := if (domOf s0 d).installing && tilingsDue (domOf s0 d) then installTilings s0 d else s0
  let s2 := steerBoundary (installRemaps (clockBoundary (meshBoundary s1 d) d)) d
  (pendingBanks s2).foldl (fun t k => installCalibration t (k / 16) (k % 16)) s2

/-- What takes effect at a step boundary of a domain (01 R23): exact mode (06 R198), tested dies return, mirrored steps are committed, sets are
handed back, classes change, and the next batch is formed. -/
def atStepBoundary (s : State) (d : Nat) : State :=
  let s := modDom s d fun x => { x with exactMode := (exactReg s).getLsbD d }
  let s1 := handBacks (sendCommits (returnDies s d) d)
  formBatch (applyClasses s1 d) d

/-- Whether the running operation's end led to its batch's next operation. -/
def opEnded (before after : Dom) : Bool := before.phase = .running && after.phase = .readying

/-- Whether the boundary cut the step at its slice end (01 R23).
DESIGN CHOICE: notes/assumptions/9. -/
def opCut (before after : Dom) : Bool := decide (before.parked.length < after.parked.length)

/-- The boundary a domain has reached, and what takes effect there (01 R22, R23). -/
def boundary (s : State) (n : Nat) : State :=
  let e := endOp s n
  if opCut (domOf s n) (domOf e.1 n) then formBatch (atOpBoundary e.1 n) n
  else if e.2 then atStepBoundary (atOpBoundary e.1 n) n
  else if opEnded (domOf s n) (domOf e.1 n) then atOpBoundary e.1 n
  else s

/-- OPERATION_BOUNDARY (01 R22, R23): the running operation's execution phase ends, or the domain is between operations. One
whose results are not formed goes on; a step cut at its slice end leaves the domain to the next batch. Where a fault of the domain is
detected in the same tick the fault acts first (01 R30; 17 R552).
DESIGN CHOICE: notes/assumptions/9. -/
def execOperationBoundary (d : BitVec 3) (s : State) : Out :=
  if domFault s d.toNat then .next (modDom s d.toNat fun x => { x with owed := true }) else .next (boundary s d.toNat)

end Sys2Proof.Machine
end

