-- ==== Sys2Proof/Machine/Copies.lean ====
section
/-!
DEFINITION. The commands of DMA channels that move data, and their accesses to other devices of the tray
(10_dma_check.md R333 to R341).
-/
namespace Sys2Proof.Machine

/-- A tag that is free for a target (11 R367). -/
def freeTag (s : State) (d : Nat) : Nat := ((List.range 65536).find? fun t => !tagBusy s d t).getD 0

/-- A channel's request to another device, on behalf of its context (10 R333; 11 R370).
DEDUCED: notes/assumptions/120. -/
def trayAccess (s : State) (n op addr : Nat) (mask : Option (BitVec 128)) (data : List Byte) : State :=
  let c := bits (dmaCtl s n) 15 0
  let claim := if 48 ≤ n ∧ n < 56 then (s.pair.sets.getD (s.rst.trayPos % 2) {}).claim else 0
  match execFabricRequestSend
    { who := .dma (BitVec.ofNat 6 n), dom := (domOfCtx s c).map (BitVec.ofNat 3), op := BitVec.ofNat 6 op
      tag := BitVec.ofNat 16 (freeTag s (addr / 2 ^ 45)), ctx := BitVec.ofNat 16 c, claim := BitVec.ofNat 32 claim
      addr := BitVec.ofNat 48 addr, mask := mask, data := data, operand := 0, compare := 0 } s with
  | .next t => t
  | _ => s

/-- Whether a channel waits for a line of another device. -/
def awaits (s : State) (n op addr : Nat) : Bool :=
  s.fab.reqs.any fun r => decide (r.args.op.toNat = op) && decide (r.args.addr.toNat = addr) &&
    (r.args.who :: r.joiners).contains (.dma (BitVec.ofNat 6 n))

/-- A line of a channel's buffer goes to another device: its uncovered bytes are masked (10 R336; 11 R370). -/
def sendLine (s : State) (n k : Nat) : State :=
  let c := dmaOf s n
  let span := lineSpan (dmaDst s n) (dmaCount s n) k
  let a := dmaDst s n + span.1
  let m := span.2 - span.1
  let o := a % 128
  if awaits s n 2 (a - o) then s
  else trayAccess s n 2 (a - o) (if m = 128 then none else some (BitVec.ofNat 128 ((2 ^ m - 1) * 2 ^ o)))
    (List.replicate o 0#8 ++ (c.data.drop (span.1 - c.start)).take m ++ List.replicate (128 - o - m) 0#8)

/-- The next line of a channel's source is asked for at another device. -/
def sendRead (s : State) (n : Nat) : State :=
  let a := dmaSrc s n + (dmaOf s n).start + (dmaOf s n).data.length
  if awaits s n 1 (a - a % 128) then s else trayAccess s n 1 (a - a % 128) none []

/-- A failed access of a channel to another device is sent again after its gap (10 R338). -/
def reissue (s : State) (a : HubAccess) : State :=
  match a with
  | .dmaRead n => if bits (dmaCtl s n.toNat) 23 22 = 2 && (localOf s 2 (accessAddr s a)).isNone then sendRead s n.toNat else s
  | .dmaWrite n k => if bits (dmaCtl s n.toNat) 21 20 = 2 && (localOf s 2 (accessAddr s a)).isNone then sendLine s n.toNat k.toNat else s
  | _ => s

/-- DMA_READ_COMPLETE (10 R335): the next bytes of the source enter the buffer: a local source's from memory, as
many as the list is long; a host source's as given; a line of another device's memory is asked for there, and its bytes come with the
completion (R333). -/
def execDmaReadComplete (n : BitVec 6) (bs : List Byte) (s : State) : Out :=
  let n := n.toNat
  let late := match (dmaOf s n).readBy with | some t => decide (t < s.gt) && decide ((dmaOf s n).st = DmaSt.running) | none => false
  if late then .next (failAccess (endReadWait s (.dmaRead (BitVec.ofNat 6 n))) (.dmaRead (BitVec.ofNat 6 n)))
  else if !mayTake s n bs.length then .next s
  else
    let c := dmaOf s n
    let v := dmaCtl s n
    let a := dmaSrc s n + c.start + c.data.length
    match localOf s (bits v 23 22) a with
    | some l =>
      let who := actsAs s (v.getLsbD 28) (bits v 15 0)
      match localRead s who l bs.length with
      | .ok data => .next (takeBytes s n data)
      | .error r => .next (haltDma (refuseAccess s who r.2 r.1) n (causeOf r.1) (a + (r.2 - l)))
    | none =>
      if bits v 23 22 = 0 then .next (takeBytes (hostWrite s (spaceOf s (bits v 15 0)) a bs) n bs) else .next (sendRead s n)

/-- DMA_LINE_COMMIT (10 R336, R337): a line of the window of 256 whose bytes are in the buffer commits whole; one accepted in the tick of a
party's reset too (R340, R343). A line of another device's memory is sent there, and commits with the completion (R333, R336). -/
def execDmaLineCommit (n : BitVec 6) (k : Word) (s : State) : Out :=
  let n := n.toNat
  let k := k.toNat
  let c := dmaOf s n
  let v := dmaCtl s n
  let dst := dmaDst s n
  let span := lineSpan dst (dmaCount s n) k
  let resetting := decide (c.st = .halted) && decide (c.cause = 6) && decide (c.haltAt = s.gt)
  let ok := (decide (c.st = .running) || resetting) && decide (c.done ≤ k) && decide (k < c.done + 256) && !c.ahead.contains k &&
    decide (span.1 < span.2) && decide (c.start ≤ span.1) && decide (span.2 ≤ c.start + c.data.length) &&
    !inGap s (.dmaWrite (BitVec.ofNat 6 n) (BitVec.ofNat 32 k)) && (bits v 21 20 ≠ 0 || resetting || (ctxOf s (bits v 15 0)).enabled)
  if !ok then .next s
  else
    let bs := (c.data.drop (span.1 - c.start)).take (span.2 - span.1)
    let a := dst + span.1
    match localOf s (bits v 21 20) a with
    | some l =>
      let who := actsAs s (v.getLsbD 28) (bits v 15 0)
      let st := accessStatus s who l
      if st = stOk || (resetting && mayReach s who l ((placeOf s l).getD (.t2 0 0)) && (placeOf s l).isSome) then .next (lineDone (memWrite s l bs) n k)
      else if resetting then .next s
      else .next (haltDma (refuseAccess s who l st) n (causeOf st) a)
    | none =>
      if bits v 21 20 = 0 then .next (lineDone (hostWrite s (spaceOf s (bits v 15 0)) a bs) n k)
      else .next (if resetting then s else sendLine s n k)

/-- RETRY_GAP_EXPIRY (10 R338): the access is re-issued, counted in DMA_RETRIES. -/
def execRetryGapExpiry (a : HubAccess) (s : State) : Out :=
  match s.dma.retries.find? fun r => r.access = a with
  | some r =>
    match r.due with
    | some t =>
      if s.gt < t then .next s
      else
        let s1 := { s with dma := { s.dma with retries := s.dma.retries.map fun q => if q.access = a then { q with tries := q.tries + 1, due := none } else q } }
        let s2 := match a with
          | .dmaRead n => modDma s1 n.toNat fun c => { c with retries := r.tries + 1, readBy := hostBy s1 (bits (dmaCtl s1 n.toNat) 23 22) }
          | .dmaWrite n _ => modDma s1 n.toNat fun c => { c with retries := r.tries + 1 }
          | _ => s1
        .next (bump (reissue s2 a) 0x1400030 1)
    | none => .next s
  | none => .next s

end Sys2Proof.Machine
end

