-- ==== Sys2Proof/Machine/Peers.lean ====
section
/-!
DEFINITION. Peers' keepalives and states, completions, codewords and tray time (11_tray_fabric.md R365, R373,
R376, R384, R385).
-/
namespace Sys2Proof.Machine

/-! ### Peer states (R376, R377) -/

/-- Whether a keepalive from a peer arrived on its own bundle within the last 4 µs (11 R376). -/
def hearsDirect (s : State) (d : Nat) : Bool := match (peerOf s d).seen with | some t => !ranOut s (t + 4000) | none => false

/-- The HEARD map this device sends (11 R376). -/
def heardMap (s : State) : Nat := bitmap 8 fun d => d ≠ myPos s && hearsDirect s d

/-- The lowest DIRECT peer whose keepalive of the last 1.5 µs names a device (11 R376). -/
def detourTo (s : State) (d : Nat) : Option Nat :=
  if !(regVal s 0x3000004).getLsbD 2 then none
  else (List.range 8).find? fun e => e ≠ myPos s && e ≠ d && hearsDirect s e &&
    (match (peerOf s e).seen with | some t => decide (s.gt ≤ t + 1500) | none => false) && (peerOf s e).heard.testBit d

/-- The state a peer has now (11 R376); one that has never been reached is not yet trained. -/
def peerNow (s : State) (d : Nat) : PeerState × Nat :=
  if hearsDirect s d then (.direct, 0)
  else match detourTo s d with
    | some e => (.detour, e)
    | none => if (peerOf s d).st = .absent then (.absent, 0) else (.lost, 0)

/-- A running collective that names a device completes with ST_PEER_LOST (04_formulas_operations.md R132). -/
def failCollectives (s : State) (d : Nat) : State :=
  (runningDoms s).foldl (fun t m =>
    match (domOf t m).batch with
    | none => t
    | some b => match (tabFind t.insts b.inst).bind fun i => opOf i b with
      | some o => if 0x10 ≤ o.opcode && o.opcode ≤ 0x13 && (attr o 0 1).testBit d && executes t m then failAll t m stPeerLost else t
      | none => t) s

/-- The end of the tick in which peers were declared LOST: requests to them, and by way of them, that no completion of the tick answered
complete poisoned (11 R377, R379). -/
def poisonLost (s : State) : State :=
  modFab (s.fab.lostNow.foldl (fun t d => poisonWhere t fun r => r.dev = d || r.via = some d) s) fun x => { x with lostNow := [] }

/-- What the loss of a peer does (11 R377; 05 R168; 12 R402, R405, R408); requests to it complete at the end of the tick (R379). -/
def peerLost (s : State) (d : Nat) : State :=
  let s1 := failCollectives (modFab s fun x => { x with lostNow := x.lostNow ++ [d] }) d
  let s2 := losePeerHomes s1 d
  let s3 := (List.range 4).foldl (fun t k =>
    if (2 * k + 2) % 8 = d && (2 * k + 4) % 8 = myPos t && (tabFind t.pair.lostAt k).isNone then modPair t fun x => { x with lostAt := tabPut x.lostAt k t.gt } else t) s2
  if s3.pair.paired && d = partnerOf s3 then
    [0, 1].foldl (fun t i => if (pairSet t i).held then markStale t i else requestSet t i) s3
  else s3

/-- What the return of a peer does (12 R405, R409): a SOLO holder resyncs; a REQUEST for the holder's set is
withdrawn. -/
def peerBack (s : State) (d : Nat) : State :=
  let s1 := modPair s fun x => { x with lostAt := x.lostAt.filter fun e => (2 * e.1 + 2) % 8 ≠ d || x.serving.contains e.1 }
  if s1.pair.paired && d = partnerOf s1 then
    [0, 1].foldl (fun t i =>
      let p := pairSet t i
      if p.held then startResync t i
      else if p.requesting && i ≠ myPos t % 2 && (peerOf t d).st = .direct then
        sendLease (modSet t i fun x => { x with requesting := false, asked := none }) 3 i
      else t) s1
  else s1

/-- Brings one peer's state up to date; a change is recorded (11 R376). -/
def updatePeer (s : State) (d : Nat) : State :=
  let p := peerOf s d
  let n := peerNow s d
  if d = myPos s || (n.1 = p.st && n.2 = p.via) then s
  else
    let s1 := modFab s fun x => { x with peers := tabPut x.peers d { p with st := n.1, via := n.2, oldSt := p.st, oldVia := p.via, since := some s.gt } }
    let s2 := fault s1 { cls := 0x11, unit := unitId 0x0B d, outcome := if n.1 = .lost then 6 else 0 }
    if n.1 = .lost then peerLost s2 d else peerBack s2 d

/-- Brings every peer's state up to date. -/
def updatePeers (s : State) : State := (List.range 8).foldl updatePeer s

/-- The cold partner asks for a set whose holder it no longer hears, once every mirror write to it has been poisoned (12 R405). -/
def askSilent (s : State) : State :=
  let p := partnerOf s
  if s.fab.mirrorDead && !(s.fab.reqs.any (mirrorWrite s)) && !hearsDirect s p then
    [0, 1].foldl requestSet (modFab s fun x => { x with mirrorDead := false })
  else s

/-- A keepalive on a peer's own bundle with its HEARD map. -/
def hearKeepalive (s : State) (d heard : Nat) : State :=
  if d = myPos s then s
  else updatePeers (modFab s fun x => { x with peers := tabPut x.peers d { tabGet x.peers {} d with seen := some s.gt, heard := heard } })

/-- KEEPALIVE (11 R376). -/
def execKeepalive (d : BitVec 3) (heard : BitVec 8) (s : State) : Out := .next (hearKeepalive s d.toNat heard.toNat)

/-- KEEPALIVE_SEND (11 R376): one keepalive on every bundle L0 to L6. -/
def execKeepaliveSend (s : State) : Out := .next (send (updatePeers s) (.keepalive (heardMap s)))

/-- PEER_KEEPALIVE_TIMEOUT (11 R376): no keepalive from a peer for 4 µs. -/
def execPeerKeepaliveTimeout (d : BitVec 3) (s : State) : Out := if hearsDirect s d.toNat then .next s else .next (updatePeers s)

/-! ### Completions (R373) -/

/-- A completion, and what it means to a mirrored context whose commit record it answers (12 R397). -/
def completion (s : State) (src tag st result : Nat) (line : List Byte) : State :=
  match completeFab s src tag st result line with
  | (s1, some r) => (match r.args.who with | .commit c => commitAnswered s1 c.toNat st | _ => s1)
  | (s1, none) => s1

/-- COMPLETION (11 R373) from device `src`. -/
def execCompletion (src : BitVec 3) (tag : BitVec 16) (status : BitVec 8) (result : BitVec 64) (s : State) : Out :=
  .next (completion s src.toNat tag.toNat status.toNat result.toNat [])

/-- COMPLETION_DATA (11 R373). -/
def execCompletionData (src : BitVec 3) (tag : BitVec 16) (status : BitVec 8) (line : List Byte) (s : State) : Out :=
  .next (completion s src.toNat tag.toNat status.toNat 0 (line.take 128))

/-! ### Codewords (R365, R366) -/

/-- A packet received on a bundle of the tray (11 R370 to R373, R376); one whose sender is no device of the tray is dropped (01 R38), and so is a keepalive that comes
on another bundle than its sender's (R376).
DEDUCED: notes/assumptions/33. -/
def receivePacket (bn : Nat) (s : State) (p : List Byte) : State :=
  let h := ofLeBytes (p.take 16)
  let src := hdr h 119 116
  if 7 < src then s
  else match hdr h 127 122 with
  | 0x20 => completion s src (hdr h 115 100) (hdr h 99 92) (hdr h 63 0) []
  | 0x21 => completion s src (hdr h 115 100) (hdr h 99 92) 0 (p.drop 16)
  | 0x30 => if src = myPos s || bundleTo s src = bn then hearKeepalive s src (hdr h 91 84) else s
  | 0x31 => s
  | _ => receiveReq s src (h.testBit 83) (requestOf p)

/-- CODEWORD_RECEIVE (11 R365, R366): `fec` is 0 clean, 1 corrected, else uncorrectable; `word` the codeword word, TYPE
above CSEQ; then 40 slots. A bad or out-of-order codeword is discarded, with a NAK unless it was received before. -/
def execCodewordReceive (b : BitVec 4) (j : BitVec 3) (fec : BitVec 2) (word : BitVec 20) (slots : List Byte) (s : State) : Out :=
  let bn := b.toNat
  let jn := j.toNat
  let l := linkOf s bn jn
  let seq := word.toNat % 65536
  let type := word.toNat / 65536
  let nak := send s (.linkNak bn jn l.expect)
  if !linkUp s bn jn then .next s
  else if 2 ≤ fec.toNat || slots.length ≠ 640 || !codewordOk slots then .next nak
  else
    let s1 := if fec = 1#2 then modLink s bn jn fun x => { x with ce := satAdd 32 x.ce 1 } else s
    if seq ≠ l.expect then
      if 32768 ≤ (seq + 65536 - l.expect) % 65536 then .next s1 else .next (send s1 (.linkNak bn jn l.expect))
    else
      let s2 := takeTrailer (modLink s1 bn jn fun x => { x with expect := (x.expect + 1) % 65536 }) bn jn slots
      if type ≠ 1 || 9 ≤ bn then .next s2
      else
        let r := parsePackets 80 (l.part ++ slots.take 624)
        .next (r.1.foldl (receivePacket bn) (modLink s2 bn jn fun x => { x with part := r.2 }))

/-! ### Tray time (R384, R385) -/

/-- The tray's time reference as this device sees it (11 R384). -/
def timeRef (s : State) : Nat :=
  let t := regBits s 0x3000004 10 8
  let ok (d : Nat) : Bool := d = myPos s || (peerOf s d).st ≠ .lost
  if ok t then t else ((List.range 8).find? ok).getD (myPos s)

/-- Changes tray time. -/
def modTime (s : State) (f : TrayTime → TrayTime) : State := modFab s fun x => { x with time := f x.time }

/-- TIME_REQ (11 R384): the reference answers with its receive and send ticks.
DEDUCED: notes/assumptions/36. -/
def execTimeReq (src : BitVec 3) (s : State) : Out :=
  if timeRef s = myPos s && src.toNat ≠ myPos s then .next (send s (.timeAnswer src.toNat s.gt s.gt)) else .next s

/-- TIME_EXCHANGE_TIMER (11 R384): every 20 µs a device that is not the reference asks it. -/
def execTimeExchangeTimer (s : State) : Out :=
  let r := timeRef s
  if r = myPos s || s.gt < s.fab.time.nextAt || !((routeNow s r).1 = .direct || (routeNow s r).1 = .detour) then .next s
  else .next (send (modTime s fun t => { t with asked := some s.gt, nextAt := s.gt + 20000 }) (.timeReq r))

/-- Twice θ (11 R384): the path asymmetry is that of the link that carried the exchange.
DEDUCED: notes/assumptions/36. -/
def theta2 (t1 t2 t3 t4 : Nat) (asym : Int) : Int := (t2 : Int) - t1 - ((t4 : Int) - t3) - 2 * asym

/-- The asymmetry of the lowest link in service to a device.
DEDUCED: notes/assumptions/36. -/
def asymTo (s : State) (d : Nat) : Int := match (upLinks s (bundleTo s d)).head? with | some l => (linkOf s l.1 l.2).asym | none => 0

/-- ALIGNED of a θ (11 R385). -/
def alignedOf (x : Int) : Bool := decide (-40 ≤ x) && decide (x ≤ 40)

/-- TIME_RESPONSE (11 R385): the answer to the exchange under way. The first after boot aligns GT at once, or holds it;
ALIGNED falling to 0 is recorded. -/
def execTimeResponse (src : BitVec 3) (t2 t3 : BitVec 64) (s : State) : Out :=
  match s.fab.time.asked with
  | none => .next s
  | some t1 =>
    if src.toNat ≠ timeRef s then .next s
    else
      let x := theta2 t1 t2.toNat t3.toNat s.gt (asymTo s src.toNat)
      let first := !s.fab.time.first
      let ok := alignedOf x
      let s1 := modTime s fun t => { t with
        asked := none, theta2 := x, aligned := ok, first := true
        left2 := if first then x % 2 else x
        hold := if first && decide (x < 0) then t.hold + (-x / 2).toNat else t.hold }
      let s2 := if first && decide (0 < x) then { s1 with gt := s.gt + (x / 2).toNat } else s1
      .next (if s.fab.time.aligned && !ok then fault s2 { cls := 0x18, unit := unitId 0x0E 0, outcome := 0 } else s2)

/-- GT_SLEW (11 R385): while |θ| exceeds 2 ns, GT is advanced or held by one tick in every 1,000. -/
def execGtSlew (s : State) : Out :=
  let t := s.fab.time
  if s.gt < t.slewAt || timeRef s = myPos s || (decide (-4 ≤ t.left2) && decide (t.left2 ≤ 4)) then .next s
  else
    let s1 := modTime s fun q => { q with slewAt := s.gt + 1000, left2 := if 0 < t.left2 then t.left2 - 2 else t.left2 + 2, hold := if 0 < t.left2 then q.hold else q.hold + 1 }
    if 0 < t.left2 then .next (bump { s1 with gt := s.gt + 1 } 0x3000044 1) else .next (bump s1 0x3000048 1)

/-- A tick of GT (01_architecture.md R26): it advances by one, unless it is held for alignment (11 R379, R385).
DESIGN CHOICE: notes/assumptions/1. -/
def tickGt (s : State) : State :=
  if 0 < s.fab.time.hold then modTime s fun t => { t with hold := t.hold - 1 } else { s with gt := s.gt + 1 }

end Sys2Proof.Machine
end

