-- ==== Sys2Proof/Machine/Resets.lean ====
section
/-!
DEFINITION. Reset sources, their scope, and what survives each (15_reset_boot.md R477 to R487, R497, R498, R501; 08_memory_tiers.md
R289 to R291).
-/
namespace Sys2Proof.Machine

/-! ### Cold resets -/

/-- The straps as sampled (15 R487, R504), and the defaults that follow the tray position (12 R399, R414). -/
def sampleStraps (s : State) (straps : Nat) : State :=
  let pos := straps / 16 % 8
  let k := pos / 2
  let s1 := modRst s fun r => { r with bootSrc := straps % 4, clkMode := straps / 4 % 4, trayPos := pos }
  let partner := if pos % 2 = 0 then pos + 1 else pos - 1
  regSetBits (regSetBits (regSetBits (regPut s1 0x300010 (BitVec.ofNat 32 (straps % 128)))
    0x3400000 30 28 partner) 0x3400004 2 0 ((2 * k + 2) % 8)) 0x3400004 6 4 ((2 * k + 4) % 8)

/-- The straps in force. -/
def strapsOf (s : State) : Nat := (regVal s 0x300010).toNat

/-- What every cold reset leaves (15 R478): all state at its reset values but for the fuses, what the environment holds,
Flacon, the test access port, the retention buffer (17 R544) and the record of what was sent. `bit` is the source's
bit of RST_CAUSE, whose VSTBY bit is kept (15 R503). -/
def coldReset (s : State) (bit : Nat) (straps : Nat) : State :=
  let r := State.reset
  let cause := b2n ((regVal s 0x300000).getLsbD 0) + 2 ^ bit - (if bit = 0 && (regVal s 0x300000).getLsbD 0 then 1 else 0)
  sampleStraps { s with
    gt := 0, boots := s.boots + 1, rf := { r.rf with vals := tabSet [] 0#32 0x300000 (BitVec.ofNat 32 cause), setAt := [(0x300000, 0, BitVec.ofNat 32 (2 ^ bit))] }
    flt := { r.flt with retained := s.flt.retained }, inj := r.inj, ctxs := [], insts := [], mgmt := [], arr := {}, plc := {}
    sec := { floor := s.sec.floor }, rst := {}, pair := {}, sil := {}, fab := {}
    pwr := { refOk := s.pwr.refOk, holdover := if s.pwr.refOk then none else some 0 }
    base := {}, mem := {}, dma := {}, flc := { s.flc with hubBuf := [], starts := [], stall := none, closedAt := none, shown := none }
    tap := { s.tap with coldLow := false, bootWaits := false } } straps

/-- The boot begins (15 R497, R499): the boot watchdog starts and the hub's domain ramps. -/
def startBoot (s : State) : State :=
  powerOn (modDie (modRst s fun r => { r with bootBy := some (s.gt + 90000000000) }) 20 fun x => { x with st := .ramping }) 28

/-- Whether a test instruction takes the pins (19 R595). -/
def tapDrives : TapInstr → Bool
  | .extest | .highz | .clamp | .extestPulse | .extestTrain => true
  | .idcode | .samplePreload | .bypass => false

/-- The boot begins, or waits while the test port holds such an instruction (19 R595).
DEDUCED: notes/assumptions/56. -/
def bootOrWait (s : State) : State := if tapDrives s.tap.ir then { s with tap := { s.tap with bootWaits := true } } else startBoot s

/-- COLD_RST (15 R477, R487; 19 R583; 19 R595): the pin is held low, and on its rising edge the straps are sampled and the boot
begins, where the main rails are in range; it waits while the test port holds an instruction that takes the pins.
DEDUCED: notes/assumptions/46. -/
def execColdRst (straps : BitVec 7) (rails : Bool) (s : State) : Out :=
  let s1 := coldReset s 1 straps.toNat
  .next (if !rails then haltBoot s1 0x13 0 else bootOrWait s1)

/-- STANDBY_POWER_ON (15 R477, R487): after the 1 ms hold the straps are sampled; the boot begins unless COLD_RST# is
held low. The retention buffer is lost (17 R544).
DEDUCED: notes/assumptions/46. -/
def execStandbyPowerOn (straps : BitVec 7) (held : Bool) (s : State) : Out :=
  let s1 := coldReset { s with flt := { s.flt with retained := [] }, i3c := {} } 0 straps.toNat
  .next (if held then { s1 with tap := { s1.tap with coldLow := true } } else bootOrWait s1)

/-- Main power is lost (15 R477): a cold reset, and the device waits for the next edge of COLD_RST#.
DEDUCED: notes/assumptions/46. -/
def powerLost (s : State) : State := coldReset s 2 (strapsOf s)

/-- MAIN_POWER_LOSS (15 R477).
DEDUCED: notes/assumptions/49. -/
def execMainPowerLoss (s : State) : Out := .next (powerLost s)

/-- BOOT_WATCHDOG_EXPIRY (15 R497): the image that was running is recorded, and the next attempt starts from the next
one; TRIES is kept.
DEDUCED: notes/assumptions/27, 44. -/
def execBootWatchdogExpiry (s : State) : Out :=
  match s.rst.bootBy with
  | none => .next s
  | some t =>
    if !ranOut s t || bootReady s then .next s
    else
      let tries := min 15 (regBits s 0x300014 23 20 + 1)
      let img := s.rst.image
      let s1 := islandFault s { cls := 0x15, unit := unitId 0x0E 0, outcome := 4, cause := img }
      let s2 := regSetBits (coldReset s1 9 (strapsOf s)) 0x300014 23 20 tries
      .next (startBoot (modRst s2 fun r => { r with ended := if img = 0 then none else some img }))

/-! ### Sessions across a reset -/

/-- A context across a reset of warm scope (15 R481): disabled; its descriptors lost; its session suspended at its last
released step.
DEDUCED: notes/assumptions/47. -/
def suspendCtx (k : Ctx) : Ctx :=
  let kept := match k.output with
    | some o => if o.released then k.session else (match o.before with | some x => some x | none => k.session)
    | none => k.session
  { k with
    enable := false, enabled := false, standby := false, error := false, errCode := 0, noWrites := false, stopped := none
    session := kept, suspended := k.session.map fun _ => 0
    suspCheck := if k.suspended.isSome then k.suspCheck else (k.ver, k.pasidEn, k.pasid)
    queue := [], waiting := none, buffers := [], output := none, holdTimer := none, frameHeld := false, space := none
    events := [], coalesce := none, unsignalled := 0, readyAt := none, demoted := false, paused := false, stepTicks := 0
    flush := 0, truncTerms := 0, reissue := 0, special := 0 }

/-- The array's work is gone (15 R481): domains idle, packets dropped.
DEDUCED: notes/assumptions/47. -/
def stopArray (a : Arr) : Arr :=
  { a with
    doms := a.doms.map fun e => (e.1, { e.2 with
      phase := .idle, batch := none, parked := [], ready := [], readyBy := none, sliceEnd := none, cut := false, losses := [], prefetch := [], pfStall := 0
      halted := false, installing := false, resumes := [] })
    memStacks := a.memStacks.map fun e => (e.1, { e.2 with
      dests := [], waits := [], ports := [], tel := {}, frozen := e.2.frozen.map fun f => { f with tel := {}, cur := [], busy := false }, redFaults := [], fresh := false })
    flights := [], accs := [], kern := kernStart 1 [] [] }

/-- The Director after a reset (08 R291; 05 R179, R180): only complete T1 copies are reused, resident copies, requests and lookups are
gone. -/
def resetDirector (p : Plc) : Plc :=
  { p with
    units := p.units.map fun u => { u with t0 := none, t1 := if u.moving && u.dest.isSome && u.t1.isNone then none else u.t1, staging := false, moving := false, copied := false, reads := 0, dest := none }
    caps := p.caps.map fun e => (e.1, if e.2 = .draining || e.2 = .returning then .inService else e.2)
    capSt := 0, capReason := 0, capRun := none, placing := false, lookup := none, migUsed := 0, migSince := 0, drainUsed := 0, drainSince := 0 }

/-! ### Warm scope -/

/-- Counts that a warm reset clears, beside those of the stacks (14 R469, R474; and each block's register table). -/
def warmCounts : List Nat :=
  [0x1000080, 0x1000084, 0x1000088, 0x100008C, 0x1000090, 0x10000A0, 0x10000A4] ++ (List.range 9).map (0x1C00080 + 4 * ·) ++
    (List.range 10).map (0x1800080 + 4 * ·) ++ (List.range 4).map (0x1400030 + 4 * ·) ++ [0x3000044, 0x3000048] ++
    (List.range 5).map (0x3000050 + 4 * ·) ++ (List.range 4).map (0x3400040 + 4 * ·) ++ [0x100030, 0x100034] ++ (List.range 4).map (0x200020 + 4 * ·)

/-- PERST# clears every CTX_VFMAP entry, the MSI-X tables and their pending bits (15 R479); the TDIs are unlocked, their contexts' sessions freed and their
granules zeroed (13 R432).
DEDUCED: notes/assumptions/47. -/
def clearFunctions (s : State) : State :=
  let s1 := (s.sec.tdi.map Prod.fst).foldl (fun t v =>
    let cs := (List.range 64).filterMap (slotCtx t v)
    let t1 := cs.foldl (fun u c => modCtx (releaseSession u c) c fun k => { k with suspended := none }) t
    setTdi (modMem t1 fun m => markPending m fun g => cs.contains (Config.granuleOwner g)) v .unlocked) s
  { s1 with rf := { s1.rf with vals := s1.rf.vals.filter fun e => !(decide (0x804000 ≤ e.1) && decide (e.1 < 0x807F00)), msix := [], pba := [] } }

/-- A die under a reset of warm scope: one that is in service, tested or in reset is reset; others stay as they are.
DEDUCED: notes/assumptions/47. -/
def warmDie (x : Die) : Die :=
  match x.st with
  | .inService | .testing | .reset => { x with st := .reset, returning := false }
  | _ => { x with returning := false }

/-- The memories pass into self refresh (08 R290). -/
def selfRefresh (s : State) : Mem :=
  { s.mem with
    rsv := (List.range 8).foldl (fun t j => if dieUp s (8 + j) then tabMod t {} j fun r => { r with self_ := true, hot := true } else t) s.mem.rsv
    ports := (List.range 4).foldl (fun t p => if dieUp s (16 + p) then tabMod t {} p fun q => { q with sr := true, srOk := true } else t) s.mem.ports }

/-- A warm, watchdog or PERST# reset (15 R478 to R482; 08 R290, R291; 10 R340, R356; 18 R559): the hub and the dies are reset, power,
optics, the island, BAR0, provisioning and instances are kept. During a cold boot PERST# resets the PCIe logic alone, and
the others do nothing (15 R479, R501).
DEDUCED: notes/assumptions/47. -/
def warmReset (s : State) (bit : Nat) (perst : Bool) : State :=
  if !bootReady s && (coldBoot s || stageOf s = 0xF) then (if perst then clearFunctions s else s)
  else
    let s0 := { s with ctxs := s.ctxs.map fun e => (e.1, suspendCtx e.2) }
    let s1 := resetDma (if perst then clearFunctions s0 else s0) fun _ => true
    let s2 := { s1 with
      mgmt := []
      arr := { stopArray s1.arr with dies := s1.arr.dies.map fun e => (e.1, warmDie e.2) }
      plc := resetDirector s1.plc
      flc := { s1.flc with hubBuf := [], starts := [], stall := none }
      sec := { s1.sec with spdm := [], moving := none, bootOk := false, cmds := [] }
      fab := {}
      pair := { auth := s1.pair.auth, claimMax := s1.pair.claimMax, copies := s1.pair.copies }
      sil := { banks := s1.sil.banks.map fun e => (e.1, { e.2 with seg := none, users := [] }), scans := [] }
      base := { s1.base with chans := [], flows := [] }
      mem := selfRefresh s1
      dma := { s1.dma with retries := [], waits := [], engines := [], hwm := 0 }
      pwr := { s1.pwr with clk := s1.pwr.clk.map fun e => (e.1, { e.2 with step := 7, pend := none, locked := false, ramp := none }), hold := 0, released := [] }
      flt := { s1.flt with ok := false, coalesce := none }
      inj := State.reset.inj
      rf := { s1.rf with wlogCount := 0, wlog := [], latches := [],
                            vals := s1.rf.vals.filter fun e => !(decide (0x1501000 ≤ e.1) && decide (e.1 < 0x1501400)), sels := s1.rf.sels.filter fun e => decide (e.1 % 2 ^ 26 < 0x3800000) } }
    let s3 := warmCounts.foldl (fun t o => regPut t o 0#32) (installRemaps s2)
    let s4 := regPut (regSetBits (regSetBits (raiseBit (regPut s3 0x1000000 0#32) 0x300000 bit) 0x300008 29 29 0) 0x3000100 31 31 0) 0x300014 ((regVal s 0x300014) &&& 0x00F00000#32)
    let s5 := regSetBits s4 0x400014 31 31 0
    modRst s5 fun r => { r with warmReset := true, bootBy := none, wdtBy := none, warmBy := none, images := [], image := 0, recovering := false }

/-- PERST (15 R477, R479).
DEDUCED: notes/assumptions/47. -/
def execPerst (s : State) : Out := .next (warmReset s 4 true)

/-- Whether PERST# is asserted in this tick (15 R501): by a command still to come, or by one that has acted. -/
def perstNow (s : State) : Bool :=
  (s.pending.any fun q => match q with | .perst => true | _ => false) ||
    (match tabFind s.rf.setAt 0x300000 with | some (t, v) => decide (t = s.gt) && v.getLsbD 4 | none => false)

/-- A warm reset is asked for (15 R477): with PERST# in its tick there is one reset, of PERST#'s scope (R501). -/
def askWarm (s : State) : State := if perstNow s then s else warmReset s 5 false

/-- WARM (15 R477, R503): a write of 1 to RST_CTL.WARM, or a function-level reset of the PF.
DEDUCED: notes/assumptions/47. -/
def execWarm (s : State) : Out := .next (askWarm s)

/-- RESET_RELEASE (08 R290): the memories leave self refresh, the hub runs and the boot resumes (15 R499). -/
def execResetRelease (s : State) : Out :=
  if !s.rst.warmReset || stageOf s ≠ 0 || bootReady s || (dieOf s 20).st ≠ .reset then .next s
  else
    let s1 := modMem s fun m => { m with
      rsv := m.rsv.foldl (fun t e => tabMod t {} e.1 fun r => { r with self_ := false }) m.rsv
      ports := m.ports.foldl (fun t e => tabMod t {} e.1 leaveSelfRefresh) m.ports }
    .next (startImages (modDie s1 20 fun x => { x with st := .inService, beat := s.gt }))

/-- SUSPEND_EXPIRY (15 R481): SUSPEND_S after the reset an unresumed session is freed. -/
def execSuspendExpiry (c : BitVec 12) (s : State) : Out :=
  match (ctxOf s c.toNat).suspended with
  | some t =>
    if bootReady s && decide (t ≤ s.gt) then .next (modCtx (releaseSession s c.toNat) c.toNat fun k => { k with suspended := none })
    else .next s
  | none => .next s

/-- VF_FUNCTION_LEVEL_RESET (15 R477; 13 R432; 10 R340): the VF's contexts are disabled, its TDI moves to ERROR, copies for its contexts
halt, and its MSI-X entries are reset.
PRESUMED: notes/assumptions/71. -/
def execVfFunctionLevelReset (v : BitVec 6) (s : State) : Out :=
  if v = 0#6 then .next s
  else
    let cs := (List.range 64).filterMap (slotCtx s v.toNat)
    let own (i : Nat) : Bool := decide (i / 32 = v.toNat)
    let s1 := { s with rf := { s.rf with msix := s.rf.msix.filter fun e => !own e.1, pba := s.rf.pba.filter fun i => !own i } }
    .next (leaveTdi (resetDma s1 fun n => cs.contains (bits (dmaCtl s n) 15 0)) v.toNat true)

/-- WATCHDOG_EXPIRY (15 R484): the first expiry writes a record and interrupts the secure firmware; the second, without a
kick in between, resets.
DEDUCED: notes/assumptions/27. -/
def execWatchdogExpiry (s : State) : Out :=
  match s.rst.wdtBy with
  | none => .next s
  | some t =>
    let w := regVal s 0x300008
    if !ranOut s t || !w.getLsbD 31 || !bootReady s then .next s
    else if w.getLsbD 29 then .next (warmReset s 6 false)
    else
      let s1 := fault (regSetBits s 0x300008 29 29 1) { cls := 0x15, unit := unitId 0x0E 0, outcome := 0 }
      .next (send (modRst s1 fun r => { r with wdtBy := some (s.gt + 1000000 * bits w 15 0) }) (.plain "watchdog interrupt" 0))

/-! ### Thermal trip -/

/-- A thermal trip (14 R464; 15 R478, R498, R503): the island keeps GT, its timers, the straps, RST_CAUSE and RST_CFG; T2 of the
port dies that did not trip survives in self refresh (08 R289); sessions are suspended; every domain switches off.
DEDUCED: notes/assumptions/48. -/
def tripReset (s : State) (p : Nat) : State :=
  let s0 := islandFault s { cls := 0x14, unit := unitId 1 ((dieOfPd p).getD 20), outcome := 4 }
  let live := (List.range 4).filter fun q => q + 24 ≠ p && dieUp s0 (16 + q)
  let a := stopArray s0.arr
  let m := markPending s0.mem fun g => decide (2 ^ 21 ≤ g) || !live.contains (g / 2 ^ 19)
  let c := coldReset s0 0 (strapsOf s0)
  let s1 := { c with
    gt := s.gt
    ctxs := s0.ctxs.map fun e => (e.1, suspendCtx e.2)
    insts := s0.insts
    arr := { doms := a.doms, memStacks := a.memStacks.map fun e => (e.1, ({ domain := e.2.domain } : Stack)) }
    plc := { resetDirector s0.plc with units := (resetDirector s0.plc).units.map fun u => { u with t1 := none }, caps := [], res0 := 0#32, res1 := 0#32 }
    mem := { clean := m.clean, cells := m.cells.filter fun z => decide (z.1 < 2 ^ 42)
             ports := live.map fun q => (q, ({ srOk := true } : PortMem)) }
    rst := { c.rst with tripped := true, srOk := live, coolBy := some (s.gt + 1000000000 * regBits s0 0x300018 23 16) } }
  regPut (noteSet (regPut s1 0x300000 ((regVal s0 0x300000) ||| 8#32)) 0x300000 8#32) 0x300018 (regVal s0 0x300018)

/-- TRIP_COOL_EXPIRY (15 R498): with AUTO_BOOT a cold boot follows. -/
def execTripCoolExpiry (s : State) : Out :=
  match s.rst.coolBy with
  | none => .next s
  | some t =>
    if s.gt < t then .next s
    else
      let s1 := modRst s fun r => { r with coolBy := none }
      .next (if (regVal s 0x300018).getLsbD 8 then startBoot s1 else s1)

/-! ### Fatal errors and lost clocks -/

/-- A die-local reset with its copies halted (10 R340). -/
def resetDie (s : State) (i cls cause : Nat) (srOk injected : Bool) : State :=
  beginDieReset (resetDma s fun n => (resetScope i).any fun j => touchesDie s j n) i cls cause srOk injected

/-- Whether a reset is registered in this tick and waits (18 R556). -/
def resetWaits (s : State) : Bool :=
  s.pending.any fun q => match q with
    | .coldRst _ _ | .standbyPowerOn _ _ | .mainPowerLoss | .perst | .warm => true
    | .registerWrite _ (.bar0 off) (.dword v) => decide (off.toNat = 0x300004) && v.getLsbD 0
    | _ => false

/-- DIE_LOCAL_RESET (15 R485): firmware resets a die, or a stack with its lower die; not where a reset of the device waits in its tick (08
R291). -/
def execDieLocalReset (i : BitVec 5) (srOk : Bool) (s : State) : Out :=
  let i := i.toNat
  if resetWaits s || (dieOf s 20).st = .reset || i = 20 || 29 ≤ i || (dieOf s i).st = .off || (dieOf s i).st = .ramping || (dieOf s i).st = .reset || (21 ≤ i && !dieUp s (i - 21)) then .next s
  else .next (resetDie s i (dieClass i) 0 srOk false)

/-- FATAL_ERROR (15 R483): kinds 0 island, 1 security block: cold; 2 hub: warm; 3 memory die, 4 compute stack, 5 refresh and
training control: die-local reset of die `i`. While a reset's sequence runs, any is cold. The island's record comes
first.
DEDUCED: notes/assumptions/49. -/
def execFatalError (kind : BitVec 3) (i : BitVec 5) (addr : Word) (s : State) : Out :=
  let k := kind.toNat
  let i := i.toNat
  if 5 < k || (3 ≤ k && (20 ≤ i || (k = 4 && 8 ≤ i) || (k ≠ 4 && i < 8) || !dieUp s i)) then .next s
  else
    let unit := if k < 2 then unitId 0x0E 0 else if k = 2 then unitId 1 20 else unitId 1 i
    let s1 := islandFault s { cls := 0x15, unit := unit, outcome := 4, cause := k, addr := addr.toNat }
    if k < 2 || !bootReady s then .next (startBoot (coldReset s1 8 (strapsOf s1)))
    else if k = 2 then .next (warmReset s1 8 false)
    else .next (resetDie s1 i 0x15 k true false)

/-- DIE_PLL_UNLOCK (15 R486): a PLL unlocked for 1 µs with REFCLK present: of a die by its index, of base field f as 32 + f. The
hub's is a warm reset.
DEDUCED: notes/assumptions/47. -/
def execDiePllUnlock (i : BitVec 6) (srOk : Bool) (s : State) : Out :=
  let i := i.toNat
  if !s.pwr.refOk then .next s
  else if 32 ≤ i ∧ i < 44 then .next ((endpointsIn s (i - 32)).foldl failPath s)
  else if i = 20 then .next (warmReset (fault s { cls := 0x12, unit := unitId 1 20, outcome := 4 }) 5 false)
  else if 29 ≤ i || !dieUp s i then .next s
  else .next (resetDie s i 0x12 0 srOk false)

end Sys2Proof.Machine
end

