-- ==== Sys2Proof/Machine/Power.lean ====
section
/-!
DEFINITION. The power controller: samples, issue hold, Drydown, replica paths, temperatures and the reference clock
(14_power_clocks_thermal.md R446, R451, R454 to R465; 07_skeltil_base.md R241).
-/
namespace Sys2Proof.Machine

/-! ### Package power and holds (R455, R456, R459) -/

/-- PWR_CAP.CAP_W, PEAK_PCT and HYST_PCT (14 R471). -/
def capW (s : State) : Nat := regBits s 0x200004 10 0
def peakPct (s : State) : Nat := regBits s 0x200004 23 16
def hystPct (s : State) : Nat := regBits s 0x200004 26 24

/-- Whether P10 exceeds PEAK_PCT × cap / 100 (14 R459). -/
def p10High (s : State) : Bool :=
  let xs := s.pwr.samples.take 10
  decide (peakPct s * capW s * 16 * xs.length < 100 * xs.sum)

/-- Whether P10 lies below the cap. -/
def p10Low (s : State) : Bool :=
  let xs := s.pwr.samples.take 10
  decide (xs.sum < capW s * 16 * xs.length)

/-- A hold is asserted in every domain, counted in PWR_HOLDS (14 R459).
DEDUCED: notes/assumptions/50. -/
def assertHold (s : State) (h : Nat) : State :=
  bump (modPwr s fun p => { p with hold := max p.hold h, holdSince := if p.hold = 0 then s.gt else p.holdSince, released := [] }) 0x200024 1

/-- A power sample is kept (14 R455): package power in 1/16 W, VIN_MAIN in mV and 10 mA, and the regulators' estimates (5 mV,
1/64 W) by domain.
DEDUCED: notes/assumptions/50. -/
def takeSample (s : State) (power vin iin : BitVec 16) (est : List (BitVec 8 × BitVec 16)) : State :=
  modPwr s fun p => { p with samples := (power.toNat :: p.samples).take 1000, vinMv := vin.toNat, iin := iin.toNat
                             est := (est.take 49).map fun e => (e.1.toNat, e.2.toNat) }

/-- A microsecond under hold is counted (14 R459, R474). -/
def countHold (s : State) : State := if s.pwr.hold = 0 then s else bump64 s 0x200028 1

/-- A hold is asserted, or falls back to half, on a sample (14 R459); a boundary of the sample's tick that raised the stage leaves the
judgement to the next sample (R465).
DEDUCED: notes/assumptions/50. -/
def judgeHold (s : State) : State :=
  if s.pwr.raisedAt = some s.gt then s
  else if p10High s && (s.pwr.hold = 0 || s.pwr.released ≠ []) then assertHold s 1
  else if s.pwr.hold = 2 && p10Low s then modPwr s fun p => { p with hold := 1, holdSince := s.gt }
  else s

/-- At stage 10 an odd millisecond lets steps start (14 R457). -/
def startOddSteps (s : State) : State :=
  if s.pwr.stage = 10 && s.gt % 1000000 = 0 then (heldDoms s).foldl formBatch s else s

/-- POWER_SAMPLE (14 R455, R459). -/
def execPowerSample (power vin iin : BitVec 16) (est : List (BitVec 8 × BitVec 16)) (s : State) : Out :=
  .next (judgeHold (countHold (takeSample s power vin iin est)))

/-- HALF_HOLD_TIMEOUT (14 R459): P10 is still high after 20 µs of half hold. -/
def execHalfHoldTimeout (s : State) : Out :=
  if s.pwr.hold = 1 && ranOut s (s.pwr.holdSince + 20000) && p10High s then .next (modPwr s fun p => { p with hold := 2, released := [] })
  else .next s

/-- OVERCURRENT (14 R459): full hold at once, with a record. -/
def execOvercurrent (s : State) : Out :=
  .next (fault (raiseBit (assertHold s 2) 0x200000 8) { cls := 0x13, unit := unitId 0x0E 0, outcome := 0 })

/-- VIN_EXCURSION (14 R446; 17 R534): the input stage shuts down, as at loss of VIN_MAIN; the island records it.
DEDUCED: notes/assumptions/49. -/
def execVinExcursion (s : State) : Out :=
  .next (powerLost (islandFault s { cls := 0x13, unit := unitId 0x0E 0, outcome := 4 }))

/-! ### Drydown (R457, R458) -/

/-- Requests a stage; a raise counts in PWR_STAGE_UPS (14 R458, R474). -/
def requestStage (s : State) (n : Nat) : State :=
  let s1 := if s.pwr.stage < n then bump s 0x200020 1 else s
  settleStage (retargetAll (modPwr s1 fun p => { p with wanted := n }))

/-- A stage is left for the next higher one that changes something, and what it left at is noted (14 R458). -/
def stageUp (s : State) (mean : Nat) : State :=
  let s1 := modPwr s fun q => { q with left := tabPut q.left q.stage (mean, s.gt) }
  match higherStage s1 s1.pwr.stage with | some m => requestStage s1 m | none => s1

/-- The power below which a lower stage is tried, in hundredths of 1/16 W (14 R458). -/
def bandOf (s : State) : Nat := capW s * (100 - hystPct s) * 16

/-- Whether a lower stage may be tried again (14 R458).
DEDUCED: notes/assumptions/51. -/
def mayReturn (s : State) (m : Nat) : Bool :=
  match tabFind s.pwr.left m with
  | none => true
  | some l => decide (100000000 < s.gt - l.2) || decide (100 * l.1 < bandOf s)

/-- The next lower stage that changes something is requested, unless it was left above the band lately (14 R458). -/
def stageDown (s : State) : State :=
  match lowerStage s s.pwr.stage with
  | some m => if mayReturn s m then requestStage s m else s
  | none => s

/-- DRYDOWN_EVALUATION (14 R458).
DEDUCED: notes/assumptions/51. -/
def execDrydownEvaluation (s : State) : Out :=
  let p := s.pwr
  if p.stage ≠ p.wanted || !ranOut s (p.stageAt + 100000) then .next s
  else
    let xs := p.samples.take (min 1000 ((s.gt - p.stageAt) / 1000))
    let low := decide (100 * xs.sum < bandOf s * xs.length)
    let s1 := if low then s else modPwr s fun q => { q with highAt := s.gt }
    if capW s * 16 * xs.length < xs.sum ∧ p.stage < 10 then .next (stageUp s1 (xs.sum / max 1 xs.length))
    else if 0 < p.stage ∧ low = true ∧ p.highAt + 5000000 ≤ s.gt then .next (stageDown s1)
    else .next s1

/-! ### Replica paths (R454) -/

/-- The isolation domain of a compute die. -/
def domOfDie (s : State) (i : Nat) : Option Nat := (stackOf s (i / 2)).domain

/-- A die warns (14 R454): the margin ceiling of its domain falls; a third warning within 10 s pins the die. A rise of the same tick is
withdrawn (R465).
DEDUCED: notes/assumptions/51. -/
def replicaWarn (s : State) (i : Nat) : State :=
  let r := replicaOf s i
  let ws := (r.warns.filter fun t => decide (s.gt < t + 10000000000)) ++ [s.gt]
  let s1 := bump s 0x100034 1
  match domOfDie s i with
  | none => modPwr s1 fun p => { p with reps := tabMod p.reps {} i fun x => { x with warns := ws } }
  | some d =>
    let down := min 7 ((clkOf s d).step + 1)
    let pin := decide (3 ≤ ws.length) && r.pinned.isNone
    let s2 := modPwr s1 fun p => { p with reps := tabMod p.reps {} i fun x => { x with warns := ws, pinned := if pin then some down else x.pinned } }
    let s3 := modClk s2 d fun x => { x with
      marginCeil := max x.marginCeil down, warnedAt := s.gt, ramp := if x.rampAt = s.gt then none else x.ramp }
    retarget (if pin then fault s3 { cls := 0x19, unit := unitId 1 ((dieOfPd i).getD 0), outcome := 0, domains := [d] } else s3) d

/-- REPLICA_SAMPLE (14 R454): the slacks of a compute die's 32 replicas, in units of 0.5 %. Less than 8 % in three samples in
a row is a warning.
DEDUCED: notes/assumptions/75. -/
def execReplicaSample (i : BitVec 4) (slacks : List (BitVec 8)) (s : State) : Out :=
  let i := i.toNat
  match dieOfPd i with
  | none => .next s
  | some die =>
    if !dieUp s die then .next s
    else
      let r := replicaOf s i
      let xs := (List.range 32).map fun k => ((slacks.getD k 0xFF#8).toNat)
      let low := List.zipWith (fun n x => if x < 16 then n + 1 else 0) r.low xs
      let warn := low.any (3 ≤ ·)
      let s1 := modPwr s fun p => { p with reps := tabMod p.reps {} i fun x =>
        { x with low := if warn then List.replicate 32 0 else low, minSlack := xs.foldl min x.minSlack } }
      .next (if warn then replicaWarn s1 i else s1)

/-- MARGIN_RECOVERY (14 R454): 100 ms without a warning, once per second; pinned dies hold the ceiling. -/
def execMarginRecovery (d : BitVec 3) (s : State) : Out :=
  let d := d.toNat
  let x := clkOf s d
  if x.marginCeil ≤ pinnedCeil s d || !ranOut s (x.warnedAt + 100000000) || (decide (0 < x.roseAt) && decide (s.gt < x.roseAt + 1000000000)) then .next s
  else .next (retarget (modClk s d fun y => { y with marginCeil := y.marginCeil - 1, roseAt := s.gt }) d)

/-! ### Temperatures (R461 to R464) -/

/-- The sensors of a thermal die (14 R461). -/
def sensorCount (i : Nat) : Nat := if i < 16 then 96 else 8

/-- The highest of some readings. -/
def highest (xs : List Int) : Option Int := xs.foldl (fun m x => match m with | some y => some (max x y) | none => some x) none

/-- The highest thermal estimate of the banks of a reservoir's group (14 R462; 06 R202): of banks that were calibrated, stale
ones for 2 ms. -/
def bankTemp (s : State) (g : Nat) : Option Int :=
  highest ((List.range 16).filterMap fun b =>
    let q := bankAt s g b
    if q.calcnt = 0 || (q.stale && decide (q.staleAt + 2000000 < s.gt)) then none else some q.coef.temp)

/-- The governing temperature of a die in 1/16 °C (14 R462), from its valid readings; none where no source is valid.
DESIGN CHOICE: notes/assumptions/52. -/
def governing (s : State) (i : Nat) (own : List Int) (suspect : Bool) : Option Int :=
  let b := baseTemp s i
  let base := if b.valid then [b.temp] else []
  if i < 16 then
    if i % 2 = 0 then
      highest (own ++ (if suspect then base.map fun (t : Int) => t + ((16 * regBits s 0x200080 3 0 : Nat) : Int) else []))
    else if own.length < 48 then some (thermOf s (i - 1)).gov else highest own
  else if i < 24 then highest (own ++ base ++ (bankTemp s (i - 16)).toList)
  else highest (own ++ base)

/-- One sample of a latch (14 R463): threshold in 1/16 °C; whether every higher latch is clear. -/
def stepLatch (t g : Int) (clear : Bool) (l : ThLatch) : ThLatch :=
  if !l.set then
    if t ≤ g then (if l.c + 1 = 100 then ⟨true, 0, 0⟩ else { l with c := l.c + 1 }) else { l with c := l.c - 1 }
  else if g < t - 48 then
    (if 100 ≤ l.r + 1 then (if clear then ⟨false, 0, 0⟩ else { l with r := 100 }) else { l with r := l.r + 1 })
  else { l with r := l.r - 1 }

/-- The marking of a lower die's own sensors (14 R462): whether SUSPECT, and since when the excess has been high or
calm. -/
def suspectStep (gt : Nat) (base : TempEst) (x : Therm) : Therm :=
  if !base.valid || x.sensors = 0 then { x with excess := none, calm := none }
  else
    let e := base.temp - x.ownMean
    let ex : Option Nat := if 96 < e then some (x.excess.getD gt) else none
    let ca : Option Nat := if e ≤ 48 then some (x.calm.getD gt) else none
    let marked : Bool := match ex with | some t => decide (10000000 < gt - t) | none => false
    let cleared : Bool := match ca with | some t => decide (100000000 ≤ gt - t) | none => false
    { x with excess := ex, calm := ca, suspect := if x.suspect then !cleared else marked }

/-- Whether a THROTTLE holds a domain's ceiling: of a die of it, of a shared die, or of a hot field (14 R464).
DEDUCED: notes/assumptions/53. -/
def throttled (s : State) (d : Nat) : Bool :=
  (computeDies s d ++ (List.range 13).map (16 + ·)).any (throttling s)

/-- The tick from which no THROTTLE holds a domain. -/
def noteThrottle (s : State) : State :=
  (List.range 8).foldl (fun t d => if throttled t d then modClk t d fun x => { x with coolAt := s.gt } else t) s

/-- The thermal ceiling of a domain falls one step below the step in force, or by a further step (14 R464). -/
def lowerThermal (s : State) (d : Nat) (further : Bool) : State :=
  retarget (modClk s d fun x => { x with thCeil := min 7 (if further then max (x.thCeil + 1) (x.step + 1) else max x.thCeil (x.step + 1)) }) d

/-- The sensors of a die are read (14 R461, R462): failed ones stay excluded. -/
def readSensors (s : State) (i : Nat) (readings : List (BitVec 16)) : Therm × List Int :=
  let x := thermOf s i
  let rs := (readings.take (sensorCount i)).map BitVec.toInt
  let bad := (List.range rs.length).filter fun k => x.failed.contains k || decide (rs.getD k 0 < -320) || decide (2080 < rs.getD k 0)
  let own := ((List.range rs.length).filter fun k => !bad.contains k).map fun k => rs.getD k 0
  ({ x with failed := bad, sensors := own.length, ownMax := (highest own).getD 0, ownMean := own.sum / (max 1 own.length : Nat) }, own)

/-- Stores a die's thermal state. -/
def putTherm (s : State) (i : Nat) (x : Therm) : State := modPwr s fun p => { p with therm := tabSet p.therm {} i x }

/-- What the latches of a die do (14 R463, R464): a TRIP resets; a THROTTLE of a compute die lowers its domain's ceiling; a
WARN writes a telemetry record. -/
def thermalActs (s : State) (i : Nat) (old x : Therm) : State :=
  if x.trip.set && !old.trip.set then tripReset s i
  else
    let s1 := if x.warn.set && !old.warn.set then send s (.plain "thermal warning" i) else s
    let s2 := if x.throt.set && !old.throt.set && i < 16 then
        match domOfDie s1 i with | some d => lowerThermal s1 d false | none => s1
      else s1
    let s3 := noteThrottle s2
    let s4 := if 16 ≤ i && i < 24 then refreshTemp s3 (i - 16) else s3
    if x.suspect && !old.suspect then fault s4 { cls := 0x14, unit := unitId 1 ((dieOfPd i).getD 0), outcome := 0 } else s4

/-- The sensors of a die read, and for a lower compute die whether they are suspect (14 R461, R462). -/
def readTherm (s : State) (i : Nat) (readings : List (BitVec 16)) : Therm :=
  let r := readSensors s i readings
  if i < 16 ∧ i % 2 = 0 then suspectStep s.gt (baseTemp s i) r.1 else r.1

/-- One sample of a governing temperature moves the three latches (14 R463). -/
def moveLatches (gt : Nat) (gov : Int) (x : Therm) : Therm :=
  let trip := if x.trip.set then x.trip else stepLatch 1760 gov true x.trip
  let throt := stepLatch 1600 gov (!trip.set) x.throt
  let warn := stepLatch 1520 gov (!trip.set && !throt.set) x.warn
  let hot : Option Nat := if throt.set then (if gov < 1600 || !x.throt.set then some gt else x.hotSince) else none
  { x with gov := gov, trip := trip, throt := throt, warn := warn, hotSince := hot }

/-- THERMAL_SAMPLE (14 R461 to R464): the sensors of a powered die, in 1/16 °C. Where no source of its governing temperature
is valid the spec gives none: a free value.
DESIGN CHOICE: notes/assumptions/52. DEDUCED: notes/assumptions/75. -/
def execThermalSample (i : BitVec 5) (readings : List (BitVec 16)) (s : State) : Out :=
  let i := i.toNat
  if 28 < i || pdOf s i ≠ .on then .next s
  else
    let x1 := readTherm s i readings
    let fr := drawFree s
    let g := governing s i (readSensors s i readings).2 x1.suspect
    let s1 := if g.isSome then s else fr.2
    let x2 := moveLatches s.gt (g.getD (BitVec.toInt (BitVec.extractLsb' 0 16 fr.1))) x1
    .next (retargetAll (thermalActs (putTherm s1 i x2) i (thermOf s i) x2))

/-- THROTTLE_STEP (14 R464): 5 ms in THROTTLE in which G never fell below 100 °C. -/
def execThrottleStep (i : BitVec 5) (s : State) : Out :=
  let i := i.toNat
  let x := thermOf s i
  match x.hotSince, domOfDie s i with
  | some t, some d =>
    if i < 16 && x.throt.set && ranOut s (t + 5000000) then
      .next (lowerThermal (putTherm s i { x with hotSince := some s.gt }) d true)
    else .next s
  | _, _ => .next s

/-- THERMAL_CEILING_RISE (14 R464): 5 ms with no THROTTLE latch of the domain or of a shared die. -/
def execThermalCeilingRise (d : BitVec 3) (s : State) : Out :=
  let d := d.toNat
  let x := clkOf s d
  if x.thCeil = 0 || throttled s d || !ranOut s (x.coolAt + 5000000) then .next s
  else .next (retarget (modClk s d fun y => { y with thCeil := y.thCeil - 1, coolAt := s.gt }) d)

/-- What published base temperatures start: a field at 104 °C is a THROTTLE of its dies until it falls below 101 °C (14 R464);
reservoirs' refresh follows (08 R260); warm-up is timed (15 R500).
DEDUCED: notes/assumptions/53. -/
def publishTemps (s : State) : State :=
  let fs := s.base.fieldTemps
  let hot := (List.range 12).filter fun f => decide (1664 ≤ fs.getD f 0) || (s.pwr.hotFields.contains f && decide (1616 ≤ fs.getD f 0))
  let fresh := hot.filter fun f => !s.pwr.hotFields.contains f
  let s2 := modPwr s fun p => { p with hotFields := hot }
  let s3 := fresh.foldl (fun t f => if f < 8 then (match (stackOf t f).domain with | some d => lowerThermal t d false | none => t) else t) s2
  let s4 := (List.range 8).foldl refreshTemp (noteThrottle s3)
  let warm := decide (fs.length = 12) && fs.all (880 ≤ ·)
  retargetAll (modRst s4 fun r => { r with warmSince := if warm then some (r.warmSince.getD s.gt) else none })

/-- The locked transport rings beneath a die's footprint (07 R241): those of its endpoints' own ports, 2,560 to a port. -/
def ringsBelow (s : State) (i : Nat) : Nat :=
  let ports := if i = 20 then [20, 21] else [i]
  (ports.map fun p => if s.base.acquired.contains (fieldOf p) then
    2560 - (s.base.rings.countP fun e => decide (e.1 % 64 = p) && decide (e.2.st ≠ .locked)) else 0).sum

/-- A die's estimate (07 R241): T_base and θ times the power its regulator reports, where at least 256 rings contribute.
DESIGN CHOICE: notes/assumptions/116. -/
def dieEstimate (s : State) (i : Nat) (tBase : Int) : TempEst :=
  let n := ringsBelow s i
  ⟨decide (256 ≤ n), min 4095 n, tBase + ((Config.theta i * (s.pwr.est.getD (pdOfDie i) (0, 0)).2 / 65536 : Nat) : Int)⟩

/-- BASE_TEMP_PUBLISH (07 R241): the mean temperature of the locked rings beneath each die from index 0 on, and of the fields' rings, in
1/16 °C, from which the estimates follow; then what they start (`publishTemps`).
DEDUCED: notes/assumptions/75. -/
def execBaseTempPublish (dies fields : List (BitVec 16)) (s : State) : Out :=
  let temps := ((dies.take 21).zipIdx).foldl (fun m z => tabSet m {} z.2 (dieEstimate s z.2 z.1.toInt)) s.base.temps
  .next (publishTemps (modBase s fun b => { b with temps := temps, fieldTemps := (fields.take 12).map BitVec.toInt }))

/-! ### The reference clock (R451) -/

/-- REFCLK_LOST (14 R451, R465; 17 R534): holdover, with a record; PLL locks under way are discarded.
DEDUCED: notes/assumptions/49. -/
def execRefclkLost (s : State) : Out :=
  if !s.pwr.refOk then .next s
  else .next (fault (modPwr (raiseBit s 0x100000 5) fun p => { p with
    refOk := false, holdover := some s.gt, clk := p.clk.map fun e => (e.1, { e.2 with locked := false }) })
      { cls := 0x12, unit := unitId 0x0E 0, outcome := 0 })

/-- HOLDOVER_EXPIRY (14 R451): no operation starts after the next boundary; a record is written (17 R534 CLOCK).
DEDUCED: notes/assumptions/49. -/
def execHoldoverExpiry (s : State) : Out :=
  match s.pwr.holdover with
  | none => .next s
  | some t =>
    if !ranOut s (t + 10000000) || s.pwr.halted then .next s
    else
      let s1 := modPwr { s with arr := { s.arr with noOps := true } } fun p => { p with halted := true }
      .next (fault s1 { cls := 0x12, unit := unitId 0x0E 0, outcome := 7, domains := activeDoms s, interrupts := activeDoms s ≠ [] })

/-- REFCLK_RETURN (14 R451): the PLLs relock; a halt ends. -/
def execRefclkReturn (s : State) : Out :=
  if s.pwr.refOk then .next s
  else
    let was := s.pwr.halted
    let s1 := modPwr s fun p => { p with refOk := true, holdover := none, halted := false }
    if !was then .next s1
    else
      let s2 := { s1 with arr := { s1.arr with noOps := false } }
      .next ((List.range 8).foldl (fun t d => formBatch (startIfReady t d) d) s2)

end Sys2Proof.Machine
end

