-- ==== Sys2Proof/Machine/Faults.lean ====
section
/-!
DEFINITION. Heartbeats, regulator faults, the fault log's message and the faults that injection starts (17_faults.md R535 to
R551).
-/
namespace Sys2Proof.Machine

/-! ### Heartbeats and regulators (R535, R538) -/

/-- Whether a die's heartbeat reaches the hub: the die is in service, and an upper die's goes through its lower die (17
R535). -/
def sendsBeat (s : State) (i : Nat) : Bool :=
  i < 29 && i ≠ 20 && dieUp s i && (i < 21 || dieUp s (i - 21))

/-- HEARTBEAT (17 R535): one that comes after the limit finds its die lost (01 R28). -/
def execHeartbeat (i : BitVec 5) (s : State) : Out :=
  let n := i.toNat
  .next (if !sendsBeat s n then s
    else if (dieOf s n).beat + 4000 < s.gt then loseDie s n (dieClass n) 0 false
    else modDie s n fun x => { x with beat := s.gt })

/-- HEARTBEAT_TIMEOUT (17 R535): 4 µs without a heartbeat. -/
def execHeartbeatTimeout (i : BitVec 5) (s : State) : Out :=
  let n := i.toNat
  .next (if n < 29 && n ≠ 20 && dieUp s n && ranOut s ((dieOf s n).beat + 4000) then loseDie s n (dieClass n) 0 false else s)

/-- Runs a loss as a part of the newest record's fault (17 R538).
DEDUCED: notes/assumptions/26. -/
def joined (s : State) (f : State → State) : State :=
  let t := f { s with flt := { s.flt with joined := true } }
  { t with flt := { t.flt with joined := false } }

/-- An endpoint whose path and logic are lost with its field (17 R538).
DEDUCED: notes/assumptions/26. -/
def loseHomed (s : State) (e : Nat) : State :=
  if s.base.lostEps.contains e then s
  else match dieOfEp e with
    | some 20 => loseEndpoint s e
    | some i => loseDie (modBase s fun b => { b with lostEps := b.lostEps ++ [e] }) i 0x0C 0 false
    | none => loseEndpoint s e

/-- The spare port homed in a field (07_skeltil_base.md R217). -/
def spareIn (f : Nat) : Option Nat := if f = 8 then some 30 else if f = 9 then some 31 else none

/-- The loss of a base field's photonic domain (17 R538): one FIELD fault takes out the endpoints homed in it, an endpoint
on its spare port moves again, and its bundle goes dark.
DEDUCED: notes/assumptions/26. -/
def loseField (s : State) (f : Nat) : State :=
  let s1 := setPd (powerOff (darkField s f) (29 + f)) (29 + f) .fault
  let s2 := fault s1 { cls := 0x0C, unit := unitId 8 f, outcome := 3, permanent := true }
  let s3 := joined s2 fun t => (((List.range 30).filter fun e => fieldOf e = f).foldl loseHomed t)
  let s4 := modBase s3 fun b => { b with failed := ascending (((List.range 30).filter fun e => fieldOf e = f && !b.failed.contains e) ++ b.failed) }
  let s5 := match spareIn f with
    | some q => (match s4.base.remap.find? fun x => x.2 = q with
      | some x => failPath s4 x.1
      | none => modBase s4 fun b => { b with failed := if b.failed.contains q then b.failed else ascending (q :: b.failed) })
    | none => s4
  (upLinks s5 f).foldl (fun t l => dropLink t l.1 l.2 3 false) s5

/-- The loss of the hub's domain (17 R534 HUB): the package's service ends; the island records it. -/
def loseHub (s : State) : State :=
  let s1 := islandFault s { cls := 0x16, unit := unitId 1 20, outcome := 7, domains := activeDoms s, permanent := true }
  let s2 := modDie s1 20 fun x => { x with st := .lost }
  setPd { s2 with arr := { s2.arr with noOps := true, noSteps := true } } 28 .fault

/-- REGULATOR_FAULT (14_power_clocks_thermal.md R447; 17 R534, R535, R538): the regulator of power domain `p` faults.
DEDUCED: notes/assumptions/27. -/
def execRegulatorFault (p : BitVec 6) (s : State) : Out :=
  let p := p.toNat
  if 49 ≤ p || pdOf s p = .off || pdOf s p = .fault then .next s
  else if p = 28 then .next (loseHub s)
  else if 29 ≤ p ∧ p < 41 then .next (loseField s (p - 29))
  else if 41 ≤ p then
    .next (setPd (joined (fault s { cls := 0x0D, unit := unitId 9 ((p - 41) * 16), outcome := 3, cause := p, permanent := true }) fun t => loseGroup t (p - 41)) p .fault)
  else match dieOfPd p with
    | some i => .next (setPd (loseDie s i 0x13 p false) p .fault)
    | none => .next s

/-! ### The log (R545, R548) -/

/-- HUB_FLT_HEAD (17 R548). -/
def fltHead (s : State) : Nat := match s.flt.recs.getLast? with | some r => r.seq | none => 0

/-- FAULT_LOG_COALESCE_EXPIRY (17 R545): one message covers the records formed meanwhile. -/
def execFaultLogCoalesceExpiry (s : State) : Out :=
  match s.flt.coalesce with
  | some t =>
    if s.gt < t then .next s
    else
      let s1 := { s with flt := { s.flt with coalesce := none } }
      .next (if (regVal s 0x800).getLsbD 31 then signalVector s1 0 (regBits s 0x800 10 0) else s1)
  | none => .next s

/-! ### Injection (R550, R551) -/

/-- The kind, the index and the address an injection names. -/
structure InjArgs where
  kind : Nat
  unit : Nat
  idx : Nat
  addr : Nat

/-- The injection that HUB_INJ_TARGET and HUB_INJ_ADDR describe. -/
def injArgs (s : State) (kind : Nat) : InjArgs :=
  let u := (regVal s 0x904).toNat
  ⟨kind, u / 2 ^ 26, u % 2 ^ 26, (regVal s 0x908).toNat + 2 ^ 32 * (regVal s 0x90C).toNat⟩

/-- The parts of a lane's index (17 R542). -/
def laneDie (x : Nat) : Nat := x / 2 ^ 16
def laneBundle (x : Nat) : Nat := x / 2 ^ 8 % 256

/-- Whether a tile ID names a tile that exists (03_harrel_stacks.md R66). -/
def tileExists (t : Nat) : Bool := tileOn t

/-- Whether an injection's target is valid (17 R550). -/
def injValid (s : State) (a : InjArgs) : Bool :=
  match a.kind with
  | 1 => a.unit = 3 && decide (laneBundle a.idx < bundleCount (laneDie a.idx)) && a.idx % 256 < 64
  | 2 => a.unit = 4 && a.idx < 2 ^ 23 && chanExists a.idx
  | 3 => a.unit = 5 && a.idx < 2 ^ 18 && ringExists a.idx
  | 4 => a.unit = 6 && a.idx < 96
  | 6 | 11 => a.unit = 2 && tileExists a.idx
  | 7 => a.unit = 1 && a.idx < 30
  | 10 => a.unit = 0x0A && a.idx / 16 < 12 && a.idx % 16 < 8
  | 5 => (match placeOf s a.addr with | some (.t0 _ _) => true | _ => false)
  | 8 => (match placeOf s a.addr with | some (.t1 _ _) => true | _ => false)
  | 9 => (match placeOf s a.addr with | some (.t2 _ _) => true | _ => false)
  | _ => false

/-- The stack of a die, by the index of 17 R542. -/
def stackOfDie (i : Nat) : Option Nat := if i < 8 then some i else if 21 ≤ i ∧ i < 29 then some (i - 21) else none

/-- The stack behind a physical port. -/
def stackOfPort (s : State) (p : Nat) : Option Nat := (dieOfEp (epAt s p)).bind stackOfDie

/-- The stacks an injection's target lies in. -/
def injStacks (s : State) (a : InjArgs) : List Nat :=
  match a.kind with
  | 1 => (stackOfDie (laneDie a.idx)).toList
  | 2 => (stackOfPort s (chSrc a.idx)).toList ++ (stackOfPort s (chDst a.idx)).toList
  | 3 => (stackOfPort s (a.idx % 64)).toList
  | 6 | 11 => [a.idx / 256]
  | 7 => (stackOfDie a.idx).toList
  | 5 => (match placeOf s a.addr with | some (.t0 d _) => [d / 2] | _ => [])
  | _ => []

/-- The domains it lies in: those of its stacks, or those that may reach its address (08_memory_tiers.md R285).
DEDUCED: notes/assumptions/28. -/
def injDoms (s : State) (a : InjArgs) : List Nat :=
  (injStacks s a).filterMap (fun n => (stackOf s n).domain) ++
    (if a.kind = 8 ∨ a.kind = 9 then (List.range 8).filter (regionOf s.mem a.addr).domains.testBit else [])

/-- Whether an injection is denied (17 R550): its target is the hub or Flacon, serves a locked TDI, or is secure. -/
def injDenied (s : State) (a : InjArgs) : Bool :=
  (a.kind = 7 && (a.idx = 20 || a.idx = 29)) || (a.kind = 1 && laneDie a.idx = 20) || (injDoms s a).any (fun d => lockedFns s d ≠ []) ||
    ((a.kind = 5 || a.kind = 8 || a.kind = 9) && ((regionOf s.mem a.addr).secure || (match placeOf s a.addr with | some p => inReserveArea p | none => false)))

/-- The tile of a T0 place; none for a die buffer (08 R281). -/
def tileOfT0 (die off : Nat) : Option Nat :=
  if off < 0x3C000000 then some (die / 2 * 256 + die % 2 * 128 + off / 0x00A00000) else none

/-- Whether an injection's target is out of service (17 R550). -/
def injOut (s : State) (a : InjArgs) : Bool :=
  let tileOut (t : Nat) : Bool := (stackOf s (t / 256)).lost.contains (t % 256) || !dieUp s (if t % 256 < 128 then t / 256 else upperDie (t / 256))
  match a.kind with
  | 1 => !dieUp s (laneDie a.idx) || (bundleOf s (laneDie a.idx) (laneBundle a.idx)).disabled
  | 2 => !chanUp s a.idx
  | 3 => (tabGet s.base.rings {} a.idx).st ≠ .locked
  | 4 => (laserOf s a.idx).st = .failed || (laserOf s a.idx).st = .off
  | 6 | 11 => tileOut a.idx
  | 7 => !dieUp s a.idx || faultPending s a.idx
  | 10 => !linkUp s (a.idx / 16) (a.idx % 16)
  | _ => (match placeOf s a.addr with
    | some (.buf d k o) => !placeUp s (.buf d k o)
    | some (.t0 d o) => !placeUp s (.t0 d o) || (match tileOfT0 d o with | some t => tileOut t | none => false)
    | some p => !placeUp s p
    | none => true)

/-- A double-bit error in tile SRAM or a die buffer (03 R76): counted in STK_ECC_UE; the weight block that holds it is
fetched again, and the attempt reissued. -/
def sramDoubleBit (s : State) (d off addr : Nat) : State :=
  let n := d / 2
  let s1 := bump s (0x2000144 + n * 0x100000) 1
  let hit := match tileOfT0 d off with
    | some t => (s1.plc.units.filter fun (u : PUnit) => decide (u.t0 = some t))[Config.copyAt addr]?
    | none => none
  let s2 := match hit with | some v => updUnits s1 (fun u => u.key = v.key) fun u => { u with t0 := none } | none => s1
  let unit := match tileOfT0 d off with | some t => unitId 2 t | none => unitId 1 (if d % 2 = 0 then n else upperDie n)
  match (stackOf s n).domain with
  | some x => transientFault s2 x unit 0 addr false
  | none => fault s2 { cls := 0x07, unit := unit, outcome := 1, addr := addr }

/-- The fault an injection acts as (17 R550).
DEDUCED: notes/assumptions/28. -/
def injEffect (s : State) (a : InjArgs) (restore : Bool) : State :=
  let later (t : State) : State := { t with inj := { t.inj with restores := t.inj.restores ++ [(s.gt + 10000000, a.kind, a.idx)] } }
  match a.kind with
  | 1 =>
    let i := laneDie a.idx
    replaceLane s i (laneBundle a.idx) (a.idx % 256) ((bundleOf s i (laneBundle a.idx)).thresh + 1) false
  | 2 => loseChannel s a.idx false
  | 3 => unlockRing s a.idx true
  | 4 => later (failLaser s (a.idx / 8) (a.idx % 8) false)
  | 5 => (match placeOf s a.addr with | some (.t0 d o) => sramDoubleBit s d o a.addr | _ => s)
  | 6 => loseTile s a.idx false
  | 7 => if restore then later (loseDie s a.idx (dieClass a.idx) 0 false) else loseDie s a.idx (dieClass a.idx) 0 false
  | 8 => (match placeOf s a.addr with | some (.t1 j o) => t1DoubleBit s j o true false | _ => s)
  | 9 => (match placeOf s a.addr with | some (.t2 p o) => t2Uncorrectable s p o false | _ => s)
  | 10 => dropLink s (a.idx / 16) (a.idx % 16) 3 false
  | 11 => reductionFault s a.idx false
  | _ => s

/-- Starts an injection (17 R550, R551): ignored while HUB_LOCK is set; HUB_INJ_STATUS takes its status, and with ST_OK the
fault acts, its records marked INJECTED.
DEDUCED: notes/assumptions/28. -/
def startInjection (s : State) (kind : Nat) (restore : Bool) : State :=
  if locked s 0x900 then s
  else
    let a := injArgs s kind
    match firstFail [(stRange, !injValid s a), (stDenied, injDenied s a), (stCtxState, injOut s a)] with
    | some st => { s with inj := { s.inj with status := st } }
    | none =>
      let t := injEffect { s with inj := { s.inj with busy := true } } a restore
      { t with inj := { t.inj with busy := false, status := stOk } }

/-- Ends an injection's consequences (17 R550): a laser site that passes its check stands by again; a die is reset. -/
def restoreUnit (s : State) (kind idx : Nat) (pass : Bool) : State :=
  if kind = 4 then
    if (laserOf s idx).st = .failed && pass then modLaser s idx fun l => { l with st := .standby, bus := none, checked := some s.gt } else s
  else if (dieOf s idx).st = .lost then resetDie s idx (dieClass idx) 0 true false
  else s

/-- INJECTION_RESTORE (17 R550): 10 ms after the injection. -/
def execInjectionRestore (pass : Bool) (s : State) : Out :=
  match s.inj.restores with
  | [] => .next s
  | r :: rs => if s.gt < r.1 then .next s else .next (restoreUnit { s with inj := { s.inj with restores := rs } } r.2.1 r.2.2 pass)

end Sys2Proof.Machine
end

