-- ==== Sys2Proof/Machine/Flacon.lean ====
section
/-!
DEFINITION. Flacon: measurement, attribution, epochs, the journal, time and the seal, and the hub's side of its link
(16_flacon.md R506 to R531; 01_architecture.md R31).
-/
namespace Sys2Proof.Machine

/-- Changes Flacon. -/
def modFlc (s : State) (f : Flc → Flc) : State := { s with flc := f s.flc }

/-- A parameter of 16 R522 as a signed number. -/
def signedParam (v : Nat) : Int := if v < 2 ^ 31 then (v : Int) else (v : Int) - 2 ^ 32

/-- A parameter in force; zero for an index that is none. -/
def flcParam (f : Flc) (i : Nat) : Nat := if i < 4 || (8 ≤ i && i < 16) then f.params.getD i 0 else 0

/-- A sample's value with its gain, and then its offset (16 R509, R522).
DEDUCED: notes/assumptions/54. -/
def corrected (raw gain offset : Nat) : Int := ((raw * gain / 2 ^ 31 : Nat) : Int) + signedParam offset

/-- FLACON_SAMPLE (16 R509, R510): VIN_MAIN in 10 µV and current in mA, and the self-test of the sense paths. The energy of
half a microsecond joins the accumulator; a power above 1,700 W counts as 1,700 W. -/
def execFlaconSample (v : BitVec 24) (i : BitVec 20) (ok : Bool) (s : State) : Out :=
  let f := s.flc
  if !f.powered then .next s
  else
    let mv := corrected v.toNat (flcParam f 2) (flcParam f 3)
    let ma := corrected i.toNat (flcParam f 0) (flcParam f 1)
    let p := (mv * ma).toNat
    let overRange := decide (170000000000 < p)
    let s1 := modFlc s fun g => { g with
      nano := g.nano + min p 170000000000 / 200000, overNow := g.overNow || overRange, measOk := ok }
    .next (if f.measOk && !ok then fault s1 { cls := 0x17, unit := unitId 1 29, outcome := 0 } else s1)

/-! ### Journal (R518 to R520) -/

/-- The clock as records of the running millisecond carry it, and whether it is valid: as before the time was set in it (16 R526). -/
def recClock (f : Flc) : Nat × Bool :=
  match f.before with
  | some b => if b.1 = f.n then b.2 else (f.time, f.clockValid)
  | none => (f.time, f.clockValid)

/-- Writes a journal record to both copies (16 R519): the ring holds 3,064. `t` is the clock in the record, and whether it is valid. -/
def journalAt (f : Flc) (type acc value aux : Nat) (t : Nat × Bool) : Flc :=
  let r : JrnRec := ⟨f.jrnSeq + 1, type, !t.2, acc, t.1, value, aux⟩
  { f with jrnSeq := f.jrnSeq + 1, ring := (if 3064 ≤ f.ring.length then f.ring.drop 1 else f.ring) ++ [r] }

/-- Writes a journal record with the clock of its millisecond (16 R519, R526). -/
def journal (f : Flc) (type acc value aux : Nat) : Flc := journalAt f type acc value aux (recClock f)

/-- The place of record `seq` in a copy of the journal (16 R518). -/
def jrnPlace (seq : Nat) : Nat := 0x8100 + 32 * ((seq - 1) % 3064)

/-- The bytes of a copy's table (16 R518): its header, whose check value covers the whole table with its own field zero, and the account table. -/
def tableBytes (t : FlcTable) : List Byte :=
  let head := leBytes 8 t.ePkg ++ leBytes 8 t.device ++ leBytes 8 t.closed ++ leBytes 4 t.seq ++ List.replicate 32 0#8
  let body := (List.range 4096).flatMap fun c => let a := tabGet t.accounts (0, 0) c; leBytes 6 a.1 ++ leBytes 2 a.2
  head ++ leBytes 4 (crc32c (head ++ leBytes 4 0 ++ body)) ++ body

/-- The table as it stands. -/
def tableOf (f : Flc) : FlcTable := ⟨f.ePkg, f.device, f.closed, f.snapSeq, f.accounts⟩

/-- The epoch after one (16 R516). -/
def nextEpoch (e : Nat) : Nat := if e = 65535 then 1 else e + 1

/-- An account and its epoch. -/
def accountOf (f : Flc) (c : Nat) : Nat × Nat := tabGet f.accounts (0, 0) c

/-- Sets an account. -/
def putAccount (f : Flc) (c : Nat) (v : Nat × Nat) : Flc := { f with accounts := tabSet f.accounts (0, 0) c v }

/-! ### Attribution (R511 to R517) -/

/-- Closes the epoch of a context (16 R517): its total is written and joins CLOSED; the next epoch begins with a share. -/
def closeEpoch (f : Flc) (c share : Nat) : Flc :=
  let a := accountOf f c
  let f1 := journal f 0x02 c a.1 a.2
  putAccount { f1 with closed := f1.closed + a.1 } c (share, nextEpoch a.2)

/-- Adds a share to a context's account; at 2⁴⁸ µJ its epoch closes and the next opens at zero (16 R517). -/
def addShare (f : Flc) (c q : Nat) : Flc :=
  let a := accountOf f c
  let f1 := putAccount f c (a.1 + q, a.2)
  if 2 ^ 48 ≤ a.1 + q then closeEpoch f1 c 0 else f1

/-- The weighted activity of an entry in pJ (16 R515). -/
def dynOf (ws : List Nat) (x : FlcEntry) : Nat := (List.zipWith (· * ·) ws x.counts).sum

/-- The shares of an interval's energy (16 R515): floors first, then one each to the largest remainders. -/
def sharesOf (ws : List Nat) (e : Nat) (es : List FlcEntry) : List (FlcEntry × Nat) :=
  let d := (es.map (dynOf ws)).sum
  let xs := es.map fun x => (x, e * dynOf ws x / d, e * dynOf ws x % d)
  let left := e - (xs.map fun x => x.2.1).sum
  let order := sortBy (fun a b => if a.2.2 ≠ b.2.2 then decide (b.2.2 < a.2.2)
    else if a.1.acc ≠ b.1.acc then decide (a.1.acc < b.1.acc) else decide (a.1.epoch < b.1.epoch)) xs
  (order.take left).map (fun x => (x.1, x.2.1 + 1)) ++ (order.drop left).map fun x => (x.1, x.2.1)

/-- Whether an entry belongs to an account, or begins its next epoch (16 R515); any other share goes to the device
account. -/
def entryFits (f : Flc) (x : FlcEntry) : Bool := decide (x.acc < 4096) && decide (x.epoch = (accountOf f x.acc).2)
def entryOpens (f : Flc) (x : FlcEntry) : Bool :=
  decide (x.acc < 4096) && x.start && decide (x.epoch = nextEpoch (accountOf f x.acc).2) && decide (x.epoch ≠ (accountOf f x.acc).2)

/-- Attributes an interval's energy (16 R515).
DEDUCED: notes/assumptions/54. -/
def attributeTo (f : Flc) (w : FlcInterval) (es : List FlcEntry) : Flc :=
  let f0 := { f with last := w.n % 2 ^ 32 }
  if (es.map (dynOf w.weights)).sum = 0 then { f0 with device := f0.device + w.e }
  else
    let ss := sharesOf w.weights w.e es
    let opens := ss.filter fun x => entryOpens f0 x.1
    let f1 := (ss.filter fun x => !entryOpens f0 x.1).foldl (fun g x =>
      if entryFits f0 x.1 then addShare g x.1.acc x.2 else { g with device := g.device + x.2 }) f0
    opens.foldl (fun g x => closeEpoch g x.1.acc x.2) f1

/-- Attributes every interval whose record has come, oldest first (16 R515). -/
def attributeReady : Nat → Flc → Flc
  | 0, f => f
  | n + 1, f =>
    match f.waiting with
    | [] => f
    | w :: ws =>
      match f.recs.find? fun r => r.1 = w.n % 2 ^ 32 with
      | none => f
      | some r => attributeReady n (attributeTo { f with waiting := ws, recs := f.recs.filter fun x => x.1 ≠ r.1 } w r.2)

/-- Parameters that waited for the interval (16 R523). -/
def loadParams (f : Flc) : Flc := { f with params := f.newParams.foldl (fun ps x => listSet ps x.1 x.2) f.params, newParams := [] }

/-- The oldest waiting interval goes to the device account (16 R515). -/
def dropOldest (f : Flc) : Flc :=
  match f.waiting with
  | o :: ws => { f with waiting := ws, device := f.device + o.e, unattr := satAdd 32 f.unattr 1, last := o.n % 2 ^ 32, recs := f.recs.filter fun x => x.1 ≠ o.n % 2 ^ 32 }
  | [] => f

/-- Of more than 1,024 waiting intervals the oldest goes to the device account, once the tick's records have been taken (16 R515, R526). -/
def trimWaiting (s : State) : State := if s.flc.waiting.length ≤ 1024 then s else modFlc s fun f => attributeReady 1025 (dropOldest f)

/-- Attributes what may be, and keeps the accounts that reads of this tick still find (16 R515, R526). -/
def attributeNow (s : State) (f : Flc) : State :=
  let keep : Bool := match f.shown with | some x => decide (x.1 = s.gt) | none => false
  { s with flc := attributeReady 1025 (if keep then f else { f with shown := some (s.gt, f.accounts, f.device) }) }

/-- INTERVAL_CLOSE (16 R511, R515): E_PKG follows the accumulator, the interval awaits its record, and TICK goes to the hub.
The clock counts its millisecond (16 R521).
DEDUCED: notes/assumptions/54. -/
def execIntervalClose (s : State) : Out :=
  let f := s.flc
  if !f.powered then .next s
  else
    let e := f.nano / 1000
    let w : FlcInterval := ⟨f.n, e - f.ePkg, (List.range 8).map fun k => flcParam f (8 + k)⟩
    let f1 := { f with ePkg := e, waiting := f.waiting ++ [w], n := f.n + 1, overRange := f.overNow, overNow := false, time := f.time + 1 }
    let s1 := attributeNow s { f1 with closedAt := some s.gt }
    .next (send { s1 with flc := loadParams s1.flc } (.plain "flacon tick" (f.n % 2 ^ 32)))

/-! ### The hub's side (R507, R513, R516) -/

/-- The bytes of an entry (16 R513). -/
def entryRecord (x : FlcEntry) : List Byte :=
  leBytes 2 x.acc ++ leBytes 2 x.epoch ++ leBytes 4 (b2n x.start) ++ ((x.counts ++ List.replicate (8 - x.counts.length) 0).take 8).flatMap (leBytes 8)

/-- The bytes of a RECORD (16 R513), its check value over the whole with its own field zero. -/
def recordBytesOf (n : Nat) (es : List FlcEntry) : List Byte :=
  let head := leBytes 4 n ++ leBytes 4 es.length ++ leBytes 4 0
  let body := es.flatMap entryRecord
  head ++ leBytes 4 (crc32c (head ++ leBytes 4 0 ++ body)) ++ body

/-- The entries of a RECORD with a valid check value, and its interval's number (16 R513). -/
def parseRecord (bs : List Byte) : Option (Nat × List FlcEntry) :=
  let count := ofLeBytes ((bs.drop 4).take 4)
  if bs.length = 16 + 72 * count ∧ crc32c (bs.take 12 ++ leBytes 4 0 ++ bs.drop 16) = ofLeBytes ((bs.drop 12).take 4) then
    some (ofLeBytes (bs.take 4), (pieces 72 count (bs.drop 16)).map fun x =>
      ⟨ofLeBytes (x.take 2), ofLeBytes ((x.drop 2).take 2), (ofLeBytes ((x.drop 4).take 4)) % 2 = 1, (pieces 8 8 (x.drop 8)).map ofLeBytes⟩)
  else none

/-- The epoch the hub knows a context to be in: Flacon's, after the starts it has announced and Flacon has yet to
attribute.
DEDUCED: notes/assumptions/54. -/
def hubEpoch (f : Flc) (c : Nat) : Nat :=
  let n := ((f.hubBuf.map fun r => r.2.2) ++ f.recs.map Prod.snd).flatten.countP fun x => x.acc = c && x.start
  (List.range n).foldl (fun e _ => nextEpoch e) (accountOf f c).2

/-- Divides a count by weights (16 R513, R515): floors first, then one each to the largest remainders, the first of equal ones. -/
def apportion (e : Nat) (ws : List Nat) : List Nat :=
  let d := max 1 ws.sum
  let left := if ws.sum = 0 then 0 else e - (ws.map fun w => e * w / d).sum
  let more := ((sortBy (fun (a b : Nat × Nat) => decide (b.1 < a.1) || (a.1 = b.1 && decide (a.2 < b.2))) (ws.map (e * · % d)).zipIdx).take left).map Prod.snd
  ws.zipIdx.map fun w => e * w.1 / d + b2n (more.contains w.2)

/-- An activity by account, in ascending order (16 R513): the counts of a batch of several divided by their token rows. -/
def divideActivity (a : Activity) : List (Nat × Bool × List Nat) :=
  let ps := sortBy (fun (x y : Nat × Bool × Nat) => decide (x.1 < y.1)) (a.parts.map fun p => (p.1.toNat, p.2.1, p.2.2.toNat))
  let per := a.counts.map fun n => if ps.length = 1 then [n.toNat] else apportion n.toNat (ps.map fun p => p.2.2)
  ps.zipIdx.map fun p => (p.1.1, p.1.2.1, per.map fun xs => xs.getD p.2 0)

/-- An entry joins those of its account and epoch. -/
def joinEntry (es : List FlcEntry) (x : FlcEntry) : List FlcEntry :=
  let same (y : FlcEntry) : Bool := y.acc = x.acc && y.epoch = x.epoch && y.start = x.start
  if es.any same then es.map fun y => if same y then { y with counts := (List.range 8).map fun i => y.counts.getD i 0 + x.counts.getD i 0 } else y else es ++ [x]

/-- The entries of an interval (16 R513, R516): one per account with activity; a context enabled in it has its new epoch
opened. -/
def hubEntries (f : Flc) (acts : List Activity) : List FlcEntry :=
  let starts := f.starts.eraseDups
  let mine := ((acts.flatMap divideActivity).map fun a =>
    let c := a.1
    if c = 4096 then (⟨c, 0, false, a.2.2⟩ : FlcEntry)
    else if starts.contains c && !a.2.1 then ⟨c, nextEpoch (hubEpoch f c), true, a.2.2⟩
    else ⟨c, hubEpoch f c, false, a.2.2⟩).foldl joinEntry []
  mine ++ (starts.filter fun c => !mine.any fun x => x.acc = c && x.start).map fun c => ⟨c, nextEpoch (hubEpoch f c), true, List.replicate 8 0⟩

/-- TICK (16 R507, R513): the hub receives the mark of interval `n` and sends its RECORD; it keeps it until Flacon accepts
it (01 R31). -/
def execTick (n : Word) (acts : List Activity) (s : State) : Out :=
  if (dieOf s 20).st ≠ .inService then .next s
  else
    let es := hubEntries s.flc acts
    let stalled := s.flc.hubBuf ≠ []
    let s1 := modFlc s fun f => { f with hubBuf := f.hubBuf ++ [(n.toNat, 0, es)], starts := []
                                         stall := if stalled then some (f.stall.getD s.gt) else f.stall }
    .next (send s1 (.flacon n.toNat (recordBytesOf n.toNat es)))

/-- Contexts that a stop of admission affects (01 R32). -/
def stallYields (s : State) (start stop : Nat) : State :=
  (activeDoms s).foldl (fun t d => (ctxsOfDom t d).foldl (fun u c => yielded u c (if classOf (ctxOf u c) = 2 then 4 else 5) 2 start stop) t) s

/-- Flacon accepts records again: admission resumes (01 R31, R32). -/
def endStall (s : State) : State :=
  match s.flc.stall with
  | none => s
  | some t =>
    let s1 := modFlc s fun f => { f with stall := none }
    if !s.arr.noSteps then s1
    else
      let s2 := stallYields { s1 with arr := { s1.arr with noSteps := false } } t s.gt
      (List.range 8).foldl formBatch s2

/-- RECORD (16 R507, R513, R515): Flacon receives a record. One with a bad check value is refused, and the hub sends its
oldest again, up to three times. What has the length of no record is no message Flacon knows and is counted as discarded.
DEDUCED: notes/assumptions/54. -/
def execRecord (bs : List Byte) (s : State) : Out :=
  if !s.flc.powered then .next s
  else match parseRecord bs with
    | some (n, es) =>
      let f := s.flc
      let f1 := { f with hubLink := true, hubBuf := f.hubBuf.filter fun r => r.1 ≠ n
                         recs := if f.waiting.any (fun w => w.n % 2 ^ 32 = n) && !f.recs.any (fun r => r.1 = n) then f.recs ++ [(n, es)] else f.recs }
      let s1 := attributeNow s f1
      .next (if s1.flc.hubBuf = [] then endStall s1 else s1)
    | none =>
      let s1 := modFlc s fun f => { f with
        hubLink := false, stall := some (f.stall.getD s.gt), discarded := if 16 ≤ bs.length && bs.length % 72 = 16 then f.discarded else f.discarded + 1 }
      let s2 := if s.flc.hubLink then fault s1 { cls := 0x17, unit := unitId 1 29, outcome := 0 } else s1
      match s.flc.hubBuf with
      | [] => .next s2
      | r :: rs =>
        if 3 ≤ r.2.1 then .next s2
        else .next (send (modFlc s2 fun f => { f with hubBuf := (r.1, r.2.1 + 1, r.2.2) :: rs }) (.flacon r.1 (recordBytesOf r.1 r.2.2)))

/-- ADMISSION_STALL_TIMEOUT (01 R31, R32): Flacon has taken no counters for 1 s; no new step is admitted. -/
def execAdmissionStallTimeout (s : State) : Out :=
  match s.flc.stall with
  | some t =>
    if !ranOut s (t + 1000000000) || s.arr.noSteps then .next s
    else .next (stallYields { s with arr := { s.arr with noSteps := true } } t 0)
  | none => .next s

/-! ### Snapshots, power and time (R519 to R521) -/

/-- JOURNAL_SNAPSHOT (16 R519): the table to copy A, a TABLE record, the table to copy B. -/
def execJournalSnapshot (s : State) : Out :=
  if !s.flc.powered then .next s
  else .next (modFlc s fun f =>
    let f1 := { f with snapSeq := (f.snapSeq + 1) % 2 ^ 32 }
    let t := tableOf f1
    let f2 := journal { f1 with tableA := some t } 0x01 0 f1.ePkg f1.snapSeq
    { f2 with tableB := some t })

/-- POWER_FAIL (16 R520, R526): VSTBY falls. `mid` says what a snapshot under way was doing: 1 writing copy A, 2 between its
copies, 3 writing copy B; it is abandoned.
DEDUCED: notes/assumptions/54. DESIGN CHOICE: notes/assumptions/55. -/
def execPowerFail (mid : BitVec 2) (s : State) : Out :=
  if !s.flc.powered then .next s
  else .next (modFlc s fun f =>
    let f1 := { f with snapSeq := if mid = 0#2 then f.snapSeq else (f.snapSeq + 1) % 2 ^ 32 }
    let t := tableOf f1
    let f2 := match mid.toNat with
      | 0 => f1
      | 1 => { f1 with tableA := none }
      | 2 => journal { f1 with tableA := some t } 0x01 0 f1.ePkg f1.snapSeq
      | _ => { journal { f1 with tableA := some t } 0x01 0 f1.ePkg f1.snapSeq with tableB := none }
    { journal f2 0x03 0 f2.ePkg f2.waiting.length with powered := false, measOk := false, hubLink := false })

/-- The table a power-up restores and the SEQ of its record: of the newest TABLE record that a copy's table matches (16
R520). -/
def newestTable (f : Flc) : FlcTable × Nat :=
  let fits (r : JrnRec) (t : Option FlcTable) : Bool := match t with | some x => decide (x.seq = r.aux) | none => false
  match f.ring.reverse.find? fun r => r.type = 0x01 && (fits r f.tableA || fits r f.tableB) with
  | some r => ((if fits r f.tableA then f.tableA else f.tableB).getD {}, r.seq)
  | none => ({}, 0)

/-- Accounts and CLOSED as a power-up restores them: from the newest table, then every CTX_CLOSE record after it (16 R520). -/
def restored (f : Flc) : Flc :=
  let z := newestTable f
  (f.ring.filter fun r => r.type = 0x02 && decide (z.2 < r.seq)).foldl (fun g r =>
    putAccount { g with closed := g.closed + r.value } r.acc (0, nextEpoch r.aux)) { f with accounts := z.1.accounts, closed := z.1.closed }

/-- E_PKG as a power-up restores it: of the newest TABLE or POWER_FAIL record (16 R520). -/
def restoredEnergy (f : Flc) : Nat :=
  match f.ring.reverse.find? fun r => r.type = 0x01 || r.type = 0x03 with | some r => r.value | none => 0

/-- POWER_UP (16 R520, R521): state is restored from the journal; `elapsed` is the milliseconds its clock ran without VSTBY, and
`seal` the level of SEAL_OPEN. A set brown-out latch clears CLOCK_VALID.
DEDUCED: notes/assumptions/54. -/
def execPowerUp (elapsed : BitVec 48) (sealHigh : Bool) (s : State) : Out :=
  let f := s.flc
  if f.powered then .next s
  else
    let f1 := restored f
    let e := restoredEnergy f
    let valid := f.clockValid && !f.brownOut
    let f2 := { f1 with
      powered := true, ePkg := e, nano := e * 1000, device := e - f1.closed - (f1.accounts.map fun a => a.2.1).sum
      n := 1, overNow := false, overRange := false, waiting := [], recs := [], unattr := 0, last := 0, measOk := false, hubLink := false
      clockValid := valid, time := if valid then f.time + elapsed.toNat else 0, brownOut := false, sealOpen := sealHigh
      hubBuf := [], starts := [], stall := none, discarded := 0, closedAt := none, before := none, i3cSet := none, shown := none }
    let f3 := journal f2 0x04 0 e (b2n (!valid) + f.discarded % 2 ^ 16 * 2 ^ 16)
    .next { s with flc := loadParams f3 }

/-- VBAT_BROWN_OUT (16 R521): the latch sets while VSTBY is absent. -/
def execVbatBrownOut (s : State) : Out :=
  if s.flc.powered then .next s else .next (modFlc s fun f => { f with brownOut := true })

/-- Sets the clock (16 R521, R526): the record carries the time before, other records of the millisecond the time before its first setting; of
two settings in one millisecond the hub's is applied first. -/
def setTime (f : Flc) (t path : Nat) : Flc :=
  { journalAt f 0x08 0 t path (f.time, f.clockValid) with
    time := if path = 1 && f.i3cSet = some f.n then f.time else t, clockValid := true
    before := some (f.n, recClock f), i3cSet := if path = 2 then some f.n else f.i3cSet }

/-- SET_TIME (16 R507, R521): from the secure world, over the hub. -/
def execSetTime (t : BitVec 64) (s : State) : Out :=
  if s.flc.powered then .next (modFlc s fun f => setTime f t.toNat 1) else .next s

/-- TIME_SET (16 R521): through Flacon's I3C target. -/
def execTimeSet (t : BitVec 64) (s : State) : Out :=
  if s.flc.powered then .next (modFlc s fun f => setTime f t.toNat 2) else .next s

/-! ### The seal (R522, R523) -/

/-- SEAL_OPEN (16 R523). -/
def execSealOpen (s : State) : Out :=
  if !s.flc.powered || s.flc.sealOpen then .next s
  else .next (modFlc s fun f => journal { f with sealOpen := true, sealCnt := f.sealCnt + 1 } 0x05 0 (f.sealCnt + 1) 0)

/-- PARAM (16 R522, R523, R526): a write while the seal is open, and does not close in this tick, of an index and a value that R522 admits; it is
in force from the next interval, the one just begun where an interval closed in this tick. -/
def execParam (i : BitVec 8) (v : Word) (s : State) : Out :=
  let i := i.toNat
  let v := v.toNat
  let ok := i < 4 || (8 ≤ i && i < 16 && 1 ≤ v && v ≤ 1000000)
  if !s.flc.powered || !s.flc.sealOpen || !ok || s.pending.contains .sealClose then .next s
  else .next (modFlc s fun f =>
    let old := match f.newParams.reverse.find? fun x => x.1 = i with | some x => x.2 | none => flcParam f i
    let f1 := { f with newParams := f.newParams ++ [(i, v)], sealCnt := f.sealCnt + 1 }
    journal (if f.closedAt = some s.gt then loadParams f1 else f1) 0x07 i v old)

/-- SEAL_CLOSE (16 R523). -/
def execSealClose (s : State) : Out :=
  if !s.flc.powered || !s.flc.sealOpen then .next s
  else .next (modFlc s fun f => journal { f with sealOpen := false } 0x06 0 f.sealCnt 0)

/-- FLC_STATUS.JRN_OK (16 R528): both copies hold a valid table. -/
def jrnOk (f : Flc) : Bool := f.tableA.isSome && f.tableB.isSome

/-- FLC_ALERT# is asserted (16 R525). -/
def flcAlert (s : State) : Bool :=
  s.flc.powered && (s.flc.sealOpen || !s.flc.clockValid || !s.flc.measOk || !jrnOk s.flc || decide (512 < s.flc.waiting.length))

/-! ### The window (R527 to R531) -/

/-- The bytes of a journal record (16 R519). -/
def jrnBytes (r : JrnRec) : List Byte :=
  let b := leBytes 4 r.seq ++ leBytes 1 r.type ++ leBytes 1 (b2n r.unknown) ++ leBytes 2 r.acc ++ leBytes 8 r.time ++ leBytes 8 r.value ++ leBytes 4 r.aux
  b ++ leBytes 4 (crc32c b)

/-- FLC_STATUS (16 R528). -/
def flcStatus (f : Flc) : Nat :=
  f.waiting.length * 2 ^ 16 + b2n f.hubLink * 32 + b2n f.overRange * 16 + b2n (jrnOk f) * 8 + b2n f.measOk * 4 + b2n f.clockValid * 2 + b2n f.sealOpen

/-- The live value of a 64-bit pair or a register of the window, by offset in it; HI registers give the live high half
(16 R527 to R531). -/
def flcRead (s : State) (r : Requester) (off : Nat) : Nat :=
  let f := s.flc
  let acc := bits (selVal s r 0x3800030) 12 0
  let table := match f.shown with | some x => if x.1 = s.gt then x.2 else (f.accounts, f.device) | none => (f.accounts, f.device)
  let cur := if acc < 4096 then tabGet table.1 (0, 0) acc else if acc = 4096 then (table.2, 0) else (0, 0)
  let seq := (selVal s r 0x3800050).toNat
  if !f.powered then 0
  else match off with
    | 0x00 => Config.flcRomVer.toNat
    | 0x04 => Config.flcRomCrc.toNat
    | 0x08 => flcStatus f
    | 0x10 => f.ePkg
    | 0x14 => f.ePkg / 2 ^ 32
    | 0x18 => f.time
    | 0x1C => f.time / 2 ^ 32
    | 0x20 => f.sealCnt
    | 0x24 => f.last
    | 0x28 => f.unattr
    | 0x34 => if 4096 < acc then 2 ^ 31 else cur.2
    | 0x38 => cur.1
    | 0x3C => cur.1 / 2 ^ 32
    | 0x44 => flcParam f (bits (selVal s r 0x3800040) 4 0)
    | 0x54 => f.jrnSeq
    | o =>
      if 0x60 ≤ o ∧ o < 0x80 then
        match f.ring.find? fun x => x.seq = seq with
        | some x => ofLeBytes (((jrnBytes x).drop (o - 0x60)).take 4)
        | none => 0
      else 0

/-- READ (16 R507, R527): a read of the window over the hub; its answer goes back. -/
def execRead (r : Requester) (off : BitVec 12) (s : State) : Out :=
  .next (send s (.plain "flacon read" (flcRead s r off.toNat % 2 ^ 32)))

end Sys2Proof.Machine
end

