-- ==== Sys2Proof/Machine/RegView.lean ====
section
/-!
DEFINITION. What the registers of BAR0 read as where the device forms the value (18_register_map.md R555): one view per
block. A register with no view reads as it is stored.
-/
namespace Sys2Proof.Machine

/-- The 32-bit value of a number. -/
def w32 (n : Nat) : Word := BitVec.ofNat 32 n

/-- A signed quantity in 16 bits, saturating. -/
def s16 (x : Int) : Nat := ((max (-32768) (min 32767 x)) % 65536).toNat

/-! ### HUB (17_faults.md R547 to R551; 18 R559 to R570) -/

/-- The 64 bytes of a fault record (17 R541). -/
def faultBytes (r : FaultRec) : List Byte :=
  let flags := b2n r.alert + 2 * b2n r.injected + 4 * b2n r.permanent + 8 * b2n r.retained + 16 * b2n r.missed
  let b := leBytes 4 r.seq ++ leBytes 2 r.boot ++ leBytes 1 r.cls ++ leBytes 1 flags ++ leBytes 8 r.gtFault ++ leBytes 8 r.gtResume ++
    leBytes 4 r.unit ++ leBytes 1 r.domains ++ leBytes 1 r.outcome ++ leBytes 2 r.cause ++ leBytes 8 r.addr ++ leBytes 16 r.detail ++
    leBytes 2 r.ctxFailed ++ leBytes 2 0
  b ++ leBytes 4 (crc32c b)

/-- The word of a record that HUB_FLT_SEL names (17 R548). -/
def fltData (s : State) (r : Requester) (i : Nat) : Nat :=
  match s.flt.recs.find? fun x => x.seq = (selVal s r 0x810).toNat with
  | some x => ofLeBytes (((faultBytes x).drop (4 * i)).take 4)
  | none => 0

/-- Port dies in service of the two that hold the log (17 R543).
DEDUCED: notes/assumptions/69. -/
def logPortsUp (s : State) : Nat := (List.range 2).countP fun i => dieUp s (16 + (Config.logPort i).toNat)

/-- HUB_FLT_STATUS (17 R547). -/
def fltStatus (s : State) : Nat :=
  min 31 s.flt.retained.length * 8 + b2n (s.flt.recs.any fun x => x.alert && decide ((regVal s 0x80C).toNat < x.seq)) * 4 +
    b2n (s.flt.ok && logPortsUp s = 1) * 2 + b2n s.flt.ok

/-- HUB_WLOG_HEAD (18 R556, R559): reads find the refusals of the ticks before. -/
def wlogHead (s : State) : Nat := s.rf.wlogCount - (s.rf.wlog.filter fun e => e.gt = s.gt).length

/-- The entry of the write log that HUB_WLOG_SEL names (18 R559). -/
def wlogSel (s : State) (r : Requester) : Option WriteLogEntry :=
  let n := (selVal s r 0x44).toNat
  if n < wlogHead s && wlogHead s ≤ n + 64 then s.rf.wlog[s.rf.wlogCount - 1 - n]? else none

/-- Enabled tiles of a die of a stack (03_harrel_stacks.md R88). -/
def enabledTiles (n : Nat) (up : Bool) : Nat := (List.range 96).countP (tileEnabled n up)

/-- Enabled tiles in service (18 R564): none before boot stage 0x6. -/
def tilesLive (s : State) : Nat :=
  if !(regVal s 0x1000000).getLsbD 0 then 0
  else ((List.range 8).map fun n =>
    let k := stackOf s n
    if k.domain.isNone || capOf s 0 n = .out || capOf s 0 n = .lost then 0
    else enabledTiles n false + enabledTiles n true - k.lost.length).sum

/-- HUB_LOCK_MAP (18 R570). -/
def lockMap (s : State) : Nat :=
  let l (o : Nat) : Nat := b2n ((regVal s o).getLsbD 0)
  bitmap 8 (fun n => (regVal s (0x2000FF0 + n * 0x100000)).getLsbD 0) * 2 ^ 16 +
    (List.zipWith (fun o i => l o * 2 ^ i)
      [0x100FF0, 0x200FF0, 0x300FF0, 0x2800FF0, 0x2C00FF0, 0x1800FF0, 0x1C00FF0, 0x3000FF0, 0x3400FF0, 0x1400FF0, 0x1000FF0, 0xFF0, 0x400FF0]
      (List.range 13)).sum

/-- The views of the HUB block. -/
def hubView (s : State) (r : Requester) (off : Nat) : Option Nat :=
  match off with
  | 0x00 => some 0x9620B000
  | 0x04 => some (gradeOrder * 2 ^ 16 + ((List.range 8).map fun n => enabledTiles n false + enabledTiles n true).sum)
  | 0x08 => some Config.serial.toNat
  | 0x0C => some (Config.serial.toNat / 2 ^ 32)
  | 0x10 => some 0x00020011
  | 0x14 => some 0x8848CFC8
  | 0x18 => some 0x0B13407F
  | 0x1C => some (0x24000000 + (if s.mem.chLog = 0 then 0 else 32 * 2 ^ s.mem.chLog))
  | 0x20 => some s.gt
  | 0x24 => some (s.gt / 2 ^ 32)
  | 0x28 => some (tilesLive s)
  | 0x40 => some (wlogHead s)
  | 0x48 => some (match wlogSel s r with | some e => 2 ^ 31 + e.source * 2 ^ 28 + e.offset | none => 0)
  | 0x4C => some (match wlogSel s r with | some e => e.data.toNat | none => 0)
  | 0x50 => some (match wlogSel s r with | some e => e.status * 2 ^ 24 + (selVal s r 0x44).toNat % 2 ^ 24 | none => 0)
  | 0x58 => some (match wlogSel s r with | some e => e.gt | none => 0)
  | 0x5C => some (match wlogSel s r with | some e => e.gt / 2 ^ 32 | none => 0)
  | 0x804 => some (fltStatus s)
  | 0x808 => some (fltHead s)
  | 0x814 => some s.flt.lost
  | 0x874 => some (tabGet s.flt.counts 0 (bits (selVal s r 0x870) 5 0))
  | 0x910 => some (b2n s.inj.busy * 2 ^ 31 + s.inj.status)
  | 0xFF4 => some (lockMap s)
  | o => if 0x820 ≤ o ∧ o < 0x860 then some (fltData s r ((o - 0x820) / 4)) else none

/-! ### CLK, PWR and RST (14_power_clocks_thermal.md R467 to R476; 15_reset_boot.md R503, R504) -/

/-- CLK_DOM (14 R468). -/
def clkDom (s : State) (d : Nat) : Nat :=
  let x := clkOf s d
  if stacksOf s d = [] then 0
  else 2 ^ 31 + x.step * 2 ^ 28 + stageCeil s x.stage * 2 ^ 24 + thermalCeil s d * 2 ^ 20 + max x.marginCeil (pinnedCeil s d) * 2 ^ 16 +
    (match x.pend.or x.ramp with | some n => 2 ^ 15 + n * 2 ^ 12 | none => 0)

/-- CLK_DIE (14 R469). -/
def clkDie (s : State) (i : Nat) : Nat :=
  let x := replicaOf s i
  b2n x.pinned.isSome * 2 ^ 31 + min 255 (x.warns.countP fun t => decide (s.gt < t + 10000000000)) * 2 ^ 16 + min 255 x.minSlack

/-- Whether a thermal latch is set on some die. -/
def anyLatch (s : State) (f : Therm → ThLatch) : Bool := (List.range 29).any fun i => (f (thermOf s i)).set

/-- THERM# is asserted (14 R464; 15 R490): a die throttles, or a trip's cooling wait runs. -/
def thermOut (s : State) : Bool := (List.range 29).any (throttling s) || s.rst.coolBy.isSome

/-- ALERT# is asserted by thermal state (14 R464), after a trip until its record is in the log (15 R490). -/
def hotOut (s : State) : Bool := anyLatch s Therm.warn || thermOut s || s.rst.tripped

/-- PWR_STATUS (14 R471): the hold reads 0 once every held domain is released.
DEDUCED: notes/assumptions/66. -/
def pwrStatus (s : State) : Nat :=
  let overRange := (heldDoms s).all s.pwr.released.contains && heldDoms s ≠ []
  s.pwr.stage * 2 ^ 12 + (if overRange then 0 else s.pwr.hold) * 2 ^ 10 + b2n (decide (4500 ≤ s.pwr.vinMv) && decide (s.pwr.vinMv ≤ 5100)) * 2 ^ 9 +
    b2n ((regVal s 0x200000).getLsbD 8) * 2 ^ 8 + b2n (thermOut s) * 2 ^ 7 + b2n (hotOut s) * 2 ^ 6

/-- The mean of the last samples, at most `n` of them (14 R455).
DEDUCED: notes/assumptions/50. -/
def meanOf (n : Nat) (xs : List Nat) : Nat := let ys := xs.take n; if ys = [] then 0 else ys.sum / ys.length

/-- Whether the thermal selection of a requester names a powered die; its index (14 R476). -/
def thSel (s : State) (r : Requester) : Option Nat :=
  let i := bits (selVal s r 0x200090) 4 0
  if i < 29 && pdOf s i = .on then some i else none

/-- PWR_TH_STATE (14 R476). -/
def thState (s : State) (i : Nat) : Nat :=
  let x := thermOf s i
  let st := if x.trip.set then 3 else if x.throt.set then 2 else if x.warn.set then 1 else 0
  let at_ := [x.warn, x.throt, x.trip]
  let dn := if st = 0 then 0 else (at_.getD (st - 1) {}).r
  let up := if st = 3 then 0 else (at_.getD st {}).c
  st * 2 ^ 29 + b2n x.suspect * 2 ^ 28 + x.sensors * 2 ^ 16 + dn * 2 ^ 8 + up

/-- PWR_DOM (14 R473). -/
def pwrDom (s : State) (p : Nat) : Nat :=
  if 48 < p then 2 ^ 31
  else
    let st := match pdOf s p with | .off => 0 | .ramping => 1 | .on => 2 | .fault => 3
    let e := (s.pwr.est[p]?).getD (0, 0)
    st * 2 ^ 29 + e.1 * 2 ^ 16 + e.2

/-- The views of the management island. -/
def islandView (s : State) (r : Requester) (off : Nat) : Option Nat :=
  match off with
  | 0x100000 => some ((regVal s 0x100000).toNat + b2n s.pwr.holdover.isSome * 16 + b2n s.pwr.refOk * 8 + s.rst.clkMode)
  | 0x100014 => some (clkDom s (bits (selVal s r 0x100010) 2 0))
  | 0x100024 => some (clkDie s (bits (selVal s r 0x100020) 3 0))
  | 0x200000 => some (pwrStatus s)
  | 0x200008 => some (meanOf 1000 s.pwr.samples * 2 ^ 16 + meanOf 10 s.pwr.samples)
  | 0x20000C => some (s.pwr.vinMv * 2 ^ 16 + s.pwr.iin)
  | 0x200014 => some (pwrDom s (bits (selVal s r 0x200010) 5 0))
  | 0x200084 => some (bitmap 29 fun i => (thermOf s i).warn.set)
  | 0x200088 => some (bitmap 29 fun i => (thermOf s i).throt.set)
  | 0x200094 => some (match thSel s r with | some i => thState s i | none => 2 ^ 31)
  | 0x200098 => some (match thSel s r with | some i => s16 (thermOf s i).gov * 2 ^ 16 + s16 (thermOf s i).ownMax | none => 0)
  | 0x20009C => some (match thSel s r with | some i => s16 (thermOf s i).ownMean | none => 0)
  | _ => none

/-! ### SEC and CTX (13_tenancy_security.md R441 to R445; 02_arithmetic.md R55; 18 R567) -/

/-- SEC_TDI (13 R445). -/
def tdiView (s : State) (v : Nat) : Nat :=
  if v = 0 then 2 ^ 31
  else b2n (decide (tabGet s.sec.ide 0 v ≠ 0)) * 4 + (match tdiOf s v with | .unlocked => 0 | .lockedCfg => 1 | .run => 2 | .error => 3)

/-- The views of the SEC block. -/
def secView (s : State) (r : Requester) (off : Nat) : Option Nat :=
  let p := (ctxOf s (bits (selVal s r 0x400020) 15 0)).prov
  let d := domOf s (bits (selVal s r 0x400030) 2 0)
  match off with
  | 0x400000 => some (s.sec.imageSvn * 2 ^ 24 + svnFloorOf s * 2 ^ 16 + b2n Config.root2 * 4 + b2n Config.debugLocked * 2 + b2n s.sec.bootOk)
  | 0x400004 => some (b2n s.sec.strictTime * 2 + b2n s.sec.mgmtOnly)
  | 0x400024 => some (match p with | some q => 2 ^ 31 + q.cls * 2 ^ 29 + q.dom * 2 ^ 26 + q.maxInst * 2 ^ 16 + q.weight | none => 0)
  | 0x400028 => some (match p with | some q => q.period * 2 ^ 16 + q.stepUs | none => 0)
  | 0x40002C => some (match p with | some q => q.maxOut * 2 ^ 16 + q.boundUs | none => 0)
  | 0x400034 => some (bitmap 8 (stacksOf s (bits (selVal s r 0x400030) 2 0)).contains * 2 ^ 8 + d.bwPct)
  | 0x400038 => some (d.t2Gib * 2 ^ 16 + d.t1Gib)
  | 0x40003C => some (d.silPct * 2 ^ 24 + d.planes * 2 ^ 16 + d.slots * 2 ^ 8)
  | 0x400044 => some (match s.sec.slots[bits (selVal s r 0x400040) 2 0]? with
    | some q => b2n q.en * 2 ^ 31 + b2n q.keyed * 2 ^ 30 + q.minSvn | none => 0)
  | 0x400054 => some (tdiView s (bits (selVal s r 0x400050) 5 0))
  | _ => none

/-- The views of the CTX block. -/
def ctxView (s : State) (r : Requester) (off : Nat) : Option Nat :=
  let k := ctxOf s (bits (selVal s r 0x800200) 15 0)
  match off with
  | 0x800208 => some k.flush
  | 0x80020C => some (k.flush / 2 ^ 32)
  | 0x800210 => some k.truncTerms
  | 0x800214 => some (k.truncTerms / 2 ^ 32)
  | 0x800218 => some (k.reissue * 2 ^ 16 + k.special)
  | o => if 0x801000 ≤ o ∧ o < 0x801200 then some (bitmap 32 fun j => (ctxOf s ((o - 0x801000) / 4 * 32 + j)).enabled) else none

/-! ### PLC, DMA and CHK (05_placement.md R174 to R182; 10_dma_check.md R346 to R360) -/

/-- Bytes of a domain's units of a class in a tier (05 R177): 0 T0, 1 T1, 2 T2, 3 a peer. -/
def useBytes (s : State) (d tier cls : Nat) : Nat :=
  ((s.plc.units.filter fun (u : PUnit) => u.dom = d &&
    (cls = 0 || (match u.key.kind with | .granule => cls = 1 | .expert => cls = 2 | .kv => cls = 3 | .sketch => cls = 4)) &&
    (match tier with
      | 0 => u.t0.isSome
      | 1 => u.t1.isSome
      | 2 => (match u.home with | .port _ => true | _ => false)
      | _ => (match u.home with | .peer _ => true | _ => false))).map PUnit.bytes).sum

/-- Bytes of the hub's reserve: 256 MiB on each port die (05 R142, R177), in no domain. -/
def hubReserve : Nat := 4 * 2 ^ 28

/-- Bytes of mirror copies held for the partner (05 R144, R177): the units of shadow sessions. -/
def mirrorBytes (s : State) : Nat :=
  ((s.plc.units.filter fun u => (u.key.kind = .kv || u.key.kind = .sketch) && (ctxOf s u.key.owner).shadow).map PUnit.bytes).sum

/-- PLC_USE_MIB (05 R177): the hub's reserve and peers' blocks lie outside every domain, and show under ALL_DOM alone.
DEDUCED: notes/assumptions/67. -/
def useMib (s : State) (w : Word) : Nat :=
  let all := w.getLsbD 11
  let ds := if all then List.range 8 else [bits w 10 8]
  let tier := bits w 5 4
  let out := b2n (all && tier = 2)
  let cls := bits w 3 0
  let own (c : Nat) : Nat := (ds.map fun d => useBytes s d tier c).sum
  if !(regVal s 0x1000000).getLsbD 0 then 0
  else (match cls with
    | 0 => own 0 + out * (hubReserve + lentBytes s)
    | 5 => out * hubReserve
    | 6 => out * mirrorBytes s
    | 7 => out * lentBytes s
    | 8 => (match tier with
      | 0 => (ds.map fun d => residentArea s d - useBytes s d 0 0).sum
      | 1 => (ds.map (t1Free s)).sum
      | 2 => (ds.map (t2Free s)).sum
      | _ => 0)
    | c => if c < 5 then own c else 0) / 2 ^ 20

/-- PLC_PF_STALL of a selection (05 R152, R177). -/
def pfStall (s : State) (w : Word) : Nat :=
  min (2 ^ 64 - 1) (if w.getLsbD 11 then ((List.range 8).map fun d => (domOf s d).pfStall).sum else (domOf s (bits w 10 8)).pfStall)

/-- REMAIN_MIB (05 R182): what a drain has still to move. -/
def remainMib (s : State) : Nat := match draining s with | some (k, n) => drainBytes s k n / 2 ^ 20 | none => 0

/-- Whether a unit is OUT or LOST (05 R182). -/
def isOut (s : State) (kind n : Nat) : Bool := capOf s kind n = .out || capOf s kind n = .lost

/-- The views of the PLC block. -/
def plcView (s : State) (r : Requester) (off : Nat) : Option Nat :=
  match off with
  | 0x1000000 => some (b2n (s.ctxs.any fun e => e.2.space.isSome) * 2 + b2n ((regVal s 0x1000000).getLsbD 0))
  | 0x1000014 => some (useMib s (selVal s r 0x1000010))
  | 0x100004C => some s.plc.res0.toNat
  | 0x1000050 => some s.plc.res1.toNat
  | 0x10000A0 => some (pfStall s (selVal s r 0x1000010))
  | 0x10000A4 => some (pfStall s (selVal s r 0x1000010) / 2 ^ 32)
  | 0x10000C4 => some (s.plc.capSt * 2 ^ 28 + s.plc.capReason * 2 ^ 24 + remainMib s)
  | 0x10000C8 => some (bitmap 8 (isOut s 0) * 2 ^ 16 + bitmap 4 (isOut s 2) * 2 ^ 8 + bitmap 8 (isOut s 1))
  | _ => none

/-- DMA_CH_STATUS (10 R350). -/
def dmaStatus (c : DmaChan) : Nat :=
  (match c.st with | .idle => 0 | .running => 1 | .done => 2 | .halted => 3) * 2 ^ 30 + c.cause * 2 ^ 16 + c.retries * 2 ^ 8 + segsOf c

/-- CHK_STATUS (10 R360). -/
def chkStatus (e : ChkEngine) : Nat :=
  (match e.st with | .idle => 0 | .running => 1 | .done => 2 | .stopped => 3 | .error => 4) * 2 ^ 29 + e.cause

/-- The views of the DMA and CHK blocks. -/
def dmaView (s : State) (off : Nat) : Option Nat :=
  let map (lo : Nat) (st : DmaSt) : Nat := bitmap 32 fun n => (dmaOf s (lo + n)).st = st
  match off with
  | 0x1400010 => some (map 0 .running)
  | 0x1400014 => some (map 32 .running)
  | 0x1400018 => some (map 0 .halted)
  | 0x140001C => some (map 32 .halted)
  | 0x1400020 => some (s.dma.hwm * 2 ^ 8 + segsInUse s)
  | 0x1500000 => some (bitmap 16 fun e => (chkOf s e).st = .running)
  | o =>
    if 0x1401000 ≤ o ∧ o < 0x1402000 then
      let c := dmaOf s ((o - 0x1401000) / 0x40)
      match (o - 0x1401000) % 0x40 with
      | 0x18 => some (dmaStatus c)
      | 0x1C => some c.done
      | 0x20 => some c.fail
      | 0x24 => some (c.fail / 2 ^ 32)
      | _ => none
    else if 0x1501000 ≤ o ∧ o < 0x1501400 then
      let e := chkOf s ((o - 0x1501000) / 0x40)
      match (o - 0x1501000) % 0x40 with
      | 0x18 => some e.result
      | 0x1C => some (e.result / 2 ^ 32)
      | 0x20 => some (chkStatus e)
      | 0x24 => some e.done
      | _ => none
    else none

/-! ### BASE and SIL (07_skeltil_base.md R249 to R257; 06_sillage.md R209 to R215) -/

/-- The state a logical endpoint's path shows (07 R251). -/
def portState (s : State) (e : Nat) : Nat :=
  let p := physOf s e
  if 30 ≤ e then (if s.base.failed.contains e || s.base.remap.any fun x => x.2 = e then 0 else 3)
  else if s.base.lostEps.contains e || s.base.failed.contains p then 2
  else if pdOf s (29 + fieldOf p) = .on then 1 else 0

/-- BASE_STEER (07 R252). -/
def steerView (s : State) (w : Word) : Nat :=
  let ep := bits w 5 0
  let x := slotOf s (slotKey ep (bits w 9 7) (bits w 14 10))
  if 30 ≤ ep && !(s.base.remap.any fun y => y.2 = ep) then 2 ^ 31
  else if x.st = .unassigned then 0
  else (match x.st with | .unassigned => 0 | .active => 1 | .draining => 2 | .retuning | .ready => 3) * 2 ^ 19 +
    (match x.cur.or x.pend with | some a => a.dom * 2 ^ 16 + a.line * 2 ^ 8 + a.dest | none => 0)

/-- BASE_LASER_STATE (07 R253): the photocurrent of an operating site, monitored continuously (R235), is a free value.
DESIGN CHOICE: notes/assumptions/10. -/
def laserView (s : State) (w : Word) : Nat :=
  let f := bits w 6 3
  let x := laserOf s (f * 8 + bits w 2 0)
  if 12 ≤ f then 2 ^ 31
  else (match x.st with | .off => 0 | .operating => 1 | .gated => 2 | .standby => 3 | .failed => 4) * 2 ^ 28 + x.bus.getD 15 * 2 ^ 24 +
    (if x.st = .operating then 0 else match x.checked with | some t => min 4095 ((s.gt - t) / 1000) | none => 4095) * 2 ^ 12 +
      (if x.st = .operating then Config.fieldView 0x1800034 (f * 8 + bits w 2 0) s.gt % 2 ^ 12 else x.mon)

/-- What a ring is used for (07 R222, R223, R254): held where its bus gives no light; on a uniform plane it carries, or loops back; on a steerable
one it carries where an active slot is on it, else it is parked. -/
def ringUse (s : State) (n : Nat) : Nat :=
  let port := n % 64
  let plane := n / 2 ^ 6 % 32
  let line := n / 2 ^ 11 % 64
  let f := fieldOf (chSrc (ringChan n))
  let lit := !s.base.dark.contains (f * 8 + busOf plane) && (match siteOn s f (busOf plane) with | some i => (laserOf s (f * 8 + i)).st = .operating | none => false)
  let used := s.base.slots.any fun e => e.2.st = .active && decide (24 + e.1 / 32 % 8 = plane) && (match e.2.cur with
    | some a => a.line = line && (if n / 2 ^ 17 % 2 = 0 then physOf s (e.1 / 256) = port else physOf s a.dest = port)
    | none => false)
  if !lit then 3 else if plane < 24 then (if line % 32 = 0 then 2 else 1) else b2n used

/-- BASE_RING_STATE (07 R254): its heater power is a free value.
DESIGN CHOICE: notes/assumptions/10. -/
def ringView (s : State) (w : Word) : Nat :=
  let n := bits w 17 0
  if !ringExists n then 2 ^ 31
  else if pdOf s (29 + fieldOf (bits w 5 0)) ≠ .on then 0
  else (match (tabGet s.base.rings {} n).st with
      | .locked => if s.base.acquired.contains (fieldOf (bits w 5 0)) then 1 else 2
      | .acquiring => 2
      | .failed => 3) * 2 ^ 29 +
    ringUse s n * 2 ^ 27 + Config.fieldView 0x1800044 (n + 2 ^ 18) s.gt % 2 ^ 16

/-- BASE_TEMP (07 R255). -/
def tempView (s : State) (i : Nat) : Nat :=
  let x := tabGet s.base.temps {} i
  if 20 < i then 2 ^ 31 else b2n x.valid * 2 ^ 30 + x.rings * 2 ^ 16 + s16 x.temp

/-- BASE_LANE_STATUS (07 R256). -/
def laneView (s : State) (i b : Nat) : Nat :=
  let x := bundleOf s i b
  if bundleCount i ≤ b then 2 ^ 31
  else b2n x.disabled * 2 ^ 30 + b2n x.crc * 2 ^ 29 + x.spares * 2 ^ 24 + (if x.window = s.gt / 1000000 then min 255 x.errs else 0) * 2 ^ 8 + x.lastLane

/-- The views of the BASE block. -/
def baseView (s : State) (r : Requester) (off : Nat) : Option Nat :=
  let lane := selVal s r 0x1800060
  match off with
  | 0x1800000 => some (bitmap 12 (fun f => pdOf s (29 + f) = .on) * 2 ^ 16 +
      ((List.range 96).countP fun i => (laserOf s i).st = .standby && (laserOf s i).checked.isSome) * 2 ^ 8 + b2n s.base.ready)
  | 0x1800014 => let e := bits (selVal s r 0x1800010) 5 0; some (portState s e * 2 ^ 6 + physOf s e)
  | 0x1800024 => some (steerView s (selVal s r 0x1800020))
  | 0x1800034 => some (laserView s (selVal s r 0x1800030))
  | 0x1800044 => some (ringView s (selVal s r 0x1800040))
  | 0x1800054 => some (tempView s (bits (selVal s r 0x1800050) 4 0))
  | 0x1800064 =>
    let x := bundleOf s (bits lane 12 8) (bits lane 7 0)
    some (if bundleCount (bits lane 12 8) ≤ bits lane 7 0 then 0 else x.thresh * 2 ^ 8 + x.newMode)
  | 0x1800068 => some (laneView s (bits lane 12 8) (bits lane 7 0))
  | _ => if baseCount off then some (countBefore s off).toNat else none

/-- SIL_BANK_STATE (06 R212); `fails` says that a plausibility check of the tick fails, which leaves STALE 0 (06 R207). -/
def bankState (fails : Bool) (q : Bank) : Nat :=
  q.consec * 2 ^ 8 + b2n (q.stale && !fails) * 8 + b2n q.pending.isSome * 4 + (match q.st with | .off => 0 | .inService => 1 | .calibrating => 2 | .failed => 3)

/-- The views of the SIL block. -/
def silView (s : State) (r : Requester) (off : Nat) : Option Nat :=
  let w := selVal s r 0x1C00010
  let q := bankAt s (bits w 6 4) (bits w 3 0)
  match off with
  | 0x1C00000 => some (bitmap 8 (groupFed s) * 2 ^ 16 + bitmap 8 (groupOn s) * 2 ^ 8 +
      ((List.range 128).countP fun n => (bankAt s (n / 16) (n % 16)).st = .inService))
  | 0x1C00014 => some (bankState (fitFails s (bits w 6 4) (bits w 3 0)) q)
  | 0x1C00018 => some q.calcnt
  | 0x1C00020 => some q.calgt
  | 0x1C00024 => some (q.calgt / 2 ^ 32)
  | 0x1C00028 => some q.coef.gain
  | 0x1C0002C => some (s16 q.coef.offset)
  | 0x1C00030 => some (s16 q.coef.temp)
  | _ => none

/-! ### Stacks and memory (03_harrel_stacks.md R88 to R97; 08_memory_tiers.md R266, R277 to R280, R288) -/

/-- What a die's state shows (03 R89).
DEDUCED: notes/assumptions/66. -/
def dieCode (x : DieState) : Nat := match x with | .inService => 1 | .lost => 2 | .reset | .testing => 3 | .off | .ramping => 0

/-- Whether a router has an output port (03 R93, R94): the mesh's edges, the vertical link, the local port, the strip port or bypass
lane of an edge row, and the slice of the columns that hold one. -/
def portExists (x y p : Nat) : Bool :=
  match p with
  | 0 => 0 < x
  | 1 => x < 11
  | 2 => 0 < y
  | 3 => y < 7
  | 6 => y = 0 || y = 7
  | 7 => (y = 0 || y = 7) && 2 ≤ x && x ≤ 9
  | _ => p < 6

/-- Whether a telemetry selection is invalid (03 R94). -/
def telInvalid (s : State) (n : Nat) (w : Word) : Bool :=
  let t := bits w 7 0
  11 < tileX t || decide (4 < bits w 18 16) || !portExists (tileX t) (tileY t) (bits w 15 13) || !tileEnabled n (w.getLsbD 7) (t % 128) ||
    !dieUp s (if w.getLsbD 7 then upperDie n else n)

/-- A field of what a router's port shows (03 R95, R96): what the model counts, and what the traffic of the operations' tilings adds
in the classes whose packets no command carries. -/
def telSum (n key : Nat) (counted : List (Nat × Nat)) (draws : List (Nat × Bool)) (f : Nat × Nat × Nat → Nat) : Nat :=
  let own := draws.filter fun e => e.2 == decide (128 * 64 ≤ key)
  satAdd 64 (tabGet counted 0 key) (if key % 8 = 3 then 0 else (own.map fun e => f (Config.meshTraffic e.1 (n * 2 ^ 16 + key))).sum)

/-- The telemetry a selection reads: the snapshot while FREEZE is 1 (03 R92). -/
def telOf (k : Stack) : Telemetry := match k.frozen with | some f => f.tel | none => k.tel

/-- The telemetry key of a selection (03 R93). -/
def selKey (w : Word) : Nat := meshKey (bits w 7 0) (bits w 15 13) (bits w 18 16)

/-- The flits of a telemetry selection (03 R95). -/
def telFlits (s : State) (n : Nat) (w : Word) : Nat :=
  if telInvalid s n w then 0 else let t := telOf (stackOf s n); telSum n (selKey w) t.flits t.draws Prod.fst

/-- The stall cycles of a telemetry selection (03 R95). -/
def telStalls (s : State) (n : Nat) (w : Word) : Nat :=
  if telInvalid s n w then 0 else let t := telOf (stackOf s n); telSum n (selKey w) t.stalls t.draws fun z => z.2.1

/-- The occupancy a selection shows (03 R96), of the cycle of the snapshot while one is held; while an operation runs, its tiling's
traffic may fill the buffer further.
DESIGN CHOICE: notes/assumptions/10. -/
def telCur (s : State) (n : Nat) (w : Word) : Nat :=
  let k := stackOf s n
  let more (gt : Nat) : Nat := if bits w 18 16 = 3 then 0 else Config.fieldView 0x2000120 (n * 2 ^ 32 + w.toNat) gt
  let depth := bufferDepth (bits w 7 0) (bits w 15 13)
  match k.frozen with
  | some f => min depth (max (tabGet f.cur 0 (selKey w)) (if f.busy then more f.at_ else 0))
  | none =>
    let busy : Bool := match k.domain with | some d => decide ((domOf s d).phase = .running) | none => false
    min depth (max (occupancy (k.waits.map fun v => { v with at_ := v.at_ % 256 }) (bits w 7 0) (bits w 15 13) (bits w 18 16)) (if busy then more s.gt else 0))

/-- STK_TEL_QDEPTH (03 R96): the high-water mark is never below the occupancy shown. -/
def telDepth (s : State) (n : Nat) (w : Word) : Nat :=
  if telInvalid s n w then 0
  else
    let t := telOf (stackOf s n)
    let depth := bufferDepth (bits w 7 0) (bits w 15 13)
    let own := (t.draws.filter fun e => e.2 == w.getLsbD 7).map fun e => (Config.meshTraffic e.1 (n * 2 ^ 16 + selKey w)).2.2
    let mark := max (tabGet t.hwm 0 (selKey w)) (if bits w 18 16 = 3 then 0 else own.foldl max 0)
    max (telCur s n w) (min depth mark) * 256 + telCur s n w

/-- A word of a map of a die's tiles (03 R67, R90). -/
def tileMap (i : Nat) (p : Nat → Bool) : Nat := bitmap 32 fun j => p (32 * i + j)

/-- The views of a stack. -/
def stkView (s : State) (r : Requester) (n o : Nat) : Option Nat :=
  let k := stackOf s n
  let w := selVal s r (0x2000104 + n * 0x100000)
  match o with
  | 0x00 => some (enabledTiles n true * 2 ^ 16 + enabledTiles n false * 2 ^ 8 + n)
  | 0x04 => some ((match k.domain with | some d => d * 2 ^ 5 + 2 ^ 4 | none => 0) + dieCode (dieOf s (upperDie n)).st * 4 + dieCode (dieOf s n).st)
  | 0x10 | 0x14 | 0x18 => some (tileMap ((o - 0x10) / 4) (tileEnabled n false))
  | 0x20 | 0x24 | 0x28 => some (tileMap ((o - 0x20) / 4) (tileEnabled n true))
  | 0x30 | 0x34 | 0x38 => some (tileMap ((o - 0x30) / 4) fun t => tileEnabled n false t && k.lost.contains t)
  | 0x40 | 0x44 | 0x48 => some (tileMap ((o - 0x40) / 4) fun t => tileEnabled n true t && k.lost.contains (128 + t))
  | 0x108 => some (b2n (telInvalid s n w) * 2 + b2n k.frozen.isSome)
  | 0x110 => some (telFlits s n w)
  | 0x114 => some (telFlits s n w / 2 ^ 32)
  | 0x118 => some (telStalls s n w)
  | 0x11C => some (telStalls s n w / 2 ^ 32)
  | 0x120 => some (telDepth s n w)
  | 0x130 => some (telOf k).merges
  | 0x134 => some ((telOf k).merges / 2 ^ 32)
  | _ => none

/-- What a memory die's state shows (08 R266, R278). -/
def memDieCode (s : State) (i kind n : Nat) : Nat :=
  if capOf s kind n = .draining then 3 else match (dieOf s i).st with | .inService => 1 | .lost => 2 | _ => 0

/-- Whether a reservoir's rows are refreshed every 100 µs (08 R260, R266, R290): in service by its temperature or for want of a reading;
self-timed always; never while it is off. -/
def hotRefresh (s : State) (j : Nat) : Bool :=
  (rsvOf s j).self_ || (dieUp s (8 + j) && ((rsvOf s j).hot || (rsvTemp s j).isNone))

/-- RSV_STATUS (08 R266). -/
def rsvStatus (s : State) (j : Nat) : Nat :=
  let x := rsvOf s j
  (match rsvTemp s j with | some t => (max 0 (t / 16)).toNat % 256 | none => 0) * 2 ^ 8 + b2n (groupFed s j) * 16 + b2n (hotRefresh s j) * 8 + b2n x.self_ * 4 +
    memDieCode s (8 + j) 1 j

/-- DPT_STATUS (08 R278): a channel that retrains or is in self refresh is out of service (R271). -/
def dptStatus (s : State) (p : Nat) : Nat :=
  bitmap 8 (fun c => (dramOf s p c).st = .inService && !(portMem s p).sr) * 2 ^ 8 + b2n (portMem s p).sr * 8 + b2n (portMem s p).srOk * 4 +
    memDieCode s (16 + p) 2 p

/-- DPT_CH_STATUS (08 R279). -/
def chStatus (x : DramChan) : Nat :=
  (match x.st with | .untrained => 0 | .inService => 1 | .failed => 2 | .retraining => 3) * 2 ^ 30 + x.refRate * 2 ^ 20 + min 65535 x.retrains

/-- The views of the RSV and DPT blocks. -/
def memView (s : State) (r : Requester) (off : Nat) : Option Nat :=
  let e : Region := tabGet s.mem.regions {} (bits (selVal s r 0x2C00010) 7 0)
  match off with
  | 0x2C00004 => some (s.mem.ranks * 16 + s.mem.chLog)
  | 0x2C00014 => some e.base
  | 0x2C00018 => some e.limit
  | 0x2C0001C => some (b2n e.valid * 2 ^ 31 + b2n e.secure * 2 ^ 30 + b2n e.fabric * 2 ^ 29 + b2n e.lent * 2 ^ 28 + e.domains * 2 ^ 8)
  | o =>
    if 0x2801000 ≤ o ∧ o < 0x2809000 ∧ o % 0x1000 = 0 then some (rsvStatus s ((o - 0x2801000) / 0x1000))
    else if 0x2C01000 ≤ o ∧ o < 0x2C05000 then
      let p := (o - 0x2C01000) / 0x1000
      let c := dramOf s p (bits (selVal s r (0x2C01004 + p * 0x1000)) 2 0)
      match o % 0x1000 with
      | 0x00 => some (dptStatus s p)
      | 0x08 => some (chStatus c)
      | 0x0C => some c.ce
      | 0x10 => some c.ue
      | 0x14 => some (portMem s p).scrubs
      | _ => none
    else none

/-! ### FAB and PAIR (11_tray_fabric.md R388 to R392; 12_mirrored_pairs.md R415 to R417) -/

/-- FAB_LINK_STATE (11 R389). -/
def linkView (s : State) (b j : Nat) : Nat :=
  let x := linkOf s b j
  if 12 ≤ b then 2 ^ 31
  else (match x.st with | .dark => 0 | .training => 1 | .up => 2 | .narrowed => 3 | .down => 4 | .miswired => 5) * 2 ^ 28 + x.lanes * 2 ^ 24 +
    (match x.spare with | some l => 2 ^ 23 + l * 2 ^ 20 | none => 0) + min 65535 x.trainings

/-- FAB_LINK_REMOTE (11 R389): valid in states 2, 3 and 5. -/
def remoteView (s : State) (b j : Nat) : Nat :=
  match (if linkUp s b j || (linkOf s b j).st = .miswired then (linkOf s b j).far else none) with
  | some f => f.tray.toNat * 2 ^ 16 + f.dev.toNat * 2 ^ 8 + f.bundle.toNat * 2 ^ 4 + f.link.toNat
  | none => 0

/-- Peers in a state. -/
def peerMap (s : State) (st : PeerState) : Nat := bitmap 8 fun d => d ≠ myPos s && (peerOf s d).st = st

/-- FAB_PEER (11 R390). -/
def peerView (s : State) (d : Nat) : Nat :=
  let p := peerOf s d
  (if d = myPos s then 0 else match p.st with | .absent => 0 | .direct => 1 | .detour => 2 | .lost => 3) * 2 ^ 30 +
    (if p.st = .detour then p.via * 2 ^ 27 else 0) + (s.fab.reqs.countP fun q => q.dev = d)

/-- The views of the FAB block. -/
def fabView (s : State) (r : Requester) (off : Nat) : Option Nat :=
  let w := selVal s r 0x3000010
  let x := linkOf s (bits w 7 4) (bits w 2 0)
  let q := s.fab.msg
  match off with
  | 0x3000000 => some (regBits s 0x3000000 31 16 * 2 ^ 16 + myPos s)
  | 0x3000008 => some (peerMap s .lost * 2 ^ 24 + peerMap s .detour * 2 ^ 16 + peerMap s .direct * 2 ^ 8 + b2n s.fab.time.aligned * 2 ^ 7 + timeRef s * 2 ^ 4)
  | 0x3000014 => some (linkView s (bits w 7 4) (bits w 2 0))
  | 0x3000018 => some (if 12 ≤ bits w 7 4 then 0 else remoteView s (bits w 7 4) (bits w 2 0))
  | 0x300001C => some x.ce
  | 0x3000020 => some x.replay
  | 0x3000034 => some (peerView s (bits (selVal s r 0x3000030) 2 0))
  | 0x3000040 => some (if timeRef s = myPos s then 0 else s16 (s.fab.time.theta2 / 2))
  | 0x3000104 => some (q.errCode * 2 ^ 8 + b2n q.skipped * 4 + b2n q.error * 2 + b2n q.enabled)
  | 0x3000150 => some q.sqHead
  | 0x3000154 => some (b2n q.phase * 2 ^ 16 + q.cqTail)
  | 0x3000158 => some q.rqHead
  | _ => none

/-- What PAIR_STATUS shows for a set (12 R415). -/
def setCode (s : State) (i : Nat) : Nat :=
  let p := pairSet s i
  if !s.pair.paired then 0 else if p.held then 1 else if p.valid then 2 else 3

/-- The views of the PAIR block. -/
def pairView (s : State) (r : Requester) (off : Nat) : Option Nat :=
  let p := pairSet s (bits (selVal s r 0x3400020) 0 0)
  let k := ctxOf s (bits (selVal s r 0x3400010) 15 0)
  let sets := [pairSet s 0, pairSet s 1]
  match off with
  | 0x3400008 => some (b2n (sets.any PairSet.resync) * 2 ^ 10 + b2n ((List.range 4).any (serves s)) * 2 ^ 9 +
      b2n (sets.any fun q => q.held && q.solo) * 2 ^ 8 + setCode s 1 * 4 + setCode s 0)
  | 0x3400014 => some (b2n k.mirror * 2 ^ 31 + b2n k.shadow * 2 ^ 30 + b2n k.standby * 2 ^ 29 + k.peerCtx)
  | 0x3400024 => some (b2n p.held * 2 ^ 31 + b2n p.stopped * 2 ^ 30 + b2n p.valid * 2 ^ 29 + p.claim % 2 ^ 29)
  | 0x3400028 => some (if p.held then p.expiry else 0)
  | 0x340002C => some (if p.held then p.expiry / 2 ^ 32 else 0)
  | _ => none

/-! ### The whole of BAR0 and a context's page -/

/-- The value the device forms for a register, none where it reads as stored. -/
def viewOf (s : State) (r : Requester) (off : Nat) : Option Nat :=
  if off < 0x100000 then hubView s r off
  else if off < 0x400000 then islandView s r off
  else if off < 0x800000 then secView s r off
  else if off < 0x1000000 then ctxView s r off
  else if off < 0x1400000 then plcView s r off
  else if off < 0x1800000 then dmaView s off
  else if off < 0x1C00000 then baseView s r off
  else if off < 0x2000000 then silView s r off
  else if off < 0x2800000 then stkView s r ((off - 0x2000000) / 0x100000) (off % 0x100000)
  else if off < 0x3000000 then memView s r off
  else if off < 0x3400000 then fabView s r off
  else if off < 0x3800000 then pairView s r off
  else some (if isSel off then (selVal s r off).toNat else flcRead s r (off - 0x3800000))

/-- What a register of BAR0 reads as (18 R555): an offset no table defines reads zero. -/
def regLive (s : State) (r : Requester) (off : Nat) : Word :=
  if (specOf off).isNone then 0#32
  else match viewOf s r off with
    | some n => w32 n
    | none => if isSel off then selVal s r off else regVal s off

/-- The low halves of the pairs that R27 governs. -/
def isLo (off : Nat) : Bool :=
  [0x08, 0x20, 0x58, 0x200028, 0x800208, 0x800210, 0x10000A0, 0x1400038, 0x1800080, 0x18000A0, 0x1C00020, 0x1C00080, 0x1C00088,
    0x3400028, 0x3400040, 0x3800010, 0x3800018, 0x3800038].contains off ||
    (decide (0x1501000 ≤ off) && decide (off < 0x1501400) && (off - 0x1501000) % 0x40 = 0x18) ||
    (decide (0x2000000 ≤ off) && decide (off < 0x2800000) && [0x110, 0x118, 0x130].contains (off % 0x100000))

/-- What a requester's read returns (15_reset_boot.md R480; 01_architecture.md R27): all ones while the BARs are off, a loaded
latch for a high half, else the register's value.
DEDUCED: notes/assumptions/18. -/
def regRead (s : State) (r : Requester) (off : Nat) : Word :=
  if r = .host && barsOff s && off ≠ 0x300000 && off ≠ 0x300014 then 0xFFFFFFFF#32
  else if 4 ≤ off && isLo (off - 4) then (tabFind s.rf.latches (bankOf r * 2 ^ 26 + off)).getD (regLive s r off)
  else regLive s r off

/-- LO_REGISTER_READ (01 R27; 18 R557): a read of LO loads the requester's latch with the high half of the same value. -/
def execLoRegisterRead (r : Requester) (off : BitVec 26) (s : State) : Out :=
  let o := off.toNat
  let v := regRead s r o
  if !isLo o then .next s
  else if r = .host && barsOff s then .next (send s (.plain "read" v.toNat))
  else .next (send { s with rf := { s.rf with latches := tabPut s.rf.latches (bankOf r * 2 ^ 26 + o + 4) (regLive s r (o + 4)) } } (.plain "read" v.toNat))

/-- Whether a descriptor waits for a completion slot (09 R300, R312, R315). -/
def slotWait (k : Ctx) : Bool := k.waiting.isSome && decide (freeSlots k ≤ 8)

/-- What a set-up, count or index register of a context's page reads as (09_host_rings.md R299 to R304); a page of no context
reads zero. -/
def pageRead (s : State) (p : PageRef) (off : Nat) : Word :=
  match pageCtx s p with
  | none => if barsOff s then 0xFFFFFFFF#32 else 0#32
  | some c =>
    let k := ctxOf s c
    w32 (match off with
      | 0x100 => 0x00020011
      | 0x104 => b2n k.enable * 2 ^ 31 + b2n k.pasidEn * 2 ^ 30 + k.ver * 2 ^ 20 + k.pasid
      | 0x108 => k.errCode * 2 ^ 8 + b2n k.error * 16 + b2n (slotWait k || k.frameHeld || k.space.isSome) * 8 + b2n k.stopped.isSome * 4 +
          b2n k.inst.isSome * 2 + b2n k.enabled
      | 0x110 => k.sqBase
      | 0x114 => k.sqBase / 2 ^ 32
      | 0x118 => k.sqLog
      | 0x120 => k.cqBase
      | 0x124 => k.cqBase / 2 ^ 32
      | 0x128 => k.cqLog
      | 0x130 => k.rqBase
      | 0x134 => k.rqBase / 2 ^ 32
      | 0x138 => k.rqLog
      | 0x140 => k.irq.toNat
      | 0x144 => k.holdUs
      | 0x148 => k.seed
      | 0x14C => k.seed / 2 ^ 32
      | 0x150 => k.trunc
      | 0x154 => k.dbErr
      | 0x158 => k.evtLost
      | 0x160 => k.sqHead
      | 0x164 => b2n k.cqPhase * 2 ^ 16 + k.cqTail
      | 0x168 => k.rqHead
      | _ => 0)

end Sys2Proof.Machine
end

