-- ==== Sys2Proof/Machine/RegWrite.lean ====
section
/-!
DEFINITION. Writes of the register map (18_register_map.md R554 to R562, R569 to R571) and of context pages (09_host_rings.md
R296 to R303), and the commands that are one register's write.
-/
namespace Sys2Proof.Machine

/-- The next state of a meaning. -/
def nextOr (s : State) (o : Out) : State := match o with | .next t => t | _ => s

/-! ### Fields (00_scope.md R10; 01_architecture.md R38; 18 R556, R560) -/

/-- A field after a write of `v` to a register that holds `old` (00 R10). -/
def mergeField (lk : Bool) (v : Word) (old : Word) (f : FieldSpec) : Word :=
  match f.acc with
  | .rw => setBits old f.hi f.lo (bits v f.hi f.lo)
  | .rwl => if lk then old else setBits old f.hi f.lo (bits v f.hi f.lo)
  | .w1c => setBits old f.hi f.lo (bits old f.hi f.lo &&& (2 ^ (f.hi - f.lo + 1) - 1 - bits v f.hi f.lo))
  | .w1s => setBits old f.hi f.lo (bits old f.hi f.lo ||| bits v f.hi f.lo)
  | .wo | .ro => old

/-- A register after a write: every field by its access code. -/
def mergeFields (fs : List FieldSpec) (lk : Bool) (old v : Word) : Word := fs.foldl (mergeField lk v) old

/-- A register after a write in this tick: W1C bits that an event of the tick has set stay set (R11). -/
def mergeNow (s : State) (off : Nat) (fs : List FieldSpec) (lk : Bool) (old v : Word) : Word := mergeFields fs lk old v ||| (setNow s off &&& old)

/-- Whether a written value lies outside a field's range (01 R38); a field that ignores the write refuses none. -/
def fieldBad (lk : Bool) (v : Word) (f : FieldSpec) : Bool :=
  match f.acc with
  | .rw => decide (bits v f.hi f.lo < f.min) || decide (f.max < bits v f.hi f.lo)
  | .rwl => !lk && (decide (bits v f.hi f.lo < f.min) || decide (f.max < bits v f.hi f.lo))
  | .w1c | .w1s | .wo | .ro => false

/-- Whether a write would change a field (18 R560). -/
def fieldChanges (old v : Word) (f : FieldSpec) : Bool :=
  match f.acc with
  | .rw | .rwl | .ro => decide (bits old f.hi f.lo ≠ bits v f.hi f.lo)
  | .w1c | .w1s | .wo => decide (bits v f.hi f.lo ≠ 0)

/-- The value a requester's write starts from: its own copy of a selection, or the stored one (18 R557). -/
def heldVal (s : State) (r : Requester) (off : Nat) : Word := if isSel off then selVal s r off else regVal s off

/-- Whether the FLC window refuses a write that would change a field (16_flacon.md R527; 18 R560): of any register but its selections. -/
def flcRefuses (off : Nat) : Bool := decide (0x3800000 ≤ off) && !isSel off

/-- Whether a write is denied to its requester, since it would change a field of another's as it reads (18 R560; 10_dma_check.md R331, R332). -/
def writeDenied (s : State) (r : Requester) (p : RegSpec) (off : Nat) (v : Word) : Bool :=
  let changes := p.fields.any (fieldChanges (regLive s r off) v)
  (flcRefuses off && changes) || (match p.tag with
    | .n => false
    | .sec => r ≠ .secure && changes
    | .hub => !coresMay r && changes)

/-! ### Locks (R569 to R571) -/

/-- The number of a block's lock group, from 0. -/
def lockGroup (off : Nat) : Nat := (lockGroups.zipIdx.find? fun g => g.1.contains off).map Prod.snd |>.getD 0

/-- Whether an offset is a LOCK register. -/
def isLock (off : Nat) : Bool := lockGroups.any fun g => g.contains off

/-- A write of a LOCK register (18 R569): from the PF driver or the management controller, once READY and with every lower
group locked; one that is set already changes nothing.
DEDUCED: notes/assumptions/20. -/
def writeLock (s : State) (r : Requester) (off : Nat) (v : Word) : State :=
  let lower := (lockGroups.take (lockGroup off)).flatten.all fun l => (regVal s l).getLsbD 0
  if !v.getLsbD 0 || coresMay r || (regVal s off).getLsbD 0 then s
  else if bootReady s && lower then regPut s off 1#32
  else logRefused s r off v stCtxState

/-! ### Registers with effects of their own -/

/-- A write of RST_WDT (15_reset_boot.md R484, R503): a kick, or EN rising, restarts the period, and a kick clears STAGE.
DEDUCED: notes/assumptions/20. -/
def writeWdt (s : State) (v new : Word) : State :=
  let old := regVal s 0x300008
  let s1 := regPut s 0x300008 (if v.getLsbD 30 then setBits new 29 29 0 else new)
  if bootReady s && (v.getLsbD 30 || (new.getLsbD 31 && !old.getLsbD 31)) then
    modRst s1 fun x => { x with wdtBy := some (s.gt + 1000000 * bits new 15 0) }
  else s1

/-- Clears the arithmetic counters of a context: what they rose by in the same tick stays, the clear coming first (02_arithmetic.md R55). -/
def clearArith (s : State) (c : Nat) : State := modCtx s c fun k =>
  let x := if k.rise.at_ = s.gt then k.rise else {}
  { k with flush := x.flush, truncTerms := x.trunc, reissue := x.reissue, special := x.special }

/-- The 256 bytes of SEC_MBOX_DATA (13_tenancy_security.md R422). -/
def mboxBytes (s : State) : List Byte := (List.range 64).flatMap fun i => leBytes 4 (regVal s (0x400100 + 4 * i)).toNat

/-- A write of BASE_LANE_CFG for the bundle that the requester's BASE_LANE_SEL names (07_skeltil_base.md R256): MODE takes
effect at the next reset test.
DEDUCED: notes/assumptions/17. -/
def writeLaneCfg (s : State) (r : Requester) (lk : Bool) (v : Word) : State :=
  let i := bits (selVal s r 0x1800060) 12 8
  let b := bits (selVal s r 0x1800060) 7 0
  if bundleCount i ≤ b then s
  else modBundle s i b fun x => { x with thresh := bits v 15 8, newMode := if lk then x.newMode else bits v 1 0 }

/-- A write of the region entry that DPT_RGN_SEL names (08_memory_tiers.md R285, R288), from the secure world. -/
def writeRegion (s : State) (r : Requester) (off : Nat) (v : Word) : State :=
  let n := bits (selVal s r 0x2C00010) 7 0
  let e : Region := tabGet s.mem.regions {} n
  setRegion s n (if off = 0x2C00014 then { e with base := bits v 23 0 }
    else if off = 0x2C00018 then { e with limit := bits v 23 0 }
    else { e with valid := v.getLsbD 31, secure := v.getLsbD 30, fabric := v.getLsbD 29, lent := v.getLsbD 28, domains := bits v 15 8 })

/-- A write of PAIR_CTX for the context that PAIR_CTX_SEL names (12_mirrored_pairs.md R416): ignored while its ENABLE is 1. -/
def writePairCtx (s : State) (r : Requester) (v : Word) : State :=
  modCtx s (bits (selVal s r 0x3400010) 15 0) fun k =>
    if k.enable then k else { k with mirror := v.getLsbD 31, shadow := v.getLsbD 30, peerCtx := bits v 15 0 }

/-- A write of a DMA channel's register (10 R331, R334, R348, R349): refused to a pool that a loader owns; one of SRC, DST or COUNT has no
effect while the channel runs. One of CTL sets its RW fields, which the channel's next start reads, whatever it commands (00_scope.md R10); a CTX
above 4,095 is refused but to a GO, which halts the channel (R334).
DEDUCED: notes/assumptions/20, 63. -/
def writeDmaReg (s : State) (r : Requester) (off : Nat) (v new : Word) : State :=
  let n := (off - 0x1401000) / 0x40
  let ctl := (off - 0x1401000) % 0x40 = 0x14
  if ctl && v.getLsbD 31 then dmaGo s n (.write r) v (v.getLsbD 29)
  else if n < 56 || (ctl && v.getLsbD 28 && r ≠ .secure) then logRefused s r off v stDenied
  else if ctl && decide (4095 < bits v 15 0) then logRefused s r off v stRange
  else if ctl then (if v.getLsbD 30 then nextOr (regPut s off new) (execDmaAbort (BitVec.ofNat 6 n) r (regPut s off new)) else regPut s off new)
  else if (dmaOf s n).st = .running then logRefused s r off v stCtxState
  else regPut s off new

/-- A write of a check-value engine's register (10 R353 to R359): refused while it runs, but for a STOP, which takes effect
after the bytes consumed so far; on an engine that does not run one sets the RW fields and stops nothing (00_scope.md R10; 10 R355).
DEDUCED: notes/assumptions/20. -/
def writeChkReg (s : State) (r : Requester) (off : Nat) (v new : Word) : State :=
  let e := (off - 0x1501000) / 0x40
  let ctl := (off - 0x1501000) % 0x40 = 0xC
  if ctl && v.getLsbD 31 then nextOr s (execChkGo (BitVec.ofNat 4 e) r v s)
  else if ctl && v.getLsbD 28 && r ≠ .secure then logRefused s r off v stDenied
  else if (chkOf s e).st = .running then
    (if ctl && v.getLsbD 30 then nextOr s (execChkStop (BitVec.ofNat 4 e) r 0#32 [] s) else logRefused s r off v stCtxState)
  else regPut s off new

/-- A write of PAIR_CFG (12 R393, R414): enabled, the pair forms where a link of L7 or L8 is up.
DEDUCED: notes/assumptions/37. -/
def writePairCfg (s : State) (new : Word) : State :=
  let s1 := regPut s 0x3400000 new
  if upLinks s1 7 = [] && upLinks s1 8 = [] then s1 else formPair s1

/-- A write of SIL_EXACT, with the value that step boundaries of this tick still find (06 R198). -/
def writeExact (s : State) (off : Nat) (new : Word) : State :=
  let keep : Bool := match s.sil.exactWrite with | some (t, _) => decide (t = s.gt) | none => false
  regPut (if keep then s else { s with sil := { s.sil with exactWrite := some (s.gt, regVal s off) } }) off new

/-- A write that no check refuses, of value `v` to a register whose fields make `new`.
DEDUCED: notes/assumptions/20. -/
def applyWrite (s : State) (r : Requester) (off : Nat) (v new : Word) (lk : Bool) : State :=
  if isLock off then writeLock s r off v
  else if off = 0x80C then (if fltHead s < v.toNat then logRefused s r off v stRange else regPut s off new)
  else if off = 0x900 then
    let s1 := regPut s off new
    if v.getLsbD 31 then startInjection s1 (bits new 7 0) (new.getLsbD 30) else s1
  else if off = 0x100004 then retargetAll (regPut s off new)
  else if off = 0x300004 then (if v.getLsbD 0 then askWarm s else s)
  else if off = 0x300008 then writeWdt s v new
  else if off = 0x30002C then (if v.getLsbD 31 then nextOr s (execRecoveryGo s) else s)
  else if off = 0x400010 then (if v.getLsbD 31 && !lk then runBlock s false (mboxBytes s) else s)
  else if 0x400100 ≤ off ∧ off < 0x400200 then (if lk || mboxBusy s then s else regPut s off new)
  else if off = 0x800200 then
    let s1 := selPut s r off new
    if v.getLsbD 31 then clearArith s1 (bits new 15 0) else s1
  else if 0x804000 ≤ off ∧ off < 0x807F00 then writeVfmap s r ((off - 0x804000) / 256 + 1) ((off - 0x804000) % 256 / 4) v
  else if off = 0x1000044 then nextOr s (execPlacementQuery r v s)
  else if off = 0x10000C0 then writeCapCtl s (bits v 9 8) (bits v 5 4) (bits v 2 0) (v.getLsbD 31)
  else if off = 0x1C00004 then regPut (holdSpill s) off new
  else if off = 0x1C00008 then writeExact s off new
  else if 0x1401000 ≤ off ∧ off < 0x1402000 then writeDmaReg s r off v new
  else if 0x1501000 ≤ off ∧ off < 0x1501400 then writeChkReg s r off v new
  else if off = 0x1800064 then writeLaneCfg s r lk v
  else if 0x2000000 ≤ off ∧ off < 0x2800000 ∧ off % 0x100000 = 0x100 then telControl r s ((off - 0x2000000) / 0x100000) (v.getLsbD 1) (v.getLsbD 0)
  else if off = 0x2C00014 ∨ off = 0x2C00018 ∨ off = 0x2C0001C then (if r = .secure then writeRegion s r off v else s)
  else if off = 0x3000100 then
    (if v.getLsbD 31 then nextOr s (execMsgRingsEnable (BitVec.ofNat 11 (bits v 10 0)) s) else nextOr s (execMsgRingsDisable (BitVec.ofNat 11 (bits v 10 0)) s))
  else if off = 0x3000104 then (if v.getLsbD 2 && !(setNow s off).getLsbD 2 then modMsg s fun q => { q with skipped := false } else s)
  else if 0x3000110 ≤ off ∧ off < 0x3000140 then (if (regVal s 0x3000100).getLsbD 31 then s else regPut s off new)
  else if off = 0x3000140 then nextOr s (execFabMsgSqTail true v s)
  else if off = 0x3000144 then nextOr s (execFabMsgCqHead true v s)
  else if off = 0x3000148 then nextOr s (execFabMsgRqTail true v s)
  else if off = 0x3400000 then writePairCfg s new
  else if off = 0x340000C then (if v.getLsbD 0 then requestSet s (bits v 1 1) else s)
  else if off = 0x3400014 then writePairCtx s r v
  else if isSel off then selPut s r off new
  else regPut s off new

/-- Whether a PLDM write of this tick to the register stands against a BAR0 write (18 R556; 14 R465). -/
def pldmStands (s : State) (r : Requester) (off : Nat) : Bool :=
  r = .host && !isSel off && (match s.rf.pldm with | some x => decide (x.1 = s.gt) && x.2.contains off | none => false)

/-- A written value with the RW and RWL fields as the register reads. -/
def keepFields (fs : List FieldSpec) (old v : Word) : Word :=
  (fs.filter fun f => f.acc = .rw || f.acc = .rwl).foldl (fun w f => setBits w f.hi f.lo (bits old f.hi f.lo)) v

/-- Notes a PLDM write of this tick. -/
def notePldm (s : State) (r : Requester) (off : Nat) : State :=
  if r ≠ .mgmt then s
  else
    let old := match s.rf.pldm with | some x => if x.1 = s.gt then x.2 else [] | none => []
    { s with rf := { s.rf with pldm := some (s.gt, off :: old) } }

/-- A write of one dword to BAR0's space (15 R480; 18 R554 to R560): dropped while the BARs are off or where a reset of its tick waits, else
refused whole and logged, or applied as a whole; a PLDM write of the tick to the same register stands.
DEDUCED: notes/assumptions/16. -/
def writeReg (s : State) (r : Requester) (off : Nat) (v : Word) : State :=
  if (r = .host && barsOff s) || resetWaits s then s
  else match specOf off with
    | none => logRefused s r off v stAddr
    | some p =>
      let lk := locked s off
      if writeDenied s r p off v then logRefused s r off v stDenied
      else if p.fields.any (fieldBad lk v) then logRefused s r off v stRange
      else
        let old := heldVal s r off
        let w := if pldmStands s r off then keepFields p.fields (regLive s r off) v else v
        applyWrite (notePldm s r off) r off w (mergeNow s off p.fields lk old w) lk

/-- A write of BAR0 in one of the forms of R554.
DEDUCED: notes/assumptions/16, 19. -/
def writeForm (s : State) (r : Requester) (off : Nat) (f : WriteForm) : State :=
  match f with
  | .dword v => if off % 4 = 0 then writeReg s r off v else if r = .host && barsOff s then s else logRefused s r off v stBadDesc
  | .pair lo hi => writeReg (writeReg s r (off / 8 * 8) lo) r (off / 8 * 8 + 4) hi
  | .partialDword v | .long v => if r = .host && barsOff s then s else logRefused s r off v stBadDesc

/-! ### Context pages (09 R296 to R303) -/

/-- Replaces the low or high half of a 64-bit value. -/
def half (old : Nat) (high : Bool) (v : Word) : Nat :=
  if high then old % 2 ^ 32 + v.toNat * 2 ^ 32 else old / 2 ^ 32 * 2 ^ 32 + v.toNat

/-- A write of a set-up register of a context's page (09 R301 to R303): ring registers and the seed are ignored while ENABLE is
1; a vector outside the function's range leaves ERR_CODE 0x04; a hold time of 0 has no effect. -/
def writeCtxReg (fn off : Nat) (v : Word) (k : Ctx) : Ctx :=
  let idle (f : Ctx) : Ctx := if k.enable then k else f
  match off with
  | 0x110 => idle { k with sqBase := half k.sqBase false (v &&& 0xFFFFF000#32) }
  | 0x114 => idle { k with sqBase := half k.sqBase true v }
  | 0x118 => idle { k with sqLog := bits v 4 0 }
  | 0x120 => idle { k with cqBase := half k.cqBase false (v &&& 0xFFFFF000#32) }
  | 0x124 => idle { k with cqBase := half k.cqBase true v }
  | 0x128 => idle { k with cqLog := bits v 4 0 }
  | 0x130 => idle { k with rqBase := half k.rqBase false (v &&& 0xFFFFF000#32) }
  | 0x134 => idle { k with rqBase := half k.rqBase true v }
  | 0x138 => idle { k with rqLog := bits v 4 0 }
  | 0x140 => if fn ≠ 0 ∧ 32 ≤ bits v 10 0 then { k with errCode := stRange } else { k with irq := v &&& 0xFFFFE7FF#32 }
  | 0x144 => if bits v 15 0 = 0 then k else { k with holdUs := bits v 15 0 }
  | 0x148 => idle { k with seed := half k.seed false v }
  | 0x14C => idle { k with seed := half k.seed true v }
  | _ => k

/-- A write of one dword to a context page (09 R295 to R299). -/
def writePage (s : State) (p : PageRef) (off : Nat) (v : Word) : State :=
  match off with
  | 0x000 => nextOr s (execCtxSqTail p true v s)
  | 0x004 => nextOr s (execCtxCqHead p true v s)
  | 0x008 => nextOr s (execCtxRqTail p true v s)
  | 0x00C => nextOr s (execCtxOutAck p true v s)
  | 0x104 => if v.getLsbD 31 then nextOr s (execContextEnable p v s) else nextOr s (execContextDisable p v s)
  | o => match pageCtx s p with
    | some c => modCtx s c (writeCtxReg (fnOf s c) o v)
    | none => s

/-- A write to a context page in one of R554's forms: only whole dwords act, and of a doorbell only one by itself (09 R298).
DEDUCED: notes/assumptions/19. -/
def writePageForm (s : State) (p : PageRef) (off : Nat) (f : WriteForm) : State :=
  match f with
  | .dword v => writePage s p off v
  | .pair lo hi => if off < 0x10 then s else writePage (writePage s p (off / 8 * 8) lo) p (off / 8 * 8 + 4) hi
  | .partialDword _ | .long _ => s

/-! ### The MSI-X table (09 R293, R325) -/

/-- The entry of the PF's table that a dword of a function's BAR4 belongs to; none beyond the function's table, and for the PF none in the
part of an enabled VF (09 R293, R325). -/
def msixIndex (s : State) (fn off : Nat) : Option Nat :=
  let i := off / 16
  if fn = 0 then (if 2048 ≤ i || (decide (32 ≤ i) && vfEnabled s (i / 32)) then none else some i)
  else if i < 32 then some (32 * fn + i) else none

/-- An entry whose message waits sends it once it is not masked (09 R325).
PRESUMED: notes/assumptions/71. -/
def sendPending (s : State) (i : Nat) : State :=
  let e := tabGet s.rf.msix {} i
  let f := if decide (32 ≤ i) && vfEnabled s (i / 32) then i / 32 else 0
  if s.rf.pba.contains i && !e.masked then send { s with rf := { s.rf with pba := s.rf.pba.filter (· ≠ i) } } (.msix f (i - 32 * f) e.addr e.data) else s

/-- A write of a dword of the MSI-X table: address, data or vector control; the pending bits ignore writes.
PRESUMED: notes/assumptions/71. -/
def writeMsix (s : State) (fn off : Nat) (v : Word) : State :=
  if barsOff s || off % 4 ≠ 0 then s
  else match msixIndex s fn off with
    | none => s
    | some i => sendPending { s with rf := { s.rf with msix := tabMod s.rf.msix {} i fun e => match off % 16 / 4 with
        | 0 => { e with addr := half e.addr false (v &&& 0xFFFFFFFC#32) }
        | 1 => { e with addr := half e.addr true v }
        | 2 => { e with data := v }
        | _ => { e with masked := v.getLsbD 0 } } } i

/-- A write of BAR4 in one of R554's forms: only whole dwords act. -/
def writeMsixForm (s : State) (fn off : Nat) (f : WriteForm) : State :=
  match f with
  | .dword v => writeMsix s fn off v
  | .pair lo hi => writeMsix (writeMsix s fn (off / 8 * 8) lo) fn (off / 8 * 8 + 4) hi
  | .partialDword _ | .long _ => s

/-- What a dword of BAR4 reads as (09 R293, R325): the table, the pending bits, zero elsewhere; all ones while the BARs are off (15 R480).
PRESUMED: notes/assumptions/71. -/
def msixRead (s : State) (fn off : Nat) : Word :=
  let pba := if fn = 0 then 0x8000 else 0x1000
  if barsOff s then 0xFFFFFFFF#32
  else if pba ≤ off then
    w32 (bitmap 32 fun b =>
      let i := (off - pba) / 4 * 32 + b
      decide (msixIndex s fn (16 * i) = some (32 * fn + i)) && s.rf.pba.contains (32 * fn + i))
  else match msixIndex s fn off with
    | none => 0#32
    | some i =>
      let e := tabGet s.rf.msix {} i
      match off % 16 / 4 with
      | 0 => w32 e.addr
      | 1 => w32 (e.addr / 2 ^ 32)
      | 2 => e.data
      | _ => w32 (b2n e.masked)

/-! ### The commands -/

/-- REGISTER_WRITE (18 R554 to R560; 09 R296). -/
def execRegisterWrite (r : Requester) (t : RegTarget) (f : WriteForm) (s : State) : Out :=
  match t with
  | .bar0 off => .next (writeForm s r off.toNat f)
  | .page p off => .next (writePageForm s p off.toNat f)
  | .bar4 fn off => .next (writeMsixForm s fn.toNat off.toNat f)

/-- CAP_WRITE (14_power_clocks_thermal.md R456, R471): PWR_CAP, in force from the next evaluation. -/
def execCapWrite (r : Requester) (v : Word) (s : State) : Out := .next (writeReg s r 0x200004 v)

/-- KICK (15 R484): a write of RST_WDT with KICK. -/
def execKick (r : Requester) (v : Word) (s : State) : Out := .next (writeReg s r 0x300008 (v ||| 0x40000000#32))

/-- ARITH_CLR (02 R55): a write of CTX_ARITH_SEL with CLR. -/
def execArithClr (r : Requester) (c : BitVec 16) (s : State) : Out := .next (writeReg s r 0x800200 (0x80000000#32 ||| c.zeroExtend 32))

/-- LOCK_WRITE (18 R569): of the LOCK register at `off`. -/
def execLockWrite (r : Requester) (off : BitVec 26) (v : Word) (s : State) : Out :=
  .next (if isLock off.toNat then writeReg s r off.toNat v else s)

/-- HUB_FLT_ACK (17_faults.md R545, R548).
DEDUCED: notes/assumptions/69. -/
def execHubFltAck (r : Requester) (v : Word) (s : State) : Out := .next (writeReg s r 0x80C v)

/-- A write of HUB_INJ_CTL with GO (17 R551). -/
def writeInject (s : State) (r : Requester) (kind : Nat) (restore : Bool) : State :=
  writeReg s r 0x900 (BitVec.ofNat 32 (2 ^ 31 + b2n restore * 2 ^ 30 + kind))

/-- INJECT_LANE_ERRORS (17 R550): KIND 0x01. -/
def execInjectLaneErrors (r : Requester) (s : State) : Out := .next (writeInject s r 0x01 false)
/-- INJECT_CHANNEL_LOSS (17 R550): KIND 0x02. -/
def execInjectChannelLoss (r : Requester) (s : State) : Out := .next (writeInject s r 0x02 false)
/-- INJECT_RING_UNLOCK (17 R550): KIND 0x03. -/
def execInjectRingUnlock (r : Requester) (s : State) : Out := .next (writeInject s r 0x03 false)
/-- INJECT_LASER_OFF (17 R550): KIND 0x04. -/
def execInjectLaserOff (r : Requester) (s : State) : Out := .next (writeInject s r 0x04 false)
/-- INJECT_SRAM_DOUBLE_BIT (17 R550): KIND 0x05. -/
def execInjectSramDoubleBit (r : Requester) (s : State) : Out := .next (writeInject s r 0x05 false)
/-- INJECT_TILE_LOST (17 R550): KIND 0x06. -/
def execInjectTileLost (r : Requester) (s : State) : Out := .next (writeInject s r 0x06 false)
/-- INJECT_DIE_LOST (17 R550): KIND 0x07, with RESTORE as written. -/
def execInjectDieLost (r : Requester) (restore : Bool) (s : State) : Out := .next (writeInject s r 0x07 restore)
/-- INJECT_RESERVOIR_DOUBLE_BIT (17 R550): KIND 0x08. -/
def execInjectReservoirDoubleBit (r : Requester) (s : State) : Out := .next (writeInject s r 0x08 false)
/-- INJECT_T2_UNCORRECTABLE (17 R550): KIND 0x09. -/
def execInjectT2Uncorrectable (r : Requester) (s : State) : Out := .next (writeInject s r 0x09 false)
/-- INJECT_LINK_DOWN (17 R550): KIND 0x0A. -/
def execInjectLinkDown (r : Requester) (s : State) : Out := .next (writeInject s r 0x0A false)
/-- INJECT_REDUCTION_FAULT (17 R550): KIND 0x0B. -/
def execInjectReductionFault (r : Requester) (s : State) : Out := .next (writeInject s r 0x0B false)

end Sys2Proof.Machine
end

