-- ==== Sys2Proof/Machine/Tap.lean ====
section
/-!
DEFINITION. The test access port (19_package_pins.md R592 to R595).
-/
namespace Sys2Proof.Machine

/-- The port holds instruction `i` (19 R594, R595). A boot that waited for it goes on once `i` takes no pins. -/
def setTap (s : State) (i : TapInstr) : State :=
  let s1 := { s with tap := { s.tap with ir := i } }
  if s.tap.bootWaits && !tapDrives i then startBoot { s1 with tap := { s1.tap with bootWaits := false } } else s1

/-- The pins as the port drives them (19 R594, R595): none where it does not; while COLD_RST# is low, the update latch, or
with HIGHZ every output off.
DEDUCED: notes/assumptions/56. -/
inductive TapPins where
  | none
  | off
  | cells (v : BitVec 2306)
  deriving DecidableEq, Repr

def tapPins (s : State) : TapPins :=
  if !s.tap.coldLow then .none
  else match s.tap.ir with
    | .extest | .clamp | .extestPulse | .extestTrain => .cells s.tap.cells
    | .highz => .off
    | .idcode | .samplePreload | .bypass => .none

/-- A scan of the boundary register (19 R593): what the cells captured leaves on TDO, and what came in is latched. -/
def scanCells (s : State) (pins inn : BitVec 2306) : State :=
  send { s with tap := { s.tap with cells := inn } } (.scan pins)

/-- A scan of the bypass register, which captures 0. -/
def scanBypass (s : State) : State := send s (.plain "tdo bypass" 0)

/-- An instruction that selects the boundary register and takes the pins; with COLD_RST# high it acts as BYPASS (19
R595).
DEDUCED: notes/assumptions/56. -/
def drivingScan (s : State) (i : TapInstr) (pins inn : BitVec 2306) : State :=
  let s1 := setTap s i
  if s.tap.coldLow then scanCells s1 pins inn else scanBypass s1

/-- EXTEST (19 R594, R595).
DEDUCED: notes/assumptions/56. -/
def execExtest (pins inn : BitVec 2306) (s : State) : Out := .next (drivingScan s .extest pins inn)

/-- EXTEST_PULSE (19 R594, R595). -/
def execExtestPulse (pins inn : BitVec 2306) (s : State) : Out := .next (drivingScan s .extestPulse pins inn)

/-- EXTEST_TRAIN (19 R594, R595). -/
def execExtestTrain (pins inn : BitVec 2306) (s : State) : Out := .next (drivingScan s .extestTrain pins inn)

/-- SAMPLE_PRELOAD (19 R594): the pins are not driven. -/
def execSamplePreload (pins inn : BitVec 2306) (s : State) : Out := .next (scanCells (setTap s .samplePreload) pins inn)

/-- IDCODE (19 R594): the identification register, the same on every order code. -/
def execIdcode (s : State) : Out := .next (send (setTap s .idcode) (.plain "tdo" 0xB9620D87))

/-- HIGHZ (19 R594, R595). -/
def execHighz (s : State) : Out := .next (scanBypass (setTap s .highz))

/-- CLAMP (19 R594, R595). -/
def execClamp (s : State) : Out := .next (scanBypass (setTap s .clamp))

/-- BYPASS (19 R594), and every private or unlisted opcode. -/
def execBypass (s : State) : Out := .next (scanBypass (setTap s .bypass))

/-- TAP_RESET (19 R592, R594): IDCODE is loaded. -/
def execTapReset (s : State) : Out := .next (setTap s .idcode)

end Sys2Proof.Machine
end

