-- ==== Sys2Proof/Machine/Dispatch.lean ====
section
/-!
DEFINITION. One arm per command: a direct call of its meaning.
-/
namespace Sys2Proof.Machine

/-- The effect of a command on everything but the queue. -/
def exec (i : Instr) (s : State) : Host.Outcome State Fault Refusal :=
  match i with
  | .matmul d tray => Sys2Proof.Machine.execMatmul d tray s
  | .expertMatmul d tray => Sys2Proof.Machine.execExpertMatmul d tray s
  | .routerTopk d => Sys2Proof.Machine.execRouterTopk d s
  | .gather d => Sys2Proof.Machine.execGather d s
  | .attnExact d => Sys2Proof.Machine.execAttnExact d s
  | .attnSillage d => Sys2Proof.Machine.execAttnSillage d s
  | .kvAppend d => Sys2Proof.Machine.execKvAppend d s
  | .norm d => Sys2Proof.Machine.execNorm d s
  | .softmax d => Sys2Proof.Machine.execSoftmax d s
  | .activation d => Sys2Proof.Machine.execActivation d s
  | .elementwise d => Sys2Proof.Machine.execElementwise d s
  | .rotary d => Sys2Proof.Machine.execRotary d s
  | .sample d => Sys2Proof.Machine.execSample d s
  | .convert d => Sys2Proof.Machine.execConvert d s
  | .vectorKernel d => Sys2Proof.Machine.execVectorKernel d s
  | .trayAllreduce d peers => Sys2Proof.Machine.execTrayAllreduce d peers s
  | .trayAllgather d peers => Sys2Proof.Machine.execTrayAllgather d peers s
  | .trayAlltoall d peers => Sys2Proof.Machine.execTrayAlltoall d peers s
  | .trayBroadcast d peers => Sys2Proof.Machine.execTrayBroadcast d peers s
  | .collectiveTimeout d => Sys2Proof.Machine.execCollectiveTimeout d s
  | .reissueAttempt d => Sys2Proof.Machine.execReissueAttempt d s
  | .add d a b => Sys2Proof.Machine.execAdd d a b s
  | .sub d a b => Sys2Proof.Machine.execSub d a b s
  | .mul d a b => Sys2Proof.Machine.execMul d a b s
  | .fma d a b c => Sys2Proof.Machine.execFma d a b c s
  | .div d a b => Sys2Proof.Machine.execDiv d a b s
  | .sqrt d a => Sys2Proof.Machine.execSqrt d a s
  | .rcp d a => Sys2Proof.Machine.execRcp d a s
  | .rsqrt d a => Sys2Proof.Machine.execRsqrt d a s
  | .exp2 d a => Sys2Proof.Machine.execExp2 d a s
  | .log2 d a => Sys2Proof.Machine.execLog2 d a s
  | .neg d a => Sys2Proof.Machine.execNeg d a s
  | .abs d a => Sys2Proof.Machine.execAbs d a s
  | .min d a b => Sys2Proof.Machine.execMin d a b s
  | .max d a b => Sys2Proof.Machine.execMax d a b s
  | .lt d a b => Sys2Proof.Machine.execLt d a b s
  | .le d a b => Sys2Proof.Machine.execLe d a b s
  | .eq d a b => Sys2Proof.Machine.execEq d a b s
  | .sel d a b c => Sys2Proof.Machine.execSel d a b c s
  | .cvtbf d a => Sys2Proof.Machine.execCvtbf d a s
  | .ld d a => Sys2Proof.Machine.execLd d a s
  | .ldc d n => Sys2Proof.Machine.execLdc d n s
  | .idx d => Sys2Proof.Machine.execIdx d s
  | .st a => Sys2Proof.Machine.execSt a s
  | .rsum d a => Sys2Proof.Machine.execRsum d a s
  | .rmax d a => Sys2Proof.Machine.execRmax d a s
  | .rmin d a => Sys2Proof.Machine.execRmin d a s
  | .stackReady n => Sys2Proof.Machine.execStackReady n s
  | .accordReadyTimeout d => Sys2Proof.Machine.execAccordReadyTimeout d s
  | .operationBoundary d => Sys2Proof.Machine.execOperationBoundary d s
  | .copyComplete key => Sys2Proof.Machine.execCopyComplete key s
  | .sliceEnd d => Sys2Proof.Machine.execSliceEnd d s
  | .stepOverrun c => Sys2Proof.Machine.execStepOverrun c s
  | .resultRelease c => Sys2Proof.Machine.execResultRelease c s
  | .holdTimerExpiry c => Sys2Proof.Machine.execHoldTimerExpiry c s
  | .deadlineExpiry c => Sys2Proof.Machine.execDeadlineExpiry c s
  | .ctxSqTail p full v => Sys2Proof.Machine.execCtxSqTail p full v s
  | .ctxCqHead p full v => Sys2Proof.Machine.execCtxCqHead p full v s
  | .ctxRqTail p full v => Sys2Proof.Machine.execCtxRqTail p full v s
  | .ctxOutAck p full v => Sys2Proof.Machine.execCtxOutAck p full v s
  | .contextEnable p v => Sys2Proof.Machine.execContextEnable p v s
  | .contextDisable p v => Sys2Proof.Machine.execContextDisable p v s
  | .ctxVfmap r v idx w => Sys2Proof.Machine.execCtxVfmap r v idx w s
  | .request c h b => Sys2Proof.Machine.execRequest c h b s
  | .cancel c h target => Sys2Proof.Machine.execCancel c h target s
  | .nop c h => Sys2Proof.Machine.execNop c h s
  | .formulaLoad c h a n => Sys2Proof.Machine.execFormulaLoad c h a n s
  | .coreReadDone c core => Sys2Proof.Machine.execCoreReadDone c core s
  | .weightChunk c h a n hd => Sys2Proof.Machine.execWeightChunk c h a n hd s
  | .chunkVerified c data => Sys2Proof.Machine.execChunkVerified c data s
  | .summaryExchangeDone hd sums => Sys2Proof.Machine.execSummaryExchangeDone hd sums s
  | .unload c h hd => Sys2Proof.Machine.execUnload c h hd s
  | .unloadReleaseDone hd => Sys2Proof.Machine.execUnloadReleaseDone hd s
  | .bind c h hd sv slot => Sys2Proof.Machine.execBind c h hd sv slot s
  | .unbind c h => Sys2Proof.Machine.execUnbind c h s
  | .pin c h b => Sys2Proof.Machine.execPin c h b s
  | .coalesceTimerExpiry c => Sys2Proof.Machine.execCoalesceTimerExpiry c s
  | .capacityWaitTimer c => Sys2Proof.Machine.execCapacityWaitTimer c s
  | .tilingsInstalled d => Sys2Proof.Machine.execTilingsInstalled d s
  | .capacityRemove r u => Sys2Proof.Machine.execCapacityRemove r u s
  | .capacityReturn r u => Sys2Proof.Machine.execCapacityReturn r u s
  | .drainComplete kind unit => Sys2Proof.Machine.execDrainComplete kind unit s
  | .placementQuery r idx => Sys2Proof.Machine.execPlacementQuery r idx s
  | .placementQueryDone => Sys2Proof.Machine.execPlacementQueryDone s
  | .segmentDispatch g b k => Sys2Proof.Machine.execSegmentDispatch g b k s
  | .segmentComplete g b ys => Sys2Proof.Machine.execSegmentComplete g b ys s
  | .selectionForm k => Sys2Proof.Machine.execSelectionForm k s
  | .calibrationDue b temp => Sys2Proof.Machine.execCalibrationDue b temp s
  | .calibrationFitDone g b gain offset temp map nominal mean16 sd16 jump => Sys2Proof.Machine.execCalibrationFitDone g b gain offset temp map nominal mean16 sd16 jump s
  | .calibrationInstall g b => Sys2Proof.Machine.execCalibrationInstall g b s
  | .calibrationRetry g b => Sys2Proof.Machine.execCalibrationRetry g b s
  | .frameReceive ch red f => Sys2Proof.Machine.execFrameReceive ch red f s
  | .frameAck ch rseq => Sys2Proof.Machine.execFrameAck ch rseq s
  | .frameNak ch rseq => Sys2Proof.Machine.execFrameNak ch rseq s
  | .frameCredit src dst red n => Sys2Proof.Machine.execFrameCredit src dst red n s
  | .pathRemap e => Sys2Proof.Machine.execPathRemap e s
  | .steerPendingWrite ep plane slot line dest d => Sys2Proof.Machine.execSteerPendingWrite ep plane slot line dest d s
  | .steerSlotRetune ep plane slot => Sys2Proof.Machine.execSteerSlotRetune ep plane slot s
  | .steerSlotReady ep plane slot pass => Sys2Proof.Machine.execSteerSlotReady ep plane slot pass s
  | .c3PacketArrival t p => Sys2Proof.Machine.execC3PacketArrival t p s
  | .mergeWindowExpiry t k => Sys2Proof.Machine.execMergeWindowExpiry t k s
  | .epC3PacketArrival n inward p => Sys2Proof.Machine.execEpC3PacketArrival n inward p s
  | .epMergeWindowExpiry n inward k => Sys2Proof.Machine.execEpMergeWindowExpiry n inward k s
  | .reductionAdd t p => Sys2Proof.Machine.execReductionAdd t p s
  | .laserGate f site => Sys2Proof.Machine.execLaserGate f site s
  | .laserUngate f site => Sys2Proof.Machine.execLaserUngate f site s
  | .laserFailure f site => Sys2Proof.Machine.execLaserFailure f site s
  | .laserFailoverDone f b => Sys2Proof.Machine.execLaserFailoverDone f b s
  | .diagnosticPulse f site ua pass => Sys2Proof.Machine.execDiagnosticPulse f site ua pass s
  | .ringUnlock r light => Sys2Proof.Machine.execRingUnlock r light s
  | .ringSweepDone r lock => Sys2Proof.Machine.execRingSweepDone r lock s
  | .baseTempPublish dies fields => Sys2Proof.Machine.execBaseTempPublish dies fields s
  | .laneReplace idx b lane errs => Sys2Proof.Machine.execLaneReplace idx b lane errs s
  | .bundleCrcReplay idx b => Sys2Proof.Machine.execBundleCrcReplay idx b s
  | .reservoirRefresh j bank => Sys2Proof.Machine.execReservoirRefresh j bank s
  | .refreshIntervalRelax j => Sys2Proof.Machine.execRefreshIntervalRelax j s
  | .reservoirScrub j off errs => Sys2Proof.Machine.execReservoirScrub j off errs s
  | .dramScrub p off err last => Sys2Proof.Machine.execDramScrub p off err last s
  | .channelRetrain p c finish rate => Sys2Proof.Machine.execChannelRetrain p c finish rate s
  | .dramTrainingDone p found => Sys2Proof.Machine.execDramTrainingDone p found s
  | .regionEntryChange n base limit attr => Sys2Proof.Machine.execRegionEntryChange n base limit attr s
  | .granuleZeroed g => Sys2Proof.Machine.execGranuleZeroed g s
  | .dmaGo n b v => Sys2Proof.Machine.execDmaGo n b v s
  | .dmaResume n b v => Sys2Proof.Machine.execDmaResume n b v s
  | .dmaAbort n r => Sys2Proof.Machine.execDmaAbort n r s
  | .dmaReadComplete n bs => Sys2Proof.Machine.execDmaReadComplete n bs s
  | .dmaLineCommit n k => Sys2Proof.Machine.execDmaLineCommit n k s
  | .accessFailure a uncorrectable => Sys2Proof.Machine.execAccessFailure a uncorrectable s
  | .retryGapExpiry a => Sys2Proof.Machine.execRetryGapExpiry a s
  | .hostCompletionTimeout a => Sys2Proof.Machine.execHostCompletionTimeout a s
  | .chkGo e r v => Sys2Proof.Machine.execChkGo e r v s
  | .chkStop e r n bs => Sys2Proof.Machine.execChkStop e r n bs s
  | .chkComplete e bs => Sys2Proof.Machine.execChkComplete e bs s
  | .linkLightDetected b j => Sys2Proof.Machine.execLinkLightDetected b j s
  | .linkUp b j bad far asym => Sys2Proof.Machine.execLinkUp b j bad far asym s
  | .linkTrainTimeout b j => Sys2Proof.Machine.execLinkTrainTimeout b j s
  | .codewordReceive b j fec word slots => Sys2Proof.Machine.execCodewordReceive b j fec word slots s
  | .linkDown b j => Sys2Proof.Machine.execLinkDown b j s
  | .fabLaneReplace b j lane errs ring => Sys2Proof.Machine.execFabLaneReplace b j lane errs ring s
  | .fabricRequestSend a => Sys2Proof.Machine.execFabricRequestSend a s
  | .readLine src detour tag ctx addr => Sys2Proof.Machine.execReadLine src detour tag ctx addr s
  | .writeLine src detour tag ctx claim addr mask data => Sys2Proof.Machine.execWriteLine src detour tag ctx claim addr mask data s
  | .atomicAdd src detour tag ctx claim addr operand => Sys2Proof.Machine.execAtomicAdd src detour tag ctx claim addr operand s
  | .atomicCas src detour tag ctx claim addr operand compare => Sys2Proof.Machine.execAtomicCas src detour tag ctx claim addr operand compare s
  | .atomicMin src detour tag ctx claim addr operand => Sys2Proof.Machine.execAtomicMin src detour tag ctx claim addr operand s
  | .atomicMax src detour tag ctx claim addr operand => Sys2Proof.Machine.execAtomicMax src detour tag ctx claim addr operand s
  | .atomicSwap src detour tag ctx claim addr operand => Sys2Proof.Machine.execAtomicSwap src detour tag ctx claim addr operand s
  | .completion src tag status result => Sys2Proof.Machine.execCompletion src tag status result s
  | .completionData src tag status line => Sys2Proof.Machine.execCompletionData src tag status line s
  | .keepalive d heard => Sys2Proof.Machine.execKeepalive d heard s
  | .keepaliveSend => Sys2Proof.Machine.execKeepaliveSend s
  | .peerKeepaliveTimeout d => Sys2Proof.Machine.execPeerKeepaliveTimeout d s
  | .requestPoisonTimeout d tag => Sys2Proof.Machine.execRequestPoisonTimeout d tag s
  | .timeReq src => Sys2Proof.Machine.execTimeReq src s
  | .timeExchangeTimer => Sys2Proof.Machine.execTimeExchangeTimer s
  | .timeResponse src t2 t3 => Sys2Proof.Machine.execTimeResponse src t2 t3 s
  | .gtSlew => Sys2Proof.Machine.execGtSlew s
  | .fabMsgSqTail full v => Sys2Proof.Machine.execFabMsgSqTail full v s
  | .fabMsgCqHead full v => Sys2Proof.Machine.execFabMsgCqHead full v s
  | .fabMsgRqTail full v => Sys2Proof.Machine.execFabMsgRqTail full v s
  | .messageSend ver bundle tag len addr body => Sys2Proof.Machine.execMessageSend ver bundle tag len addr body s
  | .messageReceive bundle tag body bufs => Sys2Proof.Machine.execMessageReceive bundle tag body bufs s
  | .msgRingsEnable vector => Sys2Proof.Machine.execMsgRingsEnable vector s
  | .msgRingsDisable vector => Sys2Proof.Machine.execMsgRingsDisable vector s
  | .commitRecord c tag lines rec_ image req frames => Sys2Proof.Machine.execCommitRecord c tag lines rec_ image req frames s
  | .mirrorAckTimeout c => Sys2Proof.Machine.execMirrorAckTimeout c s
  | .leaseRequest pair set dev tSend => Sys2Proof.Machine.execLeaseRequest pair set dev tSend s
  | .renew pair set dev => Sys2Proof.Machine.execRenew pair set dev s
  | .release pair set dev => Sys2Proof.Machine.execRelease pair set dev s
  | .markStale pair set dev => Sys2Proof.Machine.execMarkStale pair set dev s
  | .markValid pair set dev => Sys2Proof.Machine.execMarkValid pair set dev s
  | .grant set claim valid => Sys2Proof.Machine.execGrant set claim valid s
  | .refuse set valid => Sys2Proof.Machine.execRefuse set valid s
  | .leaseAck set => Sys2Proof.Machine.execLeaseAck set s
  | .leaseRenewTimer set => Sys2Proof.Machine.execLeaseRenewTimer set s
  | .leaseGuardStop set => Sys2Proof.Machine.execLeaseGuardStop set s
  | .leaseExpiry pair set => Sys2Proof.Machine.execLeaseExpiry pair set s
  | .authorityTakeover pair reports => Sys2Proof.Machine.execAuthorityTakeover pair reports s
  | .pairTake r set => Sys2Proof.Machine.execPairTake r set s
  | .resyncComplete set => Sys2Proof.Machine.execResyncComplete set s
  | .failback set taken => Sys2Proof.Machine.execFailback set taken s
  | .provisionCtx mgmt ctx dom cls weight maxOut maxTokens maxInst period stepUs boundUs => Sys2Proof.Machine.execProvisionCtx mgmt ctx dom cls weight maxOut maxTokens maxInst period stepUs boundUs s
  | .unprovisionCtx mgmt ctx => Sys2Proof.Machine.execUnprovisionCtx mgmt ctx s
  | .setDomain mgmt dom t1 t2 bw sil planes slots => Sys2Proof.Machine.execSetDomain mgmt dom t1 t2 bw sil planes slots s
  | .moveStack mgmt stack dest => Sys2Proof.Machine.execMoveStack mgmt stack dest s
  | .slotSet mgmt slot enable minSvn x y => Sys2Proof.Machine.execSlotSet mgmt slot enable minSvn x y s
  | .setPolicy mgmt strict => Sys2Proof.Machine.execSetPolicy mgmt strict s
  | .getVersion path => Sys2Proof.Machine.execGetVersion path s
  | .getCapabilities path => Sys2Proof.Machine.execGetCapabilities path s
  | .negotiateAlgorithms path => Sys2Proof.Machine.execNegotiateAlgorithms path s
  | .getDigests path => Sys2Proof.Machine.execGetDigests path s
  | .getCertificate path => Sys2Proof.Machine.execGetCertificate path s
  | .challenge path => Sys2Proof.Machine.execChallenge path s
  | .getMeasurements path => Sys2Proof.Machine.execGetMeasurements path s
  | .keyExchange path => Sys2Proof.Machine.execKeyExchange path s
  | .finish path ok => Sys2Proof.Machine.execFinish path ok s
  | .ideKm path stream install => Sys2Proof.Machine.execIdeKm path stream install s
  | .lockInterfaceRequest vf => Sys2Proof.Machine.execLockInterfaceRequest vf s
  | .tdiUnlock vf error => Sys2Proof.Machine.execTdiUnlock vf error s
  | .powerSample power vin iin est => Sys2Proof.Machine.execPowerSample power vin iin est s
  | .halfHoldTimeout => Sys2Proof.Machine.execHalfHoldTimeout s
  | .overcurrent => Sys2Proof.Machine.execOvercurrent s
  | .drydownEvaluation => Sys2Proof.Machine.execDrydownEvaluation s
  | .capWrite r v => Sys2Proof.Machine.execCapWrite r v s
  | .vinExcursion => Sys2Proof.Machine.execVinExcursion s
  | .pllLocked d => Sys2Proof.Machine.execPllLocked d s
  | .vcoreRampDone d => Sys2Proof.Machine.execVcoreRampDone d s
  | .replicaSample idx slacks => Sys2Proof.Machine.execReplicaSample idx slacks s
  | .marginRecovery d => Sys2Proof.Machine.execMarginRecovery d s
  | .thermalSample idx readings => Sys2Proof.Machine.execThermalSample idx readings s
  | .throttleStep idx => Sys2Proof.Machine.execThrottleStep idx s
  | .thermalCeilingRise d => Sys2Proof.Machine.execThermalCeilingRise d s
  | .powerDomainRampDone p => Sys2Proof.Machine.execPowerDomainRampDone p s
  | .refclkLost => Sys2Proof.Machine.execRefclkLost s
  | .holdoverExpiry => Sys2Proof.Machine.execHoldoverExpiry s
  | .refclkReturn => Sys2Proof.Machine.execRefclkReturn s
  | .diePllUnlock idx srOk => Sys2Proof.Machine.execDiePllUnlock idx srOk s
  | .coldRst straps rails => Sys2Proof.Machine.execColdRst straps rails s
  | .standbyPowerOn straps held => Sys2Proof.Machine.execStandbyPowerOn straps held s
  | .mainPowerLoss => Sys2Proof.Machine.execMainPowerLoss s
  | .tripCoolExpiry => Sys2Proof.Machine.execTripCoolExpiry s
  | .bootWatchdogExpiry => Sys2Proof.Machine.execBootWatchdogExpiry s
  | .perst => Sys2Proof.Machine.execPerst s
  | .warm => Sys2Proof.Machine.execWarm s
  | .vfFunctionLevelReset v => Sys2Proof.Machine.execVfFunctionLevelReset v s
  | .resetRelease => Sys2Proof.Machine.execResetRelease s
  | .kick r v => Sys2Proof.Machine.execKick r v s
  | .watchdogExpiry => Sys2Proof.Machine.execWatchdogExpiry s
  | .fatalError kind idx addr => Sys2Proof.Machine.execFatalError kind idx addr s
  | .dieLocalReset idx srOk => Sys2Proof.Machine.execDieLocalReset idx srOk s
  | .dieLocalResetDone n pass found bundles => Sys2Proof.Machine.execDieLocalResetDone n pass found bundles s
  | .suspendExpiry c => Sys2Proof.Machine.execSuspendExpiry c s
  | .imageReadDone readOk dirs img factoryOk => Sys2Proof.Machine.execImageReadDone readOk dirs img factoryOk s
  | .recoveryGo => Sys2Proof.Machine.execRecoveryGo s
  | .recoveryImageLoaded readOk img factoryOk => Sys2Proof.Machine.execRecoveryImageLoaded readOk img factoryOk s
  | .warmupDone => Sys2Proof.Machine.execWarmupDone s
  | .warmupTimeout => Sys2Proof.Machine.execWarmupTimeout s
  | .flaconSample v idx ok => Sys2Proof.Machine.execFlaconSample v idx ok s
  | .intervalClose => Sys2Proof.Machine.execIntervalClose s
  | .tick n acts => Sys2Proof.Machine.execTick n acts s
  | .record bs => Sys2Proof.Machine.execRecord bs s
  | .read r off => Sys2Proof.Machine.execRead r off s
  | .setTime t => Sys2Proof.Machine.execSetTime t s
  | .timeSet t => Sys2Proof.Machine.execTimeSet t s
  | .journalSnapshot => Sys2Proof.Machine.execJournalSnapshot s
  | .powerFail mid => Sys2Proof.Machine.execPowerFail mid s
  | .powerUp elapsed sealHigh => Sys2Proof.Machine.execPowerUp elapsed sealHigh s
  | .sealOpen => Sys2Proof.Machine.execSealOpen s
  | .param idx v => Sys2Proof.Machine.execParam idx v s
  | .sealClose => Sys2Proof.Machine.execSealClose s
  | .heartbeat idx => Sys2Proof.Machine.execHeartbeat idx s
  | .heartbeatTimeout idx => Sys2Proof.Machine.execHeartbeatTimeout idx s
  | .tileSilent t => Sys2Proof.Machine.execTileSilent t s
  | .admissionStallTimeout => Sys2Proof.Machine.execAdmissionStallTimeout s
  | .hubFltAck r v => Sys2Proof.Machine.execHubFltAck r v s
  | .injectLaneErrors r => Sys2Proof.Machine.execInjectLaneErrors r s
  | .injectChannelLoss r => Sys2Proof.Machine.execInjectChannelLoss r s
  | .injectRingUnlock r => Sys2Proof.Machine.execInjectRingUnlock r s
  | .injectLaserOff r => Sys2Proof.Machine.execInjectLaserOff r s
  | .injectSramDoubleBit r => Sys2Proof.Machine.execInjectSramDoubleBit r s
  | .injectTileLost r => Sys2Proof.Machine.execInjectTileLost r s
  | .injectDieLost r restore => Sys2Proof.Machine.execInjectDieLost r restore s
  | .injectReservoirDoubleBit r => Sys2Proof.Machine.execInjectReservoirDoubleBit r s
  | .injectT2Uncorrectable r => Sys2Proof.Machine.execInjectT2Uncorrectable r s
  | .injectLinkDown r => Sys2Proof.Machine.execInjectLinkDown r s
  | .injectReductionFault r => Sys2Proof.Machine.execInjectReductionFault r s
  | .injectionRestore pass => Sys2Proof.Machine.execInjectionRestore pass s
  | .arithClr r c => Sys2Proof.Machine.execArithClr r c s
  | .freeze r w => Sys2Proof.Machine.execFreeze r w s
  | .telClr r w => Sys2Proof.Machine.execTelClr r w s
  | .loRegisterRead r off => Sys2Proof.Machine.execLoRegisterRead r off s
  | .lockWrite r off v => Sys2Proof.Machine.execLockWrite r off v s
  | .registerWrite r t f => Sys2Proof.Machine.execRegisterWrite r t f s
  | .extest pins inn => Sys2Proof.Machine.execExtest pins inn s
  | .idcode => Sys2Proof.Machine.execIdcode s
  | .samplePreload pins inn => Sys2Proof.Machine.execSamplePreload pins inn s
  | .highz => Sys2Proof.Machine.execHighz s
  | .clamp => Sys2Proof.Machine.execClamp s
  | .extestPulse pins inn => Sys2Proof.Machine.execExtestPulse pins inn s
  | .extestTrain pins inn => Sys2Proof.Machine.execExtestTrain pins inn s
  | .bypass => Sys2Proof.Machine.execBypass s
  | .tapReset => Sys2Proof.Machine.execTapReset s
  | .channelLossOfSignal ch => Sys2Proof.Machine.execChannelLossOfSignal ch s
  | .regulatorFault p => Sys2Proof.Machine.execRegulatorFault p s
  | .sillageBankFault g b => Sys2Proof.Machine.execSillageBankFault g b s
  | .messageSentConfirm bundle written => Sys2Proof.Machine.execMessageSentConfirm bundle written s
  | .vbatBrownOut => Sys2Proof.Machine.execVbatBrownOut s
  | .faultLogCoalesceExpiry => Sys2Proof.Machine.execFaultLogCoalesceExpiry s
  | .hostReadCompletion c w bs => Sys2Proof.Machine.execHostReadCompletion c w bs s
  | .tdiStart vf => Sys2Proof.Machine.execTdiStart vf s

end Sys2Proof.Machine
end

