-- ==== Sys2Proof/Machine/Timers.lean ====
section
/-!
DEFINITION. What the device does of its own accord where no command waits (01_architecture.md R26 to R31): ends of operations that waited for
a fault follow it, the timers whose tick has come run out, those that serve a higher guarantee first; then GT ticks and the meshes move.
-/
namespace Sys2Proof.Machine

/-- Whether a timer that may run expires by now. -/
def duePast (s : State) (t : Option Nat) : Bool := match t with | some t => decide (t ≤ s.gt) | none => false

/-- The numbers below `n` that satisfy a test, as operands of `w` bits. -/
def operands (w n : Nat) (p : Nat → Bool) : List (BitVec w) := ((List.range n).filter p).map (BitVec.ofNat w)

/-- The contexts that satisfy a test, as operands. -/
def ctxOperands (s : State) (p : Ctx → Bool) : List (BitVec 12) := (s.ctxs.filter fun e => p e.2).map fun e => BitVec.ofNat 12 e.1

/-- The state a meaning leaves; a stop would leave it as it was. -/
def after (f : State → Out) (s : State) : State :=
  match f s with
  | .next t => t
  | _ => s

/-- Timers of one kind run out, one for each operand. -/
def runOut {α : Type} (xs : List α) (f : α → State → Out) (s : State) : State := xs.foldl (fun t x => after (f x) t) s

/-- A timer without operand runs out where its tick has come. -/
def runIf (due : Bool) (f : State → Out) (s : State) : State := if due then after f s else s

/-- Timers that find a part of the device, of the tray or of the host silent: integrity (01 R31 rank 1). -/
def silenceTimers (s : State) : State :=
  let s1 := runOut (operands 5 29 fun n => n ≠ 20 && dieUp s n && decide ((dieOf s n).beat + 4000 ≤ s.gt)) execHeartbeatTimeout s
  let s2 := runOut (operands 3 8 fun d => (domOf s d).phase = .readying && duePast s (domOf s d).readyBy) execAccordReadyTimeout s1
  let s3 := runOut (s.fab.reqs.filter fun r => decide (r.due ≤ s.gt)) (fun r => execRequestPoisonTimeout (BitVec.ofNat 3 r.dev) r.args.tag) s2
  let s4 := runOut (operands 3 8 fun d => executes s d && decide ((domOf s d).start + 2000000 ≤ s.gt)) execCollectiveTimeout s3
  let s5 := runOut (operands 3 8 fun d => match (peerOf s d).seen with | some t => decide (t + 4000 ≤ s.gt) && (peerOf s d).st = .direct | none => false)
    execPeerKeepaliveTimeout s4
  let s6 := runOut (s.fab.links.filter fun e => e.2.st = .training && decide (e.2.trainBy ≤ s.gt))
    (fun e => execLinkTrainTimeout (BitVec.ofNat 4 (e.1 / 8)) (BitVec.ofNat 3 e.1)) s5
  let s7 := runOut (operands 6 64 fun n => dmaReadDue s (.dmaRead (BitVec.ofNat 6 n))) (fun n => execHostCompletionTimeout (.dmaRead n)) s6
  let s8 := runOut (s.dma.waits.filter fun w => decide (w.due ≤ s.gt) && (match w.access with | .data _ => false | _ => true)) (fun w => execHostCompletionTimeout w.access) s7
  runOut (s.dma.retries.filter fun r => duePast s r.due) (fun r => execRetryGapExpiry r.access) s8

/-- Timers of power, clocks and resets (14 R448 to R464; 15 R484 to R500): integrity (01 R31 rank 1). -/
def powerTimers (s : State) : State :=
  let s1 := match s.pwr.ramps with | p :: _ => runIf (s.pwr.rampBy ≤ s.gt) (execPowerDomainRampDone (BitVec.ofNat 6 p)) s | [] => s
  let s2 := runIf (decide (s.pwr.hold = 1) && decide (s.pwr.holdSince + 20000 ≤ s.gt)) execHalfHoldTimeout s1
  let s3 := runIf (duePast s (s.pwr.holdover.map (· + 10000000))) execHoldoverExpiry s2
  let s4 := runIf (s.gt % 100000 = 0 && s.pwr.samples ≠ []) execDrydownEvaluation s3
  let s5 := runOut (operands 3 8 fun d => decide ((clkOf s d).warnedAt + 100000000 ≤ s.gt)) execMarginRecovery s4
  let s6 := runOut (operands 5 16 fun i => duePast s ((thermOf s i).hotSince.map (· + 5000000))) execThrottleStep s5
  let s7 := runOut (operands 3 8 fun d => decide ((clkOf s d).coolAt + 5000000 ≤ s.gt)) execThermalCeilingRise s6
  let s8 := runOut (operands 3 8 fun j => duePast s ((rsvOf s j).calm.map (· + 5000000))) execRefreshIntervalRelax s7
  let s9 := runIf (duePast s s.rst.coolBy) execTripCoolExpiry s8
  let s10 := runIf (duePast s s.rst.bootBy) execBootWatchdogExpiry s9
  runIf (duePast s s.rst.warmBy) execWarmupTimeout (runIf (duePast s s.rst.wdtBy) execWatchdogExpiry s10)

/-- Timers of the metrology record (01 R31 rank 2) and of mirrored pairs (rank 3). -/
def recordTimers (s : State) : State :=
  let s1 := runIf (duePast s (s.flc.stall.map (· + 1000000000))) execAdmissionStallTimeout s
  let s2 := runOut (s.pair.unacked.filter fun u => decide (u.2 ≤ s.gt)) (fun u => execMirrorAckTimeout (BitVec.ofNat 12 u.1)) s1
  let s3 := runOut (operands 1 2 fun i => decide ((pairSet s i).expiry ≤ s.gt + guardTicks s)) execLeaseGuardStop s2
  let s4 := runOut (operands 1 2 fun i => (pairSet s i).asked.isNone) execLeaseRenewTimer s3
  runOut (s.pair.auth.filter fun e => decide (e.2.expiry ≤ s.gt)) (fun e => execLeaseExpiry (BitVec.ofNat 2 (e.1 / 2)) (BitVec.ofNat 1 e.1)) s4

/-- Timers of latency bounds and shares (01 R31 ranks 4 and 5): slices and overruns. -/
def shareTimers (s : State) : State :=
  let s1 := runOut (operands 3 8 fun d => duePast s (domOf s d).sliceEnd) execSliceEnd (startOddSteps s)
  runOut (ctxOperands s fun k => match k.prov with | some p => decide (p.cls = 2) | none => false) execStepOverrun s1

/-- Timers of contexts (05 R161; 09 R313, R323, R326; 15 R481) and of the fault log (17 R545). -/
def ctxTimers (s : State) : State :=
  let s1 := runOut (ctxOperands s fun k => duePast s k.holdTimer) execHoldTimerExpiry s
  let s2 := runOut (ctxOperands s fun k => k.queue.any fun a => duePast s a.deadline) execDeadlineExpiry s1
  let s3 := runOut (ctxOperands s fun k => duePast s k.coalesce) execCoalesceTimerExpiry s2
  let s4 := runOut (ctxOperands s fun k => duePast s (k.space.map Wait.next)) execCapacityWaitTimer s3
  runIf (duePast s s.flt.coalesce) execFaultLogCoalesceExpiry (runOut (ctxOperands s fun k => duePast s k.suspended) execSuspendExpiry s4)

/-- Timers of reductions (03 R81; 07 R233), of the Sillage's calibrations (06 R200, R203) of idle
lasers (07 R235) and of the switch (11 R376, R384, R385). -/
def unitTimers (s : State) : State :=
  let s1 := runOut (s.arr.accs.filter fun a => decide (a.closes ≤ s.gt)) (fun a => match a.place with
    | .egress n => execEpMergeWindowExpiry (BitVec.ofNat 3 n) false a.packet.key
    | .ingress n => execEpMergeWindowExpiry (BitVec.ofNat 3 n) true a.packet.key
    | .router t | .adder t => execMergeWindowExpiry (BitVec.ofNat 11 t) a.packet.key) s
  let s2 := runOut (s.sil.banks.filter fun e => duePast s e.2.retryAt) (fun e => execCalibrationRetry (BitVec.ofNat 3 (e.1 / 16)) (BitVec.ofNat 4 e.1)) s1
  let s3 := runOut (s.sil.banks.filter fun e => e.2.st = .inService)
    (fun e => execCalibrationDue ⟨BitVec.ofNat 3 (e.1 / 16), BitVec.ofNat 4 e.1⟩ none) s2
  let s4 := runOut ((List.range 96).filter fun k => (laserOf s k).st = .operating && decide ((laserOf s k).frameAt + 100000 ≤ s.gt))
    (fun k => execLaserGate (BitVec.ofNat 4 (k / 8)) (BitVec.ofNat 3 k)) s3
  if !dieUp s 20 then s4
  else runIf true execGtSlew (runIf (s.fab.time.nextAt ≤ s.gt) execTimeExchangeTimer (runIf (s.gt % 1000 = 0) execKeepaliveSend s4))

/-- The timers whose tick has come run out, by the rank of what they serve (01 R30, R31).
DESIGN CHOICE: notes/assumptions/1. -/
def runTimers (s : State) : State := unitTimers (ctxTimers (shareTimers (recordTimers (powerTimers (silenceTimers s)))))

/-- The ends of operations that waited for a fault of the same tick come (01 R30). -/
def payOwed (s : State) : State :=
  (operands 3 8 fun d => (domOf s d).owed).foldl (fun t d => boundary (modDom t d.toNat fun x => { x with owed := false }) d.toNat) s

/-- What the device does where no command waits: descriptors of the management queue move (04 R112) and take DMA channels (10 R332), provisioning commands run (13 R421), ends of operations that waited for
faults come, the timers of this tick run out, Sillage groups follow the Drydown stage (14 R457, R465) and photonic domains what needs them (14 R447), GT ticks and the meshes move (03 R73).
DESIGN CHOICE: notes/assumptions/1, 78. -/
def idle (s : State) : State := meshTick (launchAll (tickGt (armReads (noteLimits (trimWaiting (askSilent (poisonLost (endDmaTick (followFields (followGroups (runTimers (runCmds (payOwed (loadChannels (runMgmt 8192 s)))))))))))))))

end Sys2Proof.Machine
end

