-- ==== Sys2Proof/Machine/Step.lean ====
section
/-!
DEFINITION. One step: the command at the front of the queue, or, where none waits, what the device does of its own accord.
-/
namespace Sys2Proof.Machine

/-- One step: the first waiting command runs with the rest of the queue; with none, timers run out or GT ticks.
DESIGN CHOICE: notes/assumptions/1. -/
def step (s : State) : Host.Outcome State Fault Refusal :=
  match s.pending with
  | [] => .next (idle s)
  | c :: rest => exec c { s with pending := rest }

/-- A state with the command a word spells in front of its queue; unchanged where the word spells none.
DESIGN CHOICE: notes/assumptions/73. -/
def State.withFetchWord (s : State) (nbits w : Nat) : State :=
  match decodeTableWord nbits w with
  | some c => { s with pending := c :: s.pending }
  | none => s

end Sys2Proof.Machine
end

