-- ==== Sys2Proof/Safety.lean ====
section
/-!
DEFINITION. What claims mean by a safe run: the tables the device keeps stay in their canonical form, and no step stops.
-/
namespace Sys2Proof
open Sys2Proof.Machine

/-- A byte memory is in its canonical form: addresses strictly rising, no listed byte equal to what an unlisted one reads as. -/
abbrev Memory.wf (m : List (Nat × Byte)) : Prop := tabWf m 0#8 = true

/-- The memories of a state are in canonical form: host memory as the device knows it, and local memory. -/
def MemOk (s : State) : Prop := Memory.wf s.hostMem ∧ Memory.wf s.mem.cells

/-- The logs hold no more than the spec gives them room for: the last 128 refused writes, of which
64 are shown (18_register_map.md R558), 65,536 fault records (17_faults.md R543) and 32 retained ones (17 R544). -/
def LogsOk (s : State) : Prop := s.rf.wlog.length ≤ 128 ∧ s.flt.recs.length ≤ 65536 ∧ s.flt.retained.length ≤ 32

/-- The microkernel machine has its 64 registers (04_formulas_operations.md R136). -/
def KernOk (s : State) : Prop := s.arr.kern.regs.length = 64

/-- What every step keeps: memories in canonical form, logs within their room, the microkernel machine's 64 registers. -/
def Inv (s : State) : Prop := MemOk s ∧ LogsOk s ∧ KernOk s

/-- `t` has the queue of `s`, and the invariant of `s`. -/
def Kept (s t : State) : Prop := t.pending = s.pending ∧ (Inv s → Inv t)

/-- A step runs: it answers a next state. -/
def Runs (s : State) : Prop := ∃ t, step s = .next t

/-- Every register outside the listed offsets reads as before. -/
def OtherRegs (offs : List Nat) (s t : State) : Prop := ∀ o, o ∉ offs → regVal t o = regVal s o

/-- Every context but one is as before. -/
def OtherCtxs (c : Nat) (s t : State) : Prop := ∀ e, e ≠ c → ctxOf t e = ctxOf s e

/-- Every domain but one is as before. -/
def OtherDoms (d : Nat) (s t : State) : Prop := ∀ e, e ≠ d → domOf t e = domOf s e

/-- Every stack but one is as before. -/
def OtherStacks (n : Nat) (s t : State) : Prop := ∀ m, m ≠ n → stackOf t m = stackOf s m

/-- Every die but one is as before. -/
def OtherDies (i : Nat) (s t : State) : Prop := ∀ j, j ≠ i → dieOf t j = dieOf s j

/-- A command runs: `exec` answers a next state, of which `P` holds. -/
def Does (c : Instr) (s : State) (P : State → Prop) : Prop := ∃ t, exec c s = .next t ∧ P t

end Sys2Proof
end

