-- ==== Sys2Proof/WellFormed.lean ====
section
/-!
DEFINITION. Well-formed commands: those whose operands name what the device has. A command that is not well formed has a
meaning too: its unit does not exist, and it changes nothing.
-/
namespace Sys2Proof
open Sys2Proof.Machine

/-- A logical endpoint that is not a spare (07_skeltil_base.md R217). -/
def endpointOk (e : Nat) : Bool := decide (e < 30)
/-- A base field (07 R217). -/
def fieldOk (f : Nat) : Bool := decide (f < 12)
/-- A bus of a field (07 R235). -/
def busOk (b : Nat) : Bool := decide (b < 6)
/-- A tray bundle (11_tray_fabric.md R361). -/
def bundleOk (b : Nat) : Bool := decide (b < 12)
/-- A tile ID of a column that exists (03_harrel_stacks.md R66). -/
def tileOk (t : Nat) : Bool := decide (tileX t < 12)
/-- A die with lanes and one of its bundles (07 R242, R248). -/
def laneOk (i b : Nat) : Bool := decide (b < bundleCount i)
/-- A memory line (11 R370). -/
def lineOk (bs : List Byte) : Bool := decide (bs.length = 128)
/-- A die that has thermal sensors (14_power_clocks_thermal.md R461). -/
def thermalDieOk (i : Nat) : Bool := decide (i < 29)
/-- A power domain (14 R447). -/
def powerDomainOk (p : Nat) : Bool := decide (p < 49)
/-- A die that gives heartbeats and has a reset of its own (17_faults.md R535, R542). -/
def dieOk (i : Nat) : Bool := decide (i < 29) && decide (i ≠ 20)
/-- A virtual function (09_host_rings.md R292). -/
def vfOk (v : Nat) : Bool := decide (0 < v)

/-- Whether a command's operands name what the device has. -/
def Instr.wellFormed (i : Instr) : Bool :=
  match i with
  | .ctxVfmap _ v _ _ => vfOk v.toNat
  | .frameCredit src dst _ _ => endpointOk src.toNat && endpointOk dst.toNat
  | .pathRemap e => endpointOk e.toNat
  | .steerPendingWrite ep _ _ _ dest _ => endpointOk ep.toNat && endpointOk dest.toNat
  | .steerSlotRetune ep _ _ => endpointOk ep.toNat
  | .steerSlotReady ep _ _ _ => endpointOk ep.toNat
  | .c3PacketArrival t _ => tileOk t.toNat
  | .mergeWindowExpiry t _ => tileOk t.toNat
  | .reductionAdd t _ => tileOk t.toNat
  | .laserGate f _ => fieldOk f.toNat
  | .laserUngate f _ => fieldOk f.toNat
  | .laserFailure f _ => fieldOk f.toNat
  | .laserFailoverDone f b => fieldOk f.toNat && busOk b.toNat
  | .diagnosticPulse f _ _ _ => fieldOk f.toNat
  | .laneReplace i b _ _ => laneOk i.toNat b.toNat
  | .bundleCrcReplay i b => laneOk i.toNat b.toNat
  | .reservoirRefresh _ bank => decide (bank.toNat < 72)
  | .linkLightDetected b _ => bundleOk b.toNat
  | .linkUp b _ _ _ _ => bundleOk b.toNat
  | .linkTrainTimeout b _ => bundleOk b.toNat
  | .codewordReceive b _ _ _ _ => bundleOk b.toNat
  | .linkDown b _ => bundleOk b.toNat
  | .fabLaneReplace b _ _ _ _ => bundleOk b.toNat
  | .writeLine _ _ _ _ _ _ _ data => lineOk data
  | .completionData _ _ _ line => lineOk line
  | .messageReceive b _ _ _ => bundleOk b.toNat
  | .lockInterfaceRequest vf => vfOk vf.toNat
  | .tdiUnlock vf _ => vfOk vf.toNat
  | .replicaSample _ slacks => decide (slacks.length = 32)
  | .thermalSample i _ => thermalDieOk i.toNat
  | .throttleStep i => thermalDieOk i.toNat
  | .powerDomainRampDone p => powerDomainOk p.toNat
  | .diePllUnlock i _ => decide (i.toNat < 48)
  | .vfFunctionLevelReset v => vfOk v.toNat
  | .dieLocalReset i _ => dieOk i.toNat
  | .dieLocalResetDone i _ _ _ => dieOk i.toNat
  | .heartbeat i => dieOk i.toNat
  | .heartbeatTimeout i => dieOk i.toNat
  | .tileSilent t => tileOk t.tile.toNat
  | .loRegisterRead _ off => Machine.isLo off.toNat
  | .lockWrite _ off _ => Machine.isLock off.toNat
  | .regulatorFault p => powerDomainOk p.toNat
  | .messageSentConfirm b _ => bundleOk b.toNat
  | .tdiStart vf => vfOk vf.toNat
  | .matmul _ _ | .expertMatmul _ _ | .routerTopk _ | .gather _ | .attnExact _ | .attnSillage _
  | .kvAppend _ | .norm _ | .softmax _ | .activation _ | .elementwise _ | .rotary _
  | .sample _ | .convert _ | .vectorKernel _ | .trayAllreduce _ _ | .trayAllgather _ _ | .trayAlltoall _ _
  | .trayBroadcast _ _ | .collectiveTimeout _ | .reissueAttempt _ | .add _ _ _ | .sub _ _ _ | .mul _ _ _
  | .fma _ _ _ _ | .div _ _ _ | .sqrt _ _ | .rcp _ _ | .rsqrt _ _ | .exp2 _ _
  | .log2 _ _ | .neg _ _ | .abs _ _ | .min _ _ _ | .max _ _ _ | .lt _ _ _
  | .le _ _ _ | .eq _ _ _ | .sel _ _ _ _ | .cvtbf _ _ | .ld _ _ | .ldc _ _
  | .idx _ | .st _ | .rsum _ _ | .rmax _ _ | .rmin _ _ | .stackReady _
  | .accordReadyTimeout _ | .operationBoundary _ | .copyComplete _ | .sliceEnd _ | .stepOverrun _ | .resultRelease _
  | .holdTimerExpiry _ | .deadlineExpiry _ | .ctxSqTail _ _ _ | .ctxCqHead _ _ _ | .ctxRqTail _ _ _ | .ctxOutAck _ _ _
  | .contextEnable _ _ | .contextDisable _ _ | .request _ _ _ | .cancel _ _ _ | .nop _ _ | .formulaLoad _ _ _ _
  | .coreReadDone _ _ | .weightChunk _ _ _ _ _ | .chunkVerified _ _ | .summaryExchangeDone _ _ | .unload _ _ _ | .unloadReleaseDone _
  | .bind _ _ _ _ _ | .unbind _ _ | .pin _ _ _ | .coalesceTimerExpiry _ | .capacityWaitTimer _ | .tilingsInstalled _
  | .capacityRemove _ _ | .capacityReturn _ _ | .drainComplete _ _ | .placementQuery _ _ | .placementQueryDone | .segmentDispatch _ _ _
  | .segmentComplete _ _ _ | .selectionForm _ | .calibrationDue _ _ | .calibrationFitDone _ _ _ _ _ _ _ _ _ _ | .calibrationInstall _ _ | .calibrationRetry _ _
  | .frameReceive _ _ _ | .frameAck _ _ | .frameNak _ _ | .epC3PacketArrival _ _ _ | .epMergeWindowExpiry _ _ _ | .ringUnlock _ _
  | .ringSweepDone _ _ | .baseTempPublish _ _ | .refreshIntervalRelax _ | .reservoirScrub _ _ _ | .dramScrub _ _ _ _ | .channelRetrain _ _ _ _
  | .dramTrainingDone _ _ | .regionEntryChange _ _ _ _ | .granuleZeroed _ | .dmaGo _ _ _ | .dmaResume _ _ _ | .dmaAbort _ _
  | .dmaReadComplete _ _ | .dmaLineCommit _ _ | .accessFailure _ _ | .retryGapExpiry _ | .hostCompletionTimeout _ | .chkGo _ _ _
  | .chkStop _ _ _ _ | .chkComplete _ _ | .fabricRequestSend _ | .readLine _ _ _ _ _ | .atomicAdd _ _ _ _ _ _ _ | .atomicCas _ _ _ _ _ _ _ _
  | .atomicMin _ _ _ _ _ _ _ | .atomicMax _ _ _ _ _ _ _ | .atomicSwap _ _ _ _ _ _ _ | .completion _ _ _ _ | .keepalive _ _ | .keepaliveSend
  | .peerKeepaliveTimeout _ | .requestPoisonTimeout _ _ | .timeReq _ | .timeExchangeTimer | .timeResponse _ _ _ | .gtSlew
  | .fabMsgSqTail _ _ | .fabMsgCqHead _ _ | .fabMsgRqTail _ _ | .messageSend _ _ _ _ _ _ | .msgRingsEnable _ | .msgRingsDisable _
  | .commitRecord _ _ _ _ _ _ _ | .mirrorAckTimeout _ | .leaseRequest _ _ _ _ | .renew _ _ _ | .release _ _ _ | .markStale _ _ _
  | .markValid _ _ _ | .grant _ _ _ | .refuse _ _ | .leaseAck _ | .leaseRenewTimer _ | .leaseGuardStop _
  | .leaseExpiry _ _ | .authorityTakeover _ _ | .pairTake _ _ | .resyncComplete _ | .failback _ _ | .provisionCtx _ _ _ _ _ _ _ _ _ _ _
  | .unprovisionCtx _ _ | .setDomain _ _ _ _ _ _ _ _ | .moveStack _ _ _ | .slotSet _ _ _ _ _ _ | .setPolicy _ _ | .getVersion _
  | .getCapabilities _ | .negotiateAlgorithms _ | .getDigests _ | .getCertificate _ | .challenge _ | .getMeasurements _
  | .keyExchange _ | .finish _ _ | .ideKm _ _ _ | .powerSample _ _ _ _ | .halfHoldTimeout | .overcurrent
  | .drydownEvaluation | .capWrite _ _ | .vinExcursion | .pllLocked _ | .vcoreRampDone _ | .marginRecovery _
  | .thermalCeilingRise _ | .refclkLost | .holdoverExpiry | .refclkReturn | .coldRst _ _ | .standbyPowerOn _ _
  | .mainPowerLoss | .tripCoolExpiry | .bootWatchdogExpiry | .perst | .warm | .resetRelease
  | .kick _ _ | .watchdogExpiry | .fatalError _ _ _ | .suspendExpiry _ | .imageReadDone _ _ _ _ | .recoveryGo
  | .recoveryImageLoaded _ _ _ | .warmupDone | .warmupTimeout | .flaconSample _ _ _ | .intervalClose | .tick _ _
  | .record _ | .read _ _ | .setTime _ | .timeSet _ | .journalSnapshot | .powerFail _
  | .powerUp _ _ | .sealOpen | .param _ _ | .sealClose | .admissionStallTimeout | .hubFltAck _ _
  | .injectLaneErrors _ | .injectChannelLoss _ | .injectRingUnlock _ | .injectLaserOff _ | .injectSramDoubleBit _ | .injectTileLost _
  | .injectDieLost _ _ | .injectReservoirDoubleBit _ | .injectT2Uncorrectable _ | .injectLinkDown _ | .injectReductionFault _ | .injectionRestore _
  | .arithClr _ _ | .freeze _ _ | .telClr _ _ | .registerWrite _ _ _ | .extest _ _ | .idcode
  | .samplePreload _ _ | .highz | .clamp | .extestPulse _ _ | .extestTrain _ _ | .bypass
  | .tapReset | .channelLossOfSignal _ | .sillageBankFault _ _ | .vbatBrownOut | .faultLogCoalesceExpiry | .hostReadCompletion _ _ _ => true

end Sys2Proof
end

