-- ==== Sys2Proof/Certificates/Slice0/Obligations.lean ====
section
/-!
DEFINITION. The statements for the provers, from the numbered rules of the spec.
-/
set_option Elab.async false
set_option linter.all false
open Sys2Proof Sys2Proof.Machine

namespace Sys2Proof

/-- Every register but RST_CAUSE (0x300000) reads its reset value after reset. -/
def OtherRegsReset : Prop := ∀ o, o ≠ 0x300000 → regVal State.reset o = regReset o

end Sys2Proof

/-- A step is `exec` of the command at the front of the queue, on the state with the rest of the queue (the model's own form,
notes/assumptions/1). -/
def Obligations.StepRunsFront : Prop :=
  ∀ (c : Instr) (rest : List Instr) (s : State), step { s with pending := c :: rest } = exec c { s with pending := rest }

/-- A timer that expires in tick `lim` has run out (01_architecture.md R28, R29): its tick has passed, or is this one and no arrival waits in
it. -/
def Sys2Proof.RunOut (s : State) (lim : Nat) : Prop := lim < s.gt ∨ (lim = s.gt ∧ quiet s = true)

/-- On an empty queue a step is one tick (the model's choice, notes/assumptions/1): what waited for the tick's end is done in the order
listed, GT advances, unless it is held for alignment, when the hold gets shorter; then batches of adds are sent and the meshes move. From
the state of reset, at any tick and with any host memory, nothing else happens. -/
def Obligations.StepIdleTicks : Prop :=
  (∀ s : State, s.pending = [] → ∃ u v, step s = .next (meshTick (launchAll v)) ∧
    u = armReads (noteLimits (trimWaiting (askSilent (poisonLost (endDmaTick (followFields (followGroups (runTimers (runCmds (payOwed
      (loadChannels (runMgmt 8192 s)))))))))))) ∧
    (u.fab.time.hold = 0 → v = { u with gt := u.gt + 1 }) ∧
    (∀ n, u.fab.time.hold = n + 1 → v = { u with fab := { u.fab with time := { u.fab.time with hold := n } } })) ∧
  (∀ g h, step { State.reset with gt := g, hostMem := h } = .next { State.reset with gt := g + 1, hostMem := h })

/-- What reset leaves: an empty queue, registers at their reset values with RST_CAUSE.VSTBY, contexts off, no die in service,
empty logs and memory. That reset is a standby power-on is the model's choice (notes/assumptions/2). -/
def Obligations.ResetState : Prop :=
  State.reset.pending = [] ∧ Inv State.reset ∧ regVal State.reset 0x300000 = 1#32 ∧ OtherRegsReset ∧
  (∀ c, ctxOf State.reset c = Ctx.off) ∧ (∀ i, dieUp State.reset i = false) ∧ (∀ d, (domOf State.reset d).phase = .idle) ∧
  State.reset.flt.recs = [] ∧ State.reset.rf.wlog = [] ∧ State.reset.mem.cells = [] ∧ bootReady State.reset = false

/-- Every step keeps the invariant, from every state that meets it and for every command. -/
def Obligations.StepKeepsInvariant : Prop := ∀ s t : State, Inv s → step s = .next t → Inv t

/-- Every command, with every operand, in every state, answers a next state, and leaves the queue. -/
def Obligations.EveryCommandCompletes : Prop := ∀ (c : Instr) (s : State), Does c s fun t => t.pending = s.pending

namespace Sys2Proof

/-- A microkernel instruction (04 R136, R137) whose destination register `d` takes the row `v` makes of the machine: every other
register, the input streams, the constants and the output are as before, and so is the rest of the state. -/
def KernTakes (c : Instr) (d : BitVec 6) (v : Kern → List Word) : Prop :=
  ∀ s, KernOk s → Does c s fun t =>
    kernReg t.arr.kern d.toNat = v s.arr.kern ∧ (∀ r, r ≠ d.toNat → kernReg t.arr.kern r = kernReg s.arr.kern r) ∧
    t.arr.kern = { s.arr.kern with regs := t.arr.kern.regs } ∧ t = { s with arr := { s.arr with kern := t.arr.kern } }

/-- The row of a two-source instruction: element by element. -/
def row2 (f : Word → Word → Word) (a b : BitVec 6) (k : Kern) : List Word := List.zipWith f (kernReg k a.toNat) (kernReg k b.toNat)

/-- The row of a one-source instruction. -/
def row1 (f : Word → Word) (a : BitVec 6) (k : Kern) : List Word := (kernReg k a.toNat).map f

/-- The row of a three-source instruction. -/
def row3 (f : Word → Word → Word → Word) (a b c : BitVec 6) (k : Kern) : List Word :=
  List.zipWith (fun g z => g z) (List.zipWith f (kernReg k a.toNat) (kernReg k b.toNat)) (kernReg k c.toNat)

end Sys2Proof

/-- The arithmetic instructions of the microkernel machine (04_formulas_operations.md R137): what D takes, and the frame. -/
def Obligations.MicrokernelArithmetic : Prop :=
  ∀ d a b c : BitVec 6,
    KernTakes (.add d a b) d (row2 fAdd a b) ∧ KernTakes (.sub d a b) d (row2 fSub a b) ∧
    KernTakes (.mul d a b) d (row2 fMul a b) ∧ KernTakes (.div d a b) d (row2 fDiv a b) ∧
    KernTakes (.fma d a b c) d (row3 fFma a b c) ∧
    KernTakes (.sqrt d a) d (row1 fSqrt a) ∧ KernTakes (.rcp d a) d (row1 fRcp a) ∧ KernTakes (.rsqrt d a) d (row1 fRsqrt a) ∧
    KernTakes (.exp2 d a) d (row1 fExp2 a) ∧ KernTakes (.log2 d a) d (row1 fLog2 a) ∧
    KernTakes (.neg d a) d (row1 fNeg a) ∧ KernTakes (.abs d a) d (row1 fAbs a) ∧
    KernTakes (.min d a b) d (row2 fMin a b) ∧ KernTakes (.max d a b) d (row2 fMax a b) ∧
    KernTakes (.lt d a b) d (row2 (fun x y => if fLt x y then 0x3F800000#32 else 0#32) a b) ∧
    KernTakes (.le d a b) d (row2 (fun x y => if fLe x y then 0x3F800000#32 else 0#32) a b) ∧
    KernTakes (.eq d a b) d (row2 (fun x y => if fEq x y then 0x3F800000#32 else 0#32) a b) ∧
    KernTakes (.sel d a b c) d (row3 (fun x y z => match f32Num z with
      | .nan => y | .inf _ => x | .fin _ m _ => if m = 0 then y else x) a b c) ∧
    KernTakes (.cvtbf d a) d (row1 fCvtBf a)

/-- LD, LDC, IDX, RSUM, RMAX, RMIN and ST (04_formulas_operations.md R137): what they write, and the frame. -/
def Obligations.MicrokernelMoves : Prop :=
  ∀ d a : BitVec 6,
    KernTakes (.ld d a) d (fun k => (k.streams[a.toNat]?).getD (List.replicate k.lanes 0#32)) ∧
    (∀ n, KernTakes (.ldc d n) d fun k => List.replicate k.lanes ((k.consts[n.toNat]?).getD 0#32)) ∧
    KernTakes (.idx d) d (fun k => (List.range k.lanes).map f32OfNat) ∧
    KernTakes (.rsum d a) d (fun k => List.replicate k.lanes (treeSum (kernReg k a.toNat))) ∧
    KernTakes (.rmax d a) d (fun k => List.replicate k.lanes (treeMax (kernReg k a.toNat))) ∧
    KernTakes (.rmin d a) d (fun k => List.replicate k.lanes (treeMin (kernReg k a.toNat))) ∧
    ∀ s, Does (.st a) s fun t => t.arr.kern = { s.arr.kern with out := kernReg s.arr.kern a.toNat } ∧
      t = { s with arr := { s.arr with kern := t.arr.kern } }

namespace Sys2Proof

/-- Domain `d` runs batch `b` of instance `i` at operation `o` of an opcode: it executes, no result is formed yet, no fault has
made the instance FAILED, and no unit that the operation reads awaits the recovery of its home (04 R111, R116, R117; 05 R168). -/
structure Executing (s : State) (d : BitVec 3) (opcode : Nat) (b : Batch) (i : Inst) (o : OpRec) : Prop where
  runs : executes s d.toNat = true
  batch : (domOf s d.toNat).batch = some b
  inst : tabFind s.insts b.inst = some i
  op : opOf i b = some o
  opcode : o.opcode = opcode
  live : i.st ≠ .failed
  homes : (s.plc.units.any fun u => decide (u.home = .lost) && opReads i o b.inst b.exact b.rows u) = false

/-- A row before an operation: the counts of the operation start at zero, and the sums are those that the reduction destinations of the
context hold complete (03_harrel_stacks.md R69, R83). -/
def freshRow (s : State) (d : Nat) (b : Batch) (r : BatchRow) : BatchRow :=
  { r with overRange := false, flush := 0, trunc := 0, special := 0, sat := 0, fell := false, sums := destSums s d b r.ctx }

/-- An operation with meaning `f` of one row (04 R117; 02 R52). Where no live row faults on range, the batch takes a result of one
row for each of its rows: a row that had failed as it was, a live row as `f` makes it. Where one faults, the attempt aborts: the
rows keep what they held but for their range fault and status, no result is formed, and the ticks its tiles waited are drawn
(`addStall`). In both, only that domain changes. -/
def OpFormed (s t : State) (d : BitVec 3) (b : Batch) (f : BatchRow → BatchRow) : Prop :=
  let new := b.rows.map fun r => if r.status ≠ 0 then r else f (freshRow s d.toNat b r)
  OtherDoms d.toNat s t ∧ t = { s with free := t.free, arr := { s.arr with doms := t.arr.doms } } ∧
    ((∀ r ∈ new, r.status = 0 → r.overRange = false) → t.free = s.free ∧ domOf t d.toNat = { domOf s d.toNat with batch := some { b with result := some new } }) ∧
    ((∃ r ∈ new, r.status = 0 ∧ r.overRange = true) →
      t.free = s.free + 1 ∧ (domOf t d.toNat).phase = .aborted ∧ ∃ b' : Batch, (domOf t d.toNat).batch = some b' ∧ b'.rangeFault = true ∧ b'.result = b.result ∧
        b'.rows.length = b.rows.length ∧
        ∀ (j : Nat) (r : BatchRow), b.rows[j]? = some r → b'.rows[j]? = (new[j]?).map fun x => { r with overRange := x.overRange, status := x.status })

/-- A command that runs such an operation; one whose input is one tensor for the batch gives such a tensor (04 R132). -/
def OpRuns (c : Instr) (s : State) (d : BitVec 3) (b : Batch) (o : OpRec) (f : BatchRow → BatchRow) : Prop :=
  Does c s fun t => OpFormed s t d b fun r => keepWhole o (f r)

end Sys2Proof

/-- The operations that run a row alone (04_formulas_operations.md R117, R122 to R130, R133; 02_arithmetic.md R52). -/
def Obligations.OperationsOfRows : Prop :=
  ∀ (s : State) (d : BitVec 3) (b : Batch) (i : Inst) (o : OpRec),
    (Executing s d 0x03 b i o → OpRuns (.routerTopk d) s d b o (opRouter i o)) ∧
    (Executing s d 0x04 b i o → OpRuns (.gather d) s d b o (opGather i o)) ∧
    (Executing s d 0x05 b i o → OpRuns (.attnExact d) s d b o (opAttnExact i o)) ∧
    (Executing s d 0x08 b i o → OpRuns (.norm d) s d b o (opNorm i o)) ∧
    (Executing s d 0x09 b i o → OpRuns (.softmax d) s d b o (opSoftmax i o)) ∧
    (Executing s d 0x0A b i o → OpRuns (.activation d) s d b o (opActivation i o)) ∧
    (Executing s d 0x0B b i o → OpRuns (.elementwise d) s d b o (opElementwise i o)) ∧
    (Executing s d 0x0C b i o → OpRuns (.rotary d) s d b o (opRotary i o)) ∧
    (Executing s d 0x0D b i o → OpRuns (.sample d) s d b o (opSample i o)) ∧
    (Executing s d 0x0E b i o → OpRuns (.convert d) s d b o (opConvert i o)) ∧
    (Executing s d 0x0F b i o → OpRuns (.vectorKernel d) s d b o (opVectorKernel i o))

namespace Sys2Proof

/-- A matrix operation (04 R131): with TRAY_SCOPE it waits for the summaries of every device that the collective which consumes its output
names, and runs with their join; without, it runs at once. -/
def MatrixRuns (c : Instr) (s : State) (d : BitVec 3) (b : Batch) (i : Inst) (o : OpRec) (scope : Bool) (tray : List (Nat × TrayWin))
    (f : Option TrayWin → BatchRow → BatchRow) : Prop :=
  let named := trayPeers i.f o (opIndex i b) s.rst.trayPos
  (scope = false → OpRuns c s d b o (f none)) ∧
  (scope = true → (∃ n ∈ named, ∀ w ∈ tray, w.1 ≠ n) → Does c s fun t => t = s) ∧
  (scope = true → (∀ n ∈ named, ∃ w ∈ tray, w.1 = n) →
    OpRuns c s d b o (f (some ((tray.filter fun w => named.contains w.1).foldl (fun x w => joinTray x w.2) (ownTray i o b.rows)))))

end Sys2Proof

/-- MATMUL, EXPERT_MATMUL, ATTN_SILLAGE in exact mode and KV_APPEND (04_formulas_operations.md R119, R121, R126, R131;
06_sillage.md R186, R199). -/
def Obligations.OperationsOfBatch : Prop :=
  ∀ (s : State) (d : BitVec 3) (b : Batch) (i : Inst) (o : OpRec) (tray : List (Nat × TrayWin)),
    (Executing s d 0x01 b i o → MatrixRuns (.matmul d tray) s d b i o (attr o 0 1 = 1) tray (opMatmul i o)) ∧
    (Executing s d 0x02 b i o → MatrixRuns (.expertMatmul d tray) s d b i o (attr o 2 1 = 1) tray (opExpert i o)) ∧
    (Executing s d 0x06 b i o → b.exact = true → OpRuns (.attnSillage d) s d b o (opAttnExact i o)) ∧
    (Executing s d 0x07 b i o → OpRuns (.kvAppend d) s d b o (opKvAppend i o 4194304))

namespace Sys2Proof

/-- A domain whose running operation ends in one status for every live row (04 R117). -/
def AllFail (s t : State) (d : BitVec 3) (b : Batch) (st : Nat) : Prop :=
  OtherDoms d.toNat s t ∧ t = { s with arr := { s.arr with doms := t.arr.doms } } ∧
  domOf t d.toNat = { domOf s d.toNat with batch := some { b with result := some (b.rows.map fun r => if r.status = 0 then { r with status := st } else r) } }

/-- A tray collective of an opcode (04 R132): 2 ms after its start every live row ends with ST_PEER_LOST; before, it waits while a named
device has not delivered; a poisoned line ends every live row with ST_PEER_LOST, raw inputs that differ with ST_BAD_FORMAT (02 R57); else
every live row takes its share of the collective's result. -/
def CollectiveRuns (mk : List (Nat × Option (List Tensor)) → Instr) (s : State) (d : BitVec 3) (b : Batch) (i : Inst) (o : OpRec)
    (opcode : Nat) : Prop :=
  ∀ peers, let me := s.rst.trayPos
    let others := (namedDevices o).filter (· ≠ me)
    let rank (n : Nat) : Nat := ((namedDevices o).filter (· < n)).length
    let own := ownGroups i o b.rows
    let ins := allGroups me i o b.rows peers
    let raw : Prop := ∃ a, outDecl i.f o = some a ∧ isRaw a.fmt = true
    let limit := (domOf s d.toNat).start + 2000000
    (limit < s.gt → Does (mk peers) s fun t => AllFail s t d b stPeerLost) ∧
    (s.gt ≤ limit → (∃ n ∈ others, delivered peers n = none) → Does (mk peers) s fun t => t = s) ∧
    (s.gt ≤ limit → (∀ n ∈ others, delivered peers n ≠ none) → (∃ n ∈ others, delivered peers n = some none) →
      Does (mk peers) s fun t => AllFail s t d b stPeerLost) ∧
    (s.gt ≤ limit → (∀ n ∈ others, ∃ ts, delivered peers n = some (some ts)) → raw → (∃ g ∈ ins, groupsAgree own g = false) →
      Does (mk peers) s fun t => AllFail s t d b stBadFormat) ∧
    ∀ r, s.gt ≤ limit → (∀ n ∈ others, ∃ ts, delivered peers n = some (some ts)) → (raw → ∀ g ∈ ins, groupsAgree own g = true) →
      collective opcode (rank me) (rank (attr o 1 1)) (match inDecl i.f o 0 with | some a => entryRows a | none => 1) (ins.map batchTensor) = some r →
      let live := b.rows.filter fun r => r.status = 0
      let share := shareOut r own live.length
      OpRuns (mk peers) s d b o (givenRow o (List.zip live share.1) share.2)

end Sys2Proof

/-- The tray collectives and their timeout (04_formulas_operations.md R132). -/
def Obligations.TrayCollectives : Prop :=
  ∀ (s : State) (d : BitVec 3) (b : Batch) (i : Inst) (o : OpRec),
    (Executing s d 0x10 b i o → CollectiveRuns (.trayAllreduce d) s d b i o 0x10) ∧
    (Executing s d 0x11 b i o → CollectiveRuns (.trayAllgather d) s d b i o 0x11) ∧
    (Executing s d 0x12 b i o → CollectiveRuns (.trayAlltoall d) s d b i o 0x12) ∧
    (Executing s d 0x13 b i o → CollectiveRuns (.trayBroadcast d) s d b i o 0x13) ∧
    ∀ opcode, 0x10 ≤ opcode → opcode ≤ 0x13 → Executing s d opcode b i o →
      (RunOut s ((domOf s d.toNat).start + 2000000) → Does (.collectiveTimeout d) s fun t => AllFail s t d b stPeerLost) ∧
      (¬ RunOut s ((domOf s d.toNat).start + 2000000) → Does (.collectiveTimeout d) s fun t => t = s)

/-- STACK_READY and ACCORD_READY_TIMEOUT (01_architecture.md R20, R21). A report goes over the mesh too (`sendReport`), and the tiling of an
operation that starts reserves its reductions' destinations (03_harrel_stacks.md R75); its first part fixes how many parts it has
(13_multitenancy.md R436). -/
def Obligations.AccordStart : Prop :=
  ∀ (s : State) (n d : BitVec 3), let x := domOf s d.toNat
    let v := sendReport s n.toNat
    ((stackOf s n.toNat).domain = some d.toNat → x.phase = .readying → dieUp s n.toNat = true → n.toNat ∉ x.ready →
      (tabGet s.pwr.clk {} d.toNat).ramp = none → (∀ lim, x.readyBy = some lim → s.gt ≤ lim) →
      ((∃ m ∈ liveStacks s d.toNat, m ≠ n.toNat ∧ m ∉ x.ready) → Does (.stackReady n) s fun t =>
        domOf t d.toNat = { x with ready := x.ready ++ [n.toNat], lastReady := s.gt, readyBy := some (x.readyBy.getD (s.gt + 8000)) } ∧
        OtherDoms d.toNat s t ∧ t = { v with arr := { v.arr with doms := t.arr.doms } }) ∧
      (n.toNat ∈ liveStacks s d.toNat → (∀ m ∈ liveStacks s d.toNat, m = n.toNat ∨ m ∈ x.ready) → x.halted = false → s.arr.noOps = false →
        Does (.stackReady n) s fun t =>
          (domOf t d.toNat).phase = .running ∧ (domOf t d.toNat).start % 10 = 0 ∧
          (domOf t d.toNat).batch = x.batch.map (fun b => if b.part = 0 then { b with parts := partCount s d.toNat b } else b) ∧
          s.gt ≤ (domOf t d.toNat).start ∧ x.prevEnd ≤ (domOf t d.toNat).start ∧ (domOf t d.toNat).start < max s.gt x.prevEnd + 10 ∧
          OtherDoms d.toNat s t ∧ (∀ m : Nat, stackOf t m = ({ (stackOf v m : Stack) with dests := (stackOf t m).dests } : Stack)) ∧
          t = { s with arr := { s.arr with doms := t.arr.doms, memStacks := t.arr.memStacks }, flt := { s.flt with recs := t.flt.recs } })) ∧
    (∀ lim, x.phase = .readying → x.readyBy = some lim →
      (¬ RunOut s lim → Does (.accordReadyTimeout d) s fun t => t = s) ∧
      (RunOut s lim → Does (.accordReadyTimeout d) s fun t => ∃ u,
        u = ((liveStacks s d.toNat).filter fun m => !x.ready.contains m).foldl (fun w m => loseDie w m 0x09 0 false) s ∧
        (∀ (j : Nat) (r : FaultRec), u.flt.recs[j]? = some r → t.flt.recs[j]? = some (if s.flt.seq < r.seq then { r with gtFault := lim - 8000 } else r)) ∧
        t.flt.recs.length = u.flt.recs.length ∧
        domOf t d.toNat = { domOf u d.toNat with lastFaultGt := lim - 8000 } ∧ OtherDoms d.toNat u t ∧
        t = { u with arr := { u.arr with doms := t.arr.doms }, flt := { u.flt with recs := t.flt.recs, retained := t.flt.retained } }))

/-- SLICE_END, OPERATION_BOUNDARY, STEP_OVERRUN and COPY_COMPLETE (01 R22, R23, R30; 13 R433, R436; 05 R146, R147). An operation in parts goes on to
its next part. -/
def Obligations.StepAndSliceEnds : Prop :=
  ∀ (s : State) (d : BitVec 3), let x := domOf s d.toNat
    (∀ b e, x.batch = some b → x.sliceEnd = some e →
      (¬ RunOut s e → Does (.sliceEnd d) s fun t => t = s) ∧
      (RunOut s e → x.phase = .running ∨ x.phase = .aborted → Does (.sliceEnd d) s fun t =>
        domOf t d.toNat = { x with cut := true } ∧ OtherDoms d.toNat s t ∧ t = { s with arr := { s.arr with doms := t.arr.doms } }) ∧
      (RunOut s e → x.phase = .readying → Does (.sliceEnd d) s fun t => ∃ u, t = formBatch u d.toNat ∧ OtherDoms d.toNat s u ∧
        u = { s with arr := { s.arr with doms := u.arr.doms } } ∧
        domOf u d.toNat = { x with batch := none, parked := x.parked ++ [b], phase := .idle, sliceEnd := none, cut := false, ready := [], readyBy := none })) ∧
    (domFault s d.toNat = true → Does (.operationBoundary d) s fun t =>
      domOf t d.toNat = { x with owed := true } ∧ OtherDoms d.toNat s t ∧ t = { s with arr := { s.arr with doms := t.arr.doms } }) ∧
    (domFault s d.toNat = false → x.batch = none → x.phase = .idle → Does (.operationBoundary d) s fun t => t = atStepBoundary (atOpBoundary s d.toNat) d.toNat) ∧
    (∀ b i o, domFault s d.toNat = false → x.batch = some b → tabFind s.insts b.inst = some i → opOf i b = some o →
      (b.result = none → b.parts ≤ b.part + 1 ∨ x.phase ≠ .running ∨ s.gt < x.start → Does (.operationBoundary d) s fun t => t = s) ∧
      (b.result = none → b.part + 1 < b.parts → x.phase = .running → x.start ≤ s.gt →
        let e := installCopies (chargeTicks s d.toNat b.rows) d.toNat
        let b1 := { b with part := b.part + 1, attempt := 0 }
        (cutsHere e d.toNat i b1 = false → Does (.operationBoundary d) s fun t =>
          ∃ u, t = atOpBoundary u d.toNat ∧ OtherDoms d.toNat e u ∧ u = { e with arr := { e.arr with doms := u.arr.doms } } ∧
          domOf u d.toNat = { domOf e d.toNat with batch := some b1, phase := .readying, ready := [], readyBy := none, opseq := x.opseq }) ∧
        (cutsHere e d.toNat i b1 = true → Does (.operationBoundary d) s fun t =>
          ∃ u, t = formBatch (atOpBoundary u d.toNat) d.toNat ∧ OtherDoms d.toNat e u ∧ u = { e with arr := { e.arr with doms := u.arr.doms } } ∧
          domOf u d.toNat = { domOf e d.toNat with prefetch := [], batch := none, parked := (domOf e d.toNat).parked ++ [b1], phase := .idle, cut := false,
                                                   sliceEnd := none, ready := [], readyBy := none })) ∧
      (∀ rows n, b.result = some rows → x.phase = .running → x.start ≤ s.gt → (stepOf i b).map StepRec.count = some n →
        let e := installCopies (creditOp s d.toNat i o b rows) d.toNat
        let b1 := { b with op := b.op + 1, rows := settleRows rows, result := none, attempt := 0, part := 0, parts := 1, seq := (x.opseq + 1) % 2 ^ 32 }
        (n ≤ b.op + 1 → (domOf (endStep e d.toNat i b1) d.toNat).parked = x.parked → Does (.operationBoundary d) s fun t =>
          t = atStepBoundary (atOpBoundary (endStep e d.toNat i b1) d.toNat) d.toNat) ∧
        (b.op + 1 < n → cutsHere e d.toNat i b1 = false → Does (.operationBoundary d) s fun t =>
          ∃ u, t = atOpBoundary u d.toNat ∧ OtherDoms d.toNat e u ∧ u = { e with arr := { e.arr with doms := u.arr.doms } } ∧
          domOf u d.toNat = { domOf e d.toNat with
            batch := some b1, phase := .readying, ready := [], readyBy := none, opseq := (x.opseq + 1) % 2 ^ 32 }))) ∧
    (∀ (c : BitVec 12) p, let k := ctxOf s c.toNat
      let now := if x.phase = .running ∧ (∃ b, x.batch = some b ∧ ∃ r ∈ b.rows, r.ctx = c.toNat) then s.gt - x.start else 0
      k.prov = some p → p.dom = d.toNat → p.cls = 2 → k.demoted = false → inBatch s c.toNat = true → quiet s = true →
      p.stepUs * 1000 * topFreq s ≤ (k.stepTicks + now) * stepFreq s d.toNat →
      Does (.stepOverrun c) s fun t => ∃ u, t = event u c.toNat (evtEntry 0x18 0 stOk (p.stepUs + 2 ^ 32 * ((k.stepTicks + now) / 1000) + 2 ^ 64 * s.gt)) ∧
        ctxOf u c.toNat = { k with demoted := true } ∧ OtherCtxs c.toNat s u ∧ u = { s with ctxs := u.ctxs }) ∧
    (∀ key v, (s.plc.units.find? fun u => u.key = key && u.moving && !u.copied) = some v → v.dom = d.toNat → x.phase = .running → v.home ≠ .lost →
      let slow : Prop := (∃ k, drainMove s v = some k ∧ fitsBudget (drainCap s v.dom k) (drainUsedNow s v.dom k) v.bytes = false) ∨
        (drainMove s v = none ∧ v.dest ≠ none ∧ migCap s v.dom < migUsedNow s v.dom)
      (slow ∨ (copyDies v).any (faultPending s) = true → Does (.copyComplete key) s fun t => t = s) ∧
      (¬ slow → (copyDies v).any (faultPending s) = false →
        Does (.copyComplete key) s fun t => ∃ w, (drainMove s v = none → w = s) ∧ (∀ k, drainMove s v = some k → w = spendDrain s v.dom k v.bytes) ∧
          t = { w with plc := { w.plc with units := t.plc.units } } ∧
          t.plc.units = s.plc.units.map fun u => if u.key = key then { u with copied := true } else u))

/-- RESULT_RELEASE, HOLD_TIMER_EXPIRY and DEADLINE_EXPIRY (05 R141, R161; 09 R313, R323, R328): the running request of a context held for space
does not time out. -/
def Obligations.ReleaseAndExpiry : Prop :=
  ∀ (s : State) (c : BitVec 12), let k := ctxOf s c.toNat
    (Does (.resultRelease c) s fun t => ∃ u, t = tryRelease u c.toNat ∧ u = { s with ctxs := u.ctxs } ∧ OtherCtxs c.toNat s u ∧
      ctxOf u c.toNat = { k with output := k.output.map fun o => { o with homes := true } }) ∧
    (∀ lim, k.holdTimer = some lim → ¬ RunOut s lim → Does (.holdTimerExpiry c) s fun t => t = s) ∧
    (∀ lim o f fs, k.holdTimer = some lim → RunOut s lim → k.output = some o → o.frames = f :: fs →
      Does (.holdTimerExpiry c) s fun t => ∃ u v, t = settle v c.toNat ∧
        u = { s with ctxs := u.ctxs } ∧ OtherCtxs c.toNat s u ∧
        ctxOf u c.toNat = { k with output := none, holdTimer := none, trunc := satAdd 32 k.trunc 1, stopped := some k.frameSeq,
                                   frameSeq := (k.frameSeq + 1) % 2 ^ 32 } ∧
        ∃ w, w = event u c.toNat (evtEntry 0x06 0 0x07 (k.frameSeq + 2 ^ 32 * f.seg +
          2 ^ 64 * ((f.payload.length - f.off) + (fs.map fun g => g.payload.length).sum))) ∧
        v = { w with ctxs := v.ctxs } ∧ OtherCtxs c.toNat w v ∧
        ∃ ar, ctxOf v c.toNat = endRequest (ctxOf w c.toNat) 0x07 (endPayload (ctxOf w c.toNat) 0) ar) ∧
    (Does (.deadlineExpiry c) s fun t => ∃ u, t = settle u c.toNat ∧ u = { s with ctxs := u.ctxs } ∧ OtherCtxs c.toNat s u ∧
      (ctxOf u c.toNat).queue.length = k.queue.length ∧
      ∀ (j : Nat) a, k.queue[j]? = some a →
        let held : Prop := k.space ≠ none ∧ ∀ (m : Nat) b, m < j → k.queue[m]? = some b → openRequest b = false
        ((openRequest a = false ∨ held ∨ (∀ lim, a.deadline = some lim → ¬ RunOut s lim)) → (ctxOf u c.toNat).queue[j]? = some a) ∧
        (∀ r lim, ¬ held → a.work = .request r → a.done = none → a.deadline = some lim → RunOut s lim →
          (ctxOf u c.toNat).queue[j]? = some { a with work := .request { r with endWith := some (r.endWith.getD 0x08) }, deadline := none }))

namespace Sys2Proof

/-- A doorbell of a context's ring (09_host_rings.md R297, R298): a write of fewer than 32 bits, or to a context that is not enabled,
does nothing; an index inside the ring is taken, in that context alone, and the rings move; one beyond it is counted in the
context's doorbell errors (saturating) and reported by a DOORBELL_ERROR event (0x07) with the doorbell's number and the index. -/
def DoorbellRings (mk : Bool → Word → Instr) (s : State) (c arg : Nat) (log : Nat) (act : Nat → Ctx) : Prop :=
  let k := ctxOf s c
  (∀ v, Does (mk false v) s fun t => t = s) ∧ (∀ full v, k.enabled = false ∨ k.enable = false → Does (mk full v) s fun t => t = s) ∧
  ∀ (v : Word) (n : Nat), n = v.toNat % 65536 → k.enabled = true → k.enable = true →
    (n < 2 ^ log → Does (mk true v) s fun t => ∃ u, t = settle u c ∧ ctxOf u c = act n ∧ OtherCtxs c s u ∧ u = { s with ctxs := u.ctxs }) ∧
    (2 ^ log ≤ n → Does (mk true v) s fun t => ∃ u, t = settle (event u c (evtEntry 0x07 arg stOk n)) c ∧
      ctxOf u c = { k with dbErr := min (k.dbErr + 1) (2 ^ 32 - 1) } ∧ OtherCtxs c s u ∧ u = { s with ctxs := u.ctxs })

end Sys2Proof

/-- CTX_SQ_TAIL, CTX_CQ_HEAD, CTX_RQ_TAIL and CTX_OUT_ACK (09_host_rings.md R297, R298, R323, R324). -/
def Obligations.Doorbells : Prop :=
  ∀ (s : State) (p : PageRef),
    (∀ full v, pageCtx s p = none → Does (.ctxSqTail p full v) s (fun t => t = s) ∧ Does (.ctxCqHead p full v) s (fun t => t = s) ∧
      Does (.ctxRqTail p full v) s (fun t => t = s) ∧ Does (.ctxOutAck p full v) s (fun t => t = s)) ∧
    ∀ c, pageCtx s p = some c → let k := ctxOf s c
      DoorbellRings (.ctxSqTail p) s c 1 k.sqLog (fun n => { k with sqTail := n }) ∧
      DoorbellRings (.ctxCqHead p) s c 2 k.cqLog (fun n => { k with cqHead := n }) ∧
      ((∀ lim, k.holdTimer = some lim → s.gt ≤ lim) → DoorbellRings (.ctxRqTail p) s c 3 k.rqLog (fun n => { k with rqTail := n, holdTimer := if k.buffers = [] ∧ k.rqHead = n then k.holdTimer else none })) ∧
      (∀ lim full v, k.holdTimer = some lim → lim < s.gt → ∃ u, u = settle (truncateOutput s c 0x07) c ∧
        (full = false → Does (.ctxRqTail p full v) s fun t => t = u)) ∧
      (∀ full v, full = false ∨ k.enabled = false ∨ k.enable = false → Does (.ctxOutAck p full v) s fun t => t = s) ∧
      (k.enabled = true → k.enable = true → ∀ v : Word,
        (k.stopped = some v.toNat → Does (.ctxOutAck p true v) s fun t => ∃ u, t = settle u c ∧
          ctxOf u c = { k with stopped := none } ∧ OtherCtxs c s u ∧ u = { s with ctxs := u.ctxs }) ∧
        (k.stopped ≠ some v.toNat → Does (.ctxOutAck p true v) s fun t => ∃ u, t = settle (event u c (evtEntry 0x07 4 stOk v.toNat)) c ∧
          ctxOf u c = { k with dbErr := min (k.dbErr + 1) (2 ^ 32 - 1) } ∧ OtherCtxs c s u ∧ u = { s with ctxs := u.ctxs }))

namespace Sys2Proof

/-- A context that may take a descriptor at once: enabled, nothing waits, is queued, is being written or is held back, a completion
slot above the eight kept back is free, and its submission ring is not empty (09_host_rings.md R312, R315). -/
structure Quiet (k : Ctx) : Prop where
  enable : k.enable = true
  enabled : k.enabled = true
  error : k.error = false
  paused : k.paused = false
  waiting : k.waiting = none
  queue : k.queue = []
  events : k.events = []
  output : k.output = none
  slots : 8 < freeSlots k
  ring : k.sqHead ≠ k.sqTail

/-- A descriptor read at a quiet context is admitted at once (09 R312): its admission runs on a state that differs only by the
descriptor waiting in that context; then completions that are due are written, loads whose entries they were become READY, and the device's
queue of management descriptors moves. -/
def Admitted (c : Instr) (s : State) (n : Nat) (d : Desc) : Prop :=
  Does c s fun t => ∃ u, ctxOf u n = { ctxOf s n with waiting := some d } ∧ OtherCtxs n s u ∧ u = { s with ctxs := u.ctxs } ∧
    t = runMgmt 8192 (readyLoads (finishDisable (flushQueue ((ctxOf (admitDesc u n d) n).queue.length + 2) (admitDesc u n d) n) n) n)

end Sys2Proof

/-- The nine submission descriptors arrive (09_host_rings.md R307, R308, R312). -/
def Obligations.DescriptorsArrive : Prop :=
  ∀ (s : State) (c : BitVec 12) (h : DescHead),
    let rows (P : Instr → DescBody → Prop) : Prop :=
      (∀ b, P (.request c h b) (.request b)) ∧ (∀ x, P (.cancel c h x) (.cancel x)) ∧ P (.nop c h) .nop ∧
      (∀ a n, P (.formulaLoad c h a n) (.load a n)) ∧ (∀ a n x, P (.weightChunk c h a n x) (.chunk a n x)) ∧
      (∀ x, P (.unload c h x) (.unload x)) ∧ (∀ x v l, P (.bind c h x v l) (.bind x v l)) ∧ P (.unbind c h) .unbind ∧
      (∀ b, P (.pin c h b) (.pin b))
    (Quiet (ctxOf s c.toNat) → rows fun i b => Admitted i s c.toNat ⟨h, b⟩) ∧
    ((ctxOf s c.toNat).enable = false ∨ (ctxOf s c.toNat).enabled = false ∨ (ctxOf s c.toNat).error = true ∨
      (ctxOf s c.toNat).waiting ≠ none ∨ (ctxOf s c.toNat).sqHead = (ctxOf s c.toNat).sqTail →
      rows fun i _ => Does i s fun t => t = s)

/-- What the admission of each descriptor does, and what a management descriptor does at its turn in the device's queue (09 R308 to R313; 04 R109
to R112; 05 R157). -/
def Obligations.DescriptorsDo : Prop :=
  ∀ (u : State) (c : Nat) (h : DescHead), let k := ctxOf u c
    let head := if k.sqHead + 1 = ringSize k.sqLog then 0 else k.sqHead + 1
    let adm (mgmt : Bool) (w : Work) (dl : Option Nat) (done : Option (Nat × Nat × Bool)) : Adm := ⟨h.tag.toNat, h.noIrq, mgmt, w, dl, done⟩
    let push (k : Ctx) (a : Adm) : Ctx := { k with queue := k.queue ++ [a], sqHead := head, waiting := none }
    (∀ b st, refusal u c ⟨h, b⟩ = some st →
      ctxOf (admitDesc u c ⟨h, b⟩) c = push k (adm false .other none (some (st, refusedPayload k ⟨h, b⟩, false))) ∧ OtherCtxs c u (admitDesc u c ⟨h, b⟩) ∧
      admitDesc u c ⟨h, b⟩ = { u with ctxs := (admitDesc u c ⟨h, b⟩).ctxs }) ∧
    (∀ b i, refusal u c ⟨h, .request b⟩ = none → instOf u c = some i → b.rflags.getLsbD 4 = false →
      let t := admitDesc u c ⟨h, .request b⟩
      (ctxOf t c).queue = k.queue ++ [adm false (.request ⟨b, requestInputs u c b, [], 0, 0,
          if b.nTokens = 0#32 then i.f.entryDecode else i.f.entryPrefill, false, none⟩)
        (if b.deadlineUs = 0#32 then none else some (u.gt + b.deadlineUs.toNat * 1000)) none] ∧
      (ctxOf t c).readyAt = some (k.readyAt.getD u.gt) ∧ (ctxOf t c).sqHead = head ∧ (ctxOf t c).waiting = none ∧
      OtherCtxs c u t ∧ t = { u with ctxs := t.ctxs }) ∧
    (∀ tag, refusal u c ⟨h, .cancel tag⟩ = none → (∀ a ∈ k.queue, openRequest a = true → a.tag ≠ tag.toNat) →
      ctxOf (admitDesc u c ⟨h, .cancel tag⟩) c = push k (adm false .other none (some (stOk, 0, false)))) ∧
    (∀ tag, refusal u c ⟨h, .cancel tag⟩ = none → (∃ a ∈ k.queue, openRequest a = true ∧ a.tag = tag.toNat) →
      ∃ q, ctxOf (admitDesc u c ⟨h, .cancel tag⟩) c = { k with queue := q ++ [adm false (.cancelling tag.toNat) none none], sqHead := head, waiting := none } ∧
        q = modFirst (fun a => openRequest a && a.tag = tag.toNat) (endLater stCancelled) k.queue) ∧
    (refusal u c ⟨h, .nop⟩ = none → ctxOf (admitDesc u c ⟨h, .nop⟩) c = push k (adm false .other none (some (stOk, 0, false)))) ∧
    (∀ b w, refusal u c ⟨h, b⟩ = none →
      ((∃ a n, b = .load a n ∧ w = .loading a.toNat n.toNat) ∨ (∃ a n x, b = .chunk a n x ∧ w = .chunk a.toNat n.toNat x.toNat) ∨
        (w = .queued b ∧ ((∃ x, b = .unload x) ∨ (∃ x v l, b = .bind x v l) ∨ b = .unbind ∨ ∃ p, b = .pin p))) →
      let t := admitDesc u c ⟨h, b⟩
      ctxOf t c = push k (adm true w none none) ∧ OtherCtxs c u t ∧ t = { u with ctxs := t.ctxs, mgmt := t.mgmt } ∧
      (∃ before after, u.mgmt = before ++ after ∧ t.mgmt = before ++ [(u.gt, c)] ++ after) ∧
      ((∀ e ∈ u.mgmt, e.1 = u.gt → e.2 ≤ c) → t.mgmt = u.mgmt ++ [(u.gt, c)])) ∧
    (∀ b, yieldsTurn u c b = false →
      (∀ st, turnRefusal u c b = some st → turnOf u c (.queued b) = some ⟨u, st, 0, none, none⟩) ∧
      (turnRefusal u c b = none → ∃ t, turnOf u c (.queued b) = some ⟨t, stOk, 0, none, none⟩ ∧
        (∀ x i, b = .unload x → tabFind u.insts x.toNat = some i → tabFind t.insts x.toNat = some { i with st := .unloading } ∧
          (∀ y, y ≠ x.toNat → tabFind t.insts y = tabFind u.insts y) ∧ t = { u with insts := t.insts, plc := { u.plc with pins := t.plc.pins, newPins := t.plc.newPins } }) ∧
        (∀ x v l i p, b = .bind x v l → tabFind u.insts x.toNat = some i → k.prov = some p →
          (ctxOf t c).inst = some x.toNat ∧ (ctxOf t c).session = some (sessionStart k.seed (if v then some l.toNat else none)) ∧
          (ctxOf t c).queue = k.queue ∧ OtherCtxs c u t) ∧
        (b = .unbind → (ctxOf t c).inst = none ∧ (ctxOf t c).session = none ∧ (ctxOf t c).reservedBytes = 0 ∧ OtherCtxs c u t) ∧
        (∀ p, b = .pin p → ∃ q : Pin, q.ctx = c ∧ q.inst = p.handle.toNat ∧ q.tensor = p.tensor.toNat ∧ q.slot = p.slot.toNat ∧
          q.first = p.first.toNat ∧ q.count = p.count.toNat ∧ q.tier = p.tier.toNat ∧ t = recordPin u q false))) ∧
    (∀ g rest w fuel, u.mgmt = (g, c) :: rest → mgmtWork k = some w →
      (turnOf u c w = none → runMgmt (fuel + 1) u = u) ∧
      (∀ t, turnOf u c w = some t → ∃ v, runMgmt (fuel + 1) u = runMgmt fuel (afterTurn (moveRings v c) t) ∧
        ctxOf v c = { ctxOf t.state c with queue := modFirst (fun a => a.mgmt && a.done.isNone) (fun a => { a with done := some (t.status, t.payload, false) }) (ctxOf t.state c).queue } ∧
        OtherCtxs c t.state v ∧ v = { t.state with ctxs := v.ctxs, mgmt := rest }))

/-- CONTEXT_ENABLE and CONTEXT_DISABLE (09_host_rings.md R299, R305, R306). -/
def Obligations.ContextEnabled : Prop :=
  ∀ (s : State) (p : PageRef) (v : Word),
    (pageCtx s p = none → Does (.contextEnable p v) s (fun t => t = s) ∧ Does (.contextDisable p v) s fun t => t = s) ∧
    ∀ c, pageCtx s p = some c →
     ((ctxOf s c).enable = true → (ctxOf s c).standby = true → Does (.contextDisable p v) s fun t =>
        ctxOf t c = { ctxOf s c with enable := false, standby := false } ∧ OtherCtxs c s t ∧ t = { s with ctxs := t.ctxs }) ∧
     ((ctxOf s c).enable = true → (ctxOf s c).standby = false → Does (.contextDisable p v) s fun t => ∃ u, t = finishDisable u c ∧
        ctxOf u c = { ctxOf s c with enable := false, waiting := none, holdTimer := none } ∧ OtherCtxs c s u ∧
        u = { s with ctxs := u.ctxs, dma := { s.dma with chans := u.dma.chans } } ∧
        ((∀ e ∈ s.dma.chans, e.1 < 48 → bits e.2.ctl 15 0 ≠ c) → u.dma = s.dma)) ∧
     ((ctxOf s c).enable = false → (ctxOf s c).enabled = false →
      (∀ lo, 4 ≤ (ctxOf s c).sqLog ∧ (ctxOf s c).sqLog ≤ 16 ∧ 4 ≤ (ctxOf s c).cqLog ∧ (ctxOf s c).cqLog ≤ 16 ∧
        4 ≤ (ctxOf s c).rqLog ∧ (ctxOf s c).rqLog ≤ 16 → v.toNat / 2 ^ 20 % 16 = 1 → (ctxOf s c).prov = some lo →
        ((ctxOf s c).mirror && (ctxOf s c).shadow) = false → (regVal s 0x3400000).getLsbD 31 = false → bootReady s = true →
        ((ctxOf s c).shadow = false → Does (.contextEnable p v) s fun t =>
          (ctxOf t c).enable = true ∧ (ctxOf t c).enabled = true ∧ (ctxOf t c).ver = 1 ∧ (ctxOf t c).pasid = v.toNat % 2 ^ 20 ∧
          (ctxOf t c).pasidEn = v.getLsbD 30 ∧ (ctxOf t c).errCode = 0 ∧ (ctxOf t c).error = false ∧ (ctxOf t c).sqHead = 0 ∧
          (ctxOf t c).sqTail = 0 ∧ (ctxOf t c).cqHead = 0 ∧ (ctxOf t c).cqTail = 0 ∧ (ctxOf t c).rqHead = 0 ∧ (ctxOf t c).rqTail = 0 ∧
          (ctxOf t c).cqPhase = true ∧ (ctxOf t c).frameSeq = 0 ∧ (ctxOf t c).trunc = 0 ∧ (ctxOf t c).dbErr = 0 ∧ (ctxOf t c).evtLost = 0 ∧
          (ctxOf t c).flush = 0 ∧ (ctxOf t c).truncTerms = 0 ∧ (ctxOf t c).reissue = 0 ∧ (ctxOf t c).queue = [] ∧ (ctxOf t c).stopped = none ∧
          ((ctxOf s c).seed ≠ 0 → (ctxOf t c).seed = (ctxOf s c).seed) ∧ (ctxOf t c).prov = (ctxOf s c).prov ∧
          (ctxOf t c).sqBase = (ctxOf s c).sqBase ∧ (ctxOf t c).sqLog = (ctxOf s c).sqLog ∧
          t.flc.starts = s.flc.starts ++ [c] ∧ OtherCtxs c s t ∧ t.rf = s.rf ∧ t.hostMem = s.hostMem ∧ t.arr = s.arr) ∧
        ((ctxOf s c).shadow = true → Does (.contextEnable p v) s fun t => ctxOf t c = { ctxOf s c with
            enable := true, standby := true, ver := 1, pasid := v.toNat % 2 ^ 20, pasidEn := v.getLsbD 30, errCode := 0 } ∧
          OtherCtxs c s t ∧ t = { s with ctxs := t.ctxs })) ∧
      (∀ st, enableRefusal s (ctxOf s c) v = some st → Does (.contextEnable p v) s fun t =>
        ctxOf t c = { ctxOf s c with errCode := st, ver := v.toNat / 2 ^ 20 % 16, pasid := v.toNat % 2 ^ 20, pasidEn := v.getLsbD 30 } ∧
        OtherCtxs c s t ∧ t = { s with ctxs := t.ctxs })) ∧
     ((ctxOf s c).enable = false → Does (.contextDisable p v) s fun t => ctxOf t c = { ctxOf s c with
          ver := v.toNat / 2 ^ 20 % 16, pasid := v.toNat % 2 ^ 20, pasidEn := v.getLsbD 30 } ∧ OtherCtxs c s t ∧ t = { s with ctxs := t.ctxs })

namespace Sys2Proof

/-- Bytes are written into one address space of host memory, and nothing else changes. -/
def WroteHost (s t : State) (space addr : Nat) (bs : List Byte) : Prop :=
  (∀ i b, bs[i]? = some b → hostByte t space (addr + i) = b) ∧
  (∀ sp a, sp * 2 ^ 64 + a < space * 2 ^ 64 + addr ∨ space * 2 ^ 64 + addr + bs.length ≤ sp * 2 ^ 64 + a → hostByte t sp a = hostByte s sp a) ∧
  t = { s with hostMem := t.hostMem }

end Sys2Proof

/-- HOST_READ_COMPLETION (09_host_rings.md R310, R312, R319); one that comes after its timer has run out finds its read failed
(01_architecture.md R29; 10_dma_check.md R338). -/
def Obligations.HostReads : Prop :=
  ∀ (s : State) (c : BitVec 12) (bs : List Byte), let k := ctxOf s c.toNat
    let sp := spaceOf s c.toNat
    let idx := (k.rqHead + k.buffers.length) % ringSize k.rqLog
    let lateD := readLate s (.submission c)
    let lateB := readLate s (.bufferEntry c)
    (lateD = true → Does (.hostReadCompletion c .descriptor bs) s fun t => t = failAccess (endReadWait s (.submission c)) (.submission c)) ∧
    (lateB = true → Does (.hostReadCompletion c .buffer bs) s fun t => t = failAccess (endReadWait s (.bufferEntry c)) (.bufferEntry c)) ∧
    (lateD = false → Does (.hostReadCompletion c .descriptor bs) s fun t => ∃ u, WroteHost s u sp (k.sqBase + 64 * k.sqHead) (bs.take 64) ∧
      t = arrive u c.toNat (descOf bs)) ∧
    (lateB = false → k.enabled = true → k.error = false → idx ≠ k.rqTail → Does (.hostReadCompletion c .buffer bs) s fun t => ∃ u v,
      WroteHost s u sp (k.rqBase + 16 * idx) (bs.take 16) ∧ v = { u with ctxs := v.ctxs } ∧ OtherCtxs c.toNat u v ∧
      ctxOf v c.toNat = { k with buffers := k.buffers ++ [bufOf bs] } ∧ t = settle v c.toNat) ∧
    (lateB = false → k.enabled = false ∨ k.error = true ∨ idx = k.rqTail → Does (.hostReadCompletion c .buffer bs) s fun t => t = s) ∧
    (∀ a, Does (.hostReadCompletion c (.data a) bs) s fun t => WroteHost s t sp a.toNat bs)

/-- COALESCE_TIMER_EXPIRY, CAPACITY_WAIT_TIMER and CTX_VFMAP (09_host_rings.md R294, R326; 05_placement.md R161). -/
def Obligations.TimersAndMaps : Prop :=
  ∀ (s : State) (c : BitVec 12),
    ((∀ lim, (ctxOf s c.toNat).coalesce = some lim → ¬ RunOut s lim) → Does (.coalesceTimerExpiry c) s fun t => t = s) ∧
    (∀ lim, (ctxOf s c.toNat).coalesce = some lim → RunOut s lim → Does (.coalesceTimerExpiry c) s fun t => ∃ u,
      t = (if (ctxOf s c.toNat).irqNow.getLsbD 31 = true then sendMsix u c.toNat else u) ∧
      ctxOf u c.toNat = { ctxOf s c.toNat with coalesce := none, unsignalled := 0 } ∧ OtherCtxs c.toNat s u ∧ u = { s with ctxs := u.ctxs }) ∧
    ((∀ w, (ctxOf s c.toNat).space = some w → s.gt < w.next) → Does (.capacityWaitTimer c) s fun t => t = s) ∧
    (∀ w, (ctxOf s c.toNat).space = some w → w.next ≤ s.gt → Does (.capacityWaitTimer c) s fun t => ∃ u,
      t = event u c.toNat (evtEntry 0x03 0 stOk (w.since + 2 ^ 64 * ((s.gt - w.since) / 1000000))) ∧
      ctxOf u c.toNat = { ctxOf s c.toNat with space := some { w with next := w.next + 100000000 } } ∧
      OtherCtxs c.toNat s u ∧ u = { s with ctxs := u.ctxs }) ∧
    (∀ f v : Nat, let n := 32 * f + v
      let e := tabGet s.rf.msix {} n
      let silent : Prop := f = 0 ∧ 32 ≤ v ∧ vfEnabled s (v / 32) = true;
      (silent → signalVector s f v = s) ∧
      (¬ silent → e.masked = false → signalVector s f v = { s with sent := (s.gt, .msix f v e.addr e.data) :: s.sent }) ∧
      (¬ silent → e.masked = true → let t := signalVector s f v
        n ∈ t.rf.pba ∧ (∀ j, j ≠ n → (j ∈ t.rf.pba ↔ j ∈ s.rf.pba)) ∧ t = { s with rf := { s.rf with pba := t.rf.pba } })) ∧
    (∀ r v i w, v = 0#6 ∨ (r = .host ∧ barsOff s = true) → Does (.ctxVfmap r v i w) s fun t => t = s) ∧
    (∀ r (v i : BitVec 6) w, v ≠ 0#6 → (r = .host → barsOff s = false) →
      let named := w.toNat % 65536
      let live (c : Nat) : Prop := (ctxOf s c).enable = true ∨ (ctxOf s c).enabled = true
      let mapped : Prop := ∃ e ∈ s.rf.vals, 0x804000 ≤ e.1 ∧ e.1 < 0x807F00 ∧ e.1 ≠ vfmapOff v.toNat i.toNat ∧ e.2.getLsbD 31 = true ∧ e.2.toNat % 65536 = named
      let refused (st : Nat) : Prop := Does (.ctxVfmap r v i w) s fun t => (∀ o, regVal t o = regVal s o) ∧
        t.rf.wlogCount = s.rf.wlogCount + 1 ∧ (∃ l, t.rf.wlog.head? = some l ∧ l.offset = vfmapOff v.toNat i.toNat ∧ l.data = w ∧ l.status = st ∧ l.gt = s.gt) ∧
        t = { s with rf := t.rf }
      (4095 < named → refused stRange) ∧
      (named ≤ 4095 → live named ∨ mapped ∨ (∃ old, slotCtx s v.toNat i.toNat = some old ∧ live old) → refused stCtxState) ∧
      (named ≤ 4095 → ¬ live named → ¬ mapped → (∀ old, slotCtx s v.toNat i.toNat = some old → ¬ live old) →
        (tdiLocked s v.toNat = true → refused stDenied) ∧
        (tdiLocked s v.toNat = false → Does (.ctxVfmap r v i w) s fun t => regVal t (vfmapOff v.toNat i.toNat) = w &&& 0x8000FFFF#32 ∧
          OtherRegs [vfmapOff v.toNat i.toNat] s t ∧ t = { s with rf := { s.rf with vals := t.rf.vals } })))

namespace Sys2Proof

/-- The open management descriptor of a context goes on to a work, and the rings and the device's queue of management descriptors move. -/
def GoesOn (s t : State) (c : Nat) (w : Work) : Prop := ∃ u, t = settle u c ∧ OtherCtxs c s u ∧ u = { s with ctxs := u.ctxs } ∧
  ctxOf u c = { ctxOf s c with queue := modFirst (fun a => a.mgmt && a.done.isNone) (fun a => { a with work := w }) (ctxOf s c).queue }

/-- An instance's entry is replaced, every other instance and the rest of the state is as before. -/
def InstPut (s t : State) (h : Nat) (i : Inst) : Prop :=
  tabFind t.insts h = some i ∧ (∀ y, y ≠ h → tabFind t.insts y = tabFind s.insts y) ∧ t = { s with insts := t.insts }

end Sys2Proof

/-- CORE_READ_DONE, CHUNK_VERIFIED, SUMMARY_EXCHANGE_DONE and UNLOAD_RELEASE_DONE (04_formulas_operations.md R109 to R112, R131;
08_memory_tiers.md R287; 10_dma_check.md R332). -/
def Obligations.FormulaLoading : Prop :=
  ∀ (s : State) (c : BitVec 12) (hd : BitVec 6),
    (∀ core, serving s c.toNat = none ∨ (∀ a n, mgmtWork (ctxOf s c.toNat) ≠ some (.loading a n)) → Does (.coreReadDone c core) s fun t => t = s) ∧
    (∀ core a n m, mgmtWork (ctxOf s c.toNat) = some (.loading a n) → serving s c.toNat = some m →
      Does (.coreReadDone c core) s fun t => GoesOn (endLoad s m) t c.toNat (.coreRead a core n)) ∧
    (∀ a core n p, (ctxOf s c.toNat).prov = some p →
      (freeHandle s = none → turnOf s c.toNat (.coreRead a core n) = some ⟨s, stFmlaLimit, 0, none, none⟩) ∧
      (∀ h st, freeHandle s = some h → checkCore n (ctxOf s c.toNat).ver s.rst.trayPos s.sec.slots core = .error st →
        turnOf s c.toNat (.coreRead a core n) = some ⟨s, st, 0, none, none⟩) ∧
      (∀ h f, freeHandle s = some h → checkCore n (ctxOf s c.toNat).ver s.rst.trayPos s.sec.slots core = .ok f →
        let need := f.weightBytes + f.constData.length + reserveBytes f
        ((liveStacks s p.dom).length < f.minStacks → turnOf s c.toNat (.coreRead a core n) = some ⟨s, stFmlaStacks, 0, none, none⟩) ∧
        (f.minStacks ≤ (liveStacks s p.dom).length → t2Free s p.dom < need → turnOf s c.toNat (.coreRead a core n) = some ⟨s, stFmlaCapacity, 0, none, none⟩) ∧
        (f.minStacks ≤ (liveStacks s p.dom).length → need ≤ t2Free s p.dom → ∃ v, v = createInst s c.toNat h p.dom f ∧
          turnOf s c.toNat (.coreRead a core n) = some ⟨v, stOk, h, some h, none⟩ ∧
          ((f.hints.filter fun q => q.kind = 1) = [] →
            tabFind v.insts h = some ⟨.loading, f, fnOf s c.toNat, p.dom, c.toNat, [], [], needsExchange f s.rst.trayPos⟩ ∧
            (∀ y, y ≠ h → tabFind v.insts y = tabFind s.insts y) ∧ v = { s with insts := v.insts, plc := v.plc })))) ∧
    (∀ data, serving s c.toNat = none ∨ (∀ a j h, mgmtWork (ctxOf s c.toNat) ≠ some (.chunk a j h)) → Does (.chunkVerified c data) s fun t => t = s) ∧
    (∀ data a j h m, mgmtWork (ctxOf s c.toNat) = some (.chunk a j h) → serving s c.toNat = some m →
      Does (.chunkVerified c data) s fun t => GoesOn (endLoad s m) t c.toNat (.chunkRead data j h)) ∧
    (∀ data (j : BitVec 32) (h : BitVec 8) i g, turnRefusal s c.toNat (.chunk 0#64 j h) = none → tabFind s.insts h.toNat = some i → i.f.chunks[j.toNat]? = some g →
      ((tabFind i.chunks j.toNat).isSome = true → turnOf s c.toNat (.chunkRead data j.toNat h.toNat) = some ⟨s, stOk, 0, none, none⟩) ∧
      (tabFind i.chunks j.toNat = none → data.length = g.length → sha384 data = g.digest → ∃ u,
        InstPut s u h.toNat { i with chunks := tabPut i.chunks j.toNat data } ∧ turnOf s c.toNat (.chunkRead data j.toNat h.toNat) = some ⟨u, stOk, 0, some h.toNat, none⟩) ∧
      (tabFind i.chunks j.toNat = none → data.length ≠ g.length ∨ sha384 data ≠ g.digest → ∃ u,
        InstPut s u h.toNat { i with st := .failed } ∧ turnOf s c.toNat (.chunkRead data j.toNat h.toNat) = some ⟨u, stFmlaDigest, 0, none, some h.toNat⟩)) ∧
    (∀ sums i, tabFind s.insts hd.toNat = some i → i.st = .loading → i.exchange = true → i.chunks.length = i.f.chunks.length →
      Does (.summaryExchangeDone hd sums) s fun t => ∃ u, InstPut s u hd.toNat { i with exchange := false, shards := shardSums i sums } ∧ t = checkReady u hd.toNat) ∧
    (∀ h i, tabFind s.insts h = some i → i.st = .loading → i.exchange = false → i.chunks.length = i.f.chunks.length →
      (i.f.chunks = [] → loadOwed s i h = true → checkReady s h = s) ∧
      ((i.f.chunks = [] → loadOwed s i h = false) →
        ∃ u, InstPut (tileInst s h) u h { i with st := .ready } ∧ checkReady s h = event u i.ctx (evtEntry 0x04 h stOk 0))) ∧
    (∀ sums, tabFind s.insts hd.toNat = none →
      Does (.summaryExchangeDone hd sums) s (fun t => t = s) ∧ Does (.unloadReleaseDone hd) s fun t => t = s) ∧
    (∀ i, tabFind s.insts hd.toNat = some i → i.st = .unloading → Does (.unloadReleaseDone hd) s fun t => ∃ v, v = dropTilings s i.dom hd.toNat ∧
      tabFind t.insts hd.toNat = none ∧ (∀ y, y ≠ hd.toNat → tabFind t.insts y = tabFind s.insts y) ∧
      (∀ u, u ∈ t.plc.units ↔ u ∈ s.plc.units ∧ ¬((u.key.kind = .granule ∨ u.key.kind = .expert) ∧ u.key.owner = hd.toNat)) ∧
      t = { v with insts := t.insts, plc := { s.plc with units := t.plc.units, pools := t.plc.pools },
                   mem := markPending s.mem fun g => decide (Config.granuleInst g = some hd.toNat) })

/-- PLACEMENT_QUERY, PLACEMENT_QUERY_DONE and TILINGS_INSTALLED (05_placement.md R163 to R165, R178, R179). -/
def Obligations.PlacementQueries : Prop :=
  ∀ (s : State) (r : Requester) (idx : Word),
    (r = .host → barsOff s = true → Does (.placementQuery r idx) s fun t => t = s) ∧
    ((r = .host → barsOff s = false) → Does (.placementQuery r idx) s fun t => regVal t 0x1000044 = idx ∧ OtherRegs [0x1000044] s t ∧
      t = { s with rf := { s.rf with vals := t.rf.vals },
                   plc := { s.plc with lookup := some ((selVal s r 0x1000040).toNat, regBits s 0x1000048 15 0, idx.toNat), res0 := 0#32, res1 := 0#32 } }) ∧
    (s.plc.lookup = none → Does .placementQueryDone s fun t => t = s) ∧
    (∀ sel ctx i, s.plc.lookup = some (sel, ctx, i) → Does .placementQueryDone s fun t =>
      t = { s with plc := { s.plc with lookup := none, res0 := t.plc.res0, res1 := t.plc.res1 } } ∧
      (lookupDenied s (sel % 64) = true → t.plc.res0 = 0xC0000000#32 ∧ t.plc.res1 = 0#32) ∧
      (lookupDenied s (sel % 64) = false → lookupUnit s sel ctx i = none →
        t.plc.res0 = 0xA0000000#32 ∧ t.plc.res1 = 0#32) ∧
      (∀ u n, lookupDenied s (sel % 64) = false → lookupUnit s sel ctx i = some u → u.t0 = some n →
        t.plc.res0 = placedWord u.pin0 u.moving 0 n ∧ t.plc.res1 = BitVec.ofNat 32 u.heat) ∧
      (∀ u n, lookupDenied s (sel % 64) = false → lookupUnit s sel ctx i = some u → u.t0 = none → u.t1 = some n →
        t.plc.res0 = placedWord u.pin1 u.moving 1 n ∧ t.plc.res1 = BitVec.ofNat 32 u.heat) ∧
      (∀ u n, lookupDenied s (sel % 64) = false → lookupUnit s sel ctx i = some u → u.t0 = none → u.t1 = none →
        (u.home = .port n → t.plc.res0 = placedWord false u.moving 2 n) ∧ (u.home = .peer n → t.plc.res0 = placedWord false u.moving 3 n) ∧
        t.plc.res1 = BitVec.ofNat 32 u.heat)) ∧
    (∀ d : BitVec 3, ((domOf s d.toNat).phase = .running ∨ tilingsDue (domOf s d.toNat) = false → Does (.tilingsInstalled d) s fun t =>
        domOf t d.toNat = { domOf s d.toNat with installing := true } ∧ OtherDoms d.toNat s t ∧ t = { s with arr := { s.arr with doms := t.arr.doms } }) ∧
      ((domOf s d.toNat).phase ≠ .running → tilingsDue (domOf s d.toNat) = true → Does (.tilingsInstalled d) s fun t => t = installTilings s d.toNat))

/-- CAPACITY_REMOVE, CAPACITY_RETURN and DRAIN_COMPLETE (05_placement.md R169 to R171, R181). -/
def Obligations.CapacityChanges : Prop :=
  ∀ (s : State) (r : Requester) (k : BitVec 2) (n : BitVec 3),
    let asked (a : Nat) (u : State) : Prop := regVal u 0x10000C0 = BitVec.ofNat 32 (a * 256 + k.toNat * 16 + n.toNat) ∧ OtherRegs [0x10000C0] s u ∧
      u = { s with rf := { s.rf with vals := u.rf.vals } }
    (locked s 0x10000C0 = true ∨ (r = .host ∧ barsOff s = true) →
      Does (.capacityRemove r ⟨k, n⟩) s (fun t => t = s) ∧ Does (.capacityReturn r ⟨k, n⟩) s fun t => t = s) ∧
    (locked s 0x10000C0 = false → (r = .host → barsOff s = false) →
      (Does (.capacityRemove r ⟨k, n⟩) s fun t => ∃ u, asked 1 u ∧
        (∀ c, removeRefusal u k.toNat n.toNat = some c → t = { u with plc := { s.plc with capSt := 4, capReason := c } }) ∧
        (removeRefusal u k.toNat n.toNat = none → t = startDrain u k.toNat n.toNat)) ∧
      (s.plc.capRun ≠ none → Does (.capacityReturn r ⟨k, n⟩) s fun t => ∃ u, asked 2 u ∧
        t = { u with plc := { s.plc with capSt := 4, capReason := 1 } }) ∧
      (s.plc.capRun = none → capExists k.toNat n.toNat = false ∨ (capOf s k.toNat n.toNat ≠ .out ∧ capOf s k.toNat n.toNat ≠ .lost) →
        Does (.capacityReturn r ⟨k, n⟩) s fun t => ∃ u, asked 2 u ∧ t = { u with plc := { s.plc with capSt := 4, capReason := 2 } }) ∧
      (s.plc.capRun = none → capExists k.toNat n.toNat = true → capOf s k.toNat n.toNat = .lost → Does (.capacityReturn r ⟨k, n⟩) s fun t => ∃ u, asked 2 u ∧
        t = { u with plc := { s.plc with capSt := 4, capReason := 5 } }) ∧
      (s.plc.capRun = none → capExists k.toNat n.toNat = true → capOf s k.toNat n.toNat = .out → Does (.capacityReturn r ⟨k, n⟩) s fun t => ∃ u, asked 2 u ∧
        t.plc.capSt = 3 ∧ t.plc.capReason = 0 ∧ t.plc.capRun = some (false, k.toNat * 8 + n.toNat) ∧ capOf t k.toNat n.toNat = .returning ∧
        t.ctxs = s.ctxs ∧ t.insts = s.insts)) ∧
    (s.plc.capRun ≠ some (true, k.toNat * 8 + n.toNat) ∨ drainBusy s k.toNat n.toNat = true ∨ 0 < drainBytes s k.toNat n.toNat ∨
      (capDies k.toNat n.toNat).any (faultPending s) = true → Does (.drainComplete k n) s fun t => t = s) ∧
    (∀ dest, s.plc.capRun = some (true, k.toNat * 8 + n.toNat) → drainBusy s k.toNat n.toNat = false → drainBytes s k.toNat n.toNat = 0 →
      (capDies k.toNat n.toNat).any (faultPending s) = false → k = 0#2 → s.sec.moving = some (n.toNat, dest) →
      (slotsDrained s n.toNat = false → Does (.drainComplete k n) s fun t => t = drainSlots s n.toNat) ∧
      (slotsDrained s n.toNat = true → Does (.drainComplete k n) s fun t => t = drainLeave s k.toNat n.toNat)) ∧
    (s.plc.capRun = some (true, k.toNat * 8 + n.toNat) → drainBusy s k.toNat n.toNat = false → drainBytes s k.toNat n.toNat = 0 →
      (capDies k.toNat n.toNat).any (faultPending s) = false → s.sec.moving = none →
      Does (.drainComplete k n) s fun t => t.plc.capSt = 2 ∧ t.plc.capReason = 0 ∧ t.plc.capRun = none ∧ capOf t k.toNat n.toNat = .out ∧
        ∃ u, u = drainLeave s k.toNat n.toNat ∧ t = { u with plc := { u.plc with caps := t.plc.caps, capSt := 2, capReason := 0, capRun := none, placing := false } })

namespace Sys2Proof

/-- One Sillage bank is replaced; every other bank and the rest of the state are as before. -/
def BankPut (s t : State) (g : BitVec 3) (b : BitVec 4) (q : Bank) : Prop :=
  bankAt t g.toNat b.toNat = q ∧ (∀ (g' : BitVec 3) (b' : BitVec 4), g' ≠ g ∨ b' ≠ b → bankAt t g'.toNat b'.toNat = bankAt s g'.toNat b'.toNat) ∧
  t = { s with sil := { s.sil with banks := t.sil.banks } }

end Sys2Proof

/-- SEGMENT_DISPATCH, SEGMENT_COMPLETE and SELECTION_FORM (06_sillage.md R191, R193, R197, R205). -/
def Obligations.SillageScans : Prop :=
  ∀ (s : State) (g : BitVec 3) (b : BitVec 4) (k : ScanKey), let q := bankAt s g.toNat b.toNat
    let idle : Prop := Does (.segmentDispatch g b k) s fun t => t = nextCalibration s g.toNat
    (q.st ≠ .inService ∨ q.seg ≠ none ∨ (q.due = true ∧ q.dueAt ≠ s.gt) ∨ groupThrottled s g.toNat = true → idle) ∧
    ((s.sil.scans.find? fun x => x.key = k) = none → idle) ∧
    (∀ sc, (s.sil.scans.find? fun x => x.key = k) = some sc →
      let spilled (p : Nat) : Bool := (pageGroup s k.ctx (scanTensor s k) p).2
      let budget := spillNow s
      let mine := segmentPages (fun p => sc.pages.contains p) spilled (budget.2.1 * pctBytes - budget.2.2) (groupPages s sc g.toNat)
      let sp := mine.filter spilled
      let time := segTicks sc.integ mine.length
      (mine = [] ∨ mayScan s g.toNat sc = false → idle) ∧
      (q.st = .inService → q.seg = none → q.due = false ∨ q.dueAt = s.gt → groupThrottled s g.toNat = false → mine ≠ [] → mayScan s g.toNat sc = true →
        Does (.segmentDispatch g b k) s fun t =>
          bankAt t g.toNat b.toNat = { q with seg := some ⟨k, mine, sp, false⟩, users := (sc.dom * 2 ^ 32 + seqOf s sc.dom k.ctx) :: q.users } ∧
          (∀ (g' : BitVec 3) (b' : BitVec 4), g' ≠ g ∨ b' ≠ b → bankAt t g'.toNat b'.toNat = bankAt s g'.toNat b'.toNat) ∧
          t.sil.scans = s.sil.scans.map (fun x => if x.key = k then
            { x with pages := x.pages.filter (!mine.contains ·), spill := x.spill || decide (sp ≠ []) } else x) ∧
          t.sil.spill = (budget.1, budget.2.1, budget.2.2 + 8192 * sp.length) ∧ t.sil.slice = (chargeSlice s sc.dom time).sil.slice ∧
          (reservedScan s sc = true → ctxOf t k.ctx = { ctxOf s k.ctx with stepTicks := (ctxOf s k.ctx).stepTicks + time }) ∧
          (reservedScan s sc = false → t.ctxs = s.ctxs) ∧ OtherCtxs k.ctx s t ∧
          t = { s with ctxs := t.ctxs, sil := { s.sil with banks := t.sil.banks, scans := t.sil.scans, spill := t.sil.spill, slice := t.sil.slice } })) ∧
    (q.seg = none → ∀ ys, Does (.segmentComplete g b ys) s fun t => t = s) ∧
    (Instr.sillageBankFault g b ∈ s.pending → ∀ ys, Does (.segmentComplete g b ys) s fun t => t = s) ∧
    (∀ seg ys, q.seg = some seg → Instr.sillageBankFault g b ∉ s.pending → seg.dropped = true ∨ (s.sil.scans.find? fun x => x.key = seg.scan) = none →
      Does (.segmentComplete g b ys) s fun t => ∃ u, t = nextCalibration u g.toNat ∧ BankPut s u g b { q with seg := none }) ∧
    (∀ seg sc ys, q.seg = some seg → Instr.sillageBankFault g b ∉ s.pending → seg.dropped = false → (s.sil.scans.find? fun x => x.key = seg.scan) = some sc →
      Does (.segmentComplete g b ys) s fun t => ∃ u v w, t = nextCalibration w g.toNat ∧ BankPut s u g b { q with seg := none } ∧
        v = modScan u seg.scan (fun x => { x with codes := x.codes ++ List.zip (segmentKeys sc seg.pages) (ys.map BitVec.toInt) }) ∧
        w = { v with rf := { s.rf with vals := w.rf.vals } } ∧ OtherRegs [0x1C00080, 0x1C00084, 0x1C00098] s w ∧
        count64 w 0x1C00080 = min (count64 s 0x1C00080 + (segmentKeys sc seg.pages).length) (2 ^ 64 - 1) ∧
        (regVal w 0x1C00098).toNat = min ((regVal s 0x1C00098).toNat + seg.spilled.length) (2 ^ 32 - 1)) ∧
    (∀ sc, (s.sil.scans.find? fun x => x.key = k) = some sc →
      let running := s.sil.banks.any fun e => match e.2.seg with | some g => g.scan = k && !g.dropped | none => false
      (sc.pages ≠ [] ∨ running = true ∨ sc.codes.length ≠ sc.hi - sc.lo → Does (.selectionForm k) s fun t => t = s) ∧
      (sc.pages = [] → running = false → sc.codes.length = sc.hi - sc.lo → Does (.selectionForm k) s fun t =>
        let sel := selectKeys sc.topk (guardWidth sc.guard sc.integ) sc.codes
        ∃ u, u = { s with sil := { s.sil with scans := s.sil.scans.filter fun x => x.key ≠ k }, rf := { s.rf with vals := u.rf.vals } } ∧
          OtherRegs [0x1C00088, 0x1C0008C, 0x1C00090] s u ∧ count64 u 0x1C00088 = min (count64 s 0x1C00088 + 1) (2 ^ 64 - 1) ∧
          t = addRecord u sc.dom k.ctx ⟨k.pos0, k.op, k.head, b2n sel.2 + 16 * b2n sc.spill, sc.hi - sc.lo, sel.1, 0⟩))

/-- CALIBRATION_DUE, CALIBRATION_FIT_DONE, CALIBRATION_INSTALL, CALIBRATION_RETRY and SILLAGE_BANK_FAULT (06_sillage.md R200 to
R207). -/
def Obligations.SillageCalibration : Prop :=
  ∀ (s : State) (g : BitVec 3) (b : BitVec 4), let q := bankAt s g.toNat b.toNat
    (∀ temp : Option (BitVec 16), let due := calDue s b.toNat q (temp.map BitVec.toInt)
      (q.st = .inService → temp ≠ none ∨ quiet s = true → due = true → Does (.calibrationDue ⟨g, b⟩ temp) s fun t =>
        ∃ u, BankPut s u g b { q with due := true, dueAt := s.gt } ∧ t = nextCalibration u g.toNat) ∧
      (q.st ≠ .inService ∨ (temp = none ∧ quiet s = false) ∨ due = false → Does (.calibrationDue ⟨g, b⟩ temp) s fun t => t = s)) ∧
    (∀ gain off temp map span mean sd jump,
      let c : Coef := ⟨gain.toNat, off.toInt, temp.toInt, map⟩
      let ok := plausible q c span mean.toInt sd.toNat jump
      (q.st ≠ .calibrating ∨ q.pending ≠ none → Does (.calibrationFitDone g b gain off temp map span mean sd jump) s fun t => t = bootAdvance s) ∧
      (q.st = .calibrating → q.pending = none → ok = true → Does (.calibrationFitDone g b gain off temp map span mean sd jump) s fun t =>
        ∃ u, BankPut s u g b { q with pending := some c } ∧ t = bootAdvance u) ∧
      (q.st = .calibrating → q.pending = none → ok = false → q.consec + 1 < 3 → Does (.calibrationFitDone g b gain off temp map span mean sd jump) s fun t =>
        ∃ u v, OtherRegs [0x1C000A0] s u ∧ (regVal u 0x1C000A0).toNat = min ((regVal s 0x1C000A0).toNat + 1) (2 ^ 32 - 1) ∧
          u = { s with rf := { s.rf with vals := u.rf.vals } } ∧
          BankPut u v g b { q with st := .inService, stale := false, consec := q.consec + 1, retryAt := some (s.gt + 1000000), entering := false, dueAt := (if q.entering = true then s.gt else q.dueAt) } ∧
          t = bootAdvance (nextCalibration v g.toNat)) ∧
      (q.st = .calibrating → q.pending = none → ok = false → 3 ≤ q.consec + 1 → Does (.calibrationFitDone g b gain off temp map span mean sd jump) s fun t =>
        ∃ u v, OtherRegs [0x1C000A0] s u ∧ (regVal u 0x1C000A0).toNat = min ((regVal s 0x1C000A0).toNat + 1) (2 ^ 32 - 1) ∧
          BankPut u v g b { q with st := .failed, stale := false, consec := q.consec + 1, retryAt := none } ∧
          t = bootAdvance (nextCalibration (fault v { cls := 0x0D, unit := unitId 9 (g.toNat * 16 + b.toNat), outcome := 3, permanent := true }) g.toNat))) ∧
    (∀ c, q.pending = some c → (q.users.any (opRuns s) = true → Does (.calibrationInstall g b) s fun t => t = bootAdvance s) ∧
      (q.users.any (opRuns s) = false → Does (.calibrationInstall g b) s fun t => ∃ u, BankPut s u g b
        { q with st := .inService, stale := false, pending := none, coef := c, consec := 0, calcnt := min (q.calcnt + 1) (2 ^ 32 - 1),
                 calgt := s.gt, users := [], retryAt := none, entering := false, dueAt := (if q.entering = true then s.gt else q.dueAt) } ∧ t = bootAdvance (nextCalibration u g.toNat))) ∧
    (∀ lim, q.retryAt = some lim → (s.gt < lim → Does (.calibrationRetry g b) s fun t => t = s) ∧
      (lim ≤ s.gt → Does (.calibrationRetry g b) s fun t => ∃ u, BankPut s u g b { q with due := true, dueAt := s.gt, retryAt := none } ∧ t = nextCalibration u g.toNat)) ∧
    (q.st = .off ∨ q.st = .failed → Does (.sillageBankFault g b) s fun t => t = s) ∧
    (q.st ≠ .off → q.st ≠ .failed → Does (.sillageBankFault g b) s fun t => ∃ u, BankPut (requeue s q) u g b
        { bankAt (requeue s q) g.toNat b.toNat with st := .failed, stale := false, pending := none, seg := none, due := false, retryAt := none } ∧
      t = nextCalibration (fault u { cls := 0x0D, unit := unitId 9 (g.toNat * 16 + b.toNat), outcome := 3, permanent := true }) g.toNat)

namespace Sys2Proof

/-- One channel of the base is replaced; every other channel and the rest of the state are as before. -/
def ChanPut (s t : State) (ch : Nat) (c : Channel) : Prop :=
  chanOf t ch = c ∧ (∀ k, k ≠ ch → chanOf t k = chanOf s k) ∧ t = { s with base := { s.base with chans := t.base.chans } }

/-- One flow of the base is replaced; every other flow and the rest of the state are as before. -/
def FlowPut (s t : State) (k : Nat) (f : Flow) : Prop :=
  flowOf t k = f ∧ (∀ j, j ≠ k → flowOf t j = flowOf s j) ∧ t = { s with base := { s.base with flows := t.base.flows } }

/-- A 32-bit counter rises by a number, saturating; every other register and the rest of the state are as before, but for what reads of the
tick return (07_skeltil_base.md R257). -/
def Counted (s t : State) (off n : Nat) : Prop :=
  regVal t off = BitVec.ofNat 32 (min ((regVal s off).toNat + n) (2 ^ 32 - 1)) ∧ OtherRegs [off] s t ∧ t = { s with rf := { s.rf with vals := t.rf.vals, before := t.rf.before } }

end Sys2Proof

/-- The frames of the base (07_skeltil_base.md R227 to R230), the loss of a channel (17_faults.md R534) and bundle replays (R244). -/
def Obligations.LinkFrames : Prop :=
  ∀ (s : State) (ch : BitVec 23) (red : Bool) (f : BitVec 544), let c := chanOf s ch.toNat
    let light := lightOn s ch.toNat
    let z := descramble c.scr f
    let s0 := modChan s ch.toNat fun q => { q with scr := z.2 }
    (chanUp s ch.toNat = false ∨ (light ≠ .operating ∧ light ≠ .gated) → Does (.frameReceive ch red f) s fun t => t = s) ∧
    (chanUp s ch.toNat = false → Does (.channelLossOfSignal ch) s fun t => t = s) ∧
    (chanUp s ch.toNat = true → light = .operating ∨ light = .gated →
      (secded z.1.toNat = none → Does (.frameReceive ch red f) s fun t =>
        t = { s0 with sent := (s.gt, .baseControl 3 ch.toNat c.expect) :: s.sent }) ∧
      (∀ covered fixed, secded z.1.toNat = some (covered, fixed) → let type := covered / 2 ^ 512 % 4
        Does (.frameReceive ch red f) s fun t => ∃ u,
          (fixed = false → u = s0) ∧ (fixed = true → Counted s0 u 0x1800088 1) ∧
          (mayPass s ch.toNat type = false → t = u) ∧
          (mayPass s ch.toNat type = true → type = 2 →
            t = (List.range 8).foldl (fun v i => controlEntry v ch.toNat (covered / 2 ^ (64 * i) % 2 ^ 64)) u) ∧
          (mayPass s ch.toNat type = true → type ≠ 2 → t = takeFrame (lightSeen u ch.toNat) ch.toNat red covered))) ∧
    (∀ covered, let rseq := covered / 2 ^ 514 % 256
      let type := covered / 2 ^ 512 % 4
      let pseq := covered / 2 ^ 522 % 2048
      let w := flowOf s (flowKey s ch.toNat red)
      let known := ∃ e ∈ c.buffer, e.rseq = rseq
      let handed := ∃ e ∈ w.handed, e.pseq = pseq
      (¬ known → slotDrains s ch.toNat = true ∨ (type = 1 ∧ ¬ handed ∧ w.credits = 0) → takeFrame s ch.toNat red covered = s) ∧
      (known ∨ (slotDrains s ch.toNat = false ∧ (type = 1 → handed ∨ 0 < w.credits)) →
        (rseq ≠ c.expect → (chanOf (takeFrame s ch.toNat red covered) ch.toNat).expect = c.expect) ∧
        (rseq = c.expect → type ≠ 1 → (chanOf (takeFrame s ch.toNat red covered) ch.toNat).expect = (rseq + 1) % 256))) ∧
    (∀ rseq : BitVec 8,
      (∀ i, c.buffer.findIdx? (fun f => f.rseq = rseq.toNat) = some i →
        Does (.frameAck ch rseq) s (fun t => ChanPut s t ch.toNat { c with buffer := c.buffer.drop (i + 1) }) ∧
        Does (.frameNak ch rseq) s fun t =>
          Counted { s with sent := ((c.buffer.drop i).map fun e => (s.gt, Sent.baseFrame ch.toNat (frameBits e))).reverse ++ s.sent } t 0x180008C (c.buffer.length - i)) ∧
      (c.buffer.findIdx? (fun f => f.rseq = rseq.toNat) = none →
        Does (.frameAck ch rseq) s (fun t => ChanPut s t ch.toNat c) ∧ Does (.frameNak ch rseq) s fun t => t = s)) ∧
    (∀ (src dst : BitVec 5) (n : BitVec 12), let k := (src.toNat * 64 + dst.toNat) * 2 + b2n red
      Does (.frameCredit src dst red n) s fun t => FlowPut s t k { flowOf s k with credits := min 128 ((flowOf s k).credits + n.toNat) }) ∧
    (chanUp s ch.toNat = true → Does (.channelLossOfSignal ch) s fun t => ∃ u v, ChanPut s u ch.toNat { c with out := true, buffer := [] } ∧
      Counted u v 0x180008C c.buffer.length ∧
      t = fault (c.buffer.foldl (fun w e => resend w (flowKey w ch.toNat e.red) e) v) { cls := 0x03, unit := unitId 4 ch.toNat, outcome := 3, detail := c.buffer.length }) ∧
    (∀ (i : BitVec 5) (b : BitVec 8), ((bundleOf s i.toNat b.toNat).crc = true → Does (.bundleCrcReplay i b) s fun t => Counted s t 0x1800090 1) ∧
      ((bundleOf s i.toNat b.toNat).crc = false → Does (.bundleCrcReplay i b) s fun t => t = s))

namespace Sys2Proof

/-- One laser site is replaced; every other site and the rest of the state are as before. -/
def LaserPut (s t : State) (k : Nat) (l : Laser) : Prop :=
  laserOf t k = l ∧ (∀ j, j ≠ k → laserOf t j = laserOf s j) ∧ t = { s with base := { s.base with lasers := t.base.lasers } }

/-- One steered slot is replaced; every other slot and the rest of the state are as before. -/
def SlotPut (s t : State) (k : Nat) (x : SteerSlot) : Prop :=
  slotOf t k = x ∧ (∀ j, j ≠ k → slotOf t j = slotOf s j) ∧ t = { s with base := { s.base with slots := t.base.slots } }

end Sys2Proof

/-- Steering (07_skeltil_base.md R223, R231, R232) and comb lasers (R235 to R238). -/
def Obligations.SteeringAndLasers : Prop :=
  ∀ (s : State), (∀ (ep : BitVec 5) (plane : BitVec 3) (slot : BitVec 5), let k := slotKey ep.toNat plane.toNat slot.toNat
      let x := slotOf s k
      (∀ line (dest : BitVec 5) d, let ends := steerEnds x ep.toNat dest.toNat
        let late : Prop := ∃ e ∈ ends, ∃ t, tabFind s.base.steered (e * 8 + plane.toNat) = some t ∧ s.gt < t + 1000000
        (freeReceive s plane.toNat dest.toNat k = none → Does (.steerPendingWrite ep plane slot line dest d) s fun t => t = s) ∧
        ∀ r, freeReceive s plane.toNat dest.toNat k = some r → let a : Steer := ⟨line.toNat, dest.toNat, d.toNat, r⟩
          let may : Bool := steerable s ep.toNat plane.toNat slot.toNat a && slotAllowed s ep.toNat dest.toNat slot.toNat d.toNat
          let y : SteerSlot := { x with pend := some a, again := decide (x.st ≠ .unassigned ∧ x.st ≠ .active) }
          (late ∨ may = false → Does (.steerPendingWrite ep plane slot line dest d) s fun t => t = s) ∧
          (¬ late → may = true → Does (.steerPendingWrite ep plane slot line dest d) s fun t => ∃ u,
            u = { s with base := { s.base with steered := ends.foldl (fun m e => tabPut m (e * 8 + plane.toNat) s.gt) s.base.steered } } ∧
            SlotPut u t k { y with owed := slotDoms y })) ∧
      (x.st ≠ .draining ∨ x.again = true → Does (.steerSlotRetune ep plane slot) s fun t => t = s) ∧
      (x.st = .draining → x.again = false → (∀ ch, slotChan s k = some ch → (chanOf s ch).buffer = []) →
        fieldOf (physOf s ep.toNat) * 8 + busOf (24 + plane.toNat) ∉ s.base.dark →
        Does (.steerSlotRetune ep plane slot) s fun t => SlotPut s t k { x with st := .retuning, cur := none }) ∧
      (∀ pass, (x.st = .retuning → pass = true → Does (.steerSlotReady ep plane slot pass) s fun t =>
          SlotPut s t k { x with st := .ready, owed := if x.again = true then x.owed else slotDoms x }) ∧
        (x.st ≠ .retuning ∨ pass = false → Does (.steerSlotReady ep plane slot pass) s fun t => t = s))) ∧
    ∀ (f : BitVec 4) (site : BitVec 3), let k := f.toNat * 8 + site.toNat
      let l := laserOf s k
      ((regVal s 0x1800004).getLsbD 1 = true → l.st = .operating → l.frameAt + 100000 ≤ s.gt →
        ¬(l.bus = some 0 ∧ f.toNat < 8 ∧ pdOf s (41 + f.toNat) = .on) → (∀ b, l.bus = some b → feedsLinks s f.toNat b = false) →
        Does (.laserGate f site) s fun t => LaserPut s t k { l with st := .gated, checked := some s.gt }) ∧
      ((regVal s 0x1800004).getLsbD 1 = false ∨ l.st ≠ .operating ∨ s.gt < l.frameAt + 100000 ∨ (l.bus = some 0 ∧ f.toNat < 8 ∧ pdOf s (41 + f.toNat) = .on) ∨
          (∃ b, l.bus = some b ∧ feedsLinks s f.toNat b = true) →
        Does (.laserGate f site) s fun t => t = s) ∧
      (l.st = .gated → Does (.laserUngate f site) s fun t => ∃ u, LaserPut s u k { l with st := .operating, frameAt := s.gt, checked := some (s.gt + 3000) } ∧ t = resendHanded u) ∧
      (l.st ≠ .gated → Does (.laserUngate f site) s fun t => t = s) ∧
      (l.st = .operating → Does (.laserFailure f site) s fun t => t = failLaser s f.toNat site.toNat false ∧
        (l.bus = none → ∃ u, LaserPut s u k { l with st := .failed, bus := none, mon := 0 } ∧
          t = fault u { cls := 0x05, unit := unitId 6 k, outcome := 3, permanent := true })) ∧
      (l.st ≠ .operating → Does (.laserFailure f site) s fun t => t = s) ∧
      (∀ i, siteOn s f.toNat site.toNat = some i → k ∈ s.base.dark → (laserOf s (f.toNat * 8 + i)).st = .operating →
        Does (.laserFailoverDone f site) s fun t => ∃ u v, u = { s with base := { s.base with dark := s.base.dark.filter (· ≠ k) } } ∧ Counted u v 0x1800098 1 ∧
          t = resendHanded ((litBy v f.toNat site.toNat).foldl returnChannel v)) ∧
      (∀ ua pass, (l.st ≠ .gated → l.st ≠ .standby → Does (.diagnosticPulse f site ua pass) s fun t => t = s) ∧
        (l.st = .gated ∨ l.st = .standby → pass = true → Does (.diagnosticPulse f site ua pass) s fun t => LaserPut s t k { l with checked := some s.gt, mon := ua.toNat }) ∧
        (l.st = .gated ∨ l.st = .standby → pass = false → Does (.diagnosticPulse f site ua pass) s fun t => ∃ u, LaserPut s u k { l with mon := ua.toNat } ∧
          t = failLaser u f.toNat site.toNat false))

/-- RING_UNLOCK, RING_SWEEP_DONE, LANE_REPLACE, PATH_REMAP and BASE_TEMP_PUBLISH (07_skeltil_base.md R219, R239, R241, R245). -/
def Obligations.RingsAndLanes : Prop :=
  ∀ (s : State), (∀ (r : BitVec 18), let x := tabGet s.base.rings {} r.toNat
      let ringPut (s t : State) (y : Ring) : Prop := tabGet t.base.rings {} r.toNat = y ∧ (∀ j, j ≠ r.toNat → tabGet t.base.rings {} j = tabGet s.base.rings {} j) ∧
        t = { s with base := { s.base with rings := t.base.rings } }
      (Does (.ringUnlock r false) s fun t => t = s) ∧
      (∀ light, ringExists r.toNat = false ∨ ringOn s r.toNat = false → Does (.ringUnlock r light) s fun t => t = s) ∧
      (ringExists r.toNat = true → ringOn s r.toNat = true → Does (.ringUnlock r true) s fun t => ∃ u,
        ringPut s u { x with st := .acquiring, sweeps := 0, at_ := s.gt, injected := false } ∧
        t = if chanUp s (ringChan r.toNat) then dropChannel u (ringChan r.toNat) else u) ∧
      (∀ lock, x.st ≠ .acquiring → Does (.ringSweepDone r lock) s fun t => t = bootAdvance (setOptics s)) ∧
      (x.st = .acquiring → Does (.ringSweepDone r true) s fun t => ∃ u, ringPut s u {} ∧
        t = bootAdvance (setOptics (fault (returnChannel u (ringChan r.toNat)) { cls := 0x04, unit := unitId 5 r.toNat, outcome := 0, since := some x.at_, injected := x.injected }))) ∧
      (x.st = .acquiring → x.sweeps + 1 < 3 → Does (.ringSweepDone r false) s fun t => ∃ u, ringPut s u { x with sweeps := x.sweeps + 1 } ∧ t = bootAdvance (setOptics u)) ∧
      (x.st = .acquiring → 3 ≤ x.sweeps + 1 → Does (.ringSweepDone r false) s fun t => ∃ u v, ringPut s u { x with st := .failed, sweeps := 3 } ∧
        Counted (dropSlots u (ringChan r.toNat)) v 0x180009C 1 ∧
        t = bootAdvance (setOptics (fault v { cls := 0x04, unit := unitId 5 r.toNat, outcome := 3, permanent := true, since := some x.at_, injected := x.injected })))) ∧
    (∀ (i : BitVec 5) (b : BitVec 8) (lane : BitVec 6) (errs : BitVec 16), let x := bundleOf s i.toNat b.toNat
      let bundlePut (s t : State) (y : Bundle) : Prop := bundleOf t i.toNat b.toNat = y ∧
        (∀ j, j ≠ i.toNat * 256 + b.toNat → tabGet t.base.bundles {} j = tabGet s.base.bundles {} j) ∧ t = { s with base := { s.base with bundles := t.base.bundles } }
      let sum := min 255 ((if x.window ≠ s.gt / 1000000 then 0 else x.errs) + errs.toNat)
      let a : FaultArgs := { cls := 0x01, unit := unitId 3 (i.toNat * 2 ^ 16 + b.toNat * 2 ^ 8 + lane.toNat), outcome := 2, cause := lane.toNat }
      (bundleCount i.toNat ≤ b.toNat → Does (.laneReplace i b lane errs) s fun t => t = s) ∧
      (b.toNat < bundleCount i.toNat → x.disabled = true ∨ errs.toNat ≤ x.thresh → Does (.laneReplace i b lane errs) s fun t =>
        bundlePut s t { x with errs := sum, window := s.gt / 1000000 }) ∧
      (b.toNat < bundleCount i.toNat → x.disabled = false → x.thresh < errs.toNat → x.spares < spareLimit x → Does (.laneReplace i b lane errs) s fun t => ∃ u v,
        bundlePut s u { x with errs := sum, window := s.gt / 1000000, spares := x.spares + 1, lastLane := lane.toNat } ∧ Counted u v 0x1800094 1 ∧ t = fault v a) ∧
      (b.toNat < bundleCount i.toNat → x.disabled = false → x.thresh < errs.toNat → spareLimit x ≤ x.spares → Does (.laneReplace i b lane errs) s fun t => ∃ u,
        bundlePut s u { x with errs := sum, window := s.gt / 1000000 } ∧ t = fault u { a with outcome := 0 })) ∧
    (∀ (e : BitVec 5), (30 ≤ e.toNat → Does (.pathRemap e) s fun t => t = s) ∧
      (e.toNat < 30 → Does (.pathRemap e) s fun t => (runningDoms (failPath s e.toNat) ≠ [] → t = failPath s e.toNat) ∧
        (runningDoms (failPath s e.toNat) = [] → t = installRemaps (failPath s e.toNat)) ∧
        let p := physOf s e.toNat
        let u : State := { s with base := { s.base with failed := ascending (p :: s.base.failed) } }
        let v := (s.base.chans.filter fun c => chSrc c.1 = p || chDst c.1 = p).foldl (fun t c => dropChannel t c.1) u
        (p ∉ s.base.failed → e.toNat ∉ s.base.lostEps → freeSpare v = none →
          failPath s e.toNat = loseEndpoint (fault v { cls := 0x06, unit := unitId 7 p, outcome := 3, permanent := true }) e.toNat))) ∧
    ∀ dies fields, Does (.baseTempPublish dies fields) s fun t => ∃ u, u = { s with base := { s.base with temps := u.base.temps, fieldTemps := u.base.fieldTemps } } ∧
      u.base.fieldTemps = (fields.take 12).map BitVec.toInt ∧
      (∀ (i : Nat) z, (dies.take 21)[i]? = some z → tabGet u.base.temps {} i = dieEstimate s i z.toInt) ∧
      (∀ i, (dies.take 21)[i]? = none → tabGet u.base.temps {} i = tabGet s.base.temps {} i) ∧
      t = publishTemps u

namespace Sys2Proof

/-- What a merging router or endpoint does with a packet of an output port (03_harrel_stacks.md R81): merged into an open
accumulator of its reduction, forwarded by `go`, or given a free accumulator for a window of ticks. `merged` says whether it merged. -/
def Meets (s : State) (place : C3Place) (port slots src window : Nat) (merging : Bool) (p : C3Packet) (go : State → C3Packet → State) (merged : Bool) (t : State) : Prop :=
  let mine (a : MergeAcc) : Bool := decide (a.place = place) && decide (a.port = port)
  let acc := s.arr.accs.find? fun a => mine a && decide (a.packet.key = p.key)
  let put (as : List MergeAcc) : State := { s with arr := { s.arr with accs := as } }
  (merging = false → merged = false ∧ t = go s p) ∧
  (∀ a, merging = true → acc = some a → let q := mergePackets src a.packet p
    merged = true ∧ (q.count = p.key.expect → t = go (put (dropFirst (fun b => decide (b = a)) s.arr.accs)) q) ∧
    (q.count ≠ p.key.expect → t = put (dropFirst (fun b => decide (b = a)) s.arr.accs ++ [{ a with packet := q }]))) ∧
  (merging = true → acc = none → merged = false ∧
    (p.count = p.key.expect ∨ slots ≤ (s.arr.accs.filter mine).length → t = go s p) ∧
    (p.count ≠ p.key.expect → (s.arr.accs.filter mine).length < slots → t = put (s.arr.accs ++ [⟨place, port, p, s.gt + window⟩])))

/-- A C3 packet waits in an input buffer of a router (03 R73, R74), from which the meshes move it on at the ticks; other stacks and the rest of
the state are as before. -/
def WaitsAt (s t : State) (router port : Nat) (p : C3Packet) : Prop := let n := router / 256
  (∃ w : MeshWait, (stackOf t n).waits = (stackOf s n).waits ++ [w] ∧ w.at_ = router ∧ w.inPort = port ∧ w.pkt = c3Pkt n p) ∧
  OtherStacks n s t ∧ t = { s with arr := { s.arr with memStacks := t.arr.memStacks } }

end Sys2Proof

/-- In-network reduction (03_harrel_stacks.md R80 to R82, R86; 07_skeltil_base.md R233). That an accumulator's window is counted in ticks is the
model's choice (notes/assumptions/21.md). -/
def Obligations.MeshMerging : Prop :=
  (∀ (src : Nat) (a b : C3Packet), let q := mergePackets src a b
    q.key = a.key ∧ q.src = src ∧ q.count = a.count + b.count ∧ q.flush = a.flush + b.flush ∧ q.trunc = a.trunc + b.trunc ∧
    q.poison = (a.poison || b.poison) ∧
    ∀ (i : Nat) x y, a.data[i]? = some x → b.data[i]? = some y → q.data[i]? = some (xaccAdd (if a.key.wide then 144 else 112) x y)) ∧
  (∀ (s : State) (t : BitVec 11) (p : C3Packet), let r := c3Route t.toNat p.key
    let edge := tileY t.toNat = 0 ∨ tileY t.toNat = 7
    let s1 := countFixed (land s (.router t.toNat) p) (t.toNat / 256) p
    (∀ port, WaitsAt s (routerGo t.toNat port s p) t.toNat port p) ∧
    (tileValid t.toNat = false ∨ packetOk p = false → Does (.c3PacketArrival t p) s fun v => v = s1) ∧
    (tileValid t.toNat = true → packetOk p = true →
      Does (.c3PacketArrival t p) s fun v => ∃ m u, Meets s1 (.router t.toNat) r.1 (if edge then 4 else 2) t.toNat (windowTicks s (t.toNat / 256))
          (routerMerges s t.toNat && decide (r.1 ≠ 5)) { p with fixed := 0 } (routerGo t.toNat p.via) m u ∧ (m = false → v = u) ∧
        (m = true → (stackOf v (t.toNat / 256)).tel.merges = min ((stackOf u (t.toNat / 256)).tel.merges + 1) (2 ^ 64 - 1) ∧
          OtherStacks (t.toNat / 256) u v ∧ v = { u with arr := { u.arr with memStacks := v.arr.memStacks } }))) ∧
  (∀ (s : State) (t : BitVec 11) (k : C3Key), let acc := s.arr.accs.find? fun a => decide (a.place = .router t.toNat) && decide (a.packet.key = k)
    (acc = none → Does (.mergeWindowExpiry t k) s fun v => v = s) ∧
    ∀ a, acc = some a → (¬ RunOut s a.closes → Does (.mergeWindowExpiry t k) s fun v => v = s) ∧
      (RunOut s a.closes → Does (.mergeWindowExpiry t k) s fun v =>
        WaitsAt { s with arr := { s.arr with accs := dropFirst (fun b => decide (b = a)) s.arr.accs } } v t.toNat 8 a.packet)) ∧
  ∀ (s : State) (n : BitVec 3) (inward : Bool), let place : C3Place := if inward then .ingress n.toNat else .egress n.toNat
    (∀ p : C3Packet, let u := countFixed (land s place p) n.toNat p
      let port := if inward then tileX p.key.dst * 8 + edgeRow (tileY p.key.dst) else p.key.dst / 256
      let slots := if 64 ≤ (s.arr.accs.filter fun a => decide (a.place = place)).length then 0 else 64
      (tileValid p.key.dst = false ∨ tileValid p.src = false → Does (.epC3PacketArrival n inward p) s fun v => v = u) ∧
      (tileValid p.key.dst = true → tileValid p.src = true → Does (.epC3PacketArrival n inward p) s fun v => ∃ m w,
        Meets u place port slots p.src (stackOf s n.toNat).epWindow (stackOf s n.toNat).epRed { p with fixed := 0 } (endpointGo n.toNat inward) m w ∧
        (m = false → v = w) ∧ (m = true → v = bump64 w 0x18000A0 1))) ∧
    ∀ k : C3Key, let acc := s.arr.accs.find? fun a => decide (a.place = place) && decide (a.packet.key = k)
      (acc = none → Does (.epMergeWindowExpiry n inward k) s fun v => v = s) ∧
      ∀ a, acc = some a → (¬ RunOut s a.closes → Does (.epMergeWindowExpiry n inward k) s fun v => v = s) ∧
        (RunOut s a.closes → Does (.epMergeWindowExpiry n inward k) s fun v =>
          v = endpointGo n.toNat inward { s with arr := { s.arr with accs := dropFirst (fun b => decide (b = a)) s.arr.accs } } a.packet ∧
          (inward = false ∨ a.packet.key.strip = true → v.arr.flights.length = s.arr.flights.length + 1) ∧ v.rf = s.rf)

/-- REDUCTION_ADD, REISSUE_ATTEMPT, FREEZE, TEL_CLR and TILE_SILENT (03_harrel_stacks.md R75, R76, R83, R84, R87, R92, R99; 02_arithmetic.md R52;
17_faults.md R535). -/
def Obligations.ReductionAdds : Prop :=
  (∀ (s : State) (t : BitVec 11) (p : C3Packet), let n := t.toNat / 256
    let u := land s (.adder t.toNat) p
    let bad := Does (.reductionAdd t p) s fun v => v = reductionFault u t.toNat false
    (tileValid t.toNat = false → Does (.reductionAdd t p) s fun v => v = u) ∧
    (tileValid t.toNat = true → p.poison = true → Does (.reductionAdd t p) s fun v => v = tileFault u t.toNat true) ∧
    (tileValid t.toNat = true → p.poison = false →
      ((stackOf s n).domain = none ∨ (∃ d, (stackOf s n).domain = some d ∧ ((domOf s d).batch = none ∨ ((domOf s d).phase ≠ .running ∧ (domOf s d).phase ≠ .aborted))) →
        Does (.reductionAdd t p) s fun v => v = tileFault u t.toNat false) ∧
      ∀ d b, (stackOf s n).domain = some d → (domOf s d).batch = some b →
        ((domOf s d).phase = .aborted → Does (.reductionAdd t p) s fun v => v = u) ∧
        ((domOf s d).phase = .running →
          let cur (k : C3Key) : Bool := decide (k.opseq = (domOf s d).opseq % 65536) && decide (k.attempt = b.attempt % 16)
          let kept := (stackOf s n).dests.filter fun r => cur r.key
          let found := kept.find? fun r => decide (r.key.dst = t.toNat) && sameRange r.key p.key
          (cur p.key = false → bad) ∧
          (cur p.key = true → found = none → Does (.reductionAdd t p) s fun v => v = tileFault u t.toNat false) ∧
          ∀ r, cur p.key = true → found = some r →
            let q := match r.sum with | some a => mergePackets t.toNat a p | none => p
            (r.awaits p ≠ p.key ∨ q.key.expect < q.count → bad) ∧
            (r.awaits p = p.key → q.count ≤ q.key.expect → Does (.reductionAdd t p) s fun v =>
              (stackOf v n).dests = dropFirst (fun x => decide (x = r)) kept ++ [{ r with key := q.key, sum := some q, done := decide (q.count = q.key.expect) }] ∧
              OtherStacks n s v ∧ v = { u with arr := { u.arr with memStacks := v.arr.memStacks } })))) ∧
  (∀ (s : State) (d : BitVec 3), let x := domOf s d.toNat
    (x.batch = none ∨ x.phase ≠ .aborted ∨ x.halted = true → Does (.reissueAttempt d) s fun t => t = s) ∧
    ∀ b, x.batch = some b → x.phase = .aborted → x.halted = false →
      ((∃ p, p ∈ meshPackets s ∧ p.key.attempt = b.attempt % 16 ∧ ∃ r, r ∈ b.rows ∧ r.ctx = p.key.ctx) → Does (.reissueAttempt d) s fun t => t = s) ∧
      ((∀ p, p ∈ meshPackets s → p.key.attempt = b.attempt % 16 → ∀ r, r ∈ b.rows → r.ctx ≠ p.key.ctx) →
        Does (.reissueAttempt d) s fun t => OtherDoms d.toNat s t ∧ (domOf t d.toNat).phase = .readying ∧ (domOf t d.toNat).ready = [] ∧ (domOf t d.toNat).readyBy = none ∧
          (∃ c, (domOf t d.toNat).batch = some c ∧ c.inst = b.inst ∧ c.step = b.step ∧ c.op = b.op ∧ c.attempt = b.attempt + 1 ∧ c.result = none ∧ c.rangeFault = false ∧
            c.rows.length = b.rows.length ∧ ∀ (i : Nat) r, b.rows[i]? = some r → ∃ y, c.rows[i]? = some y ∧ y.overRange = false ∧
              (r.overRange = true → r.status = 0 → y.raise = r.raise + 1 ∧ y.arith = true) ∧ (r.overRange = false ∨ r.status ≠ 0 → y = { r with overRange := false })) ∧
          (∀ c, (∀ r, r ∈ b.rows → r.overRange = true → r.status = 0 → r.ctx ≠ c) → ctxOf t c = ctxOf s c) ∧ (∀ o, regVal t o = regVal s o) ∧ t.mem = s.mem ∧ t.flt = s.flt)) ∧
  (∀ (s : State) (r : Requester) (n : BitVec 3) (on clr : Bool), let c : Instr := if clr then .telClr r ⟨n, on⟩ else .freeze r ⟨n, on⟩
    let k := stackOf s n.toNat
    let tel := if clr then clearTel k else k.tel
    let busy := match k.domain with | some d => decide ((domOf s d).phase = .running) | none => false
    (r = .host → barsOff s = true → Does c s fun t => t = s) ∧
    ((r = .host → barsOff s = false) → Does c s fun t => stackOf t n.toNat = { k with tel := tel, frozen := if on then some ⟨tel, occupancies k.waits, s.gt, busy⟩ else none } ∧
      OtherStacks n.toNat s t ∧ (regVal t (0x2000100 + n.toNat * 0x100000)).getLsbD 1 = on ∧ OtherRegs [0x2000100 + n.toNat * 0x100000] s t ∧
      t = { s with arr := { s.arr with memStacks := t.arr.memStacks }, rf := { s.rf with vals := t.rf.vals } })) ∧
  ∀ (s : State) (t : BitVec 11) (forwards : Bool), let dom := (stackOf s (t.toNat / 256)).domain
    (dom = none ∨ tileValid t.toNat = false → Does (.tileSilent ⟨t, forwards⟩) s fun v => v = s) ∧
    ∀ d, dom = some d → ((domOf s d).phase ≠ .running → Does (.tileSilent ⟨t, forwards⟩) s fun v => v = s) ∧
      ((domOf s d).phase = .running → tileValid t.toNat = true → Does (.tileSilent ⟨t, true⟩) s (fun v => v = loseTile s t.toNat false) ∧
        Does (.tileSilent ⟨t, false⟩) s fun v => v = loseDie s (if tileUp t.toNat then upperDie (t.toNat / 256) else t.toNat / 256) 0x09 0 false)

/-- Refresh, scrub, regions and zeroing (08_memory_tiers.md R260, R263, R285, R287, R291). -/
def Obligations.ReservoirsAndRegions : Prop :=
  (∀ (s : State) (j : BitVec 3) (bank : BitVec 7), let r := rsvOf s j.toNat
    (72 ≤ bank.toNat ∨ dieUp s (8 + j.toNat) = false → Does (.reservoirRefresh j bank) s fun t => t = s) ∧
    (bank.toNat < 72 → dieUp s (8 + j.toNat) = true → Does (.reservoirRefresh j bank) s fun t =>
      tabGet (rsvOf t j.toNat).rows 0 bank.toNat = (tabGet r.rows 0 bank.toNat + 1) % 4096 ∧
      (∀ b, b ≠ bank.toNat → tabGet (rsvOf t j.toNat).rows 0 b = tabGet r.rows 0 b) ∧ (rsvOf t j.toNat).self_ = r.self_ ∧
      (rsvTemp s j.toNat = none → (rsvOf t j.toNat).hot = true ∧ (rsvOf t j.toNat).calm = none) ∧
      (∀ x, rsvTemp s j.toNat = some x → ((rsvOf t j.toNat).hot = true ↔ r.hot = true ∨ 85 * 16 < x) ∧
        ((rsvOf t j.toNat).calm = if x ≤ 82 * 16 then some (r.calm.getD s.gt) else none)) ∧
      (∀ k, k ≠ j.toNat → rsvOf t k = rsvOf s k) ∧ t = { s with mem := { s.mem with rsv := t.mem.rsv } }) ∧
    (r.self_ = true ∨ (∀ c, r.calm = some c → s.gt < c + 5000000) → Does (.refreshIntervalRelax j) s fun t => t = s) ∧
    (∀ c, r.self_ = false → r.calm = some c → c + 5000000 ≤ s.gt → Does (.refreshIntervalRelax j) s fun t => rsvOf t j.toNat = { r with hot := false } ∧
      (∀ k, k ≠ j.toNat → rsvOf t k = rsvOf s k) ∧ t = { s with mem := { s.mem with rsv := t.mem.rsv } })) ∧
  (∀ (s : State) (j : BitVec 3) (off : BitVec 33) (errs : BitVec 2), let base := 0x2801000 + j.toNat * 0x1000
    (dieUp s (8 + j.toNat) = false ∨ 0x120000000 ≤ off.toNat ∨ errs = 0#2 → Does (.reservoirScrub j off errs) s fun t => t = s) ∧
    (dieUp s (8 + j.toNat) = true → off.toNat < 0x120000000 → errs = 1#2 → Does (.reservoirScrub j off errs) s fun t => Counted s t (base + 4) 1) ∧
    (dieUp s (8 + j.toNat) = true → off.toNat < 0x120000000 → 2 ≤ errs.toNat → Does (.reservoirScrub j off errs) s fun t => ∃ u v,
      let addr := 0x100000000000 + j.toNat * 0x000200000000 + off.toNat
      Counted s u (base + 8) 1 ∧ (copyAt s j.toNat addr = none → v = u) ∧
      (∀ c, copyAt s j.toNat addr = some c → ∃ w x, w = updUnits u (fun x => x.key = c.key) (fun x => { x with t1 := none, t0 := if x.pin0 then x.t0 else none }) ∧
        Counted w x (base + 0xC) 1 ∧ Counted x v 0x1000088 (b2n (c.key.kind = .sketch))) ∧
      t = fault v { cls := 0x0E, unit := unitId 0x0C 0, outcome := 0, addr := addr, detail := b2n (copyAt s j.toNat addr).isSome })) ∧
  (∀ (s : State) (n : BitVec 8) (base limit : BitVec 24) (attr : Word), Does (.regionEntryChange n base limit attr) s fun t =>
    tabGet t.mem.regions {} n.toNat = ⟨base.toNat, limit.toNat, attr.getLsbD 31, attr.getLsbD 30, attr.getLsbD 29, attr.getLsbD 28, bits attr 15 8⟩ ∧
    (∀ k, k ≠ n.toNat → tabGet t.mem.regions {} k = tabGet s.mem.regions {} k) ∧
    (∀ a, let g := a / 2 ^ 21
      (a < 0x140000000000 → granuleTag s.mem g ≠ granuleTag t.mem g → memByte t a = 0#8 ∧ g ∉ t.mem.clean) ∧
      (0x140000000000 ≤ a ∨ granuleTag s.mem g = granuleTag t.mem g → memByte t a = memByte s a)) ∧
    t = { s with mem := { s.mem with regions := t.mem.regions, clean := t.mem.clean, cells := t.mem.cells } }) ∧
  ∀ (s : State) (g : BitVec 24), (zeroable (placeOf s (g.toNat * 2 ^ 21)) = false → Does (.granuleZeroed g) s fun t => t = s) ∧
    (zeroable (placeOf s (g.toNat * 2 ^ 21)) = true → Does (.granuleZeroed g) s fun t => g.toNat ∈ t.mem.clean ∧ (∀ k, k ≠ g.toNat → (k ∈ t.mem.clean ↔ k ∈ s.mem.clean)) ∧
      (∀ a, memByte t a = memByte s a) ∧ t = { s with mem := { s.mem with clean := t.mem.clean } })

/-- DRAM_SCRUB, CHANNEL_RETRAIN and DRAM_TRAINING_DONE (08_memory_tiers.md R270 to R273). -/
def Obligations.BoardDram : Prop :=
  (∀ (s : State) (p : BitVec 2) (off : BitVec 40) (err : CodeRead) (last : Bool),
    (dieUp s (16 + p.toNat) = false ∨ t2Size s ≤ off.toNat → Does (.dramScrub p off err last) s fun t => t = s) ∧
    (dieUp s (16 + p.toNat) = true → off.toNat < t2Size s → Does (.dramScrub p off err last) s fun t => ∃ u,
      (last = false → u = s) ∧ (last = true → portMem u p.toNat = { portMem s p.toNat with scrubs := min ((portMem s p.toNat).scrubs + 1) (2 ^ 32 - 1) }) ∧
      (∀ q, q ≠ p.toNat → portMem u q = portMem s q) ∧ u = { s with mem := { s.mem with ports := u.mem.ports } } ∧
      let c := (channelOf off.toNat).1
      (codeResult err = .clean → t = u) ∧
      (codeResult err = .corrected → dramOf t p.toNat c = { dramOf u p.toNat c with ce := min ((dramOf u p.toNat c).ce + 1) (2 ^ 32 - 1) } ∧
        (∀ k, k ≠ c → dramOf t p.toNat k = dramOf u p.toNat k) ∧ (∀ q, q ≠ p.toNat → portMem t q = portMem u q) ∧ t = { u with mem := { u.mem with ports := t.mem.ports } }) ∧
      (codeResult err = .uncorrectable → t = t2Uncorrectable u p.toNat off.toNat false))) ∧
  (∀ (s : State) (p : BitVec 2) (c : BitVec 3) (rate : BitVec 4), let x := dramOf s p.toNat c.toNat
    let other := ∃ e, e ∈ (portMem s p.toNat).chans ∧ e.1 ≠ c.toNat ∧ e.2.st = .retraining
    let only (t : State) (y : DramChan) : Prop := dramOf t p.toNat c.toNat = y ∧ (∀ k, k ≠ c.toNat → dramOf t p.toNat k = dramOf s p.toNat k) ∧
      (∀ q, q ≠ p.toNat → portMem t q = portMem s q) ∧ t = { s with mem := { s.mem with ports := t.mem.ports } }
    let due := retrainDue s x rate.toNat
    (x.st ≠ .inService → Does (.channelRetrain p c false rate) s fun t => t = s) ∧
    (x.st = .inService → other ∨ due = false → Does (.channelRetrain p c false rate) s fun t => only t { x with refRate := rate.toNat }) ∧
    (x.st = .inService → ¬ other → due = true → Does (.channelRetrain p c false rate) s fun t =>
      only t { x with st := .retraining, refRate := rate.toNat, retrainAt := s.gt, owed := false }) ∧
    (x.st ≠ .retraining → Does (.channelRetrain p c true rate) s fun t => t = s) ∧
    (x.st = .retraining → Does (.channelRetrain p c true rate) s fun t =>
      only t { x with st := .inService, retrains := min (x.retrains + 1) (2 ^ 16 - 1), refRate := rate.toNat, rateAt := rate.toNat })) ∧
  ∀ (s : State) (p : BitVec 2) (found : List (Bool × BitVec 2 × BitVec 3)), let f := found.headD (false, 0#2, 0#3)
    let alike : Prop := found.length = 8 ∧ (∀ x, x ∈ found → x.1 = true ∧ x.2 = f.2) ∧ 4 ≤ f.2.2.toNat ∧ (f.2.1 = 1#2 ∨ f.2.1 = 2#2) ∧
      (s.mem.chLog = 0 ∨ (s.mem.chLog = f.2.2.toNat ∧ s.mem.ranks = f.2.1.toNat))
    ((dieOf s (16 + p.toNat)).st ≠ .testing ∨ trained s p.toNat = true → Does (.dramTrainingDone p found) s fun t => t = bootAdvance s) ∧
    ((dieOf s (16 + p.toNat)).st = .testing → trained s p.toNat = false → alike → Does (.dramTrainingDone p found) s fun t => ∃ u,
      (∀ c, c < 8 → dramOf u p.toNat c = { dramOf s p.toNat c with st := .inService, retrainAt := s.gt }) ∧ u.mem.chLog = f.2.2.toNat ∧ u.mem.ranks = f.2.1.toNat ∧
      (∀ q, q ≠ p.toNat → portMem u q = portMem s q) ∧ u = { s with mem := { s.mem with ports := u.mem.ports, chLog := u.mem.chLog, ranks := u.mem.ranks } } ∧
      t = bootAdvance (if (dieOf s (16 + p.toNat)).returning then admitDie u (16 + p.toNat) else u)) ∧
    ((dieOf s (16 + p.toNat)).st = .testing → trained s p.toNat = false → ¬ alike → Does (.dramTrainingDone p found) s fun t => ∃ u,
      (∀ c, c < 8 → dramOf u p.toNat c = { dramOf s p.toNat c with st := if (found.getD c (false, 0#2, 0#3)).1 then .inService else .failed }) ∧
      (∀ q, q ≠ p.toNat → portMem u q = portMem s q) ∧ u = { s with mem := { s.mem with ports := u.mem.ports } } ∧ t = bootAdvance (failDie u (16 + p.toNat)))

namespace Sys2Proof

/-- One DMA channel is replaced; every other channel and the rest of the state are as before, but for the most segments in
use. -/
def DmaPut (s t : State) (n : Nat) (c : DmaChan) : Prop :=
  dmaOf t n = c ∧ (∀ k, k ≠ n → dmaOf t k = dmaOf s k) ∧ t = { s with dma := { s.dma with chans := t.dma.chans, hwm := t.dma.hwm } }

/-- A channel's start with its control value, or its restart (10_dma_check.md R334, R341). -/
def DmaStarts (s : State) (n : Nat) (v : Word) (resume : Bool) (t : State) : Prop :=
  let u := modDma (regPut s (dmaOff n 0x14) (v &&& 0x18F0FFFF#32)) n fun q => { q with ctl := v &&& 0x18F0FFFF#32 }
  let c := dmaOf u n
  let bad := dmaConfigBad u n v = true ∨ (resume = true ∧ c.st ≠ .halted)
  (bad → ∃ w, DmaPut u w n { c with done := if resume then c.done else 0 } ∧ t = haltDma w n 8 0) ∧
  (¬ bad → DmaPut u t n { c with st := .running, cause := 0, done := (if resume then c.done else 0), ahead := [], fail := 0, start := (if resume then c.done * 128 - dmaDst s n % 128 else 0), data := [], retries := 0, serves := none, readBy := hostBy s (bits v 23 22) } ∧
    t.dma.hwm = max s.dma.hwm (segsInUse t))

end Sys2Proof

/-- DMA_GO, DMA_RESUME and DMA_ABORT (10_dma_check.md R331 to R334, R341, R342). -/
def Obligations.DmaChannels : Prop :=
  ∀ (s : State) (n : BitVec 6) (v : Word), let c := dmaOf s n.toNat
    let off := dmaOff n.toNat 0x14
    (∀ (resume : Bool), let cmd (b : DmaBy) : Instr := if resume then .dmaResume n b v else .dmaGo n b v
      (∀ r, let may := coresMay r = true ∧ 56 ≤ n.toNat ∧ (v.getLsbD 28 = true → r = .secure)
        (¬ may → Does (cmd (.write r)) s fun t => t = logRefused s r off v stDenied) ∧
        (may → c.stopping = false → c.st = .running → Does (cmd (.write r)) s fun t => t = logRefused s r off v stCtxState) ∧
        (may → c.stopping = false → c.st ≠ .running → Does (cmd (.write r)) s fun t => DmaStarts s n.toNat v resume t) ∧
        (may → c.stopping = true → Does (cmd (.write r)) s fun t => DmaStarts (haltDma s n.toNat 7 0) n.toNat v resume t)) ∧
      ∀ src dst cnt, (56 ≤ n.toNat ∨ c.st = .running → Does (cmd (.loader src dst cnt)) s fun t => t = s) ∧
        (n.toNat < 56 → c.st ≠ .running → Does (cmd (.loader src dst cnt)) s fun t => ∃ u, dmaSrc u n.toNat = src.toNat ∧ dmaDst u n.toNat = dst.toNat ∧
          dmaCount u n.toNat = cnt.toNat ∧ (∀ o, (∀ r, r ∈ [0, 4, 8, 12, 16] → o ≠ dmaOff n.toNat r) → regVal u o = regVal s o) ∧
          u = { s with rf := { s.rf with vals := u.rf.vals } } ∧ DmaStarts u n.toNat (setBits v 27 27 (b2n (decide (48 ≤ n.toNat)))) resume t)) ∧
    ∀ r, let may := coresMay r = true ∧ 56 ≤ n.toNat
      (¬ may → Does (.dmaAbort n r) s fun t => t = logRefused s r off 0x40000000#32 stDenied) ∧
      (may → c.st = .running → Does (.dmaAbort n r) s fun t => DmaPut s t n.toNat { c with stopping := true } ∧ t.dma.hwm = s.dma.hwm) ∧
      (may → c.stopping = true → let t := settleAbort s n.toNat
        t = haltDma s n.toNat 7 0 ∧ dmaOf t n.toNat = { c with st := .halted, cause := 7, fail := 0, readBy := none, stopping := false, haltAt := s.gt, serves := none }) ∧
      (may → c.st ≠ .running → Does (.dmaAbort n r) s fun t => t = s)

/-- DMA_READ_COMPLETE and DMA_LINE_COMMIT (10_dma_check.md R333 to R338): what lies in another device's memory is asked for or sent there. -/
def Obligations.DmaMoves : Prop :=
  (∀ (d : Nat) (l : List Nat), l.length ≤ 256 → let p := prefixRun 257 d l
    d ≤ p.1 ∧ (∀ j, d ≤ j → j < p.1 → j ∈ l) ∧ p.1 ∉ l ∧ ∀ j, j ∈ p.2 ↔ j ∈ l ∧ (j < d ∨ p.1 ≤ j)) ∧
  ∀ (s : State) (n : BitVec 6), let c := dmaOf s n.toNat
    let v := dmaCtl s n.toNat
    let who := actsAs s (v.getLsbD 28) (bits v 15 0)
    (∀ bs : List Byte, let a := dmaSrc s n.toNat + c.start + c.data.length
      let may := mayTake s n.toNat bs.length
      let takes (data : List Byte) (u t : State) : Prop := DmaPut { u with dma := { u.dma with retries := u.dma.retries.filter fun r => r.access ≠ .dmaRead n } } t n.toNat
        { c with data := c.data ++ data, readBy := hostBy s (bits v 23 22) } ∧ t.dma.hwm = max s.dma.hwm (segsInUse t)
      (may = true → c.st = .running ∧ 0 < bs.length ∧ bs.length ≤ 4096 ∧ c.start + c.data.length + bs.length ≤ dmaCount s n.toNat) ∧
      let late : Prop := c.st = .running ∧ ∃ lim, c.readBy = some lim ∧ lim < s.gt
      (late → Does (.dmaReadComplete n bs) s fun t => ∃ u, DmaPut s u n.toNat { c with readBy := none } ∧ u.dma.hwm = s.dma.hwm ∧ t = failAccess u (.dmaRead n)) ∧
      (¬ late → may = false → Does (.dmaReadComplete n bs) s fun t => t = s) ∧
      (∀ l, ¬ late → may = true → localOf s (bits v 23 22) a = some l → let st := rangeStatus s who l bs.length
        (st.1 = stOk → Does (.dmaReadComplete n bs) s fun t => takes (memRead s l bs.length) s t) ∧
        (st.1 ≠ stOk → Does (.dmaReadComplete n bs) s fun t =>
          t = haltDma (refuseAccess s who st.2 st.1) n.toNat (if st.1 = stAddr then 3 else 4) (a + (st.2 - l)))) ∧
      (¬ late → may = true → localOf s (bits v 23 22) a = none →
        (bits v 23 22 = 0 → Does (.dmaReadComplete n bs) s fun t => takes bs (hostWrite s (spaceOf s (bits v 15 0)) a bs) t) ∧
        (bits v 23 22 ≠ 0 → Does (.dmaReadComplete n bs) s fun t => t = sendRead s n.toNat))) ∧
    ∀ k : Word, let dst := dmaDst s n.toNat
      let cnt := dmaCount s n.toNat
      let span := lineSpan dst cnt k.toNat
      let bs := (c.data.drop (span.1 - c.start)).take (span.2 - span.1)
      let a := dst + span.1
      let held := c.done ≤ k.toNat ∧ k.toNat < c.done + 256 ∧ k.toNat ∉ c.ahead ∧ span.1 < span.2 ∧ c.start ≤ span.1 ∧
        span.2 ≤ c.start + c.data.length ∧ inGap s (.dmaWrite n k) = false
      let ready := c.st = .running ∧ held ∧ (bits v 21 20 ≠ 0 ∨ (ctxOf s (bits v 15 0)).enabled = true)
      let resetting := c.st = .halted ∧ c.cause = 6 ∧ c.haltAt = s.gt
      let commits (u t : State) : Prop := let p := prefixRun 257 c.done (c.ahead ++ [k.toNat])
        (dmaOf t n.toNat).done = p.1 ∧ (dmaOf t n.toNat).ahead = p.2 ∧ ((dmaOf t n.toNat).st = if p.1 = lineCount dst cnt then .done else .running) ∧
        (∀ m, m ≠ n.toNat → dmaOf t m = dmaOf s m) ∧ count64 t 0x1400038 = min (count64 s 0x1400038 + (span.2 - span.1)) (2 ^ 64 - 1) ∧
        OtherRegs [0x1400038, 0x140003C] s t ∧ t = { u with dma := t.dma, rf := { s.rf with vals := t.rf.vals } }
      (¬ ready → ¬ resetting → Does (.dmaLineCommit n k) s fun t => t = s) ∧
      (resetting → held → (∀ l, localOf s (bits v 21 20) a = some l → accessStatus s who l = stOk → Does (.dmaLineCommit n k) s fun t =>
          t = lineDone (memWrite s l bs) n.toNat k.toNat) ∧
        (localOf s (bits v 21 20) a = none → bits v 21 20 = 0 → Does (.dmaLineCommit n k) s fun t =>
          t = lineDone (hostWrite s (spaceOf s (bits v 15 0)) a bs) n.toNat k.toNat)) ∧
      (∀ l, ready → localOf s (bits v 21 20) a = some l →
        (accessStatus s who l = stOk → Does (.dmaLineCommit n k) s fun t => commits (memWrite s l bs) t ∧
          (∀ i, i < bs.length → memByte t (l + i) = bs.getD i 0#8) ∧ ∀ b, (b < l ∨ l + bs.length ≤ b) → memByte t b = memByte s b) ∧
        (accessStatus s who l ≠ stOk → Does (.dmaLineCommit n k) s fun t =>
          t = haltDma (refuseAccess s who l (accessStatus s who l)) n.toNat (if accessStatus s who l = stAddr then 3 else 4) a)) ∧
      (resetting → held → localOf s (bits v 21 20) a = none → bits v 21 20 ≠ 0 → Does (.dmaLineCommit n k) s fun t => t = s) ∧
      (ready → localOf s (bits v 21 20) a = none →
        (bits v 21 20 = 0 → Does (.dmaLineCommit n k) s fun t => commits (hostWrite s (spaceOf s (bits v 15 0)) a bs) t ∧ t.mem = s.mem) ∧
        (bits v 21 20 ≠ 0 → Does (.dmaLineCommit n k) s fun t => t = sendLine s n.toNat k.toNat))

/-- ACCESS_FAILURE, RETRY_GAP_EXPIRY and HOST_COMPLETION_TIMEOUT (10_dma_check.md R338; 09_host_rings.md R328; 01_architecture.md R28). -/
def Obligations.AccessRetries : Prop :=
  ∀ (s : State) (a : HubAccess), let old := s.dma.retries.find? fun r => r.access = a
    let tries := (old.map Retry.tries).getD 0
    let rest := s.dma.retries.filter fun r => r.access ≠ a
    let fails (u t : State) : Prop := (tries < regBits s 0x1400000 2 0 → t = { u with dma := { u.dma with retries := rest ++ [⟨a, tries, some (s.gt + regBits s 0x1400000 15 8 * 1000), accessAddr s a⟩] } }) ∧
      (regBits s 0x1400000 2 0 ≤ tries → t = accessLost { u with dma := { u.dma with retries := rest } } a)
    (inGap s a = true → (∀ unc, Does (.accessFailure a unc) s fun t => t = s) ∧ Does (.hostCompletionTimeout a) s fun t => t = s) ∧
    (inGap s a = false →
      Does (.accessFailure a false) s (fun t => fails s t) ∧
      (∀ n, a = .dmaRead n → ((dmaOf s n.toNat).st = .running → Does (.accessFailure a true) s fun t =>
          t = haltDma (badWord s (localOf s (bits (dmaCtl s n.toNat) 23 22) (accessAddr s a))) n.toNat 5 (accessAddr s a)) ∧
        ((dmaOf s n.toNat).st ≠ .running → Does (.accessFailure a true) s fun t => t = s)) ∧
      (∀ e, a = .engineRead e → Does (.accessFailure a true) s fun t => ∃ u,
        u = badWord s (localOf s (regBits s (0x150100C + e.toNat * 0x40) 25 24) (accessAddr s a)) ∧
        chkOf t e.toNat = { chkOf u e.toNat with st := .error, cause := 5 } ∧
        (∀ k, k ≠ e.toNat → chkOf t k = chkOf u k) ∧ t = { u with dma := { u.dma with engines := t.dma.engines } }) ∧
      ((∀ n, a ≠ .dmaRead n) → (∀ e, a ≠ .engineRead e) → Does (.accessFailure a true) s fun t => t = s) ∧
      (∀ n, a = .dmaRead n → ∀ at_, (dmaOf s n.toNat).readBy = some at_ → RunOut s at_ → (dmaOf s n.toNat).st = .running →
        Does (.hostCompletionTimeout a) s fun t => ∃ u, DmaPut s u n.toNat { dmaOf s n.toNat with readBy := none } ∧ u.dma.hwm = s.dma.hwm ∧ fails u t) ∧
      (∀ n, a = .dmaRead n → ((dmaOf s n.toNat).readBy = none ∨ (∃ at_, (dmaOf s n.toNat).readBy = some at_ ∧ ¬ RunOut s at_) ∨ (dmaOf s n.toNat).st ≠ .running) →
        (∀ w, waitOf s a = some w → ¬ RunOut s w) → Does (.hostCompletionTimeout a) s fun t => t = s) ∧
      ((∀ n, a ≠ .dmaRead n) → (∃ w, waitOf s a = some w ∧ RunOut s w) → Does (.hostCompletionTimeout a) s fun t => ∃ u,
        u = { s with dma := { s.dma with waits := s.dma.waits.filter fun w => w.access ≠ a } } ∧ fails u t) ∧
      ((∀ n, a ≠ .dmaRead n) → (∀ w, waitOf s a = some w → ¬ RunOut s w) → Does (.hostCompletionTimeout a) s fun t => t = s)) ∧
    ((old = none ∨ ∃ r, old = some r ∧ (r.due = none ∨ ∃ at_, r.due = some at_ ∧ s.gt < at_)) → Does (.retryGapExpiry a) s fun t => t = s) ∧
    ∀ r at_, old = some r → r.due = some at_ → at_ ≤ s.gt → Does (.retryGapExpiry a) s fun t => ∃ u, t = bump (reissue u a) 0x1400030 1 ∧
      u.dma.retries = s.dma.retries.map (fun q => if q.access = a then { q with tries := q.tries + 1, due := none } else q) ∧
      (∀ n, (∀ l, a ≠ .dmaWrite n l) → a ≠ .dmaRead n → dmaOf u n.toNat = dmaOf s n.toNat) ∧
      (∀ n, a = .dmaRead n → dmaOf u n.toNat = { dmaOf s n.toNat with retries := r.tries + 1, readBy := hostBy s (bits (dmaCtl s n.toNat) 23 22) }) ∧
      (∀ n l, a = .dmaWrite n l → dmaOf u n.toNat = { dmaOf s n.toNat with retries := r.tries + 1 }) ∧
      u = { s with dma := { s.dma with chans := u.dma.chans, retries := u.dma.retries } }

/-- CHK_GO, CHK_STOP and CHK_COMPLETE (10_dma_check.md R352 to R358). -/
def Obligations.CheckEngines : Prop :=
  (∀ (p v : Nat) (xs ys : List Byte), polyRun p v (xs ++ ys) = polyRun p (polyRun p v xs) ys) ∧
  ∀ (s : State) (e : BitVec 4), let x := chkOf s e.toNat
    let off := chkOff e.toNat
    let only (t : State) (y : ChkEngine) : Prop := chkOf t e.toNat = y ∧ (∀ k, k ≠ e.toNat → chkOf t k = chkOf s k) ∧ t = { s with dma := { s.dma with engines := t.dma.engines }, rf := { s.rf with vals := t.rf.vals } }
    (∀ r v, let may := coresMay r = true ∧ (v.getLsbD 28 = true → r = .secure)
      (¬ may → Does (.chkGo e r v) s fun t => t = logRefused s r (off 0xC) v stDenied) ∧
      (may → x.st = .running → Does (.chkGo e r v) s fun t => t = logRefused s r (off 0xC) v stCtxState) ∧
      (may → x.st ≠ .running → 4095 < bits v 15 0 → Does (.chkGo e r v) s fun t => t = logRefused s r (off 0xC) v stRange) ∧
      (may → x.st ≠ .running → bits v 15 0 ≤ 4095 → Does (.chkGo e r v) s fun t =>
        let bad := regVal s (off 8) = 0#32 ∨ (v.getLsbD 23 = false ∧ bits v 25 24 = 3) ∨ (v.getLsbD 23 = true ∧ (dmaOf s (bits v 21 16)).st = .idle)
        OtherRegs [off 0xC, off 0x10, off 0x14] s t ∧ regVal t (off 0xC) = v &&& 0x1FBFFFFF#32 ∧
        (v.getLsbD 29 = true → count64 t (off 0x10) = polyInit (bits v 27 26)) ∧
        (v.getLsbD 29 = false → count64 t (off 0x10) = count64 s (off 0x10) % 2 ^ polyWidth (regBits t (off 0xC) 27 26)) ∧
        (bad → only t { x with st := .error, cause := 8, done := 0 }) ∧ (¬ bad → only t { x with st := .running, cause := 0, done := 0, result := 0 }))) ∧
    (∀ r n bs, (coresMay r = false → Does (.chkStop e r n bs) s fun t => t = logRefused s r (off 0xC) 0x40000000#32 stDenied) ∧
      (coresMay r = true → x.st ≠ .running → Does (.chkStop e r n bs) s fun t => t = s) ∧
      (coresMay r = true → x.st = .running → let left := (regVal s (off 8)).toNat - x.done
        (∀ c, chkBytes s e.toNat (min n.toNat left) bs = .error c → Does (.chkStop e r n bs) s fun t => t = refuseScan s e.toNat c) ∧
        (∀ data, chkBytes s e.toNat (min n.toNat left) bs = .ok data → Does (.chkStop e r n bs) s fun t => ∃ u, u = consume s e.toNat data ∧ chkOf u e.toNat = { x with done := x.done + data.length } ∧
          (data.length = left → t = modChk u e.toNat fun y => { y with st := .done, result := polyOut (regBits u (off 0xC) 27 26) (chkValue u e.toNat) }) ∧
          (data.length ≠ left → t = modChk u e.toNat fun y => { y with st := .stopped })))) ∧
    ∀ bs, let v := regVal s (off 0xC)
      (x.st ≠ .running → Does (.chkComplete e bs) s fun t => t = s) ∧
      let tap := dmaOf s (bits v 21 16)
      (x.st = .running → v.getLsbD 23 = true → tap.st = .halted → tap.haltAt ≠ s.gt → Does (.chkComplete e bs) s fun t => only t { x with st := .error, cause := 9 }) ∧
      (x.st = .running → ¬(v.getLsbD 23 = true ∧ tap.st = .halted ∧ tap.haltAt ≠ s.gt) → readLate s (.engineRead e) = true →
        Does (.chkComplete e bs) s fun t => t = failAccess (endReadWait s (.engineRead e)) (.engineRead e)) ∧
      (x.st = .running → ¬(v.getLsbD 23 = true ∧ tap.st = .halted ∧ tap.haltAt ≠ s.gt) → readLate s (.engineRead e) = false → let left := (regVal s (off 8)).toNat - x.done
        (∀ c, chkBytes s e.toNat left bs = .error c → Does (.chkComplete e bs) s fun t => t = refuseScan s e.toNat c) ∧
        (∀ data, chkBytes s e.toNat left bs = .ok data → Does (.chkComplete e bs) s fun t => ∃ u, u = consume s e.toNat data ∧
          (data.length < left → t = u) ∧
          (left ≤ data.length → t = modChk u e.toNat fun y => { y with st := .done, result := polyOut (bits v 27 26) (chkValue u e.toNat) })))

namespace Sys2Proof

/-- What a target does with a request that reaches it and is not for another device (11_tray_fabric.md R367, R372): a repeated
one is counted and answered as before, any other is executed once and its answer kept. -/
def Target (s : State) (src : Nat) (q : FabArgs) (t : State) : Prop :=
  let dup := s.fab.filter.find? fun f => f.src = src && f.tag = q.tag.toNat && decide (s.gt < f.at_ + 8000)
  (∀ f, dup = some f → ∃ u, Counted s u 0x3000060 1 ∧ t = answerTo u src q.tag.toNat q.addr.toNat f.answer) ∧
  (dup = none → ∃ e u, e = executeReq s src q ∧ u.fab.filter = (e.1.fab.filter.filter fun f => decide (s.gt < f.at_ + 8000)) ++ [⟨src, q.tag.toNat, s.gt, e.2⟩] ∧
    u = { e.1 with fab := { e.1.fab with filter := u.fab.filter } } ∧ t = answerTo u src q.tag.toNat q.addr.toNat e.2)

/-- A request executed at local address `a` leaves memory as before but for the bytes stored there. -/
def Stored (s t : State) (a : Nat) (bs : List Byte) : Prop :=
  (∀ i, i < bs.length → memByte t (a + i) = bs.getD i 0#8) ∧ (∀ b, b < a ∨ a + bs.length ≤ b → memByte t b = memByte s b) ∧
  ∃ u, t = { s with mem := t.mem, pair := u }

end Sys2Proof

/-- READ_LINE, WRITE_LINE and the atomics at the target (11_tray_fabric.md R371, R372, R367; 12_mirrored_pairs.md R403). -/
def Obligations.FabricTargets : Prop :=
  (∀ (s : State) (src : Nat) (q : FabArgs), let op := q.op.toNat
    let a := q.addr.toNat % 2 ^ 45
    let line : Prop := op = 1 ∨ op = 2
    let atomic : Prop := 0x10 ≤ op ∧ op ≤ 0x14
    let wrong := q.addr.toNat / 2 ^ 45 ≠ s.rst.trayPos ∨ ¬(line ∨ atomic) ∨ (line ∧ a % 128 ≠ 0) ∨ (atomic ∧ a % 8 ≠ 0)
    let st := accessStatus s (.peer src) a
    let r := executeReq s src q
    let zeros := if op = 1 then List.replicate 128 0#8 else []
    let old := BitVec.ofNat 64 (ofLeBytes (memRead s a 8))
    let new := if op = 0x10 then old + q.operand else if op = 0x11 then (if old = q.compare then q.operand else old)
      else if op = 0x12 then (if q.operand.toInt < old.toInt then q.operand else old) else if op = 0x13 then (if old.toInt < q.operand.toInt then q.operand else old) else q.operand
    (wrong → r = (s, ⟨stAddr, 0, zeros⟩)) ∧ (¬ wrong → st ≠ stOk → r = (refuseAccess s (.peer src) a st, ⟨st, 0, zeros⟩)) ∧
    (¬ wrong → st = stOk → op = 1 → r = (s, ⟨stOk, 0, memRead s a 128⟩)) ∧
    (¬ wrong → st = stOk → op ≠ 1 → fenceRefuses s a q.claim.toNat = true → Counted s r.1 0x340004C 1 ∧ r.2 = ⟨stStaleClaim, 0, []⟩) ∧
    (¬ wrong → st = stOk → op = 2 → fenceRefuses s a q.claim.toNat = false → r.2 = ⟨stOk, 0, []⟩ ∧
      ∀ mask, q.mask = some mask → q.data.length = 128 → Stored s r.1 a ((List.range 128).map fun i => if mask.getLsbD i then q.data.getD i 0#8 else memByte s (a + i))) ∧
    (¬ wrong → st = stOk → op = 2 → fenceRefuses s a q.claim.toNat = false → q.mask = none → Stored s r.1 a (q.data.take 128)) ∧
    (¬ wrong → st = stOk → atomic → fenceRefuses s a q.claim.toNat = false → r.2 = ⟨stOk, old.toNat, []⟩ ∧ Stored s r.1 a (leBytes 8 new.toNat))) ∧
  ∀ (s : State) (src : BitVec 3) (detour : Bool) (tag ctx : BitVec 16) (claim : Word) (addr : BitVec 48) (mask : Option (BitVec 128)) (data : List Byte) (x y : BitVec 64),
    let q (op : Nat) := packet op tag.toNat ctx.toNat claim.toNat addr.toNat
    let all (P : Instr → FabArgs → Prop) : Prop := P (.readLine src detour tag ctx addr) (packet 1 tag.toNat ctx.toNat 0 addr.toNat) ∧
      P (.writeLine src detour tag ctx claim addr mask data) { q 2 with mask := mask, data := data.take 128 ++ List.replicate (128 - data.length) 0#8 } ∧
      P (.atomicAdd src detour tag ctx claim addr x) { q 0x10 with operand := x, compare := 0 } ∧ P (.atomicCas src detour tag ctx claim addr x y) { q 0x11 with operand := x, compare := y } ∧
      P (.atomicMin src detour tag ctx claim addr x) { q 0x12 with operand := x, compare := 0 } ∧ P (.atomicMax src detour tag ctx claim addr x) { q 0x13 with operand := x, compare := 0 } ∧
      P (.atomicSwap src detour tag ctx claim addr x) { q 0x14 with operand := x, compare := 0 }
    let other := detour = true ∧ addr.toNat / 2 ^ 45 ≠ s.rst.trayPos
    (¬ other → all fun c q => Does c s fun t => Target s src.toNat q t) ∧
    (other → (regVal s 0x3000004).getLsbD 2 = false ∨ (routeNow s (addr.toNat / 2 ^ 45)).1 ≠ .direct → all fun c _ => Does c s fun t => t = s) ∧
    (other → (regVal s 0x3000004).getLsbD 2 = true → (routeNow s (addr.toNat / 2 ^ 45)).1 = .direct → ∀ l, pickLink (upLinks s (bundleTo s (addr.toNat / 2 ^ 45))) addr.toNat = some l →
      all fun c q => Does c s fun t => (addr.toNat / 2 ^ 45, tag.toNat, src.toNat) ∈ t.fab.relays ∧ t.mem = s.mem ∧ t.rf = s.rf ∧
        t.sent = (s.gt, .fabReq l.1 l.2 (addr.toNat / 2 ^ 45) q.op.toNat tag.toNat addr.toNat q.claim.toNat q.mask q.data q.operand q.compare) :: s.sent)

/-- Links (11_tray_fabric.md R362, R364 to R368). -/
def Obligations.FabricLinks : Prop :=
  ∀ (s : State) (b : BitVec 4) (j : BitVec 3), let l := linkOf s b.toNat j.toNat
    let only (s t : State) (x : Link) : Prop := linkOf t b.toNat j.toNat = x ∧ (∀ c k, c * 8 + k ≠ b.toNat * 8 + j.toNat → linkOf t c k = linkOf s c k) ∧
      t = { s with fab := { s.fab with links := t.fab.links } }
    let may : Prop := b.toNat < 12 ∧ pdOf s (29 + b.toNat) = .on ∧ (l.st = .dark ∨ l.st = .miswired ∨ (l.st = .down ∧ ∀ t, l.retry = some t → t ≤ s.gt))
    (¬ may → Does (.linkLightDetected b j) s fun t => t = s) ∧
    (may → Does (.linkLightDetected b j) s fun t => only s t { l with
      st := .training, lanes := 0, spare := none, trainBy := s.gt + 5000000, retry := none, far := none, tx := [], seq := 0, expect := 0, part := [], bad := [] }) ∧
    (∀ (bad : BitVec 9) (far : FarEnd) (asym : BitVec 16), let lost := (List.range 8).filter bad.getLsbD
      let spare := if bad.getLsbD 8 then none else lost.head?
      let lanes := 8 - (lost.length - b2n spare.isSome)
      let trains := b.toNat < 12 ∧ l.st = .training ∧ s.gt ≤ l.trainBy
      let ok := farOk s b.toNat j.toNat far
      (¬ trains → Does (.linkUp b j bad far asym) s fun t => t = s) ∧
      (trains → ok = false → Does (.linkUp b j bad far asym) s fun t => ∃ u, only s u { l with st := .miswired, far := some far } ∧
        t = fault u { cls := 0x18, unit := unitId 0x0A (b.toNat * 16 + j.toNat), outcome := 3 }) ∧
      (trains → ok = true → lanes < 4 → Does (.linkUp b j bad far asym) s fun t => only s t { l with st := .down, retry := some (s.gt + 100000000) }) ∧
      (trains → ok = true → 4 ≤ lanes → Does (.linkUp b j bad far asym) s fun t => ∃ u,
        only s u { l with st := (if lanes = 8 then .up else .narrowed), lanes := lanes, spare := spare, trainings := min (l.trainings + 1) (2 ^ 16 - 1), far := some far, asym := asym.toInt, bad := (List.range 9).filter bad.getLsbD } ∧
        (b ≠ 7#4 → b ≠ 8#4 → t = u) ∧ (b = 7#4 ∨ b = 8#4 → t = formPair u))) ∧
    (l.st = .training → Sys2Proof.RunOut s l.trainBy → Does (.linkTrainTimeout b j) s fun t => only s t { l with st := .down, retry := some (s.gt + 100000000) }) ∧
    (l.st ≠ .training ∨ ¬ Sys2Proof.RunOut s l.trainBy → Does (.linkTrainTimeout b j) s fun t => t = s) ∧
    (linkUp s b.toNat j.toNat = false → Does (.linkDown b j) s fun t => t = s) ∧
    (linkUp s b.toNat j.toNat = true → Does (.linkDown b j) s fun t => t = dropLink s b.toNat j.toNat 3 false) ∧
    (∀ (lane : BitVec 4) (errs : BitVec 24) (ring : Bool), let acts := linkUp s b.toNat j.toNat = true ∧ lane.toNat ≤ 8 ∧ lane.toNat ∉ l.bad ∧
        (ring = true ∨ regBits s 0x3000004 23 16 * 1000 < errs.toNat)
      let x : Link := { l with bad := l.bad ++ [lane.toNat] }
      let replaced : Prop := l.spare ≠ none ∨ 8 ∈ l.bad
      (¬ acts → Does (.fabLaneReplace b j lane errs ring) s fun t => t = s) ∧
      (acts → lane = 8#4 → l.spare = none → Does (.fabLaneReplace b j lane errs ring) s fun t => only s t x) ∧
      (acts → lane ≠ 8#4 → ¬ replaced → Does (.fabLaneReplace b j lane errs ring) s fun t => ∃ u, only s u { x with spare := some lane.toNat } ∧
        t = linkFault u b.toNat j.toNat 2 lane.toNat false) ∧
      (acts → replaced → 4 < l.lanes → Does (.fabLaneReplace b j lane errs ring) s fun t => ∃ u,
        only s u { x with st := .narrowed, lanes := l.lanes - 1, spare := (if lane = 8#4 then none else l.spare) } ∧ t = linkFault u b.toNat j.toNat 3 lane.toNat false) ∧
      (acts → replaced → l.lanes ≤ 4 → Does (.fabLaneReplace b j lane errs ring) s fun t => ∃ u, only s u x ∧ t = dropLink u b.toNat j.toNat 3 false)) ∧
    ∀ (fec : BitVec 2) (word : BitVec 20) (slots : List Byte), let seq := word.toNat % 65536
      let type := word.toNat / 65536
      let good := fec.toNat < 2 ∧ slots.length = 640 ∧ codewordOk slots = true
      let ce := if fec = 1#2 then min (l.ce + 1) (2 ^ 32 - 1) else l.ce
      let nak (s : State) : State := { s with sent := (s.gt, .linkNak b.toNat j.toNat l.expect) :: s.sent }
      (linkUp s b.toNat j.toNat = false → Does (.codewordReceive b j fec word slots) s fun t => t = s) ∧
      (linkUp s b.toNat j.toNat = true → ¬ good → Does (.codewordReceive b j fec word slots) s fun t => t = nak s) ∧
      (linkUp s b.toNat j.toNat = true → good → seq ≠ l.expect → Does (.codewordReceive b j fec word slots) s fun t => ∃ u, only s u { l with ce := ce } ∧
        (32768 ≤ (seq + 65536 - l.expect) % 65536 → t = u) ∧ ((seq + 65536 - l.expect) % 65536 < 32768 → t = nak u)) ∧
      (linkUp s b.toNat j.toNat = true → good → seq = l.expect →
        let tx := l.tx.filter fun p => decide (32768 ≤ (field slots 624 2 + 65536 - p.seq) % 65536)
        let w := field slots 626 4
        let x : Link := { l with ce := ce, expect := (l.expect + 1) % 65536, tx := tx, replay := (if w % 2 = 1 then min (l.replay + tx.length) (2 ^ 32 - 1) else l.replay), credits := l.credits + w / 2 }
        let again (v : State) : State := if w % 2 = 1 then tx.foldl (emit b.toNat j.toNat) v else v
        (type ≠ 1 ∨ 9 ≤ b.toNat → Does (.codewordReceive b j fec word slots) s fun t => ∃ u, only s u x ∧ t = again u) ∧
        (type = 1 → b.toNat < 9 → let r := parsePackets 80 (l.part ++ slots.take 624)
          Does (.codewordReceive b j fec word slots) s fun t => ∃ u, only s u { x with part := r.2 } ∧
            t = r.1.foldl (receivePacket b.toNat) (again u)))

namespace Sys2Proof

/-- The message rings are replaced; nothing else changes. -/
def MsgPut (s t : State) (m : MsgRings) : Prop := t = { s with fab := { s.fab with msg := m } }

/-- A completion entry of the message rings is written at their completion tail, with the PF's message (11_tray_fabric.md R380,
R382): 32 bytes of host memory, the tail on, the phase turned at a wrap. -/
def MsgEntered (s t : State) (bytes : List Byte) : Prop :=
  let m := s.fab.msg
  let tail := ringNext (msgLog s 1) m.cqTail
  t = signalVector { s with hostMem := putBytes s.hostMem (msgBase s 1 + 32 * m.cqTail) bytes,
                            fab := { s.fab with msg := { m with cqTail := tail, phase := (if tail = 0 then !m.phase else m.phase) } } } 0 (regBits s 0x3000100 10 0)

end Sys2Proof

/-- FABRIC_REQUEST_SEND, REQUEST_POISON_TIMEOUT, COMPLETION and COMPLETION_DATA (11_tray_fabric.md R367, R369, R373 to R377). -/
def Obligations.FabricRequests : Prop :=
  (∀ (s : State) (a : FabArgs), let d := a.addr.toNat / 2 ^ 45
    let cfg := regVal s 0x3000004
    let joins (r : FabReq) : Bool := r.args.op = 0x01#6 && r.args.addr.toNat / 128 = a.addr.toNat / 128 && r.args.dom = a.dom && a.dom.isSome && !r.dirty && decide (r.joiners.length < 32)
    let own : Prop := d ≠ s.rst.trayPos ∧ tagBusy s d a.tag.toNat = false
    let joining : Prop := a.op = 0x01#6 ∧ cfg.getLsbD 0 = true ∧ s.fab.reqs.any joins = true
    let lately (q : ReadDone) : Prop := q.at_ = s.gt ∧ joins q.req = true
    let late : Prop := a.op = 0x01#6 ∧ cfg.getLsbD 0 = true ∧ ∃ q, q ∈ s.fab.fresh ∧ lately q
    let waits : Prop := a.op = 0x10#6 ∧ cfg.getLsbD 1 = true ∧ a.dom.isSome = true ∧ (addInFlight s a = true ∨ ∃ b, b ∈ s.fab.batches ∧ sameWord b.first a = true)
    (¬ own → Does (.fabricRequestSend a) s fun t => t = s) ∧
    (own → joining → ∀ pre r post, s.fab.reqs = pre ++ r :: post → (∀ q, q ∈ pre → joins q = false) → joins r = true →
      Does (.fabricRequestSend a) s fun t => ∃ u, u = { s with fab := { s.fab with reqs := pre ++ { r with joiners := r.joiners ++ [a.who] } :: post } } ∧ Counted u t 0x3000050 1) ∧
    (own → ¬ joining → late → ∀ pre q post, s.fab.fresh = pre ++ q :: post → (∀ x, x ∈ pre → ¬ lately x) → lately q →
      Does (.fabricRequestSend a) s fun t => ∃ u, u = { s with fab := { s.fab with fresh := u.fab.fresh } } ∧ Counted (handOver u a a.who q.status 0 true false q.line) t 0x3000050 1) ∧
    (own → ¬ joining → waits → Does (.fabricRequestSend a) s fun t => t = holdAdd (noteWrite s a) a ∧ t.fab.reqs.length = s.fab.reqs.length ∧ t.sent = s.sent) ∧
    (own → ¬ joining → ¬ late → ¬ waits → ∀ p, pathFor (noteWrite s a) d a.addr.toNat a.claim.toNat = some p → Does (.fabricRequestSend a) s fun t => ∃ u, u = transmit (noteWrite s a) p.1 p.2.1 (p.2.2.getD d) a.tag.toNat a.addr.toNat (requestBody a) ∧
      t.fab.reqs = u.fab.reqs ++ [{ dev := d, args := a, bundle := p.1, link := p.2.1, via := p.2.2, due := s.gt + 12000, members := [] }] ∧ t.mem = s.mem ∧ t.rf = s.rf ∧
      t.sent = (s.gt, .fabReq p.1 p.2.1 (p.2.2.getD d) a.op.toNat a.tag.toNat a.addr.toNat a.claim.toNat a.mask a.data a.operand a.compare) :: s.sent) ∧
    (own → ¬ joining → ¬ late → ¬ waits → pathFor (noteWrite s a) d a.addr.toNat a.claim.toNat = none → Does (.fabricRequestSend a) s fun t => t = deliverPoison (noteWrite s a) a a.who false)) ∧
  (∀ (s : State) (d : BitVec 3) (tag : BitVec 16), let due (r : FabReq) : Prop := r.dev = d.toNat ∧ r.args.tag = tag ∧ Sys2Proof.RunOut s r.due
    ((∀ r, r ∈ s.fab.reqs → ¬ due r) → Does (.requestPoisonTimeout d tag) s fun t => t = s) ∧
    ∀ pre r post, s.fab.reqs = pre ++ r :: post → (∀ q, q ∈ pre ++ post → ¬ due q) → due r → Does (.requestPoisonTimeout d tag) s fun t => t = poisonReq s r) ∧
  ∀ (old : State) (src : BitVec 3) (tag : BitVec 16) (st : BitVec 8) (result : BitVec 64) (line : List Byte) (data : Bool),
    let late (r : FabReq) : Prop := r.dev = src.toNat ∧ r.args.tag.toNat = tag.toNat ∧ r.due < old.gt
    ∃ s, ((∀ r, r ∈ old.fab.reqs → ¬ late r) → s = old) ∧
    (∀ pre r post, old.fab.reqs = pre ++ r :: post → (∀ q, q ∈ pre ++ post → ¬ late q) → late r → s = poisonReq old r) ∧
    let c : Instr := if data then .completionData src tag st line else .completion src tag st result
    let val := if data then 0 else result.toNat
    let bs := if data then line.take 128 else []
    let mine := s.fab.reqs.find? fun r => r.dev = src.toNat && r.args.tag.toNat = tag.toNat
    let relay := s.fab.relays.find? fun r => r.1 = src.toNat && r.2.1 = tag.toNat
    (∀ r, mine = some r → (∀ k, r.args.who ≠ .commit k) → Does c old fun t => t = retireReq (deliverAll s r st.toNat val bs) r) ∧
    (∀ r k, mine = some r → r.args.who = .commit k → Does c old fun t => t = commitAnswered (retireReq (deliverAll s r st.toNat val bs) r) k.toNat st.toNat) ∧
    (∀ r, mine = none → relay = some r → Does c old fun t => t = answerTo { s with fab := { s.fab with relays := s.fab.relays.filter (· ≠ r) } } r.2.2 tag.toNat 0 ⟨st.toNat, val, bs⟩) ∧
    (mine = none → relay = none → (src.toNat, tag.toNat) ∈ s.fab.poisoned → Does c old fun t => ∃ u,
      u = { s with fab := { s.fab with poisoned := s.fab.poisoned.filter (· ≠ (src.toNat, tag.toNat)) } } ∧ Counted u t 0x300005C 1) ∧
    (mine = none → relay = none → (src.toNat, tag.toNat) ∉ s.fab.poisoned → Does c old fun t => t = s)

/-- The message rings (11_tray_fabric.md R380 to R383, R392; 09_host_rings.md R298, R305, R306). -/
def Obligations.MessageRings : Prop :=
  (∀ (s : State) (full : Bool) (v : Word), let m := s.fab.msg
    let n := bits v 15 0
    let rings (i : Nat) (c : Instr) (dest : MsgRings) : Prop := let ok := full = true ∧ m.enabled = true ∧ n < 2 ^ msgLog s i
      (¬ ok → Does c s fun t => t = s) ∧ (ok → Does c s fun t => MsgPut s t dest)
    rings 0 (.fabMsgSqTail full v) { m with sqTail := n } ∧ rings 1 (.fabMsgCqHead full v) { m with cqHead := n } ∧ rings 2 (.fabMsgRqTail full v) { m with rqTail := n }) ∧
  (∀ (s : State) (ver : BitVec 4) (bundle : BitVec 8) (tag : BitVec 16) (len : Word) (addr : BitVec 64) (body : List Byte), let m := s.fab.msg
    let b := bundle.toNat
    let goes := msgServe s = true ∧ m.sqHead ≠ m.sqTail ∧ msgFree s ≠ 0
    let bad := b < 9 ∨ 11 < b ∨ len.toNat = 0 ∨ 65536 < len.toNat ∨ addr.toNat % 64 ≠ 0
    let m' := { m with sqHead := ringNext (msgLog s 0) m.sqHead }
    let ends (st : Nat) := Does (.messageSend ver bundle tag len addr body) s fun t =>
      ((∃ x, x ∈ m.transit ∧ x.bundle = b) → MsgPut s t { m' with transit := m.transit ++ [⟨b, tag.toNat, len.toNat, some st⟩] }) ∧
      ((∀ x, x ∈ m.transit → x.bundle ≠ b) → ∃ u, MsgPut s u m' ∧ MsgEntered u t (msgEntry m.phase 0 st tag.toNat len.toNat (farOf s b).1 (farOf s b).2 b 0 s.gt))
    (¬ goes → Does (.messageSend ver bundle tag len addr body) s fun t => t = s) ∧
    (goes → ver ≠ 1#4 → ends stBadVersion) ∧ (goes → ver = 1#4 → bad → ends stBadDesc) ∧ (goes → ver = 1#4 → ¬ bad → upLinks s b = [] → ends stPoison) ∧
    (goes → ver = 1#4 → ¬ bad → upLinks s b ≠ [] → body.length = len.toNat → Does (.messageSend ver bundle tag len addr body) s fun t => ∃ u,
      MsgPut s u { m' with transit := m.transit ++ [⟨b, tag.toNat, len.toNat, none⟩] } ∧ t = { u with sent := (s.gt, .message b tag.toNat body) :: s.sent })) ∧
  (∀ (s : State) (bundle : BitVec 4) (written : Bool), let first := s.fab.msg.transit.find? fun x => x.bundle = bundle.toNat
    (first = none → Does (.messageSentConfirm bundle written) s fun t => t = s) ∧
    (∀ x, first = some x → Does (.messageSentConfirm bundle written) s fun t =>
      t = endFailed x.bundle s.fab.msg.transit.length (endMessage s x (if written then stOk else stMsgRefused)))) ∧
  (∀ (s : State) (b n : Nat), let first := s.fab.msg.transit.find? fun x => x.bundle = b
    ((∀ x, first = some x → x.st = none) → endFailed b n s = s) ∧
    (∀ x st, first = some x → x.st = some st → endFailed b (n + 1) s = endFailed b n (endMessage s x st))) ∧
  (∀ (s : State) (x : MsgSent) (st : Nat) pre post, s.fab.msg.transit = pre ++ x :: post → x ∉ pre → s.fab.msg.error = false → ∃ u, MsgPut s u { s.fab.msg with transit := pre ++ post } ∧
    MsgEntered u (endMessage s x st) (msgEntry s.fab.msg.phase 0 (x.st.getD st) x.tag x.len (farOf s x.bundle).1 (farOf s x.bundle).2 x.bundle 0 s.gt)) ∧
  (∀ (s : State) (bundle : BitVec 4) (tag : BitVec 16) (body : List Byte) (bufs : List BufEntry), let b := bundle.toNat
    let m := s.fab.msg
    let lands := 9 ≤ b ∧ b ≤ 11 ∧ upLinks s b ≠ []
    let refused (t : State) : Prop := t = { s with sent := (s.gt, .messageAnswer b tag.toNat false) :: s.sent }
    (¬ lands → Does (.messageReceive bundle tag body bufs) s fun t => t = s) ∧
    (lands → msgServe s = false ∨ msgFree s = 0 ∨ bufs = [] ∨ m.rqHead = m.rqTail → Does (.messageReceive bundle tag body bufs) s fun t => refused t) ∧
    (∀ e rest, lands → msgServe s = true → msgFree s ≠ 0 → bufs = e :: rest → m.rqHead ≠ m.rqTail → msgBufOk e = true → body.length ≤ 65536 →
      Does (.messageReceive bundle tag body bufs) s fun t => ∃ u v, u = { s with hostMem := putBytes s.hostMem e.addr.toNat body, fab := { s.fab with msg := { m with rqHead := ringNext (msgLog s 2) m.rqHead } } } ∧
        MsgEntered u v (msgEntry m.phase 1 stOk tag.toNat body.length (farOf s b).1 (farOf s b).2 b m.rqHead s.gt) ∧ t = { v with sent := (s.gt, .messageAnswer b tag.toNat true) :: v.sent })) ∧
  ∀ (s : State) (vector : BitVec 11), let on := (regVal s 0x3000100).getLsbD 31
    let sized := (List.range 3).all fun i => decide (4 ≤ msgLog s i) && decide (msgLog s i ≤ 16)
    (on = true ∨ barsOff s = true → Does (.msgRingsEnable vector) s fun t => t = s) ∧
    (on = false → barsOff s = false → sized = true → bootReady s = true → Does (.msgRingsEnable vector) s fun t =>
      t.fab.msg = { enabled := true, skipped := s.fab.msg.skipped } ∧ (regVal t 0x3000100).getLsbD 31 = true ∧ OtherRegs [0x3000100] s t ∧
      t = { s with fab := { s.fab with msg := t.fab.msg }, rf := { s.rf with vals := t.rf.vals } }) ∧
    (on = false → barsOff s = false → (sized = false ∨ bootReady s = false) → Does (.msgRingsEnable vector) s fun t =>
      t.fab.msg = { s.fab.msg with errCode := if sized then stCtxState else stRange } ∧ OtherRegs [0x3000100] s t ∧
      t = { s with fab := { s.fab with msg := t.fab.msg }, rf := { s.rf with vals := t.rf.vals } }) ∧
    (barsOff s = true → Does (.msgRingsDisable vector) s fun t => t = s) ∧
    (barsOff s = false → on = false → Does (.msgRingsDisable vector) s fun t => OtherRegs [0x3000100] s t ∧ t = { s with rf := { s.rf with vals := t.rf.vals } }) ∧
    (barsOff s = false → on = true → Does (.msgRingsDisable vector) s fun t => ∃ u, u = s.fab.msg.transit.foldl (fun t x => endMessage t x stCancelled) s ∧
      t.fab.msg = { u.fab.msg with enabled := false, error := false, sqHead := u.fab.msg.sqTail } ∧ OtherRegs [0x3000100] u t ∧
      t = { u with fab := { u.fab with msg := t.fab.msg }, rf := { u.rf with vals := t.rf.vals } })

/-- KEEPALIVE, KEEPALIVE_SEND, PEER_KEEPALIVE_TIMEOUT and the states of peers (11_tray_fabric.md R376, R377). -/
def Obligations.PeerStates : Prop :=
  ∀ s : State, let near (e : Nat) : Prop := ∃ t, (peerOf s e).seen = some t ∧ ¬ Sys2Proof.RunOut s (t + 4000)
    (∀ (d : BitVec 3) (heard : BitVec 8), (d.toNat = s.rst.trayPos → Does (.keepalive d heard) s fun t => t = s) ∧
      (d.toNat ≠ s.rst.trayPos → Does (.keepalive d heard) s fun t => ∃ u, peerOf u d.toNat = { peerOf s d.toNat with seen := some s.gt, heard := heard.toNat } ∧
        (∀ e, e ≠ d.toNat → peerOf u e = peerOf s e) ∧ u = { s with fab := { s.fab with peers := u.fab.peers } } ∧ t = (List.range 8).foldl updatePeer u)) ∧
    (Does .keepaliveSend s fun t => ∃ u map, u = (List.range 8).foldl updatePeer s ∧ t = { u with sent := (u.gt, .keepalive map) :: u.sent } ∧ map = heardMap s) ∧
    (∀ q, q < 8 → ((heardMap s).testBit q = true ↔ q ≠ s.rst.trayPos ∧ near q)) ∧
    (∀ d : BitVec 3, (near d.toNat → Does (.peerKeepaliveTimeout d) s fun t => t = s) ∧
      (¬ near d.toNat → Does (.peerKeepaliveTimeout d) s fun t => t = (List.range 8).foldl updatePeer s)) ∧
    ∀ d, let relay (e : Nat) : Prop := e < 8 ∧ e ≠ s.rst.trayPos ∧ e ≠ d ∧ near e ∧ (∃ t, (peerOf s e).seen = some t ∧ s.gt ≤ t + 1500) ∧ (peerOf s e).heard.testBit d = true
      let on : Prop := (regVal s 0x3000004).getLsbD 2 = true
      (near d → peerNow s d = (.direct, 0)) ∧
      (∀ e, ¬ near d → on → relay e → (∀ f, f < e → ¬ relay f) → peerNow s d = (.detour, e)) ∧
      (¬ near d → (¬ on ∨ ∀ e, ¬ relay e) → peerNow s d = ((if (peerOf s d).st = .absent then .absent else .lost), 0)) ∧
      (d = s.rst.trayPos ∨ peerNow s d = ((peerOf s d).st, (peerOf s d).via) → updatePeer s d = s) ∧
      (d ≠ s.rst.trayPos → peerNow s d ≠ ((peerOf s d).st, (peerOf s d).via) → ∃ u v, (peerOf u d).st = (peerNow s d).1 ∧ (peerOf u d).via = (peerNow s d).2 ∧ (peerOf u d).since = some s.gt ∧
        (∀ e, e ≠ d → peerOf u e = peerOf s e) ∧ u = { s with fab := { s.fab with peers := u.fab.peers } } ∧
        v = fault u { cls := 0x11, unit := unitId 0x0B d, outcome := if (peerNow s d).1 = .lost then 6 else 0 } ∧
        updatePeer s d = if (peerNow s d).1 = .lost then peerLost v d else peerBack v d)

/-- TIME_REQ, TIME_EXCHANGE_TIMER, TIME_RESPONSE and GT_SLEW (11_tray_fabric.md R384, R385). -/
def Obligations.TrayTime : Prop :=
  ∀ s : State, let q := s.fab.time
    let ok (d : Nat) : Prop := d = s.rst.trayPos ∨ (peerOf s d).st ≠ .lost
    let named := regBits s 0x3000004 10 8
    let me := timeRef s = s.rst.trayPos
    (ok named → timeRef s = named) ∧ (∀ d, d < 8 → ¬ ok named → ok d → (∀ e, e < d → ¬ ok e) → timeRef s = d) ∧
    (∀ src : BitVec 3, (me ∧ src.toNat ≠ s.rst.trayPos → Does (.timeReq src) s fun t => t = { s with sent := (s.gt, .timeAnswer src.toNat s.gt s.gt) :: s.sent }) ∧
      (¬ (me ∧ src.toNat ≠ s.rst.trayPos) → Does (.timeReq src) s fun t => t = s)) ∧
    (let asks : Prop := ¬ me ∧ q.nextAt ≤ s.gt ∧ ((routeNow s (timeRef s)).1 = .direct ∨ (routeNow s (timeRef s)).1 = .detour);
      (asks → Does .timeExchangeTimer s fun t => t = { s with fab := { s.fab with time := { q with asked := some s.gt, nextAt := s.gt + 20000 } }, sent := (s.gt, .timeReq (timeRef s)) :: s.sent }) ∧
      (¬ asks → Does .timeExchangeTimer s fun t => t = s)) ∧
    (∀ (src : BitVec 3) (t2 t3 : BitVec 64), (q.asked = none ∨ src.toNat ≠ timeRef s → Does (.timeResponse src t2 t3) s fun t => t = s) ∧
      (∀ t1, q.asked = some t1 → src.toNat = timeRef s → Does (.timeResponse src t2 t3) s fun t => ∃ u,
        let x := ((t2.toNat : Int) - t1) - ((s.gt : Int) - t3.toNat) - 2 * asymTo s src.toNat
        let near : Prop := -40 ≤ x ∧ x ≤ 40
        u.fab.time.asked = none ∧ u.fab.time.theta2 = x ∧ (u.fab.time.aligned = true ↔ near) ∧ u.fab.time.first = true ∧ u.fab.time.nextAt = q.nextAt ∧ u.fab.time.slewAt = q.slewAt ∧
        (q.first = true → u.gt = s.gt ∧ u.fab.time.hold = q.hold ∧ u.fab.time.left2 = x) ∧
        (q.first = false → 0 ≤ x → u.gt = s.gt + x.toNat / 2 ∧ u.fab.time.hold = q.hold) ∧
        (q.first = false → x < 0 → u.gt = s.gt ∧ u.fab.time.hold = q.hold + (-x).toNat / 2) ∧
        u = { s with gt := u.gt, fab := { s.fab with time := u.fab.time } } ∧
        (q.aligned = true → ¬ near → t = fault u { cls := 0x18, unit := unitId 0x0E 0, outcome := 0 }) ∧ (q.aligned = false ∨ near → t = u))) ∧
    (let slews : Prop := ¬ me ∧ q.slewAt ≤ s.gt ∧ (q.left2 < -4 ∨ 4 < q.left2);
      (slews → 0 < q.left2 → Does .gtSlew s fun t => ∃ u, u = { s with gt := s.gt + 1, fab := { s.fab with time := { q with slewAt := s.gt + 1000, left2 := q.left2 - 2 } } } ∧ Counted u t 0x3000044 1) ∧
      (slews → q.left2 < 0 → Does .gtSlew s fun t => ∃ u, u = { s with fab := { s.fab with time := { q with slewAt := s.gt + 1000, left2 := q.left2 + 2, hold := q.hold + 1 } } } ∧ Counted u t 0x3000048 1) ∧
      (¬ slews → Does .gtSlew s fun t => t = s))

namespace Sys2Proof

/-- What an authority keeps for one set is replaced; every other set's and the rest of the state are as before. -/
def AuthPut (s t : State) (pair set : Nat) (a : AuthSet) : Prop :=
  authSet t pair set = a ∧ (∀ p i, p * 2 + i ≠ pair * 2 + set → authSet t p i = authSet s p i) ∧ t = { s with pair := { s.pair with auth := t.pair.auth } }

/-- An authority answers a device with a set's new state. -/
def Leased (s t : State) (dev op pair set : Nat) (a : AuthSet) : Prop :=
  ∃ u, AuthPut s u pair set a ∧ t = { u with sent := (s.gt, .lease dev op pair set a.claim a.expiry a.valid) :: u.sent }

/-- A REQUEST is decided (12_mirrored_pairs.md R400): granted under the next claim with a valid mirror or to the last holder, else refused. -/
def Decided (s t : State) (dev pair set : Nat) (a : AuthSet) : Prop :=
  (a.valid = true ∨ a.last = some dev → Leased s t dev 0x81 pair set
    { a with holder := some dev, last := some dev, claim := a.claim + 1, expiry := s.gt + leaseTicks s, waiting := none }) ∧
  (a.valid = false → a.last ≠ some dev → Leased s t dev 0x82 pair set { a with holder := none, waiting := none })

end Sys2Proof

/-- LEASE_REQUEST, RENEW, RELEASE, MARK_STALE, MARK_VALID, LEASE_EXPIRY and AUTHORITY_TAKEOVER (12_mirrored_pairs.md R399, R400, R402, R411). -/
def Obligations.LeaseAuthority : Prop :=
  ∀ s : State, leaseTicks s = regBits s 0x3400000 27 21 * 1000000 ∧ guardTicks s = min 2000000 (leaseTicks s / 4) ∧
    (∀ (pair : BitVec 2) (set : BitVec 1), let p := pair.toNat
      let i := set.toNat
      let a := authSet s p i
      let none_ (c : Instr) : Prop := Does c s fun t => t = s
      (serves s p = true ↔ (∃ d, d < 4 ∧ dieUp s (16 + d) = true) ∧ s.rst.trayPos / 2 ≠ p ∧ (s.rst.trayPos = (2 * p + 4) % 8 → p ∈ s.pair.serving)) ∧
      (serves s p = false → none_ (.leaseExpiry pair set) ∧ ∀ dev tSend, none_ (.leaseRequest pair set dev tSend) ∧ none_ (.renew pair set dev) ∧ none_ (.release pair set dev) ∧ none_ (.markStale pair set dev) ∧ none_ (.markValid pair set dev)) ∧
      (serves s p = true →
        (∀ (dev : BitVec 3) (tSend : BitVec 64), let d := dev.toNat
          (d / 2 ≠ p → none_ (.leaseRequest pair set dev tSend)) ∧
          (d / 2 = p → a.holder = none ∨ a.expiry ≤ s.gt → Does (.leaseRequest pair set dev tSend) s fun t => Decided s t d p i a) ∧
          (d / 2 = p → a.holder ≠ none → s.gt < a.expiry → Does (.leaseRequest pair set dev tSend) s fun t => AuthPut s t p i { a with waiting := some (d, tSend.toNat) }) ∧
          (a.holder = some d → s.gt + guardTicks s < a.expiry → Does (.renew pair set dev) s fun t => Leased s t d 0x81 p i { a with expiry := s.gt + leaseTicks s }) ∧
          (a.holder = some d → a.expiry ≤ s.gt + guardTicks s → Does (.renew pair set dev) s fun t => t = { s with sent := (s.gt, .lease d 0x82 p i a.claim a.expiry a.valid) :: s.sent }) ∧
          (a.holder = some d → Does (.markStale pair set dev) s (fun t => Leased s t d 0x83 p i { a with valid := false }) ∧ Does (.markValid pair set dev) s fun t => Leased s t d 0x83 p i { a with valid := true }) ∧
          (a.holder ≠ some d → none_ (.renew pair set dev) ∧ none_ (.markStale pair set dev) ∧ none_ (.markValid pair set dev)) ∧
          (a.holder = some d → a.waiting = none → Does (.release pair set dev) s fun t => Leased s t d 0x83 p i { a with holder := none, expiry := s.gt }) ∧
          (∀ w, a.holder = some d → a.waiting = some w → Does (.release pair set dev) s fun t => ∃ u, Leased s u d 0x83 p i { a with holder := none, expiry := s.gt } ∧ Decided u t w.1 p i { a with holder := none, expiry := s.gt }) ∧
          (∀ n, a.holder ≠ some d → a.waiting = some (d, n) → Does (.release pair set dev) s fun t => AuthPut s t p i { a with waiting := none }) ∧
          (a.holder ≠ some d → (∀ n, a.waiting ≠ some (d, n)) → none_ (.release pair set dev))) ∧
        (a.holder = none ∨ ¬ Sys2Proof.RunOut s a.expiry → none_ (.leaseExpiry pair set)) ∧
        (∀ w, a.holder ≠ none → Sys2Proof.RunOut s a.expiry → a.waiting = some w → Does (.leaseExpiry pair set) s fun t => Decided s t w.1 p i a) ∧
        (a.holder ≠ none → Sys2Proof.RunOut s a.expiry → a.waiting = none → Does (.leaseExpiry pair set) s fun t => AuthPut s t p i { a with holder := none }))) ∧
    ∀ (pair : BitVec 2) (reports : List LeaseReport), let p := pair.toNat
      let ripe : Prop := p ∉ s.pair.serving ∧ ∃ n, tabFind s.pair.lostAt p = some n ∧ n + leaseTicks s + 1000000 ≤ s.gt
      (¬ ripe → Does (.authorityTakeover pair reports) s fun t => t = s) ∧
      (ripe → Does (.authorityTakeover pair reports) s fun t => t.pair.serving = s.pair.serving ++ [p] ∧ t = { s with pair := { s.pair with serving := t.pair.serving, auth := t.pair.auth } } ∧
        ∀ i : BitVec 1, let b := authSet t p i.toNat
          b.holder = none ∧ b.waiting = none ∧ b.expiry = s.gt ∧
          (∀ r, r ∈ reports → r.set = i → r.claim.toNat ≤ b.claim) ∧
          ((∀ r, r ∈ reports → r.set ≠ i) → b.claim = 0 ∧ b.valid = true ∧ b.last = none) ∧
          ((∃ r, r ∈ reports ∧ r.set = i) → ∃ r, r ∈ reports ∧ r.set = i ∧ b.claim = r.claim.toNat ∧ b.valid = r.valid ∧ b.last = some r.dev.toNat))

namespace Sys2Proof

/-- One set of this device's pair is changed; nothing else is. -/
def SetPut (s t : State) (i : Nat) (f : PairSet → PairSet) : Prop := t = { s with pair := { s.pair with sets := listMod s.pair.sets i f } }

/-- A lease message about a set goes to the authority in service (12_mirrored_pairs.md R399, R402). -/
def Asked (s t : State) (op i : Nat) : Prop :=
  let a := if (peerOf s (regBits s 0x3400004 2 0)).st = .lost then regBits s 0x3400004 6 4 else regBits s 0x3400004 2 0
  t = { s with sent := (s.gt, .lease a op (s.rst.trayPos / 2) i (pairSet s i).claim 0 (pairSet s i).valid) :: s.sent }

end Sys2Proof

/-- LEASE_RENEW_TIMER, LEASE_GUARD_STOP, GRANT, REFUSE, LEASE_ACK and PAIR_TAKE (12_mirrored_pairs.md R401 to R408, R415). -/
def Obligations.LeaseHolding : Prop :=
  ∀ (s : State) (set : BitVec 1), let i := set.toNat
    let p := pairSet s i
    let cs := ctxsOfSet s i
    let acts : Prop := p.held = true ∧ p.stopped = false
    let renews : Prop := acts ∧ p.expiry < s.gt + leaseTicks s / 2
    let stops : Prop := acts ∧ Sys2Proof.RunOut s (p.expiry - guardTicks s)
    let heard : Prop := ∃ d, d < 4 ∧ dieUp s (16 + d) = true
    let free : Prop := s.pair.paired = true ∧ p.held = false ∧ p.requesting = false;
    (renews → Does (.leaseRenewTimer set) s fun t => ∃ u, SetPut s u i (fun x => { x with asked := some s.gt }) ∧ Asked u t 2 i) ∧
    (¬ renews → Does (.leaseRenewTimer set) s fun t => t = s) ∧
    (stops → Does (.leaseGuardStop set) s fun t => ∃ u, SetPut s u i (fun x => { x with stopped := true }) ∧ t = { u with ctxs := t.ctxs } ∧
      ∀ c, ctxOf t c = if c ∈ cs then { ctxOf s c with paused := (ctxOf s c).enabled } else ctxOf s c) ∧
    (¬ stops → Does (.leaseGuardStop set) s fun t => t = s) ∧
    (∀ (claim : Word) (valid : Bool),
      (p.asked = none ∨ ¬ heard → Does (.grant set claim valid) s fun t => t = s) ∧
      (∀ n, p.asked = some n → heard → ∃ u, SetPut s u i (fun x => { x with held := true, stopped := false, claim := claim.toNat, valid := valid, expiry := n + leaseTicks s, asked := none, requesting := false }) ∧
        (p.held = true → Does (.grant set claim valid) s fun t => t = cs.foldl (fun v c => if (ctxOf v c).paused then settle (modCtx v c fun k => { k with paused := false }) c else v) u) ∧
        (p.held = false → Does (.grant set claim valid) s fun t => ∃ v w x, v = raiseFences u i claim.toNat ∧
          w = ((ctxsOfSet v i).filter fun c => (ctxOf v c).standby).foldl (fun y c => takeContext y (partnerOf v) claim.toNat valid c) v ∧
          ((∀ c, c ∈ ctxsOfSet v i → (ctxOf v c).standby = false) → x = w) ∧ ((∃ c, c ∈ ctxsOfSet v i ∧ (ctxOf v c).standby = true) → Counted w x 0x3400048 1) ∧
          t = if (peerOf x (partnerOf x)).st = .lost then markStale x i else x))) ∧
    (∀ claim, let k := s.rst.trayPos / 2 * 2 + i
      let t := raiseFences s i claim
      tabGet t.pair.claimMax 0 k = max claim (tabGet s.pair.claimMax 0 k) ∧ (∀ j, j ≠ k → tabGet t.pair.claimMax 0 j = tabGet s.pair.claimMax 0 j) ∧
      t = { s with pair := { s.pair with claimMax := t.pair.claimMax }, sent := t.sent }) ∧
    (∀ former claim c valid, ((ctxOf s c).standby = false ∨ (ctxOf s c).enable = false → takeContext s former claim valid c = s) ∧
      (∀ m h, (ctxOf s c).standby = true → (ctxOf s c).enable = true → tabFind s.pair.copies c = some m → takeRefusal s (ctxOf s c) (some m) valid = none → twinInst s (ctxOf s c) m.rec_.formulaId = some h → ∃ k u,
        k.enabled = true ∧ k.standby = false ∧ k.sqHead = m.rec_.sqHead ∧ k.cqTail = m.rec_.cqTail ∧ k.cqPhase = m.rec_.cqPhase ∧ k.rqHead = m.rec_.rqHead ∧ k.frameSeq = (m.rec_.frameSeq + m.frames) % 2 ^ 32 ∧
        u = event (setCtx s c k) c (evtEntry 0x10 former stOk (claim % 2 ^ 32 + 2 ^ 32 * k.frameSeq + 2 ^ 64 * s.gt)) ∧
        takeContext s former claim valid c = settle (modCtx (bindSession (releaseSession u c) c h m.session.slot) c fun q => { q with
          session := some { m.session with seed := q.seed, counter := m.rec_.sampler, pos := m.rec_.position, stepNo := m.rec_.stepSeq },
          queue := m.request.toList, readyAt := some s.gt, waitedSince := s.gt }) c)) ∧
    (∀ valid, (heard → Does (.refuse set valid) s fun t => SetPut s t i fun x => { x with asked := none, requesting := false, valid := valid }) ∧
      (¬ heard → Does (.refuse set valid) s fun t => t = s)) ∧
    (p.staling = false ∨ ¬ heard → Does (.leaseAck set) s fun t => t = s) ∧
    (p.staling = true → heard → Does (.leaseAck set) s fun t => ∃ u v, SetPut s u i (fun x => { x with solo := true, staling := false, valid := false, resync := false }) ∧
      v = { u with pair := { u.pair with unacked := u.pair.unacked.filter (fun x => !cs.contains x.1), toSync := u.pair.toSync.filter fun c => !cs.contains c } } ∧
      t = cs.foldl (fun x c => event (releaseSolo x c) c (evtEntry 0x11 0 stOk s.gt)) v) ∧
    (free → Does (.pairTake .secure set) s fun t => ∃ u, SetPut s u i (fun x => { x with requesting := true, asked := some s.gt }) ∧ Asked u t 1 i) ∧
    (¬ free → Does (.pairTake .secure set) s fun t => t = s) ∧
    (∀ r, r ≠ .secure → Does (.pairTake r set) s fun t => t = logRefused s r 0x340000C (BitVec.ofNat 32 (i * 2 + 1)) stDenied)

/-- COMMIT_RECORD, MIRROR_ACK_TIMEOUT, RESYNC_COMPLETE and FAILBACK (12_mirrored_pairs.md R395 to R397, R403, R408 to R410). -/
def Obligations.MirrorFlow : Prop :=
  (∀ (s : State) (c : BitVec 12) (tag : BitVec 16) (lines : List Byte) (r : Commit) (image : Session) (req : Option Adm) (frames : BitVec 8), let k := ctxOf s c.toNat
    let run := Does (.commitRecord c tag lines r image req frames) s
    let key := s.rst.trayPos / 2 * 2 + setOf s k
    let mine : Prop := s.pair.paired = true ∧ (k.mirror = true ∨ k.shadow = true)
    let stale : Prop := r.claim = 0 ∨ r.claim < tabGet s.pair.claimMax 0 key
    let good : Prop := lines.length = r.bytes ∧ polyOut 2 (polyRun 2 (polyInit 2) lines) = r.crc
    let raised : State := { s with pair := { s.pair with claimMax := tabPut s.pair.claimMax key r.claim } }
    let answered (u t : State) (st : Nat) : Prop :=
      (pickLink (linksTo u (partnerOf u) 1) 0 = none → t = u) ∧
      ∀ l, pickLink (linksTo u (partnerOf u) 1) 0 = some l → t = transmit u l.1 l.2 (partnerOf u) tag.toNat 0 (.completion st 0 []);
    (¬ mine → run fun t => t = s) ∧
    (mine → stale → run fun t => ∃ u, Counted s u 0x340004C 1 ∧ answered u t stStaleClaim) ∧
    (mine → ¬ stale → ¬ good → run fun t => answered raised t stMirrorCrc) ∧
    (mine → ¬ stale → good → run fun t => ∃ u, tabFind u.pair.copies c.toNat = some ⟨r, image, req, frames.toNat⟩ ∧ (∀ e, e ≠ c.toNat → tabFind u.pair.copies e = tabFind s.pair.copies e) ∧
      u = { s with pair := { raised.pair with copies := u.pair.copies } } ∧ answered u t stOk)) ∧
  (∀ (s : State) (c : BitVec 12), let late : Prop := ∃ n, (c.toNat, n) ∈ s.pair.unacked ∧ Sys2Proof.RunOut s n
    let i := setOf s (ctxOf s c.toNat)
    (late → Does (.mirrorAckTimeout c) s fun t =>
      t = ((ctxsOfSet s i).filter fun m => match (ctxOf s m).output with | some o => !o.mirror | none => false).foldl (fun t m => yieldToMirror t m s.gt) (markStale s i)) ∧ (¬ late → Does (.mirrorAckTimeout c) s fun t => t = s)) ∧
  (∀ (s : State) (i : Nat), let p := pairSet s i
    let can : Prop := p.held = true ∧ p.solo = false ∧ p.staling = false;
    (can → ∃ u, SetPut s u i (fun x => { x with staling := true, resync := false }) ∧ Asked u (markStale s i) 4 i) ∧ (¬ can → markStale s i = s)) ∧
  (∀ (s : State) (set : BitVec 1), let i := set.toNat
    let cs := ctxsOfSet s i
    let p := pairSet s i
    let auto := (regVal s 0x3400000).getLsbD 6
    let synced : Prop := p.resync = true ∧ ∀ c, c ∈ s.pair.toSync → c ∉ cs
    (synced → Does (.resyncComplete set) s fun t => ∃ u v w, SetPut s u i (fun x => { x with solo := false, resync := false, valid := true }) ∧ Asked u v 5 i ∧
      w = cs.foldl (fun t c => event t c (evtEntry 0x12 0 stOk s.gt)) v ∧ SetPut w t i fun x => { x with handBack := x.handBack || (decide (i ≠ s.rst.trayPos % 2) && auto) }) ∧
    (¬ synced → Does (.resyncComplete set) s fun t => t = s) ∧
    ∀ taken : Bool, let goes : Prop := p.held = true ∧ p.solo = false ∧ p.staling = false ∧ i ≠ s.rst.trayPos % 2 ∧ (taken = true ∨ auto = true);
      (goes → Does (.failback set taken) s fun t => ∃ u, SetPut s u i (fun x => { x with handBack := true }) ∧ t = handBacks u) ∧
      (¬ goes → Does (.failback set taken) s fun t => t = s)) ∧
  ∀ (s : State) (i : Nat), let cs := (ctxsOfSet s i).filter fun c => (ctxOf s c).enabled
    ∃ u v, u = cs.foldl (fun t c => modCtx (event t c (evtEntry 0x13 (partnerOf t) stOk (2 ^ 32 * (((ctxOf t c).frameSeq + 2 ^ 32 - 1) % 2 ^ 32)))) c fun q =>
        { q with enabled := false, standby := true, queue := [], events := [], waiting := none, buffers := [] }) s ∧
      Asked u v 3 i ∧ SetPut v (handBack s i) i fun x => { x with held := false, stopped := false, handBack := false, expiry := 0, asked := none }

namespace Sys2Proof

/-- A provisioning command completes with a status, in SEC_MBOX_STATUS or in the PLDM response (13_tenancy_security.md R422). -/
def Ended (s t : State) (mgmt : Bool) (opcode st : Nat) : Prop :=
  (mgmt = true → t = { s with sent := (s.gt, .plain "PLDM response" (opcode * 256 + st)) :: s.sent }) ∧
  (mgmt = false → regVal t 0x400014 = BitVec.ofNat 32 (opcode * 256 + st) ∧ OtherRegs [0x400014] s t ∧ t = { s with rf := { s.rf with vals := t.rf.vals } })

/-- A provisioning command is registered (13_tenancy_security.md R421): it waits for the end of its tick, and the mailbox is BUSY. -/
def Registered (s t : State) (mgmt : Bool) (x : SecCmd) : Prop :=
  let waits : Sec := { s.sec with cmds := s.sec.cmds ++ [(mgmt, x)] }
  (mgmt = true → t = { s with sec := waits }) ∧
  (mgmt = false → (regVal t 0x400014).getLsbD 31 = true ∧ OtherRegs [0x400014] s t ∧ t = { s with sec := waits, rf := { s.rf with vals := t.rf.vals } })

/-- A provisioning command is registered, unless the mailbox holds one already; run, it is denied to the mailbox under MGMT_ONLY, else refused
with a status that changes nothing else, or carried out. -/
def CommandRuns (c : Instr) (x : SecCmd) (s : State) (mgmt : Bool) (opcode : Nat) (refusal : Option Nat) (act : State → Prop) : Prop :=
  let busy : Prop := mgmt = false ∧ ∃ y, (false, y) ∈ s.sec.cmds
  let run := runCmd s mgmt x
  (busy → Does c s fun t => t = s) ∧ (¬ busy → Does c s fun t => Registered s t mgmt x) ∧
  (mgmt = false → s.sec.mgmtOnly = true → Ended s run mgmt opcode stDenied) ∧
  (mgmt = true ∨ s.sec.mgmtOnly = false → (∀ st, refusal = some st → Ended s run mgmt opcode st) ∧ (refusal = none → ∃ u, act u ∧ Ended u run mgmt opcode stOk))

/-- One context is replaced; every other context and the rest of the state are as before. -/
def CtxPut (s t : State) (c : Nat) (k : Ctx) : Prop := ctxOf t c = k ∧ OtherCtxs c s t ∧ t = { s with ctxs := t.ctxs }

/-- One domain is replaced; every other domain and the rest of the state are as before. -/
def DomPut (s t : State) (d : Nat) (x : Dom) : Prop := domOf t d = x ∧ OtherDoms d s t ∧ t = { s with arr := { s.arr with doms := t.arr.doms } }

end Sys2Proof

/-- PROVISION_CTX, UNPROVISION_CTX, SET_DOMAIN, MOVE_STACK, SLOT_SET and SET_POLICY (13_tenancy_security.md R421 to R427, R435): each is
registered and runs when its tick ends, those of the management path first (notes/assumptions/103.md). -/
def Obligations.ProvisioningCommands : Prop :=
  (∀ s : State, runCmds s = (s.sec.cmds.filter fun e => !e.1).foldl (fun t e => runCmd t e.1 e.2)
    ((s.sec.cmds.filter fun e => e.1).foldl (fun t e => runCmd t e.1 e.2) { s with sec := { s.sec with cmds := [] } })) ∧
  (∀ (s : State) (mgmt : Bool),
    (∀ (ctx : BitVec 16) (dom cls : BitVec 8) (w maxOut : BitVec 16) (maxTokens : Word) (maxInst : BitVec 8) (period stepUs boundUs : BitVec 16), let z (x : BitVec 16) : Nat := if cls = 2#8 then x.toNat else 0
      let p : Prov := ⟨dom.toNat, cls.toNat, w.toNat, maxOut.toNat, maxTokens.toNat, maxInst.toNat, z period, z stepUs, z boundUs⟩
      let k := ctxOf s ctx.toNat
      CommandRuns (.provisionCtx mgmt ctx dom cls w maxOut maxTokens maxInst period stepUs boundUs) (.provision ctx.toNat p) s mgmt 1 (provRefusal s ctx.toNat p) fun u =>
        (∀ old, k.prov = some old → (k.enable = true ∨ k.enabled = true) → old.cls ≠ p.cls → CtxPut s u ctx.toNat
          { k with prov := some { p with cls := old.cls, period := old.period, stepUs := old.stepUs, boundUs := old.boundUs }, newClass := some p }) ∧
        ((∀ old, k.prov = some old → (k.enable = true ∨ k.enabled = true) → old.cls = p.cls) → CtxPut s u ctx.toNat { k with prov := some p, newClass := none })) ∧
    (∀ ctx : BitVec 16, let k := ctxOf s ctx.toNat
      CommandRuns (.unprovisionCtx mgmt ctx) (.unprovision ctx.toNat) s mgmt 2 (if 4096 ≤ ctx.toNat then some stRange else if k.enable = true ∨ k.enabled = true then some stCtxState else none) fun u =>
        CtxPut s u ctx.toNat { k with prov := none, newClass := none }) ∧
    (∀ (dom t1 : BitVec 8) (t2 : BitVec 16) (bw sil planes slots : BitVec 8), let d := dom.toNat
      let x := domOf s d
      let range : Prop := 8 ≤ d ∨ 36 < shareSum s d t1.toNat Dom.t1Gib ∨ t2Limit s < shareSum s d t2.toNat Dom.t2Gib ∨ 4096 < t2.toNat ∨ 100 < shareSum s d bw.toNat Dom.bwPct ∨
        100 < shareSum s d sil.toNat Dom.silPct ∨ 24 < shareSum s d planes.toNat Dom.planes ∨ 32 < shareSum s d slots.toNat Dom.slots
      let least : Prop := stacksOf s d ≠ [] ∧ (bw = 0#8 ∨ sil = 0#8 ∨ planes = 0#8)
      let uses : Prop := t1.toNat * gib < x.t1Gib * gib - t1Free s d ∨ t2.toNat * gib < x.t2Gib * gib - t2Free s d ∨ slots.toNat < slotsUsed s d
      ∃ refusal, (range → refusal = some stRange) ∧ (¬ range → least ∨ uses → refusal = some stSecRefused) ∧ (¬ range → ¬ least → ¬ uses → refusal = none) ∧
        CommandRuns (.setDomain mgmt dom t1 t2 bw sil planes slots) (.setDomain d ⟨t1.toNat, t2.toNat, bw.toNat, sil.toNat, planes.toNat, slots.toNat⟩) s mgmt 3 refusal fun u => DomPut s u d
          { x with t1Gib := t1.toNat, t2Gib := t2.toNat, bwPct := bw.toNat, silPct := sil.toNat, planes := planes.toNat, slots := slots.toNat }) ∧
    (∀ stack dest : BitVec 8, CommandRuns (.moveStack mgmt stack dest) (.moveStack stack.toNat dest.toNat) s mgmt 4 (moveRefusal s stack.toNat dest.toNat) fun u => u = startMove s stack.toNat dest.toNat ∧ moveRefusal s stack.toNat dest.toNat = none ∧ stack.toNat < 8 ∧ dest.toNat ≤ 8) ∧
    (∀ (slot : BitVec 8) (enable : Bool) (minSvn : BitVec 16) (x y : BitVec 384), let old := s.sec.slots.getD slot.toNat ⟨false, false, (0, 0), 0⟩
      let key := (x.toNat, y.toNat)
      CommandRuns (.slotSet mgmt slot enable minSvn x y) (.slotSet slot.toNat enable minSvn.toNat key) s mgmt 5
        (if 8 ≤ slot.toNat then some stRange else if minSvn.toNat < old.minSvn ∨ (old.en = true ∧ old.key ≠ key) then some stSecRefused else none) fun u =>
        u = { s with sec := { s.sec with slots := listSet s.sec.slots slot.toNat ⟨enable, decide (key ≠ (0, 0)), key, minSvn.toNat⟩ } }) ∧
    (∀ strict : Bool, CommandRuns (.setPolicy mgmt strict) (.setPolicy strict) s mgmt 6 (if mgmt then none else some stDenied) fun u => u = { s with sec := { s.sec with strictTime := strict } })) ∧
  (∀ (s : State) (c : Nat) (p : Prov), let k := ctxOf s c
    let range : Prop := 4096 ≤ c ∨ 8 ≤ p.dom ∨ 2 < p.cls ∨ p.weight = 0 ∨ p.maxOut = 0 ∨ p.maxTokens = 0 ∨ 4194304 < p.maxTokens ∨ 64 < p.maxInst
    let moved : Prop := (k.enable = true ∨ k.enabled = true) ∧ k.prov.map Prov.dom ≠ some p.dom
    (range → provRefusal s c p = some stRange) ∧ (¬ range → moved → provRefusal s c p = some stCtxState) ∧
    (¬ range → ¬ moved → p.cls = 2 → feasible (p :: reservedIn s p.dom c) = false → provRefusal s c p = some stSchedInfeasible)) ∧
  (∀ p : Prov, feasible [p] = true ↔ 0 < p.period ∧ 200 + p.stepUs ≤ p.boundUs ∧ 2 * p.stepUs ≤ p.period * 100) ∧
  ∀ p q : Prov, 0 < p.period → 0 < q.period → (feasible [p, q] = true ↔
    200 + p.stepUs + q.stepUs * ((p.boundUs + q.period * 100 - 1) / (q.period * 100) + 1) ≤ p.boundUs ∧
    200 + q.stepUs + p.stepUs * ((q.boundUs + p.period * 100 - 1) / (p.period * 100) + 1) ≤ q.boundUs ∧
    2 * (p.stepUs * (q.period * 100) + q.stepUs * (p.period * 100)) ≤ p.period * 100 * (q.period * 100))

namespace Sys2Proof

/-- An SPDM responder answers a request in its order; out of order it sends an ERROR response and changes nothing else
(13_tenancy_security.md R430; the response codes are the model's choice, notes/assumptions/30). -/
def Responds (c : Instr) (s : State) (path code : Nat) (ok : Prop) (f : Spdm → Spdm) (body : List Byte) : Prop :=
  (ok → Does c s fun t => spdmOf t path = f (spdmOf s path) ∧ (∀ p, p ≠ path → spdmOf t p = spdmOf s p) ∧
    t = { s with sec := { s.sec with spdm := t.sec.spdm }, sent := (s.gt, .spdm code body) :: s.sent }) ∧
  (¬ ok → Does c s fun t => t = { s with sent := (s.gt, .spdm 0x7F [0x04#8]) :: s.sent })

/-- The TDI state of one function is replaced; every other and the rest of the state are as before. -/
def TdiPut (s t : State) (v : Nat) (x : TdiState) : Prop :=
  tdiOf t v = x ∧ (∀ w, w ≠ v → tdiOf t w = tdiOf s w) ∧ t = { s with sec := { s.sec with tdi := t.sec.tdi } }

end Sys2Proof

/-- SPDM, IDE_KM and TDISP (13_tenancy_security.md R430 to R432). -/
def Obligations.SecurityExchanges : Prop :=
  (∀ (s : State) (path : BitVec 1), let p := path.toNat
    let x := spdmOf s p
    Responds (.getVersion path) s p 0x04 True (fun _ => { version := true }) [0x12#8] ∧
    Responds (.getCapabilities path) s p 0x61 (x.version = true) (fun x => { x with caps := true }) [] ∧
    Responds (.negotiateAlgorithms path) s p 0x63 (x.caps = true) (fun x => { x with algs := true }) [] ∧
    Responds (.getDigests path) s p 0x01 (x.algs = true) id [] ∧ Responds (.getCertificate path) s p 0x02 (x.algs = true) id [] ∧
    Responds (.challenge path) s p 0x03 (x.algs = true) id [] ∧ Responds (.getMeasurements path) s p 0x60 (x.algs = true) id s.sec.measurements.flatten ∧
    Responds (.keyExchange path) s p 0x64 (x.algs = true) (fun x => { x with exchanged := true, session := false }) [] ∧
    (∀ ok, Responds (.finish path ok) s p 0x65 (x.exchanged = true ∧ ok = true) (fun x => { x with exchanged := false, session := true }) []) ∧
    ∀ (stream : BitVec 6) (install : Bool), (x.session = false → Does (.ideKm path stream install) s fun t => t = { s with sent := (s.gt, .spdm 0x7F [0x04#8]) :: s.sent }) ∧
      (x.session = true → Does (.ideKm path stream install) s fun t => ((tabFind t.sec.ide stream.toNat).isSome = install) ∧ (∀ k, k ≠ stream.toNat → tabFind t.sec.ide k = tabFind s.sec.ide k) ∧
        t = { s with sec := { s.sec with ide := t.sec.ide }, sent := (s.gt, .spdm 0x7E []) :: s.sent })) ∧
  (∀ (s : State) (vf : BitVec 6), let v := vf.toNat
    let maps (c : Nat) : Prop := ∃ i, i < 64 ∧ slotCtx s v i = some c
    let alone : Prop := (∀ c, maps c → (ctxOf s c).prov.isSome = true) ∧ ∀ c d e, maps c → domOfCtx s c = some d → e ∈ ctxsOfDom s d → fnOf s e = v
    let locks : Prop := v ≠ 0 ∧ tdiOf s v = .unlocked ∧ alone
    let refused (t : State) : Prop := t = { s with sent := (s.gt, .plain "TDISP invalid interface state" v) :: s.sent };
    (locks → Does (.lockInterfaceRequest vf) s fun t => ∃ u, TdiPut s u v .lockedCfg ∧ t = { u with sent := (s.gt, .plain "TDISP locked" v) :: s.sent }) ∧
    (¬ locks → Does (.lockInterfaceRequest vf) s refused) ∧
    (tdiOf s v = .lockedCfg → Does (.tdiStart vf) s fun t => ∃ u, TdiPut s u v .run ∧ t = { u with sent := (s.gt, .plain "TDISP started" v) :: s.sent }) ∧
    (tdiOf s v ≠ .lockedCfg → Does (.tdiStart vf) s refused) ∧
    ∀ error : Bool, let dest : TdiState := if error then .error else .unlocked
      (v = 0 ∨ tdiOf s v = dest → Does (.tdiUnlock vf error) s fun t => t = s) ∧
      (v ≠ 0 → tdiOf s v ≠ dest → Does (.tdiUnlock vf error) s fun t => ∃ u w, let cs := (List.range 64).filterMap (slotCtx s v)
        u = cs.foldl (fun t c => disableCtx (event t c (evtEntry 0x1A (if error then 2 else 1) stOk t.gt)) c) s ∧
        w = { u with mem := markPending u.mem fun g => cs.contains (Config.granuleOwner g) } ∧ TdiPut w t v dest))

namespace Sys2Proof

/-- A hold is asserted in every domain and counted in PWR_HOLDS (14_power_clocks_thermal.md R459). -/
def HoldAsserted (s t : State) (h : Nat) : Prop :=
  ∃ u, u = { s with pwr := { s.pwr with hold := max s.pwr.hold h, holdSince := if s.pwr.hold = 0 then s.gt else s.pwr.holdSince, released := [] } } ∧ Counted u t 0x200024 1

/-- A Drydown stage is requested: a raise counts in PWR_STAGE_UPS, and every domain's step follows (14 R458, R474). -/
def StageRequested (s t : State) (n : Nat) : Prop :=
  ∃ u, (s.pwr.stage < n → Counted s u 0x200020 1) ∧ (n ≤ s.pwr.stage → u = s) ∧ t = settleStage (retargetAll { u with pwr := { u.pwr with wanted := n } })

end Sys2Proof

/-- POWER_SAMPLE, HALF_HOLD_TIMEOUT, OVERCURRENT, VIN_EXCURSION and DRYDOWN_EVALUATION (14_power_clocks_thermal.md R446, R455 to R459). -/
def Obligations.PowerControl : Prop :=
  ∀ s : State, let cap := regBits s 0x200004 10 0
    let high (s : State) : Prop := regBits s 0x200004 23 16 * regBits s 0x200004 10 0 * 16 * (s.pwr.samples.take 10).length < 100 * (s.pwr.samples.take 10).sum
    let below (s : State) : Prop := (s.pwr.samples.take 10).sum < regBits s 0x200004 10 0 * 16 * (s.pwr.samples.take 10).length
    (∀ (power vin iin : BitVec 16) (est : List (BitVec 8 × BitVec 16)), Does (.powerSample power vin iin est) s fun t => ∃ u v,
      u = { s with pwr := { s.pwr with samples := (power.toNat :: s.pwr.samples).take 1000, vinMv := vin.toNat, iin := iin.toNat, est := (est.take 49).map fun e => (e.1.toNat, e.2.toNat) } } ∧
      (s.pwr.hold = 0 → v = u) ∧
      (s.pwr.hold ≠ 0 → count64 v 0x200028 = min (count64 u 0x200028 + 1) (2 ^ 64 - 1) ∧ OtherRegs [0x200028, 0x20002C] u v ∧ v = { u with rf := { u.rf with vals := v.rf.vals } }) ∧
      let raised : Prop := s.pwr.raisedAt = some s.gt
      let asserts : Prop := high v ∧ (v.pwr.hold = 0 ∨ v.pwr.released ≠ []);
      (raised → t = v) ∧ (¬ raised → asserts → HoldAsserted v t 1) ∧
      (¬ raised → ¬ asserts → v.pwr.hold = 2 → below v → t = { v with pwr := { v.pwr with hold := 1, holdSince := s.gt } }) ∧
      (¬ raised → ¬ asserts → ¬ (v.pwr.hold = 2 ∧ below v) → t = v)) ∧
    (let odd : Prop := s.pwr.stage = 10 ∧ s.gt % 1000000 = 0;
      (odd → startOddSteps s = (heldDoms s).foldl formBatch s) ∧ (¬ odd → startOddSteps s = s)) ∧
    (s.pwr.hold = 1 ∧ Sys2Proof.RunOut s (s.pwr.holdSince + 20000) ∧ high s → Does .halfHoldTimeout s fun t => t = { s with pwr := { s.pwr with hold := 2, released := [] } }) ∧
    (¬ (s.pwr.hold = 1 ∧ Sys2Proof.RunOut s (s.pwr.holdSince + 20000) ∧ high s) → Does .halfHoldTimeout s fun t => t = s) ∧
    (Does .overcurrent s fun t => ∃ u v, HoldAsserted s u 2 ∧ (regVal v 0x200000).getLsbD 8 = true ∧ OtherRegs [0x200000] u v ∧ v = { u with rf := { u.rf with vals := v.rf.vals, setAt := v.rf.setAt } } ∧
      t = fault v { cls := 0x13, unit := unitId 0x0E 0, outcome := 0 }) ∧
    (Does .vinExcursion s fun t => t = coldReset (islandFault s { cls := 0x13, unit := unitId 0x0E 0, outcome := 4 }) 2 (strapsOf s)) ∧
    (let p := s.pwr
      let xs := p.samples.take (min 1000 ((s.gt - p.stageAt) / 1000))
      let band := cap * (100 - regBits s 0x200004 26 24) * 16
      let overRange : Prop := cap * 16 * xs.length < xs.sum
      let low : Prop := 100 * xs.sum < band * xs.length
      let waits : Prop := p.stage ≠ p.wanted ∨ ¬ Sys2Proof.RunOut s (p.stageAt + 100000)
      let u : State := if low then s else { s with pwr := { p with highAt := s.gt } }
      let run := Does .drydownEvaluation s
      let mayLower : Prop := 0 < p.stage ∧ low ∧ p.highAt + 5000000 ≤ s.gt
      let barred (m : Nat) : Prop := ∃ l, tabFind p.left m = some l ∧ s.gt - l.2 ≤ 100000000 ∧ band ≤ 100 * l.1;
      (waits → run fun t => t = s) ∧
      (¬ waits → overRange → p.stage < 10 → run fun t => ∃ v, v = { u with pwr := { u.pwr with left := tabPut p.left p.stage (xs.sum / max 1 xs.length, s.gt) } } ∧
        (∀ m, higherStage v p.stage = some m → StageRequested v t m) ∧ (higherStage v p.stage = none → t = v)) ∧
      (¬ waits → ¬ (overRange ∧ p.stage < 10) → mayLower → run fun t => (∀ m, lowerStage u p.stage = some m → ¬ barred m → StageRequested u t m) ∧
        ((∀ m, lowerStage u p.stage = some m → barred m) → t = u)) ∧
      (¬ waits → ¬ (overRange ∧ p.stage < 10) → ¬ mayLower → run fun t => t = u))

namespace Sys2Proof

/-- The clock of one domain is replaced; every other domain's and the rest of the state are as before. -/
def ClkPut (s t : State) (d : Nat) (x : ClkDom) : Prop := clkOf t d = x ∧ (∀ e, e ≠ d → clkOf t e = clkOf s e) ∧ t = { s with pwr := { s.pwr with clk := t.pwr.clk } }

/-- The replica state of one compute die is replaced; every other die's and the rest of the state are as before. -/
def RepPut (s t : State) (i : Nat) (x : Replica) : Prop := replicaOf t i = x ∧ (∀ e, e ≠ i → replicaOf t e = replicaOf s e) ∧ t = { s with pwr := { s.pwr with reps := t.pwr.reps } }

end Sys2Proof

/-- PLL_LOCKED, VCORE_RAMP_DONE, REPLICA_SAMPLE, MARGIN_RECOVERY, REFCLK_LOST, HOLDOVER_EXPIRY and REFCLK_RETURN (14_power_clocks_thermal.md R451 to R454, R465). -/
def Obligations.CoreClocks : Prop :=
  (∀ (s : State) (d : Nat), let x := clkOf s d
    let dest := max (max (stageCeil s s.pwr.wanted) (thermalCeil s d)) (max x.marginCeil (pinnedCeil s d))
    let next := if dest < x.step then x.step - 1 else dest
    (x.ramp ≠ none ∨ x.pend = some next → retarget s d = s) ∧
    (x.ramp = none → x.pend ≠ some next → ClkPut s (retarget s d) d { x with pend := if next = x.step then none else some next, locked := false }) ∧
    (∀ n, ∃ u v, ClkPut s u d { x with step := n, pend := none, locked := false, ramp := none } ∧ Counted u v 0x100030 1 ∧ setStep s d n = stageEffect (retarget v d) d) ∧
    (∀ n, x.pend = some n → x.locked = true → s.pwr.refOk = true → x.ramp = none → (x.step < n → clockBoundary s d = setStep s d n) ∧
      (n ≤ x.step → ClkPut s (clockBoundary s d) d { x with ramp := some n, rampAt := s.gt, pend := none, locked := false })) ∧
    (x.pend = none ∨ x.locked = false ∨ s.pwr.refOk = false ∨ x.ramp ≠ none → clockBoundary s d = stageEffect s d)) ∧
  (∀ (s : State) (d : BitVec 3), let x := clkOf s d.toNat
    (x.pend = none ∨ s.pwr.refOk = false ∨ Instr.refclkLost ∈ s.pending → Does (.pllLocked d) s fun t => t = s) ∧
    (x.pend ≠ none → s.pwr.refOk = true → Instr.refclkLost ∉ s.pending → Does (.pllLocked d) s fun t => ∃ u, ClkPut s u d.toNat { x with locked := true } ∧
      ((domOf s d.toNat).phase = .idle → t = clockBoundary u d.toNat) ∧ ((domOf s d.toNat).phase ≠ .idle → t = u)) ∧
    (∀ n, x.ramp = some n → Does (.vcoreRampDone d) s fun t => t = setStep s d.toNat n) ∧ (x.ramp = none → Does (.vcoreRampDone d) s fun t => t = s) ∧
    (let rises : Prop := pinnedCeil s d.toNat < x.marginCeil ∧ Sys2Proof.RunOut s (x.warnedAt + 100000000) ∧ (x.roseAt = 0 ∨ x.roseAt + 1000000000 ≤ s.gt);
      (rises → Does (.marginRecovery d) s fun t => ∃ u, ClkPut s u d.toNat { x with marginCeil := x.marginCeil - 1, roseAt := s.gt } ∧ t = retarget u d.toNat) ∧
      (¬ rises → Does (.marginRecovery d) s fun t => t = s))) ∧
  (∀ (s : State) (i : BitVec 4) (slacks : List (BitVec 8)), let r := replicaOf s i.toNat
    let xs := (List.range 32).map fun k => (slacks.getD k 0xFF#8).toNat
    let low := List.zipWith (fun n x => if x < 16 then n + 1 else 0) r.low xs
    let warns : Prop := ∃ n, n ∈ low ∧ 3 ≤ n
    (dieUp s ((dieOfPd i.toNat).getD 0) = false → Does (.replicaSample i slacks) s fun t => t = s) ∧
    (dieUp s ((dieOfPd i.toNat).getD 0) = true → Does (.replicaSample i slacks) s fun t => ∃ u,
      RepPut s u i.toNat { r with low := if warns then List.replicate 32 0 else low, minSlack := xs.foldl min r.minSlack } ∧ (warns → t = replicaWarn u i.toNat) ∧ (¬ warns → t = u))) ∧
  (∀ (s : State) (i d : Nat), (stackOf s (i / 2)).domain = some d → ∃ u v w, let r := replicaOf s i
    let ws := r.warns.filter (fun t => decide (s.gt < t + 10000000000)) ++ [s.gt]
    let down := min 7 ((clkOf s d).step + 1)
    let pins : Prop := 3 ≤ ws.length ∧ r.pinned = none
    Counted s u 0x100034 1 ∧ RepPut u v i { r with warns := ws, pinned := if pins then some down else r.pinned } ∧
    ClkPut v w d { clkOf s d with marginCeil := max (clkOf s d).marginCeil down, warnedAt := s.gt, ramp := if (clkOf s d).rampAt = s.gt then none else (clkOf s d).ramp } ∧
    replicaWarn s i = retarget (if pins then fault w { cls := 0x19, unit := unitId 1 ((dieOfPd i).getD 0), outcome := 0, domains := [d] } else w) d) ∧
  ∀ s : State,
    (s.pwr.refOk = false → Does .refclkLost s fun t => t = s) ∧
    (s.pwr.refOk = true → Does .refclkLost s fun t => ∃ u v, (regVal u 0x100000).getLsbD 5 = true ∧ OtherRegs [0x100000] s u ∧ u = { s with rf := { s.rf with vals := u.rf.vals, setAt := u.rf.setAt } } ∧
      v = { u with pwr := { u.pwr with refOk := false, holdover := some s.gt, clk := u.pwr.clk.map fun e => (e.1, { e.2 with locked := false }) } } ∧
      t = fault v { cls := 0x12, unit := unitId 0x0E 0, outcome := 0 }) ∧
    (let expired : Prop := (∃ n, s.pwr.holdover = some n ∧ Sys2Proof.RunOut s (n + 10000000)) ∧ s.pwr.halted = false;
      (expired → Does .holdoverExpiry s fun t => ∃ u, u = { s with arr := { s.arr with noOps := true }, pwr := { s.pwr with halted := true } } ∧
        t = fault u { cls := 0x12, unit := unitId 0x0E 0, outcome := 7, domains := activeDoms s, interrupts := activeDoms s ≠ [] }) ∧
      (¬ expired → Does .holdoverExpiry s fun t => t = s)) ∧
    (s.pwr.refOk = true → Does .refclkReturn s fun t => t = s) ∧
    (s.pwr.refOk = false → Does .refclkReturn s fun t => ∃ u, u = { s with pwr := { s.pwr with refOk := true, holdover := none, halted := false } } ∧ (s.pwr.halted = false → t = u) ∧
      (s.pwr.halted = true → t = (List.range 8).foldl (fun v d => formBatch (startIfReady v d) d) { u with arr := { u.arr with noOps := false } }))

namespace Sys2Proof

/-- The thermal state of one die is replaced; every other die's and the rest of the state are as before. -/
def ThermPut (s t : State) (i : Nat) (x : Therm) : Prop := thermOf t i = x ∧ (∀ e, e ≠ i → thermOf t e = thermOf s e) ∧ t = { s with pwr := { s.pwr with therm := t.pwr.therm } }

end Sys2Proof

/-- THERMAL_SAMPLE, THROTTLE_STEP, THERMAL_CEILING_RISE and the latches (14_power_clocks_thermal.md R461 to R464). -/
def Obligations.ThermalStates : Prop :=
  (∀ (T g : Int) (clear : Bool) (l : ThLatch), let n := stepLatch T g clear l
    (l.set = false → T ≤ g → l.c + 1 ≠ 100 → n = { l with c := l.c + 1 }) ∧ (l.set = false → T ≤ g → l.c + 1 = 100 → n = ⟨true, 0, 0⟩) ∧
    (l.set = false → g < T → n = { l with c := l.c - 1 }) ∧
    (l.set = true → T - 48 ≤ g → n = { l with r := l.r - 1 }) ∧ (l.set = true → g < T - 48 → l.r + 1 < 100 → n = { l with r := l.r + 1 }) ∧
    (l.set = true → g < T - 48 → 100 ≤ l.r + 1 → n = if clear then ⟨false, 0, 0⟩ else { l with r := 100 })) ∧
  (∀ (s : State) (i : BitVec 5) (readings : List (BitVec 16)), let old := thermOf s i.toNat
    (pdOf s i.toNat ≠ .on ∨ 28 < i.toNat → Does (.thermalSample i readings) s fun t => t = s) ∧
    (pdOf s i.toNat = .on → i.toNat ≤ 28 → Does (.thermalSample i readings) s fun t => ∃ u v x g,
      (u = s ∨ u = { s with free := s.free + 1 }) ∧ ThermPut u v i.toNat x ∧ x.gov = g ∧
      (∀ own, own = (readSensors s i.toNat readings).2 → ∀ y, governing s i.toNat own x.suspect = some y → g = y ∧ u = s) ∧
      x.trip = (if old.trip.set then old.trip else stepLatch 1760 g true old.trip) ∧
      x.throt = stepLatch 1600 g (!x.trip.set) old.throt ∧ x.warn = stepLatch 1520 g (!x.trip.set && !x.throt.set) old.warn ∧
      x.failed = (readSensors s i.toNat readings).1.failed ∧ x.sensors = (readSensors s i.toNat readings).1.sensors ∧
      t = retargetAll (thermalActs v i.toNat old x))) ∧
  (∀ (s : State) (i : Nat) (old x : Therm),
    (x.trip.set = true → old.trip.set = false → thermalActs s i old x = tripReset s i) ∧
    (∀ d, (x.trip.set = false ∨ old.trip.set = true) → x.warn.set = old.warn.set → x.throt.set = true → old.throt.set = false → i < 16 → (stackOf s (i / 2)).domain = some d → (x.suspect = false ∨ old.suspect = true) →
      ∃ u, ClkPut s u d { clkOf s d with thCeil := min 7 (max (clkOf s d).thCeil ((clkOf s d).step + 1)) } ∧ thermalActs s i old x = noteThrottle (retarget u d))) ∧
  (∀ (s : State) (i : BitVec 5), let x := thermOf s i.toNat
    (∀ n d, x.hotSince = some n → i.toNat < 16 → (stackOf s (i.toNat / 2)).domain = some d → x.throt.set = true → Sys2Proof.RunOut s (n + 5000000) → Does (.throttleStep i) s fun t => ∃ u v, ThermPut s u i.toNat { x with hotSince := some s.gt } ∧
      ClkPut u v d { clkOf s d with thCeil := min 7 (max ((clkOf s d).thCeil + 1) ((clkOf s d).step + 1)) } ∧ t = retarget v d) ∧
    (x.hotSince = none ∨ 16 ≤ i.toNat ∨ (stackOf s (i.toNat / 2)).domain = none ∨ x.throt.set = false ∨ (∃ n, x.hotSince = some n ∧ ¬ Sys2Proof.RunOut s (n + 5000000)) → Does (.throttleStep i) s fun t => t = s)) ∧
  ∀ (s : State) (d : BitVec 3), let x := clkOf s d.toNat
    let rises : Prop := x.thCeil ≠ 0 ∧ throttled s d.toNat = false ∧ Sys2Proof.RunOut s (x.coolAt + 5000000);
    (rises → Does (.thermalCeilingRise d) s fun t => ∃ u, ClkPut s u d.toNat { x with thCeil := x.thCeil - 1, coolAt := s.gt } ∧ t = retarget u d.toNat) ∧
    (¬ rises → Does (.thermalCeilingRise d) s fun t => t = s)

namespace Sys2Proof

/-- One die is replaced; every other die and the rest of the state are as before. -/
def DiePut (s t : State) (i : Nat) (x : Die) : Prop := dieOf t i = x ∧ OtherDies i s t ∧ t = { s with arr := { s.arr with dies := t.arr.dies } }

end Sys2Proof

/-- HEARTBEAT, HEARTBEAT_TIMEOUT, REGULATOR_FAULT, DIE_PLL_UNLOCK, DIE_LOCAL_RESET, DIE_LOCAL_RESET_DONE and POWER_DOMAIN_RAMP_DONE (17_faults.md R534 to R540; 15_reset_boot.md
R485, R486; 14_power_clocks_thermal.md R447, R448). -/
def Obligations.DiesAndRegulators : Prop :=
  (∀ (s : State) (i : BitVec 5), let n := i.toNat
    let beats : Prop := n < 29 ∧ n ≠ 20 ∧ dieUp s n = true ∧ (21 ≤ n → dieUp s (n - 21) = true)
    let silent : Prop := n < 29 ∧ n ≠ 20 ∧ dieUp s n = true ∧ Sys2Proof.RunOut s ((dieOf s n).beat + 4000);
    (beats → s.gt ≤ (dieOf s n).beat + 4000 → Does (.heartbeat i) s fun t => DiePut s t n { dieOf s n with beat := s.gt }) ∧
    (beats → (dieOf s n).beat + 4000 < s.gt → Does (.heartbeat i) s fun t => t = loseDie s n (dieClass n) 0 false) ∧ (¬ beats → Does (.heartbeat i) s fun t => t = s) ∧
    (silent → Does (.heartbeatTimeout i) s fun t => t = loseDie s n (dieClass n) 0 false) ∧ (¬ silent → Does (.heartbeatTimeout i) s fun t => t = s) ∧
    (let free : Prop := resetWaits s = false ∧ (dieOf s 20).st ≠ .reset ∧ n ≠ 20 ∧ n < 29 ∧ (dieOf s n).st ≠ .off ∧ (dieOf s n).st ≠ .ramping ∧ (dieOf s n).st ≠ .reset ∧ (21 ≤ n → dieUp s (n - 21) = true)
      ∀ sr, (free → Does (.dieLocalReset i sr) s fun t => t = resetDie s n (dieClass n) 0 sr false) ∧ (¬ free → Does (.dieLocalReset i sr) s fun t => t = s))) ∧
  (∀ (s : State) (p : BitVec 6), let n := p.toNat
    let run := Does (.regulatorFault p) s
    let dead : Prop := 49 ≤ n ∨ pdOf s n = .off ∨ pdOf s n = .fault;
    (dead → run fun t => t = s) ∧ (¬ dead → n = 28 → run fun t => t = loseHub s) ∧ (¬ dead → 29 ≤ n → n < 41 → run fun t => t = loseField s (n - 29)) ∧
    (¬ dead → 41 ≤ n → run fun t => pdOf t n = .fault ∧
      ∃ u, u = joined (fault s { cls := 0x0D, unit := unitId 9 ((n - 41) * 16), outcome := 3, cause := n, permanent := true }) (fun v => loseGroup v (n - 41)) ∧ t = { u with pwr := { u.pwr with pds := t.pwr.pds } }) ∧
    (∀ i, ¬ dead → n < 28 → dieOfPd n = some i → run fun t => pdOf t n = .fault ∧ ∃ u, u = loseDie s i 0x13 n false ∧ t = { u with pwr := { u.pwr with pds := t.pwr.pds } })) ∧
  (∀ (s : State) (i : BitVec 6) (sr : Bool), let n := i.toNat
    let run := Does (.diePllUnlock i sr) s
    (s.pwr.refOk = false → run fun t => t = s) ∧
    (s.pwr.refOk = true → 32 ≤ n → n < 44 → run fun t => t = ((List.range 30).filter fun e => fieldOf (physOf s e) = n - 32).foldl failPath s) ∧
    (s.pwr.refOk = true → n = 20 → run fun t => t = warmReset (fault s { cls := 0x12, unit := unitId 1 20, outcome := 4 }) 5 false) ∧
    (s.pwr.refOk = true → n < 29 → n ≠ 20 → dieUp s n = true → run fun t => t = resetDie s n 0x12 0 sr false) ∧
    (s.pwr.refOk = true → n ≠ 20 → n < 32 ∨ 44 ≤ n → 29 ≤ n ∨ dieUp s n = false → run fun t => t = s)) ∧
  (∀ (s : State) (i cls cause : Nat) (sr injected : Bool), ∃ u v, let t := resetDie s i cls cause sr injected
    u = resetDma s (fun n => (resetScope i).any fun j => touchesDie s j n) ∧
    (dieUp u i = false → v = u) ∧ (dieUp u i = true → 16 ≤ i → i < 20 → sr = true → v = fault (suspendPort u (i - 16)) { cls := cls, unit := unitId 1 i, outcome := 4, domains := runningDoms u, interrupts := runningDoms u ≠ [], cause := cause, injected := injected }) ∧
    (dieUp u i = true → i < 16 ∨ 20 ≤ i ∨ sr = false → v = loseDie u i cls cause injected) ∧
    (∀ j, dieOf t j = if j ∈ resetScope i then { dieOf v j with st := .reset, returning := false } else dieOf v j) ∧ (regVal t 0x300000).getLsbD 7 = true ∧
    (i < 8 → OtherStacks i v t ∧ stackOf t i = { stackOf v i with tel := {} }) ∧
    (21 ≤ i → i < 29 → let x := (stackOf v (i - 21)).tel
      let low (e : Nat × Nat) : Bool := decide (e.1 < 128 * 64)
      OtherStacks (i - 21) v t ∧ stackOf t (i - 21) = { stackOf v (i - 21) with tel := ⟨x.flits.filter low, x.stalls.filter low, x.hwm.filter low, 0, x.draws.filter fun e => !e.2⟩ }) ∧
    (8 ≤ i → i < 21 ∨ 29 ≤ i → t.arr.memStacks = v.arr.memStacks) ∧
    (let ok := sr && dieUp u i
      let lost : Prop := 8 ≤ i ∧ i < 20 ∧ ¬ (16 ≤ i ∧ ok = true);
      (16 ≤ i → i < 20 → portMem t (i - 16) = { portMem v (i - 16) with sr := ok, srOk := ok } ∧ ∀ p, p ≠ i - 16 → portMem t p = portMem v p) ∧
      (i < 16 ∨ 20 ≤ i → t.mem.ports = v.mem.ports) ∧
      (lost → t.mem.clean = (markPending v.mem (granuleOn i)).clean ∧ t.mem.cells = (markPending v.mem (granuleOn i)).cells) ∧
      (¬ lost → t.mem.clean = v.mem.clean ∧ t.mem.cells = v.mem.cells)) ∧
    OtherRegs [0x300000] v t ∧ t = { v with arr := { v.arr with dies := t.arr.dies, memStacks := t.arr.memStacks }, mem := { v.mem with ports := t.mem.ports, clean := t.mem.clean, cells := t.mem.cells }, pwr := { v.pwr with pds := t.pwr.pds, ramps := t.pwr.ramps, rampBy := t.pwr.rampBy }, rf := { v.rf with vals := t.rf.vals, setAt := t.rf.setAt } }) ∧
  (∀ (s : State) (i : BitVec 5) (pass : Bool) (tiles : List (BitVec 8)) (links : List LinkTest) (bundles : List (BitVec 8 × BitVec 7)), let n := i.toNat
    let run := Does (.dieLocalResetDone i pass ⟨tiles, links⟩ bundles) s
    let tested : Prop := ((dieOf s n).st = .reset ∨ (dieOf s n).st = .testing) ∧ (dieOf s n).returning = false ∧ pdOf s (pdOfDie n) = .on ∧ n ≠ 20 ∧ (s.rst.warmReset = false ∨ 3 ≤ stageOf s)
    let u := testBundles (freshDie s n) n bundles
    let port : Prop := 16 ≤ n ∧ n < 20
    (n = 20 → run fun t => t = if bootReady s then s else testBundles s 20 bundles) ∧ (n ≠ 20 → ¬ tested → run fun t => t = s) ∧ (tested → pass = false ∨ stripDead u n = true → run fun t => t = bootAdvance (failDie u n)) ∧
    (tested → pass = true → stripDead u n = false → ∃ v w, v = testTiles (if port then modPort u (n - 16) leaveSelfRefresh else u) n (tiles.map BitVec.toNat) links ∧
      DiePut v w n { dieOf v n with returning := true } ∧
      (let waits : Prop := (port ∧ trained v (n - 16) = false) ∨ entersNow w n = false;
        (waits → run fun t => t = bootAdvance w) ∧ (¬ waits → run fun t => t = bootAdvance ((enterWith w n).foldl admitDie w))))) ∧
  ∀ (s : State) (p : BitVec 6), let n := p.toNat
    let run := Does (.powerDomainRampDone p) s
    (s.pwr.ramps.head? ≠ some n ∨ s.gt < s.pwr.rampBy → run fun t => t = s) ∧
    (∀ rest, s.pwr.ramps = n :: rest → s.pwr.rampBy ≤ s.gt → run fun t => ∃ u, (rest.head? ≠ some n → pdOf u n = .on) ∧ (∀ m, rest.head? = some m → pdOf u m = .ramping) ∧
      (∀ m, m ≠ n → rest.head? ≠ some m → pdOf u m = pdOf s m) ∧ u = { s with pwr := { s.pwr with pds := u.pwr.pds, ramps := rest, rampBy := s.gt + 100000 } } ∧
      (n = 28 → ∃ v, DiePut u v 20 { dieOf s 20 with st := .inService, beat := s.gt } ∧ t = if stageOf v = 0 then startImages v else v) ∧
      (29 ≤ n → n < 41 → ∃ v, v = lightField u (n - 29) ∧ (bootReady s = false → t = bootAdvance v) ∧
        (bootReady s = true → t = bootAdvance { v with base := { v.base with acquired := ascending ((n - 29) :: v.base.acquired.filter (· ≠ n - 29)) } })) ∧
      (∀ i, n < 28 → dieOfPd n = some i → (dieOf s i).st ≠ .ramping → t = bootAdvance u) ∧
      (∀ i, n < 28 → dieOfPd n = some i → (dieOf s i).st = .ramping → ∃ v, DiePut u v i { dieOf s i with st := .testing } ∧ t = bootAdvance v) ∧
      (41 ≤ n → t = bootAdvance (nextCalibration ((List.range 16).foldl (fun v b => modBank v (n - 41) b fun q => if q.st = .failed then q else { q with due := true, coef := { q.coef with map := Config.seedMap ((n - 41) * 16 + b) } }) u) (n - 41))))

/-- The reset sources and watchdogs (15_reset_boot.md R477 to R484, R497, R498, R503). -/
def Obligations.ResetSources : Prop :=
  (∀ (s : State) (bit straps : Nat), straps < 128 → let t := coldReset s bit straps
    t.gt = 0 ∧ t.boots = s.boots + 1 ∧ (∀ c, ctxOf t c = Ctx.off) ∧ t.insts = [] ∧ (∀ i, dieUp t i = false) ∧ t.mem.cells = [] ∧ t.flt.recs = [] ∧ t.flt.ok = false ∧
    t.flt.retained = s.flt.retained ∧ t.rf.wlog = [] ∧ t.flc = { s.flc with hubBuf := [], starts := [], stall := none, closedAt := none, shown := none } ∧ t.hostMem = s.hostMem ∧ t.sent = s.sent ∧ t.pending = s.pending ∧
    regVal t 0x300010 = BitVec.ofNat 32 straps ∧ t.rst.bootSrc = straps % 4 ∧ t.rst.clkMode = straps / 4 % 4 ∧ t.rst.trayPos = straps / 16 ∧
    (1 ≤ bit → regVal t 0x300000 = BitVec.ofNat 32 (b2n ((regVal s 0x300000).getLsbD 0) + 2 ^ bit)) ∧ (bit = 0 → regVal t 0x300000 = 1#32) ∧
    ∀ o, o ∉ [0x300000, 0x300010, 0x3400000, 0x3400004] → regVal t o = regReset o) ∧
  (∀ (s : State) (bit : Nat) (perst : Bool), bit = 4 ∨ bit = 5 ∨ bit = 6 →
    let cold : Prop := bootReady s = false ∧ (s.rst.warmReset = false ∨ stageOf s = 15)
    let t := warmReset s bit perst
    (cold → t = if perst then clearFunctions s else s) ∧
    (¬ cold → ∃ u, u = resetDma ((if perst then clearFunctions else id) { s with ctxs := s.ctxs.map fun e => (e.1, suspendCtx e.2) }) (fun _ => true) ∧
      t.gt = u.gt ∧ t.ctxs = u.ctxs ∧ t.insts = u.insts ∧ t.pwr.pds = u.pwr.pds ∧ t.mem = selfRefresh u ∧ t.sec.tdi = u.sec.tdi ∧ t.flt.ok = false ∧ t.flt.recs = u.flt.recs ∧ t.rf.wlog = [] ∧
      t.flc = { u.flc with hubBuf := [], starts := [], stall := none } ∧ t.fab = {} ∧ t.rst.warmReset = true ∧ bootReady t = false ∧ (regVal t 0x300000).getLsbD bit = true ∧
      (∀ o, o ∈ warmCounts → regVal t o = 0#32) ∧ t.dma.engines = [] ∧ t.dma.waits = [] ∧ (∀ o, 0x1501000 ≤ o → o < 0x1501400 → regVal t o = regReset o) ∧
      ∀ o, o ∉ warmCounts ++ [0x1000000, 0x400014, 0x300000, 0x300008, 0x3000100, 0x300014] → o < 0x1501000 ∨ 0x1501400 ≤ o → regVal t o = regVal u o)) ∧
  (∀ s : State, let t := clearFunctions s
    t.rf.msix = [] ∧ t.rf.pba = [] ∧ ∀ v i, 0 < v → v < 64 → i < 64 → regVal t (vfmapOff v i) = 0#32) ∧
  (∀ s : State,
    (∀ straps : BitVec 7, ∃ u, u = coldReset s 1 straps.toNat ∧ Does (.coldRst straps false) s (fun t => t = haltBoot u 0x13 0) ∧
      Does (.coldRst straps true) s fun t => t = if tapDrives u.tap.ir then { u with tap := { u.tap with bootWaits := true } } else startBoot u) ∧
    (∀ straps : BitVec 7, ∃ u, u = coldReset { s with flt := { s.flt with retained := [] }, i3c := {} } 0 straps.toNat ∧ Does (.standbyPowerOn straps true) s (fun t => t = { u with tap := { u.tap with coldLow := true } }) ∧
      Does (.standbyPowerOn straps false) s fun t => t = if tapDrives u.tap.ir then { u with tap := { u.tap with bootWaits := true } } else startBoot u) ∧
    (Does .mainPowerLoss s fun t => t = coldReset s 2 (regVal s 0x300010).toNat) ∧ (Does .perst s fun t => t = warmReset s 4 true) ∧
    (perstNow s = false → Does .warm s fun t => t = warmReset s 5 false) ∧ (perstNow s = true → Does .warm s fun t => t = s) ∧
    (Instr.perst ∈ s.pending → perstNow s = true) ∧
    (∀ v : BitVec 6, (v = 0#6 → Does (.vfFunctionLevelReset v) s fun t => t = s) ∧
      (v ≠ 0#6 → Does (.vfFunctionLevelReset v) s fun t => ∃ u, (∀ i, tabGet u.rf.msix {} i = if i / 32 = v.toNat then {} else tabGet s.rf.msix {} i) ∧
        (∀ i, i ∈ u.rf.pba ↔ i ∈ s.rf.pba ∧ i / 32 ≠ v.toNat) ∧ u = { s with rf := { s.rf with msix := u.rf.msix, pba := u.rf.pba } } ∧
        t = leaveTdi (resetDma u fun n => ((List.range 64).filterMap (slotCtx s v.toNat)).contains (bits (dmaCtl s n) 15 0)) v.toNat true))) ∧
  (∀ s : State,
    (let held : Prop := s.rst.warmReset = true ∧ stageOf s = 0 ∧ bootReady s = false ∧ (dieOf s 20).st = .reset;
      (¬ held → Does .resetRelease s fun t => t = s) ∧
      (held → Does .resetRelease s fun t => ∃ u v, u = { s with mem := { s.mem with rsv := u.mem.rsv, ports := u.mem.ports } } ∧
        DiePut u v 20 { dieOf s 20 with st := .inService, beat := s.gt } ∧ t = startImages v)) ∧
    (∀ c : BitVec 12, (∀ n, (ctxOf s c.toNat).suspended = some n → bootReady s = true → n ≤ s.gt → Does (.suspendExpiry c) s fun t => ∃ u, u = releaseSession s c.toNat ∧ CtxPut u t c.toNat { ctxOf u c.toNat with suspended := none }) ∧
      ((ctxOf s c.toNat).suspended = none ∨ bootReady s = false ∨ (∃ n, (ctxOf s c.toNat).suspended = some n ∧ s.gt < n) → Does (.suspendExpiry c) s fun t => t = s)) ∧
    (let w := regVal s 0x300008
      let due : Prop := (∃ n, s.rst.wdtBy = some n ∧ Sys2Proof.RunOut s n) ∧ w.getLsbD 31 = true ∧ bootReady s = true;
      (¬ due → Does .watchdogExpiry s fun t => t = s) ∧ (due → w.getLsbD 29 = true → Does .watchdogExpiry s fun t => t = warmReset s 6 false) ∧
      (due → w.getLsbD 29 = false → Does .watchdogExpiry s fun t => ∃ u v, (regVal u 0x300008).getLsbD 29 = true ∧ OtherRegs [0x300008] s u ∧ u = { s with rf := { s.rf with vals := u.rf.vals } } ∧
        v = fault u { cls := 0x15, unit := unitId 0x0E 0, outcome := 0 } ∧
        t = { v with rst := { v.rst with wdtBy := some (s.gt + 1000000 * bits w 15 0) }, sent := (v.gt, .plain "watchdog interrupt" 0) :: v.sent })) ∧
    (let due : Prop := (∃ n, s.rst.bootBy = some n ∧ Sys2Proof.RunOut s n) ∧ bootReady s = false;
      (¬ due → Does .bootWatchdogExpiry s fun t => t = s) ∧
      (due → Does .bootWatchdogExpiry s fun t => ∃ u v, u = coldReset (islandFault s { cls := 0x15, unit := unitId 0x0E 0, outcome := 4, cause := s.rst.image }) 9 (strapsOf s) ∧
        regVal v 0x300014 = setBits (regVal u 0x300014) 23 20 (min 15 (regBits s 0x300014 23 20 + 1)) ∧ OtherRegs [0x300014] u v ∧ v = { u with rf := { u.rf with vals := v.rf.vals } } ∧
        t = startBoot { v with rst := { v.rst with ended := if s.rst.image = 0 then none else some s.rst.image } })) ∧
    (let due : Prop := ∃ n, s.rst.coolBy = some n ∧ n ≤ s.gt;
      (¬ due → Does .tripCoolExpiry s fun t => t = s) ∧
      (due → Does .tripCoolExpiry s fun t => t = (if (regVal s 0x300018).getLsbD 8 then startBoot else id) { s with rst := { s.rst with coolBy := none } }))) ∧
  ∀ (s : State) (kind : BitVec 3) (i : BitVec 5) (addr : Word), let k := kind.toNat
    let n := i.toNat
    let run := Does (.fatalError kind i addr) s
    let real : Prop := k ≤ 5 ∧ (3 ≤ k → n < 20 ∧ (k = 4 → n < 8) ∧ (k ≠ 4 → 8 ≤ n) ∧ dieUp s n = true)
    let rec_ (unit : Nat) := islandFault s { cls := 0x15, unit := unit, outcome := 4, cause := k, addr := addr.toNat };
    (¬ real → run fun t => t = s) ∧ (k < 2 → run fun t => ∃ u, u = rec_ (unitId 0x0E 0) ∧ t = startBoot (coldReset u 8 (strapsOf u))) ∧
    (k = 2 → bootReady s = true → run fun t => t = warmReset (rec_ (unitId 1 20)) 8 false) ∧ (k = 2 → bootReady s = false → run fun t => ∃ u, u = rec_ (unitId 1 20) ∧ t = startBoot (coldReset u 8 (strapsOf u))) ∧
    (3 ≤ k → real → bootReady s = true → run fun t => t = resetDie (rec_ (unitId 1 n)) n 0x15 k true false) ∧
    (3 ≤ k → real → bootReady s = false → run fun t => ∃ u, u = rec_ (unitId 1 n) ∧ t = startBoot (coldReset u 8 (strapsOf u)))

/-- IMAGE_READ_DONE, RECOVERY_GO, RECOVERY_IMAGE_LOADED, WARMUP_DONE, WARMUP_TIMEOUT and what the stages wait for (15_reset_boot.md R494 to R500). -/
def Obligations.BootStages : Prop :=
  (∀ (s : State) (ok : Bool) (dirs : List (List Byte)) (img : List Byte) (f : Bool), let run := Does (.imageReadDone ok dirs img f) s
    (stageOf s ≠ 1 → run fun t => t = s) ∧ (stageOf s = 1 → ok = false → run fun t => t = passOver s 5) ∧
    (stageOf s = 1 → ok = true → slotLenOf dirs = none → run fun t => t = passOver s 1) ∧
    (∀ n, stageOf s = 1 → ok = true → slotLenOf dirs = some n → run fun t => t = judgeImage s n img f)) ∧
  (∀ s : State, let waits : Prop := stageOf s = 14 ∧ s.rst.recovering = false
    let bad : Prop := (regVal s 0x300020).toNat % 4096 ≠ 0 ∨ regVal s 0x300028 = 0#32;
    (¬ waits → Does .recoveryGo s fun t => t = s) ∧
    (waits → bad → Does .recoveryGo s fun t => regBits t 0x30002C 7 0 = stBadDesc ∧ OtherRegs [0x30002C] s t ∧ t = { s with rf := { s.rf with vals := t.rf.vals } }) ∧
    (waits → ¬ bad → Does .recoveryGo s fun t => t = { s with rst := { s.rst with recovering := true } })) ∧
  (∀ (s : State) (ok : Bool) (img : List Byte) (f : Bool), let run := Does (.recoveryImageLoaded ok img f) s
    let reads : Prop := stageOf s = 14 ∧ s.rst.recovering = true
    let n := (regVal s 0x300028).toNat;
    (¬ reads → run fun t => t = s) ∧
    (reads → run fun t => ∃ u, regBits u 0x30002C 7 0 = (if ok then stOk else stHostAddr) ∧ OtherRegs [0x30002C] s u ∧
      u = { s with rf := { s.rf with vals := u.rf.vals }, rst := { s.rst with recovering := false } } ∧ t = if ok then judgeImage u n (img.take n) f else u)) ∧
  (∀ s : State,
    (let due : Prop := ∃ n, s.rst.warmSince = some n ∧ stageOf s = 4 ∧ n + 10000000 ≤ s.gt;
      (¬ due → Does .warmupDone s fun t => t = s) ∧
      (due → Does .warmupDone s fun t => ∃ u v, stageOf u = 5 ∧ OtherRegs [0x300014] s u ∧ u = { s with rf := { s.rf with vals := u.rf.vals } } ∧
        v = { u with rst := { u.rst with warmBy := none }, base := { u.base with ready := false, acquired := (List.range 12).filter fun f => decide (pdOf s (29 + f) = .on) } } ∧
        t = bootAdvance (setOptics v))) ∧
    (let settled : Prop := stageOf s = 5 ∧ s.base.ready = false ∧ ∀ e, e ∈ s.base.rings → e.2.st = .acquiring → pdOf s (29 + fieldOf (e.1 % 64)) ≠ .on;
      (settled → setOptics s = followGroups { s with base := { s.base with ready := true } }) ∧ (¬ settled → setOptics s = s)) ∧
    (let due : Prop := ∃ n, s.rst.warmBy = some n ∧ stageOf s = 4 ∧ Sys2Proof.RunOut s n;
      (¬ due → Does .warmupTimeout s fun t => t = s) ∧ (due → Does .warmupTimeout s fun t => t = haltBoot s 0x14 0))) ∧
  (∀ (s : State) (n : Nat) (img : List Byte) (f : Bool), let t := judgeImage s n img f
    let old : Prop := imgNat img 0x10 1 < max Config.svnFloor.toNat s.sec.floor;
    (imgHeaderOk n img = false → t = passOver s 1) ∧ (imgHeaderOk n img = true → rootSigned img = false → t = passOver s 3) ∧
    (imgHeaderOk n img = true → rootSigned img = true → old → t = passOver s 4) ∧
    (imgHeaderOk n img = true → rootSigned img = true → ¬ old → contentOk img = false → t = passOver s 2) ∧
    (imgHeaderOk n img = true → rootSigned img = true → ¬ old → contentOk img = true → needsFactory img = true → f = false → t = haltBoot s 0x18 2) ∧
    (imgHeaderOk n img = true → rootSigned img = true → ¬ old → contentOk img = true → needsFactory img = false ∨ f = true → ∃ u v,
      u = { s with sec := { s.sec with bootOk := true, measurements := measure img, imageSvn := imgNat img 0x10 1, floorWanted := imgNat img 0x11 1 } } ∧
      v = (if s.rst.warmReset then u else loadSettings u img) ∧ t = powerUp (setStage v 2))) ∧
  (∀ (s : State) (why : Nat), why < 16 → let t := passOver s why
    ∃ u, regBits u 0x300014 19 16 = why ∧ OtherRegs [0x300014] s u ∧ u = { s with rf := { s.rf with vals := u.rf.vals } } ∧
      (s.rst.image = 3 → stageOf t = 14 ∧ OtherRegs [0x300014] u t ∧ t = { u with rf := { u.rf with vals := t.rf.vals } }) ∧
      (s.rst.image ≠ 3 → s.rst.images = [] → t = haltBoot u 0x18 why) ∧
      ∀ i is, s.rst.image ≠ 3 → i < 4 → s.rst.images = i :: is → stageOf t = (if i = 3 then 14 else 1) ∧ t.rst.image = i ∧ t.rst.images = is ∧ OtherRegs [0x300014] u t ∧
        t = { u with rf := { u.rf with vals := t.rf.vals }, rst := { u.rst with images := is, image := i } }) ∧
  (∀ (s : State) (cls cause : Nat), ∃ u, stageOf u = 15 ∧ OtherRegs [0x300014] s u ∧ u = { s with rf := { s.rf with vals := u.rf.vals }, rst := { s.rst with warmBy := none, recovering := false } } ∧
    haltBoot s cls cause = islandFault u { cls := cls, unit := unitId 0x0E 0, outcome := 7, cause := cause }) ∧
  (∀ s : State, let t := bootAdvance s
    let calm : Prop := s.pwr.ramps = [] ∧ diesWait s (decide (stageOf s = 5)) = false ∧ (stageOf s = 5 → s.base.ready = true ∧ banksWait s = false);
    (stageOf s ≠ 3 → stageOf s ≠ 5 → t = s) ∧ (¬ calm → t = s) ∧
    (stageOf s = 3 → calm → stageOf t = 4 ∧ t.rst.warmBy = some (s.gt + 60000000000) ∧ t = { s with rf := { s.rf with vals := t.rf.vals }, rst := { s.rst with warmBy := some (s.gt + 60000000000) } }) ∧
    (stageOf s = 5 → calm → ∃ u, stageOf u = 6 ∧ OtherRegs [0x300014] s u ∧ u = { s with rf := { s.rf with vals := u.rf.vals } } ∧ t = finishBoot u)) ∧
  ∀ s : State, ∃ w u v, w = (if s.rst.warmReset then s else if s.rst.tripped then loseHomes ((List.range 8).foldl retile (formDomains s)) 0x0B (homesNotKept s) else formDomains s) ∧
    (regVal u 0x1000000).getLsbD 0 = true ∧ OtherRegs [0x1000000] w u ∧ u = { w with rf := { w.rf with vals := u.rf.vals } } ∧
    v = startClocks ((u.flt.retained.map fun r => { r with retained := true }).foldl appendRecord { u with flt := { u.flt with retained := [], ok := true } }) ∧
    finishBoot s = enterReady v ∧ (let t := enterReady v;
      bootReady t = true ∧ stageOf t = 7 ∧ OtherRegs [0x300014] v t ∧ t.sec = { v.sec with floor := max v.sec.floor v.sec.floorWanted } ∧
      t.rst = { v.rst with bootBy := none, ended := none, warmReset := false, tripped := false, wdtBy := some (v.gt + 1000000 * regBits v 0x300008 15 0) } ∧
      (∀ c, (ctxOf t c).suspended = (ctxOf v c).suspended.map fun _ => v.gt + 1000000000 * regBits v 0x300018 7 0))

namespace Sys2Proof

/-- The sum of the accounts of contexts. -/
def accountSum (f : Flc) : Nat := (f.accounts.map fun a => a.2.1).sum

/-- Every microjoule is in one place, and the accounts are in order (16_flacon.md R512). -/
def Balanced (f : Flc) : Prop :=
  f.ePkg = f.device + f.closed + accountSum f + (f.waiting.map FlcInterval.e).sum ∧ tabRising none f.accounts = true ∧ f.ePkg ≤ f.nano / 1000

/-- The commands of Flacon that leave the hub's admission alone and do not restore its journal. -/
def MeterCommand (c : Instr) : Prop :=
  (∃ v i ok, c = .flaconSample v i ok) ∨ c = .intervalClose ∨ (∃ n as, c = .tick n as) ∨ (∃ r o, c = .read r o) ∨ (∃ t, c = .setTime t) ∨ (∃ t, c = .timeSet t) ∨
    c = .journalSnapshot ∨ (∃ m, c = .powerFail m) ∨ c = .sealOpen ∨ (∃ i v, c = .param i v) ∨ c = .sealClose ∨ c = .vbatBrownOut

end Sys2Proof

/-- Where energy goes (16_flacon.md R511, R512, R515, R517, R520). -/
def Obligations.EnergyConserved : Prop :=
  (∀ (ws : List Nat) (e : Nat) (es : List FlcEntry), let d := (es.map (dynOf ws)).sum; d ≠ 0 →
    ((sharesOf ws e es).map Prod.snd).sum = e ∧ ∀ x q, (x, q) ∈ sharesOf ws e es → x ∈ es ∧ (q = e * dynOf ws x / d ∨ q = e * dynOf ws x / d + 1)) ∧
  (∀ (f : Flc) (w : FlcInterval) (es : List FlcEntry), tabRising none f.accounts = true → let g := attributeTo f w es
    g.device + g.closed + accountSum g = f.device + f.closed + accountSum f + w.e ∧ tabRising none g.accounts = true ∧ g.ePkg = f.ePkg ∧ g.waiting = f.waiting) ∧
  (∀ (e : Nat) (ws : List Nat), ws.sum ≠ 0 → (apportion e ws).length = ws.length ∧ (apportion e ws).sum = e) ∧
  Balanced State.reset.flc ∧
  (∀ (c : Instr) (s t : State), MeterCommand c → Balanced s.flc → exec c s = .next t → Balanced t.flc) ∧
  (∀ (bs : List Byte) (s : State), Balanced s.flc → Does (.record bs) s fun t => ∃ u, Balanced u.flc ∧ (t = u ∨ t = endStall u)) ∧
  (∀ (elapsed : BitVec 48) (high : Bool) (s : State), s.flc.powered = false → (restored s.flc).closed + accountSum (restored s.flc) ≤ restoredEnergy s.flc →
    tabRising none (restored s.flc).accounts = true → Does (.powerUp elapsed high) s fun t => Balanced t.flc ∧ t.flc.ePkg = restoredEnergy s.flc ∧ t.flc.waiting = [])

namespace Sys2Proof

/-- The ring after one record more, with a clock and whether it is valid: at most 3,064, in ascending SEQ (16_flacon.md R519). -/
def RingWith (f : Flc) (type acc value aux : Nat) (clock : Nat × Bool) : List JrnRec :=
  (if 3064 ≤ f.ring.length then f.ring.drop 1 else f.ring) ++ [⟨f.jrnSeq + 1, type, !clock.2, acc, clock.1, value, aux⟩]

/-- The ring after one record more, with the clock of its millisecond (16_flacon.md R519, R526). -/
def RingAfter (f : Flc) (type acc value aux : Nat) : List JrnRec := RingWith f type acc value aux (recClock f)

/-- What may be attributed is, from `f`; reads of the tick still find the accounts as its first attribution found them (16_flacon.md R515, R526). -/
def Attributed (s : State) (f g : Flc) : Prop :=
  ((∃ x, s.flc.shown = some x ∧ x.1 = s.gt) → g = attributeReady 1025 f) ∧
  ((∀ x, s.flc.shown = some x → x.1 ≠ s.gt) → g = attributeReady 1025 { f with shown := some (s.gt, f.accounts, f.device) })

end Sys2Proof

/-- Flacon's commands (16_flacon.md R507 to R523) and ADMISSION_STALL_TIMEOUT (01_architecture.md R31). -/
def Obligations.FlaconMeters : Prop :=
  (∀ (s : State) (v : BitVec 24) (i : BitVec 20) (ok : Bool), let run := Does (.flaconSample v i ok) s
    let f := s.flc
    let mv : Int := ((v.toNat * flcParam f 2 / 2 ^ 31 : Nat) : Int) + signedParam (flcParam f 3)
    let ma : Int := ((i.toNat * flcParam f 0 / 2 ^ 31 : Nat) : Int) + signedParam (flcParam f 1)
    let p := (mv * ma).toNat;
    (f.powered = false → run fun t => t = s) ∧
    (f.powered = true → run fun t => ∃ u, u = { s with flc := { f with nano := f.nano + min p 170000000000 / 200000, overNow := f.overNow || decide (170000000000 < p), measOk := ok } } ∧
      t = if f.measOk && !ok then fault u { cls := 0x17, unit := unitId 1 29, outcome := 0 } else u)) ∧
  (∀ s : State, let f := s.flc
    let w : FlcInterval := ⟨f.n, f.nano / 1000 - f.ePkg, (List.range 8).map fun k => flcParam f (8 + k)⟩;
    (f.powered = false → Does .intervalClose s fun t => t = s) ∧
    (f.powered = true → Does .intervalClose s fun t => ∃ g h, g = { f with ePkg := f.nano / 1000, waiting := f.waiting ++ [w], n := f.n + 1, overRange := f.overNow, overNow := false, time := f.time + 1, closedAt := some s.gt } ∧
      Attributed s g h ∧
      t = { s with flc := { h with params := h.newParams.foldl (fun ps x => listSet ps x.1 x.2) h.params, newParams := [] }, sent := (s.gt, .plain "flacon tick" (f.n % 2 ^ 32)) :: s.sent }) ∧
    (f.waiting.length ≤ 1024 → trimWaiting s = s) ∧ (1024 < f.waiting.length → trimWaiting s = { s with flc := attributeReady 1025 (dropOldest f) }) ∧
    ((∀ x, f.before = some x → x.1 ≠ f.n) → recClock f = (f.time, f.clockValid)) ∧ ∀ x, f.before = some (f.n, x) → recClock f = x) ∧
  (∀ (s : State) (n : Word) (as : List Activity), let f := s.flc
    let es := hubEntries f as;
    ((dieOf s 20).st ≠ .inService → Does (.tick n as) s fun t => t = s) ∧
    ((dieOf s 20).st = .inService → Does (.tick n as) s fun t => t.flc.hubBuf = f.hubBuf ++ [(n.toNat, 0, es)] ∧ t.flc.stall = (if f.hubBuf = [] then f.stall else some (f.stall.getD s.gt)) ∧
      t = { s with flc := { f with hubBuf := t.flc.hubBuf, starts := [], stall := t.flc.stall }, sent := (s.gt, .flacon n.toNat (recordBytesOf n.toNat es)) :: s.sent })) ∧
  (∀ (s : State) (bs : List Byte), let run := Does (.record bs) s
    let f := s.flc
    let bad : State := { s with flc := { f with hubLink := false, stall := some (f.stall.getD s.gt), discarded := if 16 ≤ bs.length ∧ bs.length % 72 = 16 then f.discarded else f.discarded + 1 } };
    (f.powered = false → run fun t => t = s) ∧
    (∀ n es, f.powered = true → parseRecord bs = some (n, es) → run fun t => ∃ u, Attributed s { f with
        hubLink := true, hubBuf := f.hubBuf.filter fun r => r.1 ≠ n
        recs := if f.waiting.any (fun w => w.n % 2 ^ 32 = n) && !f.recs.any (fun r => r.1 = n) then f.recs ++ [(n, es)] else f.recs } u.flc ∧ u = { s with flc := u.flc } ∧ t = if u.flc.hubBuf = [] then endStall u else u) ∧
    (f.powered = true → parseRecord bs = none → run fun t => ∃ u, u = (if f.hubLink then fault bad { cls := 0x17, unit := unitId 1 29, outcome := 0 } else bad) ∧
      (f.hubBuf = [] → t = u) ∧ ∀ r rs, f.hubBuf = r :: rs → (3 ≤ r.2.1 → t = u) ∧
        (r.2.1 < 3 → t = { u with flc := { u.flc with hubBuf := (r.1, r.2.1 + 1, r.2.2) :: rs }, sent := (u.gt, .flacon r.1 (recordBytesOf r.1 r.2.2)) :: u.sent }))) ∧
  (∀ (s : State) (r : Requester) (off : BitVec 12), Does (.read r off) s fun t => t = { s with sent := (s.gt, .plain "flacon read" (flcRead s r off.toNat % 2 ^ 32)) :: s.sent }) ∧
  (∀ (s : State) (x : BitVec 64), let f := s.flc
    let late : Prop := f.i3cSet = some f.n
    let set (path : Nat) : State := { s with flc := { f with jrnSeq := f.jrnSeq + 1, ring := RingWith f 8 0 x.toNat path (f.time, f.clockValid), time := (if path = 1 ∧ late then f.time else x.toNat), clockValid := true, before := some (f.n, recClock f), i3cSet := if path = 2 then some f.n else f.i3cSet } };
    (Does (.setTime x) s fun t => t = if f.powered then set 1 else s) ∧ (Does (.timeSet x) s fun t => t = if f.powered then set 2 else s)) ∧
  (∀ s : State, let f := s.flc
    let n := (f.snapSeq + 1) % 2 ^ 32
    let z : FlcTable := ⟨f.ePkg, f.device, f.closed, n, f.accounts⟩;
    (f.powered = false → Does .journalSnapshot s fun t => t = s) ∧
    (f.powered = true → Does .journalSnapshot s fun t => t = { s with flc := { f with snapSeq := n, tableA := some z, tableB := some z, jrnSeq := f.jrnSeq + 1, ring := RingAfter f 1 0 f.ePkg n } }) ∧
    ∀ mid : BitVec 2, (f.powered = false → Does (.powerFail mid) s fun t => t = s) ∧
      (f.powered = true → Does (.powerFail mid) s fun t => ∃ g, (mid = 0#2 → g = f) ∧ (mid = 1#2 → g = { f with snapSeq := n, tableA := none }) ∧
        (mid = 2#2 → g = { f with snapSeq := n, tableA := some z, jrnSeq := f.jrnSeq + 1, ring := RingAfter f 1 0 f.ePkg n }) ∧
        (mid = 3#2 → g = { f with snapSeq := n, tableA := some z, tableB := none, jrnSeq := f.jrnSeq + 1, ring := RingAfter f 1 0 f.ePkg n }) ∧
        t = { s with flc := { g with jrnSeq := g.jrnSeq + 1, ring := RingAfter g 3 0 g.ePkg g.waiting.length, powered := false, measOk := false, hubLink := false } })) ∧
  (∀ (s : State) (elapsed : BitVec 48) (high : Bool), let f := s.flc
    let run := Does (.powerUp elapsed high) s
    let valid := f.clockValid && !f.brownOut;
    (f.powered = true → run fun t => t = s) ∧
    (f.powered = false → run fun t => t.flc.powered = true ∧ t.flc.ePkg = restoredEnergy f ∧ t.flc.accounts = (restored f).accounts ∧ t.flc.closed = (restored f).closed ∧ t.flc.n = 1 ∧ t.flc.waiting = [] ∧
      t.flc.clockValid = valid ∧ t.flc.time = (if valid then f.time + elapsed.toNat else 0) ∧ t.flc.brownOut = false ∧ t.flc.sealOpen = high ∧ t.flc.hubBuf = [] ∧
      t.flc.jrnSeq = (restored f).jrnSeq + 1 ∧ t.flc.newParams = [] ∧ t.flc.closedAt = none ∧ t.flc.before = none ∧ t.flc.i3cSet = none ∧ t.flc.shown = none ∧ t = { s with flc := t.flc })) ∧
  (∀ s : State, (s.flc.powered = true → Does .vbatBrownOut s fun t => t = s) ∧ (s.flc.powered = false → Does .vbatBrownOut s fun t => t = { s with flc := { s.flc with brownOut := true } })) ∧
  (∀ s : State, let f := s.flc;
    (f.powered = false ∨ f.sealOpen = true → Does .sealOpen s fun t => t = s) ∧
    (f.powered = true → f.sealOpen = false → Does .sealOpen s fun t => t = { s with flc := { f with sealOpen := true, sealCnt := f.sealCnt + 1, jrnSeq := f.jrnSeq + 1, ring := RingAfter f 5 0 (f.sealCnt + 1) 0 } }) ∧
    (f.powered = false ∨ f.sealOpen = false → Does .sealClose s fun t => t = s) ∧
    (f.powered = true → f.sealOpen = true → Does .sealClose s fun t => t = { s with flc := { f with sealOpen := false, jrnSeq := f.jrnSeq + 1, ring := RingAfter f 6 0 f.sealCnt 0 } }) ∧
    ∀ (i : BitVec 8) (v : Word), let admits : Prop := i.toNat < 4 ∨ (8 ≤ i.toNat ∧ i.toNat < 16 ∧ 1 ≤ v.toNat ∧ v.toNat ≤ 1000000);
      let closes : Prop := Instr.sealClose ∈ s.pending
      (f.powered = false ∨ f.sealOpen = false ∨ ¬ admits ∨ closes → Does (.param i v) s fun t => t = s) ∧
      (f.powered = true → f.sealOpen = true → admits → ¬ closes → Does (.param i v) s fun t => ∃ old g, (f.newParams = [] → old = flcParam f i.toNat) ∧
        (let news := f.newParams ++ [(i.toNat, v.toNat)];
          (f.closedAt ≠ some s.gt → g = { f with newParams := news }) ∧ (f.closedAt = some s.gt → g = { f with params := news.foldl (fun ps x => listSet ps x.1 x.2) f.params, newParams := [] })) ∧
        t = { s with flc := { g with sealCnt := f.sealCnt + 1, jrnSeq := f.jrnSeq + 1, ring := RingAfter f 7 i.toNat v.toNat old } })) ∧
  ∀ s : State, let run := Does .admissionStallTimeout s
    let due : Prop := (∃ n, s.flc.stall = some n ∧ Sys2Proof.RunOut s (n + 1000000000)) ∧ s.arr.noSteps = false;
    (¬ due → run fun t => t = s) ∧
    (∀ n, s.flc.stall = some n → due → run fun t => t = stallYields { s with arr := { s.arr with noSteps := true } } n 0)

namespace Sys2Proof

/-- A command that resets the device, or the memories' owners, as a whole (15_reset_boot.md R477). -/
def ResetCommand (c : Instr) : Prop :=
  (∃ straps rails, c = .coldRst straps rails) ∨ (∃ straps held, c = .standbyPowerOn straps held) ∨ c = .mainPowerLoss ∨ c = .perst ∨ c = .warm ∨
    ∃ r off v, c = .registerWrite r (.bar0 off) (.dword v) ∧ off.toNat = 0x300004 ∧ v.getLsbD 0 = true

/-- The value a requester's accepted write has: where a PLDM write of the tick to the same register stands, its RW and RWL fields are as the register reads
(18_register_map.md R556; 14_power_clocks_thermal.md R465). -/
def writeValue (s : State) (r : Requester) (off : Nat) (v : Word) : Word :=
  match specOf off with | some p => if pldmStands s r off then keepFields p.fields (regLive s r off) v else v | none => v

/-- The value a register takes from an accepted write: each field by its access code; a W1C bit that an event set in the tick stays set. -/
def newValue (s : State) (r : Requester) (off : Nat) (v : Word) : Word :=
  match specOf off with
  | some p => mergeFields p.fields (locked s off) (heldVal s r off) (writeValue s r off v) ||| (setNow s off &&& heldVal s r off)
  | none => heldVal s r off

/-- The state an accepted write acts on: a PLDM write is noted for its tick. -/
def WriteNoted (s u : State) (r : Requester) (off : Nat) : Prop :=
  (r ≠ .mgmt → u = s) ∧ (r = .mgmt → ∃ l, off ∈ l ∧ u = { s with rf := { s.rf with pldm := some (s.gt, l) } })

/-- A write of one register as the register map judges it (18_register_map.md R555 to R560): nothing while the BARs are off to the host, or where a
reset of its tick waits; else refused whole and logged by the first cause that holds, else with its effect, given the state it acts on, the value
written and the value the register takes. -/
def WriteOutcome (r : Requester) (off : Nat) (v : Word) (s : State) (effect : State → Word → Word → State → Prop) (t : State) : Prop :=
  let hidden : Prop := (r = .host ∧ barsOff s = true) ∨ ∃ c, c ∈ s.pending ∧ ResetCommand c
  (hidden → t = s) ∧ (¬ hidden → specOf off = none → t = logRefused s r off v stAddr) ∧
    ∀ p, specOf off = some p → ¬ hidden →
      (writeDenied s r p off v = true → t = logRefused s r off v stDenied) ∧
      (writeDenied s r p off v = false → (p.fields.any (fieldBad (locked s off) v)) = true → t = logRefused s r off v stRange) ∧
      (writeDenied s r p off v = false → (p.fields.any (fieldBad (locked s off) v)) = false → ∃ u, WriteNoted s u r off ∧ effect u (writeValue s r off v) (newValue s r off v) t)

/-- An injection as started (17_faults.md R550, R551): nothing while HUB_LOCK is set; else its status by the first check that fails, or
ST_OK and its fault. -/
def Injected (s : State) (kind : Nat) (restore : Bool) (t : State) : Prop :=
  let a := injArgs s kind
  let bad (st : Nat) : Prop := t = { s with inj := { s.inj with status := st } };
  (locked s 0x900 = true → t = s) ∧
  (locked s 0x900 = false → (injValid s a = false → bad stRange) ∧ (injValid s a = true → injDenied s a = true → bad stDenied) ∧
    (injValid s a = true → injDenied s a = false → injOut s a = true → bad stCtxState) ∧
    (injValid s a = true → injDenied s a = false → injOut s a = false → ∃ u, u = injEffect { s with inj := { s.inj with busy := true } } a restore ∧
      t = { u with inj := { u.inj with busy := false, status := stOk } }))

/-- A command writes HUB_INJ_CTL with GO, a kind and RESTORE. -/
def StartsInjection (c : Instr) (s : State) (r : Requester) (kind : Nat) (restore : Bool) : Prop :=
  let v : Word := BitVec.ofNat 32 (2 ^ 31 + b2n restore * 2 ^ 30 + kind)
  Does c s fun t => WriteOutcome r 0x900 v s (fun u x w t => x.getLsbD 31 = true ∧ Injected (regPut u 0x900 w) (bits w 7 0) (w.getLsbD 30) t) t

end Sys2Proof

/-- HUB_FLT_ACK, FAULT_LOG_COALESCE_EXPIRY, the eleven INJECT commands and INJECTION_RESTORE (17_faults.md R545, R548, R550, R551; 18_register_map.md R556 to R560). -/
def Obligations.FaultLogAndInjection : Prop :=
  (∀ (s : State) (r : Requester) (v : Word), Does (.hubFltAck r v) s (WriteOutcome r 0x80C v s fun u x w t =>
      (fltHead s < x.toNat → t = logRefused u r 0x80C x stRange) ∧
      (x.toNat ≤ fltHead s → regVal t 0x80C = w ∧ OtherRegs [0x80C] u t ∧ t = { u with rf := { u.rf with vals := t.rf.vals } }))) ∧
  (∀ s : State, let due : Prop := ∃ n, s.flt.coalesce = some n ∧ n ≤ s.gt
    let w := regVal s 0x800;
    (¬ due → Does .faultLogCoalesceExpiry s fun t => t = s) ∧
    (due → Does .faultLogCoalesceExpiry s fun t => ∃ u, u = { s with flt := { s.flt with coalesce := none } } ∧ t = if w.getLsbD 31 then signalVector u 0 (bits w 10 0) else u)) ∧
  (∀ (s : State) (r : Requester), StartsInjection (.injectLaneErrors r) s r 1 false ∧ StartsInjection (.injectChannelLoss r) s r 2 false ∧
    StartsInjection (.injectRingUnlock r) s r 3 false ∧ StartsInjection (.injectLaserOff r) s r 4 false ∧ StartsInjection (.injectSramDoubleBit r) s r 5 false ∧
    StartsInjection (.injectTileLost r) s r 6 false ∧ (∀ restore, StartsInjection (.injectDieLost r restore) s r 7 restore) ∧ StartsInjection (.injectReservoirDoubleBit r) s r 8 false ∧
    StartsInjection (.injectT2Uncorrectable r) s r 9 false ∧ StartsInjection (.injectLinkDown r) s r 10 false ∧ StartsInjection (.injectReductionFault r) s r 11 false) ∧
  (∀ (s : State) (a : InjArgs) (restore : Bool), let t := injEffect s a restore
    let i := a.idx
    let later (u : State) : Prop := t = { u with inj := { u.inj with restores := u.inj.restores ++ [(s.gt + 10000000, a.kind, i)] } };
    (a.kind = 1 → t = replaceLane s (i / 2 ^ 16) (i / 2 ^ 8 % 256) (i % 256) ((bundleOf s (i / 2 ^ 16) (i / 2 ^ 8 % 256)).thresh + 1) false) ∧
    (a.kind = 2 → t = loseChannel s i false) ∧ (a.kind = 3 → t = unlockRing s i true) ∧ (a.kind = 4 → later (failLaser s (i / 8) (i % 8) false)) ∧
    (∀ d o, a.kind = 5 → placeOf s a.addr = some (.t0 d o) → t = sramDoubleBit s d o a.addr) ∧ (a.kind = 6 → t = loseTile s i false) ∧
    (a.kind = 7 → restore = false → t = loseDie s i (dieClass i) 0 false) ∧ (a.kind = 7 → restore = true → later (loseDie s i (dieClass i) 0 false)) ∧
    (∀ j o, a.kind = 8 → placeOf s a.addr = some (.t1 j o) → t = t1DoubleBit s j o true false) ∧
    (∀ p o, a.kind = 9 → placeOf s a.addr = some (.t2 p o) → t = t2Uncorrectable s p o false) ∧
    (a.kind = 10 → t = dropLink s (i / 16) (i % 16) 3 false) ∧ (a.kind = 11 → t = reductionFault s i false)) ∧
  (∀ (s : State) (pass : Bool), let run := Does (.injectionRestore pass) s;
    (s.inj.restores = [] → run fun t => t = s) ∧
    ∀ n k i rs, s.inj.restores = (n, k, i) :: rs → (s.gt < n → run fun t => t = s) ∧
      (n ≤ s.gt → run fun t => ∃ u, u = { s with inj := { s.inj with restores := rs } } ∧
        (k = 4 → (laserOf u i).st = .failed → pass = true → LaserPut u t i { laserOf u i with st := .standby, bus := none, checked := some u.gt }) ∧
        (k = 4 → (laserOf u i).st ≠ .failed ∨ pass = false → t = u) ∧
        (k ≠ 4 → (dieOf u i).st = .lost → t = resetDie u i (dieClass i) 0 true false) ∧ (k ≠ 4 → (dieOf u i).st ≠ .lost → t = u)))

namespace Sys2Proof

/-- A register whose accepted write stores its fields and does nothing else: no LOCK, no selection, and none whose write is a command of its
own or acts on another part (18_register_map.md R561, R562). -/
def PlainRegister (off : Nat) : Prop :=
  isLock off = false ∧ isSel off = false ∧
    off ∉ [0x80C, 0x900, 0x100004, 0x300004, 0x300008, 0x30002C, 0x400010, 0x800200, 0x1000044, 0x10000C0, 0x1800064, 0x2C00014, 0x2C00018, 0x2C0001C,
      0x1C00004, 0x1C00008, 0x3000100, 0x3000104, 0x3000140, 0x3000144, 0x3000148, 0x3400000, 0x340000C, 0x3400014] ∧
    (off < 0x400100 ∨ 0x400200 ≤ off) ∧ (off < 0x804000 ∨ 0x807F00 ≤ off) ∧ (off < 0x1401000 ∨ 0x1402000 ≤ off) ∧ (off < 0x1501000 ∨ 0x1501400 ≤ off) ∧
    (off < 0x2000000 ∨ 0x2800000 ≤ off ∨ off % 0x100000 ≠ 0x100) ∧ (off < 0x3000110 ∨ 0x3000140 ≤ off)

/-- A write command's outcome at a register, with the effect an accepted value has there. -/
def Written (r : Requester) (off : Nat) (v : Word) (s t : State) : Prop :=
  WriteOutcome r off v s (fun u x w t => t = applyWrite u r off x w (locked s off)) t

end Sys2Proof

/-- REGISTER_WRITE, CAP_WRITE, KICK, ARITH_CLR, LOCK_WRITE and LO_REGISTER_READ (18_register_map.md R554 to R560, R569; 00_scope.md R10; 01_architecture.md R27,
R38; 02_arithmetic.md R55; 14_power_clocks_thermal.md R471; 15_reset_boot.md R484). -/
def Obligations.RegisterWrites : Prop :=
  (∀ (lk : Bool) (v old : Word) (f : FieldSpec), f.hi < 32 → f.lo ≤ f.hi → let w := mergeField lk v old f
    let m := 2 ^ (f.hi - f.lo + 1)
    bits w f.hi f.lo = (match f.acc with
      | .rw => bits v f.hi f.lo
      | .rwl => if lk then bits old f.hi f.lo else bits v f.hi f.lo
      | .w1c => (bits old f.hi f.lo &&& (m - 1 - bits v f.hi f.lo)) % m
      | .w1s => (bits old f.hi f.lo ||| bits v f.hi f.lo) % m
      | .wo => bits old f.hi f.lo
      | .ro => bits old f.hi f.lo) ∧
    ∀ j, j < f.lo ∨ f.hi < j → w.getLsbD j = old.getLsbD j) ∧
  (∀ (s : State) (r : Requester) (off : BitVec 26) (v lo hi : Word), let o := off.toNat
    let away : Prop := r = .host ∧ barsOff s = true
    let run (f : WriteForm) := Does (.registerWrite r (.bar0 off) f) s;
    (o % 4 = 0 → run (.dword v) (Written r o v s)) ∧
    (∀ f, f = .partialDword v ∨ f = .long v ∨ (f = .dword v ∧ o % 4 ≠ 0) → (away → run f fun t => t = s) ∧ (¬ away → run f fun t => t = logRefused s r o v stBadDesc)) ∧
    run (.pair lo hi) (fun t => ∃ u, Written r (o / 8 * 8) lo s u ∧ Written r (o / 8 * 8 + 4) hi u t)) ∧
  (∀ (s : State) (r : Requester) (off : Nat) (v w : Word) (lk : Bool), let t := applyWrite s r off v w lk;
    (PlainRegister off → regVal t off = w ∧ OtherRegs [off] s t ∧ t = { s with rf := { s.rf with vals := t.rf.vals } }) ∧
    (off = 0x1C00004 ∨ off = 0x1C00008 → regVal t off = w ∧ OtherRegs [off] s t ∧ t = { s with rf := { s.rf with vals := t.rf.vals }, sil := { s.sil with spill := t.sil.spill, exactWrite := t.sil.exactWrite } }) ∧
    (off = 0x1000010 ∨ off = 0x1800020 ∨ off = 0x44 ∨ off = 0x3800030 → t = selPut s r off w ∧ selVal t r off = w ∧ ∀ o, regVal t o = regVal s o)) ∧
  (∀ (s : State) (r : Requester) (v : Word),
    (Does (.capWrite r v) s (WriteOutcome r 0x200004 v s fun u _ w t => regVal t 0x200004 = w ∧ OtherRegs [0x200004] u t ∧ t = { u with rf := { u.rf with vals := t.rf.vals } })) ∧
    (let k := v ||| 0x40000000#32;
      Does (.kick r v) s (WriteOutcome r 0x300008 k s fun u _ w t => regVal t 0x300008 = setBits w 29 29 0 ∧ OtherRegs [0x300008] u t ∧
        t.rst.wdtBy = (if bootReady s then some (s.gt + 1000000 * bits w 15 0) else s.rst.wdtBy) ∧
        t = { u with rf := { u.rf with vals := t.rf.vals }, rst := { s.rst with wdtBy := t.rst.wdtBy } })) ∧
    ∀ c : BitVec 16, let k := 0x80000000#32 ||| c.zeroExtend 32;
      Does (.arithClr r c) s (WriteOutcome r 0x800200 k s fun v _ w t => ∃ u, u = selPut v r 0x800200 w ∧
        ∃ e, e = bits (selVal u r 0x800200) 15 0 ∧ CtxPut u t e { ctxOf u e with flush := 0, truncTerms := 0, reissue := 0, special := 0 })) ∧
  (∀ (s : State) (r : Requester) (off : BitVec 26) (v : Word), let o := off.toNat
    let lower : Prop := ∀ g, g < lockGroup o → ∀ l, l ∈ lockGroups.getD g [] → (regVal s l).getLsbD 0 = true
    let run := Does (.lockWrite r off v) s;
    (isLock o = false → run fun t => t = s) ∧
    (isLock o = true → run (WriteOutcome r o v s fun u x _ t => (x.getLsbD 0 = false ∨ coresMay r = true ∨ (regVal s o).getLsbD 0 = true → t = u) ∧
      (x.getLsbD 0 = true → coresMay r = false → (regVal s o).getLsbD 0 = false → (bootReady s = true ∧ lower → t = regPut u o 1#32) ∧ (¬ (bootReady s = true ∧ lower) → t = logRefused u r o x stCtxState))))) ∧
  (∀ (s : State) (r : Requester) (off : BitVec 26), let o := off.toNat
    let run := Does (.loRegisterRead r off) s;
    (isLo o = false → run fun t => t = s) ∧
    (isLo o = true → r = .host → barsOff s = true → run fun t => t = { s with sent := (s.gt, .plain "read" (regRead s r o).toNat) :: s.sent }) ∧
    (isLo o = true → r ≠ .host ∨ barsOff s = false → run fun t => tabFind t.rf.latches (bankOf r * 2 ^ 26 + o + 4) = some (regLive s r (o + 4)) ∧
      (∀ b, b ≠ bankOf r * 2 ^ 26 + o + 4 → tabFind t.rf.latches b = tabFind s.rf.latches b) ∧
      t = { s with rf := { s.rf with latches := t.rf.latches }, sent := (s.gt, .plain "read" (regRead s r o).toNat) :: s.sent })) ∧
  (∀ (s : State) (r : Requester) (fn : BitVec 6) (off : BitVec 16) (v lo hi : Word), let o := off.toNat
    let f := fn.toNat
    let run (x : WriteForm) := Does (.registerWrite r (.bar4 fn off) x) s;
    (run (.partialDword v) fun t => t = s) ∧ (run (.long v) fun t => t = s) ∧ (run (.dword v) fun t => t = writeMsix s f o v) ∧
    (run (.pair lo hi) fun t => t = writeMsix (writeMsix s f (o / 8 * 8) lo) f (o / 8 * 8 + 4) hi) ∧
    (barsOff s = true ∨ o % 4 ≠ 0 ∨ msixIndex s f o = none → writeMsix s f o v = s) ∧
    (∀ i, msixIndex s f o = some i → (f = 0 → i = o / 16 ∧ i < 2048 ∧ (32 ≤ i → vfEnabled s (i / 32) = false)) ∧ (f ≠ 0 → i = 32 * f + o / 16 ∧ o / 16 < 32)) ∧
    ∀ i, barsOff s = false → o % 4 = 0 → msixIndex s f o = some i → ∃ u, let e := tabGet s.rf.msix {} i
      let z := tabGet u.rf.msix {} i
      (o % 16 = 0 → z = { e with addr := e.addr / 2 ^ 32 * 2 ^ 32 + v.toNat / 4 * 4 }) ∧ (o % 16 = 4 → z = { e with addr := v.toNat * 2 ^ 32 + e.addr % 2 ^ 32 }) ∧
      (o % 16 = 8 → z = { e with data := v }) ∧ (o % 16 = 12 → z = { e with masked := v.getLsbD 0 }) ∧
      (∀ j, j ≠ i → tabGet u.rf.msix {} j = tabGet s.rf.msix {} j) ∧ u = { s with rf := { s.rf with msix := u.rf.msix } } ∧
      (i ∉ s.rf.pba ∨ z.masked = true → writeMsix s f o v = u) ∧
      (i ∈ s.rf.pba → z.masked = false → ∃ g n, 32 * g + n = i ∧ writeMsix s f o v = { u with rf := { u.rf with pba := s.rf.pba.filter (· ≠ i) }, sent := (s.gt, .msix g n z.addr z.data) :: s.sent })) ∧
  ∀ (s : State) (p : PageRef) (r : Requester) (off : BitVec 12) (v lo hi : Word), let o := off.toNat
    let run (f : WriteForm) := Does (.registerWrite r (.page p off) f) s;
    (run (.partialDword v) fun t => t = s) ∧ (run (.long v) fun t => t = s) ∧ (run (.dword v) fun t => t = writePage s p o v) ∧
    (0x10 ≤ o → run (.pair lo hi) fun t => t = writePage (writePage s p (o / 8 * 8) lo) p (o / 8 * 8 + 4) hi) ∧ (o < 0x10 → run (.pair lo hi) fun t => t = s) ∧
    (∀ c, pageCtx s p = some c → 0x110 ≤ o → writePage s p o v = modCtx s c (writeCtxReg (fnOf s c) o v)) ∧ (pageCtx s p = none → 0x110 ≤ o → writePage s p o v = s)

namespace Sys2Proof

/-- The test port holds an instruction; a boot that waited goes on where the instruction takes no pins (19_package_pins.md R595). -/
def TapHolds (s : State) (i : TapInstr) (u : State) : Prop :=
  (s.tap.bootWaits = false ∨ tapDrives i = true → u = { s with tap := { s.tap with ir := i } }) ∧
  (s.tap.bootWaits = true → tapDrives i = false → u = startBoot { s with tap := { s.tap with ir := i, bootWaits := false } })

end Sys2Proof

/-- EXTEST, IDCODE, SAMPLE_PRELOAD, HIGHZ, CLAMP, EXTEST_PULSE, EXTEST_TRAIN, BYPASS and TAP_RESET (19_package_pins.md R592 to R595). -/
def Obligations.TestPort : Prop :=
  (∀ (s : State) (pins inn : BitVec 2306) (c : Instr) (i : TapInstr), (c, i) ∈ [(.extest pins inn, .extest), (.extestPulse pins inn, .extestPulse), (.extestTrain pins inn, .extestTrain)] →
    Does c s fun t => ∃ u, TapHolds s i u ∧ (s.tap.coldLow = true → t = { u with tap := { u.tap with cells := inn }, sent := (u.gt, .scan pins) :: u.sent }) ∧
      (s.tap.coldLow = false → t = { u with sent := (u.gt, .plain "tdo bypass" 0) :: u.sent })) ∧
  (∀ (s : State) (pins inn : BitVec 2306), Does (.samplePreload pins inn) s fun t => ∃ u, TapHolds s .samplePreload u ∧ t = { u with tap := { u.tap with cells := inn }, sent := (u.gt, .scan pins) :: u.sent }) ∧
  (∀ (s : State), (Does .idcode s fun t => ∃ u, TapHolds s .idcode u ∧ t = { u with sent := (u.gt, .plain "tdo" 0xB9620D87) :: u.sent }) ∧
    (∀ c i, (c, i) ∈ [(Instr.highz, TapInstr.highz), (.clamp, .clamp), (.bypass, .bypass)] → Does c s fun t => ∃ u, TapHolds s i u ∧ t = { u with sent := (u.gt, .plain "tdo bypass" 0) :: u.sent }) ∧
    (Does .tapReset s fun t => TapHolds s .idcode t)) ∧
  ∀ s : State, (s.tap.coldLow = false → tapPins s = .none) ∧
    (s.tap.coldLow = true → (s.tap.ir ∈ [.extest, .clamp, .extestPulse, .extestTrain] → tapPins s = .cells s.tap.cells) ∧ (s.tap.ir = .highz → tapPins s = .off) ∧
      (s.tap.ir ∈ [.idcode, .samplePreload, .bypass] → tapPins s = .none))

/-- Commands of the clock, the Director, the host and the Sillage that find something to do do it, and doorbells that ring act: for each, states in which
`exec` answers the next state of its own effect (01_architecture.md R22, R23; 05_placement.md R146, R161; 06_sillage.md R193, R205, R207; 09_host_rings.md R294,
R298, R324, R326; 13_tenancy_security.md R436). -/
def Obligations.CommandsTakeEffect : Prop :=
  (∀ (s : State) (d : BitVec 3) (b : Batch) (i : Inst) (o : OpRec) (rows : List BatchRow) (st : StepRec), let x := domOf s d.toNat
    domFault s d.toNat = false → x.phase = .running → x.start ≤ s.gt → x.batch = some b → tabFind s.insts b.inst = some i → opOf i b = some o → stepOf i b = some st →
    b.result = some rows → b.op + 1 < st.count → x.cut = false → x.sliceEnd = none →
    ∃ t u, exec (.operationBoundary d) s = .next t ∧ t = atOpBoundary u d.toNat ∧ (domOf u d.toNat).phase = .readying ∧
      (domOf u d.toNat).batch = some { b with op := b.op + 1, rows := settleRows rows, result := none, attempt := 0, part := 0, parts := 1, seq := (x.opseq + 1) % 2 ^ 32 }) ∧
  (∀ (s : State) (d : BitVec 3), domFault s d.toNat = false → (domOf s d.toNat).phase = .idle → (domOf s d.toNat).batch = none →
    ∃ t, exec (.operationBoundary d) s = .next t ∧ t = atStepBoundary (atOpBoundary s d.toNat) d.toNat) ∧
  (∀ (s : State) (d : BitVec 3) (b : Batch) (e : Nat), (domOf s d.toNat).phase = .running → (domOf s d.toNat).batch = some b → (domOf s d.toNat).sliceEnd = some e → RunOut s e →
    ∃ t, exec (.sliceEnd d) s = .next t ∧ (domOf t d.toNat).cut = true ∧ (domOf t d.toNat).batch = some b) ∧
  (∀ (s : State) (r : Requester) (v i : BitVec 6) (w : Word), let live (c : Nat) : Prop := (ctxOf s c).enable = true ∨ (ctxOf s c).enabled = true
    v ≠ 0#6 → (r = .host → barsOff s = false) → w.toNat % 65536 ≤ 4095 → ¬ live (w.toNat % 65536) → (∀ c, slotCtx s v.toNat i.toNat = some c → ¬ live c) →
    (∀ e, e ∈ s.rf.vals → 0x804000 ≤ e.1 → e.1 < 0x807F00 → e.1 ≠ vfmapOff v.toNat i.toNat → e.2.getLsbD 31 = true → e.2.toNat % 65536 ≠ w.toNat % 65536) → tdiLocked s v.toNat = false →
    ∃ t, exec (.ctxVfmap r v i w) s = .next t ∧ regVal t (vfmapOff v.toNat i.toNat) = w &&& 0x8000FFFF#32 ∧ OtherRegs [vfmapOff v.toNat i.toNat] s t ∧ t.rf.wlog = s.rf.wlog) ∧
  (∀ (s : State) (c : BitVec 12) (n : Nat), let k := ctxOf s c.toNat
    let v := bits k.irqNow 10 0
    let e := tabGet s.rf.msix {} (32 * fnOf s c.toNat + v)
    k.coalesce = some n → RunOut s n → k.irqNow.getLsbD 31 = true → e.masked = false → fnOf s c.toNat ≠ 0 ∨ v < 32 →
    ∃ t, exec (.coalesceTimerExpiry c) s = .next t ∧ t.sent = (s.gt, .msix (fnOf s c.toNat) v e.addr e.data) :: s.sent ∧ CtxPut { s with sent := t.sent } t c.toNat { k with coalesce := none, unsignalled := 0 }) ∧
  (∀ (s : State) (c : BitVec 12) (w : Wait), (ctxOf s c.toNat).space = some w → w.next ≤ s.gt →
    ∃ t, exec (.capacityWaitTimer c) s = .next t ∧ (ctxOf t c.toNat).space = some { w with next := w.next + 100000000 } ∧ OtherCtxs c.toNat s t) ∧
  (∀ (s : State) (g : BitVec 3) (b : BitVec 4) (k : ScanKey) (x : Scan) (p : Nat), let q := bankAt s g.toNat b.toNat
    q.st = .inService → q.seg = none → q.due = false → groupThrottled s g.toNat = false → (s.sil.scans.find? fun y => y.key = k) = some x → mayScan s g.toNat x = true →
    p ∈ x.pages → x.lo / 256 ≤ p → p < (x.hi + 255) / 256 → pageGroup s k.ctx (scanTensor s k) p = (some g.toNat, false) →
    ∃ t seg, exec (.segmentDispatch g b k) s = .next t ∧ (bankAt t g.toNat b.toNat).seg = some seg ∧ seg.scan = k ∧ seg.pages ≠ [] ∧ seg.pages.length ≤ 16 ∧ ∀ n, n ∈ seg.pages → n ∈ x.pages) ∧
  (∀ (s : State) (g : BitVec 3) (b : BitVec 4) (ys : List (BitVec 12)) (seg : Segment) (x : Scan), (bankAt s g.toNat b.toNat).seg = some seg → Instr.sillageBankFault g b ∉ s.pending →
    seg.dropped = false → (s.sil.scans.find? fun y => y.key = seg.scan) = some x →
    ∃ t, exec (.segmentComplete g b ys) s = .next t ∧ (bankAt t g.toNat b.toNat).seg = none ∧
      (t.sil.scans.find? fun y => y.key = seg.scan) = some { x with codes := x.codes ++ List.zip (segmentKeys x seg.pages) (ys.map BitVec.toInt) }) ∧
  (∀ (s : State) (k : ScanKey) (x : Scan), (s.sil.scans.find? fun y => y.key = k) = some x → x.pages = [] → x.codes.length = x.hi - x.lo →
    (∀ e, e ∈ s.sil.banks → ∀ g, e.2.seg = some g → g.scan ≠ k) →
    ∃ t, exec (.selectionForm k) s = .next t ∧ ∀ y, y ∈ t.sil.scans → y.key ≠ k) ∧
  (∀ (s : State) (c : BitVec 12) (p : Prov), let k := ctxOf s c.toNat
    k.prov = some p → p.cls = 2 → k.demoted = false → inBatch s c.toNat = true → quiet s = true → p.stepUs * 1000 * topFreq s ≤ k.stepTicks * stepFreq s p.dom →
    ∃ t, exec (.stepOverrun c) s = .next t ∧ (ctxOf t c.toNat).demoted = true ∧ OtherCtxs c.toNat s t) ∧
  (∀ (s : State) (p : PageRef) (c : Nat) (v : Word), let k := ctxOf s c
    let n := bits v 15 0
    pageCtx s p = some c → k.enabled = true → k.enable = true →
    (n < 2 ^ k.sqLog → exec (.ctxSqTail p true v) s = .next (settle (setCtx s c { k with sqTail := n }) c)) ∧
    (n < 2 ^ k.cqLog → exec (.ctxCqHead p true v) s = .next (settle (setCtx s c { k with cqHead := n }) c)) ∧
    (n < 2 ^ k.rqLog → (∀ lim, k.holdTimer = some lim → s.gt ≤ lim) →
      exec (.ctxRqTail p true v) s = .next (settle (setCtx s c { k with rqTail := n, holdTimer := if k.buffers = [] ∧ k.rqHead = n then k.holdTimer else none }) c)) ∧
    (k.stopped = some v.toNat → exec (.ctxOutAck p true v) s = .next (settle (setCtx s c { k with stopped := none }) c))) ∧
  ∀ (s : State) (key : UnitKey) (u : Machine.PUnit), (s.plc.units.find? fun v => v.key = key && v.moving && !v.copied) = some u → drainMove s u = none → u.dest = none ∨ migUsedNow s u.dom ≤ migCap s u.dom →
    (copyDies u).any (faultPending s) = false → (domOf s u.dom).phase = .running → u.home ≠ .lost →
    ∃ t, exec (.copyComplete key) s = .next t ∧ ∀ v, v ∈ t.plc.units → v.key = key → v.copied = true

/-- Draws and uniform draws (02_arithmetic.md R65). The value k × 2^e is compared in units of 2^−149. -/
def Obligations.UniformDraws : Prop :=
  (∀ seed counter stream j : Nat, let block := philox (BitVec.ofNat 32 counter) (BitVec.ofNat 32 (counter / 2 ^ 32)) (BitVec.ofNat 32 (j / 4)) (BitVec.ofNat 32 stream) (BitVec.ofNat 32 seed) (BitVec.ofNat 32 (seed / 2 ^ 32));
    (j % 4 = 0 → draw seed counter stream j = block.1) ∧ (j % 4 = 1 → draw seed counter stream j = block.2.1) ∧
    (j % 4 = 2 → draw seed counter stream j = block.2.2.1) ∧ (j % 4 = 3 → draw seed counter stream j = block.2.2.2)) ∧
  (∀ w : Word, ∃ k e, f32Num (uniform w) = .fin false k e ∧ -149 ≤ e ∧ k * 2 ^ (e + 149).toNat = (w >>> 8).toNat * 2 ^ 125 ∧ k * 2 ^ (e + 149).toNat < 2 ^ 149) ∧
  ∃ k e, f32Num (uniform 0x6627E8D5#32) = .fin false k e ∧ -149 ≤ e ∧ k * 2 ^ (e + 149).toNat = 6694888 * 2 ^ 125

/-- Events and their mark (09_host_rings.md R318). -/
def Obligations.EventsMarked : Prop :=
  ∀ (s : State) (c : Nat) (e : Entry), let k := ctxOf s c
    let t := event s c e;
    writes k = true →
      (k.events.length < 64 → freeSlots k = 0 → CtxPut s t c { k with events := k.events ++ [e] }) ∧
      (k.events.length ≤ 64 → (ctxOf t c).events.length ≤ 64) ∧
      (64 ≤ k.events.length → CtxPut s t c { k with evtLost := min (k.evtLost + 1) (2 ^ 32 - 1), lostMark := true }) ∧
      (let u := writeEntry s c e;
        (∃ bs, bs = entryBytes e k.cqPhase k.ver k.sqHead s.gt k.lostMark ∧ bs.length = 32 ∧ (∃ b, bs[24]? = some b ∧ b.getLsbD 1 = k.lostMark) ∧
          ∀ i, i < 32 → some (hostByte u (spaceOf s c) (k.cqBase + 32 * k.cqTail + i)) = bs[i]?) ∧
        (ctxOf u c).lostMark = false)
end

