-- ==== Sys2Proof/Laws/Tab.lean ====
section
/-!
SUPPORT. What the sparse tables do: an entry read back, entries of other keys, and the canonical form kept.
-/
set_option Elab.async false
set_option linter.all false
namespace Sys2Proof.Machine
open Sys2Proof

theorem tabRising_weaken {α : Type} (t : List (Nat × α)) (b : Option Nat) (k : Nat) (hb : ∀ m, b = some m → m < k)
    (h : tabRising (some k) t = true) : tabRising b t = true := by
  cases t with
  | nil => rfl
  | cons e t =>
    obtain ⟨k', v⟩ := e
    simp only [tabRising, Bool.and_eq_true, decide_eq_true_eq] at h ⊢
    refine ⟨?_, h.2⟩
    cases b with
    | none => rfl
    | some m => have := hb m rfl; simp only [decide_eq_true_eq]; omega

theorem tabRising_del {α : Type} (t : List (Nat × α)) (b : Option Nat) (k : Nat) (h : tabRising b t = true) : tabRising b (tabDel t k) = true := by
  induction t generalizing b with
  | nil => rfl
  | cons e t ih =>
    obtain ⟨k', v⟩ := e
    simp only [tabRising, Bool.and_eq_true] at h
    simp only [tabDel]
    split
    · refine tabRising_weaken _ _ k' (fun m hm => ?_) (ih _ h.2)
      subst hm; simpa using h.1
    · simp only [tabRising, Bool.and_eq_true]
      exact ⟨h.1, ih _ h.2⟩

theorem tabRising_put {α : Type} (t : List (Nat × α)) (b : Option Nat) (k : Nat) (v : α) (h : tabRising b t = true)
    (hb : ∀ m, b = some m → m < k) : tabRising b (tabPut t k v) = true := by
  induction t generalizing b with
  | nil =>
    cases b with
    | none => rfl
    | some m => simp [tabPut, tabRising, hb m rfl]
  | cons e t ih =>
    obtain ⟨k', v'⟩ := e
    simp only [tabRising, Bool.and_eq_true] at h
    simp only [tabPut]
    split
    · rename_i hlt
      simp only [tabRising, Bool.and_eq_true, decide_eq_true_eq]
      refine ⟨?_, hlt, h.2⟩
      cases b with
      | none => rfl
      | some m => simp [hb m rfl]
    · split
      · rename_i _ hk; subst hk
        simp only [tabRising, Bool.and_eq_true]
        exact h
      · rename_i h1 h2
        simp only [tabRising, Bool.and_eq_true]
        exact ⟨h.1, ih _ h.2 (fun m hm => by cases hm; omega)⟩

theorem tabPut_all {α : Type} (p : α → Bool) (t : List (Nat × α)) (k : Nat) (v : α) (hv : p v = true)
    (h : (t.all fun e => p e.2) = true) : ((tabPut t k v).all fun e => p e.2) = true := by
  induction t with
  | nil => simp [tabPut, hv]
  | cons e t ih =>
    obtain ⟨k', v'⟩ := e
    simp only [List.all_cons, Bool.and_eq_true] at h
    simp only [tabPut]
    split
    · simp [hv, h.1]; simpa using h.2
    · split
      · simp [hv]; simpa using h.2
      · simp only [List.all_cons, Bool.and_eq_true]; exact ⟨h.1, ih h.2⟩

theorem tabDel_all {α : Type} (p : α → Bool) (t : List (Nat × α)) (k : Nat) (h : (t.all fun e => p e.2) = true) :
    ((tabDel t k).all fun e => p e.2) = true := by
  induction t with
  | nil => rfl
  | cons e t ih =>
    obtain ⟨k', v'⟩ := e
    simp only [List.all_cons, Bool.and_eq_true] at h
    simp only [tabDel]
    split
    · exact ih h.2
    · simp only [List.all_cons, Bool.and_eq_true]; exact ⟨h.1, ih h.2⟩

theorem tabSet_wf {α : Type} [DecidableEq α] {t : List (Nat × α)} {d : α} (k : Nat) (v : α) (h : tabWf t d = true) :
    tabWf (tabSet t d k v) d = true := by
  simp only [tabWf, Bool.and_eq_true] at h ⊢
  simp only [tabSet]
  split
  · exact ⟨tabRising_del _ _ _ h.1, tabDel_all (fun x => decide (x ≠ d)) _ _ h.2⟩
  · rename_i hv
    exact ⟨tabRising_put _ _ _ _ h.1 (fun m hm => by cases hm), tabPut_all (fun x => decide (x ≠ d)) _ _ _ (by simpa using hv) h.2⟩

theorem putBytes_wf {m : List (Nat × Byte)} {a : Nat} {bs : List Byte} (h : Memory.wf m) : Memory.wf (putBytes m a bs) := by
  induction bs generalizing m a with
  | nil => exact h
  | cons b bs ih => exact ih (tabSet_wf a b h)

theorem tabRising_filter {α : Type} (p : Nat × α → Bool) (t : List (Nat × α)) (b : Option Nat) (h : tabRising b t = true) :
    tabRising b (t.filter p) = true := by
  induction t generalizing b with
  | nil => rfl
  | cons e t ih =>
    obtain ⟨k, v⟩ := e
    simp only [tabRising, Bool.and_eq_true] at h
    simp only [List.filter_cons]
    split
    · simp only [tabRising, Bool.and_eq_true]; exact ⟨h.1, ih _ h.2⟩
    · refine tabRising_weaken _ _ k (fun m hm => ?_) (ih _ h.2)
      subst hm; simpa using h.1

theorem filter_wf {m : List (Nat × Byte)} (p : Nat × Byte → Bool) (h : Memory.wf m) : Memory.wf (m.filter p) := by
  simp only [Memory.wf, tabWf, Bool.and_eq_true, List.all_eq_true] at h ⊢
  exact ⟨tabRising_filter _ _ _ h.1, fun e he => h.2 e (List.mem_filter.mp he).1⟩

theorem tabFind_del_same {α : Type} (t : List (Nat × α)) (k : Nat) : tabFind (tabDel t k) k = none := by
  induction t with
  | nil => rfl
  | cons e t ih =>
    simp only [tabDel]
    split
    · exact ih
    · simp only [tabFind]; rw [if_neg ‹_›]; exact ih

theorem tabFind_del_other {α : Type} (t : List (Nat × α)) {k j : Nat} (h : j ≠ k) : tabFind (tabDel t k) j = tabFind t j := by
  induction t with
  | nil => rfl
  | cons e t ih =>
    simp only [tabDel, tabFind]
    split
    · rename_i hk; rw [if_neg (fun hj => h (hj.trans hk.symm))]; exact ih
    · simp only [tabFind]; rw [ih]

@[simp] theorem tabFind_put_same {α : Type} (t : List (Nat × α)) (k : Nat) (v : α) : tabFind (tabPut t k v) k = some v := by
  induction t with
  | nil => simp [tabPut, tabFind]
  | cons e t ih =>
    simp only [tabPut]
    split
    · simp [tabFind]
    · split
      · simp [tabFind]
      · simp only [tabFind]; rw [if_neg ‹_›]; exact ih

theorem tabFind_put_other {α : Type} (t : List (Nat × α)) {k j : Nat} (v : α) (h : j ≠ k) : tabFind (tabPut t k v) j = tabFind t j := by
  induction t with
  | nil => simp [tabPut, tabFind, h]
  | cons e t ih =>
    simp only [tabPut]
    split
    · simp [tabFind, h]
    · split
      · rename_i hk; simp only [tabFind]; rw [if_neg h, if_neg (fun hj => h (hj.trans hk.symm))]
      · simp only [tabFind]; rw [ih]

/-- An entry set is read back. -/
@[simp] theorem tabGet_set_same {α : Type} [DecidableEq α] (t : List (Nat × α)) (d : α) (k : Nat) (v : α) :
    tabGet (tabSet t d k v) d k = v := by
  simp only [tabGet, tabSet]
  split
  · rename_i hv; rw [tabFind_del_same, hv]; rfl
  · rw [tabFind_put_same]; rfl

/-- Setting an entry leaves the entries of other keys. -/
theorem tabGet_set_other {α : Type} [DecidableEq α] (t : List (Nat × α)) (d d' : α) {k j : Nat} (v : α) (h : j ≠ k) :
    tabGet (tabSet t d k v) d' j = tabGet t d' j := by
  simp only [tabGet, tabSet]
  split
  · rw [tabFind_del_other _ h]
  · rw [tabFind_put_other _ _ h]

/-- Every entry of a table after one is set. -/
theorem tabGet_set {α : Type} [DecidableEq α] (t : List (Nat × α)) (d : α) (k j : Nat) (v : α) :
    tabGet (tabSet t d k v) d j = if j = k then v else tabGet t d j := by
  split
  · rename_i h; subst h; exact tabGet_set_same _ _ _ _
  · exact tabGet_set_other _ _ _ _ ‹_›

/-- A byte outside the bytes stored reads as before. -/
theorem tabGet_putBytes_other (m : List (Nat × Byte)) (a : Nat) (bs : List Byte) (j : Nat) (h : j < a ∨ a + bs.length ≤ j) :
    tabGet (putBytes m a bs) 0#8 j = tabGet m 0#8 j := by
  induction bs generalizing m a with
  | nil => rfl
  | cons b bs ih =>
    simp only [List.length_cons] at h
    rw [putBytes, ih _ _ (by omega), tabGet_set_other _ _ _ _ (by omega)]

/-- A byte stored is read back. -/
theorem tabGet_putBytes_same (m : List (Nat × Byte)) (a : Nat) (bs : List Byte) (i : Nat) (h : i < bs.length) :
    tabGet (putBytes m a bs) 0#8 (a + i) = bs[i] := by
  induction bs generalizing m a i with
  | nil => exact absurd h (Nat.not_lt_zero _)
  | cons b bs ih =>
    cases i with
    | zero => rw [putBytes, tabGet_putBytes_other _ _ _ _ (by omega)]; exact tabGet_set_same _ _ _ _
    | succ i =>
      rw [putBytes, show a + (i + 1) = a + 1 + i by omega]
      exact ih _ _ _ (Nat.lt_of_succ_lt_succ h)

/-- An element of a list after one is replaced. -/
theorem listSet_getElem {α : Type} (xs : List α) (i j : Nat) (v : α) :
    (listSet xs i v)[j]? = if j = i ∧ i < xs.length then some v else xs[j]? := by
  induction xs generalizing i j with
  | nil => simp [listSet]
  | cons x xs ih =>
    cases i with
    | zero => cases j <;> simp [listSet]
    | succ i =>
      cases j with
      | zero => simp [listSet]
      | succ j => simp [listSet, ih]

/-- An element of a list after one is changed. -/
theorem listMod_getElem {α : Type} (xs : List α) (i j : Nat) (f : α → α) :
    (listMod xs i f)[j]? = if j = i then xs[j]?.map f else xs[j]? := by
  induction xs generalizing i j with
  | nil => simp [listMod]
  | cons x xs ih =>
    cases i with
    | zero => cases j <;> simp [listMod]
    | succ i =>
      cases j with
      | zero => simp [listMod]
      | succ j => simp [listMod, ih]

theorem listSet_length {α : Type} (xs : List α) (i : Nat) (v : α) : (listSet xs i v).length = xs.length := by
  induction xs generalizing i with
  | nil => rfl
  | cons x xs ih => cases i <;> simp [listSet, ih]

theorem listMod_length {α : Type} (xs : List α) (i : Nat) (f : α → α) : (listMod xs i f).length = xs.length := by
  induction xs generalizing i with
  | nil => rfl
  | cons x xs ih => cases i <;> simp [listMod, ih]

end Sys2Proof.Machine
end

