-- ==== Sys2Proof/Laws/Kept.lean ====
section
/-!
SUPPORT. The relation `Kept` between a state and a later one: how it passes through the forms the meanings are written in.
-/
set_option Elab.async false
set_option linter.all false
namespace Sys2Proof.Machine
open Sys2Proof

theorem Kept.refl (s : State) : Kept s s := ⟨rfl, id⟩

/-- An outcome that is a next state, which keeps the queue and the invariant. -/
def KeptOut (s0 : State) (o : Out) : Prop := ∃ t, o = .next t ∧ Kept s0 t
/-- An answer that keeps the queue and the invariant wherever there is one. -/
def KeptSome (s0 : State) (o : Option State) : Prop := ∀ t, o = some t → Kept s0 t

theorem KeptOut.at {s0 t : State} {o : Out} (h : KeptOut s0 o) (he : o = .next t) : Kept s0 t := by
  obtain ⟨u, hu, hk⟩ := h
  rw [hu] at he; cases he; exact hk

theorem next_kept {s0 t : State} (h : Kept s0 t) : KeptOut s0 (.next t) := ⟨t, rfl, h⟩

theorem ite_kept {s0 : State} {c : Prop} [Decidable c] {a b : State} (ha : Kept s0 a) (hb : Kept s0 b) : Kept s0 (if c then a else b) := by
  split <;> assumption
theorem iteOut_kept {s0 : State} {c : Prop} [Decidable c] {a b : Out} (ha : KeptOut s0 a) (hb : KeptOut s0 b) : KeptOut s0 (if c then a else b) := by
  split <;> assumption
theorem iteSome_kept {s0 : State} {c : Prop} [Decidable c] {a b : Option State} (ha : KeptSome s0 a) (hb : KeptSome s0 b) :
    KeptSome s0 (if c then a else b) := by
  split <;> assumption
theorem some_kept {s0 t : State} (h : Kept s0 t) : KeptSome s0 (some t) := by
  intro u hu; cases hu; exact h
theorem none_kept {s0 : State} : KeptSome s0 none := by
  intro u hu; cases hu

theorem mk_kept {s0 a : State} (h : Kept s0 a) {gt free boots rf flt inj sent ctxs insts mgmt arr plc sec rst pair sil fab pwr base mem dma flc tap i3c}
    (hr : rf.wlog.length = a.rf.wlog.length)
    (hf : flt.recs.length = a.flt.recs.length) (hg : flt.retained.length = a.flt.retained.length) (hm : mem.cells = a.mem.cells)
    (hk : a.arr.kern.regs.length = 64 → arr.kern.regs.length = 64) :
    Kept s0 (State.mk a.pending gt free boots rf flt inj a.hostMem sent ctxs insts mgmt arr plc sec rst pair sil fab pwr base mem dma flc tap i3c) := by
  refine ⟨h.1, fun hi => ?_⟩
  have := h.2 hi
  simp only [Inv, MemOk, LogsOk, KernOk] at this ⊢
  rw [hr, hf, hg, hm]; exact ⟨this.1, this.2.1, hk this.2.2⟩

theorem foldl_kept {α : Type} {s0 s : State} {f : State → α → State} {xs : List α} (h : ∀ t x, Kept s0 t → Kept s0 (f t x)) (hs : Kept s0 s) :
    Kept s0 (xs.foldl f s) := by
  induction xs generalizing s with
  | nil => exact hs
  | cons x xs ih => exact ih (h s x hs)

theorem kept_of {s0 a t : State} (h : Kept s0 a) (hp : t.pending = a.pending) (hh : t.hostMem = a.hostMem)
    (hm : Memory.wf a.mem.cells → Memory.wf t.mem.cells) (hr : t.rf.wlog.length ≤ a.rf.wlog.length)
    (hf : t.flt.recs.length ≤ a.flt.recs.length) (hg : t.flt.retained.length ≤ a.flt.retained.length)
    (hk : a.arr.kern.regs.length = 64 → t.arr.kern.regs.length = 64) : Kept s0 t := by
  refine ⟨hp.trans h.1, fun hi => ?_⟩
  obtain ⟨⟨h1, h2⟩, ⟨h3, h4, h5⟩, h6⟩ := h.2 hi
  exact ⟨⟨hh ▸ h1, hm h2⟩, ⟨Nat.le_trans hr h3, Nat.le_trans hf h4, Nat.le_trans hg h5⟩, hk h6⟩

end Sys2Proof.Machine
end

