-- ==== Sys2Proof/Laws/KeptOps.lean ====
section
/-!
SUPPORT. Every function of the state keeps the queue and the invariant: named operations, the placement tables and the host rings.
-/
set_option Elab.async false
set_option linter.all false
namespace Sys2Proof.Machine
open Sys2Proof

theorem regPut_kept {s0 s : State} (h : Kept s0 s) (off : Nat) (v : Word) : Kept s0 (regPut s off v) := by
  unfold regPut
  iterate 3
    repeat' (first
      | (with_reducible assumption) | (with_reducible apply ite_kept) | (with_reducible apply foldl_kept <;> intros) | (split) | (dsimp only))
    all_goals (try with_reducible refine mk_kept ?_ rfl (by first | rfl | simp) (by first | rfl | simp) rfl (by first | exact id | exact fun _ => rfl))

theorem regSetBits_kept {s0 s : State} (h : Kept s0 s) (off : Nat) (hi : Nat) (lo : Nat) (v : Nat) : Kept s0 (regSetBits s off hi lo v) := by
  unfold regSetBits
  iterate 3
    repeat' (first
      | (with_reducible assumption) | (with_reducible apply ite_kept) | (with_reducible apply regPut_kept)
      | (with_reducible apply foldl_kept <;> intros) | (split) | (dsimp only))
    all_goals (try with_reducible refine mk_kept ?_ rfl (by first | rfl | simp) (by first | rfl | simp) rfl (by first | exact id | exact fun _ => rfl))

theorem noteCount_kept {s0 s : State} (h : Kept s0 s) (off : Nat) : Kept s0 (noteCount s off) := by
  unfold noteCount
  iterate 3
    repeat' (first
      | (with_reducible assumption) | (with_reducible apply ite_kept) | (with_reducible apply foldl_kept <;> intros) | (split) | (dsimp only))
    all_goals (try with_reducible refine mk_kept ?_ rfl (by first | rfl | simp) (by first | rfl | simp) rfl (by first | exact id | exact fun _ => rfl))

theorem bump_kept {s0 s : State} (h : Kept s0 s) (off : Nat) (n : Nat) : Kept s0 (bump s off n) := by
  unfold bump
  iterate 3
    repeat' (first
      | (with_reducible assumption) | (with_reducible apply ite_kept) | (with_reducible apply regPut_kept) | (with_reducible apply noteCount_kept)
      | (with_reducible apply foldl_kept <;> intros) | (split) | (dsimp only))
    all_goals (try with_reducible refine mk_kept ?_ rfl (by first | rfl | simp) (by first | rfl | simp) rfl (by first | exact id | exact fun _ => rfl))

theorem bump64_kept {s0 s : State} (h : Kept s0 s) (lo : Nat) (n : Nat) : Kept s0 (bump64 s lo n) := by
  unfold bump64
  iterate 3
    repeat' (first
      | (with_reducible assumption) | (with_reducible apply ite_kept) | (with_reducible apply regPut_kept) | (with_reducible apply noteCount_kept)
      | (with_reducible apply foldl_kept <;> intros) | (split) | (dsimp only))
    all_goals (try with_reducible refine mk_kept ?_ rfl (by first | rfl | simp) (by first | rfl | simp) rfl (by first | exact id | exact fun _ => rfl))

theorem selPut_kept {s0 s : State} (h : Kept s0 s) (r : Requester) (off : Nat) (v : Word) : Kept s0 (selPut s r off v) := by
  unfold selPut
  iterate 3
    repeat' (first
      | (with_reducible assumption) | (with_reducible apply ite_kept) | (with_reducible apply foldl_kept <;> intros) | (split) | (dsimp only))
    all_goals (try with_reducible refine mk_kept ?_ rfl (by first | rfl | simp) (by first | rfl | simp) rfl (by first | exact id | exact fun _ => rfl))

theorem logRefused_kept {s0 s : State} (h : Kept s0 s) (r : Requester) (off : Nat) (data : Word) (status : Nat) :
    Kept s0 (logRefused s r off data status) := by
  refine ⟨h.1, fun hi => ?_⟩
  have hs := h.2 hi
  exact ⟨hs.1, ⟨by simp [logRefused] <;> omega, hs.2.1.2.1, hs.2.1.2.2⟩, hs.2.2⟩

theorem send_kept {s0 s : State} (h : Kept s0 s) (m : Sent) : Kept s0 (send s m) := by
  unfold send
  iterate 3
    repeat' (first
      | (with_reducible assumption) | (with_reducible apply ite_kept) | (with_reducible apply foldl_kept <;> intros) | (split) | (dsimp only))
    all_goals (try with_reducible refine mk_kept ?_ rfl (by first | rfl | simp) (by first | rfl | simp) rfl (by first | exact id | exact fun _ => rfl))

theorem drawFree_kept {s0 s : State} (h : Kept s0 s) : Kept s0 (drawFree s).2 := by
  unfold drawFree
  iterate 3
    repeat' (first
      | (with_reducible assumption) | (with_reducible apply ite_kept) | (with_reducible apply foldl_kept <;> intros) | (split) | (dsimp only))
    all_goals (try with_reducible refine mk_kept ?_ rfl (by first | rfl | simp) (by first | rfl | simp) rfl (by first | exact id | exact fun _ => rfl))

theorem setCtx_kept {s0 s : State} (h : Kept s0 s) (c : Nat) (k : Ctx) : Kept s0 (setCtx s c k) := by
  unfold setCtx
  iterate 3
    repeat' (first
      | (with_reducible assumption) | (with_reducible apply ite_kept) | (with_reducible apply foldl_kept <;> intros) | (split) | (dsimp only))
    all_goals (try with_reducible refine mk_kept ?_ rfl (by first | rfl | simp) (by first | rfl | simp) rfl (by first | exact id | exact fun _ => rfl))

theorem modMem_kept {s0 s : State} (h : Kept s0 s) (f : Mem → Mem) (hf : Memory.wf s.mem.cells → Memory.wf (f s.mem).cells) :
    Kept s0 (modMem s f) := kept_of h rfl rfl hf (Nat.le_refl _) (Nat.le_refl _) (Nat.le_refl _) id

theorem modCtx_kept {s0 s : State} (h : Kept s0 s) (c : Nat) (f : Ctx → Ctx) : Kept s0 (modCtx s c f) := by
  unfold modCtx
  iterate 3
    repeat' (first
      | (with_reducible assumption) | (with_reducible apply ite_kept) | (with_reducible apply setCtx_kept)
      | (with_reducible apply foldl_kept <;> intros) | (split) | (dsimp only))
    all_goals (try with_reducible refine mk_kept ?_ rfl (by first | rfl | simp) (by first | rfl | simp) rfl (by first | exact id | exact fun _ => rfl))

theorem hostWrite_kept {s0 s : State} (h : Kept s0 s) (space addr : Nat) (bs : List Byte) : Kept s0 (hostWrite s space addr bs) := by
  refine ⟨h.1, fun hi => ?_⟩
  have hs := h.2 hi
  exact ⟨⟨putBytes_wf hs.1.1, hs.1.2⟩, hs.2⟩

theorem signalVector_kept {s0 s : State} (h : Kept s0 s) (f : Nat) (v : Nat) : Kept s0 (signalVector s f v) := by
  unfold signalVector
  iterate 3
    repeat' (first
      | (with_reducible assumption) | (with_reducible apply ite_kept) | (with_reducible apply send_kept)
      | (with_reducible apply foldl_kept <;> intros) | (split) | (dsimp only))
    all_goals (try with_reducible refine mk_kept ?_ rfl (by first | rfl | simp) (by first | rfl | simp) rfl (by first | exact id | exact fun _ => rfl))

theorem sendMsix_kept {s0 s : State} (h : Kept s0 s) (c : Nat) : Kept s0 (sendMsix s c) := by
  unfold sendMsix
  iterate 3
    repeat' (first
      | (with_reducible assumption) | (with_reducible apply ite_kept) | (with_reducible apply signalVector_kept)
      | (with_reducible apply foldl_kept <;> intros) | (split) | (dsimp only))
    all_goals (try with_reducible refine mk_kept ?_ rfl (by first | rfl | simp) (by first | rfl | simp) rfl (by first | exact id | exact fun _ => rfl))

theorem writeEntry_kept {s0 s : State} (h : Kept s0 s) (c : Nat) (e : Entry) : Kept s0 (writeEntry s c e) := by
  unfold writeEntry
  iterate 3
    repeat' (first
      | (with_reducible assumption) | (with_reducible apply ite_kept) | (with_reducible apply hostWrite_kept) | (with_reducible apply setCtx_kept)
      | (with_reducible apply sendMsix_kept) | (with_reducible apply foldl_kept <;> intros) | (split) | (dsimp only))
    all_goals (try with_reducible refine mk_kept ?_ rfl (by first | rfl | simp) (by first | rfl | simp) rfl (by first | exact id | exact fun _ => rfl))

theorem flushEvents_kept {s0 s : State} (h : Kept s0 s) (n c : Nat) : Kept s0 (flushEvents n s c) := by
  induction n generalizing s with
  | zero => exact h
  | succ n ih =>
    unfold flushEvents
    repeat' (first
      | (with_reducible assumption) | (with_reducible apply ih) | (with_reducible apply writeEntry_kept) | (with_reducible apply setCtx_kept)
      | (split) | (dsimp only))

theorem event_kept {s0 s : State} (h : Kept s0 s) (c : Nat) (e : Entry) : Kept s0 (event s c e) := by
  unfold event
  repeat' (first
    | (with_reducible assumption) | (with_reducible apply ite_kept) | (with_reducible apply setCtx_kept) | (with_reducible apply flushEvents_kept)
    | (with_reducible apply foldl_kept <;> intros) | (split) | (dsimp only))
  all_goals (try with_reducible refine mk_kept ?_ rfl rfl rfl rfl (by first | exact id | exact fun _ => rfl))
  repeat' (first
    | (with_reducible assumption) | (with_reducible apply ite_kept) | (with_reducible apply setCtx_kept) | (with_reducible apply flushEvents_kept)
    | (with_reducible apply foldl_kept <;> intros) | (split) | (dsimp only))

theorem eventAll_kept {s0 s : State} (h : Kept s0 s) (cs : List Nat) (e : Entry) : Kept s0 (eventAll s cs e) := by
  unfold eventAll
  iterate 3
    repeat' (first
      | (with_reducible assumption) | (with_reducible apply ite_kept) | (with_reducible apply event_kept)
      | (with_reducible apply foldl_kept <;> intros) | (split) | (dsimp only))
    all_goals (try with_reducible refine mk_kept ?_ rfl (by first | rfl | simp) (by first | rfl | simp) rfl (by first | exact id | exact fun _ => rfl))

theorem yielded_kept {s0 s : State} (h : Kept s0 s) (c : Nat) (broken : Nat) (kept : Nat) (start : Nat) (stop : Nat) :
    Kept s0 (yielded s c broken kept start stop) := by
  unfold yielded
  iterate 3
    repeat' (first
      | (with_reducible assumption) | (with_reducible apply ite_kept) | (with_reducible apply event_kept)
      | (with_reducible apply foldl_kept <;> intros) | (split) | (dsimp only))
    all_goals (try with_reducible refine mk_kept ?_ rfl (by first | rfl | simp) (by first | rfl | simp) rfl (by first | exact id | exact fun _ => rfl))

theorem setDom_kept {s0 s : State} (h : Kept s0 s) (d : Nat) (x : Dom) : Kept s0 (setDom s d x) := by
  unfold setDom
  iterate 3
    repeat' (first
      | (with_reducible assumption) | (with_reducible apply ite_kept) | (with_reducible apply foldl_kept <;> intros) | (split) | (dsimp only))
    all_goals (try with_reducible refine mk_kept ?_ rfl (by first | rfl | simp) (by first | rfl | simp) rfl (by first | exact id | exact fun _ => rfl))

theorem modDom_kept {s0 s : State} (h : Kept s0 s) (d : Nat) (f : Dom → Dom) : Kept s0 (modDom s d f) := by
  unfold modDom
  iterate 3
    repeat' (first
      | (with_reducible assumption) | (with_reducible apply ite_kept) | (with_reducible apply setDom_kept)
      | (with_reducible apply foldl_kept <;> intros) | (split) | (dsimp only))
    all_goals (try with_reducible refine mk_kept ?_ rfl (by first | rfl | simp) (by first | rfl | simp) rfl (by first | exact id | exact fun _ => rfl))

theorem setStack_kept {s0 s : State} (h : Kept s0 s) (n : Nat) (x : Stack) : Kept s0 (setStack s n x) := by
  unfold setStack
  iterate 3
    repeat' (first
      | (with_reducible assumption) | (with_reducible apply ite_kept) | (with_reducible apply foldl_kept <;> intros) | (split) | (dsimp only))
    all_goals (try with_reducible refine mk_kept ?_ rfl (by first | rfl | simp) (by first | rfl | simp) rfl (by first | exact id | exact fun _ => rfl))

theorem modStack_kept {s0 s : State} (h : Kept s0 s) (n : Nat) (f : Stack → Stack) : Kept s0 (modStack s n f) := by
  unfold modStack
  iterate 3
    repeat' (first
      | (with_reducible assumption) | (with_reducible apply ite_kept) | (with_reducible apply setStack_kept)
      | (with_reducible apply foldl_kept <;> intros) | (split) | (dsimp only))
    all_goals (try with_reducible refine mk_kept ?_ rfl (by first | rfl | simp) (by first | rfl | simp) rfl (by first | exact id | exact fun _ => rfl))

theorem setDie_kept {s0 s : State} (h : Kept s0 s) (i : Nat) (x : Die) : Kept s0 (setDie s i x) := by
  unfold setDie
  iterate 3
    repeat' (first
      | (with_reducible assumption) | (with_reducible apply ite_kept) | (with_reducible apply foldl_kept <;> intros) | (split) | (dsimp only))
    all_goals (try with_reducible refine mk_kept ?_ rfl (by first | rfl | simp) (by first | rfl | simp) rfl (by first | exact id | exact fun _ => rfl))

theorem modDie_kept {s0 s : State} (h : Kept s0 s) (i : Nat) (f : Die → Die) : Kept s0 (modDie s i f) := by
  unfold modDie
  iterate 3
    repeat' (first
      | (with_reducible assumption) | (with_reducible apply ite_kept) | (with_reducible apply setDie_kept)
      | (with_reducible apply foldl_kept <;> intros) | (split) | (dsimp only))
    all_goals (try with_reducible refine mk_kept ?_ rfl (by first | rfl | simp) (by first | rfl | simp) rfl (by first | exact id | exact fun _ => rfl))

theorem faultIrq_kept {s0 s : State} (h : Kept s0 s) (alert : Bool) : Kept s0 (faultIrq s alert) := by
  unfold faultIrq
  iterate 3
    repeat' (first
      | (with_reducible assumption) | (with_reducible apply ite_kept) | (with_reducible apply signalVector_kept)
      | (with_reducible apply foldl_kept <;> intros) | (split) | (dsimp only))
    all_goals (try with_reducible refine mk_kept ?_ rfl (by first | rfl | simp) (by first | rfl | simp) rfl (by first | exact id | exact fun _ => rfl))

theorem appendRecord_kept {s0 s : State} (h : Kept s0 s) (r : FaultRec) : Kept s0 (appendRecord s r) := by
  refine ⟨h.1, fun hi => ?_⟩
  have hs := h.2 hi
  refine ⟨hs.1, ⟨hs.2.1.1, ?_, hs.2.1.2.2⟩, hs.2.2⟩
  have hl := hs.2.1.2.1
  simp only [appendRecord, List.length_append, List.length_cons, List.length_nil]
  split <;> simp_all <;> omega

theorem retainRecord_kept {s0 s : State} (h : Kept s0 s) (r : FaultRec) : Kept s0 (retainRecord s r) := by
  refine ⟨h.1, fun hi => ?_⟩
  have hs := h.2 hi
  refine ⟨hs.1, ⟨hs.2.1.1, hs.2.1.2.1, ?_⟩, hs.2.2⟩
  have hl := hs.2.1.2.2
  simp only [retainRecord, List.length_append, List.length_cons, List.length_nil]
  split <;> simp_all <;> omega

theorem awaitResume_kept {s0 s : State} (h : Kept s0 s) (a : FaultArgs) (seq : Nat) : Kept s0 (awaitResume s a seq) := by
  unfold awaitResume
  iterate 3
    repeat' (first
      | (with_reducible assumption) | (with_reducible apply ite_kept) | (with_reducible apply modDom_kept)
      | (with_reducible apply foldl_kept <;> intros) | (split) | (dsimp only))
    all_goals (try with_reducible refine mk_kept ?_ rfl (by first | rfl | simp) (by first | rfl | simp) rfl (by first | exact id | exact fun _ => rfl))

theorem joinFault_kept {s0 s : State} (h : Kept s0 s) (a : FaultArgs) : Kept s0 (joinFault s a) := by
  unfold joinFault
  iterate 3
    repeat' (first
      | (with_reducible assumption) | (with_reducible apply ite_kept) | (with_reducible apply awaitResume_kept)
      | (with_reducible apply foldl_kept <;> intros) | (split) | (dsimp only))
    all_goals (try with_reducible refine mk_kept ?_ rfl (by first | rfl | simp) (by first | rfl | simp) rfl (by first | exact id | exact fun _ => rfl))

theorem fault_kept {s0 s : State} (h : Kept s0 s) (a : FaultArgs) : Kept s0 (fault s a) := by
  unfold fault
  iterate 3
    repeat' (first
      | (with_reducible assumption) | (with_reducible apply ite_kept) | (with_reducible apply joinFault_kept)
      | (with_reducible apply awaitResume_kept) | (with_reducible apply faultIrq_kept) | (with_reducible apply appendRecord_kept)
      | (with_reducible apply retainRecord_kept) | (with_reducible apply foldl_kept <;> intros) | (split) | (dsimp only))
    all_goals (try with_reducible refine mk_kept ?_ rfl (by first | rfl | simp) (by first | rfl | simp) rfl (by first | exact id | exact fun _ => rfl))

theorem islandFault_kept {s0 s : State} (h : Kept s0 s) (a : FaultArgs) : Kept s0 (islandFault s a) := by
  unfold islandFault
  iterate 3
    repeat' (first
      | (with_reducible assumption) | (with_reducible apply ite_kept) | (with_reducible apply retainRecord_kept)
      | (with_reducible apply foldl_kept <;> intros) | (split) | (dsimp only))
    all_goals (try with_reducible refine mk_kept ?_ rfl (by first | rfl | simp) (by first | rfl | simp) rfl (by first | exact id | exact fun _ => rfl))

theorem faultNotice_kept {s0 s : State} (h : Kept s0 s) (cs : List Nat) (cls : Nat) : Kept s0 (faultNotice s cs cls) := by
  unfold faultNotice
  iterate 3
    repeat' (first
      | (with_reducible assumption) | (with_reducible apply ite_kept) | (with_reducible apply eventAll_kept)
      | (with_reducible apply foldl_kept <;> intros) | (split) | (dsimp only))
    all_goals (try with_reducible refine mk_kept ?_ rfl (by first | rfl | simp) (by first | rfl | simp) rfl (by first | exact id | exact fun _ => rfl))

theorem resumeDomain_kept {s0 s : State} (h : Kept s0 s) (d : Nat) (t : Nat) : Kept s0 (resumeDomain s d t) := by
  unfold resumeDomain
  iterate 3
    repeat' (first
      | (with_reducible assumption) | (with_reducible apply ite_kept) | (with_reducible apply setDom_kept)
      | (with_reducible apply foldl_kept <;> intros) | (split) | (dsimp only))
    all_goals (try with_reducible refine mk_kept ?_ rfl (by first | rfl | simp) (by first | rfl | simp) rfl (by first | exact id | exact fun _ => rfl))

theorem modUnits_kept {s0 s : State} (h : Kept s0 s) (f : List PUnit → List PUnit) : Kept s0 (modUnits s f) := by
  unfold modUnits
  iterate 3
    repeat' (first
      | (with_reducible assumption) | (with_reducible apply ite_kept) | (with_reducible apply foldl_kept <;> intros) | (split) | (dsimp only))
    all_goals (try with_reducible refine mk_kept ?_ rfl (by first | rfl | simp) (by first | rfl | simp) rfl (by first | exact id | exact fun _ => rfl))

theorem updUnits_kept {s0 s : State} (h : Kept s0 s) (p : PUnit → Bool) (f : PUnit → PUnit) : Kept s0 (updUnits s p f) := by
  unfold updUnits
  iterate 3
    repeat' (first
      | (with_reducible assumption) | (with_reducible apply ite_kept) | (with_reducible apply modUnits_kept)
      | (with_reducible apply foldl_kept <;> intros) | (split) | (dsimp only))
    all_goals (try with_reducible refine mk_kept ?_ rfl (by first | rfl | simp) (by first | rfl | simp) rfl (by first | exact id | exact fun _ => rfl))

theorem countReads_kept {s0 s : State} (h : Kept s0 s) (i : Inst) (o : OpRec) (b : Batch) (rows : List BatchRow) :
    Kept s0 (countReads s i o b rows) := by
  unfold countReads
  iterate 3
    repeat' (first
      | (with_reducible assumption) | (with_reducible apply ite_kept) | (with_reducible apply updUnits_kept)
      | (with_reducible apply foldl_kept <;> intros) | (split) | (dsimp only))
    all_goals (try with_reducible refine mk_kept ?_ rfl (by first | rfl | simp) (by first | rfl | simp) rfl (by first | exact id | exact fun _ => rfl))

theorem heatUpdate_kept {s0 s : State} (h : Kept s0 s) (h : Nat) (cs : List Nat) : Kept s0 (heatUpdate s h cs) := by
  unfold heatUpdate
  iterate 3
    repeat' (first
      | (with_reducible assumption) | (with_reducible apply ite_kept) | (with_reducible apply updUnits_kept)
      | (with_reducible apply foldl_kept <;> intros) | (split) | (dsimp only))
    all_goals (try with_reducible refine mk_kept ?_ rfl (by first | rfl | simp) (by first | rfl | simp) rfl (by first | exact id | exact fun _ => rfl))

theorem spendBudget_kept {s0 s : State} (h : Kept s0 s) (d : Nat) (n : Nat) : Kept s0 (spendBudget s d n) := by
  unfold spendBudget
  iterate 3
    repeat' (first
      | (with_reducible assumption) | (with_reducible apply ite_kept) | (with_reducible apply foldl_kept <;> intros) | (split) | (dsimp only))
    all_goals (try with_reducible refine mk_kept ?_ rfl (by first | rfl | simp) (by first | rfl | simp) rfl (by first | exact id | exact fun _ => rfl))

theorem evictFor_kept {s0 s : State} (h : Kept s0 s) (d ht need : Nat) (busy : PUnit → Bool) (n : Nat) :
    KeptSome s0 (evictFor s d ht need busy n) := by
  induction n generalizing s with
  | zero => exact none_kept
  | succ n ih =>
    unfold evictFor
    repeat' (first
      | (with_reducible assumption) | (with_reducible apply some_kept) | (with_reducible apply none_kept) | (with_reducible apply iteSome_kept)
      | (with_reducible apply ih) | (with_reducible apply bump_kept) | (with_reducible apply updUnits_kept) | (split) | (dsimp only))

theorem startCopy_kept {s0 s : State} (h : Kept s0 s) (u : PUnit) : Kept s0 (startCopy s u) := by
  unfold startCopy
  iterate 3
    repeat' (first
      | (with_reducible assumption) | (with_reducible apply ite_kept) | (with_reducible apply spendBudget_kept) | (with_reducible apply updUnits_kept)
      | (with_reducible apply foldl_kept <;> intros) | (split) | (dsimp only))
    all_goals (try with_reducible refine mk_kept ?_ rfl (by first | rfl | simp) (by first | rfl | simp) rfl (by first | exact id | exact fun _ => rfl))

theorem promote_kept {s0 s : State} (h : Kept s0 s) (d : Nat) (busy : PUnit → Bool) (us : List PUnit) : Kept s0 (promote s d busy us) := by
  induction us generalizing s with
  | nil => exact h
  | cons u us ih =>
    unfold promote
    split
    · exact h
    · split
      · exact ih h
      · rename_i he
        exact ih (bump_kept (startCopy_kept (evictFor_kept h _ _ _ _ _ _ he) _) _ _)

theorem promotionPass_kept {s0 s : State} (h : Kept s0 s) (d : Nat) (busy : PUnit → Bool) : Kept s0 (promotionPass s d busy) := by
  unfold promotionPass
  repeat' (first
    | (with_reducible assumption) | (with_reducible apply ite_kept) | (with_reducible apply promote_kept)
    | (with_reducible apply foldl_kept <;> intros) | (split) | (dsimp only))
  all_goals (try with_reducible refine mk_kept ?_ rfl rfl rfl rfl (by first | exact id | exact fun _ => rfl))
  repeat' (first
    | (with_reducible assumption) | (with_reducible apply ite_kept) | (with_reducible apply promote_kept)
    | (with_reducible apply foldl_kept <;> intros) | (split) | (dsimp only))

theorem setCap_kept {s0 s : State} (h : Kept s0 s) (kind : Nat) (n : Nat) (c : CapState) : Kept s0 (setCap s kind n c) := by
  unfold setCap
  iterate 3
    repeat' (first
      | (with_reducible assumption) | (with_reducible apply ite_kept) | (with_reducible apply foldl_kept <;> intros) | (split) | (dsimp only))
    all_goals (try with_reducible refine mk_kept ?_ rfl (by first | rfl | simp) (by first | rfl | simp) rfl (by first | exact id | exact fun _ => rfl))

theorem declineHint_kept {s0 s : State} (h : Kept s0 s) (p : Pin) (first : Nat) (count : Nat) (reason : Nat) :
    Kept s0 (declineHint s p first count reason) := by
  unfold declineHint
  iterate 3
    repeat' (first
      | (with_reducible assumption) | (with_reducible apply ite_kept) | (with_reducible apply event_kept) | (with_reducible apply bump_kept)
      | (with_reducible apply foldl_kept <;> intros) | (split) | (dsimp only))
    all_goals (try with_reducible refine mk_kept ?_ rfl (by first | rfl | simp) (by first | rfl | simp) rfl (by first | exact id | exact fun _ => rfl))

theorem flushQueue_kept {s0 s : State} (h : Kept s0 s) (n c : Nat) : Kept s0 (flushQueue n s c) := by
  induction n generalizing s with
  | zero => exact h
  | succ n ih =>
    unfold flushQueue
    repeat' (first
      | (with_reducible assumption) | (with_reducible apply ih) | (with_reducible apply ite_kept) | (with_reducible apply writeEntry_kept)
      | (with_reducible apply setCtx_kept) | (with_reducible apply modCtx_kept) | (with_reducible apply flushEvents_kept)
      | (with_reducible apply event_kept) | (split) | (dsimp only))

theorem pump_kept {s0 s : State} (h : Kept s0 s) (n c : Nat) : Kept s0 (pump n s c) := by
  induction n generalizing s with
  | zero => exact h
  | succ n ih =>
    unfold pump
    repeat' (first
      | (with_reducible assumption) | (with_reducible apply ih) | (with_reducible apply ite_kept) | (with_reducible apply setCtx_kept)
      | (with_reducible apply modCtx_kept) | (with_reducible apply event_kept) | (with_reducible apply hostWrite_kept) | (split) | (dsimp only))

theorem armHold_kept {s0 s : State} (h : Kept s0 s) (c : Nat) : Kept s0 (armHold s c) := by
  unfold armHold
  iterate 3
    repeat' (first
      | (with_reducible assumption) | (with_reducible apply ite_kept) | (with_reducible apply setCtx_kept)
      | (with_reducible apply foldl_kept <;> intros) | (split) | (dsimp only))
    all_goals (try with_reducible refine mk_kept ?_ rfl (by first | rfl | simp) (by first | rfl | simp) rfl (by first | exact id | exact fun _ => rfl))

theorem stepEntry_kept {s0 s : State} (h : Kept s0 s) (c : Nat) (arith : Bool) : Kept s0 (stepEntry s c arith) := by
  unfold stepEntry
  iterate 3
    repeat' (first
      | (with_reducible assumption) | (with_reducible apply ite_kept) | (with_reducible apply writeEntry_kept)
      | (with_reducible apply foldl_kept <;> intros) | (split) | (dsimp only))
    all_goals (try with_reducible refine mk_kept ?_ rfl (by first | rfl | simp) (by first | rfl | simp) rfl (by first | exact id | exact fun _ => rfl))

theorem finishOutput_kept {s0 s : State} (h : Kept s0 s) (c : Nat) : Kept s0 (finishOutput s c) := by
  unfold finishOutput
  iterate 3
    repeat' (first
      | (with_reducible assumption) | (with_reducible apply ite_kept) | (with_reducible apply setCtx_kept) | (with_reducible apply stepEntry_kept)
      | (with_reducible apply foldl_kept <;> intros) | (split) | (dsimp only))
    all_goals (try with_reducible refine mk_kept ?_ rfl (by first | rfl | simp) (by first | rfl | simp) rfl (by first | exact id | exact fun _ => rfl))

theorem truncateOutput_kept {s0 s : State} (h : Kept s0 s) (c : Nat) (status : Nat) : Kept s0 (truncateOutput s c status) := by
  unfold truncateOutput
  iterate 3
    repeat' (first
      | (with_reducible assumption) | (with_reducible apply ite_kept) | (with_reducible apply event_kept) | (with_reducible apply setCtx_kept)
      | (with_reducible apply modCtx_kept) | (with_reducible apply foldl_kept <;> intros) | (split) | (dsimp only))
    all_goals (try with_reducible refine mk_kept ?_ rfl (by first | rfl | simp) (by first | rfl | simp) rfl (by first | exact id | exact fun _ => rfl))

theorem releaseSession_kept {s0 s : State} (h : Kept s0 s) (c : Nat) : Kept s0 (releaseSession s c) := by
  unfold releaseSession
  iterate 3
    repeat' (first
      | (with_reducible assumption) | (with_reducible refine modMem_kept ?_ _ (fun hm => ?_)) | (exact hm) | (exact filter_wf _ hm)
      | (exact putBytes_wf hm) | (with_reducible apply ite_kept) | (with_reducible apply modCtx_kept) | (with_reducible apply foldl_kept <;> intros)
      | (split) | (dsimp only))
    all_goals (try with_reducible refine mk_kept ?_ rfl (by first | rfl | simp) (by first | rfl | simp) rfl (by first | exact id | exact fun _ => rfl))

theorem bindSession_kept {s0 s : State} (h : Kept s0 s) (c : Nat) (h : Nat) (slot : Option Nat) : Kept s0 (bindSession s c h slot) := by
  unfold bindSession
  iterate 3
    repeat' (first
      | (with_reducible assumption) | (with_reducible apply ite_kept) | (with_reducible apply modCtx_kept)
      | (with_reducible apply foldl_kept <;> intros) | (split) | (dsimp only))
    all_goals (try with_reducible refine mk_kept ?_ rfl (by first | rfl | simp) (by first | rfl | simp) rfl (by first | exact id | exact fun _ => rfl))

theorem supersede_kept {s0 s : State} (h : Kept s0 s) (p : Pin) (q : Pin) : Kept s0 (supersede p s q) := by
  unfold supersede
  iterate 3
    repeat' (first
      | (with_reducible assumption) | (with_reducible apply ite_kept) | (with_reducible apply declineHint_kept)
      | (with_reducible apply foldl_kept <;> intros) | (split) | (dsimp only))
    all_goals (try with_reducible refine mk_kept ?_ rfl (by first | rfl | simp) (by first | rfl | simp) rfl (by first | exact id | exact fun _ => rfl))

theorem recordPin_kept {s0 s : State} (h : Kept s0 s) (p : Pin) (hint : Bool) : Kept s0 (recordPin s p hint) := by
  unfold recordPin
  iterate 3
    repeat' (first
      | (with_reducible assumption) | (with_reducible apply ite_kept) | (with_reducible apply declineHint_kept)
      | (with_reducible apply supersede_kept) | (with_reducible apply updUnits_kept) | (with_reducible apply foldl_kept <;> intros) | (split)
      | (dsimp only))
    all_goals (try with_reducible refine mk_kept ?_ rfl (by first | rfl | simp) (by first | rfl | simp) rfl (by first | exact id | exact fun _ => rfl))

theorem queueMgmt_kept {s0 s : State} (h : Kept s0 s) (c : Nat) : Kept s0 (queueMgmt s c) := by
  unfold queueMgmt
  iterate 3
    repeat' (first
      | (with_reducible assumption) | (with_reducible apply ite_kept) | (with_reducible apply foldl_kept <;> intros) | (split) | (dsimp only))
    all_goals (try with_reducible refine mk_kept ?_ rfl (by first | rfl | simp) (by first | rfl | simp) rfl (by first | exact id | exact fun _ => rfl))

theorem admitDesc_kept {s0 s : State} (h : Kept s0 s) (c : Nat) (d : Desc) : Kept s0 (admitDesc s c d) := by
  unfold admitDesc
  iterate 3
    repeat' (first
      | (with_reducible assumption) | (with_reducible apply ite_kept) | (with_reducible apply modCtx_kept) | (with_reducible apply queueMgmt_kept)
      | (with_reducible apply foldl_kept <;> intros) | (split) | (dsimp only))
    all_goals (try with_reducible refine mk_kept ?_ rfl (by first | rfl | simp) (by first | rfl | simp) rfl (by first | exact id | exact fun _ => rfl))

theorem tryAdmit_kept {s0 s : State} (h : Kept s0 s) (c : Nat) : Kept s0 (tryAdmit s c) := by
  unfold tryAdmit
  iterate 3
    repeat' (first
      | (with_reducible assumption) | (with_reducible apply ite_kept) | (with_reducible apply admitDesc_kept)
      | (with_reducible apply foldl_kept <;> intros) | (split) | (dsimp only))
    all_goals (try with_reducible refine mk_kept ?_ rfl (by first | rfl | simp) (by first | rfl | simp) rfl (by first | exact id | exact fun _ => rfl))

theorem finishDisable_kept {s0 s : State} (h : Kept s0 s) (c : Nat) : Kept s0 (finishDisable s c) := by
  unfold finishDisable
  repeat' (first
    | (with_reducible assumption) | (with_reducible apply ite_kept) | (with_reducible apply releaseSession_kept) | (with_reducible apply setCtx_kept)
    | (with_reducible apply modCtx_kept) | (with_reducible apply flushQueue_kept) | (with_reducible apply foldl_kept <;> intros) | (split)
    | (dsimp only))
  all_goals (try with_reducible refine mk_kept ?_ rfl rfl rfl rfl (by first | exact id | exact fun _ => rfl))
  repeat' (first
    | (with_reducible assumption) | (with_reducible apply ite_kept) | (with_reducible apply releaseSession_kept) | (with_reducible apply setCtx_kept)
    | (with_reducible apply modCtx_kept) | (with_reducible apply flushQueue_kept) | (with_reducible apply foldl_kept <;> intros) | (split)
    | (dsimp only))

theorem addTilings_kept {s0 s : State} (h : Kept s0 s) (d : Nat) (h : Nat) (i : Inst) (l : Option Nat) : Kept s0 (addTilings s d h i l) := by
  unfold addTilings
  iterate 3
    repeat' (first
      | (with_reducible assumption) | (with_reducible apply ite_kept) | (with_reducible apply modDom_kept)
      | (with_reducible apply foldl_kept <;> intros) | (split) | (dsimp only))
    all_goals (try with_reducible refine mk_kept ?_ rfl (by first | rfl | simp) (by first | rfl | simp) rfl (by first | exact id | exact fun _ => rfl))

theorem tileInst_kept {s0 s : State} (h : Kept s0 s) (h : Nat) : Kept s0 (tileInst s h) := by
  unfold tileInst
  iterate 3
    repeat' (first
      | (with_reducible assumption) | (with_reducible apply ite_kept) | (with_reducible apply addTilings_kept)
      | (with_reducible apply foldl_kept <;> intros) | (split) | (dsimp only))
    all_goals (try with_reducible refine mk_kept ?_ rfl (by first | rfl | simp) (by first | rfl | simp) rfl (by first | exact id | exact fun _ => rfl))

theorem checkReady_kept {s0 s : State} (h : Kept s0 s) (h : Nat) : Kept s0 (checkReady s h) := by
  unfold checkReady
  iterate 3
    repeat' (first
      | (with_reducible assumption) | (with_reducible apply ite_kept) | (with_reducible apply tileInst_kept) | (with_reducible apply event_kept)
      | (with_reducible apply foldl_kept <;> intros) | (split) | (dsimp only))
    all_goals (try with_reducible refine mk_kept ?_ rfl (by first | rfl | simp) (by first | rfl | simp) rfl (by first | exact id | exact fun _ => rfl))

theorem afterTurn_kept {s0 s : State} (h : Kept s0 s) (t : Turn) : Kept s0 (afterTurn s t) := by
  unfold afterTurn
  iterate 3
    repeat' (first
      | (with_reducible assumption) | (with_reducible apply ite_kept) | (with_reducible apply checkReady_kept) | (with_reducible apply event_kept)
      | (with_reducible apply foldl_kept <;> intros) | (split) | (dsimp only))
    all_goals (try with_reducible refine mk_kept ?_ rfl (by first | rfl | simp) (by first | rfl | simp) rfl (by first | exact id | exact fun _ => rfl))

theorem readyLoads_kept {s0 s : State} (h : Kept s0 s) (c : Nat) : Kept s0 (readyLoads s c) := by
  unfold readyLoads
  iterate 3
    repeat' (first
      | (with_reducible assumption) | (with_reducible apply ite_kept) | (with_reducible apply checkReady_kept)
      | (with_reducible apply foldl_kept <;> intros) | (split) | (dsimp only))
    all_goals (try with_reducible refine mk_kept ?_ rfl (by first | rfl | simp) (by first | rfl | simp) rfl (by first | exact id | exact fun _ => rfl))

theorem moveRings_kept {s0 s : State} (h : Kept s0 s) (c : Nat) : Kept s0 (moveRings s c) := by
  unfold moveRings
  iterate 3
    repeat' (first
      | (with_reducible assumption) | (with_reducible apply ite_kept) | (with_reducible apply armHold_kept) | (with_reducible apply pump_kept)
      | (with_reducible apply finishOutput_kept) | (with_reducible apply flushQueue_kept) | (with_reducible apply flushEvents_kept)
      | (with_reducible apply tryAdmit_kept) | (with_reducible apply readyLoads_kept) | (with_reducible apply finishDisable_kept)
      | (with_reducible apply foldl_kept <;> intros) | (split) | (dsimp only))
    all_goals (try with_reducible refine mk_kept ?_ rfl (by first | rfl | simp) (by first | rfl | simp) rfl (by first | exact id | exact fun _ => rfl))

theorem endMgmt_kept {s0 s : State} (h : Kept s0 s) (c : Nat) (status : Nat) (payload : Nat) : Kept s0 (endMgmt s c status payload) := by
  unfold endMgmt
  iterate 3
    repeat' (first
      | (with_reducible assumption) | (with_reducible apply ite_kept) | (with_reducible apply modCtx_kept)
      | (with_reducible apply foldl_kept <;> intros) | (split) | (dsimp only))
    all_goals (try with_reducible refine mk_kept ?_ rfl (by first | rfl | simp) (by first | rfl | simp) rfl (by first | exact id | exact fun _ => rfl))

theorem turnEnd_kept {s0 s : State} (h : Kept s0 s) (st : Nat) (t : Turn) (he : turnEnd s st = some t) : Kept s0 t.state := by
  cases he; exact h

theorem createInst_kept {s0 s : State} (h : Kept s0 s) (c : Nat) (h : Nat) (dom : Nat) (f : Formula) : Kept s0 (createInst s c h dom f) := by
  unfold createInst
  iterate 3
    repeat' (first
      | (with_reducible assumption) | (with_reducible apply ite_kept) | (with_reducible apply recordPin_kept)
      | (with_reducible apply foldl_kept <;> intros) | (split) | (dsimp only))
    all_goals (try with_reducible refine mk_kept ?_ rfl (by first | rfl | simp) (by first | rfl | simp) rfl (by first | exact id | exact fun _ => rfl))

theorem loadTurn_kept {s0 s : State} (h : Kept s0 s) (c n : Nat) (core : List Byte) (t : Turn) (he : loadTurn s c n core = some t) :
    Kept s0 t.state := by
  unfold loadTurn at he
  repeat' split at he
  all_goals first | exact turnEnd_kept h _ _ he | (cases he; exact createInst_kept h _ _ _ _)

theorem chunkTurn_kept {s0 s : State} (h : Kept s0 s) (c hd j : Nat) (data : Option (List Byte)) (t : Turn)
    (he : chunkTurn s c hd j data = some t) : Kept s0 t.state := by
  unfold chunkTurn at he
  repeat' split at he
  all_goals first
    | exact turnEnd_kept h _ _ he
    | (cases he; done)
    | (cases he; refine mk_kept h rfl rfl rfl rfl id)

theorem queuedTurn_kept {s0 s : State} (h : Kept s0 s) (c : Nat) (b : DescBody) : Kept s0 (queuedTurn s c b) := by
  cases b with
  | unload hd => exact mk_kept h rfl rfl rfl rfl id
  | bind hd sv slot => exact bindSession_kept h _ _ _
  | unbind => exact releaseSession_kept h _
  | pin p => exact recordPin_kept h _ _
  | _ => exact h

theorem turnOf_kept {s0 s : State} (h : Kept s0 s) (c : Nat) (w : Work) (t : Turn) (he : turnOf s c w = some t) : Kept s0 t.state := by
  have hb : ∀ o : Option Nat, o.bind (turnEnd s) = some t → Kept s0 t.state := by
    intro o ho
    cases o with
    | none => cases ho
    | some x => exact turnEnd_kept h x t ho
  cases w with
  | loading => exact hb _ he
  | coreRead core n => exact loadTurn_kept h _ _ _ _ he
  | chunk a j hd => exact chunkTurn_kept h c hd j none t he
  | chunkRead data j hd => exact chunkTurn_kept h c hd j (some data) t he
  | queued b =>
    unfold turnOf at he
    dsimp only at he
    cases hy : yieldsTurn s c b with
    | true => rw [hy] at he; simp at he
    | false =>
      rw [hy] at he
      simp only [Bool.false_eq_true, if_false] at he
      cases ht : turnRefusal s c b with
      | some x => rw [ht] at he; exact turnEnd_kept h x t he
      | none => rw [ht] at he; cases he; exact queuedTurn_kept h _ _
  | _ => exact turnEnd_kept h _ t he

theorem runMgmt_kept {s0 s : State} (h : Kept s0 s) (n : Nat) : Kept s0 (runMgmt n s) := by
  induction n generalizing s with
  | zero => exact h
  | succ n ih =>
    unfold runMgmt
    split
    · exact h
    · split
      · exact ih (mk_kept h rfl rfl rfl rfl id)
      · split
        · exact h
        · rename_i he
          exact ih (afterTurn_kept (moveRings_kept (endMgmt_kept (mk_kept (turnOf_kept h _ _ _ he) rfl rfl rfl rfl id) _ _ _) _) _)

theorem settle_kept {s0 s : State} (h : Kept s0 s) (c : Nat) : Kept s0 (settle s c) := by
  unfold settle
  exact runMgmt_kept (moveRings_kept h c) _

theorem refuseDoorbell_kept {s0 s : State} (h : Kept s0 s) (c : Nat) (arg : Nat) (v : Nat) : Kept s0 (refuseDoorbell s c arg v) := by
  unfold refuseDoorbell
  iterate 3
    repeat' (first
      | (with_reducible assumption) | (with_reducible apply ite_kept) | (with_reducible apply event_kept) | (with_reducible apply modCtx_kept)
      | (with_reducible apply foldl_kept <;> intros) | (split) | (dsimp only))
    all_goals (try with_reducible refine mk_kept ?_ rfl (by first | rfl | simp) (by first | rfl | simp) rfl (by first | exact id | exact fun _ => rfl))

theorem doorbell_kept {s0 s : State} (h : Kept s0 s) (p : PageRef) (full : Bool) (v : Word) (arg : Nat) (log : Ctx → Nat) (act : Ctx → Nat → Ctx) :
    Kept s0 (doorbell s p full v arg log act) := by
  unfold doorbell
  iterate 3
    repeat' (first
      | (with_reducible assumption) | (with_reducible apply ite_kept) | (with_reducible apply settle_kept)
      | (with_reducible apply refuseDoorbell_kept) | (with_reducible apply setCtx_kept) | (with_reducible apply foldl_kept <;> intros) | (split)
      | (dsimp only))
    all_goals (try with_reducible refine mk_kept ?_ rfl (by first | rfl | simp) (by first | rfl | simp) rfl (by first | exact id | exact fun _ => rfl))

theorem execCtxSqTail_kept {s0 s : State} (h : Kept s0 s) (p : PageRef) (full : Bool) (v : Word) : KeptOut s0 (execCtxSqTail p full v s) := by
  unfold execCtxSqTail
  iterate 3
    repeat' (first
      | (with_reducible assumption) | (with_reducible apply next_kept) | (with_reducible apply iteOut_kept) | (with_reducible apply ite_kept)
      | (with_reducible apply doorbell_kept) | (with_reducible apply foldl_kept <;> intros) | (split) | (dsimp only))
    all_goals (try with_reducible refine mk_kept ?_ rfl (by first | rfl | simp) (by first | rfl | simp) rfl (by first | exact id | exact fun _ => rfl))

theorem execCtxCqHead_kept {s0 s : State} (h : Kept s0 s) (p : PageRef) (full : Bool) (v : Word) : KeptOut s0 (execCtxCqHead p full v s) := by
  unfold execCtxCqHead
  iterate 3
    repeat' (first
      | (with_reducible assumption) | (with_reducible apply next_kept) | (with_reducible apply iteOut_kept) | (with_reducible apply ite_kept)
      | (with_reducible apply doorbell_kept) | (with_reducible apply foldl_kept <;> intros) | (split) | (dsimp only))
    all_goals (try with_reducible refine mk_kept ?_ rfl (by first | rfl | simp) (by first | rfl | simp) rfl (by first | exact id | exact fun _ => rfl))

theorem holdPassed_kept {s0 s : State} (h : Kept s0 s) (p : PageRef) : Kept s0 (holdPassed s p) := by
  unfold holdPassed
  iterate 3
    repeat' (first
      | (with_reducible assumption) | (with_reducible apply ite_kept) | (with_reducible apply settle_kept)
      | (with_reducible apply truncateOutput_kept) | (with_reducible apply foldl_kept <;> intros) | (split) | (dsimp only))
    all_goals (try with_reducible refine mk_kept ?_ rfl (by first | rfl | simp) (by first | rfl | simp) rfl (by first | exact id | exact fun _ => rfl))

theorem execCtxRqTail_kept {s0 s : State} (h : Kept s0 s) (p : PageRef) (full : Bool) (v : Word) : KeptOut s0 (execCtxRqTail p full v s) := by
  unfold execCtxRqTail
  iterate 3
    repeat' (first
      | (with_reducible assumption) | (with_reducible apply next_kept) | (with_reducible apply iteOut_kept) | (with_reducible apply ite_kept)
      | (with_reducible apply doorbell_kept) | (with_reducible apply holdPassed_kept) | (with_reducible apply foldl_kept <;> intros) | (split)
      | (dsimp only))
    all_goals (try with_reducible refine mk_kept ?_ rfl (by first | rfl | simp) (by first | rfl | simp) rfl (by first | exact id | exact fun _ => rfl))

theorem execCtxOutAck_kept {s0 s : State} (h : Kept s0 s) (p : PageRef) (full : Bool) (v : Word) : KeptOut s0 (execCtxOutAck p full v s) := by
  unfold execCtxOutAck
  iterate 3
    repeat' (first
      | (with_reducible assumption) | (with_reducible apply next_kept) | (with_reducible apply iteOut_kept) | (with_reducible apply ite_kept)
      | (with_reducible apply settle_kept) | (with_reducible apply setCtx_kept) | (with_reducible apply refuseDoorbell_kept)
      | (with_reducible apply foldl_kept <;> intros) | (split) | (dsimp only))
    all_goals (try with_reducible refine mk_kept ?_ rfl (by first | rfl | simp) (by first | rfl | simp) rfl (by first | exact id | exact fun _ => rfl))

theorem drawnSeed_kept {s0 s : State} (h : Kept s0 s) (seed : Nat) : Kept s0 (drawnSeed s seed).2 := by
  unfold drawnSeed
  iterate 3
    repeat' (first
      | (with_reducible assumption) | (with_reducible apply ite_kept) | (with_reducible apply foldl_kept <;> intros) | (split) | (dsimp only))
    all_goals (try with_reducible refine mk_kept ?_ rfl (by first | rfl | simp) (by first | rfl | simp) rfl (by first | exact id | exact fun _ => rfl))

theorem failRead_kept {s0 s : State} (h : Kept s0 s) (c : Nat) (status : Nat) : Kept s0 (failRead s c status) := by
  unfold failRead
  iterate 3
    repeat' (first
      | (with_reducible assumption) | (with_reducible apply ite_kept) | (with_reducible apply settle_kept) | (with_reducible apply endMgmt_kept)
      | (with_reducible apply foldl_kept <;> intros) | (split) | (dsimp only))
    all_goals (try with_reducible refine mk_kept ?_ rfl (by first | rfl | simp) (by first | rfl | simp) rfl (by first | exact id | exact fun _ => rfl))

theorem emit_kept {s0 s : State} (h : Kept s0 s) (b : Nat) (j : Nat) (p : TxPacket) : Kept s0 (emit b j s p) := by
  unfold emit
  iterate 3
    repeat' (first
      | (with_reducible assumption) | (with_reducible apply ite_kept) | (with_reducible apply send_kept)
      | (with_reducible apply foldl_kept <;> intros) | (split) | (dsimp only))
    all_goals (try with_reducible refine mk_kept ?_ rfl (by first | rfl | simp) (by first | rfl | simp) rfl (by first | exact id | exact fun _ => rfl))

theorem writeVfmap_kept {s0 s : State} (h : Kept s0 s) (r : Requester) (v : Nat) (i : Nat) (w : Word) : Kept s0 (writeVfmap s r v i w) := by
  unfold writeVfmap
  iterate 3
    repeat' (first
      | (with_reducible assumption) | (with_reducible apply ite_kept) | (with_reducible apply logRefused_kept) | (with_reducible apply regPut_kept)
      | (with_reducible apply foldl_kept <;> intros) | (split) | (dsimp only))
    all_goals (try with_reducible refine mk_kept ?_ rfl (by first | rfl | simp) (by first | rfl | simp) rfl (by first | exact id | exact fun _ => rfl))

theorem execCtxVfmap_kept {s0 s : State} (h : Kept s0 s) (r : Requester) (v : BitVec 6) (i : BitVec 6) (w : Word) :
    KeptOut s0 (execCtxVfmap r v i w s) := by
  unfold execCtxVfmap
  iterate 3
    repeat' (first
      | (with_reducible assumption) | (with_reducible apply next_kept) | (with_reducible apply iteOut_kept) | (with_reducible apply ite_kept)
      | (with_reducible apply writeVfmap_kept) | (with_reducible apply foldl_kept <;> intros) | (split) | (dsimp only))
    all_goals (try with_reducible refine mk_kept ?_ rfl (by first | rfl | simp) (by first | rfl | simp) rfl (by first | exact id | exact fun _ => rfl))

theorem arrive_kept {s0 s : State} (h : Kept s0 s) (c : Nat) (d : Desc) : Kept s0 (arrive s c d) := by
  unfold arrive
  iterate 3
    repeat' (first
      | (with_reducible assumption) | (with_reducible apply ite_kept) | (with_reducible apply settle_kept) | (with_reducible apply setCtx_kept)
      | (with_reducible apply foldl_kept <;> intros) | (split) | (dsimp only))
    all_goals (try with_reducible refine mk_kept ?_ rfl (by first | rfl | simp) (by first | rfl | simp) rfl (by first | exact id | exact fun _ => rfl))

theorem execRequest_kept {s0 s : State} (h : Kept s0 s) (c : BitVec 12) (h : DescHead) (b : ReqBody) : KeptOut s0 (execRequest c h b s) := by
  unfold execRequest
  iterate 3
    repeat' (first
      | (with_reducible assumption) | (with_reducible apply next_kept) | (with_reducible apply iteOut_kept) | (with_reducible apply ite_kept)
      | (with_reducible apply arrive_kept) | (with_reducible apply foldl_kept <;> intros) | (split) | (dsimp only))
    all_goals (try with_reducible refine mk_kept ?_ rfl (by first | rfl | simp) (by first | rfl | simp) rfl (by first | exact id | exact fun _ => rfl))

theorem execCancel_kept {s0 s : State} (h : Kept s0 s) (c : BitVec 12) (h : DescHead) (target : BitVec 16) :
    KeptOut s0 (execCancel c h target s) := by
  unfold execCancel
  iterate 3
    repeat' (first
      | (with_reducible assumption) | (with_reducible apply next_kept) | (with_reducible apply iteOut_kept) | (with_reducible apply ite_kept)
      | (with_reducible apply arrive_kept) | (with_reducible apply foldl_kept <;> intros) | (split) | (dsimp only))
    all_goals (try with_reducible refine mk_kept ?_ rfl (by first | rfl | simp) (by first | rfl | simp) rfl (by first | exact id | exact fun _ => rfl))

theorem execNop_kept {s0 s : State} (h : Kept s0 s) (c : BitVec 12) (h : DescHead) : KeptOut s0 (execNop c h s) := by
  unfold execNop
  iterate 3
    repeat' (first
      | (with_reducible assumption) | (with_reducible apply next_kept) | (with_reducible apply iteOut_kept) | (with_reducible apply ite_kept)
      | (with_reducible apply arrive_kept) | (with_reducible apply foldl_kept <;> intros) | (split) | (dsimp only))
    all_goals (try with_reducible refine mk_kept ?_ rfl (by first | rfl | simp) (by first | rfl | simp) rfl (by first | exact id | exact fun _ => rfl))

theorem execFormulaLoad_kept {s0 s : State} (h : Kept s0 s) (c : BitVec 12) (h : DescHead) (a : BitVec 64) (n : BitVec 64) :
    KeptOut s0 (execFormulaLoad c h a n s) := by
  unfold execFormulaLoad
  iterate 3
    repeat' (first
      | (with_reducible assumption) | (with_reducible apply next_kept) | (with_reducible apply iteOut_kept) | (with_reducible apply ite_kept)
      | (with_reducible apply arrive_kept) | (with_reducible apply foldl_kept <;> intros) | (split) | (dsimp only))
    all_goals (try with_reducible refine mk_kept ?_ rfl (by first | rfl | simp) (by first | rfl | simp) rfl (by first | exact id | exact fun _ => rfl))

theorem execWeightChunk_kept {s0 s : State} (h : Kept s0 s) (c : BitVec 12) (h : DescHead) (a : BitVec 64) (n : BitVec 32) (hd : BitVec 8) :
    KeptOut s0 (execWeightChunk c h a n hd s) := by
  unfold execWeightChunk
  iterate 3
    repeat' (first
      | (with_reducible assumption) | (with_reducible apply next_kept) | (with_reducible apply iteOut_kept) | (with_reducible apply ite_kept)
      | (with_reducible apply arrive_kept) | (with_reducible apply foldl_kept <;> intros) | (split) | (dsimp only))
    all_goals (try with_reducible refine mk_kept ?_ rfl (by first | rfl | simp) (by first | rfl | simp) rfl (by first | exact id | exact fun _ => rfl))

theorem execUnload_kept {s0 s : State} (h : Kept s0 s) (c : BitVec 12) (h : DescHead) (hd : BitVec 8) : KeptOut s0 (execUnload c h hd s) := by
  unfold execUnload
  iterate 3
    repeat' (first
      | (with_reducible assumption) | (with_reducible apply next_kept) | (with_reducible apply iteOut_kept) | (with_reducible apply ite_kept)
      | (with_reducible apply arrive_kept) | (with_reducible apply foldl_kept <;> intros) | (split) | (dsimp only))
    all_goals (try with_reducible refine mk_kept ?_ rfl (by first | rfl | simp) (by first | rfl | simp) rfl (by first | exact id | exact fun _ => rfl))

theorem execBind_kept {s0 s : State} (h : Kept s0 s) (c : BitVec 12) (h : DescHead) (hd : BitVec 8) (sv : Bool) (slot : BitVec 8) :
    KeptOut s0 (execBind c h hd sv slot s) := by
  unfold execBind
  iterate 3
    repeat' (first
      | (with_reducible assumption) | (with_reducible apply next_kept) | (with_reducible apply iteOut_kept) | (with_reducible apply ite_kept)
      | (with_reducible apply arrive_kept) | (with_reducible apply foldl_kept <;> intros) | (split) | (dsimp only))
    all_goals (try with_reducible refine mk_kept ?_ rfl (by first | rfl | simp) (by first | rfl | simp) rfl (by first | exact id | exact fun _ => rfl))

theorem execUnbind_kept {s0 s : State} (h : Kept s0 s) (c : BitVec 12) (h : DescHead) : KeptOut s0 (execUnbind c h s) := by
  unfold execUnbind
  iterate 3
    repeat' (first
      | (with_reducible assumption) | (with_reducible apply next_kept) | (with_reducible apply iteOut_kept) | (with_reducible apply ite_kept)
      | (with_reducible apply arrive_kept) | (with_reducible apply foldl_kept <;> intros) | (split) | (dsimp only))
    all_goals (try with_reducible refine mk_kept ?_ rfl (by first | rfl | simp) (by first | rfl | simp) rfl (by first | exact id | exact fun _ => rfl))

theorem execPin_kept {s0 s : State} (h : Kept s0 s) (c : BitVec 12) (h : DescHead) (b : PinBody) : KeptOut s0 (execPin c h b s) := by
  unfold execPin
  iterate 3
    repeat' (first
      | (with_reducible assumption) | (with_reducible apply next_kept) | (with_reducible apply iteOut_kept) | (with_reducible apply ite_kept)
      | (with_reducible apply arrive_kept) | (with_reducible apply foldl_kept <;> intros) | (split) | (dsimp only))
    all_goals (try with_reducible refine mk_kept ?_ rfl (by first | rfl | simp) (by first | rfl | simp) rfl (by first | exact id | exact fun _ => rfl))

theorem setWork_kept {s0 s : State} (h : Kept s0 s) (c : Nat) (w : Work) : Kept s0 (setWork s c w) := by
  unfold setWork
  iterate 3
    repeat' (first
      | (with_reducible assumption) | (with_reducible apply ite_kept) | (with_reducible apply modCtx_kept)
      | (with_reducible apply foldl_kept <;> intros) | (split) | (dsimp only))
    all_goals (try with_reducible refine mk_kept ?_ rfl (by first | rfl | simp) (by first | rfl | simp) rfl (by first | exact id | exact fun _ => rfl))

theorem execSummaryExchangeDone_kept {s0 s : State} (h : Kept s0 s) (hd : BitVec 6) (sums : List (Nat × List Summary)) :
    KeptOut s0 (execSummaryExchangeDone hd sums s) := by
  unfold execSummaryExchangeDone
  iterate 3
    repeat' (first
      | (with_reducible assumption) | (with_reducible apply next_kept) | (with_reducible apply iteOut_kept) | (with_reducible apply ite_kept)
      | (with_reducible apply checkReady_kept) | (with_reducible apply foldl_kept <;> intros) | (split) | (dsimp only))
    all_goals (try with_reducible refine mk_kept ?_ rfl (by first | rfl | simp) (by first | rfl | simp) rfl (by first | exact id | exact fun _ => rfl))

theorem dropTilings_kept {s0 s : State} (h : Kept s0 s) (d : Nat) (h : Nat) : Kept s0 (dropTilings s d h) := by
  unfold dropTilings
  iterate 3
    repeat' (first
      | (with_reducible assumption) | (with_reducible apply ite_kept) | (with_reducible apply modDom_kept)
      | (with_reducible apply foldl_kept <;> intros) | (split) | (dsimp only))
    all_goals (try with_reducible refine mk_kept ?_ rfl (by first | rfl | simp) (by first | rfl | simp) rfl (by first | exact id | exact fun _ => rfl))

theorem execUnloadReleaseDone_kept {s0 s : State} (h : Kept s0 s) (hd : BitVec 6) : KeptOut s0 (execUnloadReleaseDone hd s) := by
  unfold execUnloadReleaseDone
  iterate 3
    repeat' (first
      | (with_reducible assumption) | (with_reducible refine modMem_kept ?_ _ (fun hm => ?_)) | (exact hm) | (exact filter_wf _ hm)
      | (exact putBytes_wf hm) | (with_reducible apply next_kept) | (with_reducible apply iteOut_kept) | (with_reducible apply ite_kept)
      | (with_reducible apply dropTilings_kept) | (with_reducible apply foldl_kept <;> intros) | (split) | (dsimp only))
    all_goals (try with_reducible refine mk_kept ?_ rfl (by first | rfl | simp) (by first | rfl | simp) rfl (by first | exact id | exact fun _ => rfl))

theorem tryRelease_kept {s0 s : State} (h : Kept s0 s) (c : Nat) : Kept s0 (tryRelease s c) := by
  unfold tryRelease
  iterate 3
    repeat' (first
      | (with_reducible assumption) | (with_reducible apply ite_kept) | (with_reducible apply settle_kept) | (with_reducible apply modCtx_kept)
      | (with_reducible apply foldl_kept <;> intros) | (split) | (dsimp only))
    all_goals (try with_reducible refine mk_kept ?_ rfl (by first | rfl | simp) (by first | rfl | simp) rfl (by first | exact id | exact fun _ => rfl))

theorem execResultRelease_kept {s0 s : State} (h : Kept s0 s) (c : BitVec 12) : KeptOut s0 (execResultRelease c s) := by
  unfold execResultRelease
  iterate 3
    repeat' (first
      | (with_reducible assumption) | (with_reducible apply next_kept) | (with_reducible apply iteOut_kept) | (with_reducible apply ite_kept)
      | (with_reducible apply tryRelease_kept) | (with_reducible apply modCtx_kept) | (with_reducible apply foldl_kept <;> intros) | (split)
      | (dsimp only))
    all_goals (try with_reducible refine mk_kept ?_ rfl (by first | rfl | simp) (by first | rfl | simp) rfl (by first | exact id | exact fun _ => rfl))

theorem execHoldTimerExpiry_kept {s0 s : State} (h : Kept s0 s) (c : BitVec 12) : KeptOut s0 (execHoldTimerExpiry c s) := by
  unfold execHoldTimerExpiry
  iterate 3
    repeat' (first
      | (with_reducible assumption) | (with_reducible apply next_kept) | (with_reducible apply iteOut_kept) | (with_reducible apply ite_kept)
      | (with_reducible apply settle_kept) | (with_reducible apply truncateOutput_kept) | (with_reducible apply foldl_kept <;> intros) | (split)
      | (dsimp only))
    all_goals (try with_reducible refine mk_kept ?_ rfl (by first | rfl | simp) (by first | rfl | simp) rfl (by first | exact id | exact fun _ => rfl))

theorem execDeadlineExpiry_kept {s0 s : State} (h : Kept s0 s) (c : BitVec 12) : KeptOut s0 (execDeadlineExpiry c s) := by
  unfold execDeadlineExpiry
  iterate 3
    repeat' (first
      | (with_reducible assumption) | (with_reducible apply next_kept) | (with_reducible apply iteOut_kept) | (with_reducible apply ite_kept)
      | (with_reducible apply settle_kept) | (with_reducible apply modCtx_kept) | (with_reducible apply foldl_kept <;> intros) | (split)
      | (dsimp only))
    all_goals (try with_reducible refine mk_kept ?_ rfl (by first | rfl | simp) (by first | rfl | simp) rfl (by first | exact id | exact fun _ => rfl))

theorem execCoalesceTimerExpiry_kept {s0 s : State} (h : Kept s0 s) (c : BitVec 12) : KeptOut s0 (execCoalesceTimerExpiry c s) := by
  unfold execCoalesceTimerExpiry
  iterate 3
    repeat' (first
      | (with_reducible assumption) | (with_reducible apply next_kept) | (with_reducible apply iteOut_kept) | (with_reducible apply ite_kept)
      | (with_reducible apply setCtx_kept) | (with_reducible apply sendMsix_kept) | (with_reducible apply foldl_kept <;> intros) | (split)
      | (dsimp only))
    all_goals (try with_reducible refine mk_kept ?_ rfl (by first | rfl | simp) (by first | rfl | simp) rfl (by first | exact id | exact fun _ => rfl))

theorem spillOne_kept {s0 s : State} (h : Kept s0 s) (d : Nat) : KeptSome s0 (spillOne s d) := by
  unfold spillOne
  dsimp only
  split
  · exact none_kept
  · intro t ht
    simp only [Option.map_eq_some_iff] at ht
    obtain ⟨p, -, rfl⟩ := ht
    exact bump_kept (updUnits_kept h _ _) _ _

theorem roomT2_kept {s0 s : State} (h : Kept s0 s) (d need n : Nat) : Kept s0 (roomT2 d need n s).1 := by
  induction n generalizing s with
  | zero => exact h
  | succ n ih =>
    unfold roomT2
    split
    · exact h
    · split
      · rename_i he; exact ih (spillOne_kept h _ _ he)
      · exact h

theorem dropT1_kept {s0 s : State} (h : Kept s0 s) (u : PUnit) : Kept s0 (dropT1 s u) := by
  unfold dropT1
  iterate 3
    repeat' (first
      | (with_reducible assumption) | (with_reducible apply ite_kept) | (with_reducible apply bump_kept) | (with_reducible apply updUnits_kept)
      | (with_reducible apply foldl_kept <;> intros) | (split) | (dsimp only))
    all_goals (try with_reducible refine mk_kept ?_ rfl (by first | rfl | simp) (by first | rfl | simp) rfl (by first | exact id | exact fun _ => rfl))

theorem endPin_kept {s0 s : State} (h : Kept s0 s) (tier : Nat) (reason : Nat) (u : PUnit) : Kept s0 (endPin s tier reason u) := by
  unfold endPin
  iterate 3
    repeat' (first
      | (with_reducible assumption) | (with_reducible apply ite_kept) | (with_reducible apply updUnits_kept) | (with_reducible apply declineHint_kept)
      | (with_reducible apply foldl_kept <;> intros) | (split) | (dsimp only))
    all_goals (try with_reducible refine mk_kept ?_ rfl (by first | rfl | simp) (by first | rfl | simp) rfl (by first | exact id | exact fun _ => rfl))

theorem yieldCopy_kept {s0 s : State} (h : Kept s0 s) (u : PUnit) : Kept s0 (yieldCopy s u) := by
  unfold yieldCopy
  refine dropT1_kept (ite_kept (endPin_kept h _ _ _) h) _

theorem roomT1_kept {s0 s : State} (h : Kept s0 s) (d need n : Nat) : Kept s0 (roomT1 d need n s).1 := by
  induction n generalizing s with
  | zero => exact h
  | succ n ih =>
    unfold roomT1
    split
    · exact h
    · split
      · exact ih (yieldCopy_kept h _)
      · exact h

theorem roomSketch_kept {s0 s : State} (h : Kept s0 s) (d need n : Nat) : KeptSome s0 (roomSketch d need n s) := by
  induction n generalizing s with
  | zero => exact iteSome_kept (some_kept h) none_kept
  | succ n ih =>
    unfold roomSketch
    refine iteSome_kept (some_kept h) ?_
    cases coldestCopy s d with
    | none => exact none_kept
    | some u => exact ih (dropT1_kept h u)

theorem placeSketch_kept {s0 s : State} (h : Kept s0 s) (d : Nat) (u : PUnit) : Kept s0 (placeSketch s d u) := by
  unfold placeSketch
  split
  · exact h
  · refine ite_kept h ?_
    split
    · rename_i he; exact updUnits_kept (roomSketch_kept h _ _ _ _ he) _ _
    · exact h

theorem placeSketches_kept {s0 s : State} (h : Kept s0 s) (d : Nat) (c : Nat) : Kept s0 (placeSketches s d c) := by
  unfold placeSketches
  iterate 3
    repeat' (first
      | (with_reducible assumption) | (with_reducible apply ite_kept) | (with_reducible apply placeSketch_kept)
      | (with_reducible apply foldl_kept <;> intros) | (split) | (dsimp only))
    all_goals (try with_reducible refine mk_kept ?_ rfl (by first | rfl | simp) (by first | rfl | simp) rfl (by first | exact id | exact fun _ => rfl))

theorem stage_kept {s0 s : State} (h : Kept s0 s) (c : Nat) (n : Nat) : Kept s0 (stage s c n) := by
  unfold stage
  iterate 3
    repeat' (first
      | (with_reducible assumption) | (with_reducible apply ite_kept) | (with_reducible apply updUnits_kept)
      | (with_reducible apply foldl_kept <;> intros) | (split) | (dsimp only))
    all_goals (try with_reducible refine mk_kept ?_ rfl (by first | rfl | simp) (by first | rfl | simp) rfl (by first | exact id | exact fun _ => rfl))

theorem makeRoom_kept {s0 s : State} (h : Kept s0 s) (c : Nat) (d : Nat) (f : Formula) (n : Nat) : KeptSome s0 (makeRoom s c d f n) := by
  unfold makeRoom
  repeat' (first
    | (with_reducible assumption) | (with_reducible apply some_kept) | (with_reducible apply none_kept) | (with_reducible apply iteSome_kept)
    | (with_reducible apply ite_kept) | (with_reducible apply roomT2_kept) | (with_reducible apply modUnits_kept) | (with_reducible apply roomT1_kept)
    | (with_reducible apply placeSketches_kept) | (with_reducible apply stage_kept) | (with_reducible apply foldl_kept <;> intros) | (split)
    | (dsimp only))
  all_goals (try with_reducible refine mk_kept ?_ rfl rfl rfl rfl (by first | exact id | exact fun _ => rfl))
  repeat' (first
    | (with_reducible assumption) | (with_reducible apply some_kept) | (with_reducible apply none_kept) | (with_reducible apply iteSome_kept)
    | (with_reducible apply ite_kept) | (with_reducible apply roomT2_kept) | (with_reducible apply modUnits_kept) | (with_reducible apply roomT1_kept)
    | (with_reducible apply placeSketches_kept) | (with_reducible apply stage_kept) | (with_reducible apply foldl_kept <;> intros) | (split)
    | (dsimp only))

theorem holdForSpace_kept {s0 s : State} (h : Kept s0 s) (c : Nat) : Kept s0 (holdForSpace s c) := by
  unfold holdForSpace
  iterate 3
    repeat' (first
      | (with_reducible assumption) | (with_reducible apply ite_kept) | (with_reducible apply event_kept) | (with_reducible apply modCtx_kept)
      | (with_reducible apply foldl_kept <;> intros) | (split) | (dsimp only))
    all_goals (try with_reducible refine mk_kept ?_ rfl (by first | rfl | simp) (by first | rfl | simp) rfl (by first | exact id | exact fun _ => rfl))

theorem execCapacityWaitTimer_kept {s0 s : State} (h : Kept s0 s) (c : BitVec 12) : KeptOut s0 (execCapacityWaitTimer c s) := by
  unfold execCapacityWaitTimer
  iterate 3
    repeat' (first
      | (with_reducible assumption) | (with_reducible apply next_kept) | (with_reducible apply iteOut_kept) | (with_reducible apply ite_kept)
      | (with_reducible apply event_kept) | (with_reducible apply modCtx_kept) | (with_reducible apply foldl_kept <;> intros) | (split) | (dsimp only))
    all_goals (try with_reducible refine mk_kept ?_ rfl (by first | rfl | simp) (by first | rfl | simp) rfl (by first | exact id | exact fun _ => rfl))

theorem pinUnit_kept {s0 s : State} (h : Kept s0 s) (d : Nat) (p : Pin) (u : PUnit) : Kept s0 (pinUnit s d p u) := by
  unfold pinUnit
  exact ite_kept (declineHint_kept h _ _ _ _) (updUnits_kept h _ _)

theorem applyPin_kept {s0 s : State} (h : Kept s0 s) (d : Nat) (p : Pin) : Kept s0 (applyPin s d p) := by
  unfold applyPin
  iterate 3
    repeat' (first
      | (with_reducible assumption) | (with_reducible apply ite_kept) | (with_reducible apply pinUnit_kept)
      | (with_reducible apply foldl_kept <;> intros) | (split) | (dsimp only))
    all_goals (try with_reducible refine mk_kept ?_ rfl (by first | rfl | simp) (by first | rfl | simp) rfl (by first | exact id | exact fun _ => rfl))

theorem applyPins_kept {s0 s : State} (h : Kept s0 s) (d : Nat) : Kept s0 (applyPins s d) := by
  unfold applyPins
  iterate 3
    repeat' (first
      | (with_reducible assumption) | (with_reducible apply ite_kept) | (with_reducible apply applyPin_kept)
      | (with_reducible apply foldl_kept <;> intros) | (split) | (dsimp only))
    all_goals (try with_reducible refine mk_kept ?_ rfl (by first | rfl | simp) (by first | rfl | simp) rfl (by first | exact id | exact fun _ => rfl))

theorem trimResident_kept {s0 s : State} (h : Kept s0 s) (d : Nat) : Kept s0 (trimResident s d) := by
  unfold trimResident
  iterate 3
    repeat' (first
      | (with_reducible assumption) | (with_reducible apply ite_kept) | (with_reducible apply updUnits_kept)
      | (with_reducible apply foldl_kept <;> intros) | (split) | (dsimp only))
    all_goals (try with_reducible refine mk_kept ?_ rfl (by first | rfl | simp) (by first | rfl | simp) rfl (by first | exact id | exact fun _ => rfl))

theorem roomTile_kept {s0 s : State} (h : Kept s0 s) (d t ht need : Nat) (busy : PUnit → Bool) (n : Nat) :
    KeptSome s0 (roomTile d t ht need busy n s) := by
  induction n generalizing s with
  | zero => exact iteSome_kept (some_kept h) none_kept
  | succ n ih =>
    unfold roomTile
    repeat' (first
      | (with_reducible assumption) | (with_reducible apply some_kept) | (with_reducible apply none_kept) | (with_reducible apply iteSome_kept)
      | (with_reducible apply ih) | (with_reducible apply updUnits_kept) | (split) | (dsimp only))

theorem placeResident_kept {s0 s : State} (h : Kept s0 s) (d : Nat) (busy : PUnit → Bool) (u : PUnit) : Kept s0 (placeResident s d busy u) := by
  unfold placeResident
  split
  · exact h
  · refine ite_kept h ?_
    split
    · rename_i he
      have h1 := roomTile_kept h _ _ _ _ _ _ _ he
      exact ite_kept (spendBudget_kept (updUnits_kept h1 _ _) _ _) (updUnits_kept h1 _ _)
    · exact ite_kept (endPin_kept h _ _ _) h

theorem residentPass_kept {s0 s : State} (h : Kept s0 s) (d : Nat) (busy : PUnit → Bool) : Kept s0 (residentPass s d busy) := by
  unfold residentPass
  iterate 3
    repeat' (first
      | (with_reducible assumption) | (with_reducible apply ite_kept) | (with_reducible apply trimResident_kept)
      | (with_reducible apply placeResident_kept) | (with_reducible apply foldl_kept <;> intros) | (split) | (dsimp only))
    all_goals (try with_reducible refine mk_kept ?_ rfl (by first | rfl | simp) (by first | rfl | simp) rfl (by first | exact id | exact fun _ => rfl))

theorem installUnit_kept {s0 s : State} (h : Kept s0 s) (u : PUnit) : Kept s0 (installUnit s u) := by
  unfold installUnit
  iterate 3
    repeat' (first
      | (with_reducible assumption) | (with_reducible apply ite_kept) | (with_reducible apply updUnits_kept)
      | (with_reducible apply foldl_kept <;> intros) | (split) | (dsimp only))
    all_goals (try with_reducible refine mk_kept ?_ rfl (by first | rfl | simp) (by first | rfl | simp) rfl (by first | exact id | exact fun _ => rfl))

theorem installCopies_kept {s0 s : State} (h : Kept s0 s) (d : Nat) : Kept s0 (installCopies s d) := by
  unfold installCopies
  iterate 3
    repeat' (first
      | (with_reducible assumption) | (with_reducible apply ite_kept) | (with_reducible apply installUnit_kept)
      | (with_reducible apply foldl_kept <;> intros) | (split) | (dsimp only))
    all_goals (try with_reducible refine mk_kept ?_ rfl (by first | rfl | simp) (by first | rfl | simp) rfl (by first | exact id | exact fun _ => rfl))

theorem startMoves_kept {s0 s : State} (h : Kept s0 s) : Kept s0 (startMoves s) := by
  unfold startMoves
  iterate 3
    repeat' (first
      | (with_reducible assumption) | (with_reducible apply ite_kept) | (with_reducible apply updUnits_kept)
      | (with_reducible apply foldl_kept <;> intros) | (split) | (dsimp only))
    all_goals (try with_reducible refine mk_kept ?_ rfl (by first | rfl | simp) (by first | rfl | simp) rfl (by first | exact id | exact fun _ => rfl))

theorem drainStep_kept {s0 s : State} (h : Kept s0 s) : Kept s0 (drainStep s) := by
  unfold drainStep
  iterate 3
    repeat' (first
      | (with_reducible assumption) | (with_reducible apply ite_kept) | (with_reducible apply startMoves_kept)
      | (with_reducible apply foldl_kept <;> intros) | (split) | (dsimp only))
    all_goals (try with_reducible refine mk_kept ?_ rfl (by first | rfl | simp) (by first | rfl | simp) rfl (by first | exact id | exact fun _ => rfl))

theorem trimRegion_kept {s0 s : State} (h : Kept s0 s) (d r n : Nat) : Kept s0 (trimRegion d r n s) := by
  induction n generalizing s with
  | zero => exact h
  | succ n ih =>
    unfold trimRegion
    split
    · exact h
    · split
      · exact ih (dropT1_kept h _)
      · exact h

theorem trimSketches_kept {s0 s : State} (h : Kept s0 s) (d : Nat) : Kept s0 (trimSketches s d) := by
  unfold trimSketches
  repeat' (first
    | (with_reducible assumption) | (with_reducible apply foldl_kept <;> intros) | (with_reducible apply trimRegion_kept) | (split) | (dsimp only))

theorem pinCopies_kept {s0 s : State} (h : Kept s0 s) (d : Nat) (busy : PUnit → Bool) : Kept s0 (pinCopies s d busy) := by
  unfold pinCopies
  refine foldl_kept (fun t u ht => ?_) h
  refine ite_kept ht ?_
  split
  · exact endPin_kept ht _ _ _
  · rename_i he; exact startCopy_kept (evictFor_kept ht _ _ _ _ _ _ he) _

theorem latchCfg_kept {s0 s : State} (h : Kept s0 s) (d : Nat) : Kept s0 (latchCfg s d) := by
  unfold latchCfg
  iterate 3
    repeat' (first
      | (with_reducible assumption) | (with_reducible apply ite_kept) | (with_reducible apply modDom_kept)
      | (with_reducible apply foldl_kept <;> intros) | (split) | (dsimp only))
    all_goals (try with_reducible refine mk_kept ?_ rfl (by first | rfl | simp) (by first | rfl | simp) rfl (by first | exact id | exact fun _ => rfl))

theorem directorBoundary_kept {s0 s : State} (h : Kept s0 s) (d : Nat) (h : Nat) (cs : List Nat) : Kept s0 (directorBoundary s d h cs) := by
  unfold directorBoundary
  iterate 3
    repeat' (first
      | (with_reducible assumption) | (with_reducible apply ite_kept) | (with_reducible apply applyPins_kept) | (with_reducible apply heatUpdate_kept)
      | (with_reducible apply drainStep_kept) | (with_reducible apply latchCfg_kept) | (with_reducible apply residentPass_kept)
      | (with_reducible apply promotionPass_kept) | (with_reducible apply trimSketches_kept) | (with_reducible apply pinCopies_kept)
      | (with_reducible apply foldl_kept <;> intros) | (split) | (dsimp only))
    all_goals (try with_reducible refine mk_kept ?_ rfl (by first | rfl | simp) (by first | rfl | simp) rfl (by first | exact id | exact fun _ => rfl))

theorem spendDrain_kept {s0 s : State} (h : Kept s0 s) (d : Nat) (kind : Nat) (n : Nat) : Kept s0 (spendDrain s d kind n) := by
  unfold spendDrain
  iterate 3
    repeat' (first
      | (with_reducible assumption) | (with_reducible apply ite_kept) | (with_reducible apply foldl_kept <;> intros) | (split) | (dsimp only))
    all_goals (try with_reducible refine mk_kept ?_ rfl (by first | rfl | simp) (by first | rfl | simp) rfl (by first | exact id | exact fun _ => rfl))

theorem execCopyComplete_kept {s0 s : State} (h : Kept s0 s) (key : UnitKey) : KeptOut s0 (execCopyComplete key s) := by
  unfold execCopyComplete
  iterate 3
    repeat' (first
      | (with_reducible assumption) | (with_reducible apply next_kept) | (with_reducible apply iteOut_kept) | (with_reducible apply ite_kept)
      | (with_reducible apply spendDrain_kept) | (with_reducible apply updUnits_kept) | (with_reducible apply installCopies_kept)
      | (with_reducible apply foldl_kept <;> intros) | (split) | (dsimp only))
    all_goals (try with_reducible refine mk_kept ?_ rfl (by first | rfl | simp) (by first | rfl | simp) rfl (by first | exact id | exact fun _ => rfl))

theorem chargeSlice_kept {s0 s : State} (h : Kept s0 s) (d : Nat) (t : Nat) : Kept s0 (chargeSlice s d t) := by
  unfold chargeSlice
  iterate 3
    repeat' (first
      | (with_reducible assumption) | (with_reducible apply ite_kept) | (with_reducible apply foldl_kept <;> intros) | (split) | (dsimp only))
    all_goals (try with_reducible refine mk_kept ?_ rfl (by first | rfl | simp) (by first | rfl | simp) rfl (by first | exact id | exact fun _ => rfl))

theorem prefetchNext_kept {s0 s : State} (h : Kept s0 s) (d : Nat) : Kept s0 (prefetchNext s d) := by
  unfold prefetchNext
  iterate 3
    repeat' (first
      | (with_reducible assumption) | (with_reducible apply ite_kept) | (with_reducible apply modDom_kept)
      | (with_reducible apply foldl_kept <;> intros) | (split) | (dsimp only))
    all_goals (try with_reducible refine mk_kept ?_ rfl (by first | rfl | simp) (by first | rfl | simp) rfl (by first | exact id | exact fun _ => rfl))

theorem reserveDests_kept {s0 s : State} (h : Kept s0 s) (d : Nat) : Kept s0 (reserveDests s d) := by
  unfold reserveDests
  iterate 3
    repeat' (first
      | (with_reducible assumption) | (with_reducible apply ite_kept) | (with_reducible apply modStack_kept)
      | (with_reducible apply foldl_kept <;> intros) | (split) | (dsimp only))
    all_goals (try with_reducible refine mk_kept ?_ rfl (by first | rfl | simp) (by first | rfl | simp) rfl (by first | exact id | exact fun _ => rfl))

theorem repin_kept {s0 s : State} (h : Kept s0 s) (u : PUnit) : Kept s0 (repin s u) := by
  unfold repin
  iterate 3
    repeat' (first
      | (with_reducible assumption) | (with_reducible apply ite_kept) | (with_reducible apply evictFor_kept) | (with_reducible apply endPin_kept)
      | (with_reducible apply foldl_kept <;> intros) | (split) | (dsimp only))
    all_goals (try with_reducible refine mk_kept ?_ rfl (by first | rfl | simp) (by first | rfl | simp) rfl (by first | exact id | exact fun _ => rfl))

theorem loseCopies_kept {s0 s : State} (h : Kept s0 s) (r : Nat) : Kept s0 (loseCopies s r) := by
  unfold loseCopies
  iterate 3
    repeat' (first
      | (with_reducible assumption) | (with_reducible apply ite_kept) | (with_reducible apply updUnits_kept) | (with_reducible apply bump_kept)
      | (with_reducible apply repin_kept) | (with_reducible apply foldl_kept <;> intros) | (split) | (dsimp only))
    all_goals (try with_reducible refine mk_kept ?_ rfl (by first | rfl | simp) (by first | rfl | simp) rfl (by first | exact id | exact fun _ => rfl))

theorem enqueue_kept {s0 s : State} (h : Kept s0 s) (t : Nat) (inPort : Nat) (p : MeshPkt) : Kept s0 (enqueue s t inPort p) := by
  unfold enqueue
  iterate 3
    repeat' (first
      | (with_reducible assumption) | (with_reducible apply ite_kept) | (with_reducible apply modStack_kept)
      | (with_reducible apply foldl_kept <;> intros) | (split) | (dsimp only))
    all_goals (try with_reducible refine mk_kept ?_ rfl (by first | rfl | simp) (by first | rfl | simp) rfl (by first | exact id | exact fun _ => rfl))

theorem sendReport_kept {s0 s : State} (h : Kept s0 s) (n : Nat) : Kept s0 (sendReport s n) := by
  unfold sendReport
  iterate 3
    repeat' (first
      | (with_reducible assumption) | (with_reducible apply ite_kept) | (with_reducible apply enqueue_kept)
      | (with_reducible apply foldl_kept <;> intros) | (split) | (dsimp only))
    all_goals (try with_reducible refine mk_kept ?_ rfl (by first | rfl | simp) (by first | rfl | simp) rfl (by first | exact id | exact fun _ => rfl))

theorem fetchExperts_kept {s0 s : State} (h : Kept s0 s) (d : Nat) (i : Inst) (o : OpRec) (b : Batch) (rows : List BatchRow) :
    Kept s0 (fetchExperts s d i o b rows) := by
  unfold fetchExperts
  iterate 3
    repeat' (first
      | (with_reducible assumption) | (with_reducible apply ite_kept) | (with_reducible apply modDom_kept)
      | (with_reducible apply foldl_kept <;> intros) | (split) | (dsimp only))
    all_goals (try with_reducible refine mk_kept ?_ rfl (by first | rfl | simp) (by first | rfl | simp) rfl (by first | exact id | exact fun _ => rfl))

theorem countTraffic_kept {s0 s : State} (h : Kept s0 s) (d : Nat) : Kept s0 (countTraffic s d) := by
  unfold countTraffic
  iterate 3
    repeat' (first
      | (with_reducible assumption) | (with_reducible apply ite_kept) | (with_reducible apply modStack_kept)
      | (with_reducible apply foldl_kept <;> intros) | (split) | (dsimp only))
    all_goals (try with_reducible refine mk_kept ?_ rfl (by first | rfl | simp) (by first | rfl | simp) rfl (by first | exact id | exact fun _ => rfl))

theorem retile_kept {s0 s : State} (h : Kept s0 s) (d : Nat) : Kept s0 (retile s d) := by
  unfold retile
  iterate 3
    repeat' (first
      | (with_reducible assumption) | (with_reducible apply ite_kept) | (with_reducible apply tileInst_kept) | (with_reducible apply modDom_kept)
      | (with_reducible apply foldl_kept <;> intros) | (split) | (dsimp only))
    all_goals (try with_reducible refine mk_kept ?_ rfl (by first | rfl | simp) (by first | rfl | simp) rfl (by first | exact id | exact fun _ => rfl))

theorem noteSet_kept {s0 s : State} (h : Kept s0 s) (off : Nat) (m : Word) : Kept s0 (noteSet s off m) := by
  unfold noteSet
  iterate 3
    repeat' (first
      | (with_reducible assumption) | (with_reducible apply ite_kept) | (with_reducible apply foldl_kept <;> intros) | (split) | (dsimp only))
    all_goals (try with_reducible refine mk_kept ?_ rfl (by first | rfl | simp) (by first | rfl | simp) rfl (by first | exact id | exact fun _ => rfl))

theorem raiseBit_kept {s0 s : State} (h : Kept s0 s) (off : Nat) (b : Nat) : Kept s0 (raiseBit s off b) := by
  unfold raiseBit
  iterate 3
    repeat' (first
      | (with_reducible assumption) | (with_reducible apply ite_kept) | (with_reducible apply noteSet_kept) | (with_reducible apply regSetBits_kept)
      | (with_reducible apply foldl_kept <;> intros) | (split) | (dsimp only))
    all_goals (try with_reducible refine mk_kept ?_ rfl (by first | rfl | simp) (by first | rfl | simp) rfl (by first | exact id | exact fun _ => rfl))

theorem endCap_kept {s0 s : State} (h : Kept s0 s) (st : Nat) (reason : Nat) : Kept s0 (endCap s st reason) := by
  unfold endCap
  iterate 3
    repeat' (first
      | (with_reducible assumption) | (with_reducible apply ite_kept) | (with_reducible apply foldl_kept <;> intros) | (split) | (dsimp only))
    all_goals (try with_reducible refine mk_kept ?_ rfl (by first | rfl | simp) (by first | rfl | simp) rfl (by first | exact id | exact fun _ => rfl))

theorem yieldToMirror_kept {s0 s : State} (h : Kept s0 s) (c : Nat) (t : Nat) : Kept s0 (yieldToMirror s c t) := by
  unfold yieldToMirror
  iterate 3
    repeat' (first
      | (with_reducible assumption) | (with_reducible apply ite_kept) | (with_reducible apply yielded_kept) | (with_reducible apply modCtx_kept)
      | (with_reducible apply foldl_kept <;> intros) | (split) | (dsimp only))
    all_goals (try with_reducible refine mk_kept ?_ rfl (by first | rfl | simp) (by first | rfl | simp) rfl (by first | exact id | exact fun _ => rfl))

theorem mirrorKept_kept {s0 s : State} (h : Kept s0 s) (c : Nat) : Kept s0 (mirrorKept s c) := by
  unfold mirrorKept
  iterate 3
    repeat' (first
      | (with_reducible assumption) | (with_reducible apply ite_kept) | (with_reducible apply yielded_kept) | (with_reducible apply modCtx_kept)
      | (with_reducible apply foldl_kept <;> intros) | (split) | (dsimp only))
    all_goals (try with_reducible refine mk_kept ?_ rfl (by first | rfl | simp) (by first | rfl | simp) rfl (by first | exact id | exact fun _ => rfl))

theorem mirrorFreed_kept {s0 s : State} (h : Kept s0 s) (c : Nat) : Kept s0 (mirrorFreed s c) := by
  unfold mirrorFreed
  iterate 3
    repeat' (first
      | (with_reducible assumption) | (with_reducible apply ite_kept) | (with_reducible apply yieldToMirror_kept)
      | (with_reducible apply mirrorKept_kept) | (with_reducible apply modCtx_kept) | (with_reducible apply foldl_kept <;> intros) | (split)
      | (dsimp only))
    all_goals (try with_reducible refine mk_kept ?_ rfl (by first | rfl | simp) (by first | rfl | simp) rfl (by first | exact id | exact fun _ => rfl))

theorem clearDieTel_kept {s0 s : State} (h : Kept s0 s) (i : Nat) : Kept s0 (clearDieTel s i) := by
  unfold clearDieTel
  iterate 3
    repeat' (first
      | (with_reducible assumption) | (with_reducible apply ite_kept) | (with_reducible apply modStack_kept)
      | (with_reducible apply foldl_kept <;> intros) | (split) | (dsimp only))
    all_goals (try with_reducible refine mk_kept ?_ rfl (by first | rfl | simp) (by first | rfl | simp) rfl (by first | exact id | exact fun _ => rfl))

theorem countFixed_kept {s0 s : State} (h : Kept s0 s) (n : Nat) (p : C3Packet) : Kept s0 (countFixed s n p) := by
  unfold countFixed
  iterate 3
    repeat' (first
      | (with_reducible assumption) | (with_reducible apply ite_kept) | (with_reducible apply bump_kept)
      | (with_reducible apply foldl_kept <;> intros) | (split) | (dsimp only))
    all_goals (try with_reducible refine mk_kept ?_ rfl (by first | rfl | simp) (by first | rfl | simp) rfl (by first | exact id | exact fun _ => rfl))

theorem countStalls_kept {s0 s : State} (h : Kept s0 s) (t : Nat) (port : Nat) (cs : List Nat) : Kept s0 (countStalls s t port cs) := by
  unfold countStalls
  iterate 3
    repeat' (first
      | (with_reducible assumption) | (with_reducible apply ite_kept) | (with_reducible apply modStack_kept)
      | (with_reducible apply foldl_kept <;> intros) | (split) | (dsimp only))
    all_goals (try with_reducible refine mk_kept ?_ rfl (by first | rfl | simp) (by first | rfl | simp) rfl (by first | exact id | exact fun _ => rfl))

theorem writeExact_kept {s0 s : State} (h : Kept s0 s) (off : Nat) (new : Word) : Kept s0 (writeExact s off new) := by
  unfold writeExact
  iterate 3
    repeat' (first
      | (with_reducible assumption) | (with_reducible apply ite_kept) | (with_reducible apply regPut_kept)
      | (with_reducible apply foldl_kept <;> intros) | (split) | (dsimp only))
    all_goals (try with_reducible refine mk_kept ?_ rfl (by first | rfl | simp) (by first | rfl | simp) rfl (by first | exact id | exact fun _ => rfl))

theorem holdSpill_kept {s0 s : State} (h : Kept s0 s) : Kept s0 (holdSpill s) := by
  unfold holdSpill
  iterate 3
    repeat' (first
      | (with_reducible assumption) | (with_reducible apply ite_kept) | (with_reducible apply foldl_kept <;> intros) | (split) | (dsimp only))
    all_goals (try with_reducible refine mk_kept ?_ rfl (by first | rfl | simp) (by first | rfl | simp) rfl (by first | exact id | exact fun _ => rfl))

theorem after_kept {s0 s : State} (h : Kept s0 s) (f : State → Out) (hf : ∀ t, Kept s0 t → KeptOut s0 (f t)) : Kept s0 (after f s) := by
  unfold after
  split
  · rename_i he; exact (hf s h).at he
  · exact h

theorem runOut_kept {α : Type} {s0 s : State} (h : Kept s0 s) (xs : List α) (f : α → State → Out)
    (hf : ∀ x t, Kept s0 t → KeptOut s0 (f x t)) : Kept s0 (runOut xs f s) := by
  unfold runOut
  exact foldl_kept (fun t x ht => after_kept ht _ (hf x)) h

theorem runIf_kept {s0 s : State} (h : Kept s0 s) (due : Bool) (f : State → Out) (hf : ∀ t, Kept s0 t → KeptOut s0 (f t)) :
    Kept s0 (runIf due f s) := by
  unfold runIf
  exact ite_kept (after_kept h _ hf) h

theorem countFailed_kept {s0 t : State} (h : Kept s0 t) (s : State) : Kept s0 (countFailed s t) := by
  unfold countFailed
  dsimp only
  refine mk_kept h rfl (by first | rfl | simp) (by first | rfl | simp) rfl (by first | exact id | exact fun _ => rfl)

theorem enterSelfRefresh_kept {s0 s : State} (h : Kept s0 s) (p : Nat) (ok : Bool) : Kept s0 (enterSelfRefresh s p ok) := by
  unfold enterSelfRefresh
  iterate 3
    repeat' (first
      | (with_reducible assumption) | (with_reducible apply ite_kept) | (with_reducible apply foldl_kept <;> intros) | (split) | (dsimp only))
    all_goals (try with_reducible refine mk_kept ?_ rfl (by first | rfl | simp) (by first | rfl | simp) rfl (by first | exact id | exact fun _ => rfl))

theorem attributeNow_kept {s0 s : State} (h : Kept s0 s) (f : Flc) : Kept s0 (attributeNow s f) := by
  unfold attributeNow
  iterate 3
    repeat' (first
      | (with_reducible assumption) | (with_reducible apply ite_kept) | (with_reducible apply foldl_kept <;> intros) | (split) | (dsimp only))
    all_goals (try with_reducible refine mk_kept ?_ rfl (by first | rfl | simp) (by first | rfl | simp) rfl (by first | exact id | exact fun _ => rfl))

theorem notePldm_kept {s0 s : State} (h : Kept s0 s) (r : Requester) (off : Nat) : Kept s0 (notePldm s r off) := by
  unfold notePldm
  iterate 3
    repeat' (first
      | (with_reducible assumption) | (with_reducible apply ite_kept) | (with_reducible apply foldl_kept <;> intros) | (split) | (dsimp only))
    all_goals (try with_reducible refine mk_kept ?_ rfl (by first | rfl | simp) (by first | rfl | simp) rfl (by first | exact id | exact fun _ => rfl))

theorem setShares_kept {s0 s : State} (h : Kept s0 s) (d : Nat) (y : DomShares) : Kept s0 (setShares s d y) := by
  unfold setShares
  iterate 3
    repeat' (first
      | (with_reducible assumption) | (with_reducible apply ite_kept) | (with_reducible apply modDom_kept)
      | (with_reducible apply foldl_kept <;> intros) | (split) | (dsimp only))
    all_goals (try with_reducible refine mk_kept ?_ rfl (by first | rfl | simp) (by first | rfl | simp) rfl (by first | exact id | exact fun _ => rfl))

theorem setSlot_kept {s0 s : State} (h : Kept s0 s) (n : Nat) (enable : Bool) (minSvn : Nat) (key : Nat × Nat) :
    Kept s0 (setSlot s n enable minSvn key) := by
  unfold setSlot
  iterate 3
    repeat' (first
      | (with_reducible assumption) | (with_reducible apply ite_kept) | (with_reducible apply foldl_kept <;> intros) | (split) | (dsimp only))
    all_goals (try with_reducible refine mk_kept ?_ rfl (by first | rfl | simp) (by first | rfl | simp) rfl (by first | exact id | exact fun _ => rfl))

theorem submit_kept {s0 s : State} (h : Kept s0 s) (mgmt : Bool) (c : SecCmd) : Kept s0 (submit s mgmt c) := by
  unfold submit
  iterate 3
    repeat' (first
      | (with_reducible assumption) | (with_reducible apply ite_kept) | (with_reducible apply regSetBits_kept)
      | (with_reducible apply foldl_kept <;> intros) | (split) | (dsimp only))
    all_goals (try with_reducible refine mk_kept ?_ rfl (by first | rfl | simp) (by first | rfl | simp) rfl (by first | exact id | exact fun _ => rfl))

theorem addStall_kept {s0 s : State} (h : Kept s0 s) (d : Nat) : Kept s0 (addStall s d) := by
  unfold addStall
  iterate 3
    repeat' (first
      | (with_reducible assumption) | (with_reducible apply ite_kept) | (with_reducible apply modDom_kept)
      | (with_reducible apply foldl_kept <;> intros) | (split) | (dsimp only))
    all_goals (try with_reducible refine mk_kept ?_ rfl (by first | rfl | simp) (by first | rfl | simp) rfl (by first | exact id | exact fun _ => rfl))

theorem chargeTicks_kept {s0 s : State} (h : Kept s0 s) (d : Nat) (rows : List BatchRow) : Kept s0 (chargeTicks s d rows) := by
  unfold chargeTicks
  iterate 3
    repeat' (first
      | (with_reducible assumption) | (with_reducible apply ite_kept) | (with_reducible apply modCtx_kept) | (with_reducible apply modDom_kept)
      | (with_reducible apply addStall_kept) | (with_reducible apply foldl_kept <;> intros) | (split) | (dsimp only))
    all_goals (try with_reducible refine mk_kept ?_ rfl (by first | rfl | simp) (by first | rfl | simp) rfl (by first | exact id | exact fun _ => rfl))

theorem goOn_kept {s0 s : State} (h : Kept s0 s) (d : Nat) (i : Inst) (b : Batch) (opseq : Nat) : Kept s0 (goOn s d i b opseq).1 := by
  unfold goOn
  iterate 3
    repeat' (first
      | (with_reducible assumption) | (with_reducible apply ite_kept) | (with_reducible apply modDom_kept)
      | (with_reducible apply foldl_kept <;> intros) | (split) | (dsimp only))
    all_goals (try with_reducible refine mk_kept ?_ rfl (by first | rfl | simp) (by first | rfl | simp) rfl (by first | exact id | exact fun _ => rfl))

theorem loseContents_kept {s0 s : State} (h : Kept s0 s) (i : Nat) : Kept s0 (loseContents s i) := by
  unfold loseContents
  iterate 3
    repeat' (first
      | (with_reducible assumption) | (with_reducible refine modMem_kept ?_ _ (fun hm => ?_)) | (exact hm) | (exact filter_wf _ hm)
      | (exact putBytes_wf hm) | (with_reducible apply ite_kept) | (with_reducible apply foldl_kept <;> intros) | (split) | (dsimp only))
    all_goals (try with_reducible refine mk_kept ?_ rfl (by first | rfl | simp) (by first | rfl | simp) rfl (by first | exact id | exact fun _ => rfl))

theorem refetchCore_kept {s0 s : State} (h : Kept s0 s) (c : Nat) : Kept s0 (refetchCore s c) := by
  unfold refetchCore
  iterate 3
    repeat' (first
      | (with_reducible assumption) | (with_reducible apply ite_kept) | (with_reducible apply modCtx_kept)
      | (with_reducible apply foldl_kept <;> intros) | (split) | (dsimp only))
    all_goals (try with_reducible refine mk_kept ?_ rfl (by first | rfl | simp) (by first | rfl | simp) rfl (by first | exact id | exact fun _ => rfl))

theorem sendPending_kept {s0 s : State} (h : Kept s0 s) (i : Nat) : Kept s0 (sendPending s i) := by
  unfold sendPending
  iterate 3
    repeat' (first
      | (with_reducible assumption) | (with_reducible apply ite_kept) | (with_reducible apply send_kept)
      | (with_reducible apply foldl_kept <;> intros) | (split) | (dsimp only))
    all_goals (try with_reducible refine mk_kept ?_ rfl (by first | rfl | simp) (by first | rfl | simp) rfl (by first | exact id | exact fun _ => rfl))

theorem writeMsix_kept {s0 s : State} (h : Kept s0 s) (fn : Nat) (off : Nat) (v : Word) : Kept s0 (writeMsix s fn off v) := by
  unfold writeMsix
  iterate 3
    repeat' (first
      | (with_reducible assumption) | (with_reducible apply ite_kept) | (with_reducible apply sendPending_kept)
      | (with_reducible apply foldl_kept <;> intros) | (split) | (dsimp only))
    all_goals (try with_reducible refine mk_kept ?_ rfl (by first | rfl | simp) (by first | rfl | simp) rfl (by first | exact id | exact fun _ => rfl))

theorem writeMsixForm_kept {s0 s : State} (h : Kept s0 s) (fn : Nat) (off : Nat) (f : WriteForm) : Kept s0 (writeMsixForm s fn off f) := by
  unfold writeMsixForm
  iterate 3
    repeat' (first
      | (with_reducible assumption) | (with_reducible apply ite_kept) | (with_reducible apply writeMsix_kept)
      | (with_reducible apply foldl_kept <;> intros) | (split) | (dsimp only))
    all_goals (try with_reducible refine mk_kept ?_ rfl (by first | rfl | simp) (by first | rfl | simp) rfl (by first | exact id | exact fun _ => rfl))

theorem armReads_kept {s0 s : State} (h : Kept s0 s) : Kept s0 (armReads s) := by
  unfold armReads
  iterate 3
    repeat' (first
      | (with_reducible assumption) | (with_reducible apply ite_kept) | (with_reducible apply foldl_kept <;> intros) | (split) | (dsimp only))
    all_goals (try with_reducible refine mk_kept ?_ rfl (by first | rfl | simp) (by first | rfl | simp) rfl (by first | exact id | exact fun _ => rfl))

theorem countFlit_kept {s0 s : State} (h : Kept s0 s) (t : Nat) (port : Nat) (cls : Nat) : Kept s0 (countFlit s t port cls) := by
  unfold countFlit
  iterate 3
    repeat' (first
      | (with_reducible assumption) | (with_reducible apply ite_kept) | (with_reducible apply modStack_kept)
      | (with_reducible apply foldl_kept <;> intros) | (split) | (dsimp only))
    all_goals (try with_reducible refine mk_kept ?_ rfl (by first | rfl | simp) (by first | rfl | simp) rfl (by first | exact id | exact fun _ => rfl))

theorem noteLimits_kept {s0 s : State} (h : Kept s0 s) : Kept s0 (noteLimits s) := by
  unfold noteLimits
  iterate 3
    repeat' (first
      | (with_reducible assumption) | (with_reducible apply ite_kept) | (with_reducible apply modDom_kept)
      | (with_reducible apply foldl_kept <;> intros) | (split) | (dsimp only))
    all_goals (try with_reducible refine mk_kept ?_ rfl (by first | rfl | simp) (by first | rfl | simp) rfl (by first | exact id | exact fun _ => rfl))

theorem unstage_kept {s0 s : State} (h : Kept s0 s) (d : Nat) (p : Nat → Bool) : Kept s0 (unstage s d p) := by
  unfold unstage
  iterate 3
    repeat' (first
      | (with_reducible assumption) | (with_reducible apply ite_kept) | (with_reducible apply updUnits_kept)
      | (with_reducible apply foldl_kept <;> intros) | (split) | (dsimp only))
    all_goals (try with_reducible refine mk_kept ?_ rfl (by first | rfl | simp) (by first | rfl | simp) rfl (by first | exact id | exact fun _ => rfl))

theorem fetchOwn_kept {s0 s : State} (h : Kept s0 s) (d : Nat) : Kept s0 (fetchOwn s d) := by
  unfold fetchOwn
  iterate 3
    repeat' (first
      | (with_reducible assumption) | (with_reducible apply ite_kept) | (with_reducible apply modDom_kept)
      | (with_reducible apply foldl_kept <;> intros) | (split) | (dsimp only))
    all_goals (try with_reducible refine mk_kept ?_ rfl (by first | rfl | simp) (by first | rfl | simp) rfl (by first | exact id | exact fun _ => rfl))

end Sys2Proof.Machine
end

