-- ==== Sys2Proof/Laws/KeptSched.lean ====
section
/-!
SUPPORT. Every function of the state keeps the queue and the invariant: the key-scan, the scheduler and operations.
-/
set_option Elab.async false
set_option linter.all false
namespace Sys2Proof.Machine
open Sys2Proof

theorem modBank_kept {s0 s : State} (h : Kept s0 s) (g : Nat) (b : Nat) (f : Bank → Bank) : Kept s0 (modBank s g b f) := by
  unfold modBank
  iterate 3
    repeat' (first
      | (with_reducible assumption) | (with_reducible apply ite_kept) | (with_reducible apply foldl_kept <;> intros) | (split) | (dsimp only))
    all_goals (try with_reducible refine mk_kept ?_ rfl (by first | rfl | simp) (by first | rfl | simp) rfl (by first | exact id | exact fun _ => rfl))

theorem modScan_kept {s0 s : State} (h : Kept s0 s) (k : ScanKey) (f : Scan → Scan) : Kept s0 (modScan s k f) := by
  unfold modScan
  iterate 3
    repeat' (first
      | (with_reducible assumption) | (with_reducible apply ite_kept) | (with_reducible apply foldl_kept <;> intros) | (split) | (dsimp only))
    all_goals (try with_reducible refine mk_kept ?_ rfl (by first | rfl | simp) (by first | rfl | simp) rfl (by first | exact id | exact fun _ => rfl))

theorem nextCalibration_kept {s0 s : State} (h : Kept s0 s) (g : Nat) : Kept s0 (nextCalibration s g) := by
  unfold nextCalibration
  iterate 3
    repeat' (first
      | (with_reducible assumption) | (with_reducible apply ite_kept) | (with_reducible apply modBank_kept)
      | (with_reducible apply foldl_kept <;> intros) | (split) | (dsimp only))
    all_goals (try with_reducible refine mk_kept ?_ rfl (by first | rfl | simp) (by first | rfl | simp) rfl (by first | exact id | exact fun _ => rfl))

theorem execSegmentDispatch_kept {s0 s : State} (h : Kept s0 s) (g : BitVec 3) (b : BitVec 4) (k : ScanKey) :
    KeptOut s0 (execSegmentDispatch g b k s) := by
  unfold execSegmentDispatch
  iterate 3
    repeat' (first
      | (with_reducible assumption) | (with_reducible apply next_kept) | (with_reducible apply iteOut_kept) | (with_reducible apply ite_kept)
      | (with_reducible apply nextCalibration_kept) | (with_reducible apply modScan_kept) | (with_reducible apply chargeSlice_kept)
      | (with_reducible apply modCtx_kept) | (with_reducible apply modBank_kept) | (with_reducible apply foldl_kept <;> intros) | (split)
      | (dsimp only))
    all_goals (try with_reducible refine mk_kept ?_ rfl (by first | rfl | simp) (by first | rfl | simp) rfl (by first | exact id | exact fun _ => rfl))

theorem execSegmentComplete_kept {s0 s : State} (h : Kept s0 s) (g : BitVec 3) (b : BitVec 4) (ys : List (BitVec 12)) :
    KeptOut s0 (execSegmentComplete g b ys s) := by
  unfold execSegmentComplete
  iterate 3
    repeat' (first
      | (with_reducible assumption) | (with_reducible apply next_kept) | (with_reducible apply iteOut_kept) | (with_reducible apply ite_kept)
      | (with_reducible apply modBank_kept) | (with_reducible apply modScan_kept) | (with_reducible apply bump_kept)
      | (with_reducible apply bump64_kept) | (with_reducible apply nextCalibration_kept) | (with_reducible apply foldl_kept <;> intros) | (split)
      | (dsimp only))
    all_goals (try with_reducible refine mk_kept ?_ rfl (by first | rfl | simp) (by first | rfl | simp) rfl (by first | exact id | exact fun _ => rfl))

theorem addRecord_kept {s0 s : State} (h : Kept s0 s) (d : Nat) (c : Nat) (r : SelRecord) : Kept s0 (addRecord s d c r) := by
  unfold addRecord
  iterate 3
    repeat' (first
      | (with_reducible assumption) | (with_reducible apply ite_kept) | (with_reducible apply modDom_kept)
      | (with_reducible apply foldl_kept <;> intros) | (split) | (dsimp only))
    all_goals (try with_reducible refine mk_kept ?_ rfl (by first | rfl | simp) (by first | rfl | simp) rfl (by first | exact id | exact fun _ => rfl))

theorem execSelectionForm_kept {s0 s : State} (h : Kept s0 s) (k : ScanKey) : KeptOut s0 (execSelectionForm k s) := by
  unfold execSelectionForm
  iterate 3
    repeat' (first
      | (with_reducible assumption) | (with_reducible apply next_kept) | (with_reducible apply iteOut_kept) | (with_reducible apply ite_kept)
      | (with_reducible apply bump_kept) | (with_reducible apply bump64_kept) | (with_reducible apply addRecord_kept)
      | (with_reducible apply foldl_kept <;> intros) | (split) | (dsimp only))
    all_goals (try with_reducible refine mk_kept ?_ rfl (by first | rfl | simp) (by first | rfl | simp) rfl (by first | exact id | exact fun _ => rfl))

theorem execCalibrationDue_kept {s0 s : State} (h : Kept s0 s) (k : BankId) (temp : Option (BitVec 16)) :
    KeptOut s0 (execCalibrationDue k temp s) := by
  unfold execCalibrationDue
  iterate 3
    repeat' (first
      | (with_reducible assumption) | (with_reducible apply next_kept) | (with_reducible apply iteOut_kept) | (with_reducible apply ite_kept)
      | (with_reducible apply nextCalibration_kept) | (with_reducible apply modBank_kept) | (with_reducible apply foldl_kept <;> intros) | (split)
      | (dsimp only))
    all_goals (try with_reducible refine mk_kept ?_ rfl (by first | rfl | simp) (by first | rfl | simp) rfl (by first | exact id | exact fun _ => rfl))

theorem fitCalibration_kept {s0 s : State} (h : Kept s0 s) (g : Nat) (b : Nat) (gain : BitVec 16) (offset : BitVec 16) (temp : BitVec 16) (map : List (List Nat)) (nominal : Nat) (mean16 : BitVec 16) (sd16 : BitVec 16) (jump : Bool) :
    Kept s0 (fitCalibration s g b gain offset temp map nominal mean16 sd16 jump) := by
  unfold fitCalibration
  iterate 3
    repeat' (first
      | (with_reducible assumption) | (with_reducible apply ite_kept) | (with_reducible apply modBank_kept) | (with_reducible apply bump_kept)
      | (with_reducible apply nextCalibration_kept) | (with_reducible apply fault_kept) | (with_reducible apply foldl_kept <;> intros) | (split)
      | (dsimp only))
    all_goals (try with_reducible refine mk_kept ?_ rfl (by first | rfl | simp) (by first | rfl | simp) rfl (by first | exact id | exact fun _ => rfl))

theorem installCalibration_kept {s0 s : State} (h : Kept s0 s) (g : Nat) (b : Nat) : Kept s0 (installCalibration s g b) := by
  unfold installCalibration
  iterate 3
    repeat' (first
      | (with_reducible assumption) | (with_reducible apply ite_kept) | (with_reducible apply nextCalibration_kept)
      | (with_reducible apply modBank_kept) | (with_reducible apply foldl_kept <;> intros) | (split) | (dsimp only))
    all_goals (try with_reducible refine mk_kept ?_ rfl (by first | rfl | simp) (by first | rfl | simp) rfl (by first | exact id | exact fun _ => rfl))

theorem execCalibrationRetry_kept {s0 s : State} (h : Kept s0 s) (g : BitVec 3) (b : BitVec 4) : KeptOut s0 (execCalibrationRetry g b s) := by
  unfold execCalibrationRetry
  iterate 3
    repeat' (first
      | (with_reducible assumption) | (with_reducible apply next_kept) | (with_reducible apply iteOut_kept) | (with_reducible apply ite_kept)
      | (with_reducible apply nextCalibration_kept) | (with_reducible apply modBank_kept) | (with_reducible apply foldl_kept <;> intros) | (split)
      | (dsimp only))
    all_goals (try with_reducible refine mk_kept ?_ rfl (by first | rfl | simp) (by first | rfl | simp) rfl (by first | exact id | exact fun _ => rfl))

theorem requeue_kept {s0 s : State} (h : Kept s0 s) (q : Bank) : Kept s0 (requeue s q) := by
  unfold requeue
  iterate 3
    repeat' (first
      | (with_reducible assumption) | (with_reducible apply ite_kept) | (with_reducible apply modScan_kept)
      | (with_reducible apply foldl_kept <;> intros) | (split) | (dsimp only))
    all_goals (try with_reducible refine mk_kept ?_ rfl (by first | rfl | simp) (by first | rfl | simp) rfl (by first | exact id | exact fun _ => rfl))

theorem failBank_kept {s0 s : State} (h : Kept s0 s) (g : Nat) (b : Nat) : Kept s0 (failBank s g b) := by
  unfold failBank
  iterate 3
    repeat' (first
      | (with_reducible assumption) | (with_reducible apply ite_kept) | (with_reducible apply modBank_kept) | (with_reducible apply requeue_kept)
      | (with_reducible apply foldl_kept <;> intros) | (split) | (dsimp only))
    all_goals (try with_reducible refine mk_kept ?_ rfl (by first | rfl | simp) (by first | rfl | simp) rfl (by first | exact id | exact fun _ => rfl))

theorem execSillageBankFault_kept {s0 s : State} (h : Kept s0 s) (g : BitVec 3) (b : BitVec 4) : KeptOut s0 (execSillageBankFault g b s) := by
  unfold execSillageBankFault
  iterate 3
    repeat' (first
      | (with_reducible assumption) | (with_reducible apply next_kept) | (with_reducible apply iteOut_kept) | (with_reducible apply ite_kept)
      | (with_reducible apply nextCalibration_kept) | (with_reducible apply fault_kept) | (with_reducible apply failBank_kept)
      | (with_reducible apply foldl_kept <;> intros) | (split) | (dsimp only))
    all_goals (try with_reducible refine mk_kept ?_ rfl (by first | rfl | simp) (by first | rfl | simp) rfl (by first | exact id | exact fun _ => rfl))

theorem dropScans_kept {s0 s : State} (h : Kept s0 s) (c : Nat) : Kept s0 (dropScans s c) := by
  unfold dropScans
  iterate 3
    repeat' (first
      | (with_reducible assumption) | (with_reducible apply ite_kept) | (with_reducible apply foldl_kept <;> intros) | (split) | (dsimp only))
    all_goals (try with_reducible refine mk_kept ?_ rfl (by first | rfl | simp) (by first | rfl | simp) rfl (by first | exact id | exact fun _ => rfl))

theorem joinBatch_kept {s0 s : State} (h : Kept s0 s) (d c : Nat) (i : Inst) (r : BatchRow) (t : State)
    (ht : joinBatch s d c i = some (r, t)) : Kept s0 t := by
  unfold joinBatch at ht
  extract_lets k at ht
  split at ht
  · extract_lets first x1 row at ht
    split at ht
    · cases ht
    · split at ht
      · cases ht
      · rename_i he
        obtain ⟨-, rfl⟩ := Prod.mk.inj (Option.some.inj ht)
        exact modCtx_kept (makeRoom_kept h _ _ _ _ _ he) _ _
  · cases ht

theorem joinAll_kept {s0 s : State} (h : Kept s0 s) (d : Nat) (i : Inst) (cs : List Nat) (rs : List BatchRow) :
    Kept s0 (joinAll d i cs rs s).2 := by
  induction cs generalizing s rs with
  | nil => exact h
  | cons c cs ih =>
    unfold joinAll
    split
    · rename_i he
      exact ih (mirrorKept_kept (joinBatch_kept h _ _ _ _ _ he) _) _
    · exact ih (ite_kept (yieldToMirror_kept (holdForSpace_kept h _) _ _) (holdForSpace_kept h _)) _

theorem formAround_kept {s0 s : State} (h : Kept s0 s) (d : Nat) (c : Nat) : Kept s0 (formAround s d c) := by
  unfold formAround
  iterate 3
    repeat' (first
      | (with_reducible assumption) | (with_reducible apply ite_kept) | (with_reducible apply joinAll_kept) | (with_reducible apply fetchOwn_kept)
      | (with_reducible apply modDom_kept) | (with_reducible apply foldl_kept <;> intros) | (split) | (dsimp only))
    all_goals (try with_reducible refine mk_kept ?_ rfl (by first | rfl | simp) (by first | rfl | simp) rfl (by first | exact id | exact fun _ => rfl))

theorem choose_kept {s0 s : State} (h : Kept s0 s) (d n : Nat) (cs : List Nat) : Kept s0 (choose d n cs s) := by
  induction n generalizing s cs with
  | zero => exact h
  | succ n ih =>
    unfold choose
    repeat' (first
      | (with_reducible assumption) | (with_reducible apply ih) | (with_reducible apply ite_kept) | (with_reducible apply formAround_kept)
      | (with_reducible apply fetchOwn_kept)
      | (with_reducible apply modDom_kept) | (split) | (dsimp only))

theorem failBound_kept {s0 s : State} (h : Kept s0 s) (d : Nat) : Kept s0 (failBound s d) := by
  unfold failBound
  iterate 3
    repeat' (first
      | (with_reducible assumption) | (with_reducible apply ite_kept) | (with_reducible apply settle_kept) | (with_reducible apply modCtx_kept)
      | (with_reducible apply foldl_kept <;> intros) | (split) | (dsimp only))
    all_goals (try with_reducible refine mk_kept ?_ rfl (by first | rfl | simp) (by first | rfl | simp) rfl (by first | exact id | exact fun _ => rfl))

theorem nextBatch_kept {s0 s : State} (h : Kept s0 s) (d : Nat) : Kept s0 (nextBatch s d) := by
  unfold nextBatch
  iterate 3
    repeat' (first
      | (with_reducible assumption) | (with_reducible apply ite_kept) | (with_reducible apply failBound_kept) | (with_reducible apply modCtx_kept)
      | (with_reducible apply modDom_kept) | (with_reducible apply latchCfg_kept) | (with_reducible apply choose_kept)
      | (with_reducible apply foldl_kept <;> intros) | (split) | (dsimp only))
    all_goals (try with_reducible refine mk_kept ?_ rfl (by first | rfl | simp) (by first | rfl | simp) rfl (by first | exact id | exact fun _ => rfl))

theorem formBatch_kept {s0 s : State} (h : Kept s0 s) (d : Nat) : Kept s0 (formBatch s d) := by
  unfold formBatch
  iterate 3
    repeat' (first
      | (with_reducible assumption) | (with_reducible apply ite_kept) | (with_reducible apply nextBatch_kept) | (with_reducible apply unstage_kept)
      | (with_reducible apply foldl_kept <;> intros) | (split) | (dsimp only))
    all_goals (try with_reducible refine mk_kept ?_ rfl (by first | rfl | simp) (by first | rfl | simp) rfl (by first | exact id | exact fun _ => rfl))

theorem startIfReady_kept {s0 s : State} (h : Kept s0 s) (d : Nat) : Kept s0 (startIfReady s d) := by
  unfold startIfReady
  iterate 3
    repeat' (first
      | (with_reducible assumption) | (with_reducible apply ite_kept) | (with_reducible apply resumeDomain_kept) | (with_reducible apply modDom_kept)
      | (with_reducible apply prefetchNext_kept) | (with_reducible apply reserveDests_kept) | (with_reducible apply foldl_kept <;> intros) | (split)
      | (dsimp only))
    all_goals (try with_reducible refine mk_kept ?_ rfl (by first | rfl | simp) (by first | rfl | simp) rfl (by first | exact id | exact fun _ => rfl))

theorem runOp_kept {s0 s : State} (h : Kept s0 s) (d : Nat) (opcode : Nat) (f : Inst → OpRec → Nat → List BatchRow → BatchRow → BatchRow) :
    Kept s0 (runOp s d opcode f) := by
  unfold runOp
  iterate 3
    repeat' (first
      | (with_reducible assumption) | (with_reducible apply ite_kept) | (with_reducible apply modDom_kept) | (with_reducible apply addStall_kept)
      | (with_reducible apply foldl_kept <;> intros) | (split) | (dsimp only))
    all_goals (try with_reducible refine mk_kept ?_ rfl (by first | rfl | simp) (by first | rfl | simp) rfl (by first | exact id | exact fun _ => rfl))

theorem rowOp_kept {s0 s : State} (h : Kept s0 s) (d : BitVec 3) (opcode : Nat) (f : Inst → OpRec → BatchRow → BatchRow) :
    KeptOut s0 (rowOp s d opcode f) := by
  unfold rowOp
  iterate 3
    repeat' (first
      | (with_reducible assumption) | (with_reducible apply next_kept) | (with_reducible apply iteOut_kept) | (with_reducible apply ite_kept)
      | (with_reducible apply runOp_kept) | (with_reducible apply foldl_kept <;> intros) | (split) | (dsimp only))
    all_goals (try with_reducible refine mk_kept ?_ rfl (by first | rfl | simp) (by first | rfl | simp) rfl (by first | exact id | exact fun _ => rfl))

theorem execReissueAttempt_kept {s0 s : State} (h : Kept s0 s) (d : BitVec 3) : KeptOut s0 (execReissueAttempt d s) := by
  unfold execReissueAttempt
  iterate 3
    repeat' (first
      | (with_reducible assumption) | (with_reducible apply next_kept) | (with_reducible apply iteOut_kept) | (with_reducible apply ite_kept)
      | (with_reducible apply modCtx_kept) | (with_reducible apply modDom_kept) | (with_reducible apply foldl_kept <;> intros) | (split)
      | (dsimp only))
    all_goals (try with_reducible refine mk_kept ?_ rfl (by first | rfl | simp) (by first | rfl | simp) rfl (by first | exact id | exact fun _ => rfl))

theorem yieldBound_kept {s0 s : State} (h : Kept s0 s) (c : Nat) : Kept s0 (yieldBound s c) := by
  unfold yieldBound
  iterate 3
    repeat' (first
      | (with_reducible assumption) | (with_reducible apply ite_kept) | (with_reducible apply yielded_kept)
      | (with_reducible apply foldl_kept <;> intros) | (split) | (dsimp only))
    all_goals (try with_reducible refine mk_kept ?_ rfl (by first | rfl | simp) (by first | rfl | simp) rfl (by first | exact id | exact fun _ => rfl))

theorem endRow_kept {s0 s : State} (h : Kept s0 s) (i : Inst) (b : Batch) (r : BatchRow) : Kept s0 (endRow s i b r) := by
  unfold endRow
  iterate 3
    repeat' (first
      | (with_reducible assumption) | (with_reducible apply ite_kept) | (with_reducible apply dropScans_kept)
      | (with_reducible apply finishDisable_kept) | (with_reducible apply settle_kept) | (with_reducible apply setCtx_kept)
      | (with_reducible apply yieldBound_kept) | (with_reducible apply foldl_kept <;> intros) | (split) | (dsimp only))
    all_goals (try with_reducible refine mk_kept ?_ rfl (by first | rfl | simp) (by first | rfl | simp) rfl (by first | exact id | exact fun _ => rfl))

theorem creditOp_kept {s0 s : State} (h : Kept s0 s) (d : Nat) (i : Inst) (o : OpRec) (b : Batch) (rows : List BatchRow) :
    Kept s0 (creditOp s d i o b rows) := by
  unfold creditOp
  iterate 3
    repeat' (first
      | (with_reducible assumption) | (with_reducible apply ite_kept) | (with_reducible apply modCtx_kept) | (with_reducible apply bump_kept)
      | (with_reducible apply fetchExperts_kept) | (with_reducible apply countTraffic_kept) | (with_reducible apply countReads_kept)
      | (with_reducible apply chargeTicks_kept) | (with_reducible apply modDom_kept) | (with_reducible apply foldl_kept <;> intros) | (split)
      | (dsimp only))
    all_goals (try with_reducible refine mk_kept ?_ rfl (by first | rfl | simp) (by first | rfl | simp) rfl (by first | exact id | exact fun _ => rfl))

theorem applyClasses_kept {s0 s : State} (h : Kept s0 s) (d : Nat) : Kept s0 (applyClasses s d) := by
  unfold applyClasses
  iterate 3
    repeat' (first
      | (with_reducible assumption) | (with_reducible apply ite_kept) | (with_reducible apply setCtx_kept) | (with_reducible apply event_kept)
      | (with_reducible apply foldl_kept <;> intros) | (split) | (dsimp only))
    all_goals (try with_reducible refine mk_kept ?_ rfl (by first | rfl | simp) (by first | rfl | simp) rfl (by first | exact id | exact fun _ => rfl))

theorem endStep_kept {s0 s : State} (h : Kept s0 s) (d : Nat) (i : Inst) (b : Batch) : Kept s0 (endStep s d i b) := by
  unfold endStep
  iterate 3
    repeat' (first
      | (with_reducible assumption) | (with_reducible apply ite_kept) | (with_reducible apply modDom_kept) | (with_reducible apply endRow_kept)
      | (with_reducible apply applyClasses_kept) | (with_reducible apply directorBoundary_kept) | (with_reducible apply foldl_kept <;> intros)
      | (split) | (dsimp only))
    all_goals (try with_reducible refine mk_kept ?_ rfl (by first | rfl | simp) (by first | rfl | simp) rfl (by first | exact id | exact fun _ => rfl))

theorem endOp_kept {s0 s : State} (h : Kept s0 s) (d : Nat) : Kept s0 (endOp s d).1 := by
  unfold endOp
  iterate 3
    repeat' (first
      | (with_reducible assumption) | (with_reducible apply ite_kept) | (with_reducible apply modDom_kept) | (with_reducible apply endStep_kept)
      | (with_reducible apply goOn_kept) | (with_reducible apply installCopies_kept) | (with_reducible apply chargeTicks_kept)
      | (with_reducible apply creditOp_kept) | (with_reducible apply foldl_kept <;> intros) | (split) | (dsimp only))
    all_goals (try with_reducible refine mk_kept ?_ rfl (by first | rfl | simp) (by first | rfl | simp) rfl (by first | exact id | exact fun _ => rfl))

theorem execSliceEnd_kept {s0 s : State} (h : Kept s0 s) (d : BitVec 3) : KeptOut s0 (execSliceEnd d s) := by
  unfold execSliceEnd
  iterate 3
    repeat' (first
      | (with_reducible assumption) | (with_reducible apply next_kept) | (with_reducible apply iteOut_kept) | (with_reducible apply ite_kept)
      | (with_reducible apply modDom_kept) | (with_reducible apply formBatch_kept) | (with_reducible apply foldl_kept <;> intros) | (split)
      | (dsimp only))
    all_goals (try with_reducible refine mk_kept ?_ rfl (by first | rfl | simp) (by first | rfl | simp) rfl (by first | exact id | exact fun _ => rfl))

theorem execStepOverrun_kept {s0 s : State} (h : Kept s0 s) (c : BitVec 12) : KeptOut s0 (execStepOverrun c s) := by
  unfold execStepOverrun
  iterate 3
    repeat' (first
      | (with_reducible assumption) | (with_reducible apply next_kept) | (with_reducible apply iteOut_kept) | (with_reducible apply ite_kept)
      | (with_reducible apply event_kept) | (with_reducible apply setCtx_kept) | (with_reducible apply foldl_kept <;> intros) | (split) | (dsimp only))
    all_goals (try with_reducible refine mk_kept ?_ rfl (by first | rfl | simp) (by first | rfl | simp) rfl (by first | exact id | exact fun _ => rfl))

theorem failAll_kept {s0 s : State} (h : Kept s0 s) (d : Nat) (st : Nat) : Kept s0 (failAll s d st) := by
  unfold failAll
  iterate 3
    repeat' (first
      | (with_reducible assumption) | (with_reducible apply ite_kept) | (with_reducible apply modDom_kept)
      | (with_reducible apply foldl_kept <;> intros) | (split) | (dsimp only))
    all_goals (try with_reducible refine mk_kept ?_ rfl (by first | rfl | simp) (by first | rfl | simp) rfl (by first | exact id | exact fun _ => rfl))

theorem execCollectiveTimeout_kept {s0 s : State} (h : Kept s0 s) (d : BitVec 3) : KeptOut s0 (execCollectiveTimeout d s) := by
  unfold execCollectiveTimeout
  iterate 3
    repeat' (first
      | (with_reducible assumption) | (with_reducible apply next_kept) | (with_reducible apply iteOut_kept) | (with_reducible apply ite_kept)
      | (with_reducible apply failAll_kept) | (with_reducible apply foldl_kept <;> intros) | (split) | (dsimp only))
    all_goals (try with_reducible refine mk_kept ?_ rfl (by first | rfl | simp) (by first | rfl | simp) rfl (by first | exact id | exact fun _ => rfl))

theorem trayOp_kept {s0 s : State} (h : Kept s0 s) (d : Nat) (opcode : Nat) (scope : OpRec → Bool) (tray : List (Nat × TrayWin)) (f : Inst → OpRec → Option TrayWin → BatchRow → BatchRow) :
    Kept s0 (trayOp s d opcode scope tray f) := by
  unfold trayOp
  iterate 3
    repeat' (first
      | (with_reducible assumption) | (with_reducible apply ite_kept) | (with_reducible apply runOp_kept)
      | (with_reducible apply foldl_kept <;> intros) | (split) | (dsimp only))
    all_goals (try with_reducible refine mk_kept ?_ rfl (by first | rfl | simp) (by first | rfl | simp) rfl (by first | exact id | exact fun _ => rfl))

theorem execMatmul_kept {s0 s : State} (h : Kept s0 s) (d : BitVec 3) (tray : List (Nat × TrayWin)) : KeptOut s0 (execMatmul d tray s) := by
  unfold execMatmul
  iterate 3
    repeat' (first
      | (with_reducible assumption) | (with_reducible apply next_kept) | (with_reducible apply iteOut_kept) | (with_reducible apply ite_kept)
      | (with_reducible apply trayOp_kept) | (with_reducible apply foldl_kept <;> intros) | (split) | (dsimp only))
    all_goals (try with_reducible refine mk_kept ?_ rfl (by first | rfl | simp) (by first | rfl | simp) rfl (by first | exact id | exact fun _ => rfl))

theorem execExpertMatmul_kept {s0 s : State} (h : Kept s0 s) (d : BitVec 3) (tray : List (Nat × TrayWin)) :
    KeptOut s0 (execExpertMatmul d tray s) := by
  unfold execExpertMatmul
  iterate 3
    repeat' (first
      | (with_reducible assumption) | (with_reducible apply next_kept) | (with_reducible apply iteOut_kept) | (with_reducible apply ite_kept)
      | (with_reducible apply trayOp_kept) | (with_reducible apply foldl_kept <;> intros) | (split) | (dsimp only))
    all_goals (try with_reducible refine mk_kept ?_ rfl (by first | rfl | simp) (by first | rfl | simp) rfl (by first | exact id | exact fun _ => rfl))

theorem execRouterTopk_kept {s0 s : State} (h : Kept s0 s) (d : BitVec 3) : KeptOut s0 (execRouterTopk d s) := by
  unfold execRouterTopk
  iterate 3
    repeat' (first
      | (with_reducible assumption) | (with_reducible apply next_kept) | (with_reducible apply iteOut_kept) | (with_reducible apply ite_kept)
      | (with_reducible apply rowOp_kept) | (with_reducible apply foldl_kept <;> intros) | (split) | (dsimp only))
    all_goals (try with_reducible refine mk_kept ?_ rfl (by first | rfl | simp) (by first | rfl | simp) rfl (by first | exact id | exact fun _ => rfl))

theorem execGather_kept {s0 s : State} (h : Kept s0 s) (d : BitVec 3) : KeptOut s0 (execGather d s) := by
  unfold execGather
  iterate 3
    repeat' (first
      | (with_reducible assumption) | (with_reducible apply next_kept) | (with_reducible apply iteOut_kept) | (with_reducible apply ite_kept)
      | (with_reducible apply rowOp_kept) | (with_reducible apply foldl_kept <;> intros) | (split) | (dsimp only))
    all_goals (try with_reducible refine mk_kept ?_ rfl (by first | rfl | simp) (by first | rfl | simp) rfl (by first | exact id | exact fun _ => rfl))

theorem execAttnExact_kept {s0 s : State} (h : Kept s0 s) (d : BitVec 3) : KeptOut s0 (execAttnExact d s) := by
  unfold execAttnExact
  iterate 3
    repeat' (first
      | (with_reducible assumption) | (with_reducible apply next_kept) | (with_reducible apply iteOut_kept) | (with_reducible apply ite_kept)
      | (with_reducible apply rowOp_kept) | (with_reducible apply foldl_kept <;> intros) | (split) | (dsimp only))
    all_goals (try with_reducible refine mk_kept ?_ rfl (by first | rfl | simp) (by first | rfl | simp) rfl (by first | exact id | exact fun _ => rfl))

theorem startScans_kept {s0 s : State} (h : Kept s0 s) (d : Nat) (i : Inst) (o : OpRec) (op : Nat) (rows : List BatchRow) :
    Kept s0 (startScans s d i o op rows) := by
  unfold startScans
  iterate 3
    repeat' (first
      | (with_reducible assumption) | (with_reducible apply ite_kept) | (with_reducible apply bump64_kept) | (with_reducible apply addRecord_kept)
      | (with_reducible apply foldl_kept <;> intros) | (split) | (dsimp only))
    all_goals (try with_reducible refine mk_kept ?_ rfl (by first | rfl | simp) (by first | rfl | simp) rfl (by first | exact id | exact fun _ => rfl))

theorem execAttnSillage_kept {s0 s : State} (h : Kept s0 s) (d : BitVec 3) : KeptOut s0 (execAttnSillage d s) := by
  unfold execAttnSillage
  iterate 3
    repeat' (first
      | (with_reducible assumption) | (with_reducible apply next_kept) | (with_reducible apply iteOut_kept) | (with_reducible apply ite_kept)
      | (with_reducible apply runOp_kept) | (with_reducible apply startScans_kept) | (with_reducible apply dropScans_kept)
      | (with_reducible apply foldl_kept <;> intros) | (split) | (dsimp only))
    all_goals (try with_reducible refine mk_kept ?_ rfl (by first | rfl | simp) (by first | rfl | simp) rfl (by first | exact id | exact fun _ => rfl))

theorem execKvAppend_kept {s0 s : State} (h : Kept s0 s) (d : BitVec 3) : KeptOut s0 (execKvAppend d s) := by
  unfold execKvAppend
  iterate 3
    repeat' (first
      | (with_reducible assumption) | (with_reducible apply next_kept) | (with_reducible apply iteOut_kept) | (with_reducible apply ite_kept)
      | (with_reducible apply rowOp_kept) | (with_reducible apply foldl_kept <;> intros) | (split) | (dsimp only))
    all_goals (try with_reducible refine mk_kept ?_ rfl (by first | rfl | simp) (by first | rfl | simp) rfl (by first | exact id | exact fun _ => rfl))

theorem execNorm_kept {s0 s : State} (h : Kept s0 s) (d : BitVec 3) : KeptOut s0 (execNorm d s) := by
  unfold execNorm
  iterate 3
    repeat' (first
      | (with_reducible assumption) | (with_reducible apply next_kept) | (with_reducible apply iteOut_kept) | (with_reducible apply ite_kept)
      | (with_reducible apply rowOp_kept) | (with_reducible apply foldl_kept <;> intros) | (split) | (dsimp only))
    all_goals (try with_reducible refine mk_kept ?_ rfl (by first | rfl | simp) (by first | rfl | simp) rfl (by first | exact id | exact fun _ => rfl))

theorem execSoftmax_kept {s0 s : State} (h : Kept s0 s) (d : BitVec 3) : KeptOut s0 (execSoftmax d s) := by
  unfold execSoftmax
  iterate 3
    repeat' (first
      | (with_reducible assumption) | (with_reducible apply next_kept) | (with_reducible apply iteOut_kept) | (with_reducible apply ite_kept)
      | (with_reducible apply rowOp_kept) | (with_reducible apply foldl_kept <;> intros) | (split) | (dsimp only))
    all_goals (try with_reducible refine mk_kept ?_ rfl (by first | rfl | simp) (by first | rfl | simp) rfl (by first | exact id | exact fun _ => rfl))

theorem execActivation_kept {s0 s : State} (h : Kept s0 s) (d : BitVec 3) : KeptOut s0 (execActivation d s) := by
  unfold execActivation
  iterate 3
    repeat' (first
      | (with_reducible assumption) | (with_reducible apply next_kept) | (with_reducible apply iteOut_kept) | (with_reducible apply ite_kept)
      | (with_reducible apply rowOp_kept) | (with_reducible apply foldl_kept <;> intros) | (split) | (dsimp only))
    all_goals (try with_reducible refine mk_kept ?_ rfl (by first | rfl | simp) (by first | rfl | simp) rfl (by first | exact id | exact fun _ => rfl))

theorem execElementwise_kept {s0 s : State} (h : Kept s0 s) (d : BitVec 3) : KeptOut s0 (execElementwise d s) := by
  unfold execElementwise
  iterate 3
    repeat' (first
      | (with_reducible assumption) | (with_reducible apply next_kept) | (with_reducible apply iteOut_kept) | (with_reducible apply ite_kept)
      | (with_reducible apply rowOp_kept) | (with_reducible apply foldl_kept <;> intros) | (split) | (dsimp only))
    all_goals (try with_reducible refine mk_kept ?_ rfl (by first | rfl | simp) (by first | rfl | simp) rfl (by first | exact id | exact fun _ => rfl))

theorem execRotary_kept {s0 s : State} (h : Kept s0 s) (d : BitVec 3) : KeptOut s0 (execRotary d s) := by
  unfold execRotary
  iterate 3
    repeat' (first
      | (with_reducible assumption) | (with_reducible apply next_kept) | (with_reducible apply iteOut_kept) | (with_reducible apply ite_kept)
      | (with_reducible apply rowOp_kept) | (with_reducible apply foldl_kept <;> intros) | (split) | (dsimp only))
    all_goals (try with_reducible refine mk_kept ?_ rfl (by first | rfl | simp) (by first | rfl | simp) rfl (by first | exact id | exact fun _ => rfl))

theorem execSample_kept {s0 s : State} (h : Kept s0 s) (d : BitVec 3) : KeptOut s0 (execSample d s) := by
  unfold execSample
  iterate 3
    repeat' (first
      | (with_reducible assumption) | (with_reducible apply next_kept) | (with_reducible apply iteOut_kept) | (with_reducible apply ite_kept)
      | (with_reducible apply rowOp_kept) | (with_reducible apply foldl_kept <;> intros) | (split) | (dsimp only))
    all_goals (try with_reducible refine mk_kept ?_ rfl (by first | rfl | simp) (by first | rfl | simp) rfl (by first | exact id | exact fun _ => rfl))

theorem execConvert_kept {s0 s : State} (h : Kept s0 s) (d : BitVec 3) : KeptOut s0 (execConvert d s) := by
  unfold execConvert
  iterate 3
    repeat' (first
      | (with_reducible assumption) | (with_reducible apply next_kept) | (with_reducible apply iteOut_kept) | (with_reducible apply ite_kept)
      | (with_reducible apply rowOp_kept) | (with_reducible apply foldl_kept <;> intros) | (split) | (dsimp only))
    all_goals (try with_reducible refine mk_kept ?_ rfl (by first | rfl | simp) (by first | rfl | simp) rfl (by first | exact id | exact fun _ => rfl))

theorem execVectorKernel_kept {s0 s : State} (h : Kept s0 s) (d : BitVec 3) : KeptOut s0 (execVectorKernel d s) := by
  unfold execVectorKernel
  iterate 3
    repeat' (first
      | (with_reducible assumption) | (with_reducible apply next_kept) | (with_reducible apply iteOut_kept) | (with_reducible apply ite_kept)
      | (with_reducible apply rowOp_kept) | (with_reducible apply foldl_kept <;> intros) | (split) | (dsimp only))
    all_goals (try with_reducible refine mk_kept ?_ rfl (by first | rfl | simp) (by first | rfl | simp) rfl (by first | exact id | exact fun _ => rfl))

theorem runCollective_kept {s0 s : State} (h : Kept s0 s) (d : Nat) (opcode : Nat) (peers : List (Nat × Option (List Tensor))) :
    Kept s0 (runCollective s d opcode peers) := by
  unfold runCollective
  iterate 3
    repeat' (first
      | (with_reducible assumption) | (with_reducible apply ite_kept) | (with_reducible apply failAll_kept) | (with_reducible apply runOp_kept)
      | (with_reducible apply foldl_kept <;> intros) | (split) | (dsimp only))
    all_goals (try with_reducible refine mk_kept ?_ rfl (by first | rfl | simp) (by first | rfl | simp) rfl (by first | exact id | exact fun _ => rfl))

theorem execTrayAllreduce_kept {s0 s : State} (h : Kept s0 s) (d : BitVec 3) (peers : List (Nat × Option (List Tensor))) :
    KeptOut s0 (execTrayAllreduce d peers s) := by
  unfold execTrayAllreduce
  iterate 3
    repeat' (first
      | (with_reducible assumption) | (with_reducible apply next_kept) | (with_reducible apply iteOut_kept) | (with_reducible apply ite_kept)
      | (with_reducible apply runCollective_kept) | (with_reducible apply foldl_kept <;> intros) | (split) | (dsimp only))
    all_goals (try with_reducible refine mk_kept ?_ rfl (by first | rfl | simp) (by first | rfl | simp) rfl (by first | exact id | exact fun _ => rfl))

theorem execTrayAllgather_kept {s0 s : State} (h : Kept s0 s) (d : BitVec 3) (peers : List (Nat × Option (List Tensor))) :
    KeptOut s0 (execTrayAllgather d peers s) := by
  unfold execTrayAllgather
  iterate 3
    repeat' (first
      | (with_reducible assumption) | (with_reducible apply next_kept) | (with_reducible apply iteOut_kept) | (with_reducible apply ite_kept)
      | (with_reducible apply runCollective_kept) | (with_reducible apply foldl_kept <;> intros) | (split) | (dsimp only))
    all_goals (try with_reducible refine mk_kept ?_ rfl (by first | rfl | simp) (by first | rfl | simp) rfl (by first | exact id | exact fun _ => rfl))

theorem execTrayAlltoall_kept {s0 s : State} (h : Kept s0 s) (d : BitVec 3) (peers : List (Nat × Option (List Tensor))) :
    KeptOut s0 (execTrayAlltoall d peers s) := by
  unfold execTrayAlltoall
  iterate 3
    repeat' (first
      | (with_reducible assumption) | (with_reducible apply next_kept) | (with_reducible apply iteOut_kept) | (with_reducible apply ite_kept)
      | (with_reducible apply runCollective_kept) | (with_reducible apply foldl_kept <;> intros) | (split) | (dsimp only))
    all_goals (try with_reducible refine mk_kept ?_ rfl (by first | rfl | simp) (by first | rfl | simp) rfl (by first | exact id | exact fun _ => rfl))

theorem execTrayBroadcast_kept {s0 s : State} (h : Kept s0 s) (d : BitVec 3) (peers : List (Nat × Option (List Tensor))) :
    KeptOut s0 (execTrayBroadcast d peers s) := by
  unfold execTrayBroadcast
  iterate 3
    repeat' (first
      | (with_reducible assumption) | (with_reducible apply next_kept) | (with_reducible apply iteOut_kept) | (with_reducible apply ite_kept)
      | (with_reducible apply runCollective_kept) | (with_reducible apply foldl_kept <;> intros) | (split) | (dsimp only))
    all_goals (try with_reducible refine mk_kept ?_ rfl (by first | rfl | simp) (by first | rfl | simp) rfl (by first | exact id | exact fun _ => rfl))

theorem kernStep_kept {s0 s : State} (h : Kept s0 s) (f : Kern → Kern) (hf : ∀ k : Kern, k.regs.length = 64 → (f k).regs.length = 64) :
    KeptOut s0 (kernStep s f) :=
  next_kept (mk_kept h rfl rfl rfl rfl (hf _))

theorem execAdd_kept {s0 s : State} (h : Kept s0 s) (d : BitVec 6) (a : BitVec 6) (b : BitVec 6) : KeptOut s0 (execAdd d a b s) := by
  unfold execAdd
  repeat' (first
    | (with_reducible assumption) | (with_reducible apply next_kept) | (with_reducible apply iteOut_kept) | (with_reducible apply ite_kept)
    | (with_reducible refine kernStep_kept ?_ _ (fun k hk => ?_))
    | (simpa only [kern1, kern2, kern3, kernRed, kernLd, kernLdc, kernIdx, kernSt, kernPut, listSet_length] using hk)
    | (with_reducible apply foldl_kept <;> intros) | (split) | (dsimp only))
  all_goals (try with_reducible refine mk_kept ?_ rfl rfl rfl rfl (by first | exact id | exact fun _ => rfl))
  repeat' (first
    | (with_reducible assumption) | (with_reducible apply next_kept) | (with_reducible apply iteOut_kept) | (with_reducible apply ite_kept)
    | (with_reducible refine kernStep_kept ?_ _ (fun k hk => ?_))
    | (simpa only [kern1, kern2, kern3, kernRed, kernLd, kernLdc, kernIdx, kernSt, kernPut, listSet_length] using hk)
    | (with_reducible apply foldl_kept <;> intros) | (split) | (dsimp only))

theorem execSub_kept {s0 s : State} (h : Kept s0 s) (d : BitVec 6) (a : BitVec 6) (b : BitVec 6) : KeptOut s0 (execSub d a b s) := by
  unfold execSub
  repeat' (first
    | (with_reducible assumption) | (with_reducible apply next_kept) | (with_reducible apply iteOut_kept) | (with_reducible apply ite_kept)
    | (with_reducible refine kernStep_kept ?_ _ (fun k hk => ?_))
    | (simpa only [kern1, kern2, kern3, kernRed, kernLd, kernLdc, kernIdx, kernSt, kernPut, listSet_length] using hk)
    | (with_reducible apply foldl_kept <;> intros) | (split) | (dsimp only))
  all_goals (try with_reducible refine mk_kept ?_ rfl rfl rfl rfl (by first | exact id | exact fun _ => rfl))
  repeat' (first
    | (with_reducible assumption) | (with_reducible apply next_kept) | (with_reducible apply iteOut_kept) | (with_reducible apply ite_kept)
    | (with_reducible refine kernStep_kept ?_ _ (fun k hk => ?_))
    | (simpa only [kern1, kern2, kern3, kernRed, kernLd, kernLdc, kernIdx, kernSt, kernPut, listSet_length] using hk)
    | (with_reducible apply foldl_kept <;> intros) | (split) | (dsimp only))

theorem execMul_kept {s0 s : State} (h : Kept s0 s) (d : BitVec 6) (a : BitVec 6) (b : BitVec 6) : KeptOut s0 (execMul d a b s) := by
  unfold execMul
  repeat' (first
    | (with_reducible assumption) | (with_reducible apply next_kept) | (with_reducible apply iteOut_kept) | (with_reducible apply ite_kept)
    | (with_reducible refine kernStep_kept ?_ _ (fun k hk => ?_))
    | (simpa only [kern1, kern2, kern3, kernRed, kernLd, kernLdc, kernIdx, kernSt, kernPut, listSet_length] using hk)
    | (with_reducible apply foldl_kept <;> intros) | (split) | (dsimp only))
  all_goals (try with_reducible refine mk_kept ?_ rfl rfl rfl rfl (by first | exact id | exact fun _ => rfl))
  repeat' (first
    | (with_reducible assumption) | (with_reducible apply next_kept) | (with_reducible apply iteOut_kept) | (with_reducible apply ite_kept)
    | (with_reducible refine kernStep_kept ?_ _ (fun k hk => ?_))
    | (simpa only [kern1, kern2, kern3, kernRed, kernLd, kernLdc, kernIdx, kernSt, kernPut, listSet_length] using hk)
    | (with_reducible apply foldl_kept <;> intros) | (split) | (dsimp only))

theorem execFma_kept {s0 s : State} (h : Kept s0 s) (d : BitVec 6) (a : BitVec 6) (b : BitVec 6) (c : BitVec 6) : KeptOut s0 (execFma d a b c s) := by
  unfold execFma
  repeat' (first
    | (with_reducible assumption) | (with_reducible apply next_kept) | (with_reducible apply iteOut_kept) | (with_reducible apply ite_kept)
    | (with_reducible refine kernStep_kept ?_ _ (fun k hk => ?_))
    | (simpa only [kern1, kern2, kern3, kernRed, kernLd, kernLdc, kernIdx, kernSt, kernPut, listSet_length] using hk)
    | (with_reducible apply foldl_kept <;> intros) | (split) | (dsimp only))
  all_goals (try with_reducible refine mk_kept ?_ rfl rfl rfl rfl (by first | exact id | exact fun _ => rfl))
  repeat' (first
    | (with_reducible assumption) | (with_reducible apply next_kept) | (with_reducible apply iteOut_kept) | (with_reducible apply ite_kept)
    | (with_reducible refine kernStep_kept ?_ _ (fun k hk => ?_))
    | (simpa only [kern1, kern2, kern3, kernRed, kernLd, kernLdc, kernIdx, kernSt, kernPut, listSet_length] using hk)
    | (with_reducible apply foldl_kept <;> intros) | (split) | (dsimp only))

theorem execDiv_kept {s0 s : State} (h : Kept s0 s) (d : BitVec 6) (a : BitVec 6) (b : BitVec 6) : KeptOut s0 (execDiv d a b s) := by
  unfold execDiv
  repeat' (first
    | (with_reducible assumption) | (with_reducible apply next_kept) | (with_reducible apply iteOut_kept) | (with_reducible apply ite_kept)
    | (with_reducible refine kernStep_kept ?_ _ (fun k hk => ?_))
    | (simpa only [kern1, kern2, kern3, kernRed, kernLd, kernLdc, kernIdx, kernSt, kernPut, listSet_length] using hk)
    | (with_reducible apply foldl_kept <;> intros) | (split) | (dsimp only))
  all_goals (try with_reducible refine mk_kept ?_ rfl rfl rfl rfl (by first | exact id | exact fun _ => rfl))
  repeat' (first
    | (with_reducible assumption) | (with_reducible apply next_kept) | (with_reducible apply iteOut_kept) | (with_reducible apply ite_kept)
    | (with_reducible refine kernStep_kept ?_ _ (fun k hk => ?_))
    | (simpa only [kern1, kern2, kern3, kernRed, kernLd, kernLdc, kernIdx, kernSt, kernPut, listSet_length] using hk)
    | (with_reducible apply foldl_kept <;> intros) | (split) | (dsimp only))

theorem execSqrt_kept {s0 s : State} (h : Kept s0 s) (d : BitVec 6) (a : BitVec 6) : KeptOut s0 (execSqrt d a s) := by
  unfold execSqrt
  repeat' (first
    | (with_reducible assumption) | (with_reducible apply next_kept) | (with_reducible apply iteOut_kept) | (with_reducible apply ite_kept)
    | (with_reducible refine kernStep_kept ?_ _ (fun k hk => ?_))
    | (simpa only [kern1, kern2, kern3, kernRed, kernLd, kernLdc, kernIdx, kernSt, kernPut, listSet_length] using hk)
    | (with_reducible apply foldl_kept <;> intros) | (split) | (dsimp only))
  all_goals (try with_reducible refine mk_kept ?_ rfl rfl rfl rfl (by first | exact id | exact fun _ => rfl))
  repeat' (first
    | (with_reducible assumption) | (with_reducible apply next_kept) | (with_reducible apply iteOut_kept) | (with_reducible apply ite_kept)
    | (with_reducible refine kernStep_kept ?_ _ (fun k hk => ?_))
    | (simpa only [kern1, kern2, kern3, kernRed, kernLd, kernLdc, kernIdx, kernSt, kernPut, listSet_length] using hk)
    | (with_reducible apply foldl_kept <;> intros) | (split) | (dsimp only))

theorem execRcp_kept {s0 s : State} (h : Kept s0 s) (d : BitVec 6) (a : BitVec 6) : KeptOut s0 (execRcp d a s) := by
  unfold execRcp
  repeat' (first
    | (with_reducible assumption) | (with_reducible apply next_kept) | (with_reducible apply iteOut_kept) | (with_reducible apply ite_kept)
    | (with_reducible refine kernStep_kept ?_ _ (fun k hk => ?_))
    | (simpa only [kern1, kern2, kern3, kernRed, kernLd, kernLdc, kernIdx, kernSt, kernPut, listSet_length] using hk)
    | (with_reducible apply foldl_kept <;> intros) | (split) | (dsimp only))
  all_goals (try with_reducible refine mk_kept ?_ rfl rfl rfl rfl (by first | exact id | exact fun _ => rfl))
  repeat' (first
    | (with_reducible assumption) | (with_reducible apply next_kept) | (with_reducible apply iteOut_kept) | (with_reducible apply ite_kept)
    | (with_reducible refine kernStep_kept ?_ _ (fun k hk => ?_))
    | (simpa only [kern1, kern2, kern3, kernRed, kernLd, kernLdc, kernIdx, kernSt, kernPut, listSet_length] using hk)
    | (with_reducible apply foldl_kept <;> intros) | (split) | (dsimp only))

theorem execRsqrt_kept {s0 s : State} (h : Kept s0 s) (d : BitVec 6) (a : BitVec 6) : KeptOut s0 (execRsqrt d a s) := by
  unfold execRsqrt
  repeat' (first
    | (with_reducible assumption) | (with_reducible apply next_kept) | (with_reducible apply iteOut_kept) | (with_reducible apply ite_kept)
    | (with_reducible refine kernStep_kept ?_ _ (fun k hk => ?_))
    | (simpa only [kern1, kern2, kern3, kernRed, kernLd, kernLdc, kernIdx, kernSt, kernPut, listSet_length] using hk)
    | (with_reducible apply foldl_kept <;> intros) | (split) | (dsimp only))
  all_goals (try with_reducible refine mk_kept ?_ rfl rfl rfl rfl (by first | exact id | exact fun _ => rfl))
  repeat' (first
    | (with_reducible assumption) | (with_reducible apply next_kept) | (with_reducible apply iteOut_kept) | (with_reducible apply ite_kept)
    | (with_reducible refine kernStep_kept ?_ _ (fun k hk => ?_))
    | (simpa only [kern1, kern2, kern3, kernRed, kernLd, kernLdc, kernIdx, kernSt, kernPut, listSet_length] using hk)
    | (with_reducible apply foldl_kept <;> intros) | (split) | (dsimp only))

theorem execExp2_kept {s0 s : State} (h : Kept s0 s) (d : BitVec 6) (a : BitVec 6) : KeptOut s0 (execExp2 d a s) := by
  unfold execExp2
  repeat' (first
    | (with_reducible assumption) | (with_reducible apply next_kept) | (with_reducible apply iteOut_kept) | (with_reducible apply ite_kept)
    | (with_reducible refine kernStep_kept ?_ _ (fun k hk => ?_))
    | (simpa only [kern1, kern2, kern3, kernRed, kernLd, kernLdc, kernIdx, kernSt, kernPut, listSet_length] using hk)
    | (with_reducible apply foldl_kept <;> intros) | (split) | (dsimp only))
  all_goals (try with_reducible refine mk_kept ?_ rfl rfl rfl rfl (by first | exact id | exact fun _ => rfl))
  repeat' (first
    | (with_reducible assumption) | (with_reducible apply next_kept) | (with_reducible apply iteOut_kept) | (with_reducible apply ite_kept)
    | (with_reducible refine kernStep_kept ?_ _ (fun k hk => ?_))
    | (simpa only [kern1, kern2, kern3, kernRed, kernLd, kernLdc, kernIdx, kernSt, kernPut, listSet_length] using hk)
    | (with_reducible apply foldl_kept <;> intros) | (split) | (dsimp only))

theorem execLog2_kept {s0 s : State} (h : Kept s0 s) (d : BitVec 6) (a : BitVec 6) : KeptOut s0 (execLog2 d a s) := by
  unfold execLog2
  repeat' (first
    | (with_reducible assumption) | (with_reducible apply next_kept) | (with_reducible apply iteOut_kept) | (with_reducible apply ite_kept)
    | (with_reducible refine kernStep_kept ?_ _ (fun k hk => ?_))
    | (simpa only [kern1, kern2, kern3, kernRed, kernLd, kernLdc, kernIdx, kernSt, kernPut, listSet_length] using hk)
    | (with_reducible apply foldl_kept <;> intros) | (split) | (dsimp only))
  all_goals (try with_reducible refine mk_kept ?_ rfl rfl rfl rfl (by first | exact id | exact fun _ => rfl))
  repeat' (first
    | (with_reducible assumption) | (with_reducible apply next_kept) | (with_reducible apply iteOut_kept) | (with_reducible apply ite_kept)
    | (with_reducible refine kernStep_kept ?_ _ (fun k hk => ?_))
    | (simpa only [kern1, kern2, kern3, kernRed, kernLd, kernLdc, kernIdx, kernSt, kernPut, listSet_length] using hk)
    | (with_reducible apply foldl_kept <;> intros) | (split) | (dsimp only))

theorem execNeg_kept {s0 s : State} (h : Kept s0 s) (d : BitVec 6) (a : BitVec 6) : KeptOut s0 (execNeg d a s) := by
  unfold execNeg
  repeat' (first
    | (with_reducible assumption) | (with_reducible apply next_kept) | (with_reducible apply iteOut_kept) | (with_reducible apply ite_kept)
    | (with_reducible refine kernStep_kept ?_ _ (fun k hk => ?_))
    | (simpa only [kern1, kern2, kern3, kernRed, kernLd, kernLdc, kernIdx, kernSt, kernPut, listSet_length] using hk)
    | (with_reducible apply foldl_kept <;> intros) | (split) | (dsimp only))
  all_goals (try with_reducible refine mk_kept ?_ rfl rfl rfl rfl (by first | exact id | exact fun _ => rfl))
  repeat' (first
    | (with_reducible assumption) | (with_reducible apply next_kept) | (with_reducible apply iteOut_kept) | (with_reducible apply ite_kept)
    | (with_reducible refine kernStep_kept ?_ _ (fun k hk => ?_))
    | (simpa only [kern1, kern2, kern3, kernRed, kernLd, kernLdc, kernIdx, kernSt, kernPut, listSet_length] using hk)
    | (with_reducible apply foldl_kept <;> intros) | (split) | (dsimp only))

theorem execAbs_kept {s0 s : State} (h : Kept s0 s) (d : BitVec 6) (a : BitVec 6) : KeptOut s0 (execAbs d a s) := by
  unfold execAbs
  repeat' (first
    | (with_reducible assumption) | (with_reducible apply next_kept) | (with_reducible apply iteOut_kept) | (with_reducible apply ite_kept)
    | (with_reducible refine kernStep_kept ?_ _ (fun k hk => ?_))
    | (simpa only [kern1, kern2, kern3, kernRed, kernLd, kernLdc, kernIdx, kernSt, kernPut, listSet_length] using hk)
    | (with_reducible apply foldl_kept <;> intros) | (split) | (dsimp only))
  all_goals (try with_reducible refine mk_kept ?_ rfl rfl rfl rfl (by first | exact id | exact fun _ => rfl))
  repeat' (first
    | (with_reducible assumption) | (with_reducible apply next_kept) | (with_reducible apply iteOut_kept) | (with_reducible apply ite_kept)
    | (with_reducible refine kernStep_kept ?_ _ (fun k hk => ?_))
    | (simpa only [kern1, kern2, kern3, kernRed, kernLd, kernLdc, kernIdx, kernSt, kernPut, listSet_length] using hk)
    | (with_reducible apply foldl_kept <;> intros) | (split) | (dsimp only))

theorem execMin_kept {s0 s : State} (h : Kept s0 s) (d : BitVec 6) (a : BitVec 6) (b : BitVec 6) : KeptOut s0 (execMin d a b s) := by
  unfold execMin
  repeat' (first
    | (with_reducible assumption) | (with_reducible apply next_kept) | (with_reducible apply iteOut_kept) | (with_reducible apply ite_kept)
    | (with_reducible refine kernStep_kept ?_ _ (fun k hk => ?_))
    | (simpa only [kern1, kern2, kern3, kernRed, kernLd, kernLdc, kernIdx, kernSt, kernPut, listSet_length] using hk)
    | (with_reducible apply foldl_kept <;> intros) | (split) | (dsimp only))
  all_goals (try with_reducible refine mk_kept ?_ rfl rfl rfl rfl (by first | exact id | exact fun _ => rfl))
  repeat' (first
    | (with_reducible assumption) | (with_reducible apply next_kept) | (with_reducible apply iteOut_kept) | (with_reducible apply ite_kept)
    | (with_reducible refine kernStep_kept ?_ _ (fun k hk => ?_))
    | (simpa only [kern1, kern2, kern3, kernRed, kernLd, kernLdc, kernIdx, kernSt, kernPut, listSet_length] using hk)
    | (with_reducible apply foldl_kept <;> intros) | (split) | (dsimp only))

theorem execMax_kept {s0 s : State} (h : Kept s0 s) (d : BitVec 6) (a : BitVec 6) (b : BitVec 6) : KeptOut s0 (execMax d a b s) := by
  unfold execMax
  repeat' (first
    | (with_reducible assumption) | (with_reducible apply next_kept) | (with_reducible apply iteOut_kept) | (with_reducible apply ite_kept)
    | (with_reducible refine kernStep_kept ?_ _ (fun k hk => ?_))
    | (simpa only [kern1, kern2, kern3, kernRed, kernLd, kernLdc, kernIdx, kernSt, kernPut, listSet_length] using hk)
    | (with_reducible apply foldl_kept <;> intros) | (split) | (dsimp only))
  all_goals (try with_reducible refine mk_kept ?_ rfl rfl rfl rfl (by first | exact id | exact fun _ => rfl))
  repeat' (first
    | (with_reducible assumption) | (with_reducible apply next_kept) | (with_reducible apply iteOut_kept) | (with_reducible apply ite_kept)
    | (with_reducible refine kernStep_kept ?_ _ (fun k hk => ?_))
    | (simpa only [kern1, kern2, kern3, kernRed, kernLd, kernLdc, kernIdx, kernSt, kernPut, listSet_length] using hk)
    | (with_reducible apply foldl_kept <;> intros) | (split) | (dsimp only))

theorem execLt_kept {s0 s : State} (h : Kept s0 s) (d : BitVec 6) (a : BitVec 6) (b : BitVec 6) : KeptOut s0 (execLt d a b s) := by
  unfold execLt
  repeat' (first
    | (with_reducible assumption) | (with_reducible apply next_kept) | (with_reducible apply iteOut_kept) | (with_reducible apply ite_kept)
    | (with_reducible refine kernStep_kept ?_ _ (fun k hk => ?_))
    | (simpa only [kern1, kern2, kern3, kernRed, kernLd, kernLdc, kernIdx, kernSt, kernPut, listSet_length] using hk)
    | (with_reducible apply foldl_kept <;> intros) | (split) | (dsimp only))
  all_goals (try with_reducible refine mk_kept ?_ rfl rfl rfl rfl (by first | exact id | exact fun _ => rfl))
  repeat' (first
    | (with_reducible assumption) | (with_reducible apply next_kept) | (with_reducible apply iteOut_kept) | (with_reducible apply ite_kept)
    | (with_reducible refine kernStep_kept ?_ _ (fun k hk => ?_))
    | (simpa only [kern1, kern2, kern3, kernRed, kernLd, kernLdc, kernIdx, kernSt, kernPut, listSet_length] using hk)
    | (with_reducible apply foldl_kept <;> intros) | (split) | (dsimp only))

theorem execLe_kept {s0 s : State} (h : Kept s0 s) (d : BitVec 6) (a : BitVec 6) (b : BitVec 6) : KeptOut s0 (execLe d a b s) := by
  unfold execLe
  repeat' (first
    | (with_reducible assumption) | (with_reducible apply next_kept) | (with_reducible apply iteOut_kept) | (with_reducible apply ite_kept)
    | (with_reducible refine kernStep_kept ?_ _ (fun k hk => ?_))
    | (simpa only [kern1, kern2, kern3, kernRed, kernLd, kernLdc, kernIdx, kernSt, kernPut, listSet_length] using hk)
    | (with_reducible apply foldl_kept <;> intros) | (split) | (dsimp only))
  all_goals (try with_reducible refine mk_kept ?_ rfl rfl rfl rfl (by first | exact id | exact fun _ => rfl))
  repeat' (first
    | (with_reducible assumption) | (with_reducible apply next_kept) | (with_reducible apply iteOut_kept) | (with_reducible apply ite_kept)
    | (with_reducible refine kernStep_kept ?_ _ (fun k hk => ?_))
    | (simpa only [kern1, kern2, kern3, kernRed, kernLd, kernLdc, kernIdx, kernSt, kernPut, listSet_length] using hk)
    | (with_reducible apply foldl_kept <;> intros) | (split) | (dsimp only))

theorem execEq_kept {s0 s : State} (h : Kept s0 s) (d : BitVec 6) (a : BitVec 6) (b : BitVec 6) : KeptOut s0 (execEq d a b s) := by
  unfold execEq
  repeat' (first
    | (with_reducible assumption) | (with_reducible apply next_kept) | (with_reducible apply iteOut_kept) | (with_reducible apply ite_kept)
    | (with_reducible refine kernStep_kept ?_ _ (fun k hk => ?_))
    | (simpa only [kern1, kern2, kern3, kernRed, kernLd, kernLdc, kernIdx, kernSt, kernPut, listSet_length] using hk)
    | (with_reducible apply foldl_kept <;> intros) | (split) | (dsimp only))
  all_goals (try with_reducible refine mk_kept ?_ rfl rfl rfl rfl (by first | exact id | exact fun _ => rfl))
  repeat' (first
    | (with_reducible assumption) | (with_reducible apply next_kept) | (with_reducible apply iteOut_kept) | (with_reducible apply ite_kept)
    | (with_reducible refine kernStep_kept ?_ _ (fun k hk => ?_))
    | (simpa only [kern1, kern2, kern3, kernRed, kernLd, kernLdc, kernIdx, kernSt, kernPut, listSet_length] using hk)
    | (with_reducible apply foldl_kept <;> intros) | (split) | (dsimp only))

theorem execSel_kept {s0 s : State} (h : Kept s0 s) (d : BitVec 6) (a : BitVec 6) (b : BitVec 6) (c : BitVec 6) : KeptOut s0 (execSel d a b c s) := by
  unfold execSel
  repeat' (first
    | (with_reducible assumption) | (with_reducible apply next_kept) | (with_reducible apply iteOut_kept) | (with_reducible apply ite_kept)
    | (with_reducible refine kernStep_kept ?_ _ (fun k hk => ?_))
    | (simpa only [kern1, kern2, kern3, kernRed, kernLd, kernLdc, kernIdx, kernSt, kernPut, listSet_length] using hk)
    | (with_reducible apply foldl_kept <;> intros) | (split) | (dsimp only))
  all_goals (try with_reducible refine mk_kept ?_ rfl rfl rfl rfl (by first | exact id | exact fun _ => rfl))
  repeat' (first
    | (with_reducible assumption) | (with_reducible apply next_kept) | (with_reducible apply iteOut_kept) | (with_reducible apply ite_kept)
    | (with_reducible refine kernStep_kept ?_ _ (fun k hk => ?_))
    | (simpa only [kern1, kern2, kern3, kernRed, kernLd, kernLdc, kernIdx, kernSt, kernPut, listSet_length] using hk)
    | (with_reducible apply foldl_kept <;> intros) | (split) | (dsimp only))

theorem execCvtbf_kept {s0 s : State} (h : Kept s0 s) (d : BitVec 6) (a : BitVec 6) : KeptOut s0 (execCvtbf d a s) := by
  unfold execCvtbf
  repeat' (first
    | (with_reducible assumption) | (with_reducible apply next_kept) | (with_reducible apply iteOut_kept) | (with_reducible apply ite_kept)
    | (with_reducible refine kernStep_kept ?_ _ (fun k hk => ?_))
    | (simpa only [kern1, kern2, kern3, kernRed, kernLd, kernLdc, kernIdx, kernSt, kernPut, listSet_length] using hk)
    | (with_reducible apply foldl_kept <;> intros) | (split) | (dsimp only))
  all_goals (try with_reducible refine mk_kept ?_ rfl rfl rfl rfl (by first | exact id | exact fun _ => rfl))
  repeat' (first
    | (with_reducible assumption) | (with_reducible apply next_kept) | (with_reducible apply iteOut_kept) | (with_reducible apply ite_kept)
    | (with_reducible refine kernStep_kept ?_ _ (fun k hk => ?_))
    | (simpa only [kern1, kern2, kern3, kernRed, kernLd, kernLdc, kernIdx, kernSt, kernPut, listSet_length] using hk)
    | (with_reducible apply foldl_kept <;> intros) | (split) | (dsimp only))

theorem execLd_kept {s0 s : State} (h : Kept s0 s) (d : BitVec 6) (a : BitVec 6) : KeptOut s0 (execLd d a s) := by
  unfold execLd
  repeat' (first
    | (with_reducible assumption) | (with_reducible apply next_kept) | (with_reducible apply iteOut_kept) | (with_reducible apply ite_kept)
    | (with_reducible refine kernStep_kept ?_ _ (fun k hk => ?_))
    | (simpa only [kern1, kern2, kern3, kernRed, kernLd, kernLdc, kernIdx, kernSt, kernPut, listSet_length] using hk)
    | (with_reducible apply foldl_kept <;> intros) | (split) | (dsimp only))
  all_goals (try with_reducible refine mk_kept ?_ rfl rfl rfl rfl (by first | exact id | exact fun _ => rfl))
  repeat' (first
    | (with_reducible assumption) | (with_reducible apply next_kept) | (with_reducible apply iteOut_kept) | (with_reducible apply ite_kept)
    | (with_reducible refine kernStep_kept ?_ _ (fun k hk => ?_))
    | (simpa only [kern1, kern2, kern3, kernRed, kernLd, kernLdc, kernIdx, kernSt, kernPut, listSet_length] using hk)
    | (with_reducible apply foldl_kept <;> intros) | (split) | (dsimp only))

theorem execLdc_kept {s0 s : State} (h : Kept s0 s) (d : BitVec 6) (n : BitVec 8) : KeptOut s0 (execLdc d n s) := by
  unfold execLdc
  repeat' (first
    | (with_reducible assumption) | (with_reducible apply next_kept) | (with_reducible apply iteOut_kept) | (with_reducible apply ite_kept)
    | (with_reducible refine kernStep_kept ?_ _ (fun k hk => ?_))
    | (simpa only [kern1, kern2, kern3, kernRed, kernLd, kernLdc, kernIdx, kernSt, kernPut, listSet_length] using hk)
    | (with_reducible apply foldl_kept <;> intros) | (split) | (dsimp only))
  all_goals (try with_reducible refine mk_kept ?_ rfl rfl rfl rfl (by first | exact id | exact fun _ => rfl))
  repeat' (first
    | (with_reducible assumption) | (with_reducible apply next_kept) | (with_reducible apply iteOut_kept) | (with_reducible apply ite_kept)
    | (with_reducible refine kernStep_kept ?_ _ (fun k hk => ?_))
    | (simpa only [kern1, kern2, kern3, kernRed, kernLd, kernLdc, kernIdx, kernSt, kernPut, listSet_length] using hk)
    | (with_reducible apply foldl_kept <;> intros) | (split) | (dsimp only))

theorem execIdx_kept {s0 s : State} (h : Kept s0 s) (d : BitVec 6) : KeptOut s0 (execIdx d s) := by
  unfold execIdx
  repeat' (first
    | (with_reducible assumption) | (with_reducible apply next_kept) | (with_reducible apply iteOut_kept) | (with_reducible apply ite_kept)
    | (with_reducible refine kernStep_kept ?_ _ (fun k hk => ?_))
    | (simpa only [kern1, kern2, kern3, kernRed, kernLd, kernLdc, kernIdx, kernSt, kernPut, listSet_length] using hk)
    | (with_reducible apply foldl_kept <;> intros) | (split) | (dsimp only))
  all_goals (try with_reducible refine mk_kept ?_ rfl rfl rfl rfl (by first | exact id | exact fun _ => rfl))
  repeat' (first
    | (with_reducible assumption) | (with_reducible apply next_kept) | (with_reducible apply iteOut_kept) | (with_reducible apply ite_kept)
    | (with_reducible refine kernStep_kept ?_ _ (fun k hk => ?_))
    | (simpa only [kern1, kern2, kern3, kernRed, kernLd, kernLdc, kernIdx, kernSt, kernPut, listSet_length] using hk)
    | (with_reducible apply foldl_kept <;> intros) | (split) | (dsimp only))

theorem execSt_kept {s0 s : State} (h : Kept s0 s) (a : BitVec 6) : KeptOut s0 (execSt a s) := by
  unfold execSt
  repeat' (first
    | (with_reducible assumption) | (with_reducible apply next_kept) | (with_reducible apply iteOut_kept) | (with_reducible apply ite_kept)
    | (with_reducible refine kernStep_kept ?_ _ (fun k hk => ?_))
    | (simpa only [kern1, kern2, kern3, kernRed, kernLd, kernLdc, kernIdx, kernSt, kernPut, listSet_length] using hk)
    | (with_reducible apply foldl_kept <;> intros) | (split) | (dsimp only))
  all_goals (try with_reducible refine mk_kept ?_ rfl rfl rfl rfl (by first | exact id | exact fun _ => rfl))
  repeat' (first
    | (with_reducible assumption) | (with_reducible apply next_kept) | (with_reducible apply iteOut_kept) | (with_reducible apply ite_kept)
    | (with_reducible refine kernStep_kept ?_ _ (fun k hk => ?_))
    | (simpa only [kern1, kern2, kern3, kernRed, kernLd, kernLdc, kernIdx, kernSt, kernPut, listSet_length] using hk)
    | (with_reducible apply foldl_kept <;> intros) | (split) | (dsimp only))

theorem execRsum_kept {s0 s : State} (h : Kept s0 s) (d : BitVec 6) (a : BitVec 6) : KeptOut s0 (execRsum d a s) := by
  unfold execRsum
  repeat' (first
    | (with_reducible assumption) | (with_reducible apply next_kept) | (with_reducible apply iteOut_kept) | (with_reducible apply ite_kept)
    | (with_reducible refine kernStep_kept ?_ _ (fun k hk => ?_))
    | (simpa only [kern1, kern2, kern3, kernRed, kernLd, kernLdc, kernIdx, kernSt, kernPut, listSet_length] using hk)
    | (with_reducible apply foldl_kept <;> intros) | (split) | (dsimp only))
  all_goals (try with_reducible refine mk_kept ?_ rfl rfl rfl rfl (by first | exact id | exact fun _ => rfl))
  repeat' (first
    | (with_reducible assumption) | (with_reducible apply next_kept) | (with_reducible apply iteOut_kept) | (with_reducible apply ite_kept)
    | (with_reducible refine kernStep_kept ?_ _ (fun k hk => ?_))
    | (simpa only [kern1, kern2, kern3, kernRed, kernLd, kernLdc, kernIdx, kernSt, kernPut, listSet_length] using hk)
    | (with_reducible apply foldl_kept <;> intros) | (split) | (dsimp only))

theorem execRmax_kept {s0 s : State} (h : Kept s0 s) (d : BitVec 6) (a : BitVec 6) : KeptOut s0 (execRmax d a s) := by
  unfold execRmax
  repeat' (first
    | (with_reducible assumption) | (with_reducible apply next_kept) | (with_reducible apply iteOut_kept) | (with_reducible apply ite_kept)
    | (with_reducible refine kernStep_kept ?_ _ (fun k hk => ?_))
    | (simpa only [kern1, kern2, kern3, kernRed, kernLd, kernLdc, kernIdx, kernSt, kernPut, listSet_length] using hk)
    | (with_reducible apply foldl_kept <;> intros) | (split) | (dsimp only))
  all_goals (try with_reducible refine mk_kept ?_ rfl rfl rfl rfl (by first | exact id | exact fun _ => rfl))
  repeat' (first
    | (with_reducible assumption) | (with_reducible apply next_kept) | (with_reducible apply iteOut_kept) | (with_reducible apply ite_kept)
    | (with_reducible refine kernStep_kept ?_ _ (fun k hk => ?_))
    | (simpa only [kern1, kern2, kern3, kernRed, kernLd, kernLdc, kernIdx, kernSt, kernPut, listSet_length] using hk)
    | (with_reducible apply foldl_kept <;> intros) | (split) | (dsimp only))

theorem execRmin_kept {s0 s : State} (h : Kept s0 s) (d : BitVec 6) (a : BitVec 6) : KeptOut s0 (execRmin d a s) := by
  unfold execRmin
  repeat' (first
    | (with_reducible assumption) | (with_reducible apply next_kept) | (with_reducible apply iteOut_kept) | (with_reducible apply ite_kept)
    | (with_reducible refine kernStep_kept ?_ _ (fun k hk => ?_))
    | (simpa only [kern1, kern2, kern3, kernRed, kernLd, kernLdc, kernIdx, kernSt, kernPut, listSet_length] using hk)
    | (with_reducible apply foldl_kept <;> intros) | (split) | (dsimp only))
  all_goals (try with_reducible refine mk_kept ?_ rfl rfl rfl rfl (by first | exact id | exact fun _ => rfl))
  repeat' (first
    | (with_reducible assumption) | (with_reducible apply next_kept) | (with_reducible apply iteOut_kept) | (with_reducible apply ite_kept)
    | (with_reducible refine kernStep_kept ?_ _ (fun k hk => ?_))
    | (simpa only [kern1, kern2, kern3, kernRed, kernLd, kernLdc, kernIdx, kernSt, kernPut, listSet_length] using hk)
    | (with_reducible apply foldl_kept <;> intros) | (split) | (dsimp only))

end Sys2Proof.Machine
end

