-- ==== Sys2Proof/Laws/KeptBase.lean ====
section
/-!
SUPPORT. Every function of the state keeps the queue and the invariant: recovery, dies, the base and the memory tiers.
-/
set_option Elab.async false
set_option linter.all false
namespace Sys2Proof.Machine
open Sys2Proof

theorem setPd_kept {s0 s : State} (h : Kept s0 s) (p : Nat) (x : PdState) : Kept s0 (setPd s p x) := by
  unfold setPd
  iterate 3
    repeat' (first
      | (with_reducible assumption) | (with_reducible apply ite_kept) | (with_reducible apply foldl_kept <;> intros) | (split) | (dsimp only))
    all_goals (try with_reducible refine mk_kept ?_ rfl (by first | rfl | simp) (by first | rfl | simp) rfl (by first | exact id | exact fun _ => rfl))

theorem powerOff_kept {s0 s : State} (h : Kept s0 s) (p : Nat) : Kept s0 (powerOff s p) := by
  unfold powerOff
  iterate 3
    repeat' (first
      | (with_reducible assumption) | (with_reducible apply ite_kept) | (with_reducible apply setPd_kept)
      | (with_reducible apply foldl_kept <;> intros) | (split) | (dsimp only))
    all_goals (try with_reducible refine mk_kept ?_ rfl (by first | rfl | simp) (by first | rfl | simp) rfl (by first | exact id | exact fun _ => rfl))

theorem capLost_kept {s0 s : State} (h : Kept s0 s) (kind : Nat) (n : Nat) : Kept s0 (capLost s kind n) := by
  unfold capLost
  iterate 3
    repeat' (first
      | (with_reducible assumption) | (with_reducible apply ite_kept) | (with_reducible apply powerOff_kept) | (with_reducible apply setCap_kept)
      | (with_reducible apply foldl_kept <;> intros) | (split) | (dsimp only))
    all_goals (try with_reducible refine mk_kept ?_ rfl (by first | rfl | simp) (by first | rfl | simp) rfl (by first | exact id | exact fun _ => rfl))

theorem dropFlights_kept {s0 s : State} (h : Kept s0 s) (n : Nat) : Kept s0 (dropFlights s n) := by
  unfold dropFlights
  iterate 3
    repeat' (first
      | (with_reducible assumption) | (with_reducible apply ite_kept) | (with_reducible apply modStack_kept)
      | (with_reducible apply foldl_kept <;> intros) | (split) | (dsimp only))
    all_goals (try with_reducible refine mk_kept ?_ rfl (by first | rfl | simp) (by first | rfl | simp) rfl (by first | exact id | exact fun _ => rfl))

theorem dropResident_kept {s0 s : State} (h : Kept s0 s) (u : Nat) : Kept s0 (dropResident s u) := by
  unfold dropResident
  iterate 3
    repeat' (first
      | (with_reducible assumption) | (with_reducible apply ite_kept) | (with_reducible apply updUnits_kept)
      | (with_reducible apply foldl_kept <;> intros) | (split) | (dsimp only))
    all_goals (try with_reducible refine mk_kept ?_ rfl (by first | rfl | simp) (by first | rfl | simp) rfl (by first | exact id | exact fun _ => rfl))

theorem abortAttempt_kept {s0 s : State} (h : Kept s0 s) (d : Nat) : Kept s0 (abortAttempt s d) := by
  unfold abortAttempt
  iterate 3
    repeat' (first
      | (with_reducible assumption) | (with_reducible apply ite_kept) | (with_reducible apply modDom_kept) | (with_reducible apply addStall_kept)
      | (with_reducible apply foldl_kept <;> intros) | (split) | (dsimp only))
    all_goals (try with_reducible refine mk_kept ?_ rfl (by first | rfl | simp) (by first | rfl | simp) rfl (by first | exact id | exact fun _ => rfl))

theorem yieldDomain_kept {s0 s : State} (h : Kept s0 s) (d : Nat) (stop : Nat) : Kept s0 (yieldDomain s d stop) := by
  unfold yieldDomain
  iterate 3
    repeat' (first
      | (with_reducible assumption) | (with_reducible apply ite_kept) | (with_reducible apply yielded_kept)
      | (with_reducible apply foldl_kept <;> intros) | (split) | (dsimp only))
    all_goals (try with_reducible refine mk_kept ?_ rfl (by first | rfl | simp) (by first | rfl | simp) rfl (by first | exact id | exact fun _ => rfl))

theorem changeTiling_kept {s0 s : State} (h : Kept s0 s) (d : Nat) (u : Nat) : Kept s0 (changeTiling s d u) := by
  unfold changeTiling
  iterate 3
    repeat' (first
      | (with_reducible assumption) | (with_reducible apply ite_kept) | (with_reducible apply modDom_kept) | (with_reducible apply abortAttempt_kept)
      | (with_reducible apply yieldDomain_kept) | (with_reducible apply foldl_kept <;> intros) | (split) | (dsimp only))
    all_goals (try with_reducible refine mk_kept ?_ rfl (by first | rfl | simp) (by first | rfl | simp) rfl (by first | exact id | exact fun _ => rfl))

theorem failDomain_kept {s0 s : State} (h : Kept s0 s) (d : Nat) : Kept s0 (failDomain s d) := by
  unfold failDomain
  iterate 3
    repeat' (first
      | (with_reducible assumption) | (with_reducible apply ite_kept) | (with_reducible apply modDom_kept) | (with_reducible apply finishDisable_kept)
      | (with_reducible apply settle_kept) | (with_reducible apply modCtx_kept) | (with_reducible apply foldl_kept <;> intros) | (split)
      | (dsimp only))
    all_goals (try with_reducible refine mk_kept ?_ rfl (by first | rfl | simp) (by first | rfl | simp) rfl (by first | exact id | exact fun _ => rfl))

theorem noticeDomain_kept {s0 s : State} (h : Kept s0 s) (d : Nat) (cls : Nat) : Kept s0 (noticeDomain s d cls) := by
  unfold noticeDomain
  iterate 3
    repeat' (first
      | (with_reducible assumption) | (with_reducible apply ite_kept) | (with_reducible apply event_kept) | (with_reducible apply faultNotice_kept)
      | (with_reducible apply foldl_kept <;> intros) | (split) | (dsimp only))
    all_goals (try with_reducible refine mk_kept ?_ rfl (by first | rfl | simp) (by first | rfl | simp) rfl (by first | exact id | exact fun _ => rfl))

theorem loseLower_kept {s0 s : State} (h : Kept s0 s) (n : Nat) (cls : Nat) (cause : Nat) (injected : Bool) :
    Kept s0 (loseLower s n cls cause injected) := by
  unfold loseLower
  iterate 3
    repeat' (first
      | (with_reducible assumption) | (with_reducible apply ite_kept) | (with_reducible apply capLost_kept) | (with_reducible apply dropFlights_kept)
      | (with_reducible apply dropResident_kept) | (with_reducible apply modDie_kept) | (with_reducible apply fault_kept)
      | (with_reducible apply changeTiling_kept) | (with_reducible apply failDomain_kept) | (with_reducible apply noticeDomain_kept)
      | (with_reducible apply foldl_kept <;> intros) | (split) | (dsimp only))
    all_goals (try with_reducible refine mk_kept ?_ rfl (by first | rfl | simp) (by first | rfl | simp) rfl (by first | exact id | exact fun _ => rfl))

theorem requeueGroup_kept {s0 s : State} (h : Kept s0 s) (g : Nat) : Kept s0 (requeueGroup s g) := by
  unfold requeueGroup
  iterate 3
    repeat' (first
      | (with_reducible assumption) | (with_reducible apply ite_kept) | (with_reducible apply modBank_kept) | (with_reducible apply requeue_kept)
      | (with_reducible apply foldl_kept <;> intros) | (split) | (dsimp only))
    all_goals (try with_reducible refine mk_kept ?_ rfl (by first | rfl | simp) (by first | rfl | simp) rfl (by first | exact id | exact fun _ => rfl))

theorem loseReservoir_kept {s0 s : State} (h : Kept s0 s) (r : Nat) (cls : Nat) (cause : Nat) (injected : Bool) :
    Kept s0 (loseReservoir s r cls cause injected) := by
  unfold loseReservoir
  iterate 3
    repeat' (first
      | (with_reducible assumption) | (with_reducible apply ite_kept) | (with_reducible apply loseCopies_kept) | (with_reducible apply capLost_kept)
      | (with_reducible apply requeueGroup_kept) | (with_reducible apply modDie_kept) | (with_reducible apply loseContents_kept)
      | (with_reducible apply abortAttempt_kept) | (with_reducible apply fault_kept) | (with_reducible apply noticeDomain_kept)
      | (with_reducible apply foldl_kept <;> intros) | (split) | (dsimp only))
    all_goals (try with_reducible refine mk_kept ?_ rfl (by first | rfl | simp) (by first | rfl | simp) rfl (by first | exact id | exact fun _ => rfl))

theorem markRows_kept {s0 s : State} (h : Kept s0 s) (c : Nat) (st : Nat) : Kept s0 (markRows s c st) := by
  unfold markRows
  iterate 3
    repeat' (first
      | (with_reducible assumption) | (with_reducible apply ite_kept) | (with_reducible apply foldl_kept <;> intros) | (split) | (dsimp only))
    all_goals (try with_reducible refine mk_kept ?_ rfl (by first | rfl | simp) (by first | rfl | simp) rfl (by first | exact id | exact fun _ => rfl))

theorem failInst_kept {s0 s : State} (h : Kept s0 s) (cls : Nat) (h : Nat) : Kept s0 (failInst s cls h) := by
  unfold failInst
  iterate 3
    repeat' (first
      | (with_reducible assumption) | (with_reducible apply ite_kept) | (with_reducible apply markRows_kept) | (with_reducible apply faultNotice_kept)
      | (with_reducible apply event_kept) | (with_reducible apply foldl_kept <;> intros) | (split) | (dsimp only))
    all_goals (try with_reducible refine mk_kept ?_ rfl (by first | rfl | simp) (by first | rfl | simp) rfl (by first | exact id | exact fun _ => rfl))

theorem loseWeight_kept {s0 s : State} (h : Kept s0 s) (cls : Nat) (u : PUnit) : Kept s0 (loseWeight cls s u) := by
  unfold loseWeight
  iterate 3
    repeat' (first
      | (with_reducible assumption) | (with_reducible apply ite_kept) | (with_reducible apply updUnits_kept) | (with_reducible apply failInst_kept)
      | (with_reducible apply foldl_kept <;> intros) | (split) | (dsimp only))
    all_goals (try with_reducible refine mk_kept ?_ rfl (by first | rfl | simp) (by first | rfl | simp) rfl (by first | exact id | exact fun _ => rfl))

theorem failRequest_kept {s0 s : State} (h : Kept s0 s) (c : Nat) : Kept s0 (failRequest s c) := by
  unfold failRequest
  iterate 3
    repeat' (first
      | (with_reducible assumption) | (with_reducible apply ite_kept) | (with_reducible apply markRows_kept) | (with_reducible apply settle_kept)
      | (with_reducible apply modCtx_kept) | (with_reducible apply foldl_kept <;> intros) | (split) | (dsimp only))
    all_goals (try with_reducible refine mk_kept ?_ rfl (by first | rfl | simp) (by first | rfl | simp) rfl (by first | exact id | exact fun _ => rfl))

theorem loseUpper_kept {s0 s : State} (h : Kept s0 s) (n : Nat) (cls : Nat) (cause : Nat) (injected : Bool) :
    Kept s0 (loseUpper s n cls cause injected) := by
  unfold loseUpper
  iterate 3
    repeat' (first
      | (with_reducible assumption) | (with_reducible apply ite_kept) | (with_reducible apply powerOff_kept)
      | (with_reducible apply dropResident_kept) | (with_reducible apply modDie_kept) | (with_reducible apply capLost_kept)
      | (with_reducible apply dropFlights_kept) | (with_reducible apply fault_kept) | (with_reducible apply noticeDomain_kept)
      | (with_reducible apply changeTiling_kept) | (with_reducible apply foldl_kept <;> intros) | (split) | (dsimp only))
    all_goals (try with_reducible refine mk_kept ?_ rfl (by first | rfl | simp) (by first | rfl | simp) rfl (by first | exact id | exact fun _ => rfl))

theorem powerOn_kept {s0 s : State} (h : Kept s0 s) (p : Nat) : Kept s0 (powerOn s p) := by
  unfold powerOn
  iterate 3
    repeat' (first
      | (with_reducible assumption) | (with_reducible apply ite_kept) | (with_reducible apply setPd_kept)
      | (with_reducible apply foldl_kept <;> intros) | (split) | (dsimp only))
    all_goals (try with_reducible refine mk_kept ?_ rfl (by first | rfl | simp) (by first | rfl | simp) rfl (by first | exact id | exact fun _ => rfl))

theorem loseTile_kept {s0 s : State} (h : Kept s0 s) (tile : Nat) (injected : Bool) : Kept s0 (loseTile s tile injected) := by
  unfold loseTile
  iterate 3
    repeat' (first
      | (with_reducible assumption) | (with_reducible apply ite_kept) | (with_reducible apply updUnits_kept) | (with_reducible apply modStack_kept)
      | (with_reducible apply fault_kept) | (with_reducible apply changeTiling_kept) | (with_reducible apply foldl_kept <;> intros) | (split)
      | (dsimp only))
    all_goals (try with_reducible refine mk_kept ?_ rfl (by first | rfl | simp) (by first | rfl | simp) rfl (by first | exact id | exact fun _ => rfl))

theorem transientFault_kept {s0 s : State} (h : Kept s0 s) (d : Nat) (unit : Nat) (cause : Nat) (addr : Nat) (injected : Bool) :
    Kept s0 (transientFault s d unit cause addr injected) := by
  unfold transientFault
  iterate 3
    repeat' (first
      | (with_reducible assumption) | (with_reducible apply ite_kept) | (with_reducible apply fault_kept) | (with_reducible apply abortAttempt_kept)
      | (with_reducible apply foldl_kept <;> intros) | (split) | (dsimp only))
    all_goals (try with_reducible refine mk_kept ?_ rfl (by first | rfl | simp) (by first | rfl | simp) rfl (by first | exact id | exact fun _ => rfl))

theorem reductionFault_kept {s0 s : State} (h : Kept s0 s) (tile : Nat) (injected : Bool) : Kept s0 (reductionFault s tile injected) := by
  unfold reductionFault
  iterate 3
    repeat' (first
      | (with_reducible assumption) | (with_reducible apply ite_kept) | (with_reducible apply bump_kept) | (with_reducible apply modStack_kept)
      | (with_reducible apply loseTile_kept) | (with_reducible apply transientFault_kept) | (with_reducible apply fault_kept)
      | (with_reducible apply foldl_kept <;> intros) | (split) | (dsimp only))
    all_goals (try with_reducible refine mk_kept ?_ rfl (by first | rfl | simp) (by first | rfl | simp) rfl (by first | exact id | exact fun _ => rfl))

theorem installTilings_kept {s0 s : State} (h : Kept s0 s) (d : Nat) : Kept s0 (installTilings s d) := by
  unfold installTilings
  iterate 3
    repeat' (first
      | (with_reducible assumption) | (with_reducible apply ite_kept) | (with_reducible apply yieldDomain_kept) | (with_reducible apply modStack_kept)
      | (with_reducible apply startIfReady_kept) | (with_reducible apply retile_kept) | (with_reducible apply modDom_kept)
      | (with_reducible apply foldl_kept <;> intros) | (split) | (dsimp only))
    all_goals (try with_reducible refine mk_kept ?_ rfl (by first | rfl | simp) (by first | rfl | simp) rfl (by first | exact id | exact fun _ => rfl))

theorem execTilingsInstalled_kept {s0 s : State} (h : Kept s0 s) (d : BitVec 3) : KeptOut s0 (execTilingsInstalled d s) := by
  unfold execTilingsInstalled
  iterate 3
    repeat' (first
      | (with_reducible assumption) | (with_reducible apply next_kept) | (with_reducible apply iteOut_kept) | (with_reducible apply ite_kept)
      | (with_reducible apply modDom_kept) | (with_reducible apply installTilings_kept) | (with_reducible apply foldl_kept <;> intros) | (split)
      | (dsimp only))
    all_goals (try with_reducible refine mk_kept ?_ rfl (by first | rfl | simp) (by first | rfl | simp) rfl (by first | exact id | exact fun _ => rfl))

theorem dieOff_kept {s0 s : State} (h : Kept s0 s) (i : Nat) : Kept s0 (dieOff s i) := by
  unfold dieOff
  iterate 3
    repeat' (first
      | (with_reducible assumption) | (with_reducible apply ite_kept) | (with_reducible apply powerOff_kept) | (with_reducible apply modDie_kept)
      | (with_reducible apply loseContents_kept) | (with_reducible apply foldl_kept <;> intros) | (split) | (dsimp only))
    all_goals (try with_reducible refine mk_kept ?_ rfl (by first | rfl | simp) (by first | rfl | simp) rfl (by first | exact id | exact fun _ => rfl))

theorem markDieReset_kept {s0 s : State} (h : Kept s0 s) : Kept s0 (markDieReset s) := by
  unfold markDieReset
  iterate 3
    repeat' (first
      | (with_reducible assumption) | (with_reducible apply ite_kept) | (with_reducible apply raiseBit_kept)
      | (with_reducible apply foldl_kept <;> intros) | (split) | (dsimp only))
    all_goals (try with_reducible refine mk_kept ?_ rfl (by first | rfl | simp) (by first | rfl | simp) rfl (by first | exact id | exact fun _ => rfl))

theorem suspendPort_kept {s0 s : State} (h : Kept s0 s) (p : Nat) : Kept s0 (suspendPort s p) := by
  unfold suspendPort
  iterate 3
    repeat' (first
      | (with_reducible assumption) | (with_reducible apply ite_kept) | (with_reducible apply abortAttempt_kept) | (with_reducible apply modDie_kept)
      | (with_reducible apply foldl_kept <;> intros) | (split) | (dsimp only))
    all_goals (try with_reducible refine mk_kept ?_ rfl (by first | rfl | simp) (by first | rfl | simp) rfl (by first | exact id | exact fun _ => rfl))

theorem endMove_kept {s0 s : State} (h : Kept s0 s) (n : Nat) (dest : Option Nat) : Kept s0 (endMove s n dest) := by
  unfold endMove
  iterate 3
    repeat' (first
      | (with_reducible assumption) | (with_reducible apply ite_kept) | (with_reducible apply modStack_kept) | (with_reducible apply endCap_kept)
      | (with_reducible apply setCap_kept) | (with_reducible apply dieOff_kept) | (with_reducible apply foldl_kept <;> intros) | (split)
      | (dsimp only))
    all_goals (try with_reducible refine mk_kept ?_ rfl (by first | rfl | simp) (by first | rfl | simp) rfl (by first | exact id | exact fun _ => rfl))

theorem restStack_kept {s0 s : State} (h : Kept s0 s) (n : Nat) : Kept s0 (restStack s n) := by
  unfold restStack
  iterate 3
    repeat' (first
      | (with_reducible assumption) | (with_reducible apply ite_kept) | (with_reducible apply dieOff_kept)
      | (with_reducible apply foldl_kept <;> intros) | (split) | (dsimp only))
    all_goals (try with_reducible refine mk_kept ?_ rfl (by first | rfl | simp) (by first | rfl | simp) rfl (by first | exact id | exact fun _ => rfl))

theorem admitDie_kept {s0 s : State} (h : Kept s0 s) (i : Nat) : Kept s0 (admitDie s i) := by
  unfold admitDie
  iterate 3
    repeat' (first
      | (with_reducible assumption) | (with_reducible apply ite_kept) | (with_reducible apply modDie_kept) | (with_reducible apply modStack_kept)
      | (with_reducible apply endMove_kept) | (with_reducible apply setCap_kept) | (with_reducible apply endCap_kept)
      | (with_reducible apply restStack_kept) | (with_reducible apply foldl_kept <;> intros) | (split) | (dsimp only))
    all_goals (try with_reducible refine mk_kept ?_ rfl (by first | rfl | simp) (by first | rfl | simp) rfl (by first | exact id | exact fun _ => rfl))

theorem returnDies_kept {s0 s : State} (h : Kept s0 s) (d : Nat) : Kept s0 (returnDies s d) := by
  unfold returnDies
  iterate 3
    repeat' (first
      | (with_reducible assumption) | (with_reducible apply ite_kept) | (with_reducible apply admitDie_kept)
      | (with_reducible apply foldl_kept <;> intros) | (split) | (dsimp only))
    all_goals (try with_reducible refine mk_kept ?_ rfl (by first | rfl | simp) (by first | rfl | simp) rfl (by first | exact id | exact fun _ => rfl))

theorem failDie_kept {s0 s : State} (h : Kept s0 s) (i : Nat) : Kept s0 (failDie s i) := by
  unfold failDie
  iterate 3
    repeat' (first
      | (with_reducible assumption) | (with_reducible apply ite_kept) | (with_reducible apply endCap_kept) | (with_reducible apply setCap_kept)
      | (with_reducible apply dieOff_kept) | (with_reducible apply powerOff_kept) | (with_reducible apply modDie_kept)
      | (with_reducible apply fault_kept) | (with_reducible apply foldl_kept <;> intros) | (split) | (dsimp only))
    all_goals (try with_reducible refine mk_kept ?_ rfl (by first | rfl | simp) (by first | rfl | simp) rfl (by first | exact id | exact fun _ => rfl))

theorem testTiles_kept {s0 s : State} (h : Kept s0 s) (i : Nat) (tiles : List Nat) (links : List LinkTest) : Kept s0 (testTiles s i tiles links) := by
  unfold testTiles
  iterate 3
    repeat' (first
      | (with_reducible assumption) | (with_reducible apply ite_kept) | (with_reducible apply modStack_kept)
      | (with_reducible apply foldl_kept <;> intros) | (split) | (dsimp only))
    all_goals (try with_reducible refine mk_kept ?_ rfl (by first | rfl | simp) (by first | rfl | simp) rfl (by first | exact id | exact fun _ => rfl))

theorem modBase_kept {s0 s : State} (h : Kept s0 s) (f : Base → Base) : Kept s0 (modBase s f) := by
  unfold modBase
  iterate 3
    repeat' (first
      | (with_reducible assumption) | (with_reducible apply ite_kept) | (with_reducible apply foldl_kept <;> intros) | (split) | (dsimp only))
    all_goals (try with_reducible refine mk_kept ?_ rfl (by first | rfl | simp) (by first | rfl | simp) rfl (by first | exact id | exact fun _ => rfl))

theorem modLaser_kept {s0 s : State} (h : Kept s0 s) (k : Nat) (f : Laser → Laser) : Kept s0 (modLaser s k f) := by
  unfold modLaser
  iterate 3
    repeat' (first
      | (with_reducible assumption) | (with_reducible apply ite_kept) | (with_reducible apply modBase_kept)
      | (with_reducible apply foldl_kept <;> intros) | (split) | (dsimp only))
    all_goals (try with_reducible refine mk_kept ?_ rfl (by first | rfl | simp) (by first | rfl | simp) rfl (by first | exact id | exact fun _ => rfl))

theorem modChan_kept {s0 s : State} (h : Kept s0 s) (ch : Nat) (f : Channel → Channel) : Kept s0 (modChan s ch f) := by
  unfold modChan
  iterate 3
    repeat' (first
      | (with_reducible assumption) | (with_reducible apply ite_kept) | (with_reducible apply modBase_kept)
      | (with_reducible apply foldl_kept <;> intros) | (split) | (dsimp only))
    all_goals (try with_reducible refine mk_kept ?_ rfl (by first | rfl | simp) (by first | rfl | simp) rfl (by first | exact id | exact fun _ => rfl))

theorem modFlow_kept {s0 s : State} (h : Kept s0 s) (k : Nat) (f : Flow → Flow) : Kept s0 (modFlow s k f) := by
  unfold modFlow
  iterate 3
    repeat' (first
      | (with_reducible assumption) | (with_reducible apply ite_kept) | (with_reducible apply modBase_kept)
      | (with_reducible apply foldl_kept <;> intros) | (split) | (dsimp only))
    all_goals (try with_reducible refine mk_kept ?_ rfl (by first | rfl | simp) (by first | rfl | simp) rfl (by first | exact id | exact fun _ => rfl))

theorem askReplay_kept {s0 s : State} (h : Kept s0 s) (ch : Nat) : Kept s0 (askReplay s ch) := by
  unfold askReplay
  iterate 3
    repeat' (first
      | (with_reducible assumption) | (with_reducible apply ite_kept) | (with_reducible apply send_kept)
      | (with_reducible apply foldl_kept <;> intros) | (split) | (dsimp only))
    all_goals (try with_reducible refine mk_kept ?_ rfl (by first | rfl | simp) (by first | rfl | simp) rfl (by first | exact id | exact fun _ => rfl))

theorem ackFrames_kept {s0 s : State} (h : Kept s0 s) (ch : Nat) (rseq : Nat) : Kept s0 (ackFrames s ch rseq) := by
  unfold ackFrames
  iterate 3
    repeat' (first
      | (with_reducible assumption) | (with_reducible apply ite_kept) | (with_reducible apply modChan_kept)
      | (with_reducible apply foldl_kept <;> intros) | (split) | (dsimp only))
    all_goals (try with_reducible refine mk_kept ?_ rfl (by first | rfl | simp) (by first | rfl | simp) rfl (by first | exact id | exact fun _ => rfl))

theorem replayFrames_kept {s0 s : State} (h : Kept s0 s) (ch : Nat) (rseq : Nat) : Kept s0 (replayFrames s ch rseq) := by
  unfold replayFrames
  iterate 3
    repeat' (first
      | (with_reducible assumption) | (with_reducible apply ite_kept) | (with_reducible apply bump_kept) | (with_reducible apply send_kept)
      | (with_reducible apply foldl_kept <;> intros) | (split) | (dsimp only))
    all_goals (try with_reducible refine mk_kept ?_ rfl (by first | rfl | simp) (by first | rfl | simp) rfl (by first | exact id | exact fun _ => rfl))

theorem creditFlow_kept {s0 s : State} (h : Kept s0 s) (k : Nat) (n : Nat) : Kept s0 (creditFlow s k n) := by
  unfold creditFlow
  iterate 3
    repeat' (first
      | (with_reducible assumption) | (with_reducible apply ite_kept) | (with_reducible apply modFlow_kept)
      | (with_reducible apply foldl_kept <;> intros) | (split) | (dsimp only))
    all_goals (try with_reducible refine mk_kept ?_ rfl (by first | rfl | simp) (by first | rfl | simp) rfl (by first | exact id | exact fun _ => rfl))

theorem execFrameAck_kept {s0 s : State} (h : Kept s0 s) (ch : BitVec 23) (rseq : BitVec 8) : KeptOut s0 (execFrameAck ch rseq s) := by
  unfold execFrameAck
  iterate 3
    repeat' (first
      | (with_reducible assumption) | (with_reducible apply next_kept) | (with_reducible apply iteOut_kept) | (with_reducible apply ite_kept)
      | (with_reducible apply ackFrames_kept) | (with_reducible apply foldl_kept <;> intros) | (split) | (dsimp only))
    all_goals (try with_reducible refine mk_kept ?_ rfl (by first | rfl | simp) (by first | rfl | simp) rfl (by first | exact id | exact fun _ => rfl))

theorem execFrameNak_kept {s0 s : State} (h : Kept s0 s) (ch : BitVec 23) (rseq : BitVec 8) : KeptOut s0 (execFrameNak ch rseq s) := by
  unfold execFrameNak
  iterate 3
    repeat' (first
      | (with_reducible assumption) | (with_reducible apply next_kept) | (with_reducible apply iteOut_kept) | (with_reducible apply ite_kept)
      | (with_reducible apply replayFrames_kept) | (with_reducible apply foldl_kept <;> intros) | (split) | (dsimp only))
    all_goals (try with_reducible refine mk_kept ?_ rfl (by first | rfl | simp) (by first | rfl | simp) rfl (by first | exact id | exact fun _ => rfl))

theorem execFrameCredit_kept {s0 s : State} (h : Kept s0 s) (src : BitVec 5) (dst : BitVec 5) (red : Bool) (n : BitVec 12) :
    KeptOut s0 (execFrameCredit src dst red n s) := by
  unfold execFrameCredit
  iterate 3
    repeat' (first
      | (with_reducible assumption) | (with_reducible apply next_kept) | (with_reducible apply iteOut_kept) | (with_reducible apply ite_kept)
      | (with_reducible apply creditFlow_kept) | (with_reducible apply foldl_kept <;> intros) | (split) | (dsimp only))
    all_goals (try with_reducible refine mk_kept ?_ rfl (by first | rfl | simp) (by first | rfl | simp) rfl (by first | exact id | exact fun _ => rfl))

theorem controlEntry_kept {s0 s : State} (h : Kept s0 s) (ch : Nat) (e : Nat) : Kept s0 (controlEntry s ch e) := by
  unfold controlEntry
  iterate 3
    repeat' (first
      | (with_reducible assumption) | (with_reducible apply ite_kept) | (with_reducible apply ackFrames_kept) | (with_reducible apply creditFlow_kept)
      | (with_reducible apply replayFrames_kept) | (with_reducible apply foldl_kept <;> intros) | (split) | (dsimp only))
    all_goals (try with_reducible refine mk_kept ?_ rfl (by first | rfl | simp) (by first | rfl | simp) rfl (by first | exact id | exact fun _ => rfl))

theorem lightSeen_kept {s0 s : State} (h : Kept s0 s) (ch : Nat) : Kept s0 (lightSeen s ch) := by
  unfold lightSeen
  iterate 3
    repeat' (first
      | (with_reducible assumption) | (with_reducible apply ite_kept) | (with_reducible apply modLaser_kept)
      | (with_reducible apply foldl_kept <;> intros) | (split) | (dsimp only))
    all_goals (try with_reducible refine mk_kept ?_ rfl (by first | rfl | simp) (by first | rfl | simp) rfl (by first | exact id | exact fun _ => rfl))

theorem resend_kept {s0 s : State} (h : Kept s0 s) (k : Nat) (f : LinkFrame) : Kept s0 (resend s k f) := by
  unfold resend
  iterate 3
    repeat' (first
      | (with_reducible assumption) | (with_reducible apply ite_kept) | (with_reducible apply modFlow_kept) | (with_reducible apply send_kept)
      | (with_reducible apply modChan_kept) | (with_reducible apply foldl_kept <;> intros) | (split) | (dsimp only))
    all_goals (try with_reducible refine mk_kept ?_ rfl (by first | rfl | simp) (by first | rfl | simp) rfl (by first | exact id | exact fun _ => rfl))

theorem dropChannel_kept {s0 s : State} (h : Kept s0 s) (ch : Nat) : Kept s0 (dropChannel s ch) := by
  unfold dropChannel
  iterate 3
    repeat' (first
      | (with_reducible assumption) | (with_reducible apply ite_kept) | (with_reducible apply bump_kept) | (with_reducible apply modChan_kept)
      | (with_reducible apply resend_kept) | (with_reducible apply foldl_kept <;> intros) | (split) | (dsimp only))
    all_goals (try with_reducible refine mk_kept ?_ rfl (by first | rfl | simp) (by first | rfl | simp) rfl (by first | exact id | exact fun _ => rfl))

theorem resendHanded_kept {s0 s : State} (h : Kept s0 s) : Kept s0 (resendHanded s) := by
  unfold resendHanded
  iterate 3
    repeat' (first
      | (with_reducible assumption) | (with_reducible apply ite_kept) | (with_reducible apply resend_kept) | (with_reducible apply modFlow_kept)
      | (with_reducible apply foldl_kept <;> intros) | (split) | (dsimp only))
    all_goals (try with_reducible refine mk_kept ?_ rfl (by first | rfl | simp) (by first | rfl | simp) rfl (by first | exact id | exact fun _ => rfl))

theorem returnChannel_kept {s0 s : State} (h : Kept s0 s) (ch : Nat) : Kept s0 (returnChannel s ch) := by
  unfold returnChannel
  iterate 3
    repeat' (first
      | (with_reducible assumption) | (with_reducible apply ite_kept) | (with_reducible apply resendHanded_kept) | (with_reducible apply modChan_kept)
      | (with_reducible apply foldl_kept <;> intros) | (split) | (dsimp only))
    all_goals (try with_reducible refine mk_kept ?_ rfl (by first | rfl | simp) (by first | rfl | simp) rfl (by first | exact id | exact fun _ => rfl))

theorem loseChannel_kept {s0 s : State} (h : Kept s0 s) (ch : Nat) (injected : Bool) : Kept s0 (loseChannel s ch injected) := by
  unfold loseChannel
  iterate 3
    repeat' (first
      | (with_reducible assumption) | (with_reducible apply ite_kept) | (with_reducible apply fault_kept) | (with_reducible apply dropChannel_kept)
      | (with_reducible apply modChan_kept) | (with_reducible apply foldl_kept <;> intros) | (split) | (dsimp only))
    all_goals (try with_reducible refine mk_kept ?_ rfl (by first | rfl | simp) (by first | rfl | simp) rfl (by first | exact id | exact fun _ => rfl))

theorem execChannelLossOfSignal_kept {s0 s : State} (h : Kept s0 s) (ch : BitVec 23) : KeptOut s0 (execChannelLossOfSignal ch s) := by
  unfold execChannelLossOfSignal
  iterate 3
    repeat' (first
      | (with_reducible assumption) | (with_reducible apply next_kept) | (with_reducible apply iteOut_kept) | (with_reducible apply ite_kept)
      | (with_reducible apply loseChannel_kept) | (with_reducible apply foldl_kept <;> intros) | (split) | (dsimp only))
    all_goals (try with_reducible refine mk_kept ?_ rfl (by first | rfl | simp) (by first | rfl | simp) rfl (by first | exact id | exact fun _ => rfl))

theorem loseGroup_kept {s0 s : State} (h : Kept s0 s) (g : Nat) : Kept s0 (loseGroup s g) := by
  unfold loseGroup
  iterate 3
    repeat' (first
      | (with_reducible assumption) | (with_reducible apply ite_kept) | (with_reducible apply failBank_kept)
      | (with_reducible apply foldl_kept <;> intros) | (split) | (dsimp only))
    all_goals (try with_reducible refine mk_kept ?_ rfl (by first | rfl | simp) (by first | rfl | simp) rfl (by first | exact id | exact fun _ => rfl))

theorem installRemaps_kept {s0 s : State} (h : Kept s0 s) : Kept s0 (installRemaps s) := by
  unfold installRemaps
  iterate 3
    repeat' (first
      | (with_reducible assumption) | (with_reducible apply ite_kept) | (with_reducible apply modBase_kept) | (with_reducible apply resendHanded_kept)
      | (with_reducible apply foldl_kept <;> intros) | (split) | (dsimp only))
    all_goals (try with_reducible refine mk_kept ?_ rfl (by first | rfl | simp) (by first | rfl | simp) rfl (by first | exact id | exact fun _ => rfl))

theorem modSlot_kept {s0 s : State} (h : Kept s0 s) (k : Nat) (f : SteerSlot → SteerSlot) : Kept s0 (modSlot s k f) := by
  unfold modSlot
  iterate 3
    repeat' (first
      | (with_reducible assumption) | (with_reducible apply ite_kept) | (with_reducible apply modBase_kept)
      | (with_reducible apply foldl_kept <;> intros) | (split) | (dsimp only))
    all_goals (try with_reducible refine mk_kept ?_ rfl (by first | rfl | simp) (by first | rfl | simp) rfl (by first | exact id | exact fun _ => rfl))

theorem execSteerPendingWrite_kept {s0 s : State} (h : Kept s0 s) (ep : BitVec 5) (plane : BitVec 3) (slot : BitVec 5) (line : BitVec 6) (dest : BitVec 5) (d : BitVec 3) :
    KeptOut s0 (execSteerPendingWrite ep plane slot line dest d s) := by
  unfold execSteerPendingWrite
  iterate 3
    repeat' (first
      | (with_reducible assumption) | (with_reducible apply next_kept) | (with_reducible apply iteOut_kept) | (with_reducible apply ite_kept)
      | (with_reducible apply modBase_kept) | (with_reducible apply modSlot_kept) | (with_reducible apply foldl_kept <;> intros) | (split)
      | (dsimp only))
    all_goals (try with_reducible refine mk_kept ?_ rfl (by first | rfl | simp) (by first | rfl | simp) rfl (by first | exact id | exact fun _ => rfl))

theorem execSteerSlotRetune_kept {s0 s : State} (h : Kept s0 s) (ep : BitVec 5) (plane : BitVec 3) (slot : BitVec 5) :
    KeptOut s0 (execSteerSlotRetune ep plane slot s) := by
  unfold execSteerSlotRetune
  iterate 3
    repeat' (first
      | (with_reducible assumption) | (with_reducible apply next_kept) | (with_reducible apply iteOut_kept) | (with_reducible apply ite_kept)
      | (with_reducible apply modSlot_kept) | (with_reducible apply foldl_kept <;> intros) | (split) | (dsimp only))
    all_goals (try with_reducible refine mk_kept ?_ rfl (by first | rfl | simp) (by first | rfl | simp) rfl (by first | exact id | exact fun _ => rfl))

theorem execSteerSlotReady_kept {s0 s : State} (h : Kept s0 s) (ep : BitVec 5) (plane : BitVec 3) (slot : BitVec 5) (pass : Bool) :
    KeptOut s0 (execSteerSlotReady ep plane slot pass s) := by
  unfold execSteerSlotReady
  iterate 3
    repeat' (first
      | (with_reducible assumption) | (with_reducible apply next_kept) | (with_reducible apply iteOut_kept) | (with_reducible apply ite_kept)
      | (with_reducible apply modSlot_kept) | (with_reducible apply foldl_kept <;> intros) | (split) | (dsimp only))
    all_goals (try with_reducible refine mk_kept ?_ rfl (by first | rfl | simp) (by first | rfl | simp) rfl (by first | exact id | exact fun _ => rfl))

theorem steerBoundary_kept {s0 s : State} (h : Kept s0 s) (d : Nat) : Kept s0 (steerBoundary s d) := by
  unfold steerBoundary
  iterate 3
    repeat' (first
      | (with_reducible assumption) | (with_reducible apply ite_kept) | (with_reducible apply modSlot_kept)
      | (with_reducible apply returnChannel_kept) | (with_reducible apply foldl_kept <;> intros) | (split) | (dsimp only))
    all_goals (try with_reducible refine mk_kept ?_ rfl (by first | rfl | simp) (by first | rfl | simp) rfl (by first | exact id | exact fun _ => rfl))

theorem releaseSlots_kept {s0 s : State} (h : Kept s0 s) (ep : Nat) : Kept s0 (releaseSlots s ep) := by
  unfold releaseSlots
  iterate 3
    repeat' (first
      | (with_reducible assumption) | (with_reducible apply ite_kept) | (with_reducible apply modBase_kept)
      | (with_reducible apply foldl_kept <;> intros) | (split) | (dsimp only))
    all_goals (try with_reducible refine mk_kept ?_ rfl (by first | rfl | simp) (by first | rfl | simp) rfl (by first | exact id | exact fun _ => rfl))

theorem execLaserGate_kept {s0 s : State} (h : Kept s0 s) (f : BitVec 4) (site : BitVec 3) : KeptOut s0 (execLaserGate f site s) := by
  unfold execLaserGate
  iterate 3
    repeat' (first
      | (with_reducible assumption) | (with_reducible apply next_kept) | (with_reducible apply iteOut_kept) | (with_reducible apply ite_kept)
      | (with_reducible apply modLaser_kept) | (with_reducible apply foldl_kept <;> intros) | (split) | (dsimp only))
    all_goals (try with_reducible refine mk_kept ?_ rfl (by first | rfl | simp) (by first | rfl | simp) rfl (by first | exact id | exact fun _ => rfl))

theorem execLaserUngate_kept {s0 s : State} (h : Kept s0 s) (f : BitVec 4) (site : BitVec 3) : KeptOut s0 (execLaserUngate f site s) := by
  unfold execLaserUngate
  iterate 3
    repeat' (first
      | (with_reducible assumption) | (with_reducible apply next_kept) | (with_reducible apply iteOut_kept) | (with_reducible apply ite_kept)
      | (with_reducible apply resendHanded_kept) | (with_reducible apply modLaser_kept) | (with_reducible apply foldl_kept <;> intros) | (split)
      | (dsimp only))
    all_goals (try with_reducible refine mk_kept ?_ rfl (by first | rfl | simp) (by first | rfl | simp) rfl (by first | exact id | exact fun _ => rfl))

theorem darkenBus_kept {s0 s : State} (h : Kept s0 s) (f : Nat) (b : Nat) : Kept s0 (darkenBus s f b) := by
  unfold darkenBus
  iterate 3
    repeat' (first
      | (with_reducible assumption) | (with_reducible apply ite_kept) | (with_reducible apply modBase_kept) | (with_reducible apply dropChannel_kept)
      | (with_reducible apply foldl_kept <;> intros) | (split) | (dsimp only))
    all_goals (try with_reducible refine mk_kept ?_ rfl (by first | rfl | simp) (by first | rfl | simp) rfl (by first | exact id | exact fun _ => rfl))

theorem failLaser_kept {s0 s : State} (h : Kept s0 s) (f : Nat) (i : Nat) (injected : Bool) : Kept s0 (failLaser s f i injected) := by
  unfold failLaser
  iterate 3
    repeat' (first
      | (with_reducible assumption) | (with_reducible apply ite_kept) | (with_reducible apply modLaser_kept) | (with_reducible apply fault_kept)
      | (with_reducible apply darkenBus_kept) | (with_reducible apply foldl_kept <;> intros) | (split) | (dsimp only))
    all_goals (try with_reducible refine mk_kept ?_ rfl (by first | rfl | simp) (by first | rfl | simp) rfl (by first | exact id | exact fun _ => rfl))

theorem execLaserFailure_kept {s0 s : State} (h : Kept s0 s) (f : BitVec 4) (site : BitVec 3) : KeptOut s0 (execLaserFailure f site s) := by
  unfold execLaserFailure
  iterate 3
    repeat' (first
      | (with_reducible assumption) | (with_reducible apply next_kept) | (with_reducible apply iteOut_kept) | (with_reducible apply ite_kept)
      | (with_reducible apply failLaser_kept) | (with_reducible apply foldl_kept <;> intros) | (split) | (dsimp only))
    all_goals (try with_reducible refine mk_kept ?_ rfl (by first | rfl | simp) (by first | rfl | simp) rfl (by first | exact id | exact fun _ => rfl))

theorem execLaserFailoverDone_kept {s0 s : State} (h : Kept s0 s) (f : BitVec 4) (b : BitVec 3) : KeptOut s0 (execLaserFailoverDone f b s) := by
  unfold execLaserFailoverDone
  iterate 3
    repeat' (first
      | (with_reducible assumption) | (with_reducible apply next_kept) | (with_reducible apply iteOut_kept) | (with_reducible apply ite_kept)
      | (with_reducible apply bump_kept) | (with_reducible apply modBase_kept) | (with_reducible apply resendHanded_kept)
      | (with_reducible apply returnChannel_kept) | (with_reducible apply foldl_kept <;> intros) | (split) | (dsimp only))
    all_goals (try with_reducible refine mk_kept ?_ rfl (by first | rfl | simp) (by first | rfl | simp) rfl (by first | exact id | exact fun _ => rfl))

theorem execDiagnosticPulse_kept {s0 s : State} (h : Kept s0 s) (f : BitVec 4) (site : BitVec 3) (ua : BitVec 12) (pass : Bool) :
    KeptOut s0 (execDiagnosticPulse f site ua pass s) := by
  unfold execDiagnosticPulse
  iterate 3
    repeat' (first
      | (with_reducible assumption) | (with_reducible apply next_kept) | (with_reducible apply iteOut_kept) | (with_reducible apply ite_kept)
      | (with_reducible apply modLaser_kept) | (with_reducible apply failLaser_kept) | (with_reducible apply foldl_kept <;> intros) | (split)
      | (dsimp only))
    all_goals (try with_reducible refine mk_kept ?_ rfl (by first | rfl | simp) (by first | rfl | simp) rfl (by first | exact id | exact fun _ => rfl))

theorem lightField_kept {s0 s : State} (h : Kept s0 s) (f : Nat) : Kept s0 (lightField s f) := by
  unfold lightField
  iterate 3
    repeat' (first
      | (with_reducible assumption) | (with_reducible apply ite_kept) | (with_reducible apply modLaser_kept)
      | (with_reducible apply foldl_kept <;> intros) | (split) | (dsimp only))
    all_goals (try with_reducible refine mk_kept ?_ rfl (by first | rfl | simp) (by first | rfl | simp) rfl (by first | exact id | exact fun _ => rfl))

theorem darkField_kept {s0 s : State} (h : Kept s0 s) (f : Nat) : Kept s0 (darkField s f) := by
  unfold darkField
  iterate 3
    repeat' (first
      | (with_reducible assumption) | (with_reducible apply ite_kept) | (with_reducible apply modLaser_kept)
      | (with_reducible apply foldl_kept <;> intros) | (split) | (dsimp only))
    all_goals (try with_reducible refine mk_kept ?_ rfl (by first | rfl | simp) (by first | rfl | simp) rfl (by first | exact id | exact fun _ => rfl))

theorem modRing_kept {s0 s : State} (h : Kept s0 s) (r : Nat) (f : Ring → Ring) : Kept s0 (modRing s r f) := by
  unfold modRing
  iterate 3
    repeat' (first
      | (with_reducible assumption) | (with_reducible apply ite_kept) | (with_reducible apply modBase_kept)
      | (with_reducible apply foldl_kept <;> intros) | (split) | (dsimp only))
    all_goals (try with_reducible refine mk_kept ?_ rfl (by first | rfl | simp) (by first | rfl | simp) rfl (by first | exact id | exact fun _ => rfl))

theorem unlockRing_kept {s0 s : State} (h : Kept s0 s) (r : Nat) (injected : Bool) : Kept s0 (unlockRing s r injected) := by
  unfold unlockRing
  iterate 3
    repeat' (first
      | (with_reducible assumption) | (with_reducible apply ite_kept) | (with_reducible apply modRing_kept) | (with_reducible apply dropChannel_kept)
      | (with_reducible apply foldl_kept <;> intros) | (split) | (dsimp only))
    all_goals (try with_reducible refine mk_kept ?_ rfl (by first | rfl | simp) (by first | rfl | simp) rfl (by first | exact id | exact fun _ => rfl))

theorem execRingUnlock_kept {s0 s : State} (h : Kept s0 s) (r : BitVec 18) (light : Bool) : KeptOut s0 (execRingUnlock r light s) := by
  unfold execRingUnlock
  iterate 3
    repeat' (first
      | (with_reducible assumption) | (with_reducible apply next_kept) | (with_reducible apply iteOut_kept) | (with_reducible apply ite_kept)
      | (with_reducible apply unlockRing_kept) | (with_reducible apply foldl_kept <;> intros) | (split) | (dsimp only))
    all_goals (try with_reducible refine mk_kept ?_ rfl (by first | rfl | simp) (by first | rfl | simp) rfl (by first | exact id | exact fun _ => rfl))

theorem modPwr_kept {s0 s : State} (h : Kept s0 s) (f : Pwr → Pwr) : Kept s0 (modPwr s f) := by
  unfold modPwr
  iterate 3
    repeat' (first
      | (with_reducible assumption) | (with_reducible apply ite_kept) | (with_reducible apply foldl_kept <;> intros) | (split) | (dsimp only))
    all_goals (try with_reducible refine mk_kept ?_ rfl (by first | rfl | simp) (by first | rfl | simp) rfl (by first | exact id | exact fun _ => rfl))

theorem modClk_kept {s0 s : State} (h : Kept s0 s) (d : Nat) (f : ClkDom → ClkDom) : Kept s0 (modClk s d f) := by
  unfold modClk
  iterate 3
    repeat' (first
      | (with_reducible assumption) | (with_reducible apply ite_kept) | (with_reducible apply modPwr_kept)
      | (with_reducible apply foldl_kept <;> intros) | (split) | (dsimp only))
    all_goals (try with_reducible refine mk_kept ?_ rfl (by first | rfl | simp) (by first | rfl | simp) rfl (by first | exact id | exact fun _ => rfl))

theorem followGroups_kept {s0 s : State} (h : Kept s0 s) : Kept s0 (followGroups s) := by
  unfold followGroups
  iterate 3
    repeat' (first
      | (with_reducible assumption) | (with_reducible apply ite_kept) | (with_reducible apply powerOn_kept) | (with_reducible apply powerOff_kept)
      | (with_reducible apply modBank_kept) | (with_reducible apply foldl_kept <;> intros) | (split) | (dsimp only))
    all_goals (try with_reducible refine mk_kept ?_ rfl (by first | rfl | simp) (by first | rfl | simp) rfl (by first | exact id | exact fun _ => rfl))

theorem setOptics_kept {s0 s : State} (h : Kept s0 s) : Kept s0 (setOptics s) := by
  unfold setOptics
  iterate 3
    repeat' (first
      | (with_reducible assumption) | (with_reducible apply ite_kept) | (with_reducible apply followGroups_kept) | (with_reducible apply modBase_kept)
      | (with_reducible apply foldl_kept <;> intros) | (split) | (dsimp only))
    all_goals (try with_reducible refine mk_kept ?_ rfl (by first | rfl | simp) (by first | rfl | simp) rfl (by first | exact id | exact fun _ => rfl))

theorem dropSlots_kept {s0 s : State} (h : Kept s0 s) (ch : Nat) : Kept s0 (dropSlots s ch) := by
  unfold dropSlots
  iterate 3
    repeat' (first
      | (with_reducible assumption) | (with_reducible apply ite_kept) | (with_reducible apply modSlot_kept)
      | (with_reducible apply foldl_kept <;> intros) | (split) | (dsimp only))
    all_goals (try with_reducible refine mk_kept ?_ rfl (by first | rfl | simp) (by first | rfl | simp) rfl (by first | exact id | exact fun _ => rfl))

theorem sweepDone_kept {s0 s : State} (h : Kept s0 s) (r : Nat) (lock : Bool) : Kept s0 (sweepDone s r lock) := by
  unfold sweepDone
  iterate 3
    repeat' (first
      | (with_reducible assumption) | (with_reducible apply ite_kept) | (with_reducible apply fault_kept) | (with_reducible apply returnChannel_kept)
      | (with_reducible apply modRing_kept) | (with_reducible apply bump_kept) | (with_reducible apply dropSlots_kept)
      | (with_reducible apply foldl_kept <;> intros) | (split) | (dsimp only))
    all_goals (try with_reducible refine mk_kept ?_ rfl (by first | rfl | simp) (by first | rfl | simp) rfl (by first | exact id | exact fun _ => rfl))

theorem modBundle_kept {s0 s : State} (h : Kept s0 s) (i : Nat) (b : Nat) (f : Bundle → Bundle) : Kept s0 (modBundle s i b f) := by
  unfold modBundle
  iterate 3
    repeat' (first
      | (with_reducible assumption) | (with_reducible apply ite_kept) | (with_reducible apply modBase_kept)
      | (with_reducible apply foldl_kept <;> intros) | (split) | (dsimp only))
    all_goals (try with_reducible refine mk_kept ?_ rfl (by first | rfl | simp) (by first | rfl | simp) rfl (by first | exact id | exact fun _ => rfl))

theorem replaceLane_kept {s0 s : State} (h : Kept s0 s) (i : Nat) (b : Nat) (lane : Nat) (errs : Nat) (injected : Bool) :
    Kept s0 (replaceLane s i b lane errs injected) := by
  unfold replaceLane
  iterate 3
    repeat' (first
      | (with_reducible assumption) | (with_reducible apply ite_kept) | (with_reducible apply modBundle_kept) | (with_reducible apply fault_kept)
      | (with_reducible apply bump_kept) | (with_reducible apply foldl_kept <;> intros) | (split) | (dsimp only))
    all_goals (try with_reducible refine mk_kept ?_ rfl (by first | rfl | simp) (by first | rfl | simp) rfl (by first | exact id | exact fun _ => rfl))

theorem execLaneReplace_kept {s0 s : State} (h : Kept s0 s) (i : BitVec 5) (b : BitVec 8) (lane : BitVec 6) (errs : BitVec 16) :
    KeptOut s0 (execLaneReplace i b lane errs s) := by
  unfold execLaneReplace
  iterate 3
    repeat' (first
      | (with_reducible assumption) | (with_reducible apply next_kept) | (with_reducible apply iteOut_kept) | (with_reducible apply ite_kept)
      | (with_reducible apply replaceLane_kept) | (with_reducible apply foldl_kept <;> intros) | (split) | (dsimp only))
    all_goals (try with_reducible refine mk_kept ?_ rfl (by first | rfl | simp) (by first | rfl | simp) rfl (by first | exact id | exact fun _ => rfl))

theorem execBundleCrcReplay_kept {s0 s : State} (h : Kept s0 s) (i : BitVec 5) (b : BitVec 8) : KeptOut s0 (execBundleCrcReplay i b s) := by
  unfold execBundleCrcReplay
  iterate 3
    repeat' (first
      | (with_reducible assumption) | (with_reducible apply next_kept) | (with_reducible apply iteOut_kept) | (with_reducible apply ite_kept)
      | (with_reducible apply bump_kept) | (with_reducible apply foldl_kept <;> intros) | (split) | (dsimp only))
    all_goals (try with_reducible refine mk_kept ?_ rfl (by first | rfl | simp) (by first | rfl | simp) rfl (by first | exact id | exact fun _ => rfl))

theorem testBundle_kept {s0 s : State} (h : Kept s0 s) (i : Nat) (b : Nat) (bad : Nat) : Kept s0 (testBundle s i b bad) := by
  unfold testBundle
  iterate 3
    repeat' (first
      | (with_reducible assumption) | (with_reducible apply ite_kept) | (with_reducible apply modBundle_kept) | (with_reducible apply fault_kept)
      | (with_reducible apply foldl_kept <;> intros) | (split) | (dsimp only))
    all_goals (try with_reducible refine mk_kept ?_ rfl (by first | rfl | simp) (by first | rfl | simp) rfl (by first | exact id | exact fun _ => rfl))

theorem testBundles_kept {s0 s : State} (h : Kept s0 s) (i : Nat) (bad : List (BitVec 8 × BitVec 7)) : Kept s0 (testBundles s i bad) := by
  unfold testBundles
  iterate 3
    repeat' (first
      | (with_reducible assumption) | (with_reducible apply ite_kept) | (with_reducible apply testBundle_kept)
      | (with_reducible apply foldl_kept <;> intros) | (split) | (dsimp only))
    all_goals (try with_reducible refine mk_kept ?_ rfl (by first | rfl | simp) (by first | rfl | simp) rfl (by first | exact id | exact fun _ => rfl))

theorem refuseAccess_kept {s0 s : State} (h : Kept s0 s) (who : MemReq) (a : Nat) (st : Nat) : Kept s0 (refuseAccess s who a st) := by
  unfold refuseAccess
  iterate 3
    repeat' (first
      | (with_reducible assumption) | (with_reducible apply ite_kept) | (with_reducible apply fault_kept)
      | (with_reducible apply foldl_kept <;> intros) | (split) | (dsimp only))
    all_goals (try with_reducible refine mk_kept ?_ rfl (by first | rfl | simp) (by first | rfl | simp) rfl (by first | exact id | exact fun _ => rfl))

theorem memWrite_kept {s0 s : State} (h : Kept s0 s) (a : Nat) (bs : List Byte) : Kept s0 (memWrite s a bs) := by
  unfold memWrite
  refine modMem_kept h _ (fun hm => putBytes_wf ?_)
  split <;> exact hm

theorem execGranuleZeroed_kept {s0 s : State} (h : Kept s0 s) (g : BitVec 24) : KeptOut s0 (execGranuleZeroed g s) := by
  unfold execGranuleZeroed
  repeat' (first
    | (with_reducible assumption) | (with_reducible apply next_kept) | (with_reducible apply iteOut_kept) | (with_reducible apply ite_kept)
    | (with_reducible refine modMem_kept ?_ _ (fun hm => ?_)) | (exact hm) | (exact filter_wf _ hm) | (exact putBytes_wf hm)
    | (with_reducible apply foldl_kept <;> intros) | (split) | (dsimp only))
  all_goals (try with_reducible refine mk_kept ?_ rfl rfl rfl rfl (by first | exact id | exact fun _ => rfl))
  repeat' (first
    | (with_reducible assumption) | (with_reducible apply next_kept) | (with_reducible apply iteOut_kept) | (with_reducible apply ite_kept)
    | (with_reducible refine modMem_kept ?_ _ (fun hm => ?_)) | (exact hm) | (exact filter_wf _ hm) | (exact putBytes_wf hm)
    | (with_reducible apply foldl_kept <;> intros) | (split) | (dsimp only))

theorem setRegion_kept {s0 s : State} (h : Kept s0 s) (n : Nat) (r : Region) : Kept s0 (setRegion s n r) := by
  unfold setRegion
  exact kept_of h rfl rfl (fun hm => by (try split) <;> first | exact hm | exact filter_wf _ hm) (Nat.le_refl _) (Nat.le_refl _) (Nat.le_refl _) id

theorem execRegionEntryChange_kept {s0 s : State} (h : Kept s0 s) (n : BitVec 8) (base : BitVec 24) (limit : BitVec 24) (attr : Word) :
    KeptOut s0 (execRegionEntryChange n base limit attr s) := by
  unfold execRegionEntryChange
  iterate 3
    repeat' (first
      | (with_reducible assumption) | (with_reducible apply next_kept) | (with_reducible apply iteOut_kept) | (with_reducible apply ite_kept)
      | (with_reducible apply setRegion_kept) | (with_reducible apply foldl_kept <;> intros) | (split) | (dsimp only))
    all_goals (try with_reducible refine mk_kept ?_ rfl (by first | rfl | simp) (by first | rfl | simp) rfl (by first | exact id | exact fun _ => rfl))

theorem modRsv_kept {s0 s : State} (h : Kept s0 s) (j : Nat) (f : RsvState → RsvState) : Kept s0 (modRsv s j f) := by
  unfold modRsv
  repeat' (first
    | (with_reducible assumption) | (with_reducible apply ite_kept) | (with_reducible refine modMem_kept ?_ _ (fun hm => ?_)) | (exact hm)
    | (exact filter_wf _ hm) | (exact putBytes_wf hm) | (with_reducible apply foldl_kept <;> intros) | (split) | (dsimp only))
  all_goals (try with_reducible refine mk_kept ?_ rfl rfl rfl rfl (by first | exact id | exact fun _ => rfl))
  repeat' (first
    | (with_reducible assumption) | (with_reducible apply ite_kept) | (with_reducible refine modMem_kept ?_ _ (fun hm => ?_)) | (exact hm)
    | (exact filter_wf _ hm) | (exact putBytes_wf hm) | (with_reducible apply foldl_kept <;> intros) | (split) | (dsimp only))

theorem refreshTemp_kept {s0 s : State} (h : Kept s0 s) (j : Nat) : Kept s0 (refreshTemp s j) := by
  unfold refreshTemp
  iterate 3
    repeat' (first
      | (with_reducible assumption) | (with_reducible apply ite_kept) | (with_reducible apply modRsv_kept)
      | (with_reducible apply foldl_kept <;> intros) | (split) | (dsimp only))
    all_goals (try with_reducible refine mk_kept ?_ rfl (by first | rfl | simp) (by first | rfl | simp) rfl (by first | exact id | exact fun _ => rfl))

theorem execReservoirRefresh_kept {s0 s : State} (h : Kept s0 s) (j : BitVec 3) (bank : BitVec 7) : KeptOut s0 (execReservoirRefresh j bank s) := by
  unfold execReservoirRefresh
  iterate 3
    repeat' (first
      | (with_reducible assumption) | (with_reducible apply next_kept) | (with_reducible apply iteOut_kept) | (with_reducible apply ite_kept)
      | (with_reducible apply modRsv_kept) | (with_reducible apply refreshTemp_kept) | (with_reducible apply foldl_kept <;> intros) | (split)
      | (dsimp only))
    all_goals (try with_reducible refine mk_kept ?_ rfl (by first | rfl | simp) (by first | rfl | simp) rfl (by first | exact id | exact fun _ => rfl))

theorem execRefreshIntervalRelax_kept {s0 s : State} (h : Kept s0 s) (j : BitVec 3) : KeptOut s0 (execRefreshIntervalRelax j s) := by
  unfold execRefreshIntervalRelax
  iterate 3
    repeat' (first
      | (with_reducible assumption) | (with_reducible apply next_kept) | (with_reducible apply iteOut_kept) | (with_reducible apply ite_kept)
      | (with_reducible apply modRsv_kept) | (with_reducible apply foldl_kept <;> intros) | (split) | (dsimp only))
    all_goals (try with_reducible refine mk_kept ?_ rfl (by first | rfl | simp) (by first | rfl | simp) rfl (by first | exact id | exact fun _ => rfl))

theorem t1DoubleBit_kept {s0 s : State} (h : Kept s0 s) (j : Nat) (off : Nat) (byOp : Bool) (injected : Bool) :
    Kept s0 (t1DoubleBit s j off byOp injected) := by
  unfold t1DoubleBit
  iterate 3
    repeat' (first
      | (with_reducible assumption) | (with_reducible apply ite_kept) | (with_reducible apply bump_kept) | (with_reducible apply updUnits_kept)
      | (with_reducible apply fault_kept) | (with_reducible apply abortAttempt_kept) | (with_reducible apply foldl_kept <;> intros) | (split)
      | (dsimp only))
    all_goals (try with_reducible refine mk_kept ?_ rfl (by first | rfl | simp) (by first | rfl | simp) rfl (by first | exact id | exact fun _ => rfl))

theorem execReservoirScrub_kept {s0 s : State} (h : Kept s0 s) (j : BitVec 3) (off : BitVec 33) (errs : BitVec 2) :
    KeptOut s0 (execReservoirScrub j off errs s) := by
  unfold execReservoirScrub
  iterate 3
    repeat' (first
      | (with_reducible assumption) | (with_reducible apply next_kept) | (with_reducible apply iteOut_kept) | (with_reducible apply ite_kept)
      | (with_reducible apply bump_kept) | (with_reducible apply t1DoubleBit_kept) | (with_reducible apply foldl_kept <;> intros) | (split)
      | (dsimp only))
    all_goals (try with_reducible refine mk_kept ?_ rfl (by first | rfl | simp) (by first | rfl | simp) rfl (by first | exact id | exact fun _ => rfl))

theorem modPort_kept {s0 s : State} (h : Kept s0 s) (p : Nat) (f : PortMem → PortMem) : Kept s0 (modPort s p f) := by
  unfold modPort
  repeat' (first
    | (with_reducible assumption) | (with_reducible apply ite_kept) | (with_reducible refine modMem_kept ?_ _ (fun hm => ?_)) | (exact hm)
    | (exact filter_wf _ hm) | (exact putBytes_wf hm) | (with_reducible apply foldl_kept <;> intros) | (split) | (dsimp only))
  all_goals (try with_reducible refine mk_kept ?_ rfl rfl rfl rfl (by first | exact id | exact fun _ => rfl))
  repeat' (first
    | (with_reducible assumption) | (with_reducible apply ite_kept) | (with_reducible refine modMem_kept ?_ _ (fun hm => ?_)) | (exact hm)
    | (exact filter_wf _ hm) | (exact putBytes_wf hm) | (with_reducible apply foldl_kept <;> intros) | (split) | (dsimp only))

theorem modDram_kept {s0 s : State} (h : Kept s0 s) (p : Nat) (c : Nat) (f : DramChan → DramChan) : Kept s0 (modDram s p c f) := by
  unfold modDram
  iterate 3
    repeat' (first
      | (with_reducible assumption) | (with_reducible apply ite_kept) | (with_reducible apply modPort_kept)
      | (with_reducible apply foldl_kept <;> intros) | (split) | (dsimp only))
    all_goals (try with_reducible refine mk_kept ?_ rfl (by first | rfl | simp) (by first | rfl | simp) rfl (by first | exact id | exact fun _ => rfl))

theorem execChannelRetrain_kept {s0 s : State} (h : Kept s0 s) (p : BitVec 2) (c : BitVec 3) (finish : Bool) (rate : BitVec 4) :
    KeptOut s0 (execChannelRetrain p c finish rate s) := by
  unfold execChannelRetrain
  iterate 3
    repeat' (first
      | (with_reducible assumption) | (with_reducible apply next_kept) | (with_reducible apply iteOut_kept) | (with_reducible apply ite_kept)
      | (with_reducible apply modDram_kept) | (with_reducible apply foldl_kept <;> intros) | (split) | (dsimp only))
    all_goals (try with_reducible refine mk_kept ?_ rfl (by first | rfl | simp) (by first | rfl | simp) rfl (by first | exact id | exact fun _ => rfl))

theorem trainDram_kept {s0 s : State} (h : Kept s0 s) (p : Nat) (found : List (Bool × BitVec 2 × BitVec 3)) : Kept s0 (trainDram s p found) := by
  unfold trainDram
  repeat' (first
    | (with_reducible assumption) | (with_reducible apply ite_kept) | (with_reducible apply modDram_kept) | (with_reducible apply failDie_kept)
    | (with_reducible refine modMem_kept ?_ _ (fun hm => ?_)) | (with_reducible apply admitDie_kept) | (exact hm) | (exact filter_wf _ hm)
    | (exact putBytes_wf hm) | (with_reducible apply foldl_kept <;> intros) | (split) | (dsimp only))
  all_goals (try with_reducible refine mk_kept ?_ rfl rfl rfl rfl (by first | exact id | exact fun _ => rfl))
  repeat' (first
    | (with_reducible assumption) | (with_reducible apply ite_kept) | (with_reducible apply modDram_kept) | (with_reducible apply failDie_kept)
    | (with_reducible refine modMem_kept ?_ _ (fun hm => ?_)) | (with_reducible apply admitDie_kept) | (exact hm) | (exact filter_wf _ hm)
    | (exact putBytes_wf hm) | (with_reducible apply foldl_kept <;> intros) | (split) | (dsimp only))

theorem retarget_kept {s0 s : State} (h : Kept s0 s) (d : Nat) : Kept s0 (retarget s d) := by
  unfold retarget
  iterate 3
    repeat' (first
      | (with_reducible assumption) | (with_reducible apply ite_kept) | (with_reducible apply modClk_kept)
      | (with_reducible apply foldl_kept <;> intros) | (split) | (dsimp only))
    all_goals (try with_reducible refine mk_kept ?_ rfl (by first | rfl | simp) (by first | rfl | simp) rfl (by first | exact id | exact fun _ => rfl))

theorem settleStage_kept {s0 s : State} (h : Kept s0 s) : Kept s0 (settleStage s) := by
  unfold settleStage
  iterate 3
    repeat' (first
      | (with_reducible assumption) | (with_reducible apply ite_kept) | (with_reducible apply modPwr_kept) | (with_reducible apply stage_kept)
      | (with_reducible apply foldl_kept <;> intros) | (split) | (dsimp only))
    all_goals (try with_reducible refine mk_kept ?_ rfl (by first | rfl | simp) (by first | rfl | simp) rfl (by first | exact id | exact fun _ => rfl))

theorem stageEffect_kept {s0 s : State} (h : Kept s0 s) (d : Nat) : Kept s0 (stageEffect s d) := by
  unfold stageEffect
  iterate 3
    repeat' (first
      | (with_reducible assumption) | (with_reducible apply ite_kept) | (with_reducible apply modClk_kept) | (with_reducible apply stage_kept)
      | (with_reducible apply modPwr_kept) | (with_reducible apply settleStage_kept) | (with_reducible apply foldl_kept <;> intros) | (split)
      | (dsimp only))
    all_goals (try with_reducible refine mk_kept ?_ rfl (by first | rfl | simp) (by first | rfl | simp) rfl (by first | exact id | exact fun _ => rfl))

theorem setStep_kept {s0 s : State} (h : Kept s0 s) (d : Nat) (n : Nat) : Kept s0 (setStep s d n) := by
  unfold setStep
  iterate 3
    repeat' (first
      | (with_reducible assumption) | (with_reducible apply ite_kept) | (with_reducible apply stageEffect_kept) | (with_reducible apply retarget_kept)
      | (with_reducible apply bump_kept) | (with_reducible apply modClk_kept) | (with_reducible apply foldl_kept <;> intros) | (split) | (dsimp only))
    all_goals (try with_reducible refine mk_kept ?_ rfl (by first | rfl | simp) (by first | rfl | simp) rfl (by first | exact id | exact fun _ => rfl))

theorem clockBoundary_kept {s0 s : State} (h : Kept s0 s) (d : Nat) : Kept s0 (clockBoundary s d) := by
  unfold clockBoundary
  iterate 3
    repeat' (first
      | (with_reducible assumption) | (with_reducible apply ite_kept) | (with_reducible apply stageEffect_kept) | (with_reducible apply setStep_kept)
      | (with_reducible apply modClk_kept) | (with_reducible apply foldl_kept <;> intros) | (split) | (dsimp only))
    all_goals (try with_reducible refine mk_kept ?_ rfl (by first | rfl | simp) (by first | rfl | simp) rfl (by first | exact id | exact fun _ => rfl))

theorem retargetAll_kept {s0 s : State} (h : Kept s0 s) : Kept s0 (retargetAll s) := by
  unfold retargetAll
  iterate 3
    repeat' (first
      | (with_reducible assumption) | (with_reducible apply ite_kept) | (with_reducible apply retarget_kept) | (with_reducible apply stageEffect_kept)
      | (with_reducible apply foldl_kept <;> intros) | (split) | (dsimp only))
    all_goals (try with_reducible refine mk_kept ?_ rfl (by first | rfl | simp) (by first | rfl | simp) rfl (by first | exact id | exact fun _ => rfl))

theorem execPllLocked_kept {s0 s : State} (h : Kept s0 s) (d : BitVec 3) : KeptOut s0 (execPllLocked d s) := by
  unfold execPllLocked
  iterate 3
    repeat' (first
      | (with_reducible assumption) | (with_reducible apply next_kept) | (with_reducible apply iteOut_kept) | (with_reducible apply ite_kept)
      | (with_reducible apply modClk_kept) | (with_reducible apply clockBoundary_kept) | (with_reducible apply foldl_kept <;> intros) | (split)
      | (dsimp only))
    all_goals (try with_reducible refine mk_kept ?_ rfl (by first | rfl | simp) (by first | rfl | simp) rfl (by first | exact id | exact fun _ => rfl))

theorem execVcoreRampDone_kept {s0 s : State} (h : Kept s0 s) (d : BitVec 3) : KeptOut s0 (execVcoreRampDone d s) := by
  unfold execVcoreRampDone
  iterate 3
    repeat' (first
      | (with_reducible assumption) | (with_reducible apply next_kept) | (with_reducible apply iteOut_kept) | (with_reducible apply ite_kept)
      | (with_reducible apply setStep_kept) | (with_reducible apply foldl_kept <;> intros) | (split) | (dsimp only))
    all_goals (try with_reducible refine mk_kept ?_ rfl (by first | rfl | simp) (by first | rfl | simp) rfl (by first | exact id | exact fun _ => rfl))

theorem drainBoundary_kept {s0 s : State} (h : Kept s0 s) (d : Nat) : Kept s0 (drainBoundary s d) := by
  unfold drainBoundary
  iterate 3
    repeat' (first
      | (with_reducible assumption) | (with_reducible apply ite_kept) | (with_reducible apply startIfReady_kept)
      | (with_reducible apply dropResident_kept) | (with_reducible apply modDom_kept) | (with_reducible apply foldl_kept <;> intros) | (split)
      | (dsimp only))
    all_goals (try with_reducible refine mk_kept ?_ rfl (by first | rfl | simp) (by first | rfl | simp) rfl (by first | exact id | exact fun _ => rfl))

theorem wakeUnit_kept {s0 s : State} (h : Kept s0 s) (kind : Nat) (n : Nat) : Kept s0 (wakeUnit s kind n) := by
  unfold wakeUnit
  iterate 3
    repeat' (first
      | (with_reducible assumption) | (with_reducible apply ite_kept) | (with_reducible apply markDieReset_kept) | (with_reducible apply powerOn_kept)
      | (with_reducible apply modDie_kept) | (with_reducible apply foldl_kept <;> intros) | (split) | (dsimp only))
    all_goals (try with_reducible refine mk_kept ?_ rfl (by first | rfl | simp) (by first | rfl | simp) rfl (by first | exact id | exact fun _ => rfl))

theorem tileRecord_kept {s0 s : State} (h : Kept s0 s) (t : Nat) : Kept s0 (tileRecord s t) := by
  unfold tileRecord
  iterate 3
    repeat' (first
      | (with_reducible assumption) | (with_reducible apply ite_kept) | (with_reducible apply transientFault_kept) | (with_reducible apply fault_kept)
      | (with_reducible apply foldl_kept <;> intros) | (split) | (dsimp only))
    all_goals (try with_reducible refine mk_kept ?_ rfl (by first | rfl | simp) (by first | rfl | simp) rfl (by first | exact id | exact fun _ => rfl))

theorem tileFault_kept {s0 s : State} (h : Kept s0 s) (t : Nat) (poison : Bool) : Kept s0 (tileFault s t poison) := by
  unfold tileFault
  iterate 3
    repeat' (first
      | (with_reducible assumption) | (with_reducible apply ite_kept) | (with_reducible apply tileRecord_kept) | (with_reducible apply bump_kept)
      | (with_reducible apply foldl_kept <;> intros) | (split) | (dsimp only))
    all_goals (try with_reducible refine mk_kept ?_ rfl (by first | rfl | simp) (by first | rfl | simp) rfl (by first | exact id | exact fun _ => rfl))

theorem drainSlots_kept {s0 s : State} (h : Kept s0 s) (ep : Nat) : Kept s0 (drainSlots s ep) := by
  unfold drainSlots
  iterate 3
    repeat' (first
      | (with_reducible assumption) | (with_reducible apply ite_kept) | (with_reducible apply modBase_kept)
      | (with_reducible apply foldl_kept <;> intros) | (split) | (dsimp only))
    all_goals (try with_reducible refine mk_kept ?_ rfl (by first | rfl | simp) (by first | rfl | simp) rfl (by first | exact id | exact fun _ => rfl))

theorem followFields_kept {s0 s : State} (h : Kept s0 s) : Kept s0 (followFields s) := by
  unfold followFields
  iterate 3
    repeat' (first
      | (with_reducible assumption) | (with_reducible apply ite_kept) | (with_reducible apply powerOn_kept) | (with_reducible apply powerOff_kept)
      | (with_reducible apply modBase_kept) | (with_reducible apply darkField_kept) | (with_reducible apply foldl_kept <;> intros) | (split)
      | (dsimp only))
    all_goals (try with_reducible refine mk_kept ?_ rfl (by first | rfl | simp) (by first | rfl | simp) rfl (by first | exact id | exact fun _ => rfl))

end Sys2Proof.Machine
end

