-- ==== Sys2Proof/Laws/KeptFabric.lean ====
section
/-!
SUPPORT. Every function of the state keeps the queue and the invariant: the image, the Director, the tray fabric and DMA.
-/
set_option Elab.async false
set_option linter.all false
namespace Sys2Proof.Machine
open Sys2Proof

theorem modFab_kept {s0 s : State} (h : Kept s0 s) (f : Fab → Fab) : Kept s0 (modFab s f) := by
  unfold modFab
  iterate 3
    repeat' (first
      | (with_reducible assumption) | (with_reducible apply ite_kept) | (with_reducible apply foldl_kept <;> intros) | (split) | (dsimp only))
    all_goals (try with_reducible refine mk_kept ?_ rfl (by first | rfl | simp) (by first | rfl | simp) rfl (by first | exact id | exact fun _ => rfl))

theorem modDma_kept {s0 s : State} (h : Kept s0 s) (n : Nat) (f : DmaChan → DmaChan) : Kept s0 (modDma s n f) := by
  unfold modDma
  iterate 3
    repeat' (first
      | (with_reducible assumption) | (with_reducible apply ite_kept) | (with_reducible apply foldl_kept <;> intros) | (split) | (dsimp only))
    all_goals (try with_reducible refine mk_kept ?_ rfl (by first | rfl | simp) (by first | rfl | simp) rfl (by first | exact id | exact fun _ => rfl))

theorem clearRetry_kept {s0 s : State} (h : Kept s0 s) (a : HubAccess) : Kept s0 (clearRetry s a) := by
  unfold clearRetry
  iterate 3
    repeat' (first
      | (with_reducible assumption) | (with_reducible apply ite_kept) | (with_reducible apply foldl_kept <;> intros) | (split) | (dsimp only))
    all_goals (try with_reducible refine mk_kept ?_ rfl (by first | rfl | simp) (by first | rfl | simp) rfl (by first | exact id | exact fun _ => rfl))

theorem trimBuffer_kept {s0 s : State} (h : Kept s0 s) (n : Nat) : Kept s0 (trimBuffer s n) := by
  unfold trimBuffer
  iterate 3
    repeat' (first
      | (with_reducible assumption) | (with_reducible apply ite_kept) | (with_reducible apply modDma_kept)
      | (with_reducible apply foldl_kept <;> intros) | (split) | (dsimp only))
    all_goals (try with_reducible refine mk_kept ?_ rfl (by first | rfl | simp) (by first | rfl | simp) rfl (by first | exact id | exact fun _ => rfl))

theorem lineDone_kept {s0 s : State} (h : Kept s0 s) (n : Nat) (k : Nat) : Kept s0 (lineDone s n k) := by
  unfold lineDone
  iterate 3
    repeat' (first
      | (with_reducible assumption) | (with_reducible apply ite_kept) | (with_reducible apply modDma_kept) | (with_reducible apply bump64_kept)
      | (with_reducible apply clearRetry_kept) | (with_reducible apply trimBuffer_kept) | (with_reducible apply foldl_kept <;> intros) | (split)
      | (dsimp only))
    all_goals (try with_reducible refine mk_kept ?_ rfl (by first | rfl | simp) (by first | rfl | simp) rfl (by first | exact id | exact fun _ => rfl))

theorem haltDma_kept {s0 s : State} (h : Kept s0 s) (n : Nat) (cause : Nat) (addr : Nat) : Kept s0 (haltDma s n cause addr) := by
  unfold haltDma
  iterate 3
    repeat' (first
      | (with_reducible assumption) | (with_reducible apply ite_kept) | (with_reducible apply bump_kept) | (with_reducible apply modDma_kept)
      | (with_reducible apply failRead_kept) | (with_reducible apply foldl_kept <;> intros) | (split) | (dsimp only))
    all_goals (try with_reducible refine mk_kept ?_ rfl (by first | rfl | simp) (by first | rfl | simp) rfl (by first | exact id | exact fun _ => rfl))

theorem endEngine_kept {s0 s : State} (h : Kept s0 s) (e : Nat) (cause : Nat) : Kept s0 (endEngine s e cause) := by
  unfold endEngine
  iterate 3
    repeat' (first
      | (with_reducible assumption) | (with_reducible apply ite_kept) | (with_reducible apply foldl_kept <;> intros) | (split) | (dsimp only))
    all_goals (try with_reducible refine mk_kept ?_ rfl (by first | rfl | simp) (by first | rfl | simp) rfl (by first | exact id | exact fun _ => rfl))

theorem ringError_kept {s0 s : State} (h : Kept s0 s) (c : Nat) (arg : Nat) (index : Nat) : Kept s0 (ringError s c arg index) := by
  unfold ringError
  iterate 3
    repeat' (first
      | (with_reducible assumption) | (with_reducible apply ite_kept) | (with_reducible apply event_kept) | (with_reducible apply modCtx_kept)
      | (with_reducible apply foldl_kept <;> intros) | (split) | (dsimp only))
    all_goals (try with_reducible refine mk_kept ?_ rfl (by first | rfl | simp) (by first | rfl | simp) rfl (by first | exact id | exact fun _ => rfl))

theorem noteSegs_kept {s0 s : State} (h : Kept s0 s) : Kept s0 (noteSegs s) := by
  unfold noteSegs
  iterate 3
    repeat' (first
      | (with_reducible assumption) | (with_reducible apply ite_kept) | (with_reducible apply foldl_kept <;> intros) | (split) | (dsimp only))
    all_goals (try with_reducible refine mk_kept ?_ rfl (by first | rfl | simp) (by first | rfl | simp) rfl (by first | exact id | exact fun _ => rfl))

theorem takeBytes_kept {s0 s : State} (h : Kept s0 s) (n : Nat) (data : List Byte) : Kept s0 (takeBytes s n data) := by
  unfold takeBytes
  iterate 3
    repeat' (first
      | (with_reducible assumption) | (with_reducible apply ite_kept) | (with_reducible apply noteSegs_kept) | (with_reducible apply clearRetry_kept)
      | (with_reducible apply modDma_kept) | (with_reducible apply foldl_kept <;> intros) | (split) | (dsimp only))
    all_goals (try with_reducible refine mk_kept ?_ rfl (by first | rfl | simp) (by first | rfl | simp) rfl (by first | exact id | exact fun _ => rfl))

theorem noteWrite_kept {s0 s : State} (h : Kept s0 s) (a : FabArgs) : Kept s0 (noteWrite s a) := by
  unfold noteWrite
  iterate 3
    repeat' (first
      | (with_reducible assumption) | (with_reducible apply ite_kept) | (with_reducible apply modFab_kept)
      | (with_reducible apply foldl_kept <;> intros) | (split) | (dsimp only))
    all_goals (try with_reducible refine mk_kept ?_ rfl (by first | rfl | simp) (by first | rfl | simp) rfl (by first | exact id | exact fun _ => rfl))

theorem holdAdd_kept {s0 s : State} (h : Kept s0 s) (a : FabArgs) : Kept s0 (holdAdd s a) := by
  unfold holdAdd
  iterate 3
    repeat' (first
      | (with_reducible assumption) | (with_reducible apply ite_kept) | (with_reducible apply bump_kept) | (with_reducible apply modFab_kept)
      | (with_reducible apply foldl_kept <;> intros) | (split) | (dsimp only))
    all_goals (try with_reducible refine mk_kept ?_ rfl (by first | rfl | simp) (by first | rfl | simp) rfl (by first | exact id | exact fun _ => rfl))

theorem modLink_kept {s0 s : State} (h : Kept s0 s) (b : Nat) (j : Nat) (f : Link → Link) : Kept s0 (modLink s b j f) := by
  unfold modLink
  iterate 3
    repeat' (first
      | (with_reducible assumption) | (with_reducible apply ite_kept) | (with_reducible apply modFab_kept)
      | (with_reducible apply foldl_kept <;> intros) | (split) | (dsimp only))
    all_goals (try with_reducible refine mk_kept ?_ rfl (by first | rfl | simp) (by first | rfl | simp) rfl (by first | exact id | exact fun _ => rfl))

theorem transmit_kept {s0 s : State} (h : Kept s0 s) (b : Nat) (j : Nat) (peer : Nat) (tag : Nat) (addr : Nat) (body : TxBody) :
    Kept s0 (transmit s b j peer tag addr body) := by
  unfold transmit
  iterate 3
    repeat' (first
      | (with_reducible assumption) | (with_reducible apply ite_kept) | (with_reducible apply emit_kept) | (with_reducible apply modLink_kept)
      | (with_reducible apply foldl_kept <;> intros) | (split) | (dsimp only))
    all_goals (try with_reducible refine mk_kept ?_ rfl (by first | rfl | simp) (by first | rfl | simp) rfl (by first | exact id | exact fun _ => rfl))

theorem issue_kept {s0 s : State} (h : Kept s0 s) (a : FabArgs) (members : List (FabWho × BitVec 64)) (p : Nat × Nat × Option Nat) :
    Kept s0 (issue s a members p) := by
  unfold issue
  iterate 3
    repeat' (first
      | (with_reducible assumption) | (with_reducible apply ite_kept) | (with_reducible apply transmit_kept) | (with_reducible apply modFab_kept)
      | (with_reducible apply foldl_kept <;> intros) | (split) | (dsimp only))
    all_goals (try with_reducible refine mk_kept ?_ rfl (by first | rfl | simp) (by first | rfl | simp) rfl (by first | exact id | exact fun _ => rfl))

theorem endLoad_kept {s0 s : State} (h : Kept s0 s) (n : Nat) : Kept s0 (endLoad s n) := by
  unfold endLoad
  iterate 3
    repeat' (first
      | (with_reducible assumption) | (with_reducible apply ite_kept) | (with_reducible apply bump64_kept) | (with_reducible apply modDma_kept)
      | (with_reducible apply foldl_kept <;> intros) | (split) | (dsimp only))
    all_goals (try with_reducible refine mk_kept ?_ rfl (by first | rfl | simp) (by first | rfl | simp) rfl (by first | exact id | exact fun _ => rfl))

theorem execCoreReadDone_kept {s0 s : State} (h : Kept s0 s) (c : BitVec 12) (core : List Byte) : KeptOut s0 (execCoreReadDone c core s) := by
  unfold execCoreReadDone
  iterate 3
    repeat' (first
      | (with_reducible assumption) | (with_reducible apply next_kept) | (with_reducible apply iteOut_kept) | (with_reducible apply ite_kept)
      | (with_reducible apply settle_kept) | (with_reducible apply setWork_kept) | (with_reducible apply endLoad_kept)
      | (with_reducible apply foldl_kept <;> intros) | (split) | (dsimp only))
    all_goals (try with_reducible refine mk_kept ?_ rfl (by first | rfl | simp) (by first | rfl | simp) rfl (by first | exact id | exact fun _ => rfl))

theorem execChunkVerified_kept {s0 s : State} (h : Kept s0 s) (c : BitVec 12) (data : List Byte) : KeptOut s0 (execChunkVerified c data s) := by
  unfold execChunkVerified
  iterate 3
    repeat' (first
      | (with_reducible assumption) | (with_reducible apply next_kept) | (with_reducible apply iteOut_kept) | (with_reducible apply ite_kept)
      | (with_reducible apply settle_kept) | (with_reducible apply setWork_kept) | (with_reducible apply endLoad_kept)
      | (with_reducible apply foldl_kept <;> intros) | (split) | (dsimp only))
    all_goals (try with_reducible refine mk_kept ?_ rfl (by first | rfl | simp) (by first | rfl | simp) rfl (by first | exact id | exact fun _ => rfl))

theorem endReadWait_kept {s0 s : State} (h : Kept s0 s) (a1 : HubAccess) : Kept s0 (endReadWait s a1) := by
  unfold endReadWait
  repeat' (first
    | (with_reducible assumption) | (with_reducible apply ite_kept) | (with_reducible apply modDma_kept)
    | (with_reducible apply foldl_kept <;> intros) | (split) | (dsimp only))
  all_goals (try with_reducible refine mk_kept ?_ rfl rfl rfl rfl (by first | exact id | exact fun _ => rfl))
  repeat' (first
    | (with_reducible assumption) | (with_reducible apply ite_kept) | (with_reducible apply modDma_kept)
    | (with_reducible apply foldl_kept <;> intros) | (split) | (dsimp only))

theorem resetDma_kept {s0 s : State} (h : Kept s0 s) (p : Nat → Bool) : Kept s0 (resetDma s p) := by
  unfold resetDma
  iterate 3
    repeat' (first
      | (with_reducible assumption) | (with_reducible apply ite_kept) | (with_reducible apply haltDma_kept)
      | (with_reducible apply foldl_kept <;> intros) | (split) | (dsimp only))
    all_goals (try with_reducible refine mk_kept ?_ rfl (by first | rfl | simp) (by first | rfl | simp) rfl (by first | exact id | exact fun _ => rfl))

theorem abortDma_kept {s0 s : State} (h : Kept s0 s) (n : Nat) : Kept s0 (abortDma s n) := by
  unfold abortDma
  iterate 3
    repeat' (first
      | (with_reducible assumption) | (with_reducible apply ite_kept) | (with_reducible apply modDma_kept)
      | (with_reducible apply foldl_kept <;> intros) | (split) | (dsimp only))
    all_goals (try with_reducible refine mk_kept ?_ rfl (by first | rfl | simp) (by first | rfl | simp) rfl (by first | exact id | exact fun _ => rfl))

theorem disableCtx_kept {s0 s : State} (h : Kept s0 s) (c : Nat) : Kept s0 (disableCtx s c) := by
  unfold disableCtx
  iterate 3
    repeat' (first
      | (with_reducible assumption) | (with_reducible apply ite_kept) | (with_reducible apply setCtx_kept) | (with_reducible apply abortDma_kept)
      | (with_reducible apply finishDisable_kept) | (with_reducible apply foldl_kept <;> intros) | (split) | (dsimp only))
    all_goals (try with_reducible refine mk_kept ?_ rfl (by first | rfl | simp) (by first | rfl | simp) rfl (by first | exact id | exact fun _ => rfl))

theorem execContextDisable_kept {s0 s : State} (h : Kept s0 s) (p : PageRef) (v : Word) : KeptOut s0 (execContextDisable p v s) := by
  unfold execContextDisable
  iterate 3
    repeat' (first
      | (with_reducible assumption) | (with_reducible apply next_kept) | (with_reducible apply iteOut_kept) | (with_reducible apply ite_kept)
      | (with_reducible apply disableCtx_kept) | (with_reducible apply setCtx_kept) | (with_reducible apply foldl_kept <;> intros) | (split)
      | (dsimp only))
    all_goals (try with_reducible refine mk_kept ?_ rfl (by first | rfl | simp) (by first | rfl | simp) rfl (by first | exact id | exact fun _ => rfl))

theorem badSetting_kept {s0 s : State} (h : Kept s0 s) (key : Nat) : Kept s0 (badSetting s key) := by
  unfold badSetting
  iterate 3
    repeat' (first
      | (with_reducible assumption) | (with_reducible apply ite_kept) | (with_reducible apply fault_kept)
      | (with_reducible apply foldl_kept <;> intros) | (split) | (dsimp only))
    all_goals (try with_reducible refine mk_kept ?_ rfl (by first | rfl | simp) (by first | rfl | simp) rfl (by first | exact id | exact fun _ => rfl))

theorem loadField_kept {s0 s : State} (h : Kept s0 s) (key : Nat) (off : Nat) (hi : Nat) (lo : Nat) (v : List Byte) (n : Nat) (mn : Nat) (mx : Nat) (dflt : Nat) :
    Kept s0 (loadField s key off hi lo v n mn mx dflt) := by
  unfold loadField
  iterate 3
    repeat' (first
      | (with_reducible assumption) | (with_reducible apply ite_kept) | (with_reducible apply regSetBits_kept)
      | (with_reducible apply badSetting_kept) | (with_reducible apply foldl_kept <;> intros) | (split) | (dsimp only))
    all_goals (try with_reducible refine mk_kept ?_ rfl (by first | rfl | simp) (by first | rfl | simp) rfl (by first | exact id | exact fun _ => rfl))

theorem loadSetting_kept {s0 s : State} (h : Kept s0 s) (pairSection : Bool) (r : Nat × List Byte) : Kept s0 (loadSetting s pairSection r) := by
  unfold loadSetting
  iterate 3
    repeat' (first
      | (with_reducible assumption) | (with_reducible apply ite_kept) | (with_reducible apply regSetBits_kept)
      | (with_reducible apply badSetting_kept) | (with_reducible apply loadField_kept) | (with_reducible apply foldl_kept <;> intros) | (split)
      | (dsimp only))
    all_goals (try with_reducible refine mk_kept ?_ rfl (by first | rfl | simp) (by first | rfl | simp) rfl (by first | exact id | exact fun _ => rfl))

theorem loadSettings_kept {s0 s : State} (h : Kept s0 s) (img : List Byte) : Kept s0 (loadSettings s img) := by
  unfold loadSettings
  iterate 3
    repeat' (first
      | (with_reducible assumption) | (with_reducible apply ite_kept) | (with_reducible apply loadSetting_kept)
      | (with_reducible apply foldl_kept <;> intros) | (split) | (dsimp only))
    all_goals (try with_reducible refine mk_kept ?_ rfl (by first | rfl | simp) (by first | rfl | simp) rfl (by first | exact id | exact fun _ => rfl))

theorem refuseCap_kept {s0 s : State} (h : Kept s0 s) (reason : Nat) : Kept s0 (refuseCap s reason) := by
  unfold refuseCap
  iterate 3
    repeat' (first
      | (with_reducible assumption) | (with_reducible apply ite_kept) | (with_reducible apply foldl_kept <;> intros) | (split) | (dsimp only))
    all_goals (try with_reducible refine mk_kept ?_ rfl (by first | rfl | simp) (by first | rfl | simp) rfl (by first | exact id | exact fun _ => rfl))

theorem startDrain_kept {s0 s : State} (h : Kept s0 s) (kind : Nat) (n : Nat) : Kept s0 (startDrain s kind n) := by
  unfold startDrain
  iterate 3
    repeat' (first
      | (with_reducible assumption) | (with_reducible apply ite_kept) | (with_reducible apply startMoves_kept) | (with_reducible apply setCap_kept)
      | (with_reducible apply drainBoundary_kept) | (with_reducible apply foldl_kept <;> intros) | (split) | (dsimp only))
    all_goals (try with_reducible refine mk_kept ?_ rfl (by first | rfl | simp) (by first | rfl | simp) rfl (by first | exact id | exact fun _ => rfl))

theorem capRemove_kept {s0 s : State} (h : Kept s0 s) (kind : Nat) (n : Nat) : Kept s0 (capRemove s kind n) := by
  unfold capRemove
  iterate 3
    repeat' (first
      | (with_reducible assumption) | (with_reducible apply ite_kept) | (with_reducible apply refuseCap_kept) | (with_reducible apply startDrain_kept)
      | (with_reducible apply foldl_kept <;> intros) | (split) | (dsimp only))
    all_goals (try with_reducible refine mk_kept ?_ rfl (by first | rfl | simp) (by first | rfl | simp) rfl (by first | exact id | exact fun _ => rfl))

theorem capReturn_kept {s0 s : State} (h : Kept s0 s) (kind : Nat) (n : Nat) : Kept s0 (capReturn s kind n) := by
  unfold capReturn
  iterate 3
    repeat' (first
      | (with_reducible assumption) | (with_reducible apply ite_kept) | (with_reducible apply refuseCap_kept) | (with_reducible apply wakeUnit_kept)
      | (with_reducible apply setCap_kept) | (with_reducible apply foldl_kept <;> intros) | (split) | (dsimp only))
    all_goals (try with_reducible refine mk_kept ?_ rfl (by first | rfl | simp) (by first | rfl | simp) rfl (by first | exact id | exact fun _ => rfl))

theorem writeCapCtl_kept {s0 s : State} (h : Kept s0 s) (action : Nat) (kind : Nat) (unit : Nat) (go : Bool) :
    Kept s0 (writeCapCtl s action kind unit go) := by
  unfold writeCapCtl
  iterate 3
    repeat' (first
      | (with_reducible assumption) | (with_reducible apply ite_kept) | (with_reducible apply regPut_kept) | (with_reducible apply capRemove_kept)
      | (with_reducible apply capReturn_kept) | (with_reducible apply refuseCap_kept) | (with_reducible apply foldl_kept <;> intros) | (split)
      | (dsimp only))
    all_goals (try with_reducible refine mk_kept ?_ rfl (by first | rfl | simp) (by first | rfl | simp) rfl (by first | exact id | exact fun _ => rfl))

theorem askCap_kept {s0 s : State} (h : Kept s0 s) (r : Requester) (action : Nat) (kind : Nat) (unit : Nat) :
    Kept s0 (askCap r action kind unit s) := by
  unfold askCap
  iterate 3
    repeat' (first
      | (with_reducible assumption) | (with_reducible apply ite_kept) | (with_reducible apply writeCapCtl_kept)
      | (with_reducible apply foldl_kept <;> intros) | (split) | (dsimp only))
    all_goals (try with_reducible refine mk_kept ?_ rfl (by first | rfl | simp) (by first | rfl | simp) rfl (by first | exact id | exact fun _ => rfl))

theorem execCapacityRemove_kept {s0 s : State} (h : Kept s0 s) (r : Requester) (u : CapUnit) : KeptOut s0 (execCapacityRemove r u s) := by
  unfold execCapacityRemove
  iterate 3
    repeat' (first
      | (with_reducible assumption) | (with_reducible apply next_kept) | (with_reducible apply iteOut_kept) | (with_reducible apply ite_kept)
      | (with_reducible apply askCap_kept) | (with_reducible apply foldl_kept <;> intros) | (split) | (dsimp only))
    all_goals (try with_reducible refine mk_kept ?_ rfl (by first | rfl | simp) (by first | rfl | simp) rfl (by first | exact id | exact fun _ => rfl))

theorem execCapacityReturn_kept {s0 s : State} (h : Kept s0 s) (r : Requester) (u : CapUnit) : KeptOut s0 (execCapacityReturn r u s) := by
  unfold execCapacityReturn
  iterate 3
    repeat' (first
      | (with_reducible assumption) | (with_reducible apply next_kept) | (with_reducible apply iteOut_kept) | (with_reducible apply ite_kept)
      | (with_reducible apply askCap_kept) | (with_reducible apply foldl_kept <;> intros) | (split) | (dsimp only))
    all_goals (try with_reducible refine mk_kept ?_ rfl (by first | rfl | simp) (by first | rfl | simp) rfl (by first | exact id | exact fun _ => rfl))

theorem commitDrain_kept {s0 s : State} (h : Kept s0 s) (kind : Nat) (n : Nat) : Kept s0 (commitDrain s kind n) := by
  unfold commitDrain
  iterate 3
    repeat' (first
      | (with_reducible assumption) | (with_reducible apply ite_kept) | (with_reducible apply loseCopies_kept)
      | (with_reducible apply foldl_kept <;> intros) | (split) | (dsimp only))
    all_goals (try with_reducible refine mk_kept ?_ rfl (by first | rfl | simp) (by first | rfl | simp) rfl (by first | exact id | exact fun _ => rfl))

theorem leaveStack_kept {s0 s : State} (h : Kept s0 s) (n : Nat) : Kept s0 (leaveStack s n) := by
  unfold leaveStack
  iterate 3
    repeat' (first
      | (with_reducible assumption) | (with_reducible apply ite_kept) | (with_reducible apply modStack_kept) | (with_reducible apply dropFlights_kept)
      | (with_reducible apply markDieReset_kept) | (with_reducible apply modDie_kept) | (with_reducible apply dieOff_kept)
      | (with_reducible apply foldl_kept <;> intros) | (split) | (dsimp only))
    all_goals (try with_reducible refine mk_kept ?_ rfl (by first | rfl | simp) (by first | rfl | simp) rfl (by first | exact id | exact fun _ => rfl))

theorem drainLeave_kept {s0 s : State} (h : Kept s0 s) (k : Nat) (n : Nat) : Kept s0 (drainLeave s k n) := by
  unfold drainLeave
  iterate 3
    repeat' (first
      | (with_reducible assumption) | (with_reducible apply ite_kept) | (with_reducible apply commitDrain_kept)
      | (with_reducible apply leaveStack_kept) | (with_reducible apply releaseSlots_kept) | (with_reducible apply dieOff_kept)
      | (with_reducible apply requeueGroup_kept) | (with_reducible apply foldl_kept <;> intros) | (split) | (dsimp only))
    all_goals (try with_reducible refine mk_kept ?_ rfl (by first | rfl | simp) (by first | rfl | simp) rfl (by first | exact id | exact fun _ => rfl))

theorem execDrainComplete_kept {s0 s : State} (h : Kept s0 s) (kind : BitVec 2) (unit : BitVec 3) : KeptOut s0 (execDrainComplete kind unit s) := by
  unfold execDrainComplete
  iterate 3
    repeat' (first
      | (with_reducible assumption) | (with_reducible apply next_kept) | (with_reducible apply iteOut_kept) | (with_reducible apply ite_kept)
      | (with_reducible apply drainSlots_kept) | (with_reducible apply drainLeave_kept) | (with_reducible apply endCap_kept)
      | (with_reducible apply setCap_kept) | (with_reducible apply foldl_kept <;> intros) | (split) | (dsimp only))
    all_goals (try with_reducible refine mk_kept ?_ rfl (by first | rfl | simp) (by first | rfl | simp) rfl (by first | exact id | exact fun _ => rfl))

theorem execPlacementQuery_kept {s0 s : State} (h : Kept s0 s) (r : Requester) (idx : Word) : KeptOut s0 (execPlacementQuery r idx s) := by
  unfold execPlacementQuery
  iterate 3
    repeat' (first
      | (with_reducible assumption) | (with_reducible apply next_kept) | (with_reducible apply iteOut_kept) | (with_reducible apply ite_kept)
      | (with_reducible apply regPut_kept) | (with_reducible apply foldl_kept <;> intros) | (split) | (dsimp only))
    all_goals (try with_reducible refine mk_kept ?_ rfl (by first | rfl | simp) (by first | rfl | simp) rfl (by first | exact id | exact fun _ => rfl))

theorem execPlacementQueryDone_kept {s0 s : State} (h : Kept s0 s) : KeptOut s0 (execPlacementQueryDone s) := by
  unfold execPlacementQueryDone
  iterate 3
    repeat' (first
      | (with_reducible assumption) | (with_reducible apply next_kept) | (with_reducible apply iteOut_kept) | (with_reducible apply ite_kept)
      | (with_reducible apply foldl_kept <;> intros) | (split) | (dsimp only))
    all_goals (try with_reducible refine mk_kept ?_ rfl (by first | rfl | simp) (by first | rfl | simp) rfl (by first | exact id | exact fun _ => rfl))

theorem raiseClaim_kept {s0 s : State} (h : Kept s0 s) (a : Nat) (claim : Nat) : Kept s0 (raiseClaim s a claim) := by
  unfold raiseClaim
  iterate 3
    repeat' (first
      | (with_reducible assumption) | (with_reducible apply ite_kept) | (with_reducible apply foldl_kept <;> intros) | (split) | (dsimp only))
    all_goals (try with_reducible refine mk_kept ?_ rfl (by first | rfl | simp) (by first | rfl | simp) rfl (by first | exact id | exact fun _ => rfl))

theorem executeAt_kept {s0 s : State} (h : Kept s0 s) (q : FabArgs) (a : Nat) : Kept s0 (executeAt s q a).1 := by
  unfold executeAt
  iterate 3
    repeat' (first
      | (with_reducible assumption) | (with_reducible apply ite_kept) | (with_reducible apply bump_kept) | (with_reducible apply memWrite_kept)
      | (with_reducible apply raiseClaim_kept) | (with_reducible apply foldl_kept <;> intros) | (split) | (dsimp only))
    all_goals (try with_reducible refine mk_kept ?_ rfl (by first | rfl | simp) (by first | rfl | simp) rfl (by first | exact id | exact fun _ => rfl))

theorem executeReq_kept {s0 s : State} (h : Kept s0 s) (src : Nat) (q : FabArgs) : Kept s0 (executeReq s src q).1 := by
  unfold executeReq
  iterate 3
    repeat' (first
      | (with_reducible assumption) | (with_reducible apply ite_kept) | (with_reducible apply executeAt_kept)
      | (with_reducible apply refuseAccess_kept) | (with_reducible apply foldl_kept <;> intros) | (split) | (dsimp only))
    all_goals (try with_reducible refine mk_kept ?_ rfl (by first | rfl | simp) (by first | rfl | simp) rfl (by first | exact id | exact fun _ => rfl))

theorem answerTo_kept {s0 s : State} (h : Kept s0 s) (dev : Nat) (tag : Nat) (addr : Nat) (x : FabAnswer) : Kept s0 (answerTo s dev tag addr x) := by
  unfold answerTo
  iterate 3
    repeat' (first
      | (with_reducible assumption) | (with_reducible apply ite_kept) | (with_reducible apply transmit_kept)
      | (with_reducible apply foldl_kept <;> intros) | (split) | (dsimp only))
    all_goals (try with_reducible refine mk_kept ?_ rfl (by first | rfl | simp) (by first | rfl | simp) rfl (by first | exact id | exact fun _ => rfl))

theorem receiveReq_kept {s0 s : State} (h : Kept s0 s) (src : Nat) (detour : Bool) (q : FabArgs) : Kept s0 (receiveReq s src detour q) := by
  unfold receiveReq
  iterate 3
    repeat' (first
      | (with_reducible assumption) | (with_reducible apply ite_kept) | (with_reducible apply modFab_kept) | (with_reducible apply transmit_kept)
      | (with_reducible apply answerTo_kept) | (with_reducible apply bump_kept) | (with_reducible apply executeReq_kept)
      | (with_reducible apply foldl_kept <;> intros) | (split) | (dsimp only))
    all_goals (try with_reducible refine mk_kept ?_ rfl (by first | rfl | simp) (by first | rfl | simp) rfl (by first | exact id | exact fun _ => rfl))

theorem execReadLine_kept {s0 s : State} (h : Kept s0 s) (src : BitVec 3) (detour : Bool) (tag : BitVec 16) (ctx : BitVec 16) (addr : BitVec 48) :
    KeptOut s0 (execReadLine src detour tag ctx addr s) := by
  unfold execReadLine
  iterate 3
    repeat' (first
      | (with_reducible assumption) | (with_reducible apply next_kept) | (with_reducible apply iteOut_kept) | (with_reducible apply ite_kept)
      | (with_reducible apply receiveReq_kept) | (with_reducible apply foldl_kept <;> intros) | (split) | (dsimp only))
    all_goals (try with_reducible refine mk_kept ?_ rfl (by first | rfl | simp) (by first | rfl | simp) rfl (by first | exact id | exact fun _ => rfl))

theorem execWriteLine_kept {s0 s : State} (h : Kept s0 s) (src : BitVec 3) (detour : Bool) (tag : BitVec 16) (ctx : BitVec 16) (claim : Word) (addr : BitVec 48) (mask : Option (BitVec 128)) (data : List Byte) :
    KeptOut s0 (execWriteLine src detour tag ctx claim addr mask data s) := by
  unfold execWriteLine
  iterate 3
    repeat' (first
      | (with_reducible assumption) | (with_reducible apply next_kept) | (with_reducible apply iteOut_kept) | (with_reducible apply ite_kept)
      | (with_reducible apply receiveReq_kept) | (with_reducible apply foldl_kept <;> intros) | (split) | (dsimp only))
    all_goals (try with_reducible refine mk_kept ?_ rfl (by first | rfl | simp) (by first | rfl | simp) rfl (by first | exact id | exact fun _ => rfl))

theorem atomicReq_kept {s0 s : State} (h : Kept s0 s) (op : Nat) (src : BitVec 3) (detour : Bool) (tag : BitVec 16) (ctx : BitVec 16) (claim : Word) (addr : BitVec 48) (operand : BitVec 64) (compare : BitVec 64) :
    Kept s0 (atomicReq op src detour tag ctx claim addr operand compare s) := by
  unfold atomicReq
  iterate 3
    repeat' (first
      | (with_reducible assumption) | (with_reducible apply ite_kept) | (with_reducible apply receiveReq_kept)
      | (with_reducible apply foldl_kept <;> intros) | (split) | (dsimp only))
    all_goals (try with_reducible refine mk_kept ?_ rfl (by first | rfl | simp) (by first | rfl | simp) rfl (by first | exact id | exact fun _ => rfl))

theorem execAtomicAdd_kept {s0 s : State} (h : Kept s0 s) (src : BitVec 3) (detour : Bool) (tag : BitVec 16) (ctx : BitVec 16) (claim : Word) (addr : BitVec 48) (operand : BitVec 64) :
    KeptOut s0 (execAtomicAdd src detour tag ctx claim addr operand s) := by
  unfold execAtomicAdd
  iterate 3
    repeat' (first
      | (with_reducible assumption) | (with_reducible apply next_kept) | (with_reducible apply iteOut_kept) | (with_reducible apply ite_kept)
      | (with_reducible apply atomicReq_kept) | (with_reducible apply foldl_kept <;> intros) | (split) | (dsimp only))
    all_goals (try with_reducible refine mk_kept ?_ rfl (by first | rfl | simp) (by first | rfl | simp) rfl (by first | exact id | exact fun _ => rfl))

theorem execAtomicCas_kept {s0 s : State} (h : Kept s0 s) (src : BitVec 3) (detour : Bool) (tag : BitVec 16) (ctx : BitVec 16) (claim : Word) (addr : BitVec 48) (operand : BitVec 64) (compare : BitVec 64) :
    KeptOut s0 (execAtomicCas src detour tag ctx claim addr operand compare s) := by
  unfold execAtomicCas
  iterate 3
    repeat' (first
      | (with_reducible assumption) | (with_reducible apply next_kept) | (with_reducible apply iteOut_kept) | (with_reducible apply ite_kept)
      | (with_reducible apply atomicReq_kept) | (with_reducible apply foldl_kept <;> intros) | (split) | (dsimp only))
    all_goals (try with_reducible refine mk_kept ?_ rfl (by first | rfl | simp) (by first | rfl | simp) rfl (by first | exact id | exact fun _ => rfl))

theorem execAtomicMin_kept {s0 s : State} (h : Kept s0 s) (src : BitVec 3) (detour : Bool) (tag : BitVec 16) (ctx : BitVec 16) (claim : Word) (addr : BitVec 48) (operand : BitVec 64) :
    KeptOut s0 (execAtomicMin src detour tag ctx claim addr operand s) := by
  unfold execAtomicMin
  iterate 3
    repeat' (first
      | (with_reducible assumption) | (with_reducible apply next_kept) | (with_reducible apply iteOut_kept) | (with_reducible apply ite_kept)
      | (with_reducible apply atomicReq_kept) | (with_reducible apply foldl_kept <;> intros) | (split) | (dsimp only))
    all_goals (try with_reducible refine mk_kept ?_ rfl (by first | rfl | simp) (by first | rfl | simp) rfl (by first | exact id | exact fun _ => rfl))

theorem execAtomicMax_kept {s0 s : State} (h : Kept s0 s) (src : BitVec 3) (detour : Bool) (tag : BitVec 16) (ctx : BitVec 16) (claim : Word) (addr : BitVec 48) (operand : BitVec 64) :
    KeptOut s0 (execAtomicMax src detour tag ctx claim addr operand s) := by
  unfold execAtomicMax
  iterate 3
    repeat' (first
      | (with_reducible assumption) | (with_reducible apply next_kept) | (with_reducible apply iteOut_kept) | (with_reducible apply ite_kept)
      | (with_reducible apply atomicReq_kept) | (with_reducible apply foldl_kept <;> intros) | (split) | (dsimp only))
    all_goals (try with_reducible refine mk_kept ?_ rfl (by first | rfl | simp) (by first | rfl | simp) rfl (by first | exact id | exact fun _ => rfl))

theorem execAtomicSwap_kept {s0 s : State} (h : Kept s0 s) (src : BitVec 3) (detour : Bool) (tag : BitVec 16) (ctx : BitVec 16) (claim : Word) (addr : BitVec 48) (operand : BitVec 64) :
    KeptOut s0 (execAtomicSwap src detour tag ctx claim addr operand s) := by
  unfold execAtomicSwap
  iterate 3
    repeat' (first
      | (with_reducible assumption) | (with_reducible apply next_kept) | (with_reducible apply iteOut_kept) | (with_reducible apply ite_kept)
      | (with_reducible apply atomicReq_kept) | (with_reducible apply foldl_kept <;> intros) | (split) | (dsimp only))
    all_goals (try with_reducible refine mk_kept ?_ rfl (by first | rfl | simp) (by first | rfl | simp) rfl (by first | exact id | exact fun _ => rfl))

theorem linkFault_kept {s0 s : State} (h : Kept s0 s) (b : Nat) (j : Nat) (outcome : Nat) (cause : Nat) (injected : Bool) :
    Kept s0 (linkFault s b j outcome cause injected) := by
  unfold linkFault
  iterate 3
    repeat' (first
      | (with_reducible assumption) | (with_reducible apply ite_kept) | (with_reducible apply fault_kept)
      | (with_reducible apply foldl_kept <;> intros) | (split) | (dsimp only))
    all_goals (try with_reducible refine mk_kept ?_ rfl (by first | rfl | simp) (by first | rfl | simp) rfl (by first | exact id | exact fun _ => rfl))

theorem handPacket_kept {s0 s : State} (h : Kept s0 s) (ls : List (Nat × Nat)) (p : TxPacket) : Kept s0 (handPacket ls s p) := by
  unfold handPacket
  iterate 3
    repeat' (first
      | (with_reducible assumption) | (with_reducible apply ite_kept) | (with_reducible apply modLink_kept) | (with_reducible apply transmit_kept)
      | (with_reducible apply foldl_kept <;> intros) | (split) | (dsimp only))
    all_goals (try with_reducible refine mk_kept ?_ rfl (by first | rfl | simp) (by first | rfl | simp) rfl (by first | exact id | exact fun _ => rfl))

theorem execLinkLightDetected_kept {s0 s : State} (h : Kept s0 s) (b : BitVec 4) (j : BitVec 3) : KeptOut s0 (execLinkLightDetected b j s) := by
  unfold execLinkLightDetected
  iterate 3
    repeat' (first
      | (with_reducible assumption) | (with_reducible apply next_kept) | (with_reducible apply iteOut_kept) | (with_reducible apply ite_kept)
      | (with_reducible apply modLink_kept) | (with_reducible apply foldl_kept <;> intros) | (split) | (dsimp only))
    all_goals (try with_reducible refine mk_kept ?_ rfl (by first | rfl | simp) (by first | rfl | simp) rfl (by first | exact id | exact fun _ => rfl))

theorem trainLink_kept {s0 s : State} (h : Kept s0 s) (bn : Nat) (jn : Nat) (bad : BitVec 9) (far : FarEnd) (asym : BitVec 16) :
    Kept s0 (trainLink s bn jn bad far asym) := by
  unfold trainLink
  iterate 3
    repeat' (first
      | (with_reducible assumption) | (with_reducible apply ite_kept) | (with_reducible apply fault_kept) | (with_reducible apply modLink_kept)
      | (with_reducible apply foldl_kept <;> intros) | (split) | (dsimp only))
    all_goals (try with_reducible refine mk_kept ?_ rfl (by first | rfl | simp) (by first | rfl | simp) rfl (by first | exact id | exact fun _ => rfl))

theorem execLinkTrainTimeout_kept {s0 s : State} (h : Kept s0 s) (b : BitVec 4) (j : BitVec 3) : KeptOut s0 (execLinkTrainTimeout b j s) := by
  unfold execLinkTrainTimeout
  iterate 3
    repeat' (first
      | (with_reducible assumption) | (with_reducible apply next_kept) | (with_reducible apply iteOut_kept) | (with_reducible apply ite_kept)
      | (with_reducible apply modLink_kept) | (with_reducible apply foldl_kept <;> intros) | (split) | (dsimp only))
    all_goals (try with_reducible refine mk_kept ?_ rfl (by first | rfl | simp) (by first | rfl | simp) rfl (by first | exact id | exact fun _ => rfl))

theorem replaceFabLane_kept {s0 s : State} (h : Kept s0 s) (b : Nat) (j : Nat) (lane : Nat) (errs : Nat) (ring : Bool) :
    Kept s0 (replaceFabLane s b j lane errs ring).1 := by
  unfold replaceFabLane
  iterate 3
    repeat' (first
      | (with_reducible assumption) | (with_reducible apply ite_kept) | (with_reducible apply modLink_kept) | (with_reducible apply linkFault_kept)
      | (with_reducible apply foldl_kept <;> intros) | (split) | (dsimp only))
    all_goals (try with_reducible refine mk_kept ?_ rfl (by first | rfl | simp) (by first | rfl | simp) rfl (by first | exact id | exact fun _ => rfl))

theorem ackLink_kept {s0 s : State} (h : Kept s0 s) (b : Nat) (j : Nat) (ack : Nat) : Kept s0 (ackLink s b j ack) := by
  unfold ackLink
  iterate 3
    repeat' (first
      | (with_reducible assumption) | (with_reducible apply ite_kept) | (with_reducible apply modLink_kept)
      | (with_reducible apply foldl_kept <;> intros) | (split) | (dsimp only))
    all_goals (try with_reducible refine mk_kept ?_ rfl (by first | rfl | simp) (by first | rfl | simp) rfl (by first | exact id | exact fun _ => rfl))

theorem nakLink_kept {s0 s : State} (h : Kept s0 s) (b : Nat) (j : Nat) : Kept s0 (nakLink s b j) := by
  unfold nakLink
  iterate 3
    repeat' (first
      | (with_reducible assumption) | (with_reducible apply ite_kept) | (with_reducible apply emit_kept) | (with_reducible apply modLink_kept)
      | (with_reducible apply foldl_kept <;> intros) | (split) | (dsimp only))
    all_goals (try with_reducible refine mk_kept ?_ rfl (by first | rfl | simp) (by first | rfl | simp) rfl (by first | exact id | exact fun _ => rfl))

theorem takeTrailer_kept {s0 s : State} (h : Kept s0 s) (b : Nat) (j : Nat) (slots : List Byte) : Kept s0 (takeTrailer s b j slots) := by
  unfold takeTrailer
  iterate 3
    repeat' (first
      | (with_reducible assumption) | (with_reducible apply ite_kept) | (with_reducible apply ackLink_kept) | (with_reducible apply nakLink_kept)
      | (with_reducible apply modLink_kept) | (with_reducible apply foldl_kept <;> intros) | (split) | (dsimp only))
    all_goals (try with_reducible refine mk_kept ?_ rfl (by first | rfl | simp) (by first | rfl | simp) rfl (by first | exact id | exact fun _ => rfl))

theorem modMsg_kept {s0 s : State} (h : Kept s0 s) (f : MsgRings → MsgRings) : Kept s0 (modMsg s f) := by
  unfold modMsg
  iterate 3
    repeat' (first
      | (with_reducible assumption) | (with_reducible apply ite_kept) | (with_reducible apply modFab_kept)
      | (with_reducible apply foldl_kept <;> intros) | (split) | (dsimp only))
    all_goals (try with_reducible refine mk_kept ?_ rfl (by first | rfl | simp) (by first | rfl | simp) rfl (by first | exact id | exact fun _ => rfl))

theorem writeMsgEntry_kept {s0 s : State} (h : Kept s0 s) (type : Nat) (st : Nat) (tag : Nat) (len : Nat) (b : Nat) (rq : Nat) (far : Nat × Nat) :
    Kept s0 (writeMsgEntry s type st tag len b rq far) := by
  unfold writeMsgEntry
  iterate 3
    repeat' (first
      | (with_reducible assumption) | (with_reducible apply ite_kept) | (with_reducible apply hostWrite_kept)
      | (with_reducible apply signalVector_kept) | (with_reducible apply modMsg_kept) | (with_reducible apply foldl_kept <;> intros) | (split)
      | (dsimp only))
    all_goals (try with_reducible refine mk_kept ?_ rfl (by first | rfl | simp) (by first | rfl | simp) rfl (by first | exact id | exact fun _ => rfl))

theorem endMessage_kept {s0 s : State} (h : Kept s0 s) (x : MsgSent) (st : Nat) : Kept s0 (endMessage s x st) := by
  unfold endMessage
  iterate 3
    repeat' (first
      | (with_reducible assumption) | (with_reducible apply ite_kept) | (with_reducible apply modMsg_kept) | (with_reducible apply writeMsgEntry_kept)
      | (with_reducible apply foldl_kept <;> intros) | (split) | (dsimp only))
    all_goals (try with_reducible refine mk_kept ?_ rfl (by first | rfl | simp) (by first | rfl | simp) rfl (by first | exact id | exact fun _ => rfl))

theorem msgDoorbell_kept {s0 s : State} (h : Kept s0 s) (i : Nat) (full : Bool) (v : Word) (act : MsgRings → Nat → MsgRings) :
    Kept s0 (msgDoorbell s i full v act) := by
  unfold msgDoorbell
  iterate 3
    repeat' (first
      | (with_reducible assumption) | (with_reducible apply ite_kept) | (with_reducible apply modMsg_kept)
      | (with_reducible apply foldl_kept <;> intros) | (split) | (dsimp only))
    all_goals (try with_reducible refine mk_kept ?_ rfl (by first | rfl | simp) (by first | rfl | simp) rfl (by first | exact id | exact fun _ => rfl))

theorem execFabMsgSqTail_kept {s0 s : State} (h : Kept s0 s) (full : Bool) (v : Word) : KeptOut s0 (execFabMsgSqTail full v s) := by
  unfold execFabMsgSqTail
  iterate 3
    repeat' (first
      | (with_reducible assumption) | (with_reducible apply next_kept) | (with_reducible apply iteOut_kept) | (with_reducible apply ite_kept)
      | (with_reducible apply msgDoorbell_kept) | (with_reducible apply foldl_kept <;> intros) | (split) | (dsimp only))
    all_goals (try with_reducible refine mk_kept ?_ rfl (by first | rfl | simp) (by first | rfl | simp) rfl (by first | exact id | exact fun _ => rfl))

theorem execFabMsgCqHead_kept {s0 s : State} (h : Kept s0 s) (full : Bool) (v : Word) : KeptOut s0 (execFabMsgCqHead full v s) := by
  unfold execFabMsgCqHead
  iterate 3
    repeat' (first
      | (with_reducible assumption) | (with_reducible apply next_kept) | (with_reducible apply iteOut_kept) | (with_reducible apply ite_kept)
      | (with_reducible apply msgDoorbell_kept) | (with_reducible apply foldl_kept <;> intros) | (split) | (dsimp only))
    all_goals (try with_reducible refine mk_kept ?_ rfl (by first | rfl | simp) (by first | rfl | simp) rfl (by first | exact id | exact fun _ => rfl))

theorem execFabMsgRqTail_kept {s0 s : State} (h : Kept s0 s) (full : Bool) (v : Word) : KeptOut s0 (execFabMsgRqTail full v s) := by
  unfold execFabMsgRqTail
  iterate 3
    repeat' (first
      | (with_reducible assumption) | (with_reducible apply next_kept) | (with_reducible apply iteOut_kept) | (with_reducible apply ite_kept)
      | (with_reducible apply msgDoorbell_kept) | (with_reducible apply foldl_kept <;> intros) | (split) | (dsimp only))
    all_goals (try with_reducible refine mk_kept ?_ rfl (by first | rfl | simp) (by first | rfl | simp) rfl (by first | exact id | exact fun _ => rfl))

theorem execMessageSend_kept {s0 s : State} (h : Kept s0 s) (ver : BitVec 4) (bundle : BitVec 8) (tag : BitVec 16) (len : Word) (addr : BitVec 64) (body : List Byte) :
    KeptOut s0 (execMessageSend ver bundle tag len addr body s) := by
  unfold execMessageSend
  iterate 3
    repeat' (first
      | (with_reducible assumption) | (with_reducible apply next_kept) | (with_reducible apply iteOut_kept) | (with_reducible apply ite_kept)
      | (with_reducible apply modMsg_kept) | (with_reducible apply writeMsgEntry_kept) | (with_reducible apply send_kept)
      | (with_reducible apply foldl_kept <;> intros) | (split) | (dsimp only))
    all_goals (try with_reducible refine mk_kept ?_ rfl (by first | rfl | simp) (by first | rfl | simp) rfl (by first | exact id | exact fun _ => rfl))

theorem endFailed_kept {s0 s : State} (h : Kept s0 s) (b n : Nat) : Kept s0 (endFailed b n s) := by
  induction n generalizing s with
  | zero => exact h
  | succ n ih =>
    unfold endFailed
    split
    · exact ite_kept (ih (endMessage_kept h _ _)) h
    · exact h

theorem execMessageSentConfirm_kept {s0 s : State} (h : Kept s0 s) (bundle : BitVec 4) (written : Bool) :
    KeptOut s0 (execMessageSentConfirm bundle written s) := by
  unfold execMessageSentConfirm
  iterate 3
    repeat' (first
      | (with_reducible assumption) | (with_reducible apply next_kept) | (with_reducible apply iteOut_kept) | (with_reducible apply ite_kept)
      | (with_reducible apply endFailed_kept) | (with_reducible apply endMessage_kept) | (with_reducible apply foldl_kept <;> intros) | (split)
      | (dsimp only))
    all_goals (try with_reducible refine mk_kept ?_ rfl (by first | rfl | simp) (by first | rfl | simp) rfl (by first | exact id | exact fun _ => rfl))

theorem nextMsgBuf_kept {s0 s : State} (h : Kept s0 s) (bs : List BufEntry) : Kept s0 (nextMsgBuf s bs).1 := by
  induction bs generalizing s with
  | nil => exact h
  | cons b bs ih =>
    unfold nextMsgBuf
    split
    · exact h
    · split
      · exact h
      · exact ih (modMsg_kept (noteSet_kept h _ _) _)

theorem execMessageReceive_kept {s0 s : State} (h : Kept s0 s) (bundle : BitVec 4) (tag : BitVec 16) (body : List Byte) (bufs : List BufEntry) :
    KeptOut s0 (execMessageReceive bundle tag body bufs s) := by
  unfold execMessageReceive
  dsimp only
  split
  · exact next_kept h
  · split
    · exact next_kept (send_kept h _)
    · have hk := nextMsgBuf_kept h bufs
      split
      · rename_i he; rw [he] at hk; exact next_kept (send_kept hk _)
      · rename_i he; rw [he] at hk
        exact next_kept (send_kept (writeMsgEntry_kept (hostWrite_kept (modMsg_kept hk _) _ _ _) _ _ _ _ _ _ _) _)

theorem execMsgRingsEnable_kept {s0 s : State} (h : Kept s0 s) (vector : BitVec 11) : KeptOut s0 (execMsgRingsEnable vector s) := by
  unfold execMsgRingsEnable
  iterate 3
    repeat' (first
      | (with_reducible assumption) | (with_reducible apply next_kept) | (with_reducible apply iteOut_kept) | (with_reducible apply ite_kept)
      | (with_reducible apply regSetBits_kept) | (with_reducible apply modMsg_kept) | (with_reducible apply foldl_kept <;> intros) | (split)
      | (dsimp only))
    all_goals (try with_reducible refine mk_kept ?_ rfl (by first | rfl | simp) (by first | rfl | simp) rfl (by first | exact id | exact fun _ => rfl))

theorem execMsgRingsDisable_kept {s0 s : State} (h : Kept s0 s) (vector : BitVec 11) : KeptOut s0 (execMsgRingsDisable vector s) := by
  unfold execMsgRingsDisable
  iterate 3
    repeat' (first
      | (with_reducible assumption) | (with_reducible apply next_kept) | (with_reducible apply iteOut_kept) | (with_reducible apply ite_kept)
      | (with_reducible apply regSetBits_kept) | (with_reducible apply endMessage_kept) | (with_reducible apply modMsg_kept)
      | (with_reducible apply foldl_kept <;> intros) | (split) | (dsimp only))
    all_goals (try with_reducible refine mk_kept ?_ rfl (by first | rfl | simp) (by first | rfl | simp) rfl (by first | exact id | exact fun _ => rfl))

theorem startDma_kept {s0 s : State} (h : Kept s0 s) (n : Nat) (v : Word) (resume : Bool) : Kept s0 (startDma s n v resume) := by
  unfold startDma
  iterate 3
    repeat' (first
      | (with_reducible assumption) | (with_reducible apply ite_kept) | (with_reducible apply modDma_kept) | (with_reducible apply regPut_kept)
      | (with_reducible apply haltDma_kept) | (with_reducible apply noteSegs_kept) | (with_reducible apply foldl_kept <;> intros) | (split)
      | (dsimp only))
    all_goals (try with_reducible refine mk_kept ?_ rfl (by first | rfl | simp) (by first | rfl | simp) rfl (by first | exact id | exact fun _ => rfl))

theorem settleAbort_kept {s0 s : State} (h : Kept s0 s) (n : Nat) : Kept s0 (settleAbort s n) := by
  unfold settleAbort
  iterate 3
    repeat' (first
      | (with_reducible assumption) | (with_reducible apply ite_kept) | (with_reducible apply haltDma_kept)
      | (with_reducible apply foldl_kept <;> intros) | (split) | (dsimp only))
    all_goals (try with_reducible refine mk_kept ?_ rfl (by first | rfl | simp) (by first | rfl | simp) rfl (by first | exact id | exact fun _ => rfl))

theorem dmaGo_kept {s0 s : State} (h : Kept s0 s) (n : Nat) (by_ : DmaBy) (v : Word) (resume : Bool) : Kept s0 (dmaGo s n by_ v resume) := by
  unfold dmaGo
  iterate 3
    repeat' (first
      | (with_reducible assumption) | (with_reducible apply ite_kept) | (with_reducible apply logRefused_kept)
      | (with_reducible apply settleAbort_kept) | (with_reducible apply startDma_kept) | (with_reducible apply regPut_kept)
      | (with_reducible apply foldl_kept <;> intros) | (split) | (dsimp only))
    all_goals (try with_reducible refine mk_kept ?_ rfl (by first | rfl | simp) (by first | rfl | simp) rfl (by first | exact id | exact fun _ => rfl))

theorem execDmaGo_kept {s0 s : State} (h : Kept s0 s) (n : BitVec 6) (b : DmaBy) (v : Word) : KeptOut s0 (execDmaGo n b v s) := by
  unfold execDmaGo
  iterate 3
    repeat' (first
      | (with_reducible assumption) | (with_reducible apply next_kept) | (with_reducible apply iteOut_kept) | (with_reducible apply ite_kept)
      | (with_reducible apply dmaGo_kept) | (with_reducible apply foldl_kept <;> intros) | (split) | (dsimp only))
    all_goals (try with_reducible refine mk_kept ?_ rfl (by first | rfl | simp) (by first | rfl | simp) rfl (by first | exact id | exact fun _ => rfl))

theorem execDmaResume_kept {s0 s : State} (h : Kept s0 s) (n : BitVec 6) (b : DmaBy) (v : Word) : KeptOut s0 (execDmaResume n b v s) := by
  unfold execDmaResume
  iterate 3
    repeat' (first
      | (with_reducible assumption) | (with_reducible apply next_kept) | (with_reducible apply iteOut_kept) | (with_reducible apply ite_kept)
      | (with_reducible apply dmaGo_kept) | (with_reducible apply foldl_kept <;> intros) | (split) | (dsimp only))
    all_goals (try with_reducible refine mk_kept ?_ rfl (by first | rfl | simp) (by first | rfl | simp) rfl (by first | exact id | exact fun _ => rfl))

theorem execDmaAbort_kept {s0 s : State} (h : Kept s0 s) (n : BitVec 6) (r : Requester) : KeptOut s0 (execDmaAbort n r s) := by
  unfold execDmaAbort
  iterate 3
    repeat' (first
      | (with_reducible assumption) | (with_reducible apply next_kept) | (with_reducible apply iteOut_kept) | (with_reducible apply ite_kept)
      | (with_reducible apply logRefused_kept) | (with_reducible apply abortDma_kept) | (with_reducible apply foldl_kept <;> intros) | (split)
      | (dsimp only))
    all_goals (try with_reducible refine mk_kept ?_ rfl (by first | rfl | simp) (by first | rfl | simp) rfl (by first | exact id | exact fun _ => rfl))

theorem modChk_kept {s0 s : State} (h : Kept s0 s) (e : Nat) (f : ChkEngine → ChkEngine) : Kept s0 (modChk s e f) := by
  unfold modChk
  iterate 3
    repeat' (first
      | (with_reducible assumption) | (with_reducible apply ite_kept) | (with_reducible apply foldl_kept <;> intros) | (split) | (dsimp only))
    all_goals (try with_reducible refine mk_kept ?_ rfl (by first | rfl | simp) (by first | rfl | simp) rfl (by first | exact id | exact fun _ => rfl))

theorem putValue_kept {s0 s : State} (h : Kept s0 s) (e : Nat) (v : Nat) : Kept s0 (putValue s e v) := by
  unfold putValue
  iterate 3
    repeat' (first
      | (with_reducible assumption) | (with_reducible apply ite_kept) | (with_reducible apply regPut_kept)
      | (with_reducible apply foldl_kept <;> intros) | (split) | (dsimp only))
    all_goals (try with_reducible refine mk_kept ?_ rfl (by first | rfl | simp) (by first | rfl | simp) rfl (by first | exact id | exact fun _ => rfl))

theorem execChkGo_kept {s0 s : State} (h : Kept s0 s) (e : BitVec 4) (r : Requester) (v : Word) : KeptOut s0 (execChkGo e r v s) := by
  unfold execChkGo
  iterate 3
    repeat' (first
      | (with_reducible assumption) | (with_reducible apply next_kept) | (with_reducible apply iteOut_kept) | (with_reducible apply ite_kept)
      | (with_reducible apply logRefused_kept) | (with_reducible apply regPut_kept) | (with_reducible apply putValue_kept)
      | (with_reducible apply modChk_kept) | (with_reducible apply foldl_kept <;> intros) | (split) | (dsimp only))
    all_goals (try with_reducible refine mk_kept ?_ rfl (by first | rfl | simp) (by first | rfl | simp) rfl (by first | exact id | exact fun _ => rfl))

theorem consume_kept {s0 s : State} (h : Kept s0 s) (e : Nat) (bs : List Byte) : Kept s0 (consume s e bs) := by
  unfold consume
  iterate 3
    repeat' (first
      | (with_reducible assumption) | (with_reducible apply ite_kept) | (with_reducible apply modChk_kept) | (with_reducible apply putValue_kept)
      | (with_reducible apply foldl_kept <;> intros) | (split) | (dsimp only))
    all_goals (try with_reducible refine mk_kept ?_ rfl (by first | rfl | simp) (by first | rfl | simp) rfl (by first | exact id | exact fun _ => rfl))

theorem refuseScan_kept {s0 s : State} (h : Kept s0 s) (e : Nat) (r : MemReq × Nat × Nat) : Kept s0 (refuseScan s e r) := by
  unfold refuseScan
  iterate 3
    repeat' (first
      | (with_reducible assumption) | (with_reducible apply ite_kept) | (with_reducible apply endEngine_kept)
      | (with_reducible apply refuseAccess_kept) | (with_reducible apply foldl_kept <;> intros) | (split) | (dsimp only))
    all_goals (try with_reducible refine mk_kept ?_ rfl (by first | rfl | simp) (by first | rfl | simp) rfl (by first | exact id | exact fun _ => rfl))

theorem execChkStop_kept {s0 s : State} (h : Kept s0 s) (e : BitVec 4) (r : Requester) (n : Word) (bs : List Byte) :
    KeptOut s0 (execChkStop e r n bs s) := by
  unfold execChkStop
  iterate 3
    repeat' (first
      | (with_reducible assumption) | (with_reducible apply next_kept) | (with_reducible apply iteOut_kept) | (with_reducible apply ite_kept)
      | (with_reducible apply logRefused_kept) | (with_reducible apply refuseScan_kept) | (with_reducible apply consume_kept)
      | (with_reducible apply modChk_kept) | (with_reducible apply foldl_kept <;> intros) | (split) | (dsimp only))
    all_goals (try with_reducible refine mk_kept ?_ rfl (by first | rfl | simp) (by first | rfl | simp) rfl (by first | exact id | exact fun _ => rfl))

theorem endDmaTick_kept {s0 s : State} (h : Kept s0 s) : Kept s0 (endDmaTick s) := by
  unfold endDmaTick
  iterate 3
    repeat' (first
      | (with_reducible assumption) | (with_reducible apply ite_kept) | (with_reducible apply settleAbort_kept)
      | (with_reducible apply trimBuffer_kept) | (with_reducible apply endEngine_kept) | (with_reducible apply foldl_kept <;> intros) | (split)
      | (dsimp only))
    all_goals (try with_reducible refine mk_kept ?_ rfl (by first | rfl | simp) (by first | rfl | simp) rfl (by first | exact id | exact fun _ => rfl))

theorem loadChannel_kept {s0 s : State} (h : Kept s0 s) (c : Nat) : Kept s0 (loadChannel s c) := by
  unfold loadChannel
  iterate 3
    repeat' (first
      | (with_reducible assumption) | (with_reducible apply ite_kept) | (with_reducible apply dmaGo_kept) | (with_reducible apply modDma_kept)
      | (with_reducible apply foldl_kept <;> intros) | (split) | (dsimp only))
    all_goals (try with_reducible refine mk_kept ?_ rfl (by first | rfl | simp) (by first | rfl | simp) rfl (by first | exact id | exact fun _ => rfl))

theorem loadChannels_kept {s0 s : State} (h : Kept s0 s) : Kept s0 (loadChannels s) := by
  unfold loadChannels
  iterate 3
    repeat' (first
      | (with_reducible assumption) | (with_reducible apply ite_kept) | (with_reducible apply modDma_kept) | (with_reducible apply loadChannel_kept)
      | (with_reducible apply foldl_kept <;> intros) | (split) | (dsimp only))
    all_goals (try with_reducible refine mk_kept ?_ rfl (by first | rfl | simp) (by first | rfl | simp) rfl (by first | exact id | exact fun _ => rfl))

end Sys2Proof.Machine
end

