-- ==== Sys2Proof/Laws/KeptTenancy.lean ====
section
/-!
SUPPORT. Every function of the state keeps the queue and the invariant: mirrored pairs, tenancy, boot and boundaries.
-/
set_option Elab.async false
set_option linter.all false
namespace Sys2Proof.Machine
open Sys2Proof

theorem modRst_kept {s0 s : State} (h : Kept s0 s) (f : Rst → Rst) : Kept s0 (modRst s f) := by
  unfold modRst
  iterate 3
    repeat' (first
      | (with_reducible assumption) | (with_reducible apply ite_kept) | (with_reducible apply foldl_kept <;> intros) | (split) | (dsimp only))
    all_goals (try with_reducible refine mk_kept ?_ rfl (by first | rfl | simp) (by first | rfl | simp) rfl (by first | exact id | exact fun _ => rfl))

theorem setStage_kept {s0 s : State} (h : Kept s0 s) (n : Nat) : Kept s0 (setStage s n) := by
  unfold setStage
  iterate 3
    repeat' (first
      | (with_reducible assumption) | (with_reducible apply ite_kept) | (with_reducible apply regSetBits_kept)
      | (with_reducible apply foldl_kept <;> intros) | (split) | (dsimp only))
    all_goals (try with_reducible refine mk_kept ?_ rfl (by first | rfl | simp) (by first | rfl | simp) rfl (by first | exact id | exact fun _ => rfl))

theorem setTdi_kept {s0 s : State} (h : Kept s0 s) (v : Nat) (x : TdiState) : Kept s0 (setTdi s v x) := by
  unfold setTdi
  iterate 3
    repeat' (first
      | (with_reducible assumption) | (with_reducible apply ite_kept) | (with_reducible apply foldl_kept <;> intros) | (split) | (dsimp only))
    all_goals (try with_reducible refine mk_kept ?_ rfl (by first | rfl | simp) (by first | rfl | simp) rfl (by first | exact id | exact fun _ => rfl))

theorem startClocks_kept {s0 s : State} (h : Kept s0 s) : Kept s0 (startClocks s) := by
  unfold startClocks
  iterate 3
    repeat' (first
      | (with_reducible assumption) | (with_reducible apply ite_kept) | (with_reducible apply modPwr_kept) | (with_reducible apply modClk_kept)
      | (with_reducible apply stage_kept) | (with_reducible apply foldl_kept <;> intros) | (split) | (dsimp only))
    all_goals (try with_reducible refine mk_kept ?_ rfl (by first | rfl | simp) (by first | rfl | simp) rfl (by first | exact id | exact fun _ => rfl))

theorem openLog_kept {s0 s : State} (h : Kept s0 s) : Kept s0 (openLog s) := by
  unfold openLog
  exact foldl_kept (fun t x ht => appendRecord_kept ht x)
    (kept_of h rfl rfl id (Nat.le_refl _) (Nat.le_refl _) (Nat.zero_le _) id)

theorem modPair_kept {s0 s : State} (h : Kept s0 s) (f : PairBlock → PairBlock) : Kept s0 (modPair s f) := by
  unfold modPair
  iterate 3
    repeat' (first
      | (with_reducible assumption) | (with_reducible apply ite_kept) | (with_reducible apply foldl_kept <;> intros) | (split) | (dsimp only))
    all_goals (try with_reducible refine mk_kept ?_ rfl (by first | rfl | simp) (by first | rfl | simp) rfl (by first | exact id | exact fun _ => rfl))

theorem modSet_kept {s0 s : State} (h : Kept s0 s) (i : Nat) (f : PairSet → PairSet) : Kept s0 (modSet s i f) := by
  unfold modSet
  iterate 3
    repeat' (first
      | (with_reducible assumption) | (with_reducible apply ite_kept) | (with_reducible apply modPair_kept)
      | (with_reducible apply foldl_kept <;> intros) | (split) | (dsimp only))
    all_goals (try with_reducible refine mk_kept ?_ rfl (by first | rfl | simp) (by first | rfl | simp) rfl (by first | exact id | exact fun _ => rfl))

theorem sendLease_kept {s0 s : State} (h : Kept s0 s) (op : Nat) (set : Nat) : Kept s0 (sendLease s op set) := by
  unfold sendLease
  iterate 3
    repeat' (first
      | (with_reducible assumption) | (with_reducible apply ite_kept) | (with_reducible apply send_kept)
      | (with_reducible apply foldl_kept <;> intros) | (split) | (dsimp only))
    all_goals (try with_reducible refine mk_kept ?_ rfl (by first | rfl | simp) (by first | rfl | simp) rfl (by first | exact id | exact fun _ => rfl))

theorem handBack_kept {s0 s : State} (h : Kept s0 s) (set : Nat) : Kept s0 (handBack s set) := by
  unfold handBack
  iterate 3
    repeat' (first
      | (with_reducible assumption) | (with_reducible apply ite_kept) | (with_reducible apply event_kept) | (with_reducible apply modCtx_kept)
      | (with_reducible apply modSet_kept) | (with_reducible apply sendLease_kept) | (with_reducible apply foldl_kept <;> intros) | (split)
      | (dsimp only))
    all_goals (try with_reducible refine mk_kept ?_ rfl (by first | rfl | simp) (by first | rfl | simp) rfl (by first | exact id | exact fun _ => rfl))

theorem loseSession_kept {s0 s : State} (h : Kept s0 s) (cls : Nat) (c : Nat) : Kept s0 (loseSession s cls c) := by
  unfold loseSession
  iterate 3
    repeat' (first
      | (with_reducible assumption) | (with_reducible apply ite_kept) | (with_reducible apply handBack_kept) | (with_reducible apply modUnits_kept)
      | (with_reducible apply modCtx_kept) | (with_reducible apply failRequest_kept) | (with_reducible apply faultNotice_kept)
      | (with_reducible apply foldl_kept <;> intros) | (split) | (dsimp only))
    all_goals (try with_reducible refine mk_kept ?_ rfl (by first | rfl | simp) (by first | rfl | simp) rfl (by first | exact id | exact fun _ => rfl))

theorem loseHomes_kept {s0 s : State} (h : Kept s0 s) (cls : Nat) (us : List PUnit) : Kept s0 (loseHomes s cls us) := by
  unfold loseHomes
  iterate 3
    repeat' (first
      | (with_reducible assumption) | (with_reducible apply ite_kept) | (with_reducible apply loseWeight_kept)
      | (with_reducible apply loseSession_kept) | (with_reducible apply foldl_kept <;> intros) | (split) | (dsimp only))
    all_goals (try with_reducible refine mk_kept ?_ rfl (by first | rfl | simp) (by first | rfl | simp) rfl (by first | exact id | exact fun _ => rfl))

theorem formDomains_kept {s0 s : State} (h : Kept s0 s) : Kept s0 (formDomains s) := by
  unfold formDomains
  iterate 3
    repeat' (first
      | (with_reducible assumption) | (with_reducible apply ite_kept) | (with_reducible apply modStack_kept) | (with_reducible apply modDom_kept)
      | (with_reducible apply foldl_kept <;> intros) | (split) | (dsimp only))
    all_goals (try with_reducible refine mk_kept ?_ rfl (by first | rfl | simp) (by first | rfl | simp) rfl (by first | exact id | exact fun _ => rfl))

theorem reformDomains_kept {s0 s : State} (h : Kept s0 s) : Kept s0 (reformDomains s) := by
  unfold reformDomains
  iterate 3
    repeat' (first
      | (with_reducible assumption) | (with_reducible apply ite_kept) | (with_reducible apply loseHomes_kept) | (with_reducible apply retile_kept)
      | (with_reducible apply formDomains_kept) | (with_reducible apply foldl_kept <;> intros) | (split) | (dsimp only))
    all_goals (try with_reducible refine mk_kept ?_ rfl (by first | rfl | simp) (by first | rfl | simp) rfl (by first | exact id | exact fun _ => rfl))

theorem fly_kept {s0 s : State} (h : Kept s0 s) (dest : C3Place) (p : C3Packet) : Kept s0 (fly s dest p) := by
  unfold fly
  iterate 3
    repeat' (first
      | (with_reducible assumption) | (with_reducible apply ite_kept) | (with_reducible apply foldl_kept <;> intros) | (split) | (dsimp only))
    all_goals (try with_reducible refine mk_kept ?_ rfl (by first | rfl | simp) (by first | rfl | simp) rfl (by first | exact id | exact fun _ => rfl))

theorem passPacket_kept {s0 s : State} (h : Kept s0 s) (n : Nat) (bs : List Byte) : Kept s0 (passPacket s n bs) := by
  unfold passPacket
  iterate 3
    repeat' (first
      | (with_reducible assumption) | (with_reducible apply ite_kept) | (with_reducible apply send_kept) | (with_reducible apply fly_kept)
      | (with_reducible apply enqueue_kept) | (with_reducible apply tileRecord_kept) | (with_reducible apply foldl_kept <;> intros) | (split)
      | (dsimp only))
    all_goals (try with_reducible refine mk_kept ?_ rfl (by first | rfl | simp) (by first | rfl | simp) rfl (by first | exact id | exact fun _ => rfl))

theorem handFlits_kept {s0 s : State} (h : Kept s0 s) (n fuel : Nat) (fs : List (BitVec 512)) : Kept s0 (handFlits n fuel s fs).1 := by
  induction fuel generalizing s fs with
  | zero => exact h
  | succ fuel ih =>
    cases fs with
    | nil => exact h
    | cons x t =>
      unfold handFlits
      dsimp only
      split
      · exact h
      · exact ih (passPacket_kept h _ _) _

theorem deliver_kept {s0 s : State} (h : Kept s0 s) (k pseq : Nat) (flit : BitVec 512) : Kept s0 (deliver s k pseq flit) := by
  unfold deliver
  refine ite_kept h ?_
  dsimp only
  refine ite_kept ?_ (send_kept ?_ _) <;> exact bump64_kept (modFlow_kept (handFlits_kept h _ _ _) _ _) _ _

theorem takeFrame_kept {s0 s : State} (h : Kept s0 s) (ch : Nat) (red : Bool) (covered : Nat) : Kept s0 (takeFrame s ch red covered) := by
  unfold takeFrame
  iterate 3
    repeat' (first
      | (with_reducible assumption) | (with_reducible apply ite_kept) | (with_reducible apply modChan_kept) | (with_reducible apply modFlow_kept)
      | (with_reducible apply askReplay_kept) | (with_reducible apply send_kept) | (with_reducible apply deliver_kept)
      | (with_reducible apply foldl_kept <;> intros) | (split) | (dsimp only))
    all_goals (try with_reducible refine mk_kept ?_ rfl (by first | rfl | simp) (by first | rfl | simp) rfl (by first | exact id | exact fun _ => rfl))

theorem execFrameReceive_kept {s0 s : State} (h : Kept s0 s) (ch : BitVec 23) (red : Bool) (f : BitVec 544) :
    KeptOut s0 (execFrameReceive ch red f s) := by
  unfold execFrameReceive
  iterate 3
    repeat' (first
      | (with_reducible assumption) | (with_reducible apply next_kept) | (with_reducible apply iteOut_kept) | (with_reducible apply ite_kept)
      | (with_reducible apply modChan_kept) | (with_reducible apply askReplay_kept) | (with_reducible apply bump_kept)
      | (with_reducible apply controlEntry_kept) | (with_reducible apply takeFrame_kept) | (with_reducible apply lightSeen_kept)
      | (with_reducible apply foldl_kept <;> intros) | (split) | (dsimp only))
    all_goals (try with_reducible refine mk_kept ?_ rfl (by first | rfl | simp) (by first | rfl | simp) rfl (by first | exact id | exact fun _ => rfl))

theorem losePort_kept {s0 s : State} (h : Kept s0 s) (p : Nat) (cls : Nat) (cause : Nat) (injected : Bool) :
    Kept s0 (losePort s p cls cause injected) := by
  unfold losePort
  iterate 3
    repeat' (first
      | (with_reducible assumption) | (with_reducible apply ite_kept) | (with_reducible apply capLost_kept) | (with_reducible apply modDie_kept)
      | (with_reducible apply loseContents_kept) | (with_reducible apply abortAttempt_kept) | (with_reducible apply fault_kept)
      | (with_reducible apply noticeDomain_kept) | (with_reducible apply countFailed_kept) | (with_reducible apply loseHomes_kept)
      | (with_reducible apply foldl_kept <;> intros) | (split) | (dsimp only))
    all_goals (try with_reducible refine mk_kept ?_ rfl (by first | rfl | simp) (by first | rfl | simp) rfl (by first | exact id | exact fun _ => rfl))

theorem loseDie_kept {s0 s : State} (h : Kept s0 s) (i : Nat) (cls : Nat) (cause : Nat) (injected : Bool) :
    Kept s0 (loseDie s i cls cause injected) := by
  unfold loseDie
  iterate 3
    repeat' (first
      | (with_reducible assumption) | (with_reducible apply ite_kept) | (with_reducible apply loseLower_kept)
      | (with_reducible apply loseReservoir_kept) | (with_reducible apply losePort_kept) | (with_reducible apply loseUpper_kept)
      | (with_reducible apply foldl_kept <;> intros) | (split) | (dsimp only))
    all_goals (try with_reducible refine mk_kept ?_ rfl (by first | rfl | simp) (by first | rfl | simp) rfl (by first | exact id | exact fun _ => rfl))

theorem loseSilent_kept {s0 s : State} (h : Kept s0 s) (d : Nat) (t : Nat) : Kept s0 (loseSilent s d t) := by
  unfold loseSilent
  iterate 3
    repeat' (first
      | (with_reducible assumption) | (with_reducible apply ite_kept) | (with_reducible apply loseDie_kept) | (with_reducible apply modDom_kept)
      | (with_reducible apply foldl_kept <;> intros) | (split) | (dsimp only))
    all_goals (try with_reducible refine mk_kept ?_ rfl (by first | rfl | simp) (by first | rfl | simp) rfl (by first | exact id | exact fun _ => rfl))

theorem reportsLate_kept {s0 s : State} (h : Kept s0 s) (d : Nat) : Kept s0 (reportsLate s d) := by
  unfold reportsLate
  iterate 3
    repeat' (first
      | (with_reducible assumption) | (with_reducible apply ite_kept) | (with_reducible apply loseSilent_kept)
      | (with_reducible apply foldl_kept <;> intros) | (split) | (dsimp only))
    all_goals (try with_reducible refine mk_kept ?_ rfl (by first | rfl | simp) (by first | rfl | simp) rfl (by first | exact id | exact fun _ => rfl))

theorem execStackReady_kept {s0 s : State} (h : Kept s0 s) (n : BitVec 3) : KeptOut s0 (execStackReady n s) := by
  unfold execStackReady
  iterate 3
    repeat' (first
      | (with_reducible assumption) | (with_reducible apply next_kept) | (with_reducible apply iteOut_kept) | (with_reducible apply ite_kept)
      | (with_reducible apply reportsLate_kept) | (with_reducible apply startIfReady_kept) | (with_reducible apply modDom_kept)
      | (with_reducible apply sendReport_kept) | (with_reducible apply foldl_kept <;> intros) | (split) | (dsimp only))
    all_goals (try with_reducible refine mk_kept ?_ rfl (by first | rfl | simp) (by first | rfl | simp) rfl (by first | exact id | exact fun _ => rfl))

theorem markStale_kept {s0 s : State} (h : Kept s0 s) (set : Nat) : Kept s0 (markStale s set) := by
  unfold markStale
  iterate 3
    repeat' (first
      | (with_reducible assumption) | (with_reducible apply ite_kept) | (with_reducible apply sendLease_kept) | (with_reducible apply modSet_kept)
      | (with_reducible apply foldl_kept <;> intros) | (split) | (dsimp only))
    all_goals (try with_reducible refine mk_kept ?_ rfl (by first | rfl | simp) (by first | rfl | simp) rfl (by first | exact id | exact fun _ => rfl))

theorem ackLate_kept {s0 s : State} (h : Kept s0 s) (c : Nat) : Kept s0 (ackLate s c) := by
  unfold ackLate
  iterate 3
    repeat' (first
      | (with_reducible assumption) | (with_reducible apply ite_kept) | (with_reducible apply yieldToMirror_kept)
      | (with_reducible apply markStale_kept) | (with_reducible apply foldl_kept <;> intros) | (split) | (dsimp only))
    all_goals (try with_reducible refine mk_kept ?_ rfl (by first | rfl | simp) (by first | rfl | simp) rfl (by first | exact id | exact fun _ => rfl))

theorem commitAnswered_kept {s0 s : State} (h : Kept s0 s) (c : Nat) (st : Nat) : Kept s0 (commitAnswered s c st) := by
  unfold commitAnswered
  iterate 3
    repeat' (first
      | (with_reducible assumption) | (with_reducible apply ite_kept) | (with_reducible apply ackLate_kept) | (with_reducible apply modPair_kept)
      | (with_reducible apply tryRelease_kept) | (with_reducible apply modCtx_kept) | (with_reducible apply mirrorFreed_kept)
      | (with_reducible apply bump64_kept) | (with_reducible apply send_kept) | (with_reducible apply foldl_kept <;> intros) | (split) | (dsimp only))
    all_goals (try with_reducible refine mk_kept ?_ rfl (by first | rfl | simp) (by first | rfl | simp) rfl (by first | exact id | exact fun _ => rfl))

theorem execAccordReadyTimeout_kept {s0 s : State} (h : Kept s0 s) (d : BitVec 3) : KeptOut s0 (execAccordReadyTimeout d s) := by
  unfold execAccordReadyTimeout
  iterate 3
    repeat' (first
      | (with_reducible assumption) | (with_reducible apply next_kept) | (with_reducible apply iteOut_kept) | (with_reducible apply ite_kept)
      | (with_reducible apply loseSilent_kept) | (with_reducible apply foldl_kept <;> intros) | (split) | (dsimp only))
    all_goals (try with_reducible refine mk_kept ?_ rfl (by first | rfl | simp) (by first | rfl | simp) rfl (by first | exact id | exact fun _ => rfl))

theorem beginDieReset_kept {s0 s : State} (h : Kept s0 s) (i : Nat) (cls : Nat) (cause : Nat) (srOk : Bool) (injected : Bool) :
    Kept s0 (beginDieReset s i cls cause srOk injected) := by
  unfold beginDieReset
  iterate 3
    repeat' (first
      | (with_reducible assumption) | (with_reducible apply ite_kept) | (with_reducible apply fault_kept) | (with_reducible apply suspendPort_kept)
      | (with_reducible apply loseDie_kept) | (with_reducible apply enterSelfRefresh_kept) | (with_reducible apply loseContents_kept)
      | (with_reducible apply markDieReset_kept) | (with_reducible apply powerOn_kept) | (with_reducible apply clearDieTel_kept)
      | (with_reducible apply modDie_kept) | (with_reducible apply foldl_kept <;> intros) | (split) | (dsimp only))
    all_goals (try with_reducible refine mk_kept ?_ rfl (by first | rfl | simp) (by first | rfl | simp) rfl (by first | exact id | exact fun _ => rfl))

theorem loseEndpoint_kept {s0 s : State} (h : Kept s0 s) (e : Nat) : Kept s0 (loseEndpoint s e) := by
  unfold loseEndpoint
  iterate 3
    repeat' (first
      | (with_reducible assumption) | (with_reducible apply ite_kept) | (with_reducible apply modBase_kept) | (with_reducible apply fault_kept)
      | (with_reducible apply loseDie_kept) | (with_reducible apply loseGroup_kept) | (with_reducible apply foldl_kept <;> intros) | (split)
      | (dsimp only))
    all_goals (try with_reducible refine mk_kept ?_ rfl (by first | rfl | simp) (by first | rfl | simp) rfl (by first | exact id | exact fun _ => rfl))

theorem failPath_kept {s0 s : State} (h : Kept s0 s) (e : Nat) : Kept s0 (failPath s e) := by
  unfold failPath
  iterate 3
    repeat' (first
      | (with_reducible assumption) | (with_reducible apply ite_kept) | (with_reducible apply modBase_kept) | (with_reducible apply dropChannel_kept)
      | (with_reducible apply fault_kept) | (with_reducible apply loseEndpoint_kept) | (with_reducible apply foldl_kept <;> intros) | (split)
      | (dsimp only))
    all_goals (try with_reducible refine mk_kept ?_ rfl (by first | rfl | simp) (by first | rfl | simp) rfl (by first | exact id | exact fun _ => rfl))

theorem execPathRemap_kept {s0 s : State} (h : Kept s0 s) (e : BitVec 5) : KeptOut s0 (execPathRemap e s) := by
  unfold execPathRemap
  iterate 3
    repeat' (first
      | (with_reducible assumption) | (with_reducible apply next_kept) | (with_reducible apply iteOut_kept) | (with_reducible apply ite_kept)
      | (with_reducible apply failPath_kept) | (with_reducible apply installRemaps_kept) | (with_reducible apply foldl_kept <;> intros) | (split)
      | (dsimp only))
    all_goals (try with_reducible refine mk_kept ?_ rfl (by first | rfl | simp) (by first | rfl | simp) rfl (by first | exact id | exact fun _ => rfl))

theorem t2Uncorrectable_kept {s0 s : State} (h : Kept s0 s) (p : Nat) (off : Nat) (injected : Bool) : Kept s0 (t2Uncorrectable s p off injected) := by
  unfold t2Uncorrectable
  iterate 3
    repeat' (first
      | (with_reducible assumption) | (with_reducible apply ite_kept) | (with_reducible apply modDram_kept) | (with_reducible apply abortAttempt_kept)
      | (with_reducible apply refetchCore_kept) | (with_reducible apply fault_kept) | (with_reducible apply countFailed_kept)
      | (with_reducible apply loseHomes_kept) | (with_reducible apply losePort_kept) | (with_reducible apply foldl_kept <;> intros) | (split)
      | (dsimp only))
    all_goals (try with_reducible refine mk_kept ?_ rfl (by first | rfl | simp) (by first | rfl | simp) rfl (by first | exact id | exact fun _ => rfl))

theorem execDramScrub_kept {s0 s : State} (h : Kept s0 s) (p : BitVec 2) (off : BitVec 40) (err : CodeRead) (last : Bool) :
    KeptOut s0 (execDramScrub p off err last s) := by
  unfold execDramScrub
  iterate 3
    repeat' (first
      | (with_reducible assumption) | (with_reducible apply next_kept) | (with_reducible apply iteOut_kept) | (with_reducible apply ite_kept)
      | (with_reducible apply modPort_kept) | (with_reducible apply modDram_kept) | (with_reducible apply t2Uncorrectable_kept)
      | (with_reducible apply foldl_kept <;> intros) | (split) | (dsimp only))
    all_goals (try with_reducible refine mk_kept ?_ rfl (by first | rfl | simp) (by first | rfl | simp) rfl (by first | exact id | exact fun _ => rfl))

theorem requestSet_kept {s0 s : State} (h : Kept s0 s) (set : Nat) : Kept s0 (requestSet s set) := by
  unfold requestSet
  iterate 3
    repeat' (first
      | (with_reducible assumption) | (with_reducible apply ite_kept) | (with_reducible apply sendLease_kept) | (with_reducible apply modSet_kept)
      | (with_reducible apply foldl_kept <;> intros) | (split) | (dsimp only))
    all_goals (try with_reducible refine mk_kept ?_ rfl (by first | rfl | simp) (by first | rfl | simp) rfl (by first | exact id | exact fun _ => rfl))

theorem formPair_kept {s0 s : State} (h : Kept s0 s) : Kept s0 (formPair s) := by
  unfold formPair
  iterate 3
    repeat' (first
      | (with_reducible assumption) | (with_reducible apply ite_kept) | (with_reducible apply requestSet_kept) | (with_reducible apply modPair_kept)
      | (with_reducible apply foldl_kept <;> intros) | (split) | (dsimp only))
    all_goals (try with_reducible refine mk_kept ?_ rfl (by first | rfl | simp) (by first | rfl | simp) rfl (by first | exact id | exact fun _ => rfl))

theorem execLinkUp_kept {s0 s : State} (h : Kept s0 s) (b : BitVec 4) (j : BitVec 3) (bad : BitVec 9) (far : FarEnd) (asym : BitVec 16) :
    KeptOut s0 (execLinkUp b j bad far asym s) := by
  unfold execLinkUp
  iterate 3
    repeat' (first
      | (with_reducible assumption) | (with_reducible apply next_kept) | (with_reducible apply iteOut_kept) | (with_reducible apply ite_kept)
      | (with_reducible apply trainLink_kept) | (with_reducible apply formPair_kept) | (with_reducible apply foldl_kept <;> intros) | (split)
      | (dsimp only))
    all_goals (try with_reducible refine mk_kept ?_ rfl (by first | rfl | simp) (by first | rfl | simp) rfl (by first | exact id | exact fun _ => rfl))

theorem setAuth_kept {s0 s : State} (h : Kept s0 s) (pair : Nat) (set : Nat) (a : AuthSet) : Kept s0 (setAuth s pair set a) := by
  unfold setAuth
  iterate 3
    repeat' (first
      | (with_reducible assumption) | (with_reducible apply ite_kept) | (with_reducible apply modPair_kept)
      | (with_reducible apply foldl_kept <;> intros) | (split) | (dsimp only))
    all_goals (try with_reducible refine mk_kept ?_ rfl (by first | rfl | simp) (by first | rfl | simp) rfl (by first | exact id | exact fun _ => rfl))

theorem answerLease_kept {s0 s : State} (h : Kept s0 s) (dev : Nat) (op : Nat) (pair : Nat) (set : Nat) (a : AuthSet) :
    Kept s0 (answerLease s dev op pair set a) := by
  unfold answerLease
  iterate 3
    repeat' (first
      | (with_reducible assumption) | (with_reducible apply ite_kept) | (with_reducible apply send_kept)
      | (with_reducible apply foldl_kept <;> intros) | (split) | (dsimp only))
    all_goals (try with_reducible refine mk_kept ?_ rfl (by first | rfl | simp) (by first | rfl | simp) rfl (by first | exact id | exact fun _ => rfl))

theorem decideRequest_kept {s0 s : State} (h : Kept s0 s) (dev : Nat) (pair : Nat) (set : Nat) (a : AuthSet) :
    Kept s0 (decideRequest s dev pair set a) := by
  unfold decideRequest
  iterate 3
    repeat' (first
      | (with_reducible assumption) | (with_reducible apply ite_kept) | (with_reducible apply answerLease_kept) | (with_reducible apply setAuth_kept)
      | (with_reducible apply foldl_kept <;> intros) | (split) | (dsimp only))
    all_goals (try with_reducible refine mk_kept ?_ rfl (by first | rfl | simp) (by first | rfl | simp) rfl (by first | exact id | exact fun _ => rfl))

theorem execLeaseRequest_kept {s0 s : State} (h : Kept s0 s) (pair : BitVec 2) (set : BitVec 1) (dev : BitVec 3) (tSend : BitVec 64) :
    KeptOut s0 (execLeaseRequest pair set dev tSend s) := by
  unfold execLeaseRequest
  iterate 3
    repeat' (first
      | (with_reducible assumption) | (with_reducible apply next_kept) | (with_reducible apply iteOut_kept) | (with_reducible apply ite_kept)
      | (with_reducible apply decideRequest_kept) | (with_reducible apply setAuth_kept) | (with_reducible apply foldl_kept <;> intros) | (split)
      | (dsimp only))
    all_goals (try with_reducible refine mk_kept ?_ rfl (by first | rfl | simp) (by first | rfl | simp) rfl (by first | exact id | exact fun _ => rfl))

theorem execRenew_kept {s0 s : State} (h : Kept s0 s) (pair : BitVec 2) (set : BitVec 1) (dev : BitVec 3) :
    KeptOut s0 (execRenew pair set dev s) := by
  unfold execRenew
  iterate 3
    repeat' (first
      | (with_reducible assumption) | (with_reducible apply next_kept) | (with_reducible apply iteOut_kept) | (with_reducible apply ite_kept)
      | (with_reducible apply answerLease_kept) | (with_reducible apply setAuth_kept) | (with_reducible apply foldl_kept <;> intros) | (split)
      | (dsimp only))
    all_goals (try with_reducible refine mk_kept ?_ rfl (by first | rfl | simp) (by first | rfl | simp) rfl (by first | exact id | exact fun _ => rfl))

theorem execRelease_kept {s0 s : State} (h : Kept s0 s) (pair : BitVec 2) (set : BitVec 1) (dev : BitVec 3) :
    KeptOut s0 (execRelease pair set dev s) := by
  unfold execRelease
  iterate 3
    repeat' (first
      | (with_reducible assumption) | (with_reducible apply next_kept) | (with_reducible apply iteOut_kept) | (with_reducible apply ite_kept)
      | (with_reducible apply answerLease_kept) | (with_reducible apply setAuth_kept) | (with_reducible apply decideRequest_kept)
      | (with_reducible apply foldl_kept <;> intros) | (split) | (dsimp only))
    all_goals (try with_reducible refine mk_kept ?_ rfl (by first | rfl | simp) (by first | rfl | simp) rfl (by first | exact id | exact fun _ => rfl))

theorem markSet_kept {s0 s : State} (h : Kept s0 s) (pair : Nat) (set : Nat) (dev : Nat) (valid : Bool) : Kept s0 (markSet s pair set dev valid) := by
  unfold markSet
  iterate 3
    repeat' (first
      | (with_reducible assumption) | (with_reducible apply ite_kept) | (with_reducible apply answerLease_kept) | (with_reducible apply setAuth_kept)
      | (with_reducible apply foldl_kept <;> intros) | (split) | (dsimp only))
    all_goals (try with_reducible refine mk_kept ?_ rfl (by first | rfl | simp) (by first | rfl | simp) rfl (by first | exact id | exact fun _ => rfl))

theorem execMarkStale_kept {s0 s : State} (h : Kept s0 s) (pair : BitVec 2) (set : BitVec 1) (dev : BitVec 3) :
    KeptOut s0 (execMarkStale pair set dev s) := by
  unfold execMarkStale
  iterate 3
    repeat' (first
      | (with_reducible assumption) | (with_reducible apply next_kept) | (with_reducible apply iteOut_kept) | (with_reducible apply ite_kept)
      | (with_reducible apply markSet_kept) | (with_reducible apply foldl_kept <;> intros) | (split) | (dsimp only))
    all_goals (try with_reducible refine mk_kept ?_ rfl (by first | rfl | simp) (by first | rfl | simp) rfl (by first | exact id | exact fun _ => rfl))

theorem execMarkValid_kept {s0 s : State} (h : Kept s0 s) (pair : BitVec 2) (set : BitVec 1) (dev : BitVec 3) :
    KeptOut s0 (execMarkValid pair set dev s) := by
  unfold execMarkValid
  iterate 3
    repeat' (first
      | (with_reducible assumption) | (with_reducible apply next_kept) | (with_reducible apply iteOut_kept) | (with_reducible apply ite_kept)
      | (with_reducible apply markSet_kept) | (with_reducible apply foldl_kept <;> intros) | (split) | (dsimp only))
    all_goals (try with_reducible refine mk_kept ?_ rfl (by first | rfl | simp) (by first | rfl | simp) rfl (by first | exact id | exact fun _ => rfl))

theorem execLeaseExpiry_kept {s0 s : State} (h : Kept s0 s) (pair : BitVec 2) (set : BitVec 1) : KeptOut s0 (execLeaseExpiry pair set s) := by
  unfold execLeaseExpiry
  iterate 3
    repeat' (first
      | (with_reducible assumption) | (with_reducible apply next_kept) | (with_reducible apply iteOut_kept) | (with_reducible apply ite_kept)
      | (with_reducible apply decideRequest_kept) | (with_reducible apply setAuth_kept) | (with_reducible apply foldl_kept <;> intros) | (split)
      | (dsimp only))
    all_goals (try with_reducible refine mk_kept ?_ rfl (by first | rfl | simp) (by first | rfl | simp) rfl (by first | exact id | exact fun _ => rfl))

theorem execAuthorityTakeover_kept {s0 s : State} (h : Kept s0 s) (pair : BitVec 2) (reports : List LeaseReport) :
    KeptOut s0 (execAuthorityTakeover pair reports s) := by
  unfold execAuthorityTakeover
  iterate 3
    repeat' (first
      | (with_reducible assumption) | (with_reducible apply next_kept) | (with_reducible apply iteOut_kept) | (with_reducible apply ite_kept)
      | (with_reducible apply setAuth_kept) | (with_reducible apply modPair_kept) | (with_reducible apply foldl_kept <;> intros) | (split)
      | (dsimp only))
    all_goals (try with_reducible refine mk_kept ?_ rfl (by first | rfl | simp) (by first | rfl | simp) rfl (by first | exact id | exact fun _ => rfl))

theorem raiseFences_kept {s0 s : State} (h : Kept s0 s) (set : Nat) (claim : Nat) : Kept s0 (raiseFences s set claim) := by
  unfold raiseFences
  iterate 3
    repeat' (first
      | (with_reducible assumption) | (with_reducible apply ite_kept) | (with_reducible apply modPair_kept) | (with_reducible apply send_kept)
      | (with_reducible apply foldl_kept <;> intros) | (split) | (dsimp only))
    all_goals (try with_reducible refine mk_kept ?_ rfl (by first | rfl | simp) (by first | rfl | simp) rfl (by first | exact id | exact fun _ => rfl))

theorem takeContext_kept {s0 s : State} (h : Kept s0 s) (former : Nat) (claim : Nat) (valid : Bool) (c : Nat) :
    Kept s0 (takeContext s former claim valid c) := by
  unfold takeContext
  iterate 3
    repeat' (first
      | (with_reducible assumption) | (with_reducible apply ite_kept) | (with_reducible apply event_kept) | (with_reducible apply setCtx_kept)
      | (with_reducible apply settle_kept) | (with_reducible apply modCtx_kept) | (with_reducible apply bindSession_kept)
      | (with_reducible apply releaseSession_kept) | (with_reducible apply foldl_kept <;> intros) | (split) | (dsimp only))
    all_goals (try with_reducible refine mk_kept ?_ rfl (by first | rfl | simp) (by first | rfl | simp) rfl (by first | exact id | exact fun _ => rfl))

theorem execGrant_kept {s0 s : State} (h : Kept s0 s) (set : BitVec 1) (claim : Word) (valid : Bool) : KeptOut s0 (execGrant set claim valid s) := by
  unfold execGrant
  iterate 3
    repeat' (first
      | (with_reducible assumption) | (with_reducible apply next_kept) | (with_reducible apply iteOut_kept) | (with_reducible apply ite_kept)
      | (with_reducible apply settle_kept) | (with_reducible apply modCtx_kept) | (with_reducible apply modSet_kept)
      | (with_reducible apply raiseFences_kept) | (with_reducible apply takeContext_kept) | (with_reducible apply bump_kept)
      | (with_reducible apply markStale_kept) | (with_reducible apply foldl_kept <;> intros) | (split) | (dsimp only))
    all_goals (try with_reducible refine mk_kept ?_ rfl (by first | rfl | simp) (by first | rfl | simp) rfl (by first | exact id | exact fun _ => rfl))

theorem execRefuse_kept {s0 s : State} (h : Kept s0 s) (set : BitVec 1) (valid : Bool) : KeptOut s0 (execRefuse set valid s) := by
  unfold execRefuse
  iterate 3
    repeat' (first
      | (with_reducible assumption) | (with_reducible apply next_kept) | (with_reducible apply iteOut_kept) | (with_reducible apply ite_kept)
      | (with_reducible apply modSet_kept) | (with_reducible apply foldl_kept <;> intros) | (split) | (dsimp only))
    all_goals (try with_reducible refine mk_kept ?_ rfl (by first | rfl | simp) (by first | rfl | simp) rfl (by first | exact id | exact fun _ => rfl))

theorem releaseSolo_kept {s0 s : State} (h : Kept s0 s) (c : Nat) : Kept s0 (releaseSolo s c) := by
  unfold releaseSolo
  iterate 3
    repeat' (first
      | (with_reducible assumption) | (with_reducible apply ite_kept) | (with_reducible apply tryRelease_kept) | (with_reducible apply modCtx_kept)
      | (with_reducible apply mirrorFreed_kept) | (with_reducible apply foldl_kept <;> intros) | (split) | (dsimp only))
    all_goals (try with_reducible refine mk_kept ?_ rfl (by first | rfl | simp) (by first | rfl | simp) rfl (by first | exact id | exact fun _ => rfl))

theorem execLeaseAck_kept {s0 s : State} (h : Kept s0 s) (set : BitVec 1) : KeptOut s0 (execLeaseAck set s) := by
  unfold execLeaseAck
  iterate 3
    repeat' (first
      | (with_reducible assumption) | (with_reducible apply next_kept) | (with_reducible apply iteOut_kept) | (with_reducible apply ite_kept)
      | (with_reducible apply modPair_kept) | (with_reducible apply modSet_kept) | (with_reducible apply event_kept)
      | (with_reducible apply releaseSolo_kept) | (with_reducible apply foldl_kept <;> intros) | (split) | (dsimp only))
    all_goals (try with_reducible refine mk_kept ?_ rfl (by first | rfl | simp) (by first | rfl | simp) rfl (by first | exact id | exact fun _ => rfl))

theorem execLeaseRenewTimer_kept {s0 s : State} (h : Kept s0 s) (set : BitVec 1) : KeptOut s0 (execLeaseRenewTimer set s) := by
  unfold execLeaseRenewTimer
  iterate 3
    repeat' (first
      | (with_reducible assumption) | (with_reducible apply next_kept) | (with_reducible apply iteOut_kept) | (with_reducible apply ite_kept)
      | (with_reducible apply sendLease_kept) | (with_reducible apply modSet_kept) | (with_reducible apply foldl_kept <;> intros) | (split)
      | (dsimp only))
    all_goals (try with_reducible refine mk_kept ?_ rfl (by first | rfl | simp) (by first | rfl | simp) rfl (by first | exact id | exact fun _ => rfl))

theorem execLeaseGuardStop_kept {s0 s : State} (h : Kept s0 s) (set : BitVec 1) : KeptOut s0 (execLeaseGuardStop set s) := by
  unfold execLeaseGuardStop
  iterate 3
    repeat' (first
      | (with_reducible assumption) | (with_reducible apply next_kept) | (with_reducible apply iteOut_kept) | (with_reducible apply ite_kept)
      | (with_reducible apply modCtx_kept) | (with_reducible apply modSet_kept) | (with_reducible apply foldl_kept <;> intros) | (split)
      | (dsimp only))
    all_goals (try with_reducible refine mk_kept ?_ rfl (by first | rfl | simp) (by first | rfl | simp) rfl (by first | exact id | exact fun _ => rfl))

theorem execPairTake_kept {s0 s : State} (h : Kept s0 s) (r : Requester) (set : BitVec 1) : KeptOut s0 (execPairTake r set s) := by
  unfold execPairTake
  iterate 3
    repeat' (first
      | (with_reducible assumption) | (with_reducible apply next_kept) | (with_reducible apply iteOut_kept) | (with_reducible apply ite_kept)
      | (with_reducible apply requestSet_kept) | (with_reducible apply logRefused_kept) | (with_reducible apply foldl_kept <;> intros) | (split)
      | (dsimp only))
    all_goals (try with_reducible refine mk_kept ?_ rfl (by first | rfl | simp) (by first | rfl | simp) rfl (by first | exact id | exact fun _ => rfl))

theorem sendCommit_kept {s0 s : State} (h : Kept s0 s) (c : Nat) : Kept s0 (sendCommit s c) := by
  unfold sendCommit
  iterate 3
    repeat' (first
      | (with_reducible assumption) | (with_reducible apply ite_kept) | (with_reducible apply drawFree_kept) | (with_reducible apply send_kept)
      | (with_reducible apply modPair_kept) | (with_reducible apply foldl_kept <;> intros) | (split) | (dsimp only))
    all_goals (try with_reducible refine mk_kept ?_ rfl (by first | rfl | simp) (by first | rfl | simp) rfl (by first | exact id | exact fun _ => rfl))

theorem sendCommits_kept {s0 s : State} (h : Kept s0 s) (d : Nat) : Kept s0 (sendCommits s d) := by
  unfold sendCommits
  iterate 3
    repeat' (first
      | (with_reducible assumption) | (with_reducible apply ite_kept) | (with_reducible apply sendCommit_kept)
      | (with_reducible apply foldl_kept <;> intros) | (split) | (dsimp only))
    all_goals (try with_reducible refine mk_kept ?_ rfl (by first | rfl | simp) (by first | rfl | simp) rfl (by first | exact id | exact fun _ => rfl))

theorem execCommitRecord_kept {s0 s : State} (h : Kept s0 s) (c : BitVec 12) (tag : BitVec 16) (lines : List Byte) (rec_ : Commit) (image : Session) (req : Option Adm) (frames : BitVec 8) :
    KeptOut s0 (execCommitRecord c tag lines rec_ image req frames s) := by
  unfold execCommitRecord
  iterate 3
    repeat' (first
      | (with_reducible assumption) | (with_reducible apply next_kept) | (with_reducible apply iteOut_kept) | (with_reducible apply ite_kept)
      | (with_reducible apply transmit_kept) | (with_reducible apply bump_kept) | (with_reducible apply modPair_kept)
      | (with_reducible apply foldl_kept <;> intros) | (split) | (dsimp only))
    all_goals (try with_reducible refine mk_kept ?_ rfl (by first | rfl | simp) (by first | rfl | simp) rfl (by first | exact id | exact fun _ => rfl))

theorem execMirrorAckTimeout_kept {s0 s : State} (h : Kept s0 s) (c : BitVec 12) : KeptOut s0 (execMirrorAckTimeout c s) := by
  unfold execMirrorAckTimeout
  iterate 3
    repeat' (first
      | (with_reducible assumption) | (with_reducible apply next_kept) | (with_reducible apply iteOut_kept) | (with_reducible apply ite_kept)
      | (with_reducible apply ackLate_kept) | (with_reducible apply foldl_kept <;> intros) | (split) | (dsimp only))
    all_goals (try with_reducible refine mk_kept ?_ rfl (by first | rfl | simp) (by first | rfl | simp) rfl (by first | exact id | exact fun _ => rfl))

theorem startResync_kept {s0 s : State} (h : Kept s0 s) (set : Nat) : Kept s0 (startResync s set) := by
  unfold startResync
  iterate 3
    repeat' (first
      | (with_reducible assumption) | (with_reducible apply ite_kept) | (with_reducible apply sendCommit_kept) | (with_reducible apply modPair_kept)
      | (with_reducible apply modSet_kept) | (with_reducible apply foldl_kept <;> intros) | (split) | (dsimp only))
    all_goals (try with_reducible refine mk_kept ?_ rfl (by first | rfl | simp) (by first | rfl | simp) rfl (by first | exact id | exact fun _ => rfl))

theorem execResyncComplete_kept {s0 s : State} (h : Kept s0 s) (set : BitVec 1) : KeptOut s0 (execResyncComplete set s) := by
  unfold execResyncComplete
  iterate 3
    repeat' (first
      | (with_reducible assumption) | (with_reducible apply next_kept) | (with_reducible apply iteOut_kept) | (with_reducible apply ite_kept)
      | (with_reducible apply sendLease_kept) | (with_reducible apply modSet_kept) | (with_reducible apply event_kept)
      | (with_reducible apply handBack_kept) | (with_reducible apply foldl_kept <;> intros) | (split) | (dsimp only))
    all_goals (try with_reducible refine mk_kept ?_ rfl (by first | rfl | simp) (by first | rfl | simp) rfl (by first | exact id | exact fun _ => rfl))

theorem handBacks_kept {s0 s : State} (h : Kept s0 s) : Kept s0 (handBacks s) := by
  unfold handBacks
  iterate 3
    repeat' (first
      | (with_reducible assumption) | (with_reducible apply ite_kept) | (with_reducible apply handBack_kept)
      | (with_reducible apply foldl_kept <;> intros) | (split) | (dsimp only))
    all_goals (try with_reducible refine mk_kept ?_ rfl (by first | rfl | simp) (by first | rfl | simp) rfl (by first | exact id | exact fun _ => rfl))

theorem execFailback_kept {s0 s : State} (h : Kept s0 s) (set : BitVec 1) (taken : Bool) : KeptOut s0 (execFailback set taken s) := by
  unfold execFailback
  iterate 3
    repeat' (first
      | (with_reducible assumption) | (with_reducible apply next_kept) | (with_reducible apply iteOut_kept) | (with_reducible apply ite_kept)
      | (with_reducible apply handBacks_kept) | (with_reducible apply modSet_kept) | (with_reducible apply handBack_kept)
      | (with_reducible apply foldl_kept <;> intros) | (split) | (dsimp only))
    all_goals (try with_reducible refine mk_kept ?_ rfl (by first | rfl | simp) (by first | rfl | simp) rfl (by first | exact id | exact fun _ => rfl))

theorem endCommand_kept {s0 s : State} (h : Kept s0 s) (mgmt : Bool) (opcode : Nat) (st : Nat) : Kept s0 (endCommand s mgmt opcode st) := by
  unfold endCommand
  iterate 3
    repeat' (first
      | (with_reducible assumption) | (with_reducible apply ite_kept) | (with_reducible apply send_kept) | (with_reducible apply regPut_kept)
      | (with_reducible apply foldl_kept <;> intros) | (split) | (dsimp only))
    all_goals (try with_reducible refine mk_kept ?_ rfl (by first | rfl | simp) (by first | rfl | simp) rfl (by first | exact id | exact fun _ => rfl))

theorem command_kept {s0 s : State} (h : Kept s0 s) (mgmt : Bool) (opcode : Nat) (refusal : Option Nat) (act : State → State)
    (ha : Kept s0 (act s)) : Kept s0 (command s mgmt opcode refusal act) := by
  unfold command
  split
  · exact endCommand_kept h _ _ _
  · split
    · exact endCommand_kept h _ _ _
    · exact endCommand_kept ha _ _ _

theorem provision_kept {s0 s : State} (h : Kept s0 s) (c : Nat) (p : Prov) : Kept s0 (provision s c p) := by
  unfold provision
  iterate 3
    repeat' (first
      | (with_reducible assumption) | (with_reducible apply ite_kept) | (with_reducible apply modCtx_kept)
      | (with_reducible apply foldl_kept <;> intros) | (split) | (dsimp only))
    all_goals (try with_reducible refine mk_kept ?_ rfl (by first | rfl | simp) (by first | rfl | simp) rfl (by first | exact id | exact fun _ => rfl))

theorem execProvisionCtx_kept {s0 s : State} (h : Kept s0 s) (mgmt : Bool) (ctx : BitVec 16) (dom : BitVec 8) (cls : BitVec 8) (weight : BitVec 16) (maxOut : BitVec 16) (maxTokens : Word) (maxInst : BitVec 8) (period : BitVec 16) (stepUs : BitVec 16) (boundUs : BitVec 16) :
    KeptOut s0 (execProvisionCtx mgmt ctx dom cls weight maxOut maxTokens maxInst period stepUs boundUs s) := by
  unfold execProvisionCtx
  iterate 3
    repeat' (first
      | (with_reducible assumption) | (with_reducible apply next_kept) | (with_reducible apply iteOut_kept) | (with_reducible apply ite_kept)
      | (with_reducible apply submit_kept) | (with_reducible apply foldl_kept <;> intros) | (split) | (dsimp only))
    all_goals (try with_reducible refine mk_kept ?_ rfl (by first | rfl | simp) (by first | rfl | simp) rfl (by first | exact id | exact fun _ => rfl))

theorem execUnprovisionCtx_kept {s0 s : State} (h : Kept s0 s) (mgmt : Bool) (ctx : BitVec 16) : KeptOut s0 (execUnprovisionCtx mgmt ctx s) := by
  unfold execUnprovisionCtx
  iterate 3
    repeat' (first
      | (with_reducible assumption) | (with_reducible apply next_kept) | (with_reducible apply iteOut_kept) | (with_reducible apply ite_kept)
      | (with_reducible apply submit_kept) | (with_reducible apply foldl_kept <;> intros) | (split) | (dsimp only))
    all_goals (try with_reducible refine mk_kept ?_ rfl (by first | rfl | simp) (by first | rfl | simp) rfl (by first | exact id | exact fun _ => rfl))

theorem execSetDomain_kept {s0 s : State} (h : Kept s0 s) (mgmt : Bool) (dom : BitVec 8) (t1 : BitVec 8) (t2 : BitVec 16) (bw : BitVec 8) (sil : BitVec 8) (planes : BitVec 8) (slots : BitVec 8) :
    KeptOut s0 (execSetDomain mgmt dom t1 t2 bw sil planes slots s) := by
  unfold execSetDomain
  iterate 3
    repeat' (first
      | (with_reducible assumption) | (with_reducible apply next_kept) | (with_reducible apply iteOut_kept) | (with_reducible apply ite_kept)
      | (with_reducible apply submit_kept) | (with_reducible apply foldl_kept <;> intros) | (split) | (dsimp only))
    all_goals (try with_reducible refine mk_kept ?_ rfl (by first | rfl | simp) (by first | rfl | simp) rfl (by first | exact id | exact fun _ => rfl))

theorem startMove_kept {s0 s : State} (h : Kept s0 s) (n : Nat) (dest : Nat) : Kept s0 (startMove s n dest) := by
  unfold startMove
  iterate 3
    repeat' (first
      | (with_reducible assumption) | (with_reducible apply ite_kept) | (with_reducible apply startDrain_kept) | (with_reducible apply wakeUnit_kept)
      | (with_reducible apply setCap_kept) | (with_reducible apply foldl_kept <;> intros) | (split) | (dsimp only))
    all_goals (try with_reducible refine mk_kept ?_ rfl (by first | rfl | simp) (by first | rfl | simp) rfl (by first | exact id | exact fun _ => rfl))

theorem execMoveStack_kept {s0 s : State} (h : Kept s0 s) (mgmt : Bool) (stack : BitVec 8) (dest : BitVec 8) :
    KeptOut s0 (execMoveStack mgmt stack dest s) := by
  unfold execMoveStack
  iterate 3
    repeat' (first
      | (with_reducible assumption) | (with_reducible apply next_kept) | (with_reducible apply iteOut_kept) | (with_reducible apply ite_kept)
      | (with_reducible apply submit_kept) | (with_reducible apply foldl_kept <;> intros) | (split) | (dsimp only))
    all_goals (try with_reducible refine mk_kept ?_ rfl (by first | rfl | simp) (by first | rfl | simp) rfl (by first | exact id | exact fun _ => rfl))

theorem execSlotSet_kept {s0 s : State} (h : Kept s0 s) (mgmt : Bool) (slot : BitVec 8) (enable : Bool) (minSvn : BitVec 16) (x : BitVec 384) (y : BitVec 384) :
    KeptOut s0 (execSlotSet mgmt slot enable minSvn x y s) := by
  unfold execSlotSet
  iterate 3
    repeat' (first
      | (with_reducible assumption) | (with_reducible apply next_kept) | (with_reducible apply iteOut_kept) | (with_reducible apply ite_kept)
      | (with_reducible apply submit_kept) | (with_reducible apply foldl_kept <;> intros) | (split) | (dsimp only))
    all_goals (try with_reducible refine mk_kept ?_ rfl (by first | rfl | simp) (by first | rfl | simp) rfl (by first | exact id | exact fun _ => rfl))

theorem execSetPolicy_kept {s0 s : State} (h : Kept s0 s) (mgmt : Bool) (strict : Bool) : KeptOut s0 (execSetPolicy mgmt strict s) := by
  unfold execSetPolicy
  iterate 3
    repeat' (first
      | (with_reducible assumption) | (with_reducible apply next_kept) | (with_reducible apply iteOut_kept) | (with_reducible apply ite_kept)
      | (with_reducible apply submit_kept) | (with_reducible apply foldl_kept <;> intros) | (split) | (dsimp only))
    all_goals (try with_reducible refine mk_kept ?_ rfl (by first | rfl | simp) (by first | rfl | simp) rfl (by first | exact id | exact fun _ => rfl))

theorem spdmStep_kept {s0 s : State} (h : Kept s0 s) (path : Nat) (code : Nat) (ok : Bool) (f : Spdm → Spdm) (body : List Byte) :
    Kept s0 (spdmStep s path code ok f body) := by
  unfold spdmStep
  iterate 3
    repeat' (first
      | (with_reducible assumption) | (with_reducible apply ite_kept) | (with_reducible apply send_kept)
      | (with_reducible apply foldl_kept <;> intros) | (split) | (dsimp only))
    all_goals (try with_reducible refine mk_kept ?_ rfl (by first | rfl | simp) (by first | rfl | simp) rfl (by first | exact id | exact fun _ => rfl))

theorem execGetVersion_kept {s0 s : State} (h : Kept s0 s) (path : BitVec 1) : KeptOut s0 (execGetVersion path s) := by
  unfold execGetVersion
  iterate 3
    repeat' (first
      | (with_reducible assumption) | (with_reducible apply next_kept) | (with_reducible apply iteOut_kept) | (with_reducible apply ite_kept)
      | (with_reducible apply spdmStep_kept) | (with_reducible apply foldl_kept <;> intros) | (split) | (dsimp only))
    all_goals (try with_reducible refine mk_kept ?_ rfl (by first | rfl | simp) (by first | rfl | simp) rfl (by first | exact id | exact fun _ => rfl))

theorem execGetCapabilities_kept {s0 s : State} (h : Kept s0 s) (path : BitVec 1) : KeptOut s0 (execGetCapabilities path s) := by
  unfold execGetCapabilities
  iterate 3
    repeat' (first
      | (with_reducible assumption) | (with_reducible apply next_kept) | (with_reducible apply iteOut_kept) | (with_reducible apply ite_kept)
      | (with_reducible apply spdmStep_kept) | (with_reducible apply foldl_kept <;> intros) | (split) | (dsimp only))
    all_goals (try with_reducible refine mk_kept ?_ rfl (by first | rfl | simp) (by first | rfl | simp) rfl (by first | exact id | exact fun _ => rfl))

theorem execNegotiateAlgorithms_kept {s0 s : State} (h : Kept s0 s) (path : BitVec 1) : KeptOut s0 (execNegotiateAlgorithms path s) := by
  unfold execNegotiateAlgorithms
  iterate 3
    repeat' (first
      | (with_reducible assumption) | (with_reducible apply next_kept) | (with_reducible apply iteOut_kept) | (with_reducible apply ite_kept)
      | (with_reducible apply spdmStep_kept) | (with_reducible apply foldl_kept <;> intros) | (split) | (dsimp only))
    all_goals (try with_reducible refine mk_kept ?_ rfl (by first | rfl | simp) (by first | rfl | simp) rfl (by first | exact id | exact fun _ => rfl))

theorem execGetDigests_kept {s0 s : State} (h : Kept s0 s) (path : BitVec 1) : KeptOut s0 (execGetDigests path s) := by
  unfold execGetDigests
  iterate 3
    repeat' (first
      | (with_reducible assumption) | (with_reducible apply next_kept) | (with_reducible apply iteOut_kept) | (with_reducible apply ite_kept)
      | (with_reducible apply spdmStep_kept) | (with_reducible apply foldl_kept <;> intros) | (split) | (dsimp only))
    all_goals (try with_reducible refine mk_kept ?_ rfl (by first | rfl | simp) (by first | rfl | simp) rfl (by first | exact id | exact fun _ => rfl))

theorem execGetCertificate_kept {s0 s : State} (h : Kept s0 s) (path : BitVec 1) : KeptOut s0 (execGetCertificate path s) := by
  unfold execGetCertificate
  iterate 3
    repeat' (first
      | (with_reducible assumption) | (with_reducible apply next_kept) | (with_reducible apply iteOut_kept) | (with_reducible apply ite_kept)
      | (with_reducible apply spdmStep_kept) | (with_reducible apply foldl_kept <;> intros) | (split) | (dsimp only))
    all_goals (try with_reducible refine mk_kept ?_ rfl (by first | rfl | simp) (by first | rfl | simp) rfl (by first | exact id | exact fun _ => rfl))

theorem execChallenge_kept {s0 s : State} (h : Kept s0 s) (path : BitVec 1) : KeptOut s0 (execChallenge path s) := by
  unfold execChallenge
  iterate 3
    repeat' (first
      | (with_reducible assumption) | (with_reducible apply next_kept) | (with_reducible apply iteOut_kept) | (with_reducible apply ite_kept)
      | (with_reducible apply spdmStep_kept) | (with_reducible apply foldl_kept <;> intros) | (split) | (dsimp only))
    all_goals (try with_reducible refine mk_kept ?_ rfl (by first | rfl | simp) (by first | rfl | simp) rfl (by first | exact id | exact fun _ => rfl))

theorem execGetMeasurements_kept {s0 s : State} (h : Kept s0 s) (path : BitVec 1) : KeptOut s0 (execGetMeasurements path s) := by
  unfold execGetMeasurements
  iterate 3
    repeat' (first
      | (with_reducible assumption) | (with_reducible apply next_kept) | (with_reducible apply iteOut_kept) | (with_reducible apply ite_kept)
      | (with_reducible apply spdmStep_kept) | (with_reducible apply foldl_kept <;> intros) | (split) | (dsimp only))
    all_goals (try with_reducible refine mk_kept ?_ rfl (by first | rfl | simp) (by first | rfl | simp) rfl (by first | exact id | exact fun _ => rfl))

theorem execKeyExchange_kept {s0 s : State} (h : Kept s0 s) (path : BitVec 1) : KeptOut s0 (execKeyExchange path s) := by
  unfold execKeyExchange
  iterate 3
    repeat' (first
      | (with_reducible assumption) | (with_reducible apply next_kept) | (with_reducible apply iteOut_kept) | (with_reducible apply ite_kept)
      | (with_reducible apply spdmStep_kept) | (with_reducible apply foldl_kept <;> intros) | (split) | (dsimp only))
    all_goals (try with_reducible refine mk_kept ?_ rfl (by first | rfl | simp) (by first | rfl | simp) rfl (by first | exact id | exact fun _ => rfl))

theorem execFinish_kept {s0 s : State} (h : Kept s0 s) (path : BitVec 1) (ok : Bool) : KeptOut s0 (execFinish path ok s) := by
  unfold execFinish
  iterate 3
    repeat' (first
      | (with_reducible assumption) | (with_reducible apply next_kept) | (with_reducible apply iteOut_kept) | (with_reducible apply ite_kept)
      | (with_reducible apply spdmStep_kept) | (with_reducible apply foldl_kept <;> intros) | (split) | (dsimp only))
    all_goals (try with_reducible refine mk_kept ?_ rfl (by first | rfl | simp) (by first | rfl | simp) rfl (by first | exact id | exact fun _ => rfl))

theorem execIdeKm_kept {s0 s : State} (h : Kept s0 s) (path : BitVec 1) (stream : BitVec 6) (install : Bool) :
    KeptOut s0 (execIdeKm path stream install s) := by
  unfold execIdeKm
  iterate 3
    repeat' (first
      | (with_reducible assumption) | (with_reducible apply next_kept) | (with_reducible apply iteOut_kept) | (with_reducible apply ite_kept)
      | (with_reducible apply send_kept) | (with_reducible apply foldl_kept <;> intros) | (split) | (dsimp only))
    all_goals (try with_reducible refine mk_kept ?_ rfl (by first | rfl | simp) (by first | rfl | simp) rfl (by first | exact id | exact fun _ => rfl))

theorem execLockInterfaceRequest_kept {s0 s : State} (h : Kept s0 s) (vf : BitVec 6) : KeptOut s0 (execLockInterfaceRequest vf s) := by
  unfold execLockInterfaceRequest
  iterate 3
    repeat' (first
      | (with_reducible assumption) | (with_reducible apply next_kept) | (with_reducible apply iteOut_kept) | (with_reducible apply ite_kept)
      | (with_reducible apply send_kept) | (with_reducible apply setTdi_kept) | (with_reducible apply foldl_kept <;> intros) | (split) | (dsimp only))
    all_goals (try with_reducible refine mk_kept ?_ rfl (by first | rfl | simp) (by first | rfl | simp) rfl (by first | exact id | exact fun _ => rfl))

theorem execTdiStart_kept {s0 s : State} (h : Kept s0 s) (vf : BitVec 6) : KeptOut s0 (execTdiStart vf s) := by
  unfold execTdiStart
  iterate 3
    repeat' (first
      | (with_reducible assumption) | (with_reducible apply next_kept) | (with_reducible apply iteOut_kept) | (with_reducible apply ite_kept)
      | (with_reducible apply send_kept) | (with_reducible apply setTdi_kept) | (with_reducible apply foldl_kept <;> intros) | (split) | (dsimp only))
    all_goals (try with_reducible refine mk_kept ?_ rfl (by first | rfl | simp) (by first | rfl | simp) rfl (by first | exact id | exact fun _ => rfl))

theorem leaveTdi_kept {s0 s : State} (h : Kept s0 s) (v : Nat) (error : Bool) : Kept s0 (leaveTdi s v error) := by
  unfold leaveTdi
  repeat' (first
    | (with_reducible assumption) | (with_reducible apply ite_kept) | (with_reducible apply disableCtx_kept) | (with_reducible apply event_kept)
    | (with_reducible refine modMem_kept ?_ _ (fun hm => ?_)) | (with_reducible apply setTdi_kept) | (exact hm) | (exact filter_wf _ hm)
    | (exact putBytes_wf hm) | (with_reducible apply foldl_kept <;> intros) | (split) | (dsimp only))
  all_goals (try with_reducible refine mk_kept ?_ rfl rfl rfl rfl (by first | exact id | exact fun _ => rfl))
  repeat' (first
    | (with_reducible assumption) | (with_reducible apply ite_kept) | (with_reducible apply disableCtx_kept) | (with_reducible apply event_kept)
    | (with_reducible refine modMem_kept ?_ _ (fun hm => ?_)) | (with_reducible apply setTdi_kept) | (exact hm) | (exact filter_wf _ hm)
    | (exact putBytes_wf hm) | (with_reducible apply foldl_kept <;> intros) | (split) | (dsimp only))

theorem execTdiUnlock_kept {s0 s : State} (h : Kept s0 s) (vf : BitVec 6) (error : Bool) : KeptOut s0 (execTdiUnlock vf error s) := by
  unfold execTdiUnlock
  iterate 3
    repeat' (first
      | (with_reducible assumption) | (with_reducible apply next_kept) | (with_reducible apply iteOut_kept) | (with_reducible apply ite_kept)
      | (with_reducible apply leaveTdi_kept) | (with_reducible apply foldl_kept <;> intros) | (split) | (dsimp only))
    all_goals (try with_reducible refine mk_kept ?_ rfl (by first | rfl | simp) (by first | rfl | simp) rfl (by first | exact id | exact fun _ => rfl))

theorem runBlock_kept {s0 s : State} (h : Kept s0 s) (mgmt : Bool) (b : List Byte) : Kept s0 (runBlock s mgmt b) := by
  unfold runBlock
  dsimp only
  split
  · rename_i t he
    split at he
    · exact (execProvisionCtx_kept h _ _ _ _ _ _ _ _ _ _ _).at he
    · exact (execUnprovisionCtx_kept h _ _).at he
    · exact (execSetDomain_kept h _ _ _ _ _ _ _ _).at he
    · exact (execMoveStack_kept h _ _ _).at he
    · exact (execSlotSet_kept h _ _ _ _ _ _).at he
    · exact (execSetPolicy_kept h _ _).at he
    · exact (next_kept (submit_kept h _ _)).at he
  · exact h

theorem haltBoot_kept {s0 s : State} (h : Kept s0 s) (cls : Nat) (cause : Nat) : Kept s0 (haltBoot s cls cause) := by
  unfold haltBoot
  iterate 3
    repeat' (first
      | (with_reducible assumption) | (with_reducible apply ite_kept) | (with_reducible apply islandFault_kept) | (with_reducible apply modRst_kept)
      | (with_reducible apply setStage_kept) | (with_reducible apply foldl_kept <;> intros) | (split) | (dsimp only))
    all_goals (try with_reducible refine mk_kept ?_ rfl (by first | rfl | simp) (by first | rfl | simp) rfl (by first | exact id | exact fun _ => rfl))

theorem tryImages_kept {s0 s : State} (h : Kept s0 s) (a1 : List Nat) : Kept s0 (tryImages s a1) := by
  unfold tryImages
  repeat' (first
    | (with_reducible assumption) | (with_reducible apply ite_kept) | (with_reducible apply haltBoot_kept) | (with_reducible apply setStage_kept)
    | (with_reducible apply regSetBits_kept) | (with_reducible apply modRst_kept) | (with_reducible apply foldl_kept <;> intros) | (split)
    | (dsimp only))
  all_goals (try with_reducible refine mk_kept ?_ rfl rfl rfl rfl (by first | exact id | exact fun _ => rfl))
  repeat' (first
    | (with_reducible assumption) | (with_reducible apply ite_kept) | (with_reducible apply haltBoot_kept) | (with_reducible apply setStage_kept)
    | (with_reducible apply regSetBits_kept) | (with_reducible apply modRst_kept) | (with_reducible apply foldl_kept <;> intros) | (split)
    | (dsimp only))

theorem firstImages_kept {s0 s : State} (h : Kept s0 s)  : Kept s0 (firstImages s) := by
  unfold firstImages
  repeat' (first
    | (with_reducible assumption) | (with_reducible apply ite_kept) | (with_reducible apply tryImages_kept) | (with_reducible apply regSetBits_kept)
    | (with_reducible apply foldl_kept <;> intros) | (split) | (dsimp only))
  all_goals (try with_reducible refine mk_kept ?_ rfl rfl rfl rfl (by first | exact id | exact fun _ => rfl))
  repeat' (first
    | (with_reducible assumption) | (with_reducible apply ite_kept) | (with_reducible apply tryImages_kept) | (with_reducible apply regSetBits_kept)
    | (with_reducible apply foldl_kept <;> intros) | (split) | (dsimp only))

theorem startImages_kept {s0 s : State} (h : Kept s0 s) : Kept s0 (startImages s) := by
  unfold startImages
  iterate 3
    repeat' (first
      | (with_reducible assumption) | (with_reducible apply ite_kept) | (with_reducible apply haltBoot_kept) | (with_reducible apply regSetBits_kept)
      | (with_reducible apply firstImages_kept) | (with_reducible apply foldl_kept <;> intros) | (split) | (dsimp only))
    all_goals (try with_reducible refine mk_kept ?_ rfl (by first | rfl | simp) (by first | rfl | simp) rfl (by first | exact id | exact fun _ => rfl))

theorem rampDie_kept {s0 s : State} (h : Kept s0 s) (p : Nat) : Kept s0 (rampDie s p) := by
  unfold rampDie
  iterate 3
    repeat' (first
      | (with_reducible assumption) | (with_reducible apply ite_kept) | (with_reducible apply powerOn_kept) | (with_reducible apply modDie_kept)
      | (with_reducible apply foldl_kept <;> intros) | (split) | (dsimp only))
    all_goals (try with_reducible refine mk_kept ?_ rfl (by first | rfl | simp) (by first | rfl | simp) rfl (by first | exact id | exact fun _ => rfl))

theorem passOver_kept {s0 s : State} (h : Kept s0 s) (why : Nat) : Kept s0 (passOver s why) := by
  unfold passOver
  repeat' (first
    | (with_reducible assumption) | (with_reducible apply ite_kept) | (with_reducible apply regSetBits_kept) | (with_reducible apply setStage_kept)
    | (with_reducible apply tryImages_kept) | (with_reducible apply foldl_kept <;> intros) | (split) | (dsimp only))
  all_goals (try with_reducible refine mk_kept ?_ rfl rfl rfl rfl (by first | exact id | exact fun _ => rfl))
  repeat' (first
    | (with_reducible assumption) | (with_reducible apply ite_kept) | (with_reducible apply regSetBits_kept) | (with_reducible apply setStage_kept)
    | (with_reducible apply tryImages_kept) | (with_reducible apply foldl_kept <;> intros) | (split) | (dsimp only))

theorem execRecoveryGo_kept {s0 s : State} (h : Kept s0 s) : KeptOut s0 (execRecoveryGo s) := by
  unfold execRecoveryGo
  iterate 3
    repeat' (first
      | (with_reducible assumption) | (with_reducible apply next_kept) | (with_reducible apply iteOut_kept) | (with_reducible apply ite_kept)
      | (with_reducible apply regSetBits_kept) | (with_reducible apply modRst_kept) | (with_reducible apply foldl_kept <;> intros) | (split)
      | (dsimp only))
    all_goals (try with_reducible refine mk_kept ?_ rfl (by first | rfl | simp) (by first | rfl | simp) rfl (by first | exact id | exact fun _ => rfl))

theorem freshDie_kept {s0 s : State} (h : Kept s0 s) (i : Nat) : Kept s0 (freshDie s i) := by
  unfold freshDie
  iterate 3
    repeat' (first
      | (with_reducible assumption) | (with_reducible apply ite_kept) | (with_reducible apply modPwr_kept)
      | (with_reducible apply foldl_kept <;> intros) | (split) | (dsimp only))
    all_goals (try with_reducible refine mk_kept ?_ rfl (by first | rfl | simp) (by first | rfl | simp) rfl (by first | exact id | exact fun _ => rfl))

theorem execWarmupTimeout_kept {s0 s : State} (h : Kept s0 s) : KeptOut s0 (execWarmupTimeout s) := by
  unfold execWarmupTimeout
  iterate 3
    repeat' (first
      | (with_reducible assumption) | (with_reducible apply next_kept) | (with_reducible apply iteOut_kept) | (with_reducible apply ite_kept)
      | (with_reducible apply haltBoot_kept) | (with_reducible apply foldl_kept <;> intros) | (split) | (dsimp only))
    all_goals (try with_reducible refine mk_kept ?_ rfl (by first | rfl | simp) (by first | rfl | simp) rfl (by first | exact id | exact fun _ => rfl))

theorem land_kept {s0 s : State} (h : Kept s0 s) (at_ : C3Place) (p : C3Packet) : Kept s0 (land s at_ p) := by
  unfold land
  iterate 3
    repeat' (first
      | (with_reducible assumption) | (with_reducible apply ite_kept) | (with_reducible apply foldl_kept <;> intros) | (split) | (dsimp only))
    all_goals (try with_reducible refine mk_kept ?_ rfl (by first | rfl | simp) (by first | rfl | simp) rfl (by first | exact id | exact fun _ => rfl))

theorem meet_kept {s0 s : State} (h : Kept s0 s) (place : C3Place) (port slots src window : Nat) (merging : Bool) (p : C3Packet)
    (go : State → C3Packet → State) (hg : ∀ t q, Kept s0 t → Kept s0 (go t q)) : Kept s0 (meet s place port slots src window merging p go).1 := by
  unfold meet
  dsimp only
  repeat' (first | (with_reducible assumption) | (with_reducible apply hg) | (with_reducible refine mk_kept ?_ rfl rfl rfl rfl id; assumption) | (split))

theorem routerGo_kept {s0 s : State} (h : Kept s0 s) (t : Nat) (inPort : Nat) (p : C3Packet) : Kept s0 (routerGo t inPort s p) := by
  unfold routerGo
  iterate 3
    repeat' (first
      | (with_reducible assumption) | (with_reducible apply ite_kept) | (with_reducible apply enqueue_kept)
      | (with_reducible apply foldl_kept <;> intros) | (split) | (dsimp only))
    all_goals (try with_reducible refine mk_kept ?_ rfl (by first | rfl | simp) (by first | rfl | simp) rfl (by first | exact id | exact fun _ => rfl))

theorem execC3PacketArrival_kept {s0 s : State} (h : Kept s0 s) (t : BitVec 11) (p : C3Packet) : KeptOut s0 (execC3PacketArrival t p s) := by
  unfold execC3PacketArrival
  repeat' (first
    | (with_reducible assumption) | (with_reducible apply next_kept) | (with_reducible apply iteOut_kept) | (with_reducible apply ite_kept)
    | (with_reducible apply land_kept) | (with_reducible apply countFixed_kept) | (with_reducible refine meet_kept ?_ _ _ _ _ _ _ _ _ (fun t q ht => ?_)) | (with_reducible apply routerGo_kept)
    | (with_reducible apply modStack_kept) | (with_reducible apply foldl_kept <;> intros) | (split) | (dsimp only))
  all_goals (try with_reducible refine mk_kept ?_ rfl rfl rfl rfl (by first | exact id | exact fun _ => rfl))
  repeat' (first
    | (with_reducible assumption) | (with_reducible apply next_kept) | (with_reducible apply iteOut_kept) | (with_reducible apply ite_kept)
    | (with_reducible apply land_kept) | (with_reducible apply countFixed_kept) | (with_reducible refine meet_kept ?_ _ _ _ _ _ _ _ _ (fun t q ht => ?_)) | (with_reducible apply routerGo_kept)
    | (with_reducible apply modStack_kept) | (with_reducible apply foldl_kept <;> intros) | (split) | (dsimp only))

theorem execMergeWindowExpiry_kept {s0 s : State} (h : Kept s0 s) (t : BitVec 11) (k : C3Key) : KeptOut s0 (execMergeWindowExpiry t k s) := by
  unfold execMergeWindowExpiry
  iterate 3
    repeat' (first
      | (with_reducible assumption) | (with_reducible apply next_kept) | (with_reducible apply iteOut_kept) | (with_reducible apply ite_kept)
      | (with_reducible apply routerGo_kept) | (with_reducible apply foldl_kept <;> intros) | (split) | (dsimp only))
    all_goals (try with_reducible refine mk_kept ?_ rfl (by first | rfl | simp) (by first | rfl | simp) rfl (by first | exact id | exact fun _ => rfl))

theorem endpointGo_kept {s0 s : State} (h : Kept s0 s) (n : Nat) (inward : Bool) (p : C3Packet) : Kept s0 (endpointGo n inward s p) := by
  unfold endpointGo
  iterate 3
    repeat' (first
      | (with_reducible assumption) | (with_reducible apply ite_kept) | (with_reducible apply fly_kept) | (with_reducible apply enqueue_kept)
      | (with_reducible apply foldl_kept <;> intros) | (split) | (dsimp only))
    all_goals (try with_reducible refine mk_kept ?_ rfl (by first | rfl | simp) (by first | rfl | simp) rfl (by first | exact id | exact fun _ => rfl))

theorem atEndpoint_kept {s0 s : State} (h : Kept s0 s) (n : Nat) (inward : Bool) (p : C3Packet) : Kept s0 (atEndpoint s n inward p) := by
  unfold atEndpoint
  repeat' (first
    | (with_reducible assumption) | (with_reducible apply ite_kept) | (with_reducible apply land_kept) | (with_reducible apply countFixed_kept)
    | (with_reducible refine meet_kept ?_ _ _ _ _ _ _ _ _ (fun t q ht => ?_)) | (with_reducible apply endpointGo_kept)
    | (with_reducible apply bump64_kept) | (with_reducible apply foldl_kept <;> intros) | (split) | (dsimp only))
  all_goals (try with_reducible refine mk_kept ?_ rfl rfl rfl rfl (by first | exact id | exact fun _ => rfl))
  repeat' (first
    | (with_reducible assumption) | (with_reducible apply ite_kept) | (with_reducible apply land_kept) | (with_reducible apply countFixed_kept)
    | (with_reducible refine meet_kept ?_ _ _ _ _ _ _ _ _ (fun t q ht => ?_)) | (with_reducible apply endpointGo_kept)
    | (with_reducible apply bump64_kept) | (with_reducible apply foldl_kept <;> intros) | (split) | (dsimp only))

theorem execEpC3PacketArrival_kept {s0 s : State} (h : Kept s0 s) (n : BitVec 3) (inward : Bool) (p : C3Packet) :
    KeptOut s0 (execEpC3PacketArrival n inward p s) := by
  unfold execEpC3PacketArrival
  iterate 3
    repeat' (first
      | (with_reducible assumption) | (with_reducible apply next_kept) | (with_reducible apply iteOut_kept) | (with_reducible apply ite_kept)
      | (with_reducible apply atEndpoint_kept) | (with_reducible apply foldl_kept <;> intros) | (split) | (dsimp only))
    all_goals (try with_reducible refine mk_kept ?_ rfl (by first | rfl | simp) (by first | rfl | simp) rfl (by first | exact id | exact fun _ => rfl))

theorem execEpMergeWindowExpiry_kept {s0 s : State} (h : Kept s0 s) (n : BitVec 3) (inward : Bool) (k : C3Key) :
    KeptOut s0 (execEpMergeWindowExpiry n inward k s) := by
  unfold execEpMergeWindowExpiry
  iterate 3
    repeat' (first
      | (with_reducible assumption) | (with_reducible apply next_kept) | (with_reducible apply iteOut_kept) | (with_reducible apply ite_kept)
      | (with_reducible apply endpointGo_kept) | (with_reducible apply foldl_kept <;> intros) | (split) | (dsimp only))
    all_goals (try with_reducible refine mk_kept ?_ rfl (by first | rfl | simp) (by first | rfl | simp) rfl (by first | exact id | exact fun _ => rfl))

theorem execReductionAdd_kept {s0 s : State} (h : Kept s0 s) (t : BitVec 11) (p : C3Packet) : KeptOut s0 (execReductionAdd t p s) := by
  unfold execReductionAdd
  iterate 3
    repeat' (first
      | (with_reducible assumption) | (with_reducible apply next_kept) | (with_reducible apply iteOut_kept) | (with_reducible apply ite_kept)
      | (with_reducible apply land_kept) | (with_reducible apply tileFault_kept) | (with_reducible apply reductionFault_kept)
      | (with_reducible apply modStack_kept) | (with_reducible apply foldl_kept <;> intros) | (split) | (dsimp only))
    all_goals (try with_reducible refine mk_kept ?_ rfl (by first | rfl | simp) (by first | rfl | simp) rfl (by first | exact id | exact fun _ => rfl))

theorem execTileSilent_kept {s0 s : State} (h : Kept s0 s) (x : SilentTile) : KeptOut s0 (execTileSilent x s) := by
  unfold execTileSilent
  iterate 3
    repeat' (first
      | (with_reducible assumption) | (with_reducible apply next_kept) | (with_reducible apply iteOut_kept) | (with_reducible apply ite_kept)
      | (with_reducible apply loseTile_kept) | (with_reducible apply loseDie_kept) | (with_reducible apply foldl_kept <;> intros) | (split)
      | (dsimp only))
    all_goals (try with_reducible refine mk_kept ?_ rfl (by first | rfl | simp) (by first | rfl | simp) rfl (by first | exact id | exact fun _ => rfl))

theorem telControl_kept {s0 s : State} (h : Kept s0 s) (r : Requester) (n : Nat) (freeze : Bool) (clr : Bool) :
    Kept s0 (telControl r s n freeze clr) := by
  unfold telControl
  iterate 3
    repeat' (first
      | (with_reducible assumption) | (with_reducible apply ite_kept) | (with_reducible apply modStack_kept) | (with_reducible apply regSetBits_kept)
      | (with_reducible apply foldl_kept <;> intros) | (split) | (dsimp only))
    all_goals (try with_reducible refine mk_kept ?_ rfl (by first | rfl | simp) (by first | rfl | simp) rfl (by first | exact id | exact fun _ => rfl))

theorem execFreeze_kept {s0 s : State} (h : Kept s0 s) (r : Requester) (w : TelWrite) : KeptOut s0 (execFreeze r w s) := by
  unfold execFreeze
  iterate 3
    repeat' (first
      | (with_reducible assumption) | (with_reducible apply next_kept) | (with_reducible apply iteOut_kept) | (with_reducible apply ite_kept)
      | (with_reducible apply telControl_kept) | (with_reducible apply foldl_kept <;> intros) | (split) | (dsimp only))
    all_goals (try with_reducible refine mk_kept ?_ rfl (by first | rfl | simp) (by first | rfl | simp) rfl (by first | exact id | exact fun _ => rfl))

theorem execTelClr_kept {s0 s : State} (h : Kept s0 s) (r : Requester) (w : TelWrite) : KeptOut s0 (execTelClr r w s) := by
  unfold execTelClr
  iterate 3
    repeat' (first
      | (with_reducible assumption) | (with_reducible apply next_kept) | (with_reducible apply iteOut_kept) | (with_reducible apply ite_kept)
      | (with_reducible apply telControl_kept) | (with_reducible apply foldl_kept <;> intros) | (split) | (dsimp only))
    all_goals (try with_reducible refine mk_kept ?_ rfl (by first | rfl | simp) (by first | rfl | simp) rfl (by first | exact id | exact fun _ => rfl))

theorem meshBoundary_kept {s0 s : State} (h : Kept s0 s) (d : Nat) : Kept s0 (meshBoundary s d) := by
  unfold meshBoundary
  iterate 3
    repeat' (first
      | (with_reducible assumption) | (with_reducible apply ite_kept) | (with_reducible apply modStack_kept)
      | (with_reducible apply foldl_kept <;> intros) | (split) | (dsimp only))
    all_goals (try with_reducible refine mk_kept ?_ rfl (by first | rfl | simp) (by first | rfl | simp) rfl (by first | exact id | exact fun _ => rfl))

theorem atOpBoundary_kept {s0 s : State} (h : Kept s0 s) (d : Nat) : Kept s0 (atOpBoundary s d) := by
  unfold atOpBoundary
  iterate 3
    repeat' (first
      | (with_reducible assumption) | (with_reducible apply ite_kept) | (with_reducible apply drainBoundary_kept)
      | (with_reducible apply installTilings_kept) | (with_reducible apply steerBoundary_kept) | (with_reducible apply installRemaps_kept)
      | (with_reducible apply clockBoundary_kept) | (with_reducible apply meshBoundary_kept) | (with_reducible apply installCalibration_kept)
      | (with_reducible apply foldl_kept <;> intros) | (split) | (dsimp only))
    all_goals (try with_reducible refine mk_kept ?_ rfl (by first | rfl | simp) (by first | rfl | simp) rfl (by first | exact id | exact fun _ => rfl))

theorem atStepBoundary_kept {s0 s : State} (h : Kept s0 s) (d : Nat) : Kept s0 (atStepBoundary s d) := by
  unfold atStepBoundary
  iterate 3
    repeat' (first
      | (with_reducible assumption) | (with_reducible apply ite_kept) | (with_reducible apply modDom_kept) | (with_reducible apply handBacks_kept)
      | (with_reducible apply sendCommits_kept) | (with_reducible apply returnDies_kept) | (with_reducible apply formBatch_kept)
      | (with_reducible apply applyClasses_kept) | (with_reducible apply foldl_kept <;> intros) | (split) | (dsimp only))
    all_goals (try with_reducible refine mk_kept ?_ rfl (by first | rfl | simp) (by first | rfl | simp) rfl (by first | exact id | exact fun _ => rfl))

theorem boundary_kept {s0 s : State} (h : Kept s0 s) (n : Nat) : Kept s0 (boundary s n) := by
  unfold boundary
  iterate 3
    repeat' (first
      | (with_reducible assumption) | (with_reducible apply ite_kept) | (with_reducible apply endOp_kept) | (with_reducible apply formBatch_kept)
      | (with_reducible apply atOpBoundary_kept) | (with_reducible apply atStepBoundary_kept) | (with_reducible apply foldl_kept <;> intros) | (split)
      | (dsimp only))
    all_goals (try with_reducible refine mk_kept ?_ rfl (by first | rfl | simp) (by first | rfl | simp) rfl (by first | exact id | exact fun _ => rfl))

theorem execOperationBoundary_kept {s0 s : State} (h : Kept s0 s) (d : BitVec 3) : KeptOut s0 (execOperationBoundary d s) := by
  unfold execOperationBoundary
  iterate 3
    repeat' (first
      | (with_reducible assumption) | (with_reducible apply next_kept) | (with_reducible apply iteOut_kept) | (with_reducible apply ite_kept)
      | (with_reducible apply modDom_kept) | (with_reducible apply boundary_kept) | (with_reducible apply foldl_kept <;> intros) | (split)
      | (dsimp only))
    all_goals (try with_reducible refine mk_kept ?_ rfl (by first | rfl | simp) (by first | rfl | simp) rfl (by first | exact id | exact fun _ => rfl))

theorem losePeerHomes_kept {s0 s : State} (h : Kept s0 s) (p : Nat) : Kept s0 (losePeerHomes s p) := by
  unfold losePeerHomes
  iterate 3
    repeat' (first
      | (with_reducible assumption) | (with_reducible apply ite_kept) | (with_reducible apply updUnits_kept) | (with_reducible apply loseHomes_kept)
      | (with_reducible apply failInst_kept) | (with_reducible apply foldl_kept <;> intros) | (split) | (dsimp only))
    all_goals (try with_reducible refine mk_kept ?_ rfl (by first | rfl | simp) (by first | rfl | simp) rfl (by first | exact id | exact fun _ => rfl))

theorem sinkPacket_kept {s0 s : State} (h : Kept s0 s) (n : Nat) (next : MeshNext) (w : MeshPkt) : Kept s0 (sinkPacket s n next w) := by
  unfold sinkPacket
  iterate 3
    repeat' (first
      | (with_reducible assumption) | (with_reducible apply ite_kept) | (with_reducible apply fly_kept) | (with_reducible apply tileFault_kept)
      | (with_reducible apply foldl_kept <;> intros) | (split) | (dsimp only))
    all_goals (try with_reducible refine mk_kept ?_ rfl (by first | rfl | simp) (by first | rfl | simp) rfl (by first | exact id | exact fun _ => rfl))

theorem leave_kept {s0 s : State} (h : Kept s0 s) (n : Nat) (w : MeshWait) : Kept s0 (leave s n w) := by
  unfold leave
  iterate 3
    repeat' (first
      | (with_reducible assumption) | (with_reducible apply ite_kept) | (with_reducible apply countFlit_kept) | (with_reducible apply modStack_kept)
      | (with_reducible apply sinkPacket_kept) | (with_reducible apply foldl_kept <;> intros) | (split) | (dsimp only))
    all_goals (try with_reducible refine mk_kept ?_ rfl (by first | rfl | simp) (by first | rfl | simp) rfl (by first | exact id | exact fun _ => rfl))

theorem portCycle_kept {s0 s : State} (h : Kept s0 s) (n : Nat) (t : Nat) (port : Nat) : Kept s0 (portCycle s n t port) := by
  unfold portCycle
  iterate 3
    repeat' (first
      | (with_reducible assumption) | (with_reducible apply ite_kept) | (with_reducible apply countStalls_kept) | (with_reducible apply leave_kept)
      | (with_reducible apply modStack_kept) | (with_reducible apply foldl_kept <;> intros) | (split) | (dsimp only))
    all_goals (try with_reducible refine mk_kept ?_ rfl (by first | rfl | simp) (by first | rfl | simp) rfl (by first | exact id | exact fun _ => rfl))

theorem meshCycle_kept {s0 s : State} (h : Kept s0 s) (n : Nat) : Kept s0 (meshCycle s n) := by
  unfold meshCycle
  iterate 3
    repeat' (first
      | (with_reducible assumption) | (with_reducible apply ite_kept) | (with_reducible apply modStack_kept) | (with_reducible apply portCycle_kept)
      | (with_reducible apply foldl_kept <;> intros) | (split) | (dsimp only))
    all_goals (try with_reducible refine mk_kept ?_ rfl (by first | rfl | simp) (by first | rfl | simp) rfl (by first | exact id | exact fun _ => rfl))

theorem meshTick_kept {s0 s : State} (h : Kept s0 s) : Kept s0 (meshTick s) := by
  unfold meshTick
  iterate 3
    repeat' (first
      | (with_reducible assumption) | (with_reducible apply ite_kept) | (with_reducible apply meshCycle_kept)
      | (with_reducible apply foldl_kept <;> intros) | (split) | (dsimp only))
    all_goals (try with_reducible refine mk_kept ?_ rfl (by first | rfl | simp) (by first | rfl | simp) rfl (by first | exact id | exact fun _ => rfl))

theorem payOwed_kept {s0 s : State} (h : Kept s0 s) : Kept s0 (payOwed s) := by
  unfold payOwed
  iterate 3
    repeat' (first
      | (with_reducible assumption) | (with_reducible apply ite_kept) | (with_reducible apply boundary_kept) | (with_reducible apply modDom_kept)
      | (with_reducible apply foldl_kept <;> intros) | (split) | (dsimp only))
    all_goals (try with_reducible refine mk_kept ?_ rfl (by first | rfl | simp) (by first | rfl | simp) rfl (by first | exact id | exact fun _ => rfl))

theorem askSilent_kept {s0 s : State} (h : Kept s0 s) : Kept s0 (askSilent s) := by
  unfold askSilent
  iterate 3
    repeat' (first
      | (with_reducible assumption) | (with_reducible apply ite_kept) | (with_reducible apply requestSet_kept) | (with_reducible apply modFab_kept)
      | (with_reducible apply foldl_kept <;> intros) | (split) | (dsimp only))
    all_goals (try with_reducible refine mk_kept ?_ rfl (by first | rfl | simp) (by first | rfl | simp) rfl (by first | exact id | exact fun _ => rfl))

theorem runCmd_kept {s0 s : State} (h : Kept s0 s) (mgmt : Bool) (c : SecCmd) : Kept s0 (runCmd s mgmt c) := by
  unfold runCmd
  split
  · exact command_kept h _ _ _ _ (provision_kept h _ _)
  · exact command_kept h _ _ _ _ (modCtx_kept h _ _)
  · exact command_kept h _ _ _ _ (setShares_kept h _ _)
  · exact command_kept h _ _ _ _ (startMove_kept h _ _)
  · exact command_kept h _ _ _ _ (setSlot_kept h _ _ _ _)
  · exact command_kept h _ _ _ _ (mk_kept h rfl rfl rfl rfl id)
  · exact command_kept h _ _ _ _ h

theorem runCmds_kept {s0 s : State} (h : Kept s0 s) : Kept s0 (runCmds s) := by
  unfold runCmds
  iterate 3
    repeat' (first
      | (with_reducible assumption) | (with_reducible apply ite_kept) | (with_reducible apply runCmd_kept)
      | (with_reducible apply foldl_kept <;> intros) | (split) | (dsimp only))
    all_goals (try with_reducible refine mk_kept ?_ rfl (by first | rfl | simp) (by first | rfl | simp) rfl (by first | exact id | exact fun _ => rfl))

theorem badWord_kept {s0 s : State} (h : Kept s0 s) (l : Option Nat) : Kept s0 (badWord s l) := by
  unfold badWord
  iterate 3
    repeat' (first
      | (with_reducible assumption) | (with_reducible apply ite_kept) | (with_reducible apply t1DoubleBit_kept)
      | (with_reducible apply t2Uncorrectable_kept) | (with_reducible apply foldl_kept <;> intros) | (split) | (dsimp only))
    all_goals (try with_reducible refine mk_kept ?_ rfl (by first | rfl | simp) (by first | rfl | simp) rfl (by first | exact id | exact fun _ => rfl))

end Sys2Proof.Machine
end

