-- ==== Sys2Proof/Laws/KeptPower.lean ====
section
/-!
SUPPORT. Every function of the state keeps the queue and the invariant: peers, resets, power, faults and Flacon.
-/
set_option Elab.async false
set_option linter.all false
namespace Sys2Proof.Machine
open Sys2Proof

theorem accessLost_kept {s0 s : State} (h : Kept s0 s) (a : HubAccess) : Kept s0 (accessLost s a) := by
  unfold accessLost
  iterate 3
    repeat' (first
      | (with_reducible assumption) | (with_reducible apply ite_kept) | (with_reducible apply haltDma_kept) | (with_reducible apply endEngine_kept)
      | (with_reducible apply ringError_kept) | (with_reducible apply failRead_kept) | (with_reducible apply settle_kept)
      | (with_reducible apply setCtx_kept) | (with_reducible apply truncateOutput_kept) | (with_reducible apply modCtx_kept)
      | (with_reducible apply foldl_kept <;> intros) | (split) | (dsimp only))
    all_goals (try with_reducible refine mk_kept ?_ rfl (by first | rfl | simp) (by first | rfl | simp) rfl (by first | exact id | exact fun _ => rfl))

theorem failAccess_kept {s0 s : State} (h : Kept s0 s) (a : HubAccess) : Kept s0 (failAccess s a) := by
  unfold failAccess
  iterate 3
    repeat' (first
      | (with_reducible assumption) | (with_reducible apply ite_kept) | (with_reducible apply clearRetry_kept)
      | (with_reducible apply accessLost_kept) | (with_reducible apply foldl_kept <;> intros) | (split) | (dsimp only))
    all_goals (try with_reducible refine mk_kept ?_ rfl (by first | rfl | simp) (by first | rfl | simp) rfl (by first | exact id | exact fun _ => rfl))

theorem dmaAnswer_kept {s0 s : State} (h : Kept s0 s) (n : Nat) (op : Nat) (addr : Nat) (st : Nat) (line : List Byte) :
    Kept s0 (dmaAnswer s n op addr st line) := by
  unfold dmaAnswer
  iterate 3
    repeat' (first
      | (with_reducible assumption) | (with_reducible apply ite_kept) | (with_reducible apply lineDone_kept) | (with_reducible apply haltDma_kept)
      | (with_reducible apply failAccess_kept) | (with_reducible apply takeBytes_kept) | (with_reducible apply foldl_kept <;> intros) | (split)
      | (dsimp only))
    all_goals (try with_reducible refine mk_kept ?_ rfl (by first | rfl | simp) (by first | rfl | simp) rfl (by first | exact id | exact fun _ => rfl))

theorem handOver_kept {s0 s : State} (h : Kept s0 s) (a : FabArgs) (who : FabWho) (st : Nat) (result : Nat) (combined : Bool) (poison : Bool) (line : List Byte) :
    Kept s0 (handOver s a who st result combined poison line) := by
  unfold handOver
  iterate 3
    repeat' (first
      | (with_reducible assumption) | (with_reducible apply ite_kept) | (with_reducible apply send_kept) | (with_reducible apply dmaAnswer_kept)
      | (with_reducible apply foldl_kept <;> intros) | (split) | (dsimp only))
    all_goals (try with_reducible refine mk_kept ?_ rfl (by first | rfl | simp) (by first | rfl | simp) rfl (by first | exact id | exact fun _ => rfl))

theorem deliverPoison_kept {s0 s : State} (h : Kept s0 s) (a : FabArgs) (who : FabWho) (combined : Bool) :
    Kept s0 (deliverPoison s a who combined) := by
  unfold deliverPoison
  iterate 3
    repeat' (first
      | (with_reducible assumption) | (with_reducible apply ite_kept) | (with_reducible apply bump_kept) | (with_reducible apply fault_kept)
      | (with_reducible apply handOver_kept) | (with_reducible apply foldl_kept <;> intros) | (split) | (dsimp only))
    all_goals (try with_reducible refine mk_kept ?_ rfl (by first | rfl | simp) (by first | rfl | simp) rfl (by first | exact id | exact fun _ => rfl))

theorem issueOrPoison_kept {s0 s : State} (h : Kept s0 s) (a : FabArgs) (members : List (FabWho × BitVec 64)) :
    Kept s0 (issueOrPoison s a members) := by
  unfold issueOrPoison
  iterate 3
    repeat' (first
      | (with_reducible assumption) | (with_reducible apply ite_kept) | (with_reducible apply issue_kept) | (with_reducible apply deliverPoison_kept)
      | (with_reducible apply foldl_kept <;> intros) | (split) | (dsimp only))
    all_goals (try with_reducible refine mk_kept ?_ rfl (by first | rfl | simp) (by first | rfl | simp) rfl (by first | exact id | exact fun _ => rfl))

theorem execFabricRequestSend_kept {s0 s : State} (h : Kept s0 s) (a : FabArgs) : KeptOut s0 (execFabricRequestSend a s) := by
  unfold execFabricRequestSend
  iterate 3
    repeat' (first
      | (with_reducible assumption) | (with_reducible apply next_kept) | (with_reducible apply iteOut_kept) | (with_reducible apply ite_kept)
      | (with_reducible apply bump_kept) | (with_reducible apply modFab_kept) | (with_reducible apply handOver_kept)
      | (with_reducible apply noteWrite_kept) | (with_reducible apply holdAdd_kept) | (with_reducible apply issueOrPoison_kept)
      | (with_reducible apply foldl_kept <;> intros) | (split) | (dsimp only))
    all_goals (try with_reducible refine mk_kept ?_ rfl (by first | rfl | simp) (by first | rfl | simp) rfl (by first | exact id | exact fun _ => rfl))

theorem trayAccess_kept {s0 s : State} (h : Kept s0 s) (n : Nat) (op : Nat) (addr : Nat) (mask : Option (BitVec 128)) (data : List Byte) :
    Kept s0 (trayAccess s n op addr mask data) := by
  unfold trayAccess
  dsimp only
  split
  · rename_i he; exact (execFabricRequestSend_kept h _).at he
  · exact h

theorem sendRead_kept {s0 s : State} (h : Kept s0 s) (n : Nat) : Kept s0 (sendRead s n) := by
  unfold sendRead
  iterate 3
    repeat' (first
      | (with_reducible assumption) | (with_reducible apply ite_kept) | (with_reducible apply trayAccess_kept)
      | (with_reducible apply foldl_kept <;> intros) | (split) | (dsimp only))
    all_goals (try with_reducible refine mk_kept ?_ rfl (by first | rfl | simp) (by first | rfl | simp) rfl (by first | exact id | exact fun _ => rfl))

theorem sendLine_kept {s0 s : State} (h : Kept s0 s) (n : Nat) (k : Nat) : Kept s0 (sendLine s n k) := by
  unfold sendLine
  iterate 3
    repeat' (first
      | (with_reducible assumption) | (with_reducible apply ite_kept) | (with_reducible apply trayAccess_kept)
      | (with_reducible apply foldl_kept <;> intros) | (split) | (dsimp only))
    all_goals (try with_reducible refine mk_kept ?_ rfl (by first | rfl | simp) (by first | rfl | simp) rfl (by first | exact id | exact fun _ => rfl))

theorem reissue_kept {s0 s : State} (h : Kept s0 s) (a : HubAccess) : Kept s0 (reissue s a) := by
  unfold reissue
  iterate 3
    repeat' (first
      | (with_reducible assumption) | (with_reducible apply ite_kept) | (with_reducible apply sendRead_kept) | (with_reducible apply sendLine_kept)
      | (with_reducible apply foldl_kept <;> intros) | (split) | (dsimp only))
    all_goals (try with_reducible refine mk_kept ?_ rfl (by first | rfl | simp) (by first | rfl | simp) rfl (by first | exact id | exact fun _ => rfl))

theorem enableCtx_kept {s0 s : State} (h : Kept s0 s) (c : Nat) (v : Word) : Kept s0 (enableCtx s c v) := by
  unfold enableCtx
  iterate 3
    repeat' (first
      | (with_reducible assumption) | (with_reducible apply ite_kept) | (with_reducible apply setCtx_kept)
      | (with_reducible apply releaseSession_kept) | (with_reducible apply drawnSeed_kept) | (with_reducible apply reissue_kept)
      | (with_reducible apply foldl_kept <;> intros) | (split) | (dsimp only))
    all_goals (try with_reducible refine mk_kept ?_ rfl (by first | rfl | simp) (by first | rfl | simp) rfl (by first | exact id | exact fun _ => rfl))

theorem execContextEnable_kept {s0 s : State} (h : Kept s0 s) (p : PageRef) (v : Word) : KeptOut s0 (execContextEnable p v s) := by
  unfold execContextEnable
  iterate 3
    repeat' (first
      | (with_reducible assumption) | (with_reducible apply next_kept) | (with_reducible apply iteOut_kept) | (with_reducible apply ite_kept)
      | (with_reducible apply enableCtx_kept) | (with_reducible apply foldl_kept <;> intros) | (split) | (dsimp only))
    all_goals (try with_reducible refine mk_kept ?_ rfl (by first | rfl | simp) (by first | rfl | simp) rfl (by first | exact id | exact fun _ => rfl))

theorem execHostReadCompletion_kept {s0 s : State} (h : Kept s0 s) (c : BitVec 12) (w : HostRead) (bs : List Byte) :
    KeptOut s0 (execHostReadCompletion c w bs s) := by
  unfold execHostReadCompletion
  iterate 3
    repeat' (first
      | (with_reducible assumption) | (with_reducible apply next_kept) | (with_reducible apply iteOut_kept) | (with_reducible apply ite_kept)
      | (with_reducible apply failAccess_kept) | (with_reducible apply endReadWait_kept) | (with_reducible apply arrive_kept)
      | (with_reducible apply hostWrite_kept) | (with_reducible apply settle_kept) | (with_reducible apply setCtx_kept)
      | (with_reducible apply foldl_kept <;> intros) | (split) | (dsimp only))
    all_goals (try with_reducible refine mk_kept ?_ rfl (by first | rfl | simp) (by first | rfl | simp) rfl (by first | exact id | exact fun _ => rfl))

theorem clearFunctions_kept {s0 s : State} (h : Kept s0 s)  : Kept s0 (clearFunctions s) := by
  unfold clearFunctions
  repeat' (first
    | (with_reducible assumption) | (with_reducible apply ite_kept) | (with_reducible apply modCtx_kept) | (with_reducible apply releaseSession_kept)
    | (with_reducible apply setTdi_kept) | (with_reducible refine modMem_kept ?_ _ (fun hm => ?_)) | (exact hm) | (exact filter_wf _ hm)
    | (exact putBytes_wf hm) | (with_reducible apply foldl_kept <;> intros) | (split) | (dsimp only))
  all_goals (try with_reducible refine mk_kept ?_ rfl rfl rfl rfl (by first | exact id | exact fun _ => rfl))
  repeat' (first
    | (with_reducible assumption) | (with_reducible apply ite_kept) | (with_reducible apply modCtx_kept) | (with_reducible apply releaseSession_kept)
    | (with_reducible apply setTdi_kept) | (with_reducible refine modMem_kept ?_ _ (fun hm => ?_)) | (exact hm) | (exact filter_wf _ hm)
    | (exact putBytes_wf hm) | (with_reducible apply foldl_kept <;> intros) | (split) | (dsimp only))

theorem warmReset_kept {s0 s : State} (h : Kept s0 s) (bit : Nat) (perst : Bool) : Kept s0 (warmReset s bit perst) := by
  unfold warmReset
  split
  · split
    · exact clearFunctions_kept h
    · exact h
  · have h0 : Kept s0 { s with ctxs := s.ctxs.map fun e => (e.1, suspendCtx e.2) } := mk_kept h rfl rfl rfl rfl id
    have h1 : Kept s0 (resetDma (if perst then clearFunctions { s with ctxs := s.ctxs.map fun e => (e.1, suspendCtx e.2) }
        else { s with ctxs := s.ctxs.map fun e => (e.1, suspendCtx e.2) }) fun _ => true) :=
      resetDma_kept (ite_kept (clearFunctions_kept h0) h0) _
    refine modRst_kept (regSetBits_kept (regPut_kept (regSetBits_kept (regSetBits_kept (raiseBit_kept (regPut_kept (foldl_kept (fun t x ht => regPut_kept ht _ _) (installRemaps_kept ?_)) _ _) _ _) _ _ _ _) _ _ _ _) _ _) _ _ _ _) _
    exact kept_of h1 rfl rfl id (Nat.zero_le _) (Nat.le_refl _) (Nat.le_refl _) (fun _ => rfl)

theorem enterReady_kept {s0 s : State} (h : Kept s0 s) : Kept s0 (enterReady s) := by
  unfold enterReady
  iterate 3
    repeat' (first
      | (with_reducible assumption) | (with_reducible apply ite_kept) | (with_reducible apply regSetBits_kept) | (with_reducible apply setStage_kept)
      | (with_reducible apply modRst_kept) | (with_reducible apply warmReset_kept) | (with_reducible apply foldl_kept <;> intros) | (split)
      | (dsimp only))
    all_goals (try with_reducible refine mk_kept ?_ rfl (by first | rfl | simp) (by first | rfl | simp) rfl (by first | exact id | exact fun _ => rfl))

theorem finishBoot_kept {s0 s : State} (h : Kept s0 s) : Kept s0 (finishBoot s) := by
  unfold finishBoot
  iterate 3
    repeat' (first
      | (with_reducible assumption) | (with_reducible apply ite_kept) | (with_reducible apply enterReady_kept)
      | (with_reducible apply startClocks_kept) | (with_reducible apply openLog_kept) | (with_reducible apply regSetBits_kept)
      | (with_reducible apply reformDomains_kept) | (with_reducible apply formDomains_kept) | (with_reducible apply foldl_kept <;> intros) | (split)
      | (dsimp only))
    all_goals (try with_reducible refine mk_kept ?_ rfl (by first | rfl | simp) (by first | rfl | simp) rfl (by first | exact id | exact fun _ => rfl))

theorem bootAdvance_kept {s0 s : State} (h : Kept s0 s) : Kept s0 (bootAdvance s) := by
  unfold bootAdvance
  iterate 3
    repeat' (first
      | (with_reducible assumption) | (with_reducible apply ite_kept) | (with_reducible apply modRst_kept) | (with_reducible apply setStage_kept)
      | (with_reducible apply finishBoot_kept) | (with_reducible apply foldl_kept <;> intros) | (split) | (dsimp only))
    all_goals (try with_reducible refine mk_kept ?_ rfl (by first | rfl | simp) (by first | rfl | simp) rfl (by first | exact id | exact fun _ => rfl))

theorem execRingSweepDone_kept {s0 s : State} (h : Kept s0 s) (r : BitVec 18) (lock : Bool) : KeptOut s0 (execRingSweepDone r lock s) := by
  unfold execRingSweepDone
  iterate 3
    repeat' (first
      | (with_reducible assumption) | (with_reducible apply next_kept) | (with_reducible apply iteOut_kept) | (with_reducible apply ite_kept)
      | (with_reducible apply bootAdvance_kept) | (with_reducible apply setOptics_kept) | (with_reducible apply sweepDone_kept)
      | (with_reducible apply foldl_kept <;> intros) | (split) | (dsimp only))
    all_goals (try with_reducible refine mk_kept ?_ rfl (by first | rfl | simp) (by first | rfl | simp) rfl (by first | exact id | exact fun _ => rfl))

theorem launch_kept {s0 s : State} (h : Kept s0 s) (n : Nat) (a : FabArgs) : Kept s0 (launch n s a) := by
  induction n generalizing s with
  | zero => exact h
  | succ n ih =>
    unfold launch
    repeat' (first
      | (with_reducible assumption) | (with_reducible apply ih) | (with_reducible apply ite_kept) | (with_reducible apply issueOrPoison_kept)
      | (with_reducible apply modFab_kept) | (split) | (dsimp only))

theorem retireReq_kept {s0 s : State} (h : Kept s0 s) (r : FabReq) : Kept s0 (retireReq s r) := by
  unfold retireReq
  repeat' (first
    | (with_reducible assumption) | (with_reducible apply ite_kept) | (with_reducible apply modFab_kept) | (with_reducible apply launch_kept)
    | (with_reducible apply foldl_kept <;> intros) | (split) | (dsimp only))
  all_goals (try with_reducible refine mk_kept ?_ rfl rfl rfl rfl (by first | exact id | exact fun _ => rfl))
  repeat' (first
    | (with_reducible assumption) | (with_reducible apply ite_kept) | (with_reducible apply modFab_kept) | (with_reducible apply launch_kept)
    | (with_reducible apply foldl_kept <;> intros) | (split) | (dsimp only))

theorem deliverAll_kept {s0 s : State} (h : Kept s0 s) (r : FabReq) (st : Nat) (result : Nat) (line : List Byte) :
    Kept s0 (deliverAll s r st result line) := by
  unfold deliverAll
  iterate 3
    repeat' (first
      | (with_reducible assumption) | (with_reducible apply ite_kept) | (with_reducible apply modFab_kept) | (with_reducible apply handOver_kept)
      | (with_reducible apply foldl_kept <;> intros) | (split) | (dsimp only))
    all_goals (try with_reducible refine mk_kept ?_ rfl (by first | rfl | simp) (by first | rfl | simp) rfl (by first | exact id | exact fun _ => rfl))

theorem poisonReq_kept {s0 s : State} (h : Kept s0 s) (r : FabReq) : Kept s0 (poisonReq s r) := by
  unfold poisonReq
  iterate 3
    repeat' (first
      | (with_reducible assumption) | (with_reducible apply ite_kept) | (with_reducible apply modFab_kept) | (with_reducible apply deliverPoison_kept)
      | (with_reducible apply retireReq_kept) | (with_reducible apply foldl_kept <;> intros) | (split) | (dsimp only))
    all_goals (try with_reducible refine mk_kept ?_ rfl (by first | rfl | simp) (by first | rfl | simp) rfl (by first | exact id | exact fun _ => rfl))

theorem poisonWhere_kept {s0 s : State} (h : Kept s0 s) (p : FabReq → Bool) : Kept s0 (poisonWhere s p) := by
  unfold poisonWhere
  iterate 3
    repeat' (first
      | (with_reducible assumption) | (with_reducible apply ite_kept) | (with_reducible apply poisonReq_kept)
      | (with_reducible apply foldl_kept <;> intros) | (split) | (dsimp only))
    all_goals (try with_reducible refine mk_kept ?_ rfl (by first | rfl | simp) (by first | rfl | simp) rfl (by first | exact id | exact fun _ => rfl))

theorem execRequestPoisonTimeout_kept {s0 s : State} (h : Kept s0 s) (d : BitVec 3) (tag : BitVec 16) :
    KeptOut s0 (execRequestPoisonTimeout d tag s) := by
  unfold execRequestPoisonTimeout
  iterate 3
    repeat' (first
      | (with_reducible assumption) | (with_reducible apply next_kept) | (with_reducible apply iteOut_kept) | (with_reducible apply ite_kept)
      | (with_reducible apply poisonWhere_kept) | (with_reducible apply foldl_kept <;> intros) | (split) | (dsimp only))
    all_goals (try with_reducible refine mk_kept ?_ rfl (by first | rfl | simp) (by first | rfl | simp) rfl (by first | exact id | exact fun _ => rfl))

theorem poisonLate_kept {s0 s : State} (h : Kept s0 s) (src : Nat) (tag : Nat) : Kept s0 (poisonLate s src tag) := by
  unfold poisonLate
  iterate 3
    repeat' (first
      | (with_reducible assumption) | (with_reducible apply ite_kept) | (with_reducible apply poisonWhere_kept)
      | (with_reducible apply foldl_kept <;> intros) | (split) | (dsimp only))
    all_goals (try with_reducible refine mk_kept ?_ rfl (by first | rfl | simp) (by first | rfl | simp) rfl (by first | exact id | exact fun _ => rfl))

theorem completeFab_kept {s0 s : State} (h : Kept s0 s) (src : Nat) (tag : Nat) (st : Nat) (result : Nat) (line : List Byte) :
    Kept s0 (completeFab s src tag st result line).1 := by
  unfold completeFab
  iterate 3
    repeat' (first
      | (with_reducible assumption) | (with_reducible apply ite_kept) | (with_reducible apply poisonLate_kept) | (with_reducible apply retireReq_kept)
      | (with_reducible apply deliverAll_kept) | (with_reducible apply answerTo_kept) | (with_reducible apply modFab_kept)
      | (with_reducible apply bump_kept) | (with_reducible apply foldl_kept <;> intros) | (split) | (dsimp only))
    all_goals (try with_reducible refine mk_kept ?_ rfl (by first | rfl | simp) (by first | rfl | simp) rfl (by first | exact id | exact fun _ => rfl))

theorem takeDown_kept {s0 s : State} (h : Kept s0 s) (b : Nat) (j : Nat) : Kept s0 (takeDown s b j) := by
  unfold takeDown
  iterate 3
    repeat' (first
      | (with_reducible assumption) | (with_reducible apply ite_kept) | (with_reducible apply modLink_kept) | (with_reducible apply poisonWhere_kept)
      | (with_reducible apply modFab_kept) | (with_reducible apply handPacket_kept) | (with_reducible apply foldl_kept <;> intros) | (split)
      | (dsimp only))
    all_goals (try with_reducible refine mk_kept ?_ rfl (by first | rfl | simp) (by first | rfl | simp) rfl (by first | exact id | exact fun _ => rfl))

theorem dropLink_kept {s0 s : State} (h : Kept s0 s) (b : Nat) (j : Nat) (outcome : Nat) (injected : Bool) :
    Kept s0 (dropLink s b j outcome injected) := by
  unfold dropLink
  iterate 3
    repeat' (first
      | (with_reducible assumption) | (with_reducible apply ite_kept) | (with_reducible apply linkFault_kept) | (with_reducible apply takeDown_kept)
      | (with_reducible apply endMessage_kept) | (with_reducible apply foldl_kept <;> intros) | (split) | (dsimp only))
    all_goals (try with_reducible refine mk_kept ?_ rfl (by first | rfl | simp) (by first | rfl | simp) rfl (by first | exact id | exact fun _ => rfl))

theorem execLinkDown_kept {s0 s : State} (h : Kept s0 s) (b : BitVec 4) (j : BitVec 3) : KeptOut s0 (execLinkDown b j s) := by
  unfold execLinkDown
  iterate 3
    repeat' (first
      | (with_reducible assumption) | (with_reducible apply next_kept) | (with_reducible apply iteOut_kept) | (with_reducible apply ite_kept)
      | (with_reducible apply dropLink_kept) | (with_reducible apply foldl_kept <;> intros) | (split) | (dsimp only))
    all_goals (try with_reducible refine mk_kept ?_ rfl (by first | rfl | simp) (by first | rfl | simp) rfl (by first | exact id | exact fun _ => rfl))

theorem execFabLaneReplace_kept {s0 s : State} (h : Kept s0 s) (b : BitVec 4) (j : BitVec 3) (lane : BitVec 4) (errs : BitVec 24) (ring : Bool) :
    KeptOut s0 (execFabLaneReplace b j lane errs ring s) := by
  unfold execFabLaneReplace
  iterate 3
    repeat' (first
      | (with_reducible assumption) | (with_reducible apply next_kept) | (with_reducible apply iteOut_kept) | (with_reducible apply ite_kept)
      | (with_reducible apply replaceFabLane_kept) | (with_reducible apply dropLink_kept) | (with_reducible apply foldl_kept <;> intros) | (split)
      | (dsimp only))
    all_goals (try with_reducible refine mk_kept ?_ rfl (by first | rfl | simp) (by first | rfl | simp) rfl (by first | exact id | exact fun _ => rfl))

theorem execDmaLineCommit_kept {s0 s : State} (h : Kept s0 s) (n : BitVec 6) (k : Word) : KeptOut s0 (execDmaLineCommit n k s) := by
  unfold execDmaLineCommit
  iterate 3
    repeat' (first
      | (with_reducible assumption) | (with_reducible apply next_kept) | (with_reducible apply iteOut_kept) | (with_reducible apply ite_kept)
      | (with_reducible apply lineDone_kept) | (with_reducible apply memWrite_kept) | (with_reducible apply haltDma_kept)
      | (with_reducible apply refuseAccess_kept) | (with_reducible apply hostWrite_kept) | (with_reducible apply sendLine_kept)
      | (with_reducible apply foldl_kept <;> intros) | (split) | (dsimp only))
    all_goals (try with_reducible refine mk_kept ?_ rfl (by first | rfl | simp) (by first | rfl | simp) rfl (by first | exact id | exact fun _ => rfl))

theorem execRetryGapExpiry_kept {s0 s : State} (h : Kept s0 s) (a : HubAccess) : KeptOut s0 (execRetryGapExpiry a s) := by
  unfold execRetryGapExpiry
  iterate 3
    repeat' (first
      | (with_reducible assumption) | (with_reducible apply next_kept) | (with_reducible apply iteOut_kept) | (with_reducible apply ite_kept)
      | (with_reducible apply modDma_kept) | (with_reducible apply bump_kept) | (with_reducible apply reissue_kept)
      | (with_reducible apply foldl_kept <;> intros) | (split) | (dsimp only))
    all_goals (try with_reducible refine mk_kept ?_ rfl (by first | rfl | simp) (by first | rfl | simp) rfl (by first | exact id | exact fun _ => rfl))

theorem execChkComplete_kept {s0 s : State} (h : Kept s0 s) (e : BitVec 4) (bs : List Byte) : KeptOut s0 (execChkComplete e bs s) := by
  unfold execChkComplete
  iterate 3
    repeat' (first
      | (with_reducible assumption) | (with_reducible apply next_kept) | (with_reducible apply iteOut_kept) | (with_reducible apply ite_kept)
      | (with_reducible apply endEngine_kept) | (with_reducible apply failAccess_kept) | (with_reducible apply endReadWait_kept)
      | (with_reducible apply refuseScan_kept) | (with_reducible apply consume_kept) | (with_reducible apply modChk_kept)
      | (with_reducible apply foldl_kept <;> intros) | (split) | (dsimp only))
    all_goals (try with_reducible refine mk_kept ?_ rfl (by first | rfl | simp) (by first | rfl | simp) rfl (by first | exact id | exact fun _ => rfl))

theorem launchAll_kept {s0 s : State} (h : Kept s0 s) : Kept s0 (launchAll s) := by
  unfold launchAll
  iterate 3
    repeat' (first
      | (with_reducible assumption) | (with_reducible apply ite_kept) | (with_reducible apply launch_kept)
      | (with_reducible apply foldl_kept <;> intros) | (split) | (dsimp only))
    all_goals (try with_reducible refine mk_kept ?_ rfl (by first | rfl | simp) (by first | rfl | simp) rfl (by first | exact id | exact fun _ => rfl))

theorem poisonLost_kept {s0 s : State} (h : Kept s0 s) : Kept s0 (poisonLost s) := by
  unfold poisonLost
  iterate 3
    repeat' (first
      | (with_reducible assumption) | (with_reducible apply ite_kept) | (with_reducible apply modFab_kept) | (with_reducible apply poisonWhere_kept)
      | (with_reducible apply foldl_kept <;> intros) | (split) | (dsimp only))
    all_goals (try with_reducible refine mk_kept ?_ rfl (by first | rfl | simp) (by first | rfl | simp) rfl (by first | exact id | exact fun _ => rfl))

theorem startOddSteps_kept {s0 s : State} (h : Kept s0 s) : Kept s0 (startOddSteps s) := by
  unfold startOddSteps
  iterate 3
    repeat' (first
      | (with_reducible assumption) | (with_reducible apply ite_kept) | (with_reducible apply formBatch_kept)
      | (with_reducible apply foldl_kept <;> intros) | (split) | (dsimp only))
    all_goals (try with_reducible refine mk_kept ?_ rfl (by first | rfl | simp) (by first | rfl | simp) rfl (by first | exact id | exact fun _ => rfl))

theorem shareTimers_kept {s0 s : State} (h : Kept s0 s) : Kept s0 (shareTimers s) := by
  unfold shareTimers
  repeat' (first
    | (with_reducible assumption) | (with_reducible apply runOut_kept <;> intros) | (with_reducible apply runIf_kept <;> intros) | (with_reducible apply ite_kept)
    | (with_reducible apply execSliceEnd_kept)
    | (with_reducible apply startOddSteps_kept)
    | (with_reducible apply execStepOverrun_kept)
    | (split) | (dsimp only))

theorem completion_kept {s0 s : State} (h : Kept s0 s) (src tag st result : Nat) (line : List Byte) :
    Kept s0 (completion s src tag st result line) := by
  unfold completion
  have hk := completeFab_kept h src tag st result line
  split
  · rename_i he; rw [he] at hk
    split
    · exact commitAnswered_kept hk _ _
    · exact hk
  · rename_i he; rw [he] at hk; exact hk

theorem execDmaReadComplete_kept {s0 s : State} (h : Kept s0 s) (n : BitVec 6) (bs : List Byte) : KeptOut s0 (execDmaReadComplete n bs s) := by
  unfold execDmaReadComplete
  iterate 3
    repeat' (first
      | (with_reducible assumption) | (with_reducible apply next_kept) | (with_reducible apply iteOut_kept) | (with_reducible apply ite_kept)
      | (with_reducible apply failAccess_kept) | (with_reducible apply endReadWait_kept) | (with_reducible apply takeBytes_kept)
      | (with_reducible apply haltDma_kept) | (with_reducible apply refuseAccess_kept) | (with_reducible apply hostWrite_kept)
      | (with_reducible apply sendRead_kept) | (with_reducible apply foldl_kept <;> intros) | (split) | (dsimp only))
    all_goals (try with_reducible refine mk_kept ?_ rfl (by first | rfl | simp) (by first | rfl | simp) rfl (by first | exact id | exact fun _ => rfl))

theorem execAccessFailure_kept {s0 s : State} (h : Kept s0 s) (a : HubAccess) (uncorrectable : Bool) :
    KeptOut s0 (execAccessFailure a uncorrectable s) := by
  unfold execAccessFailure
  iterate 3
    repeat' (first
      | (with_reducible assumption) | (with_reducible apply next_kept) | (with_reducible apply iteOut_kept) | (with_reducible apply ite_kept)
      | (with_reducible apply haltDma_kept) | (with_reducible apply badWord_kept) | (with_reducible apply endEngine_kept)
      | (with_reducible apply failAccess_kept) | (with_reducible apply foldl_kept <;> intros) | (split) | (dsimp only))
    all_goals (try with_reducible refine mk_kept ?_ rfl (by first | rfl | simp) (by first | rfl | simp) rfl (by first | exact id | exact fun _ => rfl))

theorem execHostCompletionTimeout_kept {s0 s : State} (h : Kept s0 s) (a : HubAccess) : KeptOut s0 (execHostCompletionTimeout a s) := by
  unfold execHostCompletionTimeout
  repeat' (first
    | (with_reducible assumption) | (with_reducible apply next_kept) | (with_reducible apply iteOut_kept) | (with_reducible apply ite_kept)
    | (with_reducible apply failAccess_kept) | (with_reducible apply endReadWait_kept) | (with_reducible apply foldl_kept <;> intros) | (split)
    | (dsimp only))
  all_goals (try with_reducible refine mk_kept ?_ rfl rfl rfl rfl (by first | exact id | exact fun _ => rfl))
  repeat' (first
    | (with_reducible assumption) | (with_reducible apply next_kept) | (with_reducible apply iteOut_kept) | (with_reducible apply ite_kept)
    | (with_reducible apply failAccess_kept) | (with_reducible apply endReadWait_kept) | (with_reducible apply foldl_kept <;> intros) | (split)
    | (dsimp only))

theorem powerUp_kept {s0 s : State} (h : Kept s0 s) : Kept s0 (powerUp s) := by
  unfold powerUp
  iterate 3
    repeat' (first
      | (with_reducible assumption) | (with_reducible apply ite_kept) | (with_reducible apply setStage_kept) | (with_reducible apply rampDie_kept)
      | (with_reducible apply bootAdvance_kept) | (with_reducible apply modDie_kept) | (with_reducible apply foldl_kept <;> intros) | (split)
      | (dsimp only))
    all_goals (try with_reducible refine mk_kept ?_ rfl (by first | rfl | simp) (by first | rfl | simp) rfl (by first | exact id | exact fun _ => rfl))

theorem acceptImage_kept {s0 s : State} (h : Kept s0 s) (img : List Byte) : Kept s0 (acceptImage s img) := by
  unfold acceptImage
  iterate 3
    repeat' (first
      | (with_reducible assumption) | (with_reducible apply ite_kept) | (with_reducible apply powerUp_kept) | (with_reducible apply setStage_kept)
      | (with_reducible apply loadSettings_kept) | (with_reducible apply foldl_kept <;> intros) | (split) | (dsimp only))
    all_goals (try with_reducible refine mk_kept ?_ rfl (by first | rfl | simp) (by first | rfl | simp) rfl (by first | exact id | exact fun _ => rfl))

theorem judgeImage_kept {s0 s : State} (h : Kept s0 s) (slotLen : Nat) (img : List Byte) (factoryOk : Bool) :
    Kept s0 (judgeImage s slotLen img factoryOk) := by
  unfold judgeImage
  iterate 3
    repeat' (first
      | (with_reducible assumption) | (with_reducible apply ite_kept) | (with_reducible apply haltBoot_kept) | (with_reducible apply acceptImage_kept)
      | (with_reducible apply passOver_kept) | (with_reducible apply foldl_kept <;> intros) | (split) | (dsimp only))
    all_goals (try with_reducible refine mk_kept ?_ rfl (by first | rfl | simp) (by first | rfl | simp) rfl (by first | exact id | exact fun _ => rfl))

theorem execImageReadDone_kept {s0 s : State} (h : Kept s0 s) (readOk : Bool) (dirs : List (List Byte)) (img : List Byte) (factoryOk : Bool) :
    KeptOut s0 (execImageReadDone readOk dirs img factoryOk s) := by
  unfold execImageReadDone
  iterate 3
    repeat' (first
      | (with_reducible assumption) | (with_reducible apply next_kept) | (with_reducible apply iteOut_kept) | (with_reducible apply ite_kept)
      | (with_reducible apply passOver_kept) | (with_reducible apply judgeImage_kept) | (with_reducible apply foldl_kept <;> intros) | (split)
      | (dsimp only))
    all_goals (try with_reducible refine mk_kept ?_ rfl (by first | rfl | simp) (by first | rfl | simp) rfl (by first | exact id | exact fun _ => rfl))

theorem execRecoveryImageLoaded_kept {s0 s : State} (h : Kept s0 s) (readOk : Bool) (img : List Byte) (factoryOk : Bool) :
    KeptOut s0 (execRecoveryImageLoaded readOk img factoryOk s) := by
  unfold execRecoveryImageLoaded
  iterate 3
    repeat' (first
      | (with_reducible assumption) | (with_reducible apply next_kept) | (with_reducible apply iteOut_kept) | (with_reducible apply ite_kept)
      | (with_reducible apply modRst_kept) | (with_reducible apply regSetBits_kept) | (with_reducible apply judgeImage_kept)
      | (with_reducible apply foldl_kept <;> intros) | (split) | (dsimp only))
    all_goals (try with_reducible refine mk_kept ?_ rfl (by first | rfl | simp) (by first | rfl | simp) rfl (by first | exact id | exact fun _ => rfl))

theorem execPowerDomainRampDone_kept {s0 s : State} (h : Kept s0 s) (p : BitVec 6) : KeptOut s0 (execPowerDomainRampDone p s) := by
  unfold execPowerDomainRampDone
  iterate 3
    repeat' (first
      | (with_reducible assumption) | (with_reducible apply next_kept) | (with_reducible apply iteOut_kept) | (with_reducible apply ite_kept)
      | (with_reducible apply setPd_kept) | (with_reducible apply modPwr_kept) | (with_reducible apply modDie_kept)
      | (with_reducible apply startImages_kept) | (with_reducible apply lightField_kept) | (with_reducible apply bootAdvance_kept)
      | (with_reducible apply modBase_kept) | (with_reducible apply nextCalibration_kept) | (with_reducible apply modBank_kept)
      | (with_reducible apply foldl_kept <;> intros) | (split) | (dsimp only))
    all_goals (try with_reducible refine mk_kept ?_ rfl (by first | rfl | simp) (by first | rfl | simp) rfl (by first | exact id | exact fun _ => rfl))

theorem execDieLocalResetDone_kept {s0 s : State} (h : Kept s0 s) (i : BitVec 5) (pass : Bool) (found : DieTest) (bundles : List (BitVec 8 × BitVec 7)) :
    KeptOut s0 (execDieLocalResetDone i pass found bundles s) := by
  unfold execDieLocalResetDone
  iterate 3
    repeat' (first
      | (with_reducible assumption) | (with_reducible apply next_kept) | (with_reducible apply iteOut_kept) | (with_reducible apply ite_kept)
      | (with_reducible apply testBundles_kept) | (with_reducible apply freshDie_kept) | (with_reducible apply bootAdvance_kept)
      | (with_reducible apply failDie_kept) | (with_reducible apply testTiles_kept) | (with_reducible apply modPort_kept)
      | (with_reducible apply modDie_kept) | (with_reducible apply admitDie_kept) | (with_reducible apply foldl_kept <;> intros) | (split)
      | (dsimp only))
    all_goals (try with_reducible refine mk_kept ?_ rfl (by first | rfl | simp) (by first | rfl | simp) rfl (by first | exact id | exact fun _ => rfl))

theorem execDramTrainingDone_kept {s0 s : State} (h : Kept s0 s) (p : BitVec 2) (found : List (Bool × BitVec 2 × BitVec 3)) :
    KeptOut s0 (execDramTrainingDone p found s) := by
  unfold execDramTrainingDone
  iterate 3
    repeat' (first
      | (with_reducible assumption) | (with_reducible apply next_kept) | (with_reducible apply iteOut_kept) | (with_reducible apply ite_kept)
      | (with_reducible apply bootAdvance_kept) | (with_reducible apply trainDram_kept) | (with_reducible apply foldl_kept <;> intros) | (split)
      | (dsimp only))
    all_goals (try with_reducible refine mk_kept ?_ rfl (by first | rfl | simp) (by first | rfl | simp) rfl (by first | exact id | exact fun _ => rfl))

theorem execCalibrationFitDone_kept {s0 s : State} (h : Kept s0 s) (g : BitVec 3) (b : BitVec 4) (gain : BitVec 16) (offset : BitVec 16) (temp : BitVec 16) (map : List (List Nat)) (nominal : Nat) (mean16 : BitVec 16) (sd16 : BitVec 16) (jump : Bool) :
    KeptOut s0 (execCalibrationFitDone g b gain offset temp map nominal mean16 sd16 jump s) := by
  unfold execCalibrationFitDone
  iterate 3
    repeat' (first
      | (with_reducible assumption) | (with_reducible apply next_kept) | (with_reducible apply iteOut_kept) | (with_reducible apply ite_kept)
      | (with_reducible apply bootAdvance_kept) | (with_reducible apply fitCalibration_kept) | (with_reducible apply foldl_kept <;> intros) | (split)
      | (dsimp only))
    all_goals (try with_reducible refine mk_kept ?_ rfl (by first | rfl | simp) (by first | rfl | simp) rfl (by first | exact id | exact fun _ => rfl))

theorem execCalibrationInstall_kept {s0 s : State} (h : Kept s0 s) (g : BitVec 3) (b : BitVec 4) : KeptOut s0 (execCalibrationInstall g b s) := by
  unfold execCalibrationInstall
  iterate 3
    repeat' (first
      | (with_reducible assumption) | (with_reducible apply next_kept) | (with_reducible apply iteOut_kept) | (with_reducible apply ite_kept)
      | (with_reducible apply bootAdvance_kept) | (with_reducible apply installCalibration_kept) | (with_reducible apply foldl_kept <;> intros)
      | (split) | (dsimp only))
    all_goals (try with_reducible refine mk_kept ?_ rfl (by first | rfl | simp) (by first | rfl | simp) rfl (by first | exact id | exact fun _ => rfl))

theorem execWarmupDone_kept {s0 s : State} (h : Kept s0 s) : KeptOut s0 (execWarmupDone s) := by
  unfold execWarmupDone
  iterate 3
    repeat' (first
      | (with_reducible assumption) | (with_reducible apply next_kept) | (with_reducible apply iteOut_kept) | (with_reducible apply ite_kept)
      | (with_reducible apply modBase_kept) | (with_reducible apply modRst_kept) | (with_reducible apply setStage_kept)
      | (with_reducible apply bootAdvance_kept) | (with_reducible apply setOptics_kept) | (with_reducible apply foldl_kept <;> intros) | (split)
      | (dsimp only))
    all_goals (try with_reducible refine mk_kept ?_ rfl (by first | rfl | simp) (by first | rfl | simp) rfl (by first | exact id | exact fun _ => rfl))

theorem failCollectives_kept {s0 s : State} (h : Kept s0 s) (d : Nat) : Kept s0 (failCollectives s d) := by
  unfold failCollectives
  iterate 3
    repeat' (first
      | (with_reducible assumption) | (with_reducible apply ite_kept) | (with_reducible apply failAll_kept)
      | (with_reducible apply foldl_kept <;> intros) | (split) | (dsimp only))
    all_goals (try with_reducible refine mk_kept ?_ rfl (by first | rfl | simp) (by first | rfl | simp) rfl (by first | exact id | exact fun _ => rfl))

theorem peerLost_kept {s0 s : State} (h : Kept s0 s) (d : Nat) : Kept s0 (peerLost s d) := by
  unfold peerLost
  iterate 3
    repeat' (first
      | (with_reducible assumption) | (with_reducible apply ite_kept) | (with_reducible apply failCollectives_kept)
      | (with_reducible apply modFab_kept) | (with_reducible apply losePeerHomes_kept) | (with_reducible apply modPair_kept)
      | (with_reducible apply markStale_kept) | (with_reducible apply requestSet_kept) | (with_reducible apply foldl_kept <;> intros) | (split)
      | (dsimp only))
    all_goals (try with_reducible refine mk_kept ?_ rfl (by first | rfl | simp) (by first | rfl | simp) rfl (by first | exact id | exact fun _ => rfl))

theorem peerBack_kept {s0 s : State} (h : Kept s0 s) (d : Nat) : Kept s0 (peerBack s d) := by
  unfold peerBack
  iterate 3
    repeat' (first
      | (with_reducible assumption) | (with_reducible apply ite_kept) | (with_reducible apply modPair_kept) | (with_reducible apply startResync_kept)
      | (with_reducible apply sendLease_kept) | (with_reducible apply modSet_kept) | (with_reducible apply foldl_kept <;> intros) | (split)
      | (dsimp only))
    all_goals (try with_reducible refine mk_kept ?_ rfl (by first | rfl | simp) (by first | rfl | simp) rfl (by first | exact id | exact fun _ => rfl))

theorem updatePeer_kept {s0 s : State} (h : Kept s0 s) (d : Nat) : Kept s0 (updatePeer s d) := by
  unfold updatePeer
  iterate 3
    repeat' (first
      | (with_reducible assumption) | (with_reducible apply ite_kept) | (with_reducible apply modFab_kept) | (with_reducible apply fault_kept)
      | (with_reducible apply peerLost_kept) | (with_reducible apply peerBack_kept) | (with_reducible apply foldl_kept <;> intros) | (split)
      | (dsimp only))
    all_goals (try with_reducible refine mk_kept ?_ rfl (by first | rfl | simp) (by first | rfl | simp) rfl (by first | exact id | exact fun _ => rfl))

theorem updatePeers_kept {s0 s : State} (h : Kept s0 s) : Kept s0 (updatePeers s) := by
  unfold updatePeers
  iterate 3
    repeat' (first
      | (with_reducible assumption) | (with_reducible apply ite_kept) | (with_reducible apply updatePeer_kept)
      | (with_reducible apply foldl_kept <;> intros) | (split) | (dsimp only))
    all_goals (try with_reducible refine mk_kept ?_ rfl (by first | rfl | simp) (by first | rfl | simp) rfl (by first | exact id | exact fun _ => rfl))

theorem hearKeepalive_kept {s0 s : State} (h : Kept s0 s) (d : Nat) (heard : Nat) : Kept s0 (hearKeepalive s d heard) := by
  unfold hearKeepalive
  iterate 3
    repeat' (first
      | (with_reducible assumption) | (with_reducible apply ite_kept) | (with_reducible apply updatePeers_kept) | (with_reducible apply modFab_kept)
      | (with_reducible apply foldl_kept <;> intros) | (split) | (dsimp only))
    all_goals (try with_reducible refine mk_kept ?_ rfl (by first | rfl | simp) (by first | rfl | simp) rfl (by first | exact id | exact fun _ => rfl))

theorem execKeepalive_kept {s0 s : State} (h : Kept s0 s) (d : BitVec 3) (heard : BitVec 8) : KeptOut s0 (execKeepalive d heard s) := by
  unfold execKeepalive
  iterate 3
    repeat' (first
      | (with_reducible assumption) | (with_reducible apply next_kept) | (with_reducible apply iteOut_kept) | (with_reducible apply ite_kept)
      | (with_reducible apply hearKeepalive_kept) | (with_reducible apply foldl_kept <;> intros) | (split) | (dsimp only))
    all_goals (try with_reducible refine mk_kept ?_ rfl (by first | rfl | simp) (by first | rfl | simp) rfl (by first | exact id | exact fun _ => rfl))

theorem execKeepaliveSend_kept {s0 s : State} (h : Kept s0 s) : KeptOut s0 (execKeepaliveSend s) := by
  unfold execKeepaliveSend
  iterate 3
    repeat' (first
      | (with_reducible assumption) | (with_reducible apply next_kept) | (with_reducible apply iteOut_kept) | (with_reducible apply ite_kept)
      | (with_reducible apply send_kept) | (with_reducible apply updatePeers_kept) | (with_reducible apply foldl_kept <;> intros) | (split)
      | (dsimp only))
    all_goals (try with_reducible refine mk_kept ?_ rfl (by first | rfl | simp) (by first | rfl | simp) rfl (by first | exact id | exact fun _ => rfl))

theorem execPeerKeepaliveTimeout_kept {s0 s : State} (h : Kept s0 s) (d : BitVec 3) : KeptOut s0 (execPeerKeepaliveTimeout d s) := by
  unfold execPeerKeepaliveTimeout
  iterate 3
    repeat' (first
      | (with_reducible assumption) | (with_reducible apply next_kept) | (with_reducible apply iteOut_kept) | (with_reducible apply ite_kept)
      | (with_reducible apply updatePeers_kept) | (with_reducible apply foldl_kept <;> intros) | (split) | (dsimp only))
    all_goals (try with_reducible refine mk_kept ?_ rfl (by first | rfl | simp) (by first | rfl | simp) rfl (by first | exact id | exact fun _ => rfl))

theorem execCompletion_kept {s0 s : State} (h : Kept s0 s) (src : BitVec 3) (tag : BitVec 16) (status : BitVec 8) (result : BitVec 64) :
    KeptOut s0 (execCompletion src tag status result s) := by
  unfold execCompletion
  iterate 3
    repeat' (first
      | (with_reducible assumption) | (with_reducible apply next_kept) | (with_reducible apply iteOut_kept) | (with_reducible apply ite_kept)
      | (with_reducible apply completion_kept) | (with_reducible apply foldl_kept <;> intros) | (split) | (dsimp only))
    all_goals (try with_reducible refine mk_kept ?_ rfl (by first | rfl | simp) (by first | rfl | simp) rfl (by first | exact id | exact fun _ => rfl))

theorem execCompletionData_kept {s0 s : State} (h : Kept s0 s) (src : BitVec 3) (tag : BitVec 16) (status : BitVec 8) (line : List Byte) :
    KeptOut s0 (execCompletionData src tag status line s) := by
  unfold execCompletionData
  iterate 3
    repeat' (first
      | (with_reducible assumption) | (with_reducible apply next_kept) | (with_reducible apply iteOut_kept) | (with_reducible apply ite_kept)
      | (with_reducible apply completion_kept) | (with_reducible apply foldl_kept <;> intros) | (split) | (dsimp only))
    all_goals (try with_reducible refine mk_kept ?_ rfl (by first | rfl | simp) (by first | rfl | simp) rfl (by first | exact id | exact fun _ => rfl))

theorem receivePacket_kept {s0 s : State} (h : Kept s0 s) (bn : Nat) (p : List Byte) : Kept s0 (receivePacket bn s p) := by
  unfold receivePacket
  iterate 3
    repeat' (first
      | (with_reducible assumption) | (with_reducible apply ite_kept) | (with_reducible apply completion_kept)
      | (with_reducible apply hearKeepalive_kept) | (with_reducible apply receiveReq_kept) | (with_reducible apply foldl_kept <;> intros) | (split)
      | (dsimp only))
    all_goals (try with_reducible refine mk_kept ?_ rfl (by first | rfl | simp) (by first | rfl | simp) rfl (by first | exact id | exact fun _ => rfl))

theorem execCodewordReceive_kept {s0 s : State} (h : Kept s0 s) (b : BitVec 4) (j : BitVec 3) (fec : BitVec 2) (word : BitVec 20) (slots : List Byte) :
    KeptOut s0 (execCodewordReceive b j fec word slots s) := by
  unfold execCodewordReceive
  iterate 3
    repeat' (first
      | (with_reducible assumption) | (with_reducible apply next_kept) | (with_reducible apply iteOut_kept) | (with_reducible apply ite_kept)
      | (with_reducible apply send_kept) | (with_reducible apply modLink_kept) | (with_reducible apply takeTrailer_kept)
      | (with_reducible apply receivePacket_kept) | (with_reducible apply foldl_kept <;> intros) | (split) | (dsimp only))
    all_goals (try with_reducible refine mk_kept ?_ rfl (by first | rfl | simp) (by first | rfl | simp) rfl (by first | exact id | exact fun _ => rfl))

theorem modTime_kept {s0 s : State} (h : Kept s0 s) (f : TrayTime → TrayTime) : Kept s0 (modTime s f) := by
  unfold modTime
  iterate 3
    repeat' (first
      | (with_reducible assumption) | (with_reducible apply ite_kept) | (with_reducible apply modFab_kept)
      | (with_reducible apply foldl_kept <;> intros) | (split) | (dsimp only))
    all_goals (try with_reducible refine mk_kept ?_ rfl (by first | rfl | simp) (by first | rfl | simp) rfl (by first | exact id | exact fun _ => rfl))

theorem execTimeReq_kept {s0 s : State} (h : Kept s0 s) (src : BitVec 3) : KeptOut s0 (execTimeReq src s) := by
  unfold execTimeReq
  iterate 3
    repeat' (first
      | (with_reducible assumption) | (with_reducible apply next_kept) | (with_reducible apply iteOut_kept) | (with_reducible apply ite_kept)
      | (with_reducible apply send_kept) | (with_reducible apply foldl_kept <;> intros) | (split) | (dsimp only))
    all_goals (try with_reducible refine mk_kept ?_ rfl (by first | rfl | simp) (by first | rfl | simp) rfl (by first | exact id | exact fun _ => rfl))

theorem execTimeExchangeTimer_kept {s0 s : State} (h : Kept s0 s) : KeptOut s0 (execTimeExchangeTimer s) := by
  unfold execTimeExchangeTimer
  iterate 3
    repeat' (first
      | (with_reducible assumption) | (with_reducible apply next_kept) | (with_reducible apply iteOut_kept) | (with_reducible apply ite_kept)
      | (with_reducible apply send_kept) | (with_reducible apply modTime_kept) | (with_reducible apply foldl_kept <;> intros) | (split) | (dsimp only))
    all_goals (try with_reducible refine mk_kept ?_ rfl (by first | rfl | simp) (by first | rfl | simp) rfl (by first | exact id | exact fun _ => rfl))

theorem execTimeResponse_kept {s0 s : State} (h : Kept s0 s) (src : BitVec 3) (t2 : BitVec 64) (t3 : BitVec 64) :
    KeptOut s0 (execTimeResponse src t2 t3 s) := by
  unfold execTimeResponse
  iterate 3
    repeat' (first
      | (with_reducible assumption) | (with_reducible apply next_kept) | (with_reducible apply iteOut_kept) | (with_reducible apply ite_kept)
      | (with_reducible apply modTime_kept) | (with_reducible apply fault_kept) | (with_reducible apply foldl_kept <;> intros) | (split)
      | (dsimp only))
    all_goals (try with_reducible refine mk_kept ?_ rfl (by first | rfl | simp) (by first | rfl | simp) rfl (by first | exact id | exact fun _ => rfl))

theorem execGtSlew_kept {s0 s : State} (h : Kept s0 s) : KeptOut s0 (execGtSlew s) := by
  unfold execGtSlew
  iterate 3
    repeat' (first
      | (with_reducible assumption) | (with_reducible apply next_kept) | (with_reducible apply iteOut_kept) | (with_reducible apply ite_kept)
      | (with_reducible apply modTime_kept) | (with_reducible apply bump_kept) | (with_reducible apply foldl_kept <;> intros) | (split) | (dsimp only))
    all_goals (try with_reducible refine mk_kept ?_ rfl (by first | rfl | simp) (by first | rfl | simp) rfl (by first | exact id | exact fun _ => rfl))

theorem sampleStraps_kept {s0 s : State} (h : Kept s0 s) (straps : Nat) : Kept s0 (sampleStraps s straps) := by
  unfold sampleStraps
  iterate 3
    repeat' (first
      | (with_reducible assumption) | (with_reducible apply ite_kept) | (with_reducible apply modRst_kept) | (with_reducible apply regSetBits_kept)
      | (with_reducible apply regPut_kept) | (with_reducible apply foldl_kept <;> intros) | (split) | (dsimp only))
    all_goals (try with_reducible refine mk_kept ?_ rfl (by first | rfl | simp) (by first | rfl | simp) rfl (by first | exact id | exact fun _ => rfl))

theorem coldReset_kept {s0 s : State} (h : Kept s0 s) (bit straps : Nat) : Kept s0 (coldReset s bit straps) := by
  unfold coldReset
  dsimp only
  apply sampleStraps_kept
  exact kept_of h rfl rfl (fun _ => rfl) (Nat.zero_le _) (Nat.zero_le _) (Nat.le_refl _) (fun _ => rfl)

theorem startBoot_kept {s0 s : State} (h : Kept s0 s) : Kept s0 (startBoot s) := by
  unfold startBoot
  iterate 3
    repeat' (first
      | (with_reducible assumption) | (with_reducible apply ite_kept) | (with_reducible apply powerOn_kept) | (with_reducible apply modDie_kept)
      | (with_reducible apply modRst_kept) | (with_reducible apply foldl_kept <;> intros) | (split) | (dsimp only))
    all_goals (try with_reducible refine mk_kept ?_ rfl (by first | rfl | simp) (by first | rfl | simp) rfl (by first | exact id | exact fun _ => rfl))

theorem bootOrWait_kept {s0 s : State} (h : Kept s0 s) : Kept s0 (bootOrWait s) := by
  unfold bootOrWait
  iterate 3
    repeat' (first
      | (with_reducible assumption) | (with_reducible apply ite_kept) | (with_reducible apply startBoot_kept)
      | (with_reducible apply foldl_kept <;> intros) | (split) | (dsimp only))
    all_goals (try with_reducible refine mk_kept ?_ rfl (by first | rfl | simp) (by first | rfl | simp) rfl (by first | exact id | exact fun _ => rfl))

theorem execColdRst_kept {s0 s : State} (h : Kept s0 s) (straps : BitVec 7) (rails : Bool) : KeptOut s0 (execColdRst straps rails s) := by
  unfold execColdRst
  iterate 3
    repeat' (first
      | (with_reducible assumption) | (with_reducible apply next_kept) | (with_reducible apply iteOut_kept) | (with_reducible apply ite_kept)
      | (with_reducible apply coldReset_kept) | (with_reducible apply haltBoot_kept) | (with_reducible apply bootOrWait_kept)
      | (with_reducible apply foldl_kept <;> intros) | (split) | (dsimp only))
    all_goals (try with_reducible refine mk_kept ?_ rfl (by first | rfl | simp) (by first | rfl | simp) rfl (by first | exact id | exact fun _ => rfl))

theorem execStandbyPowerOn_kept {s0 s : State} (h : Kept s0 s) (straps : BitVec 7) (held : Bool) : KeptOut s0 (execStandbyPowerOn straps held s) := by
  unfold execStandbyPowerOn
  have hr : Kept s0 { s with flt := { s.flt with retained := [] }, i3c := {} } :=
    kept_of h rfl rfl id (Nat.le_refl _) (Nat.le_refl _) (Nat.zero_le _) id
  have hc := coldReset_kept hr 0 straps.toNat
  refine next_kept ?_
  split
  · exact mk_kept hc rfl rfl rfl rfl id
  · exact bootOrWait_kept hc

theorem powerLost_kept {s0 s : State} (h : Kept s0 s) : Kept s0 (powerLost s) := by
  unfold powerLost
  iterate 3
    repeat' (first
      | (with_reducible assumption) | (with_reducible apply ite_kept) | (with_reducible apply coldReset_kept)
      | (with_reducible apply foldl_kept <;> intros) | (split) | (dsimp only))
    all_goals (try with_reducible refine mk_kept ?_ rfl (by first | rfl | simp) (by first | rfl | simp) rfl (by first | exact id | exact fun _ => rfl))

theorem execMainPowerLoss_kept {s0 s : State} (h : Kept s0 s) : KeptOut s0 (execMainPowerLoss s) := by
  unfold execMainPowerLoss
  iterate 3
    repeat' (first
      | (with_reducible assumption) | (with_reducible apply next_kept) | (with_reducible apply iteOut_kept) | (with_reducible apply ite_kept)
      | (with_reducible apply powerLost_kept) | (with_reducible apply foldl_kept <;> intros) | (split) | (dsimp only))
    all_goals (try with_reducible refine mk_kept ?_ rfl (by first | rfl | simp) (by first | rfl | simp) rfl (by first | exact id | exact fun _ => rfl))

theorem execBootWatchdogExpiry_kept {s0 s : State} (h : Kept s0 s) : KeptOut s0 (execBootWatchdogExpiry s) := by
  unfold execBootWatchdogExpiry
  iterate 3
    repeat' (first
      | (with_reducible assumption) | (with_reducible apply next_kept) | (with_reducible apply iteOut_kept) | (with_reducible apply ite_kept)
      | (with_reducible apply islandFault_kept) | (with_reducible apply regSetBits_kept) | (with_reducible apply coldReset_kept)
      | (with_reducible apply startBoot_kept) | (with_reducible apply modRst_kept) | (with_reducible apply foldl_kept <;> intros) | (split)
      | (dsimp only))
    all_goals (try with_reducible refine mk_kept ?_ rfl (by first | rfl | simp) (by first | rfl | simp) rfl (by first | exact id | exact fun _ => rfl))

theorem execPerst_kept {s0 s : State} (h : Kept s0 s) : KeptOut s0 (execPerst s) := by
  unfold execPerst
  iterate 3
    repeat' (first
      | (with_reducible assumption) | (with_reducible apply next_kept) | (with_reducible apply iteOut_kept) | (with_reducible apply ite_kept)
      | (with_reducible apply warmReset_kept) | (with_reducible apply foldl_kept <;> intros) | (split) | (dsimp only))
    all_goals (try with_reducible refine mk_kept ?_ rfl (by first | rfl | simp) (by first | rfl | simp) rfl (by first | exact id | exact fun _ => rfl))

theorem askWarm_kept {s0 s : State} (h : Kept s0 s) : Kept s0 (askWarm s) := by
  unfold askWarm
  iterate 3
    repeat' (first
      | (with_reducible assumption) | (with_reducible apply ite_kept) | (with_reducible apply warmReset_kept)
      | (with_reducible apply foldl_kept <;> intros) | (split) | (dsimp only))
    all_goals (try with_reducible refine mk_kept ?_ rfl (by first | rfl | simp) (by first | rfl | simp) rfl (by first | exact id | exact fun _ => rfl))

theorem execWarm_kept {s0 s : State} (h : Kept s0 s) : KeptOut s0 (execWarm s) := by
  unfold execWarm
  iterate 3
    repeat' (first
      | (with_reducible assumption) | (with_reducible apply next_kept) | (with_reducible apply iteOut_kept) | (with_reducible apply ite_kept)
      | (with_reducible apply askWarm_kept) | (with_reducible apply foldl_kept <;> intros) | (split) | (dsimp only))
    all_goals (try with_reducible refine mk_kept ?_ rfl (by first | rfl | simp) (by first | rfl | simp) rfl (by first | exact id | exact fun _ => rfl))

theorem execResetRelease_kept {s0 s : State} (h : Kept s0 s)  : KeptOut s0 (execResetRelease s) := by
  unfold execResetRelease
  repeat' (first
    | (with_reducible assumption) | (with_reducible apply next_kept) | (with_reducible apply iteOut_kept) | (with_reducible apply ite_kept)
    | (with_reducible refine modMem_kept ?_ _ (fun hm => ?_)) | (with_reducible apply startImages_kept) | (with_reducible apply modDie_kept)
    | (exact hm) | (exact filter_wf _ hm) | (exact putBytes_wf hm) | (with_reducible apply foldl_kept <;> intros) | (split) | (dsimp only))
  all_goals (try with_reducible refine mk_kept ?_ rfl rfl rfl rfl (by first | exact id | exact fun _ => rfl))
  repeat' (first
    | (with_reducible assumption) | (with_reducible apply next_kept) | (with_reducible apply iteOut_kept) | (with_reducible apply ite_kept)
    | (with_reducible refine modMem_kept ?_ _ (fun hm => ?_)) | (with_reducible apply startImages_kept) | (with_reducible apply modDie_kept)
    | (exact hm) | (exact filter_wf _ hm) | (exact putBytes_wf hm) | (with_reducible apply foldl_kept <;> intros) | (split) | (dsimp only))

theorem execSuspendExpiry_kept {s0 s : State} (h : Kept s0 s) (c : BitVec 12) : KeptOut s0 (execSuspendExpiry c s) := by
  unfold execSuspendExpiry
  iterate 3
    repeat' (first
      | (with_reducible assumption) | (with_reducible apply next_kept) | (with_reducible apply iteOut_kept) | (with_reducible apply ite_kept)
      | (with_reducible apply modCtx_kept) | (with_reducible apply releaseSession_kept) | (with_reducible apply foldl_kept <;> intros) | (split)
      | (dsimp only))
    all_goals (try with_reducible refine mk_kept ?_ rfl (by first | rfl | simp) (by first | rfl | simp) rfl (by first | exact id | exact fun _ => rfl))

theorem execVfFunctionLevelReset_kept {s0 s : State} (h : Kept s0 s) (v : BitVec 6) : KeptOut s0 (execVfFunctionLevelReset v s) := by
  unfold execVfFunctionLevelReset
  iterate 3
    repeat' (first
      | (with_reducible assumption) | (with_reducible apply next_kept) | (with_reducible apply iteOut_kept) | (with_reducible apply ite_kept)
      | (with_reducible apply leaveTdi_kept) | (with_reducible apply resetDma_kept) | (with_reducible apply foldl_kept <;> intros) | (split)
      | (dsimp only))
    all_goals (try with_reducible refine mk_kept ?_ rfl (by first | rfl | simp) (by first | rfl | simp) rfl (by first | exact id | exact fun _ => rfl))

theorem execWatchdogExpiry_kept {s0 s : State} (h : Kept s0 s) : KeptOut s0 (execWatchdogExpiry s) := by
  unfold execWatchdogExpiry
  iterate 3
    repeat' (first
      | (with_reducible assumption) | (with_reducible apply next_kept) | (with_reducible apply iteOut_kept) | (with_reducible apply ite_kept)
      | (with_reducible apply warmReset_kept) | (with_reducible apply fault_kept) | (with_reducible apply regSetBits_kept)
      | (with_reducible apply send_kept) | (with_reducible apply modRst_kept) | (with_reducible apply foldl_kept <;> intros) | (split) | (dsimp only))
    all_goals (try with_reducible refine mk_kept ?_ rfl (by first | rfl | simp) (by first | rfl | simp) rfl (by first | exact id | exact fun _ => rfl))

theorem tripReset_kept {s0 s : State} (h : Kept s0 s) (p : Nat) : Kept s0 (tripReset s p) := by
  unfold tripReset
  have hi := islandFault_kept h { cls := 0x14, unit := unitId 1 ((dieOfPd p).getD 20), outcome := 4 }
  have hc := coldReset_kept hi 0 (strapsOf (islandFault s { cls := 0x14, unit := unitId 1 ((dieOfPd p).getD 20), outcome := 4 }))
  refine regPut_kept (noteSet_kept (regPut_kept ?_ _ _) _ _) _ _
  refine ⟨hc.1, fun hv => ?_⟩
  have ha := (hi.2 hv).1.2
  obtain ⟨h1, h2⟩ := hc.2 hv
  exact ⟨⟨h1.1, filter_wf _ (filter_wf _ ha)⟩, h2⟩

theorem execTripCoolExpiry_kept {s0 s : State} (h : Kept s0 s) : KeptOut s0 (execTripCoolExpiry s) := by
  unfold execTripCoolExpiry
  iterate 3
    repeat' (first
      | (with_reducible assumption) | (with_reducible apply next_kept) | (with_reducible apply iteOut_kept) | (with_reducible apply ite_kept)
      | (with_reducible apply modRst_kept) | (with_reducible apply startBoot_kept) | (with_reducible apply foldl_kept <;> intros) | (split)
      | (dsimp only))
    all_goals (try with_reducible refine mk_kept ?_ rfl (by first | rfl | simp) (by first | rfl | simp) rfl (by first | exact id | exact fun _ => rfl))

theorem resetDie_kept {s0 s : State} (h : Kept s0 s) (i : Nat) (cls : Nat) (cause : Nat) (srOk : Bool) (injected : Bool) :
    Kept s0 (resetDie s i cls cause srOk injected) := by
  unfold resetDie
  iterate 3
    repeat' (first
      | (with_reducible assumption) | (with_reducible apply ite_kept) | (with_reducible apply beginDieReset_kept)
      | (with_reducible apply resetDma_kept) | (with_reducible apply foldl_kept <;> intros) | (split) | (dsimp only))
    all_goals (try with_reducible refine mk_kept ?_ rfl (by first | rfl | simp) (by first | rfl | simp) rfl (by first | exact id | exact fun _ => rfl))

theorem execDieLocalReset_kept {s0 s : State} (h : Kept s0 s) (i : BitVec 5) (srOk : Bool) : KeptOut s0 (execDieLocalReset i srOk s) := by
  unfold execDieLocalReset
  iterate 3
    repeat' (first
      | (with_reducible assumption) | (with_reducible apply next_kept) | (with_reducible apply iteOut_kept) | (with_reducible apply ite_kept)
      | (with_reducible apply resetDie_kept) | (with_reducible apply foldl_kept <;> intros) | (split) | (dsimp only))
    all_goals (try with_reducible refine mk_kept ?_ rfl (by first | rfl | simp) (by first | rfl | simp) rfl (by first | exact id | exact fun _ => rfl))

theorem execFatalError_kept {s0 s : State} (h : Kept s0 s) (kind : BitVec 3) (i : BitVec 5) (addr : Word) :
    KeptOut s0 (execFatalError kind i addr s) := by
  unfold execFatalError
  iterate 3
    repeat' (first
      | (with_reducible assumption) | (with_reducible apply next_kept) | (with_reducible apply iteOut_kept) | (with_reducible apply ite_kept)
      | (with_reducible apply islandFault_kept) | (with_reducible apply startBoot_kept) | (with_reducible apply coldReset_kept)
      | (with_reducible apply warmReset_kept) | (with_reducible apply resetDie_kept) | (with_reducible apply foldl_kept <;> intros) | (split)
      | (dsimp only))
    all_goals (try with_reducible refine mk_kept ?_ rfl (by first | rfl | simp) (by first | rfl | simp) rfl (by first | exact id | exact fun _ => rfl))

theorem execDiePllUnlock_kept {s0 s : State} (h : Kept s0 s) (i : BitVec 6) (srOk : Bool) : KeptOut s0 (execDiePllUnlock i srOk s) := by
  unfold execDiePllUnlock
  iterate 3
    repeat' (first
      | (with_reducible assumption) | (with_reducible apply next_kept) | (with_reducible apply iteOut_kept) | (with_reducible apply ite_kept)
      | (with_reducible apply failPath_kept) | (with_reducible apply warmReset_kept) | (with_reducible apply fault_kept)
      | (with_reducible apply resetDie_kept) | (with_reducible apply foldl_kept <;> intros) | (split) | (dsimp only))
    all_goals (try with_reducible refine mk_kept ?_ rfl (by first | rfl | simp) (by first | rfl | simp) rfl (by first | exact id | exact fun _ => rfl))

theorem assertHold_kept {s0 s : State} (h : Kept s0 s) (h : Nat) : Kept s0 (assertHold s h) := by
  unfold assertHold
  iterate 3
    repeat' (first
      | (with_reducible assumption) | (with_reducible apply ite_kept) | (with_reducible apply bump_kept) | (with_reducible apply modPwr_kept)
      | (with_reducible apply foldl_kept <;> intros) | (split) | (dsimp only))
    all_goals (try with_reducible refine mk_kept ?_ rfl (by first | rfl | simp) (by first | rfl | simp) rfl (by first | exact id | exact fun _ => rfl))

theorem takeSample_kept {s0 s : State} (h : Kept s0 s) (power : BitVec 16) (vin : BitVec 16) (iin : BitVec 16) (est : List (BitVec 8 × BitVec 16)) :
    Kept s0 (takeSample s power vin iin est) := by
  unfold takeSample
  iterate 3
    repeat' (first
      | (with_reducible assumption) | (with_reducible apply ite_kept) | (with_reducible apply modPwr_kept)
      | (with_reducible apply foldl_kept <;> intros) | (split) | (dsimp only))
    all_goals (try with_reducible refine mk_kept ?_ rfl (by first | rfl | simp) (by first | rfl | simp) rfl (by first | exact id | exact fun _ => rfl))

theorem countHold_kept {s0 s : State} (h : Kept s0 s) : Kept s0 (countHold s) := by
  unfold countHold
  iterate 3
    repeat' (first
      | (with_reducible assumption) | (with_reducible apply ite_kept) | (with_reducible apply bump64_kept)
      | (with_reducible apply foldl_kept <;> intros) | (split) | (dsimp only))
    all_goals (try with_reducible refine mk_kept ?_ rfl (by first | rfl | simp) (by first | rfl | simp) rfl (by first | exact id | exact fun _ => rfl))

theorem judgeHold_kept {s0 s : State} (h : Kept s0 s) : Kept s0 (judgeHold s) := by
  unfold judgeHold
  iterate 3
    repeat' (first
      | (with_reducible assumption) | (with_reducible apply ite_kept) | (with_reducible apply assertHold_kept) | (with_reducible apply modPwr_kept)
      | (with_reducible apply foldl_kept <;> intros) | (split) | (dsimp only))
    all_goals (try with_reducible refine mk_kept ?_ rfl (by first | rfl | simp) (by first | rfl | simp) rfl (by first | exact id | exact fun _ => rfl))

theorem execPowerSample_kept {s0 s : State} (h : Kept s0 s) (power : BitVec 16) (vin : BitVec 16) (iin : BitVec 16) (est : List (BitVec 8 × BitVec 16)) :
    KeptOut s0 (execPowerSample power vin iin est s) := by
  unfold execPowerSample
  iterate 3
    repeat' (first
      | (with_reducible assumption) | (with_reducible apply next_kept) | (with_reducible apply iteOut_kept) | (with_reducible apply ite_kept)
      | (with_reducible apply judgeHold_kept) | (with_reducible apply countHold_kept) | (with_reducible apply takeSample_kept)
      | (with_reducible apply foldl_kept <;> intros) | (split) | (dsimp only))
    all_goals (try with_reducible refine mk_kept ?_ rfl (by first | rfl | simp) (by first | rfl | simp) rfl (by first | exact id | exact fun _ => rfl))

theorem execHalfHoldTimeout_kept {s0 s : State} (h : Kept s0 s) : KeptOut s0 (execHalfHoldTimeout s) := by
  unfold execHalfHoldTimeout
  iterate 3
    repeat' (first
      | (with_reducible assumption) | (with_reducible apply next_kept) | (with_reducible apply iteOut_kept) | (with_reducible apply ite_kept)
      | (with_reducible apply modPwr_kept) | (with_reducible apply foldl_kept <;> intros) | (split) | (dsimp only))
    all_goals (try with_reducible refine mk_kept ?_ rfl (by first | rfl | simp) (by first | rfl | simp) rfl (by first | exact id | exact fun _ => rfl))

theorem execOvercurrent_kept {s0 s : State} (h : Kept s0 s) : KeptOut s0 (execOvercurrent s) := by
  unfold execOvercurrent
  iterate 3
    repeat' (first
      | (with_reducible assumption) | (with_reducible apply next_kept) | (with_reducible apply iteOut_kept) | (with_reducible apply ite_kept)
      | (with_reducible apply fault_kept) | (with_reducible apply raiseBit_kept) | (with_reducible apply assertHold_kept)
      | (with_reducible apply foldl_kept <;> intros) | (split) | (dsimp only))
    all_goals (try with_reducible refine mk_kept ?_ rfl (by first | rfl | simp) (by first | rfl | simp) rfl (by first | exact id | exact fun _ => rfl))

theorem execVinExcursion_kept {s0 s : State} (h : Kept s0 s) : KeptOut s0 (execVinExcursion s) := by
  unfold execVinExcursion
  iterate 3
    repeat' (first
      | (with_reducible assumption) | (with_reducible apply next_kept) | (with_reducible apply iteOut_kept) | (with_reducible apply ite_kept)
      | (with_reducible apply powerLost_kept) | (with_reducible apply islandFault_kept) | (with_reducible apply foldl_kept <;> intros) | (split)
      | (dsimp only))
    all_goals (try with_reducible refine mk_kept ?_ rfl (by first | rfl | simp) (by first | rfl | simp) rfl (by first | exact id | exact fun _ => rfl))

theorem requestStage_kept {s0 s : State} (h : Kept s0 s) (n : Nat) : Kept s0 (requestStage s n) := by
  unfold requestStage
  iterate 3
    repeat' (first
      | (with_reducible assumption) | (with_reducible apply ite_kept) | (with_reducible apply bump_kept) | (with_reducible apply settleStage_kept)
      | (with_reducible apply retargetAll_kept) | (with_reducible apply modPwr_kept) | (with_reducible apply foldl_kept <;> intros) | (split)
      | (dsimp only))
    all_goals (try with_reducible refine mk_kept ?_ rfl (by first | rfl | simp) (by first | rfl | simp) rfl (by first | exact id | exact fun _ => rfl))

theorem stageUp_kept {s0 s : State} (h : Kept s0 s) (mean : Nat) : Kept s0 (stageUp s mean) := by
  unfold stageUp
  iterate 3
    repeat' (first
      | (with_reducible assumption) | (with_reducible apply ite_kept) | (with_reducible apply modPwr_kept) | (with_reducible apply requestStage_kept)
      | (with_reducible apply foldl_kept <;> intros) | (split) | (dsimp only))
    all_goals (try with_reducible refine mk_kept ?_ rfl (by first | rfl | simp) (by first | rfl | simp) rfl (by first | exact id | exact fun _ => rfl))

theorem stageDown_kept {s0 s : State} (h : Kept s0 s) : Kept s0 (stageDown s) := by
  unfold stageDown
  iterate 3
    repeat' (first
      | (with_reducible assumption) | (with_reducible apply ite_kept) | (with_reducible apply requestStage_kept)
      | (with_reducible apply foldl_kept <;> intros) | (split) | (dsimp only))
    all_goals (try with_reducible refine mk_kept ?_ rfl (by first | rfl | simp) (by first | rfl | simp) rfl (by first | exact id | exact fun _ => rfl))

theorem execDrydownEvaluation_kept {s0 s : State} (h : Kept s0 s) : KeptOut s0 (execDrydownEvaluation s) := by
  unfold execDrydownEvaluation
  iterate 3
    repeat' (first
      | (with_reducible assumption) | (with_reducible apply next_kept) | (with_reducible apply iteOut_kept) | (with_reducible apply ite_kept)
      | (with_reducible apply modPwr_kept) | (with_reducible apply stageUp_kept) | (with_reducible apply stageDown_kept)
      | (with_reducible apply foldl_kept <;> intros) | (split) | (dsimp only))
    all_goals (try with_reducible refine mk_kept ?_ rfl (by first | rfl | simp) (by first | rfl | simp) rfl (by first | exact id | exact fun _ => rfl))

theorem replicaWarn_kept {s0 s : State} (h : Kept s0 s) (i : Nat) : Kept s0 (replicaWarn s i) := by
  unfold replicaWarn
  iterate 3
    repeat' (first
      | (with_reducible assumption) | (with_reducible apply ite_kept) | (with_reducible apply bump_kept) | (with_reducible apply modPwr_kept)
      | (with_reducible apply modClk_kept) | (with_reducible apply retarget_kept) | (with_reducible apply fault_kept)
      | (with_reducible apply foldl_kept <;> intros) | (split) | (dsimp only))
    all_goals (try with_reducible refine mk_kept ?_ rfl (by first | rfl | simp) (by first | rfl | simp) rfl (by first | exact id | exact fun _ => rfl))

theorem execReplicaSample_kept {s0 s : State} (h : Kept s0 s) (i : BitVec 4) (slacks : List (BitVec 8)) :
    KeptOut s0 (execReplicaSample i slacks s) := by
  unfold execReplicaSample
  iterate 3
    repeat' (first
      | (with_reducible assumption) | (with_reducible apply next_kept) | (with_reducible apply iteOut_kept) | (with_reducible apply ite_kept)
      | (with_reducible apply modPwr_kept) | (with_reducible apply replicaWarn_kept) | (with_reducible apply foldl_kept <;> intros) | (split)
      | (dsimp only))
    all_goals (try with_reducible refine mk_kept ?_ rfl (by first | rfl | simp) (by first | rfl | simp) rfl (by first | exact id | exact fun _ => rfl))

theorem execMarginRecovery_kept {s0 s : State} (h : Kept s0 s) (d : BitVec 3) : KeptOut s0 (execMarginRecovery d s) := by
  unfold execMarginRecovery
  iterate 3
    repeat' (first
      | (with_reducible assumption) | (with_reducible apply next_kept) | (with_reducible apply iteOut_kept) | (with_reducible apply ite_kept)
      | (with_reducible apply retarget_kept) | (with_reducible apply modClk_kept) | (with_reducible apply foldl_kept <;> intros) | (split)
      | (dsimp only))
    all_goals (try with_reducible refine mk_kept ?_ rfl (by first | rfl | simp) (by first | rfl | simp) rfl (by first | exact id | exact fun _ => rfl))

theorem noteThrottle_kept {s0 s : State} (h : Kept s0 s) : Kept s0 (noteThrottle s) := by
  unfold noteThrottle
  iterate 3
    repeat' (first
      | (with_reducible assumption) | (with_reducible apply ite_kept) | (with_reducible apply modClk_kept)
      | (with_reducible apply foldl_kept <;> intros) | (split) | (dsimp only))
    all_goals (try with_reducible refine mk_kept ?_ rfl (by first | rfl | simp) (by first | rfl | simp) rfl (by first | exact id | exact fun _ => rfl))

theorem lowerThermal_kept {s0 s : State} (h : Kept s0 s) (d : Nat) (further : Bool) : Kept s0 (lowerThermal s d further) := by
  unfold lowerThermal
  iterate 3
    repeat' (first
      | (with_reducible assumption) | (with_reducible apply ite_kept) | (with_reducible apply retarget_kept) | (with_reducible apply modClk_kept)
      | (with_reducible apply foldl_kept <;> intros) | (split) | (dsimp only))
    all_goals (try with_reducible refine mk_kept ?_ rfl (by first | rfl | simp) (by first | rfl | simp) rfl (by first | exact id | exact fun _ => rfl))

theorem putTherm_kept {s0 s : State} (h : Kept s0 s) (i : Nat) (x : Therm) : Kept s0 (putTherm s i x) := by
  unfold putTherm
  iterate 3
    repeat' (first
      | (with_reducible assumption) | (with_reducible apply ite_kept) | (with_reducible apply modPwr_kept)
      | (with_reducible apply foldl_kept <;> intros) | (split) | (dsimp only))
    all_goals (try with_reducible refine mk_kept ?_ rfl (by first | rfl | simp) (by first | rfl | simp) rfl (by first | exact id | exact fun _ => rfl))

theorem thermalActs_kept {s0 s : State} (h : Kept s0 s) (i : Nat) (old : Therm) (x : Therm) : Kept s0 (thermalActs s i old x) := by
  unfold thermalActs
  iterate 3
    repeat' (first
      | (with_reducible assumption) | (with_reducible apply ite_kept) | (with_reducible apply tripReset_kept) | (with_reducible apply send_kept)
      | (with_reducible apply lowerThermal_kept) | (with_reducible apply noteThrottle_kept) | (with_reducible apply refreshTemp_kept)
      | (with_reducible apply fault_kept) | (with_reducible apply foldl_kept <;> intros) | (split) | (dsimp only))
    all_goals (try with_reducible refine mk_kept ?_ rfl (by first | rfl | simp) (by first | rfl | simp) rfl (by first | exact id | exact fun _ => rfl))

theorem execThermalSample_kept {s0 s : State} (h : Kept s0 s) (i : BitVec 5) (readings : List (BitVec 16)) :
    KeptOut s0 (execThermalSample i readings s) := by
  unfold execThermalSample
  iterate 3
    repeat' (first
      | (with_reducible assumption) | (with_reducible apply next_kept) | (with_reducible apply iteOut_kept) | (with_reducible apply ite_kept)
      | (with_reducible apply drawFree_kept) | (with_reducible apply retargetAll_kept) | (with_reducible apply thermalActs_kept)
      | (with_reducible apply putTherm_kept) | (with_reducible apply foldl_kept <;> intros) | (split) | (dsimp only))
    all_goals (try with_reducible refine mk_kept ?_ rfl (by first | rfl | simp) (by first | rfl | simp) rfl (by first | exact id | exact fun _ => rfl))

theorem execThrottleStep_kept {s0 s : State} (h : Kept s0 s) (i : BitVec 5) : KeptOut s0 (execThrottleStep i s) := by
  unfold execThrottleStep
  iterate 3
    repeat' (first
      | (with_reducible assumption) | (with_reducible apply next_kept) | (with_reducible apply iteOut_kept) | (with_reducible apply ite_kept)
      | (with_reducible apply lowerThermal_kept) | (with_reducible apply putTherm_kept) | (with_reducible apply foldl_kept <;> intros) | (split)
      | (dsimp only))
    all_goals (try with_reducible refine mk_kept ?_ rfl (by first | rfl | simp) (by first | rfl | simp) rfl (by first | exact id | exact fun _ => rfl))

theorem execThermalCeilingRise_kept {s0 s : State} (h : Kept s0 s) (d : BitVec 3) : KeptOut s0 (execThermalCeilingRise d s) := by
  unfold execThermalCeilingRise
  iterate 3
    repeat' (first
      | (with_reducible assumption) | (with_reducible apply next_kept) | (with_reducible apply iteOut_kept) | (with_reducible apply ite_kept)
      | (with_reducible apply retarget_kept) | (with_reducible apply modClk_kept) | (with_reducible apply foldl_kept <;> intros) | (split)
      | (dsimp only))
    all_goals (try with_reducible refine mk_kept ?_ rfl (by first | rfl | simp) (by first | rfl | simp) rfl (by first | exact id | exact fun _ => rfl))

theorem publishTemps_kept {s0 s : State} (h : Kept s0 s) : Kept s0 (publishTemps s) := by
  unfold publishTemps
  iterate 3
    repeat' (first
      | (with_reducible assumption) | (with_reducible apply ite_kept) | (with_reducible apply modPwr_kept) | (with_reducible apply lowerThermal_kept)
      | (with_reducible apply refreshTemp_kept) | (with_reducible apply noteThrottle_kept) | (with_reducible apply retargetAll_kept)
      | (with_reducible apply modRst_kept) | (with_reducible apply foldl_kept <;> intros) | (split) | (dsimp only))
    all_goals (try with_reducible refine mk_kept ?_ rfl (by first | rfl | simp) (by first | rfl | simp) rfl (by first | exact id | exact fun _ => rfl))

theorem execBaseTempPublish_kept {s0 s : State} (h : Kept s0 s) (dies : List (BitVec 16)) (fields : List (BitVec 16)) :
    KeptOut s0 (execBaseTempPublish dies fields s) := by
  unfold execBaseTempPublish
  iterate 3
    repeat' (first
      | (with_reducible assumption) | (with_reducible apply next_kept) | (with_reducible apply iteOut_kept) | (with_reducible apply ite_kept)
      | (with_reducible apply publishTemps_kept) | (with_reducible apply modBase_kept) | (with_reducible apply foldl_kept <;> intros) | (split)
      | (dsimp only))
    all_goals (try with_reducible refine mk_kept ?_ rfl (by first | rfl | simp) (by first | rfl | simp) rfl (by first | exact id | exact fun _ => rfl))

theorem execRefclkLost_kept {s0 s : State} (h : Kept s0 s) : KeptOut s0 (execRefclkLost s) := by
  unfold execRefclkLost
  iterate 3
    repeat' (first
      | (with_reducible assumption) | (with_reducible apply next_kept) | (with_reducible apply iteOut_kept) | (with_reducible apply ite_kept)
      | (with_reducible apply fault_kept) | (with_reducible apply modPwr_kept) | (with_reducible apply raiseBit_kept)
      | (with_reducible apply foldl_kept <;> intros) | (split) | (dsimp only))
    all_goals (try with_reducible refine mk_kept ?_ rfl (by first | rfl | simp) (by first | rfl | simp) rfl (by first | exact id | exact fun _ => rfl))

theorem execHoldoverExpiry_kept {s0 s : State} (h : Kept s0 s) : KeptOut s0 (execHoldoverExpiry s) := by
  unfold execHoldoverExpiry
  iterate 3
    repeat' (first
      | (with_reducible assumption) | (with_reducible apply next_kept) | (with_reducible apply iteOut_kept) | (with_reducible apply ite_kept)
      | (with_reducible apply modPwr_kept) | (with_reducible apply fault_kept) | (with_reducible apply foldl_kept <;> intros) | (split) | (dsimp only))
    all_goals (try with_reducible refine mk_kept ?_ rfl (by first | rfl | simp) (by first | rfl | simp) rfl (by first | exact id | exact fun _ => rfl))

theorem execRefclkReturn_kept {s0 s : State} (h : Kept s0 s) : KeptOut s0 (execRefclkReturn s) := by
  unfold execRefclkReturn
  iterate 3
    repeat' (first
      | (with_reducible assumption) | (with_reducible apply next_kept) | (with_reducible apply iteOut_kept) | (with_reducible apply ite_kept)
      | (with_reducible apply modPwr_kept) | (with_reducible apply formBatch_kept) | (with_reducible apply startIfReady_kept)
      | (with_reducible apply foldl_kept <;> intros) | (split) | (dsimp only))
    all_goals (try with_reducible refine mk_kept ?_ rfl (by first | rfl | simp) (by first | rfl | simp) rfl (by first | exact id | exact fun _ => rfl))

theorem execHeartbeat_kept {s0 s : State} (h : Kept s0 s) (i : BitVec 5) : KeptOut s0 (execHeartbeat i s) := by
  unfold execHeartbeat
  iterate 3
    repeat' (first
      | (with_reducible assumption) | (with_reducible apply next_kept) | (with_reducible apply iteOut_kept) | (with_reducible apply ite_kept)
      | (with_reducible apply loseDie_kept) | (with_reducible apply modDie_kept) | (with_reducible apply foldl_kept <;> intros) | (split)
      | (dsimp only))
    all_goals (try with_reducible refine mk_kept ?_ rfl (by first | rfl | simp) (by first | rfl | simp) rfl (by first | exact id | exact fun _ => rfl))

theorem execHeartbeatTimeout_kept {s0 s : State} (h : Kept s0 s) (i : BitVec 5) : KeptOut s0 (execHeartbeatTimeout i s) := by
  unfold execHeartbeatTimeout
  iterate 3
    repeat' (first
      | (with_reducible assumption) | (with_reducible apply next_kept) | (with_reducible apply iteOut_kept) | (with_reducible apply ite_kept)
      | (with_reducible apply loseDie_kept) | (with_reducible apply foldl_kept <;> intros) | (split) | (dsimp only))
    all_goals (try with_reducible refine mk_kept ?_ rfl (by first | rfl | simp) (by first | rfl | simp) rfl (by first | exact id | exact fun _ => rfl))

theorem joined_kept {s0 s : State} (h : Kept s0 s) (f : State → State) (hf : ∀ t, Kept s0 t → Kept s0 (f t)) : Kept s0 (joined s f) := by
  have h1 := hf { s with flt := { s.flt with joined := true } } (mk_kept h rfl rfl rfl rfl id)
  exact kept_of h1 rfl rfl id (Nat.le_refl _) (Nat.le_refl _) (Nat.le_refl _) id

theorem loseHomed_kept {s0 s : State} (h : Kept s0 s) (e : Nat) : Kept s0 (loseHomed s e) := by
  unfold loseHomed
  iterate 3
    repeat' (first
      | (with_reducible assumption) | (with_reducible apply ite_kept) | (with_reducible apply loseEndpoint_kept) | (with_reducible apply loseDie_kept)
      | (with_reducible apply modBase_kept) | (with_reducible apply foldl_kept <;> intros) | (split) | (dsimp only))
    all_goals (try with_reducible refine mk_kept ?_ rfl (by first | rfl | simp) (by first | rfl | simp) rfl (by first | exact id | exact fun _ => rfl))

theorem loseField_kept {s0 s : State} (h : Kept s0 s) (f : Nat) : Kept s0 (loseField s f) := by
  unfold loseField
  repeat' (first
    | (with_reducible assumption) | (with_reducible apply ite_kept) | (with_reducible apply setPd_kept) | (with_reducible apply powerOff_kept)
    | (with_reducible apply darkField_kept) | (with_reducible apply fault_kept) | (with_reducible refine joined_kept ?_ _ (fun t ht => ?_))
    | (with_reducible apply loseHomed_kept) | (with_reducible apply modBase_kept) | (with_reducible apply failPath_kept)
    | (with_reducible apply dropLink_kept) | (with_reducible apply foldl_kept <;> intros) | (split) | (dsimp only))
  all_goals (try with_reducible refine mk_kept ?_ rfl rfl rfl rfl (by first | exact id | exact fun _ => rfl))
  repeat' (first
    | (with_reducible assumption) | (with_reducible apply ite_kept) | (with_reducible apply setPd_kept) | (with_reducible apply powerOff_kept)
    | (with_reducible apply darkField_kept) | (with_reducible apply fault_kept) | (with_reducible refine joined_kept ?_ _ (fun t ht => ?_))
    | (with_reducible apply loseHomed_kept) | (with_reducible apply modBase_kept) | (with_reducible apply failPath_kept)
    | (with_reducible apply dropLink_kept) | (with_reducible apply foldl_kept <;> intros) | (split) | (dsimp only))

theorem loseHub_kept {s0 s : State} (h : Kept s0 s) : Kept s0 (loseHub s) := by
  unfold loseHub
  iterate 3
    repeat' (first
      | (with_reducible assumption) | (with_reducible apply ite_kept) | (with_reducible apply islandFault_kept) | (with_reducible apply modDie_kept)
      | (with_reducible apply setPd_kept) | (with_reducible apply foldl_kept <;> intros) | (split) | (dsimp only))
    all_goals (try with_reducible refine mk_kept ?_ rfl (by first | rfl | simp) (by first | rfl | simp) rfl (by first | exact id | exact fun _ => rfl))

theorem execRegulatorFault_kept {s0 s : State} (h : Kept s0 s) (p : BitVec 6) : KeptOut s0 (execRegulatorFault p s) := by
  unfold execRegulatorFault
  repeat' (first
    | (with_reducible assumption) | (with_reducible apply next_kept) | (with_reducible apply iteOut_kept) | (with_reducible apply ite_kept)
    | (with_reducible apply loseHub_kept) | (with_reducible apply loseField_kept) | (with_reducible apply setPd_kept)
    | (with_reducible refine joined_kept ?_ _ (fun t ht => ?_)) | (with_reducible apply fault_kept) | (with_reducible apply loseGroup_kept)
    | (with_reducible apply loseDie_kept) | (with_reducible apply foldl_kept <;> intros) | (split) | (dsimp only))
  all_goals (try with_reducible refine mk_kept ?_ rfl rfl rfl rfl (by first | exact id | exact fun _ => rfl))
  repeat' (first
    | (with_reducible assumption) | (with_reducible apply next_kept) | (with_reducible apply iteOut_kept) | (with_reducible apply ite_kept)
    | (with_reducible apply loseHub_kept) | (with_reducible apply loseField_kept) | (with_reducible apply setPd_kept)
    | (with_reducible refine joined_kept ?_ _ (fun t ht => ?_)) | (with_reducible apply fault_kept) | (with_reducible apply loseGroup_kept)
    | (with_reducible apply loseDie_kept) | (with_reducible apply foldl_kept <;> intros) | (split) | (dsimp only))

theorem execFaultLogCoalesceExpiry_kept {s0 s : State} (h : Kept s0 s) : KeptOut s0 (execFaultLogCoalesceExpiry s) := by
  unfold execFaultLogCoalesceExpiry
  iterate 3
    repeat' (first
      | (with_reducible assumption) | (with_reducible apply next_kept) | (with_reducible apply iteOut_kept) | (with_reducible apply ite_kept)
      | (with_reducible apply signalVector_kept) | (with_reducible apply foldl_kept <;> intros) | (split) | (dsimp only))
    all_goals (try with_reducible refine mk_kept ?_ rfl (by first | rfl | simp) (by first | rfl | simp) rfl (by first | exact id | exact fun _ => rfl))

theorem sramDoubleBit_kept {s0 s : State} (h : Kept s0 s) (d : Nat) (off : Nat) (addr : Nat) : Kept s0 (sramDoubleBit s d off addr) := by
  unfold sramDoubleBit
  iterate 3
    repeat' (first
      | (with_reducible assumption) | (with_reducible apply ite_kept) | (with_reducible apply bump_kept) | (with_reducible apply updUnits_kept)
      | (with_reducible apply transientFault_kept) | (with_reducible apply fault_kept) | (with_reducible apply foldl_kept <;> intros) | (split)
      | (dsimp only))
    all_goals (try with_reducible refine mk_kept ?_ rfl (by first | rfl | simp) (by first | rfl | simp) rfl (by first | exact id | exact fun _ => rfl))

theorem injEffect_kept {s0 s : State} (h : Kept s0 s) (a : InjArgs) (restore : Bool) : Kept s0 (injEffect s a restore) := by
  unfold injEffect
  iterate 3
    repeat' (first
      | (with_reducible assumption) | (with_reducible apply ite_kept) | (with_reducible apply replaceLane_kept)
      | (with_reducible apply loseChannel_kept) | (with_reducible apply unlockRing_kept) | (with_reducible apply failLaser_kept)
      | (with_reducible apply sramDoubleBit_kept) | (with_reducible apply loseTile_kept) | (with_reducible apply loseDie_kept)
      | (with_reducible apply t1DoubleBit_kept) | (with_reducible apply t2Uncorrectable_kept) | (with_reducible apply dropLink_kept)
      | (with_reducible apply reductionFault_kept) | (with_reducible apply foldl_kept <;> intros) | (split) | (dsimp only))
    all_goals (try with_reducible refine mk_kept ?_ rfl (by first | rfl | simp) (by first | rfl | simp) rfl (by first | exact id | exact fun _ => rfl))

theorem startInjection_kept {s0 s : State} (h : Kept s0 s) (kind : Nat) (restore : Bool) : Kept s0 (startInjection s kind restore) := by
  unfold startInjection
  iterate 3
    repeat' (first
      | (with_reducible assumption) | (with_reducible apply ite_kept) | (with_reducible apply injEffect_kept)
      | (with_reducible apply foldl_kept <;> intros) | (split) | (dsimp only))
    all_goals (try with_reducible refine mk_kept ?_ rfl (by first | rfl | simp) (by first | rfl | simp) rfl (by first | exact id | exact fun _ => rfl))

theorem restoreUnit_kept {s0 s : State} (h : Kept s0 s) (kind : Nat) (idx : Nat) (pass : Bool) : Kept s0 (restoreUnit s kind idx pass) := by
  unfold restoreUnit
  iterate 3
    repeat' (first
      | (with_reducible assumption) | (with_reducible apply ite_kept) | (with_reducible apply modLaser_kept) | (with_reducible apply resetDie_kept)
      | (with_reducible apply foldl_kept <;> intros) | (split) | (dsimp only))
    all_goals (try with_reducible refine mk_kept ?_ rfl (by first | rfl | simp) (by first | rfl | simp) rfl (by first | exact id | exact fun _ => rfl))

theorem execInjectionRestore_kept {s0 s : State} (h : Kept s0 s) (pass : Bool) : KeptOut s0 (execInjectionRestore pass s) := by
  unfold execInjectionRestore
  iterate 3
    repeat' (first
      | (with_reducible assumption) | (with_reducible apply next_kept) | (with_reducible apply iteOut_kept) | (with_reducible apply ite_kept)
      | (with_reducible apply restoreUnit_kept) | (with_reducible apply foldl_kept <;> intros) | (split) | (dsimp only))
    all_goals (try with_reducible refine mk_kept ?_ rfl (by first | rfl | simp) (by first | rfl | simp) rfl (by first | exact id | exact fun _ => rfl))

theorem modFlc_kept {s0 s : State} (h : Kept s0 s) (f : Flc → Flc) : Kept s0 (modFlc s f) := by
  unfold modFlc
  iterate 3
    repeat' (first
      | (with_reducible assumption) | (with_reducible apply ite_kept) | (with_reducible apply foldl_kept <;> intros) | (split) | (dsimp only))
    all_goals (try with_reducible refine mk_kept ?_ rfl (by first | rfl | simp) (by first | rfl | simp) rfl (by first | exact id | exact fun _ => rfl))

theorem execFlaconSample_kept {s0 s : State} (h : Kept s0 s) (v : BitVec 24) (i : BitVec 20) (ok : Bool) :
    KeptOut s0 (execFlaconSample v i ok s) := by
  unfold execFlaconSample
  iterate 3
    repeat' (first
      | (with_reducible assumption) | (with_reducible apply next_kept) | (with_reducible apply iteOut_kept) | (with_reducible apply ite_kept)
      | (with_reducible apply modFlc_kept) | (with_reducible apply fault_kept) | (with_reducible apply foldl_kept <;> intros) | (split) | (dsimp only))
    all_goals (try with_reducible refine mk_kept ?_ rfl (by first | rfl | simp) (by first | rfl | simp) rfl (by first | exact id | exact fun _ => rfl))

theorem execIntervalClose_kept {s0 s : State} (h : Kept s0 s) : KeptOut s0 (execIntervalClose s) := by
  unfold execIntervalClose
  iterate 3
    repeat' (first
      | (with_reducible assumption) | (with_reducible apply next_kept) | (with_reducible apply iteOut_kept) | (with_reducible apply ite_kept)
      | (with_reducible apply attributeNow_kept) | (with_reducible apply send_kept) | (with_reducible apply foldl_kept <;> intros) | (split)
      | (dsimp only))
    all_goals (try with_reducible refine mk_kept ?_ rfl (by first | rfl | simp) (by first | rfl | simp) rfl (by first | exact id | exact fun _ => rfl))

theorem execTick_kept {s0 s : State} (h : Kept s0 s) (n : Word) (acts : List Activity) : KeptOut s0 (execTick n acts s) := by
  unfold execTick
  iterate 3
    repeat' (first
      | (with_reducible assumption) | (with_reducible apply next_kept) | (with_reducible apply iteOut_kept) | (with_reducible apply ite_kept)
      | (with_reducible apply modFlc_kept) | (with_reducible apply send_kept) | (with_reducible apply foldl_kept <;> intros) | (split) | (dsimp only))
    all_goals (try with_reducible refine mk_kept ?_ rfl (by first | rfl | simp) (by first | rfl | simp) rfl (by first | exact id | exact fun _ => rfl))

theorem stallYields_kept {s0 s : State} (h : Kept s0 s) (start : Nat) (stop : Nat) : Kept s0 (stallYields s start stop) := by
  unfold stallYields
  iterate 3
    repeat' (first
      | (with_reducible assumption) | (with_reducible apply ite_kept) | (with_reducible apply yielded_kept)
      | (with_reducible apply foldl_kept <;> intros) | (split) | (dsimp only))
    all_goals (try with_reducible refine mk_kept ?_ rfl (by first | rfl | simp) (by first | rfl | simp) rfl (by first | exact id | exact fun _ => rfl))

theorem endStall_kept {s0 s : State} (h : Kept s0 s) : Kept s0 (endStall s) := by
  unfold endStall
  iterate 3
    repeat' (first
      | (with_reducible assumption) | (with_reducible apply ite_kept) | (with_reducible apply modFlc_kept) | (with_reducible apply stallYields_kept)
      | (with_reducible apply formBatch_kept) | (with_reducible apply foldl_kept <;> intros) | (split) | (dsimp only))
    all_goals (try with_reducible refine mk_kept ?_ rfl (by first | rfl | simp) (by first | rfl | simp) rfl (by first | exact id | exact fun _ => rfl))

theorem execRecord_kept {s0 s : State} (h : Kept s0 s) (bs : List Byte) : KeptOut s0 (execRecord bs s) := by
  unfold execRecord
  iterate 3
    repeat' (first
      | (with_reducible assumption) | (with_reducible apply next_kept) | (with_reducible apply iteOut_kept) | (with_reducible apply ite_kept)
      | (with_reducible apply attributeNow_kept) | (with_reducible apply endStall_kept) | (with_reducible apply modFlc_kept)
      | (with_reducible apply fault_kept) | (with_reducible apply send_kept) | (with_reducible apply foldl_kept <;> intros) | (split) | (dsimp only))
    all_goals (try with_reducible refine mk_kept ?_ rfl (by first | rfl | simp) (by first | rfl | simp) rfl (by first | exact id | exact fun _ => rfl))

theorem execAdmissionStallTimeout_kept {s0 s : State} (h : Kept s0 s) : KeptOut s0 (execAdmissionStallTimeout s) := by
  unfold execAdmissionStallTimeout
  iterate 3
    repeat' (first
      | (with_reducible assumption) | (with_reducible apply next_kept) | (with_reducible apply iteOut_kept) | (with_reducible apply ite_kept)
      | (with_reducible apply stallYields_kept) | (with_reducible apply foldl_kept <;> intros) | (split) | (dsimp only))
    all_goals (try with_reducible refine mk_kept ?_ rfl (by first | rfl | simp) (by first | rfl | simp) rfl (by first | exact id | exact fun _ => rfl))

theorem execJournalSnapshot_kept {s0 s : State} (h : Kept s0 s) : KeptOut s0 (execJournalSnapshot s) := by
  unfold execJournalSnapshot
  iterate 3
    repeat' (first
      | (with_reducible assumption) | (with_reducible apply next_kept) | (with_reducible apply iteOut_kept) | (with_reducible apply ite_kept)
      | (with_reducible apply modFlc_kept) | (with_reducible apply foldl_kept <;> intros) | (split) | (dsimp only))
    all_goals (try with_reducible refine mk_kept ?_ rfl (by first | rfl | simp) (by first | rfl | simp) rfl (by first | exact id | exact fun _ => rfl))

theorem execPowerFail_kept {s0 s : State} (h : Kept s0 s) (mid : BitVec 2) : KeptOut s0 (execPowerFail mid s) := by
  unfold execPowerFail
  iterate 3
    repeat' (first
      | (with_reducible assumption) | (with_reducible apply next_kept) | (with_reducible apply iteOut_kept) | (with_reducible apply ite_kept)
      | (with_reducible apply modFlc_kept) | (with_reducible apply foldl_kept <;> intros) | (split) | (dsimp only))
    all_goals (try with_reducible refine mk_kept ?_ rfl (by first | rfl | simp) (by first | rfl | simp) rfl (by first | exact id | exact fun _ => rfl))

theorem execPowerUp_kept {s0 s : State} (h : Kept s0 s) (elapsed : BitVec 48) (sealHigh : Bool) : KeptOut s0 (execPowerUp elapsed sealHigh s) := by
  unfold execPowerUp
  iterate 3
    repeat' (first
      | (with_reducible assumption) | (with_reducible apply next_kept) | (with_reducible apply iteOut_kept) | (with_reducible apply ite_kept)
      | (with_reducible apply foldl_kept <;> intros) | (split) | (dsimp only))
    all_goals (try with_reducible refine mk_kept ?_ rfl (by first | rfl | simp) (by first | rfl | simp) rfl (by first | exact id | exact fun _ => rfl))

theorem execVbatBrownOut_kept {s0 s : State} (h : Kept s0 s) : KeptOut s0 (execVbatBrownOut s) := by
  unfold execVbatBrownOut
  iterate 3
    repeat' (first
      | (with_reducible assumption) | (with_reducible apply next_kept) | (with_reducible apply iteOut_kept) | (with_reducible apply ite_kept)
      | (with_reducible apply modFlc_kept) | (with_reducible apply foldl_kept <;> intros) | (split) | (dsimp only))
    all_goals (try with_reducible refine mk_kept ?_ rfl (by first | rfl | simp) (by first | rfl | simp) rfl (by first | exact id | exact fun _ => rfl))

theorem execSetTime_kept {s0 s : State} (h : Kept s0 s) (t : BitVec 64) : KeptOut s0 (execSetTime t s) := by
  unfold execSetTime
  iterate 3
    repeat' (first
      | (with_reducible assumption) | (with_reducible apply next_kept) | (with_reducible apply iteOut_kept) | (with_reducible apply ite_kept)
      | (with_reducible apply modFlc_kept) | (with_reducible apply foldl_kept <;> intros) | (split) | (dsimp only))
    all_goals (try with_reducible refine mk_kept ?_ rfl (by first | rfl | simp) (by first | rfl | simp) rfl (by first | exact id | exact fun _ => rfl))

theorem execTimeSet_kept {s0 s : State} (h : Kept s0 s) (t : BitVec 64) : KeptOut s0 (execTimeSet t s) := by
  unfold execTimeSet
  iterate 3
    repeat' (first
      | (with_reducible assumption) | (with_reducible apply next_kept) | (with_reducible apply iteOut_kept) | (with_reducible apply ite_kept)
      | (with_reducible apply modFlc_kept) | (with_reducible apply foldl_kept <;> intros) | (split) | (dsimp only))
    all_goals (try with_reducible refine mk_kept ?_ rfl (by first | rfl | simp) (by first | rfl | simp) rfl (by first | exact id | exact fun _ => rfl))

theorem execSealOpen_kept {s0 s : State} (h : Kept s0 s) : KeptOut s0 (execSealOpen s) := by
  unfold execSealOpen
  iterate 3
    repeat' (first
      | (with_reducible assumption) | (with_reducible apply next_kept) | (with_reducible apply iteOut_kept) | (with_reducible apply ite_kept)
      | (with_reducible apply modFlc_kept) | (with_reducible apply foldl_kept <;> intros) | (split) | (dsimp only))
    all_goals (try with_reducible refine mk_kept ?_ rfl (by first | rfl | simp) (by first | rfl | simp) rfl (by first | exact id | exact fun _ => rfl))

theorem execParam_kept {s0 s : State} (h : Kept s0 s) (i : BitVec 8) (v : Word) : KeptOut s0 (execParam i v s) := by
  unfold execParam
  iterate 3
    repeat' (first
      | (with_reducible assumption) | (with_reducible apply next_kept) | (with_reducible apply iteOut_kept) | (with_reducible apply ite_kept)
      | (with_reducible apply modFlc_kept) | (with_reducible apply foldl_kept <;> intros) | (split) | (dsimp only))
    all_goals (try with_reducible refine mk_kept ?_ rfl (by first | rfl | simp) (by first | rfl | simp) rfl (by first | exact id | exact fun _ => rfl))

theorem execSealClose_kept {s0 s : State} (h : Kept s0 s) : KeptOut s0 (execSealClose s) := by
  unfold execSealClose
  iterate 3
    repeat' (first
      | (with_reducible assumption) | (with_reducible apply next_kept) | (with_reducible apply iteOut_kept) | (with_reducible apply ite_kept)
      | (with_reducible apply modFlc_kept) | (with_reducible apply foldl_kept <;> intros) | (split) | (dsimp only))
    all_goals (try with_reducible refine mk_kept ?_ rfl (by first | rfl | simp) (by first | rfl | simp) rfl (by first | exact id | exact fun _ => rfl))

theorem execRead_kept {s0 s : State} (h : Kept s0 s) (r : Requester) (off : BitVec 12) : KeptOut s0 (execRead r off s) := by
  unfold execRead
  iterate 3
    repeat' (first
      | (with_reducible assumption) | (with_reducible apply next_kept) | (with_reducible apply iteOut_kept) | (with_reducible apply ite_kept)
      | (with_reducible apply send_kept) | (with_reducible apply foldl_kept <;> intros) | (split) | (dsimp only))
    all_goals (try with_reducible refine mk_kept ?_ rfl (by first | rfl | simp) (by first | rfl | simp) rfl (by first | exact id | exact fun _ => rfl))

theorem silenceTimers_kept {s0 s : State} (h : Kept s0 s) : Kept s0 (silenceTimers s) := by
  unfold silenceTimers
  repeat' (first
    | (with_reducible assumption) | (with_reducible apply runOut_kept <;> intros) | (with_reducible apply runIf_kept <;> intros) | (with_reducible apply ite_kept)
    | (with_reducible apply execHeartbeatTimeout_kept)
    | (with_reducible apply execAccordReadyTimeout_kept)
    | (with_reducible apply execRequestPoisonTimeout_kept)
    | (with_reducible apply executes_kept)
    | (with_reducible apply execCollectiveTimeout_kept)
    | (with_reducible apply execPeerKeepaliveTimeout_kept)
    | (with_reducible apply execLinkTrainTimeout_kept)
    | (with_reducible apply execHostCompletionTimeout_kept)
    | (with_reducible apply execRetryGapExpiry_kept)
    | (split) | (dsimp only))

theorem powerTimers_kept {s0 s : State} (h : Kept s0 s) : Kept s0 (powerTimers s) := by
  unfold powerTimers
  repeat' (first
    | (with_reducible assumption) | (with_reducible apply runOut_kept <;> intros) | (with_reducible apply runIf_kept <;> intros) | (with_reducible apply ite_kept)
    | (with_reducible apply execPowerDomainRampDone_kept)
    | (with_reducible apply execHalfHoldTimeout_kept)
    | (with_reducible apply execHoldoverExpiry_kept)
    | (with_reducible apply execDrydownEvaluation_kept)
    | (with_reducible apply execMarginRecovery_kept)
    | (with_reducible apply execThrottleStep_kept)
    | (with_reducible apply execThermalCeilingRise_kept)
    | (with_reducible apply execRefreshIntervalRelax_kept)
    | (with_reducible apply execTripCoolExpiry_kept)
    | (with_reducible apply execBootWatchdogExpiry_kept)
    | (with_reducible apply execWarmupTimeout_kept)
    | (with_reducible apply execWatchdogExpiry_kept)
    | (split) | (dsimp only))

theorem recordTimers_kept {s0 s : State} (h : Kept s0 s) : Kept s0 (recordTimers s) := by
  unfold recordTimers
  repeat' (first
    | (with_reducible assumption) | (with_reducible apply runOut_kept <;> intros) | (with_reducible apply runIf_kept <;> intros) | (with_reducible apply ite_kept)
    | (with_reducible apply execAdmissionStallTimeout_kept)
    | (with_reducible apply execMirrorAckTimeout_kept)
    | (with_reducible apply execLeaseGuardStop_kept)
    | (with_reducible apply execLeaseRenewTimer_kept)
    | (with_reducible apply execLeaseExpiry_kept)
    | (split) | (dsimp only))

theorem ctxTimers_kept {s0 s : State} (h : Kept s0 s) : Kept s0 (ctxTimers s) := by
  unfold ctxTimers
  repeat' (first
    | (with_reducible assumption) | (with_reducible apply runOut_kept <;> intros) | (with_reducible apply runIf_kept <;> intros) | (with_reducible apply ite_kept)
    | (with_reducible apply execHoldTimerExpiry_kept)
    | (with_reducible apply execDeadlineExpiry_kept)
    | (with_reducible apply execCoalesceTimerExpiry_kept)
    | (with_reducible apply execCapacityWaitTimer_kept)
    | (with_reducible apply execFaultLogCoalesceExpiry_kept)
    | (with_reducible apply execSuspendExpiry_kept)
    | (split) | (dsimp only))

theorem unitTimers_kept {s0 s : State} (h : Kept s0 s) : Kept s0 (unitTimers s) := by
  unfold unitTimers
  have hm : ∀ (a : MergeAcc) (t : State), Kept s0 t → KeptOut s0 ((match a.place with
      | .egress n => execEpMergeWindowExpiry (BitVec.ofNat 3 n) false a.packet.key
      | .ingress n => execEpMergeWindowExpiry (BitVec.ofNat 3 n) true a.packet.key
      | .router t | .adder t => execMergeWindowExpiry (BitVec.ofNat 11 t) a.packet.key) t) := by
    intro a t ht
    cases a.place with
    | egress n => exact execEpMergeWindowExpiry_kept ht _ _ _
    | ingress n => exact execEpMergeWindowExpiry_kept ht _ _ _
    | router n => exact execMergeWindowExpiry_kept ht _ _
    | adder n => exact execMergeWindowExpiry_kept ht _ _
  repeat' (first
    | (exact hm _ _ ‹_›)
    | (with_reducible assumption) | (with_reducible apply runOut_kept <;> intros) | (with_reducible apply runIf_kept <;> intros) | (with_reducible apply ite_kept)
    | (with_reducible apply execEpMergeWindowExpiry_kept)
    | (with_reducible apply execMergeWindowExpiry_kept)
    | (with_reducible apply execCalibrationRetry_kept)
    | (with_reducible apply execCalibrationDue_kept)
    | (with_reducible apply execLaserGate_kept)
    | (with_reducible apply execGtSlew_kept)
    | (with_reducible apply execTimeExchangeTimer_kept)
    | (with_reducible apply execKeepaliveSend_kept)
    | (split) | (dsimp only))

theorem runTimers_kept {s0 s : State} (h : Kept s0 s) : Kept s0 (runTimers s) := by
  unfold runTimers
  iterate 3
    repeat' (first
      | (with_reducible assumption) | (with_reducible apply ite_kept) | (with_reducible apply unitTimers_kept) | (with_reducible apply ctxTimers_kept)
      | (with_reducible apply shareTimers_kept) | (with_reducible apply recordTimers_kept) | (with_reducible apply powerTimers_kept)
      | (with_reducible apply silenceTimers_kept) | (with_reducible apply foldl_kept <;> intros) | (split) | (dsimp only))
    all_goals (try with_reducible refine mk_kept ?_ rfl (by first | rfl | simp) (by first | rfl | simp) rfl (by first | exact id | exact fun _ => rfl))

theorem trimWaiting_kept {s0 s : State} (h : Kept s0 s) : Kept s0 (trimWaiting s) := by
  unfold trimWaiting
  iterate 3
    repeat' (first
      | (with_reducible assumption) | (with_reducible apply ite_kept) | (with_reducible apply modFlc_kept)
      | (with_reducible apply foldl_kept <;> intros) | (split) | (dsimp only))
    all_goals (try with_reducible refine mk_kept ?_ rfl (by first | rfl | simp) (by first | rfl | simp) rfl (by first | exact id | exact fun _ => rfl))

end Sys2Proof.Machine
end

