-- ==== Sys2Proof/Laws/KeptRegisters.lean ====
section
/-!
SUPPORT. Every function of the state keeps the queue and the invariant: register writes, register views and the test port.
-/
set_option Elab.async false
set_option linter.all false
namespace Sys2Proof.Machine
open Sys2Proof

theorem tickGt_kept {s0 s : State} (h : Kept s0 s) : Kept s0 (tickGt s) := by
  unfold tickGt
  exact ite_kept (modTime_kept h _) (mk_kept h rfl rfl rfl rfl id)

theorem idle_kept {s0 s : State} (h : Kept s0 s) : Kept s0 (idle s) := by
  unfold idle
  exact meshTick_kept (launchAll_kept (tickGt_kept (armReads_kept (noteLimits_kept (trimWaiting_kept (askSilent_kept (poisonLost_kept
    (endDmaTick_kept (followFields_kept (followGroups_kept (runTimers_kept (runCmds_kept (payOwed_kept (loadChannels_kept (runMgmt_kept h 8192)))))))))))))))

theorem nextOr_kept {s0 s : State} {o : Out} (h : Kept s0 s) (ho : KeptOut s0 o) : Kept s0 (nextOr s o) := by
  unfold nextOr
  split
  · exact ho.at rfl
  · exact h

theorem writeLock_kept {s0 s : State} (h : Kept s0 s) (r : Requester) (off : Nat) (v : Word) : Kept s0 (writeLock s r off v) := by
  unfold writeLock
  iterate 3
    repeat' (first
      | (with_reducible assumption) | (with_reducible apply ite_kept) | (with_reducible apply regPut_kept) | (with_reducible apply logRefused_kept)
      | (with_reducible apply foldl_kept <;> intros) | (split) | (dsimp only))
    all_goals (try with_reducible refine mk_kept ?_ rfl (by first | rfl | simp) (by first | rfl | simp) rfl (by first | exact id | exact fun _ => rfl))

theorem writeWdt_kept {s0 s : State} (h : Kept s0 s) (v : Word) (new : Word) : Kept s0 (writeWdt s v new) := by
  unfold writeWdt
  iterate 3
    repeat' (first
      | (with_reducible assumption) | (with_reducible apply ite_kept) | (with_reducible apply regPut_kept) | (with_reducible apply modRst_kept)
      | (with_reducible apply foldl_kept <;> intros) | (split) | (dsimp only))
    all_goals (try with_reducible refine mk_kept ?_ rfl (by first | rfl | simp) (by first | rfl | simp) rfl (by first | exact id | exact fun _ => rfl))

theorem clearArith_kept {s0 s : State} (h : Kept s0 s) (c : Nat) : Kept s0 (clearArith s c) := by
  unfold clearArith
  iterate 3
    repeat' (first
      | (with_reducible assumption) | (with_reducible apply ite_kept) | (with_reducible apply modCtx_kept) | (with_reducible apply reissue_kept)
      | (with_reducible apply foldl_kept <;> intros) | (split) | (dsimp only))
    all_goals (try with_reducible refine mk_kept ?_ rfl (by first | rfl | simp) (by first | rfl | simp) rfl (by first | exact id | exact fun _ => rfl))

theorem writeLaneCfg_kept {s0 s : State} (h : Kept s0 s) (r : Requester) (lk : Bool) (v : Word) : Kept s0 (writeLaneCfg s r lk v) := by
  unfold writeLaneCfg
  iterate 3
    repeat' (first
      | (with_reducible assumption) | (with_reducible apply ite_kept) | (with_reducible apply modBundle_kept)
      | (with_reducible apply foldl_kept <;> intros) | (split) | (dsimp only))
    all_goals (try with_reducible refine mk_kept ?_ rfl (by first | rfl | simp) (by first | rfl | simp) rfl (by first | exact id | exact fun _ => rfl))

theorem writeRegion_kept {s0 s : State} (h : Kept s0 s) (r : Requester) (off : Nat) (v : Word) : Kept s0 (writeRegion s r off v) := by
  unfold writeRegion
  iterate 3
    repeat' (first
      | (with_reducible assumption) | (with_reducible apply ite_kept) | (with_reducible apply setRegion_kept)
      | (with_reducible apply foldl_kept <;> intros) | (split) | (dsimp only))
    all_goals (try with_reducible refine mk_kept ?_ rfl (by first | rfl | simp) (by first | rfl | simp) rfl (by first | exact id | exact fun _ => rfl))

theorem writePairCtx_kept {s0 s : State} (h : Kept s0 s) (r : Requester) (v : Word) : Kept s0 (writePairCtx s r v) := by
  unfold writePairCtx
  iterate 3
    repeat' (first
      | (with_reducible assumption) | (with_reducible apply ite_kept) | (with_reducible apply modCtx_kept)
      | (with_reducible apply foldl_kept <;> intros) | (split) | (dsimp only))
    all_goals (try with_reducible refine mk_kept ?_ rfl (by first | rfl | simp) (by first | rfl | simp) rfl (by first | exact id | exact fun _ => rfl))

theorem writeDmaReg_kept {s0 s : State} (h : Kept s0 s) (r : Requester) (off : Nat) (v : Word) (new : Word) : Kept s0 (writeDmaReg s r off v new) := by
  unfold writeDmaReg
  repeat' (first
    | (with_reducible assumption) | (with_reducible apply ite_kept) | (with_reducible apply dmaGo_kept) | (with_reducible refine nextOr_kept ?_ ?_)
    | (with_reducible apply execDmaAbort_kept) | (with_reducible apply logRefused_kept) | (with_reducible apply regPut_kept)
    | (with_reducible apply foldl_kept <;> intros) | (split) | (dsimp only))
  all_goals (try with_reducible refine mk_kept ?_ rfl rfl rfl rfl (by first | exact id | exact fun _ => rfl))
  repeat' (first
    | (with_reducible assumption) | (with_reducible apply ite_kept) | (with_reducible apply dmaGo_kept) | (with_reducible refine nextOr_kept ?_ ?_)
    | (with_reducible apply execDmaAbort_kept) | (with_reducible apply logRefused_kept) | (with_reducible apply regPut_kept)
    | (with_reducible apply foldl_kept <;> intros) | (split) | (dsimp only))

theorem writeChkReg_kept {s0 s : State} (h : Kept s0 s) (r : Requester) (off : Nat) (v : Word) (new : Word) : Kept s0 (writeChkReg s r off v new) := by
  unfold writeChkReg
  repeat' (first
    | (with_reducible assumption) | (with_reducible apply ite_kept) | (with_reducible refine nextOr_kept ?_ ?_)
    | (with_reducible apply execChkGo_kept) | (with_reducible apply execChkStop_kept) | (with_reducible apply logRefused_kept)
    | (with_reducible apply regPut_kept) | (with_reducible apply foldl_kept <;> intros) | (split) | (dsimp only))
  all_goals (try with_reducible refine mk_kept ?_ rfl rfl rfl rfl (by first | exact id | exact fun _ => rfl))
  repeat' (first
    | (with_reducible assumption) | (with_reducible apply ite_kept) | (with_reducible refine nextOr_kept ?_ ?_)
    | (with_reducible apply execChkGo_kept) | (with_reducible apply execChkStop_kept) | (with_reducible apply logRefused_kept)
    | (with_reducible apply regPut_kept) | (with_reducible apply foldl_kept <;> intros) | (split) | (dsimp only))

theorem writePairCfg_kept {s0 s : State} (h : Kept s0 s) (new : Word) : Kept s0 (writePairCfg s new) := by
  unfold writePairCfg
  iterate 3
    repeat' (first
      | (with_reducible assumption) | (with_reducible apply ite_kept) | (with_reducible apply regPut_kept) | (with_reducible apply formPair_kept)
      | (with_reducible apply foldl_kept <;> intros) | (split) | (dsimp only))
    all_goals (try with_reducible refine mk_kept ?_ rfl (by first | rfl | simp) (by first | rfl | simp) rfl (by first | exact id | exact fun _ => rfl))

theorem applyWrite_kept {s0 s : State} (h : Kept s0 s) (r : Requester) (off : Nat) (v : Word) (new : Word) (lk : Bool) : Kept s0 (applyWrite s r off v new lk) := by
  unfold applyWrite
  repeat' (first
    | (with_reducible assumption) | (with_reducible apply ite_kept) | (with_reducible apply writeLock_kept) | (with_reducible apply logRefused_kept)
    | (with_reducible apply regPut_kept) | (with_reducible apply startInjection_kept) | (with_reducible apply retargetAll_kept)
    | (with_reducible apply askWarm_kept) | (with_reducible apply writeWdt_kept) | (with_reducible refine nextOr_kept ?_ ?_)
    | (with_reducible apply execRecoveryGo_kept) | (with_reducible apply runBlock_kept) | (with_reducible apply selPut_kept)
    | (with_reducible apply clearArith_kept) | (with_reducible apply writeVfmap_kept) | (with_reducible apply execPlacementQuery_kept)
    | (with_reducible apply writeCapCtl_kept) | (with_reducible apply writeDmaReg_kept) | (with_reducible apply writeChkReg_kept)
    | (with_reducible apply writeLaneCfg_kept) | (with_reducible apply telControl_kept) | (with_reducible apply writeRegion_kept)
    | (with_reducible apply execMsgRingsEnable_kept) | (with_reducible apply execMsgRingsDisable_kept) | (with_reducible apply modMsg_kept)
    | (with_reducible apply execFabMsgSqTail_kept) | (with_reducible apply execFabMsgCqHead_kept) | (with_reducible apply execFabMsgRqTail_kept)
    | (with_reducible apply writePairCfg_kept) | (with_reducible apply requestSet_kept) | (with_reducible apply holdSpill_kept)
    | (with_reducible apply writeExact_kept) | (with_reducible apply noteSet_kept) | (with_reducible apply raiseBit_kept) | (with_reducible apply writePairCtx_kept)
    | (with_reducible apply foldl_kept <;> intros) | (split) | (dsimp only))
  all_goals (try with_reducible refine mk_kept ?_ rfl rfl rfl rfl (by first | exact id | exact fun _ => rfl))
  repeat' (first
    | (with_reducible assumption) | (with_reducible apply ite_kept) | (with_reducible apply writeLock_kept) | (with_reducible apply logRefused_kept)
    | (with_reducible apply regPut_kept) | (with_reducible apply startInjection_kept) | (with_reducible apply retargetAll_kept)
    | (with_reducible apply askWarm_kept) | (with_reducible apply writeWdt_kept) | (with_reducible refine nextOr_kept ?_ ?_)
    | (with_reducible apply execRecoveryGo_kept) | (with_reducible apply runBlock_kept) | (with_reducible apply selPut_kept)
    | (with_reducible apply clearArith_kept) | (with_reducible apply writeVfmap_kept) | (with_reducible apply execPlacementQuery_kept)
    | (with_reducible apply writeCapCtl_kept) | (with_reducible apply writeDmaReg_kept) | (with_reducible apply writeChkReg_kept)
    | (with_reducible apply writeLaneCfg_kept) | (with_reducible apply telControl_kept) | (with_reducible apply writeRegion_kept)
    | (with_reducible apply execMsgRingsEnable_kept) | (with_reducible apply execMsgRingsDisable_kept) | (with_reducible apply modMsg_kept)
    | (with_reducible apply execFabMsgSqTail_kept) | (with_reducible apply execFabMsgCqHead_kept) | (with_reducible apply execFabMsgRqTail_kept)
    | (with_reducible apply writePairCfg_kept) | (with_reducible apply requestSet_kept) | (with_reducible apply holdSpill_kept)
    | (with_reducible apply writeExact_kept) | (with_reducible apply noteSet_kept) | (with_reducible apply raiseBit_kept) | (with_reducible apply writePairCtx_kept)
    | (with_reducible apply foldl_kept <;> intros) | (split) | (dsimp only))

theorem writeReg_kept {s0 s : State} (h : Kept s0 s) (r : Requester) (off : Nat) (v : Word) : Kept s0 (writeReg s r off v) := by
  unfold writeReg
  iterate 3
    repeat' (first
      | (with_reducible assumption) | (with_reducible apply ite_kept) | (with_reducible apply logRefused_kept)
      | (with_reducible apply applyWrite_kept) | (with_reducible apply notePldm_kept) | (with_reducible apply foldl_kept <;> intros) | (split)
      | (dsimp only))
    all_goals (try with_reducible refine mk_kept ?_ rfl (by first | rfl | simp) (by first | rfl | simp) rfl (by first | exact id | exact fun _ => rfl))

theorem writeForm_kept {s0 s : State} (h : Kept s0 s) (r : Requester) (off : Nat) (f : WriteForm) : Kept s0 (writeForm s r off f) := by
  unfold writeForm
  iterate 3
    repeat' (first
      | (with_reducible assumption) | (with_reducible apply ite_kept) | (with_reducible apply writeReg_kept) | (with_reducible apply logRefused_kept)
      | (with_reducible apply foldl_kept <;> intros) | (split) | (dsimp only))
    all_goals (try with_reducible refine mk_kept ?_ rfl (by first | rfl | simp) (by first | rfl | simp) rfl (by first | exact id | exact fun _ => rfl))

theorem writePage_kept {s0 s : State} (h : Kept s0 s) (p : PageRef) (off : Nat) (v : Word) : Kept s0 (writePage s p off v) := by
  unfold writePage
  repeat' (first
    | (with_reducible assumption) | (with_reducible apply ite_kept) | (with_reducible refine nextOr_kept ?_ ?_)
    | (with_reducible apply execCtxSqTail_kept) | (with_reducible apply execCtxCqHead_kept) | (with_reducible apply execCtxRqTail_kept)
    | (with_reducible apply execCtxOutAck_kept) | (with_reducible apply execContextEnable_kept) | (with_reducible apply execContextDisable_kept)
    | (with_reducible apply modCtx_kept) | (with_reducible apply foldl_kept <;> intros) | (split) | (dsimp only))
  all_goals (try with_reducible refine mk_kept ?_ rfl rfl rfl rfl (by first | exact id | exact fun _ => rfl))
  repeat' (first
    | (with_reducible assumption) | (with_reducible apply ite_kept) | (with_reducible refine nextOr_kept ?_ ?_)
    | (with_reducible apply execCtxSqTail_kept) | (with_reducible apply execCtxCqHead_kept) | (with_reducible apply execCtxRqTail_kept)
    | (with_reducible apply execCtxOutAck_kept) | (with_reducible apply execContextEnable_kept) | (with_reducible apply execContextDisable_kept)
    | (with_reducible apply modCtx_kept) | (with_reducible apply foldl_kept <;> intros) | (split) | (dsimp only))

theorem writePageForm_kept {s0 s : State} (h : Kept s0 s) (p : PageRef) (off : Nat) (f : WriteForm) : Kept s0 (writePageForm s p off f) := by
  unfold writePageForm
  iterate 3
    repeat' (first
      | (with_reducible assumption) | (with_reducible apply ite_kept) | (with_reducible apply writePage_kept)
      | (with_reducible apply foldl_kept <;> intros) | (split) | (dsimp only))
    all_goals (try with_reducible refine mk_kept ?_ rfl (by first | rfl | simp) (by first | rfl | simp) rfl (by first | exact id | exact fun _ => rfl))

theorem execRegisterWrite_kept {s0 s : State} (h : Kept s0 s) (r : Requester) (t : RegTarget) (f : WriteForm) :
    KeptOut s0 (execRegisterWrite r t f s) := by
  unfold execRegisterWrite
  iterate 3
    repeat' (first
      | (with_reducible assumption) | (with_reducible apply next_kept) | (with_reducible apply iteOut_kept) | (with_reducible apply ite_kept)
      | (with_reducible apply writeForm_kept) | (with_reducible apply writePageForm_kept) | (with_reducible apply writeMsixForm_kept)
      | (with_reducible apply foldl_kept <;> intros) | (split) | (dsimp only))
    all_goals (try with_reducible refine mk_kept ?_ rfl (by first | rfl | simp) (by first | rfl | simp) rfl (by first | exact id | exact fun _ => rfl))

theorem execCapWrite_kept {s0 s : State} (h : Kept s0 s) (r : Requester) (v : Word) : KeptOut s0 (execCapWrite r v s) := by
  unfold execCapWrite
  iterate 3
    repeat' (first
      | (with_reducible assumption) | (with_reducible apply next_kept) | (with_reducible apply iteOut_kept) | (with_reducible apply ite_kept)
      | (with_reducible apply writeReg_kept) | (with_reducible apply foldl_kept <;> intros) | (split) | (dsimp only))
    all_goals (try with_reducible refine mk_kept ?_ rfl (by first | rfl | simp) (by first | rfl | simp) rfl (by first | exact id | exact fun _ => rfl))

theorem execKick_kept {s0 s : State} (h : Kept s0 s) (r : Requester) (v : Word) : KeptOut s0 (execKick r v s) := by
  unfold execKick
  iterate 3
    repeat' (first
      | (with_reducible assumption) | (with_reducible apply next_kept) | (with_reducible apply iteOut_kept) | (with_reducible apply ite_kept)
      | (with_reducible apply writeReg_kept) | (with_reducible apply foldl_kept <;> intros) | (split) | (dsimp only))
    all_goals (try with_reducible refine mk_kept ?_ rfl (by first | rfl | simp) (by first | rfl | simp) rfl (by first | exact id | exact fun _ => rfl))

theorem execArithClr_kept {s0 s : State} (h : Kept s0 s) (r : Requester) (c : BitVec 16) : KeptOut s0 (execArithClr r c s) := by
  unfold execArithClr
  iterate 3
    repeat' (first
      | (with_reducible assumption) | (with_reducible apply next_kept) | (with_reducible apply iteOut_kept) | (with_reducible apply ite_kept)
      | (with_reducible apply writeReg_kept) | (with_reducible apply foldl_kept <;> intros) | (split) | (dsimp only))
    all_goals (try with_reducible refine mk_kept ?_ rfl (by first | rfl | simp) (by first | rfl | simp) rfl (by first | exact id | exact fun _ => rfl))

theorem execLockWrite_kept {s0 s : State} (h : Kept s0 s) (r : Requester) (off : BitVec 26) (v : Word) : KeptOut s0 (execLockWrite r off v s) := by
  unfold execLockWrite
  iterate 3
    repeat' (first
      | (with_reducible assumption) | (with_reducible apply next_kept) | (with_reducible apply iteOut_kept) | (with_reducible apply ite_kept)
      | (with_reducible apply writeReg_kept) | (with_reducible apply foldl_kept <;> intros) | (split) | (dsimp only))
    all_goals (try with_reducible refine mk_kept ?_ rfl (by first | rfl | simp) (by first | rfl | simp) rfl (by first | exact id | exact fun _ => rfl))

theorem execHubFltAck_kept {s0 s : State} (h : Kept s0 s) (r : Requester) (v : Word) : KeptOut s0 (execHubFltAck r v s) := by
  unfold execHubFltAck
  iterate 3
    repeat' (first
      | (with_reducible assumption) | (with_reducible apply next_kept) | (with_reducible apply iteOut_kept) | (with_reducible apply ite_kept)
      | (with_reducible apply writeReg_kept) | (with_reducible apply foldl_kept <;> intros) | (split) | (dsimp only))
    all_goals (try with_reducible refine mk_kept ?_ rfl (by first | rfl | simp) (by first | rfl | simp) rfl (by first | exact id | exact fun _ => rfl))

theorem writeInject_kept {s0 s : State} (h : Kept s0 s) (r : Requester) (kind : Nat) (restore : Bool) : Kept s0 (writeInject s r kind restore) := by
  unfold writeInject
  iterate 3
    repeat' (first
      | (with_reducible assumption) | (with_reducible apply ite_kept) | (with_reducible apply writeReg_kept)
      | (with_reducible apply foldl_kept <;> intros) | (split) | (dsimp only))
    all_goals (try with_reducible refine mk_kept ?_ rfl (by first | rfl | simp) (by first | rfl | simp) rfl (by first | exact id | exact fun _ => rfl))

theorem execInjectLaneErrors_kept {s0 s : State} (h : Kept s0 s) (r : Requester) : KeptOut s0 (execInjectLaneErrors r s) := by
  unfold execInjectLaneErrors
  iterate 3
    repeat' (first
      | (with_reducible assumption) | (with_reducible apply next_kept) | (with_reducible apply iteOut_kept) | (with_reducible apply ite_kept)
      | (with_reducible apply writeInject_kept) | (with_reducible apply foldl_kept <;> intros) | (split) | (dsimp only))
    all_goals (try with_reducible refine mk_kept ?_ rfl (by first | rfl | simp) (by first | rfl | simp) rfl (by first | exact id | exact fun _ => rfl))

theorem execInjectChannelLoss_kept {s0 s : State} (h : Kept s0 s) (r : Requester) : KeptOut s0 (execInjectChannelLoss r s) := by
  unfold execInjectChannelLoss
  iterate 3
    repeat' (first
      | (with_reducible assumption) | (with_reducible apply next_kept) | (with_reducible apply iteOut_kept) | (with_reducible apply ite_kept)
      | (with_reducible apply writeInject_kept) | (with_reducible apply foldl_kept <;> intros) | (split) | (dsimp only))
    all_goals (try with_reducible refine mk_kept ?_ rfl (by first | rfl | simp) (by first | rfl | simp) rfl (by first | exact id | exact fun _ => rfl))

theorem execInjectRingUnlock_kept {s0 s : State} (h : Kept s0 s) (r : Requester) : KeptOut s0 (execInjectRingUnlock r s) := by
  unfold execInjectRingUnlock
  iterate 3
    repeat' (first
      | (with_reducible assumption) | (with_reducible apply next_kept) | (with_reducible apply iteOut_kept) | (with_reducible apply ite_kept)
      | (with_reducible apply writeInject_kept) | (with_reducible apply foldl_kept <;> intros) | (split) | (dsimp only))
    all_goals (try with_reducible refine mk_kept ?_ rfl (by first | rfl | simp) (by first | rfl | simp) rfl (by first | exact id | exact fun _ => rfl))

theorem execInjectLaserOff_kept {s0 s : State} (h : Kept s0 s) (r : Requester) : KeptOut s0 (execInjectLaserOff r s) := by
  unfold execInjectLaserOff
  iterate 3
    repeat' (first
      | (with_reducible assumption) | (with_reducible apply next_kept) | (with_reducible apply iteOut_kept) | (with_reducible apply ite_kept)
      | (with_reducible apply writeInject_kept) | (with_reducible apply foldl_kept <;> intros) | (split) | (dsimp only))
    all_goals (try with_reducible refine mk_kept ?_ rfl (by first | rfl | simp) (by first | rfl | simp) rfl (by first | exact id | exact fun _ => rfl))

theorem execInjectSramDoubleBit_kept {s0 s : State} (h : Kept s0 s) (r : Requester) : KeptOut s0 (execInjectSramDoubleBit r s) := by
  unfold execInjectSramDoubleBit
  iterate 3
    repeat' (first
      | (with_reducible assumption) | (with_reducible apply next_kept) | (with_reducible apply iteOut_kept) | (with_reducible apply ite_kept)
      | (with_reducible apply writeInject_kept) | (with_reducible apply foldl_kept <;> intros) | (split) | (dsimp only))
    all_goals (try with_reducible refine mk_kept ?_ rfl (by first | rfl | simp) (by first | rfl | simp) rfl (by first | exact id | exact fun _ => rfl))

theorem execInjectTileLost_kept {s0 s : State} (h : Kept s0 s) (r : Requester) : KeptOut s0 (execInjectTileLost r s) := by
  unfold execInjectTileLost
  iterate 3
    repeat' (first
      | (with_reducible assumption) | (with_reducible apply next_kept) | (with_reducible apply iteOut_kept) | (with_reducible apply ite_kept)
      | (with_reducible apply writeInject_kept) | (with_reducible apply foldl_kept <;> intros) | (split) | (dsimp only))
    all_goals (try with_reducible refine mk_kept ?_ rfl (by first | rfl | simp) (by first | rfl | simp) rfl (by first | exact id | exact fun _ => rfl))

theorem execInjectDieLost_kept {s0 s : State} (h : Kept s0 s) (r : Requester) (restore : Bool) : KeptOut s0 (execInjectDieLost r restore s) := by
  unfold execInjectDieLost
  iterate 3
    repeat' (first
      | (with_reducible assumption) | (with_reducible apply next_kept) | (with_reducible apply iteOut_kept) | (with_reducible apply ite_kept)
      | (with_reducible apply writeInject_kept) | (with_reducible apply foldl_kept <;> intros) | (split) | (dsimp only))
    all_goals (try with_reducible refine mk_kept ?_ rfl (by first | rfl | simp) (by first | rfl | simp) rfl (by first | exact id | exact fun _ => rfl))

theorem execInjectReservoirDoubleBit_kept {s0 s : State} (h : Kept s0 s) (r : Requester) : KeptOut s0 (execInjectReservoirDoubleBit r s) := by
  unfold execInjectReservoirDoubleBit
  iterate 3
    repeat' (first
      | (with_reducible assumption) | (with_reducible apply next_kept) | (with_reducible apply iteOut_kept) | (with_reducible apply ite_kept)
      | (with_reducible apply writeInject_kept) | (with_reducible apply foldl_kept <;> intros) | (split) | (dsimp only))
    all_goals (try with_reducible refine mk_kept ?_ rfl (by first | rfl | simp) (by first | rfl | simp) rfl (by first | exact id | exact fun _ => rfl))

theorem execInjectT2Uncorrectable_kept {s0 s : State} (h : Kept s0 s) (r : Requester) : KeptOut s0 (execInjectT2Uncorrectable r s) := by
  unfold execInjectT2Uncorrectable
  iterate 3
    repeat' (first
      | (with_reducible assumption) | (with_reducible apply next_kept) | (with_reducible apply iteOut_kept) | (with_reducible apply ite_kept)
      | (with_reducible apply writeInject_kept) | (with_reducible apply foldl_kept <;> intros) | (split) | (dsimp only))
    all_goals (try with_reducible refine mk_kept ?_ rfl (by first | rfl | simp) (by first | rfl | simp) rfl (by first | exact id | exact fun _ => rfl))

theorem execInjectLinkDown_kept {s0 s : State} (h : Kept s0 s) (r : Requester) : KeptOut s0 (execInjectLinkDown r s) := by
  unfold execInjectLinkDown
  iterate 3
    repeat' (first
      | (with_reducible assumption) | (with_reducible apply next_kept) | (with_reducible apply iteOut_kept) | (with_reducible apply ite_kept)
      | (with_reducible apply writeInject_kept) | (with_reducible apply foldl_kept <;> intros) | (split) | (dsimp only))
    all_goals (try with_reducible refine mk_kept ?_ rfl (by first | rfl | simp) (by first | rfl | simp) rfl (by first | exact id | exact fun _ => rfl))

theorem execInjectReductionFault_kept {s0 s : State} (h : Kept s0 s) (r : Requester) : KeptOut s0 (execInjectReductionFault r s) := by
  unfold execInjectReductionFault
  iterate 3
    repeat' (first
      | (with_reducible assumption) | (with_reducible apply next_kept) | (with_reducible apply iteOut_kept) | (with_reducible apply ite_kept)
      | (with_reducible apply writeInject_kept) | (with_reducible apply foldl_kept <;> intros) | (split) | (dsimp only))
    all_goals (try with_reducible refine mk_kept ?_ rfl (by first | rfl | simp) (by first | rfl | simp) rfl (by first | exact id | exact fun _ => rfl))

theorem execLoRegisterRead_kept {s0 s : State} (h : Kept s0 s) (r : Requester) (off : BitVec 26) : KeptOut s0 (execLoRegisterRead r off s) := by
  unfold execLoRegisterRead
  iterate 3
    repeat' (first
      | (with_reducible assumption) | (with_reducible apply next_kept) | (with_reducible apply iteOut_kept) | (with_reducible apply ite_kept)
      | (with_reducible apply send_kept) | (with_reducible apply foldl_kept <;> intros) | (split) | (dsimp only))
    all_goals (try with_reducible refine mk_kept ?_ rfl (by first | rfl | simp) (by first | rfl | simp) rfl (by first | exact id | exact fun _ => rfl))

theorem setTap_kept {s0 s : State} (h : Kept s0 s) (i : TapInstr) : Kept s0 (setTap s i) := by
  unfold setTap
  iterate 3
    repeat' (first
      | (with_reducible assumption) | (with_reducible apply ite_kept) | (with_reducible apply startBoot_kept)
      | (with_reducible apply foldl_kept <;> intros) | (split) | (dsimp only))
    all_goals (try with_reducible refine mk_kept ?_ rfl (by first | rfl | simp) (by first | rfl | simp) rfl (by first | exact id | exact fun _ => rfl))

theorem scanCells_kept {s0 s : State} (h : Kept s0 s) (pins : BitVec 2306) (inn : BitVec 2306) : Kept s0 (scanCells s pins inn) := by
  unfold scanCells
  iterate 3
    repeat' (first
      | (with_reducible assumption) | (with_reducible apply ite_kept) | (with_reducible apply send_kept)
      | (with_reducible apply foldl_kept <;> intros) | (split) | (dsimp only))
    all_goals (try with_reducible refine mk_kept ?_ rfl (by first | rfl | simp) (by first | rfl | simp) rfl (by first | exact id | exact fun _ => rfl))

theorem scanBypass_kept {s0 s : State} (h : Kept s0 s) : Kept s0 (scanBypass s) := by
  unfold scanBypass
  iterate 3
    repeat' (first
      | (with_reducible assumption) | (with_reducible apply ite_kept) | (with_reducible apply send_kept)
      | (with_reducible apply foldl_kept <;> intros) | (split) | (dsimp only))
    all_goals (try with_reducible refine mk_kept ?_ rfl (by first | rfl | simp) (by first | rfl | simp) rfl (by first | exact id | exact fun _ => rfl))

theorem drivingScan_kept {s0 s : State} (h : Kept s0 s) (i : TapInstr) (pins : BitVec 2306) (inn : BitVec 2306) :
    Kept s0 (drivingScan s i pins inn) := by
  unfold drivingScan
  iterate 3
    repeat' (first
      | (with_reducible assumption) | (with_reducible apply ite_kept) | (with_reducible apply setTap_kept) | (with_reducible apply scanCells_kept)
      | (with_reducible apply scanBypass_kept) | (with_reducible apply foldl_kept <;> intros) | (split) | (dsimp only))
    all_goals (try with_reducible refine mk_kept ?_ rfl (by first | rfl | simp) (by first | rfl | simp) rfl (by first | exact id | exact fun _ => rfl))

theorem execExtest_kept {s0 s : State} (h : Kept s0 s) (pins : BitVec 2306) (inn : BitVec 2306) : KeptOut s0 (execExtest pins inn s) := by
  unfold execExtest
  iterate 3
    repeat' (first
      | (with_reducible assumption) | (with_reducible apply next_kept) | (with_reducible apply iteOut_kept) | (with_reducible apply ite_kept)
      | (with_reducible apply drivingScan_kept) | (with_reducible apply foldl_kept <;> intros) | (split) | (dsimp only))
    all_goals (try with_reducible refine mk_kept ?_ rfl (by first | rfl | simp) (by first | rfl | simp) rfl (by first | exact id | exact fun _ => rfl))

theorem execExtestPulse_kept {s0 s : State} (h : Kept s0 s) (pins : BitVec 2306) (inn : BitVec 2306) : KeptOut s0 (execExtestPulse pins inn s) := by
  unfold execExtestPulse
  iterate 3
    repeat' (first
      | (with_reducible assumption) | (with_reducible apply next_kept) | (with_reducible apply iteOut_kept) | (with_reducible apply ite_kept)
      | (with_reducible apply drivingScan_kept) | (with_reducible apply foldl_kept <;> intros) | (split) | (dsimp only))
    all_goals (try with_reducible refine mk_kept ?_ rfl (by first | rfl | simp) (by first | rfl | simp) rfl (by first | exact id | exact fun _ => rfl))

theorem execExtestTrain_kept {s0 s : State} (h : Kept s0 s) (pins : BitVec 2306) (inn : BitVec 2306) : KeptOut s0 (execExtestTrain pins inn s) := by
  unfold execExtestTrain
  iterate 3
    repeat' (first
      | (with_reducible assumption) | (with_reducible apply next_kept) | (with_reducible apply iteOut_kept) | (with_reducible apply ite_kept)
      | (with_reducible apply drivingScan_kept) | (with_reducible apply foldl_kept <;> intros) | (split) | (dsimp only))
    all_goals (try with_reducible refine mk_kept ?_ rfl (by first | rfl | simp) (by first | rfl | simp) rfl (by first | exact id | exact fun _ => rfl))

theorem execSamplePreload_kept {s0 s : State} (h : Kept s0 s) (pins : BitVec 2306) (inn : BitVec 2306) :
    KeptOut s0 (execSamplePreload pins inn s) := by
  unfold execSamplePreload
  iterate 3
    repeat' (first
      | (with_reducible assumption) | (with_reducible apply next_kept) | (with_reducible apply iteOut_kept) | (with_reducible apply ite_kept)
      | (with_reducible apply scanCells_kept) | (with_reducible apply setTap_kept) | (with_reducible apply foldl_kept <;> intros) | (split)
      | (dsimp only))
    all_goals (try with_reducible refine mk_kept ?_ rfl (by first | rfl | simp) (by first | rfl | simp) rfl (by first | exact id | exact fun _ => rfl))

theorem execIdcode_kept {s0 s : State} (h : Kept s0 s) : KeptOut s0 (execIdcode s) := by
  unfold execIdcode
  iterate 3
    repeat' (first
      | (with_reducible assumption) | (with_reducible apply next_kept) | (with_reducible apply iteOut_kept) | (with_reducible apply ite_kept)
      | (with_reducible apply send_kept) | (with_reducible apply setTap_kept) | (with_reducible apply foldl_kept <;> intros) | (split) | (dsimp only))
    all_goals (try with_reducible refine mk_kept ?_ rfl (by first | rfl | simp) (by first | rfl | simp) rfl (by first | exact id | exact fun _ => rfl))

theorem execHighz_kept {s0 s : State} (h : Kept s0 s) : KeptOut s0 (execHighz s) := by
  unfold execHighz
  iterate 3
    repeat' (first
      | (with_reducible assumption) | (with_reducible apply next_kept) | (with_reducible apply iteOut_kept) | (with_reducible apply ite_kept)
      | (with_reducible apply scanBypass_kept) | (with_reducible apply setTap_kept) | (with_reducible apply foldl_kept <;> intros) | (split)
      | (dsimp only))
    all_goals (try with_reducible refine mk_kept ?_ rfl (by first | rfl | simp) (by first | rfl | simp) rfl (by first | exact id | exact fun _ => rfl))

theorem execClamp_kept {s0 s : State} (h : Kept s0 s) : KeptOut s0 (execClamp s) := by
  unfold execClamp
  iterate 3
    repeat' (first
      | (with_reducible assumption) | (with_reducible apply next_kept) | (with_reducible apply iteOut_kept) | (with_reducible apply ite_kept)
      | (with_reducible apply scanBypass_kept) | (with_reducible apply setTap_kept) | (with_reducible apply foldl_kept <;> intros) | (split)
      | (dsimp only))
    all_goals (try with_reducible refine mk_kept ?_ rfl (by first | rfl | simp) (by first | rfl | simp) rfl (by first | exact id | exact fun _ => rfl))

theorem execBypass_kept {s0 s : State} (h : Kept s0 s) : KeptOut s0 (execBypass s) := by
  unfold execBypass
  iterate 3
    repeat' (first
      | (with_reducible assumption) | (with_reducible apply next_kept) | (with_reducible apply iteOut_kept) | (with_reducible apply ite_kept)
      | (with_reducible apply scanBypass_kept) | (with_reducible apply setTap_kept) | (with_reducible apply foldl_kept <;> intros) | (split)
      | (dsimp only))
    all_goals (try with_reducible refine mk_kept ?_ rfl (by first | rfl | simp) (by first | rfl | simp) rfl (by first | exact id | exact fun _ => rfl))

theorem execTapReset_kept {s0 s : State} (h : Kept s0 s) : KeptOut s0 (execTapReset s) := by
  unfold execTapReset
  iterate 3
    repeat' (first
      | (with_reducible assumption) | (with_reducible apply next_kept) | (with_reducible apply iteOut_kept) | (with_reducible apply ite_kept)
      | (with_reducible apply setTap_kept) | (with_reducible apply foldl_kept <;> intros) | (split) | (dsimp only))
    all_goals (try with_reducible refine mk_kept ?_ rfl (by first | rfl | simp) (by first | rfl | simp) rfl (by first | exact id | exact fun _ => rfl))

end Sys2Proof.Machine
end

