-- ==== Sys2Proof/Laws/State.lean ====
section
/-!
SUPPORT. What each named update of the state leaves: one lemma a field.
-/
set_option Elab.async false
set_option linter.all false
namespace Sys2Proof.Machine
open Sys2Proof

@[simp] theorem regPut_pending (s : State) (off : Nat) (v : Word) : (regPut s off v).pending = s.pending := rfl
@[simp] theorem regPut_gt (s : State) (off : Nat) (v : Word) : (regPut s off v).gt = s.gt := rfl
@[simp] theorem regPut_free (s : State) (off : Nat) (v : Word) : (regPut s off v).free = s.free := rfl
@[simp] theorem regPut_boots (s : State) (off : Nat) (v : Word) : (regPut s off v).boots = s.boots := rfl
@[simp] theorem regPut_flt (s : State) (off : Nat) (v : Word) : (regPut s off v).flt = s.flt := rfl
@[simp] theorem regPut_inj (s : State) (off : Nat) (v : Word) : (regPut s off v).inj = s.inj := rfl
@[simp] theorem regPut_hostMem (s : State) (off : Nat) (v : Word) : (regPut s off v).hostMem = s.hostMem := rfl
@[simp] theorem regPut_sent (s : State) (off : Nat) (v : Word) : (regPut s off v).sent = s.sent := rfl
@[simp] theorem regPut_ctxs (s : State) (off : Nat) (v : Word) : (regPut s off v).ctxs = s.ctxs := rfl
@[simp] theorem regPut_insts (s : State) (off : Nat) (v : Word) : (regPut s off v).insts = s.insts := rfl
@[simp] theorem regPut_mgmt (s : State) (off : Nat) (v : Word) : (regPut s off v).mgmt = s.mgmt := rfl
@[simp] theorem regPut_arr (s : State) (off : Nat) (v : Word) : (regPut s off v).arr = s.arr := rfl
@[simp] theorem regPut_plc (s : State) (off : Nat) (v : Word) : (regPut s off v).plc = s.plc := rfl
@[simp] theorem regPut_sec (s : State) (off : Nat) (v : Word) : (regPut s off v).sec = s.sec := rfl
@[simp] theorem regPut_rst (s : State) (off : Nat) (v : Word) : (regPut s off v).rst = s.rst := rfl
@[simp] theorem regPut_pair (s : State) (off : Nat) (v : Word) : (regPut s off v).pair = s.pair := rfl
@[simp] theorem regPut_sil (s : State) (off : Nat) (v : Word) : (regPut s off v).sil = s.sil := rfl
@[simp] theorem regPut_fab (s : State) (off : Nat) (v : Word) : (regPut s off v).fab = s.fab := rfl
@[simp] theorem regPut_pwr (s : State) (off : Nat) (v : Word) : (regPut s off v).pwr = s.pwr := rfl
@[simp] theorem regPut_base (s : State) (off : Nat) (v : Word) : (regPut s off v).base = s.base := rfl
@[simp] theorem regPut_mem (s : State) (off : Nat) (v : Word) : (regPut s off v).mem = s.mem := rfl
@[simp] theorem regPut_dma (s : State) (off : Nat) (v : Word) : (regPut s off v).dma = s.dma := rfl
@[simp] theorem regPut_flc (s : State) (off : Nat) (v : Word) : (regPut s off v).flc = s.flc := rfl
@[simp] theorem regPut_tap (s : State) (off : Nat) (v : Word) : (regPut s off v).tap = s.tap := rfl
@[simp] theorem regPut_i3c (s : State) (off : Nat) (v : Word) : (regPut s off v).i3c = s.i3c := rfl

@[simp] theorem noteSet_pending (s : State) (off : Nat) (v : Word) : (noteSet s off v).pending = s.pending := rfl
@[simp] theorem noteSet_gt (s : State) (off : Nat) (v : Word) : (noteSet s off v).gt = s.gt := rfl
@[simp] theorem noteSet_free (s : State) (off : Nat) (v : Word) : (noteSet s off v).free = s.free := rfl
@[simp] theorem noteSet_boots (s : State) (off : Nat) (v : Word) : (noteSet s off v).boots = s.boots := rfl
@[simp] theorem noteSet_flt (s : State) (off : Nat) (v : Word) : (noteSet s off v).flt = s.flt := rfl
@[simp] theorem noteSet_inj (s : State) (off : Nat) (v : Word) : (noteSet s off v).inj = s.inj := rfl
@[simp] theorem noteSet_hostMem (s : State) (off : Nat) (v : Word) : (noteSet s off v).hostMem = s.hostMem := rfl
@[simp] theorem noteSet_sent (s : State) (off : Nat) (v : Word) : (noteSet s off v).sent = s.sent := rfl
@[simp] theorem noteSet_ctxs (s : State) (off : Nat) (v : Word) : (noteSet s off v).ctxs = s.ctxs := rfl
@[simp] theorem noteSet_insts (s : State) (off : Nat) (v : Word) : (noteSet s off v).insts = s.insts := rfl
@[simp] theorem noteSet_mgmt (s : State) (off : Nat) (v : Word) : (noteSet s off v).mgmt = s.mgmt := rfl
@[simp] theorem noteSet_arr (s : State) (off : Nat) (v : Word) : (noteSet s off v).arr = s.arr := rfl
@[simp] theorem noteSet_plc (s : State) (off : Nat) (v : Word) : (noteSet s off v).plc = s.plc := rfl
@[simp] theorem noteSet_sec (s : State) (off : Nat) (v : Word) : (noteSet s off v).sec = s.sec := rfl
@[simp] theorem noteSet_rst (s : State) (off : Nat) (v : Word) : (noteSet s off v).rst = s.rst := rfl
@[simp] theorem noteSet_pair (s : State) (off : Nat) (v : Word) : (noteSet s off v).pair = s.pair := rfl
@[simp] theorem noteSet_sil (s : State) (off : Nat) (v : Word) : (noteSet s off v).sil = s.sil := rfl
@[simp] theorem noteSet_fab (s : State) (off : Nat) (v : Word) : (noteSet s off v).fab = s.fab := rfl
@[simp] theorem noteSet_pwr (s : State) (off : Nat) (v : Word) : (noteSet s off v).pwr = s.pwr := rfl
@[simp] theorem noteSet_base (s : State) (off : Nat) (v : Word) : (noteSet s off v).base = s.base := rfl
@[simp] theorem noteSet_mem (s : State) (off : Nat) (v : Word) : (noteSet s off v).mem = s.mem := rfl
@[simp] theorem noteSet_dma (s : State) (off : Nat) (v : Word) : (noteSet s off v).dma = s.dma := rfl
@[simp] theorem noteSet_flc (s : State) (off : Nat) (v : Word) : (noteSet s off v).flc = s.flc := rfl
@[simp] theorem noteSet_tap (s : State) (off : Nat) (v : Word) : (noteSet s off v).tap = s.tap := rfl
@[simp] theorem noteSet_i3c (s : State) (off : Nat) (v : Word) : (noteSet s off v).i3c = s.i3c := rfl

@[simp] theorem regSetBits_pending (s : State) (off hi lo v : Nat) : (regSetBits s off hi lo v).pending = s.pending := rfl
@[simp] theorem regSetBits_gt (s : State) (off hi lo v : Nat) : (regSetBits s off hi lo v).gt = s.gt := rfl
@[simp] theorem regSetBits_free (s : State) (off hi lo v : Nat) : (regSetBits s off hi lo v).free = s.free := rfl
@[simp] theorem regSetBits_boots (s : State) (off hi lo v : Nat) : (regSetBits s off hi lo v).boots = s.boots := rfl
@[simp] theorem regSetBits_flt (s : State) (off hi lo v : Nat) : (regSetBits s off hi lo v).flt = s.flt := rfl
@[simp] theorem regSetBits_inj (s : State) (off hi lo v : Nat) : (regSetBits s off hi lo v).inj = s.inj := rfl
@[simp] theorem regSetBits_hostMem (s : State) (off hi lo v : Nat) : (regSetBits s off hi lo v).hostMem = s.hostMem := rfl
@[simp] theorem regSetBits_sent (s : State) (off hi lo v : Nat) : (regSetBits s off hi lo v).sent = s.sent := rfl
@[simp] theorem regSetBits_ctxs (s : State) (off hi lo v : Nat) : (regSetBits s off hi lo v).ctxs = s.ctxs := rfl
@[simp] theorem regSetBits_insts (s : State) (off hi lo v : Nat) : (regSetBits s off hi lo v).insts = s.insts := rfl
@[simp] theorem regSetBits_mgmt (s : State) (off hi lo v : Nat) : (regSetBits s off hi lo v).mgmt = s.mgmt := rfl
@[simp] theorem regSetBits_arr (s : State) (off hi lo v : Nat) : (regSetBits s off hi lo v).arr = s.arr := rfl
@[simp] theorem regSetBits_plc (s : State) (off hi lo v : Nat) : (regSetBits s off hi lo v).plc = s.plc := rfl
@[simp] theorem regSetBits_sec (s : State) (off hi lo v : Nat) : (regSetBits s off hi lo v).sec = s.sec := rfl
@[simp] theorem regSetBits_rst (s : State) (off hi lo v : Nat) : (regSetBits s off hi lo v).rst = s.rst := rfl
@[simp] theorem regSetBits_pair (s : State) (off hi lo v : Nat) : (regSetBits s off hi lo v).pair = s.pair := rfl
@[simp] theorem regSetBits_sil (s : State) (off hi lo v : Nat) : (regSetBits s off hi lo v).sil = s.sil := rfl
@[simp] theorem regSetBits_fab (s : State) (off hi lo v : Nat) : (regSetBits s off hi lo v).fab = s.fab := rfl
@[simp] theorem regSetBits_pwr (s : State) (off hi lo v : Nat) : (regSetBits s off hi lo v).pwr = s.pwr := rfl
@[simp] theorem regSetBits_base (s : State) (off hi lo v : Nat) : (regSetBits s off hi lo v).base = s.base := rfl
@[simp] theorem regSetBits_mem (s : State) (off hi lo v : Nat) : (regSetBits s off hi lo v).mem = s.mem := rfl
@[simp] theorem regSetBits_dma (s : State) (off hi lo v : Nat) : (regSetBits s off hi lo v).dma = s.dma := rfl
@[simp] theorem regSetBits_flc (s : State) (off hi lo v : Nat) : (regSetBits s off hi lo v).flc = s.flc := rfl
@[simp] theorem regSetBits_tap (s : State) (off hi lo v : Nat) : (regSetBits s off hi lo v).tap = s.tap := rfl
@[simp] theorem regSetBits_i3c (s : State) (off hi lo v : Nat) : (regSetBits s off hi lo v).i3c = s.i3c := rfl

@[simp] theorem bump_pending (s : State) (off n : Nat) : (bump s off n).pending = s.pending := rfl
@[simp] theorem bump_gt (s : State) (off n : Nat) : (bump s off n).gt = s.gt := rfl
@[simp] theorem bump_free (s : State) (off n : Nat) : (bump s off n).free = s.free := rfl
@[simp] theorem bump_boots (s : State) (off n : Nat) : (bump s off n).boots = s.boots := rfl
@[simp] theorem bump_flt (s : State) (off n : Nat) : (bump s off n).flt = s.flt := rfl
@[simp] theorem bump_inj (s : State) (off n : Nat) : (bump s off n).inj = s.inj := rfl
@[simp] theorem bump_hostMem (s : State) (off n : Nat) : (bump s off n).hostMem = s.hostMem := rfl
@[simp] theorem bump_sent (s : State) (off n : Nat) : (bump s off n).sent = s.sent := rfl
@[simp] theorem bump_ctxs (s : State) (off n : Nat) : (bump s off n).ctxs = s.ctxs := rfl
@[simp] theorem bump_insts (s : State) (off n : Nat) : (bump s off n).insts = s.insts := rfl
@[simp] theorem bump_mgmt (s : State) (off n : Nat) : (bump s off n).mgmt = s.mgmt := rfl
@[simp] theorem bump_arr (s : State) (off n : Nat) : (bump s off n).arr = s.arr := rfl
@[simp] theorem bump_plc (s : State) (off n : Nat) : (bump s off n).plc = s.plc := rfl
@[simp] theorem bump_sec (s : State) (off n : Nat) : (bump s off n).sec = s.sec := rfl
@[simp] theorem bump_rst (s : State) (off n : Nat) : (bump s off n).rst = s.rst := rfl
@[simp] theorem bump_pair (s : State) (off n : Nat) : (bump s off n).pair = s.pair := rfl
@[simp] theorem bump_sil (s : State) (off n : Nat) : (bump s off n).sil = s.sil := rfl
@[simp] theorem bump_fab (s : State) (off n : Nat) : (bump s off n).fab = s.fab := rfl
@[simp] theorem bump_pwr (s : State) (off n : Nat) : (bump s off n).pwr = s.pwr := rfl
@[simp] theorem bump_base (s : State) (off n : Nat) : (bump s off n).base = s.base := rfl
@[simp] theorem bump_mem (s : State) (off n : Nat) : (bump s off n).mem = s.mem := rfl
@[simp] theorem bump_dma (s : State) (off n : Nat) : (bump s off n).dma = s.dma := rfl
@[simp] theorem bump_flc (s : State) (off n : Nat) : (bump s off n).flc = s.flc := rfl
@[simp] theorem bump_tap (s : State) (off n : Nat) : (bump s off n).tap = s.tap := rfl
@[simp] theorem bump_i3c (s : State) (off n : Nat) : (bump s off n).i3c = s.i3c := rfl

@[simp] theorem bump64_pending (s : State) (lo n : Nat) : (bump64 s lo n).pending = s.pending := rfl
@[simp] theorem bump64_gt (s : State) (lo n : Nat) : (bump64 s lo n).gt = s.gt := rfl
@[simp] theorem bump64_free (s : State) (lo n : Nat) : (bump64 s lo n).free = s.free := rfl
@[simp] theorem bump64_boots (s : State) (lo n : Nat) : (bump64 s lo n).boots = s.boots := rfl
@[simp] theorem bump64_flt (s : State) (lo n : Nat) : (bump64 s lo n).flt = s.flt := rfl
@[simp] theorem bump64_inj (s : State) (lo n : Nat) : (bump64 s lo n).inj = s.inj := rfl
@[simp] theorem bump64_hostMem (s : State) (lo n : Nat) : (bump64 s lo n).hostMem = s.hostMem := rfl
@[simp] theorem bump64_sent (s : State) (lo n : Nat) : (bump64 s lo n).sent = s.sent := rfl
@[simp] theorem bump64_ctxs (s : State) (lo n : Nat) : (bump64 s lo n).ctxs = s.ctxs := rfl
@[simp] theorem bump64_insts (s : State) (lo n : Nat) : (bump64 s lo n).insts = s.insts := rfl
@[simp] theorem bump64_mgmt (s : State) (lo n : Nat) : (bump64 s lo n).mgmt = s.mgmt := rfl
@[simp] theorem bump64_arr (s : State) (lo n : Nat) : (bump64 s lo n).arr = s.arr := rfl
@[simp] theorem bump64_plc (s : State) (lo n : Nat) : (bump64 s lo n).plc = s.plc := rfl
@[simp] theorem bump64_sec (s : State) (lo n : Nat) : (bump64 s lo n).sec = s.sec := rfl
@[simp] theorem bump64_rst (s : State) (lo n : Nat) : (bump64 s lo n).rst = s.rst := rfl
@[simp] theorem bump64_pair (s : State) (lo n : Nat) : (bump64 s lo n).pair = s.pair := rfl
@[simp] theorem bump64_sil (s : State) (lo n : Nat) : (bump64 s lo n).sil = s.sil := rfl
@[simp] theorem bump64_fab (s : State) (lo n : Nat) : (bump64 s lo n).fab = s.fab := rfl
@[simp] theorem bump64_pwr (s : State) (lo n : Nat) : (bump64 s lo n).pwr = s.pwr := rfl
@[simp] theorem bump64_base (s : State) (lo n : Nat) : (bump64 s lo n).base = s.base := rfl
@[simp] theorem bump64_mem (s : State) (lo n : Nat) : (bump64 s lo n).mem = s.mem := rfl
@[simp] theorem bump64_dma (s : State) (lo n : Nat) : (bump64 s lo n).dma = s.dma := rfl
@[simp] theorem bump64_flc (s : State) (lo n : Nat) : (bump64 s lo n).flc = s.flc := rfl
@[simp] theorem bump64_tap (s : State) (lo n : Nat) : (bump64 s lo n).tap = s.tap := rfl
@[simp] theorem bump64_i3c (s : State) (lo n : Nat) : (bump64 s lo n).i3c = s.i3c := rfl

@[simp] theorem selPut_pending (s : State) (r : Requester) (off : Nat) (v : Word) : (selPut s r off v).pending = s.pending := rfl
@[simp] theorem selPut_gt (s : State) (r : Requester) (off : Nat) (v : Word) : (selPut s r off v).gt = s.gt := rfl
@[simp] theorem selPut_free (s : State) (r : Requester) (off : Nat) (v : Word) : (selPut s r off v).free = s.free := rfl
@[simp] theorem selPut_boots (s : State) (r : Requester) (off : Nat) (v : Word) : (selPut s r off v).boots = s.boots := rfl
@[simp] theorem selPut_flt (s : State) (r : Requester) (off : Nat) (v : Word) : (selPut s r off v).flt = s.flt := rfl
@[simp] theorem selPut_inj (s : State) (r : Requester) (off : Nat) (v : Word) : (selPut s r off v).inj = s.inj := rfl
@[simp] theorem selPut_hostMem (s : State) (r : Requester) (off : Nat) (v : Word) : (selPut s r off v).hostMem = s.hostMem := rfl
@[simp] theorem selPut_sent (s : State) (r : Requester) (off : Nat) (v : Word) : (selPut s r off v).sent = s.sent := rfl
@[simp] theorem selPut_ctxs (s : State) (r : Requester) (off : Nat) (v : Word) : (selPut s r off v).ctxs = s.ctxs := rfl
@[simp] theorem selPut_insts (s : State) (r : Requester) (off : Nat) (v : Word) : (selPut s r off v).insts = s.insts := rfl
@[simp] theorem selPut_mgmt (s : State) (r : Requester) (off : Nat) (v : Word) : (selPut s r off v).mgmt = s.mgmt := rfl
@[simp] theorem selPut_arr (s : State) (r : Requester) (off : Nat) (v : Word) : (selPut s r off v).arr = s.arr := rfl
@[simp] theorem selPut_plc (s : State) (r : Requester) (off : Nat) (v : Word) : (selPut s r off v).plc = s.plc := rfl
@[simp] theorem selPut_sec (s : State) (r : Requester) (off : Nat) (v : Word) : (selPut s r off v).sec = s.sec := rfl
@[simp] theorem selPut_rst (s : State) (r : Requester) (off : Nat) (v : Word) : (selPut s r off v).rst = s.rst := rfl
@[simp] theorem selPut_pair (s : State) (r : Requester) (off : Nat) (v : Word) : (selPut s r off v).pair = s.pair := rfl
@[simp] theorem selPut_sil (s : State) (r : Requester) (off : Nat) (v : Word) : (selPut s r off v).sil = s.sil := rfl
@[simp] theorem selPut_fab (s : State) (r : Requester) (off : Nat) (v : Word) : (selPut s r off v).fab = s.fab := rfl
@[simp] theorem selPut_pwr (s : State) (r : Requester) (off : Nat) (v : Word) : (selPut s r off v).pwr = s.pwr := rfl
@[simp] theorem selPut_base (s : State) (r : Requester) (off : Nat) (v : Word) : (selPut s r off v).base = s.base := rfl
@[simp] theorem selPut_mem (s : State) (r : Requester) (off : Nat) (v : Word) : (selPut s r off v).mem = s.mem := rfl
@[simp] theorem selPut_dma (s : State) (r : Requester) (off : Nat) (v : Word) : (selPut s r off v).dma = s.dma := rfl
@[simp] theorem selPut_flc (s : State) (r : Requester) (off : Nat) (v : Word) : (selPut s r off v).flc = s.flc := rfl
@[simp] theorem selPut_tap (s : State) (r : Requester) (off : Nat) (v : Word) : (selPut s r off v).tap = s.tap := rfl
@[simp] theorem selPut_i3c (s : State) (r : Requester) (off : Nat) (v : Word) : (selPut s r off v).i3c = s.i3c := rfl

@[simp] theorem logRefused_pending (s : State) (r : Requester) (off : Nat) (data : Word) (status : Nat) : (logRefused s r off data status).pending = s.pending := rfl
@[simp] theorem logRefused_gt (s : State) (r : Requester) (off : Nat) (data : Word) (status : Nat) : (logRefused s r off data status).gt = s.gt := rfl
@[simp] theorem logRefused_free (s : State) (r : Requester) (off : Nat) (data : Word) (status : Nat) : (logRefused s r off data status).free = s.free := rfl
@[simp] theorem logRefused_boots (s : State) (r : Requester) (off : Nat) (data : Word) (status : Nat) : (logRefused s r off data status).boots = s.boots := rfl
@[simp] theorem logRefused_flt (s : State) (r : Requester) (off : Nat) (data : Word) (status : Nat) : (logRefused s r off data status).flt = s.flt := rfl
@[simp] theorem logRefused_inj (s : State) (r : Requester) (off : Nat) (data : Word) (status : Nat) : (logRefused s r off data status).inj = s.inj := rfl
@[simp] theorem logRefused_hostMem (s : State) (r : Requester) (off : Nat) (data : Word) (status : Nat) : (logRefused s r off data status).hostMem = s.hostMem := rfl
@[simp] theorem logRefused_sent (s : State) (r : Requester) (off : Nat) (data : Word) (status : Nat) : (logRefused s r off data status).sent = s.sent := rfl
@[simp] theorem logRefused_ctxs (s : State) (r : Requester) (off : Nat) (data : Word) (status : Nat) : (logRefused s r off data status).ctxs = s.ctxs := rfl
@[simp] theorem logRefused_insts (s : State) (r : Requester) (off : Nat) (data : Word) (status : Nat) : (logRefused s r off data status).insts = s.insts := rfl
@[simp] theorem logRefused_mgmt (s : State) (r : Requester) (off : Nat) (data : Word) (status : Nat) : (logRefused s r off data status).mgmt = s.mgmt := rfl
@[simp] theorem logRefused_arr (s : State) (r : Requester) (off : Nat) (data : Word) (status : Nat) : (logRefused s r off data status).arr = s.arr := rfl
@[simp] theorem logRefused_plc (s : State) (r : Requester) (off : Nat) (data : Word) (status : Nat) : (logRefused s r off data status).plc = s.plc := rfl
@[simp] theorem logRefused_sec (s : State) (r : Requester) (off : Nat) (data : Word) (status : Nat) : (logRefused s r off data status).sec = s.sec := rfl
@[simp] theorem logRefused_rst (s : State) (r : Requester) (off : Nat) (data : Word) (status : Nat) : (logRefused s r off data status).rst = s.rst := rfl
@[simp] theorem logRefused_pair (s : State) (r : Requester) (off : Nat) (data : Word) (status : Nat) : (logRefused s r off data status).pair = s.pair := rfl
@[simp] theorem logRefused_sil (s : State) (r : Requester) (off : Nat) (data : Word) (status : Nat) : (logRefused s r off data status).sil = s.sil := rfl
@[simp] theorem logRefused_fab (s : State) (r : Requester) (off : Nat) (data : Word) (status : Nat) : (logRefused s r off data status).fab = s.fab := rfl
@[simp] theorem logRefused_pwr (s : State) (r : Requester) (off : Nat) (data : Word) (status : Nat) : (logRefused s r off data status).pwr = s.pwr := rfl
@[simp] theorem logRefused_base (s : State) (r : Requester) (off : Nat) (data : Word) (status : Nat) : (logRefused s r off data status).base = s.base := rfl
@[simp] theorem logRefused_mem (s : State) (r : Requester) (off : Nat) (data : Word) (status : Nat) : (logRefused s r off data status).mem = s.mem := rfl
@[simp] theorem logRefused_dma (s : State) (r : Requester) (off : Nat) (data : Word) (status : Nat) : (logRefused s r off data status).dma = s.dma := rfl
@[simp] theorem logRefused_flc (s : State) (r : Requester) (off : Nat) (data : Word) (status : Nat) : (logRefused s r off data status).flc = s.flc := rfl
@[simp] theorem logRefused_tap (s : State) (r : Requester) (off : Nat) (data : Word) (status : Nat) : (logRefused s r off data status).tap = s.tap := rfl
@[simp] theorem logRefused_i3c (s : State) (r : Requester) (off : Nat) (data : Word) (status : Nat) : (logRefused s r off data status).i3c = s.i3c := rfl

@[simp] theorem send_pending (s : State) (m : Sent) : (send s m).pending = s.pending := rfl
@[simp] theorem send_gt (s : State) (m : Sent) : (send s m).gt = s.gt := rfl
@[simp] theorem send_free (s : State) (m : Sent) : (send s m).free = s.free := rfl
@[simp] theorem send_boots (s : State) (m : Sent) : (send s m).boots = s.boots := rfl
@[simp] theorem send_rf (s : State) (m : Sent) : (send s m).rf = s.rf := rfl
@[simp] theorem send_flt (s : State) (m : Sent) : (send s m).flt = s.flt := rfl
@[simp] theorem send_inj (s : State) (m : Sent) : (send s m).inj = s.inj := rfl
@[simp] theorem send_hostMem (s : State) (m : Sent) : (send s m).hostMem = s.hostMem := rfl
@[simp] theorem send_ctxs (s : State) (m : Sent) : (send s m).ctxs = s.ctxs := rfl
@[simp] theorem send_insts (s : State) (m : Sent) : (send s m).insts = s.insts := rfl
@[simp] theorem send_mgmt (s : State) (m : Sent) : (send s m).mgmt = s.mgmt := rfl
@[simp] theorem send_arr (s : State) (m : Sent) : (send s m).arr = s.arr := rfl
@[simp] theorem send_plc (s : State) (m : Sent) : (send s m).plc = s.plc := rfl
@[simp] theorem send_sec (s : State) (m : Sent) : (send s m).sec = s.sec := rfl
@[simp] theorem send_rst (s : State) (m : Sent) : (send s m).rst = s.rst := rfl
@[simp] theorem send_pair (s : State) (m : Sent) : (send s m).pair = s.pair := rfl
@[simp] theorem send_sil (s : State) (m : Sent) : (send s m).sil = s.sil := rfl
@[simp] theorem send_fab (s : State) (m : Sent) : (send s m).fab = s.fab := rfl
@[simp] theorem send_pwr (s : State) (m : Sent) : (send s m).pwr = s.pwr := rfl
@[simp] theorem send_base (s : State) (m : Sent) : (send s m).base = s.base := rfl
@[simp] theorem send_mem (s : State) (m : Sent) : (send s m).mem = s.mem := rfl
@[simp] theorem send_dma (s : State) (m : Sent) : (send s m).dma = s.dma := rfl
@[simp] theorem send_flc (s : State) (m : Sent) : (send s m).flc = s.flc := rfl
@[simp] theorem send_tap (s : State) (m : Sent) : (send s m).tap = s.tap := rfl
@[simp] theorem send_i3c (s : State) (m : Sent) : (send s m).i3c = s.i3c := rfl

@[simp] theorem setCtx_pending (s : State) (c : Nat) (k : Ctx) : (setCtx s c k).pending = s.pending := rfl
@[simp] theorem setCtx_gt (s : State) (c : Nat) (k : Ctx) : (setCtx s c k).gt = s.gt := rfl
@[simp] theorem setCtx_free (s : State) (c : Nat) (k : Ctx) : (setCtx s c k).free = s.free := rfl
@[simp] theorem setCtx_boots (s : State) (c : Nat) (k : Ctx) : (setCtx s c k).boots = s.boots := rfl
@[simp] theorem setCtx_rf (s : State) (c : Nat) (k : Ctx) : (setCtx s c k).rf = s.rf := rfl
@[simp] theorem setCtx_flt (s : State) (c : Nat) (k : Ctx) : (setCtx s c k).flt = s.flt := rfl
@[simp] theorem setCtx_inj (s : State) (c : Nat) (k : Ctx) : (setCtx s c k).inj = s.inj := rfl
@[simp] theorem setCtx_hostMem (s : State) (c : Nat) (k : Ctx) : (setCtx s c k).hostMem = s.hostMem := rfl
@[simp] theorem setCtx_sent (s : State) (c : Nat) (k : Ctx) : (setCtx s c k).sent = s.sent := rfl
@[simp] theorem setCtx_insts (s : State) (c : Nat) (k : Ctx) : (setCtx s c k).insts = s.insts := rfl
@[simp] theorem setCtx_mgmt (s : State) (c : Nat) (k : Ctx) : (setCtx s c k).mgmt = s.mgmt := rfl
@[simp] theorem setCtx_arr (s : State) (c : Nat) (k : Ctx) : (setCtx s c k).arr = s.arr := rfl
@[simp] theorem setCtx_plc (s : State) (c : Nat) (k : Ctx) : (setCtx s c k).plc = s.plc := rfl
@[simp] theorem setCtx_sec (s : State) (c : Nat) (k : Ctx) : (setCtx s c k).sec = s.sec := rfl
@[simp] theorem setCtx_rst (s : State) (c : Nat) (k : Ctx) : (setCtx s c k).rst = s.rst := rfl
@[simp] theorem setCtx_pair (s : State) (c : Nat) (k : Ctx) : (setCtx s c k).pair = s.pair := rfl
@[simp] theorem setCtx_sil (s : State) (c : Nat) (k : Ctx) : (setCtx s c k).sil = s.sil := rfl
@[simp] theorem setCtx_fab (s : State) (c : Nat) (k : Ctx) : (setCtx s c k).fab = s.fab := rfl
@[simp] theorem setCtx_pwr (s : State) (c : Nat) (k : Ctx) : (setCtx s c k).pwr = s.pwr := rfl
@[simp] theorem setCtx_base (s : State) (c : Nat) (k : Ctx) : (setCtx s c k).base = s.base := rfl
@[simp] theorem setCtx_mem (s : State) (c : Nat) (k : Ctx) : (setCtx s c k).mem = s.mem := rfl
@[simp] theorem setCtx_dma (s : State) (c : Nat) (k : Ctx) : (setCtx s c k).dma = s.dma := rfl
@[simp] theorem setCtx_flc (s : State) (c : Nat) (k : Ctx) : (setCtx s c k).flc = s.flc := rfl
@[simp] theorem setCtx_tap (s : State) (c : Nat) (k : Ctx) : (setCtx s c k).tap = s.tap := rfl
@[simp] theorem setCtx_i3c (s : State) (c : Nat) (k : Ctx) : (setCtx s c k).i3c = s.i3c := rfl

@[simp] theorem modCtx_pending (s : State) (c : Nat) (f : Ctx → Ctx) : (modCtx s c f).pending = s.pending := rfl
@[simp] theorem modCtx_gt (s : State) (c : Nat) (f : Ctx → Ctx) : (modCtx s c f).gt = s.gt := rfl
@[simp] theorem modCtx_free (s : State) (c : Nat) (f : Ctx → Ctx) : (modCtx s c f).free = s.free := rfl
@[simp] theorem modCtx_boots (s : State) (c : Nat) (f : Ctx → Ctx) : (modCtx s c f).boots = s.boots := rfl
@[simp] theorem modCtx_rf (s : State) (c : Nat) (f : Ctx → Ctx) : (modCtx s c f).rf = s.rf := rfl
@[simp] theorem modCtx_flt (s : State) (c : Nat) (f : Ctx → Ctx) : (modCtx s c f).flt = s.flt := rfl
@[simp] theorem modCtx_inj (s : State) (c : Nat) (f : Ctx → Ctx) : (modCtx s c f).inj = s.inj := rfl
@[simp] theorem modCtx_hostMem (s : State) (c : Nat) (f : Ctx → Ctx) : (modCtx s c f).hostMem = s.hostMem := rfl
@[simp] theorem modCtx_sent (s : State) (c : Nat) (f : Ctx → Ctx) : (modCtx s c f).sent = s.sent := rfl
@[simp] theorem modCtx_insts (s : State) (c : Nat) (f : Ctx → Ctx) : (modCtx s c f).insts = s.insts := rfl
@[simp] theorem modCtx_mgmt (s : State) (c : Nat) (f : Ctx → Ctx) : (modCtx s c f).mgmt = s.mgmt := rfl
@[simp] theorem modCtx_arr (s : State) (c : Nat) (f : Ctx → Ctx) : (modCtx s c f).arr = s.arr := rfl
@[simp] theorem modCtx_plc (s : State) (c : Nat) (f : Ctx → Ctx) : (modCtx s c f).plc = s.plc := rfl
@[simp] theorem modCtx_sec (s : State) (c : Nat) (f : Ctx → Ctx) : (modCtx s c f).sec = s.sec := rfl
@[simp] theorem modCtx_rst (s : State) (c : Nat) (f : Ctx → Ctx) : (modCtx s c f).rst = s.rst := rfl
@[simp] theorem modCtx_pair (s : State) (c : Nat) (f : Ctx → Ctx) : (modCtx s c f).pair = s.pair := rfl
@[simp] theorem modCtx_sil (s : State) (c : Nat) (f : Ctx → Ctx) : (modCtx s c f).sil = s.sil := rfl
@[simp] theorem modCtx_fab (s : State) (c : Nat) (f : Ctx → Ctx) : (modCtx s c f).fab = s.fab := rfl
@[simp] theorem modCtx_pwr (s : State) (c : Nat) (f : Ctx → Ctx) : (modCtx s c f).pwr = s.pwr := rfl
@[simp] theorem modCtx_base (s : State) (c : Nat) (f : Ctx → Ctx) : (modCtx s c f).base = s.base := rfl
@[simp] theorem modCtx_mem (s : State) (c : Nat) (f : Ctx → Ctx) : (modCtx s c f).mem = s.mem := rfl
@[simp] theorem modCtx_dma (s : State) (c : Nat) (f : Ctx → Ctx) : (modCtx s c f).dma = s.dma := rfl
@[simp] theorem modCtx_flc (s : State) (c : Nat) (f : Ctx → Ctx) : (modCtx s c f).flc = s.flc := rfl
@[simp] theorem modCtx_tap (s : State) (c : Nat) (f : Ctx → Ctx) : (modCtx s c f).tap = s.tap := rfl
@[simp] theorem modCtx_i3c (s : State) (c : Nat) (f : Ctx → Ctx) : (modCtx s c f).i3c = s.i3c := rfl

@[simp] theorem hostWrite_pending (s : State) (space addr : Nat) (bs : List Byte) : (hostWrite s space addr bs).pending = s.pending := rfl
@[simp] theorem hostWrite_gt (s : State) (space addr : Nat) (bs : List Byte) : (hostWrite s space addr bs).gt = s.gt := rfl
@[simp] theorem hostWrite_free (s : State) (space addr : Nat) (bs : List Byte) : (hostWrite s space addr bs).free = s.free := rfl
@[simp] theorem hostWrite_boots (s : State) (space addr : Nat) (bs : List Byte) : (hostWrite s space addr bs).boots = s.boots := rfl
@[simp] theorem hostWrite_rf (s : State) (space addr : Nat) (bs : List Byte) : (hostWrite s space addr bs).rf = s.rf := rfl
@[simp] theorem hostWrite_flt (s : State) (space addr : Nat) (bs : List Byte) : (hostWrite s space addr bs).flt = s.flt := rfl
@[simp] theorem hostWrite_inj (s : State) (space addr : Nat) (bs : List Byte) : (hostWrite s space addr bs).inj = s.inj := rfl
@[simp] theorem hostWrite_sent (s : State) (space addr : Nat) (bs : List Byte) : (hostWrite s space addr bs).sent = s.sent := rfl
@[simp] theorem hostWrite_ctxs (s : State) (space addr : Nat) (bs : List Byte) : (hostWrite s space addr bs).ctxs = s.ctxs := rfl
@[simp] theorem hostWrite_insts (s : State) (space addr : Nat) (bs : List Byte) : (hostWrite s space addr bs).insts = s.insts := rfl
@[simp] theorem hostWrite_mgmt (s : State) (space addr : Nat) (bs : List Byte) : (hostWrite s space addr bs).mgmt = s.mgmt := rfl
@[simp] theorem hostWrite_arr (s : State) (space addr : Nat) (bs : List Byte) : (hostWrite s space addr bs).arr = s.arr := rfl
@[simp] theorem hostWrite_plc (s : State) (space addr : Nat) (bs : List Byte) : (hostWrite s space addr bs).plc = s.plc := rfl
@[simp] theorem hostWrite_sec (s : State) (space addr : Nat) (bs : List Byte) : (hostWrite s space addr bs).sec = s.sec := rfl
@[simp] theorem hostWrite_rst (s : State) (space addr : Nat) (bs : List Byte) : (hostWrite s space addr bs).rst = s.rst := rfl
@[simp] theorem hostWrite_pair (s : State) (space addr : Nat) (bs : List Byte) : (hostWrite s space addr bs).pair = s.pair := rfl
@[simp] theorem hostWrite_sil (s : State) (space addr : Nat) (bs : List Byte) : (hostWrite s space addr bs).sil = s.sil := rfl
@[simp] theorem hostWrite_fab (s : State) (space addr : Nat) (bs : List Byte) : (hostWrite s space addr bs).fab = s.fab := rfl
@[simp] theorem hostWrite_pwr (s : State) (space addr : Nat) (bs : List Byte) : (hostWrite s space addr bs).pwr = s.pwr := rfl
@[simp] theorem hostWrite_base (s : State) (space addr : Nat) (bs : List Byte) : (hostWrite s space addr bs).base = s.base := rfl
@[simp] theorem hostWrite_mem (s : State) (space addr : Nat) (bs : List Byte) : (hostWrite s space addr bs).mem = s.mem := rfl
@[simp] theorem hostWrite_dma (s : State) (space addr : Nat) (bs : List Byte) : (hostWrite s space addr bs).dma = s.dma := rfl
@[simp] theorem hostWrite_flc (s : State) (space addr : Nat) (bs : List Byte) : (hostWrite s space addr bs).flc = s.flc := rfl
@[simp] theorem hostWrite_tap (s : State) (space addr : Nat) (bs : List Byte) : (hostWrite s space addr bs).tap = s.tap := rfl
@[simp] theorem hostWrite_i3c (s : State) (space addr : Nat) (bs : List Byte) : (hostWrite s space addr bs).i3c = s.i3c := rfl

@[simp] theorem setDom_pending (s : State) (d : Nat) (x : Dom) : (setDom s d x).pending = s.pending := rfl
@[simp] theorem setDom_gt (s : State) (d : Nat) (x : Dom) : (setDom s d x).gt = s.gt := rfl
@[simp] theorem setDom_free (s : State) (d : Nat) (x : Dom) : (setDom s d x).free = s.free := rfl
@[simp] theorem setDom_boots (s : State) (d : Nat) (x : Dom) : (setDom s d x).boots = s.boots := rfl
@[simp] theorem setDom_rf (s : State) (d : Nat) (x : Dom) : (setDom s d x).rf = s.rf := rfl
@[simp] theorem setDom_flt (s : State) (d : Nat) (x : Dom) : (setDom s d x).flt = s.flt := rfl
@[simp] theorem setDom_inj (s : State) (d : Nat) (x : Dom) : (setDom s d x).inj = s.inj := rfl
@[simp] theorem setDom_hostMem (s : State) (d : Nat) (x : Dom) : (setDom s d x).hostMem = s.hostMem := rfl
@[simp] theorem setDom_sent (s : State) (d : Nat) (x : Dom) : (setDom s d x).sent = s.sent := rfl
@[simp] theorem setDom_ctxs (s : State) (d : Nat) (x : Dom) : (setDom s d x).ctxs = s.ctxs := rfl
@[simp] theorem setDom_insts (s : State) (d : Nat) (x : Dom) : (setDom s d x).insts = s.insts := rfl
@[simp] theorem setDom_mgmt (s : State) (d : Nat) (x : Dom) : (setDom s d x).mgmt = s.mgmt := rfl
@[simp] theorem setDom_plc (s : State) (d : Nat) (x : Dom) : (setDom s d x).plc = s.plc := rfl
@[simp] theorem setDom_sec (s : State) (d : Nat) (x : Dom) : (setDom s d x).sec = s.sec := rfl
@[simp] theorem setDom_rst (s : State) (d : Nat) (x : Dom) : (setDom s d x).rst = s.rst := rfl
@[simp] theorem setDom_pair (s : State) (d : Nat) (x : Dom) : (setDom s d x).pair = s.pair := rfl
@[simp] theorem setDom_sil (s : State) (d : Nat) (x : Dom) : (setDom s d x).sil = s.sil := rfl
@[simp] theorem setDom_fab (s : State) (d : Nat) (x : Dom) : (setDom s d x).fab = s.fab := rfl
@[simp] theorem setDom_pwr (s : State) (d : Nat) (x : Dom) : (setDom s d x).pwr = s.pwr := rfl
@[simp] theorem setDom_base (s : State) (d : Nat) (x : Dom) : (setDom s d x).base = s.base := rfl
@[simp] theorem setDom_mem (s : State) (d : Nat) (x : Dom) : (setDom s d x).mem = s.mem := rfl
@[simp] theorem setDom_dma (s : State) (d : Nat) (x : Dom) : (setDom s d x).dma = s.dma := rfl
@[simp] theorem setDom_flc (s : State) (d : Nat) (x : Dom) : (setDom s d x).flc = s.flc := rfl
@[simp] theorem setDom_tap (s : State) (d : Nat) (x : Dom) : (setDom s d x).tap = s.tap := rfl
@[simp] theorem setDom_i3c (s : State) (d : Nat) (x : Dom) : (setDom s d x).i3c = s.i3c := rfl

@[simp] theorem modDom_pending (s : State) (d : Nat) (f : Dom → Dom) : (modDom s d f).pending = s.pending := rfl
@[simp] theorem modDom_gt (s : State) (d : Nat) (f : Dom → Dom) : (modDom s d f).gt = s.gt := rfl
@[simp] theorem modDom_free (s : State) (d : Nat) (f : Dom → Dom) : (modDom s d f).free = s.free := rfl
@[simp] theorem modDom_boots (s : State) (d : Nat) (f : Dom → Dom) : (modDom s d f).boots = s.boots := rfl
@[simp] theorem modDom_rf (s : State) (d : Nat) (f : Dom → Dom) : (modDom s d f).rf = s.rf := rfl
@[simp] theorem modDom_flt (s : State) (d : Nat) (f : Dom → Dom) : (modDom s d f).flt = s.flt := rfl
@[simp] theorem modDom_inj (s : State) (d : Nat) (f : Dom → Dom) : (modDom s d f).inj = s.inj := rfl
@[simp] theorem modDom_hostMem (s : State) (d : Nat) (f : Dom → Dom) : (modDom s d f).hostMem = s.hostMem := rfl
@[simp] theorem modDom_sent (s : State) (d : Nat) (f : Dom → Dom) : (modDom s d f).sent = s.sent := rfl
@[simp] theorem modDom_ctxs (s : State) (d : Nat) (f : Dom → Dom) : (modDom s d f).ctxs = s.ctxs := rfl
@[simp] theorem modDom_insts (s : State) (d : Nat) (f : Dom → Dom) : (modDom s d f).insts = s.insts := rfl
@[simp] theorem modDom_mgmt (s : State) (d : Nat) (f : Dom → Dom) : (modDom s d f).mgmt = s.mgmt := rfl
@[simp] theorem modDom_plc (s : State) (d : Nat) (f : Dom → Dom) : (modDom s d f).plc = s.plc := rfl
@[simp] theorem modDom_sec (s : State) (d : Nat) (f : Dom → Dom) : (modDom s d f).sec = s.sec := rfl
@[simp] theorem modDom_rst (s : State) (d : Nat) (f : Dom → Dom) : (modDom s d f).rst = s.rst := rfl
@[simp] theorem modDom_pair (s : State) (d : Nat) (f : Dom → Dom) : (modDom s d f).pair = s.pair := rfl
@[simp] theorem modDom_sil (s : State) (d : Nat) (f : Dom → Dom) : (modDom s d f).sil = s.sil := rfl
@[simp] theorem modDom_fab (s : State) (d : Nat) (f : Dom → Dom) : (modDom s d f).fab = s.fab := rfl
@[simp] theorem modDom_pwr (s : State) (d : Nat) (f : Dom → Dom) : (modDom s d f).pwr = s.pwr := rfl
@[simp] theorem modDom_base (s : State) (d : Nat) (f : Dom → Dom) : (modDom s d f).base = s.base := rfl
@[simp] theorem modDom_mem (s : State) (d : Nat) (f : Dom → Dom) : (modDom s d f).mem = s.mem := rfl
@[simp] theorem modDom_dma (s : State) (d : Nat) (f : Dom → Dom) : (modDom s d f).dma = s.dma := rfl
@[simp] theorem modDom_flc (s : State) (d : Nat) (f : Dom → Dom) : (modDom s d f).flc = s.flc := rfl
@[simp] theorem modDom_tap (s : State) (d : Nat) (f : Dom → Dom) : (modDom s d f).tap = s.tap := rfl
@[simp] theorem modDom_i3c (s : State) (d : Nat) (f : Dom → Dom) : (modDom s d f).i3c = s.i3c := rfl

@[simp] theorem setStack_pending (s : State) (n : Nat) (x : Stack) : (setStack s n x).pending = s.pending := rfl
@[simp] theorem setStack_gt (s : State) (n : Nat) (x : Stack) : (setStack s n x).gt = s.gt := rfl
@[simp] theorem setStack_free (s : State) (n : Nat) (x : Stack) : (setStack s n x).free = s.free := rfl
@[simp] theorem setStack_boots (s : State) (n : Nat) (x : Stack) : (setStack s n x).boots = s.boots := rfl
@[simp] theorem setStack_rf (s : State) (n : Nat) (x : Stack) : (setStack s n x).rf = s.rf := rfl
@[simp] theorem setStack_flt (s : State) (n : Nat) (x : Stack) : (setStack s n x).flt = s.flt := rfl
@[simp] theorem setStack_inj (s : State) (n : Nat) (x : Stack) : (setStack s n x).inj = s.inj := rfl
@[simp] theorem setStack_hostMem (s : State) (n : Nat) (x : Stack) : (setStack s n x).hostMem = s.hostMem := rfl
@[simp] theorem setStack_sent (s : State) (n : Nat) (x : Stack) : (setStack s n x).sent = s.sent := rfl
@[simp] theorem setStack_ctxs (s : State) (n : Nat) (x : Stack) : (setStack s n x).ctxs = s.ctxs := rfl
@[simp] theorem setStack_insts (s : State) (n : Nat) (x : Stack) : (setStack s n x).insts = s.insts := rfl
@[simp] theorem setStack_mgmt (s : State) (n : Nat) (x : Stack) : (setStack s n x).mgmt = s.mgmt := rfl
@[simp] theorem setStack_plc (s : State) (n : Nat) (x : Stack) : (setStack s n x).plc = s.plc := rfl
@[simp] theorem setStack_sec (s : State) (n : Nat) (x : Stack) : (setStack s n x).sec = s.sec := rfl
@[simp] theorem setStack_rst (s : State) (n : Nat) (x : Stack) : (setStack s n x).rst = s.rst := rfl
@[simp] theorem setStack_pair (s : State) (n : Nat) (x : Stack) : (setStack s n x).pair = s.pair := rfl
@[simp] theorem setStack_sil (s : State) (n : Nat) (x : Stack) : (setStack s n x).sil = s.sil := rfl
@[simp] theorem setStack_fab (s : State) (n : Nat) (x : Stack) : (setStack s n x).fab = s.fab := rfl
@[simp] theorem setStack_pwr (s : State) (n : Nat) (x : Stack) : (setStack s n x).pwr = s.pwr := rfl
@[simp] theorem setStack_base (s : State) (n : Nat) (x : Stack) : (setStack s n x).base = s.base := rfl
@[simp] theorem setStack_mem (s : State) (n : Nat) (x : Stack) : (setStack s n x).mem = s.mem := rfl
@[simp] theorem setStack_dma (s : State) (n : Nat) (x : Stack) : (setStack s n x).dma = s.dma := rfl
@[simp] theorem setStack_flc (s : State) (n : Nat) (x : Stack) : (setStack s n x).flc = s.flc := rfl
@[simp] theorem setStack_tap (s : State) (n : Nat) (x : Stack) : (setStack s n x).tap = s.tap := rfl
@[simp] theorem setStack_i3c (s : State) (n : Nat) (x : Stack) : (setStack s n x).i3c = s.i3c := rfl

@[simp] theorem modStack_pending (s : State) (n : Nat) (f : Stack → Stack) : (modStack s n f).pending = s.pending := rfl
@[simp] theorem modStack_gt (s : State) (n : Nat) (f : Stack → Stack) : (modStack s n f).gt = s.gt := rfl
@[simp] theorem modStack_free (s : State) (n : Nat) (f : Stack → Stack) : (modStack s n f).free = s.free := rfl
@[simp] theorem modStack_boots (s : State) (n : Nat) (f : Stack → Stack) : (modStack s n f).boots = s.boots := rfl
@[simp] theorem modStack_rf (s : State) (n : Nat) (f : Stack → Stack) : (modStack s n f).rf = s.rf := rfl
@[simp] theorem modStack_flt (s : State) (n : Nat) (f : Stack → Stack) : (modStack s n f).flt = s.flt := rfl
@[simp] theorem modStack_inj (s : State) (n : Nat) (f : Stack → Stack) : (modStack s n f).inj = s.inj := rfl
@[simp] theorem modStack_hostMem (s : State) (n : Nat) (f : Stack → Stack) : (modStack s n f).hostMem = s.hostMem := rfl
@[simp] theorem modStack_sent (s : State) (n : Nat) (f : Stack → Stack) : (modStack s n f).sent = s.sent := rfl
@[simp] theorem modStack_ctxs (s : State) (n : Nat) (f : Stack → Stack) : (modStack s n f).ctxs = s.ctxs := rfl
@[simp] theorem modStack_insts (s : State) (n : Nat) (f : Stack → Stack) : (modStack s n f).insts = s.insts := rfl
@[simp] theorem modStack_mgmt (s : State) (n : Nat) (f : Stack → Stack) : (modStack s n f).mgmt = s.mgmt := rfl
@[simp] theorem modStack_plc (s : State) (n : Nat) (f : Stack → Stack) : (modStack s n f).plc = s.plc := rfl
@[simp] theorem modStack_sec (s : State) (n : Nat) (f : Stack → Stack) : (modStack s n f).sec = s.sec := rfl
@[simp] theorem modStack_rst (s : State) (n : Nat) (f : Stack → Stack) : (modStack s n f).rst = s.rst := rfl
@[simp] theorem modStack_pair (s : State) (n : Nat) (f : Stack → Stack) : (modStack s n f).pair = s.pair := rfl
@[simp] theorem modStack_sil (s : State) (n : Nat) (f : Stack → Stack) : (modStack s n f).sil = s.sil := rfl
@[simp] theorem modStack_fab (s : State) (n : Nat) (f : Stack → Stack) : (modStack s n f).fab = s.fab := rfl
@[simp] theorem modStack_pwr (s : State) (n : Nat) (f : Stack → Stack) : (modStack s n f).pwr = s.pwr := rfl
@[simp] theorem modStack_base (s : State) (n : Nat) (f : Stack → Stack) : (modStack s n f).base = s.base := rfl
@[simp] theorem modStack_mem (s : State) (n : Nat) (f : Stack → Stack) : (modStack s n f).mem = s.mem := rfl
@[simp] theorem modStack_dma (s : State) (n : Nat) (f : Stack → Stack) : (modStack s n f).dma = s.dma := rfl
@[simp] theorem modStack_flc (s : State) (n : Nat) (f : Stack → Stack) : (modStack s n f).flc = s.flc := rfl
@[simp] theorem modStack_tap (s : State) (n : Nat) (f : Stack → Stack) : (modStack s n f).tap = s.tap := rfl
@[simp] theorem modStack_i3c (s : State) (n : Nat) (f : Stack → Stack) : (modStack s n f).i3c = s.i3c := rfl

@[simp] theorem setDie_pending (s : State) (i : Nat) (x : Die) : (setDie s i x).pending = s.pending := rfl
@[simp] theorem setDie_gt (s : State) (i : Nat) (x : Die) : (setDie s i x).gt = s.gt := rfl
@[simp] theorem setDie_free (s : State) (i : Nat) (x : Die) : (setDie s i x).free = s.free := rfl
@[simp] theorem setDie_boots (s : State) (i : Nat) (x : Die) : (setDie s i x).boots = s.boots := rfl
@[simp] theorem setDie_rf (s : State) (i : Nat) (x : Die) : (setDie s i x).rf = s.rf := rfl
@[simp] theorem setDie_flt (s : State) (i : Nat) (x : Die) : (setDie s i x).flt = s.flt := rfl
@[simp] theorem setDie_inj (s : State) (i : Nat) (x : Die) : (setDie s i x).inj = s.inj := rfl
@[simp] theorem setDie_hostMem (s : State) (i : Nat) (x : Die) : (setDie s i x).hostMem = s.hostMem := rfl
@[simp] theorem setDie_sent (s : State) (i : Nat) (x : Die) : (setDie s i x).sent = s.sent := rfl
@[simp] theorem setDie_ctxs (s : State) (i : Nat) (x : Die) : (setDie s i x).ctxs = s.ctxs := rfl
@[simp] theorem setDie_insts (s : State) (i : Nat) (x : Die) : (setDie s i x).insts = s.insts := rfl
@[simp] theorem setDie_mgmt (s : State) (i : Nat) (x : Die) : (setDie s i x).mgmt = s.mgmt := rfl
@[simp] theorem setDie_plc (s : State) (i : Nat) (x : Die) : (setDie s i x).plc = s.plc := rfl
@[simp] theorem setDie_sec (s : State) (i : Nat) (x : Die) : (setDie s i x).sec = s.sec := rfl
@[simp] theorem setDie_rst (s : State) (i : Nat) (x : Die) : (setDie s i x).rst = s.rst := rfl
@[simp] theorem setDie_pair (s : State) (i : Nat) (x : Die) : (setDie s i x).pair = s.pair := rfl
@[simp] theorem setDie_sil (s : State) (i : Nat) (x : Die) : (setDie s i x).sil = s.sil := rfl
@[simp] theorem setDie_fab (s : State) (i : Nat) (x : Die) : (setDie s i x).fab = s.fab := rfl
@[simp] theorem setDie_pwr (s : State) (i : Nat) (x : Die) : (setDie s i x).pwr = s.pwr := rfl
@[simp] theorem setDie_base (s : State) (i : Nat) (x : Die) : (setDie s i x).base = s.base := rfl
@[simp] theorem setDie_mem (s : State) (i : Nat) (x : Die) : (setDie s i x).mem = s.mem := rfl
@[simp] theorem setDie_dma (s : State) (i : Nat) (x : Die) : (setDie s i x).dma = s.dma := rfl
@[simp] theorem setDie_flc (s : State) (i : Nat) (x : Die) : (setDie s i x).flc = s.flc := rfl
@[simp] theorem setDie_tap (s : State) (i : Nat) (x : Die) : (setDie s i x).tap = s.tap := rfl
@[simp] theorem setDie_i3c (s : State) (i : Nat) (x : Die) : (setDie s i x).i3c = s.i3c := rfl

@[simp] theorem modDie_pending (s : State) (i : Nat) (f : Die → Die) : (modDie s i f).pending = s.pending := rfl
@[simp] theorem modDie_gt (s : State) (i : Nat) (f : Die → Die) : (modDie s i f).gt = s.gt := rfl
@[simp] theorem modDie_free (s : State) (i : Nat) (f : Die → Die) : (modDie s i f).free = s.free := rfl
@[simp] theorem modDie_boots (s : State) (i : Nat) (f : Die → Die) : (modDie s i f).boots = s.boots := rfl
@[simp] theorem modDie_rf (s : State) (i : Nat) (f : Die → Die) : (modDie s i f).rf = s.rf := rfl
@[simp] theorem modDie_flt (s : State) (i : Nat) (f : Die → Die) : (modDie s i f).flt = s.flt := rfl
@[simp] theorem modDie_inj (s : State) (i : Nat) (f : Die → Die) : (modDie s i f).inj = s.inj := rfl
@[simp] theorem modDie_hostMem (s : State) (i : Nat) (f : Die → Die) : (modDie s i f).hostMem = s.hostMem := rfl
@[simp] theorem modDie_sent (s : State) (i : Nat) (f : Die → Die) : (modDie s i f).sent = s.sent := rfl
@[simp] theorem modDie_ctxs (s : State) (i : Nat) (f : Die → Die) : (modDie s i f).ctxs = s.ctxs := rfl
@[simp] theorem modDie_insts (s : State) (i : Nat) (f : Die → Die) : (modDie s i f).insts = s.insts := rfl
@[simp] theorem modDie_mgmt (s : State) (i : Nat) (f : Die → Die) : (modDie s i f).mgmt = s.mgmt := rfl
@[simp] theorem modDie_plc (s : State) (i : Nat) (f : Die → Die) : (modDie s i f).plc = s.plc := rfl
@[simp] theorem modDie_sec (s : State) (i : Nat) (f : Die → Die) : (modDie s i f).sec = s.sec := rfl
@[simp] theorem modDie_rst (s : State) (i : Nat) (f : Die → Die) : (modDie s i f).rst = s.rst := rfl
@[simp] theorem modDie_pair (s : State) (i : Nat) (f : Die → Die) : (modDie s i f).pair = s.pair := rfl
@[simp] theorem modDie_sil (s : State) (i : Nat) (f : Die → Die) : (modDie s i f).sil = s.sil := rfl
@[simp] theorem modDie_fab (s : State) (i : Nat) (f : Die → Die) : (modDie s i f).fab = s.fab := rfl
@[simp] theorem modDie_pwr (s : State) (i : Nat) (f : Die → Die) : (modDie s i f).pwr = s.pwr := rfl
@[simp] theorem modDie_base (s : State) (i : Nat) (f : Die → Die) : (modDie s i f).base = s.base := rfl
@[simp] theorem modDie_mem (s : State) (i : Nat) (f : Die → Die) : (modDie s i f).mem = s.mem := rfl
@[simp] theorem modDie_dma (s : State) (i : Nat) (f : Die → Die) : (modDie s i f).dma = s.dma := rfl
@[simp] theorem modDie_flc (s : State) (i : Nat) (f : Die → Die) : (modDie s i f).flc = s.flc := rfl
@[simp] theorem modDie_tap (s : State) (i : Nat) (f : Die → Die) : (modDie s i f).tap = s.tap := rfl
@[simp] theorem modDie_i3c (s : State) (i : Nat) (f : Die → Die) : (modDie s i f).i3c = s.i3c := rfl

@[simp] theorem appendRecord_pending (s : State) (r : FaultRec) : (appendRecord s r).pending = s.pending := rfl
@[simp] theorem appendRecord_gt (s : State) (r : FaultRec) : (appendRecord s r).gt = s.gt := rfl
@[simp] theorem appendRecord_free (s : State) (r : FaultRec) : (appendRecord s r).free = s.free := rfl
@[simp] theorem appendRecord_boots (s : State) (r : FaultRec) : (appendRecord s r).boots = s.boots := rfl
@[simp] theorem appendRecord_rf (s : State) (r : FaultRec) : (appendRecord s r).rf = s.rf := rfl
@[simp] theorem appendRecord_inj (s : State) (r : FaultRec) : (appendRecord s r).inj = s.inj := rfl
@[simp] theorem appendRecord_hostMem (s : State) (r : FaultRec) : (appendRecord s r).hostMem = s.hostMem := rfl
@[simp] theorem appendRecord_sent (s : State) (r : FaultRec) : (appendRecord s r).sent = s.sent := rfl
@[simp] theorem appendRecord_ctxs (s : State) (r : FaultRec) : (appendRecord s r).ctxs = s.ctxs := rfl
@[simp] theorem appendRecord_insts (s : State) (r : FaultRec) : (appendRecord s r).insts = s.insts := rfl
@[simp] theorem appendRecord_mgmt (s : State) (r : FaultRec) : (appendRecord s r).mgmt = s.mgmt := rfl
@[simp] theorem appendRecord_arr (s : State) (r : FaultRec) : (appendRecord s r).arr = s.arr := rfl
@[simp] theorem appendRecord_plc (s : State) (r : FaultRec) : (appendRecord s r).plc = s.plc := rfl
@[simp] theorem appendRecord_sec (s : State) (r : FaultRec) : (appendRecord s r).sec = s.sec := rfl
@[simp] theorem appendRecord_rst (s : State) (r : FaultRec) : (appendRecord s r).rst = s.rst := rfl
@[simp] theorem appendRecord_pair (s : State) (r : FaultRec) : (appendRecord s r).pair = s.pair := rfl
@[simp] theorem appendRecord_sil (s : State) (r : FaultRec) : (appendRecord s r).sil = s.sil := rfl
@[simp] theorem appendRecord_fab (s : State) (r : FaultRec) : (appendRecord s r).fab = s.fab := rfl
@[simp] theorem appendRecord_pwr (s : State) (r : FaultRec) : (appendRecord s r).pwr = s.pwr := rfl
@[simp] theorem appendRecord_base (s : State) (r : FaultRec) : (appendRecord s r).base = s.base := rfl
@[simp] theorem appendRecord_mem (s : State) (r : FaultRec) : (appendRecord s r).mem = s.mem := rfl
@[simp] theorem appendRecord_dma (s : State) (r : FaultRec) : (appendRecord s r).dma = s.dma := rfl
@[simp] theorem appendRecord_flc (s : State) (r : FaultRec) : (appendRecord s r).flc = s.flc := rfl
@[simp] theorem appendRecord_tap (s : State) (r : FaultRec) : (appendRecord s r).tap = s.tap := rfl
@[simp] theorem appendRecord_i3c (s : State) (r : FaultRec) : (appendRecord s r).i3c = s.i3c := rfl

@[simp] theorem retainRecord_pending (s : State) (r : FaultRec) : (retainRecord s r).pending = s.pending := rfl
@[simp] theorem retainRecord_gt (s : State) (r : FaultRec) : (retainRecord s r).gt = s.gt := rfl
@[simp] theorem retainRecord_free (s : State) (r : FaultRec) : (retainRecord s r).free = s.free := rfl
@[simp] theorem retainRecord_boots (s : State) (r : FaultRec) : (retainRecord s r).boots = s.boots := rfl
@[simp] theorem retainRecord_rf (s : State) (r : FaultRec) : (retainRecord s r).rf = s.rf := rfl
@[simp] theorem retainRecord_inj (s : State) (r : FaultRec) : (retainRecord s r).inj = s.inj := rfl
@[simp] theorem retainRecord_hostMem (s : State) (r : FaultRec) : (retainRecord s r).hostMem = s.hostMem := rfl
@[simp] theorem retainRecord_sent (s : State) (r : FaultRec) : (retainRecord s r).sent = s.sent := rfl
@[simp] theorem retainRecord_ctxs (s : State) (r : FaultRec) : (retainRecord s r).ctxs = s.ctxs := rfl
@[simp] theorem retainRecord_insts (s : State) (r : FaultRec) : (retainRecord s r).insts = s.insts := rfl
@[simp] theorem retainRecord_mgmt (s : State) (r : FaultRec) : (retainRecord s r).mgmt = s.mgmt := rfl
@[simp] theorem retainRecord_arr (s : State) (r : FaultRec) : (retainRecord s r).arr = s.arr := rfl
@[simp] theorem retainRecord_plc (s : State) (r : FaultRec) : (retainRecord s r).plc = s.plc := rfl
@[simp] theorem retainRecord_sec (s : State) (r : FaultRec) : (retainRecord s r).sec = s.sec := rfl
@[simp] theorem retainRecord_rst (s : State) (r : FaultRec) : (retainRecord s r).rst = s.rst := rfl
@[simp] theorem retainRecord_pair (s : State) (r : FaultRec) : (retainRecord s r).pair = s.pair := rfl
@[simp] theorem retainRecord_sil (s : State) (r : FaultRec) : (retainRecord s r).sil = s.sil := rfl
@[simp] theorem retainRecord_fab (s : State) (r : FaultRec) : (retainRecord s r).fab = s.fab := rfl
@[simp] theorem retainRecord_pwr (s : State) (r : FaultRec) : (retainRecord s r).pwr = s.pwr := rfl
@[simp] theorem retainRecord_base (s : State) (r : FaultRec) : (retainRecord s r).base = s.base := rfl
@[simp] theorem retainRecord_mem (s : State) (r : FaultRec) : (retainRecord s r).mem = s.mem := rfl
@[simp] theorem retainRecord_dma (s : State) (r : FaultRec) : (retainRecord s r).dma = s.dma := rfl
@[simp] theorem retainRecord_flc (s : State) (r : FaultRec) : (retainRecord s r).flc = s.flc := rfl
@[simp] theorem retainRecord_tap (s : State) (r : FaultRec) : (retainRecord s r).tap = s.tap := rfl
@[simp] theorem retainRecord_i3c (s : State) (r : FaultRec) : (retainRecord s r).i3c = s.i3c := rfl

@[simp] theorem noteCount_pending (s : State) (off : Nat) : (noteCount s off).pending = s.pending := rfl
@[simp] theorem noteCount_gt (s : State) (off : Nat) : (noteCount s off).gt = s.gt := rfl
@[simp] theorem noteCount_free (s : State) (off : Nat) : (noteCount s off).free = s.free := rfl
@[simp] theorem noteCount_boots (s : State) (off : Nat) : (noteCount s off).boots = s.boots := rfl
@[simp] theorem noteCount_flt (s : State) (off : Nat) : (noteCount s off).flt = s.flt := rfl
@[simp] theorem noteCount_inj (s : State) (off : Nat) : (noteCount s off).inj = s.inj := rfl
@[simp] theorem noteCount_hostMem (s : State) (off : Nat) : (noteCount s off).hostMem = s.hostMem := rfl
@[simp] theorem noteCount_sent (s : State) (off : Nat) : (noteCount s off).sent = s.sent := rfl
@[simp] theorem noteCount_ctxs (s : State) (off : Nat) : (noteCount s off).ctxs = s.ctxs := rfl
@[simp] theorem noteCount_insts (s : State) (off : Nat) : (noteCount s off).insts = s.insts := rfl
@[simp] theorem noteCount_mgmt (s : State) (off : Nat) : (noteCount s off).mgmt = s.mgmt := rfl
@[simp] theorem noteCount_arr (s : State) (off : Nat) : (noteCount s off).arr = s.arr := rfl
@[simp] theorem noteCount_plc (s : State) (off : Nat) : (noteCount s off).plc = s.plc := rfl
@[simp] theorem noteCount_sec (s : State) (off : Nat) : (noteCount s off).sec = s.sec := rfl
@[simp] theorem noteCount_rst (s : State) (off : Nat) : (noteCount s off).rst = s.rst := rfl
@[simp] theorem noteCount_pair (s : State) (off : Nat) : (noteCount s off).pair = s.pair := rfl
@[simp] theorem noteCount_sil (s : State) (off : Nat) : (noteCount s off).sil = s.sil := rfl
@[simp] theorem noteCount_fab (s : State) (off : Nat) : (noteCount s off).fab = s.fab := rfl
@[simp] theorem noteCount_pwr (s : State) (off : Nat) : (noteCount s off).pwr = s.pwr := rfl
@[simp] theorem noteCount_base (s : State) (off : Nat) : (noteCount s off).base = s.base := rfl
@[simp] theorem noteCount_mem (s : State) (off : Nat) : (noteCount s off).mem = s.mem := rfl
@[simp] theorem noteCount_dma (s : State) (off : Nat) : (noteCount s off).dma = s.dma := rfl
@[simp] theorem noteCount_flc (s : State) (off : Nat) : (noteCount s off).flc = s.flc := rfl
@[simp] theorem noteCount_tap (s : State) (off : Nat) : (noteCount s off).tap = s.tap := rfl
@[simp] theorem noteCount_i3c (s : State) (off : Nat) : (noteCount s off).i3c = s.i3c := rfl

@[simp] theorem modMem_pending (s : State) (f : Mem → Mem) : (modMem s f).pending = s.pending := rfl
@[simp] theorem modMem_gt (s : State) (f : Mem → Mem) : (modMem s f).gt = s.gt := rfl
@[simp] theorem modMem_free (s : State) (f : Mem → Mem) : (modMem s f).free = s.free := rfl
@[simp] theorem modMem_boots (s : State) (f : Mem → Mem) : (modMem s f).boots = s.boots := rfl
@[simp] theorem modMem_rf (s : State) (f : Mem → Mem) : (modMem s f).rf = s.rf := rfl
@[simp] theorem modMem_flt (s : State) (f : Mem → Mem) : (modMem s f).flt = s.flt := rfl
@[simp] theorem modMem_inj (s : State) (f : Mem → Mem) : (modMem s f).inj = s.inj := rfl
@[simp] theorem modMem_hostMem (s : State) (f : Mem → Mem) : (modMem s f).hostMem = s.hostMem := rfl
@[simp] theorem modMem_sent (s : State) (f : Mem → Mem) : (modMem s f).sent = s.sent := rfl
@[simp] theorem modMem_ctxs (s : State) (f : Mem → Mem) : (modMem s f).ctxs = s.ctxs := rfl
@[simp] theorem modMem_insts (s : State) (f : Mem → Mem) : (modMem s f).insts = s.insts := rfl
@[simp] theorem modMem_mgmt (s : State) (f : Mem → Mem) : (modMem s f).mgmt = s.mgmt := rfl
@[simp] theorem modMem_arr (s : State) (f : Mem → Mem) : (modMem s f).arr = s.arr := rfl
@[simp] theorem modMem_plc (s : State) (f : Mem → Mem) : (modMem s f).plc = s.plc := rfl
@[simp] theorem modMem_sec (s : State) (f : Mem → Mem) : (modMem s f).sec = s.sec := rfl
@[simp] theorem modMem_rst (s : State) (f : Mem → Mem) : (modMem s f).rst = s.rst := rfl
@[simp] theorem modMem_pair (s : State) (f : Mem → Mem) : (modMem s f).pair = s.pair := rfl
@[simp] theorem modMem_sil (s : State) (f : Mem → Mem) : (modMem s f).sil = s.sil := rfl
@[simp] theorem modMem_fab (s : State) (f : Mem → Mem) : (modMem s f).fab = s.fab := rfl
@[simp] theorem modMem_pwr (s : State) (f : Mem → Mem) : (modMem s f).pwr = s.pwr := rfl
@[simp] theorem modMem_base (s : State) (f : Mem → Mem) : (modMem s f).base = s.base := rfl
@[simp] theorem modMem_dma (s : State) (f : Mem → Mem) : (modMem s f).dma = s.dma := rfl
@[simp] theorem modMem_flc (s : State) (f : Mem → Mem) : (modMem s f).flc = s.flc := rfl
@[simp] theorem modMem_tap (s : State) (f : Mem → Mem) : (modMem s f).tap = s.tap := rfl
@[simp] theorem modMem_i3c (s : State) (f : Mem → Mem) : (modMem s f).i3c = s.i3c := rfl
@[simp] theorem modMem_mem (s : State) (f : Mem → Mem) : (modMem s f).mem = f s.mem := rfl
@[simp] theorem noteCount_vals (s : State) (off : Nat) : (noteCount s off).rf.vals = s.rf.vals := rfl
@[simp] theorem regVal_noteCount (s : State) (off o : Nat) : regVal (noteCount s off) o = regVal s o := rfl

end Sys2Proof.Machine
end

