-- ==== Sys2Proof/Laws/Ops.lean ====
section
/-!
SUPPORT. What each named operation does: an update read back, and what it leaves of every other reader.
-/
set_option Elab.async false
set_option linter.all false
namespace Sys2Proof.Machine
open Sys2Proof

@[simp] theorem regVal_send (s : State) (m : Sent) (o : Nat) : regVal (send s m) o = regVal s o := rfl
@[simp] theorem regVal_setCtx (s : State) (c : Nat) (k : Ctx) (o : Nat) : regVal (setCtx s c k) o = regVal s o := rfl
@[simp] theorem regVal_modCtx (s : State) (c : Nat) (f : Ctx → Ctx) (o : Nat) : regVal (modCtx s c f) o = regVal s o := rfl
@[simp] theorem regVal_hostWrite (s : State) (space addr : Nat) (bs : List Byte) (o : Nat) : regVal (hostWrite s space addr bs) o = regVal s o := rfl
@[simp] theorem regVal_setDom (s : State) (d : Nat) (x : Dom) (o : Nat) : regVal (setDom s d x) o = regVal s o := rfl
@[simp] theorem regVal_modDom (s : State) (d : Nat) (f : Dom → Dom) (o : Nat) : regVal (modDom s d f) o = regVal s o := rfl
@[simp] theorem regVal_setStack (s : State) (n : Nat) (x : Stack) (o : Nat) : regVal (setStack s n x) o = regVal s o := rfl
@[simp] theorem regVal_modStack (s : State) (n : Nat) (f : Stack → Stack) (o : Nat) : regVal (modStack s n f) o = regVal s o := rfl
@[simp] theorem regVal_setDie (s : State) (i : Nat) (x : Die) (o : Nat) : regVal (setDie s i x) o = regVal s o := rfl
@[simp] theorem regVal_modDie (s : State) (i : Nat) (f : Die → Die) (o : Nat) : regVal (modDie s i f) o = regVal s o := rfl
@[simp] theorem regVal_appendRecord (s : State) (r : FaultRec) (o : Nat) : regVal (appendRecord s r) o = regVal s o := rfl
@[simp] theorem regVal_retainRecord (s : State) (r : FaultRec) (o : Nat) : regVal (retainRecord s r) o = regVal s o := rfl
@[simp] theorem selVal_send (s : State) (m : Sent) (q : Requester) (o : Nat) : selVal (send s m) q o = selVal s q o := rfl
@[simp] theorem selVal_setCtx (s : State) (c : Nat) (k : Ctx) (q : Requester) (o : Nat) : selVal (setCtx s c k) q o = selVal s q o := rfl
@[simp] theorem selVal_modCtx (s : State) (c : Nat) (f : Ctx → Ctx) (q : Requester) (o : Nat) : selVal (modCtx s c f) q o = selVal s q o := rfl
@[simp] theorem selVal_hostWrite (s : State) (space addr : Nat) (bs : List Byte) (q : Requester) (o : Nat) : selVal (hostWrite s space addr bs) q o = selVal s q o := rfl
@[simp] theorem selVal_setDom (s : State) (d : Nat) (x : Dom) (q : Requester) (o : Nat) : selVal (setDom s d x) q o = selVal s q o := rfl
@[simp] theorem selVal_modDom (s : State) (d : Nat) (f : Dom → Dom) (q : Requester) (o : Nat) : selVal (modDom s d f) q o = selVal s q o := rfl
@[simp] theorem selVal_setStack (s : State) (n : Nat) (x : Stack) (q : Requester) (o : Nat) : selVal (setStack s n x) q o = selVal s q o := rfl
@[simp] theorem selVal_modStack (s : State) (n : Nat) (f : Stack → Stack) (q : Requester) (o : Nat) : selVal (modStack s n f) q o = selVal s q o := rfl
@[simp] theorem selVal_setDie (s : State) (i : Nat) (x : Die) (q : Requester) (o : Nat) : selVal (setDie s i x) q o = selVal s q o := rfl
@[simp] theorem selVal_modDie (s : State) (i : Nat) (f : Die → Die) (q : Requester) (o : Nat) : selVal (modDie s i f) q o = selVal s q o := rfl
@[simp] theorem selVal_appendRecord (s : State) (r : FaultRec) (q : Requester) (o : Nat) : selVal (appendRecord s r) q o = selVal s q o := rfl
@[simp] theorem selVal_retainRecord (s : State) (r : FaultRec) (q : Requester) (o : Nat) : selVal (retainRecord s r) q o = selVal s q o := rfl
@[simp] theorem locked_send (s : State) (m : Sent) (o : Nat) : locked (send s m) o = locked s o := rfl
@[simp] theorem locked_setCtx (s : State) (c : Nat) (k : Ctx) (o : Nat) : locked (setCtx s c k) o = locked s o := rfl
@[simp] theorem locked_modCtx (s : State) (c : Nat) (f : Ctx → Ctx) (o : Nat) : locked (modCtx s c f) o = locked s o := rfl
@[simp] theorem locked_hostWrite (s : State) (space addr : Nat) (bs : List Byte) (o : Nat) : locked (hostWrite s space addr bs) o = locked s o := rfl
@[simp] theorem locked_setDom (s : State) (d : Nat) (x : Dom) (o : Nat) : locked (setDom s d x) o = locked s o := rfl
@[simp] theorem locked_modDom (s : State) (d : Nat) (f : Dom → Dom) (o : Nat) : locked (modDom s d f) o = locked s o := rfl
@[simp] theorem locked_setStack (s : State) (n : Nat) (x : Stack) (o : Nat) : locked (setStack s n x) o = locked s o := rfl
@[simp] theorem locked_modStack (s : State) (n : Nat) (f : Stack → Stack) (o : Nat) : locked (modStack s n f) o = locked s o := rfl
@[simp] theorem locked_setDie (s : State) (i : Nat) (x : Die) (o : Nat) : locked (setDie s i x) o = locked s o := rfl
@[simp] theorem locked_modDie (s : State) (i : Nat) (f : Die → Die) (o : Nat) : locked (modDie s i f) o = locked s o := rfl
@[simp] theorem locked_appendRecord (s : State) (r : FaultRec) (o : Nat) : locked (appendRecord s r) o = locked s o := rfl
@[simp] theorem locked_retainRecord (s : State) (r : FaultRec) (o : Nat) : locked (retainRecord s r) o = locked s o := rfl
@[simp] theorem bootReady_send (s : State) (m : Sent) : bootReady (send s m) = bootReady s := rfl
@[simp] theorem bootReady_setCtx (s : State) (c : Nat) (k : Ctx) : bootReady (setCtx s c k) = bootReady s := rfl
@[simp] theorem bootReady_modCtx (s : State) (c : Nat) (f : Ctx → Ctx) : bootReady (modCtx s c f) = bootReady s := rfl
@[simp] theorem bootReady_hostWrite (s : State) (space addr : Nat) (bs : List Byte) : bootReady (hostWrite s space addr bs) = bootReady s := rfl
@[simp] theorem bootReady_setDom (s : State) (d : Nat) (x : Dom) : bootReady (setDom s d x) = bootReady s := rfl
@[simp] theorem bootReady_modDom (s : State) (d : Nat) (f : Dom → Dom) : bootReady (modDom s d f) = bootReady s := rfl
@[simp] theorem bootReady_setStack (s : State) (n : Nat) (x : Stack) : bootReady (setStack s n x) = bootReady s := rfl
@[simp] theorem bootReady_modStack (s : State) (n : Nat) (f : Stack → Stack) : bootReady (modStack s n f) = bootReady s := rfl
@[simp] theorem bootReady_setDie (s : State) (i : Nat) (x : Die) : bootReady (setDie s i x) = bootReady s := rfl
@[simp] theorem bootReady_modDie (s : State) (i : Nat) (f : Die → Die) : bootReady (modDie s i f) = bootReady s := rfl
@[simp] theorem bootReady_appendRecord (s : State) (r : FaultRec) : bootReady (appendRecord s r) = bootReady s := rfl
@[simp] theorem bootReady_retainRecord (s : State) (r : FaultRec) : bootReady (retainRecord s r) = bootReady s := rfl
@[simp] theorem slotCtx_send (s : State) (m : Sent) (a i : Nat) : slotCtx (send s m) a i = slotCtx s a i := rfl
@[simp] theorem slotCtx_setCtx (s : State) (c : Nat) (k : Ctx) (a i : Nat) : slotCtx (setCtx s c k) a i = slotCtx s a i := rfl
@[simp] theorem slotCtx_modCtx (s : State) (c : Nat) (f : Ctx → Ctx) (a i : Nat) : slotCtx (modCtx s c f) a i = slotCtx s a i := rfl
@[simp] theorem slotCtx_hostWrite (s : State) (space addr : Nat) (bs : List Byte) (a i : Nat) : slotCtx (hostWrite s space addr bs) a i = slotCtx s a i := rfl
@[simp] theorem slotCtx_setDom (s : State) (d : Nat) (x : Dom) (a i : Nat) : slotCtx (setDom s d x) a i = slotCtx s a i := rfl
@[simp] theorem slotCtx_modDom (s : State) (d : Nat) (f : Dom → Dom) (a i : Nat) : slotCtx (modDom s d f) a i = slotCtx s a i := rfl
@[simp] theorem slotCtx_setStack (s : State) (n : Nat) (x : Stack) (a i : Nat) : slotCtx (setStack s n x) a i = slotCtx s a i := rfl
@[simp] theorem slotCtx_modStack (s : State) (n : Nat) (f : Stack → Stack) (a i : Nat) : slotCtx (modStack s n f) a i = slotCtx s a i := rfl
@[simp] theorem slotCtx_setDie (s : State) (i : Nat) (x : Die) (a i : Nat) : slotCtx (setDie s i x) a i = slotCtx s a i := rfl
@[simp] theorem slotCtx_modDie (s : State) (i : Nat) (f : Die → Die) (a i : Nat) : slotCtx (modDie s i f) a i = slotCtx s a i := rfl
@[simp] theorem slotCtx_appendRecord (s : State) (r : FaultRec) (a i : Nat) : slotCtx (appendRecord s r) a i = slotCtx s a i := rfl
@[simp] theorem slotCtx_retainRecord (s : State) (r : FaultRec) (a i : Nat) : slotCtx (retainRecord s r) a i = slotCtx s a i := rfl
@[simp] theorem fnOf_send (s : State) (m : Sent) (e : Nat) : fnOf (send s m) e = fnOf s e := rfl
@[simp] theorem fnOf_setCtx (s : State) (c : Nat) (k : Ctx) (e : Nat) : fnOf (setCtx s c k) e = fnOf s e := rfl
@[simp] theorem fnOf_modCtx (s : State) (c : Nat) (f : Ctx → Ctx) (e : Nat) : fnOf (modCtx s c f) e = fnOf s e := rfl
@[simp] theorem fnOf_hostWrite (s : State) (space addr : Nat) (bs : List Byte) (e : Nat) : fnOf (hostWrite s space addr bs) e = fnOf s e := rfl
@[simp] theorem fnOf_setDom (s : State) (d : Nat) (x : Dom) (e : Nat) : fnOf (setDom s d x) e = fnOf s e := rfl
@[simp] theorem fnOf_modDom (s : State) (d : Nat) (f : Dom → Dom) (e : Nat) : fnOf (modDom s d f) e = fnOf s e := rfl
@[simp] theorem fnOf_setStack (s : State) (n : Nat) (x : Stack) (e : Nat) : fnOf (setStack s n x) e = fnOf s e := rfl
@[simp] theorem fnOf_modStack (s : State) (n : Nat) (f : Stack → Stack) (e : Nat) : fnOf (modStack s n f) e = fnOf s e := rfl
@[simp] theorem fnOf_setDie (s : State) (i : Nat) (x : Die) (e : Nat) : fnOf (setDie s i x) e = fnOf s e := rfl
@[simp] theorem fnOf_modDie (s : State) (i : Nat) (f : Die → Die) (e : Nat) : fnOf (modDie s i f) e = fnOf s e := rfl
@[simp] theorem fnOf_appendRecord (s : State) (r : FaultRec) (e : Nat) : fnOf (appendRecord s r) e = fnOf s e := rfl
@[simp] theorem fnOf_retainRecord (s : State) (r : FaultRec) (e : Nat) : fnOf (retainRecord s r) e = fnOf s e := rfl
@[simp] theorem ctxOf_regPut (s : State) (off : Nat) (v : Word) (e : Nat) : ctxOf (regPut s off v) e = ctxOf s e := rfl
@[simp] theorem ctxOf_regSetBits (s : State) (off hi lo v : Nat) (e : Nat) : ctxOf (regSetBits s off hi lo v) e = ctxOf s e := rfl
@[simp] theorem ctxOf_bump (s : State) (off n : Nat) (e : Nat) : ctxOf (bump s off n) e = ctxOf s e := rfl
@[simp] theorem ctxOf_bump64 (s : State) (lo n : Nat) (e : Nat) : ctxOf (bump64 s lo n) e = ctxOf s e := rfl
@[simp] theorem ctxOf_selPut (s : State) (r : Requester) (off : Nat) (v : Word) (e : Nat) : ctxOf (selPut s r off v) e = ctxOf s e := rfl
@[simp] theorem ctxOf_logRefused (s : State) (r : Requester) (off : Nat) (data : Word) (status : Nat) (e : Nat) : ctxOf (logRefused s r off data status) e = ctxOf s e := rfl
@[simp] theorem ctxOf_send (s : State) (m : Sent) (e : Nat) : ctxOf (send s m) e = ctxOf s e := rfl
@[simp] theorem ctxOf_hostWrite (s : State) (space addr : Nat) (bs : List Byte) (e : Nat) : ctxOf (hostWrite s space addr bs) e = ctxOf s e := rfl
@[simp] theorem ctxOf_setDom (s : State) (d : Nat) (x : Dom) (e : Nat) : ctxOf (setDom s d x) e = ctxOf s e := rfl
@[simp] theorem ctxOf_modDom (s : State) (d : Nat) (f : Dom → Dom) (e : Nat) : ctxOf (modDom s d f) e = ctxOf s e := rfl
@[simp] theorem ctxOf_setStack (s : State) (n : Nat) (x : Stack) (e : Nat) : ctxOf (setStack s n x) e = ctxOf s e := rfl
@[simp] theorem ctxOf_modStack (s : State) (n : Nat) (f : Stack → Stack) (e : Nat) : ctxOf (modStack s n f) e = ctxOf s e := rfl
@[simp] theorem ctxOf_setDie (s : State) (i : Nat) (x : Die) (e : Nat) : ctxOf (setDie s i x) e = ctxOf s e := rfl
@[simp] theorem ctxOf_modDie (s : State) (i : Nat) (f : Die → Die) (e : Nat) : ctxOf (modDie s i f) e = ctxOf s e := rfl
@[simp] theorem ctxOf_appendRecord (s : State) (r : FaultRec) (e : Nat) : ctxOf (appendRecord s r) e = ctxOf s e := rfl
@[simp] theorem ctxOf_retainRecord (s : State) (r : FaultRec) (e : Nat) : ctxOf (retainRecord s r) e = ctxOf s e := rfl
@[simp] theorem hostByte_regPut (s : State) (off : Nat) (v : Word) (a b : Nat) : hostByte (regPut s off v) a b = hostByte s a b := rfl
@[simp] theorem hostByte_regSetBits (s : State) (off hi lo v : Nat) (a b : Nat) : hostByte (regSetBits s off hi lo v) a b = hostByte s a b := rfl
@[simp] theorem hostByte_bump (s : State) (off n : Nat) (a b : Nat) : hostByte (bump s off n) a b = hostByte s a b := rfl
@[simp] theorem hostByte_bump64 (s : State) (lo n : Nat) (a b : Nat) : hostByte (bump64 s lo n) a b = hostByte s a b := rfl
@[simp] theorem hostByte_selPut (s : State) (r : Requester) (off : Nat) (v : Word) (a b : Nat) : hostByte (selPut s r off v) a b = hostByte s a b := rfl
@[simp] theorem hostByte_logRefused (s : State) (r : Requester) (off : Nat) (data : Word) (status : Nat) (a b : Nat) : hostByte (logRefused s r off data status) a b = hostByte s a b := rfl
@[simp] theorem hostByte_send (s : State) (m : Sent) (a b : Nat) : hostByte (send s m) a b = hostByte s a b := rfl
@[simp] theorem hostByte_setCtx (s : State) (c : Nat) (k : Ctx) (a b : Nat) : hostByte (setCtx s c k) a b = hostByte s a b := rfl
@[simp] theorem hostByte_modCtx (s : State) (c : Nat) (f : Ctx → Ctx) (a b : Nat) : hostByte (modCtx s c f) a b = hostByte s a b := rfl
@[simp] theorem hostByte_setDom (s : State) (d : Nat) (x : Dom) (a b : Nat) : hostByte (setDom s d x) a b = hostByte s a b := rfl
@[simp] theorem hostByte_modDom (s : State) (d : Nat) (f : Dom → Dom) (a b : Nat) : hostByte (modDom s d f) a b = hostByte s a b := rfl
@[simp] theorem hostByte_setStack (s : State) (n : Nat) (x : Stack) (a b : Nat) : hostByte (setStack s n x) a b = hostByte s a b := rfl
@[simp] theorem hostByte_modStack (s : State) (n : Nat) (f : Stack → Stack) (a b : Nat) : hostByte (modStack s n f) a b = hostByte s a b := rfl
@[simp] theorem hostByte_setDie (s : State) (i : Nat) (x : Die) (a b : Nat) : hostByte (setDie s i x) a b = hostByte s a b := rfl
@[simp] theorem hostByte_modDie (s : State) (i : Nat) (f : Die → Die) (a b : Nat) : hostByte (modDie s i f) a b = hostByte s a b := rfl
@[simp] theorem hostByte_appendRecord (s : State) (r : FaultRec) (a b : Nat) : hostByte (appendRecord s r) a b = hostByte s a b := rfl
@[simp] theorem hostByte_retainRecord (s : State) (r : FaultRec) (a b : Nat) : hostByte (retainRecord s r) a b = hostByte s a b := rfl
@[simp] theorem domOf_regPut (s : State) (off : Nat) (v : Word) (e : Nat) : domOf (regPut s off v) e = domOf s e := rfl
@[simp] theorem domOf_regSetBits (s : State) (off hi lo v : Nat) (e : Nat) : domOf (regSetBits s off hi lo v) e = domOf s e := rfl
@[simp] theorem domOf_bump (s : State) (off n : Nat) (e : Nat) : domOf (bump s off n) e = domOf s e := rfl
@[simp] theorem domOf_bump64 (s : State) (lo n : Nat) (e : Nat) : domOf (bump64 s lo n) e = domOf s e := rfl
@[simp] theorem domOf_selPut (s : State) (r : Requester) (off : Nat) (v : Word) (e : Nat) : domOf (selPut s r off v) e = domOf s e := rfl
@[simp] theorem domOf_logRefused (s : State) (r : Requester) (off : Nat) (data : Word) (status : Nat) (e : Nat) : domOf (logRefused s r off data status) e = domOf s e := rfl
@[simp] theorem domOf_send (s : State) (m : Sent) (e : Nat) : domOf (send s m) e = domOf s e := rfl
@[simp] theorem domOf_setCtx (s : State) (c : Nat) (k : Ctx) (e : Nat) : domOf (setCtx s c k) e = domOf s e := rfl
@[simp] theorem domOf_modCtx (s : State) (c : Nat) (f : Ctx → Ctx) (e : Nat) : domOf (modCtx s c f) e = domOf s e := rfl
@[simp] theorem domOf_hostWrite (s : State) (space addr : Nat) (bs : List Byte) (e : Nat) : domOf (hostWrite s space addr bs) e = domOf s e := rfl
@[simp] theorem domOf_appendRecord (s : State) (r : FaultRec) (e : Nat) : domOf (appendRecord s r) e = domOf s e := rfl
@[simp] theorem domOf_retainRecord (s : State) (r : FaultRec) (e : Nat) : domOf (retainRecord s r) e = domOf s e := rfl
@[simp] theorem stackOf_regPut (s : State) (off : Nat) (v : Word) (e : Nat) : stackOf (regPut s off v) e = stackOf s e := rfl
@[simp] theorem stackOf_regSetBits (s : State) (off hi lo v : Nat) (e : Nat) : stackOf (regSetBits s off hi lo v) e = stackOf s e := rfl
@[simp] theorem stackOf_bump (s : State) (off n : Nat) (e : Nat) : stackOf (bump s off n) e = stackOf s e := rfl
@[simp] theorem stackOf_bump64 (s : State) (lo n : Nat) (e : Nat) : stackOf (bump64 s lo n) e = stackOf s e := rfl
@[simp] theorem stackOf_selPut (s : State) (r : Requester) (off : Nat) (v : Word) (e : Nat) : stackOf (selPut s r off v) e = stackOf s e := rfl
@[simp] theorem stackOf_logRefused (s : State) (r : Requester) (off : Nat) (data : Word) (status : Nat) (e : Nat) : stackOf (logRefused s r off data status) e = stackOf s e := rfl
@[simp] theorem stackOf_send (s : State) (m : Sent) (e : Nat) : stackOf (send s m) e = stackOf s e := rfl
@[simp] theorem stackOf_setCtx (s : State) (c : Nat) (k : Ctx) (e : Nat) : stackOf (setCtx s c k) e = stackOf s e := rfl
@[simp] theorem stackOf_modCtx (s : State) (c : Nat) (f : Ctx → Ctx) (e : Nat) : stackOf (modCtx s c f) e = stackOf s e := rfl
@[simp] theorem stackOf_hostWrite (s : State) (space addr : Nat) (bs : List Byte) (e : Nat) : stackOf (hostWrite s space addr bs) e = stackOf s e := rfl
@[simp] theorem stackOf_appendRecord (s : State) (r : FaultRec) (e : Nat) : stackOf (appendRecord s r) e = stackOf s e := rfl
@[simp] theorem stackOf_retainRecord (s : State) (r : FaultRec) (e : Nat) : stackOf (retainRecord s r) e = stackOf s e := rfl
@[simp] theorem dieOf_regPut (s : State) (off : Nat) (v : Word) (e : Nat) : dieOf (regPut s off v) e = dieOf s e := rfl
@[simp] theorem dieOf_regSetBits (s : State) (off hi lo v : Nat) (e : Nat) : dieOf (regSetBits s off hi lo v) e = dieOf s e := rfl
@[simp] theorem dieOf_bump (s : State) (off n : Nat) (e : Nat) : dieOf (bump s off n) e = dieOf s e := rfl
@[simp] theorem dieOf_bump64 (s : State) (lo n : Nat) (e : Nat) : dieOf (bump64 s lo n) e = dieOf s e := rfl
@[simp] theorem dieOf_selPut (s : State) (r : Requester) (off : Nat) (v : Word) (e : Nat) : dieOf (selPut s r off v) e = dieOf s e := rfl
@[simp] theorem dieOf_logRefused (s : State) (r : Requester) (off : Nat) (data : Word) (status : Nat) (e : Nat) : dieOf (logRefused s r off data status) e = dieOf s e := rfl
@[simp] theorem dieOf_send (s : State) (m : Sent) (e : Nat) : dieOf (send s m) e = dieOf s e := rfl
@[simp] theorem dieOf_setCtx (s : State) (c : Nat) (k : Ctx) (e : Nat) : dieOf (setCtx s c k) e = dieOf s e := rfl
@[simp] theorem dieOf_modCtx (s : State) (c : Nat) (f : Ctx → Ctx) (e : Nat) : dieOf (modCtx s c f) e = dieOf s e := rfl
@[simp] theorem dieOf_hostWrite (s : State) (space addr : Nat) (bs : List Byte) (e : Nat) : dieOf (hostWrite s space addr bs) e = dieOf s e := rfl
@[simp] theorem dieOf_appendRecord (s : State) (r : FaultRec) (e : Nat) : dieOf (appendRecord s r) e = dieOf s e := rfl
@[simp] theorem dieOf_retainRecord (s : State) (r : FaultRec) (e : Nat) : dieOf (retainRecord s r) e = dieOf s e := rfl
@[simp] theorem dieUp_regPut (s : State) (off : Nat) (v : Word) (e : Nat) : dieUp (regPut s off v) e = dieUp s e := rfl
@[simp] theorem dieUp_regSetBits (s : State) (off hi lo v : Nat) (e : Nat) : dieUp (regSetBits s off hi lo v) e = dieUp s e := rfl
@[simp] theorem dieUp_bump (s : State) (off n : Nat) (e : Nat) : dieUp (bump s off n) e = dieUp s e := rfl
@[simp] theorem dieUp_bump64 (s : State) (lo n : Nat) (e : Nat) : dieUp (bump64 s lo n) e = dieUp s e := rfl
@[simp] theorem dieUp_selPut (s : State) (r : Requester) (off : Nat) (v : Word) (e : Nat) : dieUp (selPut s r off v) e = dieUp s e := rfl
@[simp] theorem dieUp_logRefused (s : State) (r : Requester) (off : Nat) (data : Word) (status : Nat) (e : Nat) : dieUp (logRefused s r off data status) e = dieUp s e := rfl
@[simp] theorem dieUp_send (s : State) (m : Sent) (e : Nat) : dieUp (send s m) e = dieUp s e := rfl
@[simp] theorem dieUp_setCtx (s : State) (c : Nat) (k : Ctx) (e : Nat) : dieUp (setCtx s c k) e = dieUp s e := rfl
@[simp] theorem dieUp_modCtx (s : State) (c : Nat) (f : Ctx → Ctx) (e : Nat) : dieUp (modCtx s c f) e = dieUp s e := rfl
@[simp] theorem dieUp_hostWrite (s : State) (space addr : Nat) (bs : List Byte) (e : Nat) : dieUp (hostWrite s space addr bs) e = dieUp s e := rfl
@[simp] theorem dieUp_appendRecord (s : State) (r : FaultRec) (e : Nat) : dieUp (appendRecord s r) e = dieUp s e := rfl
@[simp] theorem dieUp_retainRecord (s : State) (r : FaultRec) (e : Nat) : dieUp (retainRecord s r) e = dieUp s e := rfl
@[simp] theorem stacksOf_regPut (s : State) (off : Nat) (v : Word) (e : Nat) : stacksOf (regPut s off v) e = stacksOf s e := rfl
@[simp] theorem stacksOf_regSetBits (s : State) (off hi lo v : Nat) (e : Nat) : stacksOf (regSetBits s off hi lo v) e = stacksOf s e := rfl
@[simp] theorem stacksOf_bump (s : State) (off n : Nat) (e : Nat) : stacksOf (bump s off n) e = stacksOf s e := rfl
@[simp] theorem stacksOf_bump64 (s : State) (lo n : Nat) (e : Nat) : stacksOf (bump64 s lo n) e = stacksOf s e := rfl
@[simp] theorem stacksOf_selPut (s : State) (r : Requester) (off : Nat) (v : Word) (e : Nat) : stacksOf (selPut s r off v) e = stacksOf s e := rfl
@[simp] theorem stacksOf_logRefused (s : State) (r : Requester) (off : Nat) (data : Word) (status : Nat) (e : Nat) : stacksOf (logRefused s r off data status) e = stacksOf s e := rfl
@[simp] theorem stacksOf_send (s : State) (m : Sent) (e : Nat) : stacksOf (send s m) e = stacksOf s e := rfl
@[simp] theorem stacksOf_setCtx (s : State) (c : Nat) (k : Ctx) (e : Nat) : stacksOf (setCtx s c k) e = stacksOf s e := rfl
@[simp] theorem stacksOf_modCtx (s : State) (c : Nat) (f : Ctx → Ctx) (e : Nat) : stacksOf (modCtx s c f) e = stacksOf s e := rfl
@[simp] theorem stacksOf_hostWrite (s : State) (space addr : Nat) (bs : List Byte) (e : Nat) : stacksOf (hostWrite s space addr bs) e = stacksOf s e := rfl
@[simp] theorem stacksOf_appendRecord (s : State) (r : FaultRec) (e : Nat) : stacksOf (appendRecord s r) e = stacksOf s e := rfl
@[simp] theorem stacksOf_retainRecord (s : State) (r : FaultRec) (e : Nat) : stacksOf (retainRecord s r) e = stacksOf s e := rfl
@[simp] theorem capOf_regPut (s : State) (off : Nat) (v : Word) (a b : Nat) : capOf (regPut s off v) a b = capOf s a b := rfl
@[simp] theorem capOf_regSetBits (s : State) (off hi lo v : Nat) (a b : Nat) : capOf (regSetBits s off hi lo v) a b = capOf s a b := rfl
@[simp] theorem capOf_bump (s : State) (off n : Nat) (a b : Nat) : capOf (bump s off n) a b = capOf s a b := rfl
@[simp] theorem capOf_bump64 (s : State) (lo n : Nat) (a b : Nat) : capOf (bump64 s lo n) a b = capOf s a b := rfl
@[simp] theorem capOf_selPut (s : State) (r : Requester) (off : Nat) (v : Word) (a b : Nat) : capOf (selPut s r off v) a b = capOf s a b := rfl
@[simp] theorem capOf_logRefused (s : State) (r : Requester) (off : Nat) (data : Word) (status : Nat) (a b : Nat) : capOf (logRefused s r off data status) a b = capOf s a b := rfl
@[simp] theorem capOf_send (s : State) (m : Sent) (a b : Nat) : capOf (send s m) a b = capOf s a b := rfl
@[simp] theorem capOf_setCtx (s : State) (c : Nat) (k : Ctx) (a b : Nat) : capOf (setCtx s c k) a b = capOf s a b := rfl
@[simp] theorem capOf_modCtx (s : State) (c : Nat) (f : Ctx → Ctx) (a b : Nat) : capOf (modCtx s c f) a b = capOf s a b := rfl
@[simp] theorem capOf_hostWrite (s : State) (space addr : Nat) (bs : List Byte) (a b : Nat) : capOf (hostWrite s space addr bs) a b = capOf s a b := rfl
@[simp] theorem capOf_setDom (s : State) (d : Nat) (x : Dom) (a b : Nat) : capOf (setDom s d x) a b = capOf s a b := rfl
@[simp] theorem capOf_modDom (s : State) (d : Nat) (f : Dom → Dom) (a b : Nat) : capOf (modDom s d f) a b = capOf s a b := rfl
@[simp] theorem capOf_setStack (s : State) (n : Nat) (x : Stack) (a b : Nat) : capOf (setStack s n x) a b = capOf s a b := rfl
@[simp] theorem capOf_modStack (s : State) (n : Nat) (f : Stack → Stack) (a b : Nat) : capOf (modStack s n f) a b = capOf s a b := rfl
@[simp] theorem capOf_setDie (s : State) (i : Nat) (x : Die) (a b : Nat) : capOf (setDie s i x) a b = capOf s a b := rfl
@[simp] theorem capOf_modDie (s : State) (i : Nat) (f : Die → Die) (a b : Nat) : capOf (modDie s i f) a b = capOf s a b := rfl
@[simp] theorem capOf_appendRecord (s : State) (r : FaultRec) (a b : Nat) : capOf (appendRecord s r) a b = capOf s a b := rfl
@[simp] theorem capOf_retainRecord (s : State) (r : FaultRec) (a b : Nat) : capOf (retainRecord s r) a b = capOf s a b := rfl

/-- A register stored is read back; every other register reads as before. -/
theorem regVal_regPut (s : State) (off o : Nat) (v : Word) : regVal (regPut s off v) o = if o = off then v else regVal s o := by
  simp only [regVal, regPut]
  split
  · rename_i h; subst h; exact tabGet_set_same _ _ _ _
  · exact tabGet_set_other _ _ _ _ ‹_›
@[simp] theorem regVal_regPut_same (s : State) (off : Nat) (v : Word) : regVal (regPut s off v) off = v := by simp [regVal_regPut]
theorem regVal_regPut_other (s : State) {off o : Nat} (v : Word) (h : o ≠ off) : regVal (regPut s off v) o = regVal s o := by
  simp [regVal_regPut, h]
@[simp] theorem regVal_selPut (s : State) (r : Requester) (off o : Nat) (v : Word) : regVal (selPut s r off v) o = regVal s o := rfl
@[simp] theorem selVal_regPut (s : State) (r : Requester) (off o : Nat) (v : Word) : selVal (regPut s off v) r o = selVal s r o := rfl
@[simp] theorem regVal_logRefused (s : State) (r : Requester) (off o : Nat) (data : Word) (status : Nat) :
    regVal (logRefused s r off data status) o = regVal s o := rfl

/-- A context replaced is read back; every other context reads as before. -/
theorem ctxOf_setCtx (s : State) (c e : Nat) (k : Ctx) : ctxOf (setCtx s c k) e = if e = c then k else ctxOf s e :=
  tabGet_set _ _ _ _ _
@[simp] theorem ctxOf_setCtx_same (s : State) (c : Nat) (k : Ctx) : ctxOf (setCtx s c k) c = k := by simp [ctxOf_setCtx]
theorem ctxOf_modCtx (s : State) (c e : Nat) (f : Ctx → Ctx) : ctxOf (modCtx s c f) e = if e = c then f (ctxOf s c) else ctxOf s e :=
  ctxOf_setCtx _ _ _ _
@[simp] theorem ctxOf_modCtx_same (s : State) (c : Nat) (f : Ctx → Ctx) : ctxOf (modCtx s c f) c = f (ctxOf s c) := by simp [ctxOf_modCtx]

/-- A domain replaced is read back; every other domain reads as before. -/
theorem domOf_setDom (s : State) (d e : Nat) (x : Dom) : domOf (setDom s d x) e = if e = d then x else domOf s e :=
  tabGet_set _ _ _ _ _
@[simp] theorem domOf_setDom_same (s : State) (d : Nat) (x : Dom) : domOf (setDom s d x) d = x := by simp [domOf_setDom]
theorem domOf_modDom (s : State) (d e : Nat) (f : Dom → Dom) : domOf (modDom s d f) e = if e = d then f (domOf s d) else domOf s e :=
  domOf_setDom _ _ _ _

/-- A stack replaced is read back; every other stack reads as before. -/
theorem stackOf_setStack (s : State) (n m : Nat) (x : Stack) : stackOf (setStack s n x) m = if m = n then x else stackOf s m :=
  tabGet_set _ _ _ _ _
@[simp] theorem stackOf_setStack_same (s : State) (n : Nat) (x : Stack) : stackOf (setStack s n x) n = x := by simp [stackOf_setStack]
theorem stackOf_modStack (s : State) (n m : Nat) (f : Stack → Stack) : stackOf (modStack s n f) m = if m = n then f (stackOf s n) else stackOf s m :=
  stackOf_setStack _ _ _ _

/-- A die replaced is read back; every other die reads as before. -/
theorem dieOf_setDie (s : State) (i j : Nat) (x : Die) : dieOf (setDie s i x) j = if j = i then x else dieOf s j :=
  tabGet_set _ _ _ _ _
@[simp] theorem dieOf_setDie_same (s : State) (i : Nat) (x : Die) : dieOf (setDie s i x) i = x := by simp [dieOf_setDie]
theorem dieOf_modDie (s : State) (i j : Nat) (f : Die → Die) : dieOf (modDie s i f) j = if j = i then f (dieOf s i) else dieOf s j :=
  dieOf_setDie _ _ _ _
@[simp] theorem domOf_setStack (s : State) (n d : Nat) (x : Stack) : domOf (setStack s n x) d = domOf s d := rfl
@[simp] theorem domOf_setDie (s : State) (i d : Nat) (x : Die) : domOf (setDie s i x) d = domOf s d := rfl
@[simp] theorem stackOf_setDom (s : State) (n d : Nat) (x : Dom) : stackOf (setDom s d x) n = stackOf s n := rfl
@[simp] theorem stackOf_setDie (s : State) (i n : Nat) (x : Die) : stackOf (setDie s i x) n = stackOf s n := rfl
@[simp] theorem dieOf_setDom (s : State) (i d : Nat) (x : Dom) : dieOf (setDom s d x) i = dieOf s i := rfl
@[simp] theorem dieOf_setStack (s : State) (i n : Nat) (x : Stack) : dieOf (setStack s n x) i = dieOf s i := rfl

/-- A byte of host memory that the device wrote is read back. -/
theorem hostByte_hostWrite_same (s : State) (space addr : Nat) (bs : List Byte) (i : Nat) (h : i < bs.length) :
    hostByte (hostWrite s space addr bs) space (addr + i) = bs[i] := by
  simp only [hostByte, hostWrite]
  rw [← Nat.add_assoc]; exact tabGet_putBytes_same _ _ _ _ h
/-- A byte of host memory outside the bytes the device wrote reads as before. -/
theorem hostByte_hostWrite_other (s : State) (space addr sp a : Nat) (bs : List Byte)
    (h : sp * 2 ^ 64 + a < space * 2 ^ 64 + addr ∨ space * 2 ^ 64 + addr + bs.length ≤ sp * 2 ^ 64 + a) :
    hostByte (hostWrite s space addr bs) sp a = hostByte s sp a :=
  tabGet_putBytes_other _ _ _ _ h

@[simp] theorem logRefused_wlog (s : State) (r : Requester) (off : Nat) (data : Word) (status : Nat) :
    (logRefused s r off data status).rf.wlogCount = s.rf.wlogCount + 1 := rfl
@[simp] theorem send_sent (s : State) (m : Sent) : (send s m).sent = (s.gt, m) :: s.sent := rfl

end Sys2Proof.Machine
end

