-- ==== Sys2Proof/Machine/Flags.lean ====
section
/-!
DEFINITION. The device's alert outputs and interrupt conditions, as functions of its state (14_power_clocks_thermal.md R464;
15_reset_boot.md R490; 16_flacon.md R525; 17_faults.md R545).
-/
namespace Sys2Proof.Machine

/-- HUB_FLT_STATUS.PENDING (17 R547): an ALERT record lies above HUB_FLT_ACK. -/
def fltPending (s : State) : Bool := s.flt.recs.any fun x => x.alert && decide ((regVal s 0x80C).toNat < x.seq)

/-- THERM# is asserted (14 R464; 15 R490): a die throttles, or a trip's cooling wait runs (`thermOut`). -/
def thermPin (s : State) : Bool := thermOut s

/-- ALERT# is asserted (17 R545; 14 R464): by a pending record or by thermal state. -/
def alertPin (s : State) : Bool := fltPending s || hotOut s

/-- Groups of pins that resets treat alike (15 R489). -/
inductive PinGroup where
  | digital | straps | xspi | i3c | alerts | resets | tap
  deriving DecidableEq, Repr

/-- How a group of pins is held (15 R489). -/
inductive PinHold where
  | pullUp | firmware | hub | input | island | released | testReset
  deriving DecidableEq, Repr

/-- How the device holds a group of pins (15 R489): during a cold reset the island answers and drives nothing, but through a thermal
trip, which it outlives (R490, R498). -/
def pinHold (s : State) (g : PinGroup) : PinHold :=
  let cold := !s.rst.warmReset && !s.rst.tripped && regBits s 0x300014 3 0 = 0
  match g with
  | .digital => if bootReady s then .firmware else .pullUp
  | .straps => .pullUp
  | .xspi => if regBits s 0x300014 3 0 = 0 then .pullUp else .hub
  | .i3c => if cold then .input else .island
  | .alerts => if cold then .released else .island
  | .resets => .input
  | .tap => .testReset

/-- FLC_ALERT# is asserted (16 R525). -/
def flcAlertPin (s : State) : Bool := flcAlert s

end Sys2Proof.Machine
end

