-- ==== Sys2Proof/Machine/I3c.lean ====
section
/-!
DEFINITION. The two I3C targets' addresses (19_package_pins.md R586): the hub's and Flacon's. The opcode table has no row for the bus
commands that assign a dynamic address; these are the operations they would be.
-/
namespace Sys2Proof.Machine

/-- The static address of the hub's I3C target: 0x30 + TRAYPOS (19 R586). -/
def hubStatic (s : State) : Nat := 0x30 + s.rst.trayPos

/-- The static address of Flacon's I3C target: 0x38 + FLC_ADDR (19 R586).
DESIGN CHOICE: notes/assumptions/102. -/
def flcStatic : Nat := 0x38 + Config.flcAddr.toNat

/-- The address a target answers to: its dynamic one, else its static one (19 R586). -/
def hubAddr (s : State) : Nat := s.i3c.hub.getD (hubStatic s)
def flcAddr (s : State) : Nat := s.i3c.flc.getD flcStatic

/-- SETDASA: the target of a static address takes a dynamic one (19 R586). -/
def setdasa (s : State) (static dynamic : Nat) : State :=
  if static = hubStatic s ∧ s.i3c.hub.isNone then { s with i3c := { s.i3c with hub := some dynamic } }
  else if static = flcStatic ∧ s.i3c.flc.isNone then { s with i3c := { s.i3c with flc := some dynamic } }
  else s

/-- ENTDAA: a target without a dynamic address takes one; of two on one bus, the order of arbitration gives which (19 R586). -/
def entdaa (s : State) (flacon : Bool) (dynamic : Nat) : State :=
  if flacon then (if s.i3c.flc.isNone then { s with i3c := { s.i3c with flc := some dynamic } } else s)
  else if s.i3c.hub.isNone then { s with i3c := { s.i3c with hub := some dynamic } } else s

end Sys2Proof.Machine
end

