-- ==== Sys2Proof/Tests/Slice0.lean ====
section
/-!
SUPPORT. The model's own tests: well-formed and ill-formed commands, states and operands that meet the hypotheses of each statement, and
values the spec gives. Expected values come from the spec.
-/
open Sys2Proof Sys2Proof.Machine
namespace Sys2Proof.Tests

/-! ### Well-formed commands: one term that each check admits, and one that it refuses -/

theorem test_wf_endpoint : (Instr.pathRemap 29#5).wellFormed = true ∧ (Instr.pathRemap 30#5).wellFormed = false := by decide
theorem test_wf_field : (Instr.laserGate 11#4 0#3).wellFormed = true ∧ (Instr.laserGate 12#4 0#3).wellFormed = false := by decide
theorem test_wf_bus : (Instr.laserFailoverDone 0#4 5#3).wellFormed = true ∧ (Instr.laserFailoverDone 0#4 6#3).wellFormed = false := by decide
theorem test_wf_bundle : (Instr.linkDown 11#4 0#3).wellFormed = true ∧ (Instr.linkDown 12#4 0#3).wellFormed = false := ⟨rfl, rfl⟩
theorem test_wf_tile : (Instr.tileSilent ⟨0#11, true⟩).wellFormed = true ∧ ∃ t, (Instr.tileSilent ⟨t, true⟩).wellFormed = false :=
  ⟨by decide, 0x78#11, by decide⟩
theorem test_wf_lane : (Instr.bundleCrcReplay 0#5 0#8).wellFormed = true ∧ (Instr.bundleCrcReplay 31#5 255#8).wellFormed = false := by decide
theorem test_wf_line : (Instr.completionData 0#3 0#16 0#8 (List.replicate 128 0#8)).wellFormed = true ∧
    (Instr.completionData 0#3 0#16 0#8 [0#8]).wellFormed = false :=
  ⟨show lineOk (List.replicate 128 0#8) = true by simp [lineOk], rfl⟩
theorem test_wf_thermal : (Instr.throttleStep 28#5).wellFormed = true ∧ (Instr.throttleStep 29#5).wellFormed = false := by decide
theorem test_wf_power : (Instr.regulatorFault 48#6).wellFormed = true ∧ (Instr.regulatorFault 49#6).wellFormed = false := by decide
theorem test_wf_die : (Instr.heartbeat 19#5).wellFormed = true ∧ (Instr.heartbeat 20#5).wellFormed = false ∧ (Instr.heartbeat 29#5).wellFormed = false := by decide
theorem test_wf_vf : (Instr.tdiStart 1#6).wellFormed = true ∧ (Instr.tdiStart 0#6).wellFormed = false := by decide
theorem test_wf_lo : (Instr.loRegisterRead .host 0x1400038#26).wellFormed = true ∧ (Instr.loRegisterRead .host 0x140003C#26).wellFormed = false := by decide
theorem test_wf_lock : (Instr.lockWrite .host 0xFF0#26 1#32).wellFormed = true ∧ (Instr.lockWrite .host 0#26 1#32).wellFormed = false := by decide
theorem test_wf_bank : (Instr.reservoirRefresh 0#3 71#7).wellFormed = true ∧ (Instr.reservoirRefresh 0#3 72#7).wellFormed = false := by decide
theorem test_wf_replica : (Instr.replicaSample 0#4 (List.replicate 32 0#8)).wellFormed = true ∧ (Instr.replicaSample 0#4 []).wellFormed = false := by decide
theorem test_wf_pll : (Instr.diePllUnlock 43#6 true).wellFormed = true ∧ (Instr.diePllUnlock 48#6 true).wellFormed = false := by decide

/-! ### The rows of the table give no bits -/

theorem test_no_words : decodeTableWord 8 0 = none ∧ State.reset.withFetchWord 8 0 = State.reset := ⟨rfl, rfl⟩

/-! ### Small states -/

/-- Whether a command answers a next state of which `p` holds. -/
def after (c : Instr) (s : State) (p : State → Bool) : Bool := match exec c s with | .next t => p t | _ => false

/-- Reset with domains. -/
def withDoms (ds : List (Nat × Dom)) : State := { State.reset with arr := { State.reset.arr with doms := ds } }

/-- Reset with contexts. -/
def withCtxs (cs : List (Nat × Ctx)) : State := { State.reset with ctxs := cs }

/-- Dies in service. -/
def up (dies : List Nat) (s : State) : State := { s with arr := { s.arr with dies := dies.map fun i => (i, { st := .inService }) } }

/-- An operation of an opcode that reads tensor 1, with attributes. -/
def demoOp (opcode : Nat) (attr : List Byte) : OpRec := ⟨opcode, 7, none, none, [some 1], attr⟩

/-- A ready Formula of one operation, with one input of two raw accumulators. -/
def demoFormula (o : OpRec) : Formula :=
  { abi := 1, sillage := false, maxBatch := 1, minStacks := 0, formulaId := 7, weightBytes := 0, kvBytes := 0, maxSeq := 8, build := 0,
    entryPrefill := 0, entryDecode := 0, tensors := [⟨1, .input, .xacc112, 0, false, 1, [2], none, none⟩], chunks := [],
    steps := [⟨0, 1, []⟩], ops := [o], kernels := [], hints := [], constData := [] }

/-- An instance of it in domain 0, loaded by context 5. -/
def demoInst (o : OpRec) : Inst := ⟨.ready, demoFormula o, 0, 0, 5, [], [], false⟩

/-- A session at its start. -/
def demoSession : Session := ⟨0, 0, 1, none, [], [], [], [], [], none, false, 0⟩

/-- A row of two accumulators of a context. -/
def demoTensor : Tensor := ⟨.xacc112, 2, [.raw 0 [⟨1, .none⟩, ⟨2, .none⟩]], ⟨true, 0⟩, []⟩

/-- A live row of context 5. -/
def demoRow : BatchRow := ⟨5, demoSession, 0, 0, 0, false, false, true, [(1, demoTensor)], 0, false, 0, 0, 0, false, none, none, none, false, [], false, [], 0, false, []⟩

/-- A batch of that row. -/
def demoBatch : Batch := ⟨3, 0, 0, [demoRow], 0, none, false, true, 0, 1, 0⟩

/-- Domain 0 runs an operation of instance 3. -/
def running (o : OpRec) : State :=
  { withDoms [(0, { phase := .running, batch := some demoBatch })] with insts := [(3, demoInst o)] }

/-! ### Hypotheses met: each theorem shows states and operands that meet the hypotheses of the statement it names -/

theorem met_StepIdleTicks : (State.reset.pending = [] ∧ State.reset.fab.time.hold = 0) ∧
    ∃ s : State, s.pending = [] ∧ s.fab.time.hold = 0 + 1 :=
  ⟨⟨rfl, rfl⟩, { State.reset with fab := { time := { hold := 1 } } }, rfl, rfl⟩

theorem met_ResetState : (0x44 : Nat) ≠ 0x300000 := by decide

theorem met_StepKeepsInvariant : Inv State.reset ∧ ∃ t, step State.reset = .next t :=
  ⟨⟨⟨rfl, rfl⟩, ⟨by decide, by decide, by decide⟩, rfl⟩, _, rfl⟩

theorem met_MicrokernelArithmetic : KernOk State.reset ∧ (1 : Nat) ≠ (0#6).toNat := ⟨rfl, by decide⟩

theorem met_MicrokernelMoves : KernOk State.reset ∧ (63 : Nat) ≠ (0#6).toNat := ⟨rfl, by decide⟩

/-- An operation with a given opcode executes. -/
theorem runs_op (n : Nat) (a : List Byte) : Executing (running (demoOp n a)) 0#3 n demoBatch (demoInst (demoOp n a)) (demoOp n a) :=
  ⟨rfl, rfl, rfl, rfl, rfl, (fun h => nomatch h), rfl⟩

theorem met_OperationsOfRows : ∀ n, n ∈ [0x03, 0x04, 0x05, 0x08, 0x09, 0x0A, 0x0B, 0x0C, 0x0D, 0x0E, 0x0F] →
    ∃ s b i o, Executing s 0#3 n b i o := fun n _ => ⟨_, _, _, _, runs_op n []⟩

/-- A matrix operation with TRAY_SCOPE 1 whose output, tensor 2, an ALLREDUCE of devices 0 and 1 consumes. -/
def scopedOp (opcode : Nat) : OpRec := ⟨opcode, 7, none, some 2, [some 1], [1, 0, 1]⟩
def scopedInst (opcode : Nat) : Inst :=
  { demoInst (scopedOp opcode) with
    f := { demoFormula (scopedOp opcode) with steps := [⟨0, 2, []⟩], ops := [scopedOp opcode, ⟨0x10, 7, none, some 3, [some 2], [3]⟩] } }

theorem met_OperationsOfBatch : (∀ n, n ∈ [0x01, 0x02, 0x07] → ∃ s b i o, Executing s 0#3 n b i o) ∧
    (∃ s b i o, Executing s 0#3 0x06 b i o ∧ b.exact = true) ∧
    (attr (demoOp 0x01 []) 0 1 ≠ 1 ∧ attr (demoOp 0x02 []) 2 1 ≠ 1 ∧ attr (scopedOp 0x01) 0 1 = 1 ∧ attr (scopedOp 0x02) 2 1 = 1) ∧
    (∀ n, n ∈ [0x01, 0x02] → ∃ s b, Executing s 0#3 n b (scopedInst n) (scopedOp n) ∧ trayPeers (scopedInst n).f (scopedOp n) (opIndex (scopedInst n) b) s.rst.trayPos = [1]) ∧
    ((∀ w ∈ ([] : List (Nat × TrayWin)), w.1 ≠ 1) ∧ ∃ w ∈ ([(1, ⟨⟨true, 0⟩, [], 0⟩)] : List (Nat × TrayWin)), w.1 = 1) :=
  ⟨fun n _ => ⟨_, _, _, _, runs_op n []⟩, ⟨_, _, _, _, runs_op 0x06 [], rfl⟩, by decide,
    fun n h => ⟨{ running (scopedOp n) with insts := [(3, scopedInst n)] }, demoBatch, ⟨rfl, rfl, rfl, rfl, rfl, (fun h => nomatch h), rfl⟩, by
      simp only [List.mem_cons, List.not_mem_nil, or_false] at h; rcases h with h | h <;> subst h <;> decide⟩, by decide⟩

/-- Devices 0 and 1 take part. -/
def twoDevices : List Byte := [3#8]

/-- A command that is no timer waits, so a timer of this tick has not run out. -/
def waiting (s : State) : State := { s with pending := [.idcode] }

/-- Whether a timer of a tick has run out. -/
theorem ranOut_iff (s : State) (n : Nat) : RunOut s n ↔ ranOut s n = true := by
  simp [RunOut, ranOut]

theorem met_TrayCollectives : ∀ n, n = 0x10 ∨ n = 0x11 ∨ n = 0x12 ∨ n = 0x13 → let o := demoOp n twoDevices
    let s := running o
    let rows := demoBatch.rows
    Executing s 0#3 n demoBatch (demoInst o) o ∧ (namedDevices o).filter (· ≠ s.rst.trayPos) = [1] ∧
    delivered [] 1 = none ∧ delivered [(1, none)] 1 = some none ∧ delivered [(1, some [demoTensor])] 1 = some (some [demoTensor]) ∧
    (∃ a, outDecl (demoInst { o with out := some 1 }).f { o with out := some 1 } = some a ∧ isRaw a.fmt = true) ∧
    (∃ g ∈ allGroups 0 (demoInst o) o rows [(1, some [])], groupsAgree (ownGroups (demoInst o) o rows) g = false) ∧
    (∀ g ∈ allGroups 0 (demoInst o) o rows [(1, some [asGroup 5 demoTensor])], groupsAgree (ownGroups (demoInst o) o rows) g = true) ∧
    (∃ r, collective n 0 0 1 ((allGroups 0 (demoInst o) o rows [(1, some [asGroup 5 demoTensor])]).map batchTensor) = some r) ∧
    s.gt ≤ (domOf s 0).start + 2000000 ∧ (domOf s 0).start + 2000000 < ({ s with gt := 2000001 } : State).gt ∧
    RunOut { s with gt := 2000000 } ((domOf s 0).start + 2000000) ∧ ¬ RunOut (waiting { s with gt := 2000000 }) ((domOf s 0).start + 2000000) := by
  intro n h
  simp only [ranOut_iff]
  rcases h with h | h | h | h <;> subst h <;>
    exact ⟨runs_op _ _, rfl, rfl, rfl, rfl, ⟨_, rfl, rfl⟩, by decide, by decide, ⟨_, rfl⟩, by decide, by decide, by decide, by decide⟩

/-- Stack 0 of domain 0 is in service and the domain waits for it. -/
def readying (ready : List Nat) (by_ : Option Nat) : State :=
  let s := withDoms [(0, { phase := .readying, batch := some demoBatch, ready := ready, readyBy := by_ })]
  { s with gt := 9000, arr := { s.arr with dies := [(0, { st := .inService }), (1, { st := .inService })],
                                           memStacks := [(0, { domain := some 0 }), (1, { domain := some 0 })] } }

theorem met_AccordStart : let s := readying [] (some 9000)
    let u := readying [1] (some 9001);
    ((stackOf s (0#3).toNat).domain = some (0#3).toNat ∧ (domOf s 0).phase = .readying ∧ dieUp s 0 = true ∧ 0 ∉ (domOf s 0).ready ∧
      (tabGet s.pwr.clk {} 0).ramp = none ∧ ∃ m ∈ liveStacks s 0, m ≠ 0 ∧ m ∉ (domOf s 0).ready) ∧
    ((stackOf u 0).domain = some 0 ∧ (domOf u 0).phase = .readying ∧ dieUp u 0 = true ∧ 0 ∉ (domOf u 0).ready ∧ (tabGet u.pwr.clk {} 0).ramp = none ∧
      0 ∈ liveStacks u 0 ∧ (∀ m ∈ liveStacks u 0, m = 0 ∨ m ∈ (domOf u 0).ready) ∧ (domOf u 0).halted = false ∧ u.arr.noOps = false) ∧
    ((domOf s 0).readyBy = some 9000 ∧ (∀ lim, (domOf s 0).readyBy = some lim → s.gt ≤ lim) ∧ RunOut s 9000) ∧
    ((domOf u 0).readyBy = some 9001 ∧ (∀ lim, (domOf u 0).readyBy = some lim → u.gt ≤ lim) ∧ ¬ RunOut u 9001) ∧ ¬ RunOut (waiting s) 9000 := by
  simp only [ranOut_iff]
  refine ⟨⟨rfl, rfl, rfl, by decide, rfl, ⟨1, by decide, by decide, by decide⟩⟩, ⟨rfl, rfl, rfl, by decide, rfl, by decide, by decide, rfl, rfl⟩,
    ⟨rfl, fun l h => by cases h; decide, by decide⟩, ⟨rfl, fun l h => by cases h; decide, by decide⟩, by decide⟩

/-- Domain 0 in a phase, with a batch and a slice end. -/
def sliced (p : Phase) (e : Option Nat) : State :=
  { withDoms [(0, { phase := p, batch := some demoBatch, sliceEnd := e })] with insts := [(3, demoInst (demoOp 1 []))] }

/-- A reserved context whose step of 10 µs runs, at tick `gt`. -/
def overrun (gt : Nat) : State :=
  { sliced .running none with gt := gt, ctxs := [(5, { prov := some ⟨0, 2, 1, 1, 1, 1, 1, 10, 210⟩ })] }

/-- A unit that moves, of domain 0. -/
def movingUnit : Machine.PUnit := ⟨⟨.kv, 5, 1, 0, 0⟩, 64, 0, .port 0, none, none, 0, 0, false, false, false, false, true, false, none, false⟩

/-- Domain 0 runs the first operation of an instance, whose results are formed. -/
def formed (i : Inst) : State :=
  { withDoms [(0, { phase := .running, batch := some { demoBatch with result := some [demoRow] } })] with insts := [(3, i)] }

/-- Domain 0 runs the first of two parts of an operation; its slice may have ended. -/
def parted (e : Bool) : State :=
  { withDoms [(0, { phase := .running, batch := some { demoBatch with parts := 2 }, cut := e })] with insts := [(3, demoInst (demoOp 1 []))] }

/-- Port die 0 drains, with a unit homed there that moves, after some bytes in this millisecond. -/
def draining0 (used : Nat) (ph : Phase) : State :=
  { sliced ph none with plc := { State.reset.plc with units := [movingUnit], capRun := some (true, 16), drainUsed := used } }

theorem met_StepAndSliceEnds :
    (∀ p, p = .running ∨ p = .aborted ∨ p = .readying → (domOf (sliced p (some 0)) 0).batch = some demoBatch ∧
      (domOf (sliced p (some 0)) 0).sliceEnd = some 0 ∧ (domOf (sliced p (some 0)) 0).phase = p ∧ RunOut (sliced p (some 0)) 0 ∧
      ¬ RunOut (sliced p (some 1)) 1 ∧ ¬ RunOut (waiting (sliced p (some 0))) 0) ∧
    domFault { State.reset with pending := [.accordReadyTimeout 0#3] } 0 = true ∧
    (domFault State.reset 0 = false ∧ (domOf State.reset 0).batch = none ∧ (domOf State.reset 0).phase = .idle) ∧
    (let s := sliced .running none; domFault s 0 = false ∧ (domOf s 0).batch = some demoBatch ∧ tabFind s.insts demoBatch.inst = some (demoInst (demoOp 1 [])) ∧
      opOf (demoInst (demoOp 1 [])) demoBatch = some (demoOp 1 []) ∧ demoBatch.result = none ∧ demoBatch.parts ≤ demoBatch.part + 1) ∧
    (∀ e, e = false ∨ e = true → let b := { demoBatch with parts := 2 }
      let s := parted e; domFault s 0 = false ∧ (domOf s 0).batch = some b ∧ tabFind s.insts b.inst = some (demoInst (demoOp 1 [])) ∧ opOf (demoInst (demoOp 1 [])) b = some (demoOp 1 []) ∧
        b.result = none ∧ b.part + 1 < b.parts ∧ (domOf s 0).phase = .running ∧ (domOf s 0).start ≤ s.gt ∧
        cutsHere (installCopies (chargeTicks s 0 b.rows) 0) 0 (demoInst (demoOp 1 [])) { b with part := b.part + 1, attempt := 0 } = e) ∧
    (let i := demoInst (demoOp 1 [])
     let s := formed i
     let b := { demoBatch with result := some [demoRow] };
     domFault s 0 = false ∧ (domOf s 0).batch = some b ∧ tabFind s.insts b.inst = some i ∧ opOf i b = some (demoOp 1 []) ∧ (domOf s 0).start ≤ s.gt ∧
       (stepOf i b).map StepRec.count = some 1 ∧ 1 ≤ b.op + 1 ∧
       (domOf (endStep (installCopies (creditOp s 0 i (demoOp 1 []) b [demoRow]) 0) 0 i
         { b with op := b.op + 1, rows := settleRows [demoRow], result := none, attempt := 0, part := 0, parts := 1, seq := ((domOf s 0).opseq + 1) % 2 ^ 32 }) 0).parked = (domOf s 0).parked) ∧
    (let i := scopedInst 1
     let s := formed i
     let b := { demoBatch with result := some [demoRow] };
     domFault s 0 = false ∧ (domOf s 0).batch = some b ∧ tabFind s.insts b.inst = some i ∧ opOf i b = some (scopedOp 1) ∧ (domOf s 0).start ≤ s.gt ∧
       (stepOf i b).map StepRec.count = some 2 ∧ b.op + 1 < 2 ∧ cutsHere (installCopies (creditOp s 0 i (scopedOp 1) b [demoRow]) 0) 0 i
         { b with op := b.op + 1, rows := settleRows [demoRow], result := none, attempt := 0, part := 0, parts := 1, seq := ((domOf s 0).opseq + 1) % 2 ^ 32 } = false) ∧
    (let s := overrun 100000
      let k := ctxOf s 5
      let x := domOf s 0
      let now := if x.phase = .running ∧ (∃ b, x.batch = some b ∧ ∃ r ∈ b.rows, r.ctx = 5) then s.gt - x.start else 0
      ∃ p, k.prov = some p ∧ p.dom = 0 ∧ p.cls = 2 ∧ k.demoted = false ∧ inBatch s 5 = true ∧ quiet s = true ∧
        p.stepUs * 1000 * topFreq s ≤ (k.stepTicks + now) * stepFreq s 0) ∧
    (let s := { sliced .running none with plc := { State.reset.plc with units := [movingUnit] } };
      (s.plc.units.find? fun u => u.key = movingUnit.key && u.moving && !u.copied) = some movingUnit ∧ movingUnit.dom = 0 ∧
        (domOf s 0).phase = .running ∧ movingUnit.home ≠ .lost ∧ drainMove s movingUnit = none ∧ movingUnit.dest = none ∧ (copyDies movingUnit).any (faultPending s) = false ∧
        (copyDies movingUnit).any (faultPending { s with pending := [.heartbeatTimeout 16] }) = true) ∧
    (let s := draining0 0 .running; drainMove { s with plc := { s.plc with capRun := none } } { movingUnit with dest := some 0 } = none ∧
      migCap { s with plc := { s.plc with migUsed := 10 ^ 15 } } 0 < migUsedNow { s with plc := { s.plc with migUsed := 10 ^ 15 } } 0) ∧
    (drainMove (draining0 0 .running) movingUnit = some 2 ∧ fitsBudget (drainCap (draining0 0 .running) 0 2) (drainUsedNow (draining0 0 .running) 0 2) movingUnit.bytes = true ∧
      fitsBudget (drainCap (draining0 999999999999 .running) 0 2) (drainUsedNow (draining0 999999999999 .running) 0 2) movingUnit.bytes = false) := by
  simp only [ranOut_iff]
  refine ⟨fun p h => ?_, by decide, ⟨rfl, rfl, rfl⟩, ⟨rfl, rfl, rfl, rfl, rfl, by decide⟩, fun e h => ?_, ⟨rfl, rfl, rfl, rfl, by decide, rfl, by decide, rfl⟩, ⟨rfl, rfl, rfl, rfl, by decide, rfl, by decide, rfl⟩,
    ⟨_, rfl, rfl, rfl, rfl, by decide, rfl, ?_⟩, ⟨rfl, rfl, rfl, by decide, rfl, rfl, by decide, by decide⟩, by decide +kernel, by decide +kernel⟩
  · rcases h with h | h | h <;> subst h <;> decide
  · rcases h with h | h <;> subst h <;> exact ⟨rfl, rfl, rfl, rfl, rfl, by decide, rfl, by decide, rfl⟩
  · rw [if_pos ⟨rfl, demoBatch, rfl, demoRow, by simp [demoBatch], rfl⟩]
    decide

/-- A request that still runs, with a deadline. -/
def openAdm (deadline : Option Nat) : Adm :=
  ⟨9, false, false, .request ⟨⟨0, 0, 0, 0, 0, 0, 0, 0, 0, 0, 0, 0⟩, [], [], 0, 0, 0, false, none⟩, deadline, none⟩

/-- A frame of four bytes. -/
def demoFrame : Frame := ⟨0, 9, 1, 0, [1#8, 2#8, 3#8, 4#8], 0, 0⟩

theorem met_ReleaseAndExpiry :
    (let s := withCtxs [(5, { holdTimer := some 1 })]; (ctxOf s 5).holdTimer = some 1 ∧ ¬ RunOut s 1) ∧
    (let s := withCtxs [(5, { holdTimer := some 0, output := some ⟨[demoFrame], none, true, true, true, none⟩ })];
      (ctxOf s 5).holdTimer = some 0 ∧ RunOut s 0 ∧ ¬ RunOut (waiting s) 0 ∧ ∃ o, (ctxOf s 5).output = some o ∧ o.frames = demoFrame :: []) ∧
    (let s := withCtxs [(5, { queue := [openAdm none, openAdm (some 0), openAdm (some 1)] })];
      (ctxOf s 5).queue[0]? = some (openAdm none) ∧ (ctxOf s 5).queue[1]? = some (openAdm (some 0)) ∧ (openAdm (some 0)).done = none ∧ RunOut s 0 ∧
      (ctxOf s 5).queue[2]? = some (openAdm (some 1)) ∧ ¬ RunOut s 1 ∧ openRequest (openAdm (some 0)) = true ∧ (ctxOf s 5).space = none) ∧
    (let s := withCtxs [(5, { queue := [openAdm (some 0)], space := some ⟨0, 0⟩ })];
      (ctxOf s 5).queue[0]? = some (openAdm (some 0)) ∧ (ctxOf s 5).space ≠ none ∧ ∀ (m : Nat) b, m < 0 → (ctxOf s 5).queue[m]? = some b → openRequest b = false) := by
  simp only [ranOut_iff]
  exact ⟨⟨rfl, by decide⟩, ⟨rfl, by decide, by decide, _, rfl, rfl⟩, ⟨rfl, rfl, rfl, by decide, rfl, by decide, rfl, rfl⟩, rfl, by decide,
    fun m b h => absurd h (Nat.not_lt_zero _)⟩

/-- A context enabled with rings of 16 entries, some fields as given. -/
def onCtx : Ctx := { enable := true, enabled := true, ver := 1, sqLog := 4, cqLog := 4, rqLog := 4, sqTail := 1, prov := some ⟨0, 0, 1, 8, 8, 1, 0, 0, 0⟩ }

theorem met_Doorbells :
    pageCtx State.reset (.vf 0#6 0#6) = none ∧ pageCtx (withCtxs [(5, onCtx)]) (.pf 5#12) = some 5 ∧ (ctxOf (withCtxs [(5, onCtx)]) 5).enabled = true ∧
    (ctxOf (withCtxs [(5, onCtx)]) 5).enable = true ∧ (15 : Nat) = (15#32 : Word).toNat % 65536 ∧ 15 < 2 ^ (ctxOf (withCtxs [(5, onCtx)]) 5).sqLog ∧
    2 ^ (ctxOf (withCtxs [(5, onCtx)]) 5).sqLog ≤ 16 ∧ (ctxOf State.reset 5).enabled = false ∧
    ((ctxOf (withCtxs [(5, { onCtx with holdTimer := some 0 })]) 5).holdTimer = some 0 ∧ (withCtxs []).gt ≤ 0 ∧ 0 < ({ withCtxs [] with gt := 1 } : State).gt) ∧
    (ctxOf (withCtxs [(5, { onCtx with stopped := some 3 })]) 5).stopped = some (3#32 : Word).toNat ∧
    (ctxOf (withCtxs [(5, onCtx)]) 5).stopped ≠ some (3#32 : Word).toNat := by decide

theorem met_DescriptorsArrive : Quiet (ctxOf (withCtxs [(5, { onCtx with cqLog := 4 })]) (5#12).toNat) ∧ (ctxOf State.reset 5).enable = false :=
  ⟨⟨rfl, rfl, rfl, rfl, rfl, rfl, rfl, rfl, by decide, by decide⟩, rfl⟩

/-- A header of version 1. -/
def head1 : DescHead := ⟨1#4, 7#16, false, false⟩

/-- A request without input. -/
def emptyReq : ReqBody := ⟨0, 0, 0, 1, 0, 0, 0, 0, 0, 0, 0, 0⟩

/-- Context 5 enabled, with domain 0 and an instance it loaded, in a state; bound or not. -/
def hosting (st : InstState) (bound : Bool) (chunks : List ChunkDecl) : State :=
  { withDoms [(0, { t2Gib := 1 })] with
    ctxs := [(5, { onCtx with inst := if bound then some 3 else none, session := if bound then some demoSession else none })],
    insts := [(3, { demoInst (demoOp 1 []) with st := st, f := { demoFormula (demoOp 1 []) with chunks := chunks } })] }

/-- The same with an open request of tag 9. -/
def hostingOpen : State := withCtxs [(5, { onCtx with queue := [openAdm none] })]

/-- A chunk of no bytes of tensor 1. -/
def noChunk : ChunkDecl := ⟨1, 0, 0, 0, []⟩

/-- A management descriptor is open at context 5, at the front of the device's queue, in a state. -/
def atTurn (s : State) (w : Work) : State :=
  { s with ctxs := s.ctxs.map fun e => (e.1, { e.2 with queue := [⟨9, false, true, w, none, none⟩] }), mgmt := [(0, 5)] }

theorem met_DescriptorsDo :
    refusal State.reset 5 ⟨head1, .nop⟩ ≠ none ∧
    (refusal (hosting .ready true []) 5 ⟨head1, .request emptyReq⟩ = none ∧ (instOf (hosting .ready true []) 5).isSome = true ∧ emptyReq.rflags.getLsbD 4 = false) ∧
    (refusal hostingOpen 5 ⟨head1, .cancel 9#16⟩ = none ∧ (∃ a ∈ (ctxOf hostingOpen 5).queue, openRequest a = true ∧ a.tag = (9#16).toNat) ∧
      ∀ a ∈ (ctxOf hostingOpen 5).queue, openRequest a = true → a.tag ≠ (8#16).toNat) ∧
    refusal hostingOpen 5 ⟨head1, .nop⟩ = none ∧
    (∀ b, b ∈ [DescBody.load 128#64 1#64, .chunk 128#64 0#32 3#8, .unload 3#8, .bind 3#8 false 0#8] → refusal hostingOpen 5 ⟨head1, b⟩ = none) ∧
    (∀ b, b ∈ [DescBody.unbind, .pin ⟨3, 0, 1, 0, 0, 1⟩] → refusal (hosting .ready true []) 5 ⟨head1, b⟩ = none) ∧ (∀ e ∈ [((0 : Nat), (5 : Nat))], e.1 = State.reset.gt → e.2 ≤ 5) ∧
    (∀ b, b ∈ [DescBody.unload 3#8, .bind 3#8 false 0#8, .pin ⟨3, 0, 1, 0, 0, 1⟩] →
      yieldsTurn (hosting .ready false []) 5 b = false ∧ turnRefusal (hosting .ready false []) 5 b = none ∧ turnRefusal (withCtxs [(5, onCtx)]) 5 b ≠ none) ∧
    turnRefusal (hosting .ready true []) 5 .unbind = none ∧ (tabFind (hosting .ready false []).insts 3).isSome = true ∧ (ctxOf (hosting .ready false []) 5).prov.isSome = true ∧
    (let s := atTurn (hosting .ready false []) (.queued (.unload 3#8)); s.mgmt = (0, 5) :: [] ∧ mgmtWork (ctxOf s 5) = some (.queued (.unload 3#8)) ∧
      (turnOf s 5 (.queued (.unload 3#8))).isSome = true) ∧
    (let s := atTurn (hosting .loading false [noChunk]) (.chunk 128 0 3); mgmtWork (ctxOf s 5) = some (.chunk 128 0 3) ∧ turnOf s 5 (.chunk 128 0 3) = none) := by
  decide +kernel

/-- READY is set, registers as given besides. -/
def booted (vals : List (Nat × Word)) : State :=
  { State.reset with rf := { State.reset.rf with vals := ((0x300000, 1#32) :: (0x300014, 0x80000007#32) :: vals) } }

/-- A page of a context that may be enabled. -/
def offCtx : Ctx := { onCtx with enable := false, enabled := false }

theorem met_ContextEnabled :
    pageCtx State.reset (.vf 0#6 0#6) = none ∧
    (let s := { booted [] with ctxs := [(5, offCtx)] }; pageCtx s (.pf 5#12) = some 5 ∧ (ctxOf s 5).enable = false ∧ (ctxOf s 5).enabled = false ∧
      (4 ≤ (ctxOf s 5).sqLog ∧ (ctxOf s 5).sqLog ≤ 16 ∧ 4 ≤ (ctxOf s 5).cqLog ∧ (ctxOf s 5).cqLog ≤ 16 ∧ 4 ≤ (ctxOf s 5).rqLog ∧ (ctxOf s 5).rqLog ≤ 16) ∧
      (0x80100000#32 : Word).toNat / 2 ^ 20 % 16 = 1 ∧ (ctxOf s 5).prov.isSome = true ∧ ((ctxOf s 5).mirror && (ctxOf s 5).shadow) = false ∧
      (regVal s 0x3400000).getLsbD 31 = false ∧ bootReady s = true ∧ (ctxOf s 5).shadow = false ∧ enableRefusal s (ctxOf s 5) 0#32 ≠ none) ∧
    (ctxOf { booted [] with ctxs := [(5, { offCtx with shadow := true })] } 5).shadow = true ∧
    (let s := { booted [] with ctxs := [(5, onCtx), (6, { onCtx with standby := true })] }; (ctxOf s 5).enable = true ∧ (ctxOf s 5).standby = false ∧
      (ctxOf s 6).enable = true ∧ (ctxOf s 6).standby = true ∧ pageCtx s (.pf 6#12) = some 6) := by
  decide +kernel

theorem met_HostReads : let s := withCtxs [(5, { onCtx with rqTail := 1 })];
    ((ctxOf s 5).enabled = true ∧ (ctxOf s 5).error = false ∧
      ((ctxOf s 5).rqHead + (ctxOf s 5).buffers.length) % ringSize (ctxOf s 5).rqLog ≠ (ctxOf s 5).rqTail) ∧ (ctxOf State.reset 5).enabled = false ∧
    (readLate s (.submission 5) = false ∧ readLate s (.bufferEntry 5) = false) ∧
    (∀ a, a = .submission 5 ∨ a = .bufferEntry 5 → readLate { s with gt := 1, dma := { waits := [⟨a, 0, 0⟩] } } a = true) := by
  refine ⟨by decide, by decide, by decide, fun a h => ?_⟩
  rcases h with h | h <;> subst h <;> decide

/-- VF 1's slot 0 maps context 5. -/
def mapped : State := booted [(0x804000, 0x80000005#32)]

theorem met_TimersAndMaps :
    (let s := withCtxs [(5, { coalesce := some 0, space := some ⟨0, 0⟩ })]; (ctxOf s 5).coalesce = some 0 ∧ RunOut s 0 ∧ ¬ RunOut (waiting s) 0 ∧ (ctxOf s 5).space = some ⟨0, 0⟩ ∧ 0 ≤ s.gt) ∧
    (let s := withCtxs [(5, { coalesce := some 1, space := some ⟨0, 1⟩ })]; (ctxOf s 5).coalesce = some 1 ∧ ¬ RunOut s 1 ∧ (ctxOf s 5).space = some ⟨0, 1⟩ ∧ s.gt < 1) ∧
    ((1#6 : BitVec 6) ≠ 0#6 ∧ barsOff mapped = false ∧ 4095 < (4096#32 : Word).toNat % 65536 ∧ (4095#32 : Word).toNat % 65536 ≤ 4095) ∧
    (slotCtx { mapped with ctxs := [(5, onCtx)] } 1 0 = some 5 ∧ (ctxOf { mapped with ctxs := [(5, onCtx)] } 5).enable = true) ∧
    (∃ e ∈ mapped.rf.vals, 0x804000 ≤ e.1 ∧ e.1 < 0x807F00 ∧ e.1 ≠ vfmapOff 1 1 ∧ e.2.getLsbD 31 = true ∧ e.2.toNat % 65536 = 5) ∧
    (tdiLocked mapped 1 = false ∧ (∀ old, slotCtx mapped 1 0 = some old → ¬ ((ctxOf mapped old).enable = true ∨ (ctxOf mapped old).enabled = true)) ∧
      (0x80000006#32 : Word).toNat % 65536 = 6 ∧ (ctxOf mapped 6).enable = false ∧ (ctxOf mapped 6).enabled = false) ∧
    tdiLocked { mapped with sec := { tdi := [(1, .run)] } } 1 = true ∧
    ((ctxOf (withCtxs [(5, { irqNow := 0x80000000#32 })]) 5).irqNow.getLsbD 31 = true ∧ (ctxOf State.reset 5).irqNow.getLsbD 31 = false) ∧
    (vfEnabled mapped (32 / 32) = true ∧ (tabGet mapped.rf.msix {} (32 * 0 + 3)).masked = true ∧
      (tabGet { mapped.rf with msix := [(3, { masked := false })] }.msix {} (32 * 0 + 3)).masked = false) := by
  simp only [ranOut_iff]
  refine ⟨by decide, by decide, by decide +kernel, by decide +kernel, ⟨(0x804000, 0x80000005#32), by decide, by decide⟩, ⟨by decide +kernel, ?_, by decide, rfl, rfl⟩, rfl,
    by decide, by decide +kernel⟩
  intro old h
  simp [mapped, booted, ctxOf, tabGet, tabFind, Ctx.off, State.reset]

/-- A Formula core of one step that converts an FP32 activation to itself: header and section table, program, tensor table, and a signature that
holds under `demoKey` (04 R101 to R115; the key is chosen so that the check is short). -/
def demoCore : List Byte :=
  [0x46, 0x52, 0x4D, 0x4C, 0x01, 0x01, 0x00, 0x00, 0x80, 0x03, 0x00, 0x00, 0x00, 0x00, 0x00, 0x00, 0x04, 0x00, 0x01, 0x00, 0x01] ++
  List.replicate 31 0#8 ++
  [0x01] ++
  List.replicate 75 0#8 ++
  [0x01, 0x00, 0x00, 0x00, 0x0E, 0xFC, 0x3A, 0x40, 0x00, 0x01, 0x00, 0x00, 0x00, 0x00, 0x00, 0x00, 0x70] ++
  List.replicate 15 0#8 ++
  [0x02, 0x00, 0x00, 0x00, 0x70, 0xD0, 0xDE, 0xA4, 0x80, 0x01, 0x00, 0x00, 0x00, 0x00, 0x00, 0x00, 0x48] ++
  List.replicate 15 0#8 ++
  [0x06, 0x00, 0x00, 0x00, 0x52, 0xD0, 0x16, 0xA0, 0x00, 0x02, 0x00, 0x00, 0x00, 0x00, 0x00, 0x00, 0x01] ++
  List.replicate 15 0#8 ++
  [0x07, 0x00, 0x00, 0x00, 0x00, 0x00, 0x00, 0x00, 0x00, 0x03, 0x00, 0x00, 0x00, 0x00, 0x00, 0x00, 0x80] ++
  List.replicate 15 0#8 ++
  [0x01, 0x00, 0x00, 0x00, 0x00, 0x00, 0x01] ++
  List.replicate 13 0#8 ++
  [0x01] ++
  List.replicate 27 0#8 ++
  [0x0E, 0x09, 0xFF, 0xFF, 0x01, 0x00, 0x01, 0x00, 0xFF, 0xFF, 0xFF, 0xFF, 0xFF, 0xFF] ++
  List.replicate 66 0#8 ++
  [0x01, 0x00, 0x00, 0x00, 0x00, 0x00, 0x00, 0x00, 0x01, 0x00, 0x06, 0x09, 0x01, 0x00, 0x00, 0x00, 0x01, 0x00, 0x00, 0x00, 0x01, 0x00, 0x00, 0x00, 0x01, 0x00, 0x00, 0x00, 0x01] ++
  List.replicate 11 0#8 ++
  [0xFF, 0xFF, 0xFF, 0xFF, 0xFF, 0xFF, 0xFF, 0xFF] ++
  List.replicate 80 0#8 ++
  [0x01] ++
  List.replicate 256 0#8 ++
  [0x01] ++
  List.replicate 14 0#8 ++
  [0x4D, 0x1A, 0xD2, 0x63, 0xD8, 0x73, 0x13, 0xB1, 0x66, 0xFF, 0x69, 0x27, 0x63, 0x8E, 0x05, 0xC7, 0xAD, 0x73, 0xAB, 0xE6, 0xE9, 0x2E, 0xE4, 0xF2, 0x7E, 0x0F, 0x4D, 0xFA, 0x9D, 0xE5, 0x5A, 0xEF, 0xC9, 0xD1, 0xD6, 0xD5, 0x2B, 0x16, 0xF4, 0x93, 0x32, 0xBB, 0x5A, 0x30, 0x2C, 0x1A, 0xD8, 0xCF, 0x4D, 0x1A, 0xD2, 0x63, 0xD8, 0x73, 0x13, 0xB1, 0x66, 0xFF, 0x69, 0x27, 0x63, 0x8E, 0x05, 0xC7, 0xAD, 0x73, 0xAB, 0xE6, 0xE9, 0x2E, 0xE4, 0xF2, 0x7E, 0x0F, 0x4D, 0xFA, 0x9D, 0xE5, 0x5A, 0xEF, 0xC9, 0xD1, 0xD6, 0xD5, 0x2B, 0x16, 0xF4, 0x93, 0x32, 0xBB, 0x5A, 0x30, 0x2C, 0x1A, 0xD8, 0xCF] ++
  List.replicate 16 0#8

/-- The key of a signer slot under which `demoCore` verifies. -/
def demoKey : Nat × Nat :=
  (0xFB8372516429F79553788017A1A893A27D458ECE5D19DC5AC0661539FE661C878002EF1B4BDD455BC9394EBE08D4353E,
   0xD7EF5E0F261287412D1134C1F94833A07DE82F368E1289F9AB81214E775B9C033FA750A903D116FF7D68364B8BF511E5)

/-- A Formula that passes the checks and satisfies a test. -/
def passes (e : Except Nat Formula) (p : Formula → Bool) : Bool := match e with | .ok f => p f | .error _ => false

theorem passes_some {e : Except Nat Formula} {p : Formula → Bool} (h : passes e p = true) : ∃ f, e = .ok f ∧ p f = true := by
  cases e with
  | error x => cases h
  | ok f => exact ⟨f, rfl, h⟩

/-- `demoCore` passes every check of a load: it needs one stack and one byte, and pins nothing (04 R109). -/
theorem test_core_passes : passes (checkCore 896 1 0 [⟨true, true, demoKey, 0⟩] demoCore)
    (fun f => decide (f.minStacks = 1) && decide (f.weightBytes + f.constData.length + reserveBytes f = 1) && decide ((f.hints.filter fun q => q.kind = 1) = [])) = true := by
  decide +kernel

/-- Context 5 loads a Formula into domain 0, with one stack (or none) and a share of T2. -/
def loadingState (stack : Option Nat) (t2 : Nat) : State :=
  { withDoms [(0, { t2Gib := t2 })] with
    arr := { State.reset.arr with doms := [(0, { t2Gib := t2 })], dies := [(0, { st := .inService })], memStacks := [(0, { domain := stack })] },
    sec := { slots := [⟨true, true, demoKey, 0⟩] },
    ctxs := [(5, { onCtx with queue := [⟨9, false, true, .loading 128 896, none, none⟩] })] }

/-- Context 5 delivers chunk 0 of instance 3, of no bytes, which is there already or not. -/
def chunkState (digest : List Byte) (held : Bool) : State :=
  { withCtxs [(5, { onCtx with queue := [⟨9, false, true, .chunk 128 0 3, none, none⟩] })] with
    insts := [(3, { demoInst (demoOp 1 []) with st := .loading, chunks := if held then [(0, [])] else [], f := { demoFormula (demoOp 1 []) with chunks := [⟨1, 0, 0, 0, digest⟩] } })] }

/-- An instance whose chunks have all arrived. -/
def lastInst (st : InstState) (exchange : Bool) : Inst := { demoInst (demoOp 1 []) with st := st, exchange := exchange }

theorem met_FormulaLoading :
    (mgmtWork (ctxOf State.reset 5) = none ∧ serving State.reset 5 = none ∧ serving { State.reset with dma := { chans := [(0, { serves := some 5 })] } } 5 = some 0) ∧
    tabFind State.reset.insts 3 = none ∧
    (let s := loadingState (some 0) 1; mgmtWork (ctxOf s 5) = some (.loading 128 896) ∧ (ctxOf s 5).prov = some ⟨0, 0, 1, 8, 8, 1, 0, 0, 0⟩ ∧ freeHandle s = some 0 ∧
      checkCore 896 (ctxOf s 5).ver s.rst.trayPos s.sec.slots [] = .error stFmlaFormat ∧
      ∃ f, checkCore 896 (ctxOf s 5).ver s.rst.trayPos s.sec.slots demoCore = .ok f ∧ (liveStacks (loadingState none 1) 0).length < f.minStacks ∧
        f.minStacks ≤ (liveStacks s 0).length ∧ f.minStacks ≤ (liveStacks (loadingState (some 0) 0) 0).length ∧
        t2Free (loadingState (some 0) 0) 0 < f.weightBytes + f.constData.length + reserveBytes f ∧
        f.weightBytes + f.constData.length + reserveBytes f ≤ t2Free s 0 ∧ (f.hints.filter fun q => q.kind = 1) = []) ∧
    freeHandle { State.reset with insts := (List.range 64).map fun h => (h, demoInst (demoOp 1 [])) } = none ∧
    (∀ digest, let s := chunkState digest false; mgmtWork (ctxOf s 5) = some (.chunk 128 0 3) ∧ turnRefusal s 5 (.chunk 0#64 0#32 3#8) = none ∧ ∃ i g, tabFind s.insts 3 = some i ∧ i.f.chunks[0]? = some g ∧
      tabFind i.chunks 0 = none ∧ ([] : List Byte).length = g.length ∧ g.digest = digest ∧ ([0#8] : List Byte).length ≠ g.length) ∧
    (∃ i, tabFind (chunkState [] true).insts 3 = some i ∧ (tabFind i.chunks 0).isSome = true) ∧
    (let s := { State.reset with insts := [(3, lastInst .loading true)] }; ∃ i, tabFind s.insts (3#6).toNat = some i ∧ i.st = .loading ∧ i.exchange = true ∧
      i.chunks.length = i.f.chunks.length) ∧
    (let s := { State.reset with insts := [(3, lastInst .loading false)] }; ∃ i, tabFind s.insts 3 = some i ∧ i.st = .loading ∧ i.exchange = false ∧
      i.chunks.length = i.f.chunks.length ∧ i.f.chunks = [] ∧ loadOwed s i 3 = false ∧
      loadOwed { s with ctxs := [(5, { queue := [⟨9, false, true, .coreRead 128 [] 896, none, some (stOk, 3, false)⟩] })] } i 3 = true) ∧
    ∃ i, tabFind [(3, lastInst .unloading false)] (3#6).toNat = some i ∧ i.st = .unloading := by
  refine ⟨⟨rfl, rfl, by decide⟩, rfl, ⟨rfl, rfl, by decide, rfl, ?_⟩, by decide +kernel, fun d => ⟨rfl, rfl, _, _, rfl, rfl, rfl, rfl, rfl, by simp⟩, ⟨_, rfl, rfl⟩, ⟨_, rfl, rfl, rfl, rfl⟩,
    ⟨_, rfl, rfl, rfl, rfl, rfl, rfl, by decide⟩, _, rfl, rfl⟩
  obtain ⟨f, h, p⟩ := passes_some test_core_passes
  simp only [Bool.and_eq_true, decide_eq_true_eq] at p
  refine ⟨f, h, ?_, ?_, ?_, ?_, ?_, p.2⟩
  · rw [p.1.1]; decide +kernel
  · rw [p.1.1]; decide +kernel
  · rw [p.1.1]; decide +kernel
  · rw [p.1.2]; decide +kernel
  · rw [p.1.2]; decide +kernel

/-- A lookup of tensor 1 of instance 3, index 0, and a unit it finds. -/
def looking (u : Machine.PUnit) (i : Inst) : State :=
  { State.reset with plc := { State.reset.plc with lookup := some (2 ^ 16 + 3, 5, 0), units := [u] }, insts := [(3, i)] }

/-- A weight granule of instance 3. -/
def granule (t0 t1 : Option Nat) : Machine.PUnit := ⟨⟨.granule, 3, 1, 0, 0⟩, 64, 0, .port 2, t1, t0, 0, 0, false, false, false, false, false, false, none, false⟩

theorem met_PlacementQueries : let i := demoInst (demoOp 1 [])
    (let s := { State.reset with rst := { warmReset := true } }; barsOff s = true) ∧ barsOff State.reset = false ∧ State.reset.plc.lookup = none ∧
    (let s := looking (granule (some 7) none) i; s.plc.lookup = some (65539, 5, 0) ∧ lookupDenied s (65539 % 64) = false ∧
      lookupUnit s 65539 5 0 = some (granule (some 7) none) ∧ (granule (some 7) none).t0 = some 7) ∧
    (let s := looking (granule none (some 7)) i; lookupUnit s 65539 5 0 = some (granule none (some 7))) ∧
    (let s := looking (granule none none) i; lookupUnit s 65539 5 0 = some (granule none none) ∧ (granule none none).home = .port 2) ∧
    (let s := looking movingUnit i; lookupDenied s 3 = false ∧ lookupUnit s 65539 5 0 = none) ∧
    lookupDenied { looking movingUnit { i with fn := 1 } with sec := { tdi := [(1, .run)] } } 3 = true ∧
    (domOf (running (demoOp 1 [])) 0).phase = .running ∧ ((domOf State.reset 0).phase ≠ .running ∧ tilingsDue (domOf State.reset 0) = true) ∧
    tilingsDue { losses := [64], batch := some demoBatch } = false := by
  decide +kernel

/-- Stack 0 in a capacity state, with a request under way or none. -/
def capState (run : Option (Bool × Nat)) (c : CapState) : State :=
  { readying [] none with plc := { State.reset.plc with capRun := run, caps := [(0, c)] } }

/-- Stack 0 drains to move to domain 1; a frame of a slot of it may be unacknowledged. -/
def movingStack (held : Bool) : State :=
  { capState (some (true, 0)) .draining with
    sec := { moving := some (0, some 1) },
    base := { slots := [(0, { st := .active, cur := some ⟨1, 1, 0, 0⟩ })],
              chans := if held then ((slotChan { State.reset with base := { slots := [(0, { st := .active, cur := some ⟨1, 1, 0, 0⟩ })] } } 0).toList.map fun c => (c, { buffer := [⟨7, 0, false, 1, 0, none⟩] })) else [] } }

theorem met_CapacityChanges :
    barsOff { State.reset with rst := { warmReset := true } } = true ∧ (locked State.reset 0x10000C0 = false ∧ barsOff State.reset = false) ∧
    locked { State.reset with rf := { State.reset.rf with vals := [(0x1000FF0, 1#32)] } } 0x10000C0 = true ∧
    removeRefusal (readying [] none) 0 0 = none ∧ removeRefusal State.reset 3 0 = some 2 ∧
    (capState (some (true, 0)) .draining).plc.capRun ≠ none ∧ (let s := capState none .lost; s.plc.capRun = none ∧ capExists 0 0 = true ∧ capOf s 0 0 = .lost) ∧
    capOf (capState none .out) 0 0 = .out ∧ (capExists 3 0 = false ∧ capOf (capState none .inService) 0 0 = .inService) ∧ drainBusy (running (demoOp 1 [])) 1 0 = true ∧
    (let s := capState (some (true, 0)) .draining; s.plc.capRun = some (true, 0 * 8 + 0) ∧ drainBusy s 0 0 = false ∧ drainBytes s 0 0 = 0 ∧ s.sec.moving = none ∧
      (capDies 0 0).any (faultPending s) = false ∧ (capDies 0 0).any (faultPending { s with pending := [.heartbeatTimeout 0] }) = true) ∧
    (∀ held : Bool, let s := movingStack held; s.plc.capRun = some (true, 0) ∧ drainBusy s 0 0 = false ∧ drainBytes s 0 0 = 0 ∧ (capDies 0 0).any (faultPending s) = false ∧
      s.sec.moving = some (0, some 1) ∧ slotsDrained s 0 = !held) ∧
    0 < drainBytes (draining0 0 .idle) 2 0 := by
  decide +kernel

/-- Bank 0 of group 0, in a state. -/
def bankState (q : Bank) : State := { State.reset with sil := { banks := [(0, q)] } }

/-- A scan of one page of context 5 and its name. -/
def scanKey : ScanKey := ⟨5, 0, 0, 0⟩
def scanOf (pages : List Nat) (codes : List (Nat × Int)) : Scan := ⟨scanKey, 0, [], 0, 1, 1, 1, 0, pages, codes, false⟩

/-- Bank 0 of group 0 and one scan. -/
def scanning (q : Bank) (sc : Scan) : State := { State.reset with sil := { banks := [(0, q)], scans := [sc] } }

/-- Bank 0 of group 0 with the scan, whose page's T1 copy lies above the group or nowhere. -/
def paging (q : Bank) (t1 : Option Nat) : State :=
  { up [8] (scanning q (scanOf [0] [])) with plc := { State.reset.plc with units := [{ movingUnit with key := ⟨.sketch, 5, scanTensor State.reset scanKey, 0, 0⟩, t1 := t1 }] } }

theorem met_SillageScans :
    (bankAt State.reset 0 0).st ≠ .inService ∧ (State.reset.sil.scans.find? fun x => x.key = scanKey) = none ∧
    (let banks := (List.range 8).map fun b => (b, ({ st := .inService, seg := some ⟨scanKey, [0], [], false⟩ } : Bank))
     groupThrottled { State.reset with sil := { banks := banks }, pwr := { State.reset.pwr with hotFields := [0] } } 0 = true) ∧
    (∀ t1, t1 = none ∨ t1 = some 0 → let s := paging { st := .inService } t1
      (bankAt s 0 0).st = .inService ∧ (bankAt s 0 0).seg = none ∧ (bankAt s 0 0).due = false ∧ groupThrottled s 0 = false ∧
      (s.sil.scans.find? fun x => x.key = scanKey) = some (scanOf [0] []) ∧ mayScan s 0 (scanOf [0] []) = true ∧
      pageGroup s 5 (scanTensor s scanKey) 0 = (some 0, t1.isNone) ∧
      segmentPages (fun p => (scanOf [0] []).pages.contains p) (fun p => (pageGroup s 5 (scanTensor s scanKey) p).2) ((spillNow s).2.1 * pctBytes - (spillNow s).2.2)
        (groupPages s (scanOf [0] []) 0) = [0] ∧ groupPages s (scanOf [0] []) 1 = []) ∧
    ((bankAt (bankState { st := .inService, due := true, dueAt := 7 }) 0 0).due = true ∧ (bankAt (bankState { st := .inService, due := true, dueAt := 7 }) 0 0).dueAt ≠ State.reset.gt ∧
      (bankAt (bankState { st := .inService, due := true, dueAt := 0 }) 0 0).dueAt = State.reset.gt) ∧
    (∃ x, (bankAt (bankState { seg := some ⟨scanKey, [0], [], true⟩ }) 0 0).seg = some x ∧ x.dropped = true) ∧
    mayScan { paging { st := .inService } none with sec := { strictTime := true } } 0 (scanOf [0] []) = false ∧
    (reservedScan { State.reset with ctxs := [(5, { prov := some ⟨0, 2, 1, 1, 1, 1, 1, 10, 210⟩ })] } (scanOf [0] []) = true ∧ reservedScan State.reset (scanOf [0] []) = false) ∧
    (let s := scanning { st := .inService, seg := some ⟨scanKey, [0], [], false⟩ } (scanOf [] []); (bankAt s 0 0).seg = some ⟨scanKey, [0], [], false⟩ ∧ Instr.sillageBankFault 0 0 ∉ s.pending ∧
      (s.sil.scans.find? fun x => x.key = scanKey) = some (scanOf [] []) ∧ (scanOf [] []).codes.length ≠ (scanOf [] []).hi - (scanOf [] []).lo) ∧
    Instr.sillageBankFault 0 0 ∈ ({ State.reset with pending := [.sillageBankFault 0 0] } : State).pending ∧
    (let s := scanning {} (scanOf [] [(0, 1)]); (s.sil.scans.find? fun x => x.key = scanKey) = some (scanOf [] [(0, 1)]) ∧ (scanOf [] [(0, 1)]).pages = [] ∧
      (s.sil.banks.any fun e => match e.2.seg with | some g => g.scan = scanKey && !g.dropped | none => false) = false ∧
      (scanOf [] [(0, 1)]).codes.length = (scanOf [] [(0, 1)]).hi - (scanOf [] [(0, 1)]).lo) := by
  refine ⟨by decide +kernel, rfl, by decide +kernel, fun t1 h => ?_, by decide, ⟨_, rfl, rfl⟩, by decide +kernel, by decide +kernel, by decide +kernel, by decide, by decide +kernel⟩
  rcases h with h | h <;> subst h <;> decide +kernel

/-- A weight map of 64 rings with a span of 90 %. -/
def demoMap : List (List Nat) := List.replicate 64 [0, 90]

theorem met_SillageCalibration :
    (let s := bankState { st := .inService }; (bankAt s 0 0).st = .inService ∧ quiet s = true ∧ calDue s 0 (bankAt s 0 0) none = false ∧
      calDue { s with gt := 1000000000000 } 0 (bankAt s 0 0) none = true ∧ quiet (waiting s) = false) ∧
    (let q : Bank := { st := .inService, calcnt := 1 }; calDue State.reset 0 q (some 17) = true ∧ calDue State.reset 0 q (some 16) = false) ∧
    (bankAt State.reset 0 0).st ≠ .inService ∧ (bankAt State.reset 0 0).st = .off ∧
    (let q := bankAt (bankState { st := .calibrating }) 0 0; q.st = .calibrating ∧ q.pending = none ∧ plausible q ⟨0x8000, 0, 0, demoMap⟩ 100 0 0 false = true ∧
      plausible q ⟨0x8000, 0, 0, []⟩ 100 0 0 false = false ∧ q.consec + 1 < 3 ∧ q.st ≠ .off ∧ q.st ≠ .failed) ∧
    (let q := bankAt (bankState { st := .calibrating, consec := 2 }) 0 0; q.st = .calibrating ∧ q.pending = none ∧ 3 ≤ q.consec + 1) ∧
    (let s := bankState { st := .calibrating, pending := some {}, users := [0] }; (bankAt s 0 0).pending = some {} ∧ (bankAt s 0 0).users.any (opRuns s) = false ∧
      (bankAt s 0 0).users.any (opRuns { s with arr := (running (demoOp 1 [])).arr }) = true) ∧
    (let s := bankState { st := .inService, retryAt := some 0 }; (bankAt s 0 0).retryAt = some 0 ∧ 0 ≤ s.gt ∧ s.gt < 1) := by
  decide +kernel

/-- A frame with covered bits and its check bits, as the rule of 07 R227 gives them. -/
def sealed (covered check : Nat) : BitVec 544 := BitVec.ofNat 544 (covered + check * 2 ^ 533)

/-- A frame as it arrives at a channel that has just trained: scrambled (07 R227). -/
def scrambled (f : BitVec 544) : BitVec 544 := f ^^^ (descramble 0x7FFFFFFF#31 0).1

/-- What the frame is after the descrambler and the code. -/
def arrived (f : BitVec 544) : Option (Nat × Bool) := secded (descramble 0x7FFFFFFF#31 (scrambled f)).1.toNat

/-- Stacks 0 and 1 of domain 0 with the channel from the first to the second, its rings locked and its bus lit as given. -/
def litState (l : LaserState) (c : Channel) (flows : List (Nat × Flow)) : State :=
  { State.reset with arr := { State.reset.arr with memStacks := [(0, { domain := some 0 }), (1, { domain := some 0 })] },
                     base := { acquired := [0, 1], lasers := [(0, { st := l, bus := some 0 })], chans := [(133120, c)], flows := flows } }

/-- Slot 0 of endpoint 0 in plane 0 drains its assignment to endpoint 1. -/
def drainingSlot : State := { State.reset with base := { slots := [(0, { st := .draining, cur := some ⟨1, 1, 0, 0⟩ })] } }

theorem met_LinkFrames :
    (chanUp (litState .operating {} []) 133120 = true ∧ chanUp State.reset 127 = false ∧ lightOn (litState .operating {} []) 133120 = .operating ∧
      lightOn (litState .gated {} []) 133120 = .gated ∧ lightOn (litState .standby {} []) 133120 = .standby ∧ (chanOf (litState .operating {} []) 133120).scr = 0x7FFFFFFF#31) ∧
    arrived 3#544 = none ∧ arrived 1#544 = some (0, true) ∧ (arrived 0#544 = some (0, false) ∧ 0 / 2 ^ 512 % 4 = 0) ∧
    (∃ check, arrived (sealed (2 ^ 512) check) = some (2 ^ 512, false) ∧ 2 ^ 512 / 2 ^ 512 % 4 = 1) ∧
    (∃ check, arrived (sealed (2 * 2 ^ 512) check) = some (2 * 2 ^ 512, false) ∧ 2 * 2 ^ 512 / 2 ^ 512 % 4 = 2) ∧
    (let s := litState .operating {} []
     let u := litState .gated {} [];
     mayPass s 133120 0 = false ∧ mayPass s 133120 1 = true ∧ mayPass s 133120 2 = true ∧ mayPass s 133120 3 = true ∧ mayPass u 133120 1 = false ∧ mayPass u 133120 3 = true) ∧
    (let s := litState .operating { buffer := [⟨7, 0, false, 1, 0, none⟩] } [];
      (∃ e ∈ (chanOf s 133120).buffer, e.rseq = 7) ∧ (¬ ∃ e ∈ (chanOf s 133120).buffer, e.rseq = 8) ∧ (chanOf s 133120).expect ≠ 7) ∧
    (let s := litState .operating {} []
     let w := flowOf s (flowKey s 133120 false);
      (¬ ∃ e ∈ (chanOf s 133120).buffer, e.rseq = 0) ∧ slotDrains s 133120 = false ∧ 0 < w.credits ∧ (¬ ∃ e ∈ w.handed, e.pseq = 0) ∧ (chanOf s 133120).expect = 0) ∧
    (let s := litState .operating {} [(flowKey (litState .operating {} []) 133120 false, { credits := 0, handed := [⟨7, 5, false, 1, 0, none⟩] })]
     let w := flowOf s (flowKey s 133120 false);
      w.credits = 0 ∧ (∃ e ∈ w.handed, e.pseq = 5) ∧ ¬ ∃ e ∈ w.handed, e.pseq = 0) ∧
    (∃ ch, slotChan drainingSlot 0 = some ch ∧ slotDrains drainingSlot ch = true ∧ ¬ ∃ e ∈ (chanOf drainingSlot ch).buffer, e.rseq = 0) ∧
    (let s := { State.reset with base := { chans := [(128, { buffer := [⟨7, 0, false, 1, 0, none⟩, ⟨8, 1, false, 1, 0, none⟩] })] } };
      (chanOf s 128).buffer.findIdx? (fun f => f.rseq = (8#8).toNat) = some 1 ∧ (chanOf s 128).buffer.findIdx? (fun f => f.rseq = (9#8).toNat) = none) ∧
    ((bundleOf { State.reset with base := { bundles := [(0, { crc := true })] } } 0 0).crc = true ∧ (bundleOf State.reset 0 0).crc = false) := by
  refine ⟨by decide +kernel, by decide +kernel, by decide +kernel, by decide +kernel, ⟨1547, by decide +kernel⟩, ⟨524, by decide +kernel⟩, by decide +kernel,
    by decide +kernel, by decide +kernel, by decide +kernel, ⟨_, rfl, by decide +kernel, by decide +kernel⟩, by decide +kernel, by decide⟩

/-- A laser site of field 0, with its bus, at tick 200000. -/
def lit (l : Laser) (vals : List (Nat × Word)) : State :=
  { State.reset with gt := 200000, rf := { State.reset.rf with vals := vals }, base := { lasers := [(1, l)] } }

/-- Slot 0 of endpoint 0 in plane 0. -/
def slotState (x : SteerSlot) : State := { State.reset with base := { slots := [(0, x)] } }

theorem met_SteeringAndLasers :
    (steerable State.reset 0 0 0 ⟨1, 1, 0, 0⟩ = true ∧ ∀ e ∈ steerEnds (slotOf State.reset 0) 0 1, tabFind State.reset.base.steered (e * 8 + 0) = none) ∧
    (steerable State.reset 0 0 0 ⟨2, 1, 0, 0⟩ = false ∧ 1 ∈ steerEnds (slotOf State.reset 0) 0 1) ∧
    (let s := { State.reset with arr := { State.reset.arr with memStacks := [(0, { domain := some 0 }), (1, { domain := some 0 })] } };
      freeReceive s 0 1 0 = some 0 ∧ (steerable s 0 0 0 ⟨1, 1, 0, 0⟩ && slotAllowed s 0 1 0 0) = true ∧ slotAllowed s 0 1 0 1 = false) ∧
    freeReceive { State.reset with base := { slots := (List.range 32).map fun n => (n, { cur := some ⟨1, 9, 0, n⟩ }) } } 0 9 40 = none ∧
    (tabFind [(0, 5)] 0 = some 5 ∧ (5 : Nat) < 5 + 1000000) ∧ (slotOf State.reset 0).st ≠ .draining ∧
    (let s := slotState { st := .draining }; (slotOf s 0).st = .draining ∧ (slotOf s 0).again = false ∧ slotChan s 0 = none ∧
      fieldOf (physOf s 0) * 8 + busOf (24 + 0) ∉ s.base.dark) ∧ (slotOf (slotState { st := .retuning }) 0).st = .retuning ∧
    (let s := lit { st := .operating, bus := some 1 } [(0x1800004, 2#32)]; (regVal s 0x1800004).getLsbD 1 = true ∧ (laserOf s 1).st = .operating ∧
      (laserOf s 1).frameAt + 100000 ≤ s.gt ∧ ¬((laserOf s 1).bus = some 0 ∧ (0 : Nat) < 8 ∧ pdOf s 41 = .on) ∧ (∀ b, (laserOf s 1).bus = some b → feedsLinks s 0 b = false)) ∧
    (let s := { lit { st := .operating, bus := some 4 } [] with fab := { links := [(0, { st := .up })] } }; (laserOf s 1).bus = some 4 ∧ feedsLinks s 0 4 = true) ∧
    (laserOf (lit { st := .gated } []) 1).st = .gated ∧ (laserOf State.reset 1).st ≠ .gated ∧
    (let s := lit { st := .operating } []; (laserOf s 1).st = .operating ∧ (laserOf s 1).bus = none) ∧
    (let s := { lit { st := .operating, bus := some 1 } [] with base := { lasers := [(1, { st := .operating, bus := some 1 })], dark := [1] } };
      siteOn s 0 1 = some 1 ∧ 1 ∈ s.base.dark ∧ (laserOf s (0 * 8 + 1)).st = .operating) ∧
    (laserOf State.reset 1).st ≠ .standby ∧ (laserOf (lit { st := .standby } []) 1).st = .standby := by
  refine ⟨by decide +kernel, by decide +kernel, by decide +kernel, by decide +kernel, by decide, by decide, by decide +kernel, by decide,
    ⟨by decide +kernel, by decide, by decide, by decide, fun b h => by cases h; decide⟩, by decide +kernel, by decide, by decide, by decide, by decide +kernel, by decide, by decide⟩

/-- Ring 0 and bundle 0 of die 0 as given. -/
def ringState (r : Ring) (b : Bundle) : State := { State.reset with base := { rings := [(0, r)], bundles := [(0, b)] } }

theorem met_RingsAndLanes :
    (ringExists 0 = true ∧ ringOn { State.reset with base := { acquired := [0] } } 0 = true ∧ ringOn State.reset 0 = false ∧ ringExists 32 = false) ∧
    ((tabGet (ringState { st := .acquiring } {}).base.rings {} 0).st = .acquiring ∧ (tabGet (ringState { st := .acquiring } {}).base.rings {} 0).sweeps + 1 < 3) ∧
    3 ≤ (tabGet (ringState { st := .acquiring, sweeps := 2 } {}).base.rings {} 0).sweeps + 1 ∧
    (bundleCount 0 ≤ (144#8).toNat ∧ (143#8).toNat < bundleCount 0) ∧
    (let x := bundleOf State.reset 0 0; x.disabled = false ∧ x.thresh < (17#16).toNat ∧ x.spares < spareLimit x ∧ (16#16).toNat ≤ x.thresh) ∧
    (let x := bundleOf (ringState {} { spares := 4 }) 0 0; spareLimit x ≤ x.spares) ∧ 30 ≤ (30#5).toNat ∧ (29#5).toNat < 30 ∧
    runningDoms (failPath State.reset 0) = [] ∧ runningDoms (failPath (running (demoOp 1 [])) 0) ≠ [] ∧
    (let s := { State.reset with base := { failed := [30, 31] } }; physOf s 0 ∉ s.base.failed ∧ 0 ∉ s.base.lostEps ∧
      freeSpare ((s.base.chans.filter fun c => chSrc c.1 = physOf s 0 || chDst c.1 = physOf s 0).foldl (fun t c => dropChannel t c.1)
        { s with base := { s.base with failed := ascending (physOf s 0 :: s.base.failed) } }) = none) ∧
    (([3#16] : List (BitVec 16)).take 21)[0]? = some 3#16 ∧ (([] : List (BitVec 16)).take 21)[0]? = none := by
  decide +kernel

/-- A packet of a reduction of two sources at tile 0. -/
def demoKey2 : C3Key := ⟨5, 0, 0, false, 0, 0, 1, 0, false, 2⟩
def demoPacket : C3Packet := ⟨demoKey2, 1, 1, 0, 0, [⟨1, .none⟩], false, 0, 5⟩

/-- An open accumulator for it at a place. -/
def merging (place : C3Place) (port : Nat) : State := { State.reset with arr := { State.reset.arr with accs := [⟨place, port, demoPacket, 0⟩] } }

theorem met_MeshMerging :
    demoPacket.data[0]? = some ⟨1, .none⟩ ∧ (tileValid 0 = true ∧ packetOk demoPacket = true) ∧ (tileValid 0x60 = false ∧ packetOk { demoPacket with count := 0 } = false) ∧
    ((merging (.router 0) 0).arr.accs.find? fun a => decide (a.place = .router 0) && decide (a.packet.key = demoKey2)) = some ⟨.router 0, 0, demoPacket, 0⟩ ∧
    (State.reset.arr.accs.find? fun a => decide (a.place = .router 0) && decide (a.packet.key = demoKey2)) = none ∧
    ((merging (.egress 0) 0).arr.accs.find? fun a => decide (a.place = .egress 0) && decide (a.packet.key = demoKey2)) = some ⟨.egress 0, 0, demoPacket, 0⟩ ∧
    (stackOf State.reset 0).epRed = true ∧ (tileValid demoPacket.key.dst = true ∧ tileValid demoPacket.src = true) ∧ (mergePackets 0 demoPacket demoPacket).count = demoKey2.expect ∧ demoPacket.count ≠ demoKey2.expect ∧
    (merging (.router 0) 0).arr.accs.length < 2 ∧ RunOut (merging (.router 0) 0) 0 ∧ ¬ RunOut (waiting (merging (.router 0) 0)) 0 := by
  simp only [ranOut_iff]
  decide +kernel

/-- Stack 0 of domain 0 with reduction destinations, while the domain runs or is in another phase. -/
def reducing (p : Phase) (dests : List RedDest) : State :=
  let s := sliced p none
  { s with arr := { s.arr with memStacks := [(0, { domain := some 0, dests := dests })] } }

theorem met_ReductionAdds :
    ((stackOf State.reset 0).domain = none ∧ demoPacket.poison = false ∧ ({ demoPacket with poison := true } : C3Packet).poison = true ∧ tileValid 0 = true ∧
      (stackOf (reducing .idle []) 0).domain = some 0 ∧ (domOf (reducing .idle []) 0).phase ≠ .running ∧ (domOf (reducing .idle []) 0).phase ≠ .aborted ∧
      (domOf (reducing .aborted []) 0).phase = .aborted) ∧
    (let s := reducing .running []
     let cur (k : C3Key) : Bool := decide (k.opseq = (domOf s 0).opseq % 65536) && decide (k.attempt = demoBatch.attempt % 16);
     (stackOf s 0).domain = some 0 ∧ (domOf s 0).batch = some demoBatch ∧ (domOf s 0).phase = .running ∧ cur demoKey2 = true ∧ cur { demoKey2 with attempt := 1 } = false ∧
      (((stackOf s 0).dests.filter fun r => cur r.key).find? fun r => decide (r.key.dst = 0) && sameRange r.key demoKey2) = none) ∧
    (let held : RedDest := ⟨demoKey2, false, 0, 1, some demoPacket, false⟩
     let s := reducing .running [held]
     let cur (k : C3Key) : Bool := decide (k.opseq = (domOf s 0).opseq % 65536) && decide (k.attempt = demoBatch.attempt % 16);
      (((stackOf s 0).dests.filter fun r => cur r.key).find? fun r => decide (r.key.dst = 0) && sameRange r.key demoKey2) = some held ∧
      held.awaits demoPacket = demoPacket.key ∧ held.key ≠ { demoKey2 with ctx := 6 } ∧ sameRange demoKey2 { demoKey2 with ctx := 6 } = true ∧
      (mergePackets 0 demoPacket demoPacket).count ≤ demoKey2.expect ∧ demoKey2.expect < (mergePackets 0 demoPacket { demoPacket with count := 2 }).count) ∧
    (let s := sliced .aborted none; (domOf s 0).batch = some demoBatch ∧ (domOf s 0).phase = .aborted ∧ (domOf s 0).halted = false ∧ meshPackets s = []) ∧
    (let s := { sliced .aborted none with arr := { (sliced .aborted none).arr with accs := [⟨.router 0, 0, demoPacket, 9⟩] } };
      ∃ p, p ∈ meshPackets s ∧ p.key.attempt = demoBatch.attempt % 16 ∧ ∃ r, r ∈ demoBatch.rows ∧ r.ctx = p.key.ctx) ∧
    (barsOff State.reset = false ∧ barsOff { State.reset with rst := { warmReset := true } } = true) ∧ tileValid 0x60 = false ∧ tileValid 0x5F = true := by
  refine ⟨by decide +kernel, by decide +kernel, by decide +kernel, ⟨rfl, rfl, rfl, rfl⟩, ⟨demoPacket, by decide +kernel, rfl, demoRow, by simp [demoBatch], rfl⟩, by decide +kernel, by decide⟩

/-- A function of a number that the kernel brings to a numeral first. -/
def forced (f : Nat → Nat) (n : Nat) : Nat := match n with | 0 => f 0 | m + 1 => f (m + 1)

theorem forced_eq (f : Nat → Nat) (n : Nat) : forced f n = f n := by cases n <;> rfl

/-- A running reflected CRC whose register is a numeral at every byte, so that the kernel evaluates it in small steps. -/
def crcSteps (poly : Nat) : List Byte → Nat → Nat
  | [], r => r
  | b :: bs, r => forced (crcSteps poly bs) (crcByteRefl poly r b)

theorem crcSteps_eq (poly : Nat) : ∀ (bs : List Byte) (r : Nat), crcSteps poly bs r = crcRefl poly r bs
  | [], _ => rfl
  | b :: bs, r => (forced_eq _ _).trans (crcSteps_eq poly bs (crcByteRefl poly r b))

theorem crc32c_steps {bs : List Byte} {n : Nat} (h : (crcSteps 0x82F63B78 bs 0xFFFFFFFF ^^^ 0xFFFFFFFF) = n) : crc32c bs = n := by
  subst h; exact congrArg (· ^^^ 0xFFFFFFFF) (crcSteps_eq _ bs _).symm

theorem take_zeros (n : Nat) (ys : List Byte) : (List.replicate n 0#8 ++ ys).take n = List.replicate n 0#8 := by simp

theorem drop_zeros (n : Nat) (ys : List Byte) : (List.replicate n 0#8 ++ ys).drop n = ys := by simp

theorem length_zeros (n : Nat) (ys : List Byte) : (List.replicate n 0#8 ++ ys).length = n + ys.length := by simp

/-- A unit with a copy on reservoir 0. -/
def copied : Machine.PUnit := { movingUnit with t1 := some 0 }

theorem met_ReservoirsAndRegions :
    (72 ≤ (72#7).toNat ∧ (71#7).toNat < 72 ∧ dieUp (up [8] State.reset) 8 = true ∧ dieUp State.reset 8 = false) ∧
    (rsvTemp State.reset 0 = none ∧ rsvTemp { State.reset with base := { temps := [(8, ⟨true, 256, 1361⟩)] } } 0 = some 1361) ∧
    (let s := { State.reset with mem := { State.reset.mem with rsv := [(0, { calm := some 0 })] } }; (rsvOf s 0).calm = some 0 ∧ s.gt < 0 + 5000000 ∧
      0 + 5000000 ≤ ({ s with gt := 5000000 } : State).gt ∧ (rsvOf s 0).self_ = false ∧
      (rsvOf { s with mem := { s.mem with rsv := [(0, { self_ := true })] } } 0).self_ = true) ∧ 0x120000000 ≤ (0x120000000#33).toNat ∧ (0x11FFFFFFF#33).toNat < 0x120000000 ∧
    copyAt State.reset 0 0x100000000000 = none ∧
    (Config.copyAt 0x100000000000 = 0 → copyAt { State.reset with plc := { State.reset.plc with units := [copied] } } 0 0x100000000000 = some copied) ∧
    (let s := State.reset; 0x140000000000 ≤ 0x140000000000 ∧ granuleTag s.mem 0 ≠ granuleTag (setRegion s 0 ⟨0, 0xFFFFFF, true, false, false, false, 1⟩).mem 0 ∧ zeroable (placeOf s 0x100000000000) = true ∧ zeroable (placeOf s 0) = false) := by
  refine ⟨by decide +kernel, by decide +kernel, by decide +kernel, by decide, by decide, rfl, fun h => ?_, by decide +kernel⟩
  unfold copyAt; rw [h]; rfl

/-- Port die 0 with a channel 1, and the memory found at an earlier training. -/
def dram (st : ChState) (chLog : Nat) : State :=
  let s := up [16] State.reset
  { s with mem := { s.mem with ports := [(0, { chans := [(1, { st := st })] })], chLog := chLog } }

/-- Port die 0 under test. -/
def portTest : State := { State.reset with arr := { State.reset.arr with dies := [(16, { st := .testing })] } }

theorem met_BoardDram :
    (t2Size (dram .inService 0) ≤ (0#40).toNat ∧ (let s := dram .inService 4; dieUp s 16 = true ∧ (0#40).toNat < t2Size s)) ∧
    codeResult ⟨[], false⟩ = .clean ∧ codeResult ⟨[1#8], false⟩ = .corrected ∧ codeResult ⟨[1#8, 1#8, 5#8], false⟩ = .uncorrectable ∧ codeResult ⟨[], true⟩ = .uncorrectable ∧
    ((dramOf (dram .inService 0) 0 1).st = .inService ∧ retrainDue State.reset { owed := true } 0 = true ∧ retrainDue State.reset {} 1 = false ∧ ¬ ∃ e, e ∈ (portMem (dram .inService 0) 0).chans ∧ e.1 ≠ 1 ∧ e.2.st = .retraining) ∧
    (∃ e, e ∈ (portMem (dram .retraining 0) 0).chans ∧ e.1 ≠ 2 ∧ e.2.st = .retraining) ∧ (dramOf (dram .retraining 0) 0 1).st = .retraining ∧
    ((dieOf portTest 16).st = .testing ∧ trained portTest 0 = false ∧ portTest.mem.chLog = 0 ∧
      (let found : List (Bool × BitVec 2 × BitVec 3) := List.replicate 8 (true, 1#2, 4#3); found.length = 8 ∧ (∀ x, x ∈ found → x.1 = true ∧ x.2 = (1#2, 4#3)) ∧ 4 ≤ (4#3).toNat) ∧
      ([] : List (Bool × BitVec 2 × BitVec 3)).length ≠ 8) ∧ (dieOf State.reset 16).st ≠ .testing := by
  refine ⟨by decide +kernel, by decide +kernel, by decide +kernel, by decide +kernel, by decide +kernel, ⟨rfl, by decide +kernel, by decide +kernel, by decide⟩, ⟨(1, { st := .retraining }), by decide, by decide, rfl⟩, rfl, by decide +kernel, by decide⟩

/-- Channel 56 with its registers: a copy within T1 by the secure world (bit 28), or with the spaces that `v` gives. -/
def dmaState (c : DmaChan) (v : Word) (dies : List Nat) : State :=
  let s := up dies { State.reset with ctxs := [(5, onCtx)] }
  { s with rf := { s.rf with vals := [(0x1401E04, 0x1000#32), (0x1401E08, 0x1000#32), (0x1401E0C, 0x1000#32), (0x1401E10, 256#32), (0x1401E14, v)] },
           dma := { s.dma with chans := [(56, { c with ctl := v })] } }

theorem met_DmaChannels :
    (coresMay .secure = true ∧ 56 ≤ (56#6).toNat ∧ coresMay .host = false) ∧ (dmaOf (dmaState { st := .running } 0 []) 56).st = .running ∧
    (dmaOf State.reset 56).st ≠ .running ∧ (55#6).toNat < 56 ∧
    dmaConfigBad (dmaState {} 0x10500000#32 []) 56 0x10500000#32 = false ∧ dmaConfigBad State.reset 56 0#32 = true ∧
    (dmaOf (dmaState { st := .halted } 0 []) 56).st = .halted ∧
    (let c := dmaOf (dmaState { st := .running, stopping := true } 0 []) 56; c.st = .running ∧ c.stopping = true) ∧ (dmaOf State.reset 56).stopping = false := by
  decide +kernel

/-- 128 bytes. -/
def line0 : List Byte := List.replicate 128 7#8

theorem met_DmaMoves :
    ([1, 3] : List Nat).length ≤ 256 ∧
    (let s := dmaState { st := .running, data := line0 } 0x10500000#32 [8]; mayTake s 56 128 = true ∧ (dmaOf s 56).st = .running ∧
      localOf s (bits (dmaCtl s 56) 23 22) (dmaSrc s 56) = some 0x100000000000 ∧ (rangeStatus s (actsAs s true 0) 0x100000000000 128).1 = stOk ∧ accessStatus s (actsAs s true 0) 0x100000000000 = stOk) ∧
    ((rangeStatus (dmaState {} 0x10500000#32 []) .secure 0x100000000000 128).1 = stAddr ∧ accessStatus (dmaState {} 0x10500000#32 []) .secure 0x100000000000 = stAddr) ∧
    ((rangeStatus (dmaState {} 0x10500000#32 [8]) (actsAs State.reset false 0) 0x100000000000 128).1 = stDenied ∧
      accessStatus (dmaState {} 0x10500000#32 [8]) (actsAs State.reset false 0) 0x100000000000 = stDenied) ∧
    (let s := { State.reset with rf := { State.reset.rf with vals := [(0x1401E04, 0x2000#32), (0x1401E0C, 0x2000#32)] } };
      localOf s 2 (dmaSrc s 56) = none ∧ localOf s 2 (dmaDst s 56) = none ∧ (2 : Nat) ≠ 0) ∧ mayTake State.reset 56 128 = false ∧
    (let s := { dmaState { st := .running, readBy := some 0 } 5#32 [] with gt := 1 }; (dmaOf s 56).st = .running ∧ (dmaOf s 56).readBy = some 0 ∧ 0 < s.gt) ∧
    (let c := dmaOf (dmaState { st := .halted, cause := 6, data := line0 } 0x10500000#32 [8]) 56; c.st = .halted ∧ c.cause = 6 ∧ c.haltAt = State.reset.gt ∧ c.done ≤ 0 ∧ 0 ∉ c.ahead) ∧
    (let s := dmaState { st := .running, data := line0 } 5#32 [8]; mayTake s 56 128 = true ∧ localOf s (bits (dmaCtl s 56) 23 22) (dmaSrc s 56) = none) ∧
    (let s := dmaState { st := .running, data := line0 } 0x10500000#32 [8]
      let c := dmaOf s 56
      let span := lineSpan (dmaDst s 56) (dmaCount s 56) 0
      c.st = .running ∧ c.done ≤ 0 ∧ 0 < c.done + 256 ∧ 0 ∉ c.ahead ∧ span.1 < span.2 ∧ c.start ≤ span.1 ∧ span.2 ≤ c.start + c.data.length ∧
        inGap s (.dmaWrite 56#6 0#32) = false ∧ bits (dmaCtl s 56) 21 20 ≠ 0 ∧
        (localOf s (bits (dmaCtl s 56) 21 20) (dmaDst s 56 + span.1) = some 0x100000001000 ∧ accessStatus s .secure 0x100000001000 = stOk)) ∧
    (let s := dmaState { st := .running, data := line0 } 5#32 [8]; bits (dmaCtl s 56) 21 20 = 0 ∧ (ctxOf s (bits (dmaCtl s 56) 15 0)).enabled = true ∧
      localOf s (bits (dmaCtl s 56) 21 20) (dmaDst s 56) = none) := by
  decide +kernel

/-- A failed access of a channel that is being retried. -/
def retryState (due : Option Nat) : State :=
  let s := dmaState { st := .running, readBy := some 0 } 5#32 []
  { s with dma := { s.dma with retries := [⟨.dmaRead 56#6, 8, due, 0⟩] } }

theorem met_AccessRetries :
    inGap (retryState (some 0)) (.dmaRead 56#6) = true ∧ inGap (retryState none) (.dmaRead 56#6) = false ∧
    (0 < regBits State.reset 0x1400000 2 0 ∧ regBits (retryState none) 0x1400000 2 0 ≤ 8) ∧
    ((dmaOf (retryState none) 56).st = .running ∧ (dmaOf (retryState none) 56).readBy = some 0 ∧ RunOut (retryState none) 0 ∧ ¬ RunOut (waiting (retryState none)) 0) ∧
    (dmaOf State.reset 56).st ≠ .running ∧ (∀ n, HubAccess.engineRead 0#4 ≠ .dmaRead n) ∧
    (let s := { State.reset with dma := { waits := [⟨.engineRead 0, 0, 0⟩] } }; waitOf s (.engineRead 0) = some 0 ∧ RunOut s 0 ∧ ¬ RunOut (waiting s) 0) ∧
    (waitOf State.reset (.engineRead 0) = none ∧ waitOf (retryState none) (.dmaRead 56#6) = none) ∧
    ((retryState (some 0)).dma.retries.find? fun r => r.access = .dmaRead 56#6) = some ⟨.dmaRead 56#6, 8, some 0, 0⟩ ∧
    ((State.reset.dma.retries.find? fun r => r.access = .dmaRead 56#6) = none) := by
  simp only [ranOut_iff]
  refine ⟨by decide +kernel, by decide +kernel, by decide +kernel, by decide +kernel, by decide +kernel, fun n h => (nomatch h), by decide +kernel, by decide +kernel, by decide +kernel, by decide +kernel⟩

/-- Engine 0 with its registers. -/
def chkState (x : ChkEngine) (len v : Word) (ch : DmaChan) : State :=
  { State.reset with ctxs := [(0, onCtx)], rf := { State.reset.rf with vals := [(0x1501008, len), (0x150100C, v)] }, dma := { chans := [(0, ch)], engines := [(0, x)] } }

/-- Whether an engine gets its bytes, and how many; none where its access is refused. -/
def gotten (e : Except (MemReq × Nat × Nat) (List Byte)) : Option Nat := match e with | .ok d => some d.length | .error _ => none

theorem met_CheckEngines :
    (coresMay .cores = true ∧ coresMay .mgmt = false) ∧ (chkOf State.reset 0).st ≠ .running ∧
    (regVal State.reset (chkOff 0 8) = 0#32 ∧ regVal (chkState {} 4 0 {}) (chkOff 0 8) ≠ 0#32) ∧
    ((dmaOf State.reset 0).st = .idle ∧ (dmaOf (chkState {} 4 0 { st := .running }) 0).st ≠ .idle) ∧
    (let s := chkState { st := .running } 4 0 {}; (chkOf s 0).st = .running ∧ gotten (chkBytes s 0 4 [1#8, 2#8, 3#8, 4#8]) = some 4 ∧ gotten (chkBytes s 0 4 [1#8]) = some 1) ∧
    gotten (chkBytes (chkState { st := .running } 4 0x01000000#32 {}) 0 4 []) = none ∧
    (readLate (chkState { st := .running } 4 0 {}) (.engineRead 0) = false ∧
      readLate { chkState { st := .running } 4 0 {} with gt := 1, dma := { engines := [(0, { st := .running })], waits := [⟨.engineRead 0, 0, 0⟩] } } (.engineRead 0) = true) ∧
    (4095 < bits 0x1000#32 15 0 ∧ bits 0xFFF#32 15 0 ≤ 4095) ∧
    (let s := { chkState { st := .running } 4 0x00800000#32 { st := .halted } with gt := 1 }; (regVal s (chkOff 0 0xC)).getLsbD 23 = true ∧
      (dmaOf s (bits (regVal s (chkOff 0 0xC)) 21 16)).st = .halted ∧ (dmaOf s (bits (regVal s (chkOff 0 0xC)) 21 16)).haltAt ≠ s.gt) := by
  decide +kernel

/-- The whole space is one region that the fabric reaches, with reservoir 0 up. -/
def openFabric (lent : Bool) : State :=
  let s := up [8] State.reset
  { s with mem := { s.mem with regions := [(0, ⟨0, 0xFFFFFF, true, false, true, lent, 1⟩)] } }

theorem met_FabricTargets :
    (let s := openFabric false; accessStatus s (.peer 1) 0x100000000000 = stOk ∧ (0x100000000000 : Nat) / 2 ^ 45 = s.rst.trayPos ∧ 0x100000000000 % 128 = 0 ∧
      fenceRefuses s 0x100000000000 0 = false) ∧ accessStatus State.reset (.peer 1) 0x100000000000 = stAddr ∧
    accessStatus (up [8] State.reset) (.peer 1) 0x100000000000 = stDenied ∧
    (∀ k, Config.fenceAt (0x100000000000 / 2 ^ 21) = some k → fenceRefuses (openFabric true) 0x100000000000 0 = true) ∧
    line0.length = 128 ∧ (0x200000000000#48).toNat / 2 ^ 45 ≠ State.reset.rst.trayPos ∧
    ((regVal { State.reset with rf := { State.reset.rf with vals := [(0x3000004, 4#32)] } } 0x3000004).getLsbD 2 = true ∧
      (regVal { State.reset with rf := { State.reset.rf with vals := [(0x3000004, 0#32)] } } 0x3000004).getLsbD 2 = false) ∧
    (let s := { State.reset with fab := { peers := [(1, { st := .direct })], links := [(0, { st := .up })] } };
      (routeNow s 1).1 = .direct ∧ pickLink (upLinks s (bundleTo s 1)) 0 = some (0, 0)) ∧
    (({ src := 1, tag := 2, at_ := 0, answer := ⟨0, 0, []⟩ } : Filtered).at_ + 8000 > State.reset.gt) := by
  refine ⟨by decide +kernel, by decide +kernel, by decide +kernel, fun k h => ?_, by decide +kernel, by decide, by decide +kernel, by decide +kernel, by decide⟩
  have e : fenceOf (openFabric true) 0x100000000000 = some k := h
  unfold fenceRefuses
  rw [e]
  rfl

/-- Link 0 of bundle 0 as given, with the power domain of its field on. -/
def linkState (l : Link) (gt : Nat) : State := { State.reset with gt := gt, fab := { links := [(0, l)] }, pwr := { pds := [(29, .on)] } }

/-- The slots of a codeword of zeros, with their check value. -/
def zeroSlots : List Byte := List.replicate 636 0#8 ++ [0xB4#8, 0x04#8, 0xC6#8, 0xFD#8]

theorem zeroSlots_ok : codewordOk zeroSlots = true :=
  have f : field zeroSlots 636 4 = 0xFDC604B4 := by rw [field, zeroSlots, drop_zeros]; rfl
  decide_eq_true ((congrArg crc32c (take_zeros 636 _)).trans ((crc32c_steps (n := 0xFDC604B4) (by decide +kernel)).trans f.symm))

theorem met_FabricLinks :
    (let s := linkState {} 0; (0 : Nat) < 12 ∧ pdOf s (29 + 0) = .on ∧ (linkOf s 0 0).st = .dark) ∧
    (let s := linkState { st := .down, retry := some 7 } 7; (linkOf s 0 0).st = .down ∧ (linkOf s 0 0).retry = some 7 ∧ 7 ≤ s.gt) ∧
    (let s := linkState { st := .training, trainBy := 5 } 5; (linkOf s 0 0).st = .training ∧ s.gt ≤ (linkOf s 0 0).trainBy ∧ RunOut s (linkOf s 0 0).trainBy ∧ ¬ RunOut (waiting s) (linkOf s 0 0).trainBy ∧
      farOk s 0 0 ⟨0, 1, 0, 0⟩ = true ∧ farOk s 0 0 ⟨0, 2, 0, 0⟩ = false) ∧ (¬ ((1#4) = 7#4 ∨ (1#4) = 8#4)) ∧
    (let s := linkState { st := .up, lanes := 8 } 0; linkUp s 0 0 = true ∧ (linkOf s 0 0).spare = none ∧ regBits s 0x3000004 23 16 * 1000 < (0xFFFFFF#24).toNat ∧ 3 ∉ (linkOf s 0 0).bad ∧ 8 ∉ (linkOf s 0 0).bad) ∧
    ((linkOf (linkState { st := .up, lanes := 8, bad := [3, 8] } 0) 0 0).spare = none ∧ 3 ∈ (linkOf (linkState { st := .up, bad := [3, 8] } 0) 0 0).bad ∧ 8 ∈ (linkOf (linkState { st := .up, bad := [3, 8] } 0) 0 0).bad) ∧
    (let s := linkState { st := .narrowed, lanes := 5, spare := some 1 } 0; linkUp s 0 0 = true ∧ (linkOf s 0 0).spare ≠ none ∧ 4 < (linkOf s 0 0).lanes) ∧
    (linkOf (linkState { st := .narrowed, lanes := 4, spare := some 1 } 0) 0 0).lanes ≤ 4 ∧ linkUp State.reset 0 0 = false ∧
    (zeroSlots.length = 640 ∧ codewordOk zeroSlots = true) ∧ (0#20).toNat % 65536 = (linkOf (linkState { st := .up } 0) 0 0).expect ∧
    32768 ≤ ((0xFFFF#20).toNat % 65536 + 65536 - 0) % 65536 ∧ ((1#20).toNat % 65536 + 65536 - 0) % 65536 < 32768 ∧ (0x10000#20).toNat / 65536 = 1 := by
  simp only [ranOut_iff]
  refine ⟨by decide, by decide, by decide +kernel, by decide, by decide +kernel, by decide, by decide, by decide, by decide, ⟨length_zeros 636 _, zeroSlots_ok⟩, by decide, by decide, by decide, by decide⟩

/-- A request to device 1 by domain 0. -/
def fabArgs (op : BitVec 6) (tag : BitVec 16) (who : FabWho) : FabArgs := ⟨who, some 0#3, op, tag, 5, 0, 0x200000000000#48, none, [], 0, 0⟩

/-- A request in flight. -/
def inFlight (op : BitVec 6) (who : FabWho) (due : Nat) : FabReq := { dev := 1, args := fabArgs op 1#16 who, bundle := 0, link := 0, via := none, due := due }

/-- Link 0 to device 1 is up, device 1 is reached directly, requests are in flight, FAB_CFG as given. -/
def fabState (reqs : List FabReq) (cfg : Word) : State :=
  { State.reset with rf := { State.reset.rf with vals := [(0x3000004, cfg)] },
                     fab := { peers := [(1, { st := .direct })], links := [(0, { st := .up })], reqs := reqs } }

theorem met_FabricRequests :
    (let a := fabArgs 1#6 2#16 (.unit 3#16); a.addr.toNat / 2 ^ 45 ≠ State.reset.rst.trayPos ∧ tagBusy (fabState [inFlight 1#6 (.unit 1#16) 9] 3) 1 2 = false ∧
      tagBusy (fabState [inFlight 1#6 (.unit 1#16) 9] 3) 1 1 = true) ∧
    (let s := fabState [inFlight 1#6 (.unit 1#16) 9] 3; (regVal s 0x3000004).getLsbD 0 = true ∧ s.fab.reqs = [] ++ inFlight 1#6 (.unit 1#16) 9 :: [] ∧
      (let r := inFlight 1#6 (.unit 1#16) 9
       let a := fabArgs 1#6 2#16 (.unit 3#16);
       (r.args.op = 0x01#6 && r.args.addr.toNat / 128 = a.addr.toNat / 128 && r.args.dom = a.dom && a.dom.isSome && !r.dirty && decide (r.joiners.length < 32)) = true)) ∧
    (let s := fabState [inFlight 0x10#6 (.unit 1#16) 9] 3; (regVal s 0x3000004).getLsbD 1 = true ∧ addInFlight s (fabArgs 0x10#6 2#16 (.unit 3#16)) = true) ∧
    (let a := fabArgs 2#6 2#16 (.unit 3#16); pathFor (noteWrite (fabState [] 0) a) 1 a.addr.toNat 0 = some (0, 0, none) ∧ pathFor (noteWrite State.reset a) 1 a.addr.toNat 0 = none) ∧
    (let r := inFlight 1#6 (.unit 1#16) 0; r.dev = (1#3).toNat ∧ r.args.tag = 1#16 ∧ RunOut (fabState [r] 0) r.due ∧ ¬ RunOut (waiting (fabState [r] 0)) r.due ∧ r.due < ({ fabState [r] 0 with gt := 1 } : State).gt) ∧
    (let q : ReadDone := ⟨0, inFlight 1#6 (.unit 1#16) 9, 0, []⟩; q.at_ = State.reset.gt ∧ q.req.args.op = 1#6 ∧ ((fabState [] 3).fab.reqs.any fun _ => true) = false) ∧
    (let r := inFlight 2#6 (.commit 5#12) 9; ((fabState [r] 0).fab.reqs.find? fun q => q.dev = 1 && q.args.tag.toNat = 1) = some r ∧ r.args.who = .commit 5#12) ∧
    (∀ k, (inFlight 2#6 (.unit 1#16) 9).args.who ≠ .commit k) ∧
    (let s := { State.reset with fab := { relays := [(1, 7, 2)], poisoned := [(1, 8)] } }; (s.fab.relays.find? fun r => r.1 = 1 && r.2.1 = 7) = some (1, 7, 2) ∧
      (s.fab.reqs.find? fun r => r.dev = 1 && r.args.tag.toNat = 7) = none ∧ (1, 8) ∈ s.fab.poisoned ∧ (1, 9) ∉ s.fab.poisoned ∧ (s.fab.relays.find? fun r => r.1 = 1 && r.2.1 = 8) = none) := by
  simp only [ranOut_iff]
  refine ⟨by decide +kernel, ⟨by decide +kernel, rfl, by decide +kernel⟩, by decide +kernel, by decide +kernel, by decide, by decide, ⟨rfl, rfl⟩, fun k h => (nomatch h), by decide +kernel⟩

/-- Message rings of 16 entries, with link 0 of bundle 9 up or not. -/
def msgState (m : MsgRings) (linked : Bool) (vals : List (Nat × Word)) : State :=
  { booted ([(0x3000118, 4#32), (0x3000128, 4#32), (0x3000138, 4#32)] ++ vals) with fab := { msg := m, links := if linked then [(72, { st := .up })] else [] } }

/-- Enabled rings with a descriptor and a receive buffer waiting. -/
def onRings : MsgRings := { enabled := true, sqTail := 1, rqTail := 1 }

theorem met_MessageRings :
    (onRings.enabled = true ∧ bits 15#32 15 0 < 2 ^ msgLog (msgState onRings true []) 0 ∧ ¬ (bits 16#32 15 0 < 2 ^ msgLog (msgState onRings true []) 0)) ∧
    (let s := msgState onRings true []; msgServe s = true ∧ s.fab.msg.sqHead ≠ s.fab.msg.sqTail ∧ msgFree s ≠ 0 ∧ upLinks s 9 ≠ [] ∧
      ¬ ((9 : Nat) < 9 ∨ 11 < 9 ∨ (1#32).toNat = 0 ∨ 65536 < (1#32).toNat ∨ (64#64).toNat % 64 ≠ 0)) ∧ (1#4) ≠ 2#4 ∧ ((12 : Nat) < 9 ∨ 11 < 12) ∧
    upLinks (msgState onRings false []) 9 = [] ∧ ([0#8] : List Byte).length = (1#32).toNat ∧
    (let s := msgState { onRings with transit := [⟨9, 1, 1, none⟩] } true []; (s.fab.msg.transit.find? fun x => x.bundle = (9#4).toNat) = some ⟨9, 1, 1, none⟩ ∧
      s.fab.msg.transit = [] ++ ⟨9, 1, 1, none⟩ :: [] ∧ s.fab.msg.error = false ∧ (∃ x, x ∈ s.fab.msg.transit ∧ x.bundle = 9) ∧ ∀ x, x ∈ s.fab.msg.transit → x.bundle ≠ 10) ∧
    (([⟨9, 1, 1, some 5⟩] : List MsgSent).find? fun x => x.bundle = 9) = some ⟨9, 1, 1, some 5⟩ ∧ (State.reset.fab.msg.transit.find? fun x => x.bundle = 9) = none ∧
    (msgBufOk ⟨1#4, 65536#32, 64#64⟩ = true ∧ (msgState onRings true []).fab.msg.rqHead ≠ (msgState onRings true []).fab.msg.rqTail) ∧ msgServe State.reset = false ∧
    (let s := msgState {} false []; (regVal s 0x3000100).getLsbD 31 = false ∧ barsOff s = false ∧
      ((List.range 3).all fun i => decide (4 ≤ msgLog s i) && decide (msgLog s i ≤ 16)) = true ∧ bootReady s = true) ∧ bootReady State.reset = false ∧
    (regVal { State.reset with rf := { State.reset.rf with vals := [(0x3000100, 0x80000000#32)] } } 0x3000100).getLsbD 31 = true := by
  decide +kernel

/-- Peers 1 and 2, at a tick, with detours allowed. -/
def peerState (p1 p2 : Peer) (gt : Nat) : State := { fabState [] 4 with gt := gt, fab := { peers := [(1, p1), (2, p2)] } }

theorem met_PeerStates :
    (0#3).toNat = State.reset.rst.trayPos ∧ (1#3).toNat ≠ State.reset.rst.trayPos ∧
    (∃ t, (peerOf (peerState { seen := some 1 } {} 4000) 1).seen = some t ∧ ¬ RunOut (peerState { seen := some 1 } {} 4000) (t + 4000)) ∧
    (∃ t, (peerOf (waiting (peerState { seen := some 0 } {} 4000)) 1).seen = some t ∧ ¬ RunOut (waiting (peerState { seen := some 0 } {} 4000)) (t + 4000)) ∧
    (¬ ∃ t, (peerOf (peerState { seen := some 0 } {} 4000) 1).seen = some t ∧ ¬ RunOut (peerState { seen := some 0 } {} 4000) (t + 4000)) ∧
    (let s := peerState {} { seen := some 0, heard := 2 } 1500; (regVal s 0x3000004).getLsbD 2 = true ∧ (peerOf s 2).heard.testBit 1 = true ∧ (1500 : Nat) ≤ 0 + 1500 ∧
      (∀ f, f < 2 → (peerOf s f).heard.testBit 1 = false)) ∧ (regVal (fabState [] 0) 0x3000004).getLsbD 2 = false ∧
    (let s := peerState { st := .direct } {} 4000; peerNow s 1 ≠ ((peerOf s 1).st, (peerOf s 1).via) ∧ (peerNow s 1).1 = .lost) ∧
    (let s := peerState { st := .lost, seen := some 4000 } {} 4000; (peerNow s 1).1 = .direct) := by
  simp only [ranOut_iff]
  refine ⟨rfl, by decide, ⟨1, rfl, by decide⟩, ⟨0, rfl, by decide⟩, fun ⟨t, h, g⟩ => ?_, by decide +kernel, by decide +kernel, by decide +kernel, by decide +kernel⟩
  cases h; revert g; decide

/-- Device 1 is the reference (TIME_REF), reached directly. -/
def timeState (q : TrayTime) (ref : Word) : State := { fabState [] ref with gt := 1000, fab := { peers := [(1, { st := .direct })], time := q } }

theorem met_TrayTime :
    (regBits (fabState [] 0x100#32) 0x3000004 10 8 = 1 ∧ (peerOf (fabState [] 0x100#32) 1).st ≠ .lost) ∧
    (let s := { fabState [] 0x100#32 with fab := { peers := [(1, { st := .lost })] } }; (peerOf s 1).st = .lost ∧ (peerOf s 0).st ≠ .lost) ∧
    (timeRef (timeState {} 0) = State.reset.rst.trayPos ∧ (1#3).toNat ≠ State.reset.rst.trayPos) ∧
    (let s := timeState {} 0x100#32; timeRef s ≠ s.rst.trayPos ∧ s.fab.time.nextAt ≤ s.gt ∧ (routeNow s (timeRef s)).1 = .direct) ∧
    (let s := timeState { asked := some 990 } 0x100#32; s.fab.time.asked = some 990 ∧ (1#3).toNat = timeRef s ∧ s.fab.time.first = false ∧
      (0 : Int) ≤ ((1000 : Int) - 990) - (1000 - 1000) - 2 * asymTo s 1 ∧ ((900 : Int) - 990) - (1000 - 900) - 2 * asymTo s 1 < 0) ∧
    (timeState { first := true, aligned := true } 0).fab.time.first = true ∧
    (let s := timeState { left2 := 5 } 0x100#32; timeRef s ≠ s.rst.trayPos ∧ s.fab.time.slewAt ≤ s.gt ∧ 4 < s.fab.time.left2) ∧
    (timeState { left2 := -5 } 0x100#32).fab.time.left2 < -4 ∧ (timeState {} 0).fab.time.asked = none := by
  decide +kernel

/-- A device that serves the leases of pair 1, with what it keeps of set 0. -/
def authority (a : AuthSet) (gt : Nat) : State := { up [16] State.reset with gt := gt, pair := { auth := [(2, a)] } }

theorem met_LeaseAuthority :
    (serves (authority {} 0) 1 = true ∧ serves State.reset 1 = false ∧ serves (authority {} 0) 0 = false) ∧
    (let s := authority {} 0; (2#3).toNat / 2 = 1 ∧ (0#3).toNat / 2 ≠ 1 ∧ (authSet s 1 0).holder = none ∧ (authSet s 1 0).valid = true) ∧
    ((authSet (authority { valid := false } 0) 1 0).valid = false ∧ (authSet (authority { valid := false } 0) 1 0).last ≠ some 2) ∧
    (let s := authority { holder := some 2, last := some 2, expiry := 100000000 } 0; (authSet s 1 0).holder = some 2 ∧ s.gt < (authSet s 1 0).expiry ∧
      s.gt + guardTicks s < (authSet s 1 0).expiry ∧ (authSet s 1 0).waiting = none) ∧
    (let s := authority { holder := some 2, expiry := 100 } 100; (authSet s 1 0).expiry ≤ s.gt + guardTicks s ∧ (authSet s 1 0).expiry ≤ s.gt ∧ RunOut s (authSet s 1 0).expiry ∧ ¬ RunOut (waiting s) (authSet s 1 0).expiry ∧ (authSet s 1 0).holder ≠ none) ∧
    (authSet (authority { holder := some 2, waiting := some (3, 0) } 0) 1 0).waiting = some (3, 0) ∧
    (let a := authSet (authority { holder := some 3, waiting := some (2, 7) } 0) 1 0; a.holder ≠ some 2 ∧ a.waiting = some (2, 7)) ∧
    (let s := { State.reset with gt := 1000000000, pair := { lostAt := [(1, 0)] } }; 1 ∉ s.pair.serving ∧ tabFind s.pair.lostAt 1 = some 0 ∧ 0 + leaseTicks s + 1000000 ≤ s.gt) ∧
    (∃ r, r ∈ ([⟨2, 0, 5, true⟩] : List LeaseReport) ∧ r.set = 0) ∧ ∀ r, r ∈ ([⟨2, 0, 5, true⟩] : List LeaseReport) → r.set ≠ 1 := by
  simp only [ranOut_iff]
  decide +kernel

/-- Set 0 of this device's pair, and context 5 mirrored in it. -/
def pairState (p : PairSet) (k : Ctx) : State :=
  { State.reset with gt := 7, rf := { State.reset.rf with vals := [(0x3400000, 0xB0000000#32)] }, pair := { paired := true, sets := [p, {}] }, ctxs := [(5, k)] }

/-- What the partner committed of a session of Formula 7. -/
def demoCommit (claim : Nat) : Commit := ⟨1, 0, 0, 0, 0, 0, 0, 0, 0, 0, 0, claim, 7, true⟩

/-- A standby context with its copy, an instance of its Formula and a live stack. -/
def standbyState : State :=
  let s := up [0] (pairState { asked := some 1 } { onCtx with standby := true, shadow := true, enabled := false })
  { s with insts := [(3, demoInst (demoOp 1 []))], arr := { s.arr with memStacks := [(0, { domain := some 0 })] },
           pair := { s.pair with copies := [(5, ⟨demoCommit 1, demoSession, none, 0⟩)] } }

theorem met_LeaseHolding :
    (let s := pairState { held := true, expiry := 7 } onCtx; (pairSet s 0).held = true ∧ (pairSet s 0).stopped = false ∧ (pairSet s 0).expiry < s.gt + leaseTicks s / 2 + 1 ∧
      RunOut s ((pairSet s 0).expiry - guardTicks s)) ∧ ¬ RunOut State.reset 1 ∧ ((∃ d, d < 4 ∧ dieUp (up [16] State.reset) (16 + d) = true) ∧ ¬ ∃ d, d < 4 ∧ dieUp State.reset (16 + d) = true) ∧
    (let s := { pairState { held := true, expiry := 7 } onCtx with rf := { State.reset.rf with vals := [(0x3400000, 0x00200000#32)] } }; (pairSet s 0).expiry < s.gt + leaseTicks s / 2) ∧
    (let s := pairState {} onCtx; (pairSet s 0).held = false ∧ (pairSet s 0).asked = none ∧ (pairSet s 0).requesting = false ∧ s.pair.paired = true ∧ (pairSet s 0).staling = false) ∧
    (let s := pairState { asked := some 1 } { onCtx with mirror := true }; (pairSet s 0).asked = some 1 ∧ (∀ c, c ∈ ctxsOfSet s 0 → (ctxOf s c).standby = false) ∧ 5 ∈ ctxsOfSet s 0) ∧
    (pairSet (pairState { held := true, asked := some 1 } onCtx) 0).held = true ∧
    (let s := standbyState; (ctxOf s 5).standby = true ∧ (ctxOf s 5).enable = true ∧ (tabFind s.pair.copies 5).isSome = true ∧
      takeRefusal s (ctxOf s 5) (tabFind s.pair.copies 5) true = none ∧ twinInst s (ctxOf s 5) 7 = some 3) ∧ 5 ∈ ctxsOfSet standbyState 1 ∧
    (pairSet (pairState { staling := true } onCtx) 0).staling = true ∧ Requester.mgmt ≠ .secure := by
  simp only [ranOut_iff]
  decide +kernel

theorem met_MirrorFlow :
    (let s := pairState {} { onCtx with mirror := true }; s.pair.paired = true ∧ (ctxOf s 5).mirror = true ∧ (demoCommit 0).claim = 0 ∧ (demoCommit 1).claim ≠ 0 ∧
      ¬ ((demoCommit 1).claim < tabGet s.pair.claimMax 0 0) ∧ ([] : List Byte).length = (demoCommit 1).bytes ∧
      polyOut 2 (polyRun 2 (polyInit 2) []) = ({ demoCommit 1 with crc := polyOut 2 (polyInit 2) } : Commit).crc ∧ ([1#8] : List Byte).length ≠ (demoCommit 1).bytes ∧
      pickLink (linksTo s (partnerOf s) 1) 0 = none) ∧
    (let s := { pairState {} onCtx with fab := { links := [(56, { st := .up })] } }; pickLink (linksTo s (partnerOf s) 1) 0 = some (7, 0)) ∧
    (let s := { State.reset with pair := { unacked := [(5, 0)] } }; (5, 0) ∈ s.pair.unacked ∧ RunOut s 0 ∧ ¬ RunOut (waiting s) 0) ∧
    (let s := pairState { held := true } onCtx; (pairSet s 0).held = true ∧ (pairSet s 0).solo = false ∧ (pairSet s 0).staling = false) ∧
    (let s := pairState { solo := true, resync := true } onCtx; (pairSet s 0).resync = true ∧ s.pair.toSync = []) ∧
    (let s := { pairState {} onCtx with pair := { paired := true, sets := [{}, { held := true }] } }; (pairSet s 1).held = true ∧ (pairSet s 1).solo = false ∧
      (pairSet s 1).staling = false ∧ 1 ≠ s.rst.trayPos % 2) := by
  simp only [ranOut_iff]
  decide +kernel

/-- Context 5 with a provisioning that it runs with. -/
def provState (k : Ctx) : State := withCtxs [(5, k)]

/-- A domain of one stack, with shares. -/
def shared : State :=
  { up [0, 1] (withDoms [(0, { t1Gib := 1, bwPct := 10, silPct := 10, planes := 1 })]) with
    arr := { (up [0, 1] (withDoms [(0, { t1Gib := 1, bwPct := 10, silPct := 10, planes := 1 })])).arr with memStacks := [(0, { domain := some 0 }), (1, { domain := some 0 })] } }

theorem met_ProvisioningCommands :
    State.reset.sec.mgmtOnly = false ∧ ({ State.reset with sec := { mgmtOnly := true } } : State).sec.mgmtOnly = true ∧
    (∃ y, (false, y) ∈ ({ State.reset with sec := { cmds := [(false, .unprovision 5)] } } : State).sec.cmds) ∧ (∀ y, (false, y) ∉ State.reset.sec.cmds) ∧
    provRefusal State.reset 5 ⟨0, 0, 1, 1, 1, 1, 0, 0, 0⟩ = none ∧ provRefusal State.reset 4096 ⟨0, 0, 1, 1, 1, 1, 0, 0, 0⟩ = some stRange ∧
    (let k := ctxOf (provState onCtx) 5; k.prov = some ⟨0, 0, 1, 8, 8, 1, 0, 0, 0⟩ ∧ k.enable = true ∧ (0 : Nat) ≠ 1) ∧ provRefusal (provState onCtx) 5 ⟨0, 1, 1, 1, 1, 1, 0, 0, 0⟩ = none ∧
    provRefusal (provState onCtx) 5 ⟨1, 0, 1, 1, 1, 1, 0, 0, 0⟩ = some stCtxState ∧ provRefusal State.reset 5 ⟨0, 2, 1, 1, 1, 1, 1, 100, 200⟩ = some stSchedInfeasible ∧
    (36 < shareSum State.reset 0 37 Dom.t1Gib ∧ ¬ (36 < shareSum State.reset 0 36 Dom.t1Gib) ∧ stacksOf shared 0 ≠ [] ∧ stacksOf State.reset 0 = [] ∧ 8 ≤ (8#8).toNat) ∧
    (moveRefusal shared 0 8 = none ∧ moveRefusal State.reset 8 0 = some stRange) ∧
    ((1 : Nat) < ({ State.reset.sec.slots.getD 0 ⟨false, false, (0, 0), 0⟩ with minSvn := 2 } : SignerSlot).minSvn ∧ (State.reset.sec.slots.getD 0 ⟨false, false, (0, 0), 0⟩).en = false) ∧
    feasible [⟨0, 2, 1, 1, 1, 1, 10, 100, 300⟩] = true ∧ feasible [⟨0, 2, 1, 1, 1, 1, 10, 100, 299⟩] = false := by
  refine ⟨rfl, rfl, ⟨_, List.mem_cons_self ..⟩, fun y h => (nomatch h), ?_⟩
  decide +kernel

theorem met_SecurityExchanges :
    (spdmOf { State.reset with sec := { spdm := [(0, ⟨true, true, true, true, true⟩)] } } 0 = ⟨true, true, true, true, true⟩ ∧ (spdmOf State.reset 0).version = false ∧
      (spdmOf State.reset 0).session = false) ∧
    (let s := { mapped with ctxs := [(5, { prov := some ⟨0, 0, 1, 1, 1, 1, 0, 0, 0⟩ })] }; tdiOf s 1 = .unlocked ∧ slotCtx s 1 0 = some 5 ∧ (ctxOf s 5).prov.isSome = true ∧
      domOfCtx s 5 = some 0 ∧ ∀ e ∈ ctxsOfDom s 0, fnOf s e = 1) ∧
    tdiOf { State.reset with sec := { tdi := [(1, .lockedCfg)] } } 1 = .lockedCfg ∧ tdiOf State.reset 1 ≠ .lockedCfg ∧ tdiOf State.reset 1 = .unlocked ∧ tdiOf State.reset 1 ≠ .error := by
  decide +kernel

/-- The header, the section table and the signature of an image: five sections, its settings and pair sections of zeros (15 R493, R494; the key
is chosen so that the check is short). -/
def imageHead : List Byte :=
  [0x45, 0x44, 0x52, 0x4E, 0x01, 0x01, 0x05, 0x00, 0x90, 0x12, 0x01, 0x00, 0x00, 0x00, 0x00, 0x00, 0xFF, 0x00, 0x00, 0x00, 0x05] ++
  List.replicate 43 0#8 ++
  [0x01, 0x00, 0x00, 0x00, 0x00, 0x00, 0x00, 0x00, 0x90, 0x02] ++
  List.replicate 22 0#8 ++
  [0x38, 0xB0, 0x60, 0xA7, 0x51, 0xAC, 0x96, 0x38, 0x4C, 0xD9, 0x32, 0x7E, 0xB1, 0xB1, 0xE3, 0x6A, 0x21, 0xFD, 0xB7, 0x11, 0x14, 0xBE, 0x07, 0x43, 0x4C, 0x0C, 0xC7, 0xBF, 0x63, 0xF6, 0xE1, 0xDA, 0x27, 0x4E, 0xDE, 0xBF, 0xE7, 0x6F, 0x65, 0xFB, 0xD5, 0x1A, 0xD2, 0xF1, 0x48, 0x98, 0xB9, 0x5B, 0x02, 0x00, 0x00, 0x00, 0x00, 0x00, 0x00, 0x00, 0x90, 0x02] ++
  List.replicate 22 0#8 ++
  [0x38, 0xB0, 0x60, 0xA7, 0x51, 0xAC, 0x96, 0x38, 0x4C, 0xD9, 0x32, 0x7E, 0xB1, 0xB1, 0xE3, 0x6A, 0x21, 0xFD, 0xB7, 0x11, 0x14, 0xBE, 0x07, 0x43, 0x4C, 0x0C, 0xC7, 0xBF, 0x63, 0xF6, 0xE1, 0xDA, 0x27, 0x4E, 0xDE, 0xBF, 0xE7, 0x6F, 0x65, 0xFB, 0xD5, 0x1A, 0xD2, 0xF1, 0x48, 0x98, 0xB9, 0x5B, 0x04, 0x00, 0x01, 0x00, 0x00, 0x00, 0x00, 0x00, 0x90, 0x02, 0x00, 0x00, 0x00, 0x00, 0x00, 0x00, 0x00, 0x10] ++
  List.replicate 62 0#8 ++
  [0x03, 0x00, 0x01, 0x00, 0x00, 0x00, 0x00, 0x00, 0x90, 0x12, 0x00, 0x00, 0x00, 0x00, 0x00, 0x00, 0x00, 0x00, 0x01] ++
  List.replicate 61 0#8 ++
  [0x05, 0x00, 0x01, 0x00, 0x00, 0x00, 0x00, 0x00, 0x90, 0x02] ++
  List.replicate 70 0#8 ++
  [0x75, 0xA4, 0xEC, 0xBB, 0xF7, 0xFD, 0x3D, 0xD5, 0xF9, 0x79, 0x96, 0x81, 0xBF, 0x4C, 0x04, 0x45, 0x11, 0x18, 0x96, 0x23, 0x97, 0xC2, 0x2B, 0xB5, 0xE6, 0x4E, 0xB4, 0x3B, 0xB7, 0xCD, 0xAD, 0x86, 0x6F, 0x99, 0xFE, 0x57, 0x63, 0x16, 0x05, 0xEA, 0xB8, 0xFB, 0x89, 0x7F, 0x08, 0x9E, 0x6D, 0x26, 0x77, 0x85, 0xE1, 0xFC, 0xE1, 0x42, 0xFA, 0x22, 0x88, 0x15, 0x35, 0x15, 0xE6, 0x5A, 0x7A, 0xDD, 0xDB, 0xCB, 0x78, 0x41, 0xC9, 0x00, 0x2A, 0x0D, 0x4D, 0x18, 0xCE, 0x4F, 0x72, 0x19, 0xAC, 0x80, 0xF0, 0x49, 0x21, 0xD6, 0xBE, 0x0A, 0xA1, 0x31, 0xF7, 0x83, 0x60, 0x18, 0x70, 0x26, 0xD7, 0x94, 0xA4, 0x87, 0xC8, 0xD2, 0x2E, 0x78, 0x66, 0x43, 0x2D, 0xF6, 0x04, 0x90, 0xAE, 0xCD, 0xE9, 0x82, 0x5A, 0xE7, 0x4F, 0x16, 0xFF, 0x8B, 0xD0, 0x96, 0x48, 0x31, 0x4F, 0x47, 0xBC, 0x88, 0xBD, 0xDE, 0xDF, 0x6C, 0x57, 0x5C, 0x10, 0xC9, 0x2F, 0x4D, 0x20, 0x15, 0x58, 0x8D, 0xF6, 0x48, 0xD1, 0xCD, 0xA4, 0x87, 0xC8, 0xD2, 0x2E, 0x78, 0x66, 0x43, 0x2D, 0xF6, 0x04, 0x90, 0xAE, 0xCD, 0xE9, 0x82, 0x5A, 0xE7, 0x4F, 0x16, 0xFF, 0x8B, 0xD0, 0x96, 0x48, 0x31, 0x4F, 0x47, 0xBC, 0x88, 0xBD, 0xDE, 0xDF, 0x6C, 0x57, 0x5C, 0x10, 0xC9, 0x2F, 0x4D, 0x20, 0x15, 0x58, 0x8D, 0xF6, 0x48, 0xD1, 0xCD]

/-- The image: its sections follow. -/
def demoImage : List Byte := imageHead ++ List.replicate 69632 0#8

/-- A directory of slots of 1 MiB (15 R492). -/
def directoryHead : List Byte := [0x45, 0x44, 0x49, 0x52, 0x01, 0x00, 0x00, 0x00] ++ List.replicate 24 0#8 ++ [0x00, 0x00, 0x10, 0x00]
def demoDirectory : List Byte := directoryHead ++ (List.replicate 4056 0#8 ++ [0x93#8, 0xAC#8, 0xEF#8, 0x24#8])

theorem demoImage_length : demoImage.length = 70288 := by
  unfold demoImage; rewrite [List.length_append, List.length_replicate]; decide +kernel

theorem demoImage_header : imgHeaderOk 0x100000 demoImage = true := by
  unfold imgHeaderOk; simp only [demoImage_length]; decide +kernel

theorem rootSigned_of (img : List Byte) (h : Config.rootHash = sha384 (slice img (64 + 80 * imgCount img) 96))
    (e : (let o := 64 + 80 * imgCount img
          let pub := slice img o 96
          ecdsaVerify (ofBeBytes (pub.take 48), ofBeBytes (pub.drop 48)) (img.take o) (ofBeBytes (slice img (o + 96) 48)) (ofBeBytes (slice img (o + 144) 48))) = true) :
    rootSigned img = true := by
  unfold rootSigned
  exact Bool.and_eq_true_iff.mpr ⟨decide_eq_true h.symm, e⟩

theorem demoImage_signed (h : Config.rootHash = sha384 (slice demoImage (64 + 80 * imgCount demoImage) 96)) : rootSigned demoImage = true :=
  rootSigned_of demoImage h (by decide +kernel)

theorem demoImage_content : contentOk demoImage = true := by decide +kernel

theorem demoDirectory_ok : directoryOk demoDirectory = true := by
  have l : demoDirectory.length = 4096 := by
    unfold demoDirectory; rewrite [List.length_append, length_zeros]; decide +kernel
  have c : crc32c (demoDirectory.take 0xFFC) = imgNat demoDirectory 0xFFC 4 := by
    refine (crc32c_steps (n := imgNat demoDirectory 0xFFC 4) ?_)
    decide +kernel
  refine Bool.and_eq_true_iff.mpr ⟨Bool.and_eq_true_iff.mpr ⟨Bool.and_eq_true_iff.mpr ⟨decide_eq_true l, ?_⟩, decide_eq_true c⟩, ?_⟩ <;> decide +kernel

theorem demoDirectory_slot : slotLenOf [demoDirectory] = some 0x100000 := by
  unfold slotLenOf
  simp only [List.take, List.filter, demoDirectory_ok]
  decide +kernel

/-- The power controller as given, at a tick. -/
def power (p : Pwr) (gt : Nat) : State := { State.reset with gt := gt, pwr := p }

theorem met_PowerControl :
    (State.reset.pwr.hold = 0 ∧ (power { hold := 2, samples := [16] } 0).pwr.hold ≠ 0) ∧
    (let s := power { samples := [65535] } 0; regBits s 0x200004 23 16 * regBits s 0x200004 10 0 * 16 * (s.pwr.samples.take 10).length < 100 * (s.pwr.samples.take 10).sum) ∧
    (let s := power { samples := [16], hold := 2 } 0; (s.pwr.samples.take 10).sum < regBits s 0x200004 10 0 * 16 * (s.pwr.samples.take 10).length) ∧
    (let s := power { samples := [65535], hold := 1 } 20000; s.pwr.hold = 1 ∧ RunOut s (s.pwr.holdSince + 20000) ∧ ¬ RunOut (waiting s) (s.pwr.holdSince + 20000)) ∧ (power { raisedAt := some 3 } 3).pwr.raisedAt = some (power {} 3).gt ∧
    ((power { stage := 10 } 2000000).pwr.stage = 10 ∧ (power { stage := 10 } 2000000).gt % 1000000 = 0) ∧ (power { wanted := 1 } 0).pwr.stage ≠ (power { wanted := 1 } 0).pwr.wanted ∧
    (let s := power { samples := [65535] } 100000; let xs := s.pwr.samples.take (min 1000 ((s.gt - s.pwr.stageAt) / 1000))
      s.pwr.stage = s.pwr.wanted ∧ RunOut s (s.pwr.stageAt + 100000) ∧ ¬ RunOut (waiting s) (s.pwr.stageAt + 100000) ∧ regBits s 0x200004 10 0 * 16 * xs.length < xs.sum ∧ s.pwr.stage < 10 ∧
        (higherStage s s.pwr.stage).isSome = true) ∧
    (let s := power { samples := [1], stage := 3, wanted := 3 } 6000000; let xs := s.pwr.samples.take (min 1000 ((s.gt - s.pwr.stageAt) / 1000))
      0 < s.pwr.stage ∧ 100 * xs.sum < regBits s 0x200004 10 0 * (100 - regBits s 0x200004 26 24) * 16 * xs.length ∧ s.pwr.highAt + 5000000 ≤ s.gt ∧
        (lowerStage s s.pwr.stage).isSome = true ∧ tabFind s.pwr.left 2 = none) := by
  simp only [ranOut_iff]
  decide +kernel

/-- Domain 0's clock, and the replicas of compute die 0. -/
def clocked (x : ClkDom) (r : Replica) (gt : Nat) : State :=
  let s := up [0] State.reset
  { s with gt := gt, pwr := { clk := [(0, x)], reps := [(0, r)] }, arr := { s.arr with memStacks := [(0, { domain := some 0 })] } }

theorem met_CoreClocks :
    ((clkOf State.reset 0).ramp = none ∧ (clkOf (clocked { ramp := some 1 } {} 0) 0).ramp ≠ none ∧ (clkOf State.reset 0).pend ≠ some 6) ∧
    (let x := clkOf (clocked { step := 3, pend := some 4, locked := true } {} 0) 0; x.pend = some 4 ∧ x.locked = true ∧ x.ramp = none ∧ x.step < 4) ∧
    (let x := clkOf (clocked { step := 5, pend := some 4, locked := true } {} 0) 0; (4 : Nat) ≤ x.step) ∧ (State.reset.pwr.refOk = true ∧ Instr.refclkLost ∉ State.reset.pending ∧ Instr.refclkLost ∈ ({ State.reset with pending := [.refclkLost] } : State).pending) ∧
    (domOf State.reset 0).phase = .idle ∧ (domOf (running (demoOp 1 [])) 0).phase ≠ .idle ∧ (clkOf (clocked { ramp := some 1 } {} 0) 0).ramp = some 1 ∧
    (let s := clocked { marginCeil := 1 } {} 100000000; pinnedCeil s 0 < (clkOf s 0).marginCeil ∧ RunOut s ((clkOf s 0).warnedAt + 100000000) ∧ ¬ RunOut (waiting s) ((clkOf s 0).warnedAt + 100000000) ∧ (clkOf s 0).roseAt = 0) ∧
    (let s := clocked {} {} 0; dieUp s ((dieOfPd 0).getD 0) = true ∧ (stackOf s (0 / 2)).domain = some 0) ∧ dieUp State.reset ((dieOfPd 0).getD 0) = false ∧
    (let s := clocked {} { low := List.replicate 32 2 } 0
      let low := List.zipWith (fun n x => if x < 16 then n + 1 else 0) (replicaOf s 0).low ((List.range 32).map fun k => (([15#8] : List (BitVec 8)).getD k 0xFF#8).toNat)
      ∃ n, n ∈ low ∧ 3 ≤ n) ∧
    (let s := power { holdover := some 0, refOk := false } 10000000; s.pwr.holdover = some 0 ∧ RunOut s (0 + 10000000) ∧ ¬ RunOut (waiting s) (0 + 10000000) ∧ s.pwr.halted = false ∧ s.pwr.refOk = false) ∧
    (power { refOk := false, halted := true } 0).pwr.halted = true := by
  simp only [ranOut_iff]
  refine ⟨by decide +kernel, by decide +kernel, by decide +kernel, by decide, by decide +kernel, by decide +kernel, rfl, by decide +kernel, by decide +kernel, by decide +kernel,
    ⟨3, by decide +kernel, by decide⟩, by decide +kernel, rfl⟩

/-- Thermal die 0 as given, with its power domain on. -/
def thermal (x : Therm) (gt : Nat) : State :=
  let s := up [0] State.reset
  { s with gt := gt, pwr := { pds := [(0, .on)], therm := [(0, x)] }, arr := { s.arr with memStacks := [(0, { domain := some 0 })] } }

/-- A latch that is set. -/
def setLatch : ThLatch := ⟨true, 0, 0⟩

theorem met_ThermalStates :
    (({} : ThLatch).set = false ∧ (1600 : Int) ≤ 1600 ∧ ({ c := 99 } : ThLatch).c + 1 = 100 ∧ ({} : ThLatch).c + 1 ≠ 100 ∧ (1599 : Int) < 1600) ∧
    (setLatch.set = true ∧ (1600 : Int) - 48 ≤ 1552 ∧ (1551 : Int) < 1600 - 48 ∧ setLatch.r + 1 < 100 ∧ 100 ≤ ({ setLatch with r := 99 } : ThLatch).r + 1) ∧
    (pdOf State.reset 0 ≠ .on ∧ 28 < (29#5).toNat ∧ pdOf (thermal {} 0) 0 = .on ∧ (0#5).toNat ≤ 28) ∧
    (∃ y, governing (thermal {} 0) 0 (readSensors (thermal {} 0) 0 [1600#16]).2 false = some y) ∧
    (({ trip := setLatch } : Therm).trip.set = true ∧ ({} : Therm).trip.set = false) ∧
    (let x : Therm := { throt := setLatch }; x.trip.set = false ∧ x.warn.set = ({} : Therm).warn.set ∧ x.throt.set = true ∧ x.suspect = false ∧
      (stackOf (thermal {} 0) 0).domain = some 0) ∧
    (let s := thermal { throt := setLatch, hotSince := some 0 } 5000000; (thermOf s 0).hotSince = some 0 ∧ (stackOf s 0).domain = some 0 ∧ (thermOf s 0).throt.set = true ∧
      RunOut s (0 + 5000000) ∧ ¬ RunOut (waiting s) (0 + 5000000)) ∧ (thermOf State.reset 0).hotSince = none ∧
    (let s := clocked { thCeil := 1 } {} 5000000; (clkOf s 0).thCeil ≠ 0 ∧ throttled s 0 = false ∧ RunOut s ((clkOf s 0).coolAt + 5000000)) := by
  simp only [ranOut_iff]
  refine ⟨by decide, by decide, by decide, ⟨1600, by decide +kernel⟩, by decide, by decide +kernel, by decide +kernel, rfl, by decide +kernel⟩

/-- A die as given, with its power domain on, in service or resetting. -/
def dieState (i : Nat) (x : Die) (gt : Nat) : State :=
  { State.reset with gt := gt, arr := { State.reset.arr with dies := [(i, x)] }, pwr := { pds := [(pdOfDie i, .on)] } }

/-- Every bundle of strip port 0 outward has failed lanes. -/
def deadPort : List (BitVec 8 × BitVec 7) := [(0, 64), (1, 64), (2, 64)]

theorem met_DiesAndRegulators :
    (let s := dieState 8 { st := .inService } 4000; dieUp s 8 = true ∧ s.gt ≤ (dieOf s 8).beat + 4000 ∧ RunOut s ((dieOf s 8).beat + 4000) ∧ ¬ RunOut (waiting s) ((dieOf s 8).beat + 4000) ∧ (dieOf s 8).st ≠ .off ∧ (8 : Nat) < 29 ∧ 8 ≠ 20 ∧ resetWaits s = false ∧ (dieOf s 20).st ≠ .reset) ∧
    (resetWaits { State.reset with pending := [.warm] } = true ∧ (dieOf (dieState 20 { st := .reset } 0) 20).st = .reset ∧ bootReady State.reset = false ∧ bootReady (booted []) = true) ∧
    (let s := dieState 8 { st := .inService } 4001; (dieOf s 8).beat + 4000 < s.gt) ∧
    (dieUp (up [21, 0] State.reset) 21 = true ∧ dieUp (up [21, 0] State.reset) (21 - 21) = true ∧ 21 ≤ (21#5).toNat) ∧ dieUp State.reset 8 = false ∧
    (pdOf State.reset 28 = .off ∧ 49 ≤ (49#6).toNat ∧ pdOf (power { pds := [(28, .on)] } 0) 28 = .on ∧ pdOf (power { pds := [(29, .on)] } 0) 29 = .on ∧
      pdOf (power { pds := [(41, .on)] } 0) 41 = .on ∧ pdOf (power { pds := [(16, .on)] } 0) 16 = .on ∧ dieOfPd 16 = some 8) ∧
    (State.reset.pwr.refOk = true ∧ 32 ≤ (32#6).toNat ∧ (43#6).toNat < 44 ∧ 44 ≤ (44#6).toNat) ∧
    (let s := dieState 16 { st := .inService } 0; let u := resetDma s fun n => (resetScope 16).any fun j => touchesDie s j n; dieUp u 16 = true ∧ 16 ≤ 16 ∧ (16 : Nat) < 20) ∧
    (let s := dieState 16 { st := .testing } 0; (dieOf s 16).st = .testing ∧ (dieOf s 16).returning = false ∧ pdOf s (pdOfDie 16) = .on ∧ s.rst.warmReset = false ∧
      stripDead (testBundles (freshDie s 16) 16 []) 16 = false ∧ trained (testTiles (modPort (testBundles (freshDie s 16) 16 []) 0 leaveSelfRefresh) 16 [] []) 0 = false) ∧
    (let s := dieState 21 { st := .reset } 0; (dieOf s 21).st = .reset ∧ stripDead (testBundles (freshDie s 21) 21 []) 21 = false ∧ entersNow (testTiles (testBundles (freshDie s 21) 21 []) 21 [] []) 21 = true) ∧
    (let s := dieState 0 { st := .testing } 0; (dieOf s 0).st = .testing ∧ stripDead (testBundles (freshDie s 0) 0 deadPort) 0 = true) ∧
    (let s := power { ramps := [28, 0], rampBy := 5 } 5; s.pwr.ramps = 28 :: [0] ∧ s.pwr.rampBy ≤ s.gt ∧ ([0] : List Nat).head? ≠ some 28) ∧
    (let s := { power { ramps := [0], rampBy := 5 } 5 with arr := { State.reset.arr with dies := [(0, { st := .ramping })] } }; (dieOf s 0).st = .ramping ∧ dieOfPd 0 = some 0) := by
  simp only [ranOut_iff]
  decide +kernel

/-- Stage and registers of a boot. -/
def bootState (stage : Nat) (vals : List (Nat × Word)) (r : Rst) : State :=
  { State.reset with rf := { State.reset.rf with vals := vals ++ [(0x300014, BitVec.ofNat 32 stage)] }, rst := r }

theorem met_ResetSources :
    ((127 : Nat) < 128 ∧ (1 : Nat) ≤ 9 ∧ (0x44 : Nat) ∉ [0x300000, 0x300010, 0x3400000, 0x3400004]) ∧
    ((bootReady State.reset = false ∧ State.reset.rst.warmReset = false) ∧ bootReady (booted []) = true) ∧
    (perstNow State.reset = false ∧ Instr.perst ∈ ({ State.reset with pending := [.perst] } : State).pending ∧ perstNow { State.reset with pending := [.perst] } = true) ∧ ((0#6) = 0#6 ∧ (63#6) ≠ 0#6) ∧
    (let s := { bootState 0 [] { warmReset := true } with arr := { State.reset.arr with dies := [(20, { st := .reset })] } }; s.rst.warmReset = true ∧ stageOf s = 0 ∧
      bootReady s = false ∧ (dieOf s 20).st = .reset) ∧
    (let s := { booted [] with ctxs := [(5, { suspended := some 0 })] }; (ctxOf s 5).suspended = some 0 ∧ bootReady s = true ∧ 0 ≤ s.gt) ∧
    (let s := { booted [] with rf := { State.reset.rf with vals := [(0x300008, 0x80000000#32), (0x300014, 0x80000007#32)] }, rst := { wdtBy := some 0 } };
      s.rst.wdtBy = some 0 ∧ RunOut s 0 ∧ ¬ RunOut (waiting s) 0 ∧ (regVal s 0x300008).getLsbD 31 = true ∧ bootReady s = true ∧ (regVal s 0x300008).getLsbD 29 = false) ∧
    (regVal (bootState 0 [(0x300008, 0xA0000000#32)] {}) 0x300008).getLsbD 29 = true ∧
    (let s := bootState 1 [] { bootBy := some 0, coolBy := some 0 }; s.rst.bootBy = some 0 ∧ bootReady s = false ∧ s.rst.coolBy = some 0 ∧ 0 ≤ s.gt) ∧
    ((3 : Nat) ≤ 5 ∧ dieUp (up [8] State.reset) 8 = true ∧ dieUp (up [0] State.reset) 0 = true ∧ bootReady { booted [] with arr := (up [8] State.reset).arr } = true) := by
  simp only [ranOut_iff]
  decide +kernel

theorem met_BootStages (h : Config.rootHash = sha384 (slice demoImage (64 + 80 * imgCount demoImage) 96)) :
    (stageOf State.reset ≠ 1 ∧ stageOf (bootState 1 [] {}) = 1 ∧ slotLenOf [] = none ∧ slotLenOf [demoDirectory] = some 0x100000) ∧
    (let s := bootState 14 [(0x300028, 0#32)] {}; stageOf s = 14 ∧ s.rst.recovering = false ∧ regVal s 0x300028 = 0#32) ∧
    (let s := bootState 14 [(0x300028, 1#32)] {}; (regVal s 0x300020).toNat % 4096 = 0 ∧ regVal s 0x300028 ≠ 0#32) ∧ (bootState 14 [] { recovering := true }).rst.recovering = true ∧
    (let s := { bootState 4 [] { warmSince := some 0, warmBy := some 0 } with gt := 10000000 }; s.rst.warmSince = some 0 ∧ stageOf s = 4 ∧ 0 + 10000000 ≤ s.gt ∧ s.rst.warmBy = some 0 ∧ RunOut s 0 ∧ ¬ RunOut (waiting s) 10000000) ∧
    (imgHeaderOk 0x100000 [] = false ∧ imgHeaderOk 0x100000 demoImage = true ∧ rootSigned demoImage = true ∧ ¬ imgNat demoImage 0x10 1 < max Config.svnFloor.toNat State.reset.sec.floor ∧
      contentOk demoImage = true ∧ needsFactory demoImage = true) ∧
    (imgNat demoImage 0x10 1 < max Config.svnFloor.toNat 256) ∧
    ((bootState 1 [] { image := 3 }).rst.image = 3 ∧ (bootState 1 [] {}).rst.image ≠ 3 ∧ (bootState 1 [] {}).rst.images = [] ∧ (bootState 1 [] { images := [2, 3] }).rst.images = 2 :: [3]) ∧
    (let s := bootState 3 [] {}; s.pwr.ramps = [] ∧ diesWait s (decide (stageOf s = 5)) = false ∧ stageOf s = 3) ∧
    (let s := { bootState 5 [] {} with base := { ready := true }, sil := { banks := (List.range 128).map fun n => (n, { st := .inService }) } }; diesWait s (decide (stageOf s = 5)) = false ∧ banksWait s = false ∧ s.base.ready = true ∧ stageOf s = 5) ∧
    (let s := bootState 5 [] {}; stageOf s = 5 ∧ s.base.ready = false ∧ ∀ e, e ∈ s.base.rings → e.2.st = .acquiring → pdOf s (29 + fieldOf (e.1 % 64)) ≠ .on) := by
  simp only [ranOut_iff]
  refine ⟨⟨by decide, by decide, by decide, demoDirectory_slot⟩, by decide +kernel, by decide +kernel, rfl, by decide +kernel,
    ⟨by decide +kernel, demoImage_header, demoImage_signed h, ?_, demoImage_content, by decide +kernel⟩, ?_, by decide, by decide +kernel, by decide +kernel, by decide +kernel, rfl, fun e h => (nomatch h)⟩
  · have a : imgNat demoImage 0x10 1 = 255 := by decide +kernel
    have b : Config.svnFloor.toNat < 256 := Config.svnFloor.isLt
    have c : State.reset.sec.floor = 0 := rfl
    omega
  · have a : imgNat demoImage 0x10 1 = 255 := by decide +kernel
    omega

theorem met_EnergyConserved :
    (([⟨5, 0, false, [1]⟩] : List FlcEntry).map (dynOf [226])).sum ≠ 0 ∧ ([226] : List Nat).sum ≠ 0 ∧ Balanced State.reset.flc ∧ MeterCommand .intervalClose ∧ (∃ t, exec .intervalClose State.reset = .next t) ∧
    (let s := { State.reset with flc := { State.reset.flc with powered := false } }; s.flc.powered = false ∧ tabRising none (restored s.flc).accounts = true ∧
      (restored s.flc).closed + accountSum (restored s.flc) ≤ restoredEnergy s.flc) := by
  refine ⟨by decide, by decide, ⟨rfl, rfl, by decide⟩, .inr (.inl rfl), ⟨_, rfl⟩, by decide +kernel⟩

theorem met_FlaconMeters :
    (State.reset.flc.powered = true ∧ ({ State.reset with flc := { State.reset.flc with powered := false } } : State).flc.powered = false ∧ State.reset.flc.waiting.length < 1024) ∧
    1024 < (List.replicate 1025 (⟨1, 0, []⟩ : FlcInterval)).length ∧ (dieOf (up [20] State.reset) 20).st = .inService ∧ (dieOf State.reset 20).st ≠ .inService ∧
    ((parseRecord (recordBytesOf 1 [])).isSome = true ∧ parseRecord [] = none) ∧
    (({ State.reset.flc with hubBuf := [(1, 3, [])] } : Flc).hubBuf = (1, 3, []) :: [] ∧ (3 : Nat) ≤ (1, 3, ([] : List FlcEntry)).2.1) ∧
    (State.reset.flc.sealOpen = false ∧ ({ State.reset.flc with sealOpen := true } : Flc).sealOpen = true ∧ (3#8).toNat < 4 ∧ 8 ≤ (8#8).toNat ∧ 1 ≤ (1#32).toNat ∧ State.reset.flc.newParams = []) ∧
    (let s := { State.reset with gt := 1000000000, flc := { State.reset.flc with stall := some 0 } }; s.flc.stall = some 0 ∧ RunOut s (0 + 1000000000) ∧ ¬ RunOut (waiting s) (0 + 1000000000) ∧ s.arr.noSteps = false) ∧
    (({ State.reset.flc with shown := some (0, [], 0) } : Flc).shown = some (State.reset.gt, [], 0) ∧ State.reset.flc.shown = none) ∧
    (({ State.reset.flc with before := some (1, 0, false) } : Flc).before = some (State.reset.flc.n, 0, false) ∧ State.reset.flc.before = none) ∧
    (({ State.reset.flc with i3cSet := some 1 } : Flc).i3cSet = some State.reset.flc.n ∧ ({ State.reset.flc with closedAt := some 0 } : Flc).closedAt = some State.reset.gt ∧
      State.reset.flc.closedAt = none) ∧ Instr.sealClose ∈ ({ State.reset with pending := [.sealClose] } : State).pending ∧ Instr.sealClose ∉ State.reset.pending := by
  simp only [ranOut_iff]
  refine ⟨by decide, Nat.lt_of_lt_of_eq (by decide : 1024 < 1025) List.length_replicate.symm, by decide, by decide, by decide +kernel, by decide, by decide, by decide, by decide, by decide, by decide, by decide, by decide⟩

/-- Registers of an injection. -/
def injState (target lo hi : Word) (s : State) : State := { s with rf := { s.rf with vals := [(0x904, target), (0x908, lo), (0x90C, hi)] } }

theorem met_FaultLogAndInjection :
    (barsOff State.reset = false ∧ fltHead State.reset < (1#32).toNat ∧ (0#32).toNat ≤ fltHead State.reset ∧
      (match specOf 0x80C with | some p => !writeDenied State.reset .host p 0x80C 0#32 && !p.fields.any (fieldBad (locked State.reset 0x80C) 0#32) | none => false) = true) ∧
    (∃ c, c ∈ ({ State.reset with pending := [.perst] } : State).pending ∧ ResetCommand c) ∧ (¬ ∃ c, c ∈ State.reset.pending ∧ ResetCommand c) ∧
    ({ State.reset with flt := { State.reset.flt with coalesce := some 0 } } : State).flt.coalesce = some 0 ∧
    (let s := injState 0x18000001#32 0 0 { State.reset with base := { lasers := [(1, { st := .operating })] } }; locked s 0x900 = false ∧ injValid s (injArgs s 4) = true ∧
      injDenied s (injArgs s 4) = false ∧ injOut s (injArgs s 4) = false) ∧ injOut (injState 0x18000001#32 0 0 State.reset) (injArgs (injState 0x18000001#32 0 0 State.reset) 4) = true ∧
    injDenied (injState 0x04000014#32 0 0 State.reset) (injArgs (injState 0x04000014#32 0 0 State.reset) 7) = true ∧ injValid State.reset (injArgs State.reset 12) = false ∧
    (placeOf State.reset 0x100000000000 = some (.t1 0 0) ∧ placeOf State.reset 0x14003C001080 = some (.buf 0 1 0x80) ∧ placeOf (dram .inService 4) 0 = some (.t2 0 0)) ∧
    (let s := { State.reset with inj := ⟨0, false, [(0, 4, 1)]⟩, base := { lasers := [(1, { st := .failed })] } }; s.inj.restores = (0, 4, 1) :: [] ∧ 0 ≤ s.gt ∧
      (laserOf s 1).st = .failed) ∧ (dieOf { State.reset with arr := { State.reset.arr with dies := [(8, { st := .lost })] } } 8).st = .lost := by
  refine ⟨by decide +kernel, ⟨.perst, by simp, .inr (.inr (.inr (.inl rfl)))⟩, fun ⟨c, h, _⟩ => (nomatch h), ?_⟩
  decide +kernel

theorem met_RegisterWrites :
    (PlainRegister 0x200004 ∧ 0x200004 % 4 = 0 ∧ 0x200006 % 4 ≠ 0) ∧ (specOf 0x200004).isSome = true ∧ specOf 0x3FFFFFC = none ∧
    ((7 : Nat) < 32 ∧ 0 ≤ (7 : Nat)) ∧ (isLock 0xFF0 = true ∧ isLock 0 = false ∧ isLo 0x1400038 = true ∧ isLo 0 = false) ∧
    ((1#32 : Word).getLsbD 0 = true ∧ coresMay .host = false ∧ (regVal State.reset 0x100FF0).getLsbD 0 = false ∧ bootReady (booted []) = true ∧
      (∀ g, g < lockGroup 0x100FF0 → ∀ l, l ∈ lockGroups.getD g [] → (regVal (booted []) l).getLsbD 0 = true)) ∧
    (pageCtx State.reset (.pf 5#12) = some 5 ∧ 0x110 ≤ (0x110#12).toNat ∧ 0x10 ≤ (0x110#12).toNat ∧ (0xC#12).toNat < 0x10 ∧ pageCtx State.reset (.vf 0#6 0#6) = none) ∧
    (barsOff State.reset = false ∧ msixIndex State.reset 0 0x40 = some 4 ∧ msixIndex State.reset 1 0x4C = some 36 ∧ msixIndex State.reset 1 0x200 = none ∧
      4 ∉ State.reset.rf.pba ∧ 4 ∈ ({ State.reset.rf with pba := [4] } : RegFile).pba ∧ (tabGet [(4, ({ masked := false } : MsixEntry))] {} 4).masked = false) := by
  refine ⟨⟨⟨by decide +kernel, by decide +kernel, by decide, by decide, by decide, by decide, by decide, by decide, by decide⟩, by decide, by decide⟩, by decide +kernel, by decide +kernel,
    by decide, by decide +kernel, ⟨by decide, rfl, by decide +kernel, by decide +kernel, ?_⟩, by decide +kernel, by decide +kernel⟩
  have h : lockGroup 0x100FF0 = 0 := by decide +kernel
  rw [h]; intro g hg; exact absurd hg (Nat.not_lt_zero _)

theorem met_TestPort :
    State.reset.tap.bootWaits = false ∧ ({ State.reset with tap := { bootWaits := true } } : State).tap.bootWaits = true ∧ tapDrives .clamp = true ∧ tapDrives .bypass = false ∧
    State.reset.tap.coldLow = true ∧ ({ State.reset with tap := { coldLow := false } } : State).tap.coldLow = false := ⟨rfl, rfl, rfl, rfl, rfl, rfl⟩

theorem met_CommandsTakeEffect :
    (let i := scopedInst 1
     let s := formed i
     let b := { demoBatch with result := some [demoRow] };
     domFault s 0 = false ∧ (domOf s 0).phase = .running ∧ (domOf s 0).start ≤ s.gt ∧ (domOf s 0).batch = some b ∧ tabFind s.insts b.inst = some i ∧ opOf i b = some (scopedOp 1) ∧
       stepOf i b = some ⟨0, 2, []⟩ ∧ b.result = some [demoRow] ∧ b.op + 1 < 2 ∧ (domOf s 0).cut = false ∧ (domOf s 0).sliceEnd = none) ∧
    (domFault State.reset 0 = false ∧ (domOf State.reset 0).phase = .idle ∧ (domOf State.reset 0).batch = none) ∧
    (let s := sliced .running (some 0); (domOf s 0).phase = .running ∧ (domOf s 0).batch = some demoBatch ∧ (domOf s 0).sliceEnd = some 0 ∧ RunOut s 0) ∧
    (let s := mapped; (1#6 : BitVec 6) ≠ 0#6 ∧ barsOff s = false ∧ (0x80000006#32 : Word).toNat % 65536 = 6 ∧ ((ctxOf s 6).enable = false ∧ (ctxOf s 6).enabled = false) ∧
      (∀ c, slotCtx s 1 0 = some c → (ctxOf s c).enable = false ∧ (ctxOf s c).enabled = false) ∧ (∀ e ∈ s.rf.vals, e.2.toNat % 65536 ≠ 6) ∧ tdiLocked s 1 = false) ∧
    (let s := { withCtxs [(5, { coalesce := some 0, space := some ⟨0, 0⟩, irqNow := 0x80000000#32 })] with rf := { State.reset.rf with msix := [(0, { masked := false })] } };
      (ctxOf s 5).coalesce = some 0 ∧ RunOut s 0 ∧ (ctxOf s 5).irqNow.getLsbD 31 = true ∧ bits (ctxOf s 5).irqNow 10 0 < 32 ∧
      (tabGet s.rf.msix {} (32 * fnOf s 5 + bits (ctxOf s 5).irqNow 10 0)).masked = false ∧ (ctxOf s 5).space = some ⟨0, 0⟩ ∧ 0 ≤ s.gt) ∧
    (let s := paging { st := .inService } (some 0); (bankAt s 0 0).st = .inService ∧ (bankAt s 0 0).seg = none ∧ (bankAt s 0 0).due = false ∧ groupThrottled s 0 = false ∧
      (s.sil.scans.find? fun x => x.key = scanKey) = some (scanOf [0] []) ∧ mayScan s 0 (scanOf [0] []) = true ∧ 0 ∈ (scanOf [0] []).pages ∧
      (scanOf [0] []).lo / 256 ≤ 0 ∧ 0 < ((scanOf [0] []).hi + 255) / 256 ∧
      pageGroup s 5 (scanTensor s scanKey) 0 = (some 0, false)) ∧
    (let s := scanning { st := .inService, seg := some ⟨scanKey, [0], [], false⟩ } (scanOf [] []); (bankAt s 0 0).seg = some ⟨scanKey, [0], [], false⟩ ∧ Instr.sillageBankFault 0 0 ∉ s.pending ∧
      (s.sil.scans.find? fun x => x.key = scanKey) = some (scanOf [] []) ∧ (⟨scanKey, [0], [], false⟩ : Segment).dropped = false) ∧
    (let s := scanning {} (scanOf [] [(0, 1)]); (s.sil.scans.find? fun x => x.key = scanKey) = some (scanOf [] [(0, 1)]) ∧ (scanOf [] [(0, 1)]).pages = [] ∧
      (scanOf [] [(0, 1)]).codes.length = (scanOf [] [(0, 1)]).hi - (scanOf [] [(0, 1)]).lo ∧ ∀ e ∈ s.sil.banks, e.2.seg = none) ∧
    (let s := { sliced .running none with ctxs := [(5, { prov := some ⟨0, 2, 1, 1, 1, 1, 1, 10, 210⟩, stepTicks := 100000 })] }; ∃ p, (ctxOf s 5).prov = some p ∧ p.cls = 2 ∧
      (ctxOf s 5).demoted = false ∧ inBatch s 5 = true ∧ quiet s = true ∧ p.stepUs * 1000 * topFreq s ≤ (ctxOf s 5).stepTicks * stepFreq s p.dom) ∧
    (let s := { sliced .running none with plc := { State.reset.plc with units := [movingUnit] } };
      (s.plc.units.find? fun v => v.key = movingUnit.key && v.moving && !v.copied) = some movingUnit ∧ drainMove s movingUnit = none ∧ movingUnit.dest = none ∧ (copyDies movingUnit).any (faultPending s) = false ∧
        (domOf s movingUnit.dom).phase = .running ∧ movingUnit.home ≠ .lost) ∧
    (let s := withCtxs [(5, { onCtx with stopped := some 3, holdTimer := some 0 })]; pageCtx s (.pf 5#12) = some 5 ∧ (ctxOf s 5).enabled = true ∧ (ctxOf s 5).enable = true ∧
      bits 15#32 15 0 < 2 ^ (ctxOf s 5).sqLog ∧ bits 15#32 15 0 < 2 ^ (ctxOf s 5).cqLog ∧ bits 15#32 15 0 < 2 ^ (ctxOf s 5).rqLog ∧
      (∀ lim, (ctxOf s 5).holdTimer = some lim → s.gt ≤ lim) ∧ (ctxOf s 5).stopped = some (3#32 : Word).toNat) := by
  refine ⟨⟨rfl, rfl, by decide, rfl, rfl, rfl, rfl, rfl, by decide, rfl, rfl⟩, ⟨rfl, rfl, rfl⟩, ⟨rfl, rfl, rfl, (ranOut_iff _ _).mpr (by decide)⟩,
    ⟨by decide, by decide +kernel, by decide, ⟨rfl, rfl⟩, ?_, by decide, by decide +kernel⟩, ⟨rfl, (ranOut_iff _ _).mpr (by decide), by decide, by decide, by decide, rfl, by decide⟩, by decide +kernel,
    by decide +kernel, by decide +kernel, ⟨_, rfl, rfl, rfl, by decide, rfl, by decide⟩, ⟨rfl, rfl, rfl, rfl, rfl, by decide⟩,
    rfl, rfl, rfl, by decide, by decide, by decide, fun lim h => by cases h; decide, rfl⟩
  intro c h
  simp [mapped, booted, ctxOf, tabGet, tabFind, Ctx.off, State.reset]

theorem met_UniformDraws : (0 : Nat) % 4 = 0 ∧ 1 % 4 = 1 ∧ 2 % 4 = 2 ∧ 3 % 4 = 3 := by decide

theorem met_EventsMarked :
    writes onCtx = true ∧ (onCtx.events.length < 64 ∧ freeSlots { onCtx with cqTail := 15 } = 0) ∧ 64 ≤ ({ onCtx with events := List.replicate 64 ⟨2, 0, 0, false, 0, false, false⟩ } : Ctx).events.length := by
  decide +kernel

/-! ### Values the spec gives -/

/-- The digits of 10 R352's check column. -/
def digits : List Byte := [0x31, 0x32, 0x33, 0x34, 0x35, 0x36, 0x37, 0x38, 0x39]

/-- The check values of 10_dma_check.md R352. -/
theorem test_check_values : polyOut 0 (polyRun 0 (polyInit 0) digits) = 0xE3069283 ∧ polyOut 1 (polyRun 1 (polyInit 1) digits) = 0xCBF43926 ∧
    polyOut 2 (polyRun 2 (polyInit 2) digits) = 0x6C40DF5F0B497347 ∧ polyOut 3 (polyRun 3 (polyInit 3) digits) = 0x29B1 := by decide +kernel

/-- The vector of 02_arithmetic.md R63 and the example of R65. -/
theorem test_philox : philox 0 0 0 0 0 0 = (0x6627E8D5#32, 0xE169C58D#32, 0xBC57AC4C#32, 0x9B00DBD8#32) ∧ uniform 0x6627E8D5#32 = 0x3ECC4FD0#32 := by decide +kernel

/-- The entries of 16_flacon.md's worked example. -/
def workedEntries : List FlcEntry :=
  [⟨17, 3, false, [1500000000, 0, 0, 0, 2000000, 0, 0, 0]⟩, ⟨18, 1, false, [500000000, 0, 0, 0, 1000000, 0, 0, 0]⟩, ⟨4096, 0, false, [0, 0, 0, 0, 250000, 0, 0, 0]⟩]

/-- The worked example of 16_flacon.md: one interval. -/
theorem test_shares : (sharesOf ((List.range 8).map fun k => flcParam State.reset.flc (8 + k)) 1081900 workedEntries).map (fun x => (x.1.acc, x.2)) =
    [(17, 799857), (18, 275433), (4096, 6610)] := by decide +kernel

/-- IDCODE (19_package_pins.md R594). -/
theorem test_idcode : after .idcode State.reset (fun t => decide (t.sent.map Prod.snd = [.plain "tdo" 0xB9620D87])) = true := by decide +kernel

/-- The I3C targets (19_package_pins.md R586): static 0x30 + TRAYPOS; SETDASA gives the dynamic address, ENTDAA gives one to a target without. -/
theorem test_i3c : hubAddr { State.reset with rst := { State.reset.rst with trayPos := 5 } } = 0x35 ∧ flcStatic - Config.flcAddr.toNat = 0x38 ∧
    hubAddr (setdasa State.reset (hubStatic State.reset) 9) = 9 ∧ hubAddr (entdaa (entdaa State.reset false 9) false 10) = 9 ∧ flcAddr (entdaa State.reset true 8) = 8 :=
  ⟨by decide, Nat.add_sub_cancel _ _, by decide, by decide, by decide⟩

/-! ### One command each -/
set_option Elab.async false
set_option linter.all false

/-- A machine of one lane with V0 and V1 as given. -/
def kernState (a b : Word) : State :=
  { State.reset with arr := { State.reset.arr with kern := { kernStart 1 [[0x40000000#32]] [0x40400000#32] with regs := [[a], [b]] ++ List.replicate 62 [0#32] } } }

/-- What a command leaves in V2. -/
def v2 (c : Instr) (a b : Word) : List Word := match exec c (kernState a b) with | .next t => kernReg t.arr.kern 2 | _ => []

/-- R137 over 1.0, 2.0 and 3.0, ±0, infinity and NaN. -/
theorem test_kernel_arith : v2 (.add 2 0 1) 0x3F800000#32 0x40000000#32 = [0x40400000#32] ∧ v2 (.sub 2 0 1) 0x3F800000#32 0x40000000#32 = [0xBF800000#32] ∧
    v2 (.mul 2 0 1) 0x40400000#32 0x40000000#32 = [0x40C00000#32] ∧ v2 (.div 2 0 1) 0x40C00000#32 0x40000000#32 = [0x40400000#32] ∧
    v2 (.fma 2 0 1 0) 0x40000000#32 0x40400000#32 = [0x41000000#32] ∧ v2 (.sqrt 2 0) 0x40800000#32 0#32 = [0x40000000#32] ∧
    v2 (.rcp 2 0) 0x40000000#32 0#32 = [0x3F000000#32] ∧ v2 (.rsqrt 2 0) 0x40800000#32 0#32 = [0x3F000000#32] := by decide +kernel
theorem test_kernel_select : v2 (.neg 2 0) 0x3F800000#32 0#32 = [0xBF800000#32] ∧ v2 (.abs 2 0) 0xBF800000#32 0#32 = [0x3F800000#32] ∧
    v2 (.min 2 0 1) 0x3F800000#32 0x40000000#32 = [0x3F800000#32] ∧ v2 (.max 2 0 1) 0x3F800000#32 0x40000000#32 = [0x40000000#32] ∧
    v2 (.lt 2 0 1) 0x3F800000#32 0x40000000#32 = [0x3F800000#32] ∧ v2 (.le 2 0 1) 0x40000000#32 0x3F800000#32 = [0#32] ∧
    v2 (.eq 2 0 1) 0x7FC00000#32 0x7FC00000#32 = [0#32] ∧ v2 (.sel 2 0 1 0) 0#32 0x40000000#32 = [0x40000000#32] ∧ v2 (.sel 2 0 1 1) 0x3F800000#32 0x40000000#32 = [0x3F800000#32] := by
  decide +kernel
theorem test_kernel_moves : v2 (.ld 2 0) 0#32 0#32 = [0x40000000#32] ∧ v2 (.ldc 2 0) 0#32 0#32 = [0x40400000#32] ∧ v2 (.idx 2) 0#32 0#32 = [0#32] ∧
    v2 (.cvtbf 2 0) 0x3F808001#32 0#32 = [0x3F810000#32] ∧ v2 (.rsum 2 0) 0x3F800000#32 0#32 = [0x3F800000#32] ∧ v2 (.rmax 2 0) 0x3F800000#32 0#32 = [0x3F800000#32] ∧
    v2 (.rmin 2 0) 0x3F800000#32 0#32 = [0x3F800000#32] ∧ v2 (.exp2 2 0) 0x3F800000#32 0#32 = [0x40000000#32] ∧ v2 (.log2 2 0) 0x40000000#32 0#32 = [0x3F800000#32] := by decide +kernel

/-- A step takes the command at the front and leaves the rest (notes/assumptions/1); on an empty queue GT advances. -/
theorem test_step : (match step { State.reset with pending := [.idcode, .bypass] } with | .next t => decide (t.pending = [.bypass]) && decide (t.gt = 0) | _ => false) = true ∧
    (match step State.reset with | .next t => decide (t.gt = 1) | _ => false) = true := ⟨rfl, by decide +kernel⟩

/-- A cold reset counts in BOOT and samples the straps (15_reset_boot.md R477, R502). -/
theorem test_cold_reset : after (.coldRst 0x35#7 true) State.reset (fun t => decide (t.boots = 2) && decide (regVal t 0x300010 = 0x35#32) && decide (t.rst.trayPos = 3) &&
    (regVal t 0x300000).getLsbD 1) = true := by decide +kernel

/-- A reserved offset answers ST_ADDR, an unaligned one ST_BAD_DESC; both are logged (18_register_map.md R555, R556, R558). -/
theorem test_write_log : after (.registerWrite .host (.bar0 0x3FFFFFC#26) (.dword 1)) State.reset (fun t => decide (t.rf.wlogCount = 1) && decide ((t.rf.wlog.map WriteLogEntry.status) = [stAddr])) = true ∧
    after (.registerWrite .host (.bar0 6#26) (.dword 1)) State.reset (fun t => decide ((t.rf.wlog.map WriteLogEntry.status) = [stBadDesc])) = true := by decide +kernel

/-- PWR_CAP takes its range and refuses what lies outside it (14 R456, 18 R557). -/
theorem test_cap : after (.capWrite .host (regReset 0x200004)) State.reset (fun t => decide (t.rf.wlogCount = 0)) = true ∧
    after (.capWrite .host 0#32) State.reset (fun t => decide ((t.rf.wlog.map WriteLogEntry.status) = [stRange])) = true := by decide +kernel

/-- A doorbell beyond its ring counts and reports; one of less than 32 bits does nothing (09_host_rings.md R298). -/
theorem test_doorbell : after (.ctxSqTail (.pf 5#12) true 16#32) (withCtxs [(5, onCtx)]) (fun t => decide ((ctxOf t 5).dbErr = 1)) = true ∧
    after (.ctxSqTail (.pf 5#12) false 1#32) (withCtxs [(5, { onCtx with sqTail := 0 })]) (fun t => decide ((ctxOf t 5).sqTail = 0)) = true := by decide +kernel

/-- NOP at a quiet context completes with ST_OK in completion slot 0 (09 R308, R314). -/
theorem test_nop : after (.nop 5#12 head1) (withCtxs [(5, onCtx)]) (fun t => decide ((ctxOf t 5).cqTail = 1) && decide ((ctxOf t 5).sqHead = 1) && decide ((ctxOf t 5).queue = [])) = true := by
  decide +kernel

/-- A link whose far end is the device R362 names comes up; another is MISWIRED (11_tray_fabric.md R362, R364). -/
theorem test_link_up : after (.linkUp 0 0 0 ⟨0, 1, 0, 0⟩ 0) (linkState { st := .training, trainBy := 5 } 0) (fun t => decide ((linkOf t 0 0).st = .up) && decide ((linkOf t 0 0).trainings = 1)) = true ∧
    after (.linkUp 0 0 0 ⟨0, 2, 0, 0⟩ 0) (linkState { st := .training, trainBy := 5 } 0) (fun t => decide ((linkOf t 0 0).st = .miswired)) = true := by decide +kernel

/-- ATOMIC_ADD adds and answers the old value (11 R371). -/
theorem test_atomic_add : after (.atomicAdd 1 false 1 0 0 0x100000000000#48 5) (openFabric false) (fun t => decide (memByte t 0x100000000000 = 5#8)) = true := by decide +kernel

/-- A lease is granted under the next claim (12_mirrored_pairs.md R400). -/
theorem test_lease : after (.leaseRequest 1 0 2 0) (authority { claim := 7 } 0) (fun t => decide ((authSet t 1 0).claim = 8) && decide ((authSet t 1 0).holder = some 2)) = true := by decide +kernel

/-- Provisioning records the parameters at the tick's end; context 4096 is refused with ST_RANGE (13_tenancy_security.md R420 to R422). -/
theorem test_provision : after (.provisionCtx true 5 0 1 2 3 4 5 0 0 0) State.reset (fun t => decide ((ctxOf (runCmds t) 5).prov = some ⟨0, 1, 2, 3, 4, 5, 0, 0, 0⟩)) = true ∧
    after (.provisionCtx false 4096 0 1 2 3 4 5 0 0 0) State.reset (fun t => decide (regVal (runCmds t) 0x400014 = BitVec.ofNat 32 (256 + stRange))) = true := by decide +kernel

/-- A heartbeat overdue by 4 µs loses the die (17_faults.md R535). -/
theorem test_heartbeat : after (.heartbeatTimeout 8) (dieState 8 { st := .inService } 4000) (fun t => decide ((dieOf t 8).st = .lost)) = true ∧
    after (.heartbeatTimeout 8) (dieState 8 { st := .inService } 3999) (fun t => decide ((dieOf t 8).st = .inService)) = true := by decide +kernel

/-- A millisecond of Flacon's clock ends (16 R511). -/
theorem test_interval : after .intervalClose State.reset (fun t => decide (t.flc.n = 2) && decide (t.flc.waiting.length = 1)) = true := by decide +kernel

/-- A due calibration starts on a free bank (06_sillage.md R200). -/
theorem test_calibration_due : after (.calibrationDue ⟨0, 0⟩ none) { bankState { st := .inService } with gt := 1000000000000 } (fun t => decide ((bankAt t 0 0).st = .calibrating) && (bankAt t 0 0).stale) = true := by decide +kernel

/-- A ring without light counts no unlock; with light it acquires (07_skeltil_base.md R239). -/
theorem test_ring_unlock : after (.ringUnlock 0 true) { State.reset with base := { acquired := [0] } } (fun t => decide ((tabGet t.base.rings {} 0).st = .acquiring)) = true ∧
    after (.ringUnlock 0 false) State.reset (fun t => decide (t.base.rings = [])) = true := by decide +kernel

/-- The refresh of a row moves to the next one (08_memory_tiers.md R260). -/
theorem test_refresh : after (.reservoirRefresh 0 71) (up [8] State.reset) (fun t => decide (tabGet (rsvOf t 0).rows 0 71 = 1)) = true := by decide +kernel

/-- A channel starts where its fields hold (10_dma_check.md R334). -/
theorem test_dma_go : after (.dmaGo 56 (.write .secure) 0x10500000#32) (dmaState {} 0x10500000#32 [8]) (fun t => decide ((dmaOf t 56).st = .running)) = true ∧
    after (.dmaGo 56 (.write .host) 0x10500000#32) (dmaState {} 0x10500000#32 [8]) (fun t => decide ((t.rf.wlog.map WriteLogEntry.status) = [stDenied])) = true := by decide +kernel

end Sys2Proof.Tests
end

section
/-!
ARITH_CLR and the counts of its own tick (02_arithmetic.md R55): where a CLR and a count update fall in the same tick, the clear is
applied first, so what the counts rose by stays. The model's `clearArith` keeps it; the ARITH_CLR clause of
`Obligations.RegisterWrites` says that every count is 0.
-/
namespace Sys2Proof.Proofs
open Sys2Proof Sys2Proof.Machine

/-- A requester's copy of a selection is read back. -/
theorem selVal_selPut_same (s : State) (r : Requester) (off : Nat) (v : Word) : selVal (selPut s r off v) r off = v :=
  tabGet_set_same _ _ _ _

/-- ARITH_CLR is the write of CTX_ARITH_SEL with CLR. -/
theorem exec_arithClr (r : Requester) (c : BitVec 16) (s : State) :
    exec (.arithClr r c) s = .next (writeReg s r 0x800200 (0x80000000#32 ||| c.zeroExtend 32)) := rfl

/-- What a context's flush count rose by in the present tick outlives a clear of the tick (02 R55). -/
theorem clearArith_flush_of_rise_now (s : State) (c : Nat) (h : (ctxOf s c).rise.at_ = s.gt) :
    (ctxOf (clearArith s c) c).flush = (ctxOf s c).rise.flush := by
  simp [clearArith, h]

/-- CTX_ARITH_SEL in the register table: CLR, and a context up to 4,095. -/
theorem specOf_arithSel : specOf 0x800200 = some (rg 0x800200 0 [fld 31 31 .wo, fldR 15 0 .rw 0 4095]) := by decide +kernel

/-- The device after reset, but that context 0 has counted one flush in the present tick. -/
def flushedNow : State := { State.reset with ctxs := [(0, raiseArith 0 Ctx.off ⟨0, 1, 0, 0, 0⟩)] }

theorem flushedNow_not_hidden :
    ¬ ((Requester.host = .host ∧ barsOff flushedNow = true) ∨ ∃ c, c ∈ flushedNow.pending ∧ ResetCommand c) := by
  rintro (⟨-, hoff⟩ | ⟨c, hc, -⟩)
  · exact absurd hoff (by decide +kernel)
  · exact nomatch hc

/-- The host's CLR of context 0 passes every check and clears its counts. -/
theorem writeReg_arithSel_flushedNow :
    writeReg flushedNow .host 0x800200 (0x80000000#32 ||| (0#16).zeroExtend 32) =
      clearArith (selPut flushedNow .host 0x800200 0#32) 0 := by decide +kernel

/-- Refutes O56: ARITH_CLR does not zero the counts that rose in its own tick (02_arithmetic.md R55, the clear coming first). Context 0
has counted one flush in tick 0; the host's ARITH_CLR of context 0 in tick 0 is accepted and leaves its flush count at 1, where the
statement's ARITH_CLR clause says 0. -/
theorem not_registerWrites : ¬ Obligations.RegisterWrites := by
  unfold Obligations.RegisterWrites
  rintro ⟨-, -, -, hcommands, -⟩
  obtain ⟨-, -, harith⟩ := hcommands flushedNow .host 0
  obtain ⟨t, hexec, -, -, hjudged⟩ := harith 0#16
  obtain ⟨-, -, haccepted⟩ := hjudged _ specOf_arithSel flushedNow_not_hidden
  obtain ⟨v, -, u, hu, e, he, hcleared, -⟩ := haccepted (by decide +kernel) (by decide +kernel)
  have hctx : e = 0 := by
    rw [he, hu, selVal_selPut_same]
    decide +kernel
  have hzero : (ctxOf t 0).flush = 0 := hctx ▸ congrArg Ctx.flush hcleared
  have hone : (ctxOf t 0).flush = 1 := by
    rw [exec_arithClr, writeReg_arithSel_flushedNow] at hexec
    cases hexec
    exact clearArith_flush_of_rise_now _ 0 rfl
  exact absurd (hzero.symm.trans hone) Nat.zero_ne_one

end Sys2Proof.Proofs
end

section
/-!
Rules that the boundaries, the Accord start and the timers share: a timer that has run out, and one domain or one context changed.
-/
namespace Sys2Proof.Proofs
open Sys2Proof Sys2Proof.Machine

/-- The model's test of a timer is the statements' one (01 R28, R29). -/
theorem ranOut_eq_true_iff (s : State) (lim : Nat) : ranOut s lim = true ↔ RunOut s lim := by
  simp [ranOut, RunOut]

theorem ranOut_eq_false_iff (s : State) (lim : Nat) : ranOut s lim = false ↔ ¬ RunOut s lim := by
  rw [← ranOut_eq_true_iff, Bool.not_eq_true]

/-! ### One domain changed -/

/-- `t` is `s` with domain `d` as given, and nothing else changed. -/
def DomPut (s t : State) (d : Nat) (x : Dom) : Prop :=
  domOf t d = x ∧ OtherDoms d s t ∧ t = { s with arr := { s.arr with doms := t.arr.doms } }

@[simp] theorem domOf_modDom_same (s : State) (d : Nat) (f : Dom → Dom) : domOf (modDom s d f) d = f (domOf s d) := by
  simp [domOf_modDom]

theorem modDom_domPut (s : State) (d : Nat) (f : Dom → Dom) : DomPut s (modDom s d f) d (f (domOf s d)) :=
  ⟨domOf_modDom_same s d f, fun e he => by rw [domOf_modDom, if_neg he], rfl⟩

theorem DomPut.refl (s : State) (d : Nat) : DomPut s s d (domOf s d) := ⟨rfl, fun _ _ => rfl, rfl⟩

/-- A state whose domain table is that of `s` has the domains of `s`. -/
theorem domOf_congr {s t : State} (h : t.arr.doms = s.arr.doms) (d : Nat) : domOf t d = domOf s d := by
  rw [domOf, domOf, h]

/-- A run of changes each of which leaves a domain leaves it. -/
theorem domOf_foldl {α : Type} {f : State → α → State} {d : Nat} (h : ∀ t x, domOf (f t x) d = domOf t d) (xs : List α) (s : State) :
    domOf (xs.foldl f s) d = domOf s d := by
  induction xs generalizing s with
  | nil => rfl
  | cons x xs ih => rw [List.foldl_cons, ih, h]

/-! ### One context changed -/

theorem setCtx_ctxPut (s : State) (c : Nat) (k : Ctx) : CtxPut s (setCtx s c k) c k :=
  ⟨ctxOf_setCtx_same s c k, fun e he => by rw [ctxOf_setCtx, if_neg he], rfl⟩

end Sys2Proof.Proofs
end

section
/-!
The Accord start (01_architecture.md R20, R21): what a ready report and the start of an operation change.
-/
namespace Sys2Proof.Proofs
open Sys2Proof Sys2Proof.Machine

/-! ### The ready report -/

/-- A report on its way waits in a router; nothing else of a stack changes. -/
theorem stackOf_sendReport (s : State) (n m : Nat) :
    stackOf (sendReport s n) m = { stackOf s m with waits := (stackOf (sendReport s n) m).waits } := by
  simp only [sendReport, enqueue, stackOf_modStack]
  split
  · next h => rw [h]
  · rfl

/-- The stacks an operation runs on depend on their domains, dies and capacity states alone. -/
theorem liveStacks_sendReport (s : State) (n d : Nat) : liveStacks (sendReport s n) d = liveStacks s d := by
  have hdom (m : Nat) : (stackOf (sendReport s n) m).domain = (stackOf s m).domain := by rw [stackOf_sendReport]
  have hfresh (m : Nat) : (stackOf (sendReport s n) m).fresh = (stackOf s m).fresh := by rw [stackOf_sendReport]
  have hdie (m : Nat) : dieUp (sendReport s n) m = dieUp s m := rfl
  have hcap (m : Nat) : capOf (sendReport s n) 0 m = capOf s 0 m := rfl
  simp [liveStacks, stacksOf, hdom, hfresh, hdie, hcap]

/-- The state in which stack `n` has reported ready to its domain: the first report arms the limit of 8 µs. -/
def reported (s : State) (n d : Nat) : State :=
  modDom (sendReport s n) d fun y => { y with
    ready := y.ready ++ [n], lastReady := s.gt, readyBy := some (y.readyBy.getD (s.gt + 8000)) }

theorem reported_domPut (s : State) (n d : Nat) : DomPut (sendReport s n) (reported s n d) d { domOf s d with
    ready := (domOf s d).ready ++ [n], lastReady := s.gt, readyBy := some ((domOf s d).readyBy.getD (s.gt + 8000)) } :=
  modDom_domPut _ _ _

theorem domOf_reported (s : State) (n d : Nat) : domOf (reported s n d) d = { domOf s d with
    ready := (domOf s d).ready ++ [n], lastReady := s.gt, readyBy := some ((domOf s d).readyBy.getD (s.gt + 8000)) } :=
  (reported_domPut s n d).1

theorem liveStacks_reported (s : State) (n d : Nat) : liveStacks (reported s n d) d = liveStacks s d :=
  liveStacks_sendReport s n d

/-- A report in time for a domain without a missed limit finds no stack lost. -/
theorem reportsLate_of_inTime {s : State} {d : Nat} (h : ∀ lim, (domOf s d).readyBy = some lim → s.gt ≤ lim) : reportsLate s d = s := by
  unfold reportsLate
  split
  · next t _ hby => rw [if_neg (Nat.not_lt.mpr (h t hby))]
  · rfl

/-- STACK_READY of a stack that its domain waits for joins its report, and the operation starts if it was the last. -/
theorem exec_stackReady {s : State} {n d : BitVec 3} (hdom : (stackOf s n.toNat).domain = some d.toNat)
    (hphase : (domOf s d.toNat).phase = .readying) (hup : dieUp s n.toNat = true) (hnew : n.toNat ∉ (domOf s d.toNat).ready)
    (hramp : (tabGet s.pwr.clk {} d.toNat).ramp = none) (htime : ∀ lim, (domOf s d.toNat).readyBy = some lim → s.gt ≤ lim) :
    exec (.stackReady n) s = .next (startIfReady (reported s n.toNat d.toNat) d.toNat) := by
  show execStackReady n s = _
  simp only [execStackReady, hdom, reportsLate_of_inTime htime]
  rw [if_neg (by simp [hphase, hup, hnew, hramp])]
  simp only [reported]
  congr 3
  funext y
  cases y.readyBy <;> rfl

/-! ### The start of an operation -/

/-- While a live stack has not reported, no operation starts. -/
theorem startIfReady_of_missing {s : State} {d : Nat} (h : ∃ m ∈ liveStacks s d, m ∉ (domOf s d).ready) : startIfReady s d = s := by
  obtain ⟨m, hlive, hmissing⟩ := h
  have hall : (liveStacks s d).all (domOf s d).ready.contains = false :=
    List.all_eq_false.mpr ⟨m, hlive, by simpa using hmissing⟩
  simp [startIfReady, hall]

/-- The tick on which a domain's operation starts (01 R20). -/
def startTick (s : State) (d : Nat) : Nat := accordTick (max (domOf s d).lastReady (max (domOf s d).prevEnd s.gt))

theorem startTick_reported (s : State) (n d : Nat) : startTick (reported s n d) d = accordTick (max s.gt (domOf s d).prevEnd) := by
  rw [startTick, domOf_reported]
  show accordTick (max s.gt (max (domOf s d).prevEnd s.gt)) = _
  congr 1
  omega

/-- A domain whose operation starts; a first part fixes how many parts the operation has (13 R436). -/
def startedDom (s : State) (d : Nat) (y : Dom) : Dom :=
  { y with
    phase := .running, start := startTick s d, readyBy := none
    batch := y.batch.map fun b => if b.part = 0 then { b with parts := partCount s d b } else b
    sliceEnd := match y.sliceEnd with | some e => some e | none => some (startTick s d + 200000) }

/-- Once every live stack has reported, the operation starts, unless the domain is halted or no operation may start. -/
theorem startIfReady_of_all {s : State} {d : Nat} (hphase : (domOf s d).phase = .readying) (hhalt : (domOf s d).halted = false)
    (hops : s.arr.noOps = false) (hlive : liveStacks s d ≠ []) (hall : ∀ m ∈ liveStacks s d, m ∈ (domOf s d).ready) :
    startIfReady s d = resumeDomain (modDom (prefetchNext (reserveDests s d) d) d (startedDom s d)) d (startTick s d) := by
  have hready : (liveStacks s d).all (domOf s d).ready.contains = true := by simpa [List.all_eq_true] using hall
  unfold startIfReady
  rw [if_pos (by simp [hphase, hhalt, hops, hlive, hready])]
  rfl

/-- The Accord grid (01 R20): the first multiple of 10 at or after a tick. -/
theorem accordTick_spec (t : Nat) : accordTick t % 10 = 0 ∧ t ≤ accordTick t ∧ accordTick t < t + 10 := by
  unfold accordTick
  omega

/-- `t` is `s` but for the reduction destinations that its stacks reserve. -/
def OnlyDests (s t : State) : Prop :=
  (∀ m, stackOf t m = { stackOf s m with dests := (stackOf t m).dests }) ∧ t = { s with arr := { s.arr with memStacks := t.arr.memStacks } }

theorem OnlyDests.trans {s t u : State} (h : OnlyDests s t) (g : OnlyDests t u) : OnlyDests s u :=
  ⟨fun m => (g.1 m).trans (by rw [h.1 m]), g.2.trans (by rw [h.2])⟩

theorem modStack_onlyDests (s : State) (n : Nat) (f : Stack → List RedDest) : OnlyDests s (modStack s n fun k => { k with dests := f k }) := by
  refine ⟨fun m => ?_, rfl⟩
  rw [stackOf_modStack]
  split
  · next h => rw [h]
  · rfl

theorem reserveDests_onlyDests (s : State) (d : Nat) : OnlyDests s (reserveDests s d) :=
  List.foldlRecOn (motive := OnlyDests s) _ _ ⟨fun _ => rfl, rfl⟩ fun _ h _ _ => h.trans (modStack_onlyDests _ _ _)

/-- Fetching the next operands changes what streams for the domain, and nothing else. -/
theorem prefetchNext_domPut (s : State) (d : Nat) : ∃ p, DomPut s (prefetchNext s d) d { domOf s d with prefetch := p } := by
  unfold prefetchNext
  split
  · exact ⟨_, DomPut.refl s d⟩
  · split
    · exact ⟨_, modDom_domPut _ _ _⟩
    · exact ⟨_, DomPut.refl s d⟩

theorem domOf_resumeDomain (s : State) (d e t : Nat) :
    domOf (resumeDomain s d t) e = if e = d then { domOf s d with resumes := [] } else domOf s e :=
  domOf_setDom _ _ _ _

/-- What the start of an operation changes: its domain runs from the Accord tick, its destinations are reserved, and the records that
waited for the domain take their GT_RESUME. -/
theorem started_spec {s u : State} {d : Nat} (hu : u = resumeDomain (modDom (prefetchNext (reserveDests s d) d) d (startedDom s d)) d (startTick s d)) :
    (∃ p, domOf u d = { startedDom s d { domOf s d with prefetch := p } with resumes := [] }) ∧ OtherDoms d s u ∧
    (∀ m, stackOf u m = { stackOf s m with dests := (stackOf u m).dests }) ∧
    u = { s with arr := { s.arr with doms := u.arr.doms, memStacks := u.arr.memStacks }, flt := { s.flt with recs := u.flt.recs } } := by
  obtain ⟨hdests, hreserved⟩ := reserveDests_onlyDests s d
  obtain ⟨p, hdom, hother, hfetched⟩ := prefetchNext_domPut (reserveDests s d) d
  have hdoms (e : Nat) : domOf (reserveDests s d) e = domOf s e := domOf_congr (by rw [hreserved]) e
  have hstacks (m : Nat) : stackOf u m = stackOf (reserveDests s d) m := by
    rw [hu, ← show stackOf (prefetchNext (reserveDests s d) d) m = stackOf (reserveDests s d) m by rw [hfetched]; rfl]
    rfl
  refine ⟨⟨p, ?_⟩, fun e he => ?_, fun m => ?_, ?_⟩
  · rw [hu, domOf_resumeDomain, if_pos rfl, domOf_modDom_same, hdom, hdoms]
  · rw [hu, domOf_resumeDomain, if_neg he, domOf_modDom, if_neg he, hother e he, hdoms]
  · rw [hstacks, hdests]
  · have hrest : prefetchNext (reserveDests s d) d =
        { s with arr := { s.arr with doms := (prefetchNext (reserveDests s d) d).arr.doms, memStacks := (reserveDests s d).arr.memStacks } } :=
      hfetched.trans (by rw [hreserved])
    have hlast : u = { prefetchNext (reserveDests s d) d with
        arr := { (prefetchNext (reserveDests s d) d).arr with doms := u.arr.doms, memStacks := u.arr.memStacks }
        flt := { (prefetchNext (reserveDests s d) d).flt with recs := u.flt.recs } } := by rw [hu]; rfl
    exact hlast.trans (by rw [hrest])

/-! ### The limit for the reports -/

theorem exec_accordReadyTimeout {s : State} {d : BitVec 3} {lim : Nat} (hphase : (domOf s d.toNat).phase = .readying)
    (hby : (domOf s d.toNat).readyBy = some lim) :
    exec (.accordReadyTimeout d) s = .next (if ranOut s lim then loseSilent s d.toNat lim else s) := by
  show execAccordReadyTimeout d s = _
  simp only [execAccordReadyTimeout, hphase, hby]
  split <;> rfl

/-- The stacks that have not reported are lost, by a fault of the tick of the first report (01 R21). -/
theorem loseSilent_spec (s : State) (d lim : Nat) :
    ∃ u, u = ((liveStacks s d).filter fun m => !(domOf s d).ready.contains m).foldl (fun w m => loseDie w m 0x09 0 false) s ∧
      (∀ (j : Nat) (r : FaultRec), u.flt.recs[j]? = some r →
        (loseSilent s d lim).flt.recs[j]? = some (if s.flt.seq < r.seq then { r with gtFault := lim - 8000 } else r)) ∧
      (loseSilent s d lim).flt.recs.length = u.flt.recs.length ∧
      domOf (loseSilent s d lim) d = { domOf u d with lastFaultGt := lim - 8000 } ∧ OtherDoms d u (loseSilent s d lim) ∧
      loseSilent s d lim = { u with
        arr := { u.arr with doms := (loseSilent s d lim).arr.doms }
        flt := { u.flt with recs := (loseSilent s d lim).flt.recs, retained := (loseSilent s d lim).flt.retained } } := by
  refine ⟨_, rfl, fun j r hr => ?_, List.length_map _, domOf_modDom_same _ _ _, fun e he => ?_, rfl⟩
  · simp only [loseSilent, modDom_flt, List.getElem?_map, hr, Option.map_some]
  · rw [loseSilent, domOf_modDom, if_neg he]
    rfl

/-- Settles O11: a report joins `reported`, and the last one starts the operation by `started_spec` on the tick of `accordTick_spec`; the
limit loses the silent stacks by `loseSilent_spec`. -/
theorem accordStart : Obligations.AccordStart := by
  unfold Obligations.AccordStart
  intro s n d x v
  refine ⟨fun hdom hphase hup hnew hramp htime => ⟨fun hmissing => ?_, fun hlive hall hhalt hops => ?_⟩, fun lim hphase hby => ⟨fun hrun => ?_, fun hrun => ?_⟩⟩
  · obtain ⟨m, hm, hne, hnot⟩ := hmissing
    refine ⟨_, exec_stackReady hdom hphase hup hnew hramp htime, ?_⟩
    rw [startIfReady_of_missing ⟨m, by rwa [liveStacks_reported], by simpa [domOf_reported, hne] using hnot⟩]
    exact reported_domPut s n.toNat d.toNat
  · have hstart := startIfReady_of_all (s := reported s n.toNat d.toNat) (d := d.toNat) (by rw [domOf_reported]; exact hphase)
      (by rw [domOf_reported]; exact hhalt) hops (by rw [liveStacks_reported]; exact List.ne_nil_of_mem hlive) (by
        intro m hm
        rw [liveStacks_reported] at hm
        rw [domOf_reported, List.mem_append, List.mem_singleton]
        exact (hall m hm).symm)
    refine ⟨_, exec_stackReady hdom hphase hup hnew hramp htime, ?_⟩
    obtain ⟨⟨p, hd⟩, hother, hstacks, hrest⟩ := started_spec hstart
    have hbegin : (domOf _ d.toNat).start = accordTick (max s.gt x.prevEnd) := (congrArg Dom.start hd).trans (startTick_reported s n.toNat d.toNat)
    obtain ⟨hgrid, hafter, hsoon⟩ := accordTick_spec (max s.gt x.prevEnd)
    rw [← hbegin] at hgrid hafter hsoon
    exact ⟨by rw [hd]; rfl, hgrid, by rw [hd, domOf_reported]; rfl, Nat.le_trans (Nat.le_max_left _ _) hafter, Nat.le_trans (Nat.le_max_right _ _) hafter, hsoon,
      fun e he => (hother e he).trans ((reported_domPut s n.toNat d.toNat).2.1 e he), hstacks, hrest⟩
  · exact ⟨_, exec_accordReadyTimeout hphase hby, by rw [if_neg (by rwa [ranOut_eq_true_iff])]⟩
  · refine ⟨_, exec_accordReadyTimeout hphase hby, ?_⟩
    rw [if_pos ((ranOut_eq_true_iff s lim).mpr hrun)]
    exact loseSilent_spec s d.toNat lim

end Sys2Proof.Proofs
end

section
/-!
Slice ends, operation boundaries and copies (01_architecture.md R22, R23; 13_tenancy_security.md R433, R436; 05_placement.md R146).
-/
namespace Sys2Proof.Proofs
open Sys2Proof Sys2Proof.Machine

/-! ### What the end of an execution leaves of its domain -/

/-- What charging an execution, crediting its operation and installing copies may change of a domain: what streams, the end of the last
execution, its array time and its stalls. -/
def Charged (x y : Dom) : Prop := y = { x with prefetch := y.prefetch, prevEnd := y.prevEnd, acct := y.acct, pfStall := y.pfStall }

theorem Charged.refl (x : Dom) : Charged x x := rfl

theorem Charged.trans {x y z : Dom} (h : Charged x y) (g : Charged y z) : Charged x z :=
  Eq.trans g (by rw [h])

theorem Charged.parked_eq {x y : Dom} (h : Charged x y) : y.parked = x.parked := by rw [h]
theorem Charged.cut_eq {x y : Dom} (h : Charged x y) : y.cut = x.cut := by rw [h]
theorem Charged.sliceEnd_eq {x y : Dom} (h : Charged x y) : y.sliceEnd = x.sliceEnd := by rw [h]

theorem domOf_foldl_modCtx {α : Type} (c : α → Nat) (f : α → Ctx → Ctx) (xs : List α) (s : State) (d : Nat) :
    domOf (xs.foldl (fun u x => modCtx u (c x) (f x)) s) d = domOf s d :=
  domOf_foldl (fun t x => domOf_modCtx t (c x) (f x) d) xs s

theorem domOf_installUnit (s : State) (u : Machine.PUnit) (d : Nat) : domOf (installUnit s u) d = domOf s d := by
  unfold installUnit
  split <;> rfl

theorem domOf_installCopies (s : State) (n d : Nat) : domOf (installCopies s n) d = domOf s d :=
  domOf_foldl (fun t u => domOf_installUnit t u d) _ _

theorem domOf_countTraffic (s : State) (n d : Nat) : domOf (countTraffic s n) d = domOf s d :=
  domOf_foldl (fun t m => domOf_setStack t m d _) _ _

theorem fetchExperts_charged (s : State) (d : Nat) (i : Inst) (o : OpRec) (b : Batch) (rows : List BatchRow) :
    Charged (domOf s d) (domOf (fetchExperts s d i o b rows) d) := by
  unfold fetchExperts
  split
  · rfl
  · dsimp only
    split
    · rfl
    · rw [domOf_modDom_same]
      rfl

theorem addStall_charged (s : State) (d : Nat) : Charged (domOf s d) (domOf (addStall s d) d) := by
  rw [addStall, domOf_modDom_same]
  rfl

theorem chargeTicks_charged (s : State) (d : Nat) (rows : List BatchRow) : Charged (domOf s d) (domOf (chargeTicks s d rows) d) := by
  have hstall (f : BatchRow → Ctx → Ctx) : Charged (domOf s d) (domOf (addStall (rows.foldl (fun u r => modCtx u r.ctx (f r)) s) d) d) := by
    have := addStall_charged (rows.foldl (fun u r => modCtx u r.ctx (f r)) s) d
    rwa [domOf_foldl_modCtx] at this
  unfold chargeTicks
  dsimp only
  split
  · rw [domOf_foldl_modCtx, domOf_modDom_same]
    exact (hstall _).trans rfl
  · rw [domOf_modDom_same]
    exact (hstall _).trans rfl

theorem creditOp_charged (s : State) (d : Nat) (i : Inst) (o : OpRec) (b : Batch) (rows : List BatchRow) :
    Charged (domOf s d) (domOf (creditOp s d i o b rows) d) := by
  have hcounts (f : BatchRow → Ctx → Ctx) : domOf (rows.foldl (fun u r => if r.status ≠ 0 then u else modCtx u r.ctx (f r)) s) d = domOf s d :=
    domOf_foldl (fun _ _ => by split <;> rfl) _ _
  refine Charged.trans ?_ (chargeTicks_charged _ d rows)
  rw [domOf_modDom_same]
  refine Charged.trans (Charged.trans ?_ (fetchExperts_charged _ d i o b rows)) rfl
  rw [domOf_countTraffic]
  exact (hcounts _).symm ▸ Charged.refl _

/-! ### The end of an operation -/

section
variable {s : State} {d : Nat} {b : Batch} {i : Inst} {o : OpRec}

theorem endOp_of_noBatch (hb : (domOf s d).batch = none) : endOp s d = (s, decide ((domOf s d).phase = .idle)) := by
  simp [endOp, hb]

/-- An operation whose execution has not begun goes on. -/
theorem endOp_of_notRunning (hb : (domOf s d).batch = some b) (hi : tabFind s.insts b.inst = some i) (ho : opOf i b = some o)
    (h : (domOf s d).phase ≠ .running ∨ s.gt < (domOf s d).start) : endOp s d = (s, false) := by
  simp only [endOp, hb, hi, ho]
  exact if_pos (by simpa using h)

/-- The last part of an operation goes on while its results are not formed. -/
theorem endOp_of_lastPart (hb : (domOf s d).batch = some b) (hi : tabFind s.insts b.inst = some i) (ho : opOf i b = some o)
    (hres : b.result = none) (hpart : b.parts ≤ b.part + 1) : endOp s d = (s, false) := by
  simp only [endOp, hb, hi, ho, hres]
  rw [if_neg (Nat.not_lt.mpr hpart), ite_self]

/-- The end of an earlier part leads to the next one. -/
theorem endOp_of_part (hb : (domOf s d).batch = some b) (hi : tabFind s.insts b.inst = some i) (ho : opOf i b = some o)
    (hphase : (domOf s d).phase = .running) (hstart : (domOf s d).start ≤ s.gt) (hres : b.result = none) (hpart : b.part + 1 < b.parts) :
    endOp s d = goOn (installCopies (chargeTicks s d b.rows) d) d i { b with part := b.part + 1, attempt := 0 } (domOf s d).opseq := by
  simp only [endOp, hb, hi, ho, hres]
  rw [if_neg (by simp [hphase, hstart]), if_pos hpart]

/-- A batch at its next operation. -/
abbrev nextOp (b : Batch) (rows : List BatchRow) (opseq : Nat) : Batch :=
  { b with op := b.op + 1, rows := settleRows rows, result := none, attempt := 0, part := 0, parts := 1, seq := opseq }

/-- The end of an operation leads to the end of the step after the last one, and else to the next operation. -/
theorem endOp_of_result {rows : List BatchRow} {n : Nat} (hb : (domOf s d).batch = some b) (hi : tabFind s.insts b.inst = some i) (ho : opOf i b = some o)
    (hphase : (domOf s d).phase = .running) (hstart : (domOf s d).start ≤ s.gt) (hres : b.result = some rows)
    (hn : (stepOf i b).map StepRec.count = some n) :
    endOp s d = if n ≤ b.op + 1
      then (endStep (installCopies (creditOp s d i o b rows) d) d i (nextOp b rows (((domOf s d).opseq + 1) % 2 ^ 32)), true)
      else goOn (installCopies (creditOp s d i o b rows) d) d i (nextOp b rows (((domOf s d).opseq + 1) % 2 ^ 32)) (((domOf s d).opseq + 1) % 2 ^ 32) := by
  simp only [endOp, hb, hi, ho, hres, hn]
  rw [if_neg (by simp [hphase, hstart])]
  rfl

end

theorem goOn_of_cut {s : State} {d : Nat} {i : Inst} {b : Batch} (q : Nat) (h : cutsHere s d i b = true) :
    goOn s d i b q = (modDom s d fun y => { y with
      prefetch := [], batch := none, parked := y.parked ++ [b], phase := .idle, cut := false, sliceEnd := none, ready := [], readyBy := none }, true) := by
  rw [goOn, if_pos h]

theorem goOn_of_notCut {s : State} {d : Nat} {i : Inst} {b : Batch} (q : Nat) (h : cutsHere s d i b = false) :
    goOn s d i b q = (modDom s d fun y => { y with batch := some b, phase := .readying, ready := [], readyBy := none, opseq := q }, false) := by
  rw [goOn, if_neg (by rw [h]; exact Bool.false_ne_true)]

/-- A slice that is neither marked for its cut nor bounded cuts no batch. -/
theorem cutsHere_of_noSlice {s : State} {d : Nat} (i : Inst) (b : Batch) (hcut : (domOf s d).cut = false) (hslice : (domOf s d).sliceEnd = none) :
    cutsHere s d i b = false := by
  simp [cutsHere, hcut, hslice]

/-! ### The boundary a domain has reached -/

section
variable {s u : State} {d : Nat}

/-- An operation that goes on leaves everything as it is. -/
theorem boundary_of_goesOn (h : endOp s d = (s, false)) : boundary s d = s := by
  cases hp : (domOf s d).phase <;> simp [boundary, h, opCut, opEnded, hp]

/-- A batch that is parked leaves the domain to the next one. -/
theorem boundary_of_parked {e : Bool} (h : endOp s d = (u, e)) (hparked : (domOf s d).parked.length < (domOf u d).parked.length) :
    boundary s d = formBatch (atOpBoundary u d) d := by
  simp [boundary, h, opCut, hparked]

/-- At the end of a step what waits for an operation boundary takes effect, and then what waits for a step boundary. -/
theorem boundary_of_stepEnd (h : endOp s d = (u, true)) (hparked : (domOf u d).parked = (domOf s d).parked) :
    boundary s d = atStepBoundary (atOpBoundary u d) d := by
  simp [boundary, h, opCut, hparked]

/-- Between two operations what waits for an operation boundary takes effect. -/
theorem boundary_of_opEnd (h : endOp s d = (u, false)) (hparked : (domOf u d).parked = (domOf s d).parked)
    (hbefore : (domOf s d).phase = .running) (hafter : (domOf u d).phase = .readying) : boundary s d = atOpBoundary u d := by
  simp [boundary, h, opCut, opEnded, hparked, hbefore, hafter]

/-- A boundary whose batch goes on: the domain of `e` waits for the stacks of operation `b`. -/
theorem boundary_of_goOn {e : State} {i : Inst} {b : Batch} {q : Nat} (h : endOp s d = goOn e d i b q) (hcut : cutsHere e d i b = false)
    (hcharged : Charged (domOf s d) (domOf e d)) (hphase : (domOf s d).phase = .running) :
    ∃ u, boundary s d = atOpBoundary u d ∧ DomPut e u d { domOf e d with batch := some b, phase := .readying, ready := [], readyBy := none, opseq := q } := by
  rw [goOn_of_notCut q hcut] at h
  have hput := modDom_domPut e d fun y => { y with batch := some b, phase := .readying, ready := [], readyBy := none, opseq := q }
  exact ⟨_, boundary_of_opEnd h (by rw [hput.1]; exact hcharged.parked_eq) hphase (by rw [hput.1]), hput⟩

/-- A boundary that cuts its batch: it is parked, and the next batch is formed. -/
theorem boundary_of_cut {e : State} {i : Inst} {b : Batch} {q : Nat} (h : endOp s d = goOn e d i b q) (hcut : cutsHere e d i b = true)
    (hcharged : Charged (domOf s d) (domOf e d)) :
    ∃ u, boundary s d = formBatch (atOpBoundary u d) d ∧ DomPut e u d { domOf e d with
      prefetch := [], batch := none, parked := (domOf e d).parked ++ [b], phase := .idle, cut := false, sliceEnd := none, ready := [], readyBy := none } := by
  rw [goOn_of_cut q hcut] at h
  have hput := modDom_domPut e d fun y => { y with
    prefetch := [], batch := none, parked := y.parked ++ [b], phase := .idle, cut := false, sliceEnd := none, ready := [], readyBy := none }
  exact ⟨_, boundary_of_parked h (by rw [hput.1, ← hcharged.parked_eq]; simp), hput⟩

end

theorem exec_operationBoundary_of_fault {s : State} {d : BitVec 3} (h : domFault s d.toNat = true) :
    exec (.operationBoundary d) s = .next (modDom s d.toNat fun x => { x with owed := true }) :=
  if_pos h

theorem exec_operationBoundary_of_noFault {s : State} {d : BitVec 3} (h : domFault s d.toNat = false) :
    exec (.operationBoundary d) s = .next (boundary s d.toNat) :=
  if_neg (by rw [h]; exact Bool.false_ne_true)

/-- In an idle domain without a batch what waits for an operation boundary and then for a step boundary takes effect. -/
theorem exec_operationBoundary_of_idle {s : State} {d : BitVec 3} (hfault : domFault s d.toNat = false) (hb : (domOf s d.toNat).batch = none)
    (hphase : (domOf s d.toNat).phase = .idle) : exec (.operationBoundary d) s = .next (atStepBoundary (atOpBoundary s d.toNat) d.toNat) := by
  have hend : endOp s d.toNat = (s, true) := by rw [endOp_of_noBatch hb, decide_eq_true hphase]
  rw [exec_operationBoundary_of_noFault hfault, boundary_of_stepEnd hend rfl]

theorem installCopies_charged {x : Dom} {s : State} {d : Nat} (h : Charged x (domOf s d)) : Charged x (domOf (installCopies s d) d) := by
  rwa [domOf_installCopies]

/-! ### The end of a slice -/

section
variable {s : State} {d : BitVec 3} {b : Batch} {e : Nat}

theorem exec_sliceEnd_of_notRunOut (hb : (domOf s d.toNat).batch = some b) (he : (domOf s d.toNat).sliceEnd = some e) (h : ¬ RunOut s e) :
    exec (.sliceEnd d) s = .next s := by
  show execSliceEnd d s = _
  simp [execSliceEnd, hb, he, (ranOut_eq_false_iff s e).mpr h]

/-- A batch whose operation runs is marked for the cut at its boundary. -/
theorem exec_sliceEnd_of_executing (hb : (domOf s d.toNat).batch = some b) (he : (domOf s d.toNat).sliceEnd = some e) (h : RunOut s e)
    (hphase : (domOf s d.toNat).phase = .running ∨ (domOf s d.toNat).phase = .aborted) :
    exec (.sliceEnd d) s = .next (modDom s d.toNat fun y => { y with cut := true }) := by
  show execSliceEnd d s = _
  rcases hphase with hp | hp <;> simp [execSliceEnd, hb, he, hp, (ranOut_eq_true_iff s e).mpr h]

/-- A batch between operations is parked, and the next one is formed. -/
theorem exec_sliceEnd_of_readying (hb : (domOf s d.toNat).batch = some b) (he : (domOf s d.toNat).sliceEnd = some e) (h : RunOut s e)
    (hphase : (domOf s d.toNat).phase = .readying) :
    exec (.sliceEnd d) s = .next (formBatch (modDom s d.toNat fun y => { y with
      batch := none, parked := y.parked ++ [b], phase := .idle, sliceEnd := none, cut := false, ready := [], readyBy := none }) d.toNat) := by
  show execSliceEnd d s = _
  simp [execSliceEnd, hb, he, hphase, (ranOut_eq_true_iff s e).mpr h]

end

/-! ### A step that overruns -/

/-- The ticks that the operation under way adds to a context's step. -/
def runningTicks (s : State) (d c : Nat) : Nat :=
  if (domOf s d).phase = .running && (domOf s d).batch.any fun b => b.rows.any fun r => r.ctx = c then s.gt - (domOf s d).start else 0

/-- The ticks under way as the statements write them. -/
theorem ite_eq_runningTicks (s : State) (d c : Nat)
    (dec : Decidable ((domOf s d).phase = .running ∧ ∃ b, (domOf s d).batch = some b ∧ ∃ r ∈ b.rows, r.ctx = c)) :
    @ite _ _ dec (s.gt - (domOf s d).start) 0 = runningTicks s d c :=
  ite_congr (propext (by simp [Option.any_eq_true])) (fun _ => rfl) fun _ => rfl

/-- A context whose step has used its STEP_US is treated as shared and told. -/
theorem exec_stepOverrun {s : State} {c : BitVec 12} {p : Prov} (hprov : (ctxOf s c.toNat).prov = some p) (hcls : p.cls = 2)
    (hdem : (ctxOf s c.toNat).demoted = false) (hin : inBatch s c.toNat = true) (hquiet : quiet s = true)
    (hused : p.stepUs * 1000 * topFreq s ≤ ((ctxOf s c.toNat).stepTicks + runningTicks s p.dom c.toNat) * stepFreq s p.dom) :
    exec (.stepOverrun c) s = .next (event (setCtx s c.toNat { ctxOf s c.toNat with demoted := true }) c.toNat
      (evtEntry 0x18 0 stOk (p.stepUs + 2 ^ 32 * (((ctxOf s c.toNat).stepTicks + runningTicks s p.dom c.toNat) / 1000) + 2 ^ 64 * s.gt))) := by
  show execStepOverrun c s = _
  unfold execStepOverrun
  unfold runningTicks at hused ⊢
  simp only [hprov, hcls, hdem, hin, hquiet]
  cases hb : (domOf s p.dom).batch with
  | none =>
    simp only [hb, Option.any_none] at hused ⊢
    exact if_pos (by simpa using hused)
  | some b =>
    simp only [hb, Option.any_some] at hused ⊢
    exact if_pos (by simpa using hused)

/-! ### Copies -/

/-- Whether a copy is held back: a drain's by its budget, another's while its domain's migration budget is overdrawn (05 R147, R171). -/
def HeldBack (s : State) (u : Machine.PUnit) : Prop :=
  (∃ k, drainMove s u = some k ∧ fitsBudget (drainCap s u.dom k) (drainUsedNow s u.dom k) u.bytes = false) ∨
    (drainMove s u = none ∧ u.dest ≠ none ∧ migCap s u.dom < migUsedNow s u.dom)

/-- The state in which a copy's completion has drawn on the drain's budget, where it is one of a drain. -/
def drawn (s : State) (u : Machine.PUnit) : State :=
  match drainMove s u with
  | some k => spendDrain s u.dom k u.bytes
  | none => s

theorem drawn_of_none {s : State} {u : Machine.PUnit} (h : drainMove s u = none) : drawn s u = s := by
  simp [drawn, h]

theorem drawn_of_some {s : State} {u : Machine.PUnit} (k : Nat) (h : drainMove s u = some k) : drawn s u = spendDrain s u.dom k u.bytes := by
  simp [drawn, h]

theorem drawn_units (s : State) (u : Machine.PUnit) : (drawn s u).plc.units = s.plc.units := by
  unfold drawn
  split <;> rfl

theorem updUnits_units (s : State) (p : Machine.PUnit → Bool) (f : Machine.PUnit → Machine.PUnit) :
    (updUnits s p f).plc.units = s.plc.units.map fun u => if p u then f u else u := rfl

section
variable {s : State} {key : UnitKey} {u : Machine.PUnit}

theorem exec_copyComplete_of_held (hu : (s.plc.units.find? fun v => v.key = key && v.moving && !v.copied) = some u)
    (h : HeldBack s u ∨ (copyDies u).any (faultPending s) = true) : exec (.copyComplete key) s = .next s := by
  show execCopyComplete key s = _
  unfold execCopyComplete
  simp only [hu]
  refine if_pos (Bool.or_eq_true_iff.mpr (h.imp_left ?_))
  rintro (⟨k, hk, hfits⟩ | ⟨hk, hdest, hover⟩)
  · simp [hk, hfits]
  · simp [hk, Option.isSome_iff_ne_none, hdest, hover]

/-- The copy of a unit whose domain runs is marked complete; it comes into use at the boundary. -/
theorem exec_copyComplete_of_free (hu : (s.plc.units.find? fun v => v.key = key && v.moving && !v.copied) = some u)
    (hrun : (domOf s u.dom).phase = .running) (hhome : u.home ≠ .lost) (hfree : ¬ HeldBack s u) (hfault : (copyDies u).any (faultPending s) = false) :
    exec (.copyComplete key) s = .next (updUnits (drawn s u) (fun v => v.key = key) fun v => { v with copied := true }) := by
  obtain ⟨hfits, hover⟩ := not_or.mp hfree
  show execCopyComplete key s = _
  unfold execCopyComplete drawn
  simp only [hu, hfault, Bool.or_false]
  cases hk : drainMove s u with
  | none =>
    have hslow : (u.dest.isSome && decide (migCap s u.dom < migUsedNow s u.dom)) = false := by
      refine Bool.eq_false_iff.mpr fun hboth => hover ?_
      obtain ⟨hdest, hlt⟩ := Bool.and_eq_true_iff.mp hboth
      exact ⟨hk, Option.isSome_iff_ne_none.mp hdest, of_decide_eq_true hlt⟩
    simp [hslow, hrun, hhome]
  | some k =>
    have hslow : fitsBudget (drainCap s u.dom k) (drainUsedNow s u.dom k) u.bytes = true := by
      simpa [hk] using hfits
    simp [hslow, hrun, hhome]

end

/-- Settles O12: each command's equation (`exec_sliceEnd_…`, `exec_operationBoundary_…`, `exec_stepOverrun`, `exec_copyComplete_…`) gives its
effect; a boundary parks a batch exactly where it is cut, since charging and crediting leave what is parked (`Charged`). -/
theorem stepAndSliceEnds : Obligations.StepAndSliceEnds := by
  unfold Obligations.StepAndSliceEnds
  intro s d x
  refine ⟨fun b e hb he => ⟨fun hrun => ?_, fun hrun hphase => ?_, fun hrun hphase => ?_⟩, fun hfault => ?_, fun hfault hb hphase => ?_,
    fun b i o hfault hb hi ho => ⟨fun hres hgoes => ?_, fun hres hpart hphase hstart => ⟨fun hcut => ?_, fun hcut => ?_⟩,
      fun rows n hres hphase hstart hn => ⟨fun hlast hparked => ?_, fun hmore hcut => ?_⟩⟩,
    fun c p hprov hdom hcls hdem hin hquiet hused => ?_, fun key v hv hdom hphase hhome => ⟨fun hheld => ?_, fun hfree hfault => ?_⟩⟩
  · exact ⟨s, exec_sliceEnd_of_notRunOut hb he hrun, rfl⟩
  · exact ⟨_, exec_sliceEnd_of_executing hb he hrun hphase, modDom_domPut s d.toNat _⟩
  · exact ⟨_, exec_sliceEnd_of_readying hb he hrun hphase, _, rfl, (modDom_domPut s d.toNat _).2.1, rfl, domOf_modDom_same _ _ _⟩
  · exact ⟨_, exec_operationBoundary_of_fault hfault, modDom_domPut s d.toNat _⟩
  · exact ⟨_, exec_operationBoundary_of_idle hfault hb hphase, rfl⟩
  · refine ⟨_, exec_operationBoundary_of_noFault hfault, boundary_of_goesOn ?_⟩
    rcases hgoes with hpart | hphase
    · exact endOp_of_lastPart hb hi ho hres hpart
    · exact endOp_of_notRunning hb hi ho hphase
  · have hcharged := installCopies_charged (chargeTicks_charged s d.toNat b.rows)
    obtain ⟨u, hu, hdom, hother, hrest⟩ := boundary_of_goOn (endOp_of_part hb hi ho hphase hstart hres hpart) hcut hcharged hphase
    exact ⟨_, exec_operationBoundary_of_noFault hfault, u, hu, hother, hrest, hdom⟩
  · have hcharged := installCopies_charged (chargeTicks_charged s d.toNat b.rows)
    obtain ⟨u, hu, hdom, hother, hrest⟩ := boundary_of_cut (endOp_of_part hb hi ho hphase hstart hres hpart) hcut hcharged
    exact ⟨_, exec_operationBoundary_of_noFault hfault, u, hu, hother, hrest, hdom⟩
  · have hend := endOp_of_result hb hi ho hphase hstart hres hn
    rw [if_pos hlast] at hend
    exact ⟨_, exec_operationBoundary_of_noFault hfault, boundary_of_stepEnd hend hparked⟩
  · have hend := endOp_of_result hb hi ho hphase hstart hres hn
    rw [if_neg (Nat.not_le.mpr hmore)] at hend
    have hcharged := installCopies_charged (creditOp_charged s d.toNat i o b rows)
    obtain ⟨u, hu, hdom, hother, hrest⟩ := boundary_of_goOn hend hcut hcharged hphase
    exact ⟨_, exec_operationBoundary_of_noFault hfault, u, hu, hother, hrest, hdom⟩
  · rw [ite_eq_runningTicks] at hused ⊢
    rw [← hdom] at hused ⊢
    obtain ⟨hctx, hother, hrest⟩ := setCtx_ctxPut s c.toNat { ctxOf s c.toNat with demoted := true }
    exact ⟨_, exec_stepOverrun hprov hcls hdem hin hquiet hused, _, rfl, hctx, hother, hrest⟩
  · exact ⟨s, exec_copyComplete_of_held hv hheld, rfl⟩
  · exact ⟨_, exec_copyComplete_of_free hv (by rw [hdom]; exact hphase) hhome hfree hfault, drawn s v, drawn_of_none, drawn_of_some, rfl,
      (updUnits_units _ _ _).trans (by simp only [drawn_units, decide_eq_true_eq])⟩

end Sys2Proof.Proofs
end

section
/-!
What an event and a vector's message leave of a context (09_host_rings.md R314 to R318, R325).
-/
namespace Sys2Proof.Proofs
open Sys2Proof Sys2Proof.Machine

/-! ### Vectors -/

theorem ctxOf_signalVector (s : State) (f v c : Nat) : ctxOf (signalVector s f v) c = ctxOf s c := by
  unfold signalVector
  dsimp only
  split
  · rfl
  · split <;> rfl

/-- A vector that is not masked, and for the PF lies below those of the VFs, sends its message. -/
theorem signalVector_of_unmasked {s : State} {f v : Nat} (hmask : (tabGet s.rf.msix {} (32 * f + v)).masked = false) (hfn : f ≠ 0 ∨ v < 32) :
    signalVector s f v = send s (.msix f v (tabGet s.rf.msix {} (32 * f + v)).addr (tabGet s.rf.msix {} (32 * f + v)).data) := by
  have hown : (decide (f = 0) && decide (32 ≤ v)) = false := by
    simp only [Bool.and_eq_false_iff, decide_eq_false_iff_not]
    omega
  unfold signalVector
  dsimp only
  rw [hown, Bool.false_and, if_neg Bool.false_ne_true, hmask, if_neg Bool.false_ne_true]

/-! ### Events -/

/-- What writing entries changes of a context: its completion ring, its coalescing and the events that wait. -/
def RingMoved (k q : Ctx) : Prop :=
  q = { k with
    cqTail := q.cqTail, cqPhase := q.cqPhase, lostMark := q.lostMark, unsignalled := q.unsignalled, coalesce := q.coalesce
    irqNow := q.irqNow, events := q.events, evtLost := q.evtLost }

theorem RingMoved.trans {k q r : Ctx} (h : RingMoved k q) (g : RingMoved q r) : RingMoved k r :=
  Eq.trans g (by rw [h])

/-- The ring of context `c` has moved, and no other context has changed. -/
def RingMovedAt (s t : State) (c : Nat) : Prop := RingMoved (ctxOf s c) (ctxOf t c) ∧ OtherCtxs c s t

theorem RingMovedAt.refl (s : State) (c : Nat) : RingMovedAt s s c := ⟨rfl, fun _ _ => rfl⟩

theorem RingMovedAt.trans {s t u : State} {c : Nat} (h : RingMovedAt s t c) (g : RingMovedAt t u c) : RingMovedAt s u c :=
  ⟨h.1.trans g.1, fun e he => (g.2 e he).trans (h.2 e he)⟩

theorem setCtx_ringMovedAt {s : State} {c : Nat} {k : Ctx} (h : RingMoved (ctxOf s c) k) : RingMovedAt s (setCtx s c k) c := by
  obtain ⟨hctx, hother, -⟩ := setCtx_ctxPut s c k
  exact ⟨hctx.symm ▸ h, hother⟩

theorem sendMsix_ringMovedAt (s : State) (c : Nat) : RingMovedAt s (sendMsix s c) c := by
  have hctxs (e : Nat) : ctxOf (sendMsix s c) e = ctxOf s e := ctxOf_signalVector _ _ _ _
  exact ⟨(hctxs c).symm ▸ rfl, fun e _ => hctxs e⟩

theorem writeEntry_ringMovedAt (s : State) (c : Nat) (e : Entry) : RingMovedAt s (writeEntry s c e) c := by
  unfold writeEntry
  dsimp only
  split
  · exact RingMovedAt.refl s c
  · have hwritten (bs : List Byte) (q : Ctx) (h : RingMoved (ctxOf s c) q) (a b : Nat) : RingMovedAt s (setCtx (hostWrite s a b bs) c q) c :=
      setCtx_ringMovedAt (s := hostWrite s a b bs) h
    split
    · exact (hwritten _ _ (by rfl) _ _).trans (sendMsix_ringMovedAt _ _)
    · exact hwritten _ _ (by rfl) _ _

theorem flushEvents_ringMovedAt (fuel : Nat) (s : State) (c : Nat) : RingMovedAt s (flushEvents fuel s c) c := by
  induction fuel generalizing s with
  | zero => exact RingMovedAt.refl s c
  | succ fuel ih =>
    unfold flushEvents
    dsimp only
    split
    · exact RingMovedAt.refl s c
    · split
      · exact RingMovedAt.refl s c
      · exact ((setCtx_ringMovedAt (by rfl)).trans (writeEntry_ringMovedAt _ _ _)).trans (ih _)

/-- An event moves the ring of its context, and leaves the other contexts. -/
theorem event_ringMovedAt (s : State) (c : Nat) (e : Entry) : RingMovedAt s (event s c e) c := by
  unfold event
  dsimp only
  split
  · exact RingMovedAt.refl s c
  · split
    · exact setCtx_ringMovedAt (by rfl)
    · exact (setCtx_ringMovedAt (by rfl)).trans (flushEvents_ringMovedAt _ _ _)

end Sys2Proof.Proofs
end

section
/-!
Segments and scans (06_sillage.md R193, R204 to R207): the pages of a segment, and what commands of banks leave of one another.
-/
namespace Sys2Proof.Proofs
open Sys2Proof Sys2Proof.Machine

/-! ### Banks -/

theorem bankAt_modBank (s : State) (g b g' b' : Nat) (f : Bank → Bank) :
    bankAt (modBank s g b f) g' b' = if g' * 16 + b' = g * 16 + b then f (bankAt s g b) else bankAt s g' b' :=
  tabGet_set _ _ _ _ _

@[simp] theorem bankAt_modBank_same (s : State) (g b : Nat) (f : Bank → Bank) : bankAt (modBank s g b f) g b = f (bankAt s g b) := by
  simp [bankAt_modBank]

theorem bankAt_bump (s : State) (off n g b : Nat) : bankAt (bump s off n) g b = bankAt s g b := rfl
theorem bankAt_bump64 (s : State) (lo n g b : Nat) : bankAt (bump64 s lo n) g b = bankAt s g b := rfl
theorem bankAt_modScan (s : State) (k : ScanKey) (f : Scan → Scan) (g b : Nat) : bankAt (modScan s k f) g b = bankAt s g b := rfl

/-- The start of a calibration leaves the segments of the banks. -/
theorem nextCalibration_seg (s : State) (g g' b' : Nat) : (bankAt (nextCalibration s g) g' b').seg = (bankAt s g' b').seg := by
  unfold nextCalibration
  dsimp only
  split
  · rfl
  · split
    · rw [bankAt_modBank]
      split
      · next h => simp [bankAt, h]
      · rfl
    · rfl

/-- The start of a calibration leaves the scans. -/
theorem nextCalibration_scans (s : State) (g : Nat) : (nextCalibration s g).sil.scans = s.sil.scans := by
  unfold nextCalibration
  dsimp only
  split
  · rfl
  · split <;> rfl

/-! ### The pages of a segment -/

section
variable {waits spilled : Nat → Bool}

theorem segmentRun_length_le (n room : Nat) (ps : List Nat) : (segmentRun waits spilled n room ps).length ≤ n := by
  fun_induction segmentRun waits spilled n room ps <;> grind

theorem waits_of_mem_segmentRun {n room p : Nat} {ps : List Nat} (h : p ∈ segmentRun waits spilled n room ps) : waits p = true := by
  fun_induction segmentRun waits spilled n room ps <;> grind

theorem segmentPages_length_le (room : Nat) (ps : List Nat) : (segmentPages waits spilled room ps).length ≤ 16 := by
  induction ps with
  | nil => exact Nat.zero_le _
  | cons p ps ih =>
    unfold segmentPages
    split
    · exact ih
    · exact segmentRun_length_le _ _ _

theorem waits_of_mem_segmentPages {room p : Nat} {ps : List Nat} (h : p ∈ segmentPages waits spilled room ps) : waits p = true := by
  induction ps with
  | nil => exact absurd h List.not_mem_nil
  | cons q ps ih =>
    unfold segmentPages at h
    split at h
    · exact ih h
    · exact waits_of_mem_segmentRun h

/-- A page that waits and is not spilled gives a segment. -/
theorem segmentPages_ne_nil {room p : Nat} {ps : List Nat} (hp : p ∈ ps) (hwaits : waits p = true) (hown : spilled p = false) :
    segmentPages waits spilled room ps ≠ [] := by
  induction ps with
  | nil => exact absurd hp List.not_mem_nil
  | cons q ps ih =>
    unfold segmentPages
    split
    · next hrun =>
      rcases List.mem_cons.mp hp with rfl | hlater
      · simp [segmentRun, hwaits, hown] at hrun
      · exact ih hlater
    · next hrun => exact hrun

end

/-- The pages that SEGMENT_DISPATCH gives a bank of a group. -/
def dispatched (s : State) (g : Nat) (k : ScanKey) (x : Scan) : List Nat :=
  segmentPages x.pages.contains (fun p => (pageGroup s k.ctx (scanTensor s k) p).2) ((spillNow s).2.1 * pctBytes - (spillNow s).2.2) (groupPages s x g)

/-- A page of the scan's range that its own group reads from T1 is among those the group may dispatch. -/
theorem dispatched_ne_nil {s : State} {g p : Nat} {k : ScanKey} {x : Scan} (hkey : x.key = k) (hp : p ∈ x.pages) (hlo : x.lo / 256 ≤ p)
    (hhi : p < (x.hi + 255) / 256) (hgroup : pageGroup s k.ctx (scanTensor s k) p = (some g, false)) : dispatched s g k x ≠ [] := by
  refine segmentPages_ne_nil (p := p) ?_ (List.contains_iff_mem.mpr hp) (by rw [hgroup])
  simp only [groupPages, List.mem_filter, List.mem_map, List.mem_range, decide_eq_true_eq, hkey, hgroup, and_true]
  exact ⟨p - x.lo / 256, by omega, by omega⟩

/-- SEGMENT_DISPATCH to a free bank gives it its pages. -/
theorem exec_segmentDispatch {s : State} {g : BitVec 3} {b : BitVec 4} {k : ScanKey} {x : Scan} (hst : (bankAt s g.toNat b.toNat).st = .inService)
    (hfree : (bankAt s g.toNat b.toNat).seg = none) (hdue : (bankAt s g.toNat b.toNat).due = false) (hthrottle : groupThrottled s g.toNat = false)
    (hscan : (s.sil.scans.find? fun y => y.key = k) = some x) (hmay : mayScan s g.toNat x = true) (hpages : dispatched s g.toNat k x ≠ []) :
    ∃ t, exec (.segmentDispatch g b k) s = .next t ∧ (bankAt t g.toNat b.toNat).seg =
      some ⟨k, dispatched s g.toNat k x, (dispatched s g.toNat k x).filter fun p => (pageGroup s k.ctx (scanTensor s k) p).2, false⟩ := by
  have hexec : exec (.segmentDispatch g b k) s = execSegmentDispatch g b k s := rfl
  unfold execSegmentDispatch at hexec
  dsimp only at hexec
  rw [if_neg (by simp [hst, hfree, hdue, hthrottle])] at hexec
  simp only [hscan] at hexec
  have htaken : (decide (dispatched s g.toNat k x = []) || !mayScan s g.toNat x) = false := by simp [hpages, hmay]
  rw [show (decide (segmentPages _ _ _ _ = []) || !mayScan s g.toNat x) = false from htaken, if_neg Bool.false_ne_true] at hexec
  exact ⟨_, hexec, by rw [bankAt_modBank_same]; rfl⟩

end Sys2Proof.Proofs
end

section
/-!
Commands that find something to do (01_architecture.md R22, R23; 05_placement.md R146, R161; 06_sillage.md R193, R205, R207;
09_host_rings.md R294, R298, R324, R326; 13_tenancy_security.md R436).
-/
namespace Sys2Proof.Proofs
open Sys2Proof Sys2Proof.Machine

/-! ### CTX_VFMAP -/

/-- A host or a core writes the entries of the VFs, the host only while the BARs are served. -/
theorem exec_ctxVfmap {s : State} {r : Requester} {v i : BitVec 6} (w : Word) (hv : v ≠ 0#6) (hbars : r = .host → barsOff s = false) :
    exec (.ctxVfmap r v i w) s = .next (writeVfmap s r v.toNat i.toNat w) := by
  show execCtxVfmap r v i w s = _
  unfold execCtxVfmap
  rw [if_neg (by simpa [hv] using hbars)]

/-- An entry is stored where no context it names or named lives, no other entry names its context, and its TDI is not locked (09 R294). -/
theorem writeVfmap_of_allowed {s : State} {r : Requester} {v i : Nat} {w : Word} (hrange : w.toNat % 65536 ≤ 4095)
    (hnamed : ¬ ((ctxOf s (w.toNat % 65536)).enable = true ∨ (ctxOf s (w.toNat % 65536)).enabled = true))
    (hold : ∀ c, slotCtx s v i = some c → ¬ ((ctxOf s c).enable = true ∨ (ctxOf s c).enabled = true))
    (helse : ∀ e, e ∈ s.rf.vals → 0x804000 ≤ e.1 → e.1 < 0x807F00 → e.1 ≠ vfmapOff v i → e.2.getLsbD 31 = true → e.2.toNat % 65536 ≠ w.toNat % 65536)
    (htdi : tdiLocked s v = false) : writeVfmap s r v i w = regPut s (vfmapOff v i) (w &&& 0x8000FFFF#32) := by
  have hbits (x : Word) : bits x 15 0 = x.toNat % 65536 := by simp [bits]
  have hdead {c : Nat} (h : ¬ ((ctxOf s c).enable = true ∨ (ctxOf s c).enabled = true)) : ((ctxOf s c).enable || (ctxOf s c).enabled) = false := by
    simpa using h
  have hsole : (s.rf.vals.any fun e => decide (0x804000 ≤ e.1) && decide (e.1 < 0x807F00) && decide (e.1 ≠ vfmapOff v i) &&
      e.2.getLsbD 31 && decide (e.2.toNat % 65536 = w.toNat % 65536)) = false := by
    rw [List.any_eq_false]
    intro e he
    simpa [and_assoc] using helse e he
  unfold writeVfmap
  simp only [hbits, hdead hnamed, hsole, htdi, decide_eq_false (Nat.not_lt.mpr hrange)]
  cases hslot : slotCtx s v i with
  | none => rfl
  | some c => simp only [hdead (hold c hslot), Bool.or_false, firstFail, Bool.false_eq_true, if_false]

/-! ### Doorbells -/

/-- A 32-bit doorbell of an enabled context with an index inside its ring sets it, and the rings move (09 R297, R298). -/
theorem doorbell_of_inRing {s : State} {p : PageRef} {c arg : Nat} {v : Word} {log : Ctx → Nat} {act : Ctx → Nat → Ctx} (hpage : pageCtx s p = some c)
    (hon : (ctxOf s c).enabled = true) (hen : (ctxOf s c).enable = true) (hring : bits v 15 0 < 2 ^ log (ctxOf s c)) :
    doorbell s p true v arg log act = settle (setCtx s c (act (ctxOf s c) (bits v 15 0))) c := by
  simp [doorbell, hpage, hon, hen, ringSize, Nat.not_le.mpr hring]

/-- A buffer posted before its frame's hold timer ran out finds the frame. -/
theorem holdPassed_of_inTime {s : State} {p : PageRef} {c : Nat} (hpage : pageCtx s p = some c)
    (htime : ∀ lim, (ctxOf s c).holdTimer = some lim → s.gt ≤ lim) : holdPassed s p = s := by
  unfold holdPassed
  simp only [hpage]
  split
  · next t ht => exact if_neg (Nat.not_lt.mpr (htime t ht))
  · rfl

theorem exec_ctxOutAck_of_stopped {s : State} {p : PageRef} {c : Nat} {v : Word} (hpage : pageCtx s p = some c) (hon : (ctxOf s c).enabled = true)
    (hen : (ctxOf s c).enable = true) (hstop : (ctxOf s c).stopped = some v.toNat) :
    exec (.ctxOutAck p true v) s = .next (settle (setCtx s c { ctxOf s c with stopped := none }) c) := by
  show execCtxOutAck p true v s = _
  simp [execCtxOutAck, hpage, hon, hen, hstop]

/-! ### Timers -/

/-- A coalescing timer that has run out sends the message of a vector that is not masked (09 R302, R326). -/
theorem exec_coalesceTimerExpiry {s : State} {c : BitVec 12} {n : Nat} (hco : (ctxOf s c.toNat).coalesce = some n) (hrun : RunOut s n)
    (hirq : (ctxOf s c.toNat).irqNow.getLsbD 31 = true) :
    exec (.coalesceTimerExpiry c) s = .next (signalVector (setCtx s c.toNat { ctxOf s c.toNat with coalesce := none, unsignalled := 0 })
      (fnOf s c.toNat) (bits (ctxOf s c.toNat).irqNow 10 0)) := by
  show execCoalesceTimerExpiry c s = _
  simp [execCoalesceTimerExpiry, hco, (ranOut_eq_true_iff s n).mpr hrun, hirq, sendMsix]

theorem exec_capacityWaitTimer {s : State} {c : BitVec 12} {w : Wait} (hspace : (ctxOf s c.toNat).space = some w) (hdue : w.next ≤ s.gt) :
    exec (.capacityWaitTimer c) s = .next (event (setCtx s c.toNat { ctxOf s c.toNat with space := some { w with next := w.next + 100000000 } }) c.toNat
      (evtEntry 0x03 0 stOk (w.since + 2 ^ 64 * ((s.gt - w.since) / 1000000)))) := by
  show execCapacityWaitTimer c s = _
  simp only [execCapacityWaitTimer, hspace]
  exact if_pos hdue

/-- An event after a change of its context leaves the other contexts as before the change. -/
theorem otherCtxs_event_setCtx (s : State) (c : Nat) (k : Ctx) (e : Entry) : OtherCtxs c s (event (setCtx s c k) c e) :=
  fun j hj => ((event_ringMovedAt (setCtx s c k) c e).2 j hj).trans ((setCtx_ctxPut s c k).2.1 j hj)

/-- An event keeps whether its context is treated as shared, and the wait for space it may be in. -/
theorem event_setCtx_demoted (s : State) (c : Nat) (k : Ctx) (e : Entry) : (ctxOf (event (setCtx s c k) c e) c).demoted = k.demoted := by
  rw [(event_ringMovedAt (setCtx s c k) c e).1, ctxOf_setCtx_same]

theorem event_setCtx_space (s : State) (c : Nat) (k : Ctx) (e : Entry) : (ctxOf (event (setCtx s c k) c e) c).space = k.space := by
  rw [(event_ringMovedAt (setCtx s c k) c e).1, ctxOf_setCtx_same]

/-! ### Scans -/

/-- The measured codes of a segment join its scan, and its bank is free (06 R205, R207). -/
theorem exec_segmentComplete {s : State} {g : BitVec 3} {b : BitVec 4} {seg : Segment} {x : Scan} (ys : List (BitVec 12))
    (hseg : (bankAt s g.toNat b.toNat).seg = some seg) (hfault : Instr.sillageBankFault g b ∉ s.pending) (hkept : seg.dropped = false)
    (hscan : (s.sil.scans.find? fun y => y.key = seg.scan) = some x) :
    ∃ t, exec (.segmentComplete g b ys) s = .next t ∧ (bankAt t g.toNat b.toNat).seg = none ∧
      t.sil.scans = s.sil.scans.map fun y => if y.key = seg.scan
        then { y with codes := y.codes ++ List.zip (segmentKeys x seg.pages) (ys.map BitVec.toInt) } else y := by
  have hscan' : (s.sil.scans.find? fun y => y.key = seg.scan && !seg.dropped) = some x := by simpa [hkept] using hscan
  have hexec : exec (.segmentComplete g b ys) s = execSegmentComplete g b ys s := rfl
  unfold execSegmentComplete at hexec
  dsimp only at hexec
  rw [if_neg] at hexec
  · simp only [hseg, hscan'] at hexec
    refine ⟨_, hexec, ?_, ?_⟩
    · rw [nextCalibration_seg, bankAt_bump, bankAt_bump64, bankAt_modScan, bankAt_modBank_same]
    · rw [nextCalibration_scans, bump_sil, bump64_sil]
      rfl
  · intro hany
    obtain ⟨q, hq, hfails⟩ := List.any_eq_true.mp hany
    split at hfails
    · obtain ⟨rfl, rfl⟩ : _ ∧ _ := by simpa using hfails
      exact hfault hq
    · exact Bool.false_ne_true hfails

/-- Changing the scans of a key without their keys changes the one found. -/
theorem find?_map_key (xs : List Scan) (k : ScanKey) (f : Scan → Scan) (hf : ∀ x, (f x).key = x.key) :
    ((xs.map fun x => if x.key = k then f x else x).find? fun x => x.key = k) = (xs.find? fun x => x.key = k).map f := by
  induction xs with
  | nil => rfl
  | cons x xs ih =>
    by_cases hx : x.key = k
    · simp [hx, hf]
    · simp [hx, ih]

/-- A whole scan that no segment runs for ends with its record (06 R193). -/
theorem exec_selectionForm {s : State} {k : ScanKey} {x : Scan} (hscan : (s.sil.scans.find? fun y => y.key = k) = some x) (hpages : x.pages = [])
    (hcodes : x.codes.length = x.hi - x.lo) (hidle : ∀ e, e ∈ s.sil.banks → ∀ g, e.2.seg = some g → g.scan ≠ k) :
    ∃ t, exec (.selectionForm k) s = .next t ∧ t.sil.scans = s.sil.scans.filter fun y => y.key ≠ k := by
  have hexec : exec (.selectionForm k) s = execSelectionForm k s := rfl
  unfold execSelectionForm at hexec
  simp only [hscan, hpages, hcodes] at hexec
  rw [if_neg] at hexec
  · exact ⟨_, hexec, rfl⟩
  · intro hbusy
    obtain ⟨i, q, hq, hruns⟩ := by simpa using hbusy
    split at hruns
    · next g hg => exact hidle (i, q) hq g hg (by simpa using (Bool.and_eq_true_iff.mp hruns).1)
    · exact Bool.false_ne_true hruns

/-- Settles O60: the conditions are those under which each command's equation holds, and its effect is read off the state it answers: an
event moves only its context's ring, a segment is made of pages that wait, and a slice that is not bounded cuts no batch. -/
theorem commandsTakeEffect : Obligations.CommandsTakeEffect := by
  unfold Obligations.CommandsTakeEffect
  refine ⟨fun s d b i o rows st hfault hphase hstart hb hi ho hst hres hmore hcut hslice => ?_, fun s d hfault hphase hb => ?_,
    fun s d b e hphase hb he hrun => ?_, fun s r v i w hv hbars hrange hnamed hold helse htdi => ?_, fun s c n hco hrun hirq hmask hfn => ?_,
    fun s c w hspace hdue => ?_, fun s g b k x p hst hfree hdue hthrottle hscan hmay hp hlo hhi hgroup => ?_,
    fun s g b ys seg x hseg hfault hkept hscan => ?_, fun s k x hscan hpages hcodes hidle => ?_,
    fun s c p hprov hcls hdem hin hquiet hused => ?_, fun s p c v hpage hon hen => ⟨fun hn => ?_, fun hn => ?_, fun hn htime => ?_, fun hstop => ?_⟩,
    fun s key u hu hdrain hbudget hfault hphase hhome => ?_⟩
  · have hend := endOp_of_result hb hi ho hphase hstart hres (n := st.count) (by rw [hst]; rfl)
    rw [if_neg (Nat.not_le.mpr hmore)] at hend
    have hcharged := installCopies_charged (creditOp_charged s d.toNat i o b rows)
    obtain ⟨u, hu, hdom, -⟩ := boundary_of_goOn hend
      (cutsHere_of_noSlice _ _ (hcharged.cut_eq.trans hcut) (hcharged.sliceEnd_eq.trans hslice)) hcharged hphase
    exact ⟨_, u, exec_operationBoundary_of_noFault hfault, hu, by rw [hdom], by rw [hdom]⟩
  · exact ⟨_, exec_operationBoundary_of_idle hfault hb hphase, rfl⟩
  · exact ⟨_, exec_sliceEnd_of_executing hb he hrun (.inl hphase), by rw [domOf_modDom_same], by rw [domOf_modDom_same]; exact hb⟩
  · refine ⟨_, exec_ctxVfmap w hv hbars, ?_⟩
    rw [writeVfmap_of_allowed hrange hnamed hold helse htdi]
    exact ⟨regVal_regPut_same _ _ _, fun off hoff => regVal_regPut_other _ _ (by simpa using hoff), rfl⟩
  · obtain ⟨hctx, hother, hrest⟩ := setCtx_ctxPut s c.toNat { ctxOf s c.toNat with coalesce := none, unsignalled := 0 }
    refine ⟨_, exec_coalesceTimerExpiry hco hrun hirq, ?_⟩
    rw [signalVector_of_unmasked (s := setCtx s c.toNat _) hmask hfn]
    exact ⟨rfl, hctx, hother, rfl⟩
  · exact ⟨_, exec_capacityWaitTimer hspace hdue, event_setCtx_space _ _ _ _, otherCtxs_event_setCtx _ _ _ _⟩
  · have hkey : x.key = k := by simpa using List.find?_some hscan
    have hpages := dispatched_ne_nil hkey hp hlo hhi hgroup
    obtain ⟨t, ht, hseg⟩ := exec_segmentDispatch hst hfree hdue hthrottle hscan hmay hpages
    exact ⟨t, _, ht, hseg, rfl, hpages, segmentPages_length_le _ _, fun n hn => List.contains_iff_mem.mp (waits_of_mem_segmentPages hn)⟩
  · obtain ⟨t, ht, hbank, hscans⟩ := exec_segmentComplete ys hseg hfault hkept hscan
    refine ⟨t, ht, hbank, ?_⟩
    rw [hscans, find?_map_key _ _ (fun y => { y with codes := y.codes ++ List.zip (segmentKeys x seg.pages) (ys.map BitVec.toInt) }) fun _ => rfl, hscan]
    rfl
  · obtain ⟨t, ht, hscans⟩ := exec_selectionForm hscan hpages hcodes hidle
    refine ⟨t, ht, fun y hy => ?_⟩
    rw [hscans] at hy
    exact of_decide_eq_true (List.mem_filter.mp hy).2
  · refine ⟨_, exec_stepOverrun hprov hcls hdem hin hquiet (Nat.le_trans hused (Nat.mul_le_mul_right _ (Nat.le_add_right _ _))),
      event_setCtx_demoted _ _ _ _, otherCtxs_event_setCtx _ _ _ _⟩
  · exact congrArg Host.Outcome.next (doorbell_of_inRing hpage hon hen hn)
  · exact congrArg Host.Outcome.next (doorbell_of_inRing hpage hon hen hn)
  · show Host.Outcome.next (doorbell (holdPassed s p) p true v 3 Ctx.rqLog _) = _
    rw [holdPassed_of_inTime hpage htime, doorbell_of_inRing hpage hon hen hn]
    simp only [Bool.and_eq_true, decide_eq_true_eq]
  · exact exec_ctxOutAck_of_stopped hpage hon hen hstop
  · have hfree : ¬ HeldBack s u := by
      rintro (⟨k, hk, -⟩ | ⟨-, hdest, hover⟩)
      · simp [hdrain] at hk
      · exact hbudget.elim hdest (Nat.not_le.mpr hover)
    refine ⟨_, exec_copyComplete_of_free hu hphase hhome hfree hfault, fun v hv hkey => ?_⟩
    rw [updUnits_units, List.mem_map] at hv
    obtain ⟨w, -, rfl⟩ := hv
    by_cases hw : w.key = key
    · simp [hw]
    · simp [hw] at hkey

end Sys2Proof.Proofs
end

section
/-!
Exact results of the one rounding, and the draws of a sampling operation (02_arithmetic.md R40, R54, R64, R65).
-/
namespace Sys2Proof.Proofs
open Sys2Proof Sys2Proof.Machine

/-! ### Values that round to themselves -/

/-- A number of at most `p` bits whose quantum lies within the format is only scaled to `p` bits (02 R54). -/
theorem roundMag_of_fits {p m : Nat} {emin e : Int} {sticky : Bool} (hm : m ≠ 0) (hbits : topBit m < p)
    (hmin : emin ≤ topBit m + e - (p - 1)) :
    roundMag p emin m e sticky = (m * 2 ^ (p - 1 - topBit m), topBit m + e - (p - 1)) := by
  have hq : max ((topBit m : Int) + e - ((p : Int) - 1)) emin = topBit m + e - (p - 1) := Int.max_eq_left hmin
  have hshift : (e - (topBit m + e - ((p : Int) - 1))).toNat = p - 1 - topBit m := by omega
  simp only [roundMag, if_neg hm, hq]
  rw [if_pos (by omega), hshift, Nat.shiftLeft_eq]

/-- A number scaled to `p` bits has its top bit at place `p - 1`. -/
theorem scaled_bounds {p m : Nat} (hm : m ≠ 0) (hbits : topBit m < p) :
    2 ^ (p - 1) ≤ m * 2 ^ (p - 1 - topBit m) ∧ m * 2 ^ (p - 1 - topBit m) < 2 * 2 ^ (p - 1) := by
  have hpow : 2 ^ topBit m * 2 ^ (p - 1 - topBit m) = 2 ^ (p - 1) := by rw [← Nat.pow_add]; congr 1; omega
  constructor
  · rw [← hpow]
    exact Nat.mul_le_mul_right _ (Nat.log2_self_le hm)
  · rw [← hpow, ← Nat.mul_assoc, ← Nat.pow_succ']
    exact Nat.mul_lt_mul_of_pos_right Nat.lt_log2_self (Nat.two_pow_pos _)

/-- The magnitude code of a normal number gives the number back (02 R40). -/
theorem magVal_magCode_of_normal {p n : Nat} {emin q : Int} (hq : emin ≤ q) (hlo : 2 ^ (p - 1) ≤ n) (hhi : n < 2 * 2 ^ (p - 1)) :
    magVal p emin (magCode p emin n q) = (n, q) := by
  obtain ⟨f, hf⟩ := Nat.exists_eq_add_of_le' hlo
  have hcode : magCode p emin n q = f + 2 ^ (p - 1) * ((q - emin).toNat + 1) := by
    rw [magCode, hf, Nat.mul_succ, Nat.mul_comm (2 ^ (p - 1))]
    omega
  have hfrac : f < 2 ^ (p - 1) := by omega
  have hexp : magCode p emin n q / 2 ^ (p - 1) = (q - emin).toNat + 1 := by
    rw [hcode, Nat.add_mul_div_left _ _ (Nat.two_pow_pos _), Nat.div_eq_of_lt hfrac, Nat.zero_add]
  have hmant : magCode p emin n q % 2 ^ (p - 1) = f := by
    rw [hcode, Nat.add_mul_mod_self_left, Nat.mod_eq_of_lt hfrac]
  simp only [magVal, hexp, hmant]
  rw [if_neg (Nat.succ_ne_zero _), ← hf]
  congr 1
  omega

/-- A word with a finite magnitude code and no sign has the code's value (02 R40). -/
theorem f32Num_of_code {c : Nat} (hc : c < 255 * 2 ^ 23) :
    f32Num (BitVec.ofNat 32 c) = .fin false (magVal 24 (-149) c).1 (magVal 24 (-149) c).2 := by
  have hval : (BitVec.ofNat 32 c).toNat = c := by
    rw [BitVec.toNat_ofNat, Nat.mod_eq_of_lt (by omega)]
  have hsign : (BitVec.ofNat 32 c).getLsbD 31 = false := by
    rw [BitVec.getLsbD, hval, Nat.testBit_lt_two_pow (by omega)]
  simp only [f32Num, hval, hsign]
  rw [Nat.mod_eq_of_lt (by omega), if_neg (by omega)]

/-- A normal number of at most 24 bits below 2^128 is a binary32 number, and rounds to itself (02 R40, R54). -/
theorem f32Num_f32Round_of_fits {m : Nat} {e : Int} (hm : m ≠ 0) (hbits : topBit m < 24) (hmin : -126 ≤ topBit m + e)
    (hmax : topBit m + e < 128) : f32Num (f32Round false m e false) = .fin false (m * 2 ^ (23 - topBit m)) (topBit m + e - 23) := by
  obtain ⟨hlo, hhi⟩ : 2 ^ 23 ≤ m * 2 ^ (23 - topBit m) ∧ m * 2 ^ (23 - topBit m) < 2 * 2 ^ 23 := scaled_bounds hm hbits
  have hround : roundMag 24 (-149) m e false = (m * 2 ^ (23 - topBit m), topBit m + e - 23) :=
    roundMag_of_fits hm hbits (by push_cast; omega)
  have hfinite : magCode 24 (-149) (m * 2 ^ (23 - topBit m)) (topBit m + e - 23) < 255 * 2 ^ 23 := by
    have hexp : (topBit m + e - 23 - -149).toNat ≤ 253 := by omega
    simp only [magCode]
    omega
  have hvalue := magVal_magCode_of_normal (p := 24) (emin := -149) (q := topBit m + e - 23) (by omega) hlo hhi
  simp only [f32Round, hround]
  rw [if_neg (Nat.not_le.mpr hfinite), if_neg Bool.false_ne_true, Nat.add_zero, f32Num_of_code hfinite, hvalue]

/-! ### Draws -/

/-- Draw `j` is word j mod 4 of the block with index j / 4 (02 R65). -/
theorem draw_of_mod {j i : Nat} (seed counter stream : Nat) (h : j % 4 = i) :
    draw seed counter stream j = quadWord (philox (BitVec.ofNat 32 counter) (BitVec.ofNat 32 (counter / 2 ^ 32)) (BitVec.ofNat 32 (j / 4))
      (BitVec.ofNat 32 stream) (BitVec.ofNat 32 seed) (BitVec.ofNat 32 (seed / 2 ^ 32))) i := by
  rw [draw, h]

/-- What a uniform draw takes of its word are the upper 24 bits. -/
theorem uniform_eq (w : Word) : uniform w = f32Round false (w >>> 8).toNat (-24) false := by
  rw [uniform, BitVec.toNat_ushiftRight, Nat.shiftRight_eq_div_pow]

theorem toNat_shiftRight_eight_lt (w : Word) : (w >>> 8).toNat < 2 ^ 24 := by
  rw [BitVec.toNat_ushiftRight, Nat.shiftRight_eq_div_pow]
  exact Nat.div_lt_of_lt_mul w.isLt

/-- The exact value of a uniform draw in units of 2^−149: it is w >> 8 in units of 2^−24, no bit rounded away (02 R65). -/
theorem f32Num_uniform (w : Word) :
    ∃ k e, f32Num (uniform w) = .fin false k e ∧ -149 ≤ e ∧ k * 2 ^ (e + 149).toNat = (w >>> 8).toNat * 2 ^ 125 := by
  rw [uniform_eq]
  by_cases hm : (w >>> 8).toNat = 0
  · rw [hm]
    exact ⟨0, -149, by decide, by decide, by decide⟩
  · have hbits : topBit (w >>> 8).toNat < 24 := (Nat.log2_lt hm).mpr (toNat_shiftRight_eight_lt w)
    refine ⟨_, _, f32Num_f32Round_of_fits hm hbits (by omega) (by omega), by omega, ?_⟩
    rw [Nat.mul_assoc, ← Nat.pow_add]
    congr 2
    omega

/-- Settles O58: a draw is the word of its block by `draw_of_mod`, and a uniform draw has the value of `f32Num_uniform`, of which w >> 8 is
below 2^24. -/
theorem uniformDraws : Obligations.UniformDraws := by
  unfold Obligations.UniformDraws
  refine ⟨fun seed counter stream j => ⟨draw_of_mod _ _ _, draw_of_mod _ _ _, draw_of_mod _ _ _, draw_of_mod _ _ _⟩, fun w => ?_,
    f32Num_uniform 0x6627E8D5#32⟩
  obtain ⟨k, e, hfin, hmin, hval⟩ := f32Num_uniform w
  have hlt := toNat_shiftRight_eight_lt w
  exact ⟨k, e, hfin, hmin, hval, by omega⟩

end Sys2Proof.Proofs
end

section
/-!
Reduction at the destination, the reissue of an attempt, telemetry control and a silent tile (03_harrel_stacks.md R83, R84, R87, R92, R99;
02_arithmetic.md R52; 17_faults.md R535).
-/
namespace Sys2Proof.Proofs
open Sys2Proof Sys2Proof.Machine

/-! ### A packet at its destination -/

/-- A packet's key names the operation and the attempt that a domain runs. -/
def isCurrent (s : State) (d : Nat) (b : Batch) (k : C3Key) : Bool :=
  decide (k.opseq = (domOf s d).opseq % 65536) && decide (k.attempt = b.attempt % 16)

/-- The destinations of a tile's stack that the attempt reserved. -/
def currentDests (s : State) (tile d : Nat) (b : Batch) : List RedDest :=
  (stackOf s (tile / 256)).dests.filter fun r => isCurrent s d b r.key

/-- The destination reserved for a packet's element range. -/
def reservedFor (s : State) (tile d : Nat) (b : Batch) (k : C3Key) : Option RedDest :=
  (currentDests s tile d b).find? fun r => decide (r.key.dst = tile) && sameRange r.key k

/-- The sum of a destination once it has added a packet. -/
def sumWith (tile : Nat) (r : RedDest) (p : C3Packet) : C3Packet :=
  match r.sum with | some a => mergePackets tile a p | none => p

/-- A destination has added a packet that has landed. -/
def addedTo (s : State) (tile d : Nat) (b : Batch) (r : RedDest) (p : C3Packet) : State :=
  modStack (land s (.adder tile) p) (tile / 256) fun k =>
    { k with dests := dropFirst (fun e => decide (e = r)) (currentDests s tile d b) ++ [r.add (sumWith tile r p)] }

/-- What a running domain's tile does with a sound packet (03 R83, R84). -/
def addRunning (s : State) (tile d : Nat) (b : Batch) (p : C3Packet) : Out :=
  let u := land s (.adder tile) p
  if !isCurrent s d b p.key then .next (reductionFault u tile false)
  else match reservedFor s tile d b p.key with
    | none => .next (tileFault u tile false)
    | some r =>
      if r.awaits p ≠ p.key then .next (reductionFault u tile false)
      else if (sumWith tile r p).key.expect < (sumWith tile r p).count then .next (reductionFault u tile false)
      else .next (addedTo s tile d b r p)

theorem exec_reductionAdd_of_invalid {s : State} {t : BitVec 11} {p : C3Packet} (ht : tileValid t.toNat = false) :
    exec (.reductionAdd t p) s = .next (land s (.adder t.toNat) p) := by
  show execReductionAdd t p s = _
  simp [execReductionAdd, ht]

theorem exec_reductionAdd_of_poison {s : State} {t : BitVec 11} {p : C3Packet} (ht : tileValid t.toNat = true) (hp : p.poison = true) :
    exec (.reductionAdd t p) s = .next (tileFault (land s (.adder t.toNat) p) t.toNat true) := by
  show execReductionAdd t p s = _
  simp [execReductionAdd, ht, hp]

/-- Without a running operation, a packet of no aborted attempt finds no reservation (03 R75). -/
theorem exec_reductionAdd_of_noOperation {s : State} {t : BitVec 11} {p : C3Packet} (ht : tileValid t.toNat = true) (hp : p.poison = false)
    (hnone : ∀ d b, (stackOf s (t.toNat / 256)).domain = some d → (domOf s d).batch = some b →
      (domOf s d).phase ≠ .running ∧ (domOf s d).phase ≠ .aborted) :
    exec (.reductionAdd t p) s = .next (tileFault (land s (.adder t.toNat) p) t.toNat false) := by
  show execReductionAdd t p s = _
  cases hd : (stackOf s (t.toNat / 256)).domain with
  | none => simp [execReductionAdd, ht, hp, hd]
  | some d =>
    cases hb : (domOf s d).batch with
    | none => simp [execReductionAdd, ht, hp, hd, hb]
    | some b =>
      obtain ⟨hrun, habort⟩ := hnone d b hd hb
      simp [execReductionAdd, ht, hp, hd, hb, hrun, habort]

section
variable {s : State} {t : BitVec 11} {p : C3Packet} {d : Nat} {b : Batch} (ht : tileValid t.toNat = true) (hp : p.poison = false)
  (hd : (stackOf s (t.toNat / 256)).domain = some d) (hb : (domOf s d).batch = some b)
include ht hp hd hb

theorem exec_reductionAdd_of_aborted (hphase : (domOf s d).phase = .aborted) :
    exec (.reductionAdd t p) s = .next (land s (.adder t.toNat) p) := by
  show execReductionAdd t p s = _
  simp [execReductionAdd, ht, hp, hd, hb, hphase]

theorem exec_reductionAdd_of_running (hphase : (domOf s d).phase = .running) : exec (.reductionAdd t p) s = addRunning s t.toNat d b p := by
  show execReductionAdd t p s = _
  simp only [execReductionAdd, ht, hp, hd, hb, Option.bind_some, Option.map_some, hphase]
  rfl

end

section
variable {s : State} {tile d : Nat} {b : Batch} {p : C3Packet}

theorem addRunning_of_otherAttempt (hcur : isCurrent s d b p.key = false) :
    addRunning s tile d b p = .next (reductionFault (land s (.adder tile) p) tile false) := by
  simp [addRunning, hcur]

theorem addRunning_of_unreserved (hcur : isCurrent s d b p.key = true) (hfound : reservedFor s tile d b p.key = none) :
    addRunning s tile d b p = .next (tileFault (land s (.adder tile) p) tile false) := by
  simp [addRunning, hcur, hfound]

theorem addRunning_of_refused {r : RedDest} (hcur : isCurrent s d b p.key = true) (hfound : reservedFor s tile d b p.key = some r)
    (hbad : r.awaits p ≠ p.key ∨ (sumWith tile r p).key.expect < (sumWith tile r p).count) :
    addRunning s tile d b p = .next (reductionFault (land s (.adder tile) p) tile false) := by
  simp only [addRunning, hcur, hfound]
  by_cases hkey : r.awaits p = p.key
  · simp [hkey, hbad.resolve_left (not_not_intro hkey)]
  · simp [hkey]

theorem addRunning_of_taken {r : RedDest} (hcur : isCurrent s d b p.key = true) (hfound : reservedFor s tile d b p.key = some r)
    (hkey : r.awaits p = p.key) (hcount : (sumWith tile r p).count ≤ (sumWith tile r p).key.expect) :
    addRunning s tile d b p = .next (addedTo s tile d b r p) := by
  simp [addRunning, hcur, hfound, hkey, Nat.not_lt.mpr hcount]

end

/-- Adding a packet changes the destinations of its stack, and nothing else of the state in which it has landed. -/
theorem addedTo_spec (s : State) (tile d : Nat) (b : Batch) (r : RedDest) (p : C3Packet) :
    (stackOf (addedTo s tile d b r p) (tile / 256)).dests =
      dropFirst (fun e => decide (e = r)) (currentDests s tile d b) ++ [r.add (sumWith tile r p)] ∧
    OtherStacks (tile / 256) s (addedTo s tile d b r p) ∧
    addedTo s tile d b r p = { land s (.adder tile) p with
      arr := { (land s (.adder tile) p).arr with memStacks := (addedTo s tile d b r p).arr.memStacks } } := by
  refine ⟨?_, fun m hm => ?_, rfl⟩
  · rw [addedTo, stackOf_modStack, if_pos rfl]
  · rw [addedTo, stackOf_modStack, if_neg hm]
    rfl

/-! ### The reissue of an aborted attempt -/

/-- A packet of a batch's attempt is on its way or in an accumulator (03 R84). -/
def inMesh (s : State) (b : Batch) : Bool :=
  (meshPackets s).any fun p => p.key.attempt = b.attempt % 16 && b.rows.any fun r => r.ctx = p.key.ctx

theorem inMesh_eq_true_iff (s : State) (b : Batch) : inMesh s b = true ↔
    ∃ p, p ∈ meshPackets s ∧ p.key.attempt = b.attempt % 16 ∧ ∃ r, r ∈ b.rows ∧ r.ctx = p.key.ctx := by
  simp [inMesh]

theorem inMesh_eq_false_iff (s : State) (b : Batch) : inMesh s b = false ↔
    ∀ p, p ∈ meshPackets s → p.key.attempt = b.attempt % 16 → ∀ r, r ∈ b.rows → r.ctx ≠ p.key.ctx := by
  simp [inMesh]

/-- A row as its next attempt starts: one over range takes a WE raised once more (02 R52). -/
def reissuedRow (r : BatchRow) : BatchRow :=
  if r.overRange && r.status = 0 then { r with raise := r.raise + 1, overRange := false, arith := true } else { r with overRange := false }

theorem reissuedRow_overRange (r : BatchRow) : (reissuedRow r).overRange = false := by
  unfold reissuedRow
  split <;> rfl

theorem reissuedRow_of_faulted {r : BatchRow} (hover : r.overRange = true) (hstatus : r.status = 0) :
    reissuedRow r = { r with raise := r.raise + 1, overRange := false, arith := true } := by
  simp [reissuedRow, hover, hstatus]

theorem reissuedRow_of_sound {r : BatchRow} (h : r.overRange = false ∨ r.status ≠ 0) : reissuedRow r = { r with overRange := false } := by
  unfold reissuedRow
  rw [if_neg]
  rintro hfault
  obtain ⟨hover, hstatus⟩ := by simpa using hfault
  simp [hover, hstatus] at h

/-- A batch as its next attempt starts (02 R52, 03 R84). -/
def reissuedBatch (b : Batch) : Batch :=
  { b with rows := b.rows.map reissuedRow, attempt := b.attempt + 1, result := none, rangeFault := false }

/-- The contexts of the rows over range count a reissue. -/
def countReissues (s : State) (b : Batch) : State :=
  (b.rows.filter fun r => r.overRange && r.status = 0).foldl (fun t r => modCtx t r.ctx fun k => raiseArith s.gt k ⟨0, 0, 0, 1, 0⟩) s

/-- A domain that is not halted releases its issue hold. -/
def releaseHold (s : State) (d : Nat) : State :=
  { s with pwr := { s.pwr with released := if s.pwr.hold = 0 || s.pwr.released.contains d then s.pwr.released else s.pwr.released ++ [d] } }

/-- The next attempt of a domain's batch in readiness. -/
def reissue (s : State) (d : Nat) (b : Batch) : State :=
  modDom (releaseHold (countReissues s b) d) d fun y => { y with batch := some (reissuedBatch b), phase := .readying, ready := [], readyBy := none }

theorem exec_reissueAttempt_of_noBatch {s : State} {d : BitVec 3} (hb : (domOf s d.toNat).batch = none) :
    exec (.reissueAttempt d) s = .next s := by
  show execReissueAttempt d s = _
  simp [execReissueAttempt, hb]

theorem exec_reissueAttempt_of_batch {s : State} {d : BitVec 3} {b : Batch} (hb : (domOf s d.toNat).batch = some b) :
    exec (.reissueAttempt d) s = if (domOf s d.toNat).phase ≠ .aborted || inMesh s b || (domOf s d.toNat).halted then .next s
      else .next (reissue s d.toNat b) := by
  show execReissueAttempt d s = _
  simp only [execReissueAttempt, hb]
  rfl

/-- Counting in contexts leaves everything else. -/
theorem foldl_modCtx_eq {α : Type} (c : α → Nat) (f : α → Ctx → Ctx) (xs : List α) (s : State) :
    ∃ cs, xs.foldl (fun u x => modCtx u (c x) (f x)) s = { s with ctxs := cs } := by
  induction xs generalizing s with
  | nil => exact ⟨s.ctxs, rfl⟩
  | cons x xs ih =>
    obtain ⟨cs, hcs⟩ := ih (modCtx s (c x) (f x))
    exact ⟨cs, hcs⟩

/-- Counting in other contexts leaves a context. -/
theorem ctxOf_foldl_modCtx_other {α : Type} (c : α → Nat) (f : α → Ctx → Ctx) {xs : List α} {e : Nat} (s : State) (h : ∀ x, x ∈ xs → c x ≠ e) :
    ctxOf (xs.foldl (fun u x => modCtx u (c x) (f x)) s) e = ctxOf s e := by
  induction xs generalizing s with
  | nil => rfl
  | cons x xs ih =>
    rw [List.foldl_cons, ih _ fun y hy => h y (List.mem_cons_of_mem _ hy), ctxOf_modCtx, if_neg (h x List.mem_cons_self).symm]

theorem domOf_reissue_same (s : State) (d : Nat) (b : Batch) : domOf (reissue s d b) d =
    { domOf s d with batch := some (reissuedBatch b), phase := .readying, ready := [], readyBy := none } := by
  obtain ⟨cs, hcs⟩ : ∃ cs, countReissues s b = { s with ctxs := cs } := foldl_modCtx_eq _ _ _ _
  rw [reissue, domOf_modDom_same, releaseHold, hcs]
  rfl

theorem reissue_otherDoms (s : State) (d : Nat) (b : Batch) : OtherDoms d s (reissue s d b) := by
  intro e he
  obtain ⟨cs, hcs⟩ : ∃ cs, countReissues s b = { s with ctxs := cs } := foldl_modCtx_eq _ _ _ _
  rw [reissue, domOf_modDom, if_neg he, releaseHold, hcs]
  rfl

/-- The next attempt's readiness changes domains, contexts and the issue hold alone. -/
theorem reissue_frame (s : State) (d : Nat) (b : Batch) :
    (∀ o, regVal (reissue s d b) o = regVal s o) ∧ (reissue s d b).mem = s.mem ∧ (reissue s d b).flt = s.flt := by
  obtain ⟨cs, hcs⟩ : ∃ cs, countReissues s b = { s with ctxs := cs } := foldl_modCtx_eq _ _ _ _
  rw [reissue, releaseHold, hcs]
  exact ⟨fun _ => rfl, rfl, rfl⟩

theorem ctxOf_reissue_of_sound {s : State} {d c : Nat} {b : Batch}
    (hc : ∀ r, r ∈ b.rows → r.overRange = true → r.status = 0 → r.ctx ≠ c) : ctxOf (reissue s d b) c = ctxOf s c := by
  show ctxOf (countReissues s b) c = ctxOf s c
  refine ctxOf_foldl_modCtx_other _ _ _ fun r hr => ?_
  obtain ⟨hmem, hfault⟩ := List.mem_filter.mp hr
  obtain ⟨hover, hstatus⟩ := by simpa using hfault
  exact hc r hmem hover hstatus

/-! ### Telemetry control -/

/-- A bit set is read back. -/
theorem getLsbD_setBits_same (x : Word) {i : Nat} (v : Bool) (hi : i < 32) : (setBits x i i (b2n v)).getLsbD i = v := by
  have hbit : b2n v < 2 := by cases v <;> decide
  have hsplit : x.toNat = x.toNat % 2 ^ i + 2 ^ i * (x.toNat / 2 ^ i) := (Nat.mod_add_div _ _).symm
  have hval : x.toNat - bits x i i * 2 ^ i + b2n v % 2 ^ (i - i + 1) * 2 ^ i =
      x.toNat % 2 ^ i + 2 ^ i * (2 * (x.toNat / 2 ^ i / 2) + b2n v) := by
    have hbits : bits x i i = x.toNat / 2 ^ i % 2 := by simp [bits]
    have hhalf : 2 ^ i * (x.toNat / 2 ^ i) = 2 ^ i * (2 * (x.toNat / 2 ^ i / 2)) + x.toNat / 2 ^ i % 2 * 2 ^ i := by
      rw [Nat.mul_comm (x.toNat / 2 ^ i % 2), ← Nat.mul_add, Nat.div_add_mod]
    rw [hbits, Nat.sub_self, Nat.zero_add, Nat.pow_one, Nat.mod_eq_of_lt hbit, Nat.mul_add, Nat.mul_comm (b2n v)]
    omega
  rw [setBits, BitVec.getLsbD_ofNat, hval]
  simp only [hi, decide_true, Bool.true_and]
  rw [Nat.testBit_eq_decide_div_mod_eq, Nat.add_mul_div_left _ _ (Nat.two_pow_pos i), Nat.div_eq_of_lt (Nat.mod_lt _ (Nat.two_pow_pos i))]
  cases v <;> simp [b2n]

/-- An operation runs on a stack. -/
def opRuns (s : State) (n : Nat) : Bool :=
  match (stackOf s n).domain with | some d => decide ((domOf s d).phase = .running) | none => false

/-- A stack after a write of STK_TEL_CTL (03 R92, R99). -/
def telStack (s : State) (n : Nat) (freeze clr : Bool) (k : Stack) : Stack :=
  let tel := if clr then clearTel k else k.tel
  { k with tel := tel, frozen := if freeze then some ⟨tel, occupancies k.waits, s.gt, opRuns s n⟩ else none }

/-- The stacks after a write of STK_TEL_CTL. -/
def telWritten (s : State) (n : Nat) (freeze clr : Bool) : State := modStack s n (telStack s n freeze clr)

theorem stackOf_telWritten_same (s : State) (n : Nat) (freeze clr : Bool) :
    stackOf (telWritten s n freeze clr) n = telStack s n freeze clr (stackOf s n) := by
  rw [telWritten, stackOf_modStack, if_pos rfl]

theorem telWritten_otherStacks (s : State) (n : Nat) (freeze clr : Bool) : OtherStacks n s (telWritten s n freeze clr) := by
  intro m hm
  rw [telWritten, stackOf_modStack, if_neg hm]

theorem telControl_of_off {s : State} (n : Nat) (freeze clr : Bool) (hoff : barsOff s = true) : telControl .host s n freeze clr = s := by
  simp [telControl, hoff]

theorem telControl_of_served {s : State} {r : Requester} (n : Nat) (freeze clr : Bool) (hbars : r = .host → barsOff s = false) :
    telControl r s n freeze clr = regSetBits (telWritten s n freeze clr) (0x2000100 + n * 0x100000) 1 1 (b2n freeze) := by
  unfold telControl
  rw [if_neg (by simpa using hbars)]
  rfl

/-- FREEZE and TEL_CLR are the two writes of STK_TEL_CTL. -/
theorem exec_telemetryWrite (s : State) (r : Requester) (n : BitVec 3) (freeze clr : Bool) :
    exec (if clr then .telClr r ⟨n, freeze⟩ else .freeze r ⟨n, freeze⟩) s = .next (telControl r s n.toNat freeze clr) := by
  cases clr <;> rfl

/-! ### A silent tile -/

/-- Outside an operation no tile is silent (17 R535). -/
theorem exec_tileSilent_of_idle {s : State} {x : SilentTile}
    (h : tileValid x.tile.toNat = false ∨ ∀ d, (stackOf s (x.tile.toNat / 256)).domain = some d → (domOf s d).phase ≠ .running) :
    exec (.tileSilent x) s = .next s := by
  show execTileSilent x s = _
  cases hd : (stackOf s (x.tile.toNat / 256)).domain with
  | none => simp [execTileSilent, hd]
  | some d =>
    rcases h with hinvalid | hidle
    · simp [execTileSilent, hd, hinvalid]
    · simp [execTileSilent, hd, hidle d hd]

theorem exec_tileSilent_of_running {s : State} {x : SilentTile} {d : Nat} (hd : (stackOf s (x.tile.toNat / 256)).domain = some d)
    (hphase : (domOf s d).phase = .running) (ht : tileValid x.tile.toNat = true) :
    exec (.tileSilent x) s = .next (if x.forwards then loseTile s x.tile.toNat false
      else loseDie s (if tileUp x.tile.toNat then upperDie (x.tile.toNat / 256) else x.tile.toNat / 256) 0x09 0 false) := by
  show execTileSilent x s = _
  simp only [execTileSilent, hd, hphase, ht]
  cases x.forwards <;> rfl

/-- Settles O29: each command's case is its equation (`exec_reductionAdd_of_…` with `addRunning_of_…`, `exec_reissueAttempt_of_batch`,
`exec_telemetryWrite`, `exec_tileSilent_of_…`), and what it changes is said by `addedTo_spec`, by the lemmas about `reissue` and by those
about `telWritten`. -/
theorem reductionAdds : Obligations.ReductionAdds := by
  unfold Obligations.ReductionAdds
  refine ⟨fun s t p => ⟨fun ht => ?_, fun ht hp => ?_, fun ht hp => ⟨fun hnone => ?_, fun d b hd hb => ⟨fun hphase => ?_, fun hphase => ?_⟩⟩⟩,
    fun s d => ⟨fun hnot => ?_, fun b hb hphase hhalt => ⟨fun hlive => ?_, fun hdrained => ?_⟩⟩,
    fun s r n on clr => ⟨fun hr hoff => ?_, fun hbars => ?_⟩,
    fun s t forwards => ⟨fun hnot => ?_, fun d hd => ⟨fun hphase => ?_, fun hphase ht => ?_⟩⟩⟩
  · exact ⟨_, exec_reductionAdd_of_invalid ht, rfl⟩
  · exact ⟨_, exec_reductionAdd_of_poison ht hp, rfl⟩
  · refine ⟨_, exec_reductionAdd_of_noOperation ht hp fun d b hd hb => ?_, rfl⟩
    obtain hdom | ⟨e, hdom, hbatch | hphase⟩ := hnone
    · simp [hd] at hdom
    · obtain rfl : d = e := Option.some.inj (hd.symm.trans hdom)
      simp [hb] at hbatch
    · obtain rfl : d = e := Option.some.inj (hd.symm.trans hdom)
      exact hphase
  · exact ⟨_, exec_reductionAdd_of_aborted ht hp hd hb hphase, rfl⟩
  · have hexec := exec_reductionAdd_of_running ht hp hd hb hphase
    exact ⟨fun hcur => ⟨_, hexec.trans (addRunning_of_otherAttempt hcur), rfl⟩,
      fun hcur hfound => ⟨_, hexec.trans (addRunning_of_unreserved hcur hfound), rfl⟩, fun r hcur hfound =>
        ⟨fun hbad => ⟨_, hexec.trans (addRunning_of_refused hcur hfound hbad), rfl⟩, fun hkey hcount =>
          ⟨_, hexec.trans (addRunning_of_taken hcur hfound hkey hcount), addedTo_spec s t.toNat d b r p⟩⟩⟩
  · refine ⟨s, ?_, rfl⟩
    cases hb : (domOf s d.toNat).batch with
    | none => exact exec_reissueAttempt_of_noBatch hb
    | some b =>
      rw [exec_reissueAttempt_of_batch hb, if_pos]
      obtain hnone | hphase | hhalt := hnot
      · simp [hb] at hnone
      · simp [hphase]
      · simp [hhalt]
  · exact ⟨s, by rw [exec_reissueAttempt_of_batch hb, if_pos (by simp [(inMesh_eq_true_iff s b).mpr hlive])], rfl⟩
  · obtain ⟨hregs, hmem, hflt⟩ := reissue_frame s d.toNat b
    have hdom := domOf_reissue_same s d.toNat b
    have hexec : exec (.reissueAttempt d) s = .next (reissue s d.toNat b) := by
      rw [exec_reissueAttempt_of_batch hb, if_neg (by simp [hphase, (inMesh_eq_false_iff s b).mpr hdrained, hhalt])]
    refine ⟨_, hexec, reissue_otherDoms s d.toNat b, by rw [hdom], by rw [hdom], by rw [hdom],
      ⟨reissuedBatch b, by rw [hdom], rfl, rfl, rfl, rfl, rfl, rfl, List.length_map _, fun i r hr => ⟨reissuedRow r, ?_, reissuedRow_overRange r,
        fun hover hstatus => ?_, reissuedRow_of_sound⟩⟩, fun c hc => ctxOf_reissue_of_sound hc, hregs, hmem, hflt⟩
    · rw [reissuedBatch, List.getElem?_map, hr]
      rfl
    · rw [reissuedRow_of_faulted hover hstatus]
      exact ⟨rfl, rfl⟩
  · subst hr
    exact ⟨s, by rw [exec_telemetryWrite, telControl_of_off _ _ _ hoff], rfl⟩
  · refine ⟨_, (exec_telemetryWrite s r n on clr).trans (congrArg _ (telControl_of_served n.toNat on clr hbars)), ?_, fun m hm => ?_, ?_, fun o ho => ?_, rfl⟩
    · rw [stackOf_regSetBits, stackOf_telWritten_same]
      rfl
    · rw [stackOf_regSetBits, telWritten_otherStacks s n.toNat on clr m hm]
    · rw [regSetBits, regVal_regPut_same, getLsbD_setBits_same _ _ (by decide)]
    · exact regVal_regPut_other _ _ (by simpa using ho)
  · exact ⟨s, exec_tileSilent_of_idle (hnot.symm.imp_right fun hnone d hd => by simp [hnone] at hd), rfl⟩
  · refine ⟨s, exec_tileSilent_of_idle (.inr fun e he => ?_), rfl⟩
    obtain rfl : d = e := Option.some.inj (hd.symm.trans he)
    exact hphase
  · exact ⟨⟨_, exec_tileSilent_of_running hd hphase ht, rfl⟩, ⟨_, exec_tileSilent_of_running hd hphase ht, rfl⟩⟩

end Sys2Proof.Proofs
end

section
/-!
Merging at the routers and at the stack endpoints: the procedure of R81, the ends of merge windows, and packets that pass on
(03_harrel_stacks.md R72 to R76, R80 to R82; 07_skeltil_base.md R233).
-/
namespace Sys2Proof.Proofs
open Sys2Proof Sys2Proof.Machine

/-! ### The merge of two packets -/

theorem mergePackets_data_getElem? {a b : C3Packet} {i : Nat} {x y : Xacc} (src : Nat) (hx : a.data[i]? = some x) (hy : b.data[i]? = some y) :
    (mergePackets src a b).data[i]? = some (xaccAdd (if a.key.wide then 144 else 112) x y) := by
  rw [mergePackets, List.getElem?_zipWith_eq_some]
  exact ⟨x, y, hx, hy, rfl⟩

/-! ### A packet that arrives or passes on -/

/-- A packet that has arrived at a place of a stack: off its way, and the words that its link corrected counted (03 R76). -/
def landed (s : State) (place : C3Place) (n : Nat) (p : C3Packet) : State := countFixed (land s place p) n p

@[simp] theorem countFixed_arr (s : State) (n : Nat) (p : C3Packet) : (countFixed s n p).arr = s.arr := by
  unfold countFixed
  split
  · rfl
  · rw [bump_arr]

@[simp] theorem landed_accs (s : State) (place : C3Place) (n : Nat) (p : C3Packet) : (landed s place n p).arr.accs = s.arr.accs := by
  rw [landed, countFixed_arr, land]

theorem stackOf_enqueue_same (s : State) (t port : Nat) (p : MeshPkt) : stackOf (enqueue s t port p) (t / 256) = { stackOf s (t / 256) with
    waits := (stackOf s (t / 256)).waits ++ [⟨t, port, (meshRoute (stackOf s (t / 256)).deadBypass t p.cls p.dst).1, pktFlits p, [], 0, p⟩] } := by
  rw [enqueue, stackOf_modStack, if_pos rfl]

theorem enqueue_otherStacks (s : State) (t port : Nat) (p : MeshPkt) : OtherStacks (t / 256) s (enqueue s t port p) := by
  intro m hm
  rw [enqueue, stackOf_modStack, if_neg hm]

/-- A packet that leaves a router is one more in its input buffers (03 R73). -/
theorem routerGo_waitsAt (s : State) (router port : Nat) (p : C3Packet) : WaitsAt s (routerGo router port s p) router port p :=
  ⟨⟨_, congrArg Stack.waits (stackOf_enqueue_same s router port _), rfl, rfl, rfl⟩, enqueue_otherStacks s router port _, rfl⟩

/-- A packet that leaves an endpoint for another endpoint or for an adder flies there; one on its way in takes the strip port, unless the
strip port is its destination (03 R72; 07 R233). -/
theorem endpointGo_flights_length {n : Nat} {inward : Bool} {p : C3Packet} (s : State) (h : inward = false ∨ p.key.strip = true) :
    (endpointGo n inward s p).arr.flights.length = s.arr.flights.length + 1 := by
  have hfly (place : C3Place) : (fly s place p).arr.flights.length = s.arr.flights.length + 1 := List.length_append
  cases inward with
  | true => rw [endpointGo, if_pos rfl, if_pos (h.resolve_left nofun), hfly]
  | false =>
    rw [endpointGo, if_neg Bool.false_ne_true]
    split <;> exact hfly _

theorem endpointGo_rf (n : Nat) (inward : Bool) (s : State) (p : C3Packet) : (endpointGo n inward s p).rf = s.rf := by
  unfold endpointGo
  split <;> split <;> rfl

/-! ### A packet meets the accumulators of its output port -/

/-- The state with other accumulators. -/
def withAccs (s : State) (as : List MergeAcc) : State := { s with arr := { s.arr with accs := as } }

/-- The state once an accumulator has closed. -/
def closeAcc (s : State) (a : MergeAcc) : State := withAccs s (dropFirst (fun b => decide (b = a)) s.arr.accs)

/-- An accumulator belongs to an output port of a place. -/
def atPort (place : C3Place) (port : Nat) (a : MergeAcc) : Bool := decide (a.place = place) && decide (a.port = port)

section
variable {s : State} {place : C3Place} {port slots src window : Nat} {p : C3Packet} {go : State → C3Packet → State}

/-- A packet whose reduction has an open accumulator is merged into it; the sum goes on once it is whole. -/
theorem meet_of_open {a : MergeAcc} (hopen : (s.arr.accs.find? fun a => atPort place port a && decide (a.packet.key = p.key)) = some a) :
    meet s place port slots src window true p go =
      (if (mergePackets src a.packet p).count = p.key.expect
        then go (closeAcc s a) (mergePackets src a.packet p)
        else withAccs s (dropFirst (fun b => decide (b = a)) s.arr.accs ++ [{ a with packet := mergePackets src a.packet p }]), true) := by
  simp only [atPort] at hopen
  simp only [meet, hopen, Bool.not_true, Bool.false_eq_true, if_false]
  split <;> rfl

/-- A packet without an open accumulator goes on where it is whole or no accumulator is free, and takes a free one otherwise. -/
theorem meet_of_alone (halone : (s.arr.accs.find? fun a => atPort place port a && decide (a.packet.key = p.key)) = none) :
    meet s place port slots src window true p go =
      (if p.count = p.key.expect ∨ slots ≤ (s.arr.accs.filter (atPort place port)).length then go s p
        else withAccs s (s.arr.accs ++ [⟨place, port, p, s.gt + window⟩]), false) := by
  simp only [atPort] at halone
  by_cases hwhole : p.count = p.key.expect
  · simp [meet, halone, hwhole]
  · by_cases hroom : (s.arr.accs.filter (atPort place port)).length < slots
    · rw [if_neg (not_or.mpr ⟨hwhole, Nat.not_le.mpr hroom⟩)]
      unfold atPort at hroom
      simp [meet, halone, hwhole, hroom, withAccs]
    · rw [if_pos (.inr (Nat.not_lt.mp hroom))]
      unfold atPort at hroom
      simp [meet, halone, hwhole, hroom]

end

/-- The model's procedure of R81 is the statements' one. -/
theorem meet_meets (s : State) (place : C3Place) (port slots src window : Nat) (merging : Bool) (p : C3Packet) (go : State → C3Packet → State) :
    Meets s place port slots src window merging p go (meet s place port slots src window merging p go).2
      (meet s place port slots src window merging p go).1 := by
  refine ⟨fun hoff => ?_, fun a hon hopen => ?_, fun hon halone => ?_⟩
  · subst hoff
    exact ⟨rfl, rfl⟩
  · subst hon
    rw [meet_of_open hopen]
    exact ⟨rfl, fun hwhole => if_pos hwhole, fun hpart => if_neg hpart⟩
  · subst hon
    rw [meet_of_alone halone]
    exact ⟨rfl, fun hpass => if_pos hpass, fun hpart hroom => if_neg (not_or.mpr ⟨hpart, Nat.not_le.mpr hroom⟩)⟩

/-- A router has merged: the stack's merges count one more (03 R97). -/
def countMerge (s : State) (n : Nat) : State := modStack s n fun k => { k with tel := { k.tel with merges := satAdd 64 k.tel.merges 1 } }

theorem countMerge_spec (s : State) (n : Nat) :
    (stackOf (countMerge s n) n).tel.merges = min ((stackOf s n).tel.merges + 1) (2 ^ 64 - 1) ∧ OtherStacks n s (countMerge s n) ∧
      countMerge s n = { s with arr := { s.arr with memStacks := (countMerge s n).arr.memStacks } } := by
  refine ⟨?_, fun m hm => ?_, rfl⟩
  · rw [countMerge, stackOf_modStack, if_pos rfl, satAdd]
  · rw [countMerge, stackOf_modStack, if_neg hm]

/-! ### Arrivals at a router -/

/-- The procedure of R81 for a packet that has arrived at a router. -/
def meetAtRouter (s : State) (t : Nat) (p : C3Packet) : State × Bool :=
  meet (landed s (.router t) (t / 256) p) (.router t) (c3Route t p.key).1 (if tileY t = 0 ∨ tileY t = 7 then 4 else 2) t (windowTicks s (t / 256))
    (routerMerges s t && decide ((c3Route t p.key).1 ≠ 5)) { p with fixed := 0 } (routerGo t p.via)

theorem exec_c3PacketArrival_of_refused {s : State} {t : BitVec 11} {p : C3Packet} (h : tileValid t.toNat = false ∨ packetOk p = false) :
    exec (.c3PacketArrival t p) s = .next (landed s (.router t.toNat) (t.toNat / 256) p) := by
  show execC3PacketArrival t p s = _
  rw [execC3PacketArrival, if_pos (by simpa using h)]
  rfl

theorem exec_c3PacketArrival_of_sound {s : State} {t : BitVec 11} {p : C3Packet} (ht : tileValid t.toNat = true) (hp : packetOk p = true) :
    exec (.c3PacketArrival t p) s = .next (if (meetAtRouter s t.toNat p).2 then countMerge (meetAtRouter s t.toNat p).1 (t.toNat / 256)
      else (meetAtRouter s t.toNat p).1) := by
  show execC3PacketArrival t p s = _
  simp only [execC3PacketArrival, ht, hp, meetAtRouter, landed, countMerge, Bool.or_eq_true, decide_eq_true_eq]
  rfl

/-! ### Arrivals at an endpoint -/

/-- A stack's base endpoint on the way in or out. -/
def endpointPlace (n : Nat) (inward : Bool) : C3Place := if inward then .ingress n else .egress n

/-- The accumulators that a direction of an endpoint has for a packet (07 R233). -/
def endpointSlots (s : State) (place : C3Place) : Nat := if 64 ≤ (s.arr.accs.filter fun a => decide (a.place = place)).length then 0 else 64

/-- The procedure of R81 for a packet that has arrived at an endpoint: among those for one strip port on the way in, for one stack on the
way out (07 R233). -/
def meetAtEndpoint (s : State) (n : Nat) (inward : Bool) (p : C3Packet) : State × Bool :=
  meet (landed s (endpointPlace n inward) n p) (endpointPlace n inward)
    (if inward then tileX p.key.dst * 8 + edgeRow (tileY p.key.dst) else p.key.dst / 256) (endpointSlots s (endpointPlace n inward)) p.src
    (stackOf s n).epWindow (stackOf s n).epRed { p with fixed := 0 } (endpointGo n inward)

theorem exec_epC3PacketArrival_of_refused {s : State} {n : BitVec 3} {inward : Bool} {p : C3Packet}
    (h : tileValid p.key.dst = false ∨ tileValid p.src = false) :
    exec (.epC3PacketArrival n inward p) s = .next (landed s (endpointPlace n.toNat inward) n.toNat p) := by
  show Host.Outcome.next (atEndpoint s n.toNat inward p) = _
  rw [atEndpoint, if_pos (by simpa using h)]
  rfl

theorem exec_epC3PacketArrival_of_sound {s : State} {n : BitVec 3} {inward : Bool} {p : C3Packet} (hdst : tileValid p.key.dst = true)
    (hsrc : tileValid p.src = true) :
    exec (.epC3PacketArrival n inward p) s = .next (if (meetAtEndpoint s n.toNat inward p).2
      then bump64 (meetAtEndpoint s n.toNat inward p).1 0x18000A0 1 else (meetAtEndpoint s n.toNat inward p).1) := by
  have haccs := landed_accs s (endpointPlace n.toNat inward) n.toNat p
  show Host.Outcome.next (atEndpoint s n.toNat inward p) = _
  simp only [landed, endpointPlace] at haccs
  simp only [atEndpoint, hdst, hsrc, haccs, meetAtEndpoint, endpointSlots, landed, endpointPlace, decide_eq_true_eq]
  rfl

/-! ### The end of a merge window -/

/-- The open accumulator of a reduction at a place. -/
def openAt (s : State) (place : C3Place) (k : C3Key) : Option MergeAcc :=
  s.arr.accs.find? fun a => decide (a.place = place) && decide (a.packet.key = k)

/-- The end of a reduction's window at a place, from which its packet goes on by `go` (03 R81, R82). -/
def endWindow (s : State) (place : C3Place) (k : C3Key) (go : State → C3Packet → State) : State :=
  match openAt s place k with
  | some a => if ranOut s a.closes then go (closeAcc s a) a.packet else s
  | none => s

theorem endWindow_of_none {s : State} {place : C3Place} {k : C3Key} (go : State → C3Packet → State) (h : openAt s place k = none) :
    endWindow s place k go = s := by
  rw [endWindow, h]

section
variable {s : State} {place : C3Place} {k : C3Key} {a : MergeAcc} (go : State → C3Packet → State) (h : openAt s place k = some a)
include h

theorem endWindow_of_waiting (hlim : ¬ RunOut s a.closes) : endWindow s place k go = s := by
  simp [endWindow, h, (ranOut_eq_false_iff s a.closes).mpr hlim]

theorem endWindow_of_runOut (hlim : RunOut s a.closes) : endWindow s place k go = go (closeAcc s a) a.packet := by
  simp [endWindow, h, (ranOut_eq_true_iff s a.closes).mpr hlim]

end

theorem exec_mergeWindowExpiry (s : State) (t : BitVec 11) (k : C3Key) :
    exec (.mergeWindowExpiry t k) s = .next (endWindow s (.router t.toNat) k (routerGo t.toNat 8)) := by
  show execMergeWindowExpiry t k s = _
  dsimp only [execMergeWindowExpiry, endWindow, openAt]
  cases s.arr.accs.find? _ with
  | none => rfl
  | some a =>
    dsimp only
    cases ranOut s a.closes <;> rfl

theorem exec_epMergeWindowExpiry (s : State) (n : BitVec 3) (inward : Bool) (k : C3Key) :
    exec (.epMergeWindowExpiry n inward k) s = .next (endWindow s (endpointPlace n.toNat inward) k (endpointGo n.toNat inward)) := by
  show execEpMergeWindowExpiry n inward k s = _
  dsimp only [execEpMergeWindowExpiry, endWindow, openAt, endpointPlace]
  cases s.arr.accs.find? _ with
  | none => rfl
  | some a =>
    dsimp only
    cases ranOut s a.closes <;> rfl

/-- Settles O28: an arrival's equation (`exec_c3PacketArrival_of_…`, `exec_epC3PacketArrival_of_…`) runs the procedure of `meet_meets`, and a
window's end is `endWindow` at a router or an endpoint, of which a packet goes on by `routerGo_waitsAt` or by the lemmas about
`endpointGo`. -/
theorem meshMerging : Obligations.MeshMerging := by
  unfold Obligations.MeshMerging
  refine ⟨fun src a b => ⟨rfl, rfl, rfl, rfl, rfl, rfl, fun i x y => mergePackets_data_getElem? src⟩,
    fun s t p => ⟨fun port => routerGo_waitsAt s t.toNat port p, fun hbad => ⟨_, exec_c3PacketArrival_of_refused hbad, rfl⟩, fun ht hp => ?_⟩,
    fun s t k => ⟨fun hnone => ?_, fun a ha => ⟨fun hlim => ?_, fun hlim => ?_⟩⟩,
    fun s n inward => ⟨fun p => ⟨fun hbad => ⟨_, exec_epC3PacketArrival_of_refused hbad, rfl⟩, fun hdst hsrc => ?_⟩,
      fun k => ⟨fun hnone => ?_, fun a ha => ⟨fun hlim => ?_, fun hlim => ?_⟩⟩⟩⟩
  · refine ⟨_, exec_c3PacketArrival_of_sound ht hp, (meetAtRouter s t.toNat p).2, (meetAtRouter s t.toNat p).1,
      meet_meets .., fun hm => ?_, fun hm => ?_⟩
    · rw [hm, if_neg Bool.false_ne_true]
    · rw [hm, if_pos rfl]
      exact countMerge_spec _ _
  · exact ⟨s, (exec_mergeWindowExpiry s t k).trans (congrArg _ (endWindow_of_none _ hnone)), rfl⟩
  · exact ⟨s, (exec_mergeWindowExpiry s t k).trans (congrArg _ (endWindow_of_waiting _ ha hlim)), rfl⟩
  · exact ⟨_, (exec_mergeWindowExpiry s t k).trans (congrArg _ (endWindow_of_runOut _ ha hlim)), routerGo_waitsAt _ _ _ _⟩
  · refine ⟨_, exec_epC3PacketArrival_of_sound hdst hsrc, (meetAtEndpoint s n.toNat inward p).2, (meetAtEndpoint s n.toNat inward p).1,
      meet_meets .., fun hm => ?_, fun hm => ?_⟩
    · rw [hm, if_neg Bool.false_ne_true]
    · rw [hm, if_pos rfl]
  · exact ⟨s, (exec_epMergeWindowExpiry s n inward k).trans (congrArg _ (endWindow_of_none _ hnone)), rfl⟩
  · exact ⟨s, (exec_epMergeWindowExpiry s n inward k).trans (congrArg _ (endWindow_of_waiting _ ha hlim)), rfl⟩
  · exact ⟨_, (exec_epMergeWindowExpiry s n inward k).trans (congrArg _ (endWindow_of_runOut _ ha hlim)), rfl, endpointGo_flights_length _,
      endpointGo_rf _ _ _ _⟩

end Sys2Proof.Proofs
end

section
/-!
The microkernel machine (04_formulas_operations.md R136, R137): an instruction that writes a register leaves the rest of the machine.
-/
namespace Sys2Proof.Proofs
open Sys2Proof Sys2Proof.Machine

/-- A register's row is read back after it is written. -/
theorem kernReg_kernPut_same {k : Kern} {r : Nat} (v : List Word) (h : r < k.regs.length) : kernReg (kernPut k r v) r = v := by
  simp [kernReg, kernPut, List.getD, listSet_getElem, h]

/-- A write of a register leaves the others. -/
theorem kernReg_kernPut_other (k : Kern) {r q : Nat} (v : List Word) (h : q ≠ r) : kernReg (kernPut k r v) q = kernReg k q := by
  simp [kernReg, kernPut, List.getD, listSet_getElem, h]

/-- An instruction that writes row `v` to register `d` takes that row and changes nothing else. -/
theorem kernTakes_of_exec {c : Instr} {d : BitVec 6} {v : Kern → List Word}
    (h : ∀ s, exec c s = kernStep s fun k => kernPut k d.toNat (v k)) : KernTakes c d v := by
  intro s hs
  refine ⟨_, h s, kernReg_kernPut_same _ ?_, fun r hr => kernReg_kernPut_other _ _ hr, rfl, rfl⟩
  rw [show s.arr.kern.regs.length = 64 from hs]
  exact d.isLt

/-- Three sources element by element, taken one after the other or in pairs. -/
theorem zipWith_zip_eq_zipWith_zipWith {α β γ δ : Type} (f : α → β → γ → δ) (xs : List α) (ys : List β) (zs : List γ) :
    List.zipWith (fun x yz => f x yz.1 yz.2) xs (List.zip ys zs) = List.zipWith (fun g z => g z) (List.zipWith f xs ys) zs := by
  induction xs generalizing ys zs with
  | nil => simp
  | cons x xs ih => cases ys <;> cases zs <;> simp [ih]

/-- An instruction of three sources writes the row of its three sources. -/
theorem kernTakes_of_exec_kern3 {c : Instr} {d x y z : BitVec 6} {f : Word → Word → Word → Word}
    (h : ∀ s, exec c s = kernStep s fun k => kern3 f k d.toNat x.toNat y.toNat z.toNat) : KernTakes c d (row3 f x y z) :=
  kernTakes_of_exec fun s => (h s).trans <| by
    simp only [kernStep, kern3, row3, zipWith_zip_eq_zipWith_zipWith]

/-- Settles O6: each instruction writes the row that its meaning forms of its sources (`kernTakes_of_exec`). -/
theorem microkernelArithmetic : Obligations.MicrokernelArithmetic := by
  unfold Obligations.MicrokernelArithmetic
  intro d a b c
  exact ⟨kernTakes_of_exec fun _ => rfl, kernTakes_of_exec fun _ => rfl, kernTakes_of_exec fun _ => rfl, kernTakes_of_exec fun _ => rfl,
    kernTakes_of_exec_kern3 fun _ => rfl, kernTakes_of_exec fun _ => rfl, kernTakes_of_exec fun _ => rfl, kernTakes_of_exec fun _ => rfl,
    kernTakes_of_exec fun _ => rfl, kernTakes_of_exec fun _ => rfl, kernTakes_of_exec fun _ => rfl, kernTakes_of_exec fun _ => rfl,
    kernTakes_of_exec fun _ => rfl, kernTakes_of_exec fun _ => rfl, kernTakes_of_exec fun _ => rfl, kernTakes_of_exec fun _ => rfl,
    kernTakes_of_exec fun _ => rfl, kernTakes_of_exec_kern3 fun _ => rfl, kernTakes_of_exec fun _ => rfl⟩

/-- Settles O7: the moves and reductions write a row as the arithmetic does (`kernTakes_of_exec`), and ST writes the output alone. -/
theorem microkernelMoves : Obligations.MicrokernelMoves := by
  unfold Obligations.MicrokernelMoves
  intro d a
  exact ⟨kernTakes_of_exec fun _ => rfl, fun _ => kernTakes_of_exec fun _ => rfl, kernTakes_of_exec fun _ => rfl,
    kernTakes_of_exec fun _ => rfl, kernTakes_of_exec fun _ => rfl, kernTakes_of_exec fun _ => rfl, fun _ => ⟨_, rfl, rfl, rfl⟩⟩

end Sys2Proof.Proofs
end

section
/-!
The operations of a domain (04_formulas_operations.md R117 to R133): what the execution of an operation's rows changes.
-/
namespace Sys2Proof.Proofs
open Sys2Proof Sys2Proof.Machine

/-! ### An operation of rows -/

/-- What an operation with meaning `f` makes of a row: one that had failed takes no part (04 R117). -/
def opRow (s : State) (d : Nat) (b : Batch) (f : BatchRow → BatchRow) (r : BatchRow) : BatchRow :=
  if r.status ≠ 0 then r else f (freshRow s d b r)

/-- Whether a live row faults on range (02 R52). -/
def faultsOnRange (rows : List BatchRow) : Bool := rows.any fun r => r.status = 0 && r.overRange

theorem faultsOnRange_eq_true_iff (rows : List BatchRow) : faultsOnRange rows = true ↔ ∃ r ∈ rows, r.status = 0 ∧ r.overRange = true := by
  simp [faultsOnRange]

theorem faultsOnRange_eq_false_iff (rows : List BatchRow) : faultsOnRange rows = false ↔ ∀ r ∈ rows, r.status = 0 → r.overRange = false := by
  simp [faultsOnRange]

/-- A batch whose attempt aborts: of the rows that the attempt made it keeps the range faults and statuses. -/
def abortedBatch (b : Batch) (rows : List BatchRow) : Batch :=
  { b with
    rows := List.zipWith (fun old new => { old with overRange := new.overRange, status := new.status }) b.rows rows
    rangeFault := true }

/-- The device once the rows of domain `d`'s operation are made: the attempt aborts where one faults on range, and else the result is formed. -/
def formRows (s : State) (d : Nat) (b : Batch) (rows : List BatchRow) : State :=
  if faultsOnRange rows then modDom (addStall s d) d fun x => { x with phase := .aborted, batch := some (abortedBatch b rows) }
  else modDom s d fun x => { x with batch := some { b with result := some rows } }

theorem addStall_free (s : State) (d : Nat) : (addStall s d).free = s.free + 1 := rfl

theorem domOf_addStall_other (s : State) {d e : Nat} (h : e ≠ d) : domOf (addStall s d) e = domOf s e := by
  rw [addStall, domOf_modDom, if_neg h]
  rfl

theorem abortedBatch_rows_length (b : Batch) (g : BatchRow → BatchRow) : (abortedBatch b (b.rows.map g)).rows.length = b.rows.length := by
  simp [abortedBatch]

theorem abortedBatch_rows_getElem? {b : Batch} (rows : List BatchRow) {j : Nat} {r : BatchRow} (h : b.rows[j]? = some r) :
    (abortedBatch b rows).rows[j]? = rows[j]?.map fun x => { r with overRange := x.overRange, status := x.status } := by
  simp only [abortedBatch, List.getElem?_zipWith, h]
  cases rows[j]? <;> rfl

/-- Forming the rows that `f` makes is what the statements say of an operation with meaning `f`. -/
theorem formRows_opFormed (s : State) (d : BitVec 3) (b : Batch) (f : BatchRow → BatchRow) :
    OpFormed s (formRows s d.toNat b (b.rows.map (opRow s d.toNat b f))) d b f := by
  show OtherDoms _ _ _ ∧ _ ∧ ((∀ r ∈ b.rows.map (opRow s d.toNat b f), _) → _) ∧ ((∃ r ∈ b.rows.map (opRow s d.toNat b f), _) → _)
  rw [← faultsOnRange_eq_false_iff, ← faultsOnRange_eq_true_iff]
  unfold formRows
  cases hf : faultsOnRange (b.rows.map (opRow s d.toNat b f)) with
  | true =>
    rw [if_pos rfl]
    obtain ⟨hdom, hother, -⟩ := modDom_domPut (addStall s d.toNat) d.toNat fun x =>
      { x with phase := .aborted, batch := some (abortedBatch b (b.rows.map (opRow s d.toNat b f))) }
    refine ⟨fun e he => (hother e he).trans (domOf_addStall_other s he), rfl, nofun, fun _ => ⟨addStall_free s d.toNat, congrArg Dom.phase hdom,
      abortedBatch b _, congrArg Dom.batch hdom, rfl, rfl, abortedBatch_rows_length b _, fun j r hr => abortedBatch_rows_getElem? _ hr⟩⟩
  | false =>
    rw [if_neg Bool.false_ne_true]
    obtain ⟨hdom, hother, -⟩ := modDom_domPut s d.toNat fun x => { x with batch := some { b with result := some (b.rows.map (opRow s d.toNat b f)) } }
    exact ⟨hother, rfl, fun _ => ⟨rfl, hdom⟩, nofun⟩

section
variable {s : State} {d : BitVec 3} {n : Nat} {b : Batch} {i : Inst} {o : OpRec}

/-- Where a domain executes an operation, its rows are made by the operation's meaning. -/
theorem runOp_of_executing (h : Executing s d n b i o) (f : Inst → OpRec → Nat → List BatchRow → BatchRow → BatchRow) :
    runOp s d.toNat n f = formRows s d.toNat b (b.rows.map (opRow s d.toNat b fun r => keepWhole o (f i o (opIndex i b) b.rows r))) := by
  simp only [runOp, h.runs, h.batch, h.inst, h.op, h.opcode, h.homes, h.live, Bool.not_true, Bool.false_eq_true, if_false, ne_eq,
    not_true_eq_false, decide_false, Bool.or_self]
  rfl

/-- A command that runs the executing operation with meaning `f` forms its rows. -/
theorem opRuns_of_exec {c : Instr} {g : BatchRow → BatchRow} (h : Executing s d n b i o) (f : Inst → OpRec → Nat → List BatchRow → BatchRow → BatchRow)
    (hexec : exec c s = .next (runOp s d.toNat n f)) (hf : f i o (opIndex i b) b.rows = g) : OpRuns c s d b o g := by
  refine ⟨_, hexec, ?_⟩
  rw [runOp_of_executing h, hf]
  exact formRows_opFormed s d b fun r => keepWhole o (g r)

/-- A plain operation of rows. -/
theorem opRuns_of_rowOp {c : Instr} {f : Inst → OpRec → BatchRow → BatchRow} (hexec : exec c s = rowOp s d n f) (h : Executing s d n b i o) :
    OpRuns c s d b o (f i o) :=
  opRuns_of_exec h _ hexec rfl

end

/-- Settles O8: each of the eleven is a plain operation of rows (`opRuns_of_rowOp`). -/
theorem operationsOfRows : Obligations.OperationsOfRows := by
  unfold Obligations.OperationsOfRows
  intro s d b i o
  exact ⟨opRuns_of_rowOp rfl, opRuns_of_rowOp rfl, opRuns_of_rowOp rfl, opRuns_of_rowOp rfl, opRuns_of_rowOp rfl, opRuns_of_rowOp rfl,
    opRuns_of_rowOp rfl, opRuns_of_rowOp rfl, opRuns_of_rowOp rfl, opRuns_of_rowOp rfl, opRuns_of_rowOp rfl⟩

/-! ### Matrix operations and attention -/

section
variable {s : State} {d : BitVec 3} {n : Nat} {b : Batch} {i : Inst} {o : OpRec} {scope : OpRec → Bool} {tray : List (Nat × TrayWin)}
  {f : Inst → OpRec → Option TrayWin → BatchRow → BatchRow}

/-- The meaning of the rows of a matrix operation of whose tray window `tray` brings the summaries (04 R131). -/
def trayMeaning (s : State) (scope : OpRec → Bool) (tray : List (Nat × TrayWin)) (f : Inst → OpRec → Option TrayWin → BatchRow → BatchRow)
    (i : Inst) (o : OpRec) (op : Nat) (rows : List BatchRow) (r : BatchRow) : BatchRow :=
  f i o (if scope o then some ((tray.filter fun t => (if scope o then trayPeers i.f o op s.rst.trayPos else []).contains t.1).foldl
    (fun w t => joinTray w t.2) (ownTray i o rows)) else none) r

/-- A matrix operation waits where it is scoped and a named device has given no summaries, and else runs. -/
theorem trayOp_of_executing (h : Executing s d n b i o) : trayOp s d.toNat n scope tray f =
    if (if scope o then trayPeers i.f o (opIndex i b) s.rst.trayPos else []).any fun m => !(tray.any fun t => t.1 = m) then s
    else runOp s d.toNat n (trayMeaning s scope tray f) := by
  simp only [trayOp, h.batch, h.inst, h.op]
  rfl

/-- A matrix operation does what the statements say of it. -/
theorem matrixRuns_of_exec {c : Instr} (hexec : exec c s = .next (trayOp s d.toNat n scope tray f)) (h : Executing s d n b i o) :
    MatrixRuns c s d b i o (scope o) tray (f i o) := by
  rw [trayOp_of_executing h] at hexec
  refine ⟨fun hs => opRuns_of_exec h (trayMeaning s scope tray f) ?_ ?_, fun hs hmissing => ⟨s, ?_, rfl⟩,
    fun hs hgiven => opRuns_of_exec h (trayMeaning s scope tray f) ?_ ?_⟩
  · simpa [hs] using hexec
  · funext r
    simp only [trayMeaning, hs]
    rfl
  · obtain ⟨m, hm, hnone⟩ := hmissing
    rw [hexec, if_pos]
    simpa [hs] using ⟨m, hm, by simpa using hnone⟩
  · rw [hexec, if_neg]
    simpa [hs] using hgiven
  · funext r
    simp only [trayMeaning, hs]
    rfl

/-- ATTN_SILLAGE of a batch formed in exact mode runs as ATTN_EXACT (04 R125). -/
theorem exec_attnSillage_of_exact (h : Executing s d 0x06 b i o) (hexact : b.exact = true) :
    exec (.attnSillage d) s = .next (runOp s d.toNat 0x06 fun i o _ _ r => opAttnExact i o r) := by
  show execAttnSillage d s = _
  simp [execAttnSillage, h.runs, h.batch, h.inst, h.op, h.opcode, hexact]

end

/-- Settles O9: MATMUL and EXPERT_MATMUL are matrix operations (`matrixRuns_of_exec`), the others operations of rows. -/
theorem operationsOfBatch : Obligations.OperationsOfBatch := by
  unfold Obligations.OperationsOfBatch
  intro s d b i o tray
  exact ⟨matrixRuns_of_exec (scope := fun o => attr o 0 1 = 1) rfl, matrixRuns_of_exec (scope := fun o => attr o 2 1 = 1) rfl,
    fun h hexact => opRuns_of_exec h _ (exec_attnSillage_of_exact h hexact) rfl,
    opRuns_of_rowOp (f := fun i o r => opKvAppend i o 4194304 r) rfl⟩

/-! ### Tray collectives -/

/-- Every live row of the batch in domain `d` ends with a status, and nothing else changes. -/
theorem failAll_allFail {s : State} {d : BitVec 3} {b : Batch} (st : Nat) (hb : (domOf s d.toNat).batch = some b) :
    AllFail s (failAll s d.toNat st) d b st := by
  obtain ⟨hdom, hother, hrest⟩ := modDom_domPut s d.toNat fun x =>
    { x with batch := x.batch.map fun b => { b with result := some (b.rows.map fun r => rowFail r st) } }
  refine ⟨hother, hrest, hdom.trans ?_⟩
  rw [hb]
  rfl

section
variable {s : State} {d : BitVec 3} {n : Nat} {b : Batch} {i : Inst} {o : OpRec} {peers : List (Nat × Option (List Tensor))}

/-- The position of a device among those that a collective names. -/
def rankOf (o : OpRec) (m : Nat) : Nat := ((namedDevices o).filter (· < m)).length

/-- The devices other than this one that a collective names. -/
def otherDevices (s : State) (o : OpRec) : List Nat := (namedDevices o).filter (· ≠ s.rst.trayPos)

/-- Whether the raw inputs of a collective disagree (02 R57). -/
def rawDisagree (s : State) (b : Batch) (i : Inst) (o : OpRec) (peers : List (Nat × Option (List Tensor))) : Bool :=
  (outDecl i.f o).any (fun a => isRaw a.fmt) && !((allGroups s.rst.trayPos i o b.rows peers).all (groupsAgree (ownGroups i o b.rows)))

/-- The result of a collective on the batch tensors of all its devices. -/
def collected (s : State) (n : Nat) (b : Batch) (i : Inst) (o : OpRec) (peers : List (Nat × Option (List Tensor))) : Option Tensor :=
  collective n (rankOf o s.rst.trayPos) (rankOf o (attr o 1 1)) (match inDecl i.f o 0 with | some a => entryRows a | none => 1)
    ((allGroups s.rst.trayPos i o b.rows peers).map batchTensor)

/-- A row with its share of a collective's result. -/
def takeShare (b : Batch) (i : Inst) (o : OpRec) (t : Tensor) : BatchRow → BatchRow :=
  let live := b.rows.filter fun r => r.status = 0
  let share := shareOut t (ownGroups i o b.rows) live.length
  givenRow o (List.zip live share.1) share.2

/-- A collective within its 2 ms: it waits for every device, a poisoned line fails it, then inputs that disagree, and else each live row takes
its share. -/
def collect (s : State) (d n : Nat) (b : Batch) (i : Inst) (o : OpRec) (peers : List (Nat × Option (List Tensor))) : State :=
  if ((otherDevices s o).map (delivered peers)).any Option.isNone then s
  else if ((otherDevices s o).map (delivered peers)).any fun g => g = some none then failAll s d stPeerLost
  else if rawDisagree s b i o peers then failAll s d stBadFormat
  else match collected s n b i o peers with
    | none => failAll s d stBadFormat
    | some t => runOp s d n fun _ _ _ _ => takeShare b i o t

theorem runCollective_of_late (h : Executing s d n b i o) (hlate : (domOf s d.toNat).start + 2000000 < s.gt) :
    runCollective s d.toNat n peers = failAll s d.toNat stPeerLost := by
  simp [runCollective, h.runs, hlate]

theorem runCollective_of_inTime (h : Executing s d n b i o) (htime : s.gt ≤ (domOf s d.toNat).start + 2000000) :
    runCollective s d.toNat n peers = collect s d.toNat n b i o peers := by
  simp only [runCollective, h.runs, h.batch, h.inst, h.op, h.opcode, Nat.not_lt.mpr htime, Bool.not_true, Bool.false_eq_true, if_false, ne_eq,
    not_true_eq_false]
  rfl

theorem anyMissing_iff : ((otherDevices s o).map (delivered peers)).any Option.isNone = true ↔ ∃ m ∈ otherDevices s o, delivered peers m = none := by
  simp

theorem anyPoisoned_iff :
    (((otherDevices s o).map (delivered peers)).any fun g => g = some none) = true ↔ ∃ m ∈ otherDevices s o, delivered peers m = some none := by
  simp

/-- Where every device has delivered its row groups, none is missing and no line is poisoned. -/
theorem noneMissing_nonePoisoned (h : ∀ m ∈ otherDevices s o, ∃ ts, delivered peers m = some (some ts)) :
    (¬ ((otherDevices s o).map (delivered peers)).any Option.isNone = true) ∧
      ¬ (((otherDevices s o).map (delivered peers)).any fun g => g = some none) = true := by
  rw [anyMissing_iff, anyPoisoned_iff]
  refine ⟨fun ⟨m, hm, hnone⟩ => ?_, fun ⟨m, hm, hpoisoned⟩ => ?_⟩
  · obtain ⟨ts, hts⟩ := h m hm
    exact nomatch hts.symm.trans hnone
  · obtain ⟨ts, hts⟩ := h m hm
    exact nomatch hts.symm.trans hpoisoned

theorem rawDisagree_iff : rawDisagree s b i o peers = true ↔ (∃ a, outDecl i.f o = some a ∧ isRaw a.fmt = true) ∧
    ∃ g ∈ allGroups s.rst.trayPos i o b.rows peers, groupsAgree (ownGroups i o b.rows) g = false := by
  simp [rawDisagree, Option.any_eq_true]

/-- A collective does what the statements say of it. -/
theorem collectiveRuns_of_exec {mk : List (Nat × Option (List Tensor)) → Instr} (hexec : ∀ p, exec (mk p) s = .next (runCollective s d.toNat n p))
    (h : Executing s d n b i o) : CollectiveRuns mk s d b i o n := by
  intro peers
  have hrun (htime : s.gt ≤ (domOf s d.toNat).start + 2000000) : exec (mk peers) s = .next (collect s d.toNat n b i o peers) := by
    rw [hexec, runCollective_of_inTime h htime]
  refine ⟨fun hlate => ?_, fun htime hmissing => ?_, fun htime hall hpoisoned => ?_, fun htime hall hraw hdiffer => ?_,
    fun r htime hall hagree hresult => ?_⟩
  · exact ⟨_, (hexec peers).trans (congrArg _ (runCollective_of_late h hlate)), failAll_allFail _ h.batch⟩
  · exact ⟨_, (hrun htime).trans (congrArg _ (if_pos (anyMissing_iff.mpr hmissing))), rfl⟩
  · have hmissing : ¬ ((otherDevices s o).map (delivered peers)).any Option.isNone = true := by
      rw [anyMissing_iff]
      exact fun ⟨m, hm, hnone⟩ => hall m hm hnone
    refine ⟨_, (hrun htime).trans (congrArg _ ?_), failAll_allFail _ h.batch⟩
    rw [collect, if_neg hmissing, if_pos (anyPoisoned_iff.mpr hpoisoned)]
  · obtain ⟨hmissing, hpoisoned⟩ := noneMissing_nonePoisoned hall
    refine ⟨_, (hrun htime).trans (congrArg _ ?_), failAll_allFail _ h.batch⟩
    rw [collect, if_neg hmissing, if_neg hpoisoned, if_pos (rawDisagree_iff.mpr ⟨hraw, hdiffer⟩)]
  · obtain ⟨hmissing, hpoisoned⟩ := noneMissing_nonePoisoned hall
    have hsame : ¬ rawDisagree s b i o peers = true := by
      rw [rawDisagree_iff]
      rintro ⟨hraw, g, hg, hdiffer⟩
      exact absurd (hagree hraw g hg) (by rw [hdiffer]; exact Bool.false_ne_true)
    refine opRuns_of_exec h (fun _ _ _ _ => takeShare b i o r) ((hrun htime).trans (congrArg _ ?_)) rfl
    rw [collect, if_neg hmissing, if_neg hpoisoned, if_neg hsame, show collected s n b i o peers = some r from hresult]

/-- The timeout of a collective that has run out fails it (04 R132). -/
theorem exec_collectiveTimeout_of_runOut (h : Executing s d n b i o) (hlow : 0x10 ≤ n) (hhigh : n ≤ 0x13)
    (hout : RunOut s ((domOf s d.toNat).start + 2000000)) : exec (.collectiveTimeout d) s = .next (failAll s d.toNat stPeerLost) := by
  show execCollectiveTimeout d s = _
  simp [execCollectiveTimeout, h.runs, h.batch, h.inst, h.op, h.opcode, (ranOut_eq_true_iff s _).mpr hout, hlow, hhigh]

theorem exec_collectiveTimeout_of_not_runOut (hout : ¬ RunOut s ((domOf s d.toNat).start + 2000000)) :
    exec (.collectiveTimeout d) s = .next s := by
  show execCollectiveTimeout d s = _
  simp [execCollectiveTimeout, (ranOut_eq_false_iff s _).mpr hout]

end

/-- Settles O10: the four are collectives (`collectiveRuns_of_exec`), and the timeout acts once its time has run out. -/
theorem trayCollectives : Obligations.TrayCollectives := by
  unfold Obligations.TrayCollectives
  intro s d b i o
  exact ⟨collectiveRuns_of_exec fun _ => rfl, collectiveRuns_of_exec fun _ => rfl, collectiveRuns_of_exec fun _ => rfl,
    collectiveRuns_of_exec fun _ => rfl, fun n hlow hhigh h =>
      ⟨fun hout => ⟨_, exec_collectiveTimeout_of_runOut h hlow hhigh hout, failAll_allFail _ h.batch⟩,
        fun hout => ⟨s, exec_collectiveTimeout_of_not_runOut hout, rfl⟩⟩⟩

end Sys2Proof.Proofs
end

section
/-!
Loading a Formula (04_formulas_operations.md R109 to R112): what the channels of the descriptor pool bring, the turns of a load and of a
chunk, and a loaded Formula's way to READY and to its end.
-/
namespace Sys2Proof.Proofs
open Sys2Proof Sys2Proof.Machine

/-! ### What a channel has brought -/

/-- The open descriptor of a context takes a work, and the rings move on. -/
theorem settle_setWork_goesOn (s : State) (c : Nat) (w : Work) : GoesOn s (settle (setWork s c w) c) c w := by
  obtain ⟨hctx, hother, hrest⟩ := setCtx_ctxPut s c
    { ctxOf s c with queue := modFirst (fun a => a.mgmt && a.done.isNone) (fun a => { a with work := w }) (ctxOf s c).queue }
  exact ⟨setWork s c w, rfl, hother, hrest, hctx⟩

section
variable {s : State} {c : BitVec 12} {m : Nat}

theorem exec_coreReadDone_of_open (core : List Byte) {a n : Nat} (hwork : mgmtWork (ctxOf s c.toNat) = some (.loading a n))
    (hserving : serving s c.toNat = some m) :
    exec (.coreReadDone c core) s = .next (settle (setWork (endLoad s m) c.toNat (.coreRead a core n)) c.toNat) := by
  show execCoreReadDone c core s = _
  simp only [execCoreReadDone, hwork, hserving]

theorem exec_coreReadDone_of_notOpen (core : List Byte)
    (h : serving s c.toNat = none ∨ ∀ a n, mgmtWork (ctxOf s c.toNat) ≠ some (.loading a n)) : exec (.coreReadDone c core) s = .next s := by
  show execCoreReadDone c core s = _
  unfold execCoreReadDone
  dsimp only
  split
  · next a n m hwork hserving =>
    rcases h with hnone | hwork'
    · rw [hnone] at hserving
      cases hserving
    · exact absurd hwork (hwork' a n)
  · rfl

theorem exec_chunkVerified_of_open (data : List Byte) {a j h : Nat} (hwork : mgmtWork (ctxOf s c.toNat) = some (.chunk a j h))
    (hserving : serving s c.toNat = some m) :
    exec (.chunkVerified c data) s = .next (settle (setWork (endLoad s m) c.toNat (.chunkRead data j h)) c.toNat) := by
  show execChunkVerified c data s = _
  simp only [execChunkVerified, hwork, hserving]

theorem exec_chunkVerified_of_notOpen (data : List Byte)
    (h : serving s c.toNat = none ∨ ∀ a j h, mgmtWork (ctxOf s c.toNat) ≠ some (.chunk a j h)) : exec (.chunkVerified c data) s = .next s := by
  show execChunkVerified c data s = _
  unfold execChunkVerified
  dsimp only
  split
  · next a j h' m hwork hserving =>
    rcases h with hnone | hwork'
    · rw [hnone] at hserving
      cases hserving
    · exact absurd hwork (hwork' a j h')
  · rfl

end

/-! ### The turn of a load -/

section
variable {s : State} {c n : Nat} {core : List Byte} {h : Nat} {p : Prov} {f : Formula}

theorem loadTurn_of_noHandle (hfree : freeHandle s = none) : loadTurn s c n core = turnEnd s stFmlaLimit := by
  simp only [loadTurn, hfree]

theorem domOfCtx_of_prov (hprov : (ctxOf s c).prov = some p) : domOfCtx s c = some p.dom := by
  rw [domOfCtx, hprov]
  rfl

/-- A core that fails a check ends with the check's status. -/
theorem loadTurn_of_refused {st : Nat} (hprov : (ctxOf s c).prov = some p) (hfree : freeHandle s = some h)
    (hcheck : checkCore n (ctxOf s c).ver s.rst.trayPos s.sec.slots core = .error st) : loadTurn s c n core = turnEnd s st := by
  simp only [loadTurn, hfree, domOfCtx_of_prov hprov, hcheck]

/-- A core that passes the checks is judged by its domain's stacks and then by its free T2. -/
theorem loadTurn_of_checked (hprov : (ctxOf s c).prov = some p) (hfree : freeHandle s = some h)
    (hcheck : checkCore n (ctxOf s c).ver s.rst.trayPos s.sec.slots core = .ok f) : loadTurn s c n core =
      if (liveStacks s p.dom).length < f.minStacks then turnEnd s stFmlaStacks
      else if t2Free s p.dom < f.weightBytes + f.constData.length + reserveBytes f then turnEnd s stFmlaCapacity
      else some ⟨createInst s c h p.dom f, stOk, h, some h, none⟩ := by
  simp only [loadTurn, hfree, domOfCtx_of_prov hprov, hcheck]

end

/-- An entry of the handles' table is set, and the others stand as before. -/
theorem instPut_insts (s : State) (h : Nat) (i : Inst) : InstPut s { s with insts := tabPut s.insts h i } h i :=
  ⟨tabFind_put_same _ _ _, fun _ hy => tabFind_put_other _ _ hy, rfl⟩

/-- Without PIN hints a new entry is LOADING under its handle, its units have homes, and nothing else changes. -/
theorem createInst_spec {s : State} {c h dom : Nat} {f : Formula} (hpins : (f.hints.filter fun q => q.kind = 1) = []) :
    tabFind (createInst s c h dom f).insts h = some ⟨.loading, f, fnOf s c, dom, c, [], [], needsExchange f s.rst.trayPos⟩ ∧
      (∀ y, y ≠ h → tabFind (createInst s c h dom f).insts y = tabFind s.insts y) ∧
      createInst s c h dom f = { s with insts := (createInst s c h dom f).insts, plc := (createInst s c h dom f).plc } := by
  rw [createInst, hpins]
  exact ⟨tabFind_put_same _ _ _, fun _ hy => tabFind_put_other _ _ hy, rfl⟩

/-! ### The turn of a chunk -/

section
variable {s : State} {c : Nat} {j : BitVec 32} {h : BitVec 8} {data : List Byte} {i : Inst}

/-- A chunk that its Formula awaits ends at once where it is committed, fails the Formula where its length or digest differs, and else is
committed. -/
theorem turnOf_chunkRead {g : ChunkDecl} (hturn : turnRefusal s c (.chunk 0#64 j h) = none) (hi : tabFind s.insts h.toNat = some i)
    (hg : i.f.chunks[j.toNat]? = some g) : turnOf s c (.chunkRead data j.toNat h.toNat) =
      if (tabFind i.chunks j.toNat).isSome then some ⟨s, stOk, 0, none, none⟩
      else if data.length ≠ g.length ∨ sha384 data ≠ g.digest then
        some ⟨{ s with insts := tabPut s.insts h.toNat { i with st := .failed } }, stFmlaDigest, 0, none, some h.toNat⟩
      else some ⟨{ s with insts := tabPut s.insts h.toNat { i with chunks := tabPut i.chunks j.toNat data } }, stOk, 0, some h.toNat, none⟩ := by
  show chunkTurn s c h.toNat j.toNat (some data) = _
  simp only [chunkTurn, BitVec.ofNat_toNat, BitVec.setWidth_eq, hturn, hi, hg]
  rfl

end

/-! ### The way to READY -/

section
variable {s : State} {h : Nat} {i : Inst}

/-- A Formula without chunks waits for the entry of its load. -/
theorem checkReady_of_owed (hi : tabFind s.insts h = some i) (hnone : i.f.chunks = []) (howed : loadOwed s i h = true) : checkReady s h = s := by
  simp [checkReady, hi, hnone, howed]

/-- A loading Formula with every chunk that awaits no exchange is tiled, becomes READY and is told. -/
theorem checkReady_of_complete (hi : tabFind s.insts h = some i) (hst : i.st = .loading) (hex : i.exchange = false)
    (hchunks : i.chunks.length = i.f.chunks.length) (howed : i.f.chunks = [] → loadOwed s i h = false) :
    checkReady s h = event { tileInst s h with insts := tabPut (tileInst s h).insts h { i with st := .ready } } i.ctx (evtEntry 0x04 h stOk 0) := by
  simp only [checkReady, hi]
  refine if_pos ?_
  have hwritten : (decide (i.f.chunks = []) && loadOwed s i h) = false := by
    by_cases hnone : i.f.chunks = []
    · rw [howed hnone, Bool.and_false]
    · rw [decide_eq_false hnone, Bool.false_and]
  rw [hst, hex, hwritten, decide_eq_true hchunks]
  rfl

end

section
variable {s : State} {hd : BitVec 6} {i : Inst}

theorem exec_summaryExchangeDone_of_awaited (sums : List (Nat × List Summary)) (hi : tabFind s.insts hd.toNat = some i) (hst : i.st = .loading)
    (hex : i.exchange = true) (hchunks : i.chunks.length = i.f.chunks.length) :
    exec (.summaryExchangeDone hd sums) s =
      .next (checkReady { s with insts := tabPut s.insts hd.toNat { i with exchange := false, shards := shardSums i sums } } hd.toNat) := by
  show execSummaryExchangeDone hd sums s = _
  simp only [execSummaryExchangeDone, hi]
  exact if_pos (by simp [hst, hex, hchunks])

theorem exec_summaryExchangeDone_of_none (sums : List (Nat × List Summary)) (hi : tabFind s.insts hd.toNat = none) :
    exec (.summaryExchangeDone hd sums) s = .next s := by
  show execSummaryExchangeDone hd sums s = _
  simp only [execSummaryExchangeDone, hi]

/-! ### The end of a loaded Formula -/

theorem exec_unloadReleaseDone_of_none (hi : tabFind s.insts hd.toNat = none) : exec (.unloadReleaseDone hd) s = .next s := by
  show execUnloadReleaseDone hd s = _
  simp only [execUnloadReleaseDone, hi]

/-- A unit that holds weights of a handle's Formula. -/
def weightUnitOf (h : Nat) (u : Machine.PUnit) : Bool := (u.key.kind = .granule || u.key.kind = .expert) && u.key.owner = h

theorem mem_filter_not_weightUnitOf (h : Nat) (us : List Machine.PUnit) (u : Machine.PUnit) :
    u ∈ us.filter (fun u => !weightUnitOf h u) ↔ u ∈ us ∧ ¬ ((u.key.kind = .granule ∨ u.key.kind = .expert) ∧ u.key.owner = h) := by
  rw [List.mem_filter, Bool.not_eq_true', Bool.eq_false_iff]
  simp [weightUnitOf]

/-- The device without a handle's Formula: its tilings, weight units and pools are gone, and the granules that held them are to be zeroed. -/
def released (s : State) (h : Nat) (i : Inst) : State :=
  { dropTilings s i.dom h with
    insts := tabDel s.insts h
    plc := { s.plc with
      units := s.plc.units.filter fun u => !weightUnitOf h u
      pools := s.plc.pools.map fun p => if p.inst = h then ⟨64, 0, 0, 0, []⟩ else p }
    mem := markPending s.mem fun g => decide (Config.granuleInst g = some h) }

theorem exec_unloadReleaseDone_of_unloading (hi : tabFind s.insts hd.toNat = some i) (hst : i.st = .unloading) :
    exec (.unloadReleaseDone hd) s = .next (released s hd.toNat i) := by
  show execUnloadReleaseDone hd s = _
  simp only [execUnloadReleaseDone, hi, hst]
  rfl

end

/-- Settles O20: what a channel brought is kept by `settle_setWork_goesOn`; the turns are those of `loadTurn_of_checked` and
`turnOf_chunkRead`; a loaded Formula becomes READY by `checkReady_of_complete` and is gone as `released` says. -/
theorem formulaLoading : Obligations.FormulaLoading := by
  unfold Obligations.FormulaLoading
  intro s c hd
  refine ⟨fun core hclosed => ⟨s, exec_coreReadDone_of_notOpen core hclosed, rfl⟩,
    fun core a n m hwork hserving => ⟨_, exec_coreReadDone_of_open core hwork hserving, settle_setWork_goesOn _ _ _⟩,
    fun a core n p hprov => ⟨fun hfree => loadTurn_of_noHandle hfree, fun h st hfree hcheck => loadTurn_of_refused hprov hfree hcheck,
      fun h f hfree hcheck => ?_⟩,
    fun data hclosed => ⟨s, exec_chunkVerified_of_notOpen data hclosed, rfl⟩,
    fun data a j h m hwork hserving => ⟨_, exec_chunkVerified_of_open data hwork hserving, settle_setWork_goesOn _ _ _⟩,
    fun data j h i g hturn hi hg => ?_,
    fun sums i hi hst hex hchunks => ⟨_, exec_summaryExchangeDone_of_awaited sums hi hst hex hchunks, _, instPut_insts s _ _, rfl⟩,
    fun h i hi hst hex hchunks => ⟨fun hnone howed => checkReady_of_owed hi hnone howed,
      fun howed => ⟨_, instPut_insts _ h _, checkReady_of_complete hi hst hex hchunks howed⟩⟩,
    fun sums hi => ⟨⟨s, exec_summaryExchangeDone_of_none sums hi, rfl⟩, s, exec_unloadReleaseDone_of_none hi, rfl⟩,
    fun i hi hst => ⟨_, exec_unloadReleaseDone_of_unloading hi hst, _, rfl, tabFind_del_same _ _, fun _ hy => tabFind_del_other _ hy,
      fun u => mem_filter_not_weightUnitOf _ _ u, rfl⟩⟩
  · have hload := loadTurn_of_checked (core := core) hprov hfree hcheck
    refine ⟨fun hstacks => hload.trans (if_pos hstacks), fun hstacks hroom => hload.trans ?_, fun hstacks hroom => ⟨_, rfl, hload.trans ?_, createInst_spec⟩⟩
    · rw [if_neg (Nat.not_lt.mpr hstacks), if_pos hroom]
      rfl
    · rw [if_neg (Nat.not_lt.mpr hstacks), if_neg (Nat.not_lt.mpr hroom)]
  · have hchunk := turnOf_chunkRead (data := data) hturn hi hg
    refine ⟨fun hheld => hchunk.trans (if_pos hheld), fun hnew hlen hdig => ⟨_, instPut_insts s _ _, hchunk.trans ?_⟩,
      fun hnew hwrong => ⟨_, instPut_insts s _ _, hchunk.trans ?_⟩⟩
    · rw [hnew, if_neg (by simp), if_neg (by simp [hlen, hdig])]
    · rw [hnew, if_neg (by simp), if_pos hwrong]

end Sys2Proof.Proofs
end

section
/-!
Releases, hold timers and deadlines (05_placement.md R141, R161; 09_host_rings.md R313, R323, R328).
-/
namespace Sys2Proof.Proofs
open Sys2Proof Sys2Proof.Machine

/-! ### One context changed -/

theorem modCtx_ctxPut (s : State) (c : Nat) (f : Ctx → Ctx) : CtxPut s (modCtx s c f) c (f (ctxOf s c)) := setCtx_ctxPut s c _

/-! ### Output that ends short -/

/-- The ARITH flag of the entry that the end of an output writes (09 R314). -/
def outputArith (o : Output) : Bool :=
  match o.fin with | some (.step a) => a | some (.request _ _ a) => a | none => false

/-- A context whose output is discarded under its frame's number (09 R323). -/
def discardOutput (k : Ctx) : Ctx :=
  { k with output := none, holdTimer := none, trunc := satAdd 32 k.trunc 1, stopped := some k.frameSeq, frameSeq := (k.frameSeq + 1) % 2 ^ 32 }

/-- The OUTPUT_STOPPED entry of an output whose frame `f` is partly written and whose frames `fs` have not begun (09 R317, R323). -/
def stoppedEntry (k : Ctx) (status : Nat) (f : Frame) (fs : List Frame) : Entry :=
  evtEntry 0x06 0 status (k.frameSeq + 2 ^ 32 * f.seg + 2 ^ 64 * ((f.payload.length - f.off) + (fs.map fun g => g.payload.length).sum))

/-- Output that ends short is discarded, reported, and ends the running request. -/
theorem truncateOutput_of_frames {s : State} {c status : Nat} {o : Output} {f : Frame} {fs : List Frame} (ho : (ctxOf s c).output = some o)
    (hf : o.frames = f :: fs) :
    truncateOutput s c status = modCtx (event (setCtx s c (discardOutput (ctxOf s c))) c (stoppedEntry (ctxOf s c) status f fs)) c
      fun q => endRequest q status (endPayload q 0) (outputArith o) := by
  unfold truncateOutput
  simp only [ho, hf]
  rfl

section
variable {s : State} {c : BitVec 12} {lim : Nat} (hlim : (ctxOf s c.toNat).holdTimer = some lim)
include hlim

theorem exec_holdTimerExpiry_of_waiting (hrun : ¬ RunOut s lim) : exec (.holdTimerExpiry c) s = .next s := by
  show execHoldTimerExpiry c s = _
  simp [execHoldTimerExpiry, hlim, (ranOut_eq_false_iff s lim).mpr hrun]

theorem exec_holdTimerExpiry_of_runOut (hrun : RunOut s lim) :
    exec (.holdTimerExpiry c) s = .next (settle (truncateOutput s c.toNat stTruncated) c.toNat) := by
  show execHoldTimerExpiry c s = _
  simp [execHoldTimerExpiry, hlim, (ranOut_eq_true_iff s lim).mpr hrun]

end

/-! ### Requests whose deadline has run out -/

theorem markDue_of_closed (s : State) {a : Adm} (h : openRequest a = false) : markDue s a = a := by simp [markDue, h]

theorem markDue_of_notDue {s : State} {a : Adm} (h : ∀ lim, a.deadline = some lim → ¬ RunOut s lim) : markDue s a = a := by
  cases hlim : a.deadline with
  | none => simp [markDue, hlim]
  | some lim => simp [markDue, hlim, (ranOut_eq_false_iff s lim).mpr (h lim hlim)]

/-- A request that is due is to end with ST_DEADLINE, unless an earlier CANCEL has given it its end (09 R313). -/
theorem markDue_of_due {s : State} {a : Adm} {r : Request} {lim : Nat} (hwork : a.work = .request r) (hdone : a.done = none)
    (hlim : a.deadline = some lim) (hrun : RunOut s lim) :
    markDue s a = { a with work := .request { r with endWith := some (r.endWith.getD stDeadline) }, deadline := none } := by
  have hopen : openRequest a = true := by simp [openRequest, hwork, hdone]
  simp [markDue, endLater, hopen, hwork, hlim, (ranOut_eq_true_iff s lim).mpr hrun]

theorem markDues_length (s : State) (held : Bool) (as : List Adm) : (markDues s held as).length = as.length := by
  induction as with
  | nil => rfl
  | cons a as ih =>
    unfold markDues
    split
    · simp
    · simp [ih]

/-- No request is open before place `j` of a queue. -/
def NoneOpenBefore (as : List Adm) (j : Nat) : Prop := ∀ (m : Nat) b, m < j → as[m]? = some b → openRequest b = false

theorem noneOpenBefore_zero (as : List Adm) : NoneOpenBefore as 0 := fun _ _ h => absurd h (Nat.not_lt_zero _)

theorem noneOpenBefore_cons_succ (a : Adm) (as : List Adm) (j : Nat) :
    NoneOpenBefore (a :: as) (j + 1) ↔ openRequest a = false ∧ NoneOpenBefore as j := by
  refine ⟨fun h => ⟨h 0 a (Nat.succ_pos j) rfl, fun m b hm hb => h (m + 1) b (Nat.succ_lt_succ hm) hb⟩, fun ⟨ha, h⟩ m b hm hb => ?_⟩
  cases m with
  | zero => exact Option.some.inj hb ▸ ha
  | succ m => exact h m b (Nat.lt_of_succ_lt_succ hm) hb

/-- The running request of a context held for space stays as it is (05 R161). -/
theorem markDues_getElem?_of_held (s : State) {as : List Adm} {j : Nat} (h : NoneOpenBefore as j) : (markDues s true as)[j]? = as[j]? := by
  induction as generalizing j with
  | nil => rfl
  | cons a as ih =>
    unfold markDues
    cases j with
    | zero => split <;> rfl
    | succ j =>
      obtain ⟨ha, hlater⟩ := (noneOpenBefore_cons_succ a as j).mp h
      rw [if_neg (by simp [ha])]
      exact ih hlater

/-- Every other request is marked where it is due. -/
theorem markDues_getElem?_of_notHeld (s : State) {held : Bool} {as : List Adm} {j : Nat} (h : ¬ (held = true ∧ NoneOpenBefore as j)) :
    (markDues s held as)[j]? = as[j]?.map (markDue s) := by
  induction as generalizing j with
  | nil => rfl
  | cons a as ih =>
    unfold markDues
    cases j with
    | zero =>
      have hfree : held = false := by simpa [noneOpenBefore_zero] using h
      split
      · simp [hfree]
      · next ha => simp [markDue_of_closed s (eq_false_of_ne_true ha)]
    | succ j =>
      split
      · exact List.getElem?_map
      · next ha =>
        refine ih fun ⟨hheld, hbefore⟩ => h ⟨hheld, ?_⟩
        exact (noneOpenBefore_cons_succ a as j).mpr ⟨eq_false_of_ne_true ha, hbefore⟩

/-- Settles O13: `truncateOutput_of_frames` gives the end of output, and `markDues_getElem?_of_held` and `markDues_getElem?_of_notHeld` the
place of the queue that DEADLINE_EXPIRY leaves or marks. -/
theorem releaseAndExpiry : Obligations.ReleaseAndExpiry := by
  unfold Obligations.ReleaseAndExpiry
  intro s c k
  refine ⟨?_, fun lim hlim hrun => ⟨s, exec_holdTimerExpiry_of_waiting hlim hrun, rfl⟩, fun lim o f fs hlim hrun ho hf => ?_, ?_⟩
  · obtain ⟨hctx, hother, hrest⟩ := modCtx_ctxPut s c.toNat fun k => { k with output := k.output.map fun o => { o with homes := true } }
    exact ⟨_, rfl, _, rfl, hrest, hother, hctx⟩
  · obtain ⟨hctx, hother, hrest⟩ := setCtx_ctxPut s c.toNat (discardOutput k)
    refine ⟨_, exec_holdTimerExpiry_of_runOut hlim hrun, _, _, rfl, hrest, hother, hctx, _, rfl, ?_⟩
    rw [truncateOutput_of_frames ho hf]
    obtain ⟨hended, hothers, hkept⟩ := modCtx_ctxPut (event (setCtx s c.toNat (discardOutput k)) c.toNat (stoppedEntry k stTruncated f fs)) c.toNat
      fun q => endRequest q stTruncated (endPayload q 0) (outputArith o)
    exact ⟨hkept, hothers, _, hended⟩
  · obtain ⟨hctx, hother, hrest⟩ := modCtx_ctxPut s c.toNat fun k => { k with queue := markDues s k.space.isSome k.queue }
    have hqueue := congrArg Ctx.queue hctx
    refine ⟨_, rfl, _, rfl, hrest, hother, (congrArg List.length hqueue).trans (markDues_length _ _ _), fun j a ha => ?_⟩
    intro held
    have hheld : held ↔ k.space.isSome = true ∧ NoneOpenBefore k.queue j := by
      rw [Option.isSome_iff_ne_none]
      rfl
    rw [hqueue]
    by_cases h : held
    · obtain ⟨hspace, hbefore⟩ := hheld.mp h
      have hsame : (markDues s k.space.isSome k.queue)[j]? = some a := by rw [hspace, markDues_getElem?_of_held s hbefore, ha]
      exact ⟨fun _ => hsame, fun r lim hfree => absurd h hfree⟩
    · rw [markDues_getElem?_of_notHeld s (mt hheld.mpr h), ha]
      refine ⟨?_, fun r lim _ hwork hdone hlim hrun => congrArg some (markDue_of_due hwork hdone hlim hrun)⟩
      rintro (hclosed | hspace | hdue)
      · exact congrArg some (markDue_of_closed s hclosed)
      · exact absurd hspace h
      · exact congrArg some (markDue_of_notDue hdue)

end Sys2Proof.Proofs
end

section
/-!
Placement lookups and new tilings (05_placement.md R163 to R165, R178, R179).
-/
namespace Sys2Proof.Proofs
open Sys2Proof Sys2Proof.Machine

/-- A register that is stored is read back, every other register reads as before, and nothing else changes. -/
theorem regPut_spec (s : State) (off : Nat) (v : Word) :
    regVal (regPut s off v) off = v ∧ OtherRegs [off] s (regPut s off v) ∧
    regPut s off v = { s with rf := { s.rf with vals := (regPut s off v).rf.vals } } :=
  ⟨regVal_regPut_same s off v, fun _ ho => regVal_regPut_other s v (mt List.mem_singleton.mpr ho), rfl⟩

/-! ### Lookups -/

theorem exec_placementQuery_of_ignored {s : State} {r : Requester} (idx : Word) (hr : r = .host) (hbars : barsOff s = true) :
    exec (.placementQuery r idx) s = .next s := by
  show execPlacementQuery r idx s = _
  simp [execPlacementQuery, hr, hbars]

/-- A lookup starts at the write of its index (05 R178). -/
theorem exec_placementQuery_of_served {s : State} {r : Requester} (idx : Word) (hbars : r = .host → barsOff s = false) :
    exec (.placementQuery r idx) s = .next { regPut s 0x1000044 idx with
      plc := { s.plc with lookup := some ((selVal s r 0x1000040).toNat, regBits s 0x1000048 15 0, idx.toNat), res0 := 0#32, res1 := 0#32 } } := by
  show execPlacementQuery r idx s = _
  unfold execPlacementQuery
  rw [if_neg (by simpa using hbars)]
  rfl

theorem exec_placementQueryDone_of_none {s : State} (h : s.plc.lookup = none) : exec .placementQueryDone s = .next s := by
  show execPlacementQueryDone s = _
  simp only [execPlacementQueryDone, h]

theorem exec_placementQueryDone_of_some {s : State} {sel ctx i : Nat} (h : s.plc.lookup = some (sel, ctx, i)) :
    exec .placementQueryDone s = .next { s with
      plc := { s.plc with lookup := none, res0 := (lookupResult s sel ctx i).1, res1 := (lookupResult s sel ctx i).2 } } := by
  show execPlacementQueryDone s = _
  simp only [execPlacementQueryDone, h]

section
variable {s : State} {sel ctx i : Nat}

theorem lookupResult_of_denied (hden : lookupDenied s (sel % 64) = true) : lookupResult s sel ctx i = (0xC0000000#32, 0#32) := if_pos hden

theorem lookupResult_of_notFound (hden : lookupDenied s (sel % 64) = false) (hu : lookupUnit s sel ctx i = none) :
    lookupResult s sel ctx i = (0xA0000000#32, 0#32) := by
  simp [lookupResult, hden, hu]

variable {u : Machine.PUnit} (hden : lookupDenied s (sel % 64) = false) (hu : lookupUnit s sel ctx i = some u)
include hden hu

/-- Wherever a unit lies, its heat is the second result (05 R179). -/
theorem lookupResult_heat : (lookupResult s sel ctx i).2 = BitVec.ofNat 32 u.heat := by
  simp [lookupResult, hden, hu]

theorem lookupResult_of_t0 {n : Nat} (h0 : u.t0 = some n) : (lookupResult s sel ctx i).1 = placedWord u.pin0 u.moving 0 n := by
  simp [lookupResult, hden, hu, h0]

theorem lookupResult_of_t1 {n : Nat} (h0 : u.t0 = none) (h1 : u.t1 = some n) : (lookupResult s sel ctx i).1 = placedWord u.pin1 u.moving 1 n := by
  simp [lookupResult, hden, hu, h0, h1]

theorem lookupResult_of_port {n : Nat} (h0 : u.t0 = none) (h1 : u.t1 = none) (hhome : u.home = .port n) :
    (lookupResult s sel ctx i).1 = placedWord false u.moving 2 n := by
  simp [lookupResult, hden, hu, h0, h1, hhome]

theorem lookupResult_of_peer {n : Nat} (h0 : u.t0 = none) (h1 : u.t1 = none) (hhome : u.home = .peer n) :
    (lookupResult s sel ctx i).1 = placedWord false u.moving 3 n := by
  simp [lookupResult, hden, hu, h0, h1, hhome]

end

/-! ### New tilings -/

section
variable {s : State} {d : BitVec 3}

theorem exec_tilingsInstalled_of_waiting (h : (domOf s d.toNat).phase = .running ∨ tilingsDue (domOf s d.toNat) = false) :
    exec (.tilingsInstalled d) s = .next (modDom s d.toNat fun y => { y with installing := true }) := by
  show execTilingsInstalled d s = _
  unfold execTilingsInstalled
  exact if_pos (by simpa using h)

theorem exec_tilingsInstalled_of_due (hphase : (domOf s d.toNat).phase ≠ .running) (hdue : tilingsDue (domOf s d.toNat) = true) :
    exec (.tilingsInstalled d) s = .next (installTilings s d.toNat) := by
  show execTilingsInstalled d s = _
  unfold execTilingsInstalled
  exact if_neg (by simp [hphase, hdue])

end

/-- Settles O21: the commands' equations, and for the end of a lookup the result of each case of its unit (`lookupResult_of_…`). -/
theorem placementQueries : Obligations.PlacementQueries := by
  unfold Obligations.PlacementQueries
  intro s r idx
  refine ⟨fun hr hbars => ⟨s, exec_placementQuery_of_ignored idx hr hbars, rfl⟩, fun hbars => ?_,
    fun hnone => ⟨s, exec_placementQueryDone_of_none hnone, rfl⟩, fun sel ctx i hlookup => ?_, fun d => ⟨fun hwait => ?_, fun hphase hdue => ?_⟩⟩
  · obtain ⟨hidx, hother, -⟩ := regPut_spec s 0x1000044 idx
    exact ⟨_, exec_placementQuery_of_served idx hbars, hidx, hother, rfl⟩
  · refine ⟨_, exec_placementQueryDone_of_some hlookup, rfl, fun hden => Prod.mk.inj (lookupResult_of_denied hden),
      fun hden hu => Prod.mk.inj (lookupResult_of_notFound hden hu), fun u n hden hu h0 => ?_, fun u n hden hu h0 h1 => ?_, fun u n hden hu h0 h1 => ?_⟩
    · exact ⟨lookupResult_of_t0 hden hu h0, lookupResult_heat hden hu⟩
    · exact ⟨lookupResult_of_t1 hden hu h0 h1, lookupResult_heat hden hu⟩
    · exact ⟨lookupResult_of_port hden hu h0 h1, lookupResult_of_peer hden hu h0 h1, lookupResult_heat hden hu⟩
  · exact ⟨_, exec_tilingsInstalled_of_waiting hwait, modDom_domPut s d.toNat _⟩
  · exact ⟨_, exec_tilingsInstalled_of_due hphase hdue, rfl⟩

end Sys2Proof.Proofs
end

section
/-!
Capacity requests and drains (05_placement.md R169 to R171, R181; 13_tenancy_security.md R426).
-/
namespace Sys2Proof.Proofs
open Sys2Proof Sys2Proof.Machine

/-! ### The request -/

/-- The device that holds a request of a unit in PLC_CAP_CTL (05 R181). -/
def askedCap (s : State) (a : Nat) (k : BitVec 2) (n : BitVec 3) : State :=
  regPut s 0x10000C0 (BitVec.ofNat 32 (a * 256 + k.toNat * 16 + n.toNat))

/-- A write is ignored while the block is locked, and the host's while the BARs are not served. -/
theorem askCap_of_ignored {s : State} {r : Requester} (a k n : Nat) (h : locked s 0x10000C0 = true ∨ (r = .host ∧ barsOff s = true)) :
    askCap r a k n s = s := by
  rcases h with hlock | ⟨hr, hbars⟩
  · simp [askCap, writeCapCtl, hlock]
  · simp [askCap, hr, hbars]

section
variable {s : State} {r : Requester} (hlock : locked s 0x10000C0 = false) (hbars : r = .host → barsOff s = false)
include hlock hbars

/-- A write that is taken stores the request and submits it. -/
theorem askCap_of_taken {a : Nat} (ha : a < 4) (k : BitVec 2) (n : BitVec 3) :
    askCap r a k.toNat n.toNat s =
      if a = 1 then capRemove (askedCap s a k n) k.toNat n.toNat
      else if a = 2 then capReturn (askedCap s a k n) k.toNat n.toNat
      else refuseCap (askedCap s a k n) (if s.plc.capRun.isSome then 1 else 2) := by
  have hword : a % 4 * 256 + k.toNat % 4 * 16 + n.toNat % 8 = a * 256 + k.toNat * 16 + n.toNat := by
    rw [Nat.mod_eq_of_lt ha, Nat.mod_eq_of_lt k.isLt, Nat.mod_eq_of_lt n.isLt]
  unfold askCap writeCapCtl
  rw [if_neg (by simpa using hbars), hword, hlock]
  rfl

theorem exec_capacityRemove_of_taken (k : BitVec 2) (n : BitVec 3) :
    exec (.capacityRemove r ⟨k, n⟩) s = .next (capRemove (askedCap s 1 k n) k.toNat n.toNat) :=
  congrArg Host.Outcome.next (askCap_of_taken hlock hbars (by decide) k n)

theorem exec_capacityReturn_of_taken (k : BitVec 2) (n : BitVec 3) :
    exec (.capacityReturn r ⟨k, n⟩) s = .next (capReturn (askedCap s 2 k n) k.toNat n.toNat) :=
  congrArg Host.Outcome.next (askCap_of_taken hlock hbars (by decide) k n)

end

/-! ### Removals and returns -/

section
variable {s : State} {k n : Nat}

theorem capRemove_of_refused {c : Nat} (h : removeRefusal s k n = some c) : capRemove s k n = refuseCap s c := by
  simp only [capRemove, h]

theorem capRemove_of_accepted (h : removeRefusal s k n = none) : capRemove s k n = startDrain s k n := by
  simp only [capRemove, h]

theorem capReturn_of_underWay (hrun : s.plc.capRun ≠ none) : capReturn s k n = refuseCap s 1 := by
  simp [capReturn, firstFail, Option.isSome_iff_ne_none.mpr hrun]

variable (hrun : s.plc.capRun = none)
include hrun

/-- Only a unit that exists and is out of service, by a request or lost, can return (05 R169, R170). -/
theorem capReturn_of_notOut (h : capExists k n = false ∨ (capOf s k n ≠ .out ∧ capOf s k n ≠ .lost)) : capReturn s k n = refuseCap s 2 := by
  have hbad : (!capExists k n || (decide (capOf s k n ≠ .out) && decide (capOf s k n ≠ .lost))) = true := by simpa using h
  simp only [capReturn, hrun, hbad, firstFail, Option.isSome_none, Bool.false_eq_true, if_false, if_true]

theorem capReturn_of_lost (hex : capExists k n = true) (hlost : capOf s k n = .lost) : capReturn s k n = refuseCap s 5 := by
  simp [capReturn, firstFail, hrun, hex, hlost]

/-- The device in which the return of a unit is under way. -/
def returningCap (s : State) (k n : Nat) : State :=
  setCap { s with plc := { s.plc with capSt := 3, capReason := 0, capRun := some (false, k * 8 + n) } } k n .returning

theorem capReturn_of_out (hex : capExists k n = true) (hout : capOf s k n = .out) : capReturn s k n = wakeUnit (returningCap s k n) k n := by
  simp [capReturn, firstFail, hrun, hex, hout, returningCap]

end

/-- A capacity state that is set is read back. -/
@[simp] theorem capOf_setCap_same (s : State) (k n : Nat) (c : CapState) : capOf (setCap s k n c) k n = c := tabGet_set_same _ _ _ _

@[simp] theorem capOf_endCap (s : State) (st reason k n : Nat) : capOf (endCap s st reason) k n = capOf s k n := rfl

/-- Placement, contexts and instances are as before. -/
def PlacementKept (s t : State) : Prop := t.plc = s.plc ∧ t.ctxs = s.ctxs ∧ t.insts = s.insts

theorem PlacementKept.trans {s t u : State} (h : PlacementKept s t) (g : PlacementKept t u) : PlacementKept s u :=
  ⟨g.1.trans h.1, g.2.1.trans h.2.1, g.2.2.trans h.2.2⟩

/-- A power domain that switches on changes the power state alone. -/
theorem powerOn_placementKept (s : State) (p : Nat) : PlacementKept s (powerOn s p) := by
  unfold powerOn
  dsimp only
  split
  · exact ⟨rfl, rfl, rfl⟩
  · split <;> exact ⟨rfl, rfl, rfl⟩

theorem markDieReset_placementKept (s : State) : PlacementKept s (markDieReset s) := by
  simp [PlacementKept, markDieReset, raiseBit]

/-- The dies of a unit wake without a change of what is placed. -/
theorem wakeUnit_placementKept (s : State) (k n : Nat) : PlacementKept s (wakeUnit s k n) := by
  have hdies := List.foldlRecOn (motive := PlacementKept s) (capDies k n)
    (fun t i => powerOn (modDie t i fun x => { x with st := .ramping, returning := false }) (pdOfDie i)) ⟨rfl, rfl, rfl⟩
    fun t ht i _ => ht.trans (powerOn_placementKept (modDie t i _) _)
  exact hdies.trans (markDieReset_placementKept _)

/-! ### The end of a drain -/

section
variable {s : State} {k : BitVec 2} {n : BitVec 3}

/-- Nothing holds back the end of a drain of a unit: it is the one under way, no operation runs on the unit, no bytes are left to move, and
no fault of its dies waits (05 R171). -/
def DrainDone (s : State) (k n : Nat) : Prop :=
  s.plc.capRun = some (true, k * 8 + n) ∧ drainBusy s k n = false ∧ drainBytes s k n = 0 ∧ (capDies k n).any (faultPending s) = false

theorem exec_drainComplete_of_heldBack (h : s.plc.capRun ≠ some (true, k.toNat * 8 + n.toNat) ∨ drainBusy s k.toNat n.toNat = true ∨
    0 < drainBytes s k.toNat n.toNat ∨ (capDies k.toNat n.toNat).any (faultPending s) = true) : exec (.drainComplete k n) s = .next s := by
  show execDrainComplete k n s = _
  unfold execDrainComplete
  exact if_pos (by simpa only [Bool.or_eq_true, decide_eq_true_eq, or_assoc] using h)

/-- Whether the unit is a stack that moves to another domain (13 R426). -/
def stackMoves (s : State) (k n : Nat) : Bool := k = 0 && (match s.sec.moving with | some (m, _) => decide (m = n) | none => false)

theorem exec_drainComplete_of_done (h : DrainDone s k.toNat n.toNat) :
    exec (.drainComplete k n) s = .next (if stackMoves s k.toNat n.toNat && !slotsDrained s n.toNat then drainSlots s n.toNat
      else if stackMoves s k.toNat n.toNat then drainLeave s k.toNat n.toNat
      else endCap (setCap (drainLeave s k.toNat n.toNat) k.toNat n.toNat .out) 2 0) := by
  obtain ⟨hrun, hbusy, hbytes, hfault⟩ := h
  show execDrainComplete k n s = _
  unfold execDrainComplete
  rw [if_neg (by simp [hrun, hbusy, hbytes, hfault])]
  exact (apply_ite _ _ _ _).symm

end

/-- Settles O22: the request is kept by `askCap_of_taken` and judged by `capRemove_of_…` and `capReturn_of_…`; waking a unit leaves the request
by `wakeUnit_placementKept`; the end of a drain is `exec_drainComplete_of_done`. -/
theorem capacityChanges : Obligations.CapacityChanges := by
  unfold Obligations.CapacityChanges
  intro s r k n asked
  have hasked (a : Nat) : asked a (askedCap s a k n) := regPut_spec _ _ _
  refine ⟨fun hignored => ?_, fun hlock hbars => ?_, fun hheld => ⟨s, exec_drainComplete_of_heldBack hheld, rfl⟩,
    fun dest hrun hbusy hbytes hfault hstack hmoving => ?_, fun hrun hbusy hbytes hfault hmoving => ?_⟩
  · exact ⟨⟨_, congrArg Host.Outcome.next (askCap_of_ignored 1 _ _ hignored), rfl⟩, _, congrArg Host.Outcome.next (askCap_of_ignored 2 _ _ hignored), rfl⟩
  · have hremove := exec_capacityRemove_of_taken hlock hbars k n
    have hreturn := exec_capacityReturn_of_taken hlock hbars k n
    refine ⟨⟨_, hremove, _, hasked 1, fun c hc => capRemove_of_refused hc, capRemove_of_accepted⟩,
      fun hrun => ⟨_, hreturn, _, hasked 2, capReturn_of_underWay hrun⟩, fun hrun hnot => ⟨_, hreturn, _, hasked 2, capReturn_of_notOut hrun hnot⟩,
      fun hrun hex hlost => ⟨_, hreturn, _, hasked 2, capReturn_of_lost hrun hex hlost⟩, fun hrun hex hout => ⟨_, hreturn, _, hasked 2, ?_⟩⟩
    rw [capReturn_of_out (s := askedCap s 2 k n) hrun hex hout]
    obtain ⟨hplc, hctxs, hinsts⟩ := wakeUnit_placementKept (returningCap (askedCap s 2 k n) k.toNat n.toNat) k.toNat n.toNat
    have hcap : capOf (returningCap (askedCap s 2 k n) k.toNat n.toNat) k.toNat n.toNat = .returning := capOf_setCap_same _ _ _ _
    exact ⟨by rw [hplc]; rfl, by rw [hplc]; rfl, by rw [hplc]; rfl, by rw [capOf, hplc]; exact hcap, hctxs, hinsts⟩
  · have hexec := exec_drainComplete_of_done ⟨hrun, hbusy, hbytes, hfault⟩
    have hmoves : stackMoves s k.toNat n.toNat = true := by simp [stackMoves, hstack, hmoving]
    rw [hmoves, Bool.true_and, if_pos rfl] at hexec
    refine ⟨fun hslots => ⟨_, hexec, ?_⟩, fun hslots => ⟨_, hexec, ?_⟩⟩
    · rw [hslots]
      rfl
    · rw [hslots]
      rfl
  · have hmoves : stackMoves s k.toNat n.toNat = false := by simp [stackMoves, hmoving]
    have hexec := exec_drainComplete_of_done ⟨hrun, hbusy, hbytes, hfault⟩
    rw [hmoves, Bool.false_and, if_neg Bool.false_ne_true, if_neg Bool.false_ne_true] at hexec
    exact ⟨_, hexec, rfl, rfl, rfl, (capOf_endCap _ _ _ _ _).trans (capOf_setCap_same _ _ _ _), _, rfl, rfl⟩

end Sys2Proof.Proofs
end

section
/-!
Segments and selections (06_sillage.md R191, R193, R197, R204 to R207): the counts, one bank changed, and each command's equation, a case at a
time.
-/
namespace Sys2Proof.Proofs
open Sys2Proof Sys2Proof.Machine

/-! ### Counts -/

/-- Only the counts of the base keep their value before the tick's updates (07 R257). -/
theorem noteCount_of_notBase {s : State} {off : Nat} (h : baseCount off = false) : noteCount s off = s := by
  simp [noteCount, h]

theorem bump_of_notBase {s : State} {off : Nat} (n : Nat) (h : baseCount off = false) :
    bump s off n = regPut s off (BitVec.ofNat 32 (satAdd 32 (regVal s off).toNat n)) := by
  rw [bump, noteCount_of_notBase h]

theorem bump64_of_notBase {s : State} {lo : Nat} (n : Nat) (hlo : baseCount lo = false) (hhi : baseCount (lo + 4) = false) :
    bump64 s lo n = regPut (regPut s lo (BitVec.ofNat 32 (satAdd 64 (count64 s lo) n % 2 ^ 32))) (lo + 4)
      (BitVec.ofNat 32 (satAdd 64 (count64 s lo) n / 2 ^ 32)) := by
  rw [bump64, noteCount_of_notBase hlo, noteCount_of_notBase hhi]

theorem toNat_regVal_bump (s : State) (off n : Nat) : (regVal (bump s off n) off).toNat = min ((regVal s off).toNat + n) (2 ^ 32 - 1) := by
  rw [bump, regVal_regPut_same, BitVec.toNat_ofNat, satAdd]
  exact Nat.mod_eq_of_lt (by omega)

theorem regVal_bump_other (s : State) {off o : Nat} (n : Nat) (h : o ≠ off) : regVal (bump s off n) o = regVal s o :=
  regVal_regPut_other _ _ h

theorem regVal_bump64_other (s : State) {lo o : Nat} (n : Nat) (hlo : o ≠ lo) (hhi : o ≠ lo + 4) : regVal (bump64 s lo n) o = regVal s o :=
  (regVal_regPut_other _ _ hhi).trans (regVal_regPut_other _ _ hlo)

theorem count64_bump64 (s : State) (lo n : Nat) : count64 (bump64 s lo n) lo = min (count64 s lo + n) (2 ^ 64 - 1) := by
  have hlo : regVal (bump64 s lo n) lo = BitVec.ofNat 32 (satAdd 64 (count64 s lo) n % 2 ^ 32) :=
    (regVal_regPut_other _ _ (by omega)).trans (regVal_regPut_same _ _ _)
  have hhi : regVal (bump64 s lo n) (lo + 4) = BitVec.ofNat 32 (satAdd 64 (count64 s lo) n / 2 ^ 32) := regVal_regPut_same _ _ _
  rw [count64, hlo, hhi, BitVec.toNat_ofNat, BitVec.toNat_ofNat, satAdd]
  omega

/-- A count elsewhere leaves a 64-bit count. -/
theorem count64_bump (s : State) {lo off : Nat} (n : Nat) (hlo : lo ≠ off) (hhi : lo + 4 ≠ off) : count64 (bump s off n) lo = count64 s lo := by
  rw [count64, regVal_bump_other s n hlo, regVal_bump_other s n hhi, count64]

/-- A 64-bit count and a 32-bit one elsewhere, both of the Sillage, change their own registers alone. -/
theorem bump_bump64_spec (s : State) {lo off : Nat} (n m : Nat) (hlo : baseCount lo = false) (hhi : baseCount (lo + 4) = false)
    (hoff : baseCount off = false) (hne : off ≠ lo) (hne' : off ≠ lo + 4) :
    let t := bump (bump64 s lo n) off m
    t = { s with rf := { s.rf with vals := t.rf.vals } } ∧ OtherRegs [lo, lo + 4, off] s t ∧
    count64 t lo = min (count64 s lo + n) (2 ^ 64 - 1) ∧ (regVal t off).toNat = min ((regVal s off).toNat + m) (2 ^ 32 - 1) := by
  refine ⟨?_, fun o ho => ?_, ?_, ?_⟩
  · rw [bump_of_notBase m hoff, bump64_of_notBase n hlo hhi]
    rfl
  · obtain ⟨ho, hohi, hooff⟩ : o ≠ lo ∧ o ≠ lo + 4 ∧ o ≠ off := by simpa using ho
    exact (regVal_bump_other _ m hooff).trans (regVal_bump64_other s n ho hohi)
  · rw [count64_bump _ m hne.symm hne'.symm, count64_bump64]
  · rw [toNat_regVal_bump, regVal_bump64_other s n hne hne']

/-! ### One bank changed -/

theorem modBank_bankPut (s : State) (g : BitVec 3) (b : BitVec 4) (f : Bank → Bank) :
    BankPut s (modBank s g.toNat b.toNat f) g b (f (bankAt s g.toNat b.toNat)) := by
  refine ⟨bankAt_modBank_same _ _ _ _, fun g' b' hne => ?_, rfl⟩
  rw [bankAt_modBank, if_neg]
  intro hnumber
  have hb := b.isLt
  have hb' := b'.isLt
  exact hne.elim (fun h => h (BitVec.eq_of_toNat_eq (by omega))) fun h => h (BitVec.eq_of_toNat_eq (by omega))

/-! ### SEGMENT_DISPATCH -/

section
variable {s : State} {g : BitVec 3} {b : BitVec 4} {k : ScanKey} {x : Scan}

/-- Whether a bank takes no segment, whatever the scan: it does not serve, runs one, was due for calibration before this tick, or its group is
throttled. -/
def bankClosed (s : State) (g b : Nat) : Bool :=
  (bankAt s g b).st ≠ .inService || (bankAt s g b).seg.isSome || ((bankAt s g b).due && decide ((bankAt s g b).dueAt ≠ s.gt)) || groupThrottled s g

theorem exec_segmentDispatch_of_closed (h : bankClosed s g.toNat b.toNat = true) :
    exec (.segmentDispatch g b k) s = .next (nextCalibration s g.toNat) := if_pos h

theorem exec_segmentDispatch_of_noScan (h : (s.sil.scans.find? fun y => y.key = k) = none) :
    exec (.segmentDispatch g b k) s = .next (nextCalibration s g.toNat) := by
  show execSegmentDispatch g b k s = _
  unfold execSegmentDispatch
  simp only [h, ite_self]

/-- The pages of a segment that are spilled (06 R204). -/
def spilledOf (s : State) (g : Nat) (k : ScanKey) (x : Scan) : List Nat :=
  (dispatched s g k x).filter fun p => (pageGroup s k.ctx (scanTensor s k) p).2

/-- Bank time of a reserved context's scan counts in its step (13 R437). -/
def chargeStep (s : State) (c : Nat) (x : Scan) (time : Nat) : State :=
  if reservedScan s x then modCtx s c fun q => { q with stepTicks := q.stepTicks + time } else s

theorem chargeStep_of_reserved {c time : Nat} (h : reservedScan s x = true) :
    chargeStep s c x time = modCtx s c fun q => { q with stepTicks := q.stepTicks + time } := if_pos h

theorem chargeStep_of_notReserved {c time : Nat} (h : reservedScan s x = false) : chargeStep s c x time = s :=
  if_neg (Bool.eq_false_iff.mp h)

theorem chargeStep_spec (s : State) (c : Nat) (x : Scan) (time : Nat) :
    (reservedScan s x = true → ctxOf (chargeStep s c x time) c = { ctxOf s c with stepTicks := (ctxOf s c).stepTicks + time }) ∧
    (reservedScan s x = false → (chargeStep s c x time).ctxs = s.ctxs) ∧ OtherCtxs c s (chargeStep s c x time) ∧
    chargeStep s c x time = { s with ctxs := (chargeStep s c x time).ctxs } := by
  cases hres : reservedScan s x with
  | false =>
    rw [chargeStep_of_notReserved hres]
    exact ⟨nofun, fun _ => rfl, fun _ _ => rfl, rfl⟩
  | true =>
    rw [chargeStep_of_reserved hres]
    exact ⟨fun _ => ctxOf_modCtx_same s c _, nofun, (setCtx_ctxPut s c _).2.1, rfl⟩

/-- The device in which a scan's pages for a group have become a segment, its time charged, but no bank runs it yet. -/
def segmentFormed (s : State) (g : Nat) (k : ScanKey) (x : Scan) : State :=
  let time := segTicks x.integ (dispatched s g k x).length
  { chargeStep s k.ctx x time with sil := { s.sil with
      scans := s.sil.scans.map fun y => if y.key = k then
        { y with pages := y.pages.filter (!(dispatched s g k x).contains ·), spill := y.spill || decide (spilledOf s g k x ≠ []) } else y
      spill := ((spillNow s).1, (spillNow s).2.1, (spillNow s).2.2 + 8192 * (spilledOf s g k x).length)
      slice := (chargeSlice s x.dom time).sil.slice } }

/-- A bank that runs the segment; the operation of the scan's context is one of its users (06 R201). -/
def runsSegment (s : State) (g : Nat) (k : ScanKey) (x : Scan) (q : Bank) : Bank :=
  { q with seg := some ⟨k, dispatched s g k x, spilledOf s g k x, false⟩, users := (x.dom * 2 ^ 32 + seqOf s x.dom k.ctx) :: q.users }

section
variable (hscan : (s.sil.scans.find? fun y => y.key = k) = some x)
include hscan

theorem exec_segmentDispatch_of_refused (h : dispatched s g.toNat k x = [] ∨ mayScan s g.toNat x = false) :
    exec (.segmentDispatch g b k) s = .next (nextCalibration s g.toNat) := by
  have hrefused : (decide (dispatched s g.toNat k x = []) || !mayScan s g.toNat x) = true := by simpa using h
  show execSegmentDispatch g b k s = _
  unfold execSegmentDispatch
  simp only [hscan]
  exact (ite_congr rfl (fun _ => rfl) fun _ => if_pos hrefused).trans (ite_self _)

theorem exec_segmentDispatch_of_taken (hopen : bankClosed s g.toNat b.toNat = false) (hpages : dispatched s g.toNat k x ≠ [])
    (hmay : mayScan s g.toNat x = true) :
    exec (.segmentDispatch g b k) s = .next (modBank (segmentFormed s g.toNat k x) g.toNat b.toNat (runsSegment s g.toNat k x)) := by
  have htaken : ¬ (decide (dispatched s g.toNat k x = []) || !mayScan s g.toNat x) = true := by simp [hpages, hmay]
  show execSegmentDispatch g b k s = _
  unfold execSegmentDispatch
  simp only [hscan]
  refine (if_neg (Bool.eq_false_iff.mp hopen)).trans ((if_neg htaken).trans (congrArg Host.Outcome.next ?_))
  cases hres : reservedScan s x with
  | false =>
    simp only [segmentFormed, chargeStep_of_notReserved hres]
    rfl
  | true =>
    simp only [segmentFormed, chargeStep_of_reserved hres]
    rfl

end

end

/-! ### SEGMENT_COMPLETE -/

section
variable {s : State} {g : BitVec 3} {b : BitVec 4} {seg : Segment} {ys : List (BitVec 12)}

theorem exec_segmentComplete_of_fault (hfault : Instr.sillageBankFault g b ∈ s.pending) : exec (.segmentComplete g b ys) s = .next s :=
  if_pos (List.any_eq_true.mpr ⟨_, hfault, by simp⟩)

theorem exec_segmentComplete_of_free (hseg : (bankAt s g.toNat b.toNat).seg = none) : exec (.segmentComplete g b ys) s = .next s := by
  show execSegmentComplete g b ys s = _
  unfold execSegmentComplete
  simp only [hseg, ite_self]

/-- The device with the bank free. -/
def segmentFreed (s : State) (g : BitVec 3) (b : BitVec 4) : State := modBank s g.toNat b.toNat fun q => { q with seg := none }

/-- The device with the bank free and the segment's codes in its scan. -/
def codesJoined (s : State) (g : BitVec 3) (b : BitVec 4) (seg : Segment) (x : Scan) (ys : List (BitVec 12)) : State :=
  modScan (segmentFreed s g b) seg.scan fun y => { y with codes := y.codes ++ List.zip (segmentKeys x seg.pages) (ys.map BitVec.toInt) }

variable (hseg : (bankAt s g.toNat b.toNat).seg = some seg) (hfault : Instr.sillageBankFault g b ∉ s.pending)
include hseg hfault

/-- A segment whose bank has no fault in the tick frees it, with its codes where its scan still runs. -/
theorem exec_segmentComplete_of_running : exec (.segmentComplete g b ys) s =
    .next (nextCalibration ((s.sil.scans.find? fun x => x.key = seg.scan && !seg.dropped).elim (segmentFreed s g b) fun x =>
      bump (bump64 (codesJoined s g b seg x ys) 0x1C00080 (segmentKeys x seg.pages).length) 0x1C00098 seg.spilled.length) g.toNat) := by
  show execSegmentComplete g b ys s = _
  unfold execSegmentComplete
  dsimp only
  rw [if_neg]
  · simp only [hseg]
    cases s.sil.scans.find? fun x => x.key = seg.scan && !seg.dropped with
    | none => rfl
    | some x => rfl
  · intro hany
    obtain ⟨q, hq, hfails⟩ := List.any_eq_true.mp hany
    split at hfails
    · obtain ⟨rfl, rfl⟩ : _ ∧ _ := by simpa using hfails
      exact hfault hq
    · exact Bool.false_ne_true hfails

theorem exec_segmentComplete_of_scanGone (hgone : seg.dropped = true ∨ (s.sil.scans.find? fun x => x.key = seg.scan) = none) :
    exec (.segmentComplete g b ys) s = .next (nextCalibration (segmentFreed s g b) g.toNat) := by
  have hscan : (s.sil.scans.find? fun x => x.key = seg.scan && !seg.dropped) = none := by
    rcases hgone with hdropped | hnone
    · simp [hdropped]
    · exact List.find?_eq_none.mpr fun x hx hkey => List.find?_eq_none.mp hnone x hx (Bool.and_eq_true_iff.mp hkey).1
  rw [exec_segmentComplete_of_running hseg hfault, hscan, Option.elim_none]

theorem exec_segmentComplete_of_scan {x : Scan} (hkept : seg.dropped = false) (hscan : (s.sil.scans.find? fun x => x.key = seg.scan) = some x) :
    exec (.segmentComplete g b ys) s = .next (nextCalibration
      (bump (bump64 (codesJoined s g b seg x ys) 0x1C00080 (segmentKeys x seg.pages).length) 0x1C00098 seg.spilled.length) g.toNat) := by
  have hscan' : (s.sil.scans.find? fun x => x.key = seg.scan && !seg.dropped) = some x := by simpa [hkept] using hscan
  rw [exec_segmentComplete_of_running hseg hfault, hscan', Option.elim_some]

end

/-! ### SELECTION_FORM -/

section
variable {s : State} {k : ScanKey} {x : Scan}

/-- Whether a bank runs a segment of a scan whose codes count. -/
def scanRuns (s : State) (k : ScanKey) : Bool :=
  s.sil.banks.any fun e => match e.2.seg with | some g => g.scan = k && !g.dropped | none => false

variable (hscan : (s.sil.scans.find? fun y => y.key = k) = some x)
include hscan

theorem exec_selectionForm_of_outstanding (h : x.pages ≠ [] ∨ scanRuns s k = true ∨ x.codes.length ≠ x.hi - x.lo) :
    exec (.selectionForm k) s = .next s := by
  have hout : (decide (x.pages ≠ []) || scanRuns s k || decide (x.codes.length ≠ x.hi - x.lo)) = true := by simpa [or_assoc] using h
  show execSelectionForm k s = _
  unfold execSelectionForm
  simp only [hscan]
  exact if_pos hout

/-- The device in which the scan has ended. -/
def scanEnded (s : State) (k : ScanKey) : State := { s with sil := { s.sil with scans := s.sil.scans.filter fun x => x.key ≠ k } }

theorem exec_selectionForm_of_measured (hpages : x.pages = []) (hruns : scanRuns s k = false) (hcodes : x.codes.length = x.hi - x.lo) :
    let sel := selectKeys x.topk (guardWidth x.guard x.integ) x.codes
    exec (.selectionForm k) s = .next (addRecord (bump (bump64 (scanEnded s k) 0x1C00088 1) 0x1C00090 (b2n sel.2)) x.dom k.ctx
      ⟨k.pos0, k.op, k.head, b2n sel.2 + 16 * b2n x.spill, x.hi - x.lo, sel.1, 0⟩) := by
  have hdone : ¬ (decide (x.pages ≠ []) || scanRuns s k || decide (x.codes.length ≠ x.hi - x.lo)) = true := by simp [hpages, hruns, hcodes]
  show execSelectionForm k s = _
  unfold execSelectionForm
  simp only [hscan]
  exact if_neg hdone

end

/-- Settles O23: a dispatch is refused by `exec_segmentDispatch_of_…` or forms the segment of `segmentFormed`; the end of a segment and the
selection are their equations, with the counts of `bump_bump64_spec`. -/
theorem sillageScans : Obligations.SillageScans := by
  unfold Obligations.SillageScans
  intro s g b k q idle
  refine ⟨fun hclosed => ⟨_, exec_segmentDispatch_of_closed ?_, rfl⟩, fun hnone => ⟨_, exec_segmentDispatch_of_noScan hnone, rfl⟩,
    fun x hscan => ⟨fun hrefused => ⟨_, exec_segmentDispatch_of_refused hscan hrefused, rfl⟩, fun hst hfree hdue hthrottle hpages hmay => ?_⟩,
    fun hfree ys => ⟨_, exec_segmentComplete_of_free hfree, rfl⟩, fun hfault ys => ⟨_, exec_segmentComplete_of_fault hfault, rfl⟩,
    fun seg ys hseg hfault hgone => ⟨_, exec_segmentComplete_of_scanGone hseg hfault hgone, _, rfl, modBank_bankPut s g b _⟩,
    fun seg x ys hseg hfault hkept hscan => ?_,
    fun x hscan => ⟨fun hout => ⟨_, exec_selectionForm_of_outstanding hscan hout, rfl⟩, fun hpages hruns hcodes => ?_⟩⟩
  · simpa [bankClosed, Option.isSome_iff_ne_none, or_assoc] using hclosed
  · have hopen : bankClosed s g.toNat b.toNat = false := by
      rcases hdue with hdue | hnow
      · simp [bankClosed, q, hst, hfree, hdue, hthrottle]
      · simp [bankClosed, q, hst, hfree, hnow, hthrottle]
    obtain ⟨hbank, hother, -⟩ := modBank_bankPut (segmentFormed s g.toNat k x) g b (runsSegment s g.toNat k x)
    obtain ⟨hres, hshared, hctxs, hstep⟩ := chargeStep_spec s k.ctx x (segTicks x.integ (dispatched s g.toNat k x).length)
    exact ⟨_, exec_segmentDispatch_of_taken hscan hopen hpages hmay, hbank, hother, rfl, rfl, rfl, hres, hshared, hctxs,
      congrArg (fun u : State => { u with sil := (modBank (segmentFormed s g.toNat k x) g.toNat b.toNat (runsSegment s g.toNat k x)).sil }) hstep⟩
  · obtain ⟨hrf, hregs, hkeys, hspilled⟩ := bump_bump64_spec (codesJoined s g b seg x ys) (lo := 0x1C00080) (off := 0x1C00098)
      (segmentKeys x seg.pages).length seg.spilled.length rfl rfl rfl (by decide) (by decide)
    exact ⟨_, exec_segmentComplete_of_scan hseg hfault hkept hscan, segmentFreed s g b, codesJoined s g b seg x ys, _, rfl, modBank_bankPut s g b _, rfl,
      hrf, hregs, hkeys, hspilled⟩
  · obtain ⟨hrf, hregs, hcount, -⟩ := bump_bump64_spec (scanEnded s k) (lo := 0x1C00088) (off := 0x1C00090) 1
      (b2n (selectKeys x.topk (guardWidth x.guard x.integ) x.codes).2) rfl rfl rfl (by decide) (by decide)
    exact ⟨_, exec_selectionForm_of_measured hscan hpages hruns hcodes, _, hrf, hregs, hcount, rfl⟩

end Sys2Proof.Proofs
end

section
/-!
Calibrations and bank faults (06_sillage.md R200 to R203, R206, R207): each command's equation, a case at a time.
-/
namespace Sys2Proof.Proofs
open Sys2Proof Sys2Proof.Machine

/-! ### The times of calibrations, and faults -/

section
variable {s : State} {g : BitVec 3} {b : BitVec 4}

theorem exec_calibrationDue_of_due {temp : Option (BitVec 16)} (hst : (bankAt s g.toNat b.toNat).st = .inService) (hquiet : temp ≠ none ∨ quiet s = true)
    (hdue : calDue s b.toNat (bankAt s g.toNat b.toNat) (temp.map BitVec.toInt) = true) : exec (.calibrationDue ⟨g, b⟩ temp) s =
      .next (nextCalibration (modBank s g.toNat b.toNat fun q => { q with due := true, dueAt := s.gt }) g.toNat) :=
  if_pos (by simpa [hst, hdue, Option.isSome_iff_ne_none] using hquiet)

theorem exec_calibrationDue_of_notDue {temp : Option (BitVec 16)} (h : (bankAt s g.toNat b.toNat).st ≠ .inService ∨ (temp = none ∧ quiet s = false) ∨
      calDue s b.toNat (bankAt s g.toNat b.toNat) (temp.map BitVec.toInt) = false) : exec (.calibrationDue ⟨g, b⟩ temp) s = .next s := by
  refine if_neg ?_
  rcases h with hst | ⟨htemp, hquiet⟩ | hdue
  · simp [hst]
  · simp [htemp, hquiet]
  · simp [hdue]

theorem exec_calibrationRetry_of_early {lim : Nat} (hretry : (bankAt s g.toNat b.toNat).retryAt = some lim) (h : s.gt < lim) :
    exec (.calibrationRetry g b) s = .next s := by
  show execCalibrationRetry g b s = _
  simp only [execCalibrationRetry, hretry, Nat.not_le.mpr h, if_false]

theorem exec_calibrationRetry_of_due {lim : Nat} (hretry : (bankAt s g.toNat b.toNat).retryAt = some lim) (h : lim ≤ s.gt) :
    exec (.calibrationRetry g b) s =
      .next (nextCalibration (modBank s g.toNat b.toNat fun q => { q with due := true, dueAt := s.gt, retryAt := none }) g.toNat) := by
  show execCalibrationRetry g b s = _
  simp only [execCalibrationRetry, hretry, h, if_true]

theorem exec_sillageBankFault_of_gone (h : (bankAt s g.toNat b.toNat).st = .off ∨ (bankAt s g.toNat b.toNat).st = .failed) :
    exec (.sillageBankFault g b) s = .next s := if_pos (by simpa using h)

theorem exec_sillageBankFault_of_serving (hoff : (bankAt s g.toNat b.toNat).st ≠ .off) (hfailed : (bankAt s g.toNat b.toNat).st ≠ .failed) :
    exec (.sillageBankFault g b) s = .next (nextCalibration (fault (failBank s g.toNat b.toNat)
      { cls := 0x0D, unit := unitId 9 (g.toNat * 16 + b.toNat), outcome := 3, permanent := true }) g.toNat) :=
  if_neg (by simp [hoff, hfailed])

end

/-! ### The end of a fit -/

section
variable {s : State} {g b : Nat} {gain offset temp : BitVec 16} {map : List (List Nat)} {nominal : Nat} {mean16 sd16 : BitVec 16} {jump : Bool}

theorem fitCalibration_of_notAwaited (h : (bankAt s g b).st ≠ .calibrating ∨ (bankAt s g b).pending ≠ none) :
    fitCalibration s g b gain offset temp map nominal mean16 sd16 jump = s :=
  if_pos (by simpa [Option.isSome_iff_ne_none] using h)

variable (hst : (bankAt s g b).st = .calibrating) (hpending : (bankAt s g b).pending = none)
include hst hpending

theorem fitCalibration_of_plausible
    (hok : plausible (bankAt s g b) ⟨gain.toNat, offset.toInt, temp.toInt, map⟩ nominal mean16.toInt sd16.toNat jump = true) :
    fitCalibration s g b gain offset temp map nominal mean16 sd16 jump =
      modBank s g b fun q => { q with pending := some ⟨gain.toNat, offset.toInt, temp.toInt, map⟩ } :=
  (if_neg (by simp [hst, hpending])).trans (if_pos hok)

variable (hbad : plausible (bankAt s g b) ⟨gain.toNat, offset.toInt, temp.toInt, map⟩ nominal mean16.toInt sd16.toNat jump = false)
include hbad

/-- A failure that is not the third in a row: the bank serves again and retries 1 ms later (06 R203). -/
theorem fitCalibration_of_retried (hfew : (bankAt s g b).consec + 1 < 3) :
    fitCalibration s g b gain offset temp map nominal mean16 sd16 jump = nextCalibration (modBank (bump s 0x1C000A0 1) g b fun q =>
      { q with st := .inService, stale := false, consec := (bankAt s g b).consec + 1, retryAt := some (s.gt + 1000000), entering := false
               dueAt := if q.entering then s.gt else q.dueAt }) g :=
  (if_neg (by simp [hst, hpending])).trans ((if_neg (Bool.eq_false_iff.mp hbad)).trans (if_pos hfew))

theorem fitCalibration_of_failed (hmany : 3 ≤ (bankAt s g b).consec + 1) :
    fitCalibration s g b gain offset temp map nominal mean16 sd16 jump = nextCalibration (fault (modBank (bump s 0x1C000A0 1) g b fun q =>
      { q with st := .failed, stale := false, consec := (bankAt s g b).consec + 1, retryAt := none })
      { cls := 0x0D, unit := unitId 9 (g * 16 + b), outcome := 3, permanent := true }) g :=
  (if_neg (by simp [hst, hpending])).trans ((if_neg (Bool.eq_false_iff.mp hbad)).trans (if_neg (Nat.not_lt.mpr hmany)))

end

/-! ### The installation -/

section
variable {s : State} {g b : Nat} {c : Coef} (hpending : (bankAt s g b).pending = some c)
include hpending

theorem installCalibration_of_used (hused : (bankAt s g b).users.any (Machine.opRuns s) = true) : installCalibration s g b = s := by
  simp only [installCalibration, hpending]
  exact if_pos hused

theorem installCalibration_of_unused (hused : (bankAt s g b).users.any (Machine.opRuns s) = false) :
    installCalibration s g b = nextCalibration (modBank s g b fun q =>
      { q with st := .inService, stale := false, pending := none, coef := c, consec := 0, calcnt := satAdd 32 q.calcnt 1,
               calgt := s.gt, users := [], retryAt := none, entering := false, dueAt := if q.entering then s.gt else q.dueAt }) g := by
  simp only [installCalibration, hpending]
  exact if_neg (Bool.eq_false_iff.mp hused)

end

/-- Settles O24: each command is its equation (`exec_calibrationDue_of_…`, `fitCalibration_of_…`, `installCalibration_of_…`,
`exec_calibrationRetry_of_…`), of which `modBank_bankPut` gives the one bank that changes. -/
theorem sillageCalibration : Obligations.SillageCalibration := by
  unfold Obligations.SillageCalibration
  intro s g b q
  refine ⟨fun temp => ⟨fun hst hquiet hdue => ⟨_, exec_calibrationDue_of_due hst hquiet hdue, _, modBank_bankPut s g b _, rfl⟩,
      fun hnot => ⟨_, exec_calibrationDue_of_notDue hnot, rfl⟩⟩,
    fun gain off temp map span mean sd jump => ?_,
    fun c hpending => ⟨fun hused => ⟨_, rfl, congrArg bootAdvance (installCalibration_of_used hpending hused)⟩,
      fun hused => ⟨_, rfl, _, modBank_bankPut s g b _, congrArg bootAdvance (installCalibration_of_unused hpending hused)⟩⟩,
    fun lim hretry => ⟨fun hearly => ⟨_, exec_calibrationRetry_of_early hretry hearly, rfl⟩,
      fun hdue => ⟨_, exec_calibrationRetry_of_due hretry hdue, _, modBank_bankPut s g b _, rfl⟩⟩,
    fun hgone => ⟨_, exec_sillageBankFault_of_gone hgone, rfl⟩,
    fun hoff hfailed => ⟨_, exec_sillageBankFault_of_serving hoff hfailed, _, modBank_bankPut (requeue s q) g b _, rfl⟩⟩
  have hcount : OtherRegs [0x1C000A0] s (bump s 0x1C000A0 1) := fun o ho => regVal_bump_other s 1 (by simpa using ho)
  have hkept : bump s 0x1C000A0 1 = { s with rf := { s.rf with vals := (bump s 0x1C000A0 1).rf.vals } } := by
    rw [bump_of_notBase 1 rfl]
    rfl
  have hbank (f : Bank → Bank) := modBank_bankPut (bump s 0x1C000A0 1) g b f
  exact ⟨fun hnot => ⟨_, rfl, congrArg bootAdvance (fitCalibration_of_notAwaited hnot)⟩,
    fun hst hpending hok => ⟨_, rfl, _, modBank_bankPut s g b _, congrArg bootAdvance (fitCalibration_of_plausible hst hpending hok)⟩,
    fun hst hpending hbad hfew => ⟨_, rfl, _, _, hcount, toNat_regVal_bump s _ _, hkept, hbank _,
      congrArg bootAdvance (fitCalibration_of_retried hst hpending hbad hfew)⟩,
    fun hst hpending hbad hmany => ⟨_, rfl, _, _, hcount, toNat_regVal_bump s _ _, hbank _,
      congrArg bootAdvance (fitCalibration_of_failed hst hpending hbad hmany)⟩⟩

end Sys2Proof.Proofs
end

section
/-!
Frames of the base (07_skeltil_base.md R227 to R230; 17_faults.md R534): one entry of the base changed, one count, and each command's equation,
a case at a time.
-/
namespace Sys2Proof.Proofs
open Sys2Proof Sys2Proof.Machine

/-! ### One entry of the base changed, and one count -/

theorem modChan_chanPut (s : State) (ch : Nat) (f : Channel → Channel) : ChanPut s (modChan s ch f) ch (f (chanOf s ch)) :=
  ⟨tabGet_set_same _ _ _ _, fun _ hk => tabGet_set_other _ _ _ _ hk, rfl⟩

theorem modChan_chanPut_of_eq {s : State} {ch : Nat} {f : Channel → Channel} {c : Channel} (h : f (chanOf s ch) = c) :
    ChanPut s (modChan s ch f) ch c := h ▸ modChan_chanPut s ch f

theorem modFlow_flowPut (s : State) (k : Nat) (f : Flow → Flow) : FlowPut s (modFlow s k f) k (f (flowOf s k)) :=
  ⟨tabGet_set_same _ _ _ _, fun _ hk => tabGet_set_other _ _ _ _ hk, rfl⟩

theorem chanPut_trans {s t u : State} {ch : Nat} {c c' : Channel} (h : ChanPut s t ch c) (g : ChanPut t u ch c') : ChanPut s u ch c' := by
  obtain ⟨-, hother, hrest⟩ := h
  obtain ⟨hput, hother', hrest'⟩ := g
  exact ⟨hput, fun k hk => (hother' k hk).trans (hother k hk), hrest'.trans (by rw [hrest])⟩

@[simp] theorem chanOf_modChan_same (s : State) (ch : Nat) (f : Channel → Channel) : chanOf (modChan s ch f) ch = f (chanOf s ch) :=
  (modChan_chanPut s ch f).1

@[simp] theorem chanOf_modFlow (s : State) (k : Nat) (f : Flow → Flow) (ch : Nat) : chanOf (modFlow s k f) ch = chanOf s ch := rfl

@[simp] theorem chanOf_send (s : State) (m : Sent) (ch : Nat) : chanOf (send s m) ch = chanOf s ch := rfl

theorem bump_counted (s : State) (off n : Nat) : Counted s (bump s off n) off n :=
  ⟨regVal_regPut_same _ _ _, fun _ ho => regVal_bump_other s n (by simpa using ho), rfl⟩

/-! ### A frame through its checks -/

/-- The fields of a frame's covered bits (07 R226). -/
def frameType (covered : Nat) : Nat := covered / 2 ^ 512 % 4
def frameRseq (covered : Nat) : Nat := covered / 2 ^ 514 % 256
def framePseq (covered : Nat) : Nat := covered / 2 ^ 522 % 2048

section
variable {s : State} {ch : Nat} {red : Bool} {covered : Nat}

/-- The sender of a channel has the frame in its replay buffer. -/
def frameKnown (s : State) (ch covered : Nat) : Bool := (chanOf s ch).buffer.any fun f => f.rseq = frameRseq covered

/-- The frame was handed over by a lost channel of its pair. -/
def frameHanded (s : State) (ch : Nat) (red : Bool) (covered : Nat) : Bool :=
  (flowOf s (flowKey s ch red)).handed.any fun f => f.pseq = framePseq covered

/-- No sender sends this frame: it is new, and its slot drains or no credit is left for it (07 R230, R232). -/
def frameBarred (s : State) (ch : Nat) (red : Bool) (covered : Nat) : Bool :=
  !frameKnown s ch covered && (slotDrains s ch || (frameType covered = 1 && !(frameKnown s ch covered || frameHanded s ch red covered) &&
    decide ((flowOf s (flowKey s ch red)).credits = 0)))

/-- The state in which a channel's sender has sent the frame: it is in the replay buffer, and the credit of a new data frame is spent. -/
def frameSent (s : State) (ch : Nat) (red : Bool) (covered : Nat) : State :=
  let buffered := if frameKnown s ch covered then s else modChan s ch fun c => { c with
    buffer := (c.buffer ++ [(⟨frameRseq covered, framePseq covered, red, frameType covered, BitVec.ofNat 512 covered,
      frameOwner s ch⟩ : LinkFrame)]).drop ((c.buffer.length + 1) - 64)
    freeAt := s.gt }
  if frameType covered = 1 && !(frameKnown s ch covered || frameHanded s ch red covered) then
    modFlow buffered (flowKey s ch red) fun f => { f with credits := f.credits - 1 } else buffered

/-- The state in which a frame in sequence has been counted and, at every 32nd, acknowledged (07 R228, R229). -/
def frameInSequence (s : State) (ch : Nat) (c : Channel) (rseq : Nat) : State :=
  let counted := modChan s ch fun x => { x with expect := (rseq + 1) % 256, since := if c.since + 1 = 32 then 0 else c.since + 1 }
  if c.since + 1 = 32 then send counted (.baseControl 1 ch rseq) else counted

theorem frameKnown_iff : frameKnown s ch covered = true ↔ ∃ e ∈ (chanOf s ch).buffer, e.rseq = frameRseq covered := by
  simp [frameKnown]

theorem frameHanded_iff :
    frameHanded s ch red covered = true ↔ ∃ e ∈ (flowOf s (flowKey s ch red)).handed, e.pseq = framePseq covered := by
  simp [frameHanded]

theorem frameBarred_iff : frameBarred s ch red covered = true ↔ ¬ frameKnown s ch covered = true ∧ (slotDrains s ch = true ∨
    (frameType covered = 1 ∧ ¬ frameHanded s ch red covered = true ∧ (flowOf s (flowKey s ch red)).credits = 0)) := by
  cases hknown : frameKnown s ch covered <;> simp [frameBarred, hknown, and_assoc]

theorem takeFrame_of_barred (h : frameBarred s ch red covered = true) : takeFrame s ch red covered = s := if_pos h

theorem takeFrame_of_outOfSequence (hsent : frameBarred s ch red covered = false) (hseq : frameRseq covered ≠ (chanOf s ch).expect) :
    takeFrame s ch red covered = if (frameRseq covered + 256 - (chanOf s ch).expect) % 256 < 128
      then askReplay (frameSent s ch red covered) ch else frameSent s ch red covered :=
  (if_neg (Bool.eq_false_iff.mp hsent)).trans (if_pos hseq)

theorem takeFrame_of_diagnostic (hsent : frameBarred s ch red covered = false) (hseq : frameRseq covered = (chanOf s ch).expect)
    (htype : frameType covered ≠ 1) :
    takeFrame s ch red covered = frameInSequence (frameSent s ch red covered) ch (chanOf s ch) (frameRseq covered) :=
  (if_neg (Bool.eq_false_iff.mp hsent)).trans ((if_neg (not_not_intro hseq)).trans (if_neg htype))

/-- What the sender does leaves what the receiver expects. -/
theorem chanOf_frameSent_expect (s : State) (ch : Nat) (red : Bool) (covered : Nat) :
    (chanOf (frameSent s ch red covered) ch).expect = (chanOf s ch).expect := by
  simp only [frameSent]
  split <;> split <;> simp

theorem chanOf_frameInSequence_expect (s : State) (ch : Nat) (c : Channel) (rseq : Nat) :
    (chanOf (frameInSequence s ch c rseq) ch).expect = (rseq + 1) % 256 := by
  simp only [frameInSequence]
  split <;> simp

theorem takeFrame_expect_of_outOfSequence (hsent : frameBarred s ch red covered = false)
    (hseq : frameRseq covered ≠ (chanOf s ch).expect) :
    (chanOf (takeFrame s ch red covered) ch).expect = (chanOf s ch).expect := by
  rw [takeFrame_of_outOfSequence hsent hseq]
  split
  · exact chanOf_frameSent_expect s ch red covered
  · exact chanOf_frameSent_expect s ch red covered

end

/-! ### FRAME_RECEIVE -/

section
variable {s : State} {ch : BitVec 23} {red : Bool} {f : BitVec 544}

/-- The state in which a channel's generator has moved on by a frame (07 R227). -/
def descrambled (s : State) (ch : BitVec 23) (f : BitVec 544) : State :=
  modChan s ch.toNat fun c => { c with scr := (descramble (chanOf s ch.toNat).scr f).2 }

/-- A corrected frame is counted. -/
def corrected (s : State) (fixed : Bool) : State := if fixed then bump s 0x1800088 1 else s

theorem exec_frameReceive_of_dark
    (h : chanUp s ch.toNat = false ∨ (lightOn s ch.toNat ≠ .operating ∧ lightOn s ch.toNat ≠ .gated)) :
    exec (.frameReceive ch red f) s = .next s := if_pos (by simpa using h)

variable (hup : chanUp s ch.toNat = true) (hlight : lightOn s ch.toNat = .operating ∨ lightOn s ch.toNat = .gated)
include hup hlight

theorem frameReceive_not_dark : ¬ (!chanUp s ch.toNat || (lightOn s ch.toNat ≠ .operating && lightOn s ch.toNat ≠ .gated)) = true := by
  rcases hlight with h | h <;> simp [hup, h]

theorem exec_frameReceive_of_uncorrectable (hcode : secded (descramble (chanOf s ch.toNat).scr f).1.toNat = none) :
    exec (.frameReceive ch red f) s = .next (askReplay (descrambled s ch f) ch.toNat) := by
  refine (if_neg (frameReceive_not_dark hup hlight)).trans ?_
  simp only [hcode]
  rfl

section
variable {covered : Nat} {fixed : Bool} (hcode : secded (descramble (chanOf s ch.toNat).scr f).1.toNat = some (covered, fixed))
include hcode

theorem exec_frameReceive_of_misplaced (hpass : mayPass s ch.toNat (frameType covered) = false) :
    exec (.frameReceive ch red f) s = .next (corrected (descrambled s ch f) fixed) := by
  refine (if_neg (frameReceive_not_dark hup hlight)).trans ?_
  simp only [hcode]
  exact if_pos ((Bool.not_eq_true' _).mpr hpass)

theorem exec_frameReceive_of_control (hpass : mayPass s ch.toNat (frameType covered) = true) (htype : frameType covered = 2) :
    exec (.frameReceive ch red f) s = .next ((List.range 8).foldl (fun v i => controlEntry v ch.toNat (covered / 2 ^ (64 * i) % 2 ^ 64))
      (corrected (descrambled s ch f) fixed)) := by
  refine (if_neg (frameReceive_not_dark hup hlight)).trans ?_
  simp only [hcode]
  exact (if_neg (mt (Bool.not_eq_true' _).mp (ne_false_of_eq_true hpass))).trans (if_pos htype)

theorem exec_frameReceive_of_carried (hpass : mayPass s ch.toNat (frameType covered) = true) (htype : frameType covered ≠ 2) :
    exec (.frameReceive ch red f) s =
      .next (takeFrame (lightSeen (corrected (descrambled s ch f) fixed) ch.toNat) ch.toNat red covered) := by
  refine (if_neg (frameReceive_not_dark hup hlight)).trans ?_
  simp only [hcode]
  exact (if_neg (mt (Bool.not_eq_true' _).mp (ne_false_of_eq_true hpass))).trans (if_neg htype)

end
end

/-! ### Acknowledgements and replays -/

theorem foldl_send {α : Type} (m : α → Sent) (xs : List α) (s : State) :
    xs.foldl (fun t x => send t (m x)) s = { s with sent := (xs.map fun x => (s.gt, m x)).reverse ++ s.sent } := by
  induction xs generalizing s with
  | nil => rfl
  | cons x xs ih => rw [List.foldl_cons, ih]; simp [send]

section
variable {s : State} {ch rseq : Nat}

theorem ackFrames_of_held {i : Nat} (h : ((chanOf s ch).buffer.findIdx? fun f => f.rseq = rseq) = some i) :
    ChanPut s (ackFrames s ch rseq) ch { chanOf s ch with buffer := (chanOf s ch).buffer.drop (i + 1) } :=
  modChan_chanPut_of_eq (by simp only [h])

theorem ackFrames_of_notHeld (h : ((chanOf s ch).buffer.findIdx? fun f => f.rseq = rseq) = none) :
    ChanPut s (ackFrames s ch rseq) ch (chanOf s ch) :=
  modChan_chanPut_of_eq (by simp only [h])

theorem replayFrames_of_held {i : Nat} (h : ((chanOf s ch).buffer.findIdx? fun f => f.rseq = rseq) = some i) :
    Counted { s with sent := (((chanOf s ch).buffer.drop i).map fun e => (s.gt, Sent.baseFrame ch (frameBits e))).reverse ++ s.sent }
      (replayFrames s ch rseq) 0x180008C ((chanOf s ch).buffer.length - i) := by
  simp only [replayFrames, h, foldl_send (fun e => Sent.baseFrame ch (frameBits e)), List.length_drop]
  exact bump_counted _ _ _

theorem replayFrames_of_notHeld (h : ((chanOf s ch).buffer.findIdx? fun f => f.rseq = rseq) = none) : replayFrames s ch rseq = s := by
  simp only [replayFrames, h]

end

/-! ### The loss of a channel, and bundle replays -/

/-- A channel without its signal and its frames. -/
def silenced (s : State) (ch : Nat) : State := modChan (modChan s ch fun q => { q with out := true }) ch fun q => { q with buffer := [] }

theorem silenced_chanPut (s : State) (ch : Nat) : ChanPut s (silenced s ch) ch { chanOf s ch with out := true, buffer := [] } := by
  have hput := chanPut_trans (modChan_chanPut s ch fun q => { q with out := true }) (modChan_chanPut _ ch fun q => { q with buffer := [] })
  rwa [chanOf_modChan_same] at hput

theorem loseChannel_of_down {s : State} {ch : Nat} (h : chanUp s ch = false) (injected : Bool) : loseChannel s ch injected = s :=
  if_pos (by simp [h])

theorem loseChannel_of_up {s : State} {ch : Nat} (h : chanUp s ch = true) (injected : Bool) : loseChannel s ch injected =
    fault ((chanOf s ch).buffer.foldl (fun w e => resend w (flowKey w ch e.red) e) (bump (silenced s ch) 0x180008C (chanOf s ch).buffer.length))
      { cls := 0x03, unit := unitId 4 ch, outcome := 3, detail := (chanOf s ch).buffer.length, injected := injected } := by
  rw [loseChannel, if_neg (by simp [h]), dropChannel, chanOf_modChan_same]
  rfl

theorem exec_bundleCrcReplay_of_crc {s : State} {i : BitVec 5} {b : BitVec 8} (h : (bundleOf s i.toNat b.toNat).crc = true) :
    exec (.bundleCrcReplay i b) s = .next (bump s 0x1800090 1) := by
  show execBundleCrcReplay i b s = _
  rw [execBundleCrcReplay, if_pos h]

/-- Settles O25: a frame received is `exec_frameReceive_of_…` and, taken, `takeFrame_of_…`, where `frameBarred` says which no sender sends;
acknowledgements and replays are `ackFrames_of_…` and `replayFrames_of_…`, the loss of a channel is `loseChannel_of_up`. -/
theorem linkFrames : Obligations.LinkFrames := by
  unfold Obligations.LinkFrames
  intro s ch red f c light z s0
  refine ⟨fun hdark => ⟨_, exec_frameReceive_of_dark hdark, rfl⟩, fun hdown => ⟨_, rfl, loseChannel_of_down hdown false⟩,
    fun hup hlight => ⟨fun hcode => ⟨_, exec_frameReceive_of_uncorrectable hup hlight hcode, ?_⟩, fun covered fixed hcode => ?_⟩,
    fun covered => ⟨fun hnew hbar => ?_, fun hsent => ?_⟩,
    fun rseq => ⟨fun i hheld => ⟨⟨_, rfl, ackFrames_of_held hheld⟩, _, rfl, replayFrames_of_held hheld⟩,
      fun hnone => ⟨⟨_, rfl, ackFrames_of_notHeld hnone⟩, _, rfl, replayFrames_of_notHeld hnone⟩⟩,
    fun src dst n => ⟨_, rfl, modFlow_flowPut s _ _⟩,
    fun hup => ⟨_, rfl, _, _, silenced_chanPut s ch.toNat, bump_counted _ _ _, loseChannel_of_up hup false⟩,
    fun i b => ⟨fun hcrc => ⟨_, exec_bundleCrcReplay_of_crc hcrc, bump_counted s 0x1800090 1⟩,
      fun hcrc => ⟨_, rfl, if_neg (ne_true_of_eq_false hcrc)⟩⟩⟩
  · have hexpect : (chanOf (descrambled s ch f) ch.toNat).expect = c.expect := by rw [descrambled, chanOf_modChan_same]
    rw [askReplay, hexpect]
    rfl
  · have hcounted : fixed = true → Counted s0 (corrected s0 fixed) 0x1800088 1 := by
      rintro rfl
      exact bump_counted s0 0x1800088 1
    have hsame : fixed = false → corrected s0 fixed = s0 := by
      rintro rfl
      rfl
    cases hpass : mayPass s ch.toNat (frameType covered) with
    | false =>
      have hnot := ne_true_of_eq_false hpass
      exact ⟨_, exec_frameReceive_of_misplaced hup hlight hcode hpass, _, hsame, hcounted, fun _ => rfl,
        fun h => absurd h hnot, fun h => absurd h hnot⟩
    | true =>
      have hnot := ne_false_of_eq_true hpass
      by_cases htype : frameType covered = 2
      · exact ⟨_, exec_frameReceive_of_control hup hlight hcode hpass htype, _, hsame, hcounted, fun h => absurd h hnot,
          fun _ _ => rfl, fun _ h => absurd htype h⟩
      · exact ⟨_, exec_frameReceive_of_carried hup hlight hcode hpass htype, _, hsame, hcounted, fun h => absurd h hnot,
          fun _ h => absurd h htype, fun _ _ => rfl⟩
  · refine takeFrame_of_barred (frameBarred_iff.mpr ⟨?_, ?_⟩)
    · rwa [frameKnown_iff]
    · rwa [frameHanded_iff]
  · have hopen : frameBarred s ch.toNat red covered = false := by
      rw [Bool.eq_false_iff, ne_eq, frameBarred_iff, frameKnown_iff, frameHanded_iff]
      rintro ⟨hnew, hbar⟩
      obtain ⟨hslot, hcredit⟩ := hsent.resolve_left hnew
      rcases hbar with hdrains | ⟨htype, hnot, hzero⟩
      · exact Bool.false_ne_true (hslot.symm.trans hdrains)
      · exact Nat.ne_of_gt ((hcredit htype).resolve_left hnot) hzero
    refine ⟨takeFrame_expect_of_outOfSequence hopen, fun hseq htype => ?_⟩
    rw [takeFrame_of_diagnostic hopen hseq htype]
    exact chanOf_frameInSequence_expect _ _ _ _

end Sys2Proof.Proofs
end

section
/-!
Steering and comb lasers (07_skeltil_base.md R223, R231, R232, R235 to R238): one slot or site changed, and each command's equation, a case
at a time.
-/
namespace Sys2Proof.Proofs
open Sys2Proof Sys2Proof.Machine

theorem modSlot_slotPut (s : State) (k : Nat) (f : SteerSlot → SteerSlot) : SlotPut s (modSlot s k f) k (f (slotOf s k)) :=
  ⟨tabGet_set_same _ _ _ _, fun _ hk => tabGet_set_other _ _ _ _ hk, rfl⟩

theorem modLaser_laserPut (s : State) (k : Nat) (f : Laser → Laser) : LaserPut s (modLaser s k f) k (f (laserOf s k)) :=
  ⟨tabGet_set_same _ _ _ _, fun _ hk => tabGet_set_other _ _ _ _ hk, rfl⟩

/-! ### Assignments of steered slots -/

section
variable {s : State} {ep : BitVec 5} {plane : BitVec 3} {slot : BitVec 5}

/-- One of the endpoints has had a change on the plane in the last millisecond (07 R232). -/
def SteeredLately (s : State) (ends : List Nat) (plane : Nat) : Prop :=
  ∃ e ∈ ends, ∃ t, tabFind s.base.steered (e * 8 + plane) = some t ∧ s.gt < t + 1000000

section
variable {line : BitVec 6} {dest : BitVec 5} {d : BitVec 3}

theorem exec_steerPendingWrite_of_full (hfull : freeReceive s plane.toNat dest.toNat (slotKey ep.toNat plane.toNat slot.toNat) = none) :
    exec (.steerPendingWrite ep plane slot line dest d) s = .next s := by
  show execSteerPendingWrite ep plane slot line dest d s = _
  simp only [execSteerPendingWrite, hfull]

/-- The state in which an assignment waits in its slot, and its ends have had their change of the millisecond (07 R223, R232). -/
def assigned (s : State) (k plane : Nat) (ends : List Nat) (a : Steer) : State :=
  modSlot { s with base := { s.base with steered := ends.foldl (fun m e => tabPut m (e * 8 + plane) s.gt) s.base.steered } } k fun x =>
    let y : SteerSlot := { x with pend := some a, again := decide (x.st ≠ .unassigned ∧ x.st ≠ .active) }
    { y with owed := slotDoms y }

variable {r : Nat} (hfree : freeReceive s plane.toNat dest.toNat (slotKey ep.toNat plane.toNat slot.toNat) = some r)
include hfree

theorem exec_steerPendingWrite_of_refused
    (h : SteeredLately s (steerEnds (slotOf s (slotKey ep.toNat plane.toNat slot.toNat)) ep.toNat dest.toNat) plane.toNat ∨
      (steerable s ep.toNat plane.toNat slot.toNat ⟨line.toNat, dest.toNat, d.toNat, r⟩ &&
        slotAllowed s ep.toNat dest.toNat slot.toNat d.toNat) = false) :
    exec (.steerPendingWrite ep plane slot line dest d) s = .next s := by
  show execSteerPendingWrite ep plane slot line dest d s = _
  simp only [execSteerPendingWrite, hfree]
  refine if_pos ?_
  rcases h with ⟨e, he, t, htick, hlate⟩ | hmay
  · rw [Bool.or_eq_true, Bool.or_eq_true, List.any_eq_true]
    exact .inl (.inl ⟨e, he, by rw [htick]; exact decide_eq_true hlate⟩)
  · rw [Bool.or_assoc, ← Bool.not_and, hmay]
    exact Bool.or_true _

theorem exec_steerPendingWrite_of_accepted
    (hearly : ¬ SteeredLately s (steerEnds (slotOf s (slotKey ep.toNat plane.toNat slot.toNat)) ep.toNat dest.toNat) plane.toNat)
    (hmay : (steerable s ep.toNat plane.toNat slot.toNat ⟨line.toNat, dest.toNat, d.toNat, r⟩ &&
        slotAllowed s ep.toNat dest.toNat slot.toNat d.toNat) = true) :
    exec (.steerPendingWrite ep plane slot line dest d) s = .next (assigned s (slotKey ep.toNat plane.toNat slot.toNat) plane.toNat
      (steerEnds (slotOf s (slotKey ep.toNat plane.toNat slot.toNat)) ep.toNat dest.toNat) ⟨line.toNat, dest.toNat, d.toNat, r⟩) := by
  show execSteerPendingWrite ep plane slot line dest d s = _
  simp only [execSteerPendingWrite, hfree]
  refine (if_neg ?_).trans ?_
  · rw [Bool.or_assoc, ← Bool.not_and, hmay, Bool.not_true, Bool.or_false, List.any_eq_true]
    rintro ⟨e, he, hlate⟩
    split at hlate
    · next t htick => exact hearly ⟨e, he, t, htick, of_decide_eq_true hlate⟩
    · exact Bool.false_ne_true hlate
  · simp only [assigned, Bool.decide_and]
    rfl

end

/-! ### The way of a slot to its new ring -/

theorem exec_steerSlotRetune_of_kept (h : (slotOf s (slotKey ep.toNat plane.toNat slot.toNat)).st ≠ .draining ∨
      (slotOf s (slotKey ep.toNat plane.toNat slot.toNat)).again = true) :
    exec (.steerSlotRetune ep plane slot) s = .next s :=
  if_neg (by rcases h with h | h <;> simp [h])

theorem exec_steerSlotRetune_of_drained (hst : (slotOf s (slotKey ep.toNat plane.toNat slot.toNat)).st = .draining)
    (honce : (slotOf s (slotKey ep.toNat plane.toNat slot.toNat)).again = false)
    (hacked : ∀ ch, slotChan s (slotKey ep.toNat plane.toNat slot.toNat) = some ch → (chanOf s ch).buffer = [])
    (hbright : fieldOf (physOf s ep.toNat) * 8 + busOf (24 + plane.toNat) ∉ s.base.dark) :
    exec (.steerSlotRetune ep plane slot) s =
      .next (modSlot s (slotKey ep.toNat plane.toNat slot.toNat) fun y => { y with st := .retuning, cur := none }) := by
  refine if_pos ?_
  cases hchan : slotChan s (slotKey ep.toNat plane.toNat slot.toNat) with
  | none => simp [hst, honce, hbright]
  | some ch => simp [hst, honce, hbright, hacked ch hchan]

theorem exec_steerSlotReady_of_passed {pass : Bool} (hst : (slotOf s (slotKey ep.toNat plane.toNat slot.toNat)).st = .retuning)
    (hpass : pass = true) : exec (.steerSlotReady ep plane slot pass) s = .next (modSlot s (slotKey ep.toNat plane.toNat slot.toNat) fun y =>
      { y with st := .ready, owed := if y.again then y.owed else slotDoms y }) := if_pos (by simp [hst, hpass])

theorem exec_steerSlotReady_of_not {pass : Bool} (h : (slotOf s (slotKey ep.toNat plane.toNat slot.toNat)).st ≠ .retuning ∨ pass = false) :
    exec (.steerSlotReady ep plane slot pass) s = .next s :=
  if_neg (by rcases h with h | h <;> simp [h])

end

/-! ### Comb lasers -/

section
variable {s : State} {f : BitVec 4} {site : BitVec 3}

/-- A site's bus serves a powered bank group, or links that train or serve (07 R235; 11_tray_fabric.md R363). -/
def LaserServes (s : State) (f : Nat) (bus : Option Nat) : Prop :=
  (bus = some 0 ∧ f < 8 ∧ pdOf s (41 + f) = .on) ∨ ∃ b, bus = some b ∧ feedsLinks s f b = true

/-- LASER_GATE may gate a site. -/
def gateable (s : State) (f k : Nat) : Bool :=
  (regVal s 0x1800004).getLsbD 1 && (laserOf s k).st = .operating && decide ((laserOf s k).frameAt + 100000 ≤ s.gt) &&
    !((laserOf s k).bus = some 0 && f < 8 && pdOf s (41 + f) = .on) && !((laserOf s k).bus.any (feedsLinks s f))

theorem gateable_iff (s : State) (f k : Nat) : gateable s f k = true ↔ (regVal s 0x1800004).getLsbD 1 = true ∧
    (laserOf s k).st = .operating ∧ (laserOf s k).frameAt + 100000 ≤ s.gt ∧ ¬ LaserServes s f (laserOf s k).bus := by
  simp only [gateable, LaserServes, Bool.and_eq_true, decide_eq_true_eq, Bool.not_eq_true', ← Bool.not_eq_true, Option.any_eq_true, not_or, and_assoc]

theorem exec_laserGate_of_gateable (h : gateable s f.toNat (f.toNat * 8 + site.toNat) = true) : exec (.laserGate f site) s =
    .next (modLaser s (f.toNat * 8 + site.toNat) fun x => { x with st := .gated, checked := some s.gt }) := if_pos h

theorem exec_laserGate_of_not (h : ¬ gateable s f.toNat (f.toNat * 8 + site.toNat) = true) : exec (.laserGate f site) s = .next s := if_neg h

theorem exec_laserUngate_of_gated (h : (laserOf s (f.toNat * 8 + site.toNat)).st = .gated) : exec (.laserUngate f site) s =
    .next (resendHanded (modLaser s (f.toNat * 8 + site.toNat) fun x =>
      { x with st := .operating, frameAt := s.gt, checked := some (s.gt + 3000) })) := if_pos h

theorem exec_laserUngate_of_not (h : (laserOf s (f.toNat * 8 + site.toNat)).st ≠ .gated) : exec (.laserUngate f site) s = .next s := if_neg h

theorem exec_laserFailure_of_operating (h : (laserOf s (f.toNat * 8 + site.toNat)).st = .operating) :
    exec (.laserFailure f site) s = .next (failLaser s f.toNat site.toNat false) := if_pos h

theorem exec_laserFailure_of_not (h : (laserOf s (f.toNat * 8 + site.toNat)).st ≠ .operating) : exec (.laserFailure f site) s = .next s :=
  if_neg h

/-- A site that drives no bus fails alone (07 R236). -/
theorem failLaser_of_noBus {f i : Nat} (h : (laserOf s (f * 8 + i)).bus = none) (injected : Bool) : failLaser s f i injected =
    fault (modLaser s (f * 8 + i) fun x => { x with st := .failed, bus := none, mon := 0 })
      { cls := 0x05, unit := unitId 6 (f * 8 + i), outcome := 3, permanent := true, injected := injected } := by
  simp only [failLaser, h]

/-- The state in which a bus has light again, and its failover is counted (07 R236). -/
def busLit (s : State) (k : Nat) : State := bump { s with base := { s.base with dark := s.base.dark.filter (· ≠ k) } } 0x1800098 1

theorem exec_laserFailoverDone_of_lit {i : Nat} (hsite : siteOn s f.toNat site.toNat = some i) (hdark : f.toNat * 8 + site.toNat ∈ s.base.dark)
    (hst : (laserOf s (f.toNat * 8 + i)).st = .operating) :
    exec (.laserFailoverDone f site) s = .next (resendHanded ((litBy (busLit s (f.toNat * 8 + site.toNat)) f.toNat site.toNat).foldl
      returnChannel (busLit s (f.toNat * 8 + site.toNat)))) := by
  show execLaserFailoverDone f site s = _
  simp only [execLaserFailoverDone, hsite]
  exact if_pos (by simp [hdark, hst])

section
variable {ua : BitVec 12} {pass : Bool}

theorem exec_diagnosticPulse_of_unpulsed (hgated : (laserOf s (f.toNat * 8 + site.toNat)).st ≠ .gated)
    (hstandby : (laserOf s (f.toNat * 8 + site.toNat)).st ≠ .standby) : exec (.diagnosticPulse f site ua pass) s = .next s :=
  if_pos (by simp [hgated, hstandby])

theorem diagnosticPulse_pulsed (h : (laserOf s (f.toNat * 8 + site.toNat)).st = .gated ∨ (laserOf s (f.toNat * 8 + site.toNat)).st = .standby) :
    ¬ ((laserOf s (f.toNat * 8 + site.toNat)).st ≠ .gated && (laserOf s (f.toNat * 8 + site.toNat)).st ≠ .standby) = true := by
  rcases h with h | h <;> simp [h]

theorem exec_diagnosticPulse_of_passed (h : (laserOf s (f.toNat * 8 + site.toNat)).st = .gated ∨ (laserOf s (f.toNat * 8 + site.toNat)).st = .standby)
    (hpass : pass = true) : exec (.diagnosticPulse f site ua pass) s =
      .next (modLaser s (f.toNat * 8 + site.toNat) fun x => { x with checked := some s.gt, mon := ua.toNat }) :=
  (if_neg (diagnosticPulse_pulsed h)).trans (if_pos hpass)

theorem exec_diagnosticPulse_of_failed (h : (laserOf s (f.toNat * 8 + site.toNat)).st = .gated ∨ (laserOf s (f.toNat * 8 + site.toNat)).st = .standby)
    (hpass : pass = false) : exec (.diagnosticPulse f site ua pass) s =
      .next (failLaser (modLaser s (f.toNat * 8 + site.toNat) fun x => { x with mon := ua.toNat }) f.toNat site.toNat false) :=
  (if_neg (diagnosticPulse_pulsed h)).trans (if_neg (ne_true_of_eq_false hpass))

end
end

/-- Settles O26: each command is its equation (`exec_steerPendingWrite_of_…`, `exec_laserGate_of_…` and the like), of which
`modSlot_slotPut` and `modLaser_laserPut` give the one slot or site that changes. -/
theorem steeringAndLasers : Obligations.SteeringAndLasers := by
  unfold Obligations.SteeringAndLasers
  refine fun s => ⟨fun ep plane slot => ⟨fun line dest d => ⟨fun hfull => ⟨_, exec_steerPendingWrite_of_full hfull, rfl⟩, fun r hfree =>
        ⟨fun hnot => ⟨_, exec_steerPendingWrite_of_refused hfree hnot, rfl⟩,
        fun hearly hmay => ⟨_, exec_steerPendingWrite_of_accepted hfree hearly hmay, _, rfl, modSlot_slotPut _ _ _⟩⟩⟩,
      fun hkept => ⟨_, exec_steerSlotRetune_of_kept hkept, rfl⟩,
      fun hst honce hacked hbright => ⟨_, exec_steerSlotRetune_of_drained hst honce hacked hbright, modSlot_slotPut s _ _⟩,
      fun pass => ⟨fun hst hpass => ⟨_, exec_steerSlotReady_of_passed hst hpass, modSlot_slotPut s _ _⟩,
        fun hnot => ⟨_, exec_steerSlotReady_of_not hnot, rfl⟩⟩⟩,
    fun f site => ?_⟩
  intro k l
  have hput (g : Laser → Laser) : LaserPut s (modLaser s k g) k (g l) := modLaser_laserPut s k g
  refine ⟨fun hon hst hidle hscan hlinks => ⟨_, exec_laserGate_of_gateable ((gateable_iff _ _ _).mpr ⟨hon, hst, hidle, ?_⟩), hput _⟩,
    fun hnot => ⟨_, exec_laserGate_of_not fun hmay => ?_, rfl⟩,
    fun hst => ⟨_, exec_laserUngate_of_gated hst, _, hput _, rfl⟩, fun hnot => ⟨_, exec_laserUngate_of_not hnot, rfl⟩,
    fun hst => ⟨_, exec_laserFailure_of_operating hst, rfl, fun hbus => ⟨_, hput _, failLaser_of_noBus hbus false⟩⟩,
    fun hnot => ⟨_, exec_laserFailure_of_not hnot, rfl⟩,
    fun i hsite hdark hst => ⟨_, exec_laserFailoverDone_of_lit hsite hdark hst, _, _, rfl, bump_counted _ _ _, rfl⟩,
    fun ua pass => ⟨fun hgated hstandby => ⟨_, exec_diagnosticPulse_of_unpulsed hgated hstandby, rfl⟩,
      fun hst hpass => ⟨_, exec_diagnosticPulse_of_passed hst hpass, hput _⟩,
      fun hst hpass => ⟨_, exec_diagnosticPulse_of_failed hst hpass, _, hput _, rfl⟩⟩⟩
  · rintro (hbank | ⟨b, hbus, hfeeds⟩)
    · exact hscan hbank
    · exact Bool.false_ne_true ((hlinks b hbus).symm.trans hfeeds)
  · obtain ⟨hon, hst, hidle, hfree⟩ := (gateable_iff _ _ _).mp hmay
    rcases hnot with hoff | hst' | hbusy | hbank | hlinks
    · exact Bool.false_ne_true (hoff.symm.trans hon)
    · exact hst' hst
    · exact Nat.not_lt.mpr hidle hbusy
    · exact hfree (.inl hbank)
    · exact hfree (.inr hlinks)

end Sys2Proof.Proofs
end

section
/-!
LANE_REPLACE in CRC mode (07_skeltil_base.md R244, R245): errors of such a bundle are left to retries, and no lane is replaced in service. The
model's `replaceLane` writes no record there; the fourth LANE_REPLACE clause of `Obligations.RingsAndLanes` asks for one.
-/
namespace Sys2Proof.Proofs
open Sys2Proof Sys2Proof.Machine

/-- A fault that interrupts no domain, while the log is not in service, takes the next SEQ (17_faults.md R541, R544). -/
theorem fault_seq_of_retained {s : State} {a : FaultArgs} (hjoined : s.flt.joined = false) (hok : s.flt.ok = false) (hruns : a.interrupts = false) :
    (fault s a).flt.seq = s.flt.seq + 1 := by
  simp [fault, hjoined, hok, awaitResume, hruns, retainRecord]

/-- In CRC mode no lane is replaced in service: errors above the threshold are counted in the window, and nothing else happens (07 R244). -/
theorem replaceLane_of_crcMode {s : State} {i b : Nat} (hcrc : (bundleOf s i b).crc = true) (hmode : (bundleOf s i b).mode = 1)
    (lane errs : Nat) (injected : Bool) : replaceLane s i b lane errs injected = modBundle s i b fun y =>
      { y with errs := min 255 ((if (bundleOf s i b).window ≠ s.gt / 1000000 then 0 else y.errs) + errs), window := s.gt / 1000000 } := by
  refine (if_pos (by simp [hcrc, hmode])).trans ?_
  simp only [decide_eq_true_eq]

/-- The device after reset, but that bundle 0 of die 0 has passed its test in CRC mode. -/
def crcOnly : State := { State.reset with base := { bundles := [(0, { mode := 1, crc := true })] } }

theorem exec_laneReplace_crcOnly : exec (.laneReplace 0 0 0 17) crcOnly = .next (replaceLane crcOnly 0 0 0 17 false) := rfl

/-- Refutes O27: a lane of bundle 0 of die 0, in CRC mode, has 17 errors in the millisecond. No spare serves in service
(`spareLimit` is 0), so the statement has a record of outcome 0 written; the model, as R244 and R245 have it, leaves the errors to retries and
writes none. -/
theorem not_ringsAndLanes : ¬ Obligations.RingsAndLanes := by
  unfold Obligations.RingsAndLanes
  intro h
  obtain ⟨-, hlanes, -⟩ := h crcOnly
  obtain ⟨-, -, -, hspent⟩ := hlanes 0 0 0 17
  obtain ⟨t, hexec, u, ⟨-, -, hu⟩, ht⟩ := hspent (by decide) (by decide) (by decide) (by decide)
  have hflt : u.flt = crcOnly.flt := by rw [hu]
  have hrecord : t.flt.seq = 1 := by
    rw [ht, fault_seq_of_retained (by rw [hflt]; rfl) (by rw [hflt]; rfl) rfl, hflt]
    rfl
  have hnone : t.flt.seq = 0 := by
    rw [exec_laneReplace_crcOnly, replaceLane_of_crcMode rfl rfl] at hexec
    cases hexec
    rfl
  exact absurd (hnone.symm.trans hrecord) Nat.zero_ne_one

end Sys2Proof.Proofs
end

section
/-!
Reservoirs, the region table and zeroed granules (08_memory_tiers.md R260, R263, R285, R287): one reservoir changed, the bytes and the marks of
local memory, and each command's equation, a case at a time.
-/
namespace Sys2Proof.Proofs
open Sys2Proof Sys2Proof.Machine

/-! ### One reservoir changed -/

/-- One reservoir is replaced; every other reservoir and the rest of the state are as before. -/
def RsvPut (s t : State) (j : Nat) (r : RsvState) : Prop :=
  rsvOf t j = r ∧ (∀ k, k ≠ j → rsvOf t k = rsvOf s k) ∧ t = { s with mem := { s.mem with rsv := t.mem.rsv } }

theorem modRsv_rsvPut (s : State) (j : Nat) (f : RsvState → RsvState) : RsvPut s (modRsv s j f) j (f (rsvOf s j)) :=
  ⟨tabGet_set_same _ _ _ _, fun _ hk => tabGet_set_other _ _ _ _ hk, rfl⟩

theorem rsvPut_trans {s t u : State} {j : Nat} {r r' : RsvState} (h : RsvPut s t j r) (g : RsvPut t u j r') : RsvPut s u j r' := by
  obtain ⟨-, hother, hrest⟩ := h
  obtain ⟨hput, hother', hrest'⟩ := g
  exact ⟨hput, fun k hk => (hother' k hk).trans (hother k hk), hrest'.trans (by rw [hrest])⟩

/-- A reservoir at a tick of a governing temperature: the interval it refreshes at, and since when it has been calm (08 R260). -/
def atTemp (temp : Option Int) (gt : Nat) (r : RsvState) : RsvState :=
  match temp with
  | none => { r with hot := true, calm := none }
  | some x => { r with hot := r.hot || decide (85 * 16 < x), calm := if x ≤ 82 * 16 then some (r.calm.getD gt) else none }

/-- The next row of a bank is refreshed. -/
def rowRefreshed (bank : Nat) (r : RsvState) : RsvState := { r with rows := tabMod r.rows 0 bank fun n => (n + 1) % 4096 }

@[simp] theorem atTemp_rows (temp : Option Int) (gt : Nat) (r : RsvState) : (atTemp temp gt r).rows = r.rows := by cases temp <;> rfl
@[simp] theorem atTemp_self (temp : Option Int) (gt : Nat) (r : RsvState) : (atTemp temp gt r).self_ = r.self_ := by cases temp <;> rfl

theorem refreshTemp_eq (s : State) (j : Nat) : refreshTemp s j = modRsv s j (atTemp (rsvTemp s j) s.gt) := by
  unfold refreshTemp
  cases rsvTemp s j with
  | none => rfl
  | some x =>
    refine congrArg (modRsv s j) (funext fun r => ?_)
    cases hcalm : r.calm <;> simp [atTemp, hcalm]

section
variable {s : State} {j : BitVec 3}

theorem exec_reservoirRefresh_of_absent {bank : BitVec 7} (h : 72 ≤ bank.toNat ∨ dieUp s (8 + j.toNat) = false) :
    exec (.reservoirRefresh j bank) s = .next s := if_pos (by simpa using h)

theorem exec_reservoirRefresh_of_serving {bank : BitVec 7} (hbank : bank.toNat < 72) (hup : dieUp s (8 + j.toNat) = true) :
    exec (.reservoirRefresh j bank) s =
      .next (modRsv (modRsv s j.toNat (atTemp (rsvTemp s j.toNat) s.gt)) j.toNat (rowRefreshed bank.toNat)) := by
  rw [← refreshTemp_eq]
  exact if_neg (by simp [hup, hbank])

theorem reservoirRefresh_rsvPut (s : State) (j bank : Nat) :
    RsvPut s (modRsv (modRsv s j (atTemp (rsvTemp s j) s.gt)) j (rowRefreshed bank)) j
      (rowRefreshed bank (atTemp (rsvTemp s j) s.gt (rsvOf s j))) := by
  have htemp := modRsv_rsvPut s j (atTemp (rsvTemp s j) s.gt)
  have hrow := modRsv_rsvPut (modRsv s j (atTemp (rsvTemp s j) s.gt)) j (rowRefreshed bank)
  rw [htemp.1] at hrow
  exact rsvPut_trans htemp hrow

theorem exec_refreshIntervalRelax_of_kept
    (h : (rsvOf s j.toNat).self_ = true ∨ ∀ c, (rsvOf s j.toNat).calm = some c → s.gt < c + 5000000) :
    exec (.refreshIntervalRelax j) s = .next s := by
  show execRefreshIntervalRelax j s = _
  unfold execRefreshIntervalRelax
  cases hcalm : (rsvOf s j.toNat).calm with
  | none => rfl
  | some c =>
    refine if_neg fun hrelax => ?_
    obtain ⟨hlong, hown⟩ := Bool.and_eq_true_iff.mp hrelax
    rcases h with hself | hearly
    · rw [hself] at hown
      exact Bool.false_ne_true hown
    · exact Nat.not_le.mpr (hearly c hcalm) (of_decide_eq_true hlong)

theorem exec_refreshIntervalRelax_of_calm {c : Nat} (hself : (rsvOf s j.toNat).self_ = false) (hcalm : (rsvOf s j.toNat).calm = some c)
    (hlong : c + 5000000 ≤ s.gt) :
    exec (.refreshIntervalRelax j) s = .next (modRsv s j.toNat fun r => { r with hot := false }) := by
  show execRefreshIntervalRelax j s = _
  simp only [execRefreshIntervalRelax, hcalm]
  exact if_pos (by simp [hself, hlong])

/-! ### Scrubbed words of a reservoir -/

section
variable {off : BitVec 33} {errs : BitVec 2}

theorem exec_reservoirScrub_of_nothing (h : dieUp s (8 + j.toNat) = false ∨ 0x120000000 ≤ off.toNat ∨ errs = 0#2) :
    exec (.reservoirScrub j off errs) s = .next s := by
  by_cases hrange : (!dieUp s (8 + j.toNat) || decide (0x120000000 ≤ off.toNat)) = true
  · exact if_pos hrange
  · have herrs : errs = 0#2 := by
      rcases h with hdown | hfar | herrs
      · simp [hdown] at hrange
      · simp [hfar] at hrange
      · exact herrs
    subst herrs
    exact if_neg hrange

variable (hup : dieUp s (8 + j.toNat) = true) (hoff : off.toNat < 0x120000000)
include hup hoff

theorem exec_reservoirScrub_of_single (herrs : errs = 1#2) :
    exec (.reservoirScrub j off errs) s = .next (bump s (0x2801000 + j.toNat * 0x1000 + 4) 1) := by
  subst herrs
  rw [show 0x2801000 + j.toNat * 0x1000 + 4 = 0x2801004 + j.toNat * 0x1000 by omega]
  exact if_neg (by simp [hup, hoff])

theorem exec_reservoirScrub_of_double (herrs : 2 ≤ errs.toNat) :
    exec (.reservoirScrub j off errs) s = .next (t1DoubleBit s j.toNat off.toNat false false) := by
  refine (if_neg (by simp [hup, hoff])).trans ?_
  have hlt := errs.isLt
  obtain h | h : errs.toNat = 2 ∨ errs.toNat = 3 := by omega
  · rw [h]
    rfl
  · rw [h]
    rfl

end

/-- The record of a double-bit error that the scrub found (17_faults.md R534 MEM_T1). -/
def t1Record (s : State) (j addr : Nat) : FaultArgs :=
  { cls := 0x0E, unit := unitId 0x0C 0, outcome := 0, addr := addr, detail := b2n (copyAt s j addr).isSome }

theorem t1DoubleBit_of_noCopy {j off : Nat} (h : copyAt s j (0x100000000000 + j * 0x000200000000 + off) = none) :
    t1DoubleBit s j off false false =
      fault (bump s (0x2801000 + j * 0x1000 + 8) 1) (t1Record s j (0x100000000000 + j * 0x000200000000 + off)) := by
  simp only [t1DoubleBit, t1Record, h]

theorem t1DoubleBit_of_copy {j off : Nat} {c : Machine.PUnit} (h : copyAt s j (0x100000000000 + j * 0x000200000000 + off) = some c) :
    t1DoubleBit s j off false false =
      fault (bump (bump (updUnits (bump s (0x2801000 + j * 0x1000 + 8) 1) (fun x => x.key = c.key)
          fun x => { x with t1 := none, t0 := if x.pin0 then x.t0 else none }) (0x2801000 + j * 0x1000 + 0xC) 1) 0x1000088
        (b2n (c.key.kind = .sketch))) (t1Record s j (0x100000000000 + j * 0x000200000000 + off)) := by
  simp only [t1DoubleBit, t1Record, h, Bool.false_and]
  rfl

end

/-! ### Bytes and marks of local memory -/

theorem memWrite_cells (s : State) (a : Nat) (bs : List Byte) : (memWrite s a bs).mem.cells = putBytes s.mem.cells a bs := by
  show putBytes (if marked a = true then cleanGranule s.mem (a / 2 ^ 21) else s.mem).cells a bs = _
  split <;> rfl

theorem memByte_memWrite_same (s : State) (a : Nat) (bs : List Byte) {i : Nat} (h : i < bs.length) :
    memByte (memWrite s a bs) (a + i) = bs.getD i 0#8 := by
  rw [memByte, memWrite_cells, tabGet_putBytes_same _ _ _ _ h, List.getD_eq_getElem?_getD, List.getElem?_eq_getElem h, Option.getD_some]

theorem memByte_memWrite_other (s : State) (a : Nat) (bs : List Byte) {b : Nat} (h : b < a ∨ a + bs.length ≤ b) :
    memByte (memWrite s a bs) b = memByte s b := by
  rw [memByte, memWrite_cells, tabGet_putBytes_other _ _ _ _ h]
  rfl

theorem getD_memRead (s : State) (a : Nat) {i n : Nat} (h : i < n) : (memRead s a n).getD i 0#8 = memByte s (a + i) := by
  simp [memRead, List.getD_eq_getElem?_getD, h]

theorem tabFind_filter {α : Type} (m : List (Nat × α)) (p : Nat → Bool) (k : Nat) :
    tabFind (m.filter fun e => p e.1) k = if p k then tabFind m k else none := by
  induction m with
  | nil => simp [tabFind]
  | cons e m ih =>
    obtain ⟨n, v⟩ := e
    by_cases hn : p n = true
    · by_cases hk : k = n
      · subst hk
        simp [tabFind, hn]
      · simp [tabFind, hn, hk, ih]
    · by_cases hk : k = n
      · subst hk
        simp [hn, ih]
      · simp [tabFind, hn, hk, ih]

theorem tabGet_markPending (m : Mem) (p : Nat → Bool) (a : Nat) :
    tabGet (markPending m p).cells 0#8 a = if marked a && p (a / 2 ^ 21) then 0#8 else tabGet m.cells 0#8 a := by
  have hfind := tabFind_filter m.cells (fun k => !(marked k && p (k / 2 ^ 21))) a
  rw [tabGet, markPending, hfind]
  cases marked a && p (a / 2 ^ 21) <;> rfl

theorem mem_markPending_clean {m : Mem} {p : Nat → Bool} {g : Nat} : g ∈ (markPending m p).clean ↔ g ∈ m.clean ∧ p g = false := by
  simp [markPending]

theorem mem_insertBy {α : Type} {lt : α → α → Bool} {x y : α} {xs : List α} : y ∈ insertBy lt x xs ↔ y = x ∨ y ∈ xs := by
  induction xs with
  | nil => simp [insertBy]
  | cons z xs ih =>
    rw [insertBy]
    split
    · exact List.mem_cons
    · rw [List.mem_cons, ih, List.mem_cons]
      exact or_left_comm

theorem mem_sortBy {α : Type} {lt : α → α → Bool} {y : α} (xs : List α) : y ∈ sortBy lt xs ↔ y ∈ xs := by
  have hfold (acc : List α) : y ∈ xs.foldl (fun acc x => insertBy lt x acc) acc ↔ y ∈ xs ∨ y ∈ acc := by
    induction xs generalizing acc with
    | nil => simp
    | cons x xs ih => rw [List.foldl_cons, ih, mem_insertBy, List.mem_cons, or_assoc, or_left_comm]
  exact (hfold []).trans (or_iff_left List.not_mem_nil)

theorem mem_cleanGranule {m : Mem} {g k : Nat} : k ∈ (cleanGranule m g).clean ↔ k = g ∨ k ∈ m.clean := by
  simp only [cleanGranule]
  split
  · next h => exact ⟨.inr, fun hk => hk.elim (fun e => e ▸ List.contains_iff_mem.mp h) id⟩
  · exact (mem_sortBy _).trans List.mem_cons

theorem exec_granuleZeroed_of_unmarked {s : State} {g : BitVec 24} (h : zeroable (placeOf s (g.toNat * 2 ^ 21)) = false) :
    exec (.granuleZeroed g) s = .next s := congrArg Host.Outcome.next (if_neg (Bool.eq_false_iff.mp h))

theorem exec_granuleZeroed_of_marked {s : State} {g : BitVec 24} (h : zeroable (placeOf s (g.toNat * 2 ^ 21)) = true) :
    exec (.granuleZeroed g) s = .next (modMem s fun m => cleanGranule m g.toNat) := congrArg Host.Outcome.next (if_pos h)

/-! ### The region table -/

section
variable (s : State) (n : Nat) (r : Region)

theorem setRegion_regions : (setRegion s n r).mem.regions = tabSet s.mem.regions {} n r := rfl

/-- A granule's tag depends on the region table alone. -/
theorem granuleTag_of_regions {m m' : Mem} (h : m'.regions = m.regions) (g : Nat) : granuleTag m' g = granuleTag m g := by
  simp only [granuleTag, regionOf, h]

/-- A byte of T1 or T2 whose granule's tag changes reads zero; every other byte reads as before (08 R287). -/
theorem memByte_setRegion (a : Nat) : memByte (setRegion s n r) a =
    if a < 0x140000000000 ∧ granuleTag s.mem (a / 2 ^ 21) ≠ granuleTag (setRegion s n r).mem (a / 2 ^ 21) then 0#8 else memByte s a := by
  rw [granuleTag_of_regions (m := { s.mem with regions := tabSet s.mem.regions {} n r }) (setRegion_regions s n r)]
  refine (tabGet_markPending _ _ a).trans (ite_congr (propext ?_) (fun _ => rfl) fun _ => rfl)
  exact Bool.and_eq_true_iff.trans (and_congr decide_eq_true_iff decide_eq_true_iff)

theorem not_mem_setRegion_clean {g : Nat} (h : granuleTag s.mem g ≠ granuleTag (setRegion s n r).mem g) :
    g ∉ (setRegion s n r).mem.clean := by
  rw [granuleTag_of_regions (m := { s.mem with regions := tabSet s.mem.regions {} n r }) (setRegion_regions s n r)] at h
  intro hclean
  have hkept := (mem_markPending_clean.mp hclean).2
  exact of_decide_eq_false hkept h

end

/-- Settles O30: a refresh is the two changes of one reservoir of `reservoirRefresh_rsvPut`, a scrub's double-bit error one of
`t1DoubleBit_of_…`; `memByte_setRegion` gives the bytes under a changed region table and `mem_cleanGranule` the marks. -/
theorem reservoirsAndRegions : Obligations.ReservoirsAndRegions := by
  unfold Obligations.ReservoirsAndRegions
  refine ⟨fun s j bank => ?_, fun s j off errs => ?_, fun s n base limit attr => ?_, fun s g => ?_⟩
  · intro r
    refine ⟨fun h => ⟨_, exec_reservoirRefresh_of_absent h, rfl⟩, fun hbank hup => ⟨_, exec_reservoirRefresh_of_serving hbank hup, ?_⟩,
      fun h => ⟨_, exec_refreshIntervalRelax_of_kept h, rfl⟩,
      fun c hself hcalm hlong => ⟨_, exec_refreshIntervalRelax_of_calm hself hcalm hlong, modRsv_rsvPut s _ _⟩⟩
    obtain ⟨hput, hother, hrest⟩ := reservoirRefresh_rsvPut s j.toNat bank.toNat
    rw [hput]
    refine ⟨?_, fun b hb => ?_, ?_, fun htemp => ?_, fun x htemp => ?_, hother, hrest⟩
    · exact (tabGet_set_same _ _ _ _).trans (by rw [atTemp_rows])
    · exact (tabGet_set_other _ _ _ _ hb).trans (by rw [atTemp_rows])
    · exact atTemp_self _ _ _
    · rw [htemp]
      exact ⟨rfl, rfl⟩
    · rw [htemp]
      exact ⟨by simp [rowRefreshed, atTemp, r], rfl⟩
  · intro base
    refine ⟨fun h => ⟨_, exec_reservoirScrub_of_nothing h, rfl⟩,
      fun hup hoff herrs => ⟨_, exec_reservoirScrub_of_single hup hoff herrs, bump_counted _ _ _⟩,
      fun hup hoff herrs => ⟨_, exec_reservoirScrub_of_double hup hoff herrs, ?_⟩⟩
    cases hcopy : copyAt s j.toNat (0x100000000000 + j.toNat * 0x000200000000 + off.toNat) with
    | none =>
      exact ⟨_, _, bump_counted _ _ _, fun _ => rfl, fun _ h => absurd (hcopy.symm.trans h) (by simp), t1DoubleBit_of_noCopy hcopy⟩
    | some c =>
      refine ⟨_, _, bump_counted _ _ _, fun h => absurd (hcopy.symm.trans h) (by simp), fun c' h => ?_, t1DoubleBit_of_copy hcopy⟩
      obtain rfl : c = c' := Option.some.inj (hcopy.symm.trans h)
      exact ⟨_, _, rfl, bump_counted _ _ _, bump_counted _ _ _⟩
  · refine ⟨_, rfl, tabGet_set_same _ _ _ _, fun k hk => tabGet_set_other _ _ _ _ hk, fun a => ⟨fun ha htag => ⟨?_, ?_⟩, fun h => ?_⟩, rfl⟩
    · exact (memByte_setRegion s _ _ a).trans (if_pos ⟨ha, htag⟩)
    · exact not_mem_setRegion_clean s _ _ htag
    · exact (memByte_setRegion s _ _ a).trans (if_neg fun hboth => h.elim (Nat.not_le.mpr hboth.1) hboth.2)
  · refine ⟨fun h => ⟨_, exec_granuleZeroed_of_unmarked h, rfl⟩, fun h => ⟨_, exec_granuleZeroed_of_marked h, ?_⟩⟩
    exact ⟨mem_cleanGranule.mpr (.inl rfl), fun k hk => mem_cleanGranule.trans (or_iff_right hk), fun _ => rfl, rfl⟩

end Sys2Proof.Proofs
end

section
/-!
Board DRAM (08_memory_tiers.md R270 to R273): one channel changed, the patrol scrub, retraining, and what boot training finds.
-/
namespace Sys2Proof.Proofs
open Sys2Proof Sys2Proof.Machine

/-! ### One channel changed -/

/-- One channel of a port die is replaced; every other channel, every other port die and the rest of the state are as before. -/
def DramPut (s t : State) (p c : Nat) (x : DramChan) : Prop :=
  dramOf t p c = x ∧ (∀ k, k ≠ c → dramOf t p k = dramOf s p k) ∧ (∀ q, q ≠ p → portMem t q = portMem s q) ∧
  t = { s with mem := { s.mem with ports := t.mem.ports } }

@[simp] theorem portMem_modPort_same (s : State) (p : Nat) (f : PortMem → PortMem) : portMem (modPort s p f) p = f (portMem s p) :=
  tabGet_set_same _ _ _ _

theorem portMem_modPort_other (s : State) {p q : Nat} (f : PortMem → PortMem) (h : q ≠ p) : portMem (modPort s p f) q = portMem s q :=
  tabGet_set_other _ _ _ _ h

theorem modDram_dramPut (s : State) (p c : Nat) (f : DramChan → DramChan) : DramPut s (modDram s p c f) p c (f (dramOf s p c)) := by
  refine ⟨?_, fun k hk => ?_, fun q hq => portMem_modPort_other s _ hq, rfl⟩
  · rw [dramOf, modDram, portMem_modPort_same]
    exact tabGet_set_same _ _ _ _
  · rw [dramOf, modDram, portMem_modPort_same]
    exact tabGet_set_other _ _ _ _ hk

theorem modDram_dramPut_of_eq {s : State} {p c : Nat} {f : DramChan → DramChan} {x : DramChan} (h : f (dramOf s p c) = x) :
    DramPut s (modDram s p c f) p c x := h ▸ modDram_dramPut s p c f

/-! ### The patrol scrub -/

section
variable {s : State} {p : BitVec 2} {off : BitVec 40} {err : CodeRead} {last : Bool}

/-- The state in which the end of a pass of the patrol scrub is counted. -/
def passCounted (s : State) (p : Nat) (last : Bool) : State :=
  if last then modPort s p fun q => { q with scrubs := satAdd 32 q.scrubs 1 } else s

theorem portMem_passCounted_other (s : State) {p q : Nat} (last : Bool) (h : q ≠ p) : portMem (passCounted s p last) q = portMem s q := by
  cases last with
  | false => rfl
  | true => exact portMem_modPort_other s _ h

theorem passCounted_frame (s : State) (p : Nat) (last : Bool) :
    passCounted s p last = { s with mem := { s.mem with ports := (passCounted s p last).mem.ports } } := by
  cases last <;> rfl

theorem exec_dramScrub_of_absent (h : dieUp s (16 + p.toNat) = false ∨ t2Size s ≤ off.toNat) :
    exec (.dramScrub p off err last) s = .next s := if_pos (by simpa using h)

variable (hup : dieUp s (16 + p.toNat) = true) (hoff : off.toNat < t2Size s)
include hup hoff

theorem dramScrub_not_absent : ¬ (!dieUp s (16 + p.toNat) || decide (t2Size s ≤ off.toNat)) = true := by simp [hup, hoff]

theorem exec_dramScrub_of_clean (hcode : codeResult err = .clean) :
    exec (.dramScrub p off err last) s = .next (passCounted s p.toNat last) :=
  (if_neg (dramScrub_not_absent hup hoff)).trans (by rw [hcode]; rfl)

theorem exec_dramScrub_of_corrected (hcode : codeResult err = .corrected) :
    exec (.dramScrub p off err last) s =
      .next (modDram (passCounted s p.toNat last) p.toNat (channelOf off.toNat).1 fun q => { q with ce := satAdd 32 q.ce 1 }) :=
  (if_neg (dramScrub_not_absent hup hoff)).trans (by rw [hcode]; rfl)

theorem exec_dramScrub_of_uncorrectable (hcode : codeResult err = .uncorrectable) :
    exec (.dramScrub p off err last) s = .next (t2Uncorrectable (passCounted s p.toNat last) p.toNat off.toNat false) :=
  (if_neg (dramScrub_not_absent hup hoff)).trans (by rw [hcode]; rfl)

end

/-! ### Retraining -/

section
variable {s : State} {p : BitVec 2} {c : BitVec 3} {rate : BitVec 4}

/-- Another channel of the port die retrains. -/
def OtherRetrains (s : State) (p c : Nat) : Prop := ∃ e, e ∈ (portMem s p).chans ∧ e.1 ≠ c ∧ e.2.st = .retraining

theorem otherRetrains_iff (s : State) (p c : Nat) :
    ((portMem s p).chans.any fun e => e.1 ≠ c && e.2.st = .retraining) = true ↔ OtherRetrains s p c := by
  simp [OtherRetrains, List.any_eq_true]

theorem exec_channelRetrain_of_notServing (h : (dramOf s p.toNat c.toNat).st ≠ .inService) :
    exec (.channelRetrain p c false rate) s = .next s := by
  show execChannelRetrain p c false rate s = _
  cases hst : (dramOf s p.toNat c.toNat).st with
  | inService => exact absurd hst h
  | untrained | failed | retraining => simp only [execChannelRetrain, hst]

theorem exec_channelRetrain_of_serving (h : (dramOf s p.toNat c.toNat).st = .inService) :
    exec (.channelRetrain p c false rate) s = .next (modDram s p.toNat c.toNat fun q =>
      if ((portMem s p.toNat).chans.any fun e => e.1 ≠ c.toNat && e.2.st = .retraining) || !retrainDue s q rate.toNat then
        { q with refRate := rate.toNat }
      else { q with st := .retraining, refRate := rate.toNat, retrainAt := s.gt, owed := false }) := by
  show execChannelRetrain p c false rate s = _
  simp only [execChannelRetrain, h]

theorem exec_channelRetrain_of_notRetraining (h : (dramOf s p.toNat c.toNat).st ≠ .retraining) :
    exec (.channelRetrain p c true rate) s = .next s := by
  show execChannelRetrain p c true rate s = _
  cases hst : (dramOf s p.toNat c.toNat).st with
  | retraining => exact absurd hst h
  | untrained | inService | failed => simp only [execChannelRetrain, hst]

theorem exec_channelRetrain_of_retraining (h : (dramOf s p.toNat c.toNat).st = .retraining) :
    exec (.channelRetrain p c true rate) s = .next (modDram s p.toNat c.toNat fun q =>
      { q with st := .inService, retrains := satAdd 16 q.retrains 1, refRate := rate.toNat, rateAt := rate.toNat }) := by
  show execChannelRetrain p c true rate s = _
  simp only [execChannelRetrain, h]

end

/-! ### What boot training finds -/

/-- Two changes of port dies alone are one. -/
theorem portsAlone_trans {s t u : State} (h : t = { s with mem := { s.mem with ports := t.mem.ports } })
    (g : u = { t with mem := { t.mem with ports := u.mem.ports } }) : u = { s with mem := { s.mem with ports := u.mem.ports } } :=
  g.trans (by rw [h])

/-- Every channel of a port die is changed. -/
def modChannels (s : State) (p : Nat) (f : Nat → DramChan → DramChan) : State :=
  (List.range 8).foldl (fun t c => modDram t p c (f c)) s

/-- Channels changed one after another: each listed one once, every other one not; other port dies and the rest are as before. -/
theorem foldl_modDram_spec (p : Nat) (f : Nat → DramChan → DramChan) {cs : List Nat} (hcs : cs.Nodup) (s : State) :
    let t := cs.foldl (fun t c => modDram t p c (f c)) s
    (∀ c, dramOf t p c = if c ∈ cs then f c (dramOf s p c) else dramOf s p c) ∧ (∀ q, q ≠ p → portMem t q = portMem s q) ∧
    t = { s with mem := { s.mem with ports := t.mem.ports } } := by
  induction cs generalizing s with
  | nil => exact ⟨fun _ => rfl, fun _ _ => rfl, rfl⟩
  | cons c cs ih =>
    obtain ⟨hnot, hcs⟩ := List.nodup_cons.mp hcs
    obtain ⟨hput, hchans, hports, hrest⟩ := modDram_dramPut s p c (f c)
    obtain ⟨ihchans, ihports, ihrest⟩ := ih hcs (modDram s p c (f c))
    refine ⟨fun k => ?_, fun q hq => (ihports q hq).trans (hports q hq), portsAlone_trans hrest ihrest⟩
    by_cases hk : k = c
    · subst hk
      exact (ihchans k).trans (by simp [hnot, hput])
    · exact (ihchans k).trans (by simp [hk, hchans k hk])

theorem modChannels_spec (s : State) (p : Nat) (f : Nat → DramChan → DramChan) :
    (∀ c, c < 8 → dramOf (modChannels s p f) p c = f c (dramOf s p c)) ∧
    (∀ q, q ≠ p → portMem (modChannels s p f) q = portMem s q) ∧
    modChannels s p f = { s with mem := { s.mem with ports := (modChannels s p f).mem.ports } } := by
  obtain ⟨hchans, hports, hrest⟩ := foldl_modDram_spec p f List.nodup_range s
  exact ⟨fun c hc => (hchans c).trans (if_pos (List.mem_range.mpr hc)), hports, hrest⟩

section
variable {s : State} {p : Nat} {found : List (Bool × BitVec 2 × BitVec 3)}

/-- What training found of the first channel. -/
def firstFound (found : List (Bool × BitVec 2 × BitVec 3)) : Bool × BitVec 2 × BitVec 3 := found.headD (false, 0#2, 0#3)

/-- Eight channels all trained alike, with 1 or 2 ranks and at least 16 GiB, like those of the other port dies (08 R270, R277). -/
def Alike (s : State) (found : List (Bool × BitVec 2 × BitVec 3)) : Prop :=
  found.length = 8 ∧ (∀ x, x ∈ found → x.1 = true ∧ x.2 = (firstFound found).2) ∧ 4 ≤ (firstFound found).2.2.toNat ∧
  ((firstFound found).2.1 = 1#2 ∨ (firstFound found).2.1 = 2#2) ∧
  (s.mem.chLog = 0 ∨ (s.mem.chLog = (firstFound found).2.2.toNat ∧ s.mem.ranks = (firstFound found).2.1.toNat))

/-- The test of `trainDram`. -/
def alike (s : State) (found : List (Bool × BitVec 2 × BitVec 3)) : Bool :=
  let f := firstFound found
  (decide (found.length = 8) && found.all fun x => x.1 && decide (x.2 = f.2)) &&
  (decide (4 ≤ f.2.2.toNat) && (f.2.1 = 1#2 || f.2.1 = 2#2)) &&
  (s.mem.chLog = 0 || (s.mem.chLog = f.2.2.toNat && s.mem.ranks = f.2.1.toNat))

theorem alike_iff (s : State) (found : List (Bool × BitVec 2 × BitVec 3)) : alike s found = true ↔ Alike s found := by
  simp only [alike, Alike, Bool.and_eq_true, Bool.or_eq_true, decide_eq_true_eq, List.all_eq_true, and_assoc]

/-- The state in which the population found is noted. -/
def withFound (t : State) (found : List (Bool × BitVec 2 × BitVec 3)) : State :=
  modMem t fun m => { m with chLog := (firstFound found).2.2.toNat, ranks := (firstFound found).2.1.toNat }

@[simp] theorem portMem_withFound (t : State) (q : Nat) : portMem (withFound t found) q = portMem t q := rfl
@[simp] theorem dramOf_withFound (t : State) (q c : Nat) : dramOf (withFound t found) q c = dramOf t q c := rfl
@[simp] theorem dieOf_withFound (t : State) (i : Nat) : dieOf (withFound t found) i = dieOf t i := rfl

theorem withFound_frame {t : State} (h : t = { s with mem := { s.mem with ports := t.mem.ports } }) : let u := withFound t found
    u = { s with mem := { s.mem with ports := u.mem.ports, chLog := u.mem.chLog, ranks := u.mem.ranks } } :=
  congrArg (fun t : State => withFound t found) h

theorem dieOf_modChannels (s : State) (p : Nat) (f : Nat → DramChan → DramChan) (i : Nat) : dieOf (modChannels s p f) i = dieOf s i := by
  obtain ⟨-, -, hrest⟩ := modChannels_spec s p f
  rw [hrest]
  rfl

/-- A channel that comes into service from training. -/
def enteringService (gt : Nat) (x : DramChan) : DramChan := { x with st := .inService, retrainAt := gt }

/-- A channel of a port die that fails its training. -/
def asFound (found : List (Bool × BitVec 2 × BitVec 3)) (c : Nat) (x : DramChan) : DramChan :=
  { x with st := if (found.getD c (false, 0#2, 0#3)).1 then .inService else .failed }

/-- The state in which a port die's channels have come into service with what training found of them. -/
def populated (s : State) (p : Nat) (found : List (Bool × BitVec 2 × BitVec 3)) : State :=
  withFound (modChannels s p fun _ => enteringService s.gt) found

theorem populated_spec (s : State) (p : Nat) (found : List (Bool × BitVec 2 × BitVec 3)) : let u := populated s p found
    (∀ c, c < 8 → dramOf u p c = enteringService s.gt (dramOf s p c)) ∧ u.mem.chLog = (firstFound found).2.2.toNat ∧
    u.mem.ranks = (firstFound found).2.1.toNat ∧ (∀ q, q ≠ p → portMem u q = portMem s q) ∧
    u = { s with mem := { s.mem with ports := u.mem.ports, chLog := u.mem.chLog, ranks := u.mem.ranks } } := by
  obtain ⟨hchans, hports, hrest⟩ := modChannels_spec s p fun _ => enteringService s.gt
  exact ⟨fun c hc => (dramOf_withFound _ p c).trans (hchans c hc), rfl, rfl, fun q hq => (portMem_withFound _ q).trans (hports q hq),
    withFound_frame hrest⟩

theorem trainDram_of_notAwaited (h : (dieOf s (16 + p)).st ≠ .testing ∨ trained s p = true) : trainDram s p found = s :=
  if_pos (by simpa using h)

variable (hst : (dieOf s (16 + p)).st = .testing) (huntrained : trained s p = false)
include hst huntrained

theorem trainDram_of_alike (h : Alike s found) : trainDram s p found =
    if (dieOf s (16 + p)).returning then admitDie (populated s p found) (16 + p) else populated s p found := by
  have hdie : dieOf (populated s p found) (16 + p) = dieOf s (16 + p) := (dieOf_withFound _ _).trans (dieOf_modChannels _ _ _ _)
  rw [← hdie]
  refine (if_neg (by simp [hst, huntrained])).trans (if_neg ?_)
  rw [Bool.not_eq_true', Bool.not_eq_false]
  exact (alike_iff s found).mpr h

theorem trainDram_of_unlike (h : ¬ Alike s found) : trainDram s p found =
    failDie (modChannels s p (asFound found)) (16 + p) := by
  refine (if_neg (by simp [hst, huntrained])).trans (if_pos ?_)
  rw [Bool.not_eq_true', ← Bool.not_eq_true]
  exact mt (alike_iff s found).mp h

end

/-- Settles O31: a scrub is one of `exec_dramScrub_of_…`, after the pass is counted; a retrain changes one channel by `modDram_dramPut`; and
training brings a port die's channels into service by `populated_spec`, or leaves them as found by `modChannels_spec` and fails the die. -/
theorem boardDram : Obligations.BoardDram := by
  unfold Obligations.BoardDram
  refine ⟨fun s p off err last => ⟨fun h => ⟨_, exec_dramScrub_of_absent h, rfl⟩, fun hup hoff => ?_⟩, fun s p c rate => ?_, fun s p found => ?_⟩
  · have hpass : last = true → portMem (passCounted s p.toNat last) p.toNat =
        { portMem s p.toNat with scrubs := min ((portMem s p.toNat).scrubs + 1) (2 ^ 32 - 1) } := fun h => by
      subst h
      exact portMem_modPort_same s _ _
    have hnone : last = false → passCounted s p.toNat last = s := fun h => by rw [h]; rfl
    have hother (q : Nat) (hq : q ≠ p.toNat) := portMem_passCounted_other s last hq
    have hframe := passCounted_frame s p.toNat last
    cases hcode : codeResult err with
    | clean =>
      refine ⟨_, exec_dramScrub_of_clean hup hoff hcode, _, hnone, hpass, hother, hframe, fun _ => rfl, ?_, ?_⟩ <;> rintro ⟨⟩
    | corrected =>
      refine ⟨_, exec_dramScrub_of_corrected hup hoff hcode, _, hnone, hpass, hother, hframe, ?_, fun _ => modDram_dramPut _ _ _ _, ?_⟩ <;> rintro ⟨⟩
    | uncorrectable =>
      refine ⟨_, exec_dramScrub_of_uncorrectable hup hoff hcode, _, hnone, hpass, hother, hframe, ?_, ?_, fun _ => rfl⟩ <;> rintro ⟨⟩
  · intro x other only due
    refine ⟨fun h => ⟨_, exec_channelRetrain_of_notServing h, rfl⟩,
      fun hst hwait => ⟨_, exec_channelRetrain_of_serving hst, modDram_dramPut_of_eq (if_pos ?_)⟩,
      fun hst hfree hdue => ⟨_, exec_channelRetrain_of_serving hst, modDram_dramPut_of_eq (if_neg ?_)⟩,
      fun h => ⟨_, exec_channelRetrain_of_notRetraining h, rfl⟩,
      fun hst => ⟨_, exec_channelRetrain_of_retraining hst, modDram_dramPut s _ _ _⟩⟩
    · rw [Bool.or_eq_true, otherRetrains_iff, Bool.not_eq_true']
      exact hwait
    · rw [Bool.or_eq_true, otherRetrains_iff, Bool.not_eq_true', not_or, Bool.not_eq_false]
      exact ⟨hfree, hdue⟩
  · intro f alike
    refine ⟨fun h => ⟨_, rfl, congrArg bootAdvance (trainDram_of_notAwaited h)⟩, fun hst huntrained h => ⟨_, rfl, populated s p.toNat found, ?_⟩,
      fun hst huntrained h => ⟨_, rfl, modChannels s p.toNat (asFound found), ?_⟩⟩
    · obtain ⟨hchans, hlog, hranks, hports, hrest⟩ := populated_spec s p.toNat found
      exact ⟨hchans, hlog, hranks, hports, hrest, congrArg bootAdvance (trainDram_of_alike hst huntrained h)⟩
    · obtain ⟨hchans, hports, hrest⟩ := modChannels_spec s p.toNat (asFound found)
      exact ⟨hchans, hports, hrest, congrArg bootAdvance (trainDram_of_unlike hst huntrained h)⟩

end Sys2Proof.Proofs
end

section
/-!
Reads and line commits of a DMA channel (10_dma_check.md R333 to R338): the lines committed without a gap, one channel changed,
and each command's equation, a case at a time.
-/
namespace Sys2Proof.Proofs
open Sys2Proof Sys2Proof.Machine

/-! ### The lines committed without a gap -/

/-- With fuel for every line listed, the count ends at the first line from `d` on that is not listed; the lines it passes leave the list. -/
theorem prefixRun_spec {fuel : Nat} (d : Nat) (l : List Nat) (hfuel : l.length < fuel) : let p := prefixRun fuel d l
    d ≤ p.1 ∧ (∀ j, d ≤ j → j < p.1 → j ∈ l) ∧ p.1 ∉ l ∧ ∀ j, j ∈ p.2 ↔ j ∈ l ∧ (j < d ∨ p.1 ≤ j) := by
  induction fuel generalizing d l with
  | zero => exact absurd hfuel (Nat.not_lt_zero _)
  | succ fuel ih =>
    by_cases hd : d ∈ l
    · have hshort : (l.filter (· ≠ d)).length < l.length := List.length_filter_lt_length_iff_exists.mpr ⟨d, hd, by simp⟩
      obtain ⟨hle, hpassed, hend, hleft⟩ := ih (d + 1) (l.filter (· ≠ d)) (by omega)
      rw [prefixRun, if_pos (List.contains_iff_mem.mpr hd)]
      simp only [List.mem_filter, decide_eq_true_eq] at hpassed hend hleft
      refine ⟨by omega, fun j hj hlt => ?_, fun hmem => hend ⟨hmem, by omega⟩, fun j => (hleft j).trans ?_⟩
      · by_cases hjd : j = d
        · exact hjd ▸ hd
        · exact (hpassed j (by omega) hlt).1
      · rw [and_assoc]
        exact and_congr_right fun _ => by omega
    · rw [prefixRun, if_neg (mt List.contains_iff_mem.mp hd)]
      exact ⟨Nat.le_refl d, fun j hj hlt => absurd hlt (Nat.not_lt.mpr hj), hd, fun j => (and_iff_left (Nat.lt_or_ge j d)).symm⟩

/-! ### One channel changed -/

@[simp] theorem dmaOf_modDma_same (s : State) (n : Nat) (f : DmaChan → DmaChan) : dmaOf (modDma s n f) n = f (dmaOf s n) :=
  tabGet_set_same _ _ _ _

theorem dmaOf_modDma_other (s : State) {n m : Nat} (f : DmaChan → DmaChan) (h : m ≠ n) : dmaOf (modDma s n f) m = dmaOf s m :=
  tabGet_set_other _ _ _ _ h

theorem modDma_dmaPut (s : State) (n : Nat) (f : DmaChan → DmaChan) : DmaPut s (modDma s n f) n (f (dmaOf s n)) :=
  ⟨dmaOf_modDma_same s n f, fun _ hk => dmaOf_modDma_other s f hk, rfl⟩

theorem dmaOf_takeBytes (s : State) (n m : Nat) (data : List Byte) : dmaOf (takeBytes s n data) m =
    dmaOf (modDma s n fun q => { q with data := q.data ++ data, readBy := hostBy s (bits (dmaCtl s n) 23 22) }) m := by
  unfold takeBytes noteSegs clearRetry dmaOf
  rfl

/-- Bytes that enter a channel's buffer change that channel, end the retries of its read and note the segments in use. -/
theorem takeBytes_dmaPut (s : State) (n : BitVec 6) (data : List Byte) :
    DmaPut (clearRetry s (.dmaRead n)) (takeBytes s n.toNat data) n.toNat
      { dmaOf s n.toNat with data := (dmaOf s n.toNat).data ++ data, readBy := hostBy s (bits (dmaCtl s n.toNat) 23 22) } ∧
    (takeBytes s n.toNat data).dma.hwm = max s.dma.hwm (segsInUse (takeBytes s n.toNat data)) := by
  have hn : BitVec.ofNat 6 n.toNat = n := (BitVec.ofNat_toNat ..).trans (BitVec.setWidth_eq n)
  refine ⟨⟨(dmaOf_takeBytes s _ _ data).trans (dmaOf_modDma_same s _ _),
    fun m hm => (dmaOf_takeBytes s _ m data).trans (dmaOf_modDma_other s _ hm), ?_⟩, rfl⟩
  rw [takeBytes, hn]
  rfl

/-! ### DMA_READ_COMPLETE -/

theorem of_mayTake {s : State} {n len : Nat} (h : mayTake s n len = true) :
    (dmaOf s n).st = .running ∧ 0 < len ∧ len ≤ 4096 ∧ (dmaOf s n).start + (dmaOf s n).data.length + len ≤ dmaCount s n := by
  simp only [mayTake, Bool.and_eq_true, decide_eq_true_eq] at h
  obtain ⟨⟨⟨⟨⟨⟨⟨⟨hst, -⟩, hpos⟩, hmax⟩, hroom⟩, -⟩, -⟩, -⟩, -⟩ := h
  exact ⟨hst, hpos, hmax, hroom⟩

section
variable {s : State} {n : BitVec 6} {bs : List Byte}

/-- The channel's host read has waited past its limit (10 R338). -/
def DmaReadLate (s : State) (n : Nat) : Prop := (dmaOf s n).st = .running ∧ ∃ lim, (dmaOf s n).readBy = some lim ∧ lim < s.gt

/-- The next byte of the source. -/
def readFrom (s : State) (n : Nat) : Nat := dmaSrc s n + (dmaOf s n).start + (dmaOf s n).data.length

/-- Who a channel reads and writes local memory as. -/
def dmaWho (s : State) (n : Nat) : MemReq := actsAs s ((dmaCtl s n).getLsbD 28) (bits (dmaCtl s n) 15 0)

theorem exec_dmaReadComplete_of_late (h : DmaReadLate s n.toNat) : exec (.dmaReadComplete n bs) s =
    .next (failAccess (modDma s n.toNat fun c => { c with readBy := none }) (.dmaRead n)) := by
  obtain ⟨hst, lim, hlim, hlate⟩ := h
  show execDmaReadComplete n bs s = _
  simp only [execDmaReadComplete, hlim, hst, hlate, BitVec.ofNat_toNat, BitVec.setWidth_eq]
  rfl

/-- What a read does that is not late (10 R335). -/
def dmaReads (s : State) (n : Nat) (bs : List Byte) : Out :=
  if !mayTake s n bs.length then .next s
  else match localOf s (bits (dmaCtl s n) 23 22) (readFrom s n) with
    | some l => match localRead s (dmaWho s n) l bs.length with
      | .ok data => .next (takeBytes s n data)
      | .error r => .next (haltDma (refuseAccess s (dmaWho s n) r.2 r.1) n (causeOf r.1) (readFrom s n + (r.2 - l)))
    | none =>
      if bits (dmaCtl s n) 23 22 = 0 then .next (takeBytes (hostWrite s (spaceOf s (bits (dmaCtl s n) 15 0)) (readFrom s n) bs) n bs)
      else .next (sendRead s n)

theorem exec_dmaReadComplete_of_notLate (h : ¬ DmaReadLate s n.toNat) : exec (.dmaReadComplete n bs) s = dmaReads s n.toNat bs := by
  refine if_neg fun hlate => h ?_
  split at hlate
  · next lim hlim =>
    obtain ⟨hlt, hst⟩ := Bool.and_eq_true_iff.mp hlate
    exact ⟨of_decide_eq_true hst, lim, hlim, of_decide_eq_true hlt⟩
  · exact absurd hlate Bool.false_ne_true

end

section
variable {s : State} {n : Nat} {bs : List Byte}

theorem dmaReads_of_barred (hmay : mayTake s n bs.length = false) : dmaReads s n bs = .next s := if_pos (by rw [hmay]; rfl)

variable (hmay : mayTake s n bs.length = true)
include hmay

theorem mayTake_not_barred : ¬ (!mayTake s n bs.length) = true := by rw [hmay]; exact Bool.false_ne_true

theorem dmaReads_of_local {l : Nat} (hlocal : localOf s (bits (dmaCtl s n) 23 22) (readFrom s n) = some l)
    (hst : (rangeStatus s (dmaWho s n) l bs.length).1 = stOk) : dmaReads s n bs = .next (takeBytes s n (memRead s l bs.length)) := by
  refine (if_neg (mayTake_not_barred hmay)).trans ?_
  simp only [hlocal, localRead, hst, if_true]

theorem dmaReads_of_refused {l : Nat} (hlocal : localOf s (bits (dmaCtl s n) 23 22) (readFrom s n) = some l)
    (hst : (rangeStatus s (dmaWho s n) l bs.length).1 ≠ stOk) : dmaReads s n bs =
    .next (haltDma (refuseAccess s (dmaWho s n) (rangeStatus s (dmaWho s n) l bs.length).2 (rangeStatus s (dmaWho s n) l bs.length).1) n
      (causeOf (rangeStatus s (dmaWho s n) l bs.length).1) (readFrom s n + ((rangeStatus s (dmaWho s n) l bs.length).2 - l))) := by
  refine (if_neg (mayTake_not_barred hmay)).trans ?_
  simp only [hlocal, localRead, hst, if_false]

variable (hlocal : localOf s (bits (dmaCtl s n) 23 22) (readFrom s n) = none)
include hlocal

theorem dmaReads_of_host (hspace : bits (dmaCtl s n) 23 22 = 0) :
    dmaReads s n bs = .next (takeBytes (hostWrite s (spaceOf s (bits (dmaCtl s n) 15 0)) (readFrom s n) bs) n bs) := by
  refine (if_neg (mayTake_not_barred hmay)).trans ?_
  rw [hlocal]
  exact if_pos hspace

theorem dmaReads_of_tray (hspace : bits (dmaCtl s n) 23 22 ≠ 0) : dmaReads s n bs = .next (sendRead s n) := by
  refine (if_neg (mayTake_not_barred hmay)).trans ?_
  rw [hlocal]
  exact if_neg hspace

end

/-! ### A line done -/

/-- Where a line begins and ends, as offsets of the copy. -/
def spanOf (s : State) (n k : Nat) : Nat × Nat := lineSpan (dmaDst s n) (dmaCount s n) k

/-- The lines committed without a gap, and those beyond, once a line has committed. -/
def prefixWith (s : State) (n k : Nat) : Nat × List Nat := prefixRun 257 (dmaOf s n).done ((dmaOf s n).ahead ++ [k])

@[simp] theorem dmaOf_trimBuffer_done (s : State) (n : Nat) : (dmaOf (trimBuffer s n) n).done = (dmaOf s n).done := by
  rw [trimBuffer, dmaOf_modDma_same]
@[simp] theorem dmaOf_trimBuffer_ahead (s : State) (n : Nat) : (dmaOf (trimBuffer s n) n).ahead = (dmaOf s n).ahead := by
  rw [trimBuffer, dmaOf_modDma_same]
@[simp] theorem dmaOf_trimBuffer_st (s : State) (n : Nat) : (dmaOf (trimBuffer s n) n).st = (dmaOf s n).st := by
  rw [trimBuffer, dmaOf_modDma_same]

theorem dmaOf_trimBuffer_other (s : State) {n m : Nat} (h : m ≠ n) : dmaOf (trimBuffer s n) m = dmaOf s m :=
  dmaOf_modDma_other s _ h

@[simp] theorem dmaOf_bump64 (s : State) (lo x n : Nat) : dmaOf (bump64 s lo x) n = dmaOf s n := rfl
@[simp] theorem dmaOf_clearRetry (s : State) (a : HubAccess) (n : Nat) : dmaOf (clearRetry s a) n = dmaOf s n := rfl

theorem modDma_frame (s : State) (n : Nat) (f : DmaChan → DmaChan) : modDma s n f = { s with dma := (modDma s n f).dma } := rfl

theorem clearRetry_frame (s : State) (a : HubAccess) : clearRetry s a = { s with dma := (clearRetry s a).dma } := rfl

/-- Two changes of the DMA block alone are one. -/
theorem dmaAlone_trans {s t u : State} (h : t = { s with dma := t.dma }) (g : u = { t with dma := u.dma }) : u = { s with dma := u.dma } :=
  g.trans (by rw [h])

/-- A 64-bit count outside the base, after a change of the DMA block alone. -/
theorem bump64_frame_of_dmaAlone {s u : State} (h : u = { s with dma := u.dma }) {lo : Nat} (n : Nat) (hlo : baseCount lo = false)
    (hhi : baseCount (lo + 4) = false) : let t := bump64 u lo n
    t = { s with dma := t.dma, rf := { s.rf with vals := t.rf.vals } } := by
  rw [bump64_of_notBase n hlo hhi]
  generalize u.dma = d at h
  subst h
  rfl

/-- What a committed line changes in its channel, but for the bytes that leave the buffer (10 R337). -/
def lineCommitted (s : State) (n k : Nat) (q : DmaChan) : DmaChan :=
  { q with
    done := (prefixWith s n k).1, ahead := (prefixWith s n k).2
    st := if (prefixWith s n k).1 = lineCount (dmaDst s n) (dmaCount s n) && q.st = .running then .done else q.st
    stopping := q.stopping && decide ((prefixWith s n k).1 ≠ lineCount (dmaDst s n) (dmaCount s n))
    cause := if q.st = .running then 0 else q.cause }

/-- The state in which a line has committed, before it is counted. -/
def lineSettled (s : State) (n k : Nat) : State :=
  clearRetry (trimBuffer (modDma s n (lineCommitted s n k)) n) (.dmaWrite (BitVec.ofNat 6 n) (BitVec.ofNat 32 k))

theorem lineDone_eq (s : State) (n k : Nat) :
    lineDone s n k = bump64 (lineSettled s n k) 0x1400038 ((spanOf s n k).2 - (spanOf s n k).1) := rfl

theorem lineSettled_frame (s : State) (n k : Nat) : lineSettled s n k = { s with dma := (lineSettled s n k).dma } :=
  dmaAlone_trans (dmaAlone_trans (modDma_frame s n _) (modDma_frame _ n _)) (clearRetry_frame _ _)

theorem regVal_lineSettled (s : State) (n k o : Nat) : regVal (lineSettled s n k) o = regVal s o := by
  have hrf : (lineSettled s n k).rf = s.rf := by rw [lineSettled_frame]
  rw [regVal, regVal, hrf]

/-- A line of a running channel commits: its channel and DMA_BYTES change as R336 and R337 have it, from `s` on, and the rest is that of `u`. -/
def LineCommits (s : State) (n k : Nat) (u t : State) : Prop :=
  (dmaOf t n).done = (prefixWith s n k).1 ∧ (dmaOf t n).ahead = (prefixWith s n k).2 ∧
  ((dmaOf t n).st = if (prefixWith s n k).1 = lineCount (dmaDst s n) (dmaCount s n) then .done else .running) ∧
  (∀ m, m ≠ n → dmaOf t m = dmaOf s m) ∧
  count64 t 0x1400038 = min (count64 s 0x1400038 + ((spanOf s n k).2 - (spanOf s n k).1)) (2 ^ 64 - 1) ∧
  OtherRegs [0x1400038, 0x140003C] s t ∧ t = { u with dma := t.dma, rf := { s.rf with vals := t.rf.vals } }

/-- A line that commits advances the count of a running channel, ends the copy with the last line, and is counted in DMA_BYTES (10 R336, R337). -/
theorem lineDone_commits {s : State} {n : Nat} (k : Nat) (hst : (dmaOf s n).st = .running) : LineCommits s n k s (lineDone s n k) := by
  rw [lineDone_eq]
  refine ⟨?_, ?_, ?_, fun m hm => ?_, ?_, fun o ho => ?_, ?_⟩
  · simp [lineSettled, lineCommitted]
  · simp [lineSettled, lineCommitted]
  · simp [lineSettled, lineCommitted, hst]
  · rw [dmaOf_bump64, lineSettled, dmaOf_clearRetry, dmaOf_trimBuffer_other _ hm, dmaOf_modDma_other _ _ hm]
  · rw [count64_bump64, count64, count64, regVal_lineSettled, regVal_lineSettled]
  · obtain ⟨hlo, hhi⟩ : o ≠ 0x1400038 ∧ o ≠ 0x140003C := by simpa using ho
    exact (regVal_bump64_other _ _ hlo hhi).trans (regVal_lineSettled s n k o)
  · exact bump64_frame_of_dmaAlone (lineSettled_frame s n k) _ rfl rfl

/-- A line that commits once its bytes are written, which leaves channels and registers, commits as before the write. -/
theorem lineDone_commits_of_written {s u : State} {n : Nat} (k : Nat) (hdma : u.dma = s.dma) (hrf : u.rf = s.rf)
    (hst : (dmaOf s n).st = .running) : LineCommits s n k u (lineDone u n k) := by
  have hchan (m : Nat) : dmaOf u m = dmaOf s m := by rw [dmaOf, dmaOf, hdma]
  have hreg (o : Nat) : regVal u o = regVal s o := by rw [regVal, regVal, hrf]
  have hcount (lo : Nat) : count64 u lo = count64 s lo := by rw [count64, count64, hreg, hreg]
  have hdst : dmaDst u n = dmaDst s n := hcount _
  have hcnt : dmaCount u n = dmaCount s n := by rw [dmaCount, dmaCount, hreg]
  have hspan : spanOf u n k = spanOf s n k := by rw [spanOf, spanOf, hdst, hcnt]
  have hprefix : prefixWith u n k = prefixWith s n k := by rw [prefixWith, prefixWith, hchan]
  obtain ⟨hdone, hahead, hend, hother, hbytes, hregs, hframe⟩ := lineDone_commits k ((congrArg DmaChan.st (hchan n)).trans hst)
  rw [hprefix] at hdone hahead hend
  rw [hdst, hcnt] at hend
  rw [hcount, hspan] at hbytes
  rw [hrf] at hframe
  exact ⟨hdone, hahead, hend, fun m hm => (hother m hm).trans (hchan m), hbytes, fun o ho => (hregs o ho).trans (hreg o), hframe⟩

theorem lineDone_mem (s : State) (n k : Nat) : (lineDone s n k).mem = s.mem := by
  rw [lineDone_eq, bump64_mem, lineSettled_frame]

/-! ### DMA_LINE_COMMIT -/

section
variable {s : State} {n : BitVec 6} {k : Word}

/-- A line of the window whose bytes are in the buffer and which has not committed (10 R336). -/
def LineHeld (s : State) (n : BitVec 6) (k : Word) : Prop :=
  let c := dmaOf s n.toNat
  let span := spanOf s n.toNat k.toNat
  c.done ≤ k.toNat ∧ k.toNat < c.done + 256 ∧ k.toNat ∉ c.ahead ∧ span.1 < span.2 ∧ c.start ≤ span.1 ∧ span.2 ≤ c.start + c.data.length ∧
  inGap s (.dmaWrite n k) = false

/-- A line that a running channel may commit: host memory takes it of an enabled context alone. -/
def LineReady (s : State) (n : BitVec 6) (k : Word) : Prop :=
  (dmaOf s n.toNat).st = .running ∧ LineHeld s n k ∧
  (bits (dmaCtl s n.toNat) 21 20 ≠ 0 ∨ (ctxOf s (bits (dmaCtl s n.toNat) 15 0)).enabled = true)

/-- The channel was halted in this tick by a party's reset (10 R340, R343). -/
def DmaResetting (s : State) (n : Nat) : Prop := (dmaOf s n).st = .halted ∧ (dmaOf s n).cause = 6 ∧ (dmaOf s n).haltAt = s.gt

/-- The test of `execDmaLineCommit`. -/
def lineAccepted (s : State) (n : BitVec 6) (k : Word) : Bool :=
  let c := dmaOf s n.toNat
  let span := spanOf s n.toNat k.toNat
  let resetting := decide (c.st = .halted) && decide (c.cause = 6) && decide (c.haltAt = s.gt)
  (decide (c.st = .running) || resetting) && decide (c.done ≤ k.toNat) && decide (k.toNat < c.done + 256) && !c.ahead.contains k.toNat &&
    decide (span.1 < span.2) && decide (c.start ≤ span.1) && decide (span.2 ≤ c.start + c.data.length) &&
    !inGap s (.dmaWrite (BitVec.ofNat 6 n.toNat) (BitVec.ofNat 32 k.toNat)) &&
    (bits (dmaCtl s n.toNat) 21 20 ≠ 0 || resetting || (ctxOf s (bits (dmaCtl s n.toNat) 15 0)).enabled)

theorem lineAccepted_iff (s : State) (n : BitVec 6) (k : Word) :
    lineAccepted s n k = true ↔ LineReady s n k ∨ (DmaResetting s n.toNat ∧ LineHeld s n k) := by
  simp only [lineAccepted, LineReady, DmaResetting, LineHeld, BitVec.ofNat_toNat, BitVec.setWidth_eq, Bool.and_eq_true, Bool.or_eq_true,
    decide_eq_true_eq, Bool.not_eq_true', ← Bool.not_eq_true, List.contains_iff_mem, and_assoc, or_assoc]
  constructor
  · rintro ⟨hst, hdone, hwindow, hnew, hspan, hstart, hend, hgap, hmay⟩
    rcases hst with hrun | ⟨hhalted, hcause, htick⟩
    · rcases hmay with hspace | ⟨hhalted, hcause, htick⟩ | hctx
      · exact .inl ⟨hrun, hdone, hwindow, hnew, hspan, hstart, hend, hgap, .inl hspace⟩
      · exact .inr ⟨hhalted, hcause, htick, hdone, hwindow, hnew, hspan, hstart, hend, hgap⟩
      · exact .inl ⟨hrun, hdone, hwindow, hnew, hspan, hstart, hend, hgap, .inr hctx⟩
    · exact .inr ⟨hhalted, hcause, htick, hdone, hwindow, hnew, hspan, hstart, hend, hgap⟩
  · rintro (⟨hrun, hdone, hwindow, hnew, hspan, hstart, hend, hgap, hmay⟩ |
      ⟨hhalted, hcause, htick, hdone, hwindow, hnew, hspan, hstart, hend, hgap⟩)
    · exact ⟨.inl hrun, hdone, hwindow, hnew, hspan, hstart, hend, hgap, hmay.imp_right .inr⟩
    · exact ⟨.inr ⟨hhalted, hcause, htick⟩, hdone, hwindow, hnew, hspan, hstart, hend, hgap, .inr (.inl ⟨hhalted, hcause, htick⟩)⟩

theorem dmaResetting_iff (s : State) (n : Nat) :
    (decide ((dmaOf s n).st = .halted) && decide ((dmaOf s n).cause = 6) && decide ((dmaOf s n).haltAt = s.gt)) = true ↔ DmaResetting s n := by
  simp only [DmaResetting, Bool.and_eq_true, decide_eq_true_eq, and_assoc]

/-- A running channel is not halted by a reset. -/
theorem not_dmaResetting_of_ready (h : LineReady s n k) : ¬ DmaResetting s n.toNat := fun hreset => by
  have hst := h.1.symm.trans hreset.1
  cases hst

/-- The first address of a line. -/
def lineAddr (s : State) (n k : Nat) : Nat := dmaDst s n + (spanOf s n k).1

/-- The bytes of a line in the buffer. -/
def lineBytes (s : State) (n k : Nat) : List Byte :=
  ((dmaOf s n).data.drop ((spanOf s n k).1 - (dmaOf s n).start)).take ((spanOf s n k).2 - (spanOf s n k).1)

theorem exec_dmaLineCommit_of_barred (hready : ¬ LineReady s n k) (hreset : ¬ DmaResetting s n.toNat) :
    exec (.dmaLineCommit n k) s = .next s := by
  have hbarred : lineAccepted s n k = false := Bool.eq_false_iff.mpr fun h =>
    ((lineAccepted_iff s n k).mp h).elim hready fun hboth => hreset hboth.1
  exact if_pos ((Bool.not_eq_true' _).mpr hbarred)

variable (haccepted : lineAccepted s n k = true)
include haccepted

theorem line_not_barred : ¬ (!lineAccepted s n k) = true := by rw [haccepted]; exact Bool.false_ne_true

section
variable {l : Nat} (hlocal : localOf s (bits (dmaCtl s n.toNat) 21 20) (lineAddr s n.toNat k.toNat) = some l)
include hlocal

theorem exec_dmaLineCommit_of_local (hst : accessStatus s (dmaWho s n.toNat) l = stOk) :
    exec (.dmaLineCommit n k) s = .next (lineDone (memWrite s l (lineBytes s n.toNat k.toNat)) n.toNat k.toNat) := by
  refine (if_neg (line_not_barred haccepted)).trans ?_
  simp only [lineAddr, spanOf] at hlocal
  simp only [hlocal]
  exact if_pos (Bool.or_eq_true_iff.mpr (.inl (decide_eq_true hst)))

theorem exec_dmaLineCommit_of_refused (hreset : ¬ DmaResetting s n.toNat) (hst : accessStatus s (dmaWho s n.toNat) l ≠ stOk) :
    exec (.dmaLineCommit n k) s = .next (haltDma (refuseAccess s (dmaWho s n.toNat) l (accessStatus s (dmaWho s n.toNat) l)) n.toNat
      (causeOf (accessStatus s (dmaWho s n.toNat) l)) (lineAddr s n.toNat k.toNat)) := by
  refine (if_neg (line_not_barred haccepted)).trans ?_
  have hnot := Bool.eq_false_iff.mpr (mt (dmaResetting_iff s n.toNat).mp hreset)
  simp only [lineAddr, spanOf] at hlocal
  simp only [hlocal, hnot]
  exact (if_neg (by simpa [dmaWho] using hst)).trans (if_neg Bool.false_ne_true)

end

variable (hlocal : localOf s (bits (dmaCtl s n.toNat) 21 20) (lineAddr s n.toNat k.toNat) = none)
include hlocal

theorem exec_dmaLineCommit_of_host (hspace : bits (dmaCtl s n.toNat) 21 20 = 0) : exec (.dmaLineCommit n k) s =
    .next (lineDone (hostWrite s (spaceOf s (bits (dmaCtl s n.toNat) 15 0)) (lineAddr s n.toNat k.toNat) (lineBytes s n.toNat k.toNat))
      n.toNat k.toNat) := by
  refine (if_neg (line_not_barred haccepted)).trans ?_
  simp only [lineAddr, spanOf] at hlocal
  simp only [hlocal]
  exact if_pos hspace

theorem exec_dmaLineCommit_of_trayResetting (hspace : bits (dmaCtl s n.toNat) 21 20 ≠ 0) (hreset : DmaResetting s n.toNat) :
    exec (.dmaLineCommit n k) s = .next s := by
  refine (if_neg (line_not_barred haccepted)).trans ?_
  simp only [lineAddr, spanOf] at hlocal
  simp only [hlocal]
  exact (if_neg hspace).trans (congrArg _ (if_pos ((dmaResetting_iff s n.toNat).mpr hreset)))

theorem exec_dmaLineCommit_of_tray (hspace : bits (dmaCtl s n.toNat) 21 20 ≠ 0) (hreset : ¬ DmaResetting s n.toNat) :
    exec (.dmaLineCommit n k) s = .next (sendLine s n.toNat k.toNat) := by
  refine (if_neg (line_not_barred haccepted)).trans ?_
  simp only [lineAddr, spanOf] at hlocal
  simp only [hlocal]
  exact (if_neg hspace).trans (congrArg _ (if_neg (mt (dmaResetting_iff s n.toNat).mp hreset)))

end

/-- Settles O33: the lines committed without a gap are those of `prefixRun_spec`; a read that is not late is one of `dmaReads_of_…`, and its bytes
enter the buffer by `takeBytes_dmaPut`; a line accepted (`lineAccepted_iff`) is one of `exec_dmaLineCommit_of_…`, and commits by
`lineDone_commits_of_written`. -/
theorem dmaMoves : Obligations.DmaMoves := by
  unfold Obligations.DmaMoves
  refine ⟨fun d l hl => prefixRun_spec d l (by omega), fun s n => ?_⟩
  intro c v who
  refine ⟨fun bs => ?_, fun k => ?_⟩
  · intro a may takes
    refine ⟨of_mayTake, ?_⟩
    intro late
    refine ⟨fun hlate => ⟨_, exec_dmaReadComplete_of_late hlate, modDma s n.toNat fun c => { c with readBy := none },
        modDma_dmaPut s _ _, rfl, rfl⟩,
      fun hlate hmay => ⟨_, (exec_dmaReadComplete_of_notLate hlate).trans (dmaReads_of_barred hmay), rfl⟩,
      fun l hlate hmay hlocal => ⟨fun hst => ?_, fun hst => ?_⟩, fun hlate hmay hlocal => ⟨fun hspace => ?_, fun hspace => ?_⟩⟩
    · exact ⟨_, (exec_dmaReadComplete_of_notLate hlate).trans (dmaReads_of_local hmay hlocal hst), takeBytes_dmaPut s n _⟩
    · exact ⟨_, (exec_dmaReadComplete_of_notLate hlate).trans (dmaReads_of_refused hmay hlocal hst), rfl⟩
    · exact ⟨_, (exec_dmaReadComplete_of_notLate hlate).trans (dmaReads_of_host hmay hlocal hspace),
        takeBytes_dmaPut (hostWrite s (spaceOf s (bits v 15 0)) a bs) n bs⟩
    · exact ⟨_, (exec_dmaReadComplete_of_notLate hlate).trans (dmaReads_of_tray hmay hlocal hspace), rfl⟩
  · intro dst cnt span bs a held ready resetting commits
    have hready (h : ready) : lineAccepted s n k = true := (lineAccepted_iff s n k).mpr (.inl h)
    have hheld (hreset : resetting) (h : held) : lineAccepted s n k = true := (lineAccepted_iff s n k).mpr (.inr ⟨hreset, h⟩)
    refine ⟨fun h hreset => ⟨_, exec_dmaLineCommit_of_barred h hreset, rfl⟩,
      fun hreset h => ⟨fun l hlocal hst => ⟨_, exec_dmaLineCommit_of_local (hheld hreset h) hlocal hst, rfl⟩,
        fun hlocal hspace => ⟨_, exec_dmaLineCommit_of_host (hheld hreset h) hlocal hspace, rfl⟩⟩,
      fun l h hlocal => ⟨fun hst => ⟨_, exec_dmaLineCommit_of_local (hready h) hlocal hst, ?_⟩,
        fun hst => ⟨_, exec_dmaLineCommit_of_refused (hready h) hlocal (not_dmaResetting_of_ready h) hst, rfl⟩⟩,
      fun hreset h hlocal hspace => ⟨_, exec_dmaLineCommit_of_trayResetting (hheld hreset h) hlocal hspace hreset, rfl⟩,
      fun h hlocal => ⟨fun hspace => ⟨_, exec_dmaLineCommit_of_host (hready h) hlocal hspace, ?_⟩,
        fun hspace => ⟨_, exec_dmaLineCommit_of_tray (hready h) hlocal hspace (not_dmaResetting_of_ready h), rfl⟩⟩⟩
    · have hmem := lineDone_mem (memWrite s l bs) n.toNat k.toNat
      refine ⟨lineDone_commits_of_written k.toNat rfl rfl h.1, fun i hi => ?_, fun b hb => ?_⟩
      · exact (congrArg (fun m : Mem => tabGet m.cells 0#8 (l + i)) hmem).trans (memByte_memWrite_same s l bs hi)
      · exact (congrArg (fun m : Mem => tabGet m.cells 0#8 b) hmem).trans (memByte_memWrite_other s l bs hb)
    · exact ⟨lineDone_commits_of_written k.toNat rfl rfl h.1, lineDone_mem _ _ _⟩

end Sys2Proof.Proofs
end

section
/-!
Requests at the target of a tray peer (11_tray_fabric.md R367, R371, R372; 12_mirrored_pairs.md R403): what a request does once
it is executed, and which requests are executed, answered again or forwarded.
-/
namespace Sys2Proof.Proofs
open Sys2Proof Sys2Proof.Machine

/-! ### A request executed -/

section
variable {s : State} {src : Nat} {q : FabArgs} {a : Nat}

theorem raiseClaim_frame (s : State) (a claim : Nat) : raiseClaim s a claim = { s with pair := (raiseClaim s a claim).pair } := by
  unfold raiseClaim
  split <;> rfl

/-- Bytes stored after a claim is raised are stored, and every other byte is as before. -/
theorem memWrite_raiseClaim_stored (s : State) (a claim : Nat) (bs : List Byte) : Stored s (memWrite (raiseClaim s a claim) a bs) a bs := by
  rw [raiseClaim_frame]
  exact ⟨fun _ hi => memByte_memWrite_same _ _ _ hi, fun _ hb => memByte_memWrite_other _ _ _ hb, _, rfl⟩

theorem atomicNew_eq (op : Nat) (old x y : BitVec 64) : atomicNew op old x y =
    if op = 0x10 then old + x else if op = 0x11 then (if old = y then x else old) else if op = 0x12 then (if x.toInt < old.toInt then x else old)
    else if op = 0x13 then (if old.toInt < x.toInt then x else old) else x := by
  unfold atomicNew
  split
  · rfl
  · rfl
  · simp [BitVec.slt]
  · simp [BitVec.slt]
  · next hadd hcas hmin hmax => rw [if_neg hadd, if_neg hcas, if_neg hmin, if_neg hmax]

theorem maskedLine_of_mask (s : State) (a : Nat) (m : BitVec 128) (data : List Byte) :
    maskedLine (some m) (memRead s a 128) data = (List.range 128).map fun i => if m.getLsbD i then data.getD i 0#8 else memByte s (a + i) := by
  refine List.map_congr_left fun i hi => ?_
  rw [getD_memRead _ _ (List.mem_range.mp hi)]

theorem executeAt_readLine (hop : q.op.toNat = 1) : executeAt s q a = (s, ⟨stOk, 0, memRead s a 128⟩) := if_pos hop

theorem executeAt_stale (hop : q.op.toNat ≠ 1) (hstale : fenceRefuses s a q.claim.toNat = true) :
    executeAt s q a = (bump s 0x340004C 1, ⟨stStaleClaim, 0, []⟩) := (if_neg hop).trans (if_pos hstale)

theorem executeAt_writeLine (hop : q.op.toNat = 2) (hclaim : fenceRefuses s a q.claim.toNat = false) : executeAt s q a =
    (memWrite (raiseClaim s a q.claim.toNat) a (maskedLine q.mask (memRead s a 128) q.data), ⟨stOk, 0, []⟩) :=
  (if_neg (by omega)).trans ((if_neg (Bool.eq_false_iff.mp hclaim)).trans (if_pos hop))

theorem executeAt_atomic (hop : 0x10 ≤ q.op.toNat) (hclaim : fenceRefuses s a q.claim.toNat = false) :
    executeAt s q a = (memWrite (raiseClaim s a q.claim.toNat) a
      (leBytes 8 (atomicNew q.op.toNat (BitVec.ofNat 64 (ofLeBytes (memRead s a 8))) q.operand q.compare).toNat),
      ⟨stOk, (BitVec.ofNat 64 (ofLeBytes (memRead s a 8))).toNat, []⟩) :=
  (if_neg (by omega)).trans ((if_neg (Bool.eq_false_iff.mp hclaim)).trans (if_neg (by omega)))

/-- A request completes with ST_ADDR before its access is judged (11 R371): an address of another device, an invalid OP, or misaligned. -/
def Misdirected (s : State) (q : FabArgs) : Prop :=
  let op := q.op.toNat
  let a := q.addr.toNat % 2 ^ 45
  q.addr.toNat / 2 ^ 45 ≠ s.rst.trayPos ∨ ¬((op = 1 ∨ op = 2) ∨ 0x10 ≤ op ∧ op ≤ 0x14) ∨ ((op = 1 ∨ op = 2) ∧ a % 128 ≠ 0) ∨
    ((0x10 ≤ op ∧ op ≤ 0x14) ∧ a % 8 ≠ 0)

theorem lineOp_iff {op : Nat} : lineOp op = true ↔ op = 1 ∨ op = 2 := by simp [lineOp]

theorem atomicOp_iff {op : Nat} : atomicOp op = true ↔ 0x10 ≤ op ∧ op ≤ 0x14 := by simp [atomicOp]

theorem misdirected_iff (s : State) (q : FabArgs) :
    (decide (q.addr.toNat / 2 ^ 45 ≠ myPos s) || !(lineOp q.op.toNat || atomicOp q.op.toNat) ||
      (lineOp q.op.toNat && decide (q.addr.toNat % 2 ^ 45 % 128 ≠ 0)) || (atomicOp q.op.toNat && decide (q.addr.toNat % 2 ^ 45 % 8 ≠ 0))) = true ↔
    Misdirected s q := by
  simp only [Misdirected, Bool.or_eq_true, Bool.and_eq_true, Bool.not_eq_true', ← Bool.not_eq_true, decide_eq_true_eq, lineOp_iff, atomicOp_iff,
    or_assoc]
  rfl

/-- The line of zeros that a refused READ_LINE returns. -/
def zerosFor (op : Nat) : List Byte := if op = 1 then List.replicate 128 0#8 else []

theorem executeReq_of_misdirected (h : Misdirected s q) : executeReq s src q = (s, ⟨stAddr, 0, zerosFor q.op.toNat⟩) :=
  if_pos ((misdirected_iff s q).mpr h)

theorem executeReq_of_directed (h : ¬ Misdirected s q) : executeReq s src q =
    if accessStatus s (.peer src) (q.addr.toNat % 2 ^ 45) = stOk then executeAt s q (q.addr.toNat % 2 ^ 45)
    else (refuseAccess s (.peer src) (q.addr.toNat % 2 ^ 45) (accessStatus s (.peer src) (q.addr.toNat % 2 ^ 45)),
      ⟨accessStatus s (.peer src) (q.addr.toNat % 2 ^ 45), 0, zerosFor q.op.toNat⟩) :=
  if_neg (mt (misdirected_iff s q).mp h)

end

/-! ### A request received -/

section
variable {s : State} {src : Nat} {detour : Bool} {q : FabArgs}

theorem otherDevice_iff (s : State) (detour : Bool) (q : FabArgs) :
    (detour && decide (q.addr.toNat / 2 ^ 45 ≠ myPos s)) = true ↔ detour = true ∧ q.addr.toNat / 2 ^ 45 ≠ s.rst.trayPos := by
  rw [Bool.and_eq_true, decide_eq_true_eq]
  rfl

theorem receiveReq_target (h : ¬ (detour = true ∧ q.addr.toNat / 2 ^ 45 ≠ s.rst.trayPos)) : Target s src q (receiveReq s src detour q) := by
  have hmine := mt (otherDevice_iff s detour q).mp h
  refine ⟨fun f hdup => ⟨bump s 0x3000060 1, bump_counted _ _ _, (if_neg hmine).trans ?_⟩, fun hdup => ⟨executeReq s src q,
    modFab (executeReq s src q).1 fun x => { x with filter := (x.filter.filter fun f => decide (s.gt < f.at_ + 8000)) ++
      [⟨src, q.tag.toNat, s.gt, (executeReq s src q).2⟩] }, rfl, rfl, rfl, (if_neg hmine).trans ?_⟩⟩
  · rw [hdup]
  · rw [hdup]

variable (hother : detour = true ∧ q.addr.toNat / 2 ^ 45 ≠ s.rst.trayPos)
include hother

theorem receiveReq_of_unforwarded
    (h : (regVal s 0x3000004).getLsbD 2 = false ∨ (routeNow s (q.addr.toNat / 2 ^ 45)).1 ≠ .direct) : receiveReq s src detour q = s := by
  refine (if_pos ((otherDevice_iff s detour q).mpr hother)).trans (if_pos ?_)
  rcases h with hoff | hroute
  · rw [hoff]
    rfl
  · rw [decide_eq_true hroute, Bool.or_true]

/-- The state in which a request of `src` is under way to device `d` by link `l` (11 R376). -/
def relayed (s : State) (src d : Nat) (q : FabArgs) (l : Nat × Nat) : State :=
  transmit (modFab s fun x => { x with relays := (x.relays.filter fun r => r ≠ (d, q.tag.toNat, src)) ++ [(d, q.tag.toNat, src)] }) l.1 l.2 d
    q.tag.toNat q.addr.toNat (requestBody q)

theorem receiveReq_of_forwarded {l : Nat × Nat} (hon : (regVal s 0x3000004).getLsbD 2 = true)
    (hroute : (routeNow s (q.addr.toNat / 2 ^ 45)).1 = .direct)
    (hlink : pickLink (upLinks s (bundleTo s (q.addr.toNat / 2 ^ 45))) q.addr.toNat = some l) :
    receiveReq s src detour q = relayed s src (q.addr.toNat / 2 ^ 45) q l := by
  refine (if_pos ((otherDevice_iff s detour q).mpr hother)).trans ((if_neg ?_).trans ?_)
  · rw [hon, hroute]
    decide
  · rw [hlink]
    rfl

end

theorem relayed_spec (s : State) (src d : Nat) (q : FabArgs) (l : Nat × Nat) : let t := relayed s src d q l
    (d, q.tag.toNat, src) ∈ t.fab.relays ∧ t.mem = s.mem ∧ t.rf = s.rf ∧
    t.sent = (s.gt, .fabReq l.1 l.2 d q.op.toNat q.tag.toNat q.addr.toNat q.claim.toNat q.mask q.data q.operand q.compare) :: s.sent :=
  ⟨List.mem_append_right _ (List.mem_singleton.mpr rfl), rfl, rfl, rfl⟩

/-! ### The seven commands -/

/-- The seven commands of a tray peer, each with the packet it brings: what holds of each packet as received holds of all (11 R372). -/
theorem forall_requests {s : State} {src : BitVec 3} {detour : Bool} {tag ctx : BitVec 16} {claim : Word} {addr : BitVec 48}
    {mask : Option (BitVec 128)} {data : List Byte} {x y : BitVec 64} {P : Instr → FabArgs → Prop}
    (h : ∀ c q, exec c s = .next (receiveReq s src.toNat detour q) → q.addr = addr → q.tag = tag → P c q) :
    let q (op : Nat) := packet op tag.toNat ctx.toNat claim.toNat addr.toNat
    P (.readLine src detour tag ctx addr) (packet 1 tag.toNat ctx.toNat 0 addr.toNat) ∧
    P (.writeLine src detour tag ctx claim addr mask data)
      { q 2 with mask := mask, data := data.take 128 ++ List.replicate (128 - data.length) 0#8 } ∧
    P (.atomicAdd src detour tag ctx claim addr x) { q 0x10 with operand := x, compare := 0 } ∧
    P (.atomicCas src detour tag ctx claim addr x y) { q 0x11 with operand := x, compare := y } ∧
    P (.atomicMin src detour tag ctx claim addr x) { q 0x12 with operand := x, compare := 0 } ∧
    P (.atomicMax src detour tag ctx claim addr x) { q 0x13 with operand := x, compare := 0 } ∧
    P (.atomicSwap src detour tag ctx claim addr x) { q 0x14 with operand := x, compare := 0 } := by
  have haddr : BitVec.ofNat 48 addr.toNat = addr := (BitVec.ofNat_toNat ..).trans (BitVec.setWidth_eq addr)
  have htag : BitVec.ofNat 16 tag.toNat = tag := (BitVec.ofNat_toNat ..).trans (BitVec.setWidth_eq tag)
  exact ⟨h _ _ rfl haddr htag, h _ _ rfl haddr htag, h _ _ rfl haddr htag, h _ _ rfl haddr htag, h _ _ rfl haddr htag, h _ _ rfl haddr htag,
    h _ _ rfl haddr htag⟩

/-- Settles O36: a request is executed by `executeReq_of_…` and `executeAt_…`, and what it writes is stored by `memWrite_raiseClaim_stored`; each of
the seven commands (`forall_requests`) is received by `receiveReq_target`, `receiveReq_of_unforwarded` or `receiveReq_of_forwarded`. -/
theorem fabricTargets : Obligations.FabricTargets := by
  unfold Obligations.FabricTargets
  refine ⟨fun s src q => ?_, fun s src detour tag ctx claim addr mask data x y => ?_⟩
  · intro op a line atomic wrong st r zeros old new
    have hadmitted (hdir : ¬ wrong) (hst : st = stOk) : r = executeAt s q a := (executeReq_of_directed hdir).trans (if_pos hst)
    refine ⟨fun hwrong => executeReq_of_misdirected hwrong, fun hdir hst => (executeReq_of_directed hdir).trans (if_neg hst),
      fun hdir hst hop => (hadmitted hdir hst).trans (executeAt_readLine hop), fun hdir hst hop hstale => ?_, fun hdir hst hop hclaim => ?_,
      fun hdir hst hop hclaim hmask => ?_, fun hdir hst hop hclaim => ?_⟩
    · rw [(hadmitted hdir hst).trans (executeAt_stale hop hstale)]
      exact ⟨bump_counted _ _ _, rfl⟩
    · rw [(hadmitted hdir hst).trans (executeAt_writeLine hop hclaim)]
      refine ⟨rfl, fun m hmask _ => ?_⟩
      rw [hmask, maskedLine_of_mask]
      exact memWrite_raiseClaim_stored _ _ _ _
    · rw [(hadmitted hdir hst).trans (executeAt_writeLine hop hclaim), hmask]
      exact memWrite_raiseClaim_stored _ _ _ _
    · rw [(hadmitted hdir hst).trans (executeAt_atomic hop.1 hclaim), atomicNew_eq]
      exact ⟨rfl, memWrite_raiseClaim_stored _ _ _ _⟩
  · intro q all other
    have hall (P : Instr → FabArgs → Prop)
        (h : ∀ c q, exec c s = .next (receiveReq s src.toNat detour q) → q.addr = addr → q.tag = tag → P c q) : all P := forall_requests h
    clear_value all
    refine ⟨fun hmine => ?_, fun hother hoff => ?_, fun hother hon hroute l hlink => ?_⟩
    · exact hall _ fun c q hexec haddr _ => ⟨_, hexec, receiveReq_target (by rw [haddr]; exact hmine)⟩
    · exact hall _ fun c q hexec haddr _ =>
        ⟨_, hexec, receiveReq_of_unforwarded (by rw [haddr]; exact hother) (by rw [haddr]; exact hoff)⟩
    · refine hall _ fun c p hexec haddr htag => ⟨_, hexec, ?_⟩
      subst haddr htag
      rw [receiveReq_of_forwarded hother hon hroute hlink]
      exact relayed_spec s src.toNat (p.addr.toNat / 2 ^ 45) p l

end Sys2Proof.Proofs
end

section
/-!
Events and their mark (09_host_rings.md R314, R318): how many wait for a slot, and what an entry written says of those that were dropped.
-/
namespace Sys2Proof.Proofs
open Sys2Proof Sys2Proof.Machine

/-! ### Entries -/

theorem leBytes_length (n v : Nat) : (leBytes n v).length = n := by
  induction n generalizing v with
  | zero => rfl
  | succ n ih => exact congrArg Nat.succ (ih _)

theorem entryBytes_length (e : Entry) (phase : Bool) (ver sqHead gt : Nat) (lost : Bool) : (entryBytes e phase ver sqHead gt lost).length = 32 := by
  simp [entryBytes, leBytes_length]

/-- Byte 24 of an entry holds its flags: ARITH below EVT_LOST (09 R314). -/
theorem entryBytes_flags (e : Entry) (phase : Bool) (ver sqHead gt : Nat) (lost : Bool) :
    (entryBytes e phase ver sqHead gt lost)[24]? = some (BitVec.ofNat 8 (b2n e.arith + 2 * b2n lost)) := rfl

theorem flags_evtLost (arith lost : Bool) : (BitVec.ofNat 8 (b2n arith + 2 * b2n lost)).getLsbD 1 = lost := by
  cases arith <;> cases lost <;> rfl

theorem hostByte_signalVector (s : State) (f v space addr : Nat) : hostByte (signalVector s f v) space addr = hostByte s space addr := by
  unfold signalVector
  dsimp only
  split
  · rfl
  · split <;> rfl

theorem hostByte_sendMsix (s : State) (c space addr : Nat) : hostByte (sendMsix s c) space addr = hostByte s space addr :=
  hostByte_signalVector _ _ _ _ _

theorem ctxOf_sendMsix (s : State) (c e : Nat) : ctxOf (sendMsix s c) e = ctxOf s e := ctxOf_signalVector _ _ _ _

/-- A context whose completion tail has passed an entry (09 R314, R315, R326). -/
def pastEntry (k : Ctx) (e : Entry) (gt : Nat) : Ctx :=
  { k with
    cqTail := if k.cqTail + 1 = ringSize k.cqLog then 0 else k.cqTail + 1
    cqPhase := if k.cqTail + 1 = ringSize k.cqLog then !k.cqPhase else k.cqPhase
    lostMark := false, unsignalled := (coalesce k e gt).1, coalesce := (coalesce k e gt).2.1, irqNow := k.irq }

/-- The state with an entry of context `c` written, before its message. -/
def entryPut (s : State) (c : Nat) (e : Entry) : State :=
  let k := ctxOf s c
  setCtx (hostWrite s (spaceOf s c) (k.cqBase + 32 * k.cqTail) (entryBytes e k.cqPhase k.ver k.sqHead s.gt k.lostMark)) c (pastEntry k e s.gt)

theorem ctxOf_entryPut (s : State) (c : Nat) (e : Entry) : ctxOf (entryPut s c e) c = pastEntry (ctxOf s c) e s.gt := ctxOf_setCtx_same _ _ _

section
variable {s : State} {c : Nat} (e : Entry) (hw : writes (ctxOf s c) = true)
include hw

theorem writeEntry_of_writes :
    writeEntry s c e = if (coalesce (ctxOf s c) e s.gt).2.2 then sendMsix (entryPut s c e) c else entryPut s c e := by
  unfold writeEntry
  exact if_neg (by simp [hw])

/-- An entry lies in host memory at the tail of the completion ring. -/
theorem hostByte_writeEntry {i : Nat} (hi : i < 32) :
    some (hostByte (writeEntry s c e) (spaceOf s c) ((ctxOf s c).cqBase + 32 * (ctxOf s c).cqTail + i)) =
      (entryBytes e (ctxOf s c).cqPhase (ctxOf s c).ver (ctxOf s c).sqHead s.gt (ctxOf s c).lostMark)[i]? := by
  have hlen := (entryBytes_length e (ctxOf s c).cqPhase (ctxOf s c).ver (ctxOf s c).sqHead s.gt (ctxOf s c).lostMark).symm ▸ hi
  have hput (space addr : Nat) : hostByte (writeEntry s c e) space addr = hostByte (entryPut s c e) space addr := by
    rw [writeEntry_of_writes e hw]
    split
    · exact hostByte_sendMsix _ _ _ _
    · rfl
  rw [hput, List.getElem?_eq_getElem hlen]
  exact congrArg some (hostByte_hostWrite_same s _ _ _ i hlen)

/-- An entry written clears the mark. -/
theorem ctxOf_writeEntry_lostMark : (ctxOf (writeEntry s c e) c).lostMark = false := by
  rw [writeEntry_of_writes e hw]
  split
  · rw [ctxOf_sendMsix, ctxOf_entryPut]
    rfl
  · rw [ctxOf_entryPut]
    rfl

end

/-! ### Events that wait -/

theorem ctxOf_writeEntry_events (s : State) (c : Nat) (e : Entry) : (ctxOf (writeEntry s c e) c).events = (ctxOf s c).events := by
  by_cases hw : writes (ctxOf s c) = true
  · rw [writeEntry_of_writes e hw]
    split
    · rw [ctxOf_sendMsix, ctxOf_entryPut]
      rfl
    · rw [ctxOf_entryPut]
      rfl
  · simp [writeEntry, hw]

/-- Events that find their slots no longer wait; none is added. -/
theorem flushEvents_events_length_le (fuel : Nat) (s : State) (c : Nat) :
    (ctxOf (flushEvents fuel s c) c).events.length ≤ (ctxOf s c).events.length := by
  induction fuel generalizing s with
  | zero => exact Nat.le_refl _
  | succ fuel ih =>
    unfold flushEvents
    dsimp only
    split
    · exact Nat.le_refl _
    · next e es hes =>
      split
      · exact Nat.le_refl _
      · refine Nat.le_trans (ih _) ?_
        rw [ctxOf_writeEntry_events, ctxOf_setCtx_same, hes]
        exact Nat.le_succ _

/-- While no slot is free, every event goes on waiting. -/
theorem flushEvents_of_noSlot {s : State} {c : Nat} (h : freeSlots (ctxOf s c) = 0) (fuel : Nat) : flushEvents fuel s c = s := by
  cases fuel with
  | zero => rfl
  | succ fuel =>
    unfold flushEvents
    dsimp only
    split
    · rfl
    · simp [h]

section
variable {s : State} {c : Nat} {e : Entry} (hw : writes (ctxOf s c) = true)
include hw

/-- An event joins those that wait, and those that find a slot are written. -/
theorem event_of_room (h : (ctxOf s c).events.length < 64) :
    event s c e = flushEvents 65 (setCtx s c { ctxOf s c with events := (ctxOf s c).events ++ [e] }) c := by
  simp [event, hw, Nat.not_le.mpr h]

/-- With 64 waiting a further event is dropped, counted and marked. -/
theorem event_of_full (h : 64 ≤ (ctxOf s c).events.length) :
    event s c e = setCtx s c { ctxOf s c with evtLost := satAdd 32 (ctxOf s c).evtLost 1, lostMark := true } := by
  simp [event, hw, h]

theorem event_of_noSlot (h : (ctxOf s c).events.length < 64) (hslot : freeSlots (ctxOf s c) = 0) :
    event s c e = setCtx s c { ctxOf s c with events := (ctxOf s c).events ++ [e] } := by
  rw [event_of_room hw h]
  refine flushEvents_of_noSlot ?_ 65
  rw [ctxOf_setCtx_same]
  exact hslot

/-- At most 64 events ever wait. -/
theorem event_events_length_le (h : (ctxOf s c).events.length ≤ 64) : (ctxOf (event s c e) c).events.length ≤ 64 := by
  rcases Nat.lt_or_eq_of_le h with hroom | hfull
  · rw [event_of_room hw hroom]
    refine Nat.le_trans (flushEvents_events_length_le _ _ _) ?_
    rw [ctxOf_setCtx_same]
    rw [List.length_append]
    exact hroom
  · rw [event_of_full hw (Nat.le_of_eq hfull.symm), ctxOf_setCtx_same]
    exact h

end

/-- Settles O59: an event joins those that wait (`event_of_noSlot`, `event_events_length_le`) or is dropped (`event_of_full`), and an entry
written carries the mark (`entryBytes_flags`) and clears it. -/
theorem eventsMarked : Obligations.EventsMarked := by
  unfold Obligations.EventsMarked
  intro s c e k t hw
  refine ⟨fun hroom hslot => ?_, event_events_length_le hw, fun hfull => ?_, ?_, ctxOf_writeEntry_lostMark e hw⟩
  · rw [show t = _ from event_of_noSlot hw hroom hslot]
    exact setCtx_ctxPut s c _
  · rw [show t = _ from event_of_full hw hfull]
    exact setCtx_ctxPut s c _
  · exact ⟨_, rfl, entryBytes_length .., ⟨_, entryBytes_flags .., flags_evtLost ..⟩, fun i hi => hostByte_writeEntry e hw hi⟩

end Sys2Proof.Proofs
end

section
/-!
Descriptors that arrive (09_host_rings.md R307, R308, R312): the rings of a quiet context have nothing to move, so that the descriptor is
admitted at once.
-/
namespace Sys2Proof.Proofs
open Sys2Proof Sys2Proof.Machine

/-- The nine commands, each with the descriptor it brings: what holds of each descriptor as it arrives holds of all (09 R307). -/
theorem forall_descriptors {s : State} {c : BitVec 12} {h : DescHead} {P : Instr → DescBody → Prop}
    (hP : ∀ i b, exec i s = .next (arrive s c.toNat ⟨h, b⟩) → P i b) :
    (∀ b, P (.request c h b) (.request b)) ∧ (∀ x, P (.cancel c h x) (.cancel x)) ∧ P (.nop c h) .nop ∧
      (∀ a n, P (.formulaLoad c h a n) (.load a n)) ∧ (∀ a n x, P (.weightChunk c h a n x) (.chunk a n x)) ∧
      (∀ x, P (.unload c h x) (.unload x)) ∧ (∀ x v l, P (.bind c h x v l) (.bind x v l)) ∧ P (.unbind c h) .unbind ∧
      (∀ b, P (.pin c h b) (.pin b)) :=
  ⟨fun _ => hP _ _ rfl, fun _ => hP _ _ rfl, hP _ _ rfl, fun _ _ => hP _ _ rfl, fun _ _ _ => hP _ _ rfl, fun _ => hP _ _ rfl,
    fun _ _ _ => hP _ _ rfl, hP _ _ rfl, fun _ => hP _ _ rfl⟩

/-- A context that takes no descriptor (09 R312). -/
theorem arrive_of_barred {s : State} {c : Nat} (d : Desc) (h : (ctxOf s c).enable = false ∨ (ctxOf s c).enabled = false ∨
    (ctxOf s c).error = true ∨ (ctxOf s c).waiting ≠ none ∨ (ctxOf s c).sqHead = (ctxOf s c).sqTail) : arrive s c d = s := by
  unfold arrive
  refine if_pos ?_
  simpa [or_assoc, Option.isSome_iff_ne_none] using h

/-- A context that takes a descriptor has it wait for its admission. -/
theorem arrive_of_quiet {s : State} {c : Nat} (d : Desc) (h : Quiet (ctxOf s c)) :
    arrive s c d = settle (setCtx s c { ctxOf s c with waiting := some d }) c := by
  unfold arrive
  refine if_neg ?_
  simp [h.enable, h.enabled, h.error, h.waiting, h.ring]

/-! ### What moves the rings of a context without work -/

section
variable {s : State} {c : Nat}

theorem pump_of_noOutput (fuel : Nat) (h : (ctxOf s c).output = none) : pump fuel s c = s := by
  cases fuel with
  | zero => rfl
  | succ fuel => simp [pump, h]

theorem armHold_of_noOutput (h : (ctxOf s c).output = none) : armHold s c = s := by simp [armHold, h]

theorem finishOutput_of_noOutput (h : (ctxOf s c).output = none) : finishOutput s c = s := by simp [finishOutput, h]

theorem flushQueue_of_emptyQueue (fuel : Nat) (h : (ctxOf s c).queue = []) : flushQueue (fuel + 1) s c = setCtx s c (ctxOf s c) := by
  have hmark : endMarked (stepRuns s c) (ctxOf s c) = ctxOf s c := by simp [endMarked, h]
  simp [flushQueue, hmark, h]

theorem flushEvents_of_noEvents (fuel : Nat) (h : (ctxOf s c).events = []) : flushEvents fuel s c = s := by
  cases fuel with
  | zero => rfl
  | succ fuel => simp [flushEvents, h]

theorem tryAdmit_of_mayAdmit {d : Desc} (h : (ctxOf s c).waiting = some d) (hmay : mayAdmit (ctxOf s c) d = true) :
    tryAdmit s c = admitDesc s c d := by
  simp [tryAdmit, h, hmay]

end

theorem mayAdmit_of_quiet {k : Ctx} (h : Quiet k) (d : Desc) : mayAdmit { k with waiting := some d } d = true := by
  have hwaiting : mayAdmit { k with waiting := some d } d = mayAdmit k d := rfl
  rw [hwaiting]
  simp [mayAdmit, h.enable, h.enabled, h.error, h.paused, h.queue, h.slots]

/-- The rings of a quiet context admit the descriptor that waits, and nothing else of them moves. -/
theorem moveRings_of_quiet {s : State} {c : Nat} {k : Ctx} {d : Desc} (h : Quiet k) (hctx : ctxOf s c = { k with waiting := some d }) :
    let u := setCtx s c (ctxOf s c)
    moveRings s c = readyLoads (finishDisable (flushQueue ((ctxOf (admitDesc u c d) c).queue.length + 2) (admitDesc u c d) c) c) c := by
  intro u
  have hu : ctxOf u c = { k with waiting := some d } := (ctxOf_setCtx_same _ _ _).trans hctx
  have houtput : (ctxOf s c).output = none := hctx ▸ h.output
  have hflushed : flushQueue ((ctxOf s c).queue.length + 2) s c = u := flushQueue_of_emptyQueue _ (hctx ▸ h.queue)
  have hevents : flushEvents 65 u c = u := flushEvents_of_noEvents _ (hu ▸ h.events)
  have hadmitted : tryAdmit u c = admitDesc u c d := tryAdmit_of_mayAdmit (congrArg Ctx.waiting hu) (hu ▸ mayAdmit_of_quiet h d)
  unfold moveRings
  simp only [pump_of_noOutput _ houtput, armHold_of_noOutput houtput, finishOutput_of_noOutput houtput, hflushed, hevents, hadmitted]

/-- A descriptor that arrives at a quiet context is admitted. -/
theorem arrive_admitted {s : State} {c : Nat} (d : Desc) (h : Quiet (ctxOf s c)) :
    ∃ u, ctxOf u c = { ctxOf s c with waiting := some d } ∧ OtherCtxs c s u ∧ u = { s with ctxs := u.ctxs } ∧
      arrive s c d = runMgmt 8192 (readyLoads
        (finishDisable (flushQueue ((ctxOf (admitDesc u c d) c).queue.length + 2) (admitDesc u c d) c) c) c) := by
  obtain ⟨hctx, hother, hrest⟩ := setCtx_ctxPut s c { ctxOf s c with waiting := some d }
  obtain ⟨hctx', hother', hrest'⟩ := setCtx_ctxPut (setCtx s c { ctxOf s c with waiting := some d }) c { ctxOf s c with waiting := some d }
  refine ⟨_, hctx', fun e he => (hother' e he).trans (hother e he), hrest'.trans (by rw [hrest]), ?_⟩
  rw [arrive_of_quiet d h]
  have hmoved := moveRings_of_quiet h hctx
  rw [hctx] at hmoved
  exact congrArg (runMgmt 8192) hmoved

/-- Settles O15: at a quiet context `arrive_admitted`, and `arrive_of_barred` at one that takes no descriptor, for each of the nine commands
(`forall_descriptors`). -/
theorem descriptorsArrive : Obligations.DescriptorsArrive := by
  unfold Obligations.DescriptorsArrive
  intro s c h rows
  refine ⟨fun hquiet => ?_, fun hbarred => ?_⟩
  · refine forall_descriptors (s := s) (P := fun i b => Admitted i s c.toNat ⟨h, b⟩) fun i b hexec => ?_
    obtain ⟨u, hctx, hother, hrest, harrive⟩ := arrive_admitted ⟨h, b⟩ hquiet
    exact ⟨_, hexec, u, hctx, hother, hrest, harrive⟩
  · exact forall_descriptors (s := s) (h := h) (P := fun i _ => Does i s fun t => t = s) fun i b hexec => ⟨_, hexec, arrive_of_barred _ hbarred⟩

end Sys2Proof.Proofs
end

section
/-!
What the device reads of host memory (09_host_rings.md R310, R312, R319; 10_dma_check.md R338).
-/
namespace Sys2Proof.Proofs
open Sys2Proof Sys2Proof.Machine

theorem hostWrite_wroteHost (s : State) (space addr : Nat) (bs : List Byte) : WroteHost s (hostWrite s space addr bs) space addr bs := by
  refine ⟨fun i b hb => ?_, fun sp a ha => hostByte_hostWrite_other s space addr sp a bs ha, rfl⟩
  obtain ⟨hi, rfl⟩ := List.getElem?_eq_some_iff.mp hb
  exact hostByte_hostWrite_same s space addr bs i hi

section
variable {s : State} {c : BitVec 12} (bs : List Byte)

theorem exec_hostReadCompletion_descriptor_of_late (h : readLate s (.submission c) = true) :
    exec (.hostReadCompletion c .descriptor bs) s = .next (failAccess (endReadWait s (.submission c)) (.submission c)) := by
  show execHostReadCompletion c .descriptor bs s = _
  simp [execHostReadCompletion, h]

theorem exec_hostReadCompletion_buffer_of_late (h : readLate s (.bufferEntry c) = true) :
    exec (.hostReadCompletion c .buffer bs) s = .next (failAccess (endReadWait s (.bufferEntry c)) (.bufferEntry c)) := by
  show execHostReadCompletion c .buffer bs s = _
  simp [execHostReadCompletion, h]

/-- A descriptor read in time is held, and goes on to its checks. -/
theorem exec_hostReadCompletion_descriptor (h : readLate s (.submission c) = false) :
    exec (.hostReadCompletion c .descriptor bs) s =
      .next (arrive (hostWrite s (spaceOf s c.toNat) ((ctxOf s c.toNat).sqBase + 64 * (ctxOf s c.toNat).sqHead) (bs.take 64)) c.toNat
        (descOf bs)) := by
  show execHostReadCompletion c .descriptor bs s = _
  simp [execHostReadCompletion, h]

/-- A buffer entry that a context takes is held, and joins those it has read. -/
theorem exec_hostReadCompletion_buffer (h : readLate s (.bufferEntry c) = false) (hon : (ctxOf s c.toNat).enabled = true)
    (herr : (ctxOf s c.toNat).error = false) (hposted : bufferIndex (ctxOf s c.toNat) ≠ (ctxOf s c.toNat).rqTail) :
    exec (.hostReadCompletion c .buffer bs) s =
      .next (settle (setCtx
        (hostWrite s (spaceOf s c.toNat) ((ctxOf s c.toNat).rqBase + 16 * bufferIndex (ctxOf s c.toNat)) (bs.take 16)) c.toNat
        { ctxOf s c.toNat with buffers := (ctxOf s c.toNat).buffers ++ [bufOf bs] }) c.toNat) := by
  show execHostReadCompletion c .buffer bs s = _
  simp [execHostReadCompletion, h, hon, herr, hposted]

theorem exec_hostReadCompletion_buffer_of_barred (h : readLate s (.bufferEntry c) = false)
    (hbar : (ctxOf s c.toNat).enabled = false ∨ (ctxOf s c.toNat).error = true ∨ bufferIndex (ctxOf s c.toNat) = (ctxOf s c.toNat).rqTail) :
    exec (.hostReadCompletion c .buffer bs) s = .next s := by
  show execHostReadCompletion c .buffer bs s = _
  unfold execHostReadCompletion
  dsimp only
  rw [if_neg (by simp [h]), if_pos (by simpa [or_assoc] using hbar)]

theorem exec_hostReadCompletion_data (a : BitVec 64) :
    exec (.hostReadCompletion c (.data a) bs) s = .next (hostWrite s (spaceOf s c.toNat) a.toNat bs) := rfl

end

/-- Settles O18: each kind of read is its equation (`exec_hostReadCompletion_…`), and the bytes are held by `hostWrite_wroteHost`. -/
theorem hostReads : Obligations.HostReads := by
  unfold Obligations.HostReads
  intro s c bs k sp idx lateD lateB
  refine ⟨fun hlate => ⟨_, exec_hostReadCompletion_descriptor_of_late bs hlate, rfl⟩,
    fun hlate => ⟨_, exec_hostReadCompletion_buffer_of_late bs hlate, rfl⟩,
    fun htime => ⟨_, exec_hostReadCompletion_descriptor bs htime, _, hostWrite_wroteHost s _ _ _, rfl⟩,
    fun htime hon herr hposted => ⟨_, exec_hostReadCompletion_buffer bs htime hon herr hposted, ?_⟩,
    fun htime hbar => ⟨_, exec_hostReadCompletion_buffer_of_barred bs htime hbar, rfl⟩,
    fun a => ⟨_, exec_hostReadCompletion_data bs a, hostWrite_wroteHost s _ _ _⟩⟩
  obtain ⟨hctx, hother, hrest⟩ := setCtx_ctxPut (hostWrite s sp (k.rqBase + 16 * idx) (bs.take 16)) c.toNat
    { k with buffers := k.buffers ++ [bufOf bs] }
  exact ⟨_, _, hostWrite_wroteHost s _ _ _, hrest, hother, hctx, rfl⟩

end Sys2Proof.Proofs
end

section
/-!
The coalescing and capacity-wait timers, vectors, and the entries of CTX_VFMAP (05_placement.md R161; 09_host_rings.md R294, R325, R326).
-/
namespace Sys2Proof.Proofs
open Sys2Proof Sys2Proof.Machine

/-! ### Timers -/

theorem exec_coalesceTimerExpiry_of_waiting {s : State} {c : BitVec 12} (h : ∀ lim, (ctxOf s c.toNat).coalesce = some lim → ¬ RunOut s lim) :
    exec (.coalesceTimerExpiry c) s = .next s := by
  show execCoalesceTimerExpiry c s = _
  unfold execCoalesceTimerExpiry
  cases hlim : (ctxOf s c.toNat).coalesce with
  | none => simp only [hlim]
  | some lim => simp [hlim, (ranOut_eq_false_iff s lim).mpr (h lim hlim)]

/-- A coalescing timer that has run out is cleared with the count, and where IRQ_EN is set the message is sent (09 R302, R326). -/
theorem exec_coalesceTimerExpiry_of_runOut {s : State} {c : BitVec 12} {lim : Nat}
    (hlim : (ctxOf s c.toNat).coalesce = some lim) (hrun : RunOut s lim) :
    let u := setCtx s c.toNat { ctxOf s c.toNat with coalesce := none, unsignalled := 0 }
    exec (.coalesceTimerExpiry c) s = .next (if (ctxOf s c.toNat).irqNow.getLsbD 31 = true then sendMsix u c.toNat else u) := by
  show execCoalesceTimerExpiry c s = _
  simp [execCoalesceTimerExpiry, hlim, (ranOut_eq_true_iff s lim).mpr hrun]

theorem exec_capacityWaitTimer_of_waiting {s : State} {c : BitVec 12} (h : ∀ w, (ctxOf s c.toNat).space = some w → s.gt < w.next) :
    exec (.capacityWaitTimer c) s = .next s := by
  show execCapacityWaitTimer c s = _
  unfold execCapacityWaitTimer
  cases hw : (ctxOf s c.toNat).space with
  | none => simp only [hw]
  | some w => simp [hw, Nat.not_le.mpr (h w hw)]

/-! ### Vectors -/

/-- A vector of the PF whose entry an enabled VF has (09 R325). -/
def Silent (s : State) (f v : Nat) : Prop := f = 0 ∧ 32 ≤ v ∧ vfEnabled s (v / 32) = true

section
variable {s : State} {f v : Nat}

theorem signalVector_of_silent (h : Silent s f v) : signalVector s f v = s := by
  obtain ⟨hf, hv, hvf⟩ := h
  unfold signalVector
  exact if_pos (by simp [hf, hv, hvf])

variable (h : ¬ Silent s f v)
include h

theorem signalVector_of_sounding :
    signalVector s f v =
      if (tabGet s.rf.msix {} (32 * f + v)).masked then
        { s with rf := { s.rf with pba := ascending ((32 * f + v) :: s.rf.pba.filter (· ≠ 32 * f + v)) } }
      else send s (.msix f v (tabGet s.rf.msix {} (32 * f + v)).addr (tabGet s.rf.msix {} (32 * f + v)).data) := by
  unfold signalVector
  refine if_neg fun hsilent => h ?_
  simpa [Silent, and_assoc] using hsilent

end

theorem mem_ascending (xs : List Nat) (j : Nat) : j ∈ ascending xs ↔ j ∈ xs := mem_sortBy xs

/-- A vector that is masked sets its pending bit. -/
theorem mem_pendingBits_same (xs : List Nat) (n : Nat) : n ∈ ascending (n :: xs.filter (· ≠ n)) :=
  (mem_ascending _ n).mpr List.mem_cons_self

/-- It leaves the pending bits of the other vectors. -/
theorem mem_pendingBits_other (xs : List Nat) {n j : Nat} (h : j ≠ n) : j ∈ ascending (n :: xs.filter (· ≠ n)) ↔ j ∈ xs := by
  rw [mem_ascending, List.mem_cons, List.mem_filter]
  simp [h]

/-! ### CTX_VFMAP -/

theorem bits_low_half (w : Word) : bits w 15 0 = w.toNat % 65536 := by simp [bits]

/-- A context that is enabled, or whose disable is under way (09 R294). -/
def Live (s : State) (c : Nat) : Prop := (ctxOf s c).enable = true ∨ (ctxOf s c).enabled = true

/-- Another entry of CTX_VFMAP than slot `i` of VF `v` names a context (09 R294). -/
def MappedElsewhere (s : State) (v i c : Nat) : Prop :=
  ∃ e ∈ s.rf.vals, 0x804000 ≤ e.1 ∧ e.1 < 0x807F00 ∧ e.1 ≠ vfmapOff v i ∧ e.2.getLsbD 31 = true ∧ e.2.toNat % 65536 = c

/-- The states in which slot `i` of VF `v` does not take context `c` (09 R294). -/
def MapBarred (s : State) (v i c : Nat) : Prop := Live s c ∨ MappedElsewhere s v i c ∨ ∃ old, slotCtx s v i = some old ∧ Live s old

/-- `Live`, as the model tests it. -/
def live (s : State) (c : Nat) : Bool := (ctxOf s c).enable || (ctxOf s c).enabled

/-- `MappedElsewhere`, as the model tests it. -/
def mappedElsewhere (s : State) (v i c : Nat) : Bool :=
  s.rf.vals.any fun e => decide (0x804000 ≤ e.1) && decide (e.1 < 0x807F00) && decide (e.1 ≠ vfmapOff v i) &&
    e.2.getLsbD 31 && decide (bits e.2 15 0 = c)

/-- `MapBarred`, as the model tests it. -/
def mapBarred (s : State) (v i c : Nat) : Bool := (live s c || (slotCtx s v i).any (live s)) || mappedElsewhere s v i c

theorem live_iff (s : State) (c : Nat) : live s c = true ↔ Live s c := Bool.or_eq_true_iff

theorem mappedElsewhere_iff (s : State) (v i c : Nat) : mappedElsewhere s v i c = true ↔ MappedElsewhere s v i c := by
  simp [mappedElsewhere, MappedElsewhere, bits_low_half, and_assoc]

theorem mapBarred_iff (s : State) (v i c : Nat) : mapBarred s v i c = true ↔ MapBarred s v i c := by
  have hown : (slotCtx s v i).any (live s) = true ↔ ∃ old, slotCtx s v i = some old ∧ Live s old := by
    cases slotCtx s v i <;> simp [live_iff]
  simp only [mapBarred, MapBarred, Bool.or_eq_true_iff, live_iff, mappedElsewhere_iff, hown]
  rw [or_assoc, or_comm (a := ∃ _, _)]

theorem firstFail_mapChecks (own other locked : Bool) :
    firstFail [(stRange, false), (stCtxState, own), (stCtxState, other), (stDenied, locked)] =
      if own || other then some stCtxState else if locked then some stDenied else none := by
  cases own <;> cases other <;> cases locked <;> rfl

theorem exec_ctxVfmap_of_ignored {s : State} {r : Requester} {v : BitVec 6} (i : BitVec 6) (w : Word)
    (h : v = 0#6 ∨ (r = .host ∧ barsOff s = true)) :
    exec (.ctxVfmap r v i w) s = .next s := by
  show execCtxVfmap r v i w s = _
  unfold execCtxVfmap
  rw [if_pos (by simpa using h)]

section
variable {s : State} (r : Requester) {v i : Nat} {w : Word}

theorem writeVfmap_of_outOfRange (h : 4095 < w.toNat % 65536) : writeVfmap s r v i w = logRefused s r (vfmapOff v i) w stRange := by
  simp [writeVfmap, bits_low_half, h, firstFail]

/-- What becomes of an entry by the status of the first check that fails. -/
def mapAnswer (s : State) (r : Requester) (v i : Nat) (w : Word) : Option Nat → State
  | some st => logRefused s r (vfmapOff v i) w st
  | none => regPut s (vfmapOff v i) (w &&& 0x8000FFFF#32)

/-- What an entry that names a context in range meets (09 R294). -/
theorem writeVfmap_of_inRange (h : w.toNat % 65536 ≤ 4095) :
    writeVfmap s r v i w =
      if mapBarred s v i (w.toNat % 65536) then logRefused s r (vfmapOff v i) w stCtxState
      else if tdiLocked s v then logRefused s r (vfmapOff v i) w stDenied
      else regPut s (vfmapOff v i) (w &&& 0x8000FFFF#32) := by
  have hslot : (match slotCtx s v i with | some c => live s c | none => false) = (slotCtx s v i).any (live s) := by
    cases slotCtx s v i <;> rfl
  have hchecks : firstFail [(stRange, decide (4095 < bits w 15 0)),
      (stCtxState, live s (bits w 15 0) || (match slotCtx s v i with | some c => live s c | none => false)),
      (stCtxState, mappedElsewhere s v i (bits w 15 0)), (stDenied, tdiLocked s v)] =
        if mapBarred s v i (w.toNat % 65536) then some stCtxState else if tdiLocked s v then some stDenied else none := by
    rw [bits_low_half, hslot, decide_eq_false (Nat.not_lt.mpr h)]
    exact firstFail_mapChecks _ _ _
  refine (congrArg (mapAnswer s r v i w) hchecks).trans ?_
  split
  · rfl
  · split <;> rfl

end

/-- What a refused write of slot `i` of VF `v` leaves: a record in the log, and every register as it was (18 R558). -/
theorem logRefused_spec (s : State) (r : Requester) (off : Nat) (w : Word) (st : Nat) :
    (∀ o, regVal (logRefused s r off w st) o = regVal s o) ∧ (logRefused s r off w st).rf.wlogCount = s.rf.wlogCount + 1 ∧
      (∃ l, (logRefused s r off w st).rf.wlog.head? = some l ∧ l.offset = off ∧ l.data = w ∧ l.status = st ∧ l.gt = s.gt) ∧
      logRefused s r off w st = { s with rf := (logRefused s r off w st).rf } :=
  ⟨fun _ => rfl, rfl, ⟨_, rfl, rfl, rfl, rfl, rfl⟩, rfl⟩

/-- Settles O19: the timers by their equations (`exec_coalesceTimerExpiry_of_…`, `exec_capacityWaitTimer_of_…`), a vector by
`signalVector_of_silent` and `signalVector_of_sounding`, and an entry by `writeVfmap_of_outOfRange` and `writeVfmap_of_inRange`. -/
theorem timersAndMaps : Obligations.TimersAndMaps := by
  unfold Obligations.TimersAndMaps
  intro s c
  refine ⟨fun hwait => ⟨_, exec_coalesceTimerExpiry_of_waiting hwait, rfl⟩, fun lim hlim hrun => ?_,
    fun hwait => ⟨_, exec_capacityWaitTimer_of_waiting hwait, rfl⟩, fun w hw hdue => ?_, fun f v => ?_,
    fun r v i w hoff => ⟨_, exec_ctxVfmap_of_ignored i w hoff, rfl⟩, fun r v i w hv hserved => ?_⟩
  · obtain ⟨hctx, hother, hrest⟩ := setCtx_ctxPut s c.toNat { ctxOf s c.toNat with coalesce := none, unsignalled := 0 }
    exact ⟨_, exec_coalesceTimerExpiry_of_runOut hlim hrun, _, rfl, hctx, hother, hrest⟩
  · obtain ⟨hctx, hother, hrest⟩ := setCtx_ctxPut s c.toNat { ctxOf s c.toNat with space := some { w with next := w.next + 100000000 } }
    exact ⟨_, exec_capacityWaitTimer hw hdue, _, rfl, hctx, hother, hrest⟩
  · intro n e silent
    refine ⟨signalVector_of_silent, fun hsounds hmask => (signalVector_of_sounding hsounds).trans (if_neg (Bool.eq_false_iff.mp hmask)),
      fun hsounds hmask => ?_⟩
    rw [(signalVector_of_sounding hsounds).trans (if_pos hmask)]
    exact ⟨mem_pendingBits_same _ _, fun _ hj => mem_pendingBits_other _ hj, rfl⟩
  · have hexec := exec_ctxVfmap (i := i) w hv hserved
    intro named isLive mapped refused
    have hrefused (st : Nat) (h : writeVfmap s r v.toNat i.toNat w = logRefused s r (vfmapOff v.toNat i.toNat) w st) : refused st :=
      ⟨_, hexec.trans (congrArg _ h), logRefused_spec s r _ w st⟩
    refine ⟨fun hrange => hrefused _ (writeVfmap_of_outOfRange r hrange), fun hrange hbar => ?_, fun hrange hdead hsole hold => ?_⟩
    · exact hrefused _ ((writeVfmap_of_inRange r hrange).trans (if_pos ((mapBarred_iff ..).mpr hbar)))
    · have hfree : ¬ mapBarred s v.toNat i.toNat named = true := by
        rw [mapBarred_iff]
        rintro (hlive | hmapped | ⟨old, hslot, hlive⟩)
        · exact hdead hlive
        · exact hsole hmapped
        · exact hold old hslot hlive
      have hwrite := (writeVfmap_of_inRange r hrange).trans (if_neg hfree)
      refine ⟨fun htdi => hrefused _ (hwrite.trans (if_pos htdi)), fun htdi => ?_⟩
      exact ⟨_, hexec.trans (congrArg _ (hwrite.trans (if_neg (Bool.eq_false_iff.mp htdi)))), regPut_spec s _ _⟩

end Sys2Proof.Proofs
end

section
/-!
CONTEXT_ENABLE and CONTEXT_DISABLE (09_host_rings.md R299, R305, R306; 10_dma_check.md R342; 16_flacon.md R516).
-/
namespace Sys2Proof.Proofs
open Sys2Proof Sys2Proof.Machine

/-! ### The fields of CTX_CTRL -/

theorem bits_ver (v : Word) : bits v 23 20 = v.toNat / 2 ^ 20 % 16 := rfl

theorem bits_pasid (v : Word) : bits v 19 0 = v.toNat % 2 ^ 20 := by simp [bits]

/-! ### Enabling -/

section
variable {s : State} {c : Nat} {v : Word}

/-- The first check of R305 that fails gives the error code. -/
theorem enableCtx_of_refused {st : Nat} (hoff : (ctxOf s c).enable = false) (hidle : (ctxOf s c).enabled = false)
    (hst : enableRefusal s (ctxOf s c) v = some st) :
    enableCtx s c v = setCtx s c { ctxOf s c with
      errCode := st, ver := v.toNat / 2 ^ 20 % 16, pasid := v.toNat % 2 ^ 20, pasidEn := v.getLsbD 30 } := by
  simp only [enableCtx, hoff, hidle, hst, bits_ver, bits_pasid, Bool.or_false, Bool.false_eq_true, if_false]

/-- The rings of a context are of 2^4 to 2^16 entries (09 R300). -/
def RingsSized (k : Ctx) : Prop := 4 ≤ k.sqLog ∧ k.sqLog ≤ 16 ∧ 4 ≤ k.cqLog ∧ k.cqLog ≤ 16 ∧ 4 ≤ k.rqLog ∧ k.rqLog ≤ 16

theorem enableRefusal_of_sound {k : Ctx} {p : Prov} (hrings : RingsSized k) (hver : v.toNat / 2 ^ 20 % 16 = 1) (hprov : k.prov = some p)
    (hpair : (k.mirror && k.shadow) = false) (halone : (regVal s 0x3400000).getLsbD 31 = false) (hboot : bootReady s = true) :
    enableRefusal s k v = none := by
  obtain ⟨hsq, hsq', hcq, hcq', hrq, hrq'⟩ := hrings
  have hsized : ∀ n, 4 ≤ n → n ≤ 16 → (decide (n < 4) || decide (16 < n)) = false := fun n h h' => by
    simp only [Bool.or_eq_false_iff, decide_eq_false_iff_not]
    omega
  have hver' : bits v 23 20 = 1 := hver
  unfold enableRefusal
  dsimp only
  rw [halone]
  simp [firstFail, hsized, hsq, hsq', hcq, hcq', hrq, hrq', hver', hprov, hpair, hboot]

end

/-! ### What a session's release leaves -/

/-- The queue of a context whose session is released: open requests end with ST_CANCELLED, and the CANCELs that name them complete (04 R111;
09 R306). -/
def releasedQueue (k : Ctx) : List Adm :=
  (k.queue.map fun a => if openRequest a then
      { a with done := some (stCancelled, requestPayload (tokensOf a) ((k.session.map Session.pos).getD 0) 0, false), deadline := none } else a).map
    fun a => match a.work, a.done with
      | .cancelling _, none => { a with done := some (stOk, 1, false) }
      | _, _ => a

/-- A context whose session is released (04 R111). -/
def releasedCtx (k : Ctx) : Ctx :=
  { k with
    inst := none, session := none, place := none, reservedBytes := 0, stagingBytes := 0, space := none, readyAt := none
    queue := releasedQueue k }

theorem ctxOf_releaseSession (s : State) (c : Nat) : ctxOf (releaseSession s c) c = releasedCtx (ctxOf s c) := ctxOf_modCtx_same _ _ _

theorem releaseSession_otherCtxs (s : State) (c : Nat) : OtherCtxs c s (releaseSession s c) :=
  fun _ he => (ctxOf_modCtx _ _ _ _).trans (if_neg he)

/-- What the start of a session may have released, and what it leaves of the rest (09 R305; 15 R481). -/
structure SetUpKept (s t : State) (c : Nat) : Prop where
  seed : (ctxOf t c).seed = (ctxOf s c).seed
  prov : (ctxOf t c).prov = (ctxOf s c).prov
  sqBase : (ctxOf t c).sqBase = (ctxOf s c).sqBase
  sqLog : (ctxOf t c).sqLog = (ctxOf s c).sqLog
  others : OtherCtxs c s t
  rf : t.rf = s.rf
  hostMem : t.hostMem = s.hostMem
  arr : t.arr = s.arr
  flc : t.flc = s.flc

theorem releaseSession_setUpKept (s : State) (c : Nat) : SetUpKept s (releaseSession s c) c := by
  have hctx := ctxOf_releaseSession s c
  exact ⟨hctx ▸ rfl, hctx ▸ rfl, hctx ▸ rfl, hctx ▸ rfl, releaseSession_otherCtxs s c, rfl, rfl, rfl, rfl⟩

/-! ### A context that starts -/

/-- A context as an enable leaves it (09 R305). -/
def startedCtx (k : Ctx) (v : Word) (seed : Nat) : Ctx :=
  { k with
    enable := true, enabled := true, ver := bits v 23 20, pasid := bits v 19 0, pasidEn := v.getLsbD 30, errCode := 0, error := false
    noWrites := false, seed := seed, sqHead := 0, sqTail := 0, cqHead := 0, cqTail := 0, cqPhase := true, rqHead := 0, rqTail := 0, frameSeq := 0
    trunc := 0, dbErr := 0, evtLost := 0, lostMark := false, flush := 0, truncTerms := 0, reissue := 0, special := 0
    events := [], queue := [], waiting := none, buffers := [], output := none, holdTimer := none, stopped := none
    frameHeld := false, unsignalled := 0, coalesce := none, suspended := none
    session := k.session.map fun x => { x with seed := seed } }

/-- The state with a context started, its seed drawn where the host wrote zero, and its start counted (09 R305; 02 R64; 16 R516). -/
def startedFrom (s : State) (c : Nat) (v : Word) : State :=
  let d := drawnSeed s (ctxOf s c).seed
  setCtx { d.2 with flc := { d.2.flc with starts := d.2.flc.starts ++ [c] } } c (startedCtx (ctxOf s c) v d.1)

theorem drawnSeed_fst_of_written (s : State) {seed : Nat} (h : seed ≠ 0) : (drawnSeed s seed).1 = seed := by simp [drawnSeed, h]

theorem ctxOf_startedFrom (s : State) (c : Nat) (v : Word) :
    ctxOf (startedFrom s c v) c = startedCtx (ctxOf s c) v (drawnSeed s (ctxOf s c).seed).1 := ctxOf_setCtx_same _ _ _

/-- A start changes its context, draws a free value at most and is counted. -/
theorem startedFrom_frame (s : State) (c : Nat) (v : Word) : startedFrom s c v =
    { s with free := (startedFrom s c v).free, flc := { s.flc with starts := s.flc.starts ++ [c] }, ctxs := (startedFrom s c v).ctxs } := by
  unfold startedFrom drawnSeed
  split <;> rfl

theorem startedFrom_otherCtxs (s : State) (c : Nat) (v : Word) : OtherCtxs c s (startedFrom s c v) := by
  intro e he
  unfold startedFrom drawnSeed
  split <;> exact (setCtx_ctxPut _ c _).2.1 e he

section
variable {s : State} {c : Nat} {v : Word} (hoff : (ctxOf s c).enable = false) (hidle : (ctxOf s c).enabled = false)
  (hsound : enableRefusal s (ctxOf s c) v = none)
include hoff hidle hsound

/-- A shadow becomes a standby (12 R414). -/
theorem enableCtx_of_shadow (hshadow : (ctxOf s c).shadow = true) :
    enableCtx s c v = setCtx s c { ctxOf s c with
      enable := true, standby := true, ver := bits v 23 20, pasid := bits v 19 0, pasidEn := v.getLsbD 30, errCode := 0 } := by
  simp only [enableCtx, hoff, hidle, hsound, hshadow, Bool.or_false, Bool.false_eq_true, if_false, if_true]

/-- Any other context starts, with its session resumed or released before (09 R305; 15 R481). -/
theorem enableCtx_of_started (hshadow : (ctxOf s c).shadow = false) :
    ∃ t, SetUpKept s t c ∧ enableCtx s c v = startedFrom t c v := by
  refine ⟨if mayResume s (ctxOf s c) (bits v 23 20) (bits v 19 0) (v.getLsbD 30) then s else releaseSession s c, ?_, ?_⟩
  · split
    · exact ⟨rfl, rfl, rfl, rfl, fun _ _ => rfl, rfl, rfl, rfl, rfl⟩
    · exact releaseSession_setUpKept s c
  · simp only [enableCtx, hoff, hidle, hsound, hshadow, Bool.or_false, Bool.false_eq_true, if_false]
    rfl

end

/-! ### Disabling -/

/-- The copies of a context's descriptors that an ABORT of the context names (10 R342). -/
def ownCopies (s : State) (c : Nat) : List (Nat × DmaChan) := s.dma.chans.filter fun e => decide (e.1 < 48) && decide (bits e.2.ctl 15 0 = c)

/-- An ABORT changes channels alone. -/
theorem abortDma_chans (s : State) (n : Nat) : ∃ cs, abortDma s n = { s with dma := { s.dma with chans := cs } } := by
  unfold abortDma
  split
  · exact ⟨_, rfl⟩
  · exact ⟨s.dma.chans, rfl⟩

theorem foldl_abortDma_chans (xs : List (Nat × DmaChan)) (s : State) :
    ∃ cs, xs.foldl (fun t e => abortDma t e.1) s = { s with dma := { s.dma with chans := cs } } := by
  induction xs generalizing s with
  | nil => exact ⟨s.dma.chans, rfl⟩
  | cons x xs ih =>
    obtain ⟨cs, hcs⟩ := abortDma_chans s x.1
    obtain ⟨cs', hcs'⟩ := ih (abortDma s x.1)
    exact ⟨cs', by rw [List.foldl_cons, hcs', hcs]⟩

theorem ownCopies_of_none {s : State} {c : Nat} (h : ∀ e ∈ s.dma.chans, e.1 < 48 → bits e.2.ctl 15 0 ≠ c) : ownCopies s c = [] := by
  refine List.filter_eq_nil_iff.mpr fun e he => ?_
  simpa using h e he

section
variable {s : State} {c : Nat} (hon : (ctxOf s c).enable = true)
include hon

theorem disableCtx_of_standby (h : (ctxOf s c).standby = true) :
    disableCtx s c = setCtx s c { ctxOf s c with enable := false, standby := false } := by
  simp [disableCtx, hon, h]

theorem disableCtx_of_active (h : (ctxOf s c).standby = false) :
    disableCtx s c = finishDisable (setCtx ((ownCopies s c).foldl (fun t e => abortDma t e.1) s) c
      { ctxOf s c with enable := false, waiting := none, holdTimer := none }) c := by
  simp only [disableCtx, hon, h, Bool.not_true, Bool.false_eq_true, if_false]
  rfl

end

/-! ### The commands -/

section
variable {s : State} {p : PageRef} (v : Word)

theorem exec_contextEnable_of_noContext (h : pageCtx s p = none) : exec (.contextEnable p v) s = .next s := by
  show execContextEnable p v s = _
  simp only [execContextEnable, h]

theorem exec_contextDisable_of_noContext (h : pageCtx s p = none) : exec (.contextDisable p v) s = .next s := by
  show execContextDisable p v s = _
  simp only [execContextDisable, h]

variable {c : Nat} (hpage : pageCtx s p = some c)
include hpage

theorem exec_contextEnable_of_context : exec (.contextEnable p v) s = .next (enableCtx s c v) := by
  show execContextEnable p v s = _
  simp only [execContextEnable, hpage]

theorem exec_contextDisable_of_on (hon : (ctxOf s c).enable = true) : exec (.contextDisable p v) s = .next (disableCtx s c) := by
  show execContextDisable p v s = _
  simp only [execContextDisable, hpage, hon, if_true]

theorem exec_contextDisable_of_off (hoff : (ctxOf s c).enable = false) :
    exec (.contextDisable p v) s = .next (setCtx s c { ctxOf s c with
      ver := v.toNat / 2 ^ 20 % 16, pasid := v.toNat % 2 ^ 20, pasidEn := v.getLsbD 30 }) := by
  show execContextDisable p v s = _
  simp only [execContextDisable, hpage, hoff, bits_ver, bits_pasid, Bool.false_eq_true, if_false]

end

/-- Settles O17: a context that its checks admit starts (`enableCtx_of_started`) or becomes a standby (`enableCtx_of_shadow`), else takes the
status of the check (`enableCtx_of_refused`); a disable is `disableCtx_of_active` or `disableCtx_of_standby`. -/
theorem contextEnabled : Obligations.ContextEnabled := by
  unfold Obligations.ContextEnabled
  intro s p v
  refine ⟨fun hpage => ⟨⟨_, exec_contextEnable_of_noContext v hpage, rfl⟩, _, exec_contextDisable_of_noContext v hpage, rfl⟩,
    fun c hpage => ?_⟩
  have henable := exec_contextEnable_of_context v hpage
  refine ⟨fun hon hstandby => ⟨_, exec_contextDisable_of_on v hpage hon, ?_⟩,
    fun hon hactive => ⟨_, exec_contextDisable_of_on v hpage hon, ?_⟩,
    fun hoff hidle => ⟨fun lo hrings hver hprov hpair halone hboot => ?_, fun st hst => ⟨_, henable, ?_⟩⟩,
    fun hoff => ⟨_, exec_contextDisable_of_off v hpage hoff, setCtx_ctxPut s c _⟩⟩
  · rw [disableCtx_of_standby hon hstandby]
    exact setCtx_ctxPut s c _
  · obtain ⟨cs, hcs⟩ := foldl_abortDma_chans (ownCopies s c) s
    refine ⟨_, disableCtx_of_active hon hactive, ctxOf_setCtx_same _ _ _, ?_, ?_, fun hnone => ?_⟩
    · rw [hcs]
      exact (setCtx_ctxPut _ c _).2.1
    · rw [hcs]
      rfl
    · rw [ownCopies_of_none hnone]
      rfl
  · have hsound := enableRefusal_of_sound hrings hver hprov hpair halone hboot
    refine ⟨fun hshadow => ⟨_, henable, ?_⟩, fun hshadow => ⟨_, henable, ?_⟩⟩
    · obtain ⟨t, hkept, hstart⟩ := enableCtx_of_started hoff hidle hsound hshadow
      have hseed (hwritten : (ctxOf s c).seed ≠ 0) : (drawnSeed t (ctxOf t c).seed).1 = (ctxOf s c).seed :=
        (drawnSeed_fst_of_written t (hkept.seed ▸ hwritten)).trans hkept.seed
      have hframe := startedFrom_frame t c v
      rw [hstart, ctxOf_startedFrom]
      exact ⟨rfl, rfl, hver, bits_pasid v, rfl, rfl, rfl, rfl, rfl, rfl, rfl, rfl, rfl, rfl, rfl, rfl, rfl, rfl, rfl, rfl, rfl, rfl, rfl,
        hseed, hkept.prov, hkept.sqBase, hkept.sqLog, (congrArg (fun u : State => u.flc.starts) hframe).trans (hkept.flc ▸ rfl),
        fun e he => (startedFrom_otherCtxs t c v e he).trans (hkept.others e he), (congrArg State.rf hframe).trans hkept.rf,
        (congrArg State.hostMem hframe).trans hkept.hostMem, (congrArg State.arr hframe).trans hkept.arr⟩
    · rw [enableCtx_of_shadow hoff hidle hsound hshadow, bits_pasid, show bits v 23 20 = 1 from hver]
      exact setCtx_ctxPut s c _
  · rw [enableCtx_of_refused hoff hidle hst]
    exact setCtx_ctxPut s c _

end Sys2Proof.Proofs
end

section
/-!
Accesses that fail, their re-issues and the waits of host reads (01_architecture.md R28; 09_host_rings.md R328; 10_dma_check.md R338, R353).
-/
namespace Sys2Proof.Proofs
open Sys2Proof Sys2Proof.Machine

/-! ### An access that fails -/

/-- The record of an access's re-issues. -/
def retryOf (s : State) (a : HubAccess) : Option Retry := s.dma.retries.find? fun r => r.access = a

/-- Re-issues spent on an access. -/
def triesOf (s : State) (a : HubAccess) : Nat := ((retryOf s a).map Retry.tries).getD 0

/-- The records of the other accesses. -/
def otherRetries (s : State) (a : HubAccess) : List Retry := s.dma.retries.filter fun r => r.access ≠ a

/-- While re-issues are left, the gap starts (10 R338). -/
theorem failAccess_of_left {s : State} {a : HubAccess} (h : triesOf s a < regBits s 0x1400000 2 0) :
    failAccess s a = { s with dma := { s.dma with
      retries := otherRetries s a ++ [⟨a, triesOf s a, some (s.gt + regBits s 0x1400000 15 8 * 1000), accessAddr s a⟩] } } := if_pos h

/-- With none left the access is lost (10 R338; 09 R328). -/
theorem failAccess_of_none {s : State} {a : HubAccess} (h : regBits s 0x1400000 2 0 ≤ triesOf s a) :
    failAccess s a = accessLost { s with dma := { s.dma with retries := otherRetries s a } } a := if_neg (Nat.not_lt.mpr h)

section
variable {s : State} {a : HubAccess}

theorem exec_accessFailure_of_gap (unc : Bool) (h : inGap s a = true) : exec (.accessFailure a unc) s = .next s := by
  show execAccessFailure a unc s = _
  simp [execAccessFailure, h]

theorem exec_hostCompletionTimeout_of_gap (h : inGap s a = true) : exec (.hostCompletionTimeout a) s = .next s := by
  show execHostCompletionTimeout a s = _
  simp [execHostCompletionTimeout, h]

variable (h : inGap s a = false)
include h

theorem exec_accessFailure_of_correctable : exec (.accessFailure a false) s = .next (failAccess s a) := by
  show execAccessFailure a false s = _
  simp [execAccessFailure, h]

/-- A host read of a channel, or another, that has waited its time out fails (10 R338). -/
theorem exec_hostCompletionTimeout_of_due (hdue : dmaReadDue s a = true ∨ ∃ w, waitOf s a = some w ∧ RunOut s w) :
    exec (.hostCompletionTimeout a) s = .next (failAccess (endReadWait s a) a) := by
  have hout : (dmaReadDue s a || (waitOf s a).any (ranOut s)) = true := by
    rw [Bool.or_eq_true_iff]
    refine hdue.imp_right fun ⟨w, hw, hrun⟩ => ?_
    rw [hw]
    exact (ranOut_eq_true_iff s w).mpr hrun
  show execHostCompletionTimeout a s = _
  simp [execHostCompletionTimeout, h, hout]

theorem exec_hostCompletionTimeout_of_waiting (hread : dmaReadDue s a = false) (hwait : ∀ w, waitOf s a = some w → ¬ RunOut s w) :
    exec (.hostCompletionTimeout a) s = .next s := by
  have hin : (waitOf s a).any (ranOut s) = false := by
    cases hw : waitOf s a with
    | none => rfl
    | some w => exact (ranOut_eq_false_iff s w).mpr (hwait w hw)
  show execHostCompletionTimeout a s = _
  simp [execHostCompletionTimeout, h, hread, hin]

end

/-! ### Uncorrectable sources -/

section
variable {s : State}

theorem exec_accessFailure_dmaRead_of_running {n : BitVec 6} (h : inGap s (.dmaRead n) = false) (hrun : (dmaOf s n.toNat).st = .running) :
    exec (.accessFailure (.dmaRead n) true) s = .next
      (haltDma (badWord s (localOf s (bits (dmaCtl s n.toNat) 23 22) (accessAddr s (.dmaRead n)))) n.toNat 5 (accessAddr s (.dmaRead n))) := by
  show execAccessFailure (.dmaRead n) true s = _
  simp [execAccessFailure, h, hrun]

theorem exec_accessFailure_dmaRead_of_stopped {n : BitVec 6} (h : inGap s (.dmaRead n) = false) (hstop : (dmaOf s n.toNat).st ≠ .running) :
    exec (.accessFailure (.dmaRead n) true) s = .next s := by
  show execAccessFailure (.dmaRead n) true s = _
  simp [execAccessFailure, h, hstop]

theorem exec_accessFailure_engineRead {e : BitVec 4} (h : inGap s (.engineRead e) = false) :
    exec (.accessFailure (.engineRead e) true) s = .next (endEngine
      (badWord s (localOf s (regBits s (0x150100C + e.toNat * 0x40) 25 24) (accessAddr s (.engineRead e)))) e.toNat 5) := by
  show execAccessFailure (.engineRead e) true s = _
  simp [execAccessFailure, h]

/-- Only channels and engines read local memory. -/
theorem exec_accessFailure_of_hostOnly {a : HubAccess} (h : inGap s a = false) (hdma : ∀ n, a ≠ .dmaRead n) (heng : ∀ e, a ≠ .engineRead e) :
    exec (.accessFailure a true) s = .next s := by
  show execAccessFailure a true s = _
  cases a with
  | dmaRead n => exact absurd rfl (hdma n)
  | engineRead e => exact absurd rfl (heng e)
  | _ => simp [execAccessFailure, h]

/-- An engine that ends changes alone (10 R353). -/
theorem endEngine_spec (s : State) (e cause : Nat) : chkOf (endEngine s e cause) e = { chkOf s e with st := .error, cause := cause } ∧
    (∀ k, k ≠ e → chkOf (endEngine s e cause) k = chkOf s k) ∧
    endEngine s e cause = { s with dma := { s.dma with engines := (endEngine s e cause).dma.engines } } :=
  ⟨tabGet_set_same s.dma.engines {} e { chkOf s e with st := .error, cause := cause },
    fun _ hk => tabGet_set_other s.dma.engines {} {} { chkOf s e with st := .error, cause := cause } hk, rfl⟩

end

/-! ### Waits that end -/

section
variable {s : State} {a : HubAccess}

theorem dmaReadDue_of_runOut {n : BitVec 6} {lim : Nat} (hlim : (dmaOf s n.toNat).readBy = some lim) (hrun : RunOut s lim)
    (hst : (dmaOf s n.toNat).st = .running) : dmaReadDue s (.dmaRead n) = true := by
  simp [dmaReadDue, hlim, (ranOut_eq_true_iff s lim).mpr hrun, hst]

theorem dmaReadDue_of_waiting {n : BitVec 6} (h : (dmaOf s n.toNat).readBy = none ∨
    (∃ lim, (dmaOf s n.toNat).readBy = some lim ∧ ¬ RunOut s lim) ∨ (dmaOf s n.toNat).st ≠ .running) :
    dmaReadDue s (.dmaRead n) = false := by
  rcases h with hnone | ⟨lim, hlim, hrun⟩ | hst
  · simp [dmaReadDue, hnone]
  · simp [dmaReadDue, hlim, (ranOut_eq_false_iff s lim).mpr hrun]
  · cases hlim : (dmaOf s n.toNat).readBy <;> simp [dmaReadDue, hlim, hst]

theorem dmaReadDue_of_notChannel (h : ∀ n, a ≠ .dmaRead n) : dmaReadDue s a = false := by
  cases a with
  | dmaRead n => exact absurd rfl (h n)
  | _ => rfl

theorem endReadWait_of_notChannel (h : ∀ n, a ≠ .dmaRead n) :
    endReadWait s a = { s with dma := { s.dma with waits := s.dma.waits.filter fun w => w.access ≠ a } } := by
  cases a with
  | dmaRead n => exact absurd rfl (h n)
  | _ => rfl

/-- A wait that ends leaves the address of the access. -/
theorem accessAddr_endReadWait (s : State) (a : HubAccess) : accessAddr (endReadWait s a) a = accessAddr s a := by
  cases a with
  | dmaRead n =>
    show accessAddr (modDma s n.toNat fun c => { c with readBy := none }) (.dmaRead n) = _
    simp only [accessAddr, dmaOf_modDma_same]
    rfl
  | _ => rfl

/-- A read whose wait has ended fails as it would have before. -/
theorem failAccess_endReadWait (s : State) (a : HubAccess) : let u := endReadWait s a
    (triesOf s a < regBits s 0x1400000 2 0 → failAccess u a = { u with dma := { u.dma with
      retries := otherRetries s a ++ [⟨a, triesOf s a, some (s.gt + regBits s 0x1400000 15 8 * 1000), accessAddr s a⟩] } }) ∧
    (regBits s 0x1400000 2 0 ≤ triesOf s a → failAccess u a = accessLost { u with dma := { u.dma with retries := otherRetries s a } } a) := by
  intro u
  have haddr : accessAddr u a = accessAddr s a := accessAddr_endReadWait s a
  have hsame : u.gt = s.gt ∧ u.dma.retries = s.dma.retries ∧ u.rf = s.rf := by
    cases a <;> exact ⟨rfl, rfl, rfl⟩
  obtain ⟨hgt, hretries, hrf⟩ := hsame
  have htries : triesOf u a = triesOf s a := by simp only [triesOf, retryOf, hretries]
  have hother : otherRetries u a = otherRetries s a := by simp only [otherRetries, hretries]
  have hbits (o hi lo : Nat) : regBits u o hi lo = regBits s o hi lo := by simp only [regBits, regVal, hrf]
  rw [← htries, ← hother, ← hbits, ← hbits, ← hgt, ← haddr]
  exact ⟨failAccess_of_left, failAccess_of_none⟩

end

/-! ### Gaps that end -/

/-- The records of re-issues with one more spent on an access, whose gap has ended. -/
def spentRetries (s : State) (a : HubAccess) : List Retry :=
  s.dma.retries.map fun q => if q.access = a then { q with tries := q.tries + 1, due := none } else q

/-- The state with an access's gap ended, before the access is made again (10 R338). -/
def gapEnded (s : State) (a : HubAccess) (r : Retry) : State :=
  let t := { s with dma := { s.dma with retries := spentRetries s a } }
  match a with
  | .dmaRead n => modDma t n.toNat fun c => { c with retries := r.tries + 1, readBy := hostBy s (bits (dmaCtl s n.toNat) 23 22) }
  | .dmaWrite n _ => modDma t n.toNat fun c => { c with retries := r.tries + 1 }
  | _ => t

theorem gapEnded_frame (s : State) (a : HubAccess) (r : Retry) : (gapEnded s a r).dma.retries = spentRetries s a ∧
    gapEnded s a r = { s with dma := { s.dma with chans := (gapEnded s a r).dma.chans, retries := (gapEnded s a r).dma.retries } } := by
  cases a <;> exact ⟨rfl, rfl⟩

section
variable (s : State) (r : Retry)

theorem dmaOf_gapEnded_dmaRead (n : BitVec 6) : dmaOf (gapEnded s (.dmaRead n) r) n.toNat =
    { dmaOf s n.toNat with retries := r.tries + 1, readBy := hostBy s (bits (dmaCtl s n.toNat) 23 22) } := dmaOf_modDma_same _ _ _

theorem dmaOf_gapEnded_dmaWrite (n : BitVec 6) (l : Word) :
    dmaOf (gapEnded s (.dmaWrite n l) r) n.toNat = { dmaOf s n.toNat with retries := r.tries + 1 } := dmaOf_modDma_same _ _ _

/-- A channel that made no such access is as before. -/
theorem dmaOf_gapEnded_other {a : HubAccess} {n : BitVec 6} (hw : ∀ l, a ≠ .dmaWrite n l) (hr : a ≠ .dmaRead n) :
    dmaOf (gapEnded s a r) n.toNat = dmaOf s n.toNat := by
  cases a with
  | dmaRead m => exact dmaOf_modDma_other _ _ fun h => hr (congrArg _ (BitVec.eq_of_toNat_eq h.symm))
  | dmaWrite m l => exact dmaOf_modDma_other _ _ fun h => hw l (congrArg (HubAccess.dmaWrite · l) (BitVec.eq_of_toNat_eq h.symm))
  | _ => rfl

end

section
variable {s : State} {a : HubAccess}

theorem exec_retryGapExpiry_of_waiting
    (h : retryOf s a = none ∨ ∃ r, retryOf s a = some r ∧ (r.due = none ∨ ∃ lim, r.due = some lim ∧ s.gt < lim)) :
    exec (.retryGapExpiry a) s = .next s := by
  show execRetryGapExpiry a s = _
  unfold retryOf at h
  rcases h with hnone | ⟨r, hr, hdue | ⟨lim, hdue, hlim⟩⟩
  · simp only [execRetryGapExpiry, hnone]
  · simp only [execRetryGapExpiry, hr, hdue]
  · simp only [execRetryGapExpiry, hr, hdue, if_pos hlim]

/-- At the gap's end the access is made again, and counted. -/
theorem exec_retryGapExpiry_of_due {r : Retry} {lim : Nat} (hr : retryOf s a = some r) (hdue : r.due = some lim) (hlim : lim ≤ s.gt) :
    exec (.retryGapExpiry a) s = .next (bump (Machine.reissue (gapEnded s a r) a) 0x1400030 1) := by
  show execRetryGapExpiry a s = _
  unfold retryOf at hr
  simp only [execRetryGapExpiry, hr, hdue, if_neg (Nat.not_lt.mpr hlim)]
  cases a <;> rfl

end

/-- Settles O34: a failed access is `failAccess_of_left` or `failAccess_of_none`, an uncorrectable source one of `exec_accessFailure_…`, and
the ends of waits and gaps are `exec_hostCompletionTimeout_of_…` and `exec_retryGapExpiry_of_…`. -/
theorem accessRetries : Obligations.AccessRetries := by
  unfold Obligations.AccessRetries
  intro s a old tries rest fails
  have hfails : fails s (failAccess s a) := ⟨failAccess_of_left, failAccess_of_none⟩
  refine ⟨fun hgap => ⟨fun unc => ⟨_, exec_accessFailure_of_gap unc hgap, rfl⟩, _, exec_hostCompletionTimeout_of_gap hgap, rfl⟩,
    fun hgap => ⟨⟨_, exec_accessFailure_of_correctable hgap, hfails⟩, ?_, ?_, ?_, ?_, ?_, ?_, ?_⟩,
    fun hwait => ⟨_, exec_retryGapExpiry_of_waiting hwait, rfl⟩, fun r lim hr hdue hlim => ?_⟩
  · rintro n rfl
    exact ⟨fun hrun => ⟨_, exec_accessFailure_dmaRead_of_running hgap hrun, rfl⟩,
      fun hstop => ⟨_, exec_accessFailure_dmaRead_of_stopped hgap hstop, rfl⟩⟩
  · rintro e rfl
    exact ⟨_, exec_accessFailure_engineRead hgap, _, rfl, endEngine_spec _ _ _⟩
  · exact fun hdma heng => ⟨_, exec_accessFailure_of_hostOnly hgap hdma heng, rfl⟩
  · rintro n rfl lim hlim hrun hst
    refine ⟨_, exec_hostCompletionTimeout_of_due hgap (.inl (dmaReadDue_of_runOut hlim hrun hst)), _,
      modDma_dmaPut s n.toNat fun c => { c with readBy := none }, rfl, failAccess_endReadWait s (.dmaRead n)⟩
  · rintro n rfl hread hwait
    exact ⟨_, exec_hostCompletionTimeout_of_waiting hgap (dmaReadDue_of_waiting hread) hwait, rfl⟩
  · exact fun hdma hout => ⟨_, exec_hostCompletionTimeout_of_due hgap (.inr hout), _, endReadWait_of_notChannel hdma, failAccess_endReadWait s a⟩
  · exact fun hdma hwait => ⟨_, exec_hostCompletionTimeout_of_waiting hgap (dmaReadDue_of_notChannel hdma) hwait, rfl⟩
  · obtain ⟨hretries, hframe⟩ := gapEnded_frame s a r
    refine ⟨_, exec_retryGapExpiry_of_due hr hdue hlim, _, rfl, hretries, fun n hw hread => dmaOf_gapEnded_other s r hw hread, ?_, ?_, hframe⟩
    · rintro n rfl
      exact dmaOf_gapEnded_dmaRead s r n
    · rintro n l rfl
      exact dmaOf_gapEnded_dmaWrite s r n l

end Sys2Proof.Proofs
end

section
/-!
Messages between trays and the message rings (09_host_rings.md R298, R305, R306; 11_tray_fabric.md R380 to R383, R392).
-/
namespace Sys2Proof.Proofs
open Sys2Proof Sys2Proof.Machine

/-! ### The rings -/

theorem modMsg_msgPut (s : State) (f : MsgRings → MsgRings) : MsgPut s (modMsg s f) (f s.fab.msg) := rfl

theorem modMsg_gt (s : State) (f : MsgRings → MsgRings) : (modMsg s f).gt = s.gt := rfl
theorem regVal_modMsg (s : State) (f : MsgRings → MsgRings) (o : Nat) : regVal (modMsg s f) o = regVal s o := rfl

/-- The PF's own host memory without a PASID is the first address space (09 R295, R299). -/
theorem hostWrite_zero (s : State) (addr : Nat) (bs : List Byte) : hostWrite s 0 addr bs = { s with hostMem := putBytes s.hostMem addr bs } := by
  simp [hostWrite]

/-- An entry written at the completion tail, with the PF's message (11 R380, R382). -/
theorem writeMsgEntry_entered (s : State) (type st tag len b rq : Nat) (far : Nat × Nat) :
    MsgEntered s (writeMsgEntry s type st tag len b rq far) (msgEntry s.fab.msg.phase type st tag len far.1 far.2 b rq s.gt) := by
  unfold MsgEntered writeMsgEntry
  simp only [hostWrite_zero]
  rfl

theorem signalVector_gt (s : State) (f v : Nat) : (signalVector s f v).gt = s.gt := by
  unfold signalVector
  dsimp only
  split
  · rfl
  · split <;> rfl

theorem writeMsgEntry_gt (s : State) (type st tag len b rq : Nat) (far : Nat × Nat) : (writeMsgEntry s type st tag len b rq far).gt = s.gt := by
  unfold writeMsgEntry
  rw [signalVector_gt, modMsg_gt, hostWrite_gt]

/-- What is sent after an entry is sent in the same tick. -/
theorem send_writeMsgEntry (s : State) (type st tag len b rq : Nat) (far : Nat × Nat) (m : Sent) : let v := writeMsgEntry s type st tag len b rq far
    send v m = { v with sent := (s.gt, m) :: v.sent } := by
  intro v
  rw [send, writeMsgEntry_gt]

section
variable {s : State} {i : Nat} {full : Bool} {v : Word} {act : MsgRings → Nat → MsgRings}

/-- A doorbell of the message rings that is taken (09 R298; 11 R380). -/
def MsgRung (s : State) (i : Nat) (full : Bool) (v : Word) : Prop :=
  full = true ∧ s.fab.msg.enabled = true ∧ bits v 15 0 < ringSize (msgLog s i)

theorem msgDoorbell_of_not_rung (h : ¬ MsgRung s i full v) : msgDoorbell s i full v act = s := by
  unfold msgDoorbell
  refine if_pos ?_
  simp only [MsgRung, Classical.not_and_iff_not_or_not, Bool.not_eq_true, Nat.not_lt] at h
  simpa [or_assoc] using h

theorem msgDoorbell_of_rung (h : MsgRung s i full v) : msgDoorbell s i full v act = modMsg s fun q => act q (bits v 15 0) := by
  obtain ⟨hfull, hon, hring⟩ := h
  simp [msgDoorbell, hfull, hon, Nat.not_le.mpr hring]

end

/-! ### Sending -/

/-- Whether MESSAGE_SEND takes the descriptor at the send head (11 R381, R383). -/
def MsgGoes (s : State) : Prop := msgServe s = true ∧ s.fab.msg.sqHead ≠ s.fab.msg.sqTail ∧ msgFree s ≠ 0

/-- What MESSAGE_SEND finds wrong with a descriptor's fields (11 R381). -/
def MsgMalformed (b len addr : Nat) : Prop := b < 9 ∨ 11 < b ∨ len = 0 ∨ 65536 < len ∨ addr % 64 ≠ 0

/-- `MsgMalformed`, as the model tests it. -/
def msgMalformed (b len addr : Nat) : Bool :=
  decide (b < 9) || decide (11 < b) || decide (len = 0) || decide (65536 < len) || decide (addr % 64 ≠ 0)

theorem msgMalformed_iff (b len addr : Nat) : msgMalformed b len addr = true ↔ MsgMalformed b len addr := by
  simp [msgMalformed, MsgMalformed, or_assoc]

/-- The status of a descriptor: of its version, its fields and its bundle's links the first that fails (11 R381, R383). -/
def sendStatus (s : State) (ver : BitVec 4) (b len addr : Nat) : Nat :=
  if ver ≠ 1#4 then stBadVersion else if msgMalformed b len addr then stBadDesc else if bundleGone s b then stPoison else stOk

/-- The rings with the send head past one descriptor. -/
def headPast (s : State) : MsgRings := { s.fab.msg with sqHead := ringNext (msgLog s 0) s.fab.msg.sqHead }

/-- A message joins those in transit. -/
def inTransit (m : MsgRings) (x : MsgSent) : MsgRings := { m with transit := m.transit ++ [x] }

/-- The end of a descriptor that fails with a status: behind those of its bundle in transit, else at once (11 R383). -/
def failSend (s : State) (b tag len st : Nat) : State :=
  let s1 := modMsg s fun _ => headPast s
  if s.fab.msg.transit.any fun x => x.bundle = b then modMsg s1 fun q => inTransit q ⟨b, tag, len, some st⟩
  else writeMsgEntry s1 0 st tag len b 0 (farOf s b)

section
variable {s : State} {ver : BitVec 4} {bundle : BitVec 8} {tag : BitVec 16} {len : Word} {addr : BitVec 64} {body : List Byte}

theorem exec_messageSend_of_not_goes (h : ¬ MsgGoes s) : exec (.messageSend ver bundle tag len addr body) s = .next s := by
  show execMessageSend ver bundle tag len addr body s = _
  unfold execMessageSend
  refine if_pos ?_
  simp only [MsgGoes, Classical.not_and_iff_not_or_not, Bool.not_eq_true, Classical.not_not] at h
  simpa [or_assoc] using h

variable (h : MsgGoes s)
include h

theorem exec_messageSend_of_goes : exec (.messageSend ver bundle tag len addr body) s =
    if sendStatus s ver bundle.toNat len.toNat addr.toNat ≠ stOk then
      if s.fab.msg.transit.any fun x => x.bundle = bundle.toNat then
        .next (modMsg (modMsg s fun _ => headPast s) fun q =>
          inTransit q ⟨bundle.toNat, tag.toNat, len.toNat, some (sendStatus s ver bundle.toNat len.toNat addr.toNat)⟩)
      else .next (writeMsgEntry (modMsg s fun _ => headPast s) 0 (sendStatus s ver bundle.toNat len.toNat addr.toNat) tag.toNat len.toNat
        bundle.toNat 0 (farOf s bundle.toNat))
    else .next (send (modMsg s fun _ => inTransit (headPast s) ⟨bundle.toNat, tag.toNat, len.toNat, none⟩)
      (.message bundle.toNat tag.toNat (body.take len.toNat ++ List.replicate (len.toNat - body.length) 0#8))) := by
  obtain ⟨hserve, hposted, hfree⟩ := h
  exact if_neg (by simp [hserve, hposted, hfree])

theorem exec_messageSend_of_failed {st : Nat} (hst : sendStatus s ver bundle.toNat len.toNat addr.toNat = st) (hfails : st ≠ stOk) :
    exec (.messageSend ver bundle tag len addr body) s = .next (failSend s bundle.toNat tag.toNat len.toNat st) := by
  rw [exec_messageSend_of_goes h, hst, if_pos hfails]
  unfold failSend
  split <;> rfl

/-- A message as long as its descriptor says is in transit, and sent. -/
theorem exec_messageSend_of_sent (hst : sendStatus s ver bundle.toNat len.toNat addr.toNat = stOk) (hlen : body.length = len.toNat) :
    exec (.messageSend ver bundle tag len addr body) s =
      .next (send (modMsg s fun _ => inTransit (headPast s) ⟨bundle.toNat, tag.toNat, len.toNat, none⟩)
        (.message bundle.toNat tag.toNat body)) := by
  rw [exec_messageSend_of_goes h, hst, if_neg (not_not_intro rfl), ← hlen, List.take_length, Nat.sub_self, List.replicate_zero, List.append_nil]

end

section
variable {s : State} {ver : BitVec 4} {b len addr : Nat}

theorem sendStatus_of_badVersion (hver : ver ≠ 1#4) : sendStatus s ver b len addr = stBadVersion := if_pos hver

variable (hver : ver = 1#4)
include hver

theorem sendStatus_of_malformed (hbad : MsgMalformed b len addr) : sendStatus s ver b len addr = stBadDesc := by
  rw [sendStatus, if_neg (not_not_intro hver), if_pos ((msgMalformed_iff b len addr).mpr hbad)]

variable (hgood : ¬ MsgMalformed b len addr)
include hgood

theorem sendStatus_of_noLink (hlinks : upLinks s b = []) : sendStatus s ver b len addr = stPoison := by
  rw [sendStatus, if_neg (not_not_intro hver), if_neg (mt (msgMalformed_iff b len addr).mp hgood),
    if_pos (show bundleGone s b = true from decide_eq_true hlinks)]

theorem sendStatus_of_link (hlinks : upLinks s b ≠ []) : sendStatus s ver b len addr = stOk := by
  rw [sendStatus, if_neg (not_not_intro hver), if_neg (mt (msgMalformed_iff b len addr).mp hgood), if_neg (by simpa [bundleGone] using hlinks)]

end

/-- A descriptor that fails completes behind those of its bundle in transit, or at once. -/
theorem failSend_spec (s : State) (b tag len st : Nat) :
    ((∃ x, x ∈ s.fab.msg.transit ∧ x.bundle = b) → MsgPut s (failSend s b tag len st) (inTransit (headPast s) ⟨b, tag, len, some st⟩)) ∧
    ((∀ x, x ∈ s.fab.msg.transit → x.bundle ≠ b) → ∃ u, MsgPut s u (headPast s) ∧
      MsgEntered u (failSend s b tag len st) (msgEntry s.fab.msg.phase 0 st tag len (farOf s b).1 (farOf s b).2 b 0 s.gt)) := by
  refine ⟨fun ⟨x, hx, hb⟩ => ?_, fun hnone => ⟨_, modMsg_msgPut s fun _ => headPast s, ?_⟩⟩
  · exact if_pos (List.any_eq_true.mpr ⟨x, hx, decide_eq_true hb⟩)
  · have hany : (s.fab.msg.transit.any fun x => x.bundle = b) = false := List.any_eq_false.mpr fun x hx => by simpa using hnone x hx
    rw [failSend, hany]
    exact writeMsgEntry_entered _ _ _ _ _ _ _ _

/-! ### Messages that leave transit -/

theorem dropOne_append {x : MsgSent} {pre : List MsgSent} (post : List MsgSent) (h : x ∉ pre) :
    endMessage.dropOne x (pre ++ x :: post) = pre ++ post := by
  induction pre with
  | nil => simp [endMessage.dropOne]
  | cons y ys ih =>
    obtain ⟨hy, hys⟩ := not_or.mp (mt List.mem_cons.mpr h)
    simp [endMessage.dropOne, Ne.symm hy, ih hys]

/-- A message ends with an entry (11 R382, R383). -/
theorem endMessage_entered {s : State} {x : MsgSent} (st : Nat) (h : s.fab.msg.error = false) :
    MsgEntered (modMsg s fun q => { q with transit := endMessage.dropOne x q.transit }) (endMessage s x st)
      (msgEntry s.fab.msg.phase 0 (x.st.getD st) x.tag x.len (farOf s x.bundle).1 (farOf s x.bundle).2 x.bundle 0 s.gt) := by
  rw [endMessage, if_neg (Bool.eq_false_iff.mp h)]
  exact writeMsgEntry_entered _ _ _ _ _ _ _ _

theorem exec_messageSentConfirm_of_none {s : State} {bundle : BitVec 4} (written : Bool)
    (h : (s.fab.msg.transit.find? fun x => x.bundle = bundle.toNat) = none) : exec (.messageSentConfirm bundle written) s = .next s := by
  show execMessageSentConfirm bundle written s = _
  simp only [execMessageSentConfirm, h]

theorem exec_messageSentConfirm_of_some {s : State} {bundle : BitVec 4} {x : MsgSent} (written : Bool)
    (h : (s.fab.msg.transit.find? fun x => x.bundle = bundle.toNat) = some x) : exec (.messageSentConfirm bundle written) s =
      .next (endFailed x.bundle s.fab.msg.transit.length (endMessage s x (if written then stOk else stMsgRefused))) := by
  show execMessageSentConfirm bundle written s = _
  simp only [execMessageSentConfirm, h]

section
variable {s : State} {b : Nat}

theorem endFailed_of_none (n : Nat) (h : ∀ x, (s.fab.msg.transit.find? fun x => x.bundle = b) = some x → x.st = none) : endFailed b n s = s := by
  cases n with
  | zero => rfl
  | succ n =>
    unfold endFailed
    cases hx : s.fab.msg.transit.find? fun x => x.bundle = b with
    | none => rfl
    | some x => simp [h x hx]

/-- A failed descriptor has its own status (11 R383). -/
theorem endFailed_of_some (n : Nat) {x : MsgSent} {st : Nat} (hx : (s.fab.msg.transit.find? fun x => x.bundle = b) = some x) (hst : x.st = some st) :
    endFailed b (n + 1) s = endFailed b n (endMessage s x st) := by
  have hown (i : Nat) : endMessage s x i = endMessage s x 0 := by simp [endMessage, hst]
  rw [endFailed, hx, hown st]
  simp [hst]

end

/-! ### Receiving -/

/-- Whether a message lands on a bundle: one of those between trays, with a link (11 R383). -/
def MsgLands (s : State) (b : Nat) : Prop := 9 ≤ b ∧ b ≤ 11 ∧ upLinks s b ≠ []

theorem exec_messageReceive_of_not_lands {s : State} {bundle : BitVec 4} (tag : BitVec 16) (body : List Byte) (bufs : List BufEntry)
    (h : ¬ MsgLands s bundle.toNat) : exec (.messageReceive bundle tag body bufs) s = .next s := by
  show execMessageReceive bundle tag body bufs s = _
  unfold execMessageReceive
  refine if_pos ?_
  simp only [MsgLands, Classical.not_and_iff_not_or_not, Classical.not_not, Nat.not_le] at h
  simpa [bundleGone, or_assoc] using h

/-- The rings with a message in the buffer at the receive head, which is used (11 R383). -/
def msgWritten (s : State) (addr : Nat) (body : List Byte) : State :=
  { s with hostMem := putBytes s.hostMem addr body, fab := { s.fab with msg := { s.fab.msg with rqHead := ringNext (msgLog s 2) s.fab.msg.rqHead } } }

theorem nextMsgBuf_of_none {s : State} {bufs : List BufEntry} (h : bufs = [] ∨ s.fab.msg.rqHead = s.fab.msg.rqTail) :
    nextMsgBuf s bufs = (s, none) := by
  cases bufs with
  | nil => rfl
  | cons e rest => exact if_pos (h.resolve_left (List.cons_ne_nil e rest))

theorem nextMsgBuf_of_good {s : State} {e : BufEntry} (rest : List BufEntry) (hposted : s.fab.msg.rqHead ≠ s.fab.msg.rqTail)
    (hbuf : msgBufOk e = true) :
    nextMsgBuf s (e :: rest) = (s, some e) := by
  rw [nextMsgBuf, if_neg hposted, if_pos hbuf]

section
variable {s : State} {bundle : BitVec 4} (tag : BitVec 16) {body : List Byte} {bufs : List BufEntry} (hlands : MsgLands s bundle.toNat)
include hlands

theorem not_landless : ¬ (decide (bundle.toNat < 9) || decide (11 < bundle.toNat) || bundleGone s bundle.toNat) = true := by
  obtain ⟨hlo, hhi, hlinks⟩ := hlands
  simp [bundleGone, hlo, hhi, hlinks]

/-- Rings that do not serve, or have no free slot or no posted buffer, refuse a message (11 R383). -/
theorem exec_messageReceive_of_refused
    (h : msgServe s = false ∨ msgFree s = 0 ∨ bufs = [] ∨ s.fab.msg.rqHead = s.fab.msg.rqTail) :
    exec (.messageReceive bundle tag body bufs) s = .next (send s (.messageAnswer bundle.toNat tag.toNat false)) := by
  show execMessageReceive bundle tag body bufs s = _
  unfold execMessageReceive
  rw [if_neg (not_landless hlands)]
  by_cases hbarred : (!msgServe s || decide (msgFree s = 0)) = true
  · exact if_pos hbarred
  · rw [if_neg hbarred, nextMsgBuf_of_none]
    simp only [Bool.or_eq_true, Bool.not_eq_true', decide_eq_true_eq, not_or] at hbarred
    exact (h.resolve_left hbarred.1).resolve_left hbarred.2

/-- A message is written from the start of a good first buffer, and entered as received (11 R383). -/
theorem exec_messageReceive_of_taken {e : BufEntry} {rest : List BufEntry} (hserve : msgServe s = true) (hfree : msgFree s ≠ 0)
    (hbufs : bufs = e :: rest) (hposted : s.fab.msg.rqHead ≠ s.fab.msg.rqTail) (hbuf : msgBufOk e = true) (hlen : body.length ≤ 65536) :
    exec (.messageReceive bundle tag body bufs) s = .next (send
      (writeMsgEntry (msgWritten s e.addr.toNat body) 1 stOk tag.toNat body.length bundle.toNat s.fab.msg.rqHead (farOf s bundle.toNat))
      (.messageAnswer bundle.toNat tag.toNat true)) := by
  show execMessageReceive bundle tag body bufs s = _
  unfold execMessageReceive
  rw [if_neg (not_landless hlands), if_neg (by simp [hserve, hfree]), hbufs, nextMsgBuf_of_good rest hposted hbuf]
  dsimp only
  rw [List.take_of_length_le hlen, hostWrite_zero]
  rfl

end

/-! ### Enabling and disabling -/

/-- The sizes of the message rings lie between 2^4 and 2^16 (09 R305; 11 R392). -/
def msgSized (s : State) : Bool := (List.range 3).all fun i => decide (4 ≤ msgLog s i) && decide (msgLog s i ≤ 16)

/-- The status of the first check of MSG_RINGS_ENABLE that fails (09 R305; 11 R392). -/
def msgEnableStatus (s : State) : Nat := if msgSized s then (if bootReady s then stOk else stCtxState) else stRange

/-- `msgSized`, as the model tests it. -/
theorem msgMissized_eq (s : State) : ([0, 1, 2].any fun i => decide (msgLog s i < 4) || decide (16 < msgLog s i)) = !msgSized s := by
  have hsize (i : Nat) : (decide (msgLog s i < 4) || decide (16 < msgLog s i)) = !(decide (4 ≤ msgLog s i) && decide (msgLog s i ≤ 16)) := by
    rw [Bool.not_and, ← decide_not, ← decide_not]
    simp only [Nat.not_le]
  simp only [hsize, msgSized]
  exact (List.not_all_eq_any_not (l := [0, 1, 2])).symm

section
variable {s : State} (vector : BitVec 11)

theorem exec_msgRingsEnable_of_ignored (h : (regVal s 0x3000100).getLsbD 31 = true ∨ barsOff s = true) :
    exec (.msgRingsEnable vector) s = .next s := by
  show execMsgRingsEnable vector s = _
  unfold execMsgRingsEnable
  exact if_pos (Bool.or_eq_true_iff.mpr h)

theorem exec_msgRingsEnable_of_served (hoff : (regVal s 0x3000100).getLsbD 31 = false) (hbars : barsOff s = false) :
    exec (.msgRingsEnable vector) s =
      if msgEnableStatus s ≠ stOk then .next (modMsg (regSetBits s 0x3000100 10 0 vector.toNat) fun q => { q with errCode := msgEnableStatus s })
      else .next (modMsg (regSetBits (regSetBits s 0x3000100 10 0 vector.toNat) 0x3000100 31 31 1)
        fun q => { enabled := true, skipped := q.skipped }) := by
  have hst : (if ([0, 1, 2].any fun i => decide (msgLog s i < 4) || decide (16 < msgLog s i)) then stRange
      else if !bootReady s then stCtxState else stOk) = msgEnableStatus s := by
    rw [msgMissized_eq, msgEnableStatus]
    cases msgSized s <;> cases bootReady s <;> rfl
  rw [← hst]
  show execMsgRingsEnable vector s = _
  unfold execMsgRingsEnable
  exact if_neg (by rw [hoff, hbars]; exact Bool.false_ne_true)

theorem exec_msgRingsDisable_of_unserved (h : barsOff s = true) : exec (.msgRingsDisable vector) s = .next s := by
  show execMsgRingsDisable vector s = _
  unfold execMsgRingsDisable
  exact if_pos h

variable (hbars : barsOff s = false)
include hbars

theorem exec_msgRingsDisable_of_off (hoff : (regVal s 0x3000100).getLsbD 31 = false) :
    exec (.msgRingsDisable vector) s = .next (regSetBits s 0x3000100 10 0 vector.toNat) := by
  show execMsgRingsDisable vector s = _
  unfold execMsgRingsDisable
  rw [if_neg (Bool.eq_false_iff.mp hbars), if_pos (by rw [hoff]; rfl)]

theorem exec_msgRingsDisable_of_on (hon : (regVal s 0x3000100).getLsbD 31 = true) :
    exec (.msgRingsDisable vector) s = .next (modMsg
      (regSetBits (s.fab.msg.transit.foldl (fun t x => endMessage t x stCancelled) s) 0x3000100 31 31 0)
      fun q => { q with enabled := false, error := false, sqHead := q.sqTail }) := by
  show execMsgRingsDisable vector s = _
  unfold execMsgRingsDisable
  rw [if_neg (Bool.eq_false_iff.mp hbars), if_neg (by rw [hon]; exact Bool.false_ne_true)]

end

theorem otherRegs_trans {offs : List Nat} {s t u : State} (h : OtherRegs offs s t) (g : OtherRegs offs t u) : OtherRegs offs s u :=
  fun o ho => (g o ho).trans (h o ho)

/-- What a change of the rings and of one register leaves. -/
def CtrlMoved (s t : State) (off : Nat) (m : MsgRings) : Prop :=
  t.fab.msg = m ∧ OtherRegs [off] s t ∧ t = { s with fab := { s.fab with msg := t.fab.msg }, rf := { s.rf with vals := t.rf.vals } }

section
variable (s : State) (off hi lo v : Nat) (f : MsgRings → MsgRings)

theorem regSetBits_moved : OtherRegs [off] s (regSetBits s off hi lo v) ∧
    regSetBits s off hi lo v = { s with rf := { s.rf with vals := (regSetBits s off hi lo v).rf.vals } } := (regPut_spec s off _).2

theorem modMsg_regSetBits_ctrlMoved : CtrlMoved s (modMsg (regSetBits s off hi lo v) f) off (f s.fab.msg) :=
  ⟨rfl, fun o ho => (regVal_modMsg _ _ o).trans ((regSetBits_moved s off hi lo v).1 o ho), rfl⟩

theorem modMsg_regSetBits_twice_ctrlMoved (hi' lo' v' : Nat) :
    CtrlMoved s (modMsg (regSetBits (regSetBits s off hi lo v) off hi' lo' v') f) off (f s.fab.msg) :=
  ⟨rfl, otherRegs_trans (regSetBits_moved s off hi lo v).1 (modMsg_regSetBits_ctrlMoved (regSetBits s off hi lo v) off hi' lo' v' f).2.1, rfl⟩

/-- A bit that is set reads as set. -/
theorem regVal_setBit {i : Nat} (hi : i < 32) : (regVal (modMsg (regSetBits s off i i 1) f) off).getLsbD i = true := by
  rw [regVal_modMsg, regSetBits, regVal_regPut_same]
  exact getLsbD_setBits_same _ true hi

end

/-- Settles O39: a doorbell is `msgDoorbell_of_rung`; a descriptor of the send ring is sent by `exec_messageSend_of_sent` or fails as
`failSend_spec` says; a message leaves transit by `endMessage_entered`, arrives by `exec_messageReceive_of_…`, and the rings start and end by
`exec_msgRingsEnable_of_…` and `exec_msgRingsDisable_of_…`. -/
theorem messageRings : Obligations.MessageRings := by
  unfold Obligations.MessageRings
  refine ⟨fun s full v => ?_, fun s ver bundle tag len addr body => ?_,
    fun s bundle written => ⟨fun hnone => ⟨_, exec_messageSentConfirm_of_none written hnone, rfl⟩,
      fun x hx => ⟨_, exec_messageSentConfirm_of_some written hx, rfl⟩⟩,
    fun s b n => ⟨endFailed_of_none n, fun x st hx hst => endFailed_of_some n hx hst⟩,
    fun s x st pre post htransit hnew herr => ⟨_, ?_, endMessage_entered st herr⟩, fun s bundle tag body bufs => ?_, fun s vector => ?_⟩
  · intro m n rings
    have hrings (i : Nat) (c : Instr) (act : MsgRings → Nat → MsgRings) (hexec : exec c s = .next (msgDoorbell s i full v act)) :
        rings i c (act m n) :=
      ⟨fun hno => ⟨_, hexec, msgDoorbell_of_not_rung hno⟩, fun hok => ⟨_, hexec, msgDoorbell_of_rung hok⟩⟩
    exact ⟨hrings 0 _ (fun q n => { q with sqTail := n }) rfl, hrings 1 _ (fun q n => { q with cqHead := n }) rfl,
      hrings 2 _ (fun q n => { q with rqTail := n }) rfl⟩
  · intro m b goes bad m' ends
    have hends (st : Nat) (hgoes : goes) (hst : sendStatus s ver bundle.toNat len.toNat addr.toNat = st) (hfails : st ≠ stOk) : ends st :=
      ⟨_, exec_messageSend_of_failed hgoes hst hfails, failSend_spec s b tag.toNat len.toNat st⟩
    refine ⟨fun hno => ⟨_, exec_messageSend_of_not_goes hno, rfl⟩, fun hgoes hver => hends _ hgoes (sendStatus_of_badVersion hver) (by decide),
      fun hgoes hver hbad => hends _ hgoes (sendStatus_of_malformed hver hbad) (by decide),
      fun hgoes hver hgood hlinks => hends _ hgoes (sendStatus_of_noLink hver hgood hlinks) (by decide), fun hgoes hver hgood hlinks hlen => ?_⟩
    exact ⟨_, exec_messageSend_of_sent hgoes (sendStatus_of_link hver hgood hlinks) hlen, _, modMsg_msgPut s _, rfl⟩
  · have hdrop : endMessage.dropOne x s.fab.msg.transit = pre ++ post := htransit ▸ dropOne_append post hnew
    rw [← hdrop]
    exact modMsg_msgPut s fun q => { q with transit := endMessage.dropOne x q.transit }
  · intro b m lands refused
    refine ⟨fun hno => ⟨_, exec_messageReceive_of_not_lands tag body bufs hno, rfl⟩,
      fun hlands hbarred => ⟨_, exec_messageReceive_of_refused tag hlands hbarred, rfl⟩,
      fun e rest hlands hserve hfree hbufs hposted hbuf hlen =>
        ⟨_, exec_messageReceive_of_taken tag hlands hserve hfree hbufs hposted hbuf hlen, ?_⟩⟩
    exact ⟨msgWritten s e.addr.toNat body, _, rfl, writeMsgEntry_entered _ _ _ _ _ _ _ _, send_writeMsgEntry _ _ _ _ _ _ _ _ _⟩
  · intro on sized
    have hsized : sized = msgSized s := rfl
    refine ⟨fun hoff => ⟨_, exec_msgRingsEnable_of_ignored vector hoff, rfl⟩, fun hoff hbars hsizes hboot => ?_, fun hoff hbars hfails => ?_,
      fun hbars => ⟨_, exec_msgRingsDisable_of_unserved vector hbars, rfl⟩,
      fun hbars hoff => ⟨_, exec_msgRingsDisable_of_off vector hbars hoff, regSetBits_moved s _ _ _ _⟩,
      fun hbars hon => ⟨_, exec_msgRingsDisable_of_on vector hbars hon, _, rfl, modMsg_regSetBits_ctrlMoved _ _ _ _ _ _⟩⟩
    · have hst : msgEnableStatus s = stOk := by rw [msgEnableStatus, if_pos (hsized ▸ hsizes), if_pos hboot]
      obtain ⟨hmsg, hmoved⟩ := modMsg_regSetBits_twice_ctrlMoved s 0x3000100 10 0 vector.toNat
        (fun q => { enabled := true, skipped := q.skipped }) 31 31 1
      exact ⟨_, (exec_msgRingsEnable_of_served vector hoff hbars).trans (if_neg (not_not_intro hst)), hmsg,
        regVal_setBit _ _ _ (by decide), hmoved⟩
    · have hst : msgEnableStatus s = if sized then stCtxState else stRange := by
        rw [msgEnableStatus, ← hsized]
        rcases hfails with hsize | hboot
        · rw [hsize]; rfl
        · rw [hboot]; rfl
      have hbad : msgEnableStatus s ≠ stOk := by
        rw [hst]
        split <;> decide
      obtain ⟨hmsg, hmoved⟩ := modMsg_regSetBits_ctrlMoved s 0x3000100 10 0 vector.toNat fun q => { q with errCode := msgEnableStatus s }
      refine ⟨_, (exec_msgRingsEnable_of_served vector hoff hbars).trans (if_pos hbad), ?_, hmoved⟩
      rw [← hst]
      exact hmsg

end Sys2Proof.Proofs
end

section
/-!
What admission does with a descriptor, and the turns of management descriptors (04_formulas_operations.md R109 to R112;
05_placement.md R157; 09_host_rings.md R308 to R313).
-/
namespace Sys2Proof.Proofs
open Sys2Proof Sys2Proof.Machine

/-! ### Admission -/

/-- The submission head past one descriptor. -/
def nextHead (k : Ctx) : Nat := if k.sqHead + 1 = ringSize k.sqLog then 0 else k.sqHead + 1

/-- An admitted descriptor joins the queue and has left the submission ring (09 R312). -/
def admitted (k : Ctx) (a : Adm) (head : Nat) : Ctx := { k with queue := k.queue ++ [a], sqHead := head, waiting := none }

/-- The state with a descriptor admitted to a context's queue. -/
def pushed (s : State) (c : Nat) (a : Adm) : State := modCtx s c fun q => admitted q a (nextHead (ctxOf s c))

theorem pushed_ctxPut (s : State) (c : Nat) (a : Adm) : CtxPut s (pushed s c a) c (admitted (ctxOf s c) a (nextHead (ctxOf s c))) :=
  modCtx_ctxPut s c _

/-- A descriptor that completes as it is admitted. -/
def endedAdm (h : DescHead) (st payload : Nat) : Adm := ⟨h.tag.toNat, h.noIrq, false, .other, none, some (st, payload, false)⟩

/-- The step a request begins at (09 R309). -/
def entryStep (i : Inst) (b : ReqBody) : Nat := if b.nTokens = 0#32 then i.f.entryDecode else i.f.entryPrefill

/-- The tick a request's time runs out (09 R313). -/
def requestDeadline (gt : Nat) (b : ReqBody) : Option Nat := if b.deadlineUs = 0#32 then none else some (gt + b.deadlineUs.toNat * 1000)

section
variable {s : State} {c : Nat} {h : DescHead}

/-- A refused descriptor completes with its refusal's status. -/
theorem admitDesc_of_refused {b : DescBody} {st : Nat} (hst : refusal s c ⟨h, b⟩ = some st) :
    admitDesc s c ⟨h, b⟩ = pushed s c (endedAdm h st (refusedPayload (ctxOf s c) ⟨h, b⟩)) := by
  simp only [admitDesc, hst]
  rfl

/-- A request that replays no records waits with its inputs, from the step that its N_TOKENS names (09 R309, R310). -/
theorem admitDesc_request {b : ReqBody} {i : Inst} (hok : refusal s c ⟨h, .request b⟩ = none) (hi : instOf s c = some i)
    (hrec : b.rflags.getLsbD 4 = false) :
    admitDesc s c ⟨h, .request b⟩ = modCtx (pushed s c
        ⟨h.tag.toNat, h.noIrq, false, .request ⟨b, requestInputs s c b, [], 0, 0, entryStep i b, false, none⟩,
          requestDeadline s.gt b, none⟩) c
      fun q => { q with readyAt := some (q.readyAt.getD s.gt), waitedSince := if q.readyAt.isSome then q.waitedSince else s.gt } := by
  have hdeadline : (if b.deadlineUs.toNat = 0 then none else some (s.gt + b.deadlineUs.toNat * 1000)) = requestDeadline s.gt b := by
    simp [requestDeadline, BitVec.toNat_eq]
  have hentry : (if 0 < b.nTokens.toNat then i.f.entryPrefill else i.f.entryDecode) = entryStep i b := by
    simp [entryStep, BitVec.toNat_eq, Nat.pos_iff_ne_zero]
  have hready (q : Ctx) : (match q.readyAt with | some t => some t | none => some s.gt) = some (q.readyAt.getD s.gt) := by
    cases q.readyAt <;> rfl
  simp only [admitDesc, hok, hi, hrec, hdeadline, hentry, Bool.false_eq_true, if_false]
  refine congrArg (modCtx _ c) (funext fun q => ?_)
  exact congrArg (fun r => { q with readyAt := r, waitedSince := if q.readyAt.isSome then q.waitedSince else s.gt }) (hready q)

theorem admitDesc_cancel_of_none {tag : BitVec 16} (hok : refusal s c ⟨h, .cancel tag⟩ = none)
    (hnone : ∀ a ∈ (ctxOf s c).queue, openRequest a = true → a.tag ≠ tag.toNat) :
    admitDesc s c ⟨h, .cancel tag⟩ = pushed s c (endedAdm h stOk 0) := by
  have hfind : (ctxOf s c).queue.find? (fun a => openRequest a && a.tag = tag.toNat) = none :=
    List.find?_eq_none.mpr fun a ha => by simpa using hnone a ha
  simp only [admitDesc, hok, hfind]
  rfl

theorem admitDesc_cancel_of_some {tag : BitVec 16} (hok : refusal s c ⟨h, .cancel tag⟩ = none)
    (hsome : ∃ a ∈ (ctxOf s c).queue, openRequest a = true ∧ a.tag = tag.toNat) :
    admitDesc s c ⟨h, .cancel tag⟩ =
      modCtx (modCtx s c fun q => { q with queue := modFirst (fun a => openRequest a && a.tag = tag.toNat) (endLater stCancelled) q.queue }) c
        fun q => admitted q ⟨h.tag.toNat, h.noIrq, false, .cancelling tag.toNat, none, none⟩ (nextHead (ctxOf s c)) := by
  obtain ⟨a, ha, hopen, htag⟩ := hsome
  have hsome : ((ctxOf s c).queue.find? (fun a => openRequest a && a.tag = tag.toNat)).isSome = true :=
    List.find?_isSome.mpr ⟨a, ha, by simp [hopen, htag]⟩
  obtain ⟨x, hx⟩ := Option.isSome_iff_exists.mp hsome
  have hxtag : x.tag = tag.toNat := by
    have hfound := List.find?_some hx
    simpa using (Bool.and_eq_true_iff.mp hfound).2
  simp only [admitDesc, hok, hx, hxtag]
  rfl

theorem admitDesc_nop (hok : refusal s c ⟨h, .nop⟩ = none) :
    admitDesc s c ⟨h, .nop⟩ = pushed s c (endedAdm h stOk 0) := by
  simp only [admitDesc, hok]
  rfl

/-- The work a management descriptor is admitted with (04 R109 to R112). -/
inductive MgmtWork : DescBody → Work → Prop
  | load (a n) : MgmtWork (.load a n) (.loading a.toNat n.toNat)
  | chunk (a n x) : MgmtWork (.chunk a n x) (.chunk a.toNat n.toNat x.toNat)
  | unload (x) : MgmtWork (.unload x) (.queued (.unload x))
  | bind (x v l) : MgmtWork (.bind x v l) (.queued (.bind x v l))
  | unbind : MgmtWork .unbind (.queued .unbind)
  | pin (p) : MgmtWork (.pin p) (.queued (.pin p))

theorem admitDesc_mgmt {b : DescBody} {w : Work} (hok : refusal s c ⟨h, b⟩ = none) (hw : MgmtWork b w) :
    admitDesc s c ⟨h, b⟩ = queueMgmt (pushed s c ⟨h.tag.toNat, h.noIrq, true, w, none, none⟩) c := by
  cases hw <;> (simp only [admitDesc, hok]; rfl)

end

/-! ### The device's queue of management descriptors -/

/-- A context's descriptor takes a place among those that wait. -/
theorem queueMgmt_split (s : State) (c : Nat) :
    ∃ before after, s.mgmt = before ++ after ∧ (queueMgmt s c).mgmt = before ++ [(s.gt, c)] ++ after :=
  ⟨_, _, (List.takeWhile_append_dropWhile ..).symm, rfl⟩

/-- A list whose elements all pass is dropped whole, and taken whole. -/
theorem dropWhile_of_all {α : Type} {p : α → Bool} {l : List α} (h : ∀ e ∈ l, p e = true) : l.dropWhile p = [] := by
  induction l with
  | nil => rfl
  | cons e es ih =>
    rw [List.dropWhile_cons, if_pos (h e List.mem_cons_self)]
    exact ih fun x hx => h x (List.mem_cons_of_mem e hx)

theorem takeWhile_of_all {α : Type} {p : α → Bool} {l : List α} (h : ∀ e ∈ l, p e = true) : l.takeWhile p = l := by
  have hsplit := List.takeWhile_append_dropWhile (p := p) (l := l)
  rwa [dropWhile_of_all h, List.append_nil] at hsplit

/-- It is the last, where none of a later context was admitted in this tick (04 R112). -/
theorem queueMgmt_last {s : State} {c : Nat} (h : ∀ e ∈ s.mgmt, e.1 = s.gt → e.2 ≤ c) : (queueMgmt s c).mgmt = s.mgmt ++ [(s.gt, c)] := by
  unfold queueMgmt
  dsimp only
  rw [takeWhile_of_all, dropWhile_of_all, List.append_nil] <;>
  · intro e he
    by_cases htick : e.1 = s.gt
    · simp [htick, h e he htick]
    · simp [htick]

/-! ### Turns -/

section
variable {s : State} {c : Nat} {b : DescBody} (hfront : yieldsTurn s c b = false)
include hfront

theorem turnOf_queued_of_refused {st : Nat} (h : turnRefusal s c b = some st) : turnOf s c (.queued b) = some ⟨s, st, 0, none, none⟩ := by
  simp only [turnOf, hfront, h, Bool.false_eq_true, if_false]
  rfl

theorem turnOf_queued_of_admitted (h : turnRefusal s c b = none) : turnOf s c (.queued b) = some ⟨queuedTurn s c b, stOk, 0, none, none⟩ := by
  simp only [turnOf, hfront, h, Bool.false_eq_true, if_false]

end

theorem tabFind_tabUpd_same {α : Type} {t : List (Nat × α)} {k : Nat} {v : α} (f : α → α) (h : tabFind t k = some v) :
    tabFind (tabUpd t k f) k = some (f v) := by
  simp [tabUpd, h]

theorem tabFind_tabUpd_other {α : Type} (t : List (Nat × α)) {k j : Nat} (f : α → α) (h : j ≠ k) :
    tabFind (tabUpd t k f) j = tabFind t j := by
  unfold tabUpd
  split
  · exact tabFind_put_other _ _ h
  · rfl

/-- A context bound to a Formula, with an empty session from its seed (04 R111; 09 R311). -/
def boundCtx (x : Nat) (i : Inst) (p : Prov) (slot place : Option Nat) (k : Ctx) : Ctx :=
  { k with
    inst := some x, session := some (sessionStart k.seed slot), place := place, reservedBytes := sessionReserve i.f p
    stagingBytes := stagingOf i.f }

/-- A bind changes its context, and takes a place of a pool at most. -/
theorem bindSession_eq {s : State} {x : Nat} {i : Inst} {p : Prov} (c : Nat) (slot : Option Nat) (hi : tabFind s.insts x = some i)
    (hp : (ctxOf s c).prov = some p) :
    ∃ plc place, bindSession s c x slot = modCtx { s with plc := plc } c (boundCtx x i p slot place) := by
  simp only [bindSession, hi, hp]
  generalize List.find? _ _ = pool
  cases pool <;> exact ⟨_, _, rfl⟩

/-! ### The front of the queue -/

section
variable {s : State} {g c : Nat} {rest : List (Nat × Nat)} {w : Work} (fuel : Nat) (hq : s.mgmt = (g, c) :: rest)
  (hw : mgmtWork (ctxOf s c) = some w)
include hq hw

theorem runMgmt_of_waiting (h : turnOf s c w = none) : runMgmt (fuel + 1) s = s := by
  simp only [runMgmt, hq, hw, h]

theorem runMgmt_of_turn {t : Turn} (h : turnOf s c w = some t) :
    runMgmt (fuel + 1) s = runMgmt fuel (afterTurn (moveRings (endMgmt { t.state with mgmt := rest } c t.status t.payload) c) t) := by
  simp only [runMgmt, hq, hw, h]

end

/-- Settles O16: admission is one of `admitDesc_of_refused`, `admitDesc_request`, `admitDesc_cancel_of_…`, `admitDesc_nop` and `admitDesc_mgmt`,
which takes its place by `queueMgmt_split`; a turn is `turnOf_queued_of_refused` or `turnOf_queued_of_admitted`, and the queue moves by
`runMgmt_of_turn`. -/
theorem descriptorsDo : Obligations.DescriptorsDo := by
  unfold Obligations.DescriptorsDo
  intro u c h k head adm push
  refine ⟨fun b st hst => ?_, fun b i hok hi hrec => ?_, fun tag hok hnone => ?_, fun tag hok hsome => ?_, fun hok => ?_, fun b w hok hw => ?_,
    fun b hfront => ⟨fun st hst => turnOf_queued_of_refused hfront hst,
      fun hok => ⟨_, turnOf_queued_of_admitted hfront hok, ?_, ?_, ?_, ?_⟩⟩,
    fun g rest w fuel hq hw => ⟨runMgmt_of_waiting fuel hq hw, fun t ht => ?_⟩⟩
  · rw [admitDesc_of_refused hst]
    exact pushed_ctxPut u c _
  · intro t
    have ht : t = _ := admitDesc_request hok hi hrec
    obtain ⟨hctx, hother, -⟩ := pushed_ctxPut u c
      ⟨h.tag.toNat, h.noIrq, false, .request ⟨b, requestInputs u c b, [], 0, 0, entryStep i b, false, none⟩, requestDeadline u.gt b, none⟩
    rw [ht, ctxOf_modCtx_same, hctx]
    exact ⟨rfl, rfl, rfl, rfl, fun e he => ((modCtx_ctxPut _ c _).2.1 e he).trans (hother e he), rfl⟩
  · rw [admitDesc_cancel_of_none hok hnone]
    exact (pushed_ctxPut u c _).1
  · rw [admitDesc_cancel_of_some hok hsome, ctxOf_modCtx_same, ctxOf_modCtx_same]
    exact ⟨_, rfl, rfl⟩
  · rw [admitDesc_nop hok]
    exact (pushed_ctxPut u c _).1
  · have hwork : MgmtWork b w := by
      rcases hw with ⟨a, n, rfl, rfl⟩ | ⟨a, n, x, rfl, rfl⟩ | ⟨rfl, ⟨x, rfl⟩ | ⟨x, v, l, rfl⟩ | rfl | ⟨p, rfl⟩⟩
      · exact .load a n
      · exact .chunk a n x
      · exact .unload x
      · exact .bind x v l
      · exact .unbind
      · exact .pin p
    intro t
    have ht : t = queueMgmt (pushed u c (adm true w none none)) c := admitDesc_mgmt hok hwork
    obtain ⟨hctx, hother, hrest⟩ := pushed_ctxPut u c (adm true w none none)
    rw [ht]
    exact ⟨hctx, hother, rfl, queueMgmt_split (pushed u c (adm true w none none)) c, queueMgmt_last (s := pushed u c (adm true w none none))⟩
  · rintro x i rfl hi
    exact ⟨tabFind_tabUpd_same _ hi, fun y hy => tabFind_tabUpd_other _ _ hy, rfl⟩
  · rintro x v l i p rfl hi hp
    obtain ⟨plc, place, hbind⟩ := bindSession_eq c (if v then some l.toNat else none) hi hp
    obtain ⟨hctx, hother, -⟩ := modCtx_ctxPut { u with plc := plc } c (boundCtx x.toNat i p (if v then some l.toNat else none) place)
    have hturn : queuedTurn u c (.bind x v l) = _ := hbind
    rw [hturn, hctx]
    exact ⟨rfl, rfl, rfl, hother⟩
  · rintro rfl
    have hctx := ctxOf_releaseSession u c
    have hturn : queuedTurn u c .unbind = releaseSession u c := rfl
    rw [hturn, hctx]
    exact ⟨rfl, rfl, rfl, releaseSession_otherCtxs u c⟩
  · rintro p rfl
    exact ⟨_, rfl, rfl, rfl, rfl, rfl, rfl, rfl, rfl⟩
  · obtain ⟨hctx, hother, hrest⟩ := modCtx_ctxPut { t.state with mgmt := rest } c fun k => { k with
      queue := modFirst (fun a => a.mgmt && a.done.isNone) (fun a => { a with done := some (t.status, t.payload, false) }) k.queue }
    exact ⟨_, runMgmt_of_turn fuel hq hw ht, hctx, hother, hrest⟩

end Sys2Proof.Proofs
end

section
/-!
DMA channels that start, restart and stop (10_dma_check.md R331, R332, R334, R341, R342): a register pair stored, a channel that halts,
the start of one, and each write of DMA_CH_CTL, a case at a time.
-/
namespace Sys2Proof.Proofs
open Sys2Proof Sys2Proof.Machine

/-! ### A register pair stored -/

/-- The state with a number in a pair of registers, the low half first. -/
def pairStored (s : State) (lo v : Nat) : State :=
  regPut (regPut s lo (BitVec.ofNat 32 (v % 2 ^ 32))) (lo + 4) (BitVec.ofNat 32 (v / 2 ^ 32))

theorem regVal_pairStored_other (s : State) {lo o : Nat} (v : Nat) (hlo : o ≠ lo) (hhi : o ≠ lo + 4) :
    regVal (pairStored s lo v) o = regVal s o := (regVal_regPut_other _ _ hhi).trans (regVal_regPut_other _ _ hlo)

theorem count64_pairStored_same (s : State) (lo : Nat) {v : Nat} (hv : v < 2 ^ 64) : count64 (pairStored s lo v) lo = v := by
  have hlo : regVal (pairStored s lo v) lo = BitVec.ofNat 32 (v % 2 ^ 32) :=
    (regVal_regPut_other _ _ (by omega)).trans (regVal_regPut_same _ _ _)
  have hhi : regVal (pairStored s lo v) (lo + 4) = BitVec.ofNat 32 (v / 2 ^ 32) := regVal_regPut_same _ _ _
  rw [count64, hlo, hhi, BitVec.toNat_ofNat, BitVec.toNat_ofNat]
  omega

/-- Registers that read as before make the same pair. -/
theorem count64_congr {s t : State} {lo : Nat} (hlo : regVal t lo = regVal s lo) (hhi : regVal t (lo + 4) = regVal s (lo + 4)) :
    count64 t lo = count64 s lo := by rw [count64, count64, hlo, hhi]

theorem regPut_frame (s : State) (off : Nat) (v : Word) :
    regPut s off v = { s with rf := { s.rf with vals := (regPut s off v).rf.vals } } :=
  (regPut_spec s off v).2.2

/-- Two changes of stored registers alone are one. -/
theorem valsAlone_trans {s t u : State} (h : t = { s with rf := { s.rf with vals := t.rf.vals } })
    (g : u = { t with rf := { t.rf with vals := u.rf.vals } }) : u = { s with rf := { s.rf with vals := u.rf.vals } } :=
  g.trans (by rw [h])

theorem pairStored_frame (s : State) (lo v : Nat) :
    pairStored s lo v = { s with rf := { s.rf with vals := (pairStored s lo v).rf.vals } } :=
  valsAlone_trans (regPut_frame s lo _) (regPut_frame _ (lo + 4) _)

/-- Registers of a channel at different places are different. -/
@[simp] theorem dmaOff_inj (n a b : Nat) : dmaOff n a = dmaOff n b ↔ a = b := Nat.add_left_cancel_iff

theorem dmaOff_add (n a b : Nat) : dmaOff n a + b = dmaOff n (a + b) := Nat.add_assoc _ _ _

/-! ### A channel that halts -/

/-- A channel once halted (10 R338). -/
def haltedChan (gt cause addr : Nat) (c : DmaChan) : DmaChan :=
  { c with st := .halted, cause := cause, fail := addr, readBy := none, stopping := false, haltAt := gt, serves := none }

/-- Outside the descriptor pool no descriptor ends with its channel, and the channel is found as it halted. -/
theorem dmaOf_haltDma (s : State) {n : Nat} (cause addr : Nat) (hpool : 48 ≤ n) :
    dmaOf (haltDma s n cause addr) n = haltedChan s.gt cause addr (dmaOf s n) := by
  rw [haltDma, if_neg (by simp [Nat.not_lt.mpr hpool])]
  exact dmaOf_modDma_same s n (haltedChan s.gt cause addr)

theorem settleAbort_of_stopping {s : State} {n : Nat} (h : (dmaOf s n).stopping = true) : settleAbort s n = haltDma s n 7 0 := if_pos h

theorem settleAbort_of_notStopping {s : State} {n : Nat} (h : (dmaOf s n).stopping = false) : settleAbort s n = s :=
  if_neg (Bool.eq_false_iff.mp h)

/-! ### A channel that starts -/

/-- The bits of DMA_CH_CTL that a write stores (10 R349). -/
def ctlStored (v : Word) : Word := v &&& 0x18F0FFFF#32

/-- The state with a write of DMA_CH_CTL stored, before the channel acts on it. -/
def ctlWritten (s : State) (n : Nat) (v : Word) : State :=
  modDma (regPut s (dmaOff n 0x14) (ctlStored v)) n fun q => { q with ctl := ctlStored v }

/-- The bytes at which a copy that restarts takes up its source: those of its committed lines (10 R341). -/
def restartAt (s : State) (n : Nat) : Nat := (dmaOf s n).done * 128 - dmaDst s n % 128

/-- A channel once started (10 R334, R341). -/
def startedChan (s : State) (n : Nat) (v : Word) (resume : Bool) (q : DmaChan) : DmaChan :=
  { q with
    st := .running, cause := 0, done := if resume then q.done else 0, ahead := [], fail := 0
    start := if resume then restartAt s n else 0
    data := [], retries := 0, serves := none, readBy := hostBy s (bits v 23 22) }

/-- A start that ends with CONFIG: its registers are bad, or it resumes a channel that is not halted (10 R334, R341). -/
def StartBad (s : State) (n : Nat) (v : Word) (resume : Bool) : Prop :=
  dmaConfigBad (ctlWritten s n v) n v = true ∨ (resume = true ∧ (dmaOf s n).st ≠ .halted)

section
variable (s : State) (n : Nat) (v : Word) (resume : Bool)

theorem dmaOf_ctlWritten : dmaOf (ctlWritten s n v) n = { dmaOf s n with ctl := ctlStored v } := dmaOf_modDma_same _ _ _

theorem regVal_ctlWritten_other {o : Nat} (h : o ≠ dmaOff n 0x14) : regVal (ctlWritten s n v) o = regVal s o := regVal_regPut_other s _ h

theorem dmaDst_ctlWritten : dmaDst (ctlWritten s n v) n = dmaDst s n :=
  count64_congr (regVal_ctlWritten_other s n v (by simp)) (regVal_ctlWritten_other s n v (by simp [dmaOff_add]))

theorem hostBy_ctlWritten (space : Nat) : hostBy (ctlWritten s n v) space = hostBy s space := by
  have hreg : regVal (ctlWritten s n v) 0x1400000 = regVal s 0x1400000 := regVal_ctlWritten_other s n v (by unfold dmaOff; omega)
  rw [hostBy, hostBy, regBits, regBits, hreg]
  rfl

variable {s n v resume}

theorem startBad_iff : (dmaConfigBad (ctlWritten s n v) n v || (resume && decide ((dmaOf s n).st ≠ .halted))) = true ↔
    StartBad s n v resume := by
  simp only [StartBad, Bool.or_eq_true, Bool.and_eq_true, decide_eq_true_eq]

theorem startDma_of_bad (h : StartBad s n v resume) : startDma s n v resume =
    haltDma (modDma (ctlWritten s n v) n fun q => { q with done := if resume then q.done else 0 }) n 8 0 :=
  if_pos (startBad_iff.mpr h)

theorem startDma_of_sound (h : ¬ StartBad s n v resume) : startDma s n v resume =
    noteSegs (modDma (ctlWritten s n v) n (startedChan s n v resume)) := by
  refine (if_neg (mt startBad_iff.mp h)).trans ?_
  unfold startedChan restartAt
  rw [← dmaDst_ctlWritten s n v, ← hostBy_ctlWritten s n v]
  rfl

variable (s n v resume)

/-- What the start of a channel does, its configuration bad or not. -/
theorem startDma_starts : DmaStarts s n v resume (startDma s n v resume) := by
  unfold DmaStarts
  intro u c bad
  have hu : u = ctlWritten s n v := rfl
  have hc : c = { dmaOf s n with ctl := ctlStored v } := dmaOf_ctlWritten s n v
  have hbad : bad ↔ StartBad s n v resume := by simp only [bad, hc, hu, StartBad]
  refine ⟨fun h => ⟨_, ?_, startDma_of_bad (hbad.mp h)⟩, fun h => ?_⟩
  · exact modDma_dmaPut u n fun q => { q with done := if resume then q.done else 0 }
  · rw [startDma_of_sound (mt hbad.mpr h)]
    obtain ⟨hchan, hother, -⟩ := modDma_dmaPut u n (startedChan s n v resume)
    refine ⟨⟨hchan.trans ?_, hother, rfl⟩, rfl⟩
    change startedChan s n v resume c = _
    rw [hc]
    rfl

end

/-! ### Writes of GO and RESUME -/

/-- A GO or RESUME write that is not denied (10 R331, R332). -/
def MayGo (r : Requester) (n : Nat) (v : Word) : Prop := coresMay r = true ∧ 56 ≤ n ∧ (v.getLsbD 28 = true → r = .secure)

theorem goDenied_iff (r : Requester) (n : Nat) (v : Word) :
    (!coresMay r || decide (n < 56) || (v.getLsbD 28 && decide (r ≠ .secure))) = true ↔ ¬ MayGo r n v := by
  simp only [MayGo, Bool.or_eq_true, Bool.and_eq_true, Bool.not_eq_true', decide_eq_true_eq, ← Bool.not_eq_true, ← Nat.not_le]
  tauto

theorem exec_dmaStart (s : State) (n : BitVec 6) (b : DmaBy) (v : Word) (resume : Bool) :
    exec (if resume then .dmaResume n b v else .dmaGo n b v) s = .next (dmaGo s n.toNat b v resume) := by
  cases resume <;> rfl

section
variable {s : State} {n : Nat} {r : Requester} {v : Word} (resume : Bool)

theorem dmaGo_write_of_denied (h : ¬ MayGo r n v) : dmaGo s n (.write r) v resume = logRefused s r (dmaOff n 0x14) v stDenied :=
  if_pos ((goDenied_iff r n v).mpr h)

variable (hmay : MayGo r n v)
include hmay

/-- A write that is not denied acts once an abort of the tick has halted the channel (10 R343). -/
theorem dmaGo_write_of_allowed : dmaGo s n (.write r) v resume =
    if (dmaOf (settleAbort s n) n).st = .running then logRefused (settleAbort s n) r (dmaOff n 0x14) v stCtxState
    else startDma (settleAbort s n) n v resume := if_neg (mt (goDenied_iff r n v).mp (not_not.mpr hmay))

theorem dmaGo_write_of_running (hstop : (dmaOf s n).stopping = false) (hrun : (dmaOf s n).st = .running) :
    dmaGo s n (.write r) v resume = logRefused s r (dmaOff n 0x14) v stCtxState := by
  rw [dmaGo_write_of_allowed resume hmay, settleAbort_of_notStopping hstop, if_pos hrun]

theorem dmaGo_write_of_still (hstop : (dmaOf s n).stopping = false) (hrun : (dmaOf s n).st ≠ .running) :
    dmaGo s n (.write r) v resume = startDma s n v resume := by
  rw [dmaGo_write_of_allowed resume hmay, settleAbort_of_notStopping hstop, if_neg hrun]

theorem dmaGo_write_of_stopping (hstop : (dmaOf s n).stopping = true) :
    dmaGo s n (.write r) v resume = startDma (haltDma s n 7 0) n v resume := by
  have hhalted : (dmaOf (haltDma s n 7 0) n).st ≠ .running := by
    obtain ⟨-, hpool, -⟩ := hmay
    rw [dmaOf_haltDma s 7 0 (by omega)]
    exact nofun
  rw [dmaGo_write_of_allowed resume hmay, settleAbort_of_stopping hstop, if_neg hhalted]

end

/-! ### A loader -/

/-- The state with the source, destination and count that a loader gives. -/
def rangeLoaded (s : State) (n : Nat) (src dst : BitVec 64) (cnt : Word) : State :=
  regPut (pairStored (pairStored s (dmaOff n 0) src.toNat) (dmaOff n 8) dst.toNat) (dmaOff n 0x10) cnt

section
variable (s : State) (n : Nat) (src dst : BitVec 64) (cnt : Word)

theorem dmaSrc_rangeLoaded : dmaSrc (rangeLoaded s n src dst cnt) n = src.toNat := by
  refine (count64_congr ?_ ?_).trans (count64_pairStored_same s (dmaOff n 0) src.isLt)
  · exact (regVal_regPut_other _ _ (by simp)).trans (regVal_pairStored_other _ _ (by simp) (by simp [dmaOff_add]))
  · exact (regVal_regPut_other _ _ (by simp [dmaOff_add])).trans
      (regVal_pairStored_other _ _ (by simp [dmaOff_add]) (by simp [dmaOff_add]))

theorem dmaDst_rangeLoaded : dmaDst (rangeLoaded s n src dst cnt) n = dst.toNat :=
  (count64_congr (regVal_regPut_other _ _ (by simp)) (regVal_regPut_other _ _ (by simp [dmaOff_add]))).trans
    (count64_pairStored_same _ (dmaOff n 8) dst.isLt)

theorem dmaCount_rangeLoaded : dmaCount (rangeLoaded s n src dst cnt) n = cnt.toNat := by
  rw [dmaCount, rangeLoaded, regVal_regPut_same]

theorem regVal_rangeLoaded_other {o : Nat} (h : ∀ r, r ∈ [0, 4, 8, 12, 16] → o ≠ dmaOff n r) :
    regVal (rangeLoaded s n src dst cnt) o = regVal s o := by
  have hother {r : Nat} (hr : r ∈ [0, 4, 8, 12, 16] := by decide) : o ≠ dmaOff n r := h r hr
  calc regVal (rangeLoaded s n src dst cnt) o
      = regVal (pairStored (pairStored s (dmaOff n 0) src.toNat) (dmaOff n 8) dst.toNat) o := regVal_regPut_other _ _ (hother (r := 16))
    _ = regVal (pairStored s (dmaOff n 0) src.toNat) o := regVal_pairStored_other _ _ (hother (r := 8)) (hother (r := 12))
    _ = regVal s o := regVal_pairStored_other _ _ (hother (r := 0)) (hother (r := 4))

theorem rangeLoaded_frame : rangeLoaded s n src dst cnt =
    { s with rf := { s.rf with vals := (rangeLoaded s n src dst cnt).rf.vals } } :=
  valsAlone_trans (valsAlone_trans (pairStored_frame s _ _) (pairStored_frame _ _ _)) (regPut_frame _ _ _)

variable {s n} (v : Word) (resume : Bool)

theorem dmaGo_loader_of_barred (h : 56 ≤ n ∨ (dmaOf s n).st = .running) : dmaGo s n (.loader src dst cnt) v resume = s :=
  if_pos (by simpa using h)

/-- A loader's channel is secure where it is of the secure pool. -/
theorem dmaGo_loader_of_still (hpool : n < 56) (hrun : (dmaOf s n).st ≠ .running) : dmaGo s n (.loader src dst cnt) v resume =
    startDma (rangeLoaded s n src dst cnt) n (setBits v 27 27 (b2n (decide (48 ≤ n)))) resume :=
  if_neg (by simp [hrun, hpool])

end

/-! ### DMA_ABORT -/

section
variable {s : State} {n : BitVec 6} {r : Requester}

theorem exec_dmaAbort_of_denied (h : ¬ (coresMay r = true ∧ 56 ≤ n.toNat)) :
    exec (.dmaAbort n r) s = .next (logRefused s r (dmaOff n.toNat 0x14) 0x40000000#32 stDenied) := by
  refine if_pos ?_
  rw [Bool.or_eq_true, Bool.not_eq_true', decide_eq_true_eq, ← Bool.not_eq_true, ← Nat.not_le]
  exact not_and_or.mp h

variable (hmay : coresMay r = true ∧ 56 ≤ n.toNat)
include hmay

theorem exec_dmaAbort_of_allowed : exec (.dmaAbort n r) s = .next (abortDma s n.toNat) := by
  obtain ⟨hcores, hpool⟩ := hmay
  exact if_neg (by simp [hcores, hpool])

theorem exec_dmaAbort_of_running (hrun : (dmaOf s n.toNat).st = .running) :
    exec (.dmaAbort n r) s = .next (modDma s n.toNat fun q => { q with stopping := true }) := by
  rw [exec_dmaAbort_of_allowed hmay, abortDma, if_pos hrun]

theorem exec_dmaAbort_of_still (hrun : (dmaOf s n.toNat).st ≠ .running) : exec (.dmaAbort n r) s = .next s := by
  rw [exec_dmaAbort_of_allowed hmay, abortDma, if_neg hrun]

end

/-- Settles O32: a write of GO or RESUME is one of `dmaGo_write_of_…`, a loader's one of `dmaGo_loader_of_…`, and what starts does what
`startDma_starts` says; an abort is one of `exec_dmaAbort_of_…`, and its halt is `dmaOf_haltDma`. -/
theorem dmaChannels : Obligations.DmaChannels := by
  unfold Obligations.DmaChannels
  intro s n v c off
  refine ⟨fun resume => ⟨fun r => ?_, fun src dst cnt => ⟨fun hbarred => ?_, fun hpool hrun => ?_⟩⟩, fun r => ?_⟩
  · intro may
    refine ⟨fun hmay => ⟨_, exec_dmaStart s n _ v resume, dmaGo_write_of_denied resume hmay⟩,
      fun hmay hstop hrun => ⟨_, exec_dmaStart s n _ v resume, dmaGo_write_of_running resume hmay hstop hrun⟩,
      fun hmay hstop hrun => ⟨_, exec_dmaStart s n _ v resume, ?_⟩, fun hmay hstop => ⟨_, exec_dmaStart s n _ v resume, ?_⟩⟩
    · rw [dmaGo_write_of_still resume hmay hstop hrun]
      exact startDma_starts s n.toNat v resume
    · rw [dmaGo_write_of_stopping resume hmay hstop]
      exact startDma_starts _ n.toNat v resume
  · exact ⟨_, exec_dmaStart s n _ v resume, dmaGo_loader_of_barred src dst cnt v resume hbarred⟩
  · refine ⟨_, exec_dmaStart s n _ v resume, rangeLoaded s n.toNat src dst cnt, dmaSrc_rangeLoaded s n.toNat src dst cnt,
      dmaDst_rangeLoaded s n.toNat src dst cnt, dmaCount_rangeLoaded s n.toNat src dst cnt,
      fun o ho => regVal_rangeLoaded_other s n.toNat src dst cnt ho, rangeLoaded_frame s n.toNat src dst cnt, ?_⟩
    rw [dmaGo_loader_of_still src dst cnt v resume hpool hrun]
    exact startDma_starts _ n.toNat _ resume
  · intro may
    refine ⟨fun hmay => ⟨_, exec_dmaAbort_of_denied hmay, rfl⟩,
      fun hmay hrun => ⟨_, exec_dmaAbort_of_running hmay hrun, modDma_dmaPut s n.toNat _, rfl⟩,
      fun hmay hstop => ?_, fun hmay hrun => ⟨_, exec_dmaAbort_of_still hmay hrun, rfl⟩⟩
    have hhalt : settleAbort s n.toNat = haltDma s n.toNat 7 0 := settleAbort_of_stopping hstop
    obtain ⟨-, hpool⟩ := hmay
    refine ⟨hhalt, ?_⟩
    rw [hhalt, dmaOf_haltDma s 7 0 (by omega)]
    rfl

end Sys2Proof.Proofs
end

section
/-!
Check-value engines that start, stop and complete (10_dma_check.md R352 to R356): one engine changed, the bytes it consumes, and each
command's equation, a case at a time.
-/
namespace Sys2Proof.Proofs
open Sys2Proof Sys2Proof.Machine

/-! ### Functions -/

/-- The register after two runs of bytes is that after the bytes together (10 R354). -/
theorem polyRun_append (p v : Nat) (xs ys : List Byte) : polyRun p v (xs ++ ys) = polyRun p (polyRun p v xs) ys :=
  match p with
  | 0 | 1 | 2 | _ + 3 => List.foldl_append

theorem polyWidth_le (p : Nat) : polyWidth p ≤ 64 := by
  unfold polyWidth
  split <;> decide

theorem polyInit_lt (p : Nat) : polyInit p < 2 ^ 64 := by
  unfold polyInit
  split <;> decide

theorem chkValue_lt (s : State) (e : Nat) : chkValue s e < 2 ^ 64 :=
  Nat.lt_of_lt_of_le (Nat.mod_lt _ (Nat.two_pow_pos _)) (Nat.pow_le_pow_right (by decide) (polyWidth_le _))

/-! ### One engine changed -/

@[simp] theorem chkOff_inj (e a b : Nat) : chkOff e a = chkOff e b ↔ a = b := Nat.add_left_cancel_iff

theorem chkOff_add (e a b : Nat) : chkOff e a + b = chkOff e (a + b) := Nat.add_assoc _ _ _

theorem putValue_eq (s : State) (e v : Nat) : putValue s e v = pairStored s (chkOff e 0x10) v := rfl

@[simp] theorem chkOf_modChk_same (s : State) (e : Nat) (f : ChkEngine → ChkEngine) : chkOf (modChk s e f) e = f (chkOf s e) :=
  tabGet_set_same _ _ _ _

theorem chkOf_modChk_other (s : State) {e k : Nat} (f : ChkEngine → ChkEngine) (h : k ≠ e) : chkOf (modChk s e f) k = chkOf s k :=
  tabGet_set_other _ _ _ _ h

theorem modChk_frame (s : State) (e : Nat) (f : ChkEngine → ChkEngine) :
    modChk s e f = { s with dma := { s.dma with engines := (modChk s e f).dma.engines } } := rfl

/-- One engine is replaced; every other engine and, registers aside, the rest of the state are as before. -/
def EngineOnly (s t : State) (e : Nat) (y : ChkEngine) : Prop :=
  chkOf t e = y ∧ (∀ k, k ≠ e → chkOf t k = chkOf s k) ∧
  t = { s with dma := { s.dma with engines := t.dma.engines }, rf := { s.rf with vals := t.rf.vals } }

/-- An engine changed after registers are stored. -/
theorem modChk_engineOnly {s u : State} (h : u = { s with rf := { s.rf with vals := u.rf.vals } }) (e : Nat) (f : ChkEngine → ChkEngine) :
    EngineOnly s (modChk u e f) e (f (chkOf s e)) := by
  have hchk (k : Nat) : chkOf u k = chkOf s k := by rw [h]; rfl
  refine ⟨(chkOf_modChk_same u e f).trans (by rw [hchk]), fun k hk => (chkOf_modChk_other u f hk).trans (hchk k), ?_⟩
  generalize u.rf.vals = vals at h
  subst h
  rfl

/-- The bytes consumed are counted in their engine (10 R354). -/
theorem chkOf_consume (s : State) (e : Nat) (bs : List Byte) :
    chkOf (consume s e bs) e = { chkOf s e with done := (chkOf s e).done + bs.length } := chkOf_modChk_same _ _ _

/-! ### CHK_GO -/

/-- The state with CHK_CTL as a GO write leaves it. -/
def chkWritten (s : State) (e : Nat) (v : Word) : State := regPut s (chkOff e 0xC) (v &&& 0x1FBFFFFF#32)

/-- The register a pass starts with: the Init value of its function, or what CHK_VALUE holds (10 R354). -/
def chkStart (s : State) (e : Nat) (v : Word) : Nat :=
  if v.getLsbD 29 then polyInit (bits v 27 26) else chkValue (chkWritten s e v) e

/-- The state with the registers of a pass that starts. -/
def chkLoaded (s : State) (e : Nat) (v : Word) : State := putValue (chkWritten s e v) e (chkStart s e v)

/-- A CHK_GO write that is not denied (10 R358). -/
def MayCheck (r : Requester) (v : Word) : Prop := coresMay r = true ∧ (v.getLsbD 28 = true → r = .secure)

/-- A pass that ends with CONFIG: nothing to scan, a reserved space, or the tap of an idle channel (10 R353). -/
def ChkBad (s : State) (e : Nat) (v : Word) : Prop :=
  regVal s (chkOff e 8) = 0#32 ∨ (v.getLsbD 23 = false ∧ bits v 25 24 = 3) ∨ (v.getLsbD 23 = true ∧ (dmaOf s (bits v 21 16)).st = .idle)

section
variable (s : State) (e : Nat) (v : Word)

theorem regVal_chkLoaded_other {o : Nat} (h : o ≠ chkOff e 0x10) (h' : o ≠ chkOff e 0x14) :
    regVal (chkLoaded s e v) o = regVal (chkWritten s e v) o := regVal_pairStored_other _ _ h h'

theorem regVal_chkLoaded_ctl : regVal (chkLoaded s e v) (chkOff e 0xC) = v &&& 0x1FBFFFFF#32 :=
  (regVal_chkLoaded_other s e v (by simp) (by simp)).trans (regVal_regPut_same _ _ _)

theorem chkLoaded_otherRegs : OtherRegs [chkOff e 0xC, chkOff e 0x10, chkOff e 0x14] s (chkLoaded s e v) := by
  intro o ho
  obtain ⟨hctl, hlo, hhi⟩ : o ≠ chkOff e 0xC ∧ o ≠ chkOff e 0x10 ∧ o ≠ chkOff e 0x14 := by simpa using ho
  exact (regVal_chkLoaded_other s e v hlo hhi).trans (regVal_regPut_other _ _ hctl)

theorem chkLoaded_frame : chkLoaded s e v = { s with rf := { s.rf with vals := (chkLoaded s e v).rf.vals } } :=
  valsAlone_trans (regPut_frame s _ _) (pairStored_frame _ _ _)

theorem count64_chkLoaded : count64 (chkLoaded s e v) (chkOff e 0x10) = chkStart s e v := by
  have hlt : chkStart s e v < 2 ^ 64 := by
    unfold chkStart
    split
    · exact polyInit_lt _
    · exact chkValue_lt _ _
  exact count64_pairStored_same _ _ hlt

theorem chkStart_of_init (h : v.getLsbD 29 = true) : chkStart s e v = polyInit (bits v 27 26) := if_pos h

/-- A pass that continues starts with what CHK_VALUE held, within the width of the function written (10 R354). -/
theorem chkStart_of_kept (h : v.getLsbD 29 = false) :
    chkStart s e v = count64 s (chkOff e 0x10) % 2 ^ polyWidth (regBits (chkLoaded s e v) (chkOff e 0xC) 27 26) := by
  have hvalue : count64 (chkWritten s e v) (chkOff e 0x10) = count64 s (chkOff e 0x10) :=
    count64_congr (regVal_regPut_other _ _ (by simp)) (regVal_regPut_other _ _ (by simp [chkOff_add]))
  rw [chkStart, if_neg (Bool.eq_false_iff.mp h), chkValue, hvalue, regBits, regBits, chkWritten, regVal_regPut_same, regVal_chkLoaded_ctl]

end

theorem checkDenied_iff (r : Requester) (v : Word) :
    (!coresMay r || (v.getLsbD 28 && decide (r ≠ .secure))) = true ↔ ¬ MayCheck r v := by
  simp only [MayCheck, Bool.or_eq_true, Bool.and_eq_true, Bool.not_eq_true', decide_eq_true_eq, ← Bool.not_eq_true]
  tauto

theorem chkBad_iff (s : State) (e : Nat) (v : Word) :
    (decide (regVal s (chkOff e 8) = 0#32) || (!v.getLsbD 23 && decide (bits v 25 24 = 3)) ||
      (v.getLsbD 23 && decide ((dmaOf s (bits v 21 16)).st = .idle))) = true ↔ ChkBad s e v := by
  simp only [ChkBad, Bool.or_eq_true, Bool.and_eq_true, Bool.not_eq_true', decide_eq_true_eq, or_assoc]

section
variable {s : State} {e : BitVec 4} {r : Requester} {v : Word}

theorem exec_chkGo_of_denied (h : ¬ MayCheck r v) : exec (.chkGo e r v) s = .next (logRefused s r (chkOff e.toNat 0xC) v stDenied) :=
  if_pos ((checkDenied_iff r v).mpr h)

variable (hmay : MayCheck r v)
include hmay

theorem exec_chkGo_of_running (hrun : (chkOf s e.toNat).st = .running) :
    exec (.chkGo e r v) s = .next (logRefused s r (chkOff e.toNat 0xC) v stCtxState) :=
  (if_neg (mt (checkDenied_iff r v).mp (not_not.mpr hmay))).trans (if_pos hrun)

variable (hrun : (chkOf s e.toNat).st ≠ .running)
include hrun

theorem exec_chkGo_of_outOfRange (hctx : 4095 < bits v 15 0) :
    exec (.chkGo e r v) s = .next (logRefused s r (chkOff e.toNat 0xC) v stRange) :=
  (if_neg (mt (checkDenied_iff r v).mp (not_not.mpr hmay))).trans ((if_neg hrun).trans (if_pos hctx))

variable (hctx : bits v 15 0 ≤ 4095)
include hctx

/-- A GO write that is accepted loads the registers of its pass, and starts it or ends it with CONFIG. -/
theorem exec_chkGo_of_accepted : exec (.chkGo e r v) s =
    if decide (regVal s (chkOff e.toNat 8) = 0#32) || (!v.getLsbD 23 && decide (bits v 25 24 = 3)) ||
      (v.getLsbD 23 && decide ((dmaOf s (bits v 21 16)).st = .idle))
    then .next (modChk (chkLoaded s e.toNat v) e.toNat fun x => { x with st := .error, cause := 8, done := 0 })
    else .next (modChk (chkLoaded s e.toNat v) e.toNat fun x => { x with st := .running, cause := 0, done := 0, result := 0 }) := by
  refine (if_neg (mt (checkDenied_iff r v).mp (not_not.mpr hmay))).trans ((if_neg hrun).trans ((if_neg (Nat.not_lt.mpr hctx)).trans ?_))
  cases hinit : v.getLsbD 29 <;> simp only [chkLoaded, chkStart, hinit] <;> rfl

theorem exec_chkGo_of_bad (h : ChkBad s e.toNat v) : exec (.chkGo e r v) s =
    .next (modChk (chkLoaded s e.toNat v) e.toNat fun x => { x with st := .error, cause := 8, done := 0 }) :=
  (exec_chkGo_of_accepted hmay hrun hctx).trans (if_pos ((chkBad_iff s e.toNat v).mpr h))

theorem exec_chkGo_of_sound (h : ¬ ChkBad s e.toNat v) : exec (.chkGo e r v) s =
    .next (modChk (chkLoaded s e.toNat v) e.toNat fun x => { x with st := .running, cause := 0, done := 0, result := 0 }) :=
  (exec_chkGo_of_accepted hmay hrun hctx).trans (if_neg (mt (chkBad_iff s e.toNat v).mp h))

end

/-! ### CHK_STOP -/

/-- The bytes an engine has left to consume. -/
def chkLeft (s : State) (e : Nat) : Nat := (regVal s (chkOff e 8)).toNat - (chkOf s e).done

/-- An engine once its pass has ended: RESULT is that of the function `p` (10 R354). -/
def passDone (p : Nat) (s : State) (e : Nat) (x : ChkEngine) : ChkEngine := { x with st := .done, result := polyOut p (chkValue s e) }

section
variable {s : State} {e : BitVec 4} {r : Requester} {n : Word} {bs : List Byte}

theorem exec_chkStop_of_denied (h : coresMay r = false) :
    exec (.chkStop e r n bs) s = .next (logRefused s r (chkOff e.toNat 0xC) 0x40000000#32 stDenied) := if_pos (by rw [h]; rfl)

variable (hmay : coresMay r = true)
include hmay

theorem exec_chkStop_of_still (hrun : (chkOf s e.toNat).st ≠ .running) : exec (.chkStop e r n bs) s = .next s :=
  (if_neg (by simp [hmay])).trans (if_pos hrun)

variable (hrun : (chkOf s e.toNat).st = .running)
include hrun

theorem exec_chkStop_of_refused {c : MemReq × Nat × Nat} (h : chkBytes s e.toNat (min n.toNat (chkLeft s e.toNat)) bs = .error c) :
    exec (.chkStop e r n bs) s = .next (refuseScan s e.toNat c) := by
  refine (if_neg (by simp [hmay])).trans ((if_neg (not_not.mpr hrun)).trans ?_)
  unfold chkLeft at h
  simp only [h]

variable {data : List Byte} (h : chkBytes s e.toNat (min n.toNat (chkLeft s e.toNat)) bs = .ok data)
include h

/-- The pass ends with its last byte, and stops before it (10 R355). -/
theorem exec_chkStop_of_consumed : exec (.chkStop e r n bs) s =
    if data.length = chkLeft s e.toNat
    then .next (modChk (consume s e.toNat data) e.toNat
      (passDone (regBits (consume s e.toNat data) (chkOff e.toNat 0xC) 27 26) (consume s e.toNat data) e.toNat))
    else .next (modChk (consume s e.toNat data) e.toNat fun x => { x with st := .stopped }) := by
  refine (if_neg (by simp [hmay])).trans ((if_neg (not_not.mpr hrun)).trans ?_)
  unfold chkLeft at h
  simp only [h]
  rfl

theorem exec_chkStop_of_lastByte (hlast : data.length = chkLeft s e.toNat) : exec (.chkStop e r n bs) s =
    .next (modChk (consume s e.toNat data) e.toNat
      (passDone (regBits (consume s e.toNat data) (chkOff e.toNat 0xC) 27 26) (consume s e.toNat data) e.toNat)) :=
  (exec_chkStop_of_consumed hmay hrun h).trans (if_pos hlast)

theorem exec_chkStop_of_bytesLeft (hlast : data.length ≠ chkLeft s e.toNat) : exec (.chkStop e r n bs) s =
    .next (modChk (consume s e.toNat data) e.toNat fun x => { x with st := .stopped }) :=
  (exec_chkStop_of_consumed hmay hrun h).trans (if_neg hlast)

end

/-! ### CHK_COMPLETE -/

/-- The engine taps a channel that halted in an earlier tick (10 R353, R356). -/
def TapDead (s : State) (e : Nat) : Prop :=
  let v := regVal s (chkOff e 0xC)
  v.getLsbD 23 = true ∧ (dmaOf s (bits v 21 16)).st = .halted ∧ (dmaOf s (bits v 21 16)).haltAt ≠ s.gt

theorem tapDead_iff (s : State) (e : Nat) : tapDead s e = true ↔ TapDead s e := by
  simp only [tapDead, TapDead, Bool.and_eq_true, decide_eq_true_eq, and_assoc]

/-- What the completion of a running engine does whose read is in time (10 R354). -/
def chkCompletes (s : State) (e : Nat) (bs : List Byte) : Out :=
  match chkBytes s e (chkLeft s e) bs with
  | .error c => .next (refuseScan s e c)
  | .ok data =>
    if data.length < chkLeft s e then .next (consume s e data)
    else .next (modChk (consume s e data) e (passDone (regBits s (chkOff e 0xC) 27 26) (consume s e data) e))

section
variable {s : State} {e : BitVec 4} {bs : List Byte}

theorem exec_chkComplete_of_still (hrun : (chkOf s e.toNat).st ≠ .running) : exec (.chkComplete e bs) s = .next s := if_pos hrun

variable (hrun : (chkOf s e.toNat).st = .running)
include hrun

theorem exec_chkComplete_of_tapDead (hdead : TapDead s e.toNat) : exec (.chkComplete e bs) s = .next (endEngine s e.toNat 9) :=
  (if_neg (not_not.mpr hrun)).trans (if_pos ((tapDead_iff s e.toNat).mpr hdead))

variable (hlive : ¬ TapDead s e.toNat)
include hlive

theorem exec_chkComplete_of_late (hlate : readLate s (.engineRead e) = true) :
    exec (.chkComplete e bs) s = .next (failAccess (endReadWait s (.engineRead e)) (.engineRead e)) := by
  refine (if_neg (not_not.mpr hrun)).trans ((if_neg (mt (tapDead_iff s e.toNat).mp hlive)).trans ?_)
  simp only [BitVec.ofNat_toNat, BitVec.setWidth_eq]
  exact if_pos hlate

variable (hlate : readLate s (.engineRead e) = false)
include hlate

theorem exec_chkComplete_of_inTime : exec (.chkComplete e bs) s = chkCompletes s e.toNat bs := by
  refine (if_neg (not_not.mpr hrun)).trans ((if_neg (mt (tapDead_iff s e.toNat).mp hlive)).trans ?_)
  simp only [BitVec.ofNat_toNat, BitVec.setWidth_eq]
  exact if_neg (Bool.eq_false_iff.mp hlate)

theorem exec_chkComplete_of_refused {c : MemReq × Nat × Nat} (h : chkBytes s e.toNat (chkLeft s e.toNat) bs = .error c) :
    exec (.chkComplete e bs) s = .next (refuseScan s e.toNat c) := by
  rw [exec_chkComplete_of_inTime hrun hlive hlate]
  simp only [chkCompletes, h]

variable {data : List Byte} (h : chkBytes s e.toNat (chkLeft s e.toNat) bs = .ok data)
include h

theorem exec_chkComplete_of_bytesLeft (hlast : data.length < chkLeft s e.toNat) :
    exec (.chkComplete e bs) s = .next (consume s e.toNat data) := by
  rw [exec_chkComplete_of_inTime hrun hlive hlate]
  simp only [chkCompletes, h, if_pos hlast]

theorem exec_chkComplete_of_lastByte (hlast : chkLeft s e.toNat ≤ data.length) :
    exec (.chkComplete e bs) s = .next (modChk (consume s e.toNat data) e.toNat
      (passDone (regBits s (chkOff e.toNat 0xC) 27 26) (consume s e.toNat data) e.toNat)) := by
  rw [exec_chkComplete_of_inTime hrun hlive hlate]
  simp only [chkCompletes, h, if_neg (Nat.not_lt.mpr hlast)]

end

/-- Settles O35: a pass is split by `polyRun_append`; a start is one of `exec_chkGo_of_…`, with the registers that `chkLoaded` gives it, and a
stop and a completion are one of `exec_chkStop_of_…` and `exec_chkComplete_of_…`. -/
theorem checkEngines : Obligations.CheckEngines := by
  unfold Obligations.CheckEngines
  refine ⟨polyRun_append, fun s e => ?_⟩
  intro x off only
  refine ⟨fun r v => ?_, fun r n bs => ⟨fun hmay => ⟨_, exec_chkStop_of_denied hmay, rfl⟩,
    fun hmay hrun => ⟨_, exec_chkStop_of_still hmay hrun, rfl⟩, fun hmay hrun => ?_⟩, fun bs => ?_⟩
  · intro may
    refine ⟨fun hmay => ⟨_, exec_chkGo_of_denied hmay, rfl⟩, fun hmay hrun => ⟨_, exec_chkGo_of_running hmay hrun, rfl⟩,
      fun hmay hrun hctx => ⟨_, exec_chkGo_of_outOfRange hmay hrun hctx, rfl⟩, fun hmay hrun hctx => ?_⟩
    have hregs := chkLoaded_otherRegs s e.toNat v
    have hctl := regVal_chkLoaded_ctl s e.toNat v
    have hvalue := count64_chkLoaded s e.toNat v
    have hinit (h : v.getLsbD 29 = true) := hvalue.trans (chkStart_of_init s e.toNat v h)
    have hkept (h : v.getLsbD 29 = false) := hvalue.trans (chkStart_of_kept s e.toNat v h)
    have honly := modChk_engineOnly (chkLoaded_frame s e.toNat v) e.toNat
    by_cases hbad : ChkBad s e.toNat v
    · exact ⟨_, exec_chkGo_of_bad hmay hrun hctx hbad, hregs, hctl, hinit, hkept, fun _ => honly _, fun h => absurd hbad h⟩
    · exact ⟨_, exec_chkGo_of_sound hmay hrun hctx hbad, hregs, hctl, hinit, hkept, fun h => absurd h hbad, fun _ => honly _⟩
  · intro left
    refine ⟨fun c h => ⟨_, exec_chkStop_of_refused hmay hrun h, rfl⟩, fun data h => ?_⟩
    have hdone := chkOf_consume s e.toNat data
    by_cases hlast : data.length = left
    · exact ⟨_, exec_chkStop_of_lastByte hmay hrun h hlast, _, rfl, hdone, fun _ => rfl, fun hne => absurd hlast hne⟩
    · exact ⟨_, exec_chkStop_of_bytesLeft hmay hrun h hlast, _, rfl, hdone, fun heq => absurd heq hlast, fun _ => rfl⟩
  · intro v
    refine ⟨fun hrun => ⟨_, exec_chkComplete_of_still hrun, rfl⟩, ?_⟩
    intro tap
    refine ⟨fun hrun htap hhalted hearlier => ⟨_, exec_chkComplete_of_tapDead hrun ⟨htap, hhalted, hearlier⟩, ?_⟩,
      fun hrun hlive hlate => ⟨_, exec_chkComplete_of_late hrun hlive hlate, rfl⟩, fun hrun hlive hlate => ?_⟩
    · exact modChk_engineOnly rfl e.toNat fun y => { y with st := .error, cause := 9 }
    · intro left
      refine ⟨fun c h => ⟨_, exec_chkComplete_of_refused hrun hlive hlate h, rfl⟩, fun data h => ?_⟩
      by_cases hlast : data.length < left
      · exact ⟨_, exec_chkComplete_of_bytesLeft hrun hlive hlate h hlast, _, rfl, fun _ => rfl, fun hle => absurd hlast (Nat.not_lt.mpr hle)⟩
      · exact ⟨_, exec_chkComplete_of_lastByte hrun hlive hlate h (Nat.not_lt.mp hlast), _, rfl, fun hlt => absurd hlt hlast, fun _ => rfl⟩

end Sys2Proof.Proofs
end

section
/-!
What a fault record leaves of the state: the log, the messages sent, the pending vectors and the times of the domains it interrupts change,
and nothing else (17_faults.md R541 to R545).
-/
namespace Sys2Proof.Proofs
open Sys2Proof Sys2Proof.Machine

/-- Only what a fault record may change differs: the fault log, what was sent, pending vectors and the domains' times of resumption. -/
def FaultNoted (s t : State) : Prop :=
  ∃ pba flt sent doms, t = { s with rf := { s.rf with pba := pba }, flt := flt, sent := sent, arr := { s.arr with doms := doms } }

theorem FaultNoted.refl (s : State) : FaultNoted s s := ⟨_, _, _, _, rfl⟩

theorem FaultNoted.trans {s t u : State} (h : FaultNoted s t) (g : FaultNoted t u) : FaultNoted s u := by
  obtain ⟨_, _, _, _, rfl⟩ := h
  obtain ⟨_, _, _, _, rfl⟩ := g
  exact ⟨_, _, _, _, rfl⟩

theorem awaitResume_faultNoted (s : State) (a : FaultArgs) (seq : Nat) : FaultNoted s (awaitResume s a seq) := by
  have hfold (xs : List Nat) (f : Dom → Dom) : FaultNoted s (xs.foldl (fun t d => modDom t d f) s) := by
    induction xs generalizing s with
    | nil => exact .refl s
    | cons x xs ih => exact (show FaultNoted s (modDom s x f) from ⟨_, _, _, _, rfl⟩).trans (ih _)
  unfold awaitResume
  split
  · exact hfold _ _
  · exact .refl s

theorem signalVector_faultNoted (s : State) (f v : Nat) : FaultNoted s (signalVector s f v) := by
  simp only [signalVector]
  split
  · exact .refl s
  · split <;> exact ⟨_, _, _, _, rfl⟩

theorem faultIrq_faultNoted (s : State) (alert : Bool) : FaultNoted s (faultIrq s alert) := by
  simp only [faultIrq]
  split
  · exact .refl s
  · split
    · exact signalVector_faultNoted s _ _
    · split <;> exact ⟨_, _, _, _, rfl⟩

theorem fault_faultNoted (s : State) (a : FaultArgs) : FaultNoted s (fault s a) := by
  have hlog (flt : FaultLog) (seq : Nat) : FaultNoted s (awaitResume { s with flt := flt } a seq) :=
    (show FaultNoted s { s with flt := flt } from ⟨_, _, _, _, rfl⟩).trans (awaitResume_faultNoted _ a seq)
  have hput {t u : State} (h : FaultNoted s t) (flt : FaultLog) (hu : u = { t with flt := flt }) : FaultNoted s u :=
    h.trans (hu ▸ ⟨_, _, _, _, rfl⟩)
  simp only [fault]
  split
  · exact hlog _ _
  · split
    · exact (hput (hlog _ _) _ rfl).trans (faultIrq_faultNoted _ _)
    · exact hput (hlog _ _) _ rfl

@[simp] theorem fault_flc (s : State) (a : FaultArgs) : (fault s a).flc = s.flc := by
  obtain ⟨_, _, _, _, h⟩ := fault_faultNoted s a
  rw [h]

end Sys2Proof.Proofs
end

section
/-!
Flacon's commands (16_flacon.md R507 to R523): what each does with VSTBY present and without it, and the stop of admission (01_architecture.md R31).
-/
namespace Sys2Proof.Proofs
open Sys2Proof Sys2Proof.Machine

/-! ### Attribution in a tick -/

theorem attributeNow_attributed (s : State) {f : Flc} (h : f.shown = s.flc.shown) : Attributed s f (attributeNow s f).flc := by
  refine ⟨fun ⟨x, hx, hgt⟩ => ?_, fun hnew => ?_⟩
  · simp [attributeNow, h, hx, hgt]
  · simp only [attributeNow, h]
    split
    · next x hx => rw [if_neg (by simpa using hnew x hx)]
    · rfl

theorem trimWaiting_of_room {s : State} (h : s.flc.waiting.length ≤ 1024) : trimWaiting s = s := if_pos h

theorem trimWaiting_of_full {s : State} (h : 1024 < s.flc.waiting.length) :
    trimWaiting s = { s with flc := attributeReady 1025 (dropOldest s.flc) } := if_neg (Nat.not_le.mpr h)

/-! ### The journal -/

theorem recClock_of_unset {f : Flc} (h : ∀ x, f.before = some x → x.1 ≠ f.n) : recClock f = (f.time, f.clockValid) := by
  rw [recClock]
  split
  · next x hx => exact if_neg (h x hx)
  · rfl

theorem recClock_of_set {f : Flc} {x : Nat × Bool} (h : f.before = some (f.n, x)) : recClock f = x := by
  simp [recClock, h]

/-! ### A RECORD -/

/-- A record refused: the link shows it, and admission's limit begins (16 R513; 01 R31). -/
def recordRefused (bs : List Byte) (s : State) : State :=
  { s with flc := { s.flc with
      hubLink := false, stall := some (s.flc.stall.getD s.gt), discarded := if 16 ≤ bs.length ∧ bs.length % 72 = 16 then s.flc.discarded else s.flc.discarded + 1 } }

/-- A record refused, with a fault record where the link was good (16 R513). -/
def recordNoted (bs : List Byte) (s : State) : State :=
  if s.flc.hubLink then fault (recordRefused bs s) { cls := 0x17, unit := unitId 1 29, outcome := 0 } else recordRefused bs s

/-- Flacon with a valid record taken (16 R515). -/
def recordTaken (f : Flc) (n : Nat) (es : List FlcEntry) : Flc :=
  { f with hubLink := true, hubBuf := f.hubBuf.filter fun r => r.1 ≠ n
           recs := if f.waiting.any (fun w => w.n % 2 ^ 32 = n) && !f.recs.any (fun r => r.1 = n) then f.recs ++ [(n, es)] else f.recs }

section
variable {bs : List Byte} {s : State}

theorem exec_record_of_off (h : s.flc.powered = false) : exec (.record bs) s = .next s := by
  change execRecord bs s = _
  simp [execRecord, h]

variable (hon : s.flc.powered = true)
include hon

theorem exec_record_of_valid {n : Nat} {es : List FlcEntry} (h : parseRecord bs = some (n, es)) : exec (.record bs) s =
    .next (let u := attributeNow s (recordTaken s.flc n es); if u.flc.hubBuf = [] then endStall u else u) := by
  change execRecord bs s = _
  simp [execRecord, hon, h, recordTaken]

variable (hbad : parseRecord bs = none)
include hbad

theorem exec_record_of_bad_done (hbuf : s.flc.hubBuf = []) : exec (.record bs) s = .next (recordNoted bs s) := by
  change execRecord bs s = _
  simp [execRecord, hon, hbad, hbuf, recordNoted, recordRefused, modFlc]

variable {r : Nat × Nat × List FlcEntry} {rs : List (Nat × Nat × List FlcEntry)} (hbuf : s.flc.hubBuf = r :: rs)
include hbuf

theorem exec_record_of_bad_spent (hsent : 3 ≤ r.2.1) : exec (.record bs) s = .next (recordNoted bs s) := by
  change execRecord bs s = _
  simp [execRecord, hon, hbad, hbuf, hsent, recordNoted, recordRefused, modFlc]

theorem exec_record_of_bad_again (hsent : r.2.1 < 3) : exec (.record bs) s =
    .next (send (modFlc (recordNoted bs s) fun f => { f with hubBuf := (r.1, r.2.1 + 1, r.2.2) :: rs }) (.flacon r.1 (recordBytesOf r.1 r.2.2))) := by
  change execRecord bs s = _
  simp [execRecord, hon, hbad, hbuf, Nat.not_le.mpr hsent, recordNoted, recordRefused, modFlc]

end

/-! ### Commands with VSTBY and without it -/

theorem not_powered {s : State} (h : s.flc.powered = false) : (!s.flc.powered) = true := by rw [h]; rfl

theorem not_unpowered {s : State} (h : s.flc.powered = true) : ¬ (!s.flc.powered) = true := by rw [h]; decide

theorem exec_flaconSample_of_on {v : BitVec 24} {i : BitVec 20} {ok : Bool} {s : State} (h : s.flc.powered = true) :
    exec (.flaconSample v i ok) s = .next
      (let f := s.flc
       let p := (Machine.corrected v.toNat (flcParam f 2) (flcParam f 3) * Machine.corrected i.toNat (flcParam f 0) (flcParam f 1)).toNat
       let u := modFlc s fun g => { g with nano := g.nano + min p 170000000000 / 200000, overNow := g.overNow || decide (170000000000 < p), measOk := ok }
       if f.measOk && !ok then fault u { cls := 0x17, unit := unitId 1 29, outcome := 0 } else u) := if_neg (not_unpowered h)

/-- What an interval's close leaves before anything is attributed (16 R511, R521). -/
def intervalClosed (s : State) : Flc :=
  let f := s.flc
  { f with ePkg := f.nano / 1000, waiting := f.waiting ++ [⟨f.n, f.nano / 1000 - f.ePkg, (List.range 8).map fun k => flcParam f (8 + k)⟩]
           n := f.n + 1, overRange := f.overNow, overNow := false, time := f.time + 1, closedAt := some s.gt }

theorem exec_intervalClose_of_on {s : State} (h : s.flc.powered = true) : exec .intervalClose s =
    .next (send { s with flc := loadParams (attributeNow s (intervalClosed s)).flc } (.plain "flacon tick" (s.flc.n % 2 ^ 32))) :=
  if_neg (not_unpowered h)

theorem exec_setTime_of_on {s : State} {x : BitVec 64} (h : s.flc.powered = true) : exec (.setTime x) s = .next (modFlc s fun f => setTime f x.toNat 1) :=
  if_pos h

theorem exec_timeSet_of_on {s : State} {x : BitVec 64} (h : s.flc.powered = true) : exec (.timeSet x) s = .next (modFlc s fun f => setTime f x.toNat 2) :=
  if_pos h

/-- What a power failure leaves of a snapshot that was under way (16 R520). -/
def powerFailCut (f : Flc) (mid : BitVec 2) : Flc :=
  let f1 := { f with snapSeq := if mid = 0#2 then f.snapSeq else (f.snapSeq + 1) % 2 ^ 32 }
  match mid.toNat with
  | 0 => f1
  | 1 => { f1 with tableA := none }
  | 2 => journal { f1 with tableA := some (tableOf f1) } 0x01 0 f1.ePkg f1.snapSeq
  | _ => { journal { f1 with tableA := some (tableOf f1) } 0x01 0 f1.ePkg f1.snapSeq with tableB := none }

theorem exec_powerFail_of_on {s : State} {mid : BitVec 2} (h : s.flc.powered = true) : exec (.powerFail mid) s = .next (modFlc s fun f =>
    { journal (powerFailCut f mid) 0x03 0 (powerFailCut f mid).ePkg (powerFailCut f mid).waiting.length with powered := false, measOk := false, hubLink := false }) :=
  if_neg (not_unpowered h)

theorem exec_param_of_refused {s : State} {i : BitVec 8} {v : Word} (h : s.flc.powered = false ∨ s.flc.sealOpen = false ∨
    ¬ (i.toNat < 4 ∨ (8 ≤ i.toNat ∧ i.toNat < 16 ∧ 1 ≤ v.toNat ∧ v.toNat ≤ 1000000)) ∨ Instr.sealClose ∈ s.pending) :
    exec (.param i v) s = .next s := by
  refine if_pos ?_
  simp only [Bool.or_eq_true, Bool.not_eq_true', Bool.or_eq_false_iff, Bool.and_eq_false_iff, decide_eq_false_iff_not, List.contains_iff_mem]
  grind

/-- The value that a parameter has once those waiting are in force (16 R523). -/
def pendingParam (f : Flc) (i : Nat) : Nat :=
  match f.newParams.reverse.find? fun x => x.1 = i with | some x => x.2 | none => flcParam f i

theorem pendingParam_of_none {f : Flc} (i : Nat) (h : f.newParams = []) : pendingParam f i = flcParam f i := by
  simp [pendingParam, h]

/-- The parameters after one more is written: in force at once where an interval closed in this tick (16 R523). -/
def paramsAfter (f : Flc) (x : Nat × Nat) (gt : Nat) : Flc :=
  if f.closedAt = some gt then { f with params := (f.newParams ++ [x]).foldl (fun ps x => listSet ps x.1 x.2) f.params, newParams := [] }
  else { f with newParams := f.newParams ++ [x] }

theorem exec_param_of_admitted {s : State} {i : BitVec 8} {v : Word} (hon : s.flc.powered = true) (hopen : s.flc.sealOpen = true)
    (hadmits : i.toNat < 4 ∨ (8 ≤ i.toNat ∧ i.toNat < 16 ∧ 1 ≤ v.toNat ∧ v.toNat ≤ 1000000)) (hstays : Instr.sealClose ∉ s.pending) :
    exec (.param i v) s = .next (modFlc s fun f =>
      let f1 := { f with newParams := f.newParams ++ [(i.toNat, v.toNat)], sealCnt := f.sealCnt + 1 }
      journal (if f.closedAt = some s.gt then loadParams f1 else f1) 0x07 i.toNat v.toNat (pendingParam f i.toNat)) := by
  refine if_neg ?_
  simp only [Bool.or_eq_true, Bool.not_eq_true', Bool.or_eq_false_iff, Bool.and_eq_false_iff, decide_eq_false_iff_not, List.contains_iff_mem]
  grind

theorem exec_admissionStallTimeout_of_idle {s : State} (h : ¬ ((∃ n, s.flc.stall = some n ∧ RunOut s (n + 1000000000)) ∧ s.arr.noSteps = false)) :
    exec .admissionStallTimeout s = .next s := by
  change execAdmissionStallTimeout s = _
  rw [execAdmissionStallTimeout]
  split
  · next n hn =>
    refine if_pos ?_
    rw [Bool.or_eq_true, Bool.not_eq_true', ranOut_eq_false_iff]
    by_contra hdue
    exact h ⟨⟨n, hn, by_contra fun hr => hdue (.inl hr)⟩, Bool.eq_false_iff.mpr fun hr => hdue (.inr hr)⟩
  · rfl

theorem exec_admissionStallTimeout_of_due {s : State} {n : Nat} (hn : s.flc.stall = some n) (hdue : RunOut s (n + 1000000000)) (hsteps : s.arr.noSteps = false) :
    exec .admissionStallTimeout s = .next (stallYields { s with arr := { s.arr with noSteps := true } } n 0) := by
  change execAdmissionStallTimeout s = _
  simp [execAdmissionStallTimeout, hn, (ranOut_eq_true_iff s _).mpr hdue, hsteps]

/-- Settles O54: each command is its equation, with what may be attributed given by `attributeNow_attributed`. -/
theorem flaconMeters : Obligations.FlaconMeters := by
  unfold Obligations.FlaconMeters
  refine ⟨fun s v i ok => ?_, fun s => ?_, fun s n as => ?_, fun s bs => ?_, fun s r off => ⟨_, rfl, rfl⟩, fun s x => ?_, fun s => ?_, fun s elapsed high => ?_,
    fun s => ?_, fun s => ?_, fun s => ?_⟩
  · exact ⟨fun hoff => ⟨_, if_pos (not_powered hoff), rfl⟩, fun hon => ⟨_, exec_flaconSample_of_on hon, _, rfl, rfl⟩⟩
  · refine ⟨fun hoff => ⟨_, if_pos (not_powered hoff), rfl⟩, fun hon => ⟨_, exec_intervalClose_of_on hon, _, _, rfl, ?_, rfl⟩, trimWaiting_of_room,
      trimWaiting_of_full, recClock_of_unset, fun x => recClock_of_set⟩
    exact attributeNow_attributed s rfl
  · refine ⟨fun hoff => ⟨_, if_pos hoff, rfl⟩, fun hon => ⟨_, if_neg (not_not.mpr hon), rfl, ?_, rfl⟩⟩
    by_cases hbuf : s.flc.hubBuf = [] <;> simp [hbuf, send, modFlc]
  · intro run f bad
    refine ⟨fun hoff => ⟨_, exec_record_of_off hoff, rfl⟩, fun n es hon hvalid => ⟨_, exec_record_of_valid hon hvalid, _, ?_, rfl, rfl⟩, fun hon hbad => ?_⟩
    · exact attributeNow_attributed s rfl
    · cases hbuf : s.flc.hubBuf with
      | nil => exact ⟨_, exec_record_of_bad_done hon hbad hbuf, _, rfl, fun _ => rfl, fun r rs h => nomatch h⟩
      | cons r rs =>
        rcases Nat.lt_or_ge r.2.1 3 with hsent | hsent
        · refine ⟨_, exec_record_of_bad_again hon hbad hbuf hsent, recordNoted bs s, rfl, (fun h => nomatch h), fun r' rs' h => ?_⟩
          cases h
          exact ⟨fun hle => absurd hsent (Nat.not_lt.mpr hle), fun _ => rfl⟩
        · refine ⟨_, exec_record_of_bad_spent hon hbad hbuf hsent, _, rfl, (fun h => nomatch h), fun r' rs' h => ?_⟩
          cases h
          exact ⟨fun _ => rfl, fun hlt => absurd hlt (Nat.not_lt.mpr hsent)⟩
  · intro f late set
    have hset (path : Nat) : modFlc s (fun f => setTime f x.toNat path) = set path := by
      simp only [set, modFlc, setTime, journalAt, RingWith, late, Bool.and_eq_true, decide_eq_true_eq]
      rfl
    by_cases hon : s.flc.powered = true
    · exact ⟨⟨_, exec_setTime_of_on hon, (hset 1).trans (if_pos hon).symm⟩, ⟨_, exec_timeSet_of_on hon, (hset 2).trans (if_pos hon).symm⟩⟩
    · exact ⟨⟨_, if_neg hon, (if_neg hon).symm⟩, ⟨_, if_neg hon, (if_neg hon).symm⟩⟩
  · refine ⟨fun hoff => ⟨_, if_pos (not_powered hoff), rfl⟩, fun hon => ⟨_, if_neg (not_unpowered hon), rfl⟩,
      fun mid => ⟨fun hoff => ⟨_, if_pos (not_powered hoff), rfl⟩, fun hon => ⟨_, exec_powerFail_of_on hon, powerFailCut s.flc mid, ?_, ?_, ?_, ?_, rfl⟩⟩⟩
    all_goals
      rintro rfl
      rfl
  · exact ⟨fun hon => ⟨_, if_pos hon, rfl⟩, fun hoff => ⟨_, if_neg (Bool.eq_false_iff.mp hoff), rfl, rfl, rfl, rfl, rfl, rfl, rfl, rfl, rfl, rfl, rfl, rfl,
      rfl, rfl, rfl, rfl, rfl, rfl⟩⟩
  · exact ⟨fun hon => ⟨_, if_pos hon, rfl⟩, fun hoff => ⟨_, if_neg (Bool.eq_false_iff.mp hoff), rfl⟩⟩
  · refine ⟨fun h => ⟨_, if_pos ?_, rfl⟩, fun hon hshut => ⟨_, if_neg ?_, rfl⟩, fun h => ⟨_, if_pos ?_, rfl⟩, fun hon hopen => ⟨_, if_neg ?_, rfl⟩,
      fun i v => ?_⟩
    · rcases h with h | h <;> simp [h]
    · simp [hon, hshut]
    · rcases h with h | h <;> simp [h]
    · simp [hon, hopen]
    · intro admits closes
      refine ⟨fun h => ⟨_, exec_param_of_refused h, rfl⟩, fun hon hopen hadmits hstays => ⟨_, exec_param_of_admitted hon hopen hadmits hstays,
        pendingParam s.flc i.toNat, paramsAfter s.flc (i.toNat, v.toNat) s.gt, pendingParam_of_none _, ⟨fun h => if_neg h, fun h => if_pos h⟩, ?_⟩⟩
      simp only [modFlc, paramsAfter]
      split <;> rfl
  · intro run due
    refine ⟨fun hidle => ⟨_, exec_admissionStallTimeout_of_idle hidle, rfl⟩, fun n hn ⟨⟨m, hm, hdue⟩, hsteps⟩ => ?_⟩
    cases hn.symm.trans hm
    exact ⟨_, exec_admissionStallTimeout_of_due hn hdue hsteps, rfl⟩

end Sys2Proof.Proofs
end

section
/-!
Energy is neither lost nor made (16_flacon.md R511 to R520): an amount divided by weights, an interval attributed, and the balance of Flacon.
-/
namespace Sys2Proof.Proofs
open Sys2Proof Sys2Proof.Machine

/-! ### Amounts divided by weights -/

theorem insertBy_perm {α : Type} (lt : α → α → Bool) (x : α) (xs : List α) : (insertBy lt x xs).Perm (x :: xs) := by
  induction xs with
  | nil => exact .refl _
  | cons y ys ih =>
    rw [insertBy]
    split
    · exact .refl _
    · exact (ih.cons y).trans (.swap x y ys)

theorem sortBy_perm {α : Type} (lt : α → α → Bool) (xs : List α) : (sortBy lt xs).Perm xs := by
  have hfold (acc : List α) : (xs.foldl (fun acc x => insertBy lt x acc) acc).Perm (xs ++ acc) := by
    induction xs generalizing acc with
    | nil => exact .refl _
    | cons x xs ih => exact (ih _).trans (((insertBy_perm lt x acc).append_left xs).trans List.perm_middle)
  simpa [sortBy] using hfold []

theorem mul_sum_div_add_sum_mod (d : Nat) (ns : List Nat) : d * (ns.map (· / d)).sum + (ns.map (· % d)).sum = ns.sum := by
  induction ns with
  | nil => rfl
  | cons n ns ih =>
    simp only [List.map_cons, List.sum_cons, Nat.mul_add]
    have := Nat.div_add_mod n d
    omega

theorem sum_mod_le {d : Nat} (hd : d ≠ 0) (ns : List Nat) : (ns.map (· % d)).sum ≤ d * ns.length := by
  induction ns with
  | nil => exact Nat.zero_le _
  | cons n ns ih =>
    have := Nat.mod_lt n (Nat.pos_of_ne_zero hd)
    simp only [List.map_cons, List.sum_cons, List.length_cons, Nat.mul_succ]
    omega

/-- The floors of an amount's parts give no more than the amount, and what they leave is less than one a part. -/
theorem sum_floors {d e : Nat} (hd : d ≠ 0) {ns : List Nat} (h : ns.sum = e * d) :
    (ns.map (· / d)).sum ≤ e ∧ e - (ns.map (· / d)).sum ≤ ns.length := by
  have hsplit := (mul_sum_div_add_sum_mod d ns).trans (h.trans (Nat.mul_comm e d))
  have hmods := sum_mod_le hd ns
  constructor
  · exact Nat.le_of_mul_le_mul_left (by omega) (Nat.pos_of_ne_zero hd)
  · refine le_of_mul_le_mul_left (a := d) ?_ (Nat.pos_of_ne_zero hd)
    rw [Nat.mul_sub]
    omega

theorem sum_map_mul_left {α : Type} (e : Nat) (f : α → Nat) (xs : List α) : (xs.map fun x => e * f x).sum = e * (xs.map f).sum := by
  induction xs with
  | nil => rfl
  | cons x xs ih => simp only [List.map_cons, List.sum_cons, ih, Nat.mul_add]

/-- One more to each of the first `n` of a list adds `n`. -/
theorem sum_take_succ {α : Type} (f : α → Nat) (xs : List α) {n : Nat} (h : n ≤ xs.length) :
    ((xs.take n).map fun x => f x + 1).sum + ((xs.drop n).map f).sum = (xs.map f).sum + n := by
  conv_rhs => rw [← List.take_append_drop n xs]
  have hones : ((xs.take n).map fun x => f x + 1).sum = ((xs.take n).map f).sum + n := by
    rw [List.sum_map_add, List.map_const', List.sum_replicate, List.length_take, Nat.min_eq_left h, smul_eq_mul, Nat.mul_one]
  rw [hones, List.map_append, List.sum_append]
  omega

theorem sum_sharesOf (ws : List Nat) (e : Nat) (es : List FlcEntry) (hd : (es.map (dynOf ws)).sum ≠ 0) :
    ((sharesOf ws e es).map Prod.snd).sum = e := by
  obtain ⟨hle, hroom⟩ := sum_floors (e := e) hd (sum_map_mul_left e (dynOf ws) es)
  rw [List.length_map] at hroom
  rw [List.map_map] at hle hroom
  simp only [sharesOf, List.map_append, List.map_map, List.sum_append]
  refine (sum_take_succ (fun x : FlcEntry × Nat × Nat => x.2.1) _ ?_).trans ?_
  · rw [(sortBy_perm _ _).length_eq, List.length_map]
    exact hroom
  · rw [((sortBy_perm _ _).map _).sum_nat, List.map_map]
    exact Nat.add_sub_of_le hle

theorem mem_sharesOf {ws : List Nat} {e : Nat} {es : List FlcEntry} {x : FlcEntry} {q : Nat} (h : (x, q) ∈ sharesOf ws e es) :
    x ∈ es ∧ (q = e * dynOf ws x / (es.map (dynOf ws)).sum ∨ q = e * dynOf ws x / (es.map (dynOf ws)).sum + 1) := by
  have hofSorted {lt y} (hy : y ∈ sortBy lt (es.map fun x => (x, e * dynOf ws x / (es.map (dynOf ws)).sum, e * dynOf ws x % (es.map (dynOf ws)).sum))) :
      y.1 ∈ es ∧ y.2.1 = e * dynOf ws y.1 / (es.map (dynOf ws)).sum := by
    obtain ⟨z, hz, rfl⟩ := List.mem_map.mp ((mem_sortBy _).mp hy)
    exact ⟨hz, rfl⟩
  rcases List.mem_append.mp h with h | h
  · obtain ⟨y, hy, hyx⟩ := List.mem_map.mp h
    cases hyx
    obtain ⟨hmem, hfloor⟩ := hofSorted (List.mem_of_mem_take hy)
    exact ⟨hmem, .inr (congrArg (· + 1) hfloor)⟩
  · obtain ⟨y, hy, hyx⟩ := List.mem_map.mp h
    cases hyx
    obtain ⟨hmem, hfloor⟩ := hofSorted (List.mem_of_mem_drop hy)
    exact ⟨hmem, .inl hfloor⟩

theorem length_apportion (e : Nat) (ws : List Nat) : (apportion e ws).length = ws.length := by
  simp only [apportion, List.length_map, List.length_zipIdx]

/-- As many of a list's places are in `more` as `more` has, where it names places of the list and none twice. -/
theorem sum_b2n_contains {α : Type} (xs : List α) {more : List Nat} (hnodup : more.Nodup) (hmem : ∀ i ∈ more, i < xs.length) :
    (xs.zipIdx.map fun w => b2n (more.contains w.2)).sum = more.length := by
  have hplaces : (xs.zipIdx.map fun w => b2n (more.contains w.2)) = (List.range xs.length).map fun i => b2n (more.contains i) := by
    rw [← List.zipIdx_map_snd 0 xs |>.trans List.range_eq_range'.symm, List.map_map]
    rfl
  have hcount (ys : List Nat) : (ys.map fun i => b2n (more.contains i)).sum = (ys.filter more.contains).length := by
    induction ys with
    | nil => rfl
    | cons y ys ih =>
      rw [List.map_cons, List.sum_cons, ih, List.filter_cons]
      cases more.contains y
      · exact Nat.zero_add _
      · exact Nat.add_comm _ _
  rw [hplaces, hcount]
  refine List.Perm.length_eq ((List.perm_ext_iff_of_nodup (List.nodup_range.filter _) hnodup).mpr fun i => ?_)
  simpa using hmem i

theorem sum_apportion (e : Nat) {ws : List Nat} (hd : ws.sum ≠ 0) : (apportion e ws).sum = e := by
  have hmax : max 1 ws.sum = ws.sum := Nat.max_eq_right (Nat.one_le_iff_ne_zero.mpr hd)
  have hparts : (ws.map (e * ·)).sum = e * ws.sum := (sum_map_mul_left e id ws).trans (by rw [List.map_id])
  obtain ⟨hle, hroom⟩ := sum_floors (e := e) hd hparts
  rw [List.length_map, List.map_map] at hroom
  rw [List.map_map] at hle
  have hfloors : (ws.zipIdx.map fun w => e * w.1 / ws.sum) = ws.map ((· / ws.sum) ∘ (e * ·)) :=
    (List.map_map (f := Prod.fst) (g := (· / ws.sum) ∘ (e * ·)) ..).symm.trans (congrArg _ (List.zipIdx_map_fst 0 ws))
  simp only [apportion, hmax, if_neg hd]
  rw [List.sum_map_add, sum_b2n_contains, hfloors, List.length_map, List.length_take, (sortBy_perm _ _).length_eq, List.length_zipIdx,
    List.length_map]
  · exact (congrArg _ (Nat.min_eq_left hroom)).trans (Nat.add_sub_of_le hle)
  · exact (((sortBy_perm _ _).map Prod.snd).nodup_iff.mpr (List.nodup_zipIdx_map_snd _)).sublist ((List.take_sublist _ _).map _)
  · intro i hi
    obtain ⟨y, hy, rfl⟩ := List.mem_map.mp hi
    have := List.snd_lt_of_mem_zipIdx ((mem_sortBy _).mp (List.mem_of_mem_take hy))
    simpa using this

/-! ### Accounts -/

theorem tabFind_of_rising {α : Type} {t : List (Nat × α)} {b k : Nat} (h : tabRising (some b) t = true) (hk : k ≤ b) : tabFind t k = none := by
  induction t generalizing b with
  | nil => rfl
  | cons a t ih =>
    simp only [tabRising, Bool.and_eq_true, decide_eq_true_eq] at h
    exact (if_neg (by omega)).trans (ih h.2 (by omega))

/-- The energy that a table of accounts holds. -/
def heldIn (t : List (Nat × Nat × Nat)) : Nat := (t.map fun a => a.2.1).sum

theorem heldIn_cons (j : Nat) (v : Nat × Nat) (t : List (Nat × Nat × Nat)) : heldIn ((j, v) :: t) = v.1 + heldIn t := rfl

theorem heldIn_tabDel {t : List (Nat × Nat × Nat)} {b : Option Nat} (k : Nat) (h : tabRising b t = true) :
    heldIn (tabDel t k) + (tabGet t (0, 0) k).1 = heldIn t := by
  induction t generalizing b with
  | nil => rfl
  | cons a t ih =>
    obtain ⟨j, v⟩ := a
    simp only [tabRising, Bool.and_eq_true] at h
    have hrest := ih h.2
    by_cases hk : k = j
    · rw [tabGet, tabFind_of_rising h.2 (Nat.le_of_eq hk)] at hrest
      rw [tabDel, if_pos hk, tabGet, tabFind, if_pos hk, heldIn_cons, ← hrest]
      exact Nat.add_comm _ _
    · rw [tabDel, if_neg hk, tabGet, tabFind, if_neg hk, heldIn_cons, heldIn_cons, Nat.add_assoc]
      exact congrArg _ hrest

theorem heldIn_tabPut {t : List (Nat × Nat × Nat)} {b : Option Nat} (k : Nat) (v : Nat × Nat) (h : tabRising b t = true) :
    heldIn (tabPut t k v) + (tabGet t (0, 0) k).1 = heldIn t + v.1 := by
  induction t generalizing b with
  | nil => exact Nat.add_comm _ _
  | cons a t ih =>
    obtain ⟨j, w⟩ := a
    simp only [tabRising, Bool.and_eq_true] at h
    have hrest := ih h.2
    rw [tabPut]
    split
    · next hlt =>
      have hnone : tabFind ((j, w) :: t) k = none :=
        tabFind_of_rising (b := k) (by simp only [tabRising, Bool.and_eq_true, decide_eq_true_eq]; exact ⟨hlt, h.2⟩) (Nat.le_refl k)
      rw [tabGet, hnone, heldIn_cons]
      exact Nat.add_comm v.1 _
    · split
      · next hk =>
        rw [tabGet, tabFind, if_pos hk, heldIn_cons, heldIn_cons, Option.getD_some]
        omega
      · next hk =>
        rw [tabGet] at hrest
        rw [tabGet, tabFind, if_neg hk, heldIn_cons, heldIn_cons]
        omega

/-- A table of accounts holds, with an account set, what it held before less that account and with its new amount. -/
theorem heldIn_tabSet {t : List (Nat × Nat × Nat)} (k : Nat) (v : Nat × Nat) (h : tabRising none t = true) :
    heldIn (tabSet t (0, 0) k v) + (tabGet t (0, 0) k).1 = heldIn t + v.1 := by
  rw [tabSet]
  split
  · next hv => rw [heldIn_tabDel k h, hv]; rfl
  · exact heldIn_tabPut k v h

theorem tabRising_tabSet {t : List (Nat × Nat × Nat)} (k : Nat) (v : Nat × Nat) (h : tabRising none t = true) :
    tabRising none (tabSet t (0, 0) k v) = true := by
  rw [tabSet]
  split
  · exact tabRising_del _ _ _ h
  · exact tabRising_put _ _ _ _ h fun m hm => nomatch hm

/-! ### Attribution -/

/-- `q` microjoules go to DEVICE, CLOSED and the accounts, which stay in order; what waits, E_PKG and the accumulator stay. -/
def Moves (f g : Flc) (q : Nat) : Prop :=
  (tabRising none f.accounts = true → tabRising none g.accounts = true ∧
    g.device + g.closed + accountSum g = f.device + f.closed + accountSum f + q) ∧
  g.ePkg = f.ePkg ∧ g.waiting = f.waiting ∧ g.nano = f.nano

theorem Moves.refl (f : Flc) : Moves f f 0 := ⟨fun h => ⟨h, rfl⟩, rfl, rfl, rfl⟩

theorem Moves.trans {f g h : Flc} {p q : Nat} (hfg : Moves f g p) (hgh : Moves g h q) : Moves f h (p + q) := by
  obtain ⟨hsum, he, hw, hn⟩ := hfg
  obtain ⟨hsum', he', hw', hn'⟩ := hgh
  refine ⟨fun hf => ?_, he'.trans he, hw'.trans hw, hn'.trans hn⟩
  obtain ⟨hg, hp⟩ := hsum hf
  obtain ⟨hh, hq⟩ := hsum' hg
  exact ⟨hh, by omega⟩

theorem foldl_moves {α : Type} {q : α → Nat} {step : Flc → α → Flc} (h : ∀ g x, Moves g (step g x) (q x)) (xs : List α) (f : Flc) :
    Moves f (xs.foldl step f) (xs.map q).sum := by
  induction xs generalizing f with
  | nil => exact .refl f
  | cons x xs ih => exact (h f x).trans (ih _)

theorem closeEpoch_moves (f : Flc) (c share : Nat) : Moves f (closeEpoch f c share) share := by
  refine ⟨fun hf => ⟨tabRising_tabSet _ _ hf, ?_⟩, rfl, rfl, rfl⟩
  have := heldIn_tabSet c (share, nextEpoch (accountOf f c).2) hf
  change f.device + (f.closed + (tabGet f.accounts (0, 0) c).1) + heldIn (tabSet f.accounts (0, 0) c _) = f.device + f.closed + heldIn f.accounts + share
  omega

theorem addShare_moves (f : Flc) (c q : Nat) : Moves f (addShare f c q) q := by
  have hput : Moves f (putAccount f c ((accountOf f c).1 + q, (accountOf f c).2)) q := by
    refine ⟨fun hf => ⟨tabRising_tabSet _ _ hf, ?_⟩, rfl, rfl, rfl⟩
    have := heldIn_tabSet c ((tabGet f.accounts (0, 0) c).1 + q, (tabGet f.accounts (0, 0) c).2) hf
    change f.device + f.closed + heldIn (tabSet f.accounts (0, 0) c _) = f.device + f.closed + heldIn f.accounts + q
    simp only [accountOf]
    omega
  simp only [addShare]
  split
  · exact hput.trans (closeEpoch_moves _ c 0)
  · exact hput

theorem device_moves (f : Flc) (q : Nat) : Moves f { f with device := f.device + q } q :=
  ⟨fun hf => ⟨hf, by change f.device + q + f.closed + accountSum f = _; omega⟩, rfl, rfl, rfl⟩

theorem shares_moves (f : Flc) (ss : List (FlcEntry × Nat)) (opens fits : FlcEntry → Bool) :
    Moves f ((ss.filter fun x => opens x.1).foldl (fun g x => closeEpoch g x.1.acc x.2)
      ((ss.filter fun x => !opens x.1).foldl (fun g x => if fits x.1 then addShare g x.1.acc x.2 else { g with device := g.device + x.2 }) f))
      (ss.map Prod.snd).sum := by
  have hsplit := ((List.filter_append_perm (fun x => !opens x.1) ss).map Prod.snd).sum_nat
  simp only [Bool.not_not, List.map_append, List.sum_append] at hsplit
  have hkept (g : Flc) (x : FlcEntry × Nat) :
      Moves g (if fits x.1 then addShare g x.1.acc x.2 else { g with device := g.device + x.2 }) x.2 := by
    split
    · exact addShare_moves g _ _
    · exact device_moves g _
  exact hsplit ▸ (foldl_moves hkept _ f).trans (foldl_moves (fun g x => closeEpoch_moves g _ x.2) _ _)

theorem attributeTo_moves (f : Flc) (w : FlcInterval) (es : List FlcEntry) : Moves f (attributeTo f w es) w.e := by
  have hlast : Moves f { f with last := w.n % 2 ^ 32 } 0 := ⟨fun h => ⟨h, rfl⟩, rfl, rfl, rfl⟩
  refine Nat.zero_add w.e ▸ hlast.trans ?_
  rw [attributeTo]
  split
  · exact device_moves _ w.e
  · next hd =>
    have hshares (f : Flc) := shares_moves f (sharesOf w.weights w.e es) (entryOpens f) (entryFits f)
    simp only [sum_sharesOf w.weights w.e es hd] at hshares
    exact hshares _

/-! ### The balance -/

theorem Moves.balanced {f g : Flc} {w : FlcInterval} {ws : List FlcInterval} (h : Moves { f with waiting := ws } g w.e) (hw : f.waiting = w :: ws)
    (hf : Balanced f) : Balanced g := by
  obtain ⟨hsum, hrising, hnano⟩ := hf
  obtain ⟨hmoved, he, hwaits, hn⟩ := h
  obtain ⟨hg, htotal⟩ := hmoved hrising
  rw [hw, List.map_cons, List.sum_cons] at hsum
  change _ = f.device + f.closed + accountSum f + w.e at htotal
  refine ⟨?_, hg, ?_⟩
  · rw [he, hwaits]
    change f.ePkg = _ + (ws.map FlcInterval.e).sum
    omega
  · rw [he, hn]
    exact hnano

theorem attributeReady_balanced (n : Nat) {f : Flc} (h : Balanced f) : Balanced (attributeReady n f) := by
  induction n generalizing f with
  | zero => exact h
  | succ n ih =>
    rw [attributeReady]
    split
    · exact h
    · next w ws hw =>
      split
      · exact h
      · next r _ =>
        have hmoves : Moves { f with waiting := ws } (attributeTo { f with waiting := ws, recs := f.recs.filter fun x => x.1 ≠ r.1 } w r.2) w.e :=
          attributeTo_moves { f with waiting := ws, recs := f.recs.filter fun x => x.1 ≠ r.1 } w r.2
        exact ih (hmoves.balanced hw h)

theorem attributeNow_balanced (s : State) {f : Flc} (h : Balanced f) : Balanced (attributeNow s f).flc := by
  refine attributeReady_balanced 1025 ?_
  split
  · split <;> exact h
  · exact h

theorem balanced_reset : Balanced State.reset.flc := ⟨rfl, rfl, Nat.le_refl 0⟩

/-- The accumulator only rises. -/
theorem balanced_more {f : Flc} (h : Balanced f) (q : Nat) : Balanced { f with nano := f.nano + q } := by
  obtain ⟨hsum, hrising, hnano⟩ := h
  exact ⟨hsum, hrising, hnano.trans (Nat.div_le_div_right (Nat.le_add_right _ _))⟩

/-- What the accumulator has beyond E_PKG waits as an interval of its own. -/
theorem balanced_close {f : Flc} (h : Balanced f) (n : Nat) (weights : List Nat) :
    Balanced { f with ePkg := f.nano / 1000, waiting := f.waiting ++ [FlcInterval.mk n (f.nano / 1000 - f.ePkg) weights] } := by
  obtain ⟨hsum, hrising, hnano⟩ := h
  refine ⟨?_, hrising, Nat.le_refl _⟩
  change f.nano / 1000 = f.device + f.closed + accountSum f + ((f.waiting ++ [FlcInterval.mk n (f.nano / 1000 - f.ePkg) weights]).map FlcInterval.e).sum
  simp only [List.map_append, List.sum_append, List.map_singleton, List.sum_singleton]
  omega

/-- What the balance speaks of. -/
def Ledger (f : Flc) : Nat × Nat × Nat × List (Nat × Nat × Nat) × List FlcInterval × Nat :=
  (f.ePkg, f.device, f.closed, f.accounts, f.waiting, f.nano)

theorem balanced_congr {f g : Flc} (h : Balanced f) (hg : Ledger g = Ledger f) : Balanced g := by
  simp only [Ledger, Prod.mk.injEq] at hg
  obtain ⟨he, hd, hc, ha, hw, hn⟩ := hg
  obtain ⟨hsum, hrising, hnano⟩ := h
  exact ⟨by rw [he, hd, hc, accountSum, ha, hw]; exact hsum, ha ▸ hrising, by rw [he, hn]; exact hnano⟩

section
variable {s t : State} (h : Balanced s.flc)
include h

theorem execFlaconSample_balanced {v i ok} (ht : execFlaconSample v i ok s = .next t) : Balanced t.flc := by
  simp only [execFlaconSample] at ht
  split at ht <;> cases ht
  · exact h
  · split
    · rw [fault_flc]
      exact balanced_more h _
    · exact balanced_more h _

theorem execIntervalClose_balanced (ht : execIntervalClose s = .next t) : Balanced t.flc := by
  simp only [execIntervalClose] at ht
  split at ht <;> cases ht
  · exact h
  · exact attributeNow_balanced s (balanced_close h s.flc.n _)

theorem execTick_balanced {n as} (ht : execTick n as s = .next t) : Balanced t.flc := by
  simp only [execTick] at ht
  split at ht <;> cases ht <;> exact h

theorem execPowerFail_balanced {mid} (ht : execPowerFail mid s = .next t) : Balanced t.flc := by
  simp only [execPowerFail] at ht
  split at ht <;> cases ht
  · exact h
  · refine balanced_congr h ?_
    simp only [modFlc]
    split <;> rfl

theorem execParam_balanced {i v} (ht : execParam i v s = .next t) : Balanced t.flc := by
  simp only [execParam] at ht
  split at ht <;> cases ht
  · exact h
  · refine balanced_congr h ?_
    simp only [modFlc]
    split <;> rfl

theorem balanced_of_unchanged_or {p : Prop} [Decidable p] {a : State} (ht : (if p then Host.Outcome.next s else .next a : Out) = .next t)
    (ha : Ledger a.flc = Ledger s.flc) : Balanced t.flc := by
  split at ht <;> cases ht
  · exact h
  · exact balanced_congr h ha

theorem balanced_of_or_unchanged {p : Prop} [Decidable p] {a : State} (ht : (if p then Host.Outcome.next a else .next s : Out) = .next t)
    (ha : Ledger a.flc = Ledger s.flc) : Balanced t.flc := by
  split at ht <;> cases ht
  · exact balanced_congr h ha
  · exact h

theorem meterCommand_balanced {c : Instr} (hc : MeterCommand c) (ht : exec c s = .next t) : Balanced t.flc := by
  rcases hc with ⟨v, i, ok, rfl⟩ | rfl | ⟨n, as, rfl⟩ | ⟨r, o, rfl⟩ | ⟨x, rfl⟩ | ⟨x, rfl⟩ | rfl | ⟨m, rfl⟩ | rfl | ⟨i, v, rfl⟩ | rfl | rfl
  · exact execFlaconSample_balanced h ht
  · exact execIntervalClose_balanced h ht
  · exact execTick_balanced h ht
  · cases ht
    exact h
  · exact balanced_of_or_unchanged h ht rfl
  · exact balanced_of_or_unchanged h ht rfl
  · exact balanced_of_unchanged_or h ht rfl
  · exact execPowerFail_balanced h ht
  · exact balanced_of_unchanged_or h ht rfl
  · exact execParam_balanced h ht
  · exact balanced_of_unchanged_or h ht rfl
  · exact balanced_of_unchanged_or h ht rfl

theorem recordNoted_balanced (bs : List Byte) : Balanced (recordNoted bs s).flc := by
  have hrefused : Balanced (recordRefused bs s).flc := balanced_congr h rfl
  rw [recordNoted]
  split
  · rw [fault_flc]
    exact hrefused
  · exact hrefused

/-- A RECORD keeps the balance until admission resumes. -/
theorem exec_record_balanced (bs : List Byte) : Does (.record bs) s fun t => ∃ u, Balanced u.flc ∧ (t = u ∨ t = endStall u) := by
  cases hon : s.flc.powered
  · exact ⟨s, exec_record_of_off hon, s, h, .inl rfl⟩
  cases hrec : parseRecord bs with
  | some x =>
    refine ⟨_, exec_record_of_valid hon hrec, _, ?_, (ite_eq_or_eq _ _ _).symm⟩
    exact attributeNow_balanced s (balanced_congr h rfl)
  | none =>
    have hnoted := recordNoted_balanced h bs
    cases hbuf : s.flc.hubBuf with
    | nil => exact ⟨_, exec_record_of_bad_done hon hrec hbuf, _, hnoted, .inl rfl⟩
    | cons r rs =>
      rcases Nat.lt_or_ge r.2.1 3 with hsent | hsent
      · refine ⟨_, exec_record_of_bad_again hon hrec hbuf hsent, _, ?_, .inl rfl⟩
        exact balanced_congr hnoted rfl
      · exact ⟨_, exec_record_of_bad_spent hon hrec hbuf hsent, _, hnoted, .inl rfl⟩

end

/-- A power-up gives DEVICE what the restored accounts and CLOSED leave of the restored energy. -/
theorem exec_powerUp_balanced (elapsed : BitVec 48) (high : Bool) {s : State} (hoff : s.flc.powered = false)
    (hroom : (restored s.flc).closed + accountSum (restored s.flc) ≤ restoredEnergy s.flc) (hrising : tabRising none (restored s.flc).accounts = true) :
    Does (.powerUp elapsed high) s fun t => Balanced t.flc ∧ t.flc.ePkg = restoredEnergy s.flc ∧ t.flc.waiting = [] := by
  refine ⟨_, if_neg (Bool.eq_false_iff.mp hoff), ⟨?_, hrising, ?_⟩, rfl, rfl⟩
  · change restoredEnergy s.flc = restoredEnergy s.flc - (restored s.flc).closed - accountSum (restored s.flc) + (restored s.flc).closed +
      accountSum (restored s.flc) + 0
    omega
  · exact Nat.le_of_eq (Nat.mul_div_cancel _ (by decide)).symm

/-- Settles O53: shares are floors and remainders (`sum_sharesOf`, `sum_apportion`), an interval attributed moves its energy
(`attributeTo_moves`), and each command keeps what the balance speaks of or moves within it (`meterCommand_balanced`). -/
theorem energyConserved : Obligations.EnergyConserved := by
  unfold Obligations.EnergyConserved
  refine ⟨fun ws e es => ?_, fun f w es hf => ?_, fun e ws hd => ⟨length_apportion e ws, sum_apportion e hd⟩, balanced_reset,
    fun c s t hc h ht => meterCommand_balanced h hc ht, fun bs s h => exec_record_balanced h bs,
    fun elapsed high s hoff hroom hrising => exec_powerUp_balanced elapsed high hoff hroom hrising⟩
  · intro d hd
    exact ⟨sum_sharesOf ws e es hd, fun x q h => mem_sharesOf h⟩
  · intro g
    obtain ⟨hsum, he, hw, -⟩ := attributeTo_moves f w es
    obtain ⟨hrising, htotal⟩ := hsum hf
    exact ⟨htotal, hrising, he, hw⟩

end Sys2Proof.Proofs
end

section
/-!
One step of the device (00_scope.md, 01_architecture.md R26): a command completes and leaves the queue, the front of the queue runs, and on an empty
queue a tick passes. And the state of reset (15_reset_boot.md R477).
-/
namespace Sys2Proof.Proofs
open Sys2Proof Sys2Proof.Machine

/-! ### Commands -/

/-- Every command answers a next state that keeps the queue, and the invariant where it holds: each by the law of its meaning. -/
theorem exec_kept {s₀ s : State} (hk : Kept s₀ s) : (c : Instr) → KeptOut s₀ (exec c s)
  | .matmul d tray => execMatmul_kept hk d tray
  | .expertMatmul d tray => execExpertMatmul_kept hk d tray
  | .routerTopk d => execRouterTopk_kept hk d
  | .gather d => execGather_kept hk d
  | .attnExact d => execAttnExact_kept hk d
  | .attnSillage d => execAttnSillage_kept hk d
  | .kvAppend d => execKvAppend_kept hk d
  | .norm d => execNorm_kept hk d
  | .softmax d => execSoftmax_kept hk d
  | .activation d => execActivation_kept hk d
  | .elementwise d => execElementwise_kept hk d
  | .rotary d => execRotary_kept hk d
  | .sample d => execSample_kept hk d
  | .convert d => execConvert_kept hk d
  | .vectorKernel d => execVectorKernel_kept hk d
  | .trayAllreduce d peers => execTrayAllreduce_kept hk d peers
  | .trayAllgather d peers => execTrayAllgather_kept hk d peers
  | .trayAlltoall d peers => execTrayAlltoall_kept hk d peers
  | .trayBroadcast d peers => execTrayBroadcast_kept hk d peers
  | .collectiveTimeout d => execCollectiveTimeout_kept hk d
  | .reissueAttempt d => execReissueAttempt_kept hk d
  | .add d a b => execAdd_kept hk d a b
  | .sub d a b => execSub_kept hk d a b
  | .mul d a b => execMul_kept hk d a b
  | .fma d a b c => execFma_kept hk d a b c
  | .div d a b => execDiv_kept hk d a b
  | .sqrt d a => execSqrt_kept hk d a
  | .rcp d a => execRcp_kept hk d a
  | .rsqrt d a => execRsqrt_kept hk d a
  | .exp2 d a => execExp2_kept hk d a
  | .log2 d a => execLog2_kept hk d a
  | .neg d a => execNeg_kept hk d a
  | .abs d a => execAbs_kept hk d a
  | .min d a b => execMin_kept hk d a b
  | .max d a b => execMax_kept hk d a b
  | .lt d a b => execLt_kept hk d a b
  | .le d a b => execLe_kept hk d a b
  | .eq d a b => execEq_kept hk d a b
  | .sel d a b c => execSel_kept hk d a b c
  | .cvtbf d a => execCvtbf_kept hk d a
  | .ld d a => execLd_kept hk d a
  | .ldc d n => execLdc_kept hk d n
  | .idx d => execIdx_kept hk d
  | .st a => execSt_kept hk a
  | .rsum d a => execRsum_kept hk d a
  | .rmax d a => execRmax_kept hk d a
  | .rmin d a => execRmin_kept hk d a
  | .stackReady n => execStackReady_kept hk n
  | .accordReadyTimeout d => execAccordReadyTimeout_kept hk d
  | .operationBoundary d => execOperationBoundary_kept hk d
  | .copyComplete key => execCopyComplete_kept hk key
  | .sliceEnd d => execSliceEnd_kept hk d
  | .stepOverrun c => execStepOverrun_kept hk c
  | .resultRelease c => execResultRelease_kept hk c
  | .holdTimerExpiry c => execHoldTimerExpiry_kept hk c
  | .deadlineExpiry c => execDeadlineExpiry_kept hk c
  | .ctxSqTail p full v => execCtxSqTail_kept hk p full v
  | .ctxCqHead p full v => execCtxCqHead_kept hk p full v
  | .ctxRqTail p full v => execCtxRqTail_kept hk p full v
  | .ctxOutAck p full v => execCtxOutAck_kept hk p full v
  | .contextEnable p v => execContextEnable_kept hk p v
  | .contextDisable p v => execContextDisable_kept hk p v
  | .ctxVfmap r v idx w => execCtxVfmap_kept hk r v idx w
  | .request c h b => execRequest_kept hk c h b
  | .cancel c h target => execCancel_kept hk c h target
  | .nop c h => execNop_kept hk c h
  | .formulaLoad c h a n => execFormulaLoad_kept hk c h a n
  | .coreReadDone c core => execCoreReadDone_kept hk c core
  | .weightChunk c h a n hd => execWeightChunk_kept hk c h a n hd
  | .chunkVerified c data => execChunkVerified_kept hk c data
  | .summaryExchangeDone hd sums => execSummaryExchangeDone_kept hk hd sums
  | .unload c h hd => execUnload_kept hk c h hd
  | .unloadReleaseDone hd => execUnloadReleaseDone_kept hk hd
  | .bind c h hd sv slot => execBind_kept hk c h hd sv slot
  | .unbind c h => execUnbind_kept hk c h
  | .pin c h b => execPin_kept hk c h b
  | .coalesceTimerExpiry c => execCoalesceTimerExpiry_kept hk c
  | .capacityWaitTimer c => execCapacityWaitTimer_kept hk c
  | .tilingsInstalled d => execTilingsInstalled_kept hk d
  | .capacityRemove r u => execCapacityRemove_kept hk r u
  | .capacityReturn r u => execCapacityReturn_kept hk r u
  | .drainComplete kind unit => execDrainComplete_kept hk kind unit
  | .placementQuery r idx => execPlacementQuery_kept hk r idx
  | .placementQueryDone => execPlacementQueryDone_kept hk
  | .segmentDispatch g b k => execSegmentDispatch_kept hk g b k
  | .segmentComplete g b ys => execSegmentComplete_kept hk g b ys
  | .selectionForm k => execSelectionForm_kept hk k
  | .calibrationDue b temp => execCalibrationDue_kept hk b temp
  | .calibrationFitDone g b gain offset temp map nominal mean16 sd16 jump => execCalibrationFitDone_kept hk g b gain offset temp map nominal mean16 sd16 jump
  | .calibrationInstall g b => execCalibrationInstall_kept hk g b
  | .calibrationRetry g b => execCalibrationRetry_kept hk g b
  | .frameReceive ch red f => execFrameReceive_kept hk ch red f
  | .frameAck ch rseq => execFrameAck_kept hk ch rseq
  | .frameNak ch rseq => execFrameNak_kept hk ch rseq
  | .frameCredit src dst red n => execFrameCredit_kept hk src dst red n
  | .pathRemap e => execPathRemap_kept hk e
  | .steerPendingWrite ep plane slot line dest d => execSteerPendingWrite_kept hk ep plane slot line dest d
  | .steerSlotRetune ep plane slot => execSteerSlotRetune_kept hk ep plane slot
  | .steerSlotReady ep plane slot pass => execSteerSlotReady_kept hk ep plane slot pass
  | .c3PacketArrival t p => execC3PacketArrival_kept hk t p
  | .mergeWindowExpiry t k => execMergeWindowExpiry_kept hk t k
  | .epC3PacketArrival n inward p => execEpC3PacketArrival_kept hk n inward p
  | .epMergeWindowExpiry n inward k => execEpMergeWindowExpiry_kept hk n inward k
  | .reductionAdd t p => execReductionAdd_kept hk t p
  | .laserGate f site => execLaserGate_kept hk f site
  | .laserUngate f site => execLaserUngate_kept hk f site
  | .laserFailure f site => execLaserFailure_kept hk f site
  | .laserFailoverDone f b => execLaserFailoverDone_kept hk f b
  | .diagnosticPulse f site ua pass => execDiagnosticPulse_kept hk f site ua pass
  | .ringUnlock r light => execRingUnlock_kept hk r light
  | .ringSweepDone r lock => execRingSweepDone_kept hk r lock
  | .baseTempPublish dies fields => execBaseTempPublish_kept hk dies fields
  | .laneReplace idx b lane errs => execLaneReplace_kept hk idx b lane errs
  | .bundleCrcReplay idx b => execBundleCrcReplay_kept hk idx b
  | .reservoirRefresh j bank => execReservoirRefresh_kept hk j bank
  | .refreshIntervalRelax j => execRefreshIntervalRelax_kept hk j
  | .reservoirScrub j off errs => execReservoirScrub_kept hk j off errs
  | .dramScrub p off err last => execDramScrub_kept hk p off err last
  | .channelRetrain p c finish rate => execChannelRetrain_kept hk p c finish rate
  | .dramTrainingDone p found => execDramTrainingDone_kept hk p found
  | .regionEntryChange n base limit attr => execRegionEntryChange_kept hk n base limit attr
  | .granuleZeroed g => execGranuleZeroed_kept hk g
  | .dmaGo n b v => execDmaGo_kept hk n b v
  | .dmaResume n b v => execDmaResume_kept hk n b v
  | .dmaAbort n r => execDmaAbort_kept hk n r
  | .dmaReadComplete n bs => execDmaReadComplete_kept hk n bs
  | .dmaLineCommit n k => execDmaLineCommit_kept hk n k
  | .accessFailure a uncorrectable => execAccessFailure_kept hk a uncorrectable
  | .retryGapExpiry a => execRetryGapExpiry_kept hk a
  | .hostCompletionTimeout a => execHostCompletionTimeout_kept hk a
  | .chkGo e r v => execChkGo_kept hk e r v
  | .chkStop e r n bs => execChkStop_kept hk e r n bs
  | .chkComplete e bs => execChkComplete_kept hk e bs
  | .linkLightDetected b j => execLinkLightDetected_kept hk b j
  | .linkUp b j bad far asym => execLinkUp_kept hk b j bad far asym
  | .linkTrainTimeout b j => execLinkTrainTimeout_kept hk b j
  | .codewordReceive b j fec word slots => execCodewordReceive_kept hk b j fec word slots
  | .linkDown b j => execLinkDown_kept hk b j
  | .fabLaneReplace b j lane errs ring => execFabLaneReplace_kept hk b j lane errs ring
  | .fabricRequestSend a => execFabricRequestSend_kept hk a
  | .readLine src detour tag ctx addr => execReadLine_kept hk src detour tag ctx addr
  | .writeLine src detour tag ctx claim addr mask data => execWriteLine_kept hk src detour tag ctx claim addr mask data
  | .atomicAdd src detour tag ctx claim addr operand => execAtomicAdd_kept hk src detour tag ctx claim addr operand
  | .atomicCas src detour tag ctx claim addr operand compare => execAtomicCas_kept hk src detour tag ctx claim addr operand compare
  | .atomicMin src detour tag ctx claim addr operand => execAtomicMin_kept hk src detour tag ctx claim addr operand
  | .atomicMax src detour tag ctx claim addr operand => execAtomicMax_kept hk src detour tag ctx claim addr operand
  | .atomicSwap src detour tag ctx claim addr operand => execAtomicSwap_kept hk src detour tag ctx claim addr operand
  | .completion src tag status result => execCompletion_kept hk src tag status result
  | .completionData src tag status line => execCompletionData_kept hk src tag status line
  | .keepalive d heard => execKeepalive_kept hk d heard
  | .keepaliveSend => execKeepaliveSend_kept hk
  | .peerKeepaliveTimeout d => execPeerKeepaliveTimeout_kept hk d
  | .requestPoisonTimeout d tag => execRequestPoisonTimeout_kept hk d tag
  | .timeReq src => execTimeReq_kept hk src
  | .timeExchangeTimer => execTimeExchangeTimer_kept hk
  | .timeResponse src t2 t3 => execTimeResponse_kept hk src t2 t3
  | .gtSlew => execGtSlew_kept hk
  | .fabMsgSqTail full v => execFabMsgSqTail_kept hk full v
  | .fabMsgCqHead full v => execFabMsgCqHead_kept hk full v
  | .fabMsgRqTail full v => execFabMsgRqTail_kept hk full v
  | .messageSend ver bundle tag len addr body => execMessageSend_kept hk ver bundle tag len addr body
  | .messageReceive bundle tag body bufs => execMessageReceive_kept hk bundle tag body bufs
  | .msgRingsEnable vector => execMsgRingsEnable_kept hk vector
  | .msgRingsDisable vector => execMsgRingsDisable_kept hk vector
  | .commitRecord c tag lines rec_ image req frames => execCommitRecord_kept hk c tag lines rec_ image req frames
  | .mirrorAckTimeout c => execMirrorAckTimeout_kept hk c
  | .leaseRequest pair set dev tSend => execLeaseRequest_kept hk pair set dev tSend
  | .renew pair set dev => execRenew_kept hk pair set dev
  | .release pair set dev => execRelease_kept hk pair set dev
  | .markStale pair set dev => execMarkStale_kept hk pair set dev
  | .markValid pair set dev => execMarkValid_kept hk pair set dev
  | .grant set claim valid => execGrant_kept hk set claim valid
  | .refuse set valid => execRefuse_kept hk set valid
  | .leaseAck set => execLeaseAck_kept hk set
  | .leaseRenewTimer set => execLeaseRenewTimer_kept hk set
  | .leaseGuardStop set => execLeaseGuardStop_kept hk set
  | .leaseExpiry pair set => execLeaseExpiry_kept hk pair set
  | .authorityTakeover pair reports => execAuthorityTakeover_kept hk pair reports
  | .pairTake r set => execPairTake_kept hk r set
  | .resyncComplete set => execResyncComplete_kept hk set
  | .failback set taken => execFailback_kept hk set taken
  | .provisionCtx mgmt ctx dom cls weight maxOut maxTokens maxInst period stepUs boundUs => execProvisionCtx_kept hk mgmt ctx dom cls weight maxOut maxTokens maxInst period stepUs boundUs
  | .unprovisionCtx mgmt ctx => execUnprovisionCtx_kept hk mgmt ctx
  | .setDomain mgmt dom t1 t2 bw sil planes slots => execSetDomain_kept hk mgmt dom t1 t2 bw sil planes slots
  | .moveStack mgmt stack dest => execMoveStack_kept hk mgmt stack dest
  | .slotSet mgmt slot enable minSvn x y => execSlotSet_kept hk mgmt slot enable minSvn x y
  | .setPolicy mgmt strict => execSetPolicy_kept hk mgmt strict
  | .getVersion path => execGetVersion_kept hk path
  | .getCapabilities path => execGetCapabilities_kept hk path
  | .negotiateAlgorithms path => execNegotiateAlgorithms_kept hk path
  | .getDigests path => execGetDigests_kept hk path
  | .getCertificate path => execGetCertificate_kept hk path
  | .challenge path => execChallenge_kept hk path
  | .getMeasurements path => execGetMeasurements_kept hk path
  | .keyExchange path => execKeyExchange_kept hk path
  | .finish path ok => execFinish_kept hk path ok
  | .ideKm path stream install => execIdeKm_kept hk path stream install
  | .lockInterfaceRequest vf => execLockInterfaceRequest_kept hk vf
  | .tdiUnlock vf error => execTdiUnlock_kept hk vf error
  | .powerSample power vin iin est => execPowerSample_kept hk power vin iin est
  | .halfHoldTimeout => execHalfHoldTimeout_kept hk
  | .overcurrent => execOvercurrent_kept hk
  | .drydownEvaluation => execDrydownEvaluation_kept hk
  | .capWrite r v => execCapWrite_kept hk r v
  | .vinExcursion => execVinExcursion_kept hk
  | .pllLocked d => execPllLocked_kept hk d
  | .vcoreRampDone d => execVcoreRampDone_kept hk d
  | .replicaSample idx slacks => execReplicaSample_kept hk idx slacks
  | .marginRecovery d => execMarginRecovery_kept hk d
  | .thermalSample idx readings => execThermalSample_kept hk idx readings
  | .throttleStep idx => execThrottleStep_kept hk idx
  | .thermalCeilingRise d => execThermalCeilingRise_kept hk d
  | .powerDomainRampDone p => execPowerDomainRampDone_kept hk p
  | .refclkLost => execRefclkLost_kept hk
  | .holdoverExpiry => execHoldoverExpiry_kept hk
  | .refclkReturn => execRefclkReturn_kept hk
  | .diePllUnlock idx srOk => execDiePllUnlock_kept hk idx srOk
  | .coldRst straps rails => execColdRst_kept hk straps rails
  | .standbyPowerOn straps held => execStandbyPowerOn_kept hk straps held
  | .mainPowerLoss => execMainPowerLoss_kept hk
  | .tripCoolExpiry => execTripCoolExpiry_kept hk
  | .bootWatchdogExpiry => execBootWatchdogExpiry_kept hk
  | .perst => execPerst_kept hk
  | .warm => execWarm_kept hk
  | .vfFunctionLevelReset v => execVfFunctionLevelReset_kept hk v
  | .resetRelease => execResetRelease_kept hk
  | .kick r v => execKick_kept hk r v
  | .watchdogExpiry => execWatchdogExpiry_kept hk
  | .fatalError kind idx addr => execFatalError_kept hk kind idx addr
  | .dieLocalReset idx srOk => execDieLocalReset_kept hk idx srOk
  | .dieLocalResetDone n pass found bundles => execDieLocalResetDone_kept hk n pass found bundles
  | .suspendExpiry c => execSuspendExpiry_kept hk c
  | .imageReadDone readOk dirs img factoryOk => execImageReadDone_kept hk readOk dirs img factoryOk
  | .recoveryGo => execRecoveryGo_kept hk
  | .recoveryImageLoaded readOk img factoryOk => execRecoveryImageLoaded_kept hk readOk img factoryOk
  | .warmupDone => execWarmupDone_kept hk
  | .warmupTimeout => execWarmupTimeout_kept hk
  | .flaconSample v idx ok => execFlaconSample_kept hk v idx ok
  | .intervalClose => execIntervalClose_kept hk
  | .tick n acts => execTick_kept hk n acts
  | .record bs => execRecord_kept hk bs
  | .read r off => execRead_kept hk r off
  | .setTime t => execSetTime_kept hk t
  | .timeSet t => execTimeSet_kept hk t
  | .journalSnapshot => execJournalSnapshot_kept hk
  | .powerFail mid => execPowerFail_kept hk mid
  | .powerUp elapsed sealHigh => execPowerUp_kept hk elapsed sealHigh
  | .sealOpen => execSealOpen_kept hk
  | .param idx v => execParam_kept hk idx v
  | .sealClose => execSealClose_kept hk
  | .heartbeat idx => execHeartbeat_kept hk idx
  | .heartbeatTimeout idx => execHeartbeatTimeout_kept hk idx
  | .tileSilent t => execTileSilent_kept hk t
  | .admissionStallTimeout => execAdmissionStallTimeout_kept hk
  | .hubFltAck r v => execHubFltAck_kept hk r v
  | .injectLaneErrors r => execInjectLaneErrors_kept hk r
  | .injectChannelLoss r => execInjectChannelLoss_kept hk r
  | .injectRingUnlock r => execInjectRingUnlock_kept hk r
  | .injectLaserOff r => execInjectLaserOff_kept hk r
  | .injectSramDoubleBit r => execInjectSramDoubleBit_kept hk r
  | .injectTileLost r => execInjectTileLost_kept hk r
  | .injectDieLost r restore => execInjectDieLost_kept hk r restore
  | .injectReservoirDoubleBit r => execInjectReservoirDoubleBit_kept hk r
  | .injectT2Uncorrectable r => execInjectT2Uncorrectable_kept hk r
  | .injectLinkDown r => execInjectLinkDown_kept hk r
  | .injectReductionFault r => execInjectReductionFault_kept hk r
  | .injectionRestore pass => execInjectionRestore_kept hk pass
  | .arithClr r c => execArithClr_kept hk r c
  | .freeze r w => execFreeze_kept hk r w
  | .telClr r w => execTelClr_kept hk r w
  | .loRegisterRead r off => execLoRegisterRead_kept hk r off
  | .lockWrite r off v => execLockWrite_kept hk r off v
  | .registerWrite r t f => execRegisterWrite_kept hk r t f
  | .extest pins inn => execExtest_kept hk pins inn
  | .idcode => execIdcode_kept hk
  | .samplePreload pins inn => execSamplePreload_kept hk pins inn
  | .highz => execHighz_kept hk
  | .clamp => execClamp_kept hk
  | .extestPulse pins inn => execExtestPulse_kept hk pins inn
  | .extestTrain pins inn => execExtestTrain_kept hk pins inn
  | .bypass => execBypass_kept hk
  | .tapReset => execTapReset_kept hk
  | .channelLossOfSignal ch => execChannelLossOfSignal_kept hk ch
  | .regulatorFault p => execRegulatorFault_kept hk p
  | .sillageBankFault g b => execSillageBankFault_kept hk g b
  | .messageSentConfirm bundle written => execMessageSentConfirm_kept hk bundle written
  | .vbatBrownOut => execVbatBrownOut_kept hk
  | .faultLogCoalesceExpiry => execFaultLogCoalesceExpiry_kept hk
  | .hostReadCompletion c w bs => execHostReadCompletion_kept hk c w bs
  | .tdiStart vf => execTdiStart_kept hk vf

/-- Settles O5, by `exec_kept`. -/
theorem everyCommandCompletes : Obligations.EveryCommandCompletes := by
  unfold Obligations.EveryCommandCompletes
  intro c s
  obtain ⟨t, ht, hpending, -⟩ := exec_kept (Kept.refl s) c
  exact ⟨t, ht, hpending⟩

theorem step_of_command (c : Instr) (rest : List Instr) (s : State) : step { s with pending := c :: rest } = exec c { s with pending := rest } := rfl

/-- Settles O1: it is the equation of `step` on a queue that is not empty. -/
theorem stepRunsFront : Obligations.StepRunsFront := by
  unfold Obligations.StepRunsFront
  exact step_of_command

/-! ### The state of reset -/

theorem regVal_reset {o : Nat} (h : o ≠ 0x300000) : regVal State.reset o = regReset o := by
  simp [regVal, State.reset, tabGet, tabFind, h]

theorem inv_reset : Inv State.reset := ⟨⟨rfl, rfl⟩, ⟨by decide, by decide, by decide⟩, rfl⟩

theorem dieUp_reset (i : Nat) : dieUp State.reset i = false := rfl

theorem bootReady_reset : bootReady State.reset = false := by decide +kernel

/-- Settles O3: nothing is listed in the tables of the state of reset but RST_CAUSE. -/
theorem resetState : Obligations.ResetState := by
  unfold Obligations.ResetState
  exact ⟨rfl, inv_reset, rfl, fun _ => regVal_reset, fun _ => rfl, dieUp_reset, fun _ => rfl, rfl, rfl, rfl, bootReady_reset⟩

/-! ### A tick -/

theorem step_of_idle {s : State} (h : s.pending = []) : step s = .next (idle s) := by
  simp only [step, h]

theorem tickGt_of_free {s : State} (h : s.fab.time.hold = 0) : tickGt s = { s with gt := s.gt + 1 } := if_neg (by omega)

theorem tickGt_of_held {s : State} {n : Nat} (h : s.fab.time.hold = n + 1) :
    tickGt s = { s with fab := { s.fab with time := { s.fab.time with hold := n } } } := by
  simp [tickGt, modTime, modFab, h]

theorem runOut_of_still {α : Type} {f : α → State → Out} {s : State} (h : ∀ x, f x s = .next s) (xs : List α) : runOut xs f s = s := by
  induction xs with
  | nil => rfl
  | cons x xs ih =>
    change runOut xs f (after (f x) s) = s
    rw [after, h x]
    exact ih

theorem runIf_of_still {f : State → Out} {s : State} (h : f s = .next s) (due : Bool) : runIf due f s = s := by
  cases due
  · rfl
  · simp [runIf, after, h]

theorem runOut_nil {α : Type} (f : α → State → Out) (s : State) : runOut [] f s = s := rfl

theorem runIf_false (f : State → Out) (s : State) : runIf false f s = s := rfl

/-- The device of reset at any tick, with any host memory. -/
def resetAt (g : Nat) (h : List (Nat × Byte)) : State := { State.reset with gt := g, hostMem := h }

section
variable (g : Nat) (h : List (Nat × Byte))

theorem stacksOf_resetAt (d : Nat) : stacksOf (resetAt g h) d = [] := rfl

theorem powerTimers_resetAt : powerTimers (resetAt g h) = resetAt g h := by
  have hhalf : execHalfHoldTimeout (resetAt g h) = .next (resetAt g h) := rfl
  have hover : execHoldoverExpiry (resetAt g h) = .next (resetAt g h) := rfl
  have hmargin (d : BitVec 3) : execMarginRecovery d (resetAt g h) = .next (resetAt g h) := by
    have hlowest : (clkOf (resetAt g h) d.toNat).marginCeil = 0 := rfl
    simp [execMarginRecovery, hlowest]
  have hthrottle (i : BitVec 5) : execThrottleStep i (resetAt g h) = .next (resetAt g h) := rfl
  have hceil (d : BitVec 3) : execThermalCeilingRise d (resetAt g h) = .next (resetAt g h) := rfl
  have hrelax (j : BitVec 3) : execRefreshIntervalRelax j (resetAt g h) = .next (resetAt g h) := rfl
  have hcool : execTripCoolExpiry (resetAt g h) = .next (resetAt g h) := rfl
  have hboot : execBootWatchdogExpiry (resetAt g h) = .next (resetAt g h) := rfl
  have hwatch : execWatchdogExpiry (resetAt g h) = .next (resetAt g h) := rfl
  have hwarm : execWarmupTimeout (resetAt g h) = .next (resetAt g h) := rfl
  have hramps : (resetAt g h).pwr.ramps = [] := rfl
  have hsamples : (resetAt g h).pwr.samples = [] := rfl
  simp only [powerTimers, hramps, hsamples, ne_eq, not_true_eq_false, decide_false, Bool.and_false, runIf_false, runIf_of_still hhalf, runIf_of_still hover,
    runOut_of_still hmargin, runOut_of_still hthrottle, runOut_of_still hceil, runOut_of_still hrelax, runIf_of_still hcool, runIf_of_still hboot,
    runIf_of_still hwatch, runIf_of_still hwarm]

theorem recordTimers_resetAt : recordTimers (resetAt g h) = resetAt g h := by
  have hheld (n : Nat) : (pairSet (resetAt g h) n).held = false := by
    match n with
    | 0 => rfl
    | 1 => rfl
    | n + 2 => rfl
  have hguard (i : BitVec 1) : execLeaseGuardStop i (resetAt g h) = .next (resetAt g h) := by simp [execLeaseGuardStop, hheld]
  have hrenew (i : BitVec 1) : execLeaseRenewTimer i (resetAt g h) = .next (resetAt g h) := by simp [execLeaseRenewTimer, hheld]
  have hstall : runIf (duePast (resetAt g h) ((resetAt g h).flc.stall.map (· + 1000000000))) execAdmissionStallTimeout (resetAt g h) = resetAt g h := rfl
  have hacks : (resetAt g h).pair.unacked = [] := rfl
  have hauth : (resetAt g h).pair.auth = [] := rfl
  simp only [recordTimers, hstall, hacks, hauth, List.filter_nil, runOut_nil, runOut_of_still hguard, runOut_of_still hrenew]

theorem runTimers_resetAt : runTimers (resetAt g h) = resetAt g h := by
  have hsilence : silenceTimers (resetAt g h) = resetAt g h := rfl
  have hshare : shareTimers (resetAt g h) = resetAt g h := rfl
  have hctx : ctxTimers (resetAt g h) = resetAt g h := rfl
  have hunit : unitTimers (resetAt g h) = resetAt g h := rfl
  simp only [runTimers, hsilence, powerTimers_resetAt, recordTimers_resetAt, hshare, hctx, hunit]

theorem followFields_resetAt : followFields (resetAt g h) = resetAt g h := by
  have hboot : bootReady (resetAt g h) = false := bootReady_reset
  simp [followFields, hboot]

theorem noteLimits_resetAt : noteLimits (resetAt g h) = resetAt g h := by
  simp [noteLimits, stacksOf_resetAt]

theorem foldl_of_still {α : Type} {f : State → α → State} {s : State} (h : ∀ x, f s x = s) (xs : List α) : xs.foldl f s = s := by
  induction xs with
  | nil => rfl
  | cons x xs ih => rw [List.foldl_cons, h x, ih]

theorem followGroups_resetAt : followGroups (resetAt g h) = resetAt g h := by
  refine foldl_of_still (fun n => ?_) _
  have hoff : pdOf (resetAt g h) (41 + n) = .off := rfl
  have hbase : (resetAt g h).base.ready = false := rfl
  simp [hoff, hbase]

theorem idle_resetAt : idle (resetAt g h) = resetAt (g + 1) h := by
  have hmgmt : runMgmt 8192 (resetAt g h) = resetAt g h := rfl
  have hloads : loadChannels (resetAt g h) = resetAt g h := rfl
  have howed : payOwed (resetAt g h) = resetAt g h := rfl
  have hcmds : runCmds (resetAt g h) = resetAt g h := rfl
  have hdma : endDmaTick (resetAt g h) = resetAt g h := rfl
  have hlost : poisonLost (resetAt g h) = resetAt g h := rfl
  have hsilent : askSilent (resetAt g h) = resetAt g h := rfl
  have htrim : trimWaiting (resetAt g h) = resetAt g h := rfl
  have hreads : armReads (resetAt g h) = resetAt g h := rfl
  have htick : tickGt (resetAt g h) = resetAt (g + 1) h := rfl
  have hlaunch : launchAll (resetAt (g + 1) h) = resetAt (g + 1) h := rfl
  have hmesh : meshTick (resetAt (g + 1) h) = resetAt (g + 1) h := rfl
  simp only [idle, hmgmt, hloads, howed, hcmds, runTimers_resetAt, followGroups_resetAt, followFields_resetAt, hdma, hlost, hsilent, htrim,
    noteLimits_resetAt, hreads, htick, hlaunch, hmesh]

end

/-- Settles O2: a step on an empty queue is `idle`, whose tick is `tickGt_of_free` or `tickGt_of_held`; from reset every part of it leaves the
device as it is (`idle_resetAt`). -/
theorem stepIdleTicks : Obligations.StepIdleTicks := by
  unfold Obligations.StepIdleTicks
  refine ⟨fun s hidle => ⟨_, _, step_of_idle hidle, rfl, tickGt_of_free, fun n => tickGt_of_held⟩, fun g h => ?_⟩
  exact (step_of_idle rfl).trans (congrArg Host.Outcome.next (idle_resetAt g h))

end Sys2Proof.Proofs
end

section
/-!
The test access port (19_package_pins.md R592 to R595).
-/
namespace Sys2Proof.Proofs
open Sys2Proof Sys2Proof.Machine

theorem setTap_holds (s : State) (i : TapInstr) : TapHolds s i (setTap s i) := by
  refine ⟨fun h => if_neg ?_, fun hwaits hfree => if_pos ?_⟩
  · rcases h with h | h <;> simp [h]
  · simp [hwaits, hfree]

theorem drivingScan_of_low {s : State} (h : s.tap.coldLow = true) (i : TapInstr) (pins inn : BitVec 2306) :
    drivingScan s i pins inn = scanCells (setTap s i) pins inn := if_pos h

theorem drivingScan_of_high {s : State} (h : s.tap.coldLow = false) (i : TapInstr) (pins inn : BitVec 2306) :
    drivingScan s i pins inn = scanBypass (setTap s i) := if_neg (Bool.eq_false_iff.mp h)

theorem exec_of_drivingScan {s : State} {pins inn : BitVec 2306} {c : Instr} {i : TapInstr}
    (h : (c, i) ∈ [(Instr.extest pins inn, TapInstr.extest), (.extestPulse pins inn, .extestPulse), (.extestTrain pins inn, .extestTrain)]) :
    exec c s = .next (drivingScan s i pins inn) := by
  simp only [List.mem_cons, Prod.mk.injEq, List.not_mem_nil, or_false] at h
  rcases h with ⟨rfl, rfl⟩ | ⟨rfl, rfl⟩ | ⟨rfl, rfl⟩ <;> rfl

theorem exec_of_scanBypass {s : State} {c : Instr} {i : TapInstr}
    (h : (c, i) ∈ [(Instr.highz, TapInstr.highz), (.clamp, .clamp), (.bypass, .bypass)]) : exec c s = .next (scanBypass (setTap s i)) := by
  simp only [List.mem_cons, Prod.mk.injEq, List.not_mem_nil, or_false] at h
  rcases h with ⟨rfl, rfl⟩ | ⟨rfl, rfl⟩ | ⟨rfl, rfl⟩ <;> rfl

theorem tapPins_of_high {s : State} (h : s.tap.coldLow = false) : tapPins s = .none := by simp [tapPins, h]

/-- Settles O57: each instruction is held as `setTap_holds` says, and scans the cells or the bypass register. -/
theorem testPort : Obligations.TestPort := by
  unfold Obligations.TestPort
  refine ⟨fun s pins inn c i hc => ?_, fun s pins inn => ⟨_, rfl, _, setTap_holds s _, rfl⟩, fun s => ?_, fun s => ⟨tapPins_of_high, fun hlow => ?_⟩⟩
  · refine ⟨_, exec_of_drivingScan hc, _, setTap_holds s i, fun hlow => ?_, fun hhigh => ?_⟩
    · rw [drivingScan_of_low hlow]; rfl
    · rw [drivingScan_of_high hhigh]; rfl
  · exact ⟨⟨_, rfl, _, setTap_holds s _, rfl⟩, fun c i hc => ⟨_, exec_of_scanBypass hc, _, setTap_holds s i, rfl⟩, ⟨_, rfl, setTap_holds s _⟩⟩
  · rw [tapPins, hlow]
    cases s.tap.ir <;> simp

end Sys2Proof.Proofs
end

section
/-!
Links of the tray fabric (11_tray_fabric.md R361 to R368): training, lost lanes, links that go down, and codewords.
-/
namespace Sys2Proof.Proofs
open Sys2Proof Sys2Proof.Machine

/-! ### One link changed -/

/-- Link `j` of bundle `b` is `x`; every other link, and the rest of the state, is as before. -/
def LinkPut (s t : State) (b j : Nat) (x : Link) : Prop :=
  linkOf t b j = x ∧ (∀ c k, c * 8 + k ≠ b * 8 + j → linkOf t c k = linkOf s c k) ∧ t = { s with fab := { s.fab with links := t.fab.links } }

theorem LinkPut.refl (s : State) (b j : Nat) : LinkPut s s b j (linkOf s b j) := ⟨rfl, fun _ _ _ => rfl, rfl⟩

theorem LinkPut.trans {s t u : State} {b j : Nat} {x y : Link} (h : LinkPut s t b j x) (g : LinkPut t u b j y) : LinkPut s u b j y := by
  obtain ⟨-, hother, ht⟩ := h
  obtain ⟨hy, hother', hu⟩ := g
  refine ⟨hy, fun c k hne => (hother' c k hne).trans (hother c k hne), ?_⟩
  rw [hu, ht]

theorem linkOf_modLink (s : State) (b j : Nat) (f : Link → Link) : linkOf (modLink s b j f) b j = f (linkOf s b j) := tabGet_set_same _ _ _ _

theorem modLink_linkPut (s : State) (b j : Nat) (f : Link → Link) : LinkPut s (modLink s b j f) b j (f (linkOf s b j)) :=
  ⟨linkOf_modLink s b j f, fun _ _ hne => tabGet_set_other _ _ _ _ hne, rfl⟩

theorem LinkPut.mod {s t : State} {b j : Nat} {x : Link} (h : LinkPut s t b j x) (f : Link → Link) : LinkPut s (modLink t b j f) b j (f x) := by
  have hx := h.1
  exact h.trans (hx ▸ modLink_linkPut t b j f)

@[simp] theorem fault_fab (s : State) (a : FaultArgs) : (fault s a).fab = s.fab := by
  obtain ⟨_, _, _, _, h⟩ := fault_faultNoted s a
  rw [h]

@[simp] theorem linkOf_fault (s : State) (a : FaultArgs) (b j : Nat) : linkOf (fault s a) b j = linkOf s b j := by
  rw [linkOf, fault_fab]
  rfl

theorem linkUp_iff (s : State) (b j : Nat) : linkUp s b j = true ↔ (linkOf s b j).st = .up ∨ (linkOf s b j).st = .narrowed := by
  simp [linkUp]

theorem linkUp_of_not_serving {s : State} {b j : Nat} (hup : (linkOf s b j).st ≠ .up) (hnarrowed : (linkOf s b j).st ≠ .narrowed) : linkUp s b j = false := by
  simp [linkUp, hup, hnarrowed]

/-! ### Training -/

section
variable {s : State} {b : BitVec 4} {j : BitVec 3}

/-- Light may start training in a link: it exists, its domain is on, and it is dark, miswired, or down with its next try due. -/
def MayTrain (s : State) (b j : Nat) : Prop :=
  b < 12 ∧ pdOf s (29 + b) = .on ∧
    ((linkOf s b j).st = .dark ∨ (linkOf s b j).st = .miswired ∨ ((linkOf s b j).st = .down ∧ ∀ t, (linkOf s b j).retry = some t → t ≤ s.gt))

theorem exec_linkLightDetected_of_may (h : MayTrain s b.toNat j.toNat) :
    exec (.linkLightDetected b j) s = .next (modLink s b.toNat j.toNat fun x => { x with
      st := .training, lanes := 0, spare := none, trainBy := s.gt + 5000000, retry := none, far := none, tx := [], seq := 0, expect := 0, part := [], bad := [] }) := by
  obtain ⟨hexists, hon, hst⟩ := h
  refine if_neg ?_
  rcases hst with hst | hst | ⟨hst, hdue⟩
  · simp [linkExists, hexists, hon, hst]
  · simp [linkExists, hexists, hon, hst]
  · revert hdue
    cases (linkOf s b.toNat j.toNat).retry <;> simp [linkExists, hexists, hon, hst]

theorem exec_linkLightDetected_of_barred (h : ¬ MayTrain s b.toNat j.toNat) : exec (.linkLightDetected b j) s = .next s := by
  refine if_pos ?_
  by_contra hc
  simp only [linkExists, Bool.or_eq_true, Bool.not_eq_true', decide_eq_false_iff_not, not_or, not_not, decide_eq_true_eq] at hc
  obtain ⟨⟨hexists, hst⟩, hon⟩ := hc
  refine h ⟨hexists, hon, ?_⟩
  revert hst
  cases (linkOf s b.toNat j.toNat).st <;> simp
  cases (linkOf s b.toNat j.toNat).retry <;> simp

theorem exec_linkTrainTimeout_of_due (hst : (linkOf s b.toNat j.toNat).st = .training) (hdue : RunOut s (linkOf s b.toNat j.toNat).trainBy) :
    exec (.linkTrainTimeout b j) s = .next (modLink s b.toNat j.toNat fun x => { x with st := .down, retry := some (s.gt + 100000000) }) :=
  if_pos (by simp [hst, (ranOut_eq_true_iff _ _).mpr hdue])

theorem exec_linkTrainTimeout_of_idle (h : (linkOf s b.toNat j.toNat).st ≠ .training ∨ ¬ RunOut s (linkOf s b.toNat j.toNat).trainBy) :
    exec (.linkTrainTimeout b j) s = .next s :=
  if_neg (by simpa [ranOut_eq_true_iff, imp_iff_not_or] using h)

/-! ### The end of training -/

/-- A link trains, in time. -/
def Trains (s : State) (b j : Nat) : Prop := b < 12 ∧ (linkOf s b j).st = .training ∧ s.gt ≤ (linkOf s b j).trainBy

theorem linkUp_of_trains {b j : Nat} (h : Trains s b j) : linkUp s b j = false := by
  obtain ⟨-, hst, -⟩ := h
  exact linkUp_of_not_serving (by simp [hst]) (by simp [hst])

/-- The lanes 0 to 7 that failed. -/
def lostLanes (bad : BitVec 9) : List Nat := (List.range 8).filter bad.getLsbD
/-- The lane that a good spare replaces. -/
def sparedLane (bad : BitVec 9) : Option Nat := if bad.getLsbD 8 then none else (lostLanes bad).head?
/-- The lanes that a link then has. -/
def goodLanes (bad : BitVec 9) : Nat := 8 - ((lostLanes bad).length - b2n (sparedLane bad).isSome)

variable {bad : BitVec 9} {far : FarEnd} {asym : BitVec 16}

theorem trainLink_of_not_trains (h : ¬ Trains s b.toNat j.toNat) : trainLink s b.toNat j.toNat bad far asym = s := by
  refine if_pos ?_
  by_contra hc
  simp only [linkExists, Bool.or_eq_true, Bool.not_eq_true', decide_eq_false_iff_not, not_or, not_not, decide_eq_true_eq] at hc
  obtain ⟨⟨hexists, hst⟩, hlate⟩ := hc
  exact h ⟨hexists, hst, Nat.not_lt.mp hlate⟩

variable (h : Trains s b.toNat j.toNat)
include h

theorem not_barred_of_trains : ¬ (!linkExists b.toNat || (linkOf s b.toNat j.toNat).st ≠ .training || (linkOf s b.toNat j.toNat).trainBy < s.gt) = true := by
  obtain ⟨hexists, hst, htime⟩ := h
  simp [linkExists, hexists, hst, htime]

theorem trainLink_of_miswired (hfar : farOk s b.toNat j.toNat far = false) : trainLink s b.toNat j.toNat bad far asym =
    fault (modLink s b.toNat j.toNat fun x => { x with st := .miswired, far := some far }) { cls := 0x18, unit := unitId 0x0A (b.toNat * 16 + j.toNat), outcome := 3 } :=
  (if_neg (not_barred_of_trains h)).trans (if_pos (by simp [hfar]))

theorem trainLink_of_few (hfar : farOk s b.toNat j.toNat far = true) (hlanes : goodLanes bad < 4) : trainLink s b.toNat j.toNat bad far asym =
    modLink s b.toNat j.toNat fun x => { x with st := .down, retry := some (s.gt + 100000000) } :=
  (if_neg (not_barred_of_trains h)).trans ((if_neg (by simp [hfar])).trans (if_pos hlanes))

theorem trainLink_of_enough (hfar : farOk s b.toNat j.toNat far = true) (hlanes : 4 ≤ goodLanes bad) : trainLink s b.toNat j.toNat bad far asym =
    modLink s b.toNat j.toNat fun x => { x with
      st := if goodLanes bad = 8 then .up else .narrowed, lanes := goodLanes bad, spare := sparedLane bad, trainings := satAdd 16 x.trainings 1, far := some far
      asym := asym.toInt, bad := (List.range 9).filter bad.getLsbD } :=
  (if_neg (not_barred_of_trains h)).trans ((if_neg (by simp [hfar])).trans (if_neg (Nat.not_lt.mpr hlanes)))

end

section
variable {s : State} {b : BitVec 4} {j : BitVec 3} {bad : BitVec 9} {far : FarEnd} {asym : BitVec 16}

/-- A link that does not come into service forms no pair. -/
theorem exec_linkUp_of_not_up (h : linkUp (trainLink s b.toNat j.toNat bad far asym) b.toNat j.toNat = true → linkUp s b.toNat j.toNat = true) :
    exec (.linkUp b j bad far asym) s = .next (trainLink s b.toNat j.toNat bad far asym) := by
  refine if_neg ?_
  simp only [Bool.and_eq_true, Bool.not_eq_true', not_and, Bool.not_eq_false]
  exact fun hup => h hup.2

theorem exec_linkUp_of_other (h7 : b ≠ 7#4) (h8 : b ≠ 8#4) : exec (.linkUp b j bad far asym) s = .next (trainLink s b.toNat j.toNat bad far asym) :=
  if_neg (by simp [h7, h8])

theorem exec_linkUp_of_mirror (hb : b = 7#4 ∨ b = 8#4) (hup : linkUp (trainLink s b.toNat j.toNat bad far asym) b.toNat j.toNat = true)
    (hdown : linkUp s b.toNat j.toNat = false) : exec (.linkUp b j bad far asym) s = .next (formPair (trainLink s b.toNat j.toNat bad far asym)) :=
  if_pos (by simp only [hb, hup, hdown, Bool.or_eq_true, decide_eq_true_eq, Bool.and_eq_true, Bool.not_false, and_self])

end

/-! ### A lost lane -/

/-- A lane counts as lost: of a link in service, not known to be bad, after a failed ring or too many symbol errors. -/
def LaneLost (s : State) (b j lane errs : Nat) (ring : Bool) : Prop :=
  linkUp s b j = true ∧ lane ≤ 8 ∧ lane ∉ (linkOf s b j).bad ∧ (ring = true ∨ regBits s 0x3000004 23 16 * 1000 < errs)

/-- The spare serves already, or is bad. -/
def SpareGone (l : Link) : Prop := l.spare ≠ none ∨ 8 ∈ l.bad

/-- A link's lane is marked as bad. -/
def markLane (s : State) (b j lane : Nat) : State := modLink s b j fun x => { x with bad := x.bad ++ [lane] }

theorem markLane_linkPut (s : State) (b j lane : Nat) :
    LinkPut s (markLane s b j lane) b j { linkOf s b j with bad := (linkOf s b j).bad ++ [lane] } := modLink_linkPut _ _ _ _

section
variable {s : State} {b j lane errs : Nat} {ring : Bool}

theorem replaceFabLane_of_kept (h : ¬ LaneLost s b j lane errs ring) : replaceFabLane s b j lane errs ring = (s, false) := by
  refine if_pos ?_
  by_contra hc
  simp only [Bool.or_eq_true, Bool.not_eq_true', decide_eq_true_eq, Bool.and_eq_true, not_or, Bool.not_eq_false, not_and, Nat.not_lt, Nat.not_le,
    List.contains_iff_mem] at hc
  obtain ⟨⟨⟨hup, hlane⟩, hbad⟩, herrs⟩ := hc
  refine h ⟨hup, hlane, hbad, ?_⟩
  cases ring
  · exact .inr (herrs rfl)
  · exact .inl rfl

theorem not_spared_of_gone (hgone : SpareGone (linkOf s b j)) : ¬ ((linkOf s b j).spare.isNone && !(linkOf s b j).bad.contains 8) = true := by
  rcases hgone with hspare | hgone
  · simp [hspare]
  · simp [hgone]

variable (h : LaneLost s b j lane errs ring)
include h

theorem not_kept_of_laneLost :
    ¬ (!linkUp s b j || 8 < lane || (linkOf s b j).bad.contains lane || (!ring && errs ≤ regBits s 0x3000004 23 16 * 1000)) = true := by
  obtain ⟨hup, hlane, hbad, herrs⟩ := h
  simp only [Bool.or_eq_true, Bool.not_eq_true', decide_eq_true_eq, Bool.and_eq_true, List.contains_iff_mem, not_or, Bool.not_eq_false, not_and, Nat.not_lt,
    Nat.not_le]
  exact ⟨⟨⟨hup, hlane⟩, hbad⟩, fun hring => herrs.resolve_left (by simp [hring])⟩

theorem replaceFabLane_of_unusedSpare (hlane : lane = 8) (hspare : (linkOf s b j).spare = none) :
    replaceFabLane s b j lane errs ring = (markLane s b j lane, false) :=
  (if_neg (not_kept_of_laneLost h)).trans (if_pos (by simp [hlane, hspare]))

theorem replaceFabLane_of_spared (hlane : lane ≠ 8) (hspare : (linkOf s b j).spare = none) (hgood : 8 ∉ (linkOf s b j).bad) :
    replaceFabLane s b j lane errs ring =
      (linkFault (modLink (markLane s b j lane) b j fun x => { x with spare := some lane }) b j 2 lane false, false) :=
  (if_neg (not_kept_of_laneLost h)).trans ((if_neg (by simp [hlane])).trans (if_pos (by simp [hspare, hgood])))

variable (hgone : SpareGone (linkOf s b j))
include hgone

theorem not_unusedSpare_of_gone : ¬ (lane = 8 && (linkOf s b j).spare.isNone) = true := by
  obtain ⟨-, -, hbad, -⟩ := h
  rcases hgone with hspare | hgone
  · simp [hspare]
  · simp only [Bool.and_eq_true, decide_eq_true_eq, not_and]
    rintro rfl
    exact absurd hgone hbad

theorem replaceFabLane_of_narrowed (hlanes : 4 < (linkOf s b j).lanes) : replaceFabLane s b j lane errs ring =
    (linkFault (modLink (markLane s b j lane) b j fun x => { x with st := .narrowed, lanes := x.lanes - 1, spare := if lane = 8 then none else x.spare }) b j 3 lane false, false) :=
  (if_neg (not_kept_of_laneLost h)).trans ((if_neg (not_unusedSpare_of_gone h hgone)).trans ((if_neg (not_spared_of_gone hgone)).trans
    (if_neg (Nat.not_le.mpr hlanes))))

theorem replaceFabLane_of_down (hlanes : (linkOf s b j).lanes ≤ 4) : replaceFabLane s b j lane errs ring = (markLane s b j lane, true) :=
  (if_neg (not_kept_of_laneLost h)).trans ((if_neg (not_unusedSpare_of_gone h hgone)).trans ((if_neg (not_spared_of_gone hgone)).trans (if_pos hlanes)))

end

section
variable {s t : State} {b : BitVec 4} {j : BitVec 3} {lane : BitVec 4} {errs : BitVec 24} {ring : Bool}

theorem exec_fabLaneReplace_of_served (h : replaceFabLane s b.toNat j.toNat lane.toNat errs.toNat ring = (t, false)) :
    exec (.fabLaneReplace b j lane errs ring) s = .next t := by
  change execFabLaneReplace b j lane errs ring s = _
  simp [execFabLaneReplace, h]

theorem exec_fabLaneReplace_of_lost (h : replaceFabLane s b.toNat j.toNat lane.toNat errs.toNat ring = (t, true)) :
    exec (.fabLaneReplace b j lane errs ring) s = .next (dropLink t b.toNat j.toNat 3 false) := by
  change execFabLaneReplace b j lane errs ring s = _
  simp [execFabLaneReplace, h]

end

/-! ### Codewords -/

theorem foldl_emit_modLink (b j : Nat) (f : Link → Link) (ps : List TxPacket) (s : State) :
    modLink (ps.foldl (emit b j) s) b j f = ps.foldl (emit b j) (modLink s b j f) := by
  induction ps generalizing s with
  | nil => rfl
  | cons p ps ih => exact ih (emit b j s p)

/-- The packets of a link that an acknowledgement leaves. -/
def unacked (l : Link) (ack : Nat) : List TxPacket := l.tx.filter fun p => decide (32768 ≤ (ack + 65536 - p.seq) % 65536)

/-- A link after a codeword's trailer (11 R365, R366). -/
def trailed (l : Link) (slots : List Byte) : Link :=
  let w := field slots 626 4
  let tx := unacked l (field slots 624 2)
  { l with tx := tx, replay := if w % 2 = 1 then satAdd 32 l.replay tx.length else l.replay, credits := l.credits + w / 2 }

/-- The packets that a trailer asks for go out again. -/
def sendAgain (b j : Nat) (tx : List TxPacket) (slots : List Byte) (s : State) : State :=
  if field slots 626 4 % 2 = 1 then tx.foldl (emit b j) s else s

theorem modLink_sendAgain (b j : Nat) (f : Link → Link) (tx : List TxPacket) (slots : List Byte) (s : State) :
    modLink (sendAgain b j tx slots s) b j f = sendAgain b j tx slots (modLink s b j f) := by
  simp only [sendAgain]
  split
  · exact foldl_emit_modLink b j f tx s
  · rfl

theorem takeTrailer_spec (s : State) (b j : Nat) (slots : List Byte) :
    ∃ u, LinkPut s u b j (trailed (linkOf s b j) slots) ∧ takeTrailer s b j slots = sendAgain b j (unacked (linkOf s b j) (field slots 624 2)) slots u := by
  have hack : LinkPut s (ackLink s b j (field slots 624 2)) b j { linkOf s b j with tx := unacked (linkOf s b j) (field slots 624 2) } := modLink_linkPut _ _ _ _
  have htx : (linkOf (ackLink s b j (field slots 624 2)) b j).tx = unacked (linkOf s b j) (field slots 624 2) := congrArg Link.tx hack.1
  by_cases hnak : field slots 626 4 % 2 = 1
  · refine ⟨modLink (modLink (ackLink s b j (field slots 624 2)) b j fun l => { l with replay := satAdd 32 l.replay l.tx.length })
      b j fun l => { l with credits := l.credits + field slots 626 4 / 2 }, ?_, ?_⟩
    · simpa only [trailed, hnak, if_true] using (hack.mod _).mod _
    · simp only [takeTrailer, hnak, if_true, nakLink, htx, sendAgain]
      exact foldl_emit_modLink _ _ _ _ _
  · refine ⟨modLink (ackLink s b j (field slots 624 2)) b j fun l => { l with credits := l.credits + field slots 626 4 / 2 }, ?_, ?_⟩
    · simpa only [trailed, hnak, if_false] using hack.mod _
    · simp only [takeTrailer, hnak, if_false, sendAgain]

section
variable {s : State} {b : BitVec 4} {j : BitVec 3} {fec : BitVec 2} {word : BitVec 20} {slots : List Byte}

/-- A codeword that forward error correction and its check value let through. -/
def GoodWord (fec : BitVec 2) (slots : List Byte) : Prop := fec.toNat < 2 ∧ slots.length = 640 ∧ codewordOk slots = true

/-- The count of corrected codewords after one. -/
def ceAfter (l : Link) (fec : BitVec 2) : Nat := if fec = 1#2 then min (l.ce + 1) (2 ^ 32 - 1) else l.ce

/-- What an expected codeword makes of its link. -/
def received (l : Link) (fec : BitVec 2) (slots : List Byte) : Link :=
  trailed { l with ce := ceAfter l fec, expect := (l.expect + 1) % 65536 } slots

/-- A corrected codeword is counted. -/
def countCe (s : State) (b j : Nat) (fec : BitVec 2) : State := if fec = 1#2 then modLink s b j fun x => { x with ce := satAdd 32 x.ce 1 } else s

theorem countCe_linkPut (s : State) (b j : Nat) (fec : BitVec 2) : LinkPut s (countCe s b j fec) b j { linkOf s b j with ce := ceAfter (linkOf s b j) fec } := by
  by_cases h : fec = 1#2
  · simp only [countCe, ceAfter, if_pos h]
    exact modLink_linkPut _ _ _ _
  · simp only [countCe, ceAfter, if_neg h]
    exact .refl s b j

theorem exec_codewordReceive_of_down (h : linkUp s b.toNat j.toNat = false) : exec (.codewordReceive b j fec word slots) s = .next s :=
  if_pos (by rw [h]; rfl)

variable (hup : linkUp s b.toNat j.toNat = true)
include hup

theorem exec_codewordReceive_of_bad (hbad : ¬ GoodWord fec slots) :
    exec (.codewordReceive b j fec word slots) s = .next (send s (.linkNak b.toNat j.toNat (linkOf s b.toNat j.toNat).expect)) := by
  refine (if_neg (by simp [hup])).trans (if_pos ?_)
  by_contra hc
  simp only [Bool.or_eq_true, decide_eq_true_eq, Bool.not_eq_true', not_or, Nat.not_le, not_not, Bool.not_eq_false] at hc
  obtain ⟨⟨hfec, hlen⟩, hcrc⟩ := hc
  exact hbad ⟨hfec, hlen, hcrc⟩

variable (hgood : GoodWord fec slots)
include hgood

/-- A good codeword of a link in service, judged by its number. -/
theorem exec_codewordReceive_of_good : exec (.codewordReceive b j fec word slots) s =
    (let l := linkOf s b.toNat j.toNat
     let s1 := countCe s b.toNat j.toNat fec
     let seq := word.toNat % 65536
     if seq ≠ l.expect then
       if 32768 ≤ (seq + 65536 - l.expect) % 65536 then .next s1 else .next (send s1 (.linkNak b.toNat j.toNat l.expect))
     else
       let s2 := takeTrailer (modLink s1 b.toNat j.toNat fun x => { x with expect := (x.expect + 1) % 65536 }) b.toNat j.toNat slots
       if word.toNat / 65536 ≠ 1 || 9 ≤ b.toNat then .next s2
       else
         let r := parsePackets 80 (l.part ++ slots.take 624)
         .next (r.1.foldl (receivePacket b.toNat) (modLink s2 b.toNat j.toNat fun x => { x with part := r.2 }))) := by
  obtain ⟨hfec, hlen, hcrc⟩ := hgood
  exact (if_neg (by simp [hup])).trans (if_neg (by simp [hfec, hlen, hcrc]))

theorem exec_codewordReceive_of_old (hold : word.toNat % 65536 ≠ (linkOf s b.toNat j.toNat).expect)
    (h : 32768 ≤ (word.toNat % 65536 + 65536 - (linkOf s b.toNat j.toNat).expect) % 65536) :
    exec (.codewordReceive b j fec word slots) s = .next (countCe s b.toNat j.toNat fec) :=
  (exec_codewordReceive_of_good hup hgood).trans ((if_pos hold).trans (if_pos h))

theorem exec_codewordReceive_of_gap (hold : word.toNat % 65536 ≠ (linkOf s b.toNat j.toNat).expect)
    (h : (word.toNat % 65536 + 65536 - (linkOf s b.toNat j.toNat).expect) % 65536 < 32768) :
    exec (.codewordReceive b j fec word slots) s =
      .next (send (countCe s b.toNat j.toNat fec) (.linkNak b.toNat j.toNat (linkOf s b.toNat j.toNat).expect)) :=
  (exec_codewordReceive_of_good hup hgood).trans ((if_pos hold).trans (if_neg (Nat.not_le.mpr h)))

variable (hnext : word.toNat % 65536 = (linkOf s b.toNat j.toNat).expect)
include hnext

theorem exec_codewordReceive_of_control (h : word.toNat / 65536 ≠ 1 ∨ 9 ≤ b.toNat) : ∃ u,
    LinkPut s u b.toNat j.toNat (received (linkOf s b.toNat j.toNat) fec slots) ∧ exec (.codewordReceive b j fec word slots) s =
      .next (sendAgain b.toNat j.toNat (unacked (linkOf s b.toNat j.toNat) (field slots 624 2)) slots u) := by
  have hput := (countCe_linkPut s b.toNat j.toNat fec).mod fun x => { x with expect := (x.expect + 1) % 65536 }
  obtain ⟨u, hu, hagain⟩ := takeTrailer_spec (modLink (countCe s b.toNat j.toNat fec) b.toNat j.toNat fun x => { x with expect := (x.expect + 1) % 65536 }) b.toNat j.toNat slots
  rw [hput.1] at hu hagain
  refine ⟨u, hput.trans hu, (exec_codewordReceive_of_good hup hgood).trans ((if_neg (not_not.mpr hnext)).trans ((if_pos ?_).trans (congrArg _ hagain)))⟩
  simpa using h

theorem exec_codewordReceive_of_data (htype : word.toNat / 65536 = 1) (hb : b.toNat < 9) : ∃ u,
    LinkPut s u b.toNat j.toNat { received (linkOf s b.toNat j.toNat) fec slots with part := (parsePackets 80 ((linkOf s b.toNat j.toNat).part ++ slots.take 624)).2 } ∧
      exec (.codewordReceive b j fec word slots) s = .next ((parsePackets 80 ((linkOf s b.toNat j.toNat).part ++ slots.take 624)).1.foldl (receivePacket b.toNat)
        (sendAgain b.toNat j.toNat (unacked (linkOf s b.toNat j.toNat) (field slots 624 2)) slots u)) := by
  have hput := (countCe_linkPut s b.toNat j.toNat fec).mod fun x => { x with expect := (x.expect + 1) % 65536 }
  obtain ⟨u, hu, hagain⟩ := takeTrailer_spec (modLink (countCe s b.toNat j.toNat fec) b.toNat j.toNat fun x => { x with expect := (x.expect + 1) % 65536 }) b.toNat j.toNat slots
  rw [hput.1] at hu hagain
  refine ⟨modLink u b.toNat j.toNat fun x => { x with part := (parsePackets 80 ((linkOf s b.toNat j.toNat).part ++ slots.take 624)).2 }, (hput.trans hu).mod _,
    (exec_codewordReceive_of_good hup hgood).trans ((if_neg (not_not.mpr hnext)).trans ((if_neg ?_).trans ?_))⟩
  · simp [htype, hb]
  · simp only [hagain, modLink_sendAgain]
    rfl

end

/-- Settles O37: light, training and lost lanes by their equations with the one link that changes (`modLink_linkPut`), and a codeword by
`exec_codewordReceive_of_…`, whose trailer is `takeTrailer_spec`. -/
theorem fabricLinks : Obligations.FabricLinks := by
  unfold Obligations.FabricLinks
  intro s b j l only may
  refine ⟨fun h => ⟨_, exec_linkLightDetected_of_barred h, rfl⟩, fun h => ⟨_, exec_linkLightDetected_of_may h, modLink_linkPut _ _ _ _⟩, fun bad far asym => ?_,
    fun hst hdue => ⟨_, exec_linkTrainTimeout_of_due hst hdue, modLink_linkPut _ _ _ _⟩, fun h => ⟨_, exec_linkTrainTimeout_of_idle h, rfl⟩,
    fun h => ⟨_, if_neg (Bool.eq_false_iff.mp h), rfl⟩, fun h => ⟨_, if_pos h, rfl⟩, fun lane errs ring => ?_, fun fec word slots => ?_⟩
  · intro lost spare lanes trains ok
    refine ⟨fun h => ?_, fun h hfar => ?_, fun h hfar hlanes => ?_, fun h hfar hlanes => ?_⟩
    · have hsame := trainLink_of_not_trains (bad := bad) (far := far) (asym := asym) h
      exact ⟨_, exec_linkUp_of_not_up (hsame.symm ▸ id), hsame⟩
    · have hput := modLink_linkPut s b.toNat j.toNat fun x => { x with st := .miswired, far := some far }
      have hmis := trainLink_of_miswired (bad := bad) (asym := asym) h hfar
      have hdown : linkUp (trainLink s b.toNat j.toNat bad far asym) b.toNat j.toNat = false := by
        rw [hmis]
        refine linkUp_of_not_serving ?_ ?_ <;> simp [hput.1]
      exact ⟨_, exec_linkUp_of_not_up (hdown ▸ fun hup => nomatch hup), _, hput, hmis⟩
    · have hput := modLink_linkPut s b.toNat j.toNat fun x => { x with st := .down, retry := some (s.gt + 100000000) }
      have hfew := trainLink_of_few (bad := bad) (asym := asym) h hfar hlanes
      have hdown : linkUp (trainLink s b.toNat j.toNat bad far asym) b.toNat j.toNat = false := by
        rw [hfew]
        refine linkUp_of_not_serving ?_ ?_ <;> simp [hput.1]
      exact ⟨_, exec_linkUp_of_not_up (hdown ▸ fun hup => nomatch hup), hfew ▸ hput⟩
    · have henough := trainLink_of_enough (bad := bad) (asym := asym) h hfar hlanes
      by_cases hb : b = 7#4 ∨ b = 8#4
      · refine ⟨_, exec_linkUp_of_mirror hb ?_ ?_, _, henough ▸ modLink_linkPut _ _ _ _, fun h7 h8 => absurd hb (by simp [h7, h8]), fun _ => rfl⟩
        · rw [henough, linkUp_iff, linkOf_modLink]
          exact ite_eq_or_eq _ _ _
        · exact linkUp_of_trains h
      · have hother := not_or.mp hb
        exact ⟨_, exec_linkUp_of_other hother.1 hother.2, _, henough ▸ modLink_linkPut _ _ _ _, fun _ _ => rfl, fun h => absurd h hb⟩
  · intro acts x replaced
    have hmark := markLane_linkPut s b.toNat j.toNat lane.toNat
    have hspare {n : BitVec 4} : n = 8#4 ↔ n.toNat = 8 := BitVec.toNat_eq
    refine ⟨fun h => ⟨_, exec_fabLaneReplace_of_served (replaceFabLane_of_kept h), rfl⟩,
      fun h hlane hnone => ⟨_, exec_fabLaneReplace_of_served (replaceFabLane_of_unusedSpare h (hspare.mp hlane) hnone), hmark⟩,
      fun h hlane hfree => ?_, fun h hgone hlanes => ?_, fun h hgone hlanes => ⟨_, exec_fabLaneReplace_of_lost (replaceFabLane_of_down h hgone hlanes), _, hmark, rfl⟩⟩
    · obtain ⟨hnone, hgood⟩ := not_or.mp hfree
      exact ⟨_, exec_fabLaneReplace_of_served (replaceFabLane_of_spared h (mt hspare.mpr hlane) (not_not.mp hnone) hgood), _,
        hmark.mod fun x => { x with spare := some lane.toNat }, rfl⟩
    · refine ⟨_, exec_fabLaneReplace_of_served (replaceFabLane_of_narrowed h hgone hlanes), _, ?_, rfl⟩
      have hput := hmark.mod fun x => { x with st := .narrowed, lanes := x.lanes - 1, spare := if lane.toNat = 8 then none else x.spare }
      simp only [← hspare] at hput ⊢
      exact hput
  · intro seq type good ce nak
    have hce := countCe_linkPut s b.toNat j.toNat fec
    refine ⟨fun h => ⟨_, exec_codewordReceive_of_down h, rfl⟩, fun hup hbad => ⟨_, exec_codewordReceive_of_bad hup hbad, rfl⟩, fun hup hgood hold => ?_,
      fun hup hgood hnext => ?_⟩
    · rcases Nat.lt_or_ge ((seq + 65536 - l.expect) % 65536) 32768 with h | h
      · exact ⟨_, exec_codewordReceive_of_gap hup hgood hold h, _, hce, fun hle => absurd h (Nat.not_lt.mpr hle), fun _ => rfl⟩
      · exact ⟨_, exec_codewordReceive_of_old hup hgood hold h, _, hce, fun _ => rfl, fun hlt => absurd hlt (Nat.not_lt.mpr h)⟩
    · intro tx w x again
      refine ⟨fun hcontrol => ?_, fun htype hb => ?_⟩
      · obtain ⟨u, hu, hexec⟩ := exec_codewordReceive_of_control hup hgood hnext hcontrol
        exact ⟨_, hexec, u, hu, rfl⟩
      · obtain ⟨u, hu, hexec⟩ := exec_codewordReceive_of_data hup hgood hnext htype hb
        exact ⟨_, hexec, u, hu, rfl⟩

end Sys2Proof.Proofs
end

section
/-!
Requests to peers of the tray (11_tray_fabric.md R367, R369, R373 to R379): sent, joined, combined or poisoned, and completed.
-/
namespace Sys2Proof.Proofs
open Sys2Proof Sys2Proof.Machine

theorem filter_unique {α : Type} {p : α → Bool} {pre post : List α} {x : α} (hother : ∀ y ∈ pre ++ post, p y = false) (hx : p x = true) :
    (pre ++ x :: post).filter p = [x] := by
  have hnone {ys : List α} (h : ∀ y ∈ ys, p y = false) : ys.filter p = [] := List.filter_eq_nil_iff.mpr fun y hy => Bool.eq_false_iff.mp (h y hy)
  rw [List.filter_append, List.filter_cons_of_pos hx, hnone fun y hy => hother y (List.mem_append_left _ hy),
    hnone fun y hy => hother y (List.mem_append_right _ hy), List.nil_append]

theorem find?_first {α : Type} {p : α → Bool} {pre post : List α} {x : α} (hpre : ∀ y ∈ pre, p y = false) (hx : p x = true) :
    (pre ++ x :: post).find? p = some x := by
  rw [List.find?_append, List.find?_eq_none.mpr fun y hy => Bool.eq_false_iff.mp (hpre y hy), Option.none_or, List.find?_cons_of_pos hx]

/-! ### FABRIC_REQUEST_SEND -/

theorem modFirstReq_first {p : FabReq → Bool} (f : FabReq → FabReq) {pre post : List FabReq} {r : FabReq} (hpre : ∀ q ∈ pre, p q = false) (hr : p r = true) :
    execFabricRequestSend.modFirstReq p f (pre ++ r :: post) = pre ++ f r :: post := by
  induction pre with
  | nil => exact if_pos hr
  | cons q pre ih =>
    exact (if_neg (Bool.eq_false_iff.mp (hpre q List.mem_cons_self))).trans (congrArg (q :: ·) (ih fun y hy => hpre y (List.mem_cons_of_mem _ hy)))

section
variable {s : State} {a : FabArgs}

/-- A request that goes to another device, under a tag that may be used. -/
def Sendable (s : State) (a : FabArgs) : Prop := a.addr.toNat / 2 ^ 45 ≠ s.rst.trayPos ∧ tagBusy s (a.addr.toNat / 2 ^ 45) a.tag.toNat = false

/-- An add that waits for one of its word (11 R375). -/
def AddWaits (s : State) (a : FabArgs) : Prop :=
  a.op = 0x10#6 ∧ (regVal s 0x3000004).getLsbD 1 = true ∧ a.dom.isSome = true ∧ (addInFlight s a = true ∨ ∃ b, b ∈ s.fab.batches ∧ sameWord b.first a = true)

theorem exec_fabricRequestSend_of_barred (h : ¬ Sendable s a) : exec (.fabricRequestSend a) s = .next s := by
  refine if_pos ?_
  by_contra hc
  simp only [Bool.or_eq_true, decide_eq_true_eq, not_or, Bool.not_eq_true] at hc
  exact h hc

/-- A read that joins one in flight (11 R374). -/
def JoinsRead (s : State) (a : FabArgs) : Prop := a.op = 0x01#6 ∧ (regVal s 0x3000004).getLsbD 0 = true ∧ s.fab.reqs.any (mayJoin · a) = true

/-- No read of the line completed in this tick that the request would join. -/
def NoneLate (s : State) (a : FabArgs) : Prop :=
  ¬ (a.op = 0x01#6 ∧ (regVal s 0x3000004).getLsbD 0 = true ∧ ∃ q, q ∈ s.fab.fresh ∧ q.at_ = s.gt ∧ mayJoin q.req a = true)

theorem not_joins (halone : ¬ JoinsRead s a) : ¬ ((decide (a.op = 0x01#6) && (regVal s 0x3000004).getLsbD 0) && s.fab.reqs.any (mayJoin · a)) = true := by
  simp only [Bool.and_eq_true, decide_eq_true_eq, and_assoc]
  exact halone

theorem fresh_of_noneLate (hlate : NoneLate s a) :
    (if (decide (a.op = 0x01#6) && (regVal s 0x3000004).getLsbD 0) = true then s.fab.fresh.find? fun q => decide (q.at_ = s.gt) && mayJoin q.req a else none) = none := by
  split
  · next hcombine =>
    simp only [Bool.and_eq_true, decide_eq_true_eq] at hcombine
    refine List.find?_eq_none.mpr fun q hq hjoin => hlate ⟨hcombine.1, hcombine.2, q, hq, ?_⟩
    simpa using hjoin
  · rfl

variable (hown : Sendable s a)
include hown

theorem not_barred_of_sendable : ¬ (decide (a.addr.toNat / 2 ^ 45 = myPos s) || tagBusy s (a.addr.toNat / 2 ^ 45) a.tag.toNat) = true := by
  obtain ⟨hother, hfree⟩ := hown
  simp only [Bool.or_eq_true, decide_eq_true_eq, myPos, hother, hfree, or_self, Bool.false_eq_true, not_false_eq_true]

/-- A request that goes to another device under a free tag: it joins, is given a line of the tick, waits, or is sent. -/
theorem exec_fabricRequestSend_of_sendable : exec (.fabricRequestSend a) s =
    (let combine := a.op = 0x01#6 && (regVal s 0x3000004).getLsbD 0
     if combine && s.fab.reqs.any (mayJoin · a) then
       .next (bump (modFab s fun x => { x with reqs := execFabricRequestSend.modFirstReq (mayJoin · a) (fun r => { r with joiners := r.joiners ++ [a.who] }) x.reqs }) 0x3000050 1)
     else ((if combine then s.fab.fresh.find? fun q => decide (q.at_ = s.gt) && mayJoin q.req a else none).elim
       (let held := a.op = 0x10#6 && (regVal s 0x3000004).getLsbD 1 && a.dom.isSome && (addInFlight s a || s.fab.batches.any fun b => sameWord b.first a)
        if held then .next (holdAdd (noteWrite s a) a) else .next (issueOrPoison (noteWrite s a) a []))
       fun q => .next (bump (handOver (modFab s fun x => { x with fresh := x.fresh.map fun p => if p = q then { p with req := { p.req with joiners := p.req.joiners ++ [a.who] } } else p })
         a a.who q.status 0 true false q.line) 0x3000050 1))) := by
  refine (if_neg (not_barred_of_sendable hown)).trans ?_
  simp only
  split
  · rfl
  · split <;> rename_i h <;> simp only [h, Option.elim]

theorem exec_fabricRequestSend_of_joining (hjoin : JoinsRead s a) : exec (.fabricRequestSend a) s =
    .next (bump (modFab s fun x => { x with reqs := execFabricRequestSend.modFirstReq (mayJoin · a) (fun r => { r with joiners := r.joiners ++ [a.who] }) x.reqs }) 0x3000050 1) := by
  obtain ⟨hop, hon, hany⟩ := hjoin
  exact (exec_fabricRequestSend_of_sendable hown).trans (if_pos (by simp only [hop, hon, hany, decide_true, Bool.and_self]))

variable (halone : ¬ JoinsRead s a)
include halone

theorem exec_fabricRequestSend_of_late {q : ReadDone} (hop : a.op = 0x01#6) (hon : (regVal s 0x3000004).getLsbD 0 = true)
    (hq : (s.fab.fresh.find? fun q => decide (q.at_ = s.gt) && mayJoin q.req a) = some q) : exec (.fabricRequestSend a) s =
    .next (bump (handOver (modFab s fun x => { x with fresh := x.fresh.map fun p => if p = q then { p with req := { p.req with joiners := p.req.joiners ++ [a.who] } } else p })
         a a.who q.status 0 true false q.line) 0x3000050 1) := by
  refine (exec_fabricRequestSend_of_sendable hown).trans ((if_neg (not_joins halone)).trans ?_)
  simp only [hop, hon, decide_true, Bool.and_self, if_true, hq, Option.elim]

variable (hlate : NoneLate s a)
include hlate

theorem exec_fabricRequestSend_of_waits (hwaits : AddWaits s a) : exec (.fabricRequestSend a) s = .next (holdAdd (noteWrite s a) a) := by
  refine (exec_fabricRequestSend_of_sendable hown).trans ((if_neg (not_joins halone)).trans ?_)
  rw [fresh_of_noneLate hlate]
  obtain ⟨hop, hon, hdom, hsame⟩ := hwaits
  refine if_pos ?_
  simp only [hop, hon, hdom, decide_true, Bool.and_self, Bool.true_and, Bool.or_eq_true, List.any_eq_true]
  exact hsame

theorem exec_fabricRequestSend_of_sent (hgoes : ¬ AddWaits s a) : exec (.fabricRequestSend a) s = .next (issueOrPoison (noteWrite s a) a []) := by
  refine (exec_fabricRequestSend_of_sendable hown).trans ((if_neg (not_joins halone)).trans ?_)
  rw [fresh_of_noneLate hlate]
  refine if_neg ?_
  simp only [Bool.and_eq_true, decide_eq_true_eq, Bool.or_eq_true, List.any_eq_true, and_assoc]
  exact hgoes

end

theorem noteWrite_frame (s : State) (a : FabArgs) : ∃ reqs fresh batches, reqs.length = s.fab.reqs.length ∧
    noteWrite s a = { s with fab := { s.fab with reqs := reqs, fresh := fresh, batches := batches } } := by
  rw [noteWrite]
  split
  · exact ⟨_, _, _, rfl, rfl⟩
  · exact ⟨_, _, _, List.length_map _, rfl⟩

theorem holdAdd_frame (s : State) (a : FabArgs) : (holdAdd s a).fab.reqs = s.fab.reqs ∧ (holdAdd s a).sent = s.sent := by
  rw [holdAdd]
  split <;> exact ⟨rfl, rfl⟩

theorem issueOrPoison_of_path {s : State} {a : FabArgs} {p : Nat × Nat × Option Nat}
    (h : pathFor s (a.addr.toNat / 2 ^ 45) a.addr.toNat a.claim.toNat = some p) : issueOrPoison s a [] = issue s a [] p := by
  simp only [issueOrPoison, h]

theorem issueOrPoison_of_noPath {s : State} {a : FabArgs} (h : pathFor s (a.addr.toNat / 2 ^ 45) a.addr.toNat a.claim.toNat = none) :
    issueOrPoison s a [] = deliverPoison s a a.who false := by
  simp only [issueOrPoison, h, if_true]

/-! ### Poison and completions -/

theorem poisonWhere_of_none {s : State} {p : FabReq → Bool} (h : ∀ r ∈ s.fab.reqs, p r = false) : poisonWhere s p = s := by
  rw [poisonWhere, List.filter_eq_nil_iff.mpr fun r hr => Bool.eq_false_iff.mp (h r hr)]
  rfl

theorem poisonWhere_of_one {s : State} {p : FabReq → Bool} {pre post : List FabReq} {r : FabReq} (hreqs : s.fab.reqs = pre ++ r :: post)
    (hother : ∀ q ∈ pre ++ post, p q = false) (hr : p r = true) : poisonWhere s p = poisonReq s r := by
  rw [poisonWhere, hreqs, filter_unique hother hr, List.foldl_cons, List.foldl_nil]

section
variable {s : State} {src tag st result : Nat} {line : List Byte}

theorem completion_of_mine {r : FabReq} (h : ((poisonLate s src tag).fab.reqs.find? fun r => r.dev = src && r.args.tag.toNat = tag) = some r)
    (hwho : ∀ k, r.args.who ≠ .commit k) : completion s src tag st result line = retireReq (deliverAll (poisonLate s src tag) r st result line) r := by
  cases hk : r.args.who with
  | commit k => exact absurd hk (hwho k)
  | _ => simp only [completion, completeFab, h, hk]

theorem completion_of_commit {r : FabReq} {k : BitVec 12} (h : ((poisonLate s src tag).fab.reqs.find? fun r => r.dev = src && r.args.tag.toNat = tag) = some r)
    (hwho : r.args.who = .commit k) :
    completion s src tag st result line = commitAnswered (retireReq (deliverAll (poisonLate s src tag) r st result line) r) k.toNat st := by
  simp only [completion, completeFab, h, hwho]

variable (hmine : ((poisonLate s src tag).fab.reqs.find? fun r => r.dev = src && r.args.tag.toNat = tag) = none)
include hmine

theorem completion_of_relayed {r : Nat × Nat × Nat} (h : ((poisonLate s src tag).fab.relays.find? fun r => r.1 = src && r.2.1 = tag) = some r) :
    completion s src tag st result line =
      answerTo (modFab (poisonLate s src tag) fun x => { x with relays := x.relays.filter (· ≠ r) }) r.2.2 tag 0 ⟨st, result, line⟩ := by
  simp only [completion, completeFab, hmine, h]

variable (hrelay : ((poisonLate s src tag).fab.relays.find? fun r => r.1 = src && r.2.1 = tag) = none)
include hrelay

theorem completion_of_poisoned (h : (src, tag) ∈ (poisonLate s src tag).fab.poisoned) : completion s src tag st result line =
    bump (modFab (poisonLate s src tag) fun x => { x with poisoned := x.poisoned.filter (· ≠ (src, tag)) }) 0x300005C 1 := by
  simp only [completion, completeFab, hmine, hrelay, List.contains_iff_mem, h, if_true]

theorem completion_of_stray (h : (src, tag) ∉ (poisonLate s src tag).fab.poisoned) : completion s src tag st result line = poisonLate s src tag := by
  simp only [completion, completeFab, hmine, hrelay, List.contains_iff_mem, h, if_false]

end

/-- COMPLETION and COMPLETION_DATA are one operation. -/
theorem exec_completion_or_data (s : State) (src : BitVec 3) (tag : BitVec 16) (st : BitVec 8) (result : BitVec 64) (line : List Byte) (data : Bool) :
    exec (if data then .completionData src tag st line else .completion src tag st result) s =
      .next (completion s src.toNat tag.toNat st.toNat (if data then 0 else result.toNat) (if data then line.take 128 else [])) := by
  cases data <;> rfl

/-- Settles O38: a request is one of `exec_fabricRequestSend_of_…`, a timer poisons by `poisonWhere_of_…`, and a completion is one of
`completion_of_…` once the request whose time has passed is poisoned. -/
theorem fabricRequests : Obligations.FabricRequests := by
  unfold Obligations.FabricRequests
  refine ⟨fun s a => ?_, fun s d tag => ?_, fun old src tag st result line data => ?_⟩
  · intro d cfg joins own joining lately late waits
    refine ⟨fun h => ⟨_, exec_fabricRequestSend_of_barred h, rfl⟩, fun hown hjoin pre r post hreqs hpre hr => ?_, fun hown halone hlate pre q post hfresh hpre hq => ?_,
      fun hown halone hwaits => ?_, fun hown halone hlate hwaits p hp => ?_, fun hown halone hlate hwaits hp => ?_⟩
    · have hjoined := modFirstReq_first (p := (mayJoin · a)) (fun r => { r with joiners := r.joiners ++ [a.who] }) (post := post) hpre hr
      refine ⟨_, exec_fabricRequestSend_of_joining hown hjoin, _, ?_, bump_counted _ _ _⟩
      simp only [modFab, hreqs, hjoined]
    · have hfind : (s.fab.fresh.find? fun q => decide (q.at_ = s.gt) && mayJoin q.req a) = some q := by
        rw [hfresh]
        refine find?_first (fun y hy => ?_) ?_
        · have hnot : ¬ (y.at_ = s.gt ∧ mayJoin y.req a = true) := hpre y hy
          simpa using hnot
        · have hboth : q.at_ = s.gt ∧ mayJoin q.req a = true := hq
          simpa using hboth
      exact ⟨_, exec_fabricRequestSend_of_late hown halone hlate.1 hlate.2.1 hfind, _, rfl, bump_counted _ _ _⟩
    · have hnotRead : NoneLate s a := fun h => absurd (hwaits.1.symm.trans h.1) (by decide)
      obtain ⟨reqs, fresh, batches, hlen, hnoted⟩ := noteWrite_frame s a
      obtain ⟨hreqs, hsent⟩ := holdAdd_frame (noteWrite s a) a
      refine ⟨_, exec_fabricRequestSend_of_waits hown halone hnotRead hwaits, rfl, ?_, ?_⟩
      · rw [hreqs, hnoted]
        exact hlen
      · rw [hsent, hnoted]
    · obtain ⟨reqs, fresh, batches, -, hnoted⟩ := noteWrite_frame s a
      refine ⟨_, (exec_fabricRequestSend_of_sent hown halone hlate hwaits).trans (congrArg _ (issueOrPoison_of_path hp)), _, rfl, ?_, ?_, ?_, ?_⟩
      all_goals
        rw [hnoted]
        rfl
    · exact ⟨_, (exec_fabricRequestSend_of_sent hown halone hlate hwaits).trans (congrArg _ (issueOrPoison_of_noPath hp)), rfl⟩
  · intro due
    have hdue (r : FabReq) : (decide (r.dev = d.toNat) && decide (r.args.tag = tag) && ranOut s r.due) = true ↔ due r := by
      simp only [Bool.and_eq_true, decide_eq_true_eq, ranOut_eq_true_iff, and_assoc]
      exact Iff.rfl
    have hnot {r : FabReq} (h : ¬ due r) : (decide (r.dev = d.toNat) && decide (r.args.tag = tag) && ranOut s r.due) = false :=
      Bool.eq_false_iff.mpr (mt (hdue r).mp h)
    exact ⟨fun hnone => ⟨_, rfl, poisonWhere_of_none fun r hr => hnot (hnone r hr)⟩,
      fun pre r post hreqs hother hr => ⟨_, rfl, poisonWhere_of_one hreqs (fun q hq => hnot (hother q hq)) ((hdue r).mpr hr)⟩⟩
  · intro late
    have hlate (r : FabReq) : (decide (r.dev = src.toNat) && decide (r.args.tag.toNat = tag.toNat) && decide (r.due < old.gt)) = true ↔ late r := by
      simp only [Bool.and_eq_true, decide_eq_true_eq, and_assoc]
      exact Iff.rfl
    have hnot {r : FabReq} (h : ¬ late r) : (decide (r.dev = src.toNat) && decide (r.args.tag.toNat = tag.toNat) && decide (r.due < old.gt)) = false :=
      Bool.eq_false_iff.mpr (mt (hlate r).mp h)
    refine ⟨poisonLate old src.toNat tag.toNat, fun hnone => poisonWhere_of_none fun r hr => hnot (hnone r hr),
      fun pre r post hreqs hother hr => poisonWhere_of_one hreqs (fun q hq => hnot (hother q hq)) ((hlate r).mpr hr), ?_⟩
    have hexec := exec_completion_or_data old src tag st result line data
    exact ⟨fun r hr hwho => ⟨_, hexec, completion_of_mine hr hwho⟩, fun r k hr hwho => ⟨_, hexec, completion_of_commit hr hwho⟩,
      fun r hmine hr => ⟨_, hexec, completion_of_relayed hmine hr⟩, fun hmine hrelay h => ⟨_, hexec, _, rfl, completion_of_poisoned hmine hrelay h ▸ bump_counted _ _ _⟩,
      fun hmine hrelay h => ⟨_, hexec, completion_of_stray hmine hrelay h⟩⟩

end Sys2Proof.Proofs
end

section
/-!
Peers of the tray (11_tray_fabric.md R376, R377) and tray time (R384, R385).
-/
namespace Sys2Proof.Proofs
open Sys2Proof Sys2Proof.Machine

/-! ### Who is heard -/

/-- A keepalive of a peer has come on its own bundle, and its 4,000 ticks have not run out. -/
def Near (s : State) (e : Nat) : Prop := ∃ t, (peerOf s e).seen = some t ∧ ¬ RunOut s (t + 4000)

theorem hearsDirect_iff (s : State) (e : Nat) : hearsDirect s e = true ↔ Near s e := by
  unfold hearsDirect Near
  cases (peerOf s e).seen with
  | none => simp
  | some t => simp [ranOut_eq_false_iff]

theorem hearsDirect_of_not_near {s : State} {e : Nat} (h : ¬ Near s e) : hearsDirect s e = false := Bool.eq_false_iff.mpr (mt (hearsDirect_iff s e).mp h)

/-- A map of bits from a predicate, one more place at the top. -/
theorem bitmap_succ (n : Nat) (p : Nat → Bool) : bitmap (n + 1) p = bitmap n p + if p n then 2 ^ n else 0 := by
  simp [bitmap, List.range_succ]

theorem bitmap_lt (n : Nat) (p : Nat → Bool) : bitmap n p < 2 ^ n := by
  induction n with
  | zero => exact Nat.one_pos
  | succ n ih =>
    rw [bitmap_succ, Nat.pow_succ]
    split <;> omega

theorem testBit_bitmap {n q : Nat} (p : Nat → Bool) (h : q < n) : (bitmap n p).testBit q = p q := by
  induction n with
  | zero => exact absurd h (Nat.not_lt_zero q)
  | succ n ih =>
    have hlow := bitmap_lt n p
    have htop : (bitmap (n + 1) p).testBit n = p n := by
      rw [bitmap_succ]
      cases p n
      · exact Nat.testBit_lt_two_pow hlow
      · rw [if_pos rfl, Nat.add_comm, Nat.testBit_two_pow_add_eq, Nat.testBit_lt_two_pow hlow]
        rfl
    rcases Nat.lt_succ_iff_lt_or_eq.mp h with hlt | rfl
    · rw [bitmap_succ, ← ih hlt]
      split
      · rw [Nat.add_comm, Nat.testBit_two_pow_add_gt hlt]
      · rw [Nat.add_zero]
    · exact htop

theorem testBit_heardMap (s : State) {q : Nat} (h : q < 8) : (heardMap s).testBit q = true ↔ q ≠ s.rst.trayPos ∧ Near s q := by
  rw [heardMap, testBit_bitmap _ h, Bool.and_eq_true, decide_eq_true_eq, hearsDirect_iff]
  rfl

/-! ### Keepalives -/

/-- Peer `d` as a keepalive leaves it. -/
def heardFrom (s : State) (d heard : Nat) : State :=
  modFab s fun x => { x with peers := tabPut x.peers d { tabGet x.peers {} d with seen := some s.gt, heard := heard } }

theorem peerOf_tabPut_same (s : State) (d : Nat) (p : Peer) : peerOf (modFab s fun x => { x with peers := tabPut x.peers d p }) d = p := by
  simp [peerOf, modFab, tabGet]

theorem peerOf_tabPut_other (s : State) {d e : Nat} (p : Peer) (h : e ≠ d) : peerOf (modFab s fun x => { x with peers := tabPut x.peers d p }) e = peerOf s e := by
  simp [peerOf, modFab, tabGet, tabFind_put_other _ _ h]

theorem exec_keepalive_of_self {s : State} {d : BitVec 3} {heard : BitVec 8} (h : d.toNat = s.rst.trayPos) : exec (.keepalive d heard) s = .next s :=
  congrArg Host.Outcome.next (if_pos h)

theorem exec_keepalive_of_peer {s : State} {d : BitVec 3} {heard : BitVec 8} (h : d.toNat ≠ s.rst.trayPos) :
    exec (.keepalive d heard) s = .next (updatePeers (heardFrom s d.toNat heard.toNat)) := congrArg Host.Outcome.next (if_neg h)

/-! ### The state of a peer -/

/-- A peer through which another is reached (11 R376). -/
def Relays (s : State) (d e : Nat) : Prop :=
  e < 8 ∧ e ≠ s.rst.trayPos ∧ e ≠ d ∧ Near s e ∧ (∃ t, (peerOf s e).seen = some t ∧ s.gt ≤ t + 1500) ∧ (peerOf s e).heard.testBit d = true

/-- What the search for a detour asks of a peer. -/
def relaysTo (s : State) (d e : Nat) : Bool :=
  e ≠ myPos s && e ≠ d && hearsDirect s e && (match (peerOf s e).seen with | some t => decide (s.gt ≤ t + 1500) | none => false) && (peerOf s e).heard.testBit d

theorem relaysTo_iff {s : State} {d e : Nat} (h : e < 8) : relaysTo s d e = true ↔ Relays s d e := by
  have hseen : (match (peerOf s e).seen with | some t => decide (s.gt ≤ t + 1500) | none => false) = true ↔ ∃ t, (peerOf s e).seen = some t ∧ s.gt ≤ t + 1500 := by
    cases (peerOf s e).seen <;> simp
  simp only [relaysTo, Bool.and_eq_true, decide_eq_true_eq, hearsDirect_iff, hseen, Relays, h, true_and, and_assoc]
  rfl

theorem detourTo_of_off {s : State} (d : Nat) (h : ¬ (regVal s 0x3000004).getLsbD 2 = true) : detourTo s d = none := if_pos (by simpa using h)

theorem detourTo_of_on {s : State} (d : Nat) (h : (regVal s 0x3000004).getLsbD 2 = true) : detourTo s d = (List.range 8).find? (relaysTo s d) :=
  if_neg (by simp [h])

theorem detourTo_of_relay {s : State} {d e : Nat} (hon : (regVal s 0x3000004).getLsbD 2 = true) (he : Relays s d e) (hlowest : ∀ f, f < e → ¬ Relays s d f) :
    detourTo s d = some e := by
  have hlt := he.1
  rw [detourTo_of_on d hon, List.find?_range_eq_some]
  exact ⟨(relaysTo_iff hlt).mpr he, List.mem_range.mpr hlt,
    fun f hf => by simpa using mt (relaysTo_iff (hf.trans hlt)).mp (hlowest f hf)⟩

theorem detourTo_of_noRelay {s : State} {d : Nat} (h : ∀ e, ¬ Relays s d e) : detourTo s d = none := by
  by_cases hon : (regVal s 0x3000004).getLsbD 2 = true
  · rw [detourTo_of_on d hon, List.find?_range_eq_none]
    exact fun e he => by simpa using mt (relaysTo_iff he).mp (h e)
  · exact detourTo_of_off d hon

theorem peerNow_of_near {s : State} {d : Nat} (h : Near s d) : peerNow s d = (.direct, 0) := if_pos ((hearsDirect_iff s d).mpr h)

theorem peerNow_of_detour {s : State} {d e : Nat} (hfar : ¬ Near s d) (he : detourTo s d = some e) : peerNow s d = (.detour, e) := by
  simp [peerNow, hearsDirect_of_not_near hfar, he]

theorem peerNow_of_unreached {s : State} {d : Nat} (hfar : ¬ Near s d) (hnone : detourTo s d = none) :
    peerNow s d = ((if (peerOf s d).st = .absent then .absent else .lost), 0) := by
  simp only [peerNow, hearsDirect_of_not_near hfar, hnone, Bool.false_eq_true, if_false]
  split <;> rfl

/-- Peer `d` with its new state, before the record of the change. -/
def peerMoved (s : State) (d : Nat) : State :=
  modFab s fun x => { x with peers := tabPut x.peers d { peerOf s d with
    st := (peerNow s d).1, via := (peerNow s d).2, oldSt := (peerOf s d).st, oldVia := (peerOf s d).via, since := some s.gt } }

theorem updatePeer_of_holds {s : State} {d : Nat} (h : d = s.rst.trayPos ∨ peerNow s d = ((peerOf s d).st, (peerOf s d).via)) : updatePeer s d = s := by
  refine if_pos ?_
  rcases h with h | h <;> simp [myPos, h]

theorem updatePeer_of_changed {s : State} {d : Nat} (hother : d ≠ s.rst.trayPos) (h : peerNow s d ≠ ((peerOf s d).st, (peerOf s d).via)) :
    updatePeer s d = (let v := fault (peerMoved s d) { cls := 0x11, unit := unitId 0x0B d, outcome := if (peerNow s d).1 = .lost then 6 else 0 };
      if (peerNow s d).1 = .lost then peerLost v d else peerBack v d) := by
  refine if_neg ?_
  simp only [Bool.or_eq_true, decide_eq_true_eq, Bool.and_eq_true, not_or]
  exact ⟨hother, fun hsame => h (Prod.ext hsame.1 hsame.2)⟩

/-- Settles O40: who is heard is `hearsDirect_iff`, a peer's state is one of `peerNow_of_…`, and bringing it up to date is `updatePeer_of_…`. -/
theorem peerStates : Obligations.PeerStates := by
  unfold Obligations.PeerStates
  intro s near
  refine ⟨fun d heard => ⟨fun h => ⟨_, exec_keepalive_of_self h, rfl⟩, fun h => ⟨_, exec_keepalive_of_peer h, _, peerOf_tabPut_same _ _ _,
      fun e => peerOf_tabPut_other _ _, rfl, rfl⟩⟩, ⟨_, rfl, _, _, rfl, rfl, rfl⟩, fun q => testBit_heardMap s,
    fun d => ⟨fun h => ⟨_, if_pos ((hearsDirect_iff s _).mpr h), rfl⟩, fun h => ⟨_, if_neg (mt (hearsDirect_iff s _).mp h), rfl⟩⟩, fun d => ?_⟩
  intro relay on
  refine ⟨peerNow_of_near, fun e hfar hon he hlowest => peerNow_of_detour hfar (detourTo_of_relay hon he hlowest), fun hfar hnone => peerNow_of_unreached hfar ?_,
    updatePeer_of_holds, fun hother hchanged => ?_⟩
  · exact hnone.elim (detourTo_of_off d) detourTo_of_noRelay
  · have hmoved := peerOf_tabPut_same s d { peerOf s d with
      st := (peerNow s d).1, via := (peerNow s d).2, oldSt := (peerOf s d).st, oldVia := (peerOf s d).via, since := some s.gt }
    exact ⟨peerMoved s d, _, congrArg Peer.st hmoved, congrArg Peer.via hmoved, congrArg Peer.since hmoved, fun e => peerOf_tabPut_other _ _, rfl, rfl,
      updatePeer_of_changed hother hchanged⟩

/-! ### Tray time -/

/-- A device that may be the reference: this one, or one that is not lost. -/
def MayRefer (s : State) (d : Nat) : Prop := d = s.rst.trayPos ∨ (peerOf s d).st ≠ .lost

/-- What the search for the reference asks of a device. -/
def refers (s : State) (d : Nat) : Bool := d = myPos s || (peerOf s d).st ≠ .lost

theorem refers_iff (s : State) (d : Nat) : refers s d = true ↔ MayRefer s d := by
  simp only [refers, Bool.or_eq_true, decide_eq_true_eq]
  rfl

theorem timeRef_of_named {s : State} (h : MayRefer s (regBits s 0x3000004 10 8)) : timeRef s = regBits s 0x3000004 10 8 := if_pos ((refers_iff s _).mpr h)

theorem timeRef_of_lowest {s : State} {d : Nat} (hd : d < 8) (hnamed : ¬ MayRefer s (regBits s 0x3000004 10 8)) (h : MayRefer s d)
    (hlowest : ∀ e, e < d → ¬ MayRefer s e) : timeRef s = d := by
  have hfind : (List.range 8).find? (refers s) = some d :=
    List.find?_range_eq_some.mpr ⟨(refers_iff s d).mpr h, List.mem_range.mpr hd, fun e he => by simpa using mt (refers_iff s e).mp (hlowest e he)⟩
  exact (if_neg (mt (refers_iff s _).mp hnamed)).trans (congrArg (·.getD (myPos s)) hfind)

section
variable {s : State}

theorem exec_timeReq_of_reference {src : BitVec 3} (hme : timeRef s = s.rst.trayPos) (hsrc : src.toNat ≠ s.rst.trayPos) :
    exec (.timeReq src) s = .next (send s (.timeAnswer src.toNat s.gt s.gt)) := if_pos (by simp [myPos, hme, hsrc])

theorem exec_timeReq_of_other {src : BitVec 3} (h : ¬ (timeRef s = s.rst.trayPos ∧ src.toNat ≠ s.rst.trayPos)) : exec (.timeReq src) s = .next s :=
  if_neg (by simp only [Bool.and_eq_true, decide_eq_true_eq]; exact h)

/-- An exchange with the reference is due, and reaches it. -/
def AsksTime (s : State) : Prop :=
  ¬ timeRef s = s.rst.trayPos ∧ s.fab.time.nextAt ≤ s.gt ∧ ((routeNow s (timeRef s)).1 = .direct ∨ (routeNow s (timeRef s)).1 = .detour)

theorem exec_timeExchangeTimer_of_due (h : AsksTime s) : exec .timeExchangeTimer s =
    .next (send (modTime s fun t => { t with asked := some s.gt, nextAt := s.gt + 20000 }) (.timeReq (timeRef s))) := by
  obtain ⟨hother, hdue, hroute⟩ := h
  refine if_neg ?_
  simp only [Bool.or_eq_true, decide_eq_true_eq, Bool.not_eq_true', not_or, Nat.not_lt, Bool.not_eq_false]
  exact ⟨⟨hother, hdue⟩, hroute⟩

theorem exec_timeExchangeTimer_of_idle (h : ¬ AsksTime s) : exec .timeExchangeTimer s = .next s := by
  refine if_pos ?_
  by_contra hc
  simp only [Bool.or_eq_true, decide_eq_true_eq, Bool.not_eq_true', not_or, Nat.not_lt, Bool.not_eq_false] at hc
  exact h ⟨hc.1.1, hc.1.2, hc.2⟩

variable {src : BitVec 3} {t2 t3 : BitVec 64}

theorem exec_timeResponse_of_stray (h : s.fab.time.asked = none ∨ src.toNat ≠ timeRef s) : exec (.timeResponse src t2 t3) s = .next s := by
  change execTimeResponse src t2 t3 s = _
  cases hasked : s.fab.time.asked with
  | none => simp only [execTimeResponse, hasked]
  | some t1 => simp only [execTimeResponse, hasked, if_pos (h.resolve_left (by simp [hasked]))]

/-- Tray time after an exchange that gives `x`, twice the offset (11 R385). -/
def timeSettled (t : TrayTime) (x : Int) : TrayTime :=
  { t with asked := none, theta2 := x, aligned := alignedOf x, first := true, left2 := if !t.first then x % 2 else x,
           hold := if !t.first && decide (x < 0) then t.hold + (-x / 2).toNat else t.hold }

theorem hold_of_kept {t : TrayTime} {x : Int} (h : t.first = true ∨ 0 ≤ x) : (timeSettled t x).hold = t.hold := by
  refine if_neg ?_
  rcases h with h | h <;> simp [h]

theorem hold_of_ahead {t : TrayTime} {x : Int} (hfirst : t.first = false) (hx : x < 0) : (timeSettled t x).hold = t.hold + (-x).toNat / 2 := by
  refine (if_pos (by simp [hfirst, hx])).trans ?_
  omega

theorem left2_of_later {t : TrayTime} {x : Int} (hfirst : t.first = true) : (timeSettled t x).left2 = x := if_neg (by simp [hfirst])

/-- The device after it: the first exchange that finds GT behind advances it at once. -/
def gtSettled (s : State) (x : Int) : State :=
  if !s.fab.time.first && decide (0 < x) then { modTime s fun t => timeSettled t x with gt := s.gt + (x / 2).toNat } else modTime s fun t => timeSettled t x

theorem exec_timeResponse_of_answer {t1 : Nat} (hasked : s.fab.time.asked = some t1) (hsrc : src.toNat = timeRef s) : exec (.timeResponse src t2 t3) s =
    (let x := theta2 t1 t2.toNat t3.toNat s.gt (asymTo s src.toNat)
     .next (if s.fab.time.aligned && !alignedOf x then fault (gtSettled s x) { cls := 0x18, unit := unitId 0x0E 0, outcome := 0 } else gtSettled s x)) := by
  change execTimeResponse src t2 t3 s = _
  simp only [execTimeResponse, hasked, if_neg (not_not.mpr hsrc)]
  rfl

theorem gtSettled_time (s : State) (x : Int) : (gtSettled s x).fab.time = timeSettled s.fab.time x := by
  rw [gtSettled]
  split <;> rfl

theorem gtSettled_gt_of_first_behind {x : Int} (hfirst : s.fab.time.first = false) (hx : 0 ≤ x) : (gtSettled s x).gt = s.gt + x.toNat / 2 := by
  rw [gtSettled, hfirst]
  by_cases hpos : 0 < x
  · rw [if_pos (by simpa using hpos)]
    change s.gt + (x / 2).toNat = _
    omega
  · rw [if_neg (by simpa using hpos)]
    change s.gt = _
    omega

theorem gtSettled_gt_of_kept {x : Int} (h : s.fab.time.first = true ∨ x < 0) : (gtSettled s x).gt = s.gt := by
  rw [gtSettled, if_neg]
  · rfl
  · rcases h with h | h
    · simp [h]
    · simp [Int.le_of_lt h]

theorem gtSettled_frame (s : State) (x : Int) : gtSettled s x = { s with gt := (gtSettled s x).gt, fab := { s.fab with time := (gtSettled s x).fab.time } } := by
  rw [gtSettled]
  split <;> rfl

theorem alignedOf_iff (x : Int) : alignedOf x = true ↔ -40 ≤ x ∧ x ≤ 40 := by simp [alignedOf]

/-- GT is to be slewed: this device is not the reference, 1,000 ticks have passed since the last, and more than 2 ns are left. -/
def Slews (s : State) : Prop := ¬ timeRef s = s.rst.trayPos ∧ s.fab.time.slewAt ≤ s.gt ∧ (s.fab.time.left2 < -4 ∨ 4 < s.fab.time.left2)

theorem exec_gtSlew_of_idle (h : ¬ Slews s) : exec .gtSlew s = .next s := by
  refine if_pos ?_
  by_contra hc
  simp only [Bool.or_eq_true, decide_eq_true_eq, Bool.and_eq_true, not_or, Nat.not_lt, not_and_or, Int.not_le] at hc
  exact h ⟨hc.1.2, hc.1.1, hc.2⟩

theorem not_idle_of_slews (h : Slews s) :
    ¬ (s.gt < s.fab.time.slewAt || timeRef s = myPos s || (decide (-4 ≤ s.fab.time.left2) && decide (s.fab.time.left2 ≤ 4))) = true := by
  obtain ⟨hother, hdue, hleft⟩ := h
  simp only [Bool.or_eq_true, decide_eq_true_eq, Bool.and_eq_true, not_or, Nat.not_lt, not_and_or, Int.not_le]
  exact ⟨⟨hdue, hother⟩, hleft⟩

theorem exec_gtSlew_of_behind (h : Slews s) (hleft : 0 < s.fab.time.left2) : exec .gtSlew s =
    .next (bump { s with gt := s.gt + 1, fab := { s.fab with time := { s.fab.time with slewAt := s.gt + 1000, left2 := s.fab.time.left2 - 2 } } } 0x3000044 1) := by
  refine (if_neg (not_idle_of_slews h)).trans ?_
  simp only [modTime, modFab, if_pos hleft]

theorem exec_gtSlew_of_ahead (h : Slews s) (hleft : s.fab.time.left2 < 0) : exec .gtSlew s =
    .next (bump { s with fab := { s.fab with time := { s.fab.time with
      slewAt := s.gt + 1000, left2 := s.fab.time.left2 + 2, hold := s.fab.time.hold + 1 } } } 0x3000048 1) := by
  refine (if_neg (not_idle_of_slews h)).trans ?_
  simp only [modTime, modFab, if_neg (Int.not_lt.mpr (Int.le_of_lt hleft))]

end

/-- Settles O41: the reference is one of `timeRef_of_…`; an answer leaves tray time as `timeSettled` and GT as `gtSettled_gt_of_…` say. -/
theorem trayTime : Obligations.TrayTime := by
  unfold Obligations.TrayTime
  intro s q ok named me
  refine ⟨timeRef_of_named, fun d hd hnamed h hlowest => timeRef_of_lowest hd hnamed h hlowest,
    fun src => ⟨fun h => ⟨_, exec_timeReq_of_reference h.1 h.2, rfl⟩, fun h => ⟨_, exec_timeReq_of_other h, rfl⟩⟩, ?_, fun src t2 t3 => ?_, ?_⟩
  · exact ⟨fun h => ⟨_, exec_timeExchangeTimer_of_due h, rfl⟩, fun h => ⟨_, exec_timeExchangeTimer_of_idle h, rfl⟩⟩
  · refine ⟨fun h => ⟨_, exec_timeResponse_of_stray h, rfl⟩, fun t1 hasked hsrc => ⟨_, exec_timeResponse_of_answer hasked hsrc, ?_⟩⟩
    refine ⟨gtSettled s (theta2 t1 t2.toNat t3.toNat s.gt (asymTo s src.toNat)), ?_⟩
    intro x near
    change s.fab.time.asked = some t1 at hasked
    have htime : (gtSettled s x).fab.time = timeSettled s.fab.time x := gtSettled_time s x
    have haligned : alignedOf (theta2 t1 t2.toNat t3.toNat s.gt (asymTo s src.toNat)) = true ↔ near := alignedOf_iff x
    have hhold := congrArg TrayTime.hold htime
    refine ⟨congrArg TrayTime.asked htime, congrArg TrayTime.theta2 htime, (Bool.eq_iff_iff.mp (congrArg TrayTime.aligned htime)).trans haligned,
      congrArg TrayTime.first htime, (congrArg TrayTime.nextAt htime :), (congrArg TrayTime.slewAt htime :),
      fun hfirst => ⟨gtSettled_gt_of_kept (.inl hfirst), hhold.trans (hold_of_kept (.inl hfirst)), (congrArg TrayTime.left2 htime).trans (left2_of_later hfirst)⟩,
      fun hfirst hx => ⟨gtSettled_gt_of_first_behind hfirst hx, hhold.trans (hold_of_kept (.inr hx))⟩,
      fun hfirst hx => ⟨gtSettled_gt_of_kept (.inr hx), hhold.trans (hold_of_ahead hfirst hx)⟩, gtSettled_frame s x, fun hwas hfar => if_pos ?_, fun h => if_neg ?_⟩
    · simp [show s.fab.time.aligned = true from hwas, Bool.eq_false_iff.mpr (mt haligned.mp hfar)]
    · rcases h with h | h
      · simp [show s.fab.time.aligned = false from h]
      · simp [haligned.mpr h]
  · exact ⟨fun h hleft => ⟨_, exec_gtSlew_of_behind h hleft, _, rfl, bump_counted _ _ _⟩,
      fun h hleft => ⟨_, exec_gtSlew_of_ahead h hleft, _, rfl, bump_counted _ _ _⟩, fun h => ⟨_, exec_gtSlew_of_idle h, rfl⟩⟩

end Sys2Proof.Proofs
end

section
/-!
The lease authority (12_mirrored_pairs.md R399, R400, R402, R411).
-/
namespace Sys2Proof.Proofs
open Sys2Proof Sys2Proof.Machine

theorem mailboxUp_iff (s : State) : mailboxUp s = true ↔ ∃ d, d < 4 ∧ dieUp s (16 + d) = true := by
  simp [mailboxUp]

theorem serves_iff (s : State) (p : Nat) : serves s p = true ↔
    (∃ d, d < 4 ∧ dieUp s (16 + d) = true) ∧ s.rst.trayPos / 2 ≠ p ∧ (s.rst.trayPos = (2 * p + 4) % 8 → p ∈ s.pair.serving) := by
  simp only [serves, Bool.and_eq_true, Bool.or_eq_true, decide_eq_true_eq, mailboxUp_iff, and_assoc, List.contains_iff_mem, imp_iff_not_or]
  rfl

/-! ### What an authority keeps -/

theorem setAuth_authPut (s : State) (p i : Nat) (a : AuthSet) : AuthPut s (setAuth s p i a) p i a :=
  ⟨tabGet_set_same _ _ _ _, fun _ _ h => tabGet_set_other _ _ _ _ h, rfl⟩

/-- A set's new state and the answer that tells it. -/
theorem answerLease_leased (s : State) (dev op p i : Nat) (a : AuthSet) : Leased s (answerLease (setAuth s p i a) dev op p i a) dev op p i a :=
  ⟨_, setAuth_authPut s p i a, rfl⟩

theorem decideRequest_decided (s : State) (dev p i : Nat) (a : AuthSet) : Decided s (decideRequest s dev p i a) dev p i a := by
  constructor
  · intro h
    rw [decideRequest, if_pos (by simpa using h)]
    exact answerLease_leased s dev 0x81 p i _
  · intro hvalid hlast
    rw [decideRequest, if_neg (by simp [hvalid, hlast])]
    exact answerLease_leased s dev 0x82 p i _

/-! ### Messages to the authority -/

section
variable {s : State} {pair : BitVec 2} {set : BitVec 1} {dev : BitVec 3} {tSend : BitVec 64}

theorem exec_leaseRequest_of_stray (h : serves s pair.toNat = false ∨ dev.toNat / 2 ≠ pair.toNat) : exec (.leaseRequest pair set dev tSend) s = .next s :=
  if_pos (by simpa using h)

theorem exec_leaseRequest (hserves : serves s pair.toNat = true) (hdev : dev.toNat / 2 = pair.toNat) : exec (.leaseRequest pair set dev tSend) s =
    (let a := authSet s pair.toNat set.toNat
     if a.holder.isNone || a.expiry ≤ s.gt then .next (decideRequest s dev.toNat pair.toNat set.toNat a)
     else .next (setAuth s pair.toNat set.toNat { a with waiting := some (dev.toNat, tSend.toNat) })) := if_neg (by simp [hserves, hdev])

theorem exec_leaseRequest_of_unheld (hserves : serves s pair.toNat = true) (hdev : dev.toNat / 2 = pair.toNat)
    (h : (authSet s pair.toNat set.toNat).holder = none ∨ (authSet s pair.toNat set.toNat).expiry ≤ s.gt) :
    exec (.leaseRequest pair set dev tSend) s = .next (decideRequest s dev.toNat pair.toNat set.toNat (authSet s pair.toNat set.toNat)) :=
  (exec_leaseRequest hserves hdev).trans (if_pos (by simpa using h))

theorem exec_leaseRequest_of_held (hserves : serves s pair.toNat = true) (hdev : dev.toNat / 2 = pair.toNat)
    (hheld : (authSet s pair.toNat set.toNat).holder ≠ none) (h : s.gt < (authSet s pair.toNat set.toNat).expiry) :
    exec (.leaseRequest pair set dev tSend) s =
      .next (setAuth s pair.toNat set.toNat { authSet s pair.toNat set.toNat with waiting := some (dev.toNat, tSend.toNat) }) :=
  (exec_leaseRequest hserves hdev).trans (if_neg (by simp [hheld, h]))

theorem exec_renew_of_stray (h : serves s pair.toNat = false ∨ (authSet s pair.toNat set.toNat).holder ≠ some dev.toNat) : exec (.renew pair set dev) s = .next s :=
  if_pos (by simpa using h)

theorem exec_renew_of_early (hserves : serves s pair.toNat = true) (hheld : (authSet s pair.toNat set.toNat).holder = some dev.toNat)
    (h : s.gt + guardTicks s < (authSet s pair.toNat set.toNat).expiry) : exec (.renew pair set dev) s =
    (let b := { authSet s pair.toNat set.toNat with expiry := s.gt + leaseTicks s }
     .next (answerLease (setAuth s pair.toNat set.toNat b) dev.toNat 0x81 pair.toNat set.toNat b)) :=
  (if_neg (by simp [hserves, hheld])).trans (if_pos h)

theorem exec_renew_of_late (hserves : serves s pair.toNat = true) (hheld : (authSet s pair.toNat set.toNat).holder = some dev.toNat)
    (h : (authSet s pair.toNat set.toNat).expiry ≤ s.gt + guardTicks s) : exec (.renew pair set dev) s =
    .next (answerLease s dev.toNat 0x82 pair.toNat set.toNat (authSet s pair.toNat set.toNat)) :=
  (if_neg (by simp [hserves, hheld])).trans (if_neg (Nat.not_lt.mpr h))

theorem markSet_of_stray {p i d : Nat} {valid : Bool} (h : serves s p = false ∨ (authSet s p i).holder ≠ some d) : markSet s p i d valid = s :=
  if_pos (by simpa using h)

theorem markSet_of_holder {p i d : Nat} {valid : Bool} (hserves : serves s p = true) (hheld : (authSet s p i).holder = some d) :
    markSet s p i d valid = answerLease (setAuth s p i { authSet s p i with valid := valid }) d 0x83 p i { authSet s p i with valid := valid } :=
  if_neg (by simp [hserves, hheld])

theorem exec_release_of_unserved (h : serves s pair.toNat = false) : exec (.release pair set dev) s = .next s := if_pos (by simp [h])

/-- A set the authority holds for nobody any more. -/
def releasedAuth (s : State) (p i : Nat) : AuthSet := { authSet s p i with holder := none, expiry := s.gt }

/-- A release by the holder, with its answer. -/
def releaseAnswered (s : State) (d p i : Nat) : State := answerLease (setAuth s p i (releasedAuth s p i)) d 0x83 p i (releasedAuth s p i)

theorem exec_release_of_holder (hserves : serves s pair.toNat = true) (hheld : (authSet s pair.toNat set.toNat).holder = some dev.toNat)
    (hwait : (authSet s pair.toNat set.toNat).waiting = none) : exec (.release pair set dev) s = .next (releaseAnswered s dev.toNat pair.toNat set.toNat) := by
  refine (if_neg (by simp [hserves])).trans ((if_pos hheld).trans ?_)
  simp only [releaseAnswered, releasedAuth, hwait]

theorem exec_release_of_waited {w : Nat × Nat} (hserves : serves s pair.toNat = true) (hheld : (authSet s pair.toNat set.toNat).holder = some dev.toNat)
    (hwait : (authSet s pair.toNat set.toNat).waiting = some w) : exec (.release pair set dev) s =
    .next (decideRequest (releaseAnswered s dev.toNat pair.toNat set.toNat) w.1 pair.toNat set.toNat (releasedAuth s pair.toNat set.toNat)) := by
  refine (if_neg (by simp [hserves])).trans ((if_pos hheld).trans ?_)
  simp only [releaseAnswered, releasedAuth, hwait]

theorem exec_release_of_waiting {n : Nat} (hserves : serves s pair.toNat = true) (hheld : (authSet s pair.toNat set.toNat).holder ≠ some dev.toNat)
    (hwait : (authSet s pair.toNat set.toNat).waiting = some (dev.toNat, n)) : exec (.release pair set dev) s =
    .next (setAuth s pair.toNat set.toNat { authSet s pair.toNat set.toNat with waiting := none }) :=
  (if_neg (by simp [hserves])).trans ((if_neg hheld).trans (if_pos (by simp [hwait])))

theorem exec_release_of_stray (hserves : serves s pair.toNat = true) (hheld : (authSet s pair.toNat set.toNat).holder ≠ some dev.toNat)
    (hwait : ∀ n, (authSet s pair.toNat set.toNat).waiting ≠ some (dev.toNat, n)) : exec (.release pair set dev) s = .next s := by
  refine (if_neg (by simp [hserves])).trans ((if_neg hheld).trans (if_neg ?_))
  intro h
  obtain ⟨⟨_, n⟩, hw, rfl⟩ := Option.map_eq_some_iff.mp h
  exact hwait n hw

theorem exec_leaseExpiry_of_idle (h : serves s pair.toNat = false ∨ (authSet s pair.toNat set.toNat).holder = none ∨
    ¬ RunOut s (authSet s pair.toNat set.toNat).expiry) : exec (.leaseExpiry pair set) s = .next s := by
  refine if_pos ?_
  rw [Bool.or_eq_true, Bool.or_eq_true, Bool.not_eq_true', Bool.not_eq_true', ranOut_eq_false_iff, Option.isNone_iff_eq_none, or_assoc]
  exact h

theorem exec_leaseExpiry_of_waited {w : Nat × Nat} (hserves : serves s pair.toNat = true) (hheld : (authSet s pair.toNat set.toNat).holder ≠ none)
    (hrun : RunOut s (authSet s pair.toNat set.toNat).expiry) (hwait : (authSet s pair.toNat set.toNat).waiting = some w) :
    exec (.leaseExpiry pair set) s = .next (decideRequest s w.1 pair.toNat set.toNat (authSet s pair.toNat set.toNat)) := by
  change execLeaseExpiry pair set s = _
  simp [execLeaseExpiry, hserves, hheld, (ranOut_eq_true_iff _ _).mpr hrun, hwait]

theorem exec_leaseExpiry_of_unwaited (hserves : serves s pair.toNat = true) (hheld : (authSet s pair.toNat set.toNat).holder ≠ none)
    (hrun : RunOut s (authSet s pair.toNat set.toNat).expiry) (hwait : (authSet s pair.toNat set.toNat).waiting = none) :
    exec (.leaseExpiry pair set) s = .next (setAuth s pair.toNat set.toNat { authSet s pair.toNat set.toNat with holder := none }) := by
  change execLeaseExpiry pair set s = _
  simp [execLeaseExpiry, hserves, hheld, (ranOut_eq_true_iff _ _).mpr hrun, hwait]

end

/-! ### The standby's takeover -/

/-- The best of a set's reports so far: the highest claim, the last of equals. -/
def betterReport (b : Nat × Bool × Option Nat) (r : LeaseReport) : Nat × Bool × Option Nat := if b.1 ≤ r.claim.toNat then (r.claim.toNat, r.valid, some r.dev.toNat) else b

/-- What the standby takes from the reports of a set: claim, flag and last holder. -/
def bestReport (reports : List LeaseReport) (i : Nat) : Nat × Bool × Option Nat := (reports.filter fun r => r.set.toNat = i).foldl betterReport (0, true, none)

theorem le_foldl_betterReport (rs : List LeaseReport) (b : Nat × Bool × Option Nat) :
    b.1 ≤ (rs.foldl betterReport b).1 ∧ ∀ r ∈ rs, r.claim.toNat ≤ (rs.foldl betterReport b).1 := by
  induction rs generalizing b with
  | nil => simp
  | cons r rs ih =>
    obtain ⟨hhere, hthere⟩ := ih (betterReport b r)
    have hstep : b.1 ≤ (betterReport b r).1 ∧ r.claim.toNat ≤ (betterReport b r).1 := by
      rw [betterReport]
      split
      · exact ⟨‹_›, Nat.le_refl _⟩
      · exact ⟨Nat.le_refl _, Nat.le_of_not_le ‹_›⟩
    exact ⟨hstep.1.trans hhere, List.forall_mem_cons.mpr ⟨hstep.2.trans hhere, hthere⟩⟩

/-- The best is the first value or one of the reports. -/
theorem foldl_betterReport_mem (rs : List LeaseReport) (b : Nat × Bool × Option Nat) :
    rs.foldl betterReport b = b ∨ ∃ r ∈ rs, rs.foldl betterReport b = (r.claim.toNat, r.valid, some r.dev.toNat) := by
  induction rs generalizing b with
  | nil => exact .inl rfl
  | cons r rs ih =>
    rcases ih (betterReport b r) with h | ⟨q, hq, h⟩
    · by_cases hle : b.1 ≤ r.claim.toNat
      · exact .inr ⟨r, List.mem_cons_self, h.trans (if_pos hle)⟩
      · exact .inl (h.trans (if_neg hle))
    · exact .inr ⟨q, List.mem_cons_of_mem _ hq, h⟩

theorem mem_reportsOf {reports : List LeaseReport} {i : BitVec 1} {r : LeaseReport} :
    (r ∈ reports.filter fun r => r.set.toNat = i.toNat) ↔ r ∈ reports ∧ r.set = i := by
  rw [List.mem_filter, decide_eq_true_eq, BitVec.toNat_inj]

theorem claim_le_bestReport {reports : List LeaseReport} {i : BitVec 1} {r : LeaseReport} (hr : r ∈ reports) (hi : r.set = i) :
    r.claim.toNat ≤ (bestReport reports i.toNat).1 := (le_foldl_betterReport _ _).2 r (mem_reportsOf.mpr ⟨hr, hi⟩)

theorem bestReport_of_none {reports : List LeaseReport} {i : BitVec 1} (h : ∀ r, r ∈ reports → r.set ≠ i) : bestReport reports i.toNat = (0, true, none) := by
  have hnil : (reports.filter fun r => r.set.toNat = i.toNat) = [] :=
    List.eq_nil_iff_forall_not_mem.mpr fun r hr => h r (mem_reportsOf.mp hr).1 (mem_reportsOf.mp hr).2
  rw [bestReport, hnil]
  rfl

/-- A first report is better than none, so that a set reported on takes one of its reports. -/
theorem bestReport_of_some {reports : List LeaseReport} {i : BitVec 1} (h : ∃ r, r ∈ reports ∧ r.set = i) :
    ∃ r, r ∈ reports ∧ r.set = i ∧ bestReport reports i.toNat = (r.claim.toNat, r.valid, some r.dev.toNat) := by
  obtain ⟨r, hr, hi⟩ := h
  have hmem := mem_reportsOf.mpr ⟨hr, hi⟩
  obtain ⟨q, qs, hrs⟩ := List.exists_cons_of_ne_nil (List.ne_nil_of_mem hmem)
  have hone : ∃ z ∈ q :: qs, bestReport reports i.toNat = (z.claim.toNat, z.valid, some z.dev.toNat) := by
    rw [bestReport, hrs, List.foldl_cons, betterReport, if_pos (Nat.zero_le _)]
    rcases foldl_betterReport_mem qs (q.claim.toNat, q.valid, some q.dev.toNat) with h | ⟨z, hz, h⟩
    · exact ⟨q, List.mem_cons_self, h⟩
    · exact ⟨z, List.mem_cons_of_mem _ hz, h⟩
  obtain ⟨z, hz, hbest⟩ := hone
  rw [← hrs] at hz
  exact ⟨z, (mem_reportsOf.mp hz).1, (mem_reportsOf.mp hz).2, hbest⟩

/-- A set as the standby takes it up. -/
def takenAuth (s : State) (reports : List LeaseReport) (p i : Nat) : AuthSet :=
  { authSet s p i with
    holder := none, last := (bestReport reports i).2.2, claim := (bestReport reports i).1, valid := (bestReport reports i).2.1, expiry := s.gt, waiting := none }

/-- The standby with a pair it has taken up. -/
def takenUp (s : State) (reports : List LeaseReport) (p : Nat) : State :=
  let u := modPair s fun x => { x with serving := x.serving ++ [p] }
  let v := setAuth u p 0 (takenAuth u reports p 0)
  setAuth v p 1 (takenAuth v reports p 1)

/-- Authority is to be taken up: the lease and 1 ms have passed since the authority was found lost. -/
def Ripe (s : State) (p : Nat) : Prop := p ∉ s.pair.serving ∧ ∃ n, tabFind s.pair.lostAt p = some n ∧ n + leaseTicks s + 1000000 ≤ s.gt

theorem exec_authorityTakeover_of_ripe {s : State} {pair : BitVec 2} {reports : List LeaseReport} (h : Ripe s pair.toNat) :
    exec (.authorityTakeover pair reports) s = .next (takenUp s reports pair.toNat) := by
  obtain ⟨hnew, n, hn, hdue⟩ := h
  change execAuthorityTakeover pair reports s = _
  simp only [execAuthorityTakeover, hn]
  exact if_neg (by simp [hnew, hdue])

theorem exec_authorityTakeover_of_idle {s : State} {pair : BitVec 2} {reports : List LeaseReport} (h : ¬ Ripe s pair.toNat) :
    exec (.authorityTakeover pair reports) s = .next s := by
  change execAuthorityTakeover pair reports s = _
  cases hn : tabFind s.pair.lostAt pair.toNat with
  | none => simp only [execAuthorityTakeover, hn]
  | some n =>
    simp only [execAuthorityTakeover, hn]
    refine if_pos ?_
    by_contra hc
    simp only [Bool.or_eq_true, decide_eq_true_eq, not_or, List.contains_iff_mem, Nat.not_lt] at hc
    exact h ⟨hc.1, n, hn, hc.2⟩

theorem takenUp_authSet (s : State) (reports : List LeaseReport) (p : Nat) (i : BitVec 1) :
    ∃ v, v.gt = s.gt ∧ authSet (takenUp s reports p) p i.toNat = takenAuth v reports p i.toNat := by
  rcases i.eq_zero_or_eq_one with rfl | rfl
  · exact ⟨_, rfl, ((setAuth_authPut _ p 1 _).2.1 p 0 (by omega)).trans (setAuth_authPut _ p 0 _).1⟩
  · exact ⟨_, rfl, (setAuth_authPut _ p 1 _).1⟩

/-- Settles O42: a decision is `decideRequest_decided`, every other answer `answerLease_leased`; a takeover is `takenUp`, whose sets `bestReport_of_…` give. -/
theorem leaseAuthority : Obligations.LeaseAuthority := by
  unfold Obligations.LeaseAuthority
  refine fun s => ⟨rfl, rfl, fun pair set => ⟨serves_iff s _, fun h => ⟨⟨_, exec_leaseExpiry_of_idle (.inl h), rfl⟩, fun dev tSend =>
      ⟨⟨_, exec_leaseRequest_of_stray (.inl h), rfl⟩, ⟨_, exec_renew_of_stray (.inl h), rfl⟩, ⟨_, exec_release_of_unserved h, rfl⟩,
        ⟨_, rfl, markSet_of_stray (.inl h)⟩, ⟨_, rfl, markSet_of_stray (.inl h)⟩⟩⟩, fun h => ⟨fun dev tSend => ?_, ?_, ?_, ?_⟩⟩, fun pair reports => ⟨?_, ?_⟩⟩
  · exact ⟨fun hdev => ⟨_, exec_leaseRequest_of_stray (.inr hdev), rfl⟩,
      fun hdev hfree => ⟨_, exec_leaseRequest_of_unheld h hdev hfree, decideRequest_decided _ _ _ _ _⟩,
      fun hdev hheld hlate => ⟨_, exec_leaseRequest_of_held h hdev hheld hlate, setAuth_authPut _ _ _ _⟩,
      fun hheld hearly => ⟨_, exec_renew_of_early h hheld hearly, answerLease_leased _ _ _ _ _ _⟩,
      fun hheld hlate => ⟨_, exec_renew_of_late h hheld hlate, rfl⟩,
      fun hheld => ⟨⟨_, congrArg Host.Outcome.next (markSet_of_holder h hheld), answerLease_leased _ _ _ _ _ _⟩, ⟨_, congrArg Host.Outcome.next (markSet_of_holder h hheld), answerLease_leased _ _ _ _ _ _⟩⟩,
      fun hother => ⟨⟨_, exec_renew_of_stray (.inr hother), rfl⟩, ⟨_, rfl, markSet_of_stray (.inr hother)⟩, ⟨_, rfl, markSet_of_stray (.inr hother)⟩⟩,
      fun hheld hwait => ⟨_, exec_release_of_holder h hheld hwait, answerLease_leased _ _ _ _ _ _⟩,
      fun w hheld hwait => ⟨_, exec_release_of_waited h hheld hwait, _, answerLease_leased _ _ _ _ _ _, decideRequest_decided _ _ _ _ _⟩,
      fun n hother hwait => ⟨_, exec_release_of_waiting h hother hwait, setAuth_authPut _ _ _ _⟩,
      fun hother hwait => ⟨_, exec_release_of_stray h hother hwait, rfl⟩⟩
  · exact fun hidle => ⟨_, exec_leaseExpiry_of_idle (.inr hidle), rfl⟩
  · exact fun w hheld hrun hwait => ⟨_, exec_leaseExpiry_of_waited h hheld hrun hwait, decideRequest_decided _ _ _ _ _⟩
  · exact fun hheld hrun hwait => ⟨_, exec_leaseExpiry_of_unwaited h hheld hrun hwait, setAuth_authPut _ _ _ _⟩
  · exact fun h => ⟨_, exec_authorityTakeover_of_idle h, rfl⟩
  · refine fun h => ⟨_, exec_authorityTakeover_of_ripe h, rfl, rfl, fun i => ?_⟩
    obtain ⟨v, hgt, hset⟩ := takenUp_authSet s reports pair.toNat i
    intro b
    have hb : b = takenAuth v reports pair.toNat i.toNat := hset
    rw [hb]
    refine ⟨rfl, rfl, hgt, fun r hr hi => claim_le_bestReport hr hi, fun hnone => ?_, fun hsome => ?_⟩
    · have hbest := bestReport_of_none hnone
      exact ⟨congrArg (·.1) hbest, congrArg (·.2.1) hbest, congrArg (·.2.2) hbest⟩
    · obtain ⟨r, hr, hi, hbest⟩ := bestReport_of_some hsome
      exact ⟨r, hr, hi, congrArg (·.1) hbest, congrArg (·.2.1) hbest, congrArg (·.2.2) hbest⟩

end Sys2Proof.Proofs
end

section
/-!
The pair's own side of the lease (12_mirrored_pairs.md R401 to R408, R415).
-/
namespace Sys2Proof.Proofs
open Sys2Proof Sys2Proof.Machine

theorem modSet_setPut (s : State) (i : Nat) (f : PairSet → PairSet) : SetPut s (modSet s i f) i f := rfl

theorem sendLease_asked (s : State) (op i : Nat) : Asked s (sendLease s op i) op i := rfl

/-! ### Fences -/

/-- Messages sent one after another change nothing else. -/
theorem foldl_send_frame {α : Type} (m : α → Sent) (xs : List α) (s : State) :
    xs.foldl (fun t x => send t (m x)) s = { s with sent := (xs.foldl (fun t x => send t (m x)) s).sent } := by
  induction xs generalizing s with
  | nil => rfl
  | cons x xs ih => exact (ih (send s (m x))).trans rfl

/-- The fenced stages' CLAIM_MAX of a set, raised. -/
def claimRaised (s : State) (k claim : Nat) : State :=
  modPair s fun x => { x with claimMax := tabPut x.claimMax k (max claim (tabGet x.claimMax 0 k)) }

theorem raiseFences_sent (s : State) (i claim : Nat) :
    ∃ m, raiseFences s i claim = { claimRaised s (s.rst.trayPos / 2 * 2 + i) claim with sent := m } := ⟨_, foldl_send_frame _ _ _⟩

theorem raiseFences_claimMax (s : State) (i claim : Nat) : (raiseFences s i claim).pair.claimMax =
    (claimRaised s (s.rst.trayPos / 2 * 2 + i) claim).pair.claimMax := by
  obtain ⟨m, hm⟩ := raiseFences_sent s i claim
  rw [hm]

theorem raiseFences_frame (s : State) (i claim : Nat) : raiseFences s i claim =
    { s with pair := { s.pair with claimMax := (raiseFences s i claim).pair.claimMax }, sent := (raiseFences s i claim).sent } := by
  obtain ⟨m, hm⟩ := raiseFences_sent s i claim
  rw [hm]
  rfl

theorem ctxsOfSet_raiseFences (s : State) (i claim j : Nat) : ctxsOfSet (raiseFences s i claim) j = ctxsOfSet s j :=
  (congrArg (ctxsOfSet · j) (raiseFences_frame s i claim)).trans rfl

theorem ctxOf_raiseFences (s : State) (i claim c : Nat) : ctxOf (raiseFences s i claim) c = ctxOf s c :=
  (congrArg (ctxOf · c) (raiseFences_frame s i claim)).trans rfl

theorem partnerOf_raiseFences (s : State) (i claim : Nat) : partnerOf (raiseFences s i claim) = partnerOf s :=
  (congrArg partnerOf (raiseFences_frame s i claim)).trans rfl

/-! ### Takeover of a context -/

section
variable {s : State} {former claim c h : Nat} {valid : Bool} {m : MirrorCopy}

theorem takeContext_of_other (h : (ctxOf s c).standby = false ∨ (ctxOf s c).enable = false) : takeContext s former claim valid c = s :=
  if_pos (by simpa using h)

/-- The context with its rings from its last commit record, TAKEOVER its first entry (12 R406, R407). -/
def tookOver (s : State) (former claim c : Nat) (m : MirrorCopy) : State :=
  event (setCtx s c (restoredRings (ctxOf s c) (some m))) c
    (evtEntry 0x10 former stOk (claim % 2 ^ 32 + 2 ^ 32 * (restoredRings (ctxOf s c) (some m)).frameSeq + 2 ^ 64 * s.gt))

theorem takeContext_of_copy (hstandby : (ctxOf s c).standby = true) (henable : (ctxOf s c).enable = true) (hcopy : tabFind s.pair.copies c = some m)
    (hgood : takeRefusal s (ctxOf s c) (some m) valid = none) (htwin : twinInst s (ctxOf s c) m.rec_.formulaId = some h) :
    takeContext s former claim valid c = settle (modCtx (bindSession (releaseSession (tookOver s former claim c m) c) c h m.session.slot) c fun q => { q with
      session := some { m.session with seed := q.seed, counter := m.rec_.sampler, pos := m.rec_.position, stepNo := m.rec_.stepSeq },
      queue := m.request.toList, readyAt := some s.gt, waitedSince := s.gt }) c := by
  refine (if_neg (by simp [hstandby, henable])).trans ?_
  simp only [hcopy, hgood, htwin, tookOver]

end

/-! ### The lease at its holder -/

section
variable {s : State} {set : BitVec 1}

/-- The set's lease has less than half its length left. -/
def RenewsLease (s : State) (i : Nat) : Prop := ((pairSet s i).held = true ∧ (pairSet s i).stopped = false) ∧ (pairSet s i).expiry < s.gt + leaseTicks s / 2

theorem exec_leaseRenewTimer_of_due (h : RenewsLease s set.toNat) : exec (.leaseRenewTimer set) s =
    .next (sendLease (modSet s set.toNat fun x => { x with asked := some s.gt }) 2 set.toNat) := by
  obtain ⟨⟨hheld, hstopped⟩, hdue⟩ := h
  exact if_neg (by simp [hheld, hstopped, hdue])

theorem exec_leaseRenewTimer_of_idle (h : ¬ RenewsLease s set.toNat) : exec (.leaseRenewTimer set) s = .next s := by
  refine if_pos ?_
  by_contra hc
  simp only [Bool.or_eq_true, Bool.not_eq_true', decide_eq_true_eq, not_or, Bool.not_eq_false, Bool.not_eq_true, Nat.not_le] at hc
  exact h hc

/-- The set's guard has run out. -/
def StopsAtGuard (s : State) (i : Nat) : Prop :=
  ((pairSet s i).held = true ∧ (pairSet s i).stopped = false) ∧ RunOut s ((pairSet s i).expiry - guardTicks s)

/-- A context of a stopped set: paused where it is enabled. -/
def heldBack (k : Ctx) : Ctx := { k with paused := k.enabled }

theorem exec_leaseGuardStop_of_due (h : StopsAtGuard s set.toNat) : exec (.leaseGuardStop set) s =
    .next ((ctxsOfSet s set.toNat).foldl (fun t c => modCtx t c heldBack) (modSet s set.toNat fun x => { x with stopped := true })) := by
  obtain ⟨⟨hheld, hstopped⟩, hrun⟩ := h
  exact if_neg (by simp [hheld, hstopped, (ranOut_eq_true_iff _ _).mpr hrun])

theorem exec_leaseGuardStop_of_idle (h : ¬ StopsAtGuard s set.toNat) : exec (.leaseGuardStop set) s = .next s := by
  refine if_pos ?_
  by_contra hc
  simp only [Bool.or_eq_true, Bool.not_eq_true', not_or, Bool.not_eq_false, Bool.not_eq_true, ranOut_eq_true_iff] at hc
  exact h hc

/-- A change that made twice is made once, of the contexts of a list. -/
theorem ctxOf_foldl_modCtx_idem {f : Ctx → Ctx} (hf : ∀ k, f (f k) = f k) (cs : List Nat) (s : State) (e : Nat) :
    ctxOf (cs.foldl (fun t c => modCtx t c f) s) e = if e ∈ cs then f (ctxOf s e) else ctxOf s e := by
  induction cs generalizing s with
  | nil => rfl
  | cons c cs ih =>
    rw [List.foldl_cons, ih, ctxOf_modCtx]
    by_cases hc : e = c
    · simp [hc, hf]
    · simp [hc]

theorem foldl_modCtx_frame (f : Ctx → Ctx) (cs : List Nat) (s : State) :
    cs.foldl (fun t c => modCtx t c f) s = { s with ctxs := (cs.foldl (fun t c => modCtx t c f) s).ctxs } := by
  obtain ⟨xs, hxs⟩ := foldl_modCtx_eq (fun c : Nat => c) (fun _ => f) cs s
  rw [hxs]

/-! ### Grants -/

variable {claim : Word} {valid : Bool} {n : Nat}

/-- A set as a grant leaves it. -/
def grantedSet (s : State) (claim : Word) (valid : Bool) (n : Nat) (x : PairSet) : PairSet :=
  { x with held := true, stopped := false, claim := claim.toNat, valid := valid, expiry := n + leaseTicks s, asked := none, requesting := false }

/-- The device with the set granted. -/
def granted (s : State) (i : Nat) (claim : Word) (valid : Bool) (n : Nat) : State := modSet s i (grantedSet s claim valid n)

theorem exec_grant_of_unasked (h : (pairSet s set.toNat).asked = none ∨ ¬ mailboxUp s = true) : exec (.grant set claim valid) s = .next s := by
  have hnone : (if mailboxUp s then (pairSet s set.toNat).asked else none) = none := by
    rcases h with h | h
    · rw [h, ite_self]
    · rw [if_neg h]
  change execGrant set claim valid s = _
  simp only [execGrant, hnone]

theorem asked_of_heard {i : Nat} (hasked : (pairSet s i).asked = some n) (hup : mailboxUp s = true) :
    (if mailboxUp s then (pairSet s i).asked else none) = some n := (if_pos hup).trans hasked

theorem exec_grant_of_held (hasked : (pairSet s set.toNat).asked = some n) (hup : mailboxUp s = true) (hheld : (pairSet s set.toNat).held = true) :
    exec (.grant set claim valid) s = .next ((ctxsOfSet s set.toNat).foldl
      (fun v c => if (ctxOf v c).paused then settle (modCtx v c fun k => { k with paused := false }) c else v) (granted s set.toNat claim valid n)) := by
  change execGrant set claim valid s = _
  simp only [execGrant, asked_of_heard hasked hup]
  exact if_pos hheld

/-- The contexts in standby of a set. -/
def standbyOf (s : State) (i : Nat) : List Nat := (ctxsOfSet s i).filter fun c => (ctxOf s c).standby

/-- The standby contexts taken over behind raised fences. -/
def takenOver (s : State) (i : Nat) (claim : Word) (valid : Bool) (n : Nat) : State :=
  (standbyOf s i).foldl (fun u c => takeContext u (partnerOf s) claim.toNat valid c) (raiseFences (granted s i claim valid n) i claim.toNat)

/-- A takeover is counted where there was something to take over. -/
def takeoverCounted (s : State) (i : Nat) (claim : Word) (valid : Bool) (n : Nat) : State :=
  if standbyOf s i = [] then takenOver s i claim valid n else bump (takenOver s i claim valid n) 0x3400048 1

theorem exec_grant_of_new (hasked : (pairSet s set.toNat).asked = some n) (hup : mailboxUp s = true) (hheld : (pairSet s set.toNat).held = false) :
    exec (.grant set claim valid) s = .next (let x := takeoverCounted s set.toNat claim valid n
      if (peerOf x (partnerOf x)).st = .lost then markStale x set.toNat else x) := by
  change execGrant set claim valid s = _
  simp only [execGrant, asked_of_heard hasked hup]
  exact (if_neg (Bool.eq_false_iff.mp hheld)).trans (apply_ite Host.Outcome.next _ _ _).symm

theorem standbyOf_raiseFences (i : Nat) : (ctxsOfSet (raiseFences (granted s i claim valid n) i claim.toNat) i).filter
    (fun c => (ctxOf (raiseFences (granted s i claim valid n) i claim.toNat) c).standby) = standbyOf s i := by
  simp only [ctxsOfSet_raiseFences, ctxOf_raiseFences]
  rfl

theorem takenOver_eq (i : Nat) : let v := raiseFences (granted s i claim valid n) i claim.toNat
    takenOver s i claim valid n = ((ctxsOfSet v i).filter fun c => (ctxOf v c).standby).foldl (fun y c => takeContext y (partnerOf v) claim.toNat valid c) v := by
  intro v
  rw [standbyOf_raiseFences, partnerOf_raiseFences]
  rfl

/-! ### Other answers, and PAIR_TAKE -/

theorem exec_refuse_of_heard (h : mailboxUp s = true) : exec (.refuse set valid) s =
    .next (modSet s set.toNat fun x => { x with asked := none, requesting := false, valid := valid }) := congrArg Host.Outcome.next (if_pos h)

theorem exec_refuse_of_unheard (h : ¬ mailboxUp s = true) : exec (.refuse set valid) s = .next s := congrArg Host.Outcome.next (if_neg h)

theorem exec_leaseAck_of_unmarked (h : (pairSet s set.toNat).staling = false ∨ ¬ mailboxUp s = true) : exec (.leaseAck set) s = .next s :=
  if_pos (by simpa using h)

/-- A set that runs SOLO, its records and its resync no longer waited for (12 R408). -/
def soloSet (s : State) (i : Nat) : State :=
  modPair (modSet s i fun x => { x with solo := true, staling := false, valid := false, resync := false }) fun x =>
    { x with unacked := x.unacked.filter fun u => !(ctxsOfSet s i).contains u.1, toSync := x.toSync.filter fun c => !(ctxsOfSet s i).contains c }

theorem exec_leaseAck_of_marked (h : (pairSet s set.toNat).staling = true) (hup : mailboxUp s = true) : exec (.leaseAck set) s =
    .next ((ctxsOfSet s set.toNat).foldl (fun t c => event (releaseSolo t c) c (evtEntry 0x11 0 stOk s.gt)) (soloSet s set.toNat)) :=
  if_neg (by simp [h, hup])

/-- A set of a formed pair, neither held nor asked for. -/
def FreeSet (s : State) (i : Nat) : Prop := s.pair.paired = true ∧ (pairSet s i).held = false ∧ (pairSet s i).requesting = false

theorem requestSet_of_free {i : Nat} (h : FreeSet s i) : requestSet s i = sendLease (modSet s i fun x => { x with requesting := true, asked := some s.gt }) 1 i := by
  obtain ⟨hpaired, hheld, hasked⟩ := h
  exact if_neg (by simp [hpaired, hheld, hasked])

theorem requestSet_of_taken {i : Nat} (h : ¬ FreeSet s i) : requestSet s i = s := by
  refine if_pos ?_
  by_contra hc
  simp only [Bool.or_eq_true, Bool.not_eq_true', not_or, Bool.not_eq_false, Bool.not_eq_true, and_assoc] at hc
  exact h hc

theorem exec_pairTake_of_secure : exec (.pairTake .secure set) s = .next (requestSet s set.toNat) := by
  change execPairTake .secure set s = _
  rw [execPairTake, if_pos rfl]

theorem exec_pairTake_of_other {r : Requester} (h : r ≠ .secure) : exec (.pairTake r set) s =
    .next (logRefused s r 0x340000C (BitVec.ofNat 32 (set.toNat * 2 + 1)) stDenied) := if_neg h

end

/-- Settles O43: each command by its `exec_…` equations; a grant of a set not held leaves `takeoverCounted`. -/
theorem leaseHolding : Obligations.LeaseHolding := by
  unfold Obligations.LeaseHolding
  intro s set i p cs acts renews stops heard free
  have hheard : mailboxUp s = true ↔ heard := mailboxUp_iff s
  refine ⟨fun h => ⟨_, exec_leaseRenewTimer_of_due h, _, modSet_setPut _ _ _, sendLease_asked _ _ _⟩, fun h => ⟨_, exec_leaseRenewTimer_of_idle h, rfl⟩,
    fun h => ⟨_, exec_leaseGuardStop_of_due h, _, modSet_setPut _ _ _, foldl_modCtx_frame _ _ _, ctxOf_foldl_modCtx_idem (f := heldBack) (fun _ => rfl) _ _⟩,
    fun h => ⟨_, exec_leaseGuardStop_of_idle h, rfl⟩, fun claim valid => ⟨?_, fun n hasked hup => ⟨granted s i claim valid n, rfl, ?_, ?_⟩⟩, fun claim => ?_,
    fun former claim c valid => ⟨takeContext_of_other, fun m h hstandby henable hcopy hgood htwin => ?_⟩, fun valid => ⟨?_, ?_⟩, ?_, ?_, ?_, ?_, ?_⟩
  · exact fun h => ⟨_, exec_grant_of_unasked (h.imp_right (mt hheard.mp)), rfl⟩
  · exact fun hheld => ⟨_, exec_grant_of_held hasked (hheard.mpr hup) hheld, rfl⟩
  · refine fun hheld => ⟨_, exec_grant_of_new hasked (hheard.mpr hup) hheld, _, takenOver s i claim valid n, takeoverCounted s i claim valid n, rfl, takenOver_eq i, fun hnone => if_pos ?_, fun hsome => ?_, rfl⟩
    · rw [← standbyOf_raiseFences (claim := claim) (valid := valid) (n := n), List.filter_eq_nil_iff]
      exact fun c hc => Bool.eq_false_iff.mp (hnone c hc)
    · obtain ⟨c, hc, hstandby⟩ := hsome
      have hmem : c ∈ standbyOf s i := standbyOf_raiseFences i ▸ List.mem_filter.mpr ⟨hc, hstandby⟩
      rw [takeoverCounted, if_neg (List.ne_nil_of_mem hmem)]
      exact bump_counted _ _ _
  · intro k t
    have hmax : t.pair.claimMax = tabPut s.pair.claimMax k (max claim (tabGet s.pair.claimMax 0 k)) := raiseFences_claimMax s i claim
    refine ⟨?_, fun j hj => ?_, raiseFences_frame s i claim⟩
    · rw [hmax, tabGet, tabFind_put_same]
      rfl
    · rw [hmax, tabGet, tabFind_put_other _ _ hj]
      rfl
  · exact ⟨restoredRings (ctxOf s c) (some m), _, rfl, rfl, rfl, rfl, rfl, rfl, rfl, rfl, takeContext_of_copy hstandby henable hcopy hgood htwin⟩
  · exact fun h => ⟨_, exec_refuse_of_heard (hheard.mpr h), modSet_setPut _ _ _⟩
  · exact fun h => ⟨_, exec_refuse_of_unheard (mt hheard.mp h), rfl⟩
  · exact fun h => ⟨_, exec_leaseAck_of_unmarked (h.imp_right (mt hheard.mp)), rfl⟩
  · exact fun h hup => ⟨_, exec_leaseAck_of_marked h (hheard.mpr hup), _, _, modSet_setPut _ _ _, rfl, rfl⟩
  · exact fun h => ⟨_, exec_pairTake_of_secure.trans (congrArg Host.Outcome.next (requestSet_of_free h)), _, modSet_setPut _ _ _, sendLease_asked _ _ _⟩
  · exact fun h => ⟨_, exec_pairTake_of_secure, requestSet_of_taken h⟩
  · exact fun r h => ⟨_, exec_pairTake_of_other h, rfl⟩

end Sys2Proof.Proofs
end

section
/-!
The mirror's flow (12_mirrored_pairs.md R395 to R397, R403, R408 to R410).
-/
namespace Sys2Proof.Proofs
open Sys2Proof Sys2Proof.Machine

/-! ### Commit records -/

/-- The answer to a commit record: a completion on a mirror link in service, or nothing without one. -/
def answerCommit (t : State) (tag st : Nat) : State :=
  match pickLink (linksTo t (partnerOf t) 1) 0 with
  | some l => transmit t l.1 l.2 (partnerOf t) tag 0 (.completion st 0 [])
  | none => t

theorem answerCommit_of_none {u : State} {tag st : Nat} (h : pickLink (linksTo u (partnerOf u) 1) 0 = none) : answerCommit u tag st = u := by
  simp only [answerCommit, h]

theorem answerCommit_of_some {u : State} {tag st : Nat} {l : Nat × Nat} (h : pickLink (linksTo u (partnerOf u) 1) 0 = some l) :
    answerCommit u tag st = transmit u l.1 l.2 (partnerOf u) tag 0 (.completion st 0 []) := by
  simp only [answerCommit, h]

/-- The set of the pair's that a context belongs to, as the fences number it. -/
def mirrorKey (s : State) (c : Nat) : Nat := s.rst.trayPos / 2 * 2 + setOf s (ctxOf s c)

/-- The device takes commit records for a context. -/
def Mirrors (s : State) (c : Nat) : Prop := s.pair.paired = true ∧ ((ctxOf s c).mirror = true ∨ (ctxOf s c).shadow = true)

/-- A record's claim has been overtaken. -/
def StaleClaim (s : State) (c claim : Nat) : Prop := claim = 0 ∨ claim < tabGet s.pair.claimMax 0 (mirrorKey s c)

/-- A record's lines are those it speaks of. -/
def GoodLines (lines : List Byte) (r : Commit) : Prop := lines.length = r.bytes ∧ polyOut 2 (polyRun 2 (polyInit 2) lines) = r.crc

/-- The device with a record's claim as the set's CLAIM_MAX. -/
def claimTaken (s : State) (c claim : Nat) : State := modPair s fun x => { x with claimMax := tabPut x.claimMax (mirrorKey s c) claim }

section
variable {s : State} {c : BitVec 12} {tag : BitVec 16} {lines : List Byte} {r : Commit} {image : Session} {req : Option Adm} {frames : BitVec 8}

theorem exec_commitRecord_of_other (h : ¬ Mirrors s c.toNat) : exec (.commitRecord c tag lines r image req frames) s = .next s := by
  refine if_pos ?_
  by_contra hc
  simp only [Bool.or_eq_true, Bool.not_eq_true', not_or, Bool.not_eq_false, Bool.or_eq_false_iff, not_and_or] at hc
  exact h hc

/-- What becomes of a record that the device takes. -/
theorem exec_commitRecord_of_mine (h : Mirrors s c.toNat) : exec (.commitRecord c tag lines r image req frames) s =
    if r.claim = 0 || decide (r.claim < tabGet s.pair.claimMax 0 (mirrorKey s c.toNat)) then .next (answerCommit (bump s 0x340004C 1) tag.toNat stStaleClaim)
    else if decide (lines.length ≠ r.bytes) || decide (polyOut 2 (polyRun 2 (polyInit 2) lines) ≠ r.crc) then .next (answerCommit (claimTaken s c.toNat r.claim) tag.toNat stMirrorCrc)
    else .next (answerCommit (modPair (claimTaken s c.toNat r.claim) fun x => { x with copies := tabPut x.copies c.toNat ⟨r, image, req, frames.toNat⟩ }) tag.toNat stOk) := by
  obtain ⟨hpaired, hmine⟩ := h
  refine (if_neg ?_).trans rfl
  rcases hmine with h | h <;> simp [hpaired, h]

theorem exec_commitRecord_of_stale (h : Mirrors s c.toNat) (hstale : StaleClaim s c.toNat r.claim) :
    exec (.commitRecord c tag lines r image req frames) s = .next (answerCommit (bump s 0x340004C 1) tag.toNat stStaleClaim) :=
  (exec_commitRecord_of_mine h).trans (if_pos (by simpa [StaleClaim] using hstale))

theorem exec_commitRecord_of_bad (h : Mirrors s c.toNat) (hclaim : ¬ StaleClaim s c.toNat r.claim) (hbad : ¬ GoodLines lines r) :
    exec (.commitRecord c tag lines r image req frames) s = .next (answerCommit (claimTaken s c.toNat r.claim) tag.toNat stMirrorCrc) :=
  (exec_commitRecord_of_mine h).trans ((if_neg (by simpa [StaleClaim] using hclaim)).trans (if_pos (by simpa [GoodLines, ← imp_iff_not_or] using hbad)))

theorem exec_commitRecord_of_good (h : Mirrors s c.toNat) (hclaim : ¬ StaleClaim s c.toNat r.claim) (hgood : GoodLines lines r) :
    exec (.commitRecord c tag lines r image req frames) s =
      .next (answerCommit (modPair (claimTaken s c.toNat r.claim) fun x => { x with copies := tabPut x.copies c.toNat ⟨r, image, req, frames.toNat⟩ }) tag.toNat stOk) :=
  (exec_commitRecord_of_mine h).trans ((if_neg (by simpa [StaleClaim] using hclaim)).trans (if_neg (by simpa [GoodLines] using hgood)))

end

/-! ### Acknowledgements that stay out -/

section
variable {s : State}

/-- A context's commit record is overdue. -/
def RecordLate (s : State) (c : Nat) : Prop := ∃ n, (c, n) ∈ s.pair.unacked ∧ RunOut s n

theorem recordLate_iff {c : Nat} : (s.pair.unacked.any fun u => u.1 = c && ranOut s u.2) = true ↔ RecordLate s c := by
  simp only [List.any_eq_true, Bool.and_eq_true, decide_eq_true_eq, ranOut_eq_true_iff]
  constructor
  · rintro ⟨⟨d, n⟩, hmem, rfl, hrun⟩
    exact ⟨n, hmem, hrun⟩
  · rintro ⟨n, hmem, hrun⟩
    exact ⟨(c, n), hmem, rfl, hrun⟩

theorem exec_mirrorAckTimeout_of_late {c : BitVec 12} (h : RecordLate s c.toNat) : exec (.mirrorAckTimeout c) s = .next (ackLate s c.toNat) :=
  if_pos (recordLate_iff.mpr h)

theorem exec_mirrorAckTimeout_of_idle {c : BitVec 12} (h : ¬ RecordLate s c.toNat) : exec (.mirrorAckTimeout c) s = .next s := if_neg (mt recordLate_iff.mp h)

/-- A set can be marked stale: held, neither SOLO nor being marked. -/
def MayStale (s : State) (i : Nat) : Prop := (pairSet s i).held = true ∧ (pairSet s i).solo = false ∧ (pairSet s i).staling = false

theorem markStale_of_may {i : Nat} (h : MayStale s i) : markStale s i = sendLease (modSet s i fun x => { x with staling := true, resync := false }) 4 i := by
  obtain ⟨hheld, hsolo, hstaling⟩ := h
  exact if_neg (by simp [hheld, hsolo, hstaling])

theorem markStale_of_other {i : Nat} (h : ¬ MayStale s i) : markStale s i = s := by
  refine if_pos ?_
  by_contra hc
  simp only [Bool.or_eq_true, Bool.not_eq_true', not_or, Bool.not_eq_false, Bool.not_eq_true, and_assoc] at hc
  exact h hc

/-! ### Resync and failback -/

variable {set : BitVec 1}

/-- Every session of a set being resynced is acknowledged. -/
def Synced (s : State) (i : Nat) : Prop := (pairSet s i).resync = true ∧ ∀ c, c ∈ s.pair.toSync → c ∉ ctxsOfSet s i

theorem exec_resyncComplete_of_waiting (h : ¬ Synced s set.toNat) : exec (.resyncComplete set) s = .next s := by
  refine if_pos ?_
  by_contra hc
  simp only [Bool.or_eq_true, Bool.not_eq_true', not_or, Bool.not_eq_false, List.any_eq_true, List.contains_iff_mem, not_exists, not_and] at hc
  exact h hc

/-- The set's mirror is valid again, and the authority is told. -/
def markedValid (s : State) (i : Nat) : State := sendLease (modSet s i fun x => { x with solo := false, resync := false, valid := true }) 5 i

theorem exec_resyncComplete_of_synced (h : Synced s set.toNat) : exec (.resyncComplete set) s =
    .next (modSet ((ctxsOfSet s set.toNat).foldl (fun t c => event t c (evtEntry 0x12 0 stOk s.gt)) (markedValid s set.toNat)) set.toNat fun x =>
      { x with handBack := x.handBack || (decide (set.toNat ≠ s.rst.trayPos % 2) && (regVal s 0x3400000).getLsbD 6) }) := by
  obtain ⟨hresync, hacked⟩ := h
  refine if_neg ?_
  simp only [Bool.or_eq_true, Bool.not_eq_true', not_or, Bool.not_eq_false, List.any_eq_true, List.contains_iff_mem, not_exists, not_and]
  exact ⟨hresync, hacked⟩

/-- The partner's set, held with a mirror, is to go back. -/
def GoesBack (s : State) (i : Nat) (taken : Bool) : Prop := (pairSet s i).held = true ∧ (pairSet s i).solo = false ∧ (pairSet s i).staling = false ∧
  i ≠ s.rst.trayPos % 2 ∧ (taken = true ∨ (regVal s 0x3400000).getLsbD 6 = true)

theorem exec_failback_of_goes {taken : Bool} (h : GoesBack s set.toNat taken) : exec (.failback set taken) s =
    .next (handBacks (modSet s set.toNat fun x => { x with handBack := true })) := by
  obtain ⟨hheld, hsolo, hstaling, hother, hasked⟩ := h
  refine if_neg ?_
  simp only [Bool.or_eq_true, Bool.not_eq_true', not_or, Bool.not_eq_false, Bool.not_eq_true, decide_eq_true_eq]
  exact ⟨⟨⟨⟨hheld, hsolo⟩, hstaling⟩, hother⟩, by rcases hasked with h | h <;> simp [h]⟩

theorem exec_failback_of_stays {taken : Bool} (h : ¬ GoesBack s set.toNat taken) : exec (.failback set taken) s = .next s := by
  refine if_pos ?_
  by_contra hc
  simp only [Bool.or_eq_true, Bool.not_eq_true', not_or, Bool.not_eq_false, Bool.not_eq_true, decide_eq_true_eq] at hc
  obtain ⟨⟨⟨⟨hheld, hsolo⟩, hstaling⟩, hother⟩, hasked⟩ := hc
  exact h ⟨hheld, hsolo, hstaling, hother, by simpa using hasked⟩

end

/-- Settles O44: records by `exec_commitRecord_of_…`, the rest by the equations of each command. -/
theorem mirrorFlow : Obligations.MirrorFlow := by
  unfold Obligations.MirrorFlow
  refine ⟨fun s c tag lines r image req frames => ⟨?_, ?_, ?_, ?_⟩, fun s c => ⟨?_, ?_⟩, fun s i => ⟨?_, ?_⟩, fun s set => ⟨?_, ?_, fun taken => ⟨?_, ?_⟩⟩, fun s i => ?_⟩
  · exact fun h => ⟨_, exec_commitRecord_of_other h, rfl⟩
  · exact fun h hstale => ⟨_, exec_commitRecord_of_stale h hstale, _, bump_counted _ _ _, answerCommit_of_none, fun l => answerCommit_of_some⟩
  · exact fun h hclaim hbad => ⟨_, exec_commitRecord_of_bad h hclaim hbad, answerCommit_of_none, fun l => answerCommit_of_some⟩
  · exact fun h hclaim hgood => ⟨_, exec_commitRecord_of_good h hclaim hgood, _, tabFind_put_same _ _ _, fun e he => tabFind_put_other _ _ he, rfl,
      answerCommit_of_none, fun l => answerCommit_of_some⟩
  · exact fun h => ⟨_, exec_mirrorAckTimeout_of_late h, rfl⟩
  · exact fun h => ⟨_, exec_mirrorAckTimeout_of_idle h, rfl⟩
  · exact fun h => ⟨_, modSet_setPut _ _ _, markStale_of_may h ▸ sendLease_asked _ _ _⟩
  · exact markStale_of_other
  · exact fun h => ⟨_, exec_resyncComplete_of_synced h, _, _, _, modSet_setPut _ _ _, sendLease_asked _ _ _, rfl, modSet_setPut _ _ _⟩
  · exact fun h => ⟨_, exec_resyncComplete_of_waiting h, rfl⟩
  · exact fun h => ⟨_, exec_failback_of_goes h, _, modSet_setPut _ _ _, rfl⟩
  · exact fun h => ⟨_, exec_failback_of_stays h, rfl⟩
  · exact ⟨_, _, rfl, sendLease_asked _ _ _, modSet_setPut _ _ _⟩

end Sys2Proof.Proofs
end

section
/-!
Provisioning commands (13_tenancy_security.md R421 to R427, R435).
-/
namespace Sys2Proof.Proofs
open Sys2Proof Sys2Proof.Machine

/-! ### Checks in their order -/

theorem firstFail_cons_of_bad {st : Nat} {bad : Bool} (rest : List (Nat × Bool)) (h : bad = true) : firstFail ((st, bad) :: rest) = some st := if_pos h

theorem firstFail_cons_of_good {st : Nat} {bad : Bool} (rest : List (Nat × Bool)) (h : bad = false) : firstFail ((st, bad) :: rest) = firstFail rest :=
  if_neg (Bool.eq_false_iff.mp h)

/-- Checks that all pass were each passed. -/
theorem firstFail_eq_none_iff (cs : List (Nat × Bool)) : firstFail cs = none ↔ ∀ e ∈ cs, e.2 = false := by
  induction cs with
  | nil => simp [firstFail]
  | cons e cs ih =>
    obtain ⟨st, bad⟩ := e
    cases bad <;> simp [firstFail, ih]

/-! ### Registration and completion -/

theorem mboxBusy_iff (s : State) : mboxBusy s = true ↔ ∃ y, (false, y) ∈ s.sec.cmds := by
  simp [mboxBusy]

theorem submit_of_busy {s : State} {x : SecCmd} (h : ∃ y, (false, y) ∈ s.sec.cmds) : submit s false x = s := if_pos (by simp [(mboxBusy_iff s).mpr h])

theorem busyBit_set (v : Word) : (setBits v 31 31 1).getLsbD 31 = true := getLsbD_setBits_same v true (by decide)

theorem submit_registered {s : State} {mgmt : Bool} {x : SecCmd} (h : ¬ (mgmt = false ∧ ∃ y, (false, y) ∈ s.sec.cmds)) : Registered s (submit s mgmt x) mgmt x := by
  rw [← mboxBusy_iff] at h
  cases mgmt with
  | true => exact ⟨fun _ => rfl, (nomatch ·)⟩
  | false =>
    have hfree : mboxBusy s = false := by simpa using h
    rw [submit, if_neg (by simp [hfree])]
    exact ⟨(nomatch ·), fun _ => ⟨(congrArg (·.getLsbD 31) (regVal_regPut_same _ _ _)).trans (busyBit_set _),
      fun o ho => regVal_regPut_other _ _ (by simpa using ho), regPut_frame _ _ _⟩⟩

theorem endCommand_ended (s : State) (mgmt : Bool) (opcode st : Nat) : Ended s (endCommand s mgmt opcode st) mgmt opcode st := by
  cases mgmt with
  | true => exact ⟨fun _ => rfl, (nomatch ·)⟩
  | false => exact ⟨(nomatch ·), fun _ => ⟨regVal_regPut_same _ _ _, fun o ho => regVal_regPut_other _ _ (by simpa using ho), rfl⟩⟩

section
variable {s : State} {mgmt : Bool} {opcode st : Nat} {f : State → State}

theorem command_of_denied (refusal : Option Nat) (hmbox : mgmt = false) (honly : s.sec.mgmtOnly = true) : command s mgmt opcode refusal f = endCommand s mgmt opcode stDenied :=
  if_pos (by simp [hmbox, honly])

theorem command_of_refused (h : mgmt = true ∨ s.sec.mgmtOnly = false) : command s mgmt opcode (some st) f = endCommand s mgmt opcode st :=
  if_neg (by rcases h with h | h <;> simp [h])

theorem command_of_accepted (h : mgmt = true ∨ s.sec.mgmtOnly = false) : command s mgmt opcode none f = endCommand (f s) mgmt opcode stOk :=
  if_neg (by rcases h with h | h <;> simp [h])

/-- A command that is registered and runs through `command` does what `CommandRuns` says. -/
theorem commandRuns_of {c : Instr} {x : SecCmd} {refusal : Option Nat} {act : State → Prop}
    (hexec : exec c s = .next (submit s mgmt x)) (hrun : runCmd s mgmt x = command s mgmt opcode refusal f) (hact : refusal = none → act (f s)) :
    CommandRuns c x s mgmt opcode refusal act := by
  refine ⟨fun hbusy => ⟨_, hexec, ?_⟩, fun hfree => ⟨_, hexec, submit_registered hfree⟩, fun hmbox honly => ?_, fun hopen => ⟨fun st hst => ?_, fun hnone => ⟨f s, hact hnone, ?_⟩⟩⟩
  · obtain ⟨rfl, hheld⟩ := hbusy
    exact submit_of_busy hheld
  · rw [hrun, command_of_denied _ hmbox honly]
    exact endCommand_ended _ _ _ _
  · rw [hrun, hst, command_of_refused hopen]
    exact endCommand_ended _ _ _ _
  · rw [hrun, hnone, command_of_accepted hopen]
    exact endCommand_ended _ _ _ _

end

section
variable (s : State) (mgmt : Bool)

theorem runCmd_provision (c : Nat) (p : Prov) : runCmd s mgmt (.provision c p) = command s mgmt 1 (provRefusal s c p) fun t => provision t c p := rfl

theorem runCmd_unprovision (c : Nat) : runCmd s mgmt (.unprovision c) =
    command s mgmt 2 (firstFail [(stRange, decide (4096 ≤ c)), (stCtxState, (ctxOf s c).enable || (ctxOf s c).enabled)])
      fun t => modCtx t c fun q => { q with prov := none, newClass := none } := rfl

theorem runCmd_setDomain (d : Nat) (y : DomShares) : runCmd s mgmt (.setDomain d y) = command s mgmt 3 (domainRefusal s d y) fun t => setShares t d y := rfl

theorem runCmd_moveStack (n d : Nat) : runCmd s mgmt (.moveStack n d) = command s mgmt 4 (moveRefusal s n d) fun t => startMove t n d := rfl

theorem runCmd_slotSet (n : Nat) (e : Bool) (m : Nat) (k : Nat × Nat) : runCmd s mgmt (.slotSet n e m k) =
    command s mgmt 5 (slotRefusal s n m k) fun t => setSlot t n e m k := rfl

theorem runCmd_setPolicy (b : Bool) : runCmd s mgmt (.setPolicy b) =
    command s mgmt 6 (if mgmt then none else some stDenied) fun t => { t with sec := { t.sec with strictTime := b } } := rfl

end

/-- The commands of the management path run before the mailbox's. -/
theorem runCmds_eq (s : State) : runCmds s = (s.sec.cmds.filter fun e => !e.1).foldl (fun t e => runCmd t e.1 e.2)
    ((s.sec.cmds.filter fun e => e.1).foldl (fun t e => runCmd t e.1 e.2) { s with sec := { s.sec with cmds := [] } }) := List.foldl_append

/-! ### PROVISION_CTX and UNPROVISION_CTX -/

section
variable {s : State} {c : Nat} {p : Prov}

/-- A context that is enabled, or is being enabled. -/
def Enabled (k : Ctx) : Prop := k.enable = true ∨ k.enabled = true

/-- A context with a provisioning record: an enabled one that would change its class keeps its class's parameters for now (13 R419). -/
def reprovisioned (p : Prov) (k : Ctx) : Ctx := match k.prov with
  | some old => if (k.enable || k.enabled) && old.cls ≠ p.cls then
      { k with prov := some { p with cls := old.cls, period := old.period, stepUs := old.stepUs, boundUs := old.boundUs }, newClass := some p }
    else { k with prov := some p, newClass := none }
  | none => { k with prov := some p, newClass := none }

theorem reprovisioned_of_newClass {k : Ctx} {old : Prov} (hprov : k.prov = some old) (hon : Enabled k) (hcls : old.cls ≠ p.cls) : reprovisioned p k =
    { k with prov := some { p with cls := old.cls, period := old.period, stepUs := old.stepUs, boundUs := old.boundUs }, newClass := some p } := by
  simp only [reprovisioned, hprov]
  exact if_pos (by simp [hcls, show k.enable = true ∨ k.enabled = true from hon])

theorem reprovisioned_of_sameClass {k : Ctx} (h : ∀ old, k.prov = some old → Enabled k → old.cls = p.cls) :
    reprovisioned p k = { k with prov := some p, newClass := none } := by
  cases hprov : k.prov with
  | none => simp only [reprovisioned, hprov]
  | some old =>
    simp only [reprovisioned, hprov]
    exact if_neg (by simpa [Enabled] using h old hprov)

theorem provision_ctxPut (s : State) (c : Nat) (p : Prov) : CtxPut s (provision s c p) c (reprovisioned p (ctxOf s c)) := modCtx_ctxPut s c (reprovisioned p)

theorem provision_of_newClass {old : Prov} (hprov : (ctxOf s c).prov = some old) (hon : Enabled (ctxOf s c)) (hcls : old.cls ≠ p.cls) :
    CtxPut s (provision s c p) c
      { ctxOf s c with prov := some { p with cls := old.cls, period := old.period, stepUs := old.stepUs, boundUs := old.boundUs }, newClass := some p } := by
  have hput := provision_ctxPut s c p
  rwa [reprovisioned_of_newClass hprov hon hcls] at hput

theorem provision_of_sameClass (h : ∀ old, (ctxOf s c).prov = some old → Enabled (ctxOf s c) → old.cls = p.cls) :
    CtxPut s (provision s c p) c { ctxOf s c with prov := some p, newClass := none } := by
  have hput := provision_ctxPut s c p
  rwa [reprovisioned_of_sameClass h] at hput

/-- A field of the record outside its range (13 R422). -/
def ProvOutOfRange (c : Nat) (p : Prov) : Prop :=
  4096 ≤ c ∨ 8 ≤ p.dom ∨ 2 < p.cls ∨ p.weight = 0 ∨ p.maxOut = 0 ∨ p.maxTokens = 0 ∨ 4194304 < p.maxTokens ∨ 64 < p.maxInst

/-- An enabled context that would change its domain. -/
def ProvMoves (s : State) (c : Nat) (p : Prov) : Prop := Enabled (ctxOf s c) ∧ (ctxOf s c).prov.map Prov.dom ≠ some p.dom

theorem provRefusal_of_range (h : ProvOutOfRange c p) : provRefusal s c p = some stRange :=
  firstFail_cons_of_bad _ (by simpa [ProvOutOfRange, or_assoc] using h)

theorem provRefusal_of_inRange (h : ¬ ProvOutOfRange c p) : ∃ rest, provRefusal s c p =
    firstFail ((stCtxState, ((ctxOf s c).enable || (ctxOf s c).enabled) && (ctxOf s c).prov.map Prov.dom ≠ some p.dom) ::
      (stSchedInfeasible, p.cls = 2 && !feasible (p :: reservedIn s p.dom c)) :: rest) :=
  ⟨_, firstFail_cons_of_good _ (by simpa [ProvOutOfRange, and_assoc] using h)⟩

theorem provRefusal_of_moved (hrange : ¬ ProvOutOfRange c p) (h : ProvMoves s c p) : provRefusal s c p = some stCtxState := by
  obtain ⟨rest, hrest⟩ := provRefusal_of_inRange (s := s) hrange
  rw [hrest]
  exact firstFail_cons_of_bad _ (by simpa [ProvMoves, Enabled] using h)

theorem provRefusal_of_infeasible (hrange : ¬ ProvOutOfRange c p) (hstays : ¬ ProvMoves s c p) (hcls : p.cls = 2)
    (h : feasible (p :: reservedIn s p.dom c) = false) : provRefusal s c p = some stSchedInfeasible := by
  obtain ⟨rest, hrest⟩ := provRefusal_of_inRange (s := s) hrange
  rw [hrest, firstFail_cons_of_good _ (by simpa [ProvMoves, Enabled] using hstays)]
  exact firstFail_cons_of_bad _ (by simp [hcls, h])

end

/-! ### The tests of reserved contexts (R435) -/

theorem feasible_one_iff (p : Prov) : feasible [p] = true ↔ 0 < p.period ∧ 200 + p.stepUs ≤ p.boundUs ∧ 2 * p.stepUs ≤ p.period * 100 := by
  simp [feasible, and_assoc]

theorem feasible_two_iff (p q : Prov) (hp : 0 < p.period) (hq : 0 < q.period) : feasible [p, q] = true ↔
    200 + p.stepUs + q.stepUs * ((p.boundUs + q.period * 100 - 1) / (q.period * 100) + 1) ≤ p.boundUs ∧
    200 + q.stepUs + p.stepUs * ((q.boundUs + p.period * 100 - 1) / (p.period * 100) + 1) ≤ q.boundUs ∧
    2 * (p.stepUs * (q.period * 100) + q.stepUs * (p.period * 100)) ≤ p.period * 100 * (q.period * 100) := by
  simp [feasible, and_assoc, hp, hq]

/-! ### SET_DOMAIN -/

section
variable {s : State} {d : Nat} {y : DomShares}

/-- A total of the shares exceeds its limit (13 R423, R424). -/
def SharesOutOfRange (s : State) (d : Nat) (y : DomShares) : Prop :=
  8 ≤ d ∨ 36 < shareSum s d y.t1 Dom.t1Gib ∨ t2Limit s < shareSum s d y.t2 Dom.t2Gib ∨ 4096 < y.t2 ∨ 100 < shareSum s d y.bw Dom.bwPct ∨
    100 < shareSum s d y.sil Dom.silPct ∨ 24 < shareSum s d y.planes Dom.planes ∨ 32 < shareSum s d y.slots Dom.slots

/-- A domain with a stack would have none of a share it needs. -/
def SharesBelowLeast (s : State) (d : Nat) (y : DomShares) : Prop := stacksOf s d ≠ [] ∧ (y.bw = 0 ∨ y.sil = 0 ∨ y.planes = 0)

/-- A domain uses more than the share it would have. -/
def SharesBelowUse (s : State) (d : Nat) (y : DomShares) : Prop :=
  y.t1 * gib < (domOf s d).t1Gib * gib - t1Free s d ∨ y.t2 * gib < (domOf s d).t2Gib * gib - t2Free s d ∨ y.slots < slotsUsed s d

theorem domainRefusal_of_range (h : SharesOutOfRange s d y) : domainRefusal s d y = some stRange :=
  firstFail_cons_of_bad _ (by simpa [SharesOutOfRange, or_assoc] using h)

theorem domainRefusal_of_short (hrange : ¬ SharesOutOfRange s d y) (h : SharesBelowLeast s d y ∨ SharesBelowUse s d y) : domainRefusal s d y = some stSecRefused :=
  (firstFail_cons_of_good _ (by simpa [SharesOutOfRange, and_assoc] using hrange)).trans
    (firstFail_cons_of_bad _ (by simpa [SharesBelowLeast, SharesBelowUse, or_assoc] using h))

theorem domainRefusal_of_fit (hrange : ¬ SharesOutOfRange s d y) (hleast : ¬ SharesBelowLeast s d y) (huse : ¬ SharesBelowUse s d y) : domainRefusal s d y = none :=
  (firstFail_cons_of_good _ (by simpa [SharesOutOfRange, and_assoc] using hrange)).trans
    (firstFail_cons_of_good _ (by
      rw [Bool.or_eq_false_iff]
      exact ⟨by simpa [SharesBelowLeast, and_assoc] using hleast, by simpa [SharesBelowUse, and_assoc] using huse⟩))

end

/-! ### The other commands -/

theorem unprovisionRefusal_eq (s : State) (c : Nat) : firstFail [(stRange, decide (4096 ≤ c)), (stCtxState, (ctxOf s c).enable || (ctxOf s c).enabled)] =
    if 4096 ≤ c then some stRange else if (ctxOf s c).enable = true ∨ (ctxOf s c).enabled = true then some stCtxState else none := by
  simp [firstFail]

/-- What is kept of a slot that is not there. -/
def noSlot : SignerSlot := ⟨false, false, (0, 0), 0⟩

theorem slotRefusal_eq (s : State) (n minSvn : Nat) (key : Nat × Nat) : slotRefusal s n minSvn key =
    if 8 ≤ n then some stRange else if minSvn < (s.sec.slots.getD n noSlot).minSvn ∨ ((s.sec.slots.getD n noSlot).en = true ∧ (s.sec.slots.getD n noSlot).key ≠ key) then some stSecRefused else none := by
  simp [slotRefusal, firstFail, noSlot]

/-- A move that is not refused names a stack and a domain, or none. -/
theorem range_of_moveRefusal_none {s : State} {n dest : Nat} (h : moveRefusal s n dest = none) : n < 8 ∧ dest ≤ 8 := by
  have hrange := (firstFail_eq_none_iff _).mp h _ List.mem_cons_self
  simpa using hrange

/-- Settles O45: every command is `commandRuns_of`; what is refused stands in the `…Refusal_…` lemmas, the tests of R435 in `feasible_…`. -/
theorem provisioningCommands : Obligations.ProvisioningCommands := by
  unfold Obligations.ProvisioningCommands
  refine ⟨runCmds_eq, fun s mgmt => ⟨?_, ?_, ?_, ?_, ?_, ?_⟩, fun s c p => ⟨provRefusal_of_range, provRefusal_of_moved, provRefusal_of_infeasible⟩,
    feasible_one_iff, feasible_two_iff⟩
  · exact fun ctx dom cls w maxOut maxTokens maxInst period stepUs boundUs =>
      commandRuns_of rfl (runCmd_provision _ _ _ _) fun _ => ⟨fun old hprov hon hcls => provision_of_newClass hprov hon hcls, provision_of_sameClass⟩
  · intro ctx k
    rw [← unprovisionRefusal_eq]
    exact commandRuns_of rfl (runCmd_unprovision _ _ _) fun _ => modCtx_ctxPut s ctx.toNat _
  · intro dom t1 t2 bw sil planes slots d x range least uses
    have hleast : SharesBelowLeast s d ⟨t1.toNat, t2.toNat, bw.toNat, sil.toNat, planes.toNat, slots.toNat⟩ ↔ least := by
      simp only [SharesBelowLeast, least, BitVec.toNat_eq, BitVec.toNat_zero]
    refine ⟨domainRefusal s d ⟨t1.toNat, t2.toNat, bw.toNat, sil.toNat, planes.toNat, slots.toNat⟩, fun h => domainRefusal_of_range h,
      fun hrange hshort => domainRefusal_of_short hrange (hshort.imp_left hleast.mpr), fun hrange hno huse => domainRefusal_of_fit hrange (mt hleast.mp hno) huse,
      commandRuns_of rfl (runCmd_setDomain _ _ _ _) fun _ => modDom_domPut s d _⟩
  · exact fun stack dest => commandRuns_of rfl (runCmd_moveStack _ _ _ _) fun hnone => ⟨rfl, hnone, range_of_moveRefusal_none hnone⟩
  · intro slot enable minSvn x y old key
    have hrefusal := slotRefusal_eq s slot.toNat minSvn.toNat key
    exact hrefusal ▸ commandRuns_of rfl (runCmd_slotSet _ _ _ _ _ _) fun _ => rfl
  · exact fun strict => commandRuns_of rfl (runCmd_setPolicy _ _ _) fun _ => rfl

end Sys2Proof.Proofs
end

section
/-!
SPDM, IDE_KM and TDISP (13_tenancy_security.md R430 to R432).
-/
namespace Sys2Proof.Proofs
open Sys2Proof Sys2Proof.Machine

/-! ### SPDM -/

section
variable {s : State} {path code : Nat} {f : Spdm → Spdm} {body : List Byte}

theorem spdmOf_spdmStep_same : spdmOf (spdmStep s path code true f body) path = f (spdmOf s path) := tabGet_set_same _ _ _ _

theorem spdmOf_spdmStep_other {p : Nat} (h : p ≠ path) : spdmOf (spdmStep s path code true f body) p = spdmOf s p := tabGet_set_other _ _ _ _ h

/-- A request that a responder's step answers is answered in its order. -/
theorem responds_of {c : Instr} {p : Prop} {ok : Bool} (hexec : exec c s = .next (spdmStep s path code ok f body)) (hok : ok = true ↔ p) : Responds c s path code p f body := by
  refine ⟨fun h => ⟨_, hexec, ?_⟩, fun h => ⟨_, hexec, ?_⟩⟩
  · rw [hok.mpr h]
    exact ⟨spdmOf_spdmStep_same, fun _ => spdmOf_spdmStep_other, rfl⟩
  · exact if_neg (mt hok.mp h)

end

/-! ### IDE keys -/

section
variable {s : State} {path : BitVec 1} {stream : BitVec 6} {install : Bool}

/-- The keys after a stream's are installed or removed. -/
def ideKeyed (s : State) (stream : Nat) (install : Bool) : List (Nat × Nat) := if install then tabPut s.sec.ide stream 1 else tabDel s.sec.ide stream

theorem ideKeyed_same (s : State) (stream : Nat) (install : Bool) : (tabFind (ideKeyed s stream install) stream).isSome = install := by
  cases install
  · exact congrArg Option.isSome (tabFind_del_same _ _)
  · exact congrArg Option.isSome (tabFind_put_same _ _ _)

theorem ideKeyed_other (s : State) (install : Bool) {stream k : Nat} (h : k ≠ stream) : tabFind (ideKeyed s stream install) k = tabFind s.sec.ide k := by
  cases install
  · exact tabFind_del_other _ h
  · exact tabFind_put_other _ _ h

theorem exec_ideKm_of_open (h : (spdmOf s path.toNat).session = true) : exec (.ideKm path stream install) s =
    .next (send { s with sec := { s.sec with ide := ideKeyed s stream.toNat install } } (.spdm 0x7E [])) := if_pos h

theorem exec_ideKm_of_closed (h : (spdmOf s path.toNat).session = false) : exec (.ideKm path stream install) s = .next (send s (.spdm 0x7F [0x04#8])) :=
  if_neg (Bool.eq_false_iff.mp h)

end

/-! ### TDISP -/

theorem setTdi_tdiPut (s : State) (v : Nat) (x : TdiState) : TdiPut s (setTdi s v x) v x := ⟨tabGet_set_same _ _ _ _, fun _ h => tabGet_set_other _ _ _ _ h, rfl⟩

/-- A VF's slots map a context. -/
def MapsCtx (s : State) (v c : Nat) : Prop := ∃ i, i < 64 ∧ slotCtx s v i = some c

theorem mem_mapped {s : State} {v c : Nat} : c ∈ (List.range 64).filterMap (slotCtx s v) ↔ MapsCtx s v c := by
  simp [MapsCtx, List.mem_filterMap]

theorem isolated_iff (s : State) (v : Nat) : isolated s v = true ↔
    (∀ c, MapsCtx s v c → (ctxOf s c).prov.isSome = true) ∧ ∀ c d e, MapsCtx s v c → domOfCtx s c = some d → e ∈ ctxsOfDom s d → fnOf s e = v := by
  simp only [isolated, Bool.and_eq_true, List.all_eq_true, List.mem_filterMap (f := domOfCtx s), mem_mapped, decide_eq_true_eq]
  refine and_congr_right fun _ => ⟨fun h c d e hc hd he => h d ⟨c, hc, hd⟩ e he, ?_⟩
  rintro h d ⟨c, hc, hd⟩ e he
  exact h c d e hc hd he

section
variable {s : State} {vf : BitVec 6}

theorem exec_lockInterfaceRequest_of_free (hvf : vf.toNat ≠ 0) (htdi : tdiOf s vf.toNat = .unlocked) (halone : isolated s vf.toNat = true) :
    exec (.lockInterfaceRequest vf) s = .next (send (setTdi s vf.toNat .lockedCfg) (.plain "TDISP locked" vf.toNat)) := if_pos (by simp [hvf, htdi, halone])

theorem exec_lockInterfaceRequest_of_refused (h : ¬ (vf.toNat ≠ 0 ∧ tdiOf s vf.toNat = .unlocked ∧ isolated s vf.toNat = true)) :
    exec (.lockInterfaceRequest vf) s = .next (send s (.plain "TDISP invalid interface state" vf.toNat)) := by
  refine if_neg ?_
  simp only [Bool.and_eq_true, decide_eq_true_eq, and_assoc]
  exact h

theorem exec_tdiStart_of_locked (h : tdiOf s vf.toNat = .lockedCfg) :
    exec (.tdiStart vf) s = .next (send (setTdi s vf.toNat .run) (.plain "TDISP started" vf.toNat)) := if_pos h

theorem exec_tdiStart_of_other (h : tdiOf s vf.toNat ≠ .lockedCfg) :
    exec (.tdiStart vf) s = .next (send s (.plain "TDISP invalid interface state" vf.toNat)) := if_neg h

/-- The state an unlock asks for. -/
def unlockedTo (error : Bool) : TdiState := if error then .error else .unlocked

theorem exec_tdiUnlock_of_done {error : Bool} (h : vf.toNat = 0 ∨ tdiOf s vf.toNat = unlockedTo error) : exec (.tdiUnlock vf error) s = .next s := by
  refine if_pos ?_
  rcases h with h | h
  · simp [show vf = 0#6 from BitVec.eq_of_toNat_eq h]
  · cases error <;> simp_all [unlockedTo]

theorem exec_tdiUnlock_of_moving {error : Bool} (hvf : vf.toNat ≠ 0) (h : tdiOf s vf.toNat ≠ unlockedTo error) :
    exec (.tdiUnlock vf error) s = .next (leaveTdi s vf.toNat error) := by
  have hne : vf ≠ 0#6 := fun hc => hvf (congrArg BitVec.toNat hc)
  refine if_neg ?_
  cases error <;> simp_all [unlockedTo]

end

/-- Settles O46: SPDM requests by `responds_of`, keys by `ideKeyed`, TDISP by its `exec_…` equations and `isolated_iff`. -/
theorem securityExchanges : Obligations.SecurityExchanges := by
  unfold Obligations.SecurityExchanges
  refine ⟨fun s path => ⟨responds_of rfl (by simp), responds_of rfl Iff.rfl, responds_of rfl Iff.rfl, responds_of rfl Iff.rfl, responds_of rfl Iff.rfl, responds_of rfl Iff.rfl,
      responds_of rfl Iff.rfl, responds_of rfl Iff.rfl, fun ok => responds_of rfl (Bool.and_eq_true _ _ ▸ Iff.rfl), fun stream install => ⟨?_, ?_⟩⟩, fun s vf => ?_⟩
  · exact fun h => ⟨_, exec_ideKm_of_closed h, rfl⟩
  · exact fun h => ⟨_, exec_ideKm_of_open h, ideKeyed_same _ _ _, fun k hk => ideKeyed_other _ _ hk, rfl⟩
  · intro v maps alone locks refused
    have halone : isolated s v = true ↔ alone := isolated_iff s v
    refine ⟨fun h => ⟨_, exec_lockInterfaceRequest_of_free h.1 h.2.1 (halone.mpr h.2.2), _, setTdi_tdiPut _ _ _, rfl⟩,
      fun h => ⟨_, exec_lockInterfaceRequest_of_refused (mt (And.imp_right (And.imp_right halone.mp)) h), rfl⟩, fun h => ⟨_, exec_tdiStart_of_locked h, _, setTdi_tdiPut _ _ _, rfl⟩,
      fun h => ⟨_, exec_tdiStart_of_other h, rfl⟩, fun error => ⟨fun h => ⟨_, exec_tdiUnlock_of_done h, rfl⟩,
        fun hv h => ⟨_, exec_tdiUnlock_of_moving hv h, _, _, rfl, rfl, setTdi_tdiPut _ _ _⟩⟩⟩

end Sys2Proof.Proofs
end

section
/-!
The power controller (14_power_clocks_thermal.md R446, R455 to R459).
-/
namespace Sys2Proof.Proofs
open Sys2Proof Sys2Proof.Machine

/-- A W1C bit that an event sets reads 1; no other register's value changes (00_scope.md R11). -/
theorem raiseBit_raised (s : State) (off : Nat) {b : Nat} (hb : b < 32) : (regVal (raiseBit s off b) off).getLsbD b = true ∧ OtherRegs [off] s (raiseBit s off b) ∧
    raiseBit s off b = { s with rf := { s.rf with vals := (raiseBit s off b).rf.vals, setAt := (raiseBit s off b).rf.setAt } } :=
  ⟨(congrArg (·.getLsbD b) (regVal_regPut_same s off _)).trans (getLsbD_setBits_same _ true hb), fun o ho => regVal_regPut_other s _ (by simpa using ho), rfl⟩

/-- A 64-bit count away from the base's counts changes its own two registers alone. -/
theorem bump64_counted {s : State} {lo : Nat} (n : Nat) (hlo : baseCount lo = false) (hhi : baseCount (lo + 4) = false) :
    count64 (bump64 s lo n) lo = min (count64 s lo + n) (2 ^ 64 - 1) ∧ OtherRegs [lo, lo + 4] s (bump64 s lo n) ∧
    bump64 s lo n = { s with rf := { s.rf with vals := (bump64 s lo n).rf.vals } } := by
  refine ⟨count64_bump64 s lo n, fun o ho => ?_, ?_⟩
  · obtain ⟨hlo, hhi⟩ : o ≠ lo ∧ o ≠ lo + 4 := by simpa using ho
    exact regVal_bump64_other s n hlo hhi
  · rw [bump64_of_notBase n hlo hhi]
    rfl

/-! ### Power and holds -/

/-- P10 exceeds the peak level. -/
def PowerHigh (s : State) : Prop :=
  regBits s 0x200004 23 16 * regBits s 0x200004 10 0 * 16 * (s.pwr.samples.take 10).length < 100 * (s.pwr.samples.take 10).sum

/-- P10 lies below the cap. -/
def PowerBelow (s : State) : Prop := (s.pwr.samples.take 10).sum < regBits s 0x200004 10 0 * 16 * (s.pwr.samples.take 10).length

theorem p10High_iff (s : State) : p10High s = true ↔ PowerHigh s := decide_eq_true_iff

theorem p10Low_iff (s : State) : p10Low s = true ↔ PowerBelow s := decide_eq_true_iff

theorem assertHold_holdAsserted (s : State) (h : Nat) : HoldAsserted s (assertHold s h) h := ⟨_, rfl, bump_counted _ _ _⟩

theorem countHold_of_none {s : State} (h : s.pwr.hold = 0) : countHold s = s := if_pos h

theorem countHold_of_some {s : State} (h : s.pwr.hold ≠ 0) : countHold s = bump64 s 0x200028 1 := if_neg h

theorem countHold_pwr_gt (s : State) : (countHold s).pwr = s.pwr ∧ (countHold s).gt = s.gt := by
  by_cases h : s.pwr.hold = 0
  · rw [countHold_of_none h]
    exact ⟨rfl, rfl⟩
  · rw [countHold_of_some h]
    exact ⟨bump64_pwr _ _ _, bump64_gt _ _ _⟩

/-- A sample in which a hold is to be asserted: P10 is high, and no hold is in force everywhere. -/
def HoldDue (s : State) : Prop := PowerHigh s ∧ (s.pwr.hold = 0 ∨ s.pwr.released ≠ [])

section
variable {s : State}

theorem holdDue_iff : (p10High s && (s.pwr.hold = 0 || s.pwr.released ≠ [])) = true ↔ HoldDue s := by
  rw [Bool.and_eq_true, p10High_iff, Bool.or_eq_true, decide_eq_true_eq, decide_eq_true_eq]
  rfl

theorem fullHoldLow_iff : (decide (s.pwr.hold = 2) && p10Low s) = true ↔ s.pwr.hold = 2 ∧ PowerBelow s := by
  rw [Bool.and_eq_true, p10Low_iff, decide_eq_true_eq]

theorem judgeHold_of_raised (h : s.pwr.raisedAt = some s.gt) : judgeHold s = s := if_pos h

theorem judgeHold_of_due (hraised : s.pwr.raisedAt ≠ some s.gt) (h : HoldDue s) : judgeHold s = assertHold s 1 :=
  (if_neg hraised).trans (if_pos (holdDue_iff.mpr h))

theorem judgeHold_of_low (hraised : s.pwr.raisedAt ≠ some s.gt) (hdue : ¬ HoldDue s) (h : s.pwr.hold = 2 ∧ PowerBelow s) :
    judgeHold s = { s with pwr := { s.pwr with hold := 1, holdSince := s.gt } } :=
  (if_neg hraised).trans ((if_neg (mt holdDue_iff.mp hdue)).trans (if_pos (fullHoldLow_iff.mpr h)))

theorem judgeHold_of_steady (hraised : s.pwr.raisedAt ≠ some s.gt) (hdue : ¬ HoldDue s) (h : ¬ (s.pwr.hold = 2 ∧ PowerBelow s)) : judgeHold s = s :=
  (if_neg hraised).trans ((if_neg (mt holdDue_iff.mp hdue)).trans (if_neg (mt fullHoldLow_iff.mp h)))

theorem startOddSteps_of_odd (h : s.pwr.stage = 10 ∧ s.gt % 1000000 = 0) : startOddSteps s = (heldDoms s).foldl formBatch s := if_pos (by simp [h])

theorem startOddSteps_of_even (h : ¬ (s.pwr.stage = 10 ∧ s.gt % 1000000 = 0)) : startOddSteps s = s := if_neg (by simpa using h)

/-- Half hold has lasted 20 µs with P10 still high. -/
def HalfHoldOver (s : State) : Prop := s.pwr.hold = 1 ∧ RunOut s (s.pwr.holdSince + 20000) ∧ PowerHigh s

theorem halfHoldOver_iff : (decide (s.pwr.hold = 1) && ranOut s (s.pwr.holdSince + 20000) && p10High s) = true ↔ HalfHoldOver s := by
  rw [Bool.and_eq_true, Bool.and_eq_true, p10High_iff, ranOut_eq_true_iff, decide_eq_true_eq, and_assoc]
  rfl

theorem exec_halfHoldTimeout_of_over (h : HalfHoldOver s) : exec .halfHoldTimeout s = .next { s with pwr := { s.pwr with hold := 2, released := [] } } :=
  if_pos (halfHoldOver_iff.mpr h)

theorem exec_halfHoldTimeout_of_idle (h : ¬ HalfHoldOver s) : exec .halfHoldTimeout s = .next s := if_neg (mt halfHoldOver_iff.mp h)

end

/-! ### Drydown -/

theorem requestStage_stageRequested (s : State) (n : Nat) : StageRequested s (requestStage s n) n :=
  ⟨if s.pwr.stage < n then bump s 0x200020 1 else s, fun h => by rw [if_pos h]; exact bump_counted _ _ _, fun h => if_neg (Nat.not_lt.mpr h), rfl⟩

/-- A lower stage was left at a mean in or above the band within the last 100 ms. -/
def Barred (s : State) (m : Nat) : Prop :=
  ∃ l, tabFind s.pwr.left m = some l ∧ s.gt - l.2 ≤ 100000000 ∧ regBits s 0x200004 10 0 * (100 - regBits s 0x200004 26 24) * 16 ≤ 100 * l.1

theorem mayReturn_iff (s : State) (m : Nat) : mayReturn s m = true ↔ ¬ Barred s m := by
  cases h : tabFind s.pwr.left m with
  | none => simp [mayReturn, Barred, h]
  | some l =>
    simp only [mayReturn, Barred, h, Option.some.injEq, exists_eq_left', Bool.or_eq_true, decide_eq_true_eq, not_and_or, Nat.not_le]
    rfl

section
variable {s : State}

/-- A stage as it is left: the mean it left at is noted. -/
def stageLeft (s : State) (mean : Nat) : State := modPwr s fun q => { q with left := tabPut q.left q.stage (mean, s.gt) }

theorem stageUp_of_next {mean m : Nat} (h : higherStage (stageLeft s mean) s.pwr.stage = some m) : stageUp s mean = requestStage (stageLeft s mean) m := by
  change higherStage (stageLeft s mean) (stageLeft s mean).pwr.stage = some m at h
  unfold stageLeft at h ⊢
  simp only [stageUp, h]

theorem stageUp_of_none {mean : Nat} (h : higherStage (stageLeft s mean) s.pwr.stage = none) : stageUp s mean = stageLeft s mean := by
  change higherStage (stageLeft s mean) (stageLeft s mean).pwr.stage = none at h
  unfold stageLeft at h ⊢
  simp only [stageUp, h]

theorem stageDown_of_next {m : Nat} (h : lowerStage s s.pwr.stage = some m) (hopen : ¬ Barred s m) : stageDown s = requestStage s m := by
  simp only [stageDown, h]
  exact if_pos ((mayReturn_iff s m).mpr hopen)

theorem stageDown_of_barred (h : ∀ m, lowerStage s s.pwr.stage = some m → Barred s m) : stageDown s = s := by
  cases hm : lowerStage s s.pwr.stage with
  | none => simp only [stageDown, hm]
  | some m =>
    simp only [stageDown, hm]
    exact if_neg (mt (mayReturn_iff s m).mp (not_not.mpr (h m hm)))

/-- A requested stage is not in force, or not long enough. -/
def StageWaits (s : State) : Prop := s.pwr.stage ≠ s.pwr.wanted ∨ ¬ RunOut s (s.pwr.stageAt + 100000)

/-- The samples since the stage came into force. -/
def stageSamples (s : State) : List Nat := s.pwr.samples.take (min 1000 ((s.gt - s.pwr.stageAt) / 1000))

/-- Their mean lies above the cap. -/
def StageOver (s : State) : Prop := regBits s 0x200004 10 0 * 16 * (stageSamples s).length < (stageSamples s).sum ∧ s.pwr.stage < 10

/-- The samples' part of the test of the band. -/
def stageBand (s : State) : Nat := regBits s 0x200004 10 0 * (100 - regBits s 0x200004 26 24) * 16 * (stageSamples s).length

/-- Their mean lies below the band. -/
def StageLow (s : State) : Prop := 100 * (stageSamples s).sum < stageBand s

theorem stageLow_iff : decide (100 * (stageSamples s).sum < stageBand s) = true ↔ StageLow s := by
  rw [decide_eq_true_iff, StageLow]

/-- A lower stage is tried: the mean has been low for 5 ms. -/
def StageMayLower (s : State) : Prop := 0 < s.pwr.stage ∧ StageLow s ∧ s.pwr.highAt + 5000000 ≤ s.gt

/-- An evaluation with its tick noted where the mean is not low. -/
def evaluated (s : State) : State := if decide (100 * (stageSamples s).sum < stageBand s) then s else { s with pwr := { s.pwr with highAt := s.gt } }

theorem evaluated_frame (s : State) : ∃ n, evaluated s = { s with pwr := { s.pwr with highAt := n } } := by
  by_cases h : decide (100 * (stageSamples s).sum < stageBand s) = true
  · exact ⟨s.pwr.highAt, if_pos h⟩
  · exact ⟨s.gt, if_neg h⟩

theorem evaluated_stage (s : State) : (evaluated s).pwr.stage = s.pwr.stage := by
  obtain ⟨n, hn⟩ := evaluated_frame s
  rw [hn]

theorem barred_evaluated (s : State) (m : Nat) : Barred (evaluated s) m ↔ Barred s m := by
  obtain ⟨n, hn⟩ := evaluated_frame s
  rw [hn]
  rfl

theorem exec_drydownEvaluation_of_waits (h : StageWaits s) : exec .drydownEvaluation s = .next s := by
  refine if_pos ?_
  rw [Bool.or_eq_true, decide_eq_true_eq, Bool.not_eq_true', ranOut_eq_false_iff]
  exact h

theorem ready_of_not_waits (h : ¬ StageWaits s) : ¬ (decide (s.pwr.stage ≠ s.pwr.wanted) || !ranOut s (s.pwr.stageAt + 100000)) = true := by
  rwa [Bool.or_eq_true, decide_eq_true_eq, Bool.not_eq_true', ranOut_eq_false_iff]

theorem exec_drydownEvaluation_of_over (hready : ¬ StageWaits s) (h : StageOver s) :
    exec .drydownEvaluation s = .next (stageUp (evaluated s) ((stageSamples s).sum / max 1 (stageSamples s).length)) :=
  (if_neg (ready_of_not_waits hready)).trans (if_pos h)

theorem exec_drydownEvaluation_of_low (hready : ¬ StageWaits s) (hover : ¬ StageOver s) (h : StageMayLower s) :
    exec .drydownEvaluation s = .next (stageDown (evaluated s)) := by
  obtain ⟨hup, hlow, hlong⟩ := h
  exact (if_neg (ready_of_not_waits hready)).trans ((if_neg hover).trans (if_pos ⟨hup, stageLow_iff.mpr hlow, hlong⟩))

theorem exec_drydownEvaluation_of_steady (hready : ¬ StageWaits s) (hover : ¬ StageOver s) (h : ¬ StageMayLower s) :
    exec .drydownEvaluation s = .next (evaluated s) :=
  (if_neg (ready_of_not_waits hready)).trans ((if_neg hover).trans (if_neg fun hc => h ⟨hc.1, stageLow_iff.mp hc.2.1, hc.2.2⟩))

end

/-- Settles O47: a sample's judgement is one of `judgeHold_of_…`, an evaluation one of `exec_drydownEvaluation_of_…`. -/
theorem powerControl : Obligations.PowerControl := by
  unfold Obligations.PowerControl
  intro s cap high below
  refine ⟨fun power vin iin est => ⟨_, rfl, takeSample s power vin iin est, countHold (takeSample s power vin iin est), rfl, fun h => countHold_of_none (s := takeSample s power vin iin est) h, fun h => ?_, ?_⟩,
    ⟨startOddSteps_of_odd, startOddSteps_of_even⟩, fun h => ⟨_, exec_halfHoldTimeout_of_over h, rfl⟩, fun h => ⟨_, exec_halfHoldTimeout_of_idle h, rfl⟩, ?_, ⟨_, rfl, rfl⟩, ?_⟩
  · have hcount : countHold (takeSample s power vin iin est) = bump64 (takeSample s power vin iin est) 0x200028 1 := countHold_of_some h
    rw [hcount]
    exact bump64_counted 1 rfl rfl
  · obtain ⟨hpwr, hgt⟩ := countHold_pwr_gt (takeSample s power vin iin est)
    have hraised : (countHold (takeSample s power vin iin est)).pwr.raisedAt = some (countHold (takeSample s power vin iin est)).gt ↔ s.pwr.raisedAt = some s.gt := by
      rw [hpwr, hgt]
      rfl
    exact ⟨fun h => judgeHold_of_raised (hraised.mpr h), fun hno h => judgeHold_of_due (mt hraised.mp hno) h ▸ assertHold_holdAsserted _ _,
      fun hno hdue hold hlow => (judgeHold_of_low (mt hraised.mp hno) hdue ⟨hold, hlow⟩).trans (by rw [hgt]; rfl),
      fun hno hdue hsteady => judgeHold_of_steady (mt hraised.mp hno) hdue hsteady⟩
  · exact ⟨_, rfl, _, _, assertHold_holdAsserted _ _, (raiseBit_raised _ _ (by decide)).1, (raiseBit_raised _ _ (by decide)).2.1, (raiseBit_raised _ _ (by decide)).2.2, rfl⟩
  · intro p xs band overRange low waits u run mayLower barred
    have hu : evaluated s = u := if_congr decide_eq_true_iff rfl rfl
    rw [← hu]
    have hstage : (evaluated s).pwr.stage = p.stage := evaluated_stage s
    refine ⟨fun h => ⟨_, exec_drydownEvaluation_of_waits h, rfl⟩, fun hready hover hten => ⟨_, exec_drydownEvaluation_of_over hready ⟨hover, hten⟩, ?_⟩,
      fun hready hover h => ⟨_, exec_drydownEvaluation_of_low hready hover h, ?_⟩, fun hready hover h => ⟨_, exec_drydownEvaluation_of_steady hready hover h, rfl⟩⟩
    · refine ⟨stageLeft (evaluated s) (xs.sum / max 1 xs.length), ?_, fun m hm => ?_, fun hm => ?_⟩
      · obtain ⟨n, hn⟩ := evaluated_frame s
        rw [hn]
        rfl
      · rw [← hstage] at hm
        exact stageUp_of_next hm ▸ requestStage_stageRequested _ _
      · rw [← hstage] at hm
        exact stageUp_of_none hm
    · rw [← hstage]
      refine ⟨fun m hm hopen => ?_, fun hall => stageDown_of_barred fun m hm => (barred_evaluated s m).mpr (hall m hm)⟩
      exact stageDown_of_next hm (mt (barred_evaluated s m).mp hopen) ▸ requestStage_stageRequested _ _

end Sys2Proof.Proofs
end

section
/-!
Core steps and the reference clock (14_power_clocks_thermal.md R451 to R454, R465).
-/
namespace Sys2Proof.Proofs
open Sys2Proof Sys2Proof.Machine

theorem modClk_clkPut (s : State) (d : Nat) (f : ClkDom → ClkDom) : ClkPut s (modClk s d f) d (f (clkOf s d)) :=
  ⟨tabGet_set_same _ _ _ _, fun _ he => tabGet_set_other _ _ _ _ he, rfl⟩

/-! ### Steps and their ceilings -/

/-- The next step of a domain's PLLs: a fall at once, a rise by one. -/
def nextStep (s : State) (d : Nat) : Nat := if targetStep s d < (clkOf s d).step then (clkOf s d).step - 1 else targetStep s d

section
variable {s : State} {d n : Nat}

theorem retarget_of_set (h : (clkOf s d).ramp ≠ none ∨ (clkOf s d).pend = some (nextStep s d)) : retarget s d = s := by
  refine if_pos ?_
  rw [Bool.or_eq_true, Option.isSome_iff_ne_none, decide_eq_true_eq]
  exact h

/-- A domain whose PLLs are set to another step, or to none where it is in force. -/
def retargeted (s : State) (d : Nat) : ClkDom := { clkOf s d with pend := if nextStep s d = (clkOf s d).step then none else some (nextStep s d), locked := false }

theorem retarget_of_changed (hramp : (clkOf s d).ramp = none) (hpend : (clkOf s d).pend ≠ some (nextStep s d)) : ClkPut s (retarget s d) d (retargeted s d) := by
  have hopen : ¬ ((clkOf s d).ramp.isSome || (clkOf s d).pend = some (nextStep s d)) = true := by simp [hramp, hpend]
  by_cases hstep : nextStep s d = (clkOf s d).step
  · rw [show retarget s d = _ from (if_neg hopen).trans (if_pos hstep), retargeted, if_pos hstep]
    exact modClk_clkPut s d _
  · rw [show retarget s d = _ from (if_neg hopen).trans (if_neg hstep), retargeted, if_neg hstep]
    exact modClk_clkPut s d _

/-- A domain with its new step. -/
def stepped (s : State) (d n : Nat) : State := modClk s d fun x => { x with step := n, pend := none, locked := false, ramp := none }

theorem setStep_eq (s : State) (d n : Nat) : setStep s d n = stageEffect (retarget (bump (stepped s d n) 0x100030 1) d) d := rfl

/-- The PLLs of a domain are locked at a step, and nothing stops the change. -/
def LockedAt (s : State) (d n : Nat) : Prop := (clkOf s d).pend = some n ∧ (clkOf s d).locked = true ∧ s.pwr.refOk = true ∧ (clkOf s d).ramp = none

theorem clockBoundary_of_locked (h : LockedAt s d n) : clockBoundary s d =
    if (clkOf s d).step < n then setStep s d n else modClk s d fun y => { y with ramp := some n, rampAt := s.gt, pend := none, locked := false } := by
  obtain ⟨hpend, hlocked, href, hramp⟩ := h
  simp only [clockBoundary, hpend]
  exact if_neg (by simp [hlocked, href, hramp])

theorem clockBoundary_of_unlocked (h : (clkOf s d).pend = none ∨ (clkOf s d).locked = false ∨ s.pwr.refOk = false ∨ (clkOf s d).ramp ≠ none) :
    clockBoundary s d = stageEffect s d := by
  cases hpend : (clkOf s d).pend with
  | none => simp only [clockBoundary, hpend]
  | some n =>
    simp only [clockBoundary, hpend]
    refine if_pos ?_
    rw [Bool.or_eq_true, Bool.or_eq_true, Bool.not_eq_true', Bool.not_eq_true', Option.isSome_iff_ne_none, or_assoc]
    exact h.resolve_left (by simp [hpend])

end

/-! ### Locks, ramps and margin -/

theorem refclkGoes_iff (s : State) : refclkGoes s = true ↔ Instr.refclkLost ∈ s.pending := by
  rw [refclkGoes, List.any_eq_true]
  constructor
  · rintro ⟨q, hq, hlost⟩
    split at hlost
    · exact hq
    · cases hlost
  · exact fun h => ⟨_, h, rfl⟩

section
variable {s : State} {d : BitVec 3}

theorem exec_pllLocked_of_idle (h : (clkOf s d.toNat).pend = none ∨ s.pwr.refOk = false ∨ Instr.refclkLost ∈ s.pending) : exec (.pllLocked d) s = .next s := by
  refine if_pos ?_
  rw [Bool.or_eq_true, Bool.or_eq_true, Option.isNone_iff_eq_none, Bool.not_eq_true', refclkGoes_iff, or_assoc]
  exact h

theorem exec_pllLocked_of_pending (hpend : (clkOf s d.toNat).pend ≠ none) (href : s.pwr.refOk = true) (hstays : Instr.refclkLost ∉ s.pending) :
    exec (.pllLocked d) s = .next (let u := modClk s d.toNat fun x => { x with locked := true }
      if (domOf u d.toNat).phase = .idle then clockBoundary u d.toNat else u) := by
  refine if_neg ?_
  rw [Bool.or_eq_true, Bool.or_eq_true, Option.isNone_iff_eq_none, Bool.not_eq_true', refclkGoes_iff]
  simp [hpend, href, hstays]

theorem exec_vcoreRampDone_of_ramp {n : Nat} (h : (clkOf s d.toNat).ramp = some n) : exec (.vcoreRampDone d) s = .next (setStep s d.toNat n) := by
  change execVcoreRampDone d s = _
  simp only [execVcoreRampDone, h]

theorem exec_vcoreRampDone_of_idle (h : (clkOf s d.toNat).ramp = none) : exec (.vcoreRampDone d) s = .next s := by
  change execVcoreRampDone d s = _
  simp only [execVcoreRampDone, h]

/-- A margin ceiling is to rise: 100 ms without a warning, once a second, above pinned dies. -/
def MarginRises (s : State) (d : Nat) : Prop := pinnedCeil s d < (clkOf s d).marginCeil ∧ RunOut s ((clkOf s d).warnedAt + 100000000) ∧
  ((clkOf s d).roseAt = 0 ∨ (clkOf s d).roseAt + 1000000000 ≤ s.gt)

theorem marginStays_iff : (decide ((clkOf s d.toNat).marginCeil ≤ pinnedCeil s d.toNat) || !ranOut s ((clkOf s d.toNat).warnedAt + 100000000) ||
    (decide (0 < (clkOf s d.toNat).roseAt) && decide (s.gt < (clkOf s d.toNat).roseAt + 1000000000))) = true ↔ ¬ MarginRises s d.toNat := by
  rw [Bool.or_eq_true, Bool.or_eq_true, Bool.and_eq_true, decide_eq_true_eq, decide_eq_true_eq, decide_eq_true_eq, Bool.not_eq_true', ranOut_eq_false_iff, MarginRises,
    not_and_or, not_and_or, not_or, Nat.not_lt, Nat.not_le, Nat.pos_iff_ne_zero, or_assoc]

theorem exec_marginRecovery_of_rises (h : MarginRises s d.toNat) : exec (.marginRecovery d) s =
    .next (retarget (modClk s d.toNat fun y => { y with marginCeil := y.marginCeil - 1, roseAt := s.gt }) d.toNat) := if_neg (mt marginStays_iff.mp (not_not.mpr h))

theorem exec_marginRecovery_of_stays (h : ¬ MarginRises s d.toNat) : exec (.marginRecovery d) s = .next s := if_pos (marginStays_iff.mpr h)

end

/-! ### Replica paths -/

/-- Changes the replica state of one die. -/
def modRep (s : State) (i : Nat) (f : Replica → Replica) : State := modPwr s fun p => { p with reps := tabMod p.reps {} i f }

theorem modRep_repPut (s : State) (i : Nat) (f : Replica → Replica) : RepPut s (modRep s i f) i (f (replicaOf s i)) :=
  ⟨tabGet_set_same _ _ _ _, fun _ he => tabGet_set_other _ _ _ _ he, rfl⟩

section
variable {s : State} {i : BitVec 4} {slacks : List (BitVec 8)}

/-- Every compute power domain is of a die. -/
theorem dieOfPd_of_compute (i : BitVec 4) : dieOfPd i.toNat = some ((dieOfPd i.toNat).getD 0) := by
  have hlt : i.toNat < 16 := i.isLt
  simp [dieOfPd, hlt]

/-- The slacks a sample reads. -/
def slacksOf (slacks : List (BitVec 8)) : List Nat := (List.range 32).map fun k => (slacks.getD k 0xFF#8).toNat

/-- Samples under 8 percent in a row, of each replica. -/
def lowCounts (r : Replica) (slacks : List (BitVec 8)) : List Nat := List.zipWith (fun n x => if x < 16 then n + 1 else 0) r.low (slacksOf slacks)

/-- A die after a sample. -/
def sampled (s : State) (i : Nat) (slacks : List (BitVec 8)) : State :=
  let low := lowCounts (replicaOf s i) slacks
  modRep s i fun x => { x with low := if low.any (3 ≤ ·) then List.replicate 32 0 else low, minSlack := (slacksOf slacks).foldl min x.minSlack }

theorem exec_replicaSample_of_down (h : dieUp s ((dieOfPd i.toNat).getD 0) = false) : exec (.replicaSample i slacks) s = .next s := by
  change execReplicaSample i slacks s = _
  simp only [execReplicaSample]
  rw [dieOfPd_of_compute i]
  exact if_pos (by simp [h])

theorem exec_replicaSample_of_up (h : dieUp s ((dieOfPd i.toNat).getD 0) = true) : exec (.replicaSample i slacks) s =
    .next (if (lowCounts (replicaOf s i.toNat) slacks).any (3 ≤ ·) then replicaWarn (sampled s i.toNat slacks) i.toNat else sampled s i.toNat slacks) := by
  change execReplicaSample i slacks s = _
  simp only [execReplicaSample]
  rw [dieOfPd_of_compute i]
  exact if_neg (by simp [h])

end

section
variable (s : State) (i : Nat)

/-- The warnings of a die within the last 10 s, with this one. -/
def warnsNow : List Nat := ((replicaOf s i).warns.filter fun t => decide (s.gt < t + 10000000000)) ++ [s.gt]

/-- This warning pins the die. -/
def pinsNow : Bool := decide (3 ≤ (warnsNow s i).length) && (replicaOf s i).pinned.isNone

/-- The warning counted and kept, with the step the die is pinned to. -/
def warned (d : Nat) : State := modRep (bump s 0x100034 1) i fun x =>
  { x with warns := warnsNow s i, pinned := if pinsNow s i then some (min 7 ((clkOf s d).step + 1)) else x.pinned }

/-- The margin ceiling fallen below the step in force, a rise of this tick withdrawn. -/
def marginFallen (d : Nat) : State := modClk (warned s i d) d fun x =>
  { x with marginCeil := max x.marginCeil (min 7 ((clkOf s d).step + 1)), warnedAt := s.gt, ramp := if x.rampAt = s.gt then none else x.ramp }

variable {s i}

theorem replicaWarn_of_domain {d : Nat} (h : domOfDie s i = some d) : replicaWarn s i =
    retarget (if pinsNow s i then fault (marginFallen s i d) { cls := 0x19, unit := unitId 1 ((dieOfPd i).getD 0), outcome := 0, domains := [d] } else marginFallen s i d) d := by
  simp only [replicaWarn, h]
  rfl

theorem pinsNow_iff : pinsNow s i = true ↔ 3 ≤ (warnsNow s i).length ∧ (replicaOf s i).pinned = none := by
  rw [pinsNow, Bool.and_eq_true, decide_eq_true_eq, Option.isNone_iff_eq_none]

end

/-! ### The reference -/

section
variable {s : State}

theorem exec_refclkLost_of_out (h : s.pwr.refOk = false) : exec .refclkLost s = .next s := if_pos (by simp [h])

theorem exec_refclkLost_of_on (h : s.pwr.refOk = true) : exec .refclkLost s = .next (fault (modPwr (raiseBit s 0x100000 5) fun p => { p with
    refOk := false, holdover := some s.gt, clk := p.clk.map fun e => (e.1, { e.2 with locked := false }) }) { cls := 0x12, unit := unitId 0x0E 0, outcome := 0 }) :=
  if_neg (by simp [h])

/-- Holdover has lasted 10 ms. -/
def HoldoverOver (s : State) : Prop := (∃ n, s.pwr.holdover = some n ∧ RunOut s (n + 10000000)) ∧ s.pwr.halted = false

theorem exec_holdoverExpiry_of_over (h : HoldoverOver s) : exec .holdoverExpiry s =
    .next (fault (modPwr { s with arr := { s.arr with noOps := true } } fun p => { p with halted := true })
      { cls := 0x12, unit := unitId 0x0E 0, outcome := 7, domains := activeDoms s, interrupts := activeDoms s ≠ [] }) := by
  obtain ⟨⟨n, hn, hrun⟩, hgoes⟩ := h
  change execHoldoverExpiry s = _
  simp only [execHoldoverExpiry, hn]
  exact if_neg (by simp [(ranOut_eq_true_iff _ _).mpr hrun, hgoes])

theorem exec_holdoverExpiry_of_idle (h : ¬ HoldoverOver s) : exec .holdoverExpiry s = .next s := by
  change execHoldoverExpiry s = _
  cases hn : s.pwr.holdover with
  | none => simp only [execHoldoverExpiry, hn]
  | some n =>
    simp only [execHoldoverExpiry, hn]
    refine if_pos ?_
    by_contra hc
    rw [Bool.or_eq_true, not_or, Bool.not_eq_true', Bool.not_eq_false, Bool.not_eq_true, ranOut_eq_true_iff] at hc
    exact h ⟨⟨n, hn, hc.1⟩, hc.2⟩

theorem exec_refclkReturn_of_on (h : s.pwr.refOk = true) : exec .refclkReturn s = .next s := if_pos h

/-- The reference is back. -/
def refBack (s : State) : State := modPwr s fun p => { p with refOk := true, holdover := none, halted := false }

theorem exec_refclkReturn_of_running (h : s.pwr.refOk = false) (hgoes : s.pwr.halted = false) : exec .refclkReturn s = .next (refBack s) :=
  (if_neg (Bool.eq_false_iff.mp h)).trans (if_pos (by simp [hgoes]))

theorem exec_refclkReturn_of_halted (h : s.pwr.refOk = false) (hhalted : s.pwr.halted = true) : exec .refclkReturn s =
    .next ((List.range 8).foldl (fun v d => formBatch (startIfReady v d) d) { refBack s with arr := { (refBack s).arr with noOps := false } }) :=
  (if_neg (Bool.eq_false_iff.mp h)).trans (if_neg (by simp [hhalted]))

end

/-- Settles O48: steps by `retarget_of_…` and `clockBoundary_of_…`, warnings by `replicaWarn_of_domain`, the rest by each command's equations. -/
theorem coreClocks : Obligations.CoreClocks := by
  unfold Obligations.CoreClocks
  refine ⟨fun s d => ⟨retarget_of_set, retarget_of_changed, fun n => ⟨_, _, modClk_clkPut s d _, bump_counted _ _ _, setStep_eq s d n⟩, fun n hpend hlocked href hramp => ⟨?_, ?_⟩,
      clockBoundary_of_unlocked⟩, fun s d => ⟨?_, ?_, ?_, ?_, ?_, ?_⟩, fun s i slacks => ?_, fun s i d hdom => ?_, fun s => ⟨?_, ?_, ⟨?_, ?_⟩, ?_, ?_⟩⟩
  · exact fun hfall => (clockBoundary_of_locked ⟨hpend, hlocked, href, hramp⟩).trans (if_pos hfall)
  · exact fun hrise => (clockBoundary_of_locked ⟨hpend, hlocked, href, hramp⟩).trans (if_neg (Nat.not_lt.mpr hrise)) ▸ modClk_clkPut s d _
  · exact fun h => ⟨_, exec_pllLocked_of_idle h, rfl⟩
  · exact fun hpend href hstays => ⟨_, exec_pllLocked_of_pending hpend href hstays, _, modClk_clkPut s d.toNat _, fun hidle => if_pos hidle, fun hbusy => if_neg hbusy⟩
  · exact fun n h => ⟨_, exec_vcoreRampDone_of_ramp h, rfl⟩
  · exact fun h => ⟨_, exec_vcoreRampDone_of_idle h, rfl⟩
  · exact fun h => ⟨_, exec_marginRecovery_of_rises h, _, modClk_clkPut s d.toNat _, rfl⟩
  · exact fun h => ⟨_, exec_marginRecovery_of_stays h, rfl⟩
  · intro r xs low warns
    refine ⟨fun h => ⟨_, exec_replicaSample_of_down h, rfl⟩, fun h => ?_⟩
    have hwarns : low.any (3 ≤ ·) = true ↔ warns := by simp [warns]
    have hput : RepPut s (sampled s i.toNat slacks) i.toNat { r with low := if low.any (3 ≤ ·) then List.replicate 32 0 else low, minSlack := xs.foldl min r.minSlack } :=
      modRep_repPut s i.toNat _
    rw [if_congr hwarns rfl rfl] at hput
    exact ⟨_, exec_replicaSample_of_up h, _, hput, fun h => if_pos (hwarns.mpr h), fun h => if_neg (mt hwarns.mp h)⟩
  · refine ⟨bump s 0x100034 1, warned s i d, marginFallen s i d, ?_⟩
    intro r ws down pins
    have hput : RepPut (bump s 0x100034 1) (warned s i d) i { r with warns := ws, pinned := if pinsNow s i then some down else r.pinned } := modRep_repPut _ i _
    have hwarn := replicaWarn_of_domain (s := s) (i := i) hdom
    rw [if_congr pinsNow_iff rfl rfl] at hput hwarn
    exact ⟨bump_counted _ _ _, hput, modClk_clkPut _ _ _, hwarn⟩
  · exact fun h => ⟨_, exec_refclkLost_of_out h, rfl⟩
  · exact fun h => ⟨_, exec_refclkLost_of_on h, _, _, (raiseBit_raised _ _ (by decide)).1, (raiseBit_raised _ _ (by decide)).2.1, (raiseBit_raised _ _ (by decide)).2.2, rfl, rfl⟩
  · exact fun h => ⟨_, exec_holdoverExpiry_of_over h, _, rfl, rfl⟩
  · exact fun h => ⟨_, exec_holdoverExpiry_of_idle h, rfl⟩
  · exact fun h => ⟨_, exec_refclkReturn_of_on h, rfl⟩
  · intro h
    cases hhalted : s.pwr.halted with
    | false => exact ⟨_, exec_refclkReturn_of_running h hhalted, _, rfl, fun _ => rfl, (nomatch ·)⟩
    | true => exact ⟨_, exec_refclkReturn_of_halted h hhalted, _, rfl, (nomatch ·), fun _ => rfl⟩

end Sys2Proof.Proofs
end

section
/-!
Thermal latches and ceilings (14_power_clocks_thermal.md R461 to R464).
-/
namespace Sys2Proof.Proofs
open Sys2Proof Sys2Proof.Machine

theorem putTherm_thermPut (s : State) (i : Nat) (x : Therm) : ThermPut s (putTherm s i x) i x :=
  ⟨tabGet_set_same _ _ _ _, fun _ he => tabGet_set_other _ _ _ _ he, rfl⟩

/-! ### One latch -/

section
variable {T g : Int} {clear : Bool} {l : ThLatch}

theorem stepLatch_of_up (h : l.set = false) (hT : T ≤ g) : stepLatch T g clear l = if l.c + 1 = 100 then ⟨true, 0, 0⟩ else { l with c := l.c + 1 } := by
  rw [stepLatch, if_pos (by simp [h]), if_pos hT]

theorem stepLatch_of_down (h : l.set = false) (hT : g < T) : stepLatch T g clear l = { l with c := l.c - 1 } := by
  rw [stepLatch, if_pos (by simp [h]), if_neg (Int.not_le.mpr hT)]

theorem stepLatch_of_warm (h : l.set = true) (hT : T - 48 ≤ g) : stepLatch T g clear l = { l with r := l.r - 1 } := by
  rw [stepLatch, if_neg (by simp [h]), if_neg (Int.not_lt.mpr hT)]

theorem stepLatch_of_cool (h : l.set = true) (hT : g < T - 48) :
    stepLatch T g clear l = if 100 ≤ l.r + 1 then (if clear then ⟨false, 0, 0⟩ else { l with r := 100 }) else { l with r := l.r + 1 } := by
  rw [stepLatch, if_neg (by simp [h]), if_pos hT]

end

/-! ### Samples -/

/-- Marking a die's sensors leaves its latches and what was read of them. -/
theorem suspectStep_keeps (gt : Nat) (base : TempEst) (x : Therm) : (suspectStep gt base x).trip = x.trip ∧ (suspectStep gt base x).throt = x.throt ∧
    (suspectStep gt base x).warn = x.warn ∧ (suspectStep gt base x).failed = x.failed ∧ (suspectStep gt base x).sensors = x.sensors := by
  rw [suspectStep]
  split <;> exact ⟨rfl, rfl, rfl, rfl, rfl⟩

theorem readTherm_keeps (s : State) (i : Nat) (readings : List (BitVec 16)) : (readTherm s i readings).trip = (thermOf s i).trip ∧
    (readTherm s i readings).throt = (thermOf s i).throt ∧ (readTherm s i readings).warn = (thermOf s i).warn ∧
    (readTherm s i readings).failed = (readSensors s i readings).1.failed ∧ (readTherm s i readings).sensors = (readSensors s i readings).1.sensors := by
  rw [readTherm]
  split
  · exact suspectStep_keeps _ _ _
  · exact ⟨rfl, rfl, rfl, rfl, rfl⟩

section
variable {s : State} {i : BitVec 5} {readings : List (BitVec 16)}

theorem exec_thermalSample_of_off (h : pdOf s i.toNat ≠ .on ∨ 28 < i.toNat) : exec (.thermalSample i readings) s = .next s :=
  if_pos (by simpa [or_comm] using h)

/-- The temperature that governs a sample of a die: its valid readings', or a free value where there is none (14 R462). -/
def sampleTemp (s : State) (i : Nat) (readings : List (BitVec 16)) : Int :=
  (governing s i (readSensors s i readings).2 (readTherm s i readings).suspect).getD (BitVec.toInt (BitVec.extractLsb' 0 16 (drawFree s).1))

/-- The device with a free value drawn where one is needed. -/
def sampleDrawn (s : State) (i : Nat) (readings : List (BitVec 16)) : State :=
  if (governing s i (readSensors s i readings).2 (readTherm s i readings).suspect).isSome then s else (drawFree s).2

/-- A die's thermal state after a sample. -/
def sampledTherm (s : State) (i : Nat) (readings : List (BitVec 16)) : Therm := moveLatches s.gt (sampleTemp s i readings) (readTherm s i readings)

theorem exec_thermalSample_of_on (hpd : pdOf s i.toNat = .on) (hi : i.toNat ≤ 28) : exec (.thermalSample i readings) s =
    .next (retargetAll (thermalActs (putTherm (sampleDrawn s i.toNat readings) i.toNat (sampledTherm s i.toNat readings)) i.toNat (thermOf s i.toNat)
      (sampledTherm s i.toNat readings))) := if_neg (by simp [hpd, hi])

theorem sampleDrawn_cases (s : State) (i : Nat) (readings : List (BitVec 16)) :
    sampleDrawn s i readings = s ∨ sampleDrawn s i readings = { s with free := s.free + 1 } := by
  rw [sampleDrawn]
  split
  · exact .inl rfl
  · exact .inr rfl

theorem sampled_of_governing {n : Nat} {y : Int} (h : governing s n (readSensors s n readings).2 (readTherm s n readings).suspect = some y) :
    sampleTemp s n readings = y ∧ sampleDrawn s n readings = s := by
  rw [sampleTemp, sampleDrawn, h]
  exact ⟨rfl, rfl⟩

/-- The latches of a sampled die, from those it had. -/
theorem sampledTherm_latches (s : State) (n : Nat) (readings : List (BitVec 16)) : let x := sampledTherm s n readings
    let old := thermOf s n
    let g := sampleTemp s n readings
    x.trip = (if old.trip.set then old.trip else stepLatch 1760 g true old.trip) ∧ x.throt = stepLatch 1600 g (!x.trip.set) old.throt ∧
      x.warn = stepLatch 1520 g (!x.trip.set && !x.throt.set) old.warn := by
  intro x old g
  obtain ⟨htrip, hthrot, hwarn, -, -⟩ := readTherm_keeps s n readings
  have ht : x.trip = if old.trip.set then old.trip else stepLatch 1760 g true old.trip := by
    rw [← htrip]
    rfl
  have hh : x.throt = stepLatch 1600 g (!x.trip.set) old.throt := by
    rw [← hthrot]
    rfl
  refine ⟨ht, hh, ?_⟩
  rw [← hwarn]
  rfl

end

/-! ### What latches do -/

section
variable {s : State} {i : Nat} {old x : Therm}

theorem thermalActs_of_trip (hset : x.trip.set = true) (hclear : old.trip.set = false) : thermalActs s i old x = tripReset s i := if_pos (by simp [hset, hclear])

theorem lowerThermal_clkPut (s : State) (d : Nat) (further : Bool) : ∃ u, ClkPut s u d { clkOf s d with
    thCeil := min 7 (if further then max ((clkOf s d).thCeil + 1) ((clkOf s d).step + 1) else max (clkOf s d).thCeil ((clkOf s d).step + 1)) } ∧
    lowerThermal s d further = retarget u d := ⟨_, modClk_clkPut s d _, rfl⟩

theorem thermalActs_of_throttle {d : Nat} (htrip : x.trip.set = false ∨ old.trip.set = true) (hwarn : x.warn.set = old.warn.set) (hset : x.throt.set = true)
    (hclear : old.throt.set = false) (hi : i < 16) (hdom : (stackOf s (i / 2)).domain = some d) (hsuspect : x.suspect = false ∨ old.suspect = true) :
    thermalActs s i old x = noteThrottle (lowerThermal s d false) := by
  have hnotrip : ¬ (x.trip.set && !old.trip.set) = true := by rcases htrip with h | h <;> simp [h]
  have hnowarn : ¬ (x.warn.set && !old.warn.set) = true := by simp [hwarn]
  have hnosuspect : ¬ (x.suspect && !old.suspect) = true := by rcases hsuspect with h | h <;> simp [h]
  have hthrot : (x.throt.set && !old.throt.set && decide (i < 16)) = true := by simp [hset, hclear, hi]
  have hupper : ¬ (decide (16 ≤ i) && decide (i < 24)) = true := by simp [Nat.not_le.mpr hi]
  have hdom' : domOfDie s i = some d := hdom
  refine (if_neg hnotrip).trans ?_
  simp only [if_neg hnowarn, if_pos hthrot, if_neg hnosuspect, if_neg hupper, hdom']

end

/-! ### Steps while throttled, and the rise -/

section
variable {s : State} {i : BitVec 5} {d : BitVec 3}

theorem exec_throttleStep_of_hot {n c : Nat} (hhot : (thermOf s i.toNat).hotSince = some n) (hi : i.toNat < 16) (hdom : (stackOf s (i.toNat / 2)).domain = some c)
    (hset : (thermOf s i.toNat).throt.set = true) (hrun : RunOut s (n + 5000000)) : exec (.throttleStep i) s =
    .next (lowerThermal (putTherm s i.toNat { thermOf s i.toNat with hotSince := some s.gt }) c true) := by
  have hdom' : domOfDie s i.toNat = some c := hdom
  change execThrottleStep i s = _
  simp only [execThrottleStep, hhot, hdom']
  exact if_pos (by simp [hi, hset, (ranOut_eq_true_iff _ _).mpr hrun])

theorem exec_throttleStep_of_idle (h : (thermOf s i.toNat).hotSince = none ∨ 16 ≤ i.toNat ∨ (stackOf s (i.toNat / 2)).domain = none ∨ (thermOf s i.toNat).throt.set = false ∨
    ∃ n, (thermOf s i.toNat).hotSince = some n ∧ ¬ RunOut s (n + 5000000)) : exec (.throttleStep i) s = .next s := by
  change execThrottleStep i s = _
  cases hhot : (thermOf s i.toNat).hotSince with
  | none => simp only [execThrottleStep, hhot]
  | some n =>
    cases hdom : domOfDie s i.toNat with
    | none => simp only [execThrottleStep, hhot, hdom]
    | some c =>
      simp only [execThrottleStep, hhot, hdom]
      refine if_neg fun hc => ?_
      rw [Bool.and_eq_true, Bool.and_eq_true, decide_eq_true_eq, ranOut_eq_true_iff] at hc
      obtain ⟨⟨hi, hset⟩, hrun⟩ := hc
      rcases h with h | h | h | h | ⟨m, hm, hm'⟩
      · exact absurd (hhot.symm.trans h) (by simp)
      · omega
      · exact absurd (hdom.symm.trans h) (by simp)
      · exact absurd (hset.symm.trans h) (by simp)
      · exact hm' (Option.some.inj (hhot.symm.trans hm) ▸ hrun)

/-- A thermal ceiling is to rise: the domain has not been throttled for 5 ms. -/
def ThermalRises (s : State) (d : Nat) : Prop := (clkOf s d).thCeil ≠ 0 ∧ throttled s d = false ∧ RunOut s ((clkOf s d).coolAt + 5000000)

theorem thermalStays_iff : (decide ((clkOf s d.toNat).thCeil = 0) || throttled s d.toNat || !ranOut s ((clkOf s d.toNat).coolAt + 5000000)) = true ↔ ¬ ThermalRises s d.toNat := by
  rw [Bool.or_eq_true, Bool.or_eq_true, decide_eq_true_eq, Bool.not_eq_true', ranOut_eq_false_iff, ThermalRises, not_and_or, not_and_or, not_not, Bool.not_eq_false, or_assoc]

theorem exec_thermalCeilingRise_of_rises (h : ThermalRises s d.toNat) : exec (.thermalCeilingRise d) s =
    .next (retarget (modClk s d.toNat fun y => { y with thCeil := y.thCeil - 1, coolAt := s.gt }) d.toNat) := if_neg (mt thermalStays_iff.mp (not_not.mpr h))

theorem exec_thermalCeilingRise_of_stays (h : ¬ ThermalRises s d.toNat) : exec (.thermalCeilingRise d) s = .next s := if_pos (thermalStays_iff.mpr h)

end

/-- Settles O49: a latch by `stepLatch_of_…`, a sample leaves `sampledTherm`, ceilings fall by `lowerThermal_clkPut`. -/
theorem thermalStates : Obligations.ThermalStates := by
  unfold Obligations.ThermalStates
  refine ⟨fun T g clear l => ⟨?_, ?_, stepLatch_of_down, stepLatch_of_warm, ?_, ?_⟩, fun s i readings => ⟨?_, ?_⟩, fun s i old x => ⟨thermalActs_of_trip, ?_⟩,
    fun s i => ⟨?_, ?_⟩, fun s d => ⟨?_, ?_⟩⟩
  · exact fun h hT hc => (stepLatch_of_up h hT).trans (if_neg hc)
  · exact fun h hT hc => (stepLatch_of_up h hT).trans (if_pos hc)
  · exact fun h hT hr => (stepLatch_of_cool h hT).trans (if_neg (Nat.not_le.mpr hr))
  · exact fun h hT hr => (stepLatch_of_cool h hT).trans (if_pos hr)
  · exact fun h => ⟨_, exec_thermalSample_of_off h, rfl⟩
  · intro hpd hi
    obtain ⟨htrip, hthrot, hwarn⟩ := sampledTherm_latches s i.toNat readings
    obtain ⟨-, -, -, hfailed, hsensors⟩ := readTherm_keeps s i.toNat readings
    exact ⟨_, exec_thermalSample_of_on hpd hi, sampleDrawn s i.toNat readings, _, sampledTherm s i.toNat readings, sampleTemp s i.toNat readings, sampleDrawn_cases _ _ _,
      putTherm_thermPut _ _ _, rfl, fun own hown y hy => sampled_of_governing (hown ▸ hy), htrip, hthrot, hwarn, hfailed, hsensors, rfl⟩
  · intro d htrip hwarn hset hclear hi hdom hsuspect
    obtain ⟨u, hput, hlow⟩ := lowerThermal_clkPut s d false
    exact ⟨u, hput, hlow ▸ thermalActs_of_throttle htrip hwarn hset hclear hi hdom hsuspect⟩
  · intro n d hhot hi hdom hset hrun
    obtain ⟨v, hput, hlow⟩ := lowerThermal_clkPut (putTherm s i.toNat { thermOf s i.toNat with hotSince := some s.gt }) d true
    exact ⟨_, exec_throttleStep_of_hot hhot hi hdom hset hrun, _, v, putTherm_thermPut _ _ _, hput, hlow⟩
  · exact fun h => ⟨_, exec_throttleStep_of_idle h, rfl⟩
  · exact fun h => ⟨_, exec_thermalCeilingRise_of_rises h, _, modClk_clkPut s d.toNat _, rfl⟩
  · exact fun h => ⟨_, exec_thermalCeilingRise_of_stays h, rfl⟩

end Sys2Proof.Proofs
end

section
/-!
Dies and regulators (17_faults.md R534 to R540; 15_reset_boot.md R485, R486; 14_power_clocks_thermal.md R447, R448).
-/
namespace Sys2Proof.Proofs
open Sys2Proof Sys2Proof.Machine

theorem modDie_diePut (s : State) (i : Nat) (f : Die → Die) : DiePut s (modDie s i f) i (f (dieOf s i)) :=
  ⟨tabGet_set_same _ _ _ _, fun _ he => tabGet_set_other _ _ _ _ he, rfl⟩

theorem pdOf_setPd_same (s : State) (p : Nat) (x : PdState) : pdOf (setPd s p x) p = x := tabGet_set_same _ _ _ _

theorem pdOf_setPd_other (s : State) {p q : Nat} (x : PdState) (h : q ≠ p) : pdOf (setPd s p x) q = pdOf s q := tabGet_set_other _ _ _ _ h

theorem setPd_frame (s : State) (p : Nat) (x : PdState) : setPd s p x = { s with pwr := { s.pwr with pds := (setPd s p x).pwr.pds } } := rfl

/-! ### Heartbeats -/

section
variable {s : State} {i : BitVec 5}

/-- A die's heartbeat reaches the hub: the die serves, an upper one beside a serving lower one. -/
def Beats (s : State) (n : Nat) : Prop := n < 29 ∧ n ≠ 20 ∧ dieUp s n = true ∧ (21 ≤ n → dieUp s (n - 21) = true)

theorem sendsBeat_iff (s : State) (n : Nat) : sendsBeat s n = true ↔ Beats s n := by
  simp only [sendsBeat, Bool.and_eq_true, Bool.or_eq_true, decide_eq_true_eq, and_assoc, ← Nat.not_le, ← imp_iff_not_or, Beats]

theorem exec_heartbeat_of_beat (h : Beats s i.toNat) (hdue : s.gt ≤ (dieOf s i.toNat).beat + 4000) :
    exec (.heartbeat i) s = .next (modDie s i.toNat fun x => { x with beat := s.gt }) :=
  congrArg Host.Outcome.next ((if_neg (by simp [(sendsBeat_iff s _).mpr h])).trans (if_neg (Nat.not_lt.mpr hdue)))

theorem exec_heartbeat_of_late (h : Beats s i.toNat) (hlate : (dieOf s i.toNat).beat + 4000 < s.gt) :
    exec (.heartbeat i) s = .next (loseDie s i.toNat (dieClass i.toNat) 0 false) :=
  congrArg Host.Outcome.next ((if_neg (by simp [(sendsBeat_iff s _).mpr h])).trans (if_pos hlate))

theorem exec_heartbeat_of_none (h : ¬ Beats s i.toNat) : exec (.heartbeat i) s = .next s :=
  congrArg Host.Outcome.next (if_pos (by simpa using mt (sendsBeat_iff s _).mp h))

/-- A die other than the hub's serves, and its 4,000 ticks have run out. -/
def BeatOver (s : State) (n : Nat) : Prop := n < 29 ∧ n ≠ 20 ∧ dieUp s n = true ∧ RunOut s ((dieOf s n).beat + 4000)

theorem beatOver_iff (n : Nat) : (decide (n < 29) && decide (n ≠ 20) && dieUp s n && ranOut s ((dieOf s n).beat + 4000)) = true ↔ BeatOver s n := by
  simp only [Bool.and_eq_true, decide_eq_true_eq, ranOut_eq_true_iff, and_assoc, BeatOver]

theorem exec_heartbeatTimeout_of_over (h : BeatOver s i.toNat) : exec (.heartbeatTimeout i) s = .next (loseDie s i.toNat (dieClass i.toNat) 0 false) :=
  congrArg Host.Outcome.next (if_pos ((beatOver_iff _).mpr h))

theorem exec_heartbeatTimeout_of_heard (h : ¬ BeatOver s i.toNat) : exec (.heartbeatTimeout i) s = .next s := congrArg Host.Outcome.next (if_neg (mt (beatOver_iff _).mp h))

/-- A die that firmware may reset. -/
def MayReset (s : State) (n : Nat) : Prop := resetWaits s = false ∧ (dieOf s 20).st ≠ .reset ∧ n ≠ 20 ∧ n < 29 ∧ (dieOf s n).st ≠ .off ∧ (dieOf s n).st ≠ .ramping ∧
  (dieOf s n).st ≠ .reset ∧ (21 ≤ n → dieUp s (n - 21) = true)

theorem mayReset_iff (n : Nat) : (resetWaits s || (dieOf s 20).st = .reset || n = 20 || decide (29 ≤ n) || (dieOf s n).st = .off || (dieOf s n).st = .ramping ||
    (dieOf s n).st = .reset || (decide (21 ≤ n) && !dieUp s (n - 21))) = false ↔ MayReset s n := by
  simp only [Bool.or_eq_false_iff, Bool.and_eq_false_iff, decide_eq_false_iff_not, Bool.not_eq_false', and_assoc, MayReset, ← Nat.not_le, ← imp_iff_not_or,
    ne_eq]

theorem exec_dieLocalReset_of_free {sr : Bool} (h : MayReset s i.toNat) : exec (.dieLocalReset i sr) s = .next (resetDie s i.toNat (dieClass i.toNat) 0 sr false) :=
  if_neg (Bool.eq_false_iff.mp ((mayReset_iff _).mpr h))

theorem exec_dieLocalReset_of_stays {sr : Bool} (h : ¬ MayReset s i.toNat) : exec (.dieLocalReset i sr) s = .next s :=
  if_pos (by simpa only [Bool.not_eq_false] using mt (mayReset_iff _).mp h)

end

/-! ### Regulators and PLLs -/

section
variable {s : State} {p : BitVec 6}

/-- A regulator that feeds nothing. -/
def Unfed (s : State) (n : Nat) : Prop := 49 ≤ n ∨ pdOf s n = .off ∨ pdOf s n = .fault

theorem unfed_iff (n : Nat) : (decide (49 ≤ n) || decide (pdOf s n = .off) || decide (pdOf s n = .fault)) = true ↔ Unfed s n := by
  simp only [Bool.or_eq_true, decide_eq_true_eq, or_assoc, Unfed]

theorem exec_regulatorFault_of_unfed (h : Unfed s p.toNat) : exec (.regulatorFault p) s = .next s := if_pos ((unfed_iff _).mpr h)

/-- What the fault of a regulator that feeds something does, by its domain. -/
theorem exec_regulatorFault_of_fed (h : ¬ Unfed s p.toNat) : exec (.regulatorFault p) s =
    if p.toNat = 28 then .next (loseHub s)
    else if 29 ≤ p.toNat ∧ p.toNat < 41 then .next (loseField s (p.toNat - 29))
    else if 41 ≤ p.toNat then
      .next (setPd (joined (fault s { cls := 0x0D, unit := unitId 9 ((p.toNat - 41) * 16), outcome := 3, cause := p.toNat, permanent := true }) fun t => loseGroup t (p.toNat - 41)) p.toNat .fault)
    else match dieOfPd p.toNat with
      | some i => .next (setPd (loseDie s i 0x13 p.toNat false) p.toNat .fault)
      | none => .next s := if_neg (mt (unfed_iff _).mp h)

theorem exec_regulatorFault_of_die {i : Nat} (h : ¬ Unfed s p.toNat) (hp : p.toNat < 28) (hi : dieOfPd p.toNat = some i) :
    exec (.regulatorFault p) s = .next (setPd (loseDie s i 0x13 p.toNat false) p.toNat .fault) := by
  rw [exec_regulatorFault_of_fed h, if_neg (by omega), if_neg (by omega), if_neg (by omega), hi]

end

section
variable {s : State} {i : BitVec 6} {sr : Bool}

theorem exec_diePllUnlock_of_out (h : s.pwr.refOk = false) : exec (.diePllUnlock i sr) s = .next s := if_pos (by simp [h])

/-- What an unlocked PLL does while the reference is there, by its unit. -/
theorem exec_diePllUnlock_of_on (h : s.pwr.refOk = true) : exec (.diePllUnlock i sr) s =
    if 32 ≤ i.toNat ∧ i.toNat < 44 then .next ((endpointsIn s (i.toNat - 32)).foldl failPath s)
    else if i.toNat = 20 then .next (warmReset (fault s { cls := 0x12, unit := unitId 1 20, outcome := 4 }) 5 false)
    else if decide (29 ≤ i.toNat) || !dieUp s i.toNat then .next s
    else .next (resetDie s i.toNat 0x12 0 sr false) := if_neg (by simp [h])

theorem exec_diePllUnlock_of_die (h : s.pwr.refOk = true) (hi : i.toNat < 29) (hhub : i.toNat ≠ 20) (hup : dieUp s i.toNat = true) :
    exec (.diePllUnlock i sr) s = .next (resetDie s i.toNat 0x12 0 sr false) := by
  rw [exec_diePllUnlock_of_on h, if_neg (by omega), if_neg hhub, if_neg (by simp [hup, hi])]

theorem exec_diePllUnlock_of_other (h : s.pwr.refOk = true) (hhub : i.toNat ≠ 20) (hfield : i.toNat < 32 ∨ 44 ≤ i.toNat) (hdie : 29 ≤ i.toNat ∨ dieUp s i.toNat = false) :
    exec (.diePllUnlock i sr) s = .next s := by
  rw [exec_diePllUnlock_of_on h, if_neg (by omega), if_neg hhub, if_pos (by simpa using hdie)]

end

/-! ### A reset of a die -/

theorem powerOn_frame (s : State) (p : Nat) : ∃ w x n, powerOn s p = { s with pwr := { s.pwr with pds := w, ramps := x, rampBy := n } } := by
  unfold powerOn
  dsimp only
  split
  · exact ⟨s.pwr.pds, s.pwr.ramps, s.pwr.rampBy, rfl⟩
  · split <;> exact ⟨_, _, _, rfl⟩

/-- A stack's telemetry with a reset die's part cleared. -/
def telCleared (x : Telemetry) (up : Bool) : Telemetry :=
  { flits := x.flits.filter fun e => decide (128 * 64 ≤ e.1) != up, stalls := x.stalls.filter fun e => decide (128 * 64 ≤ e.1) != up,
    hwm := x.hwm.filter fun e => decide (128 * 64 ≤ e.1) != up, merges := 0, draws := x.draws.filter fun e => e.2 != up }

theorem clearDieTel_of_lower (s : State) {i : Nat} (h : i < 8) : clearDieTel s i = modStack s i fun k => { k with tel := telCleared k.tel false } := if_pos h

theorem clearDieTel_of_upper (s : State) {i : Nat} (h : 21 ≤ i) (h' : i < 29) : clearDieTel s i = modStack s (i - 21) fun k => { k with tel := telCleared k.tel true } :=
  (if_neg (by omega)).trans (if_pos ⟨h, h'⟩)

theorem clearDieTel_of_other (s : State) {i : Nat} (h : 8 ≤ i) (h' : i < 21 ∨ 29 ≤ i) : clearDieTel s i = s :=
  (if_neg (by omega)).trans (if_neg (by omega))

theorem clearDieTel_frame (s : State) (i : Nat) : ∃ m, clearDieTel s i = { s with arr := { s.arr with memStacks := m } } := by
  unfold clearDieTel
  dsimp only
  split
  · exact ⟨_, rfl⟩
  · split
    · exact ⟨_, rfl⟩
    · exact ⟨s.arr.memStacks, rfl⟩

/-- One die of a reset's scope goes into reset. -/
def intoReset (s : State) (j : Nat) : State := powerOn (clearDieTel (modDie s j fun x => { x with st := .reset, returning := false }) j) (pdOfDie j)

theorem dieOf_powerOn (s : State) (p e : Nat) : dieOf (powerOn s p) e = dieOf s e := by
  obtain ⟨w, x, n, h⟩ := powerOn_frame s p
  rw [h]
  rfl

theorem memStacks_powerOn (s : State) (p : Nat) : (powerOn s p).arr.memStacks = s.arr.memStacks := by
  obtain ⟨w, x, n, h⟩ := powerOn_frame s p
  rw [h]

theorem dieOf_clearDieTel (s : State) (i e : Nat) : dieOf (clearDieTel s i) e = dieOf s e := by
  obtain ⟨m, h⟩ := clearDieTel_frame s i
  rw [h]
  rfl

theorem dieOf_intoReset (s : State) (j e : Nat) : dieOf (intoReset s j) e = if e = j then { dieOf s e with st := .reset, returning := false } else dieOf s e := by
  rw [intoReset, dieOf_powerOn, dieOf_clearDieTel, dieOf_modDie]
  split
  · rename_i h
    rw [h]
  · rfl

/-- What a die's entry into reset may change. -/
def IntoReset (s t : State) : Prop := ∃ d m w x n, t = { s with
  arr := { s.arr with dies := d, memStacks := m }, pwr := { s.pwr with pds := w, ramps := x, rampBy := n } }

theorem IntoReset_trans {s t u : State} (h : IntoReset s t) (g : IntoReset t u) : IntoReset s u := by
  obtain ⟨_, _, _, _, _, rfl⟩ := h
  obtain ⟨d, m, w, x, n, rfl⟩ := g
  exact ⟨d, m, w, x, n, rfl⟩

theorem intoReset_frame (s : State) (j : Nat) : IntoReset s (intoReset s j) := by
  obtain ⟨m, hm⟩ := clearDieTel_frame (modDie s j fun x => { x with st := .reset, returning := false }) j
  obtain ⟨w, x, n, hw⟩ := powerOn_frame (clearDieTel (modDie s j fun x => { x with st := .reset, returning := false }) j) (pdOfDie j)
  rw [intoReset, hw, hm]
  exact ⟨_, m, w, x, n, rfl⟩

theorem memStacks_intoReset (s : State) (j : Nat) :
    (intoReset s j).arr.memStacks = (clearDieTel (modDie s j fun x => { x with st := .reset, returning := false }) j).arr.memStacks := memStacks_powerOn _ _

theorem stackOf_congr {s t : State} (h : s.arr.memStacks = t.arr.memStacks) (n : Nat) : stackOf s n = stackOf t n := congrArg (fun m => tabGet m ({} : Stack) n) h

theorem stackOf_intoReset_lower (s : State) {j : Nat} (h : j < 8) (n : Nat) :
    stackOf (intoReset s j) n = if n = j then { stackOf s j with tel := telCleared (stackOf s j).tel false } else stackOf s n := by
  rw [stackOf_congr (memStacks_intoReset s j), clearDieTel_of_lower _ h, stackOf_modStack]
  rfl

theorem stackOf_intoReset_upper (s : State) {j : Nat} (h : 21 ≤ j) (h' : j < 29) (n : Nat) :
    stackOf (intoReset s j) n = if n = j - 21 then { stackOf s (j - 21) with tel := telCleared (stackOf s (j - 21)).tel true } else stackOf s n := by
  rw [stackOf_congr (memStacks_intoReset s j), clearDieTel_of_upper _ h h', stackOf_modStack]
  rfl

theorem memStacks_intoReset_other (s : State) {j : Nat} (h : 8 ≤ j) (h' : j < 21 ∨ 29 ≤ j) : (intoReset s j).arr.memStacks = s.arr.memStacks := by
  rw [memStacks_intoReset, clearDieTel_of_other _ h h']
  rfl

/-- With both dies of a stack in reset, nothing is left of its telemetry. -/
theorem telCleared_both (x : Telemetry) : telCleared (telCleared x false) true = {} := by
  simp [telCleared, List.filter_filter]

/-- An upper die's part of a stack's telemetry is cleared: what is below tile 128 stays. -/
theorem telCleared_upper (x : Telemetry) : telCleared x true =
    ⟨x.flits.filter fun e => decide (e.1 < 128 * 64), x.stalls.filter fun e => decide (e.1 < 128 * 64), x.hwm.filter fun e => decide (e.1 < 128 * 64), 0,
      x.draws.filter fun e => !e.2⟩ := by
  simp only [telCleared, Bool.bne_true, ← decide_not, Nat.not_le]

/-- The dies of a reset's scope go into reset. -/
def scopeIntoReset (s : State) (i : Nat) : State := (resetScope i).foldl intoReset s

theorem dieOf_foldl_intoReset (js : List Nat) (s : State) (e : Nat) :
    dieOf (js.foldl intoReset s) e = if e ∈ js then { dieOf s e with st := .reset, returning := false } else dieOf s e := by
  induction js generalizing s with
  | nil => rfl
  | cons j js ih =>
    rw [List.foldl_cons, ih, dieOf_intoReset]
    by_cases hj : e = j
    · simp [hj]
    · simp [hj]

theorem scopeIntoReset_frame (s : State) (i : Nat) : IntoReset s (scopeIntoReset s i) := by
  unfold scopeIntoReset resetScope
  split
  · exact IntoReset_trans (intoReset_frame _ _) (intoReset_frame _ _)
  · exact intoReset_frame _ _

theorem scopeIntoReset_of_lower (s : State) {i : Nat} (h : i < 8) (n : Nat) :
    stackOf (scopeIntoReset s i) n = if n = i then { stackOf s i with tel := {} } else stackOf s n := by
  have hsub : upperDie i - 21 = i := Nat.add_sub_cancel_left 21 i
  rw [scopeIntoReset, resetScope, if_pos h, List.foldl_cons, List.foldl_cons, List.foldl_nil,
    stackOf_intoReset_upper _ (j := upperDie i) (Nat.le_add_right 21 i) (by unfold upperDie; omega), hsub, stackOf_intoReset_lower _ h, stackOf_intoReset_lower _ h]
  split
  · rw [if_pos rfl]
    exact congrArg (fun z => { stackOf s i with tel := z }) (telCleared_both _)
  · rfl

theorem scopeIntoReset_of_single (s : State) {i : Nat} (h : 8 ≤ i) : scopeIntoReset s i = intoReset s i := by
  rw [scopeIntoReset, resetScope, if_neg (by omega)]
  rfl

/-! What a reset's dies held -/

/-- What is lost or kept of the die found in service, before it goes into reset. -/
def resetFound (u : State) (i cls cause : Nat) (sr injected : Bool) : State :=
  if !dieUp u i then u
  else if 16 ≤ i ∧ i < 20 ∧ sr then
    fault (suspendPort u (i - 16)) { cls := cls, unit := unitId 1 i, outcome := 4, domains := runningDoms u, interrupts := runningDoms u ≠ [], cause := cause, injected := injected }
  else loseDie u i cls cause injected

/-- A port die's channels enter self refresh; the contents of a memory die without it are lost. -/
def resetMem (u v : State) (i : Nat) (sr : Bool) : State :=
  let s2 := if 16 ≤ i ∧ i < 20 then enterSelfRefresh v (i - 16) (sr && dieUp u i) else v
  if 16 ≤ i ∧ i < 20 ∧ sr ∧ dieUp u i then s2 else loseContents s2 i

theorem beginDieReset_eq (u : State) (i cls cause : Nat) (sr injected : Bool) :
    beginDieReset u i cls cause sr injected = markDieReset (scopeIntoReset (resetMem u (resetFound u i cls cause sr injected) i sr) i) := rfl

theorem resetFound_of_down {u : State} {i cls cause : Nat} {sr injected : Bool} (h : dieUp u i = false) : resetFound u i cls cause sr injected = u := if_pos (by simp [h])

theorem resetFound_of_port {u : State} {i cls cause : Nat} {sr injected : Bool} (h : dieUp u i = true) (h16 : 16 ≤ i) (h20 : i < 20) (hsr : sr = true) :
    resetFound u i cls cause sr injected =
      fault (suspendPort u (i - 16)) { cls := cls, unit := unitId 1 i, outcome := 4, domains := runningDoms u, interrupts := runningDoms u ≠ [], cause := cause, injected := injected } :=
  (if_neg (by simp [h])).trans (if_pos ⟨h16, h20, hsr⟩)

theorem resetFound_of_lost {u : State} {i cls cause : Nat} {sr injected : Bool} (h : dieUp u i = true) (hother : i < 16 ∨ 20 ≤ i ∨ sr = false) :
    resetFound u i cls cause sr injected = loseDie u i cls cause injected := by
  refine (if_neg (by simp [h])).trans (if_neg ?_)
  rintro ⟨h16, h20, hsr⟩
  rcases hother with h | h | h
  · omega
  · omega
  · exact absurd (h.symm.trans hsr) (by decide)

section
variable (u v : State) (i : Nat) (sr : Bool)

/-- A memory die's contents are lost by its reset. -/
def ContentsLost : Prop := 8 ≤ i ∧ i < 20 ∧ ¬ (16 ≤ i ∧ (sr && dieUp u i) = true)

theorem enterSelfRefresh_port (p : Nat) (ok : Bool) : portMem (enterSelfRefresh v p ok) p = { portMem v p with sr := ok, srOk := ok } ∧
    ∀ q, q ≠ p → portMem (enterSelfRefresh v p ok) q = portMem v q := ⟨tabGet_set_same _ _ _ _, fun _ h => tabGet_set_other _ _ _ _ h⟩

theorem loseContents_ports : (loseContents v i).mem.ports = v.mem.ports := by
  unfold loseContents
  split <;> rfl

/-- The ports' memory as a reset leaves it. -/
theorem resetMem_ports : (resetMem u v i sr).mem.ports =
    (if 16 ≤ i ∧ i < 20 then enterSelfRefresh v (i - 16) (sr && dieUp u i) else v).mem.ports := by
  unfold resetMem
  dsimp only
  split
  · rfl
  · exact loseContents_ports _ _

theorem resetMem_of_lost (h : ContentsLost u i sr) :
    (resetMem u v i sr).mem.clean = (markPending v.mem (granuleOn i)).clean ∧ (resetMem u v i sr).mem.cells = (markPending v.mem (granuleOn i)).cells := by
  obtain ⟨h8, h20, hlost⟩ := h
  have hkept : ¬ (16 ≤ i ∧ i < 20 ∧ sr = true ∧ dieUp u i = true) := fun hc => hlost ⟨hc.1, by simp [hc.2.2]⟩
  unfold resetMem loseContents
  dsimp only
  rw [if_neg hkept, if_pos ⟨h8, h20⟩]
  split <;> exact ⟨rfl, rfl⟩

theorem resetMem_of_kept (h : ¬ ContentsLost u i sr) : (resetMem u v i sr).mem.clean = v.mem.clean ∧ (resetMem u v i sr).mem.cells = v.mem.cells := by
  unfold resetMem
  dsimp only
  by_cases hport : 16 ≤ i ∧ i < 20
  · have hok : sr = true ∧ dieUp u i = true := by
      by_contra hc
      exact h ⟨by omega, hport.2, fun ho => hc (by simpa using ho.2)⟩
    rw [if_pos ⟨hport.1, hport.2, hok⟩, if_pos hport]
    exact ⟨rfl, rfl⟩
  · have hmem : ¬ (8 ≤ i ∧ i < 20) := fun hc => h ⟨hc.1, hc.2, fun ho => hport ⟨ho.1, hc.2⟩⟩
    rw [if_neg (fun hc => hport ⟨hc.1, hc.2.1⟩), if_neg hport, loseContents, if_neg hmem]
    exact ⟨rfl, rfl⟩

theorem resetMem_frame : resetMem u v i sr = { v with mem := { v.mem with
    ports := (resetMem u v i sr).mem.ports, clean := (resetMem u v i sr).mem.clean, cells := (resetMem u v i sr).mem.cells } } := by
  unfold resetMem loseContents
  dsimp only
  split <;> split <;> try split
  all_goals rfl

end

/-! The whole reset -/

section
variable (u v : State) (i : Nat) (sr : Bool)

/-- A reset of a die, after what befell it in service. -/
def dieReset : State := markDieReset (scopeIntoReset (resetMem u v i sr) i)

theorem dieOf_dieReset (j : Nat) : dieOf (dieReset u v i sr) j = if j ∈ resetScope i then { dieOf v j with st := .reset, returning := false } else dieOf v j := by
  refine (dieOf_foldl_intoReset (resetScope i) (resetMem u v i sr) j).trans ?_
  rw [resetMem_frame]
  rfl

theorem dieReset_memStacks : (dieReset u v i sr).arr.memStacks = (scopeIntoReset (resetMem u v i sr) i).arr.memStacks := rfl

theorem stackOf_resetMem (n : Nat) : stackOf (resetMem u v i sr) n = stackOf v n := by
  rw [resetMem_frame]
  rfl

theorem stackOf_dieReset_lower (h : i < 8) (n : Nat) : stackOf (dieReset u v i sr) n = if n = i then { stackOf v i with tel := {} } else stackOf v n := by
  rw [stackOf_congr (dieReset_memStacks u v i sr), scopeIntoReset_of_lower _ h, stackOf_resetMem, stackOf_resetMem]

theorem stackOf_dieReset_upper (h : 21 ≤ i) (h' : i < 29) (n : Nat) :
    stackOf (dieReset u v i sr) n = if n = i - 21 then { stackOf v (i - 21) with tel := telCleared (stackOf v (i - 21)).tel true } else stackOf v n := by
  rw [stackOf_congr (dieReset_memStacks u v i sr), scopeIntoReset_of_single _ (by omega), stackOf_intoReset_upper _ h h', stackOf_resetMem, stackOf_resetMem]

theorem dieReset_memStacks_other (h : 8 ≤ i) (h' : i < 21 ∨ 29 ≤ i) : (dieReset u v i sr).arr.memStacks = v.arr.memStacks := by
  rw [dieReset_memStacks, scopeIntoReset_of_single _ h, memStacks_intoReset_other _ h h', resetMem_frame]

theorem dieReset_mem : (dieReset u v i sr).mem = (resetMem u v i sr).mem := by
  obtain ⟨d, m, w, x, n, h⟩ := scopeIntoReset_frame (resetMem u v i sr) i
  rw [dieReset, h]
  rfl

theorem scopeIntoReset_rf (s : State) : (scopeIntoReset s i).rf = s.rf := by
  obtain ⟨d, m, w, x, n, h⟩ := scopeIntoReset_frame s i
  rw [h]

theorem dieReset_port (h : 16 ≤ i) (h' : i < 20) :
    portMem (dieReset u v i sr) (i - 16) = { portMem v (i - 16) with sr := sr && dieUp u i, srOk := sr && dieUp u i } ∧
    ∀ p, p ≠ i - 16 → portMem (dieReset u v i sr) p = portMem v p := by
  have hports : (dieReset u v i sr).mem.ports = (enterSelfRefresh v (i - 16) (sr && dieUp u i)).mem.ports := by
    rw [dieReset_mem, resetMem_ports, if_pos ⟨h, h'⟩]
  have hport (p : Nat) : portMem (dieReset u v i sr) p = portMem (enterSelfRefresh v (i - 16) (sr && dieUp u i)) p := congrArg (fun m => tabGet m ({} : PortMem) p) hports
  obtain ⟨hsame, hother⟩ := enterSelfRefresh_port v (i - 16) (sr && dieUp u i)
  exact ⟨(hport _).trans hsame, fun p hp => (hport p).trans (hother p hp)⟩

theorem dieReset_ports_other (h : i < 16 ∨ 20 ≤ i) : (dieReset u v i sr).mem.ports = v.mem.ports := by
  rw [dieReset_mem, resetMem_ports, if_neg (by omega)]

theorem dieReset_regs : (regVal (dieReset u v i sr) 0x300000).getLsbD 7 = true ∧ OtherRegs [0x300000] v (dieReset u v i sr) := by
  obtain ⟨hbit, hother, -⟩ := raiseBit_raised (scopeIntoReset (resetMem u v i sr) i) 0x300000 (b := 7) (by decide)
  refine ⟨hbit, fun o ho => (hother o ho).trans ?_⟩
  have hrf : (scopeIntoReset (resetMem u v i sr) i).rf = v.rf := (scopeIntoReset_rf i _).trans (by rw [resetMem_frame])
  exact congrArg (fun r => tabGet r.vals (regReset o) o) hrf

theorem dieReset_frame : let t := dieReset u v i sr
    t = { v with arr := { v.arr with dies := t.arr.dies, memStacks := t.arr.memStacks }, mem := { v.mem with ports := t.mem.ports, clean := t.mem.clean, cells := t.mem.cells },
                 pwr := { v.pwr with pds := t.pwr.pds, ramps := t.pwr.ramps, rampBy := t.pwr.rampBy }, rf := { v.rf with vals := t.rf.vals, setAt := t.rf.setAt } } := by
  intro t
  obtain ⟨d, m, w, x, n, h⟩ := scopeIntoReset_frame (resetMem u v i sr) i
  have ht : t = markDieReset { resetMem u v i sr with
    arr := { (resetMem u v i sr).arr with dies := d, memStacks := m }, pwr := { (resetMem u v i sr).pwr with pds := w, ramps := x, rampBy := n } } := congrArg markDieReset h
  rw [ht, resetMem_frame]
  rfl

end

end Sys2Proof.Proofs
end

section
/-!
Die tests and power domains coming on (15_reset_boot.md R485; 14_power_clocks_thermal.md R448).
-/
namespace Sys2Proof.Proofs
open Sys2Proof Sys2Proof.Machine

/-! ### Tests -/

section
variable {s : State} {i : BitVec 5} {pass : Bool} {tiles : List (BitVec 8)} {links : List LinkTest} {bundles : List (BitVec 8 × BitVec 7)}

/-- A die whose tests end: in reset or under test, powered, and not while a warm boot's early stages run. -/
def UnderTest (s : State) (n : Nat) : Prop := ((dieOf s n).st = .reset ∨ (dieOf s n).st = .testing) ∧ (dieOf s n).returning = false ∧ pdOf s (pdOfDie n) = .on ∧ n ≠ 20 ∧
  (s.rst.warmReset = false ∨ 3 ≤ stageOf s)

theorem underTest_iff {n : Nat} (hhub : n ≠ 20) : (!(decide ((dieOf s n).st = .reset) || decide ((dieOf s n).st = .testing)) || (dieOf s n).returning ||
    decide (pdOf s (pdOfDie n) ≠ .on) || (s.rst.warmReset && decide (stageOf s < 3))) = false ↔ UnderTest s n := by
  simp only [Bool.or_eq_false_iff, Bool.and_eq_false_iff, decide_eq_false_iff_not, Bool.not_eq_false', Bool.or_eq_true, decide_eq_true_eq, and_assoc, UnderTest, Nat.not_lt,
    not_not, ne_eq, hhub, not_false_eq_true, true_and]

/-- A die with its bundles tested. -/
def bundlesTested (s : State) (n : Nat) (bundles : List (BitVec 8 × BitVec 7)) : State := testBundles (freshDie s n) n bundles

/-- A die that passed, with its tiles and links tested; a port die's channels have left self refresh. -/
def tilesTested (s : State) (n : Nat) (tiles : List (BitVec 8)) (links : List LinkTest) (bundles : List (BitVec 8 × BitVec 7)) : State :=
  testTiles (if decide (16 ≤ n) && decide (n < 20) then modPort (bundlesTested s n bundles) (n - 16) leaveSelfRefresh else bundlesTested s n bundles) n (tiles.map BitVec.toNat) links

theorem tilesTested_eq (s : State) (n : Nat) (tiles : List (BitVec 8)) (links : List LinkTest) (bundles : List (BitVec 8 × BitVec 7)) : tilesTested s n tiles links bundles =
    testTiles (if 16 ≤ n ∧ n < 20 then modPort (bundlesTested s n bundles) (n - 16) leaveSelfRefresh else bundlesTested s n bundles) n (tiles.map BitVec.toNat) links :=
  congrArg (testTiles · n (tiles.map BitVec.toNat) links) (if_congr (by simp) rfl rfl)

/-- A die that passed its tests, to enter service or to wait. -/
def passedDie (v : State) (n : Nat) : State := modDie v n fun x => { x with returning := true }

/-- A die that passed waits: for its training, or for a step boundary. -/
def ReturnWaits (v : State) (n : Nat) : Bool := (decide (16 ≤ n) && decide (n < 20) && !trained v (n - 16)) || !entersNow (passedDie v n) n

theorem exec_dieLocalResetDone_of_hub (h : i.toNat = 20) : exec (.dieLocalResetDone i pass ⟨tiles, links⟩ bundles) s =
    .next (if bootReady s then s else testBundles s 20 bundles) := if_pos h

theorem exec_dieLocalResetDone_of_other (hhub : i.toNat ≠ 20) (h : ¬ UnderTest s i.toNat) : exec (.dieLocalResetDone i pass ⟨tiles, links⟩ bundles) s = .next s :=
  (if_neg hhub).trans (if_pos (by simpa only [Bool.not_eq_false] using mt (underTest_iff hhub).mp h))

theorem exec_dieLocalResetDone_of_failed (h : UnderTest s i.toNat) (hfail : pass = false ∨ stripDead (bundlesTested s i.toNat bundles) i.toNat = true) :
    exec (.dieLocalResetDone i pass ⟨tiles, links⟩ bundles) s = .next (bootAdvance (failDie (bundlesTested s i.toNat bundles) i.toNat)) := by
  have hhub := h.2.2.2.1
  refine (if_neg hhub).trans ((if_neg (Bool.eq_false_iff.mp ((underTest_iff hhub).mpr h))).trans (if_pos ?_))
  rw [Bool.or_eq_true, Bool.not_eq_true']
  exact hfail

theorem exec_dieLocalResetDone_of_passed (h : UnderTest s i.toNat) (hpass : pass = true) (hstrip : stripDead (bundlesTested s i.toNat bundles) i.toNat = false) :
    exec (.dieLocalResetDone i pass ⟨tiles, links⟩ bundles) s = .next (let v := tilesTested s i.toNat tiles links bundles
      bootAdvance (if ReturnWaits v i.toNat then passedDie v i.toNat else (enterWith (passedDie v i.toNat) i.toNat).foldl admitDie (passedDie v i.toNat))) := by
  have hhub := h.2.2.2.1
  refine (if_neg hhub).trans ((if_neg (Bool.eq_false_iff.mp ((underTest_iff hhub).mpr h))).trans (if_neg ?_))
  rw [Bool.or_eq_true, Bool.not_eq_true', not_or, Bool.not_eq_false, Bool.not_eq_true]
  exact ⟨hpass, hstrip⟩

theorem returnWaits_iff (v : State) (n : Nat) : ReturnWaits v n = true ↔ ((16 ≤ n ∧ n < 20) ∧ trained v (n - 16) = false) ∨ entersNow (passedDie v n) n = false := by
  simp only [ReturnWaits, Bool.or_eq_true, Bool.and_eq_true, decide_eq_true_eq, Bool.not_eq_true']

end

/-! ### Power domains -/

section
variable {s : State} {p : BitVec 6} {n : Nat} {rest : List Nat}

/-- The domain that ramped is on. -/
def rampedOn (s : State) (p : Nat) (rest : List Nat) : State := setPd (modPwr s fun q => { q with ramps := rest, rampBy := s.gt + 100000 }) p .on

/-- The domain that ramped is on, and the next ramps. -/
def rampDone (s : State) (p : Nat) (rest : List Nat) : State :=
  match rest with
  | n :: _ => setPd (rampedOn s p rest) n .ramping
  | [] => rampedOn s p rest

theorem rampDone_pds (s : State) (p : Nat) (rest : List Nat) : (rest.head? ≠ some p → pdOf (rampDone s p rest) p = .on) ∧
    (∀ m, rest.head? = some m → pdOf (rampDone s p rest) m = .ramping) ∧ (∀ m, m ≠ p → rest.head? ≠ some m → pdOf (rampDone s p rest) m = pdOf s m) := by
  cases rest with
  | nil => exact ⟨fun _ => pdOf_setPd_same _ _ _, fun m h => by simp at h, fun m hm _ => pdOf_setPd_other _ _ hm⟩
  | cons n rest =>
    refine ⟨fun h => ?_, fun m h => ?_, fun m hm h => ?_⟩
    · have hne : p ≠ n := fun hc => h (by simp [hc])
      exact (pdOf_setPd_other _ _ hne).trans (pdOf_setPd_same _ _ _)
    · obtain rfl : n = m := by simpa using h
      exact pdOf_setPd_same _ _ _
    · have hne : m ≠ n := fun hc => h (by simp [hc])
      exact (pdOf_setPd_other _ _ hne).trans (pdOf_setPd_other _ _ hm)

theorem rampDone_frame (s : State) (p : Nat) (rest : List Nat) :
    rampDone s p rest = { s with pwr := { s.pwr with pds := (rampDone s p rest).pwr.pds, ramps := rest, rampBy := s.gt + 100000 } } := by
  cases rest <;> rfl

theorem dieOf_rampDone (s : State) (p : Nat) (rest : List Nat) (i : Nat) : dieOf (rampDone s p rest) i = dieOf s i := by
  rw [rampDone_frame]
  rfl

theorem gt_rampDone (s : State) (p : Nat) (rest : List Nat) : (rampDone s p rest).gt = s.gt := by rw [rampDone_frame]

theorem bootReady_rampDone (s : State) (p : Nat) (rest : List Nat) : bootReady (rampDone s p rest) = bootReady s := by
  rw [rampDone_frame]
  rfl

theorem exec_powerDomainRampDone_of_early (h : s.pwr.ramps.head? ≠ some p.toNat ∨ s.gt < s.pwr.rampBy) : exec (.powerDomainRampDone p) s = .next s := by
  change execPowerDomainRampDone p s = _
  cases hr : s.pwr.ramps with
  | nil => simp only [execPowerDomainRampDone, hr]
  | cons n rest =>
    simp only [execPowerDomainRampDone, hr]
    exact if_pos (by simpa [hr] using h)

/-- What a domain that comes on feeds: the hub's boot, a field's lasers, a group's calibrations, or a die's tests. -/
def rampFeeds (u : State) (p : Nat) : State :=
  if p = 28 then
    let v := modDie u 20 fun x => { x with st := .inService, beat := u.gt }
    if stageOf v = 0 then startImages v else v
  else if 29 ≤ p ∧ p < 41 then
    let v := lightField u (p - 29)
    bootAdvance (if bootReady v then modBase v fun b => { b with acquired := ascending ((p - 29) :: b.acquired.filter (· ≠ p - 29)) } else v)
  else if 41 ≤ p then
    bootAdvance (nextCalibration ((List.range 16).foldl (fun u b => modBank u (p - 41) b fun q =>
      if q.st = .failed then q else { q with due := true, coef := { q.coef with map := Config.seedMap ((p - 41) * 16 + b) } }) u) (p - 41))
  else match dieOfPd p with
    | some i => bootAdvance (if (dieOf u i).st = .ramping then modDie u i fun x => { x with st := .testing } else u)
    | none => u

/-- Every domain below the hub's is of a die. -/
theorem dieOfPd_of_lt {n : Nat} (h : n < 28) : ∃ i, dieOfPd n = some i := by
  unfold dieOfPd
  by_cases h16 : n < 16
  · exact ⟨_, if_pos h16⟩
  · by_cases h24 : n < 24
    · exact ⟨_, (if_neg h16).trans (if_pos h24)⟩
    · exact ⟨_, (if_neg h16).trans ((if_neg h24).trans (if_pos h))⟩

theorem rampFeeds_of_hub (u : State) {n : Nat} (h : n = 28) : rampFeeds u n = (let v := modDie u 20 fun x => { x with st := .inService, beat := u.gt }
    if stageOf v = 0 then startImages v else v) := if_pos h

theorem rampFeeds_of_field (u : State) {n : Nat} (h : 29 ≤ n) (h' : n < 41) : rampFeeds u n = (let v := lightField u (n - 29)
    bootAdvance (if bootReady v then modBase v fun b => { b with acquired := ascending ((n - 29) :: b.acquired.filter (· ≠ n - 29)) } else v)) :=
  (if_neg (by omega)).trans (if_pos ⟨h, h'⟩)

theorem rampFeeds_of_group (u : State) {n : Nat} (h : 41 ≤ n) : rampFeeds u n =
    bootAdvance (nextCalibration ((List.range 16).foldl (fun u b => modBank u (n - 41) b fun q =>
      if q.st = .failed then q else { q with due := true, coef := { q.coef with map := Config.seedMap ((n - 41) * 16 + b) } }) u) (n - 41)) :=
  (if_neg (by omega)).trans ((if_neg (by omega)).trans (if_pos h))

theorem rampFeeds_of_die (u : State) {n i : Nat} (h : n < 28) (hi : dieOfPd n = some i) : rampFeeds u n =
    bootAdvance (if (dieOf u i).st = .ramping then modDie u i fun x => { x with st := .testing } else u) := by
  rw [rampFeeds, if_neg (by omega), if_neg (by omega), if_neg (by omega), hi]

theorem exec_powerDomainRampDone_of_due (h : s.pwr.ramps = p.toNat :: rest) (hdue : s.pwr.rampBy ≤ s.gt) :
    exec (.powerDomainRampDone p) s = .next (rampFeeds (rampDone s p.toNat rest) p.toNat) := by
  change execPowerDomainRampDone p s = _
  simp only [execPowerDomainRampDone, h]
  refine (if_neg (by simp [hdue])).trans ?_
  by_cases h28 : p.toNat = 28
  · rw [rampFeeds_of_hub _ h28, gt_rampDone]
    exact if_pos h28
  by_cases hfield : 29 ≤ p.toNat ∧ p.toNat < 41
  · rw [rampFeeds_of_field _ hfield.1 hfield.2]
    exact (if_neg h28).trans (if_pos hfield)
  by_cases hgroup : 41 ≤ p.toNat
  · rw [rampFeeds_of_group _ hgroup]
    exact (if_neg h28).trans ((if_neg hfield).trans (if_pos hgroup))
  have hdie : p.toNat < 28 := by omega
  refine (if_neg h28).trans ((if_neg hfield).trans ((if_neg hgroup).trans ?_))
  obtain ⟨i, hi⟩ : ∃ i, dieOfPd p.toNat = some i := dieOfPd_of_lt hdie
  rw [rampFeeds_of_die _ hdie hi, hi]
  rfl

/-- What is done to lasers one after another changes the base alone. -/
theorem foldl_base {f : State → Nat → State} (hf : ∀ t i, ∃ b, f t i = { t with base := b }) (xs : List Nat) (u : State) : ∃ b, xs.foldl f u = { u with base := b } := by
  induction xs generalizing u with
  | nil => exact ⟨u.base, rfl⟩
  | cons i xs ih =>
    obtain ⟨b, hb⟩ := hf u i
    obtain ⟨c, hc⟩ := ih (f u i)
    exact ⟨c, by rw [List.foldl_cons, hc, hb]⟩

theorem lightField_base (u : State) (f : Nat) : ∃ b, lightField u f = { u with base := b } := foldl_base (fun _ _ => ⟨_, rfl⟩) _ u

theorem bootReady_lightField (u : State) (f : Nat) : bootReady (lightField u f) = bootReady u := by
  obtain ⟨b, hb⟩ := lightField_base u f
  rw [hb]
  rfl

end

/-- Settles O50: a reset of a die is `dieReset` of what `resetFound_of_…` leaves; tests and ramps by their `exec_…` equations. -/
theorem diesAndRegulators : Obligations.DiesAndRegulators := by
  unfold Obligations.DiesAndRegulators
  refine ⟨fun s i => ⟨?_, ?_, ?_, ?_, ?_, fun sr => ⟨?_, ?_⟩⟩, fun s p => ⟨?_, ?_, ?_, ?_, ?_⟩, fun s i sr => ⟨?_, ?_, ?_, ?_, ?_⟩, fun s i cls cause sr injected => ?_,
    fun s i pass tiles links bundles => ⟨?_, ?_, ?_, ?_⟩, fun s p => ⟨?_, fun rest h hdue => ⟨_, exec_powerDomainRampDone_of_due h hdue, rampDone s p.toNat rest, ?_⟩⟩⟩
  · exact fun h hdue => ⟨_, exec_heartbeat_of_beat h hdue, modDie_diePut s i.toNat _⟩
  · exact fun h hlate => ⟨_, exec_heartbeat_of_late h hlate, rfl⟩
  · exact fun h => ⟨_, exec_heartbeat_of_none h, rfl⟩
  · exact fun h => ⟨_, exec_heartbeatTimeout_of_over h, rfl⟩
  · exact fun h => ⟨_, exec_heartbeatTimeout_of_heard h, rfl⟩
  · exact fun h => ⟨_, exec_dieLocalReset_of_free h, rfl⟩
  · exact fun h => ⟨_, exec_dieLocalReset_of_stays h, rfl⟩
  · exact fun h => ⟨_, exec_regulatorFault_of_unfed h, rfl⟩
  · exact fun h hp => ⟨_, (exec_regulatorFault_of_fed h).trans (if_pos hp), rfl⟩
  · exact fun h h29 h41 => ⟨_, (exec_regulatorFault_of_fed h).trans ((if_neg (by omega)).trans (if_pos ⟨h29, h41⟩)), rfl⟩
  · exact fun h h41 => ⟨_, (exec_regulatorFault_of_fed h).trans ((if_neg (by omega)).trans ((if_neg (by omega)).trans (if_pos h41))), pdOf_setPd_same _ _ _, _, rfl, setPd_frame _ _ _⟩
  · exact fun j h hp hj => ⟨_, exec_regulatorFault_of_die h hp hj, pdOf_setPd_same _ _ _, _, rfl, setPd_frame _ _ _⟩
  · exact fun h => ⟨_, exec_diePllUnlock_of_out h, rfl⟩
  · exact fun h h32 h44 => ⟨_, (exec_diePllUnlock_of_on h).trans (if_pos ⟨h32, h44⟩), rfl⟩
  · exact fun h hhub => ⟨_, (exec_diePllUnlock_of_on h).trans ((if_neg (by omega)).trans (if_pos hhub)), rfl⟩
  · exact fun h hi hhub hup => ⟨_, exec_diePllUnlock_of_die h hi hhub hup, rfl⟩
  · exact fun h hhub hfield hdie => ⟨_, exec_diePllUnlock_of_other h hhub hfield hdie, rfl⟩
  · let u := resetDma s fun n => (resetScope i).any fun j => touchesDie s j n
    let v := resetFound u i cls cause sr injected
    rw [show resetDie s i cls cause sr injected = dieReset u v i sr from beginDieReset_eq u i cls cause sr injected]
    refine ⟨u, v, rfl, resetFound_of_down, resetFound_of_port, resetFound_of_lost, dieOf_dieReset u v i sr, (dieReset_regs u v i sr).1, fun h => ⟨fun n hn => ?_, ?_⟩,
      fun h h' => ⟨fun n hn => ?_, ?_⟩, dieReset_memStacks_other u v i sr, ⟨dieReset_port u v i sr, dieReset_ports_other u v i sr, fun h => ?_, fun h => ?_⟩,
      (dieReset_regs u v i sr).2, dieReset_frame u v i sr⟩
    · exact (stackOf_dieReset_lower u v i sr h n).trans (if_neg hn)
    · exact (stackOf_dieReset_lower u v i sr h i).trans (if_pos rfl)
    · exact (stackOf_dieReset_upper u v i sr h h' n).trans (if_neg hn)
    · rw [← telCleared_upper]
      exact (stackOf_dieReset_upper u v i sr h h' (i - 21)).trans (if_pos rfl)
    · exact dieReset_mem u v i sr ▸ resetMem_of_lost u v i sr h
    · exact dieReset_mem u v i sr ▸ resetMem_of_kept u v i sr h
  · exact fun h => ⟨_, exec_dieLocalResetDone_of_hub h, rfl⟩
  · exact fun hhub h => ⟨_, exec_dieLocalResetDone_of_other hhub h, rfl⟩
  · exact fun h hfail => ⟨_, exec_dieLocalResetDone_of_failed h hfail, rfl⟩
  · intro h hpass hstrip
    have hrun := exec_dieLocalResetDone_of_passed (tiles := tiles) (links := links) h hpass hstrip
    refine ⟨tilesTested s i.toNat tiles links bundles, passedDie (tilesTested s i.toNat tiles links bundles) i.toNat, tilesTested_eq s i.toNat tiles links bundles,
      modDie_diePut _ _ _, fun hwaits => ⟨_, hrun, ?_⟩, fun hgoes => ⟨_, hrun, ?_⟩⟩
    · exact congrArg bootAdvance (if_pos ((returnWaits_iff _ _).mpr hwaits))
    · exact congrArg bootAdvance (if_neg (mt (returnWaits_iff _ _).mp hgoes))
  · exact fun h => ⟨_, exec_powerDomainRampDone_of_early h, rfl⟩
  · obtain ⟨hon, hnext, hother⟩ := rampDone_pds s p.toNat rest
    refine ⟨hon, hnext, hother, rampDone_frame s p.toNat rest, fun hp => ?_, fun h29 h41 => ?_, fun i hp hi hst => ?_, fun i hp hi hst => ?_, fun h41 => rampFeeds_of_group _ h41⟩
    · have hput := modDie_diePut (rampDone s p.toNat rest) 20 fun x => { x with st := .inService, beat := s.gt }
      rw [dieOf_rampDone] at hput
      exact ⟨_, hput, (rampFeeds_of_hub _ hp).trans (by rw [gt_rampDone])⟩
    · have hready : bootReady (lightField (rampDone s p.toNat rest) (p.toNat - 29)) = bootReady s := (bootReady_lightField _ _).trans (bootReady_rampDone _ _ _)
      refine ⟨_, rfl, fun h => ?_, fun h => ?_⟩
      · exact (rampFeeds_of_field _ h29 h41).trans (congrArg bootAdvance (if_neg (by simp [hready, h])))
      · exact (rampFeeds_of_field _ h29 h41).trans (congrArg bootAdvance (if_pos (hready.trans h)))
    · exact (rampFeeds_of_die _ hp hi).trans (congrArg bootAdvance (if_neg (by rwa [dieOf_rampDone])))
    · have hput := modDie_diePut (rampDone s p.toNat rest) i fun x => { x with st := .testing }
      rw [dieOf_rampDone] at hput
      exact ⟨_, hput, (rampFeeds_of_die _ hp hi).trans (congrArg bootAdvance (if_pos (by rwa [dieOf_rampDone])))⟩

end Sys2Proof.Proofs
end

section
/-!
What cold resets, resets of warm scope and the clearing of functions leave (15_reset_boot.md R477 to R482).
-/
namespace Sys2Proof.Proofs
open Sys2Proof Sys2Proof.Machine

/-! ### Registers after a reset -/

theorem regVal_regSetBits_same (s : State) (off hi lo v : Nat) : regVal (regSetBits s off hi lo v) off = setBits (regVal s off) hi lo v := regVal_regPut_same _ _ _

theorem regVal_regSetBits_other (s : State) {off o : Nat} (hi lo v : Nat) (h : o ≠ off) : regVal (regSetBits s off hi lo v) o = regVal s o := regVal_regPut_other _ _ h

/-- Registers are stored, and what events set noted; nothing else changes. -/
def RegsPut (s t : State) : Prop := ∃ v a, t = { s with rf := { s.rf with vals := v, setAt := a } }

theorem RegsPut_trans {s t u : State} (h : RegsPut s t) (g : RegsPut t u) : RegsPut s u := by
  obtain ⟨_, _, rfl⟩ := h
  obtain ⟨v, a, rfl⟩ := g
  exact ⟨v, a, rfl⟩

theorem regPut_regsPut (s : State) (off : Nat) (v : Word) : RegsPut s (regPut s off v) := ⟨_, s.rf.setAt, regPut_frame s off v⟩

theorem regSetBits_regsPut (s : State) (off hi lo v : Nat) : RegsPut s (regSetBits s off hi lo v) := regPut_regsPut s off _

theorem raiseBit_regsPut (s : State) (off b : Nat) : RegsPut s (raiseBit s off b) := ⟨_, _, rfl⟩

/-- The CTX_VFMAP entries are 0 at reset. -/
theorem regReset_of_vfmap {o : Nat} (h : 0x804000 ≤ o) (h' : o < 0x807F00) : regReset o = 0#32 := by
  have hspecs : ∀ r ∈ regSpecs, 0 < r.stride ∧ (r.reset = 0 ∨ 0x807F00 ≤ r.off ∨ r.off + r.count * r.stride ≤ 0x804000) := by decide +kernel
  unfold regReset
  cases hr : specOf o with
  | none => rfl
  | some r =>
    obtain ⟨hstride, hreset⟩ := hspecs r (List.mem_of_find?_eq_some hr)
    have hhas : specHas r o = true := List.find?_some (p := fun r => specHas r o) hr
    simp only [specHas, Bool.and_eq_true, decide_eq_true_eq] at hhas
    have hlt : o - r.off < r.count * r.stride := (Nat.div_lt_iff_lt_mul hstride).mp hhas.2
    have hzero : r.reset = 0 := by omega
    simp only [hzero]

/-! ### Cold resets -/

section
variable (s : State) (bit straps : Nat)

/-- The cause a cold reset shows beside VSTBY. -/
def coldCause : Nat := b2n ((regVal s 0x300000).getLsbD 0) + 2 ^ bit - (if bit = 0 && (regVal s 0x300000).getLsbD 0 then 1 else 0)

theorem coldCause_of_other (h : 1 ≤ bit) : coldCause s bit = b2n ((regVal s 0x300000).getLsbD 0) + 2 ^ bit := by
  rw [coldCause, if_neg (by simp [Nat.ne_of_gt h]), Nat.sub_zero]

theorem coldCause_of_standby (h : bit = 0) : coldCause s bit = 1 := by
  subst h
  cases hb : (regVal s 0x300000).getLsbD 0 <;> simp [coldCause, hb, b2n]

/-- The device reset, before the straps are sampled. -/
def coldCleared : State :=
  let r := State.reset
  { s with
    gt := 0, boots := s.boots + 1, rf := { r.rf with vals := tabSet [] 0#32 0x300000 (BitVec.ofNat 32 (coldCause s bit)), setAt := [(0x300000, 0, BitVec.ofNat 32 (2 ^ bit))] }
    flt := { r.flt with retained := s.flt.retained }, inj := r.inj, ctxs := [], insts := [], mgmt := [], arr := {}, plc := {}
    sec := { floor := s.sec.floor }, rst := {}, pair := {}, sil := {}, fab := {}
    pwr := { refOk := s.pwr.refOk, holdover := if s.pwr.refOk then none else some 0 }
    base := {}, mem := {}, dma := {}, flc := { s.flc with hubBuf := [], starts := [], stall := none, closedAt := none, shown := none }
    tap := { s.tap with coldLow := false, bootWaits := false } }

theorem coldReset_eq : coldReset s bit straps = sampleStraps (coldCleared s bit) straps := rfl

theorem regVal_coldCleared_cause : regVal (coldCleared s bit) 0x300000 = BitVec.ofNat 32 (coldCause s bit) := by
  have hreset : regReset 0x300000 = 0#32 := by decide +kernel
  rw [regVal, hreset]
  exact tabGet_set_same _ _ _ _

theorem regVal_coldCleared_other {o : Nat} (h : o ≠ 0x300000) : regVal (coldCleared s bit) o = regReset o := tabGet_set_other _ _ _ _ h

theorem regVal_sampleStraps (t : State) {o : Nat} (h : o ∉ [0x300010, 0x3400000, 0x3400004]) : regVal (sampleStraps t straps) o = regVal t o := by
  simp only [List.mem_cons, List.not_mem_nil, or_false, not_or] at h
  obtain ⟨hstraps, hpair, hauth⟩ := h
  exact (regVal_regSetBits_other _ _ _ _ hauth).trans ((regVal_regSetBits_other _ _ _ _ hauth).trans ((regVal_regSetBits_other _ _ _ _ hpair).trans (regVal_regPut_other _ _ hstraps)))

theorem regVal_sampleStraps_straps (t : State) : regVal (sampleStraps t straps) 0x300010 = BitVec.ofNat 32 (straps % 128) :=
  (regVal_regSetBits_other _ _ _ _ (by decide)).trans ((regVal_regSetBits_other _ _ _ _ (by decide)).trans ((regVal_regSetBits_other _ _ _ _ (by decide)).trans (regVal_regPut_same _ _ _)))

/-- The straps change registers and what follows them alone. -/
theorem sampleStraps_regsPut (t : State) : RegsPut { t with rst := { t.rst with bootSrc := straps % 4, clkMode := straps / 4 % 4, trayPos := straps / 16 % 8 } } (sampleStraps t straps) :=
  RegsPut_trans (regPut_regsPut _ _ _) (RegsPut_trans (regSetBits_regsPut _ _ _ _ _) (RegsPut_trans (regSetBits_regsPut _ _ _ _ _) (regSetBits_regsPut _ _ _ _ _)))

end

/-! ### Functions cleared -/

/-- Functions whose contexts' sessions are freed and whose granules wait for zeros; the registers stay. -/
theorem regVal_clearFunctions (s : State) {o : Nat} (h : 0x804000 ≤ o) (h' : o < 0x807F00) : regVal (clearFunctions s) o = 0#32 := by
  have hfind (vals : List (Nat × Word)) : tabGet (vals.filter fun e => !(decide (0x804000 ≤ e.1) && decide (e.1 < 0x807F00))) (regReset o) o = 0#32 := by
    rw [tabGet, tabFind_filter vals (fun k => !(decide (0x804000 ≤ k) && decide (k < 0x807F00))), if_neg (by simp [h, h']), regReset_of_vfmap h h']
    rfl
  exact hfind _

theorem vfmapOff_range {v i : Nat} (hv : 0 < v) (hv' : v < 64) (hi : i < 64) : 0x804000 ≤ vfmapOff v i ∧ vfmapOff v i < 0x807F00 := by
  unfold vfmapOff
  omega

/-! ### Resets of warm scope -/

/-- The contexts suspended and copies halted, functions cleared where the reset asks for it. -/
def warmKept (s : State) (perst : Bool) : State :=
  resetDma ((if perst then clearFunctions else id) { s with ctxs := s.ctxs.map fun e => (e.1, suspendCtx e.2) }) (fun _ => true)

/-- What a reset of warm scope clears of them, beside the registers. -/
def warmCleared (u : State) : State := { u with
  mgmt := []
  arr := { stopArray u.arr with dies := u.arr.dies.map fun e => (e.1, warmDie e.2) }
  plc := resetDirector u.plc
  flc := { u.flc with hubBuf := [], starts := [], stall := none }
  sec := { u.sec with spdm := [], moving := none, bootOk := false, cmds := [] }
  fab := {}
  pair := { auth := u.pair.auth, claimMax := u.pair.claimMax, copies := u.pair.copies }
  sil := { banks := u.sil.banks.map fun e => (e.1, { e.2 with seg := none, users := [] }), scans := [] }
  base := { u.base with chans := [], flows := [] }
  mem := selfRefresh u
  dma := { u.dma with retries := [], waits := [], engines := [], hwm := 0 }
  pwr := { u.pwr with clk := u.pwr.clk.map fun e => (e.1, { e.2 with step := 7, pend := none, locked := false, ramp := none }), hold := 0, released := [] }
  flt := { u.flt with ok := false, coalesce := none }
  inj := State.reset.inj
  rf := { u.rf with wlogCount := 0, wlog := [], latches := [],
                    vals := u.rf.vals.filter fun e => !(decide (0x1501000 ≤ e.1) && decide (e.1 < 0x1501400)), sels := u.rf.sels.filter fun e => decide (e.1 % 2 ^ 26 < 0x3800000) } }

/-- The counts cleared. -/
def countsCleared (t : State) : State := warmCounts.foldl (fun t o => regPut t o 0#32) t

/-- The registers that show the reset. -/
def warmShown (s t : State) (bit : Nat) : State :=
  regSetBits (regPut (regSetBits (regSetBits (raiseBit (regPut t 0x1000000 0#32) 0x300000 bit) 0x300008 29 29 0) 0x3000100 31 31 0) 0x300014 ((regVal s 0x300014) &&& 0x00F00000#32)) 0x400014 31 31 0

/-- A device under a reset of warm scope. -/
def warmDevice (s : State) (bit : Nat) (perst : Bool) : State :=
  modRst (warmShown s (countsCleared (installRemaps (warmCleared (warmKept s perst)))) bit) fun r =>
    { r with warmReset := true, bootBy := none, wdtBy := none, warmBy := none, images := [], image := 0, recovering := false }

/-- A cold boot runs, or one that stopped. -/
def ColdOrHalted (s : State) : Prop := bootReady s = false ∧ (s.rst.warmReset = false ∨ stageOf s = 15)

theorem coldOrHalted_iff (s : State) : (!bootReady s && (coldBoot s || stageOf s = 0xF)) = true ↔ ColdOrHalted s := by
  simp only [Bool.and_eq_true, Bool.or_eq_true, Bool.not_eq_true', decide_eq_true_eq, coldBoot, ColdOrHalted]

theorem warmReset_of_cold {s : State} (bit : Nat) (perst : Bool) (h : ColdOrHalted s) : warmReset s bit perst = if perst then clearFunctions s else s := if_pos ((coldOrHalted_iff s).mpr h)

theorem warmReset_of_warm {s : State} (bit : Nat) (perst : Bool) (h : ¬ ColdOrHalted s) : warmReset s bit perst = warmDevice s bit perst := by
  refine (if_neg (mt (coldOrHalted_iff s).mp h)).trans ?_
  cases perst <;> rfl

/-- With no flow left, remaps that take effect change the base alone. -/
theorem installRemaps_base {s : State} (h : s.base.flows = []) : ∃ b, installRemaps s = { s with base := b } := by
  unfold installRemaps
  dsimp only
  split
  · exact ⟨s.base, rfl⟩
  · unfold resendHanded
    simp only [modBase, h, List.filter_nil, List.foldl_nil]
    exact ⟨_, rfl⟩

theorem countsCleared_frame (t : State) : countsCleared t = { t with rf := { t.rf with vals := (countsCleared t).rf.vals } } := by
  have hfold (os : List Nat) (t : State) : os.foldl (fun t o => regPut t o 0#32) t = { t with rf := { t.rf with vals := (os.foldl (fun t o => regPut t o 0#32) t).rf.vals } } := by
    induction os generalizing t with
    | nil => rfl
    | cons o os ih => exact (ih (regPut t o 0#32)).trans rfl
  exact hfold warmCounts t

theorem regVal_countsCleared (t : State) (o : Nat) : regVal (countsCleared t) o = if o ∈ warmCounts then 0#32 else regVal t o := by
  have hfold (os : List Nat) (t : State) : regVal (os.foldl (fun t o => regPut t o 0#32) t) o = if o ∈ os then 0#32 else regVal t o := by
    induction os generalizing t with
    | nil => rfl
    | cons c os ih =>
      rw [List.foldl_cons, ih, regVal_regPut]
      by_cases hc : o = c
      · simp [hc]
      · simp [hc]
  exact hfold warmCounts t

/-- The registers that show the reset are changed, and no others. -/
theorem regVal_warmShown_other (s t : State) (bit : Nat) {o : Nat} (h : o ∉ [0x1000000, 0x400014, 0x300000, 0x300008, 0x3000100, 0x300014]) :
    regVal (warmShown s t bit) o = regVal t o := by
  simp only [List.mem_cons, List.not_mem_nil, or_false, not_or] at h
  obtain ⟨hplc, hsec, hcause, hwdt, hfab, hboot⟩ := h
  exact (regVal_regSetBits_other _ _ _ _ hsec).trans ((regVal_regPut_other _ _ hboot).trans ((regVal_regSetBits_other _ _ _ _ hfab).trans
    ((regVal_regSetBits_other _ _ _ _ hwdt).trans ((regVal_regPut_other _ _ hcause).trans (regVal_regPut_other _ _ hplc)))))

theorem regVal_warmShown_boot (s t : State) (bit : Nat) : regVal (warmShown s t bit) 0x300014 = (regVal s 0x300014) &&& 0x00F00000#32 :=
  (regVal_regSetBits_other _ _ _ _ (by decide)).trans (regVal_regPut_same _ _ _)

theorem regVal_warmShown_cause (s t : State) {bit : Nat} (h : bit < 32) : (regVal (warmShown s t bit) 0x300000).getLsbD bit = true := by
  have hcause : regVal (warmShown s t bit) 0x300000 = regVal (raiseBit (regPut t 0x1000000 0#32) 0x300000 bit) 0x300000 :=
    (regVal_regSetBits_other _ _ _ _ (by decide)).trans ((regVal_regPut_other _ _ (by decide)).trans ((regVal_regSetBits_other _ _ _ _ (by decide)).trans (regVal_regSetBits_other _ _ _ _ (by decide))))
  rw [hcause]
  exact (raiseBit_raised _ _ h).1

theorem warmShown_regsPut (s t : State) (bit : Nat) : RegsPut t (warmShown s t bit) :=
  RegsPut_trans (regPut_regsPut _ _ _) (RegsPut_trans (raiseBit_regsPut _ _ _) (RegsPut_trans (regSetBits_regsPut _ _ _ _ _) (RegsPut_trans (regSetBits_regsPut _ _ _ _ _)
    (RegsPut_trans (regPut_regsPut _ _ _) (regSetBits_regsPut _ _ _ _ _)))))

theorem regVal_modRst (t : State) (f : Rst → Rst) (o : Nat) : regVal (modRst t f) o = regVal t o := rfl

section
variable (s : State) (bit : Nat) (perst : Bool)

/-- Beside registers, the base and the reset block a device under a reset of warm scope is what the reset clears. -/
theorem warmDevice_frame : ∃ b r v a, warmDevice s bit perst = { warmCleared (warmKept s perst) with
    base := b, rst := r, rf := { (warmCleared (warmKept s perst)).rf with vals := v, setAt := a } } ∧ r.warmReset = true := by
  obtain ⟨b, hb⟩ := installRemaps_base (s := warmCleared (warmKept s perst)) rfl
  obtain ⟨v, a, hregs⟩ := RegsPut_trans ⟨_, _, countsCleared_frame _⟩ (warmShown_regsPut s (countsCleared (installRemaps (warmCleared (warmKept s perst)))) bit)
  rw [warmDevice, hregs, hb]
  exact ⟨b, _, v, a, rfl, rfl⟩

theorem regVal_installRemaps_warmCleared (u : State) (o : Nat) : regVal (installRemaps (warmCleared u)) o = regVal (warmCleared u) o := by
  obtain ⟨b, hb⟩ := installRemaps_base (s := warmCleared u) rfl
  rw [hb]
  rfl

theorem regVal_warmCleared (u : State) (o : Nat) : regVal (warmCleared u) o = if 0x1501000 ≤ o ∧ o < 0x1501400 then regReset o else regVal u o := by
  have hfind := tabFind_filter u.rf.vals (fun k => !(decide (0x1501000 ≤ k) && decide (k < 0x1501400))) o
  have hval : regVal (warmCleared u) o = (if !(decide (0x1501000 ≤ o) && decide (o < 0x1501400)) then tabFind u.rf.vals o else none).getD (regReset o) := congrArg (·.getD (regReset o)) hfind
  rw [hval]
  by_cases h : 0x1501000 ≤ o ∧ o < 0x1501400
  · rw [if_pos h, if_neg (by simp [h])]
    rfl
  · rw [if_neg h, if_pos (by simpa [imp_iff_not_or] using h)]
    rfl

/-- A register of a device under a reset of warm scope. -/
theorem regVal_warmDevice {o : Nat} (h : o ∉ [0x1000000, 0x400014, 0x300000, 0x300008, 0x3000100, 0x300014]) : regVal (warmDevice s bit perst) o =
    if o ∈ warmCounts then 0#32 else if 0x1501000 ≤ o ∧ o < 0x1501400 then regReset o else regVal (warmKept s perst) o := by
  rw [warmDevice, regVal_modRst, regVal_warmShown_other _ _ _ h, regVal_countsCleared, regVal_installRemaps_warmCleared, regVal_warmCleared]

theorem bootReady_warmDevice : bootReady (warmDevice s bit perst) = false := by
  rw [bootReady, warmDevice, regVal_modRst, regVal_warmShown_boot, BitVec.getLsbD_and]
  simp

theorem warmDevice_cause (h : bit < 32) : (regVal (warmDevice s bit perst) 0x300000).getLsbD bit = true := by
  rw [warmDevice, regVal_modRst]
  exact regVal_warmShown_cause _ _ h

/-- The registers that show the reset are none of the counts it clears. -/
theorem not_shown_of_mem_warmCounts {o : Nat} (h : o ∈ warmCounts) : o ∉ [0x1000000, 0x400014, 0x300000, 0x300008, 0x3000100, 0x300014] := by
  have hall : ∀ o ∈ warmCounts, o ∉ [0x1000000, 0x400014, 0x300000, 0x300008, 0x3000100, 0x300014] := by decide
  exact hall o h

theorem not_mem_warmCounts_of_engine {o : Nat} (h : 0x1501000 ≤ o) (h' : o < 0x1501400) : o ∉ warmCounts := by
  have hall : ∀ o ∈ warmCounts, o < 0x1501000 ∨ 0x1501400 ≤ o := by decide
  exact fun hc => by have := hall o hc; omega

end

end Sys2Proof.Proofs
end

section
/-!
Reset sources and watchdogs (15_reset_boot.md R477 to R484, R497, R498, R503).
-/
namespace Sys2Proof.Proofs
open Sys2Proof Sys2Proof.Machine

/-! ### What resets leave -/

/-- A cold reset, field by field. -/
theorem coldReset_leaves (s : State) (bit straps : Nat) (hstraps : straps < 128) : let t := coldReset s bit straps
    t.gt = 0 ∧ t.boots = s.boots + 1 ∧ (∀ c, ctxOf t c = Ctx.off) ∧ t.insts = [] ∧ (∀ i, dieUp t i = false) ∧ t.mem.cells = [] ∧ t.flt.recs = [] ∧ t.flt.ok = false ∧
    t.flt.retained = s.flt.retained ∧ t.rf.wlog = [] ∧ t.flc = { s.flc with hubBuf := [], starts := [], stall := none, closedAt := none, shown := none } ∧ t.hostMem = s.hostMem ∧ t.sent = s.sent ∧ t.pending = s.pending ∧
    regVal t 0x300010 = BitVec.ofNat 32 straps ∧ t.rst.bootSrc = straps % 4 ∧ t.rst.clkMode = straps / 4 % 4 ∧ t.rst.trayPos = straps / 16 ∧
    (1 ≤ bit → regVal t 0x300000 = BitVec.ofNat 32 (b2n ((regVal s 0x300000).getLsbD 0) + 2 ^ bit)) ∧ (bit = 0 → regVal t 0x300000 = 1#32) ∧
    ∀ o, o ∉ [0x300000, 0x300010, 0x3400000, 0x3400004] → regVal t o = regReset o := by
  intro t
  have hcause : regVal t 0x300000 = BitVec.ofNat 32 (coldCause s bit) := (regVal_sampleStraps straps _ (by decide)).trans (regVal_coldCleared_cause s bit)
  have hstrap : regVal t 0x300010 = BitVec.ofNat 32 straps := by
    rw [show t = _ from coldReset_eq s bit straps, regVal_sampleStraps_straps, Nat.mod_eq_of_lt hstraps]
  obtain ⟨v, a, ht⟩ := sampleStraps_regsPut straps (coldCleared s bit)
  have ht : t = _ := ht
  have hother (o : Nat) (h : o ∉ [0x300000, 0x300010, 0x3400000, 0x3400004]) : regVal t o = regReset o :=
    (regVal_sampleStraps straps _ fun hc => h (List.mem_cons_of_mem _ hc)).trans (regVal_coldCleared_other s bit fun hc => h (hc ▸ List.mem_cons_self))
  refine ⟨?_, ?_, ?_, ?_, ?_, ?_, ?_, ?_, ?_, ?_, ?_, ?_, ?_, ?_, hstrap, ?_, ?_, ?_, fun h => coldCause_of_other s bit h ▸ hcause, fun h => (coldCause_of_standby s bit h ▸ hcause), hother⟩
  all_goals rw [ht]
  case refine_17 => exact Nat.mod_eq_of_lt (by omega)
  all_goals intros; rfl

/-- A reset of warm scope: nothing but cleared functions during a cold boot, and else what the device keeps and shows. -/
theorem warmReset_leaves (s : State) (bit : Nat) (perst : Bool) (hbit : bit = 4 ∨ bit = 5 ∨ bit = 6) :
    let cold : Prop := bootReady s = false ∧ (s.rst.warmReset = false ∨ stageOf s = 15)
    let t := warmReset s bit perst
    (cold → t = if perst then clearFunctions s else s) ∧
    (¬ cold → ∃ u, u = resetDma ((if perst then clearFunctions else id) { s with ctxs := s.ctxs.map fun e => (e.1, suspendCtx e.2) }) (fun _ => true) ∧
      t.gt = u.gt ∧ t.ctxs = u.ctxs ∧ t.insts = u.insts ∧ t.pwr.pds = u.pwr.pds ∧ t.mem = selfRefresh u ∧ t.sec.tdi = u.sec.tdi ∧ t.flt.ok = false ∧ t.flt.recs = u.flt.recs ∧ t.rf.wlog = [] ∧
      t.flc = { u.flc with hubBuf := [], starts := [], stall := none } ∧ t.fab = {} ∧ t.rst.warmReset = true ∧ bootReady t = false ∧ (regVal t 0x300000).getLsbD bit = true ∧
      (∀ o, o ∈ warmCounts → regVal t o = 0#32) ∧ t.dma.engines = [] ∧ t.dma.waits = [] ∧ (∀ o, 0x1501000 ≤ o → o < 0x1501400 → regVal t o = regReset o) ∧
      ∀ o, o ∉ warmCounts ++ [0x1000000, 0x400014, 0x300000, 0x300008, 0x3000100, 0x300014] → o < 0x1501000 ∨ 0x1501400 ≤ o → regVal t o = regVal u o) := by
  intro cold t
  refine ⟨warmReset_of_cold bit perst, fun h => ⟨warmKept s perst, rfl, ?_⟩⟩
  have ht : t = warmDevice s bit perst := warmReset_of_warm bit perst h
  obtain ⟨b, r, v, a, hframe, hwarm⟩ := warmDevice_frame s bit perst
  have hshape : t = _ := ht.trans hframe
  have hcounts (o : Nat) (ho : o ∈ warmCounts) : regVal t o = 0#32 := by
    rw [ht, regVal_warmDevice s bit perst (not_shown_of_mem_warmCounts ho), if_pos ho]
  have hengines (o : Nat) (ho : 0x1501000 ≤ o) (ho' : o < 0x1501400) : regVal t o = regReset o := by
    have hshown : o ∉ [0x1000000, 0x400014, 0x300000, 0x300008, 0x3000100, 0x300014] := by
      simp only [List.mem_cons, List.not_mem_nil, or_false]
      omega
    rw [ht, regVal_warmDevice s bit perst hshown, if_neg (not_mem_warmCounts_of_engine ho ho'), if_pos ⟨ho, ho'⟩]
  have hkept (o : Nat) (ho : o ∉ warmCounts ++ [0x1000000, 0x400014, 0x300000, 0x300008, 0x3000100, 0x300014]) (ho' : o < 0x1501000 ∨ 0x1501400 ≤ o) :
      regVal t o = regVal (warmKept s perst) o := by
    rw [List.mem_append, not_or] at ho
    rw [ht, regVal_warmDevice s bit perst ho.2, if_neg ho.1, if_neg (by omega)]
  refine ⟨?_, ?_, ?_, ?_, ?_, ?_, ?_, ?_, ?_, ?_, ?_, ?_, ?_, ?_, hcounts, ?_, ?_, hengines, hkept⟩
  case refine_13 => exact ht ▸ bootReady_warmDevice s bit perst
  case refine_14 => exact ht ▸ warmDevice_cause s bit perst (by omega)
  case refine_12 => rw [hshape]; exact hwarm
  all_goals rw [hshape]; rfl

/-! ### Pins and functions -/

section
variable {s : State}

theorem perstNow_of_pending (h : Instr.perst ∈ s.pending) : perstNow s = true := by
  rw [perstNow, Bool.or_eq_true, List.any_eq_true]
  exact .inl ⟨_, h, rfl⟩

theorem bootOrWait_eq (u : State) : bootOrWait u = if tapDrives u.tap.ir then { u with tap := { u.tap with bootWaits := true } } else startBoot u := rfl

theorem exec_coldRst_of_noRails (straps : BitVec 7) : exec (.coldRst straps false) s = .next (haltBoot (coldReset s 1 straps.toNat) 0x13 0) := rfl

theorem exec_coldRst_of_rails (straps : BitVec 7) : exec (.coldRst straps true) s = .next (bootOrWait (coldReset s 1 straps.toNat)) := rfl

/-- The device at a standby power-on: what was retained is lost. -/
def unretained (s : State) : State := { s with flt := { s.flt with retained := [] }, i3c := {} }

theorem exec_standbyPowerOn_of_held (straps : BitVec 7) : exec (.standbyPowerOn straps true) s =
    .next (let u := coldReset (unretained s) 0 straps.toNat
      { u with tap := { u.tap with coldLow := true } }) := rfl

theorem exec_standbyPowerOn_of_free (straps : BitVec 7) : exec (.standbyPowerOn straps false) s = .next (bootOrWait (coldReset (unretained s) 0 straps.toNat)) :=
  congrArg Host.Outcome.next (if_neg Bool.false_ne_true)

theorem exec_warmScope_of_alone (h : perstNow s = false) : exec .warm s = .next (warmReset s 5 false) := congrArg Host.Outcome.next (if_neg (Bool.eq_false_iff.mp h))

theorem exec_warmScope_of_perst (h : perstNow s = true) : exec .warm s = .next s := congrArg Host.Outcome.next (if_pos h)

/-- A function's vectors cleared. -/
def vectorsCleared (s : State) (v : Nat) : State :=
  { s with rf := { s.rf with msix := s.rf.msix.filter fun e => !decide (e.1 / 32 = v), pba := s.rf.pba.filter fun i => !decide (i / 32 = v) } }

theorem vectorsCleared_msix (s : State) (v i : Nat) : tabGet (vectorsCleared s v).rf.msix {} i = if i / 32 = v then {} else tabGet s.rf.msix {} i := by
  have hfind := tabFind_filter s.rf.msix (fun k => !decide (k / 32 = v)) i
  rw [tabGet, vectorsCleared, hfind]
  by_cases h : i / 32 = v
  · rw [if_pos h, if_neg (by simp [h])]
    rfl
  · rw [if_neg h, if_pos (by simpa using h)]
    rfl

theorem mem_vectorsCleared_pba (s : State) (v i : Nat) : i ∈ (vectorsCleared s v).rf.pba ↔ i ∈ s.rf.pba ∧ i / 32 ≠ v := by
  simp [vectorsCleared, List.mem_filter]

theorem exec_vfFunctionLevelReset_of_pf {v : BitVec 6} (h : v = 0#6) : exec (.vfFunctionLevelReset v) s = .next s := if_pos h

theorem exec_vfFunctionLevelReset_of_vf {v : BitVec 6} (h : v ≠ 0#6) : exec (.vfFunctionLevelReset v) s =
    .next (leaveTdi (resetDma (vectorsCleared s v.toNat) fun n => ((List.range 64).filterMap (slotCtx s v.toNat)).contains (bits (dmaCtl s n) 15 0)) v.toNat true) := if_neg h

end

/-! ### Watchdogs and waits -/

section
variable {s : State}

/-- The hub is held in reset by a reset of warm scope, before its stages run. -/
def HeldInReset (s : State) : Prop := s.rst.warmReset = true ∧ stageOf s = 0 ∧ bootReady s = false ∧ (dieOf s 20).st = .reset

theorem heldInReset_iff : (!s.rst.warmReset || decide (stageOf s ≠ 0) || bootReady s || decide ((dieOf s 20).st ≠ .reset)) = false ↔ HeldInReset s := by
  simp only [Bool.or_eq_false_iff, Bool.not_eq_false', decide_eq_false_iff_not, ne_eq, not_not, and_assoc, HeldInReset]

/-- The memories have left self refresh. -/
def memoriesBack (s : State) : State := modMem s fun m => { m with
  rsv := m.rsv.foldl (fun t e => tabMod t {} e.1 fun r => { r with self_ := false }) m.rsv
  ports := m.ports.foldl (fun t e => tabMod t {} e.1 leaveSelfRefresh) m.ports }

theorem exec_resetRelease_of_free (h : ¬ HeldInReset s) : exec .resetRelease s = .next s := if_pos (by simpa only [Bool.not_eq_false] using mt heldInReset_iff.mp h)

theorem exec_resetRelease_of_held (h : HeldInReset s) : exec .resetRelease s =
    .next (startImages (modDie (memoriesBack s) 20 fun x => { x with st := .inService, beat := s.gt })) := if_neg (Bool.eq_false_iff.mp (heldInReset_iff.mpr h))

theorem exec_suspendExpiry_of_due {c : BitVec 12} {n : Nat} (hn : (ctxOf s c.toNat).suspended = some n) (hready : bootReady s = true) (hdue : n ≤ s.gt) :
    exec (.suspendExpiry c) s = .next (modCtx (releaseSession s c.toNat) c.toNat fun k => { k with suspended := none }) := by
  change execSuspendExpiry c s = _
  simp only [execSuspendExpiry, hn]
  exact if_pos (by simp [hready, hdue])

theorem exec_suspendExpiry_of_idle {c : BitVec 12} (h : (ctxOf s c.toNat).suspended = none ∨ bootReady s = false ∨ ∃ n, (ctxOf s c.toNat).suspended = some n ∧ s.gt < n) :
    exec (.suspendExpiry c) s = .next s := by
  change execSuspendExpiry c s = _
  cases hn : (ctxOf s c.toNat).suspended with
  | none => simp only [execSuspendExpiry, hn]
  | some n =>
    simp only [execSuspendExpiry, hn]
    refine if_neg fun hc => ?_
    rw [Bool.and_eq_true, decide_eq_true_eq] at hc
    rcases h with h | h | ⟨m, hm, hlate⟩
    · exact absurd (hn.symm.trans h) (by simp)
    · exact absurd (hc.1.symm.trans h) (by decide)
    · obtain rfl := Option.some.inj (hn.symm.trans hm)
      omega

/-- The firmware watchdog has run out, enabled, on a device that is READY. -/
def WatchdogDue (s : State) : Prop := (∃ n, s.rst.wdtBy = some n ∧ RunOut s n) ∧ (regVal s 0x300008).getLsbD 31 = true ∧ bootReady s = true

theorem exec_watchdogExpiry_of_idle (h : ¬ WatchdogDue s) : exec .watchdogExpiry s = .next s := by
  change execWatchdogExpiry s = _
  cases hn : s.rst.wdtBy with
  | none => simp only [execWatchdogExpiry, hn]
  | some n =>
    simp only [execWatchdogExpiry, hn]
    refine if_pos ?_
    by_contra hc
    simp only [Bool.or_eq_true, not_or, Bool.not_eq_true', Bool.not_eq_false, ranOut_eq_true_iff] at hc
    exact h ⟨⟨n, hn, hc.1.1⟩, hc.1.2, hc.2⟩

/-- What a watchdog that has run out does: it warns once, and then resets. -/
theorem exec_watchdogExpiry_of_due (h : WatchdogDue s) : exec .watchdogExpiry s =
    if (regVal s 0x300008).getLsbD 29 then .next (warmReset s 6 false)
    else .next (send (modRst (fault (regSetBits s 0x300008 29 29 1) { cls := 0x15, unit := unitId 0x0E 0, outcome := 0 }) fun r =>
      { r with wdtBy := some (s.gt + 1000000 * bits (regVal s 0x300008) 15 0) }) (.plain "watchdog interrupt" 0)) := by
  obtain ⟨⟨n, hn, hrun⟩, hon, hready⟩ := h
  change execWatchdogExpiry s = _
  simp only [execWatchdogExpiry, hn]
  exact if_neg (by simp [(ranOut_eq_true_iff _ _).mpr hrun, hon, hready])

/-- The boot watchdog has run out before READY. -/
def BootWatchdogDue (s : State) : Prop := (∃ n, s.rst.bootBy = some n ∧ RunOut s n) ∧ bootReady s = false

/-- The device after the boot watchdog's cold reset. -/
def bootRetried (s : State) : State := coldReset (islandFault s { cls := 0x15, unit := unitId 0x0E 0, outcome := 4, cause := s.rst.image }) 9 (strapsOf s)

/-- Its retries shown. -/
def bootRetriesShown (s : State) : State := regSetBits (bootRetried s) 0x300014 23 20 (min 15 (regBits s 0x300014 23 20 + 1))

theorem exec_bootWatchdogExpiry_of_idle (h : ¬ BootWatchdogDue s) : exec .bootWatchdogExpiry s = .next s := by
  change execBootWatchdogExpiry s = _
  cases hn : s.rst.bootBy with
  | none => simp only [execBootWatchdogExpiry, hn]
  | some n =>
    simp only [execBootWatchdogExpiry, hn]
    refine if_pos ?_
    by_contra hc
    simp only [Bool.or_eq_true, not_or, Bool.not_eq_true', Bool.not_eq_false, Bool.not_eq_true, ranOut_eq_true_iff] at hc
    exact h ⟨⟨n, hn, hc.1⟩, hc.2⟩

theorem exec_bootWatchdogExpiry_of_due (h : BootWatchdogDue s) : exec .bootWatchdogExpiry s =
    .next (startBoot (modRst (bootRetriesShown s) fun r => { r with ended := if s.rst.image = 0 then none else some s.rst.image })) := by
  obtain ⟨⟨n, hn, hrun⟩, hboots⟩ := h
  change execBootWatchdogExpiry s = _
  simp only [execBootWatchdogExpiry, hn]
  exact if_neg (by simp [(ranOut_eq_true_iff _ _).mpr hrun, hboots])

/-- A thermal trip has cooled. -/
def TripCooled (s : State) : Prop := ∃ n, s.rst.coolBy = some n ∧ n ≤ s.gt

theorem exec_tripCoolExpiry_of_idle (h : ¬ TripCooled s) : exec .tripCoolExpiry s = .next s := by
  change execTripCoolExpiry s = _
  cases hn : s.rst.coolBy with
  | none => simp only [execTripCoolExpiry, hn]
  | some n =>
    simp only [execTripCoolExpiry, hn]
    exact if_pos (Nat.not_le.mp fun hc => h ⟨n, hn, hc⟩)

theorem exec_tripCoolExpiry_of_cooled (h : TripCooled s) : exec .tripCoolExpiry s =
    .next ((if (regVal s 0x300018).getLsbD 8 then startBoot else id) (modRst s fun r => { r with coolBy := none })) := by
  obtain ⟨n, hn, hdue⟩ := h
  change execTripCoolExpiry s = _
  simp only [execTripCoolExpiry, hn]
  refine (if_neg (Nat.not_lt.mpr hdue)).trans ?_
  cases (regVal s 0x300018).getLsbD 8 <;> rfl

end

/-! ### Fatal errors -/

section
variable {s : State} {kind : BitVec 3} {i : BitVec 5} {addr : Word}

/-- A fatal error of a kind there is, of a die that serves where it names one. -/
def RealFatal (s : State) (k n : Nat) : Prop := k ≤ 5 ∧ (3 ≤ k → n < 20 ∧ (k = 4 → n < 8) ∧ (k ≠ 4 → 8 ≤ n) ∧ dieUp s n = true)

theorem fatalIgnored_iff (k n : Nat) : (decide (5 < k) || (decide (3 ≤ k) && (decide (20 ≤ n) || (decide (k = 4) && decide (8 ≤ n)) || (decide (k ≠ 4) && decide (n < 8)) || !dieUp s n))) = false ↔
    RealFatal s k n := by
  simp only [Bool.or_eq_false_iff, Bool.and_eq_false_iff, decide_eq_false_iff_not, Bool.not_eq_false', Nat.not_lt, Nat.not_le, ← imp_iff_not_or, RealFatal, ne_eq, and_assoc]
  rw [imp_iff_not_or (a := 3 ≤ k), Nat.not_le]

/-- The unit a fatal error names. -/
def fatalUnit (k n : Nat) : Nat := if k < 2 then unitId 0x0E 0 else if k = 2 then unitId 1 20 else unitId 1 n

/-- The island's record of it. -/
def fatalRecorded (s : State) (k n addr : Nat) : State := islandFault s { cls := 0x15, unit := fatalUnit k n, outcome := 4, cause := k, addr := addr }

theorem exec_fatalError_of_ignored (h : ¬ RealFatal s kind.toNat i.toNat) : exec (.fatalError kind i addr) s = .next s :=
  if_pos (by simpa only [Bool.not_eq_false] using mt (fatalIgnored_iff _ _).mp h)

theorem exec_fatalError_of_real (h : RealFatal s kind.toNat i.toNat) : exec (.fatalError kind i addr) s =
    (let u := fatalRecorded s kind.toNat i.toNat addr.toNat
     if kind.toNat < 2 || !bootReady s then .next (startBoot (coldReset u 8 (strapsOf u)))
     else if kind.toNat = 2 then .next (warmReset u 8 false)
     else .next (resetDie u i.toNat 0x15 kind.toNat true false)) := if_neg (Bool.eq_false_iff.mp ((fatalIgnored_iff _ _).mpr h))

end

/-- Settles O51: cold resets by `coldCleared` and the straps, resets of warm scope by `warmDevice_frame` and `regVal_warmDevice`, sources by their `exec_…` equations. -/
theorem resetSources : Obligations.ResetSources := by
  unfold Obligations.ResetSources
  refine ⟨coldReset_leaves, warmReset_leaves, fun s => ⟨rfl, rfl, fun v i hv hv' hi => ?_⟩, fun s => ⟨?_, ?_, ⟨_, rfl, rfl⟩, ⟨_, rfl, rfl⟩, ?_, ?_, perstNow_of_pending, fun v => ⟨?_, ?_⟩⟩,
    fun s => ⟨⟨?_, ?_⟩, fun c => ⟨?_, ?_⟩, ⟨?_, ?_, ?_⟩, ⟨?_, ?_⟩, ⟨?_, ?_⟩⟩, fun s kind i addr => ⟨?_, ?_, ?_, ?_, ?_, ?_⟩⟩
  · exact regVal_clearFunctions s (vfmapOff_range hv hv' hi).1 (vfmapOff_range hv hv' hi).2
  · exact fun straps => ⟨_, rfl, ⟨_, exec_coldRst_of_noRails straps, rfl⟩, ⟨_, exec_coldRst_of_rails straps, bootOrWait_eq _⟩⟩
  · exact fun straps => ⟨_, rfl, ⟨_, exec_standbyPowerOn_of_held straps, rfl⟩, ⟨_, exec_standbyPowerOn_of_free straps, bootOrWait_eq _⟩⟩
  · exact fun h => ⟨_, exec_warmScope_of_alone h, rfl⟩
  · exact fun h => ⟨_, exec_warmScope_of_perst h, rfl⟩
  · exact fun h => ⟨_, exec_vfFunctionLevelReset_of_pf h, rfl⟩
  · exact fun h => ⟨_, exec_vfFunctionLevelReset_of_vf h, vectorsCleared s v.toNat, vectorsCleared_msix s v.toNat, mem_vectorsCleared_pba s v.toNat, rfl, rfl⟩
  · exact fun h => ⟨_, exec_resetRelease_of_free h, rfl⟩
  · exact fun h => ⟨_, exec_resetRelease_of_held h, memoriesBack s, _, rfl, modDie_diePut (memoriesBack s) 20 _, rfl⟩
  · exact fun n hn hready hdue => ⟨_, exec_suspendExpiry_of_due hn hready hdue, _, rfl, modCtx_ctxPut _ _ _⟩
  · exact fun h => ⟨_, exec_suspendExpiry_of_idle h, rfl⟩
  · exact fun h => ⟨_, exec_watchdogExpiry_of_idle h, rfl⟩
  · exact fun h hwarned => ⟨_, (exec_watchdogExpiry_of_due h).trans (if_pos hwarned), rfl⟩
  · exact fun h hfirst => ⟨_, (exec_watchdogExpiry_of_due h).trans (if_neg (Bool.eq_false_iff.mp hfirst)), regSetBits s 0x300008 29 29 1, _,
      (congrArg (·.getLsbD 29) (regVal_regSetBits_same _ _ _ _ _)).trans (getLsbD_setBits_same _ true (by decide)), fun o ho => regVal_regSetBits_other _ _ _ _ (by simpa using ho),
      regPut_frame _ _ _, rfl, rfl⟩
  · exact fun h => ⟨_, exec_bootWatchdogExpiry_of_idle h, rfl⟩
  · exact fun h => ⟨_, exec_bootWatchdogExpiry_of_due h, bootRetried s, bootRetriesShown s, rfl, regVal_regSetBits_same _ _ _ _ _,
      fun o ho => regVal_regSetBits_other _ _ _ _ (by simpa using ho), regPut_frame _ _ _, rfl⟩
  · exact fun h => ⟨_, exec_tripCoolExpiry_of_idle h, rfl⟩
  · exact fun h => ⟨_, exec_tripCoolExpiry_of_cooled h, rfl⟩
  · exact fun h => ⟨_, exec_fatalError_of_ignored h, rfl⟩
  · intro hk
    refine ⟨_, exec_fatalError_of_real ⟨by omega, by omega⟩ |>.trans (if_pos (by simp [hk])), _, ?_, rfl⟩
    rw [fatalRecorded, fatalUnit, if_pos hk]
  · intro hk hready
    refine ⟨_, exec_fatalError_of_real ⟨by omega, by omega⟩ |>.trans ((if_neg (by simp [hk, hready])).trans (if_pos hk)), ?_⟩
    rw [fatalRecorded, fatalUnit, if_neg (by omega), if_pos hk]
  · intro hk hboots
    refine ⟨_, exec_fatalError_of_real ⟨by omega, by omega⟩ |>.trans (if_pos (by simp [hboots])), _, ?_, rfl⟩
    rw [fatalRecorded, fatalUnit, if_neg (by omega), if_pos hk]
  · intro hk hreal hready
    refine ⟨_, exec_fatalError_of_real hreal |>.trans ((if_neg (by simp [hready]; omega)).trans (if_neg (by omega))), ?_⟩
    rw [fatalRecorded, fatalUnit, if_neg (by omega), if_neg (by omega)]
  · intro hk hreal hboots
    refine ⟨_, exec_fatalError_of_real hreal |>.trans (if_pos (by simp [hboots])), _, ?_, rfl⟩
    rw [fatalRecorded, fatalUnit, if_neg (by omega), if_neg (by omega)]

end Sys2Proof.Proofs
end

section
/-!
The stages of the boot (15_reset_boot.md R494 to R500; 07_skeltil_base.md R249).
-/
namespace Sys2Proof.Proofs
open Sys2Proof Sys2Proof.Machine

/-! ### Fields of registers -/

/-- A digit below another stays below the product of their bases. -/
theorem digits_lt {n m a r : Nat} (ha : a < m) (hr : r < n) : n * a + r < n * m := by
  calc n * a + r < n * a + n := Nat.add_lt_add_left hr _
    _ = n * (a + 1) := (Nat.mul_succ n a).symm
    _ ≤ n * m := Nat.mul_le_mul_left n ha

section
variable (x : Word) {hi lo : Nat} (v : Nat)

/-- A field replaced leaves what lies above and below it. -/
theorem toNat_setBits (hlo : lo ≤ hi) (hhi : hi < 32) :
    (setBits x hi lo v).toNat = 2 ^ lo * (2 ^ (hi - lo + 1) * (x.toNat / 2 ^ lo / 2 ^ (hi - lo + 1)) + v % 2 ^ (hi - lo + 1)) + x.toNat % 2 ^ lo := by
  have hword : 2 ^ 32 = 2 ^ lo * (2 ^ (hi - lo + 1) * 2 ^ (31 - hi)) := by
    rw [← Nat.pow_add, ← Nat.pow_add]
    congr 1
    omega
  have hx := x.isLt
  generalize hn : 2 ^ lo = n at hword ⊢
  generalize hm : 2 ^ (hi - lo + 1) = m at hword ⊢
  have hnpos : 0 < n := hn ▸ Nat.two_pow_pos lo
  have hmpos : 0 < m := hm ▸ Nat.two_pow_pos _
  have hsplit : x.toNat = n * (m * (x.toNat / n / m) + x.toNat / n % m) + x.toNat % n := by rw [Nat.div_add_mod, Nat.div_add_mod]
  have hval : x.toNat - x.toNat / n % m * n + v % m * n = n * (m * (x.toNat / n / m) + v % m) + x.toNat % n := by
    simp only [Nat.mul_add] at hsplit ⊢
    rw [Nat.mul_comm _ n, Nat.mul_comm (v % m) n]
    omega
  have htop : x.toNat / n / m < 2 ^ (31 - hi) := by
    rw [Nat.div_lt_iff_lt_mul hmpos, Nat.div_lt_iff_lt_mul hnpos, Nat.mul_comm _ m, Nat.mul_comm _ n, ← hword]
    exact hx
  have hbound : n * (m * (x.toNat / n / m) + v % m) + x.toNat % n < 2 ^ 32 :=
    hword ▸ digits_lt (digits_lt htop (Nat.mod_lt v hmpos)) (Nat.mod_lt _ hnpos)
  simp only [setBits, bits, hn, hm, BitVec.toNat_ofNat]
  rw [hval, Nat.mod_eq_of_lt hbound]

/-- A field replaced reads as what it was set to. -/
theorem bits_setBits_same (hlo : lo ≤ hi) (hhi : hi < 32) (hv : v < 2 ^ (hi - lo + 1)) : bits (setBits x hi lo v) hi lo = v := by
  have hpos : 0 < 2 ^ lo := Nat.two_pow_pos lo
  rw [bits, toNat_setBits x v hlo hhi, Nat.mul_add_div hpos, Nat.div_eq_of_lt (Nat.mod_lt _ hpos), Nat.add_zero, Nat.mul_add_mod_self_left, Nat.mod_mod, Nat.mod_eq_of_lt hv]

/-- A field below the one replaced stays. -/
theorem bits_setBits_below {hi' lo' : Nat} (hlo : lo ≤ hi) (hhi : hi < 32) (h' : lo' ≤ hi') (h : hi' < lo) : bits (setBits x hi lo v) hi' lo' = bits x hi' lo' := by
  have hdvd : 2 ^ lo' * 2 ^ (hi' - lo' + 1) ∣ 2 ^ lo := by
    rw [← Nat.pow_add]
    exact Nat.pow_dvd_pow 2 (by omega)
  rw [bits, bits, ← Nat.mod_mul_right_div_self, ← Nat.mod_mul_right_div_self, ← Nat.mod_mod_of_dvd _ hdvd, toNat_setBits x v hlo hhi, Nat.mul_add_mod_self_left, Nat.mod_mod,
    Nat.mod_mod_of_dvd _ hdvd]

end

theorem regBits_regSetBits_same (s : State) {off hi lo v : Nat} (hlo : lo ≤ hi) (hhi : hi < 32) (hv : v < 2 ^ (hi - lo + 1)) : regBits (regSetBits s off hi lo v) off hi lo = v := by
  rw [regBits, regVal_regSetBits_same, bits_setBits_same _ _ hlo hhi hv]

theorem regBits_regSetBits_below (s : State) {off hi lo hi' lo' : Nat} (v : Nat) (hlo : lo ≤ hi) (hhi : hi < 32) (h' : lo' ≤ hi') (h : hi' < lo) :
    regBits (regSetBits s off hi lo v) off hi' lo' = regBits s off hi' lo' := by
  rw [regBits, regVal_regSetBits_same, bits_setBits_below _ _ hlo hhi h' h, regBits]

theorem stageOf_setStage (s : State) {n : Nat} (h : n < 16) : stageOf (setStage s n) = n := regBits_regSetBits_same s (by decide) (by decide) h

theorem setStage_otherRegs (s : State) (n : Nat) : OtherRegs [0x300014] s (setStage s n) := (regSetBits_moved s _ _ _ _).1

theorem setStage_frame (s : State) (n : Nat) : setStage s n = { s with rf := { s.rf with vals := (setStage s n).rf.vals } } := (regSetBits_moved s _ _ _ _).2

/-! ### Images -/

section
variable {s : State}

theorem exec_imageReadDone_of_otherStage {ok : Bool} {dirs : List (List Byte)} {img : List Byte} {f : Bool} (h : stageOf s ≠ 1) :
    exec (.imageReadDone ok dirs img f) s = .next s := if_pos h

theorem exec_imageReadDone_of_failed {dirs : List (List Byte)} {img : List Byte} {f : Bool} (h : stageOf s = 1) :
    exec (.imageReadDone false dirs img f) s = .next (passOver s 5) := if_neg (not_not_intro h)

theorem exec_imageReadDone_of_noDirectory {dirs : List (List Byte)} {img : List Byte} {f : Bool} (h : stageOf s = 1) (hn : slotLenOf dirs = none) :
    exec (.imageReadDone true dirs img f) s = .next (passOver s 1) := by
  change execImageReadDone true dirs img f s = _
  simp [execImageReadDone, h, hn]

theorem exec_imageReadDone_of_read {dirs : List (List Byte)} {img : List Byte} {f : Bool} {n : Nat} (h : stageOf s = 1) (hn : slotLenOf dirs = some n) :
    exec (.imageReadDone true dirs img f) s = .next (judgeImage s n img f) := by
  change execImageReadDone true dirs img f s = _
  simp [execImageReadDone, h, hn]

end

/-! ### What judges an image -/

section
variable {s : State} {n : Nat} {img : List Byte} {f : Bool}

theorem judgeImage_of_fault {why : Nat} (h : imageFault (svnFloorOf s) n img = why + 1) : judgeImage s n img f = passOver s (why + 1) := by
  simp only [judgeImage, h]

theorem judgeImage_of_good (h : imageFault (svnFloorOf s) n img = 0) : judgeImage s n img f = if needsFactory img && !f then haltBoot s 0x18 2 else acceptImage s img := by
  simp only [judgeImage, h]

/-- An image of an SVN below the floor. -/
def OldImage (s : State) (img : List Byte) : Prop := imgNat img 0x10 1 < max Config.svnFloor.toNat s.sec.floor

theorem imageFault_of_badHeader (h : imgHeaderOk n img = false) : imageFault (svnFloorOf s) n img = 1 := if_pos (by simp [h])

theorem imageFault_of_unsigned (h : imgHeaderOk n img = true) (hroot : rootSigned img = false) : imageFault (svnFloorOf s) n img = 3 := by
  rw [imageFault, if_neg (by simp [h]), if_pos (by simp [hroot])]

theorem imageFault_of_old (h : imgHeaderOk n img = true) (hroot : rootSigned img = true) (hold : OldImage s img) : imageFault (svnFloorOf s) n img = 4 := by
  rw [imageFault, if_neg (by simp [h]), if_neg (by simp [hroot])]
  exact if_pos hold

theorem imageFault_of_new (h : imgHeaderOk n img = true) (hroot : rootSigned img = true) (hold : ¬ OldImage s img) :
    imageFault (svnFloorOf s) n img = if contentOk img then 0 else 2 := by
  rw [imageFault, if_neg (by simp [h]), if_neg (by simp [hroot])]
  refine (if_neg hold).trans ?_
  cases contentOk img <;> rfl

end

/-! ### Images passed over, and boots that stop -/

section
variable {s : State} {why : Nat}

/-- The reason an image was passed over shows. -/
def passedOver (s : State) (why : Nat) : State := regSetBits s 0x300014 19 16 why

theorem passOver_of_recovery (h : s.rst.image = 3) : passOver s why = setStage (passedOver s why) 14 := if_pos h

theorem passOver_of_slot (h : s.rst.image ≠ 3) : passOver s why = tryImages (passedOver s why) s.rst.images := if_neg h

theorem fallback_passedOver (hwhy : why < 16) : regBits (passedOver s why) 0x300014 19 16 = why := regBits_regSetBits_same s (by decide) (by decide) hwhy

/-- The image tried next. -/
def imageTried (u : State) (i : Nat) (is : List Nat) : State := modRst u fun r => { r with images := is, image := i }

theorem tryImages_cons (u : State) (i : Nat) (is : List Nat) :
    tryImages u (i :: is) = setStage (regSetBits (imageTried u i is) 0x300014 9 8 i) (if i = 3 then 14 else 1) := rfl

/-- The next image is tried: the stage waits for recovery or for the slot's read, and the registers of the boot show which. -/
theorem tryImages_cons_spec (u : State) (i : Nat) (is : List Nat) : let t := tryImages u (i :: is)
    stageOf t = (if i = 3 then 14 else 1) ∧ t.rst.image = i ∧ t.rst.images = is ∧ OtherRegs [0x300014] u t ∧
      t = { u with rf := { u.rf with vals := t.rf.vals }, rst := { u.rst with images := is, image := i } } := by
  have hstage : (if i = 3 then 14 else 1) < 16 := by split <;> decide
  rw [tryImages_cons]
  generalize (if i = 3 then 14 else 1) = n at hstage ⊢
  have hshown := regSetBits_moved (imageTried u i is) 0x300014 9 8 i
  have hframe := valsAlone_trans hshown.2 (setStage_frame _ n)
  exact ⟨stageOf_setStage _ hstage, rfl, rfl, otherRegs_trans hshown.1 (setStage_otherRegs _ n), hframe⟩

/-- The boot stopped, before its record. -/
def bootStopped (s : State) : State := modRst (setStage s 15) fun r => { r with warmBy := none, recovering := false }

theorem bootStopped_frame (s : State) : bootStopped s = { s with rf := { s.rf with vals := (bootStopped s).rf.vals }, rst := { s.rst with warmBy := none, recovering := false } } :=
  congrArg (modRst · fun r => { r with warmBy := none, recovering := false }) (setStage_frame s 15)

theorem haltBoot_eq (s : State) (cls cause : Nat) : haltBoot s cls cause = islandFault (bootStopped s) { cls := cls, unit := unitId 0x0E 0, outcome := 7, cause := cause } := rfl

end

/-! ### Recovery -/

section
variable {s : State}

/-- The boot waits for a recovery image. -/
def WaitsForRecovery (s : State) : Prop := stageOf s = 14 ∧ s.rst.recovering = false

theorem exec_recoveryGo_of_other (h : ¬ WaitsForRecovery s) : exec .recoveryGo s = .next s := by
  refine if_pos ?_
  by_contra hc
  simp only [Bool.or_eq_true, decide_eq_true_eq, not_or, not_not, Bool.not_eq_true] at hc
  exact h hc

theorem exec_recoveryGo_of_waits (h : WaitsForRecovery s) : exec .recoveryGo s =
    if (regVal s 0x300020).toNat % 4096 ≠ 0 || regVal s 0x300028 = 0#32 then .next (regSetBits s 0x30002C 7 0 stBadDesc) else .next (modRst s fun r => { r with recovering := true }) :=
  if_neg (by simp [h.1, h.2])

/-- A recovery image is being read. -/
def ReadsRecovery (s : State) : Prop := stageOf s = 14 ∧ s.rst.recovering = true

/-- The read's outcome shows. -/
def recoveryShown (s : State) (ok : Bool) : State := regSetBits (modRst s fun r => { r with recovering := false }) 0x30002C 7 0 (if ok then stOk else stHostAddr)

theorem exec_recoveryImageLoaded_of_other {ok : Bool} {img : List Byte} {f : Bool} (h : ¬ ReadsRecovery s) : exec (.recoveryImageLoaded ok img f) s = .next s := by
  refine if_pos ?_
  by_contra hc
  simp only [Bool.or_eq_true, decide_eq_true_eq, not_or, not_not, Bool.not_eq_true', Bool.not_eq_false] at hc
  exact h hc

theorem exec_recoveryImageLoaded_of_reads {ok : Bool} {img : List Byte} {f : Bool} (h : ReadsRecovery s) : exec (.recoveryImageLoaded ok img f) s =
    .next (if ok then judgeImage (recoveryShown s ok) (regVal s 0x300028).toNat (img.take (regVal s 0x300028).toNat) f else recoveryShown s ok) := by
  refine (if_neg (by simp [h.1, h.2])).trans ?_
  cases ok <;> rfl

theorem recoveryShown_spec (ok : Bool) : regBits (recoveryShown s ok) 0x30002C 7 0 = (if ok then stOk else stHostAddr) ∧ OtherRegs [0x30002C] s (recoveryShown s ok) ∧
    recoveryShown s ok = { s with rf := { s.rf with vals := (recoveryShown s ok).rf.vals }, rst := { s.rst with recovering := false } } := by
  have hcode : (if ok then stOk else stHostAddr) < 2 ^ (7 - 0 + 1) := by cases ok <;> decide
  obtain ⟨hother, hframe⟩ := regSetBits_moved (modRst s fun r => { r with recovering := false }) 0x30002C 7 0 (if ok then stOk else stHostAddr)
  exact ⟨regBits_regSetBits_same _ (by decide) (by decide) hcode, hother, hframe⟩

end

/-! ### Warm-up and optics -/

section
variable {s : State}

/-- Every field has held its temperature for 10 ms in stage 4. -/
def WarmedUp (s : State) : Prop := ∃ n, s.rst.warmSince = some n ∧ stageOf s = 4 ∧ n + 10000000 ≤ s.gt

/-- The rings of powered fields acquire their lines. -/
def ringsAcquire (s : State) : State := modBase (modRst (setStage s 5) fun r => { r with warmBy := none }) fun b => { b with
  ready := false, acquired := (List.range 12).filter fun f => decide (pdOf s (29 + f) = .on) }

theorem exec_warmupDone_of_other (h : ¬ WarmedUp s) : exec .warmupDone s = .next s := by
  change execWarmupDone s = _
  cases hn : s.rst.warmSince with
  | none => simp only [execWarmupDone, hn]
  | some n =>
    simp only [execWarmupDone, hn]
    refine if_neg fun hc => h ⟨n, hn, ?_⟩
    simpa using hc

theorem exec_warmupDone_of_due (h : WarmedUp s) : exec .warmupDone s = .next (bootAdvance (setOptics (ringsAcquire s))) := by
  obtain ⟨n, hn, hstage, hdue⟩ := h
  change execWarmupDone s = _
  simp only [execWarmupDone, hn]
  exact if_pos (by simp [hstage, hdue])

/-- Every ring of every powered field has locked or failed. -/
theorem ringsSettled_iff : ringsSettled s = true ↔ ∀ e, e ∈ s.base.rings → e.2.st = .acquiring → pdOf s (29 + fieldOf (e.1 % 64)) ≠ .on := by
  simp only [ringsSettled, Bool.not_eq_true', List.any_eq_false, Bool.and_eq_true, decide_eq_true_eq, not_and, ne_eq]

theorem opticsSettled_iff : (decide (stageOf s = 5) && !s.base.ready && ringsSettled s) = true ↔
    stageOf s = 5 ∧ s.base.ready = false ∧ ∀ e, e ∈ s.base.rings → e.2.st = .acquiring → pdOf s (29 + fieldOf (e.1 % 64)) ≠ .on := by
  simp only [Bool.and_eq_true, decide_eq_true_eq, Bool.not_eq_true', ringsSettled_iff, and_assoc]

/-- Warm-up took too long. -/
def WarmupLate (s : State) : Prop := ∃ n, s.rst.warmBy = some n ∧ stageOf s = 4 ∧ RunOut s n

theorem exec_warmupTimeout_of_other (h : ¬ WarmupLate s) : exec .warmupTimeout s = .next s := by
  change execWarmupTimeout s = _
  cases hn : s.rst.warmBy with
  | none => simp only [execWarmupTimeout, hn]
  | some n =>
    simp only [execWarmupTimeout, hn]
    refine if_neg fun hc => h ⟨n, hn, ?_⟩
    simpa [ranOut_eq_true_iff] using hc

theorem exec_warmupTimeout_of_late (h : WarmupLate s) : exec .warmupTimeout s = .next (haltBoot s 0x14 0) := by
  obtain ⟨n, hn, hstage, hrun⟩ := h
  change execWarmupTimeout s = _
  simp only [execWarmupTimeout, hn]
  exact if_pos (by simp [hstage, (ranOut_eq_true_iff _ _).mpr hrun])

end

/-! ### The boot goes on -/

section
variable {s : State}

/-- Nothing ramps, no die is waited for, and stage 5 has its optics and banks. -/
def BootCalm (s : State) : Prop := s.pwr.ramps = [] ∧ diesWait s (decide (stageOf s = 5)) = false ∧ (stageOf s = 5 → s.base.ready = true ∧ banksWait s = false)

theorem bootAdvance_of_three (h : stageOf s = 3) : bootAdvance s =
    if s.pwr.ramps = [] && !diesWait s false then modRst (setStage s 4) fun r => { r with warmBy := some (s.gt + 60000000000) } else s := by
  simp only [bootAdvance, h]

theorem bootAdvance_of_five (h : stageOf s = 5) : bootAdvance s =
    if s.base.ready && s.pwr.ramps = [] && !diesWait s true && !banksWait s then finishBoot (setStage s 6) else s := by
  simp only [bootAdvance, h]

theorem bootAdvance_of_other (h : stageOf s ≠ 3) (h' : stageOf s ≠ 5) : bootAdvance s = s := by
  unfold bootAdvance
  split
  · exact absurd ‹_› h
  · exact absurd ‹_› h'
  · rfl

theorem calm_of_three (h : stageOf s = 3) : (decide (s.pwr.ramps = []) && !diesWait s false) = true ↔ BootCalm s := by
  simp [BootCalm, h]

theorem calm_of_five (h : stageOf s = 5) : (s.base.ready && decide (s.pwr.ramps = []) && !diesWait s true && !banksWait s) = true ↔ BootCalm s := by
  simp only [BootCalm, h, Bool.and_eq_true, decide_eq_true_eq, Bool.not_eq_true', decide_true, true_implies]
  tauto

theorem bootAdvance_of_waits (h : ¬ BootCalm s) : bootAdvance s = s := by
  by_cases hthree : stageOf s = 3
  · rw [bootAdvance_of_three hthree, if_neg (mt (calm_of_three hthree).mp h)]
  · by_cases hfive : stageOf s = 5
    · rw [bootAdvance_of_five hfive, if_neg (mt (calm_of_five hfive).mp h)]
    · exact bootAdvance_of_other hthree hfive

theorem bootAdvance_of_powered (h : stageOf s = 3) (hcalm : BootCalm s) :
    bootAdvance s = modRst (setStage s 4) fun r => { r with warmBy := some (s.gt + 60000000000) } := by
  rw [bootAdvance_of_three h, if_pos ((calm_of_three h).mpr hcalm)]

theorem bootAdvance_of_lit (h : stageOf s = 5) (hcalm : BootCalm s) : bootAdvance s = finishBoot (setStage s 6) := by
  rw [bootAdvance_of_five h, if_pos ((calm_of_five h).mpr hcalm)]

end

/-! ### READY -/

theorem tabFind_mapValues {α β : Type} (t : List (Nat × α)) (f : α → β) (k : Nat) : tabFind (t.map fun e => (e.1, f e.2)) k = (tabFind t k).map f := by
  induction t with
  | nil => rfl
  | cons e t ih =>
    simp only [List.map_cons, tabFind, ih]
    split <;> rfl

section
variable (v : State)

/-- READY shows, in stage 7. -/
def readyShown (v : State) : State := regSetBits (setStage v 7) 0x300014 31 31 1

/-- A suspended session gets time from READY on. -/
def timed (n : Nat) (k : Ctx) : Ctx := { k with suspended := k.suspended.map fun _ => n }

/-- The floor stands and suspended sessions have their time. -/
def sessionsTimed (t : State) (floor n : Nat) : State :=
  { t with sec := { t.sec with floor := floor }, ctxs := t.ctxs.map fun e => (e.1, timed n e.2) }

theorem regVal_sessionsTimed (t : State) (floor n o : Nat) : regVal (sessionsTimed t floor n) o = regVal t o := rfl

theorem regBits_sessionsTimed (t : State) (floor n o hi lo : Nat) : regBits (sessionsTimed t floor n) o hi lo = regBits t o hi lo := rfl

theorem sessionsTimed_sec (t : State) (floor n : Nat) : (sessionsTimed t floor n).sec = { t.sec with floor := floor } := rfl

theorem sessionsTimed_rst (t : State) (floor n : Nat) : (sessionsTimed t floor n).rst = t.rst := rfl

theorem sessionsTimed_ctxs (t : State) (floor n : Nat) : (sessionsTimed t floor n).ctxs = t.ctxs.map fun e => (e.1, timed n e.2) := rfl

/-- A device that READY has brought, before its reset block follows. -/
def readyTimed (v : State) : State :=
  sessionsTimed (readyShown v) (max (readyShown v).sec.floor (readyShown v).sec.floorWanted) (v.gt + 1000000000 * regBits (readyShown v) 0x300018 7 0)

/-- The reset block at READY, the firmware watchdog running out then. -/
def rstReady (wdt : Nat) (r : Rst) : Rst := { r with bootBy := none, ended := none, warmReset := false, tripped := false, wdtBy := some wdt }

theorem enterReady_eq : enterReady v = modRst (readyTimed v) (rstReady (v.gt + 1000000 * regBits (readyTimed v) 0x300008 15 0)) := rfl

theorem regVal_enterReady (o : Nat) : regVal (enterReady v) o = regVal (readyShown v) o := by
  rw [enterReady_eq, regVal_modRst, readyTimed, regVal_sessionsTimed]

theorem modRst_sec (t : State) (f : Rst → Rst) : (modRst t f).sec = t.sec := rfl

theorem modRst_ctxs (t : State) (f : Rst → Rst) : (modRst t f).ctxs = t.ctxs := rfl

theorem modRst_rst (t : State) (f : Rst → Rst) : (modRst t f).rst = f t.rst := rfl

theorem readyShown_sec : (readyShown v).sec = v.sec := by rw [readyShown, regSetBits_sec, setStage, regSetBits_sec]

theorem readyShown_rst : (readyShown v).rst = v.rst := by rw [readyShown, regSetBits_rst, setStage, regSetBits_rst]

theorem readyShown_ctxs : (readyShown v).ctxs = v.ctxs := by rw [readyShown, regSetBits_ctxs, setStage, regSetBits_ctxs]

theorem readyShown_otherRegs : OtherRegs [0x300014] v (readyShown v) := otherRegs_trans (setStage_otherRegs v 7) (regSetBits_moved _ _ _ _ _).1

theorem regBits_readyShown {o : Nat} (hi lo : Nat) (h : o ≠ 0x300014) : regBits (readyShown v) o hi lo = regBits v o hi lo :=
  congrArg (bits · hi lo) (readyShown_otherRegs v o (by simpa using h))

theorem bootReady_enterReady : bootReady (enterReady v) = true := by
  rw [bootReady, regVal_enterReady, readyShown, regVal_regSetBits_same]
  exact getLsbD_setBits_same _ true (by decide)

theorem enterReady_otherRegs : OtherRegs [0x300014] v (enterReady v) := fun o ho => (regVal_enterReady v o).trans (readyShown_otherRegs v o ho)

theorem stageOf_enterReady : stageOf (enterReady v) = 7 :=
  calc stageOf (enterReady v) = regBits (readyShown v) 0x300014 3 0 := congrArg (bits · 3 0) (regVal_enterReady v _)
    _ = regBits (setStage v 7) 0x300014 3 0 := regBits_regSetBits_below _ _ (by decide) (by decide) (by decide) (by decide)
    _ = 7 := stageOf_setStage v (by decide)

theorem enterReady_rst : (enterReady v).rst = { v.rst with bootBy := none, ended := none, warmReset := false, tripped := false, wdtBy := some (v.gt + 1000000 * regBits v 0x300008 15 0) } := by
  rw [enterReady_eq, modRst_rst, readyTimed, regBits_sessionsTimed, regBits_readyShown v 15 0 (by decide), sessionsTimed_rst, readyShown_rst, rstReady]

theorem enterReady_sec : (enterReady v).sec = { v.sec with floor := max v.sec.floor v.sec.floorWanted } := by
  rw [enterReady_eq, modRst_sec, readyTimed, sessionsTimed_sec, readyShown_sec]

theorem enterReady_ctxs : (enterReady v).ctxs = v.ctxs.map fun e => (e.1, timed (v.gt + 1000000000 * regBits (readyShown v) 0x300018 7 0) e.2) := by
  rw [enterReady_eq, modRst_ctxs, readyTimed, sessionsTimed_ctxs, readyShown_ctxs]

theorem enterReady_suspended (c : Nat) : (ctxOf (enterReady v) c).suspended = (ctxOf v c).suspended.map fun _ => v.gt + 1000000000 * regBits v 0x300018 7 0 := by
  rw [ctxOf, tabGet, enterReady_ctxs, regBits_readyShown v 7 0 (by decide), tabFind_mapValues, ctxOf, tabGet]
  cases tabFind v.ctxs c <;> rfl

end

/-- What a finished boot keeps or forms of domains (01 R18, R26; 15 R498). -/
def domainsFormed (s : State) : State :=
  if s.rst.warmReset then s else if s.rst.tripped then loseHomes ((List.range 8).foldl retile (formDomains s)) 0x0B (homesNotKept s) else formDomains s

/-- The Director runs. -/
def directorRuns (s : State) : State := regSetBits (domainsFormed s) 0x1000000 0 0 1

theorem finishBoot_eq (s : State) : finishBoot s = enterReady (startClocks (openLog (directorRuns s))) := by
  unfold finishBoot coldBoot directorRuns domainsFormed
  cases s.rst.warmReset <;> rfl

/-- Settles O52: images by `imageFault_of_…`, `passOver_of_…` and `tryImages_cons_spec`, stages by `bootAdvance_of_…`, READY by the lemmas on `enterReady`. -/
theorem bootStages : Obligations.BootStages := by
  unfold Obligations.BootStages
  refine ⟨fun s ok dirs img f => ⟨?_, ?_, ?_, ?_⟩, fun s => ⟨?_, ?_, ?_⟩, fun s ok img f => ⟨?_, ?_⟩, fun s => ⟨⟨?_, ?_⟩, ⟨?_, ?_⟩, ⟨?_, ?_⟩⟩, fun s n img f => ⟨?_, ?_, ?_, ?_, ?_, ?_⟩,
    fun s why hwhy => ⟨passedOver s why, fallback_passedOver hwhy, (regSetBits_moved s _ _ _ _).1, (regSetBits_moved s _ _ _ _).2, ?_, ?_, ?_⟩,
    fun s cls cause => ⟨bootStopped s, stageOf_setStage s (by decide), setStage_otherRegs s 15, bootStopped_frame s, haltBoot_eq s cls cause⟩,
    fun s => ⟨bootAdvance_of_other, bootAdvance_of_waits, ?_, ?_⟩, fun s => ⟨domainsFormed s, directorRuns s, _, rfl, ?_, (regSetBits_moved _ _ _ _ _).1, (regSetBits_moved _ _ _ _ _).2, rfl, finishBoot_eq s,
      bootReady_enterReady _, stageOf_enterReady _, enterReady_otherRegs _, enterReady_sec _, enterReady_rst _, enterReady_suspended _⟩⟩
  · exact fun h => ⟨_, exec_imageReadDone_of_otherStage h, rfl⟩
  · rintro h rfl
    exact ⟨_, exec_imageReadDone_of_failed h, rfl⟩
  · rintro h rfl hn
    exact ⟨_, exec_imageReadDone_of_noDirectory h hn, rfl⟩
  · rintro n h rfl hn
    exact ⟨_, exec_imageReadDone_of_read h hn, rfl⟩
  · exact fun h => ⟨_, exec_recoveryGo_of_other h, rfl⟩
  · exact fun h hbad => ⟨_, (exec_recoveryGo_of_waits h).trans (if_pos (by simpa using hbad)), regBits_regSetBits_same s (by decide) (by decide) (by decide), regSetBits_moved s _ _ _ _⟩
  · exact fun h hgood => ⟨_, (exec_recoveryGo_of_waits h).trans (if_neg (by simpa using hgood)), rfl⟩
  · exact fun h => ⟨_, exec_recoveryImageLoaded_of_other h, rfl⟩
  · intro h
    obtain ⟨hcode, hother, hframe⟩ := recoveryShown_spec (s := s) ok
    exact ⟨_, exec_recoveryImageLoaded_of_reads h, _, hcode, hother, hframe, rfl⟩
  · exact fun h => ⟨_, exec_warmupDone_of_other h, rfl⟩
  · exact fun h => ⟨_, exec_warmupDone_of_due h, setStage s 5, ringsAcquire s, stageOf_setStage s (by decide), setStage_otherRegs s 5, setStage_frame s 5, rfl, rfl⟩
  · exact fun h => if_pos (opticsSettled_iff.mpr h)
  · exact fun h => if_neg (mt opticsSettled_iff.mp h)
  · exact fun h => ⟨_, exec_warmupTimeout_of_other h, rfl⟩
  · exact fun h => ⟨_, exec_warmupTimeout_of_late h, rfl⟩
  · exact fun h => judgeImage_of_fault (imageFault_of_badHeader h)
  · exact fun h hroot => judgeImage_of_fault (imageFault_of_unsigned h hroot)
  · exact fun h hroot hold => judgeImage_of_fault (imageFault_of_old h hroot hold)
  · exact fun h hroot hold hbad => judgeImage_of_fault ((imageFault_of_new h hroot hold).trans (if_neg (Bool.eq_false_iff.mp hbad)))
  · exact fun h hroot hold hgood hneeds hf => (judgeImage_of_good ((imageFault_of_new h hroot hold).trans (if_pos hgood))).trans (if_pos (by simp [hneeds, hf]))
  · intro h hroot hold hgood hseeds
    refine ⟨_, _, rfl, rfl, ((judgeImage_of_good ((imageFault_of_new h hroot hold).trans (if_pos hgood))).trans (if_neg ?_)).trans ?_⟩
    · rcases hseeds with hseeds | hseeds <;> simp [hseeds]
    · unfold acceptImage coldBoot
      cases s.rst.warmReset <;> rfl
  · intro h
    rw [passOver_of_recovery h]
    exact ⟨stageOf_setStage _ (by decide), setStage_otherRegs _ _, setStage_frame _ _⟩
  · intro h hnone
    rw [passOver_of_slot h, hnone]
    exact congrArg (haltBoot _ 0x18) (fallback_passedOver hwhy)
  · intro i is h _ hnext
    rw [passOver_of_slot h, hnext]
    exact tryImages_cons_spec _ i is
  · intro h hcalm
    rw [bootAdvance_of_powered h hcalm]
    exact ⟨stageOf_setStage s (by decide), rfl, congrArg (modRst · fun r => { r with warmBy := some (s.gt + 60000000000) }) (setStage_frame s 4)⟩
  · exact fun h hcalm => ⟨setStage s 6, stageOf_setStage s (by decide), setStage_otherRegs s 6, setStage_frame s 6, bootAdvance_of_lit h hcalm⟩
  · rw [directorRuns, regVal_regSetBits_same]
    exact getLsbD_setBits_same _ true (by decide)

end Sys2Proof.Proofs
end

section
/-!
The fault log's acknowledgement and message, and injections (17_faults.md R545 to R551; 18_register_map.md R556 to R560).
-/
namespace Sys2Proof.Proofs
open Sys2Proof Sys2Proof.Machine

/-! ### Register writes -/

/-- A field replaced leaves the bits above it. -/
theorem getLsbD_setBits_above (x : Word) {hi lo i : Nat} (v : Nat) (hlo : lo ≤ hi) (hhi : hi < 32) (hi' : hi < i) : (setBits x hi lo v).getLsbD i = x.getLsbD i := by
  have hexp : 2 ^ i = 2 ^ lo * 2 ^ (hi - lo + 1) * 2 ^ (i - hi - 1) := by
    rw [← Nat.pow_add, ← Nat.pow_add]
    congr 1
    omega
  have htop : (setBits x hi lo v).toNat / 2 ^ i = x.toNat / 2 ^ i := by
    have hpos : 0 < 2 ^ lo := Nat.two_pow_pos lo
    have hpos' : 0 < 2 ^ (hi - lo + 1) := Nat.two_pow_pos _
    rw [hexp, ← Nat.div_div_eq_div_mul, ← Nat.div_div_eq_div_mul, ← Nat.div_div_eq_div_mul, ← Nat.div_div_eq_div_mul, toNat_setBits x v hlo hhi, Nat.mul_add_div hpos,
      Nat.div_eq_of_lt (Nat.mod_lt _ hpos), Nat.add_zero, Nat.mul_add_div hpos', Nat.div_eq_of_lt (Nat.mod_lt _ hpos'), Nat.add_zero]
  rw [BitVec.getLsbD, BitVec.getLsbD, Nat.testBit_eq_decide_div_mod_eq, Nat.testBit_eq_decide_div_mod_eq, htop]

theorem resetWaits_iff (s : State) : resetWaits s = true ↔ ∃ c, c ∈ s.pending ∧ ResetCommand c := by
  rw [resetWaits, List.any_eq_true]
  constructor
  · rintro ⟨c, hc, h⟩
    refine ⟨c, hc, ?_⟩
    split at h
    · exact .inl ⟨_, _, rfl⟩
    · exact .inr (.inl ⟨_, _, rfl⟩)
    · exact .inr (.inr (.inl rfl))
    · exact .inr (.inr (.inr (.inl rfl)))
    · exact .inr (.inr (.inr (.inr (.inl rfl))))
    · rw [Bool.and_eq_true, decide_eq_true_eq] at h
      exact .inr (.inr (.inr (.inr (.inr ⟨_, _, _, rfl, h⟩))))
    · exact absurd h Bool.false_ne_true
  · rintro ⟨c, hc, ⟨_, _, rfl⟩ | ⟨_, _, rfl⟩ | rfl | rfl | rfl | ⟨_, _, _, rfl, hoff, hbit⟩⟩
    case inr.inr.inr.inr.inr => exact ⟨_, hc, by simp [hoff, hbit]⟩
    all_goals exact ⟨_, hc, rfl⟩

section
variable (s : State) (r : Requester) (off : Nat) (v : Word)

/-- A register write that nothing sees: its requester's BARs are off, or a reset of the tick waits. -/
def WriteHidden : Prop := (r = .host ∧ barsOff s = true) ∨ ∃ c, c ∈ s.pending ∧ ResetCommand c

theorem writeHidden_iff : ((decide (r = .host) && barsOff s) || resetWaits s) = true ↔ WriteHidden s r := by
  rw [Bool.or_eq_true, Bool.and_eq_true, decide_eq_true_eq, resetWaits_iff, WriteHidden]

theorem notePldm_noted : WriteNoted s (notePldm s r off) r off := ⟨fun h => if_pos h, fun h => ⟨_, List.mem_cons_self, if_neg (not_not_intro h)⟩⟩

theorem writeReg_of_hidden (h : WriteHidden s r) : writeReg s r off v = s := if_pos ((writeHidden_iff s r).mpr h)

theorem writeReg_of_reserved (h : ¬ WriteHidden s r) (hspec : specOf off = none) : writeReg s r off v = logRefused s r off v stAddr := by
  rw [writeReg, if_neg (mt (writeHidden_iff s r).mp h), hspec]

theorem writeReg_of_seen {p : RegSpec} (h : ¬ WriteHidden s r) (hspec : specOf off = some p) : writeReg s r off v =
    if writeDenied s r p off v then logRefused s r off v stDenied else if p.fields.any (fieldBad (locked s off) v) then logRefused s r off v stRange
    else applyWrite (notePldm s r off) r off (writeValue s r off v) (newValue s r off v) (locked s off) := by
  simp only [writeReg, writeValue, newValue, mergeNow, hspec]
  exact if_neg (mt (writeHidden_iff s r).mp h)

/-- A register write has its outcome by the register map; its effect is `applyWrite` of the value and fields it has. -/
theorem writeReg_outcome {effect : State → Word → Word → State → Prop} (heffect : ∀ p, specOf off = some p →
      effect (notePldm s r off) (writeValue s r off v) (newValue s r off v) (applyWrite (notePldm s r off) r off (writeValue s r off v) (newValue s r off v) (locked s off))) :
    WriteOutcome r off v s effect (writeReg s r off v) := by
  refine ⟨writeReg_of_hidden s r off v, writeReg_of_reserved s r off v, fun p hspec h => ?_⟩
  have hseen := writeReg_of_seen s r off v h hspec
  refine ⟨fun hdenied => ?_, fun hdenied hbad => ?_, fun hdenied hgood => ⟨_, notePldm_noted s r off, ?_⟩⟩
  · rw [hseen, if_pos hdenied]
  · rw [hseen, if_neg (Bool.eq_false_iff.mp hdenied), if_pos hbad]
  · rw [hseen, if_neg (Bool.eq_false_iff.mp hdenied), if_neg (Bool.eq_false_iff.mp hgood)]
    exact heffect p hspec

end

/-! ### The fault log -/

section
variable (s : State) (r : Requester) (v w : Word) (lk : Bool)

theorem applyWrite_fltAck : applyWrite s r 0x80C v w lk = if fltHead s < v.toNat then logRefused s r 0x80C v stRange else regPut s 0x80C w :=
  if_neg (by decide)

theorem fltHead_notePldm (off : Nat) : fltHead (notePldm s r off) = fltHead s := by
  unfold notePldm
  split <;> rfl

/-- The coalescing time has run out. -/
def CoalesceDue : Prop := ∃ n, s.flt.coalesce = some n ∧ n ≤ s.gt

variable {s}

theorem exec_faultLogCoalesceExpiry_of_other (h : ¬ CoalesceDue s) : exec .faultLogCoalesceExpiry s = .next s := by
  change execFaultLogCoalesceExpiry s = _
  cases hn : s.flt.coalesce with
  | none => simp only [execFaultLogCoalesceExpiry, hn]
  | some n =>
    simp only [execFaultLogCoalesceExpiry, hn]
    exact if_pos (Nat.not_le.mp fun hc => h ⟨n, hn, hc⟩)

theorem exec_faultLogCoalesceExpiry_of_due (h : CoalesceDue s) : exec .faultLogCoalesceExpiry s =
    .next (let u := { s with flt := { s.flt with coalesce := none } }
      if (regVal s 0x800).getLsbD 31 then signalVector u 0 (bits (regVal s 0x800) 10 0) else u) := by
  obtain ⟨n, hn, hdue⟩ := h
  change execFaultLogCoalesceExpiry s = _
  simp only [execFaultLogCoalesceExpiry, hn]
  exact if_neg (Nat.not_lt.mpr hdue)

end

/-! ### Injections -/

section
variable (s : State) (r : Requester)

theorem startInjection_of_fail {kind st : Nat} {restore : Bool} (h : locked s 0x900 = false)
    (hfail : firstFail [(stRange, !injValid s (injArgs s kind)), (stDenied, injDenied s (injArgs s kind)), (stCtxState, injOut s (injArgs s kind))] = some st) :
    startInjection s kind restore = { s with inj := { s.inj with status := st } } := by
  refine (if_neg (Bool.eq_false_iff.mp h)).trans ?_
  dsimp only
  rw [hfail]

theorem startInjection_of_good {kind : Nat} {restore : Bool} (h : locked s 0x900 = false) (hvalid : injValid s (injArgs s kind) = true)
    (hopen : injDenied s (injArgs s kind) = false) (hserves : injOut s (injArgs s kind) = false) : startInjection s kind restore =
    (let t := injEffect { s with inj := { s.inj with busy := true } } (injArgs s kind) restore
     { t with inj := { t.inj with busy := false, status := stOk } }) := by
  refine (if_neg (Bool.eq_false_iff.mp h)).trans ?_
  dsimp only
  rw [hvalid, hopen, hserves]
  rfl

theorem startInjection_injected (kind : Nat) (restore : Bool) : Injected s kind restore (startInjection s kind restore) := by
  refine ⟨fun h => if_pos h, fun h => ⟨fun hinvalid => ?_, fun hvalid hdenied => ?_, fun hvalid hopen hout => ?_, fun hvalid hopen hserves => ⟨_, rfl, ?_⟩⟩⟩
  · exact startInjection_of_fail s h (by rw [hinvalid]; rfl)
  · exact startInjection_of_fail s h (by rw [hvalid, hdenied]; rfl)
  · exact startInjection_of_fail s h (by rw [hvalid, hopen, hout]; rfl)
  · exact startInjection_of_good s h hvalid hopen hserves

theorem applyWrite_injCtl (v w : Word) (lk : Bool) :
    applyWrite s r 0x900 v w lk = if v.getLsbD 31 then startInjection (regPut s 0x900 w) (bits w 7 0) (w.getLsbD 30) else regPut s 0x900 w :=
  (if_neg (by decide)).trans ((if_neg (by decide)).trans (if_pos rfl))

/-- HUB_INJ_CTL, whose GO alone is in no RW or RWL field. -/
theorem specOf_injCtl : specOf 0x900 = some (rg 0x900 0 [fld 31 31 .wo, fld 30 30 .rwl, fldR 7 0 .rwl 0 0x0B]) := by decide +kernel

/-- A PLDM write of the tick leaves a written GO as it is. -/
theorem go_writeValue (v : Word) : (writeValue s r 0x900 v).getLsbD 31 = v.getLsbD 31 := by
  rw [writeValue, specOf_injCtl]
  dsimp only
  split
  · exact (getLsbD_setBits_above _ _ (by decide) (by decide) (by decide)).trans (getLsbD_setBits_above _ _ (by decide) (by decide) (by decide))
  · rfl

theorem injection_go {kind : Nat} (restore : Bool) (h : kind < 2 ^ 30) : (BitVec.ofNat 32 (2 ^ 31 + b2n restore * 2 ^ 30 + kind)).getLsbD 31 = true := by
  have hbit : b2n restore ≤ 1 := by cases restore <;> decide
  have hval : (2 ^ 31 + b2n restore * 2 ^ 30 + kind) / 2 ^ 31 = 1 := by omega
  rw [BitVec.getLsbD_ofNat, Nat.testBit_eq_decide_div_mod_eq, hval]
  rfl

/-- A write of HUB_INJ_CTL with GO starts an injection. -/
theorem writeInject_starts {c : Instr} {kind : Nat} {restore : Bool} (hkind : kind < 2 ^ 30) (h : exec c s = .next (writeInject s r kind restore)) : StartsInjection c s r kind restore := by
  refine ⟨_, h, writeReg_outcome s r 0x900 _ fun _ _ => ?_⟩
  have hgo := (go_writeValue s r _).trans (injection_go restore hkind)
  refine ⟨hgo, ?_⟩
  rw [applyWrite_injCtl, if_pos hgo]
  exact startInjection_injected _ _ _

end

/-! ### What injections do, and their ends -/

/-- The effect of each kind (17 R550). -/
theorem injEffect_kinds (s : State) (a : InjArgs) (restore : Bool) : let t := injEffect s a restore
    let i := a.idx
    let later (u : State) : Prop := t = { u with inj := { u.inj with restores := u.inj.restores ++ [(s.gt + 10000000, a.kind, i)] } };
    (a.kind = 1 → t = replaceLane s (i / 2 ^ 16) (i / 2 ^ 8 % 256) (i % 256) ((bundleOf s (i / 2 ^ 16) (i / 2 ^ 8 % 256)).thresh + 1) false) ∧
    (a.kind = 2 → t = loseChannel s i false) ∧ (a.kind = 3 → t = unlockRing s i true) ∧ (a.kind = 4 → later (failLaser s (i / 8) (i % 8) false)) ∧
    (∀ d o, a.kind = 5 → placeOf s a.addr = some (.t0 d o) → t = sramDoubleBit s d o a.addr) ∧ (a.kind = 6 → t = loseTile s i false) ∧
    (a.kind = 7 → restore = false → t = loseDie s i (dieClass i) 0 false) ∧ (a.kind = 7 → restore = true → later (loseDie s i (dieClass i) 0 false)) ∧
    (∀ j o, a.kind = 8 → placeOf s a.addr = some (.t1 j o) → t = t1DoubleBit s j o true false) ∧
    (∀ p o, a.kind = 9 → placeOf s a.addr = some (.t2 p o) → t = t2Uncorrectable s p o false) ∧
    (a.kind = 10 → t = dropLink s (i / 16) (i % 16) 3 false) ∧ (a.kind = 11 → t = reductionFault s i false) := by
  obtain ⟨kind, unit, idx, addr⟩ := a
  refine ⟨?_, ?_, ?_, ?_, ?_, ?_, ?_, ?_, ?_, ?_, ?_, ?_⟩
  case refine_5 | refine_9 | refine_10 =>
    rintro _ _ rfl hplace
    simp only [injEffect, hplace]
  case refine_7 | refine_8 =>
    rintro rfl rfl
    rfl
  all_goals
    rintro rfl
    rfl

section
variable {s : State}

theorem exec_injectionRestore_of_none {pass : Bool} (h : s.inj.restores = []) : exec (.injectionRestore pass) s = .next s := by
  change execInjectionRestore pass s = _
  simp only [execInjectionRestore, h]

theorem exec_injectionRestore_of_some {pass : Bool} {n k i : Nat} {rs : List (Nat × Nat × Nat)} (h : s.inj.restores = (n, k, i) :: rs) :
    exec (.injectionRestore pass) s = if s.gt < n then .next s else .next (restoreUnit { s with inj := { s.inj with restores := rs } } k i pass) := by
  change execInjectionRestore pass s = _
  simp only [execInjectionRestore, h]

end

theorem restoreUnit_of_laser {u : State} {i : Nat} (h : (laserOf u i).st = .failed) :
    restoreUnit u 4 i true = modLaser u i fun l => { l with st := .standby, bus := none, checked := some u.gt } := (if_pos rfl).trans (if_pos (by simp [h]))

theorem restoreUnit_of_laser_kept {u : State} {i : Nat} {pass : Bool} (h : (laserOf u i).st ≠ .failed ∨ pass = false) : restoreUnit u 4 i pass = u :=
  (if_pos rfl).trans (if_neg (by rcases h with h | h <;> simp [h]))

theorem restoreUnit_of_die {u : State} {k i : Nat} {pass : Bool} (hk : k ≠ 4) (h : (dieOf u i).st = .lost) : restoreUnit u k i pass = resetDie u i (dieClass i) 0 true false :=
  (if_neg hk).trans (if_pos h)

theorem restoreUnit_of_die_kept {u : State} {k i : Nat} {pass : Bool} (hk : k ≠ 4) (h : (dieOf u i).st ≠ .lost) : restoreUnit u k i pass = u := (if_neg hk).trans (if_neg h)

/-- Settles O55: writes by `writeReg_outcome`, injections by `writeInject_starts` and `injEffect_kinds`, their ends by the lemmas on `restoreUnit`. -/
theorem faultLogAndInjection : Obligations.FaultLogAndInjection := by
  unfold Obligations.FaultLogAndInjection
  refine ⟨fun s r v => ⟨_, rfl, writeReg_outcome s r 0x80C v fun _ _ => ⟨fun hover => ?_, fun hin => ?_⟩⟩, fun s => ⟨?_, ?_⟩, fun s r => ?_, injEffect_kinds, fun s pass => ⟨?_, ?_⟩⟩
  · rw [applyWrite_fltAck, fltHead_notePldm, if_pos hover]
  · rw [applyWrite_fltAck, fltHead_notePldm, if_neg (Nat.not_lt.mpr hin)]
    exact regPut_spec _ _ _
  · exact fun h => ⟨_, exec_faultLogCoalesceExpiry_of_other h, rfl⟩
  · exact fun h => ⟨_, exec_faultLogCoalesceExpiry_of_due h, _, rfl, rfl⟩
  · exact ⟨writeInject_starts s r (by decide) rfl, writeInject_starts s r (by decide) rfl, writeInject_starts s r (by decide) rfl, writeInject_starts s r (by decide) rfl,
      writeInject_starts s r (by decide) rfl, writeInject_starts s r (by decide) rfl, fun restore => writeInject_starts s r (by decide) rfl, writeInject_starts s r (by decide) rfl,
      writeInject_starts s r (by decide) rfl, writeInject_starts s r (by decide) rfl, writeInject_starts s r (by decide) rfl⟩
  · exact fun h => ⟨_, exec_injectionRestore_of_none h, rfl⟩
  · refine fun n k i rs h => ⟨fun hlate => ⟨_, (exec_injectionRestore_of_some h).trans (if_pos hlate), rfl⟩,
      fun hdue => ⟨_, (exec_injectionRestore_of_some h).trans (if_neg (Nat.not_lt.mpr hdue)), _, rfl, ?_, ?_, restoreUnit_of_die, restoreUnit_of_die_kept⟩⟩
    · rintro rfl hfailed rfl
      exact restoreUnit_of_laser hfailed ▸ modLaser_laserPut _ i _
    · rintro rfl hkept
      exact restoreUnit_of_laser_kept hkept

end Sys2Proof.Proofs
end
